-- ==== Sys2Proof/Word.lean ====
section
/-! DEFINITION. The word types: a byte, a byte string, and the 16-, 32- and 64-bit words of the spec's U16, U32 and U64. -/
namespace Sys2Proof

/-- One byte (U8). -/
abbrev Byte := BitVec 8
/-- A byte string, lowest offset first. -/
abbrev Bytes := List (BitVec 8)
/-- A 16-bit word (U16). -/
abbrev Half := BitVec 16
/-- A 32-bit word (U32). -/
abbrev Word := BitVec 32
/-- A 64-bit word (U64). -/
abbrev DWord := BitVec 64

end Sys2Proof
end

