-- ==== Sys2Proof/Syntax.lean ====
section
/-! DEFINITION. The commands the block takes, one constructor of `Instr` per row of spec/opcode_table.json, and the types of their
operands. Operands a measurement, a partner or a published standard's state machine supplies (a temperature, a received message, an
error of a memory word) arrive with the command. -/
namespace Sys2Proof

/-- A link port P0–P23. -/
abbrev Port := Fin 24
/-- A display head H0–H3. -/
abbrev Head := Fin 4
/-- An Ethernet MAC. -/
abbrev Mac := Fin 2
/-- A lane of a port: 0 TX0, 1 TX1, 2 RX0, 3 RX1. -/
abbrev Lane := Fin 4

/-- The access levels of FOP, lowest first (R319). -/
inductive Level where
  | observer | operator | engineer | owner
  deriving DecidableEq, Repr

/-- A tunnel packet (R35): the header's fields as they stand on the hop, and the payload. -/
structure Packet where
  tid : BitVec 16
  ctrl : BitVec 8
  type : BitVec 8
  length : BitVec 16
  seq : BitVec 16
  time : BitVec 32
  info : BitVec 16
  hcrc : BitVec 16
  payload : Bytes
  deriving DecidableEq, Repr

/-- A path-table entry in the layout of R60. -/
structure PathEntry where
  flags : BitVec 8
  type : BitVec 8
  inp : BitVec 8
  cls : BitVec 8
  out : BitVec 16
  outTid : BitVec 16
  shaper : BitVec 16
  policer : BitVec 16
  pair : BitVec 16
  deriving DecidableEq, Repr

/-- A staged record (R66). -/
structure StageRecord where
  tid : BitVec 16
  used : BitVec 16
  activate : BitVec 64
  entry : PathEntry
  deriving DecidableEq, Repr

/-- The request fields and STATE of a ROUTES record (R72, R454). -/
structure RouteRequest where
  state : BitVec 8
  type : BitVec 8
  cls : BitVec 8
  srcHub : BitVec 8
  srcEnd : BitVec 8
  dstHub : BitVec 8
  dstEnd : BitVec 8
  rate : BitVec 32
  pair : BitVec 16
  vid : BitVec 16
  deriving DecidableEq, Repr

/-- A topology event (R20 and the field table above it). -/
structure TopoEvent where
  seq : BitVec 16
  reporter : BitVec 8
  port : BitVec 8
  kind : BitVec 8
  reason : BitVec 8
  uid : BitVec 64
  stroke : BitVec 64
  deriving DecidableEq, Repr

/-- A JOIN (R18) as it reaches the Cox: the parent and parent port it came through, and the joiner's identity, role and own port. -/
structure JoinRecord where
  parent : BitVec 8
  port : BitVec 8
  uid : BitVec 64
  role : BitVec 8
  ownPort : BitVec 8
  deriving DecidableEq, Repr

/-- A demand record of a REPORT (R120). -/
structure DemandRecord where
  tid : BitVec 16
  flags : BitVec 8
  demand : BitVec 32
  deriving DecidableEq, Repr

/-- A REPORT message (R120): the reporting hub, the fields of its payload, the JOINs that came with it, and whether it arrived
more than 20 µs after the boundary (R126). -/
structure Report where
  hub : BitVec 8
  stroke : BitVec 64
  flags : BitVec 16
  part : BitVec 8
  ports : List (BitVec 32 × BitVec 32)
  events : List TopoEvent
  joins : List JoinRecord
  demands : List DemandRecord
  late : Bool
  deriving DecidableEq, Repr

/-- A PLAN message (R127). -/
structure PlanPacket where
  effective : BitVec 64
  flags : BitVec 8
  part : BitVec 8
  parts : BitVec 8
  window : BitVec 32
  records : List (BitVec 16 × BitVec 32)
  deriving DecidableEq, Repr

/-- The pool sizes a write may change (R83, R84). -/
inductive PoolSize where
  | reserve (cls : Fin 8) | isoPool | creditC0 | creditC4 | creditPcie
  deriving DecidableEq, Repr

/-- What the check code of a memory word shows. -/
inductive WordError where
  | clean | correctable | uncorrectable
  deriving DecidableEq, Repr

/-- A VID_MAP change that rides with a staged record (R73 step 4): MAC, VID, and whether the priority tunnel is meant. -/
structure VidMapping where
  mac : Mac
  vid : BitVec 12
  prio : Bool
  deriving DecidableEq, Repr

/-- What the read path found in the cells of the packet it dequeued (R97): the worst word, its cell, and how many further words it
corrected. -/
structure CellRead where
  err : WordError
  cell : Fin 196608
  corrected : Nat
  deriving DecidableEq, Repr


/-- A block of the line code at Gears 1 and 2 as a lane received it (R142, R143): sound, with an invalid sync header, or a control block of a
reserved type. -/
inductive BlockSeen where
  | sound | badHeader | reserved
  deriving DecidableEq, Repr

/-- A received flit: the blocks that a lane did not receive as sound data, and all others, by receive lane in order, at Gears 1 and 2 (R142, R143); whether
the FEC could not correct its codeword, and the symbols it corrected, at Gears 3 and 4 (R145); and the 640 bytes. -/
structure FlitRx where
  blocks : List (Fin 3 × BlockSeen)
  uncorrectable : Bool
  corrected : Nat
  bytes : Bytes
  deriving DecidableEq, Repr

/-- The Init record (R159). -/
structure InitRecord where
  version : BitVec 8
  flags : BitVec 8
  rxNextSeq : BitVec 16
  rxOffset : BitVec 16
  limits : List (BitVec 16)
  returned : List (BitVec 16)
  deriving DecidableEq, Repr

/-- A received training set (R172), with what the receiver measures beside it: the lane inverted, its lock and alignment, this
side's unmet hold conditions (bit 0 PLL, bit 1 power) and the sets this side has sent in its state with the READY and the GEAR_SEL it now sends. -/
structure TsRx where
  id : BitVec 8
  state : BitVec 8
  lane : BitVec 8
  flags : BitVec 8
  gears : BitVec 8
  gearSel : BitVec 8
  laneUse : BitVec 8
  eqReq : BitVec 8
  eqFom : BitVec 8
  holdReason : BitVec 8
  count : BitVec 16
  rxLanesOk : BitVec 8
  reserved : BitVec 8
  check : BitVec 16
  inverted : Bool
  locked : Bool
  aligned : Bool
  ownHold : BitVec 2
  sent : BitVec 16
  deriving DecidableEq, Repr

/-- What a CC pin shows (R195, R198). -/
inductive CcTerm where
  | opened | ra | rd | rp
  deriving DecidableEq, Repr

/-- What a port sees of its partner (R198, R199): both CC pins, and VBUS at vSafe5V or above. -/
structure CcView where
  cc1 : CcTerm
  cc2 : CcTerm
  vbus : Bool
  deriving DecidableEq, Repr

/-- A cable marker's answer on SOP' or, with `sopPP`, on SOP'' (R209). -/
structure CableMarker where
  sopPP : Bool
  idHeader : BitVec 32
  vdo : BitVec 32
  active : Bool
  controller : Bool
  fiveAmps : Bool
  vmax : Fin 4
  epr : Bool
  speed : BitVec 3
  deriving DecidableEq, Repr

/-- The source settings of R203. -/
inductive SourceSetting where
  | currentMax | powerMax | pdoMask | eprEnable
  deriving DecidableEq, Repr

/-- The answers of R223 and of Exit Mode. -/
inductive VdmAnswer where
  | identity (header : BitVec 32) | svids (svids : List (BitVec 16)) | modes (vdos : List (BitVec 32)) | enterAck | exitAck | nak
  deriving DecidableEq, Repr

/-- What a port's comparators show in a tick (R229, R231, R236–R240): the fast-trip latch, the loop in limit, the active gate enhanced,
reverse current, either gate within 1 V of its COM, VBUS within ±5 % of the converter's target, and VBUS below 0.8 V. -/
structure Comparators where
  fastTrip : Bool
  inLimit : Bool
  enhanced : Bool
  reverse : Bool
  srcGateLow : Bool
  snkGateLow : Bool
  atTarget : Bool
  vsafe0 : Bool
  deriving DecidableEq, Repr

/-- Conversions of an ADC frame (R245, R246, R247): the feed inputs and the bus; a port's voltages; its current with the time since the
last current sample; the two sense-diode readings in µV. -/
inductive AdcSample where
  | feeds (fa fb bus : BitVec 32)
  | voltages (port : Port) (vbus vsrc vsnk : BitVec 32)
  | current (port : Port) (milliamps : Int) (micros : Nat)
  | diode (port : Port) (low high : Nat)
  deriving DecidableEq, Repr

/-- How a feed is lost (R248). -/
inductive FeedLossCause where
  | undervoltage | overvoltage | reverse
  deriving DecidableEq, Repr



/-- A transport of FOP (R332). -/
inductive Transport where
  | t1s | tunnel | mailbox | uart
  deriving DecidableEq, Repr

/-- A write of KEY_DERIVE (7004h.00). -/
structure DeriveRequest where
  source : BitVec 8
  dest : BitVec 8
  engines : BitVec 8
  labelLen : BitVec 8
  contextLen : BitVec 8
  label : Bytes
  context : Bytes
  deriving DecidableEq, Repr

/-- What a key operation is given (`value`), and the tamper conditions that come to hold while it runs (`tamper`), as TAMPER_DETECT
tells of others (R358, R366; DESIGN CHOICE, notes/assumptions/83.md). -/
structure KeyOperand (α : Type) where
  value : α
  tamper : BitVec 9
  deriving DecidableEq, Repr

/-- The tamper settings (7020h.01–03). -/
inductive TamperItem where
  | enable | polarity | filter
  deriving DecidableEq, Repr

/-- A FOP message (R319) of the KIND its command names, with the transport and address it came from. -/
structure FopMsg where
  transport : Transport
  addr : BitVec 128
  port : BitVec 16
  version : BitVec 8
  flags : BitVec 8
  level : BitVec 8
  session : BitVec 16
  hub : BitVec 8
  pad : BitVec 8
  counter : BitVec 32
  reqId : BitVec 16
  length : BitVec 16
  index : BitVec 16
  sub : BitVec 8
  status : BitVec 8
  offset : BitVec 32
  count : BitVec 32
  pad2 : BitVec 32
  body : Bytes
  tag : BitVec 256
  deriving DecidableEq, Repr

/-- An entry of NOTIFY_TABLE as written (1110h.00). -/
structure NotifyEntry where
  session : BitVec 16
  index : BitVec 16
  sub : BitVec 8
  mode : BitVec 8
  period : BitVec 32
  deriving DecidableEq, Repr


/-- The kinds of TLP that the PCIe port tells apart (R254, R257). -/
inductive TlpKind where
  | memRead | memWrite | cfgRead | cfgWrite | completion | message | otherPosted | otherNonPosted
  deriving DecidableEq, Repr

/-- A TLP: its kind, the routing fields of its header (a memory address; a configuration request's type, bus, device, function and
register offset, or a completion's bus), the requester ID and tag its completion carries, its data, and its bytes whole (R43). -/
structure Tlp where
  kind : TlpKind
  addr : BitVec 64
  type1 : Bool
  bus : BitVec 8
  dev : BitVec 5
  fn : BitVec 3
  reg : BitVec 12
  requester : BitVec 16
  tag : BitVec 10
  data : Bytes
  bytes : Bytes
  deriving DecidableEq, Repr

/-- What a poll of a far root port answers (R256). -/
structure VdpPoll where
  linkState : BitVec 8
  speed : BitVec 8
  width : BitVec 8
  deriving DecidableEq, Repr

/-- A received Ethernet frame, destination address through FCS, and whether its FCS is right (R48). -/
structure EthFrame where
  bytes : Bytes
  fcsOk : Bool
  deriving DecidableEq, Repr

/-- An FIO_TX or FIO_RX record as written (4050h.00, 4051h.00); PHASE belongs to FIO_TX, the stale fields to FIO_RX. -/
structure FioRecord where
  tid : BitVec 16
  offset : BitVec 16
  size : BitVec 16
  period : BitVec 16
  phase : BitVec 16
  staleLimit : BitVec 8
  staleAction : BitVec 8
  deriving DecidableEq, Repr

/-- An acyclic message slot as written (4052h.00). -/
structure AcycMsg where
  tid : BitVec 16
  info : BitVec 16
  length : BitVec 16
  state : BitVec 8
  data : Bytes
  deriving DecidableEq, Repr


/-- What a DisplayPort sink shows at its AUX channel and in training (R283, R284): the rates it supports and those links (rate, lanes) that
train, its lane limit, its DPCD revision, its EDID, and the AUX transactions that failed after retries. -/
structure SinkCaps where
  rates : List (BitVec 8)
  maxLanes : BitVec 8
  trains : List (BitVec 8 × BitVec 8)
  dpcdRev : BitVec 8
  edid : Bytes
  auxErrors : BitVec 32
  deriving DecidableEq, Repr

/-- A sink link that has trained: its rate as LINK_RATE_MAX codes it, and its lanes. -/
structure SinkLink where
  rate : BitVec 8
  lanes : BitVec 8
  deriving DecidableEq, Repr

/-- One received pixel: its three components in the stream's order (R, G, B, or Cr, Y, Cb), each as wide as the stream's bpc. -/
structure Pixel where
  r : BitVec 10
  g : BitVec 10
  b : BitVec 10
  deriving DecidableEq, Repr

/-- The attributes of a received frame (R301), with the source's bits per component coded as ENCODING [3:1]. -/
structure StreamAttr where
  pixelClock : BitVec 32
  hactive : BitVec 16
  htotal : BitVec 16
  hstart : BitVec 16
  hsync : BitVec 16
  vactive : BitVec 16
  vtotal : BitVec 16
  vstart : BitVec 16
  vsync : BitVec 16
  ycc : Bool
  bpc : BitVec 3
  colorimetry : Bytes
  deriving DecidableEq, Repr


/-- A message of neighbour discovery on the management network about a target address (R333): a solicitation of a node that asks for the address, one
of another node's duplicate address detection, or an advertisement, such as answers the hub's own detection (R334). -/
inductive NeighborMsg where
  | ask | detect | advert
  deriving DecidableEq, Repr

/-- A bridge packet (R266) of the operation its command names; `memError` says that reading the target's memory for it met an
uncorrectable word, `corrected` in how many words it corrected a single-bit error (R311). -/
structure RigPacket where
  src : BitVec 8
  tag : BitVec 12
  retx : Bool
  window : BitVec 8
  status : BitVec 8
  len : BitVec 10
  offset : BitVec 64
  inst : BitVec 32
  seq : BitVec 32
  data : Bytes
  memError : Bool
  corrected : BitVec 16
  deriving DecidableEq, Repr

/-- A request slot as written (5043h.00). -/
structure SlotRequest where
  op : BitVec 8
  hub : BitVec 8
  window : BitVec 8
  state : BitVec 8
  len : BitVec 16
  offset : BitVec 64
  data : Bytes
  deriving DecidableEq, Repr

/-- A target window as written (R268). -/
structure TargetWindow where
  kind : BitVec 8
  flags : BitVec 8
  level : BitVec 8
  prefetch : BitVec 16
  base : BitVec 64
  size : BitVec 64
  deriving DecidableEq, Repr


/-- A detection on an Umpire source line (R367): the source, its unit (FFh none) and the 64-bit DATA. -/
structure SourceEvent where
  source : Fin 96
  unit : BitVec 8
  data : BitVec 64
  deriving DecidableEq, Repr

/-- The writable fields of a SOURCE_CONFIG entry (8002h.00). -/
structure SourceConfig where
  severity : BitVec 8
  escTo : BitVec 8
  escCount : BitVec 16
  escWindow : BitVec 32
  deriving DecidableEq, Repr

/-- A port that sees VBUS up and Rp on a CC pin when the hub starts (R200): the port, and whether the pin is CC2. -/
structure PoweredPort where
  port : Port
  cc2 : Bool
  deriving DecidableEq, Repr

/-- The commands (spec/opcode_table.json, one constructor per row). -/
inductive Instr where
  /-- RESET_RELEASE (R427): The rising edge of RESET_N, or the release 1 ms after a fatal or requested reset, starts the start-up
      sequence from strap sampling to forwarding. -/
  | resetRelease (straps : BitVec 2) (powered : List PoweredPort)
  /-- AON_POWER_ON (R426): The AON domain gains power, and the hub is held ready for a start-up with cause 01h. -/
  | aonPowerOn
  /-- RESET_N_ASSERT (R425): RESET_N goes low: gates, VCONN and switched domains are held in reset, and the CC pins present dead-
      battery Rd. -/
  | resetNAssert
  /-- PERST_ASSERT (R429): PERST_N goes low while forwarding, and the PCIE domain restarts alone with configuration space at
      defaults. -/
  | perstAssert
  /-- RAIL_FAULT (R438): A monitored rail stays outside its tolerance for 2 µs while required, and SUPPLY_RAIL is detected. -/
  | railFault (rail : Fin 14)
  /-- JOIN_REPEAT (R18): No ASSIGN or REFUSE has arrived 8 ms after the last JOIN, so the Joining hub sends JOIN again. -/
  | joinRepeat
  /-- ASSIGN (R16): A Joining hub accepts ASSIGN on its joining port, sets its address, upstream port and depth, answers ASSIGN_ACK
      and starts time sync. -/
  | assign (port : Port) (parent addr depth : BitVec 8) (parentPort : Port) (isReturn : Bool)
  /-- ASSIGN_ACK (R58): An ASSIGN_ACK passing upward sets the ADDRESS_ROUTES entry of each hub on the way, and the parent reports
      REJOIN for a returning hub. -/
  | assignAck (port : Port) (addr : BitVec 8) (uid : BitVec 64) (isReturn : Bool)
  /-- REFUSE (R18): A Joining hub receives REFUSE, returns to Unjoined, and keeps the port as a power partner only. -/
  | refuse (port : Port) (reason : BitVec 8)
  /-- ORPHAN (R23): A hub receives ORPHAN on its upstream port, becomes an Orphan, and passes ORPHAN to its own downstream ports. -/
  | orphan (port : Port)
  /-- ORPHAN_HOLD_EXPIRY (R23): ORPHAN_HOLD ends: the Orphan tears down all but management tunnels and goes Unjoined, or at once
      Joining. -/
  | orphanHoldExpiry
  /-- ADDRESS_HOLD_EXPIRY (R17): A detached hub's address hold ends, and its address and held route IDs are freed. -/
  | addressHoldExpiry (addr : BitVec 8)
  /-- PROBE (R22): A hub answers a PROBE with PROBE_ACK, or its parent answers for a child held asleep. -/
  | probe (dst : BitVec 8)
  /-- PROBE_ACK (R22): The Cox receives PROBE_ACK and keeps the hub's address, routes and grants when its HUB_UID matches. -/
  | probeAck (addr : BitVec 8) (uid : BitVec 64) (treeState : BitVec 8)
  /-- PROBE_RETRY (R22): An unanswered PROBE is sent again 8 strokes later, and once more 8 strokes after that. -/
  | probeRetry (addr : BitVec 8)
  /-- PROBE_TIMEOUT (R22): A hub has not answered 24 strokes after the first PROBE and is treated as detached. -/
  | probeTimeout (addr : BitVec 8)
  /-- SYNC (R25): A child receives SYNC and steers its stroke clock toward its parent's. -/
  | sync (port : Port) (stroke : BitVec 64) (offset : Int)
  /-- DELAY_REQ (R25): A parent answers a child's delay request with DELAY_RESP. -/
  | delayReq (port : Port) (sentAt : BitVec 32)
  /-- DELAY_RESP (R25): A child receives DELAY_RESP and updates the path delay of each direction. -/
  | delayResp (port : Port) (down up : BitVec 32)
  /-- SYNC_TIMEOUT (R25): Eight strokes pass without a SYNC, and the hub drops time lock. -/
  | syncTimeout
  /-- SLEEP (R418): A parent receives SLEEP from a child and holds the child's upstream port as asleep. -/
  | sleep (port : Port)
  /-- PACKET_RECEIVE (R75): A whole packet accepted into an input's staging passes parse, look-up, police and enqueue. -/
  | packetReceive (input : Fin 33) (pkt : Packet)
  /-- PATH_TABLE_WRITE (R62): A write of path-table entries is checked and applied atomically, cancelling any staged record for the
      entry. -/
  | pathTableWrite (lvl : Level) (first : Fin 16384) (entries : List PathEntry)
  /-- MCAST_TABLE_WRITE (R65): A multicast group write applies atomically to every packet parsed after it. -/
  | mcastTableWrite (lvl : Level) (group : Fin 1024) (members : BitVec 32) (outTids : List (BitVec 16))
  /-- STAGE_TABLE_WRITE (R67): A staged record is accepted if its ACTIVATE lies ahead and it is allowed, or refused with
      PATH_STATUS. -/
  | stageTableWrite (lvl : Level) (slot : Fin 256) (rec : StageRecord)
  /-- STAGE_MESSAGE (R67): A hub receives a STAGE message from the Cox and stages the record, or answers STAGE_FAIL. -/
  | stageMessage (rec : StageRecord) (vid : Option VidMapping)
  /-- STAGE_FAIL (R456): The Cox receives STAGE_FAIL, refuses the route, and stages its teardown at the other hubs. -/
  | stageFail (hub : BitVec 8) (tid : BitVec 16) (status : BitVec 8) (activate : BitVec 64)
  /-- ROUTE_WRITE (R454): A ROUTES record write is checked against the STATE in force and requests, replaces, withdraws or tears
      down a route. -/
  | routeWrite (lvl : Level) (route : Fin 4096) (req : RouteRequest)
  /-- STROKE_BOUNDARY (R108): At each stroke boundary the hub samples histograms, clears DRAIN, applies staged records and plans,
      discards, refills buckets, opens drive windows and reports. -/
  | strokeBoundary
  /-- DRIVE_WINDOW_CLOSE (R103): The drive window of a link egress ends, and the recovery phase serves C4–C7 until the next
      boundary. -/
  | driveWindowClose (port : Port)
  /-- REPORT_RECEIVE (R120): The Cox receives a REPORT and applies its topology events and demand records in order. -/
  | reportReceive (rep : Report)
  /-- PLAN_COMPUTE (R123): The Cox computes the plan with the reports that arrived within 20 µs and sends PLAN packets for boundary
      k+2. -/
  | planCompute (elapsed : Nat)
  /-- PLAN (R127): A hub receives a PLAN packet and collects its records for the boundary named in EFFECTIVE. -/
  | plan (plan : PlanPacket)
  /-- EGRESS_SELECT (R105): When the previous packet ends, a link egress chooses the next eligible packet from C0, C1–C3, or C4–C7
      by DRR. -/
  | egressSelect (port : Port) (read : CellRead)
  /-- ADAPTER_EGRESS (R107): An adapter egress serves C0, C1–C3 in order, then C4–C7 by DRR, whenever a packet is present. -/
  | adapterEgress (e : Fin 9) (read : CellRead)
  /-- SPILL_MOVE (R94): The spill engine moves the tail's front packet to the DRAM segment when the α test allows. -/
  | spillMove (q : Fin 264)
  /-- REFILL_MOVE (R94): The refill engine moves a packet from the DRAM segment to a head below REFILL_LOW. -/
  | refillMove (q : Fin 264) (dramError : Bool)
  /-- SCRUB_READ (R98): The scrub engine reads a cell-memory word and corrects or handles errors. `owner`: the place in the buffer of the
      packet whose cell it is, none for a free cell. `collide`: a packet write falls on the word in the same cycle. -/
  | scrubRead (word : Nat) (err : WordError) (owner : Option Nat) (collide : Bool)
  /-- SCRUB_PACE_CHECK (R98): Each 1 ms the scrub engine checks its pace and takes forced slots when behind. -/
  | scrubPaceCheck (wordsDone wordsDue : Nat)
  /-- POOL_SIZE_WRITE (R84): A write of RESERVE, ISO_POOL or credit-cell sizes is checked and takes effect as the rule states. -/
  | poolSizeWrite (lvl : Level) (pool : PoolSize) (value : BitVec 32)
  /-- SPILL_SIZE_WRITE (R91): A write of SPILL_SIZE takes effect only while no queue spills and no layer or window would overlap. -/
  | spillSizeWrite (lvl : Level) (value : BitVec 8)
  /-- GRANT_WRITE (R110): A write of fixed grants is checked; a lowered grant applies next boundary and a raised one at the fourth. -/
  | grantWrite (lvl : Level) (entry : Fin 16384) (grant : BitVec 32)
  /-- SHAPER_WRITE (R112): A SHAPERS write is checked for MODE and RATE rules and sets NEXT. -/
  | shaperWrite (lvl : Level) (shaper : Fin 4096) (mode : BitVec 8) (rate : BitVec 32)
  /-- POLICER_WRITE (R115): A POLICERS write is checked for MODE and RATE rules and sets NEXT. -/
  | policerWrite (lvl : Level) (policer : Fin 4096) (mode : BitVec 8) (rate : BitVec 32)
  /-- ALLOT_WRITE (R119): A write of MIN, MAX and MODE of a route's ALLOT record counts from the next plan. -/
  | allotWrite (lvl : Level) (route : Fin 4096) (min max : BitVec 32) (mode : BitVec 8)
  /-- QUANTUM_WRITE (R134): A QUANTUM change takes effect the next time the queue is given its quantum. -/
  | quantumWrite (lvl : Level) (q : Fin 264) (value : BitVec 32)
  /-- HIST_CLEAR (R137): Writing zeros to a queue's histogram bins clears them. -/
  | histClear (lvl : Level) (delay : Bool) (q : Fin 264) (bins : List (BitVec 32))
  /-- DRIVE_WINDOW_WRITE (R104): The Cox accepts a new W, which takes effect with the plan carrying it. -/
  | driveWindowWrite (lvl : Level) (value : BitVec 32)
  /-- PCIE_TLP_RECEIVE (R257): The Cox completes, routes into a downstream tunnel, or answers as Unsupported Request a TLP from its
      link. -/
  | pcieTlpReceive (tlp : Tlp)
  /-- ROOT_PORT_TLP_RECEIVE (R259): An Oar's root port passes a TLP between link and tunnel unchanged, or answers it under R260. -/
  | rootPortTlpReceive (fromTunnel : Bool) (tlp : Tlp)
  /-- PCIE_TLP_EGRESS (R45): The egress adapter sends a waiting TLP to its partner once ordering and credit allow. -/
  | pcieTlpEgress (creditP creditNp creditCpl : Bool)
  /-- PCIE_RELEASE_ONLY (R46): No packet on the paired tunnel within 2 µs of a send, so a release-only packet is sent. -/
  | pcieReleaseOnly (tid : Fin 16384)
  /-- PCIE_HOT_RESET (R258): A host Hot Reset returns functions and virtual downstream ports to defaults and resets the affected
      Oars. -/
  | pcieHotReset (vdp : Option (Fin 64))
  /-- PCIE_LINK_TRAINING (R261): At PCIe link training the hub advertises flow-control credits scaled to CREDIT_CELLS_PCIE. -/
  | pcieLinkTraining (speed width : BitVec 8)
  /-- PCIE_LINK_DOWN (R258): The PCIe link goes down, and configuration space returns to defaults. -/
  | pcieLinkDown
  /-- VDP_POLL (R256): Every VDP_POLL strokes the Cox reads each far root port's state and updates slot status. -/
  | vdpPoll (vdp : Fin 64) (answer : Option VdpPoll)
  /-- VDP_TABLE_WRITE (R255): A binding of a virtual downstream port to a route pair is checked and applied. -/
  | vdpTableWrite (lvl : Level) (vdp : Fin 64) (down up : BitVec 16)
  /-- RP_HOT_RESET (R260): Writing RP_HOT_RESET true sends a Hot Reset on the Oar's PCIe link. -/
  | rpHotReset (lvl : Level) (value : Bool)
  /-- BAR2_ACCESS (R263): A memory TLP to BAR2 reads or writes the process image as one local access. -/
  | bar2Access (offset : Fin 65536) (write : Bool) (data : Bytes)
  /-- BAR4_WRITE (R280): A memory write TLP to BAR4 becomes posted writes or queued aperture WRITEs. -/
  | bar4Write (offset : BitVec 64) (bulk : Bool) (data : Bytes)
  /-- BAR4_READ (R280): A memory read TLP to BAR4 becomes bridge READs of at most 512 B. -/
  | bar4Read (requester : BitVec 16) (tag : BitVec 10) (offset : BitVec 64) (len : Nat)
  /-- APERTURE_TIMEOUT (R280): An aperture read not completed within APERTURE_TIMEOUT is completed with Completer Abort. -/
  | apertureTimeout (requester : BitVec 16) (tag : BitVec 10)
  /-- MAC_FRAME_RECEIVE (R265): A MAC receives a frame, discards runts and oversize frames, and passes the rest to the adapter. -/
  | macFrameReceive (mac : Mac) (frame : EthFrame)
  /-- PAUSE_FRAME (R264): A PAUSE received with PAUSE_RX true stops frame release at the next frame boundary. -/
  | pauseFrame (mac : Mac) (quanta : BitVec 16)
  /-- PAUSE_EXPIRY (R265): The pause time ends, and frame release resumes. -/
  | pauseExpiry (mac : Mac)
  /-- ETH_FRAME_EGRESS (R51): A frame whose reassembly is whole is sent to the MAC, or discarded on a reassembly error. -/
  | ethFrameEgress (mac : Mac) (tid : Fin 16384)
  /-- MAC_LINK_DOWN (R265): A MAC link goes down, and frames completed meanwhile are discarded. -/
  | macLinkDown (mac : Mac)
  /-- FIO_CYCLIC_RECEIVE (R53): A cyclic packet's payload is written atomically into its FIO_RX slice, and STATUS becomes fresh. -/
  | fioCyclicReceive (tid : Fin 16384) (payload : Bytes)
  /-- FIO_STALE (R53): STALE_LIMIT × PERIOD strokes pass without a cyclic packet; STATUS becomes stale and the slice may be zeroed. -/
  | fioStale (rec : Fin 64)
  /-- FIO_RECORD_WRITE (R54): An FIO_TX or FIO_RX record write is checked for slice rules and keeps or resets its counts. -/
  | fioRecordWrite (lvl : Level) (rx : Bool) (rec : Fin 64) (val : FioRecord)
  /-- ACYC_SUBMIT (R55): Writing STATE 01h to an ACYC_TX slot submits an acyclic message. -/
  | acycSubmit (lvl : Level) (slot : Fin 8) (msg : AcycMsg)
  /-- ACYC_SEND (R55): The adapter sends a submitted acyclic packet after the stroke's cyclic packet within the shaper allowance. -/
  | acycSend (slot : Fin 8)
  /-- ACYC_RECEIVE (R55): A received acyclic message goes into a free ACYC_RX slot, or is dropped and counted. -/
  | acycReceive (tid : Fin 16384) (info : BitVec 16) (payload : Bytes)
  /-- RIG_READ (R271): A target executes a READ once or answers a retransmission from its record. -/
  | rigRead (req : RigPacket)
  /-- RIG_WRITE (R271): A target executes a WRITE once and answers WRITE_RSP, or answers a retransmission from its record. -/
  | rigWrite (req : RigPacket)
  /-- RIG_POSTED_WRITE (R273): A target applies a posted write to a bulk window and reports gaps with POSTED_ERROR. -/
  | rigPostedWrite (req : RigPacket)
  /-- RIG_FLUSH (R274): A target answers FLUSH after applying earlier posted writes, reporting GAPS. -/
  | rigFlush (req : RigPacket)
  /-- RIG_CLAIM (R276): A target grants a CLAIM on a free bus, answers BUSY, or backs off under R277. -/
  | rigClaim (req : RigPacket)
  /-- RIG_RELEASE (R276): A target ends the claim of its bus on RELEASE. -/
  | rigRelease (req : RigPacket)
  /-- READ_RSP (R270): An initiator receives READ_RSP and ends the request. -/
  | readRsp (rsp : RigPacket)
  /-- WRITE_RSP (R270): An initiator receives WRITE_RSP, ends the request, and may issue the next write to that target. -/
  | writeRsp (rsp : RigPacket)
  /-- POSTED_ERROR (R275): An initiator logs a posted-write gap in ERR_LOG, raises MSI-X vector 1, and reports it. -/
  | postedError (rsp : RigPacket)
  /-- FLUSH_RSP (R275): An initiator ends a FLUSH and logs gaps not already reported. -/
  | flushRsp (rsp : RigPacket)
  /-- CLAIM_RSP (R276): An initiator's claim is granted, refused busy, or backed off. -/
  | claimRsp (rsp : RigPacket)
  /-- RELEASE_RSP (R276): An initiator receives RELEASE_RSP and ends the release. -/
  | releaseRsp (rsp : RigPacket)
  /-- PREFETCH_DATA (R278): An initiator stores read-ahead data in its prefetch lines. -/
  | prefetchData (rsp : RigPacket)
  /-- RETRY_TIME (R270): A request without response within RETRY_TIME is sent again with RETX set. -/
  | retryTime (tag : BitVec 12)
  /-- BULK_IDLE (R274): BULK_IDLE passes after a window's last posted write, and the initiator sends FLUSH. -/
  | bulkIdle (hub : BitVec 8) (window : Fin 32)
  /-- CLAIM_MAX (R276): A bus claim ends when CLAIM_MAX passes. -/
  | claimMax
  /-- BACKOFF_TIME (R276): A busy or backed-off claim is retried after BACKOFF_TIME, up to CLAIM_RETRIES times. -/
  | backoffTime (hub : BitVec 8)
  /-- PREFETCH_LIFE (R278): A prefetch line expires and is discarded, reporting side-effect lines under R279. -/
  | prefetchLife (line : Fin 64)
  /-- REQUEST_SLOT_SUBMIT (R281): Writing STATE 01h to a request slot issues one bridge operation. -/
  | requestSlotSubmit (lvl : Level) (slot : Fin 4) (req : SlotRequest)
  /-- TARGET_WINDOWS_WRITE (R268): An Owner write of target windows is checked and governs requests parsed after it. -/
  | targetWindowsWrite (lvl : Level) (window : Fin 32) (val : TargetWindow)
  /-- FLIT_RECEIVE (R151): The receiver checks a flit, accepts its bytes into staging, discards a duplicate, or starts a NAK
      episode. -/
  | flitReceive (port : Port) (rx : FlitRx)
  /-- FLIT_TRANSMIT (R140): The sender lays packets into a data flit, or sends a null flit, and writes a fresh LCTRL. -/
  | flitTransmit (port : Port)
  /-- REPLAY_TIMEOUT (R152): No release or NAK for REPLAY_TIMEOUT, and the sender replays from its oldest unreleased flit. -/
  | replayTimeout (port : Port)
  /-- LANES_TRAINED (R158): The lanes report trained, and the link enters Init with a fresh start or RESUME 1. -/
  | lanesTrained (port : Port) (gear txLanes rxLanes : Nat)
  /-- INIT_RECEIVE (R158): A valid agreeing Init takes the link Active, while a disagreeing one takes it Down. -/
  | initReceive (port : Port) (init : InitRecord)
  /-- NONCE_RECORD (R352): A receiver in Init stores the partner's NONCE record for Init validity. -/
  | nonceRecord (port : Port) (parity : Bool) (nonce : BitVec 96) (check : BitVec 16)
  /-- INIT_TIMEOUT (R158): No valid Init within 1 ms, and the link goes Down. -/
  | initTimeout (port : Port)
  /-- RETRAIN_LIMIT_EXPIRY (R158): RETRAIN_LIMIT expires before Active, the link goes Down, and the tree effects follow. -/
  | retrainLimitExpiry (port : Port)
  /-- RETRAIN_REQUEST (R158): Writing RETRAIN_REQUEST true retrains an Active link, or wakes a Quiet one first. -/
  | retrainRequest (lvl : Level) (port : Port) (value : Bool)
  /-- QUIET_REQUEST (R160): A side receives a Quiet request and acknowledges it when it too has nothing to send. -/
  | quietRequest (port : Port)
  /-- QUIET_ACKNOWLEDGE (R160): The requester receives Quiet acknowledge, and both sides idle their lanes. -/
  | quietAcknowledge (port : Port)
  /-- QUIET_WAKE (R161): A side with a packet for a Quiet link wakes it. -/
  | quietWake (port : Port)
  /-- QUIET_WAKE_LEAD (R161): QUIET_WAKE_LEAD before each boundary the parent wakes a Quiet link. -/
  | quietWakeLead (port : Port)
  /-- WAKE_FAIL (R158): A wake from Quiet fails within 38 µs, and the link enters Retrain with cause 02h. -/
  | wakeFail (port : Port)
  /-- CRYPT_ENABLE_WRITE (R149): A CRYPT_ENABLE write takes effect at the next Init. -/
  | cryptEnableWrite (lvl : Level) (port : Port) (value : Bool)
  /-- CREDIT_LIMIT_WRITE (R154): A CREDIT_LIMIT write is checked and takes effect at the next Init. -/
  | creditLimitWrite (lvl : Level) (port : Port) (cls : Fin 8) (value : BitVec 16)
  /-- RECEIVER_DETECT (R173): Every 100 µs in Detect the lanes run receiver detection and go to Wake on a termination. -/
  | receiverDetect (port : Port) (tx0 tx1 : Bool)
  /-- WAKE_BURSTS_RECEIVED (R173): Four wake bursts received and four sent take the lanes to the stake-boat hold. -/
  | wakeBurstsReceived (port : Port)
  /-- WAKE_TIMEOUT (R173): One ms in Wake without the bursts, and the lanes return to Detect. -/
  | wakeTimeout (port : Port)
  /-- TS_RECEIVE (R172): A valid training set advances bring-up: hold exit, polarity and order, equalisation, lock, deskew, or gear
      negotiation. -/
  | tsReceive (port : Port) (lane : Fin 3) (rx : TsRx)
  /-- EQ_STEP (R177): The receiver's preset or coefficient-step interval ends, and it requests the next. -/
  | eqStep (port : Port) (lane : Fin 3) (fom : BitVec 8)
  /-- RATE_SWITCH (R173): The rate switch to a new gear completes, and Equalise starts there. -/
  | rateSwitch (port : Port)
  /-- HOLD_LIMIT_EXPIRY (R175): HOLD_LIMIT expires in the stake-boat hold, and the lanes return to Detect. -/
  | holdLimitExpiry (port : Port)
  /-- POLARITY_TIMEOUT (R173): 100 µs without a valid TS in Polarity and order, and the lanes return to Detect. -/
  | polarityTimeout (port : Port)
  /-- EQUALISE_LIMIT (R180): The equalisation limit expires, and the side falls back to Gear 1, degrades, or returns to Detect. -/
  | equaliseLimit (port : Port)
  /-- LOCK_TIMEOUT (R180): 100 µs pass in Lock or Deskew, and failure handling follows. -/
  | lockTimeout (port : Port)
  /-- GEAR_NEGOTIATION_TIMEOUT (R180): 100 µs without gear agreement, and failure handling follows. -/
  | gearNegotiationTimeout (port : Port)
  /-- GEAR_STEP_LIMIT (R180): GEAR_STEP_LIMIT passes since the rate switch without Trained, and the side falls back to Gear 1. -/
  | gearStepLimit (port : Port)
  /-- LANES_IDLE_WAKE (R183): A wake in Lanes idle relocks CDRs and reports trained without gear negotiation. -/
  | lanesIdleWake (port : Port)
  /-- LOS_ASSERT (R186): Loss of signal asserts on a lane, and is counted or causes a retrain with cause 02h. -/
  | losAssert (port : Port) (lane : Lane)
  /-- LOL_ASSERT (R186): Loss of lock asserts on a lane, and is counted or causes a retrain with cause 02h. -/
  | lolAssert (port : Port) (lane : Lane)
  /-- EYE_SCAN_DONE (R188): An eye scan completes and updates EYE_HEIGHT and EYE_WIDTH, raising a margin alarm after three low
      scans. -/
  | eyeScanDone (port : Port) (lane : Lane) (height width : BitVec 16)
  /-- LINK_ENABLE_WRITE (R174): Writing LINK_ENABLE false takes the link Down like a port reset, and true starts bring-up. -/
  | linkEnableWrite (lvl : Level) (port : Port) (value : Bool)
  /-- GEAR_MAX_WRITE (R184): Lowering GEAR_MAX below the gear in force starts a retrain, and raising it waits for the next retrain. -/
  | gearMaxWrite (lvl : Level) (port : Port) (value : BitVec 8)
  /-- LANE_USE_WRITE (R170): A changed LANE_USE at the deciding side of an Active link starts a retrain with cause 03h. -/
  | laneUseWrite (lvl : Level) (port : Port) (value : BitVec 8)
  /-- READY_HOLD_WRITE (R175): READY_HOLD keeps or releases the link from the stake-boat hold. -/
  | readyHoldWrite (lvl : Level) (port : Port) (value : Bool)
  /-- TEST_MODE_WRITE (R189): A TEST_MODE write enters a pattern or loopback test from Off, or returns the lanes to Off. -/
  | testModeWrite (lvl : Level) (port : Port) (value : BitVec 8)
  /-- BITSLIP (R194): Writing BITSLIP delays the word boundary by k unit intervals or symbols. -/
  | bitslip (lvl : Level) (port : Port) (lane : Lane) (value : BitVec 8)
  /-- CAPTURE_AT_WRITE (R194): Writing CAPTURE_AT makes CAPTURE hold the next word of that number. -/
  | captureAtWrite (lvl : Level) (port : Port) (lane : Lane) (value : BitVec 8) (word : BitVec 64)
  /-- INJECT_MODE_WRITE (R193): Writing INJECT_MODE starts a single or periodic error injection. -/
  | injectModeWrite (lvl : Level) (port : Port) (lane : Lane) (value : BitVec 8)
  /-- INJECT (R193): The injector inverts INJECT_BURST bits, once or every INJECT_INTERVAL bits. -/
  | inject (port : Port) (lane : Lane)
  /-- DRP_TOGGLE (R198): An unattached DRP port alternates Rp and Rd over DRP_PERIOD. -/
  | drpToggle (port : Port)
  /-- CC_TERMINATION_SEEN (R198): A partner termination on a CC pin stops toggling and starts debounce. -/
  | ccTerminationSeen (port : Port) (cc : CcView)
  /-- CC_DEBOUNCE_EXPIRY (R198): tCCDebounce expires and the port attaches as Source or Sink with its orientation. -/
  | ccDebounceExpiry (port : Port)
  /-- CC_DETACH (R220): A detach returns the port to Unattached, takes the lanes to Off, and reports DETACH. -/
  | ccDetach (port : Port)
  /-- SOURCE_CAPABILITIES (R207): A sink port receives Source_Capabilities and requests a PDO by its policy. -/
  | sourceCapabilities (port : Port) (epr : Bool) (pdos : List (BitVec 32))
  /-- REQUEST (R202): A source port evaluates a sink's Request against the PDOs it offers and accepts or rejects it. -/
  | request (port : Port) (epr : Bool) (rdo : BitVec 32)
  /-- ACCEPT (R231): An Accept starts the power transition of the new contract. -/
  | accept (port : Port)
  /-- PS_RDY (R205): PS_RDY completes a contract, and a sink may start EPR entry. -/
  | psRdy (port : Port)
  /-- EPR_MODE_ENTER (R204): A source answers EPR_Mode Enter with Enter Succeeded and EPR capabilities, or Enter Failed. -/
  | eprModeEnter (port : Port)
  /-- EPR_MODE_EXIT (R204): EPR_Mode Exit from either side leaves EPR. -/
  | eprModeExit (port : Port)
  /-- EPR_KEEPALIVE (R204): A source receives a sink's EPR keep-alive and restarts its keep-alive timer. -/
  | eprKeepalive (port : Port)
  /-- SOFT_RESET (R213): A received Soft_Reset resets MessageID counters and re-establishes the contract. -/
  | softReset (port : Port)
  /-- HARD_RESET (R214): A received Hard Reset ends contract, EPR and Epolarex Link mode, and returns attach roles. -/
  | hardReset (port : Port)
  /-- PR_SWAP (R215): A received PR_Swap is accepted, rejected or waited, and an accepted swap moves power roles under R217. -/
  | prSwap (port : Port)
  /-- DR_SWAP (R215): A received DR_Swap is accepted, rejected or waited. -/
  | drSwap (port : Port)
  /-- VCONN_SWAP (R215): A received VCONN_Swap is accepted, rejected or waited. -/
  | vconnSwap (port : Port)
  /-- PD_WAIT (R215): A Wait answer to the port's swap request schedules a retry after tSwapRetry. -/
  | pdWait (port : Port)
  /-- PD_UNSUPPORTED (R196): An unsupported SOP message is answered with Not_Supported, and one on SOP' or SOP'' is ignored. -/
  | pdUnsupported (port : Port) (sop : Fin 3) (msg : BitVec 8)
  /-- DISCOVER_IDENTITY (R222): The hub answers Discover Identity with its ID Header, Cert Stat and Product VDOs. -/
  | discoverIdentity (port : Port)
  /-- DISCOVER_SVIDS (R222): The hub answers Discover SVIDs with 3B5Eh only. -/
  | discoverSvids (port : Port)
  /-- DISCOVER_MODES (R222): The hub answers Discover Modes with its Mode VDO. -/
  | discoverModes (port : Port) (svid : BitVec 16)
  /-- ENTER_MODE (R224): The UFP acknowledges or NAKs Enter Mode, and on ACK both sides count the mode entered. -/
  | enterMode (port : Port) (svid : BitVec 16) (position : BitVec 3) (vdo : BitVec 32)
  /-- EXIT_MODE (R226): Exit Mode ends Epolarex Link mode, taking the lanes to Off and the link Down. -/
  | exitMode (port : Port) (svid : BitVec 16)
  /-- ATTENTION (R226): An Attention with 01h asks the DFP to exit the mode. -/
  | attention (port : Port) (svid : BitVec 16) (vdo : BitVec 32)
  /-- CABLE_IDENTITY (R209): A cable marker's SOP' answer sets CABLE_CURRENT, CABLE_VMAX, CABLE_EPR and CABLE_SPEED. -/
  | cableIdentity (port : Port) (cable : CableMarker)
  /-- SENDER_RESPONSE_TIMER (R213): SenderResponseTimer expires, and the port escalates to Soft Reset or Hard Reset. -/
  | senderResponseTimer (port : Port)
  /-- PS_TRANSITION_TIMER (R213): PSTransitionTimer or tPSSourceOn expires, and the port sends Hard Reset. -/
  | psTransitionTimer (port : Port)
  /-- SOURCE_EPR_KEEPALIVE_TIMER (R204): No message from the sink in EPR for tSourceEPRKeepAlive, and the source sends Hard Reset. -/
  | sourceEprKeepaliveTimer (port : Port)
  /-- SINK_EPR_KEEPALIVE_TIMER (R205): tSinkEPRKeepAlive passes without a message, and the sink sends EPR_KeepAlive. -/
  | sinkEprKeepaliveTimer (port : Port)
  /-- NO_RESPONSE_TIMER (R213): tNoResponse passes without a contract, and the port escalates to the next Hard Reset or
      ErrorRecovery. -/
  | noResponseTimer (port : Port)
  /-- PPS_REQUEST_TIMER (R208): tPPSRequest passes, and the sink repeats its PPS request. -/
  | ppsRequestTimer (port : Port)
  /-- SWAP_RETRY_TIMER (R215): tSwapRetry passes, and the port retries its swap or gives up with SWAP_RESULT 03h. -/
  | swapRetryTimer (port : Port)
  /-- MODE_ENTRY_DELAY (R223): MODE_ENTRY_DELAY after the latest contract ends, and the DFP begins mode discovery. -/
  | modeEntryDelay (port : Port)
  /-- ENTRY_WAIT (R225): No Enter Mode reaches the UFP within ENTRY_WAIT, and ENTRY_RESULT becomes 02h. -/
  | entryWait (port : Port)
  /-- VDM_RESPONSE_TIMEOUT (R225): No VDM answer within tVDMSenderResponse or tVDMWaitModeEntry, and mode entry is retried or
      abandoned. -/
  | vdmResponseTimeout (port : Port)
  /-- GOODCRC_TIMEOUT (R210): GoodCRC does not arrive within tReceive, and the message is retried or counted as failed. -/
  | goodcrcTimeout (port : Port) (sop : Fin 3)
  /-- ERROR_RECOVERY_TIMER (R214): tErrorRecovery ends, and the port returns to Unattached. -/
  | errorRecoveryTimer (port : Port)
  /-- SRC_RECOVER_TIMER (R214): tSrcRecover ends after a Hard Reset, and the source restores vSafe5V and sends capabilities. -/
  | srcRecoverTimer (port : Port)
  /-- VCONN_STABLE_TIMER (R209): tVCONNStable after VCONN rises, and the VCONN source sends Discover Identity on SOP'. -/
  | vconnStableTimer (port : Port)
  /-- CABLE_DISCOVERY_RETRY (R209): An unanswered cable discovery is retried 50 ms later, or CABLE_STATE becomes no marker. -/
  | cableDiscoveryRetry (port : Port)
  /-- SEND_SOURCE_CAP_TIMER (R212): tTypeCSendSourceCap passes, and the source resends capabilities or marks a Type-C-only partner. -/
  | sendSourceCapTimer (port : Port)
  /-- VCONN_OVERCURRENT (R201): VCONN current above 350 mA for 100 µs turns VCONN off with a fault. -/
  | vconnOvercurrent (port : Port) (milliamps : BitVec 16)
  /-- POLICY_WRITE (R197): A changed POLICY sends the port through ErrorRecovery. -/
  | policyWrite (lvl : Level) (port : Port) (value : BitVec 8)
  /-- SOURCE_SETTINGS_WRITE (R203): A change of source limits, PDO mask or EPR_ENABLE leads to new capabilities within 50 ms. -/
  | sourceSettingsWrite (lvl : Level) (port : Port) (setting : SourceSetting) (value : BitVec 16)
  /-- SWAP_REQUEST_PR_SWAP (R215): Writing SWAP_REQUEST 01h makes the port send PR_Swap. -/
  | swapRequestPrSwap (lvl : Level) (port : Port)
  /-- SWAP_REQUEST_DR_SWAP (R215): Writing SWAP_REQUEST 02h makes the port send DR_Swap. -/
  | swapRequestDrSwap (lvl : Level) (port : Port)
  /-- SWAP_REQUEST_VCONN_SWAP (R215): Writing SWAP_REQUEST 03h makes the port send VCONN_Swap. -/
  | swapRequestVconnSwap (lvl : Level) (port : Port)
  /-- PORT_DISABLE_WRITE (R206): PORT_DISABLE true puts the port in Disabled, and false returns it through ErrorRecovery. -/
  | portDisableWrite (lvl : Level) (port : Port) (value : Bool)
  /-- EPX_ENABLE_WRITE (R226): EPX_ENABLE written false ends the mode by Exit Mode or Attention, and true allows a retry. -/
  | epxEnableWrite (lvl : Level) (port : Port) (value : Bool)
  /-- POWER_PATH_TICK (R240): Every 1 µs tick the hub evaluates comparators, faults and power-good for each port. -/
  | powerPathTick (port : Port) (cmp : Comparators)
  /-- FAST_TRIP (R237): Current above FAST_TRIP_MA starts a fault turn-off of the pair within 200 ns. -/
  | fastTrip (port : Port)
  /-- FAULT_TIMER_EXPIRY (R238): The fault timer reaches FAULT_TIME, and the pair takes a fault turn-off. -/
  | faultTimerExpiry (port : Port)
  /-- THERMAL_LIMIT (R239): The pair's temperature reaches FET_TEMP_LIMIT, and the pair takes a fault turn-off. -/
  | thermalLimit (port : Port) (sink : Bool)
  /-- REVERSE_CURRENT (R236): Current against the pair's direction above REVERSE_MA for 2 µs turns the pair off. -/
  | reverseCurrent (port : Port)
  /-- PATH_TURN_ON (R230): The sequencer asks for VBUS, and the converter is enabled and the pair ramped when allowed. -/
  | pathTurnOn (port : Port) (sink : Bool)
  /-- CONVERTER_SETTLED (R230): VSRC holds within ±5 % for 100 µs, and the source pair enters Ramp. -/
  | converterSettled (port : Port)
  /-- CONVERTER_TIMEOUT (R229): The converter is not within ±5 % 20 ms after enable, which is a converter fault. -/
  | converterTimeout (port : Port)
  /-- RAMP_COMPLETE (R229): The output node comes within 1 V of its input, and the pair goes On at full enhancement. -/
  | rampComplete (port : Port) (sink : Bool)
  /-- PATH_TURN_OFF (R229): A turn-off request brings the pair to Off with a normal gate turn-off. -/
  | pathTurnOff (port : Port) (sink : Bool)
  /-- COOL_DOWN_EXPIRY (R229): COOL_DOWN passes with the estimate low enough, and the pair returns to Off. -/
  | coolDownExpiry (port : Port) (sink : Bool)
  /-- RETRY_HOLD (R229): A pair holds On for 1 s, and RETRIES returns to 0. -/
  | retryHold (port : Port)
  /-- FAULT_CLEAR (R229): Writing FAULT_CLEAR true takes a Latched pair to Off. -/
  | faultClear (lvl : Level) (port : Port) (value : Bool)
  /-- ADC_CONVERSION (R246): An ADC frame samples feeds, priority ports and background inputs, updating measurements. -/
  | adcConversion (sample : AdcSample)
  /-- FEED_QUALIFY (R248): A feed stays within range for FEED_QUAL_TIME and becomes qualified. -/
  | feedQualify (feedB : Bool)
  /-- FEED_LOSS (R248): A feed is lost by undervoltage, overvoltage or reverse current, starting a transfer if possible. -/
  | feedLoss (feedB : Bool) (cause : FeedLossCause)
  /-- FEED_DEAD_TIME_EXPIRY (R250): DEAD_TIME ends, and the incoming pair starts ramping the bus. -/
  | feedDeadTimeExpiry
  /-- FEED_RAMP_COMPLETE (R250): The bus reaches the feed's voltage, and the incoming pair goes to full enhancement. -/
  | feedRampComplete
  /-- FEED_REVERT (R249): With AUTO_REVERT, the preferred feed stays qualified for REVERT_TIME and the hub transfers back. -/
  | feedRevert
  /-- HEAD_MODE_WRITE (R285): A MODE write takes the head through off into its new mode, or is refused busy. -/
  | headModeWrite (lvl : Level) (head : Head) (value : BitVec 8)
  /-- TIMING_WRITE (R288): A TIMING object write is refused while the head is in scan-out. -/
  | timingWrite (lvl : Level) (head : Head) (item : Fin 10) (value : BitVec 32)
  /-- COMMIT (R292): Writing a layer mask to COMMIT hands the checked shadow fields to the head for the next latch edge. -/
  | commit (lvl : Level) (head : Head) (mask : BitVec 8)
  /-- LATCH_EDGE (R287): At the start of vertical blanking FRAME_SEQ rises, pending commits latch, and replaced buffers retire. -/
  | latchEdge (head : Head)
  /-- UNDERRUN (R299): A needed pixel is missing at output, and the head outputs background for the rest of the line. -/
  | underrun (head : Head) (line : BitVec 16)
  /-- HPD_RISE (R284): An HPD rising edge makes a source head retrain its output link. -/
  | hpdRise (head : Head) (sink : SinkCaps)
  /-- IRQ_HPD (R284): An IRQ_HPD showing loss of link status makes the head retrain. -/
  | irqHpd (head : Head) (linkLost : Bool) (sink : SinkCaps)
  /-- CAPTURE_FRAME (R301): A capture head sends the stream-attribute packet before each frame's line 0, then the pixel packets. -/
  | captureFrame (head : Head) (attr : StreamAttr) (lines : List (List Pixel))
  /-- SDP_RECEIVE (R302): A capture head sends each received secondary data packet as one packet. -/
  | sdpReceive (head : Head) (line : BitVec 13) (audio : Bool) (data : Bytes)
  /-- PASS_THROUGH_PACKET (R303): A pass-through head stores a stream packet for output at TIME + PRESENT_DELAY, or discards a late
      one. -/
  | passThroughPacket (head : Head) (pkt : Packet)
  /-- STREAM_LOST (R305): LOSS_LINES consecutive lines without a packet, and STREAM_STATE becomes lost. -/
  | streamLost (head : Head)
  /-- PAIR_LOCK_WRITE (R306): A PAIR_LOCK write locks or unlocks a head pair while both are off. -/
  | pairLockWrite (lvl : Level) (head : Head) (value : Bool)
  /-- CAP_FORMAT_WRITE (R301): A CAP_FORMAT write is refused while the head is in capture. -/
  | capFormatWrite (lvl : Level) (head : Head) (value : BitVec 8)
  /-- DRAM_SCRUB (R312): The DRAM scrub engine reads a word and writes back a corrected single-bit error. -/
  | dramScrub (word : Nat) (err : WordError) (collide : Bool)
  /-- DRAM_SCRUB_PACE (R312): Every 100 ms the DRAM scrub checks its pace and takes forced slots when behind. -/
  | dramScrubPace (wordsDone wordsDue : Nat)
  /-- FOP_READ (R320): A FOP READ is checked and answered with the bytes of a scalar or table range. -/
  | fopRead (msg : FopMsg)
  /-- FOP_WRITE (R317): A FOP WRITE is checked in full and applied whole, or refused with the first failing status. -/
  | fopWrite (msg : FopMsg)
  /-- FOP_READ_BLOCK (R321): A READ_BLOCK copies a table range into the session's block buffer in one step. -/
  | fopReadBlock (msg : FopMsg)
  /-- FOP_WRITE_BLOCK (R321): A WRITE_BLOCK opens a write block and collects its first bytes. -/
  | fopWriteBlock (msg : FopMsg)
  /-- FOP_SEGMENT (R321): A SEGMENT serves bytes of a read block or adds bytes to a write block, completing it when whole. -/
  | fopSegment (msg : FopMsg)
  /-- FOP_ABORT (R321): A block request with ABORT set ends the open block without opening a new one. -/
  | fopAbort (write : Bool) (msg : FopMsg)
  /-- FOP_RELAY (R335): The Cox relays a FOP message to its target hub and records the relay entry, or answers UNREACHABLE. -/
  | fopRelay (transport : Transport) (addr : BitVec 128) (port : BitVec 16) (raw : Bytes)
  /-- SESSION_OPEN (R325): A SESSION_OPEN write draws a hub nonce, assigns a session and derives its key. -/
  | sessionOpen (msg : FopMsg)
  /-- SESSION_CLOSE (R330): Writing a session number to SESSION_CLOSE ends that session after the response. -/
  | sessionClose (msg : FopMsg)
  /-- IDLE_TIMEOUT (R330): No valid request for IDLE_TIMEOUT ends the session. -/
  | idleTimeout (session : BitVec 16)
  /-- BLOCK_TIMEOUT (R321): BLOCK_TIMEOUT passes without a segment, and the block ends unapplied. -/
  | blockTimeout (session : BitVec 16)
  /-- NOTIFY_SAMPLE (R331): Every millisecond the hub checks change subscriptions and sends a NOTIFY for a changed value. -/
  | notifySample
  /-- NOTIFY_PERIOD (R331): A periodic subscription's PERIOD passes, and a NOTIFY is sent. -/
  | notifyPeriod (sub : Fin 32)
  /-- NOTIFY_TABLE_WRITE (R331): A subscription write is checked for ownership, scalar target and readability. -/
  | notifyTableWrite (lvl : Level) (session : BitVec 16) (sub : Fin 32) (val : NotifyEntry)
  /-- MAILBOX_DOORBELL (R336): Writing 1 to DOORBELL submits the request in REQ_BUF. -/
  | mailboxDoorbell (request : Bytes)
  /-- RSP_ACK (R336): Writing 1 to RSP_ACK releases the response area and clears RSP_READY. -/
  | rspAck
  /-- NEIGHBOR_SOLICITATION (R333): The management interface answers Neighbor Solicitation and runs duplicate address detection. -/
  | neighborSolicitation (target : BitVec 128) (kind : NeighborMsg)
  /-- ECHO_REQUEST (R333): The management interface answers an ICMPv6 Echo Request. -/
  | echoRequest (source : BitVec 128) (payload : Bytes)
  /-- UDP_WRONG_PORT (R333): UDP to a port other than FOP_PORT is answered with Destination Unreachable. -/
  | udpWrongPort (source : BitVec 128) (port : BitVec 16)
  /-- SETTINGS_SAVE (R341): Writing SETTINGS_SAVE true starts copying every stored object into a settings record. -/
  | settingsSave (lvl : Level) (value : Bool)
  /-- SETTINGS_SAVE_DONE (R341): A settings save completes or fails, and SETTINGS_STATE reads 01h or 03h. -/
  | settingsSaveDone (ok : Bool)
  /-- FACTORY_RESTORE (R341): Writing FACTORY_RESTORE true erases the record and resets the hub after the response. -/
  | factoryRestore (lvl : Level) (value : Bool)
  /-- KEY_LOAD (R346): An Owner KEY_LOAD installs a new key generation in a slot under R344. -/
  | keyLoad (lvl : Level) (transport : Transport) (slot engines : BitVec 8) (key : KeyOperand (BitVec 256))
  /-- KEY_ERASE (R347): Writing a slot to KEY_ERASE installs an empty generation. -/
  | keyErase (lvl : Level) (slot : KeyOperand (BitVec 8))
  /-- KEY_DERIVE (R349): An Owner KEY_DERIVE derives 256 bits from a slot or the root secret into DEST. -/
  | keyDerive (lvl : Level) (req : KeyOperand DeriveRequest)
  /-- ROOT_GENERATE (R350): Writing ROOT_GENERATE true fills an absent root secret from the random generator. -/
  | rootGenerate (lvl : Level) (value : Bool)
  /-- ADVANCE (R355): Writing ADVANCE 01h switches the port's transmit direction to next-epoch keys. -/
  | advance (lvl : Level) (port : Port) (value : BitVec 8)
  /-- TAMPER_DETECT (R358): A tamper detection clears engine keys, zeroes the store, sets the latch, and ends sessions. -/
  | tamperDetect (sources : BitVec 9)
  /-- TAMPER_CLEAR (R360): An Owner write of TAMPER_CLEAR true clears the latch when no enabled source is present. -/
  | tamperClear (lvl : Level) (value : Bool)
  /-- TAMPER_CONFIG_WRITE (R361): A write of tamper enable, polarity or filter takes effect within 1 µs. -/
  | tamperConfigWrite (lvl : Level) (item : TamperItem) (value : BitVec 16)
  /-- REVOKE_KEY_0 (R364): FUSE_PROGRAM code 01h blows the fuse that revokes LMS key 0. -/
  | revokeKey0 (lvl : Level) (confirm : BitVec 16)
  /-- REVOKE_KEY_1 (R364): FUSE_PROGRAM code 02h blows the fuse that revokes LMS key 1. -/
  | revokeKey1 (lvl : Level) (confirm : BitVec 16)
  /-- BLOW_COSIGN_LOCK (R364): FUSE_PROGRAM code 03h blows COSIGN_LOCK. -/
  | blowCosignLock (lvl : Level) (confirm : BitVec 16)
  /-- RNG_HEALTH_FAIL (R365): A noise-source health test fails, and the hub draws no random value until one passes. -/
  | rngHealthFail
  /-- UMPIRE_EVENT (R372): The Umpire handles a source detection as secondary or primary, with escalation, latching, FAULT_N and
      reaction. -/
  | umpireEvent (cycle : List SourceEvent)
  /-- FATAL_RESET_RELEASE (R383): One ms after fatal detection the reset is released, and start-up runs with cause fatal. -/
  | fatalResetRelease (powered : List PoweredPort)
  /-- SHADOW_WINDOW_CLOSE (R379): SHADOW_TAIL after its reaction is done, a shadow window closes. -/
  | shadowWindowClose (reaction : BitVec 16)
  /-- REACTION_TIMEOUT (R379): A reaction not done within SHADOW_MAX closes its window and is detected as REACTION_TIMEOUT. -/
  | reactionTimeout (reaction : BitVec 16)
  /-- FAULT_N_TIME_END (R377): The 10 µs minimum low time ends, and FAULT_N is released or held by FAULT_N_MODE. -/
  | faultNTimeEnd
  /-- FAULT_N_RELEASE (R377): Writing FAULT_N_RELEASE true releases FAULT_N, or holds the release until the low time ends. -/
  | faultNRelease (lvl : Level) (value : Bool)
  /-- FIRST_CLEAR (R374): Writing FIRST_CLEAR true empties FIRST and clears OVERFLOW. -/
  | firstClear (lvl : Level) (value : Bool)
  /-- STATUS_CLEAR (R375): Writing a STATUS word clears each bit written as 1. -/
  | statusClear (lvl : Level) (word : Fin 3) (value : BitVec 32)
  /-- SOURCE_CONFIG_WRITE (R373): A SOURCE_CONFIG write is checked against the floor and resets the source's count. -/
  | sourceConfigWrite (lvl : Level) (source : Fin 96) (val : SourceConfig)
  /-- DEGRADED_CLEAR (R371): Writing 1 to a DEGRADED bit clears it and ends its degrade action. -/
  | degradedClear (lvl : Level) (value : BitVec 32)
  /-- TRANSFER_OPEN (R392): A TRANSFER_OPEN write opens a new transfer, resumes a matching one, or is refused. -/
  | transferOpen (lvl : Level) (target : BitVec 8) (size : BitVec 32) (ident : BitVec 64)
  /-- TRANSFER_ABORT (R392): TRANSFER_ABORT ends the open transfer. -/
  | transferAbort (lvl : Level) (value : Bool)
  /-- IMAGE_BLOCK_WRITE (R393): A completed write of an IMAGE_BLOCKS entry is CRC-checked and starts the sector's erase and
      program. -/
  | imageBlockWrite (lvl : Level) (block : Nat) (data : Bytes) (crc : BitVec 32)
  /-- IMAGE_BLOCK_PROGRAMMED (R393): The block is programmed and read back, its bitmap bit is set, and the SEGMENT is answered. -/
  | imageBlockProgrammed
  /-- VERIFY (R396): Writing VERIFY true starts the image or settings-record checks. -/
  | verify (lvl : Level) (value : Bool)
  /-- VERIFY_DONE (R398): Verification ends, setting VERIFY_RESULT and the slot's STATE. -/
  | verifyDone
  /-- ACTIVATE_NOW (R399): ACTIVATE 01h starts activation at once, or is refused with REFUSAL set. -/
  | activateNow (lvl : Level)
  /-- ACTIVATE_DEFERRED (R399): ACTIVATE 02h defers activation until every condition holds. -/
  | activateDeferred (lvl : Level)
  /-- ACTIVATE_CANCEL (R399): ACTIVATE 03h cancels a deferred activation. -/
  | activateCancel (lvl : Level)
  /-- ACTIVATION_START (R400): Every condition of a deferred activation holds, and loading starts. -/
  | activationStart
  /-- LINE_RUN_CHANGE (R400): LINE_RUN changes after its filter, which may allow or stop an activation. -/
  | lineRunChange (level : Bool)
  /-- UPDATE_LOCK_WRITE (R400): UPDATE_LOCK written true cancels a deferred activation. -/
  | updateLockWrite (lvl : Level) (value : Bool)
  /-- LOADING_DONE (R401): The standby pair has loaded and checked the image, and preparing starts. -/
  | loadingDone
  /-- PREPARING_DONE (R401): Settings are converted and self-tests pass, and the hub waits for the plan hold. -/
  | preparingDone (selfTestsPass : Bool)
  /-- HANDOVER_START (R402): The active pair stops taking new work and writes its state into the handover area. -/
  | handoverStart
  /-- HANDOVER_COMPLETE (R402): The standby pair checks the records and takes control, and held work runs. -/
  | handoverComplete (recordsOk : Bool) (elapsed : BitVec 32)
  /-- CONFIRM (R403): Writing CONFIRM true makes the running slot the boot slot and may advance ROLLBACK. -/
  | confirm (lvl : Level) (value : Bool)
  /-- REVERT (R404): An Owner REVERT during the window hands control back to the old image. -/
  | revert (lvl : Level) (value : Bool)
  /-- CONFIRM_WINDOW_EXPIRY (R404): CONFIRM_REMAINING reaches 0, and the hub hands back or takes a fatal reset. -/
  | confirmWindowExpiry
  /-- RECOVERY_REQUEST (R408): Writing RECOVERY_REQUEST true resets the hub into ROM recovery. -/
  | recoveryRequest (lvl : Level) (value : Bool)
  /-- ROM_BOOT (R409): Writing ROM_BOOT true makes the verified slot the boot slot and resets the hub. -/
  | romBoot (lvl : Level) (value : Bool)
  /-- SLEEP_SELECT (R416): The idle hub selects the deepest allowed sleep state whose break-even fits the expected gap. -/
  | sleepSelect (nextKnown : Option Nat) (toBoundary : Nat)
  /-- EXIT_START (R416): EXIT latency before a known event, the hub starts its exit from the sleep state. -/
  | exitStart (powered : List PoweredPort)
  /-- WAKE (R419): An enabled wake source wakes the hub, recording WAKE_CAUSE. -/
  | wake (source : Fin 6) (powered : List PoweredPort)
  /-- SLEEP_MAX_WRITE (R416): A SLEEP_MAX write limits sleep states and restarts gap history. -/
  | sleepMaxWrite (lvl : Level) (value : BitVec 8)
  /-- SAG_STAGE_ENTER (R420): SAG_INPUT_MV stays below a stage threshold for SAG_FILTER, and the stage's actions start. -/
  | sagStageEnter (stage : Fin 5)
  /-- SAG_STAGE_CLEAR (R420): SAG_INPUT_MV stays above threshold plus hysteresis for SAG_EXIT_TIME, and the stage's clearing
      actions run. -/
  | sagStageClear (stage : Fin 5)
  /-- OBJECT_WRITE (R317): A write to an object without behaviour of its own is checked in full and applied whole. -/
  | objectWrite (lvl : Level) (index : BitVec 16) (sub : BitVec 8) (offset : BitVec 32) (data : Bytes)
  /-- PERST_DEASSERT (R427): PERST_N rises, and PCIE is powered and PCIe link training starts within 20 ms. -/
  | perstDeassert
  /-- MAC_LINK_UP (R79): A MAC's link comes up, MAC_LINK reads 01h, and allowances and the sleep limits of R417 change. -/
  | macLinkUp (mac : Mac) (rate : BitVec 8)
  /-- HPD_FALL (R308): HPD goes low at a source head, and HEAD_STATE reads 03h no sink while scanning continues inside the head. -/
  | hpdFall (head : Head)
  /-- SINK_RETRAINING (R308): The DP source trains or retrains a capture head's sink link, and frames during it are not sent. -/
  | sinkRetraining (head : Head) (link : Option SinkLink)
  /-- LOS_DEASSERT (R185): A lane's amplitude stays above 90 mVppd for 1 µs, and loss of signal deasserts. -/
  | losDeassert (port : Port) (lane : Lane)
  /-- LOL_DEASSERT (R185): Lock is regained and the CDR is back within ±300 ppm, and loss of lock deasserts. -/
  | lolDeassert (port : Port) (lane : Lane)
  /-- CHECKER_LOCK (R192): A test checker locks after 64 error-free bits, or two valid Regatta markers, and starts counting. -/
  | checkerLock (port : Port) (lane : Lane)
  /-- CHECKER_LOCK_LOSS (R192): A test checker drops lock on too many errors or bad markers and seeds again. -/
  | checkerLockLoss (port : Port) (lane : Lane)
  /-- TRY_TIMER_EXPIRY (R198): tDRPTry, tTryTimeout or tTryCCDebounce expires on the Try.SRC or Try.SNK path, and the port moves on
      in that path. -/
  | tryTimerExpiry (port : Port) (timer : Fin 3)
  /-- SRC_TRANSITION_TIMER (R217): tSrcTransition after Accept ends, and the source starts its voltage transition or turns its
      source FET off in a PR_Swap. -/
  | srcTransitionTimer (port : Port)
  /-- STAGE_1_CONTRACT_TIMEOUT (R206): 500 ms after stage 1 entered, no contract within 15 W is in force on a source port, and the
      port sends Hard Reset. -/
  | stage1ContractTimeout (port : Port)
  /-- GET_SOURCE_CAP (R196): A port receives Get_Source_Cap and answers with its Source_Capabilities. -/
  | getSourceCap (port : Port)
  /-- GET_SINK_CAP (R196): A port receives Get_Sink_Cap and answers with Sink_Capabilities. -/
  | getSinkCap (port : Port)
  /-- GET_REVISION (R196): A port receives Get_Revision and answers with Revision 3.2. -/
  | getRevision (port : Port)
  /-- GET_STATUS (R196): A port receives Get_Status and answers with Status. -/
  | getStatus (port : Port)
  /-- REJECT (R215): The partner answers the port's Request or swap request with Reject, ending it, and SWAP_RESULT reads 02h for a
      swap. -/
  | reject (port : Port)
  /-- VDM_ANSWER (R223): The DFP receives the answer to its Discover Identity, Discover SVIDs, Discover Modes or Enter Mode and
      sends the next, or records the outcome. -/
  | vdmAnswer (port : Port) (ans : VdmAnswer)
  /-- RNG_HEALTH_PASS (R365): A health test passes after a failure, and RNG_STATE returns to 01h so random values are drawn again. -/
  | rngHealthPass
  /-- VBAT_POWER_ON (R426): VBAT is first applied or returns above retention, the mesh LFSRs are seeded afresh, and the key store
      and RTC start empty. -/
  | vbatPowerOn
  /-- HPD_LOW_HOLD_END (R285): The 10 ms for which a capture head holds HPD low on a mode change ends, and the new mode starts. -/
  | hpdLowHoldEnd (head : Head)
  /-- NTF_TAIL_WRITE (R336): The host writes NTF_TAIL in the mailbox, freeing notification slots that the hub may then fill. -/
  | ntfTailWrite (value : BitVec 32)
  deriving DecidableEq, Repr

end Sys2Proof
end

