-- ==== Sys2Proof/Config.lean ====
section
/-! DEFINITION. The constants one part carries in silicon or fuses, and the free values: what the spec leaves open, or names as the
output of a random source whose numbers this model does not fix. None has a body Lean can
see, so no statement can rest on a value of one. -/
namespace Sys2Proof

/-- Free values for a result the spec states no number for: the nth one drawn (notes/assumptions/5.md). -/
opaque Config.freeNat : Nat → Nat
/-- Free values place by place along a run: the nth run, and the place in it (notes/assumptions/5.md). -/
opaque Config.freeTrace : Nat → Nat → Nat
/-- The fuses behind HUB_UID (1001h.00). -/
opaque Config.uidFuses : Nat
/-- HUB_UID: unique, 64 bits, never 0 (1001h.00). -/
def Config.hubUid : Nat := Config.uidFuses % (2 ^ 64 - 1) + 1
/-- ROM_VERSION (1009h.00). -/
opaque Config.romVersion : Nat
/-- LMS_PK_HASH_0 and LMS_PK_HASH_1 (7030h.01, 7030h.02), fuses. -/
opaque Config.lmsKeyHash : Nat → Nat
/-- Which objects carry FLAGS[0] in DIRECTORY (R341): the spec prints no such column, so the set is open (notes/assumptions/6.md). -/
opaque Config.stored : Nat → Bool
/-- The random generator of CRYPTO (R365): the nth 256-bit draw. -/
opaque Config.random : Nat → Nat
/-- The sequence of a mesh line's LFSR (R357): line, seed, bit number. -/
opaque Config.meshBit : Nat → Nat → Nat → Bool
/-- Bits of configuration space whose values the spec leaves open: function and register offset (R254). -/
opaque Config.pcieCfg : Nat → Nat → Nat
/-- The target window that the Cox names at an Oar for the objects of its root port (R256, R258): the Oar's address. -/
opaque Config.vdpWindow : Nat → BitVec 5

/-- Object 1121h.01 MAC_ADDR: 02h, then HUB_UID [39:0] highest byte first (R333), as the object's six bytes, lowest first. -/
def Config.macAddr : Nat :=
  let u := Config.hubUid
  0x02 + 256 * (u / 2 ^ 32 % 256) + 256 ^ 2 * (u / 2 ^ 24 % 256) + 256 ^ 3 * (u / 2 ^ 16 % 256)
    + 256 ^ 4 * (u / 2 ^ 8 % 256) + 256 ^ 5 * (u % 256)

/-- The interface identifier HUB_UID XOR 0200000000000000h, highest byte first on the wire (R333). -/
def Config.interfaceId : Nat := Nat.xor Config.hubUid 0x0200000000000000

/-- The 16 bytes of an IPv6 address as one number, the first byte on the wire least significant. -/
def Config.reverse16 (hi lo : Nat) : Nat :=
  (List.range 8).foldl (fun acc i => acc + 256 ^ i * (hi / 256 ^ (7 - i) % 256) + 256 ^ (8 + i) * (lo / 256 ^ (7 - i) % 256)) 0

/-- Object 1121h.02 LINK_LOCAL: fe80::/64 with the interface identifier (R333). -/
def Config.linkLocal : Nat := Config.reverse16 0xFE80000000000000 Config.interfaceId

end Sys2Proof
end

