-- ==== Sys2Proof/Machine/State.lean ====
section
/-! DEFINITION. The state of the block as plain data: the hub's registers, queues and lists, its memories and the queue of commands
that wait; the faults and refusals; the state after reset. -/
namespace Sys2Proof.Machine

/-! ## Keys, registers and rights -/

/-- A right of one level on an object (R8 table of rights). -/
inductive Right where
  | ro | rw | wo | const
  deriving DecidableEq, Repr

/-- The name of a register: the object's base index × 256 + subindex, which one of several (port, head, table entry ...), and the
place inside it (subindex place, lane, layer, or byte offset of a field in a table entry). Registers that are no object
of the dictionary use object numbers from 1000000h. -/
structure Key where
  obj : Nat
  inst : Nat
  off : Nat
  deriving DecidableEq, Repr

/-- A register: its key, its size in bytes, its default. -/
structure Obj where
  key : Key
  size : Nat
  dflt : Nat
  deriving DecidableEq, Repr

/-- The order of keys in a store. -/
def Key.lt (a b : Key) : Bool :=
  if a.obj = b.obj then (if a.inst = b.inst then a.off < b.off else a.inst < b.inst) else a.obj < b.obj

/-- The registers that do not hold their default, in ascending key order, each key once. -/
abbrev Store := List (Key × Nat)

/-- The STATUS codes of R323. -/
inductive Status where
  | ok | noObject | access | writeOnly | invalidValue | busy | length | range | noSession | sessionLimit | noKey | blockBusy
  | blockEnded | notHere | unreachable
  deriving DecidableEq, Repr

/-- A detection on an Umpire source line (R367). `before` is how many reactions had opened a window when it was detected, so that
the window of a reaction the detection itself started does not hold it. -/
structure Detection where
  source : Nat
  unit : Nat
  data : Nat
  before : Nat
  deriving DecidableEq, Repr

/-- An open shadow window (R379, REACTIONS of 8005h). `upstream`: the port was the upstream port when it opened (R380).
`byUmpire`: the Umpire started the reaction. `root`: the fault in progress it belongs to, 0 for none (R382). -/
structure Window where
  id : Nat
  source : Nat
  kind : Nat
  unit : Nat
  ended : Bool
  doneAt : Nat
  openedAt : Nat
  stroke : Nat
  upstream : Bool
  byUmpire : Bool
  root : Nat
  deriving DecidableEq, Repr

/-! ## The switch core -/

/-- The segment of a queue that a packet stands in (R92): every packet of a queue that does not spill stands in the head. -/
inductive Seg where
  | head | dram | tail
  deriving DecidableEq, Repr

/-- A packet held in a queue: its queue (R81), segment, path-table entry, input endpoint, the cells it takes and the pools they
came from (R83), the serial of its multicast write (0 for a unicast packet), when it was appended, and whether R136 samples it,
R106 has counted it as held over, it entered the tree at this hub (R103), it has been in a DRAM segment (R386), the cell of it
that the scrub has marked (R99), and the shaper of the entry it was parsed under, FFFFh none (R62). -/
structure Held where
  q : Nat
  seg : Seg
  tid : Nat
  outTid : Nat
  input : Nat
  hdrClass : Nat
  cells : Nat
  reserve : Nat
  iso : Nat
  shared : Nat
  credit : Nat
  mcast : Nat
  appended : Nat
  stroke : Nat
  sampled : Bool
  heldOver : Bool
  cutoff : Bool
  spilled : Bool
  marked : Option Nat
  shaper : Nat
  pkt : Packet
  deriving DecidableEq, Repr

/-- An Ethernet frame open at the enqueue stage for one entry and one queue (R50, R88): the cells still set aside for it. -/
structure OpenFrame where
  tid : Nat
  q : Nat
  seg : Seg
  reserve : Nat
  shared : Nat
  mcast : Nat
  deriving DecidableEq, Repr

/-- The offered bytes of a route tunnel at its source hub (R117, R118): this stroke's, the completed strokes' newest first, how
many strokes have completed since activation, what was last reported and how many reports ago, and whether it was activated at the boundary
that started this stroke. -/
structure Offer where
  tid : Nat
  now : Nat
  past : List Nat
  completed : Nat
  peak : Nat
  noHistory : Bool
  age : Nat
  fresh : Bool
  deriving DecidableEq, Repr

/-- What the Cox keeps of a route beyond its record (R73, R74): its hubs in path order, the egress port at each, the shaper and
policer assigned, the boundary at which its entries are torn down (0 none), and the hubs still lost. -/
structure RouteWork where
  route : Nat
  hubs : List Nat
  ports : List Nat
  inPorts : List Nat
  shapers : List Nat
  policer : Nat
  tornDown : Nat
  lost : List Nat
  deriving DecidableEq, Repr

/-- What a route that has ended still holds at one hub in the Cox's books (R69, R73, R454, R457): its ID until the boundary at which its
entry's teardown applies (`idAt`), its shaper and policer until the entry is out of DRAIN (`useAt`), and the plans that still list its ID
at grant 0 (`owe`, R127). -/
structure RetiredUse where
  route : Nat
  hub : Nat
  tid : Nat
  shaper : Nat
  policer : Nat
  idAt : Nat
  useAt : Nat
  owe : Nat
  deriving DecidableEq, Repr

/-- What the Cox keeps of a hub beside HUB_TABLE: its last REPORT's lock (R122), a handover pending there (R131), a FULL plan due to it
(R129, R132), and that its address was given back to it (R24). -/
structure HubReport where
  hub : Nat
  locked : Bool
  frozen : Bool
  needFull : Bool
  returned : Bool
  deriving DecidableEq, Repr

/-- A packet an egress has chosen and whose bytes the link lays into flits (R105, R140), with its path-table entry. -/
structure Staged where
  port : Nat
  cls : Nat
  cost : Nat
  rest : Bytes
  begun : Bool
  tid : Nat
  deriving DecidableEq, Repr

/-- A data flit in a port's replay buffer (R150): its plaintext body, how often it was sent, and the entries of the C0 and C4 packets whose
last byte it carries (R32). -/
structure ReplayFlit where
  port : Nat
  seq : Nat
  kind : Nat
  firstOffset : Nat
  body : Bytes
  sends : Nat
  retrained : Bool
  lossless : List Nat
  deriving DecidableEq, Repr

/-- The packet a link has received in part (R152, R162): its bytes so far, the flit and BODY offset at which it starts, and whether
that flit carried RETRAINED. -/
structure RxPart where
  port : Nat
  bytes : Bytes
  seq : Nat
  offset : Nat
  retrained : Bool
  deriving DecidableEq, Repr

/-- A whole packet in an input's staging buffer (R75, R78). -/
structure Arrived where
  port : Nat
  pkt : Packet
  deriving DecidableEq, Repr

/-- An Ethernet frame in reassembly for one tunnel at a MAC's adapter (R51): the packets since FIRST; of a frame that has failed, the last
packet seen. -/
structure Reassembly where
  mac : Nat
  tid : Nat
  packets : List Packet
  failed : Bool
  deriving DecidableEq, Repr

/-- A whole frame that waits for its MAC (R51). -/
structure WholeFrame where
  mac : Nat
  tid : Nat
  bytes : Bytes
  deriving DecidableEq, Repr

/-- A TLP at a PCIe egress adapter, oldest first (R45): its tunnel, category (R44) and bytes. -/
structure EgressTlp where
  tid : Nat
  category : Nat
  bytes : Bytes
  deriving DecidableEq, Repr

/-! ## What the hub sends -/

/-- The structured vendor messages of mode entry (R222–R226). -/
inductive Vdm where
  | discoverIdentity | discoverSvids | discoverModes (svid : Nat)
  | enterMode (svid position vdo : Nat) | exitMode (svid : Nat) | attention (svid vdo : Nat)
  | ackIdentity (header certStat product : Nat) | ackSvids (svids : List Nat) | ackModes (svid : Nat) (vdos : List Nat)
  | ackEnter (svid : Nat) | ackExit (svid : Nat) | nak (command : Nat)
  deriving DecidableEq, Repr

/-- The management messages of R56. -/
inductive Mgmt where
  | join (uid role port : Nat)
  | assign (addr depth port : Nat) (isReturn : Bool)
  | assignAck (addr uid : Nat) (isReturn : Bool)
  | refuse (port reason : Nat)
  | report (r : Report)
  | plan (p : PlanPacket)
  | orphan
  | stage (r : StageRecord) (vid : Option VidMapping)
  | sleep
  | probe
  | probeAck (uid treeState : Nat)
  | stageFail (tid status activate : Nat)
  deriving DecidableEq, Repr

/-- The messages of the time channel (R25, R59): SYNC with its stroke number, DELAY_REQ, and DELAY_RESP with the path delay measured. -/
inductive TimeMsg where
  | sync (stroke : Nat) | delayReq | delayResp (down : Nat)
  deriving DecidableEq, Repr

/-- The USB Power Delivery messages the hub sends (R196, R202–R218). A retry names no message: the last one is sent again (R210). -/
inductive Pd where
  | sourceCaps (epr : Bool) (pdos : List Nat) | request (epr : Bool) (rdo : Nat) | accept | reject | wait | psRdy
  | softReset | prSwap | drSwap | vconnSwap | notSupported | getPpsStatus
  | eprEnter (pdp : Nat) | eprEnterAck | eprSucceeded | eprFailed (reason : Nat) | eprExit | eprKeepAlive | eprKeepAliveAck
  | sinkCaps (content : Nat) | status (content : Nat) | revision (code : Nat) | discoverIdentity | again | alert (overTemp : Bool)
  deriving DecidableEq, Repr

/-! ## Sessions of FOP (R321, R324–R331, R335) -/

/-- A response kept for retransmission (R329). -/
structure Answer where
  counter : Nat
  reqId : Nat
  bytes : Bytes
  deriving DecidableEq, Repr

/-- An open block of a session (R321): a read block or a write block, its range, its bytes, and which have been served or received. -/
structure OpenBlock where
  reads : Bool
  index : Nat
  sub : Nat
  offset : Nat
  bytes : Bytes
  seen : List Bool
  lastAt : Nat
  deriving DecidableEq, Repr

/-- A session (R324–R330): its number, level and key, where its latest request came from, its counters, the requests accepted of the
last 16 counters, and its last 16 answers, newest first. -/
structure Session where
  id : Nat
  level : Level
  key : Nat
  transport : Transport
  addr : Nat
  port : Nat
  rxHigh : Nat
  accepted : List (Nat × Nat)
  tx : Nat
  answers : List Answer
  block : Option OpenBlock
  lastAt : Nat
  deriving DecidableEq, Repr

/-- An entry of the Cox's relay table (R335), least recently used first. -/
structure RelayEntry where
  hub : Nat
  session : Nat
  transport : Transport
  addr : Nat
  port : Nat
  deriving DecidableEq, Repr

/-! ## PCIe and the rigger bridge -/

/-- A non-posted TLP that waits in the credit cells for room in its tunnel's window (R46). -/
structure WaitingTlp where
  tid : Nat
  bytes : Bytes
  deriving DecidableEq, Repr

/-- A command that writes an object, with its operands, as a firmware handover holds it (R221, R272, R308, R339, R366, R402). -/
inductive HeldWrite where
  | pathTableWrite (lvl : Level) (first : Fin 16384) (entries : List PathEntry)
  | mcastTableWrite (lvl : Level) (group : Fin 1024) (members : BitVec 32) (outTids : List (BitVec 16))
  | stageTableWrite (lvl : Level) (slot : Fin 256) (rec : StageRecord)
  | routeWrite (lvl : Level) (route : Fin 4096) (req : RouteRequest)
  | poolSizeWrite (lvl : Level) (pool : PoolSize) (value : BitVec 32)
  | spillSizeWrite (lvl : Level) (value : BitVec 8)
  | grantWrite (lvl : Level) (entry : Fin 16384) (grant : BitVec 32)
  | shaperWrite (lvl : Level) (shaper : Fin 4096) (mode : BitVec 8) (rate : BitVec 32)
  | policerWrite (lvl : Level) (policer : Fin 4096) (mode : BitVec 8) (rate : BitVec 32)
  | allotWrite (lvl : Level) (route : Fin 4096) (min max : BitVec 32) (mode : BitVec 8)
  | quantumWrite (lvl : Level) (q : Fin 264) (value : BitVec 32)
  | histClear (lvl : Level) (delay : Bool) (q : Fin 264) (bins : List (BitVec 32))
  | driveWindowWrite (lvl : Level) (value : BitVec 32)
  | vdpTableWrite (lvl : Level) (vdp : Fin 64) (down up : BitVec 16)
  | rpHotReset (lvl : Level) (value : Bool)
  | fioRecordWrite (lvl : Level) (rx : Bool) (rec : Fin 64) (val : FioRecord)
  | acycSubmit (lvl : Level) (slot : Fin 8) (msg : AcycMsg)
  | requestSlotSubmit (lvl : Level) (slot : Fin 4) (req : SlotRequest)
  | targetWindowsWrite (lvl : Level) (window : Fin 32) (val : TargetWindow)
  | retrainRequest (lvl : Level) (port : Port) (value : Bool)
  | cryptEnableWrite (lvl : Level) (port : Port) (value : Bool)
  | creditLimitWrite (lvl : Level) (port : Port) (cls : Fin 8) (value : BitVec 16)
  | linkEnableWrite (lvl : Level) (port : Port) (value : Bool)
  | gearMaxWrite (lvl : Level) (port : Port) (value : BitVec 8)
  | laneUseWrite (lvl : Level) (port : Port) (value : BitVec 8)
  | readyHoldWrite (lvl : Level) (port : Port) (value : Bool)
  | testModeWrite (lvl : Level) (port : Port) (value : BitVec 8)
  | bitslip (lvl : Level) (port : Port) (lane : Lane) (value : BitVec 8)
  | captureAtWrite (lvl : Level) (port : Port) (lane : Lane) (value : BitVec 8) (word : BitVec 64)
  | injectModeWrite (lvl : Level) (port : Port) (lane : Lane) (value : BitVec 8)
  | policyWrite (lvl : Level) (port : Port) (value : BitVec 8)
  | sourceSettingsWrite (lvl : Level) (port : Port) (setting : SourceSetting) (value : BitVec 16)
  | swapRequestPrSwap (lvl : Level) (port : Port)
  | swapRequestDrSwap (lvl : Level) (port : Port)
  | swapRequestVconnSwap (lvl : Level) (port : Port)
  | portDisableWrite (lvl : Level) (port : Port) (value : Bool)
  | epxEnableWrite (lvl : Level) (port : Port) (value : Bool)
  | faultClear (lvl : Level) (port : Port) (value : Bool)
  | headModeWrite (lvl : Level) (head : Head) (value : BitVec 8)
  | timingWrite (lvl : Level) (head : Head) (item : Fin 10) (value : BitVec 32)
  | commit (lvl : Level) (head : Head) (mask : BitVec 8)
  | pairLockWrite (lvl : Level) (head : Head) (value : Bool)
  | capFormatWrite (lvl : Level) (head : Head) (value : BitVec 8)
  | notifyTableWrite (lvl : Level) (session : BitVec 16) (sub : Fin 32) (val : NotifyEntry)
  | settingsSave (lvl : Level) (value : Bool)
  | factoryRestore (lvl : Level) (value : Bool)
  | keyLoad (lvl : Level) (transport : Transport) (slot engines : BitVec 8) (key : KeyOperand (BitVec 256))
  | keyErase (lvl : Level) (slot : KeyOperand (BitVec 8))
  | keyDerive (lvl : Level) (req : KeyOperand DeriveRequest)
  | rootGenerate (lvl : Level) (value : Bool)
  | advance (lvl : Level) (port : Port) (value : BitVec 8)
  | tamperClear (lvl : Level) (value : Bool)
  | tamperConfigWrite (lvl : Level) (item : TamperItem) (value : BitVec 16)
  | revokeKey0 (lvl : Level) (confirm : BitVec 16)
  | revokeKey1 (lvl : Level) (confirm : BitVec 16)
  | blowCosignLock (lvl : Level) (confirm : BitVec 16)
  | faultNRelease (lvl : Level) (value : Bool)
  | firstClear (lvl : Level) (value : Bool)
  | statusClear (lvl : Level) (word : Fin 3) (value : BitVec 32)
  | sourceConfigWrite (lvl : Level) (source : Fin 96) (val : SourceConfig)
  | degradedClear (lvl : Level) (value : BitVec 32)
  | transferOpen (lvl : Level) (target : BitVec 8) (size : BitVec 32) (ident : BitVec 64)
  | transferAbort (lvl : Level) (value : Bool)
  | imageBlockWrite (lvl : Level) (block : Nat) (data : Bytes) (crc : BitVec 32)
  | verify (lvl : Level) (value : Bool)
  | activateNow (lvl : Level)
  | activateDeferred (lvl : Level)
  | activateCancel (lvl : Level)
  | updateLockWrite (lvl : Level) (value : Bool)
  | confirm (lvl : Level) (value : Bool)
  | revert (lvl : Level) (value : Bool)
  | recoveryRequest (lvl : Level) (value : Bool)
  | romBoot (lvl : Level) (value : Bool)
  | sleepMaxWrite (lvl : Level) (value : BitVec 8)
  | objectWrite (lvl : Level) (index : BitVec 16) (sub : BitVec 8) (offset : BitVec 32) (data : Bytes)
  deriving DecidableEq, Repr

/-! ## Display heads -/

/-- A packet in the line store of a pass-through head, and the moment it leaves: its TIME + PRESENT_DELAY (R303, R304). -/
structure StoredPacket where
  head : Nat
  due : Nat
  pkt : Packet
  deriving DecidableEq, Repr

/-- The sink a head's partner last showed, with the links that train (R284). -/
structure SinkSeen where
  head : Nat
  sink : SinkCaps
  deriving DecidableEq, Repr


/-! ## The rigger bridge (R266–R281) -/

/-- Where a bridge request of this hub comes from: an aperture write at a BAR4 offset, a part of an aperture read (the read's serial, the place of
the part), a request slot, the poll of a virtual downstream port's root port (which of RP_LINK_STATE, RP_SPEED and RP_WIDTH), or the hub
itself (the FLUSH after BULK_IDLE, and RP_HOT_RESET). -/
inductive RigOrigin where
  | apertureWrite (bar : Nat) | apertureRead (id place : Nat) | slot (k : Nat) | poll (vdp sub : Nat) | own
  deriving DecidableEq, Repr

/-- A bridge request of this hub that waits, or that is outstanding under its tag (R270). -/
structure RigRequest where
  op : Nat
  hub : Nat
  window : Nat
  offset : Nat
  len : Nat
  data : Bytes
  origin : RigOrigin
  tag : Nat
  seq : Nat
  inst : Nat
  tries : Nat
  deriving DecidableEq, Repr

/-- An outcome that the target keeps (R271): the initiator, its tag, and the response sent. -/
structure RigRecord where
  src : Nat
  tag : Nat
  op : Nat
  window : Nat
  status : Nat
  offset : Nat
  len : Nat
  seq : Nat
  keeps : Bool
  data : Bytes
  deriving DecidableEq, Repr

/-- A posted write in the initiator's log: its SEQ, its offset in the window, and its BAR4 offset for an aperture write (R274, R275). -/
structure PostedWrite where
  seq : Nat
  offset : Nat
  bar : Option Nat
  deriving DecidableEq, Repr

/-- A stream of posted writes at its initiator (R273–R275): the next SEQ, the log of the last 4,096, missing writes reported since the last FLUSH
answered, and a write since the last FLUSH. -/
structure PostedStream where
  hub : Nat
  window : Nat
  next : Nat
  log : List PostedWrite
  reported : Nat
  unflushed : Bool
  deriving DecidableEq, Repr

/-- A stream of posted writes at its target (R273, R274): the expected SEQ and the writes found missing since the last FLUSH. -/
structure StreamIn where
  src : Nat
  window : Nat
  expected : Nat
  gaps : Nat
  deriving DecidableEq, Repr

/-- A line of read-ahead data (R278): its bytes, which of them have been read, and whether its window carries SIDE_EFFECT. -/
structure PrefetchLine where
  hub : Nat
  window : Nat
  offset : Nat
  bytes : Bytes
  read : List Bool
  sideEffect : Bool
  deriving DecidableEq, Repr

/-- A read of the host in the aperture that waits for its parts (R280): its serial, requester and tag, its offset
in the aperture, and the parts, empty until they arrive. -/
structure ApertureRead where
  id : Nat
  requester : Nat
  tag : Nat
  offset : Nat
  parts : List (Option Bytes)
  deriving DecidableEq, Repr

/-- A request to an object window that waits for a firmware handover to end (R272). -/
structure HeldRig where
  op : Nat
  req : RigPacket
  deriving DecidableEq, Repr

/-- A record of the handover area (R402): what it carries, and its CRC-32C. The spec gives the records no layout (notes/assumptions/92.md). -/
structure HandoverRecord where
  data : Bytes
  crc : Nat
  deriving DecidableEq, Repr

/-- A slot of the mailbox's notification ring and the NOTIFY in it (R336). -/
structure NtfSlot where
  slot : Nat
  bytes : Bytes
  deriving DecidableEq, Repr

/-- The kinds of work that a firmware handover holds (R402): a write of an object, a FOP message, a bridge request to an object window. -/
inductive HeldKind where
  | write | fop | rig
  deriving DecidableEq, Repr

/-- Everything the hub gives to the world outside it, in the order it gave it (the model's own record, notes/assumptions/2.md). -/
inductive Out where
  /-- The status a write or request is answered with (R323). -/
  | status (s : Status)
  /-- A packet passes to output endpoint e (R81). -/
  | packet (e : Nat) (p : Packet)
  /-- A management message with its INFO, on the named port or, with none, routed by destination (R56, R57). -/
  | mgmt (port : Option Nat) (info : Nat) (m : Mgmt)
  /-- A message of the time channel with its INFO on a port (R25, R59). -/
  | time (port : Nat) (info : Nat) (m : TimeMsg)
  /-- An MSI-X vector is raised (R262). -/
  | msix (vector addr data : Nat)
  /-- A structured vendor message to the port partner (R222). -/
  | vdm (port : Nat) (v : Vdm)
  /-- A flit on the lanes of a port (R138). -/
  | flit (port : Nat) (bytes : Bytes)
  /-- A NONCE record before an Init flit (R352). -/
  | nonceRecord (port lane : Nat) (bytes : Bytes)
  /-- A training set on a transmit lane of a port: the first of those it now sends back to back (R172, R458). -/
  | ts (port lane : Nat) (bytes : Bytes)
  /-- Wake bursts and the lanes' own signalling on a port (R173, R183). -/
  | laneWake (port : Nat)
  /-- QUIET blocks or codewords, after which the lanes idle (R143, R160). -/
  | laneQuiet (port : Nat)
  /-- The injector of a lane inverts this many consecutive bits (R193). -/
  | inject (port lane bits : Nat)
  /-- A USB Power Delivery message on SOP (0), SOP' (1) or SOP'' (2) of a port (R196). -/
  | pd (port sop : Nat) (m : Pd)
  /-- Hard Reset signalling on a port (R214). -/
  | hardReset (port : Nat)
  /-- A FOP message on a transport, to an address and port, from a source port (R332, R333). -/
  | fop (t : Transport) (addr port source : Nat) (bytes : Bytes)
  /-- A TLP on the PCIe link, its bytes unchanged (R45, R257, R259). -/
  | tlp (bytes : Bytes)
  /-- A completion the hub itself returns: requester, tag, status 0 successful, 1 Unsupported Request, 4 Completer Abort, and data (R254, R280). -/
  | completion (requester tag status : Nat) (data : Bytes)
  /-- A TLP too long for a tunnel, reported to the PCIe partner as malformed (R43). -/
  | malformedTlp
  /-- Flow-control credits advertised at training: posted, non-posted and completion headers and data (R261). -/
  | pcieCredits (ph pd nh nd ch cd : Nat)
  /-- Header credits of a kind (0 posted, 1 non-posted, 2 completion) returned to the PCIe partner (R46, R261). -/
  | pcieReturn (kind n : Nat)
  /-- A change of a virtual downstream port's Slot Status, whose MSI goes out where the host has enabled it (R256). -/
  | slotChange (vdp status : Nat)
  /-- An error message of a function toward the host: 0 ERR_COR, 1 ERR_NONFATAL, 2 ERR_FATAL (R254). -/
  | errMessage (fn severity : Nat)
  /-- The MSI of a virtual downstream port: a write of its data to its address (R254, R256). -/
  | vdpMsi (vdp addr data : Nat)
  /-- A Hot Reset on the Oar's PCIe link (R260). -/
  | hotReset
  /-- A memory request of the host inside a BAR of the hub function, taken there (R257, R262). -/
  | barAccess (bar offset : Nat)
  /-- Bytes read by the host from BAR2 (R263). -/
  | barData (bytes : Bytes)
  /-- A frame on a MAC (R265). -/
  | frame (mac : Nat) (bytes : Bytes)
  /-- A stream packet leaves a pass-through head's line store for its output (R303). -/
  | present (head : Nat) (due : Nat) (bytes : Bytes)
  /-- A secondary data packet that a head sends at a moment in its blanking (R283, R303). -/
  | sdp (head : Nat) (moment : Nat) (bytes : Bytes)
  /-- A capture head drives HPD, and while it is high advertises these link rates (R284's order, 0 HBR3) and lane counts in its DPCD (R283). -/
  | sinkHpd (head : Nat) (high : Bool) (rates lanes : List Nat)
  /-- A capture head signals IRQ_HPD (R283). -/
  | sinkIrqHpd (head : Nat)
  /-- A FOP message with its INFO on the management tunnel, or with `background` on the background channel (R56, R335, R395). -/
  | fopPacket (background : Bool) (info : Nat) (bytes : Bytes)
  /-- A Neighbor Solicitation by which the hub looks for another user of one of its own addresses (R333, R334). -/
  | neighborSolicitation (target : Nat)
  /-- A Neighbor Advertisement for one of the hub's addresses, to all nodes in answer to duplicate address detection (R333). -/
  | neighborAdvertisement (target : Nat) (toAllNodes : Bool)
  /-- An Echo Reply with the request's payload (R333). -/
  | echoReply (dst : Nat) (payload : Bytes)
  /-- Destination Unreachable (port) for a UDP datagram to the port named (R333). -/
  | portUnreachable (dst port : Nat)
  deriving DecidableEq, Repr

/-- The hub: its registers (every object of the dictionary, every table field and every register the spec implies), and the
queues, lists and clocks the spec gives it. `out`, `now`, `draws` and `lines` are the model's own (notes/assumptions/2.md, 5.md).
`reportsHeld`: REPORTs that wait for the Cox's handover to end (R28). `ownFails`: the Cox's own staged records refused or dropped, with TID,
PATH_STATUS and ACTIVATE, until the route service takes them (R456). `kept`: flits that a NAK has released while the partner may hold a packet of theirs
in part, for the replay after a retrain (R152, R162). -/
structure Hub where
  regs : Store
  out : List Out
  now : Nat
  boundaryAt : Nat
  draws : Nat
  lines : List Detection
  windows : List Window
  reactions : Nat
  held : List Held
  frames : List OpenFrame
  mgmtWait : List Packet
  serial : Nat
  topo : List TopoEvent
  plan : List PlanPacket
  offers : List Offer
  works : List RouteWork
  freedIds : List (Nat × Nat)
  reports : List HubReport
  lateReports : List Report
  staged : List Staged
  reassembly : List Reassembly
  frameOut : List WholeFrame
  tlpOut : List EgressTlp
  replay : List ReplayFlit
  kept : List ReplayFlit
  rxPart : List RxPart
  arrived : List Arrived
  sessions : List Session
  relay : List RelayEntry
  heldOrder : List HeldKind
  fopHeld : List (Nat × FopMsg)
  heldWrites : List HeldWrite
  tlpWait : List WaitingTlp
  sinks : List SinkSeen
  lineStore : List StoredPacket
  rigWait : List RigRequest
  rigOut : List RigRequest
  rigBack : List RigRequest
  rigDone : List RigRecord
  rigPosted : List PostedStream
  rigStreams : List StreamIn
  rigLines : List PrefetchLine
  rigReads : List ApertureRead
  rigHeld : List HeldRig
  saved : Store
  blockWait : List FopMsg
  reqBuf : Bytes
  rspBuf : Bytes
  rspWait : List Bytes
  ntfRing : List NtfSlot
  reportsHeld : List Report
  retired : List RetiredUse
  ownFails : List (Nat × Nat × Nat)
  handoverArea : List HandoverRecord
  deriving DecidableEq, Repr

/-- The memories: the 8 GiB DRAM (6020h), the 64 KiB process image (4055h) and the 64 MiB external NOR (R389). -/
structure Mems where
  dram : List Host.Cell
  image : List Host.Cell
  flash : List Host.Cell
  deriving DecidableEq, Repr

/-- The state of the block: the commands that wait, first in, first out; the hub; its memories. -/
structure State where
  pending : List Instr
  hub : Hub
  mem : Mems
  deriving DecidableEq, Repr

/-- Where the block stops. -/
inductive Fault where
  /-- A scrub names a memory word that does not exist: SCRUB_READ beyond the 1,572,864 words of the cell memory (R98), DRAM_SCRUB
  beyond the 8 GiB of the DRAM (6020h.01). Raised by those two commands; safe, since the hub scrubs no such word. -/
  | noSuchWord
  deriving DecidableEq, Repr

/-- What has no meaning. -/
inductive Refusal where
  /-- A command that is not modelled, by its mnemonic. Raised by the dispatch alone; safe. -/
  | notModelled (mnemonic : String)
  deriving DecidableEq, Repr

/-- The hub right after reset: every register at its default, nothing queued, held, raised or sent (R9; notes/assumptions/3.md). -/
def Hub.reset : Hub :=
  { regs := [],
    out := [],
    now := 0,
    boundaryAt := 0,
    draws := 0,
    lines := [],
    windows := [],
    reactions := 0,
    held := [],
    frames := [],
    mgmtWait := [],
    serial := 0,
    topo := [],
    plan := [],
    offers := [],
    works := [],
    freedIds := [],
    reports := [],
    lateReports := [],
    staged := [],
    reassembly := [],
    frameOut := [],
    tlpOut := [],
    replay := [],
    kept := [],
    rxPart := [],
    arrived := [],
    sessions := [],
    relay := [],
    heldOrder := [],
    fopHeld := [],
    heldWrites := [],
    tlpWait := [],
    sinks := [],
    lineStore := [],
    rigWait := [],
    rigOut := [],
    rigBack := [],
    rigDone := [],
    rigPosted := [],
    rigStreams := [],
    rigLines := [],
    rigReads := [],
    rigHeld := [],
    saved := [],
    blockWait := [],
    reqBuf := [],
    rspBuf := [],
    rspWait := [],
    ntfRing := [],
    reportsHeld := [],
    retired := [],
    ownFails := [],
    handoverArea := [] }

/-- The memories right after reset: nothing listed. -/
def Mems.reset : Mems := { dram := [], image := [], flash := [] }

/-- The machine right after reset: no command waits. -/
def State.reset : State := { pending := [], hub := Hub.reset, mem := Mems.reset }

end Sys2Proof.Machine
end

