-- ==== Sys2Proof/Machine/Objects.lean ====
section
/-! DEFINITION. Every object of the object dictionary (R314, R318) as a register of the hub: its key, its size in bytes and its
default (R9). One definition per object of the spec's object tables, and one per field of a hardware table's entry. A default the
spec gives as a dash (measured or computed by the hub) stands as 0 here (DESIGN CHOICE, notes/assumptions/3.md). An object of a
port, a lane, a head, a layer or a MAC takes its number; an object of several subindices takes the place in the range, from 0. -/
namespace Sys2Proof.Machine

/-- 1000h.00 DEVICE_ID: U32, const, default 00002460h; Device code (01_) -/
abbrev O.deviceId : Obj := ⟨⟨0x100000, 0, 0⟩, 4, 9312⟩
/-- 1001h.00 HUB_UID: U64, const, default —; Unique hub identity from fuses; never 0 (01_) -/
abbrev O.hubUid : Obj := ⟨⟨0x100100, 0, 0⟩, 8, Config.hubUid⟩
/-- 1001h.01 STEPPING: U8, const, default B1h; Silicon stepping B1 (01_) -/
abbrev O.stepping : Obj := ⟨⟨0x100101, 0, 0⟩, 1, 177⟩
/-- 1002h.00 ROLE: U8, ro, default —; 00h Oar, 01h Crew, 02h Cox, 03h ROM recovery, as sampled (01_) -/
abbrev O.role : Obj := ⟨⟨0x100200, 0, 0⟩, 1, 0⟩
/-- 1003h.00 HUB_ADDRESS: U8, ro, default —; 0 in the Cox. 255 while Unjoined, and while Joining from Unjoined. 1–254, the address last assigned, while Member, Asleep or Orphan, and while Joining from Asleep or Orphan (R23, R24) (01_) -/
abbrev O.hubAddress : Obj := ⟨⟨0x100300, 0, 0⟩, 1, 255⟩
/-- 1004h.00 UPSTREAM_PORT: U8, ro, default FFh; 0–23 while Member or Asleep; FFh for the Cox, and while Unjoined, Joining or Orphan (01_) -/
abbrev O.upstreamPort : Obj := ⟨⟨0x100400, 0, 0⟩, 1, 255⟩
/-- 1005h.00 DEPTH: U8, ro, default —; Links between this hub and the Cox: 0–6 while Member or Asleep; FFh while Unjoined, Joining or Orphan (01_) -/
abbrev O.depth : Obj := ⟨⟨0x100500, 0, 0⟩, 1, 255⟩
/-- 1006h.00 TREE_STATE: U8, ro, default —; 00h Unjoined, 01h Joining, 02h Member, 03h Orphan, 04h Asleep; the Cox reads 02h (01_) -/
abbrev O.treeState : Obj := ⟨⟨0x100600, 0, 0⟩, 1, 0⟩
/-- A000h.00 TREE_HUBS: U16, ro, default —; Cox: enumerated hubs, including itself, 1–255; other roles: 0 (01_) -/
abbrev O.treeHubs : Obj := ⟨⟨0xA00000, 0, 0⟩, 2, 0⟩
/-- A002h.00 ADDRESS_HOLD: U32, ro/ro/rw/rw, default 10000; 0–3,600,000; used by the Cox (01_) -/
abbrev O.addressHold : Obj := ⟨⟨0xA00200, 0, 0⟩, 4, 10000⟩
/-- A003h.00 ORPHAN_HOLD: U32, ro/ro/rw/rw, default 1000; 0–60,000 (01_) -/
abbrev O.orphanHold : Obj := ⟨⟨0xA00300, 0, 0⟩, 4, 1000⟩
/-- A004h.01 STROKE_NUMBER: U64, ro, default —; Current stroke number (01_) -/
abbrev O.strokeNumber : Obj := ⟨⟨0xA00401, 0, 0⟩, 8, 0⟩
/-- A004h.02 TIME_LOCK: BOOL, ro, default —; True while locked under R25; always true in the Cox (01_) -/
abbrev O.timeLock : Obj := ⟨⟨0xA00402, 0, 0⟩, 1, 0⟩
/-- A004h.03 OFFSET: I32, ro, default —; Last measured offset from the parent (01_) -/
abbrev O.clockOffset : Obj := ⟨⟨0xA00403, 0, 0⟩, 4, 0⟩
/-- A004h.04 PATH_DELAY_DOWN: U32, ro, default —; Parent-to-child delay (01_) -/
abbrev O.pathDelayDown : Obj := ⟨⟨0xA00404, 0, 0⟩, 4, 0⟩
/-- A004h.05 PATH_DELAY_UP: U32, ro, default —; Child-to-parent delay (01_) -/
abbrev O.pathDelayUp : Obj := ⟨⟨0xA00405, 0, 0⟩, 4, 0⟩
/-- A006h.01 EVENT_SEQ: U16, ro, default 0; SEQ of this hub's last reported event (01_) -/
abbrev O.treeEventSeq : Obj := ⟨⟨0xA00601, 0, 0⟩, 2, 0⟩
/-- A006h.02 EVENT_OVERFLOW: BOOL, ro/ro/rw/rw, default false; Set under R22; you clear it by writing false (01_) -/
abbrev O.treeEventOverflow : Obj := ⟨⟨0xA00602, 0, 0⟩, 1, 0⟩
/-- A007h.00 MAX_DEPTH: U8, const, default 6; Tree depth limit (01_) -/
abbrev O.maxDepth : Obj := ⟨⟨0xA00700, 0, 0⟩, 1, 6⟩
/-- 4000h.01 ACTIVE_TUNNELS: U16, ro, default —; Entries 3–16383 that are VALID or in DRAIN (02_) -/
abbrev O.activeTunnels : Obj := ⟨⟨0x400001, 0, 0⟩, 2, 0⟩
/-- 4000h.02 TUNNEL_LIMIT: U16, const, default 4096; Limit under R63 (02_) -/
abbrev O.tunnelLimit : Obj := ⟨⟨0x400002, 0, 0⟩, 2, 4096⟩
/-- 4000h.03 DRAIN_HOLD: U16, ro/ro/rw/rw, default 80; 8–8,000 (02_) -/
abbrev O.drainHold : Obj := ⟨⟨0x400003, 0, 0⟩, 2, 80⟩
/-- 4000h.04 PATH_STATUS: U8, ro, default 00h; Last refusal or deferral: 00h none, 01h combination, 02h draining, 03h limit, 04h in-place change, 05h reserved ID, 06h late, 07h staging full, 08h staged record deferred by DRAIN (R67) (02_) -/
abbrev O.pathStatus : Obj := ⟨⟨0x400004, 0, 0⟩, 1, 0⟩
/-- 4000h.05 STAGED: U16, ro, default 0; Staged records in use, 0–256 (02_) -/
abbrev O.staged : Obj := ⟨⟨0x400005, 0, 0⟩, 2, 0⟩
/-- 4005h.01 DISCARD_UNKNOWN: U64, ro, default 0; R61 (02_) -/
abbrev O.discardUnknown : Obj := ⟨⟨0x400501, 0, 0⟩, 8, 0⟩
/-- 4005h.02 DISCARD_WRONG_INPUT: U64, ro, default 0; R61 (02_) -/
abbrev O.discardWrongInput : Obj := ⟨⟨0x400502, 0, 0⟩, 8, 0⟩
/-- 4005h.03 DISCARD_MALFORMED: U64, ro, default 0; R37 (02_) -/
abbrev O.discardMalformed : Obj := ⟨⟨0x400503, 0, 0⟩, 8, 0⟩
/-- 4005h.04 DISCARD_TYPE: U64, ro, default 0; R37 (02_) -/
abbrev O.discardType : Obj := ⟨⟨0x400504, 0, 0⟩, 8, 0⟩
/-- 4005h.05 DISCARD_NO_MEMBER: U64, ro, default 0; R65 (02_) -/
abbrev O.discardNoMember : Obj := ⟨⟨0x400505, 0, 0⟩, 8, 0⟩
/-- 4005h.06 DISCARD_MGMT_ROUTE: U64, ro, default 0; R57 (02_) -/
abbrev O.discardMgmtRoute : Obj := ⟨⟨0x400506, 0, 0⟩, 8, 0⟩
/-- 4011h.00 ROUTES_ACTIVE: U16, ro, default 0; Cox: records with STATE 02h (02_) -/
abbrev O.routesActive : Obj := ⟨⟨0x401100, 0, 0⟩, 2, 0⟩
/-- 4020h.01 PCIE_NP_WINDOW: U8, const, default 64; R46 (02_) -/
abbrev O.pcieNpWindow : Obj := ⟨⟨0x402001, 0, 0⟩, 1, 64⟩
/-- 4020h.02 PCIE_RELEASE_WAIT: U16, const, default 2000; R46 (02_) -/
abbrev O.pcieReleaseWait : Obj := ⟨⟨0x402002, 0, 0⟩, 2, 2000⟩
/-- 4040h.01 PVID: U16, ro/ro/rw/rw, default 1; MAC 0; 1–4094 (02_) -/
abbrev O.pvid (n : Nat) : Obj := ⟨⟨0x404001, n, 0⟩, 2, 1⟩
/-- 4040h.02 PRIO_PCP: U8, ro/ro/rw/rw, default E0h; Bit p set: PCP p takes the priority tunnel (02_) -/
abbrev O.prioPcp (n : Nat) : Obj := ⟨⟨0x404002, n, 0⟩, 1, 224⟩
/-- 4040h.04 FCS_ERRORS: U64, ro, default 0; R48 (02_) -/
abbrev O.fcsErrors (n : Nat) : Obj := ⟨⟨0x404004, n, 0⟩, 8, 0⟩
/-- 4040h.05 REASSEMBLY_ERRORS: U64, ro, default 0; R51 (02_) -/
abbrev O.reassemblyErrors (n : Nat) : Obj := ⟨⟨0x404005, n, 0⟩, 8, 0⟩
/-- 4040h.06 NO_TUNNEL: U64, ro, default 0; R48 (02_) -/
abbrev O.noTunnel (n : Nat) : Obj := ⟨⟨0x404006, n, 0⟩, 8, 0⟩
/-- 4054h.01 ACYC_RX_DROPS: U64, ro, default 0; R55 (02_) -/
abbrev O.acycRxDrops : Obj := ⟨⟨0x405401, 0, 0⟩, 8, 0⟩
/-- 4100h.01 CELLS_TOTAL: U32, const, default 196608; Cells in the cell memory (03_) -/
abbrev O.cellsTotal : Obj := ⟨⟨0x410001, 0, 0⟩, 4, 0x30000⟩
/-- 4100h.02 CELLS_USED: U32, ro, default —; Used cells, all pools (03_) -/
abbrev O.cellsUsed : Obj := ⟨⟨0x410002, 0, 0⟩, 4, 0⟩
/-- 4100h.03 SHARED_FREE: U32, ro, default —; F under R85 (03_) -/
abbrev O.sharedFree : Obj := ⟨⟨0x410003, 0, 0⟩, 4, 0⟩
/-- 4100h.04 USED_PEAK: U32, ro/ro/rw/rw, default 0; Peak of CELLS_USED; write 0 to restart (03_) -/
abbrev O.usedPeak : Obj := ⟨⟨0x410004, 0, 0⟩, 4, 0⟩
/-- 4100h.05 WRITE_BUDGET: U32, const, default 4096000; Write and read rate of the cell memory (03_) -/
abbrev O.writeBudget : Obj := ⟨⟨0x410005, 0, 0⟩, 4, 0x3E8000⟩
/-- 4100h.06 WRITE_COMMITTED: U32, ro, default —; R79 (03_) -/
abbrev O.writeCommitted : Obj := ⟨⟨0x410006, 0, 0⟩, 4, 0⟩
/-- 4100h.07 READ_COMMITTED: U32, ro, default —; R79 (03_) -/
abbrev O.readCommitted : Obj := ⟨⟨0x410007, 0, 0⟩, 4, 0⟩
/-- 4100h.08 OVERCOMMIT: BOOL, ro, default —; R79 (03_) -/
abbrev O.overcommit : Obj := ⟨⟨0x410008, 0, 0⟩, 1, 0⟩
/-- 4101h.01–08 ALPHA_CODE: U8, ro/ro/rw/rw, default 7, 4, 4, 4, 6, 4, 5, 2; C0–C7 in order; 0–7; k = code − 4; not used for C1–C3 (03_) -/
abbrev O.alphaCode (k : Nat) : Obj := ⟨⟨0x410101, 0, k⟩, 1, ([7, 4, 4, 4, 6, 4, 5, 2].getD k 0)⟩
/-- 4102h.01–08 RESERVE: U16, ro/ro/rw/rw, default 8, 16, 16, 8, 32, 8, 8, 4; C0–C7 in order; 0–1,024 per queue (03_) -/
abbrev O.reserve (k : Nat) : Obj := ⟨⟨0x410201, 0, k⟩, 2, ([8, 16, 16, 8, 32, 8, 8, 4].getD k 0)⟩
/-- 4103h.01 ISO_POOL: U32, ro/ro/rw/rw, default 16384; 0–65,536; R84 (03_) -/
abbrev O.isoPool : Obj := ⟨⟨0x410301, 0, 0⟩, 4, 16384⟩
/-- 4103h.02 ISO_USED: U32, ro, default —; Cells in use from the isochronous pool (03_) -/
abbrev O.isoUsed : Obj := ⟨⟨0x410302, 0, 0⟩, 4, 0⟩
/-- 4103h.03 ISO_NO_CELL: U64, ro, default 0; R85, R87 (03_) -/
abbrev O.isoNoCell : Obj := ⟨⟨0x410303, 0, 0⟩, 8, 0⟩
/-- 4103h.04 ISO_NEED: U32, ro, default 0; R87 (03_) -/
abbrev O.isoNeed : Obj := ⟨⟨0x410304, 0, 0⟩, 4, 0⟩
/-- 4104h.01 CREDIT_CELLS_C0: U16, ro/ro/rw/rw, default 8; Per link port; 4–64 (03_) -/
abbrev O.creditCellsC0 : Obj := ⟨⟨0x410401, 0, 0⟩, 2, 8⟩
/-- 4104h.02 CREDIT_CELLS_C4: U16, ro/ro/rw/rw, default 96; Per link port; 32–1,024 (03_) -/
abbrev O.creditCellsC4 : Obj := ⟨⟨0x410402, 0, 0⟩, 2, 96⟩
/-- 4104h.03 CREDIT_CELLS_PCIE: U16, ro/ro/rw/rw, default 256; 64–2,048 (03_) -/
abbrev O.creditCellsPcie : Obj := ⟨⟨0x410403, 0, 0⟩, 2, 256⟩
/-- 4104h.04 CREDIT_CELLS_USED: U32, ro, default —; Credit cells now holding packets, all inputs (03_) -/
abbrev O.creditCellsUsed : Obj := ⟨⟨0x410404, 0, 0⟩, 4, 0⟩
/-- 4104h.05 CREDIT_CELLS_MGMT: U16, const, default 32; Credit cells of the management processor's C0 output; R86 (03_) -/
abbrev O.creditCellsMgmt : Obj := ⟨⟨0x410405, 0, 0⟩, 2, 32⟩
/-- 4106h.01 SPILL_SIZE: U8, ro/ro/rw/rw, default 8; 0–16; 0 disables; R91 (03_) -/
abbrev O.spillSize : Obj := ⟨⟨0x410601, 0, 0⟩, 1, 8⟩
/-- 4106h.02 SPILL_ON: U8, ro/ro/rw/rw, default 75; 50–95 (03_) -/
abbrev O.spillOn : Obj := ⟨⟨0x410602, 0, 0⟩, 1, 75⟩
/-- 4106h.03 SPILL_QMIN: U16, ro/ro/rw/rw, default 256; 16–16,384 (03_) -/
abbrev O.spillQmin : Obj := ⟨⟨0x410603, 0, 0⟩, 2, 256⟩
/-- 4106h.04 SPILL_TAIL: U16, ro/ro/rw/rw, default 512; 64–4,096 (03_) -/
abbrev O.spillTail : Obj := ⟨⟨0x410604, 0, 0⟩, 2, 512⟩
/-- 4106h.05 REFILL_LOW: U16, ro/ro/rw/rw, default 1024; 128–8,192 (03_) -/
abbrev O.refillLow : Obj := ⟨⟨0x410605, 0, 0⟩, 2, 1024⟩
/-- 4106h.06 SPILL_ALPHA_CODE: U8, ro/ro/rw/rw, default 4; 0–7; R94 (03_) -/
abbrev O.spillAlphaCode : Obj := ⟨⟨0x410606, 0, 0⟩, 1, 4⟩
/-- 4106h.07 SPILL_ENABLE: U8, ro/ro/rw/rw, default 03h; [0] C4; [1] C6; [7:2] reserved (03_) -/
abbrev O.spillEnable : Obj := ⟨⟨0x410607, 0, 0⟩, 1, 3⟩
/-- 4106h.08 SPILL_UNITS_USED: U32, ro, default —; 256 B units in use in the region (03_) -/
abbrev O.spillUnitsUsed : Obj := ⟨⟨0x410608, 0, 0⟩, 4, 0⟩
/-- 4106h.09 SPILL_RATE_MAX: U32, const, default 400000; R95 (03_) -/
abbrev O.spillRateMax : Obj := ⟨⟨0x410609, 0, 0⟩, 4, 0x61A80⟩
/-- 4106h.0A SPILL_DROPS: U64, ro, default 0; R93, R101, R102 (03_) -/
abbrev O.spillDrops : Obj := ⟨⟨0x41060A, 0, 0⟩, 8, 0⟩
/-- 4106h.0B SPILL_ENTRIES: U32, ro, default 0; Times any queue entered spill (03_) -/
abbrev O.spillEntries : Obj := ⟨⟨0x41060B, 0, 0⟩, 4, 0⟩
/-- 4106h.0C SPILL_STATE: U8, ro, default —; 00h running, 01h frozen (sag stage 3), 02h isolated, 03h disabled (03_) -/
abbrev O.spillState : Obj := ⟨⟨0x41060C, 0, 0⟩, 1, 0⟩
/-- 4107h.01 SCRUB_PERIOD: U32, ro/ro/rw/rw, default 3600; 60–86,400 (03_) -/
abbrev O.scrubPeriod : Obj := ⟨⟨0x410701, 0, 0⟩, 4, 3600⟩
/-- 4107h.02 SCRUB_PASSES: U32, ro, default 0; Completed passes (03_) -/
abbrev O.scrubPasses : Obj := ⟨⟨0x410702, 0, 0⟩, 4, 0⟩
/-- 4107h.03 SCRUB_CORRECTED: U64, ro, default 0; R98 (03_) -/
abbrev O.scrubCorrected : Obj := ⟨⟨0x410703, 0, 0⟩, 8, 0⟩
/-- 4107h.04 SCRUB_UNCORRECTABLE: U64, ro, default 0; R99 (03_) -/
abbrev O.scrubUncorrectable : Obj := ⟨⟨0x410704, 0, 0⟩, 8, 0⟩
/-- 4107h.05 SCRUB_LAST_PASS: U32, ro, default —; Duration of the last completed pass (03_) -/
abbrev O.scrubLastPass : Obj := ⟨⟨0x410705, 0, 0⟩, 4, 0⟩
/-- 4107h.06 SCRUB_FORCED: U64, ro, default 0; Forced slots taken (03_) -/
abbrev O.scrubForced : Obj := ⟨⟨0x410706, 0, 0⟩, 8, 0⟩
/-- 4108h.01 DEQUEUE_CORRECTED: U64, ro, default 0; R97 (03_) -/
abbrev O.dequeueCorrected : Obj := ⟨⟨0x410801, 0, 0⟩, 8, 0⟩
/-- 4108h.02 DEQUEUE_UNCORRECTABLE: U64, ro, default 0; R97 (03_) -/
abbrev O.dequeueUncorrectable : Obj := ⟨⟨0x410802, 0, 0⟩, 8, 0⟩
/-- 4108h.03 UE_LAST_CELL: U32, ro, default FFFFFFFFh; Cell number 0–196,607 of the last uncorrectable word (03_) -/
abbrev O.ueLastCell : Obj := ⟨⟨0x410803, 0, 0⟩, 4, 0xFFFFFFFF⟩
/-- 4109h.01 MCAST_MEMBER_DROPS: U64, ro, default 0; R89 (03_) -/
abbrev O.mcastMemberDrops : Obj := ⟨⟨0x410901, 0, 0⟩, 8, 0⟩
/-- 4109h.02 MCAST_CELLS: U32, ro, default —; Cells held by multicast packets (03_) -/
abbrev O.mcastCells : Obj := ⟨⟨0x410902, 0, 0⟩, 4, 0⟩
/-- 410Ah.01 STAGE_LATENCY: U16, const, default 100; Sum of the stage cycles of R75 (03_) -/
abbrev O.stageLatency : Obj := ⟨⟨0x410A01, 0, 0⟩, 2, 100⟩
/-- 410Ah.02 TIMED_WRITE_WAIT_MAX: U16, const, default 70; R78 (03_) -/
abbrev O.timedWriteWaitMax : Obj := ⟨⟨0x410A02, 0, 0⟩, 2, 70⟩
/-- 4200h.01 STROKE_LENGTH: U32, const, default 125000; Stroke length (04_) -/
abbrev O.strokeLength : Obj := ⟨⟨0x420001, 0, 0⟩, 4, 0x1E848⟩
/-- 4200h.02 DRIVE_WINDOW: U32, ro/ro/rw/rw, default 96000; W; 32,000–112,000; writable in the Cox only (R104) (04_) -/
abbrev O.driveWindow : Obj := ⟨⟨0x420002, 0, 0⟩, 4, 0x17700⟩
/-- 4200h.03 RELEASE_MARGIN: U32, const, default 16000; R103 (04_) -/
abbrev O.releaseMargin : Obj := ⟨⟨0x420003, 0, 0⟩, 4, 16000⟩
/-- 4200h.04 ISO_GUARD: U32, const, default 4000; Part of the deduction in R121 (04_) -/
abbrev O.isoGuard : Obj := ⟨⟨0x420004, 0, 0⟩, 4, 4000⟩
/-- 4200h.05 PLAN_IN_FORCE: U64, ro, default 0; EFFECTIVE of the plan in force; 0 for none (04_) -/
abbrev O.planInForce : Obj := ⟨⟨0x420005, 0, 0⟩, 8, 0⟩
/-- 4200h.06 PLAN_STATE: U8, ro, default 00h; 00h none yet, 01h current, 02h one missed, 03h withdrawn, 04h HOLD, 05h handover freeze (04_) -/
abbrev O.planState : Obj := ⟨⟨0x420006, 0, 0⟩, 1, 0⟩
/-- 4200h.07 PLANS_MISSED: U32, ro, default 0; R129 (04_) -/
abbrev O.plansMissed : Obj := ⟨⟨0x420007, 0, 0⟩, 4, 0⟩
/-- 4200h.08 PLANS_WITHDRAWN: U32, ro, default 0; R129 (04_) -/
abbrev O.plansWithdrawn : Obj := ⟨⟨0x420008, 0, 0⟩, 4, 0⟩
/-- 4202h.01 DEMAND_WINDOW: U8, ro/ro/rw/rw, default 8; 1–64; R118 (04_) -/
abbrev O.demandWindow : Obj := ⟨⟨0x420201, 0, 0⟩, 1, 8⟩
/-- 4202h.02 DEMAND_REFRESH: U8, const, default 64; R120 (04_) -/
abbrev O.demandRefresh : Obj := ⟨⟨0x420202, 0, 0⟩, 1, 64⟩
/-- 4210h.02 HALTED: U8, ro, default 00h; [0] C4 … [3] C7 halted by a sag stage; [7:4] reserved (04_) -/
abbrev O.halted : Obj := ⟨⟨0x421002, 0, 0⟩, 1, 0⟩
/-- 4231h.00 POLICE_SLACK: U32, ro/ro/rw/rw, default 2080; 0–16,640; R116 (04_) -/
abbrev O.policeSlack : Obj := ⟨⟨0x423100, 0, 0⟩, 4, 2080⟩
/-- 4242h.01 PLAN_COMPUTE_MAX: U32, ro/ro/rw/rw, default 0; Cox only; longest plan computation; write 0 to restart (04_) -/
abbrev O.planComputeMax : Obj := ⟨⟨0x424201, 0, 0⟩, 4, 0⟩
/-- 4242h.02 PLAN_COMPUTE_LIMIT: U32, const, default 80000; R126 (04_) -/
abbrev O.planComputeLimit : Obj := ⟨⟨0x424202, 0, 0⟩, 4, 0x13880⟩
/-- 4242h.03 REPORTS_LATE: U64, ro, default 0; Cox only; R126 (04_) -/
abbrev O.reportsLate : Obj := ⟨⟨0x424203, 0, 0⟩, 8, 0⟩
/-- 4242h.04 FLOOR_SHORT: U16, ro, default 0; Cox only; routes with FLAGS[0] set (04_) -/
abbrev O.floorShort : Obj := ⟨⟨0x424204, 0, 0⟩, 2, 0⟩
/-- 4242h.05 INCREASE_PENDING: U16, ro, default 0; Cox only; routes with FLAGS[1] set (04_) -/
abbrev O.increasePending : Obj := ⟨⟨0x424205, 0, 0⟩, 2, 0⟩
/-- 2000h.01 LINK_STATE: U8, ro, default 00h; 00h Down, 01h Training, 02h Init, 03h Active, 04h Quiet, 05h Retrain; Training means the lanes are in bring-up from Down (05_) -/
abbrev O.linkState (n : Nat) : Obj := ⟨⟨0x200001, n, 0⟩, 1, 0⟩
/-- 2000h.02 PAYLOAD_RATE: U32, ro, default 0; Scheduling rate of the transmit direction, R146; 0 unless Active or Quiet (05_) -/
abbrev O.payloadRate (n : Nat) : Obj := ⟨⟨0x200002, n, 0⟩, 4, 0⟩
/-- 2000h.03 RX_PAYLOAD_RATE: U32, ro, default 0; Scheduling rate of the receive direction (05_) -/
abbrev O.rxPayloadRate (n : Nat) : Obj := ⟨⟨0x200003, n, 0⟩, 4, 0⟩
/-- 2000h.04 RETRAIN_LIMIT: U16, ro/ro/rw/rw, default 8; 1–60; R158 (05_) -/
abbrev O.retrainLimit (n : Nat) : Obj := ⟨⟨0x200004, n, 0⟩, 2, 8⟩
/-- 2000h.05 RETRAINS: U32, ro, default 0; Entries to Retrain (05_) -/
abbrev O.retrains (n : Nat) : Obj := ⟨⟨0x200005, n, 0⟩, 4, 0⟩
/-- 2000h.06 LAST_RETRAIN: U32, ro, default 0; Duration of the last retrain, from Retrain to Active (05_) -/
abbrev O.lastRetrain (n : Nat) : Obj := ⟨⟨0x200006, n, 0⟩, 4, 0⟩
/-- 2000h.07 LAST_RETRAIN_CAUSE: U8, ro, default 00h; 00h none, 01h replay limit, 02h signal or lock, 03h gear or lane use, 04h request or counter (05_) -/
abbrev O.lastRetrainCause (n : Nat) : Obj := ⟨⟨0x200007, n, 0⟩, 1, 0⟩
/-- 2000h.08 RETRAIN_REQUEST: BOOL, ro/ro/rw/rw, default false; Write true to retrain. Acts in Active, and in Quiet after the wake; no effect in any other state (R460). Reads true from an accepted write until Retrain is entered, false otherwise (05_) -/
abbrev O.retrainRequest (n : Nat) : Obj := ⟨⟨0x200008, n, 0⟩, 1, 0⟩
/-- 2000h.09 QUIET_ENABLE: BOOL, ro/ro/rw/rw, default true; R160 (05_) -/
abbrev O.quietEnable (n : Nat) : Obj := ⟨⟨0x200009, n, 0⟩, 1, 1⟩
/-- 2000h.0A QUIET_WAKE_LEAD: U16, const, default 40; Wake of a Quiet link before each stroke boundary; R161 (05_) -/
abbrev O.quietWakeLead (n : Nat) : Obj := ⟨⟨0x20000A, n, 0⟩, 2, 40⟩
/-- 2000h.0B ROUND_TRIP: U32, ro, default —; Measured credit round trip, R165 (05_) -/
abbrev O.roundTrip (n : Nat) : Obj := ⟨⟨0x20000B, n, 0⟩, 4, 0⟩
/-- 2000h.0C INIT_TIMEOUT: U16, const, default 1000; R158 (05_) -/
abbrev O.initTimeout (n : Nat) : Obj := ⟨⟨0x20000C, n, 0⟩, 2, 1000⟩
/-- 2001h.01–08 CREDIT_LIMIT: U16, ro/ro/rw/rw, default 8, 8, 40, 8, 40, 8, 11, 5; C0–C7 in order; R154 (05_) -/
abbrev O.creditLimit (n k : Nat) : Obj := ⟨⟨0x200101, n, k⟩, 2, ([8, 8, 40, 8, 40, 8, 11, 5].getD k 0)⟩
/-- 2002h.01–08 TX_CREDIT_AVAIL: U16, ro, default 0; C0–C7: credits now available to this sender, R155 (05_) -/
abbrev O.txCreditAvail (n k : Nat) : Obj := ⟨⟨0x200201, n, k⟩, 2, 0⟩
/-- 2002h.09–10 PEER_CREDIT_LIMIT: U16, ro, default 0; C0–C7 as advertised by the partner (05_) -/
abbrev O.peerCreditLimit (n k : Nat) : Obj := ⟨⟨0x200209, n, k⟩, 2, 0⟩
/-- 2003h.01 FLITS_TX: U64, ro, default 0; Data flits sent, replays included (05_) -/
abbrev O.flitsTx (n : Nat) : Obj := ⟨⟨0x200301, n, 0⟩, 8, 0⟩
/-- 2003h.02 FLITS_RX: U64, ro, default 0; Data flits accepted (05_) -/
abbrev O.flitsRx (n : Nat) : Obj := ⟨⟨0x200302, n, 0⟩, 8, 0⟩
/-- 2003h.03 CRC_ERRORS: U64, ro, default 0; Flits failed at FCRC (05_) -/
abbrev O.crcErrors (n : Nat) : Obj := ⟨⟨0x200303, n, 0⟩, 8, 0⟩
/-- 2003h.04 BLOCK_ERRORS: U64, ro, default 0; Invalid sync headers and reserved control blocks, R142, R143 (05_) -/
abbrev O.blockErrors (n : Nat) : Obj := ⟨⟨0x200304, n, 0⟩, 8, 0⟩
/-- 2003h.05 FEC_CODEWORDS: U64, ro, default 0; Codewords decoded (05_) -/
abbrev O.fecCodewords (n : Nat) : Obj := ⟨⟨0x200305, n, 0⟩, 8, 0⟩
/-- 2003h.06 FEC_CORRECTED: U64, ro, default 0; Symbols corrected, R145 (05_) -/
abbrev O.fecCorrected (n : Nat) : Obj := ⟨⟨0x200306, n, 0⟩, 8, 0⟩
/-- 2003h.07 FEC_UNCORRECTABLE: U64, ro, default 0; R145 (05_) -/
abbrev O.fecUncorrectable (n : Nat) : Obj := ⟨⟨0x200307, n, 0⟩, 8, 0⟩
/-- 2003h.08 NAKS_SENT: U64, ro, default 0; NAK episodes begun, R151 (05_) -/
abbrev O.naksSent (n : Nat) : Obj := ⟨⟨0x200308, n, 0⟩, 8, 0⟩
/-- 2003h.09 NAKS_RECEIVED: U64, ro, default 0; NAKs acted on (05_) -/
abbrev O.naksReceived (n : Nat) : Obj := ⟨⟨0x200309, n, 0⟩, 8, 0⟩
/-- 2003h.0A REPLAYS: U64, ro, default 0; R152 (05_) -/
abbrev O.linkReplays (n : Nat) : Obj := ⟨⟨0x20030A, n, 0⟩, 8, 0⟩
/-- 2003h.0B REPLAYED_FLITS: U64, ro, default 0; R152 (05_) -/
abbrev O.replayedFlits (n : Nat) : Obj := ⟨⟨0x20030B, n, 0⟩, 8, 0⟩
/-- 2003h.0C REPLAY_TIMEOUTS: U64, ro, default 0; Replays started by timeout (05_) -/
abbrev O.replayTimeouts (n : Nat) : Obj := ⟨⟨0x20030C, n, 0⟩, 8, 0⟩
/-- 2003h.0D AUTH_FAILURES: U64, ro, default 0; R148 (05_) -/
abbrev O.linkAuthFailures (n : Nat) : Obj := ⟨⟨0x20030D, n, 0⟩, 8, 0⟩
/-- 2003h.0E LATE_ISO_DISCARDS: U64, ro, default 0; R163 (05_) -/
abbrev O.lateIsoDiscards (n : Nat) : Obj := ⟨⟨0x20030E, n, 0⟩, 8, 0⟩
/-- 2003h.0F COUNTERS_CLEAR: BOOL, ro/rw/rw/rw, default false; Write true to clear 2003h.01–0E; reads false (05_) -/
abbrev O.linkCountersClear (n : Nat) : Obj := ⟨⟨0x20030F, n, 0⟩, 1, 0⟩
/-- 2004h.01 CRYPT_ENABLE: BOOL, ro/ro/ro/rw, default false; R149 (05_) -/
abbrev O.cryptEnable (n : Nat) : Obj := ⟨⟨0x200401, n, 0⟩, 1, 0⟩
/-- 2004h.02 CRYPT_STATE: U8, ro, default 00h; 00h off, 01h on, 02h mismatch at last Init (05_) -/
abbrev O.cryptState (n : Nat) : Obj := ⟨⟨0x200402, n, 0⟩, 1, 0⟩
/-- 2004h.03 TX_COUNTER: U64, ro, default 0; Last COUNTER sent (05_) -/
abbrev O.txCounter (n : Nat) : Obj := ⟨⟨0x200403, n, 0⟩, 8, 0⟩
/-- 2004h.04 RX_COUNTER: U64, ro, default 0; Last COUNTER accepted (05_) -/
abbrev O.rxCounter (n : Nat) : Obj := ⟨⟨0x200404, n, 0⟩, 8, 0⟩
/-- 2004h.05 KEY_EPOCH: U8, ro, default 00h; [0] transmit epoch; [1] receive epoch (05_) -/
abbrev O.keyEpoch (n : Nat) : Obj := ⟨⟨0x200405, n, 0⟩, 1, 0⟩
/-- 2005h.01 REPLAY_DEPTH: U16, const, default 256; R150 (05_) -/
abbrev O.replayDepth (n : Nat) : Obj := ⟨⟨0x200501, n, 0⟩, 2, 256⟩
/-- 2005h.02 REPLAY_TIMEOUT: U16, ro/ro/rw/rw, default 4000; 1,000–65,000 (05_) -/
abbrev O.replayTimeout (n : Nat) : Obj := ⟨⟨0x200502, n, 0⟩, 2, 4000⟩
/-- 2005h.03 REPLAY_LIMIT: U8, ro/ro/rw/rw, default 4; 1–8; R153 (05_) -/
abbrev O.replayLimit (n : Nat) : Obj := ⟨⟨0x200503, n, 0⟩, 1, 4⟩
/-- 2005h.04 REPLAY_OUTSTANDING: U16, ro, default 0; Unreleased flits now held (05_) -/
abbrev O.replayOutstanding (n : Nat) : Obj := ⟨⟨0x200504, n, 0⟩, 2, 0⟩
/-- 2006h.01 LINK_ENABLE: BOOL, ro/ro/rw/rw, default true; R174 (06_) -/
abbrev O.linkEnable (n : Nat) : Obj := ⟨⟨0x200601, n, 0⟩, 1, 1⟩
/-- 2006h.02 GEAR_MAX: U8, ro/ro/rw/rw, default 4; 1–4; R179, R184 (06_) -/
abbrev O.gearMax (n : Nat) : Obj := ⟨⟨0x200602, n, 0⟩, 1, 4⟩
/-- 2006h.03 GEAR: U8, ro, default 0; Gear in force; 0 while not Trained or Lanes idle (06_) -/
abbrev O.gear (n : Nat) : Obj := ⟨⟨0x200603, n, 0⟩, 1, 0⟩
/-- 2006h.04 GEAR_CEILING: U8, ro, default 4; R179 (06_) -/
abbrev O.gearCeiling (n : Nat) : Obj := ⟨⟨0x200604, n, 0⟩, 1, 4⟩
/-- 2006h.05 GEARS_FAILED: U8, ro, default 00h; [3:0] gears failed since the last Detect, bit g−1 for Gear g; [7:4] reserved (06_) -/
abbrev O.gearsFailed (n : Nat) : Obj := ⟨⟨0x200605, n, 0⟩, 1, 0⟩
/-- 2006h.06 LANE_USE: U8, ro/ro/rw/rw, default 00h; 00h 2+2, 01h three lanes downstream, 02h three lanes upstream; R168, R170 (06_) -/
abbrev O.laneUse (n : Nat) : Obj := ⟨⟨0x200606, n, 0⟩, 1, 0⟩
/-- 2006h.07 TX_LANES: U8, ro, default 0; Lanes transmitting, 0–3 (06_) -/
abbrev O.txLanes (n : Nat) : Obj := ⟨⟨0x200607, n, 0⟩, 1, 0⟩
/-- 2006h.08 RX_LANES: U8, ro, default 0; Lanes receiving, 0–3 (06_) -/
abbrev O.rxLanes (n : Nat) : Obj := ⟨⟨0x200608, n, 0⟩, 1, 0⟩
/-- 2006h.09 LANE_USE_REFUSAL: U8, ro, default 00h; 00h none, 01h not deciding side, 02h crossed, 03h degraded; R169 (06_) -/
abbrev O.laneUseRefusal (n : Nat) : Obj := ⟨⟨0x200609, n, 0⟩, 1, 0⟩
/-- 2006h.0A TRAIN_STATE: U8, ro, default 00h; 00h Off, 01h Detect, 02h Wake, 03h Stake-boat hold, 04h Polarity and order, 05h Equalise, 06h Lock, 07h Deskew, 08h Gear negotiation, 09h Trained, 0Ah Lanes idle, 0Bh Test (06_) -/
abbrev O.trainState (n : Nat) : Obj := ⟨⟨0x20060A, n, 0⟩, 1, 0⟩
/-- 2006h.0B READY_HOLD: BOOL, ro/ro/rw/rw, default false; R175 (06_) -/
abbrev O.readyHold (n : Nat) : Obj := ⟨⟨0x20060B, n, 0⟩, 1, 0⟩
/-- 2006h.0C HOLD_LIMIT: U16, ro/ro/rw/rw, default 100; 1–10,000; R173 (06_) -/
abbrev O.holdLimit (n : Nat) : Obj := ⟨⟨0x20060C, n, 0⟩, 2, 100⟩
/-- 2006h.0D HOLD_REASON: U8, ro, default 00h; [2:0] local, as TS HOLD_REASON; [6:4] partner's, from its last TS; [3] and [7] reserved (06_) -/
abbrev O.holdReason (n : Nat) : Obj := ⟨⟨0x20060D, n, 0⟩, 1, 0⟩
/-- 2006h.0E TRAINS: U32, ro, default 0; Bring-ups and retrains that reached Trained (06_) -/
abbrev O.trains (n : Nat) : Obj := ⟨⟨0x20060E, n, 0⟩, 4, 0⟩
/-- 2006h.0F TRAIN_FAILS: U32, ro, default 0; R173, R180 (06_) -/
abbrev O.trainFails (n : Nat) : Obj := ⟨⟨0x20060F, n, 0⟩, 4, 0⟩
/-- 2006h.10 LAST_TRAIN_TIME: U32, ro, default 0; From entry into Detect, or into Retrain, to Trained (06_) -/
abbrev O.lastTrainTime (n : Nat) : Obj := ⟨⟨0x200610, n, 0⟩, 4, 0⟩
/-- 2006h.11 GEAR_STEP_LIMIT: U16, const, default 2000; R180 (06_) -/
abbrev O.gearStepLimit (n : Nat) : Obj := ⟨⟨0x200611, n, 0⟩, 2, 2000⟩
/-- 2006h.12 EQ_FOM_MIN: U8, ro/ro/rw/rw, default 96; 0–255; R177 (06_) -/
abbrev O.eqFomMin (n : Nat) : Obj := ⟨⟨0x200612, n, 0⟩, 1, 96⟩
/-- 2007h.01 TEST_MODE: U8, ro/ro/rw/rw, default 00h; R189 (06_) -/
abbrev O.testMode (n : Nat) : Obj := ⟨⟨0x200701, n, 0⟩, 1, 0⟩
/-- 2007h.02 TEST_PATTERN: U8, ro/ro/rw/rw, default 03h; R190 (06_) -/
abbrev O.testPattern (n : Nat) : Obj := ⟨⟨0x200702, n, 0⟩, 1, 3⟩
/-- 2007h.03 TEST_GEAR: U8, ro/ro/rw/rw, default 1; 1–4 (06_) -/
abbrev O.testGear (n : Nat) : Obj := ⟨⟨0x200703, n, 0⟩, 1, 1⟩
/-- 2007h.04 TEST_NO_ATTACH: BOOL, ro/ro/ro/rw, default false; R189 (06_) -/
abbrev O.testNoAttach (n : Nat) : Obj := ⟨⟨0x200704, n, 0⟩, 1, 0⟩
/-- 2008h.01 RETUNE_AUTO: BOOL, ro/ro/rw/rw, default false; R188 (06_) -/
abbrev O.retuneAuto (n : Nat) : Obj := ⟨⟨0x200801, n, 0⟩, 1, 0⟩
/-- 2008h.02 EYE_SCAN_PERIOD: U32, ro/ro/rw/rw, default 60; 10–3,600; R188 (06_) -/
abbrev O.eyeScanPeriod (n : Nat) : Obj := ⟨⟨0x200802, n, 0⟩, 4, 60⟩
/-- 2008h.03 MARGIN_ALARM: U16, ro/ro/rw/rw, default 30; 0–200; 0 disables; R188 (06_) -/
abbrev O.marginAlarm (n : Nat) : Obj := ⟨⟨0x200803, n, 0⟩, 2, 30⟩
/-- 2008h.04 MARGIN_ALARMS: U32, ro, default 0; R188 (06_) -/
abbrev O.marginAlarms (n : Nat) : Obj := ⟨⟨0x200804, n, 0⟩, 4, 0⟩
/-- 2400h.01 LANE_STATUS: U8, ro, default 00h; [0] signal present; [1] locked; [2] inverted and corrected; [3] in use; [4] turned; [5] crossed; [6] degraded out; [7] reserved (06_) -/
abbrev O.laneStatus (n l : Nat) : Obj := ⟨⟨0x240001, n, l⟩, 1, 0⟩
/-- 2400h.02 LOGICAL_LANE: U8, ro, default FFh; Logical lane 0–2 carried; FFh none (06_) -/
abbrev O.logicalLane (n l : Nat) : Obj := ⟨⟨0x240002, n, l⟩, 1, 255⟩
/-- 2400h.03 LOS_EVENTS: U32, ro, default 0; R185 (06_) -/
abbrev O.losEvents (n l : Nat) : Obj := ⟨⟨0x240003, n, l⟩, 4, 0⟩
/-- 2400h.04 LOL_EVENTS: U32, ro, default 0; R185 (06_) -/
abbrev O.lolEvents (n l : Nat) : Obj := ⟨⟨0x240004, n, l⟩, 4, 0⟩
/-- 2400h.05 TX_PRESET: U8, ro, default 0Fh; Preset 0–9 last requested by the partner; 0Fh none (06_) -/
abbrev O.txPreset (n l : Nat) : Obj := ⟨⟨0x240005, n, l⟩, 1, 15⟩
/-- 2400h.06 TX_COEF: U32, ro, default 0; [7:0] pre-cursor, [15:8] main, [23:16] post-cursor, each two's complement in steps of 1/64 of full swing; [31:24] gear to which they apply (06_) -/
abbrev O.txCoef (n l : Nat) : Obj := ⟨⟨0x240006, n, l⟩, 4, 0⟩
/-- 2400h.07 EYE_HEIGHT: U16, ro, default 0; Inner eye height at the last scan; R188 (06_) -/
abbrev O.eyeHeight (n l : Nat) : Obj := ⟨⟨0x240007, n, l⟩, 2, 0⟩
/-- 2400h.08 EYE_WIDTH: U16, ro, default 0; Inner eye width in 1/1,000 UI (06_) -/
abbrev O.eyeWidth (n l : Nat) : Obj := ⟨⟨0x240008, n, l⟩, 2, 0⟩
/-- 2400h.09 RX_ADAPT_UPDATES: U64, ro, default 0; R187 (06_) -/
abbrev O.rxAdaptUpdates (n l : Nat) : Obj := ⟨⟨0x240009, n, l⟩, 8, 0⟩
/-- 2400h.0A CHK_LOCKED: BOOL, ro, default false; R192 (06_) -/
abbrev O.chkLocked (n l : Nat) : Obj := ⟨⟨0x24000A, n, l⟩, 1, 0⟩
/-- 2400h.0B CHK_BITS: U64, ro, default 0; R192 (06_) -/
abbrev O.chkBits (n l : Nat) : Obj := ⟨⟨0x24000B, n, l⟩, 8, 0⟩
/-- 2400h.0C CHK_ERRORS: U64, ro, default 0; R192 (06_) -/
abbrev O.chkErrors (n l : Nat) : Obj := ⟨⟨0x24000C, n, l⟩, 8, 0⟩
/-- 2400h.0D ERR_FRAME: U64, ro, default 0; Regatta marker, counter and check (06_) -/
abbrev O.errFrame (n l : Nat) : Obj := ⟨⟨0x24000D, n, l⟩, 8, 0⟩
/-- 2400h.0E ERR_RUN: U64, ro, default 0; Regatta Run segment (06_) -/
abbrev O.errRun (n l : Nat) : Obj := ⟨⟨0x24000E, n, l⟩, 8, 0⟩
/-- 2400h.0F ERR_NYQUIST: U64, ro, default 0; Regatta Nyquist segment (06_) -/
abbrev O.errNyquist (n l : Nat) : Obj := ⟨⟨0x24000F, n, l⟩, 8, 0⟩
/-- 2400h.10 ERR_LADDER: U64, ro, default 0; Regatta Ladder segment (06_) -/
abbrev O.errLadder (n l : Nat) : Obj := ⟨⟨0x240010, n, l⟩, 8, 0⟩
/-- 2400h.11 ERR_RANDOM: U64, ro, default 0; Regatta Random segment (06_) -/
abbrev O.errRandom (n l : Nat) : Obj := ⟨⟨0x240011, n, l⟩, 8, 0⟩
/-- 2400h.12 COUNTERS_CLEAR: BOOL, ro/rw/rw/rw, default false; Write true to clear 2400h.03–04 and 2400h.0B–11; reads false (06_) -/
abbrev O.laneCountersClear (n l : Nat) : Obj := ⟨⟨0x240012, n, l⟩, 1, 0⟩
/-- 2400h.13 INJECT_MODE: U8, ro/ro/rw/rw, default 00h; 00h off, 01h single, 02h periodic; R193 (06_) -/
abbrev O.injectMode (n l : Nat) : Obj := ⟨⟨0x240013, n, l⟩, 1, 0⟩
/-- 2400h.14 INJECT_INTERVAL: U32, ro/ro/rw/rw, default 1048576; 1,024–4,294,967,295 (06_) -/
abbrev O.injectInterval (n l : Nat) : Obj := ⟨⟨0x240014, n, l⟩, 4, 0x100000⟩
/-- 2400h.15 INJECT_BURST: U8, ro/ro/rw/rw, default 1; 1–64 (06_) -/
abbrev O.injectBurst (n l : Nat) : Obj := ⟨⟨0x240015, n, l⟩, 1, 1⟩
/-- 2400h.16 INJECT_COUNT: U64, ro, default 0; R193 (06_) -/
abbrev O.injectCount (n l : Nat) : Obj := ⟨⟨0x240016, n, l⟩, 8, 0⟩
/-- 2400h.17 BITSLIP: U8, ro/ro/wo/wo, default —; 1–255; R194; reads 0 (06_) -/
abbrev O.bitslip (n l : Nat) : Obj := ⟨⟨0x240017, n, l⟩, 1, 0⟩
/-- 2400h.18 CAPTURE_AT: U8, ro/ro/rw/rw, default 0; 0–127; R194 (06_) -/
abbrev O.captureAt (n l : Nat) : Obj := ⟨⟨0x240018, n, l⟩, 1, 0⟩
/-- 2400h.19 CAPTURE: U64, ro, default 0; R194 (06_) -/
abbrev O.capture (n l : Nat) : Obj := ⟨⟨0x240019, n, l⟩, 8, 0⟩
/-- 2460h.01 REGATTA_MARKER: OCTETS(8), const, default 0F0FE51B7272A936h; Marker bytes in send order, R191 (06_) -/
abbrev O.regattaMarker : Obj := ⟨⟨0x246001, 0, 0⟩, 8, 0x36A972721BE50F0F⟩
/-- 2460h.02 REGATTA_FRAME: U16, const, default 8192; R191 (06_) -/
abbrev O.regattaFrame : Obj := ⟨⟨0x246002, 0, 0⟩, 2, 8192⟩
/-- 2460h.03 FAST_RETRAIN_MAX: U32, const, default 120; R181 (06_) -/
abbrev O.fastRetrainMax : Obj := ⟨⟨0x246003, 0, 0⟩, 4, 120⟩
/-- 2460h.04 LANES_IDLE_EXIT_MAX: U32, const, default 38; R183 (06_) -/
abbrev O.lanesIdleExitMax : Obj := ⟨⟨0x246004, 0, 0⟩, 4, 38⟩
/-- 2460h.05 SKEW_MAX: U16, const, default 16; R178 (06_) -/
abbrev O.skewMax : Obj := ⟨⟨0x246005, 0, 0⟩, 2, 16⟩
/-- 2800h.01 POLICY: U8, ro/ro/rw/rw, default 03h; 04h in an Oar; R197 (07_) -/
abbrev O.policy (n : Nat) : Obj := ⟨⟨0x280001, n, 0⟩, 1, 3⟩
/-- 2800h.02 DRP_PERIOD: U8, ro/ro/rw/rw, default 75; 50–100; R198 (07_) -/
abbrev O.drpPeriod (n : Nat) : Obj := ⟨⟨0x280002, n, 0⟩, 1, 75⟩
/-- 2800h.03 DRP_DUTY: U8, ro/ro/rw/rw, default 50; 30–70; R198 (07_) -/
abbrev O.drpDuty (n : Nat) : Obj := ⟨⟨0x280003, n, 0⟩, 1, 50⟩
/-- 2800h.04 RP_LEVEL: U8, ro/ro/rw/rw, default 02h; 00h Default, 01h 1.5 A, 02h 3.0 A (07_) -/
abbrev O.rpLevel (n : Nat) : Obj := ⟨⟨0x280004, n, 0⟩, 1, 2⟩
/-- 2800h.05 ATTACH_STATE: U8, ro, default 00h; 00h Unattached, 01h AttachWait, 02h Try, 03h Attached as Source, 04h Attached as Sink, 05h ErrorRecovery, 06h Disabled (07_) -/
abbrev O.attachState (n : Nat) : Obj := ⟨⟨0x280005, n, 0⟩, 1, 0⟩
/-- 2800h.06 ORIENTATION: U8, ro, default 00h; 00h none, 01h CC1, 02h CC2; R199 (07_) -/
abbrev O.orientation (n : Nat) : Obj := ⟨⟨0x280006, n, 0⟩, 1, 0⟩
/-- 2800h.07 POWER_ROLE: U8, ro, default 00h; 00h none, 01h Source, 02h Sink (07_) -/
abbrev O.powerRole (n : Nat) : Obj := ⟨⟨0x280007, n, 0⟩, 1, 0⟩
/-- 2800h.08 DATA_ROLE: U8, ro, default 00h; 00h none, 01h DFP, 02h UFP (07_) -/
abbrev O.dataRole (n : Nat) : Obj := ⟨⟨0x280008, n, 0⟩, 1, 0⟩
/-- 2800h.09 VCONN_STATE: U8, ro, default 00h; 00h off, 01h sourcing, 02h fault; R201 (07_) -/
abbrev O.vconnState (n : Nat) : Obj := ⟨⟨0x280009, n, 0⟩, 1, 0⟩
/-- 2800h.0A VCONN_CURRENT: U16, ro, default —; Measured VCONN current (07_) -/
abbrev O.vconnCurrent (n : Nat) : Obj := ⟨⟨0x28000A, n, 0⟩, 2, 0⟩
/-- 2800h.0B ATTACH_ROLES: U8, ro, default 00h; [1:0] power role and [3:2] data role, coded as 2800h.07–08; [4] VCONN source; [7:5] reserved; R214 (07_) -/
abbrev O.attachRoles (n : Nat) : Obj := ⟨⟨0x28000B, n, 0⟩, 1, 0⟩
/-- 2800h.0C CRITICAL: BOOL, ro/ro/rw/rw, default false; R206 (07_) -/
abbrev O.critical (n : Nat) : Obj := ⟨⟨0x28000C, n, 0⟩, 1, 0⟩
/-- 2800h.0D PORT_DISABLE: BOOL, ro/ro/rw/rw, default false; R206 (07_) -/
abbrev O.portDisable (n : Nat) : Obj := ⟨⟨0x28000D, n, 0⟩, 1, 0⟩
/-- 2801h.01 CONTRACT_STATE: U8, ro, default 00h; 00h none, 01h implicit, 02h explicit SPR, 03h explicit EPR, 04h Type-C-only partner (07_) -/
abbrev O.contractState (n : Nat) : Obj := ⟨⟨0x280101, n, 0⟩, 1, 0⟩
/-- 2801h.02 CONTRACT_V: U32, ro, default 0; Contract voltage (07_) -/
abbrev O.contractV (n : Nat) : Obj := ⟨⟨0x280102, n, 0⟩, 4, 0⟩
/-- 2801h.03 CONTRACT_I: U16, ro, default 0; Contract current (07_) -/
abbrev O.contractI (n : Nat) : Obj := ⟨⟨0x280103, n, 0⟩, 2, 0⟩
/-- 2801h.04 CONTRACT_RDO: U32, ro, default 0; Request data object in force (07_) -/
abbrev O.contractRdo (n : Nat) : Obj := ⟨⟨0x280104, n, 0⟩, 4, 0⟩
/-- 2801h.05 PARTNER_REVISION: U8, ro, default 00h; [7:4] major, [3:0] minor (07_) -/
abbrev O.partnerRevision (n : Nat) : Obj := ⟨⟨0x280105, n, 0⟩, 1, 0⟩
/-- 2802h.01 SOURCE_CURRENT_MAX: U16, ro/ro/rw/rw, default 5000; 500–5,000; R202 (07_) -/
abbrev O.sourceCurrentMax (n : Nat) : Obj := ⟨⟨0x280201, n, 0⟩, 2, 5000⟩
/-- 2802h.02 SOURCE_POWER_MAX: U16, ro/ro/rw/rw, default 240; 15–240; R202 (07_) -/
abbrev O.sourcePowerMax (n : Nat) : Obj := ⟨⟨0x280202, n, 0⟩, 2, 240⟩
/-- 2802h.03 EPR_ENABLE: BOOL, ro/ro/rw/rw, default true; R204 (07_) -/
abbrev O.eprEnable (n : Nat) : Obj := ⟨⟨0x280203, n, 0⟩, 1, 1⟩
/-- 2802h.04 SOURCE_PDO_MASK: U8, ro/ro/rw/rw, default 7Fh; [6:0] per R202; [0] must be 1; [7] reserved (07_) -/
abbrev O.sourcePdoMask (n : Nat) : Obj := ⟨⟨0x280204, n, 0⟩, 1, 127⟩
/-- 2802h.05 SOURCE_CAP_STATE: U8, ro, default 00h; 00h full, 01h capped by stage 1, 02h disabled by stage 4; R206 (07_) -/
abbrev O.sourceCapState (n : Nat) : Obj := ⟨⟨0x280205, n, 0⟩, 1, 0⟩
/-- 2803h.01 SINK_VMAX: U32, ro/ro/rw/rw, default 48000; 5,000–48,000; R207 (07_) -/
abbrev O.sinkVmax (n : Nat) : Obj := ⟨⟨0x280301, n, 0⟩, 4, 48000⟩
/-- 2803h.02 SINK_POWER_MIN: U16, ro/ro/rw/rw, default 15; 0–240 (07_) -/
abbrev O.sinkPowerMin (n : Nat) : Obj := ⟨⟨0x280302, n, 0⟩, 2, 15⟩
/-- 2803h.03 SINK_EPR: BOOL, ro/ro/rw/rw, default true; R205 (07_) -/
abbrev O.sinkEpr (n : Nat) : Obj := ⟨⟨0x280303, n, 0⟩, 1, 1⟩
/-- 2803h.04 SINK_PPS_MV: U32, ro/ro/rw/rw, default 0; 0, or 3,300–21,000; R208 (07_) -/
abbrev O.sinkPpsMv (n : Nat) : Obj := ⟨⟨0x280304, n, 0⟩, 4, 0⟩
/-- 2803h.05 SINK_PPS_MA: U16, ro/ro/rw/rw, default 1000; 1,000–5,000 (07_) -/
abbrev O.sinkPpsMa (n : Nat) : Obj := ⟨⟨0x280305, n, 0⟩, 2, 1000⟩
/-- 2803h.06 MISMATCH: BOOL, ro, default false; R207 (07_) -/
abbrev O.mismatch (n : Nat) : Obj := ⟨⟨0x280306, n, 0⟩, 1, 0⟩
/-- 2804h.01 CABLE_STATE: U8, ro, default 00h; 00h not read (not VCONN source), 01h no marker, 02h passive, 03h active (07_) -/
abbrev O.cableState (n : Nat) : Obj := ⟨⟨0x280401, n, 0⟩, 1, 0⟩
/-- 2804h.02 CABLE_CURRENT: U16, ro, default 3000; R209 (07_) -/
abbrev O.cableCurrent (n : Nat) : Obj := ⟨⟨0x280402, n, 0⟩, 2, 3000⟩
/-- 2804h.03 CABLE_VMAX: U8, ro, default 20; R209 (07_) -/
abbrev O.cableVmax (n : Nat) : Obj := ⟨⟨0x280403, n, 0⟩, 1, 20⟩
/-- 2804h.04 CABLE_EPR: BOOL, ro, default false; R209 (07_) -/
abbrev O.cableEpr (n : Nat) : Obj := ⟨⟨0x280404, n, 0⟩, 1, 0⟩
/-- 2804h.05 CABLE_SPEED: U8, ro, default 00h; [2:0] USB highest speed field; [7:3] reserved (07_) -/
abbrev O.cableSpeed (n : Nat) : Obj := ⟨⟨0x280405, n, 0⟩, 1, 0⟩
/-- 2804h.06 CABLE_VDO: U32, ro, default 0; Raw SOP' cable VDO (07_) -/
abbrev O.cableVdo (n : Nat) : Obj := ⟨⟨0x280406, n, 0⟩, 4, 0⟩
/-- 2804h.07 CABLE_SOPPP_ID: U32, ro, default 0; Raw SOP'' ID Header VDO (07_) -/
abbrev O.cableSopppId (n : Nat) : Obj := ⟨⟨0x280407, n, 0⟩, 4, 0⟩
/-- 2805h.01 PARTNER_ID_HEADER: U32, ro, default 0; From Discover Identity (07_) -/
abbrev O.partnerIdHeader (n : Nat) : Obj := ⟨⟨0x280501, n, 0⟩, 4, 0⟩
/-- 2805h.02 PARTNER_SVIDS: OCTETS(24), ro, default All 0; Up to 12 SVIDs, U16 each (07_) -/
abbrev O.partnerSvids (n : Nat) : Obj := ⟨⟨0x280502, n, 0⟩, 24, 0⟩
/-- 2805h.03 PARTNER_MODE_VDO: U32, ro, default 0; R222 (07_) -/
abbrev O.partnerModeVdo (n : Nat) : Obj := ⟨⟨0x280503, n, 0⟩, 4, 0⟩
/-- 2806h.01 VALTOEST_SVID: U16, const, default 3B5Eh; R222 (07_) -/
abbrev O.valtoestSvid (n : Nat) : Obj := ⟨⟨0x280601, n, 0⟩, 2, 15198⟩
/-- 2806h.02 EPX_ENABLE: BOOL, ro/ro/rw/rw, default true; R223, R226 (07_) -/
abbrev O.epxEnable (n : Nat) : Obj := ⟨⟨0x280602, n, 0⟩, 1, 1⟩
/-- 2806h.03 MODE_ENTRY_DELAY: U16, ro/ro/rw/rw, default 50; 0–1,000; R223 (07_) -/
abbrev O.modeEntryDelay (n : Nat) : Obj := ⟨⟨0x280603, n, 0⟩, 2, 50⟩
/-- 2806h.04 ENTRY_WAIT: U16, ro/ro/rw/rw, default 2000; 500–10,000; R225 (07_) -/
abbrev O.entryWait (n : Nat) : Obj := ⟨⟨0x280604, n, 0⟩, 2, 2000⟩
/-- 2806h.05 ENTRY_RESULT: U8, ro, default 00h; R225 (07_) -/
abbrev O.entryResult (n : Nat) : Obj := ⟨⟨0x280605, n, 0⟩, 1, 0⟩
/-- 2806h.06 MODE_STATE: U8, ro, default 00h; 00h not entered, 01h discovering, 02h entered, 03h exiting (07_) -/
abbrev O.modeState (n : Nat) : Obj := ⟨⟨0x280606, n, 0⟩, 1, 0⟩
/-- 2806h.07 OWN_MODE_VDO: U32, ro, default —; R222 (07_) -/
abbrev O.ownModeVdo (n : Nat) : Obj := ⟨⟨0x280607, n, 0⟩, 4, 0⟩
/-- 2807h.01 SWAP_ACCEPT: U8, ro/ro/rw/rw, default 07h; [0] PR, [1] DR, [2] VCONN; [7:3] reserved (07_) -/
abbrev O.swapAccept (n : Nat) : Obj := ⟨⟨0x280701, n, 0⟩, 1, 7⟩
/-- 2807h.02 SWAP_REQUEST: U8, ro/ro/rw/rw, default 00h; 01h PR_Swap, 02h DR_Swap, 03h VCONN_Swap; R215 (07_) -/
abbrev O.swapRequest (n : Nat) : Obj := ⟨⟨0x280702, n, 0⟩, 1, 0⟩
/-- 2807h.03 SWAP_RESULT: U8, ro, default 00h; 00h none, 01h done, 02h rejected, 03h wait limit, 04h not allowed in mode, 05h ended by Hard Reset (07_) -/
abbrev O.swapResult (n : Nat) : Obj := ⟨⟨0x280703, n, 0⟩, 1, 0⟩
/-- 2807h.04 SWAP_RETRIES: U8, ro/ro/rw/rw, default 3; 0–10 (07_) -/
abbrev O.swapRetries (n : Nat) : Obj := ⟨⟨0x280704, n, 0⟩, 1, 3⟩
/-- 2808h.01 ATTACHES: U32, ro, default 0; Entries to Attached (07_) -/
abbrev O.attaches (n : Nat) : Obj := ⟨⟨0x280801, n, 0⟩, 4, 0⟩
/-- 2808h.02 SOFT_RESETS: U32, ro, default 0; R213 (07_) -/
abbrev O.softResets (n : Nat) : Obj := ⟨⟨0x280802, n, 0⟩, 4, 0⟩
/-- 2808h.03 HARD_RESETS_SENT: U32, ro, default 0; R213 (07_) -/
abbrev O.hardResetsSent (n : Nat) : Obj := ⟨⟨0x280803, n, 0⟩, 4, 0⟩
/-- 2808h.04 HARD_RESETS_RECEIVED: U32, ro, default 0; R213 (07_) -/
abbrev O.hardResetsReceived (n : Nat) : Obj := ⟨⟨0x280804, n, 0⟩, 4, 0⟩
/-- 2808h.05 HARD_RESET_RUN: U8, ro, default 0; 0–3; R213 (07_) -/
abbrev O.hardResetRun (n : Nat) : Obj := ⟨⟨0x280805, n, 0⟩, 1, 0⟩
/-- 2808h.06 ERROR_RECOVERIES: U32, ro, default 0; R213, R219 (07_) -/
abbrev O.errorRecoveries (n : Nat) : Obj := ⟨⟨0x280806, n, 0⟩, 4, 0⟩
/-- 2808h.07 VCONN_FAULTS: U32, ro, default 0; R201 (07_) -/
abbrev O.vconnFaults (n : Nat) : Obj := ⟨⟨0x280807, n, 0⟩, 4, 0⟩
/-- 2808h.08 KEEPALIVE_TIMEOUTS: U32, ro, default 0; R204 (07_) -/
abbrev O.keepaliveTimeouts (n : Nat) : Obj := ⟨⟨0x280808, n, 0⟩, 4, 0⟩
/-- 2808h.09 COUNTERS_CLEAR: BOOL, ro/rw/rw/rw, default false; Write true to clear 2808h.01–08; reads false (07_) -/
abbrev O.pdCountersClear (n : Nat) : Obj := ⟨⟨0x280809, n, 0⟩, 1, 0⟩
/-- 3000h.01 FEED_PRIORITY: U8, ro/ro/rw/rw, default 00h; 00h FA preferred, 01h FB preferred (08_) -/
abbrev O.feedPriority : Obj := ⟨⟨0x300001, 0, 0⟩, 1, 0⟩
/-- 3000h.02 FEED_SELECTED: U8, ro, default 00h; 00h none, 01h FA, 02h FB (08_) -/
abbrev O.feedSelected : Obj := ⟨⟨0x300002, 0, 0⟩, 1, 0⟩
/-- 3000h.03 FEED_STATE: U8, ro, default 03h; R251 (08_) -/
abbrev O.feedState : Obj := ⟨⟨0x300003, 0, 0⟩, 1, 3⟩
/-- 3000h.04 SAG_INPUT_MV: U32, ro, default —; R251 (08_) -/
abbrev O.sagInputMv : Obj := ⟨⟨0x300004, 0, 0⟩, 4, 0⟩
/-- 3001h.01 FA_MV: U32, ro, default —; FA_S (08_) -/
abbrev O.faMv : Obj := ⟨⟨0x300101, 0, 0⟩, 4, 0⟩
/-- 3001h.02 FB_MV: U32, ro, default —; FB_S (08_) -/
abbrev O.fbMv : Obj := ⟨⟨0x300102, 0, 0⟩, 4, 0⟩
/-- 3001h.03 BUS_MV: U32, ro, default —; HBUS_S (08_) -/
abbrev O.busMv : Obj := ⟨⟨0x300103, 0, 0⟩, 4, 0⟩
/-- 3001h.04 FA_QUALIFIED: BOOL, ro, default false; R248 (08_) -/
abbrev O.faQualified : Obj := ⟨⟨0x300104, 0, 0⟩, 1, 0⟩
/-- 3001h.05 FB_QUALIFIED: BOOL, ro, default false; R248 (08_) -/
abbrev O.fbQualified : Obj := ⟨⟨0x300105, 0, 0⟩, 1, 0⟩
/-- 3002h.01 FEED_QUAL_MV: U32, ro/ro/rw/rw, default 45000; 36,000–52,000 (08_) -/
abbrev O.feedQualMv : Obj := ⟨⟨0x300201, 0, 0⟩, 4, 45000⟩
/-- 3002h.02 FEED_QUAL_TIME: U16, ro/ro/rw/rw, default 100; 10–10,000 (08_) -/
abbrev O.feedQualTime : Obj := ⟨⟨0x300202, 0, 0⟩, 2, 100⟩
/-- 3002h.03 FEED_LOST_MV: U32, ro/ro/rw/rw, default 44500; 24,000–51,500; R248 (08_) -/
abbrev O.feedLostMv : Obj := ⟨⟨0x300203, 0, 0⟩, 4, 44500⟩
/-- 3002h.04 FEED_OV_MV: U32, ro/ro/rw/rw, default 57000; 52,000–60,000 (08_) -/
abbrev O.feedOvMv : Obj := ⟨⟨0x300204, 0, 0⟩, 4, 57000⟩
/-- 3002h.05 DEAD_TIME: U16, ro/ro/rw/rw, default 50; 20–1,000 (08_) -/
abbrev O.deadTime : Obj := ⟨⟨0x300205, 0, 0⟩, 2, 50⟩
/-- 3002h.06 FEED_RAMP_RATE: U16, ro/ro/rw/rw, default 10; 1–100 (08_) -/
abbrev O.feedRampRate : Obj := ⟨⟨0x300206, 0, 0⟩, 2, 10⟩
/-- 3002h.07 AUTO_REVERT: BOOL, ro/ro/rw/rw, default true; R249 (08_) -/
abbrev O.autoRevert : Obj := ⟨⟨0x300207, 0, 0⟩, 1, 1⟩
/-- 3002h.08 REVERT_TIME: U32, ro/ro/rw/rw, default 10000; 1,000–3,600,000 (08_) -/
abbrev O.revertTime : Obj := ⟨⟨0x300208, 0, 0⟩, 4, 10000⟩
/-- 3003h.01 TRANSFERS: U32, ro, default 0; Transfers completed (08_) -/
abbrev O.transfers : Obj := ⟨⟨0x300301, 0, 0⟩, 4, 0⟩
/-- 3003h.02 LAST_TRANSFER_GAP: U32, ro, default 0; Outgoing gate off to incoming ramp start (08_) -/
abbrev O.lastTransferGap : Obj := ⟨⟨0x300302, 0, 0⟩, 4, 0⟩
/-- 3003h.03 BUS_MIN_MV: U32, ro/ro/rw/rw, default —; Lowest bus voltage of the last transfer; write 0 to restart (08_) -/
abbrev O.busMinMv : Obj := ⟨⟨0x300303, 0, 0⟩, 4, 0⟩
/-- 3004h.01 ADC_FRAME: U16, const, default 10; Frame of 25 conversions (08_) -/
abbrev O.adcFrame : Obj := ⟨⟨0x300401, 0, 0⟩, 2, 10⟩
/-- 3004h.02 ADC_BG_BOUND: U16, const, default 360; Longest background sampling interval, R246 (08_) -/
abbrev O.adcBgBound : Obj := ⟨⟨0x300402, 0, 0⟩, 2, 360⟩
/-- 3004h.03 PRIORITY_PORTS: U32, ro, default 0; [23:0] priority ports, bit n for Pn; [31:24] reserved (08_) -/
abbrev O.priorityPorts : Obj := ⟨⟨0x300403, 0, 0⟩, 4, 0⟩
/-- 3100h.01 SENSE_UOHM: U16, ro/ro/rw/rw, default 5000; 1,000–20,000 (08_) -/
abbrev O.senseUohm (n : Nat) : Obj := ⟨⟨0x310001, n, 0⟩, 2, 5000⟩
/-- 3100h.02 INRUSH_RATE: U16, ro/ro/rw/rw, default 1000; 100–30,000; R230, R232 (08_) -/
abbrev O.inrushRate (n : Nat) : Obj := ⟨⟨0x310002, n, 0⟩, 2, 1000⟩
/-- 3100h.03 TRANSITION_RATE: U16, ro/ro/rw/rw, default 1000; 100–30,000; R231 (08_) -/
abbrev O.transitionRate (n : Nat) : Obj := ⟨⟨0x310003, n, 0⟩, 2, 1000⟩
/-- 3100h.04 ILIM_PCT: U8, ro/ro/rw/rw, default 120; 105–150; R234 (08_) -/
abbrev O.ilimPct (n : Nat) : Obj := ⟨⟨0x310004, n, 0⟩, 1, 120⟩
/-- 3100h.05 ILIM_CAP: U16, ro/ro/rw/rw, default 6500; 1,000–7,500 (08_) -/
abbrev O.ilimCap (n : Nat) : Obj := ⟨⟨0x310005, n, 0⟩, 2, 6500⟩
/-- 3100h.06 FAST_TRIP_PCT: U16, ro/ro/rw/rw, default 200; 150–400; R234 (08_) -/
abbrev O.fastTripPct (n : Nat) : Obj := ⟨⟨0x310006, n, 0⟩, 2, 200⟩
/-- 3100h.07 FAULT_TIME: U32, ro/ro/rw/rw, default 10000; 100–100,000; R238 (08_) -/
abbrev O.faultTime (n : Nat) : Obj := ⟨⟨0x310007, n, 0⟩, 4, 10000⟩
/-- 3100h.08 RETRY_MODE: U8, ro/ro/rw/rw, default 01h; 00h latch-off, 01h auto-retry (08_) -/
abbrev O.retryMode (n : Nat) : Obj := ⟨⟨0x310008, n, 0⟩, 1, 1⟩
/-- 3100h.09 COOL_DOWN: U32, ro/ro/rw/rw, default 1000; 10–60,000 (08_) -/
abbrev O.coolDown (n : Nat) : Obj := ⟨⟨0x310009, n, 0⟩, 4, 1000⟩
/-- 3100h.0A RETRY_LIMIT: U8, ro/ro/rw/rw, default 8; 0–255; 0 unlimited (08_) -/
abbrev O.retryLimit (n : Nat) : Obj := ⟨⟨0x31000A, n, 0⟩, 1, 8⟩
/-- 3100h.0B SINK_ON_MV: U32, ro/ro/rw/rw, default 4750; 4,750–48,000; R232 (08_) -/
abbrev O.sinkOnMv (n : Nat) : Obj := ⟨⟨0x31000B, n, 0⟩, 4, 4750⟩
/-- 3100h.0C VSET_SCALE: U16, ro/ro/rw/rw, default 50; 20–100; R227 (08_) -/
abbrev O.vsetScale (n : Nat) : Obj := ⟨⟨0x31000C, n, 0⟩, 2, 50⟩
/-- 3100h.0D REVERSE_MA: U16, ro/ro/rw/rw, default 200; 50–2,000; R236 (08_) -/
abbrev O.reverseMa (n : Nat) : Obj := ⟨⟨0x31000D, n, 0⟩, 2, 200⟩
/-- 3101h.01 SRC_PATH_STATE: U8, ro, default 00h; 00h Off, 01h Ramp, 02h On, 03h Cool-down, 04h Latched (08_) -/
abbrev O.srcPathState (n : Nat) : Obj := ⟨⟨0x310101, n, 0⟩, 1, 0⟩
/-- 3101h.02 SNK_PATH_STATE: U8, ro, default 00h; As 3101h.01 (08_) -/
abbrev O.snkPathState (n : Nat) : Obj := ⟨⟨0x310102, n, 0⟩, 1, 0⟩
/-- 3101h.03 ILIM_MA: U16, ro, default —; R234 (08_) -/
abbrev O.ilimMa (n : Nat) : Obj := ⟨⟨0x310103, n, 0⟩, 2, 0⟩
/-- 3101h.04 FAST_TRIP_MA: U16, ro, default —; R234 (08_) -/
abbrev O.fastTripMa (n : Nat) : Obj := ⟨⟨0x310104, n, 0⟩, 2, 0⟩
/-- 3101h.05 IN_LIMIT: BOOL, ro, default false; R235 (08_) -/
abbrev O.inLimit (n : Nat) : Obj := ⟨⟨0x310105, n, 0⟩, 1, 0⟩
/-- 3101h.06 FAULT_TIMER: U32, ro, default 0; R238 (08_) -/
abbrev O.faultTimer (n : Nat) : Obj := ⟨⟨0x310106, n, 0⟩, 4, 0⟩
/-- 3101h.07 PG: BOOL, ro, default false; R240 (08_) -/
abbrev O.pg (n : Nat) : Obj := ⟨⟨0x310107, n, 0⟩, 1, 0⟩
/-- 3101h.08 LAST_FAULT: U8, ro, default 00h; 00h none, 01h fast trip, 02h fault timer, 03h thermal, 04h converter (08_) -/
abbrev O.lastFault (n : Nat) : Obj := ⟨⟨0x310108, n, 0⟩, 1, 0⟩
/-- 3101h.09 RETRIES: U8, ro, default 0; R229 (08_) -/
abbrev O.retries (n : Nat) : Obj := ⟨⟨0x310109, n, 0⟩, 1, 0⟩
/-- 3101h.0A FAULT_CLEAR: BOOL, ro/ro/rw/rw, default false; Write true to leave Latched; reads false (08_) -/
abbrev O.faultClear (n : Nat) : Obj := ⟨⟨0x31010A, n, 0⟩, 1, 0⟩
/-- 3102h.01 THERMAL_MODE: U8, ro/ro/rw/rw, default 00h; 00h model, 01h diode; R242 (08_) -/
abbrev O.thermalMode (n : Nat) : Obj := ⟨⟨0x310201, n, 0⟩, 1, 0⟩
/-- 3102h.02 DIODE_PAIR: U8, ro/ro/rw/rw, default 00h; 00h source pair, 01h sink pair (08_) -/
abbrev O.diodePair (n : Nat) : Obj := ⟨⟨0x310202, n, 0⟩, 1, 0⟩
/-- 3102h.03 FOSTER_RTH_1: U32, ro/ro/rw/rw, default 250; 1–100,000 (08_) -/
abbrev O.fosterRth1 (n : Nat) : Obj := ⟨⟨0x310203, n, 0⟩, 4, 250⟩
/-- 3102h.04 FOSTER_RTH_2: U32, ro/ro/rw/rw, default 1000; 1–100,000 (08_) -/
abbrev O.fosterRth2 (n : Nat) : Obj := ⟨⟨0x310204, n, 0⟩, 4, 1000⟩
/-- 3102h.05 FOSTER_RTH_3: U32, ro/ro/rw/rw, default 12000; 1–100,000 (08_) -/
abbrev O.fosterRth3 (n : Nat) : Obj := ⟨⟨0x310205, n, 0⟩, 4, 12000⟩
/-- 3102h.06 FOSTER_TAU_1: U32, ro/ro/rw/rw, default 800; 10–10,000,000 (08_) -/
abbrev O.fosterTau1 (n : Nat) : Obj := ⟨⟨0x310206, n, 0⟩, 4, 800⟩
/-- 3102h.07 FOSTER_TAU_2: U32, ro/ro/rw/rw, default 12000; 10–10,000,000 (08_) -/
abbrev O.fosterTau2 (n : Nat) : Obj := ⟨⟨0x310207, n, 0⟩, 4, 12000⟩
/-- 3102h.08 FOSTER_TAU_3: U32, ro/ro/rw/rw, default 2500000; 10–10,000,000 (08_) -/
abbrev O.fosterTau3 (n : Nat) : Obj := ⟨⟨0x310208, n, 0⟩, 4, 0x2625A0⟩
/-- 3102h.09 REF_TEMP: I16, ro/ro/rw/rw, default 700; −400 to 1,250 (08_) -/
abbrev O.refTemp (n : Nat) : Obj := ⟨⟨0x310209, n, 0⟩, 2, 700⟩
/-- 3102h.0A MODEL_START_RISE: U16, ro/ro/rw/rw, default 100; 0–1,000; R244 (08_) -/
abbrev O.modelStartRise (n : Nat) : Obj := ⟨⟨0x31020A, n, 0⟩, 2, 100⟩
/-- 3102h.0B FET_TEMP_WARN: I16, ro/ro/rw/rw, default 1350; 500 to FET_TEMP_LIMIT (08_) -/
abbrev O.fetTempWarn (n : Nat) : Obj := ⟨⟨0x31020B, n, 0⟩, 2, 1350⟩
/-- 3102h.0C FET_TEMP_LIMIT: I16, ro/ro/rw/rw, default 1500; 600–1,750 (08_) -/
abbrev O.fetTempLimit (n : Nat) : Obj := ⟨⟨0x31020C, n, 0⟩, 2, 1500⟩
/-- 3102h.0D SRC_FET_TEMP: I16, ro, default —; R242 (08_) -/
abbrev O.srcFetTemp (n : Nat) : Obj := ⟨⟨0x31020D, n, 0⟩, 2, 0⟩
/-- 3102h.0E SNK_FET_TEMP: I16, ro, default —; R242 (08_) -/
abbrev O.snkFetTemp (n : Nat) : Obj := ⟨⟨0x31020E, n, 0⟩, 2, 0⟩
/-- 3102h.0F MODEL_HISTORY: BOOL, ro, default false; R244 (08_) -/
abbrev O.modelHistory (n : Nat) : Obj := ⟨⟨0x31020F, n, 0⟩, 1, 0⟩
/-- 3102h.10 DIODE_STATE: U8, ro, default 00h; 00h unused, 01h good, 02h open, 03h short (08_) -/
abbrev O.diodeState (n : Nat) : Obj := ⟨⟨0x310210, n, 0⟩, 1, 0⟩
/-- 3102h.11 DIODE_IDEALITY: U16, ro/ro/rw/rw, default 10080; 9,500–10,500 (08_) -/
abbrev O.diodeIdeality (n : Nat) : Obj := ⟨⟨0x310211, n, 0⟩, 2, 10080⟩
/-- 3102h.12 FET_TEMP_PEAK: I16, ro/ro/rw/rw, default —; Highest of 3102h.0D–0E; write −400 to restart (08_) -/
abbrev O.fetTempPeak (n : Nat) : Obj := ⟨⟨0x310212, n, 0⟩, 2, 0⟩
/-- 3103h.01 VBUS_MV: U32, ro, default —; R247 (08_) -/
abbrev O.vbusMv (n : Nat) : Obj := ⟨⟨0x310301, n, 0⟩, 4, 0⟩
/-- 3103h.02 VSRC_MV: U32, ro, default —; Converter output (08_) -/
abbrev O.vsrcMv (n : Nat) : Obj := ⟨⟨0x310302, n, 0⟩, 4, 0⟩
/-- 3103h.03 VSNK_MV: U32, ro, default —; Sink node (08_) -/
abbrev O.vsnkMv (n : Nat) : Obj := ⟨⟨0x310303, n, 0⟩, 4, 0⟩
/-- 3103h.04 CURRENT_MA: I32, ro, default —; Positive toward the connector (08_) -/
abbrev O.currentMa (n : Nat) : Obj := ⟨⟨0x310304, n, 0⟩, 4, 0⟩
/-- 3103h.05 POWER_MW: I32, ro, default —; R247 (08_) -/
abbrev O.powerMw (n : Nat) : Obj := ⟨⟨0x310305, n, 0⟩, 4, 0⟩
/-- 3103h.06 ENERGY_OUT: U64, ro, default 0; R247 (08_) -/
abbrev O.energyOut (n : Nat) : Obj := ⟨⟨0x310306, n, 0⟩, 8, 0⟩
/-- 3103h.07 ENERGY_IN: U64, ro, default 0; R247 (08_) -/
abbrev O.energyIn (n : Nat) : Obj := ⟨⟨0x310307, n, 0⟩, 8, 0⟩
/-- 3103h.08 FET_POWER_MW: U32, ro, default —; P of the active pair, R243 (08_) -/
abbrev O.fetPowerMw (n : Nat) : Obj := ⟨⟨0x310308, n, 0⟩, 4, 0⟩
/-- 3103h.09 SAMPLE_AGE: U32, ro, default —; Since the last current sample (08_) -/
abbrev O.sampleAge (n : Nat) : Obj := ⟨⟨0x310309, n, 0⟩, 4, 0⟩
/-- 3104h.01 FAST_TRIPS: U32, ro, default 0; R237 (08_) -/
abbrev O.fastTrips (n : Nat) : Obj := ⟨⟨0x310401, n, 0⟩, 4, 0⟩
/-- 3104h.02 TIMER_TRIPS: U32, ro, default 0; R238 (08_) -/
abbrev O.timerTrips (n : Nat) : Obj := ⟨⟨0x310402, n, 0⟩, 4, 0⟩
/-- 3104h.03 THERMAL_TRIPS: U32, ro, default 0; R239 (08_) -/
abbrev O.thermalTrips (n : Nat) : Obj := ⟨⟨0x310403, n, 0⟩, 4, 0⟩
/-- 3104h.04 REVERSE_EVENTS: U32, ro, default 0; R236 (08_) -/
abbrev O.reverseEvents (n : Nat) : Obj := ⟨⟨0x310404, n, 0⟩, 4, 0⟩
/-- 3104h.05 LIMIT_ENTRIES: U32, ro, default 0; Ticks in which IN_LIMIT became true (08_) -/
abbrev O.limitEntries (n : Nat) : Obj := ⟨⟨0x310405, n, 0⟩, 4, 0⟩
/-- 3104h.06 RAMPS: U32, ro, default 0; Entries to On (08_) -/
abbrev O.ramps (n : Nat) : Obj := ⟨⟨0x310406, n, 0⟩, 4, 0⟩
/-- 3104h.07 COUNTERS_CLEAR: BOOL, ro/rw/rw/rw, default false; Write true to clear 3104h.01–06 and 3103h.06–07; reads false (08_) -/
abbrev O.powerCountersClear (n : Nat) : Obj := ⟨⟨0x310407, n, 0⟩, 1, 0⟩
/-- 5000h.01 PCIE_MODE: U8, ro, default —; 00h hub function only, 01h switch with virtual downstream ports, 02h root port; R253 (09_) -/
abbrev O.pcieMode : Obj := ⟨⟨0x500001, 0, 0⟩, 1, 0⟩
/-- 5000h.02 SPEED_MAX: U8, ro/ro/rw/rw, default 5; 1–5 for 2.5, 5, 8, 16 and 32 GT/s; applies at the next training (09_) -/
abbrev O.pcieSpeedMax : Obj := ⟨⟨0x500002, 0, 0⟩, 1, 5⟩
/-- 5000h.03 WIDTH_MAX: U8, ro/ro/rw/rw, default 8; 1, 2, 4 or 8 (09_) -/
abbrev O.pcieWidthMax : Obj := ⟨⟨0x500003, 0, 0⟩, 1, 8⟩
/-- 5000h.04 LINK_SPEED: U8, ro, default 0; As SPEED_MAX; 0 while down (09_) -/
abbrev O.pcieLinkSpeed : Obj := ⟨⟨0x500004, 0, 0⟩, 1, 0⟩
/-- 5000h.05 LINK_WIDTH: U8, ro, default 0; Lanes in use (09_) -/
abbrev O.pcieLinkWidth : Obj := ⟨⟨0x500005, 0, 0⟩, 1, 0⟩
/-- 5000h.06 PCIE_ENABLE: BOOL, ro/ro/rw/rw, default true; false holds the link down (09_) -/
abbrev O.pcieEnable : Obj := ⟨⟨0x500006, 0, 0⟩, 1, 1⟩
/-- 5001h.01 UR_SENT: U64, ro, default 0; R257 (09_) -/
abbrev O.urSent : Obj := ⟨⟨0x500101, 0, 0⟩, 8, 0⟩
/-- 5001h.02 LINK_DOWN_DISCARDS: U64, ro, default 0; R258 (09_) -/
abbrev O.pcieLinkDownDiscards : Obj := ⟨⟨0x500102, 0, 0⟩, 8, 0⟩
/-- 5001h.03 INTX_DISCARDS: U64, ro, default 0; R254 (09_) -/
abbrev O.intxDiscards : Obj := ⟨⟨0x500103, 0, 0⟩, 8, 0⟩
/-- 5001h.04 MALFORMED_DISCARDS: U64, ro, default 0; TLPs over 1,024 B, R43 (09_) -/
abbrev O.malformedDiscards : Obj := ⟨⟨0x500104, 0, 0⟩, 8, 0⟩
/-- 5002h.01 APERTURE_SIZE: U8, ro/ro/rw/rw, default 4; 0–6; BAR4 is 2^value GiB; R262 (09_) -/
abbrev O.apertureSize : Obj := ⟨⟨0x500201, 0, 0⟩, 1, 4⟩
/-- 5002h.02 APERTURE_TIMEOUT: U16, ro/ro/rw/rw, default 40; 1–1,000; R280 (09_) -/
abbrev O.apertureTimeout : Obj := ⟨⟨0x500202, 0, 0⟩, 2, 40⟩
/-- 5002h.03 APERTURE_QUEUE: U8, ro, default 0; Aperture writes queued, 0–64 (09_) -/
abbrev O.apertureQueue : Obj := ⟨⟨0x500203, 0, 0⟩, 1, 0⟩
/-- 5011h.00 VDP_POLL: U8, ro/ro/rw/rw, default 8; 1–64; R256 (09_) -/
abbrev O.vdpPollMs : Obj := ⟨⟨0x501100, 0, 0⟩, 1, 8⟩
/-- 5020h.01 RP_LINK_STATE: U8, ro, default 00h; Oar: 00h down, 01h training, 02h up (09_) -/
abbrev O.rpLinkState : Obj := ⟨⟨0x502001, 0, 0⟩, 1, 0⟩
/-- 5020h.02 RP_SPEED: U8, ro, default 0; As LINK_SPEED (09_) -/
abbrev O.rpSpeed : Obj := ⟨⟨0x502002, 0, 0⟩, 1, 0⟩
/-- 5020h.03 RP_WIDTH: U8, ro, default 0; As LINK_WIDTH (09_) -/
abbrev O.rpWidth : Obj := ⟨⟨0x502003, 0, 0⟩, 1, 0⟩
/-- 5020h.04 RP_HOT_RESET: BOOL, ro/ro/rw/rw, default false; R260 (09_) -/
abbrev O.rpHotReset : Obj := ⟨⟨0x502004, 0, 0⟩, 1, 0⟩
/-- 5020h.05 RP_DISCARDS: U64, ro, default 0; R260 (09_) -/
abbrev O.rpDiscards : Obj := ⟨⟨0x502005, 0, 0⟩, 8, 0⟩
/-- 5030h.01 MAC_MODE: U8, ro/ro/rw/rw, default 01h; MAC 0: 00h off, 01h 25GBASE-R, 02h 10GBASE-R, 03h USXGMII (09_) -/
abbrev O.macMode (n : Nat) : Obj := ⟨⟨0x503001, n, 0⟩, 1, 1⟩
/-- 5030h.02 FEC_MODE: U8, ro/ro/rw/rw, default 00h; 00h off, 01h Clause 74, 02h Clause 108 (25GBASE-R only) (09_) -/
abbrev O.fecMode (n : Nat) : Obj := ⟨⟨0x503002, n, 0⟩, 1, 0⟩
/-- 5030h.03 PAUSE_RX: BOOL, ro/ro/rw/rw, default false; R264 (09_) -/
abbrev O.pauseRx (n : Nat) : Obj := ⟨⟨0x503003, n, 0⟩, 1, 0⟩
/-- 5030h.04 MAC_LINK: U8, ro, default 00h; 00h down, 01h up (09_) -/
abbrev O.macLink (n : Nat) : Obj := ⟨⟨0x503004, n, 0⟩, 1, 0⟩
/-- 5030h.05 USX_RATE: U8, ro, default 00h; 00h none, 01h 10M, 02h 100M, 03h 1G, 04h 2.5G, 05h 5G, 06h 10G (09_) -/
abbrev O.usxRate (n : Nat) : Obj := ⟨⟨0x503005, n, 0⟩, 1, 0⟩
/-- 5030h.06 FRAMES_RX: U64, ro, default 0; Frames passed to the adapter (09_) -/
abbrev O.framesRx (n : Nat) : Obj := ⟨⟨0x503006, n, 0⟩, 8, 0⟩
/-- 5030h.07 FRAMES_TX: U64, ro, default 0; — (09_) -/
abbrev O.framesTx (n : Nat) : Obj := ⟨⟨0x503007, n, 0⟩, 8, 0⟩
/-- 5030h.08 BYTES_RX: U64, ro, default 0; — (09_) -/
abbrev O.bytesRx (n : Nat) : Obj := ⟨⟨0x503008, n, 0⟩, 8, 0⟩
/-- 5030h.09 BYTES_TX: U64, ro, default 0; — (09_) -/
abbrev O.bytesTx (n : Nat) : Obj := ⟨⟨0x503009, n, 0⟩, 8, 0⟩
/-- 5030h.0A RUNTS: U64, ro, default 0; R265 (09_) -/
abbrev O.runts (n : Nat) : Obj := ⟨⟨0x50300A, n, 0⟩, 8, 0⟩
/-- 5030h.0B OVERSIZE: U64, ro, default 0; R265 (09_) -/
abbrev O.oversize (n : Nat) : Obj := ⟨⟨0x50300B, n, 0⟩, 8, 0⟩
/-- 5030h.0C LINK_DOWN_DISCARDS: U64, ro, default 0; R265 (09_) -/
abbrev O.macLinkDownDiscards (n : Nat) : Obj := ⟨⟨0x50300C, n, 0⟩, 8, 0⟩
/-- 5030h.0D PAUSES_RX: U64, ro, default 0; PAUSE frames received (09_) -/
abbrev O.pausesRx (n : Nat) : Obj := ⟨⟨0x50300D, n, 0⟩, 8, 0⟩
/-- 5040h.01 BRIDGE_ENABLE: BOOL, ro/ro/ro/rw, default true; false: requests answered STATUS 01h, none issued (09_) -/
abbrev O.bridgeEnable : Obj := ⟨⟨0x504001, 0, 0⟩, 1, 1⟩
/-- 5040h.02 RETRY_TIME: U16, ro/ro/rw/rw, default 2000; 500–50,000; R270 (09_) -/
abbrev O.retryTime : Obj := ⟨⟨0x504002, 0, 0⟩, 2, 2000⟩
/-- 5040h.03 BACKOFF_TIME: U16, ro/ro/rw/rw, default 200; 50–10,000; R276, R277 (09_) -/
abbrev O.backoffTime : Obj := ⟨⟨0x504003, 0, 0⟩, 2, 200⟩
/-- 5040h.04 CLAIM_MAX: U16, ro/ro/rw/rw, default 10; 1–1,000 (09_) -/
abbrev O.claimMax : Obj := ⟨⟨0x504004, 0, 0⟩, 2, 10⟩
/-- 5040h.05 CLAIM_RETRIES: U8, ro/ro/rw/rw, default 8; 0–64 (09_) -/
abbrev O.claimRetries : Obj := ⟨⟨0x504005, 0, 0⟩, 1, 8⟩
/-- 5040h.06 BULK_IDLE: U16, ro/ro/rw/rw, default 100; 10–10,000; R274 (09_) -/
abbrev O.bulkIdle : Obj := ⟨⟨0x504006, 0, 0⟩, 2, 100⟩
/-- 5040h.07 PREFETCH_LIFE: U16, ro/ro/rw/rw, default 100; 10–10,000; R278 (09_) -/
abbrev O.prefetchLife : Obj := ⟨⟨0x504007, 0, 0⟩, 2, 100⟩
/-- 5040h.08 INSTANCE: U32, ro, default —; R269 (09_) -/
abbrev O.hubInstance : Obj := ⟨⟨0x504008, 0, 0⟩, 4, 0⟩
/-- 5040h.09 BUS_CLAIMANT: U8, ro, default FFh; Claimant's address; FFh free (09_) -/
abbrev O.busClaimant : Obj := ⟨⟨0x504009, 0, 0⟩, 1, 255⟩
/-- 5044h.01 RETRANSMITS: U64, ro, default 0; R270 (09_) -/
abbrev O.retransmits : Obj := ⟨⟨0x504401, 0, 0⟩, 8, 0⟩
/-- 5044h.02 DUPLICATES: U64, ro, default 0; R271 (09_) -/
abbrev O.rigDuplicates : Obj := ⟨⟨0x504402, 0, 0⟩, 8, 0⟩
/-- 5044h.03 POSTED_GAPS: U64, ro, default 0; R273 (09_) -/
abbrev O.postedGaps : Obj := ⟨⟨0x504403, 0, 0⟩, 8, 0⟩
/-- 5044h.04 STREAM_RESTARTS: U64, ro, default 0; R273 (09_) -/
abbrev O.streamRestarts : Obj := ⟨⟨0x504404, 0, 0⟩, 8, 0⟩
/-- 5044h.05 BACKOFFS: U64, ro, default 0; R277 (09_) -/
abbrev O.backoffs : Obj := ⟨⟨0x504405, 0, 0⟩, 8, 0⟩
/-- 5044h.06 BUSY_ANSWERS: U64, ro, default 0; R276 (09_) -/
abbrev O.busyAnswers : Obj := ⟨⟨0x504406, 0, 0⟩, 8, 0⟩
/-- 5044h.07 PREFETCH_DISCARDS: U64, ro, default 0; R278 (09_) -/
abbrev O.prefetchDiscards : Obj := ⟨⟨0x504407, 0, 0⟩, 8, 0⟩
/-- 5044h.08 SE_PREFETCH_DISCARDS: U64, ro, default 0; R279 (09_) -/
abbrev O.sePrefetchDiscards : Obj := ⟨⟨0x504408, 0, 0⟩, 8, 0⟩
/-- 5044h.09 SE_PREFETCH_LAST: U64, ro, default FFFFFFFFFFFFFFFFh; R279 (09_) -/
abbrev O.sePrefetchLast : Obj := ⟨⟨0x504409, 0, 0⟩, 8, 0xFFFFFFFFFFFFFFFF⟩
/-- 5044h.0A BAD_PACKETS: U64, ro, default 0; R267 (09_) -/
abbrev O.badPackets : Obj := ⟨⟨0x50440A, 0, 0⟩, 8, 0⟩
/-- 5046h.00 ERR_PENDING: U8, ro, default 0; ERR_LOG entries with KIND not 0 (09_) -/
abbrev O.errPending : Obj := ⟨⟨0x504600, 0, 0⟩, 1, 0⟩
/-- 6000h.01 MODE: U8, ro/ro/rw/rw, default 00h; 00h off, 01h scan-out, 02h pass-through, 03h capture; R285 (10_) -/
abbrev O.headMode (n : Nat) : Obj := ⟨⟨0x600001, n, 0⟩, 1, 0⟩
/-- 6000h.02 LINK_RATE_MAX: U8, ro/ro/rw/rw, default 03h; 00h HBR3, 01h UHBR10, 02h UHBR13.5, 03h UHBR20; R284 (10_) -/
abbrev O.linkRateMax (n : Nat) : Obj := ⟨⟨0x600002, n, 0⟩, 1, 3⟩
/-- 6000h.03 LANES_MAX: U8, ro/ro/rw/rw, default 4; 1, 2 or 4 (10_) -/
abbrev O.lanesMax (n : Nat) : Obj := ⟨⟨0x600003, n, 0⟩, 1, 4⟩
/-- 6000h.04 BACKGROUND: U32, ro/rw/rw/rw, default 0; [9:0] B, [19:10] G, [29:20] R; [31:30] reserved (10_) -/
abbrev O.headBackground (n : Nat) : Obj := ⟨⟨0x600004, n, 0⟩, 4, 0⟩
/-- 6000h.05 OUTPUT_BPC: U8, ro/ro/rw/rw, default 8; 8 or 10; scan-out only (10_) -/
abbrev O.outputBpc (n : Nat) : Obj := ⟨⟨0x600005, n, 0⟩, 1, 8⟩
/-- 6000h.06 PAIR_LOCK: BOOL, ro/ro/rw/rw, default false; H0 and H2 only; R306 (10_) -/
abbrev O.pairLock (n : Nat) : Obj := ⟨⟨0x600006, n, 0⟩, 1, 0⟩
/-- 6000h.07 GENLOCK: U8, ro/ro/rw/rw, default 00h; R307 (10_) -/
abbrev O.genlock (n : Nat) : Obj := ⟨⟨0x600007, n, 0⟩, 1, 0⟩
/-- 6000h.08 GENLOCK_HEAD: U8, ro/ro/rw/rw, default 0; 0–3; not this head (10_) -/
abbrev O.genlockHead (n : Nat) : Obj := ⟨⟨0x600008, n, 0⟩, 1, 0⟩
/-- 6000h.09 GENLOCK_EPOCH: U64, ro/ro/rw/rw, default 0; R307 (10_) -/
abbrev O.genlockEpoch (n : Nat) : Obj := ⟨⟨0x600009, n, 0⟩, 8, 0⟩
/-- 6000h.0A GENLOCK_STATE: U8, ro, default 00h; 00h free-running, 01h locked, 02h holdover (10_) -/
abbrev O.genlockState (n : Nat) : Obj := ⟨⟨0x60000A, n, 0⟩, 1, 0⟩
/-- 6000h.0B SCAN_GUARD: BOOL, ro/ro/rw/rw, default false; R297 (10_) -/
abbrev O.scanGuard (n : Nat) : Obj := ⟨⟨0x60000B, n, 0⟩, 1, 0⟩
/-- 6001h.01 PIXEL_CLOCK: U32, ro/ro/rw/rw, default 148500; R288 (10_) -/
abbrev O.pixelClock (n : Nat) : Obj := ⟨⟨0x600101, n, 0⟩, 4, 0x24414⟩
/-- 6001h.02 HACTIVE: U16, ro/ro/rw/rw, default 1920; R288 (10_) -/
abbrev O.hactive (n : Nat) : Obj := ⟨⟨0x600102, n, 0⟩, 2, 1920⟩
/-- 6001h.03 HFRONT: U16, ro/ro/rw/rw, default 88; — (10_) -/
abbrev O.hfront (n : Nat) : Obj := ⟨⟨0x600103, n, 0⟩, 2, 88⟩
/-- 6001h.04 HSYNC: U16, ro/ro/rw/rw, default 44; — (10_) -/
abbrev O.hsync (n : Nat) : Obj := ⟨⟨0x600104, n, 0⟩, 2, 44⟩
/-- 6001h.05 HBACK: U16, ro/ro/rw/rw, default 148; — (10_) -/
abbrev O.hback (n : Nat) : Obj := ⟨⟨0x600105, n, 0⟩, 2, 148⟩
/-- 6001h.06 VACTIVE: U16, ro/ro/rw/rw, default 1080; — (10_) -/
abbrev O.vactive (n : Nat) : Obj := ⟨⟨0x600106, n, 0⟩, 2, 1080⟩
/-- 6001h.07 VFRONT: U8, ro/ro/rw/rw, default 4; — (10_) -/
abbrev O.vfront (n : Nat) : Obj := ⟨⟨0x600107, n, 0⟩, 1, 4⟩
/-- 6001h.08 VSYNC: U8, ro/ro/rw/rw, default 5; — (10_) -/
abbrev O.vsync (n : Nat) : Obj := ⟨⟨0x600108, n, 0⟩, 1, 5⟩
/-- 6001h.09 VBACK: U8, ro/ro/rw/rw, default 36; — (10_) -/
abbrev O.vback (n : Nat) : Obj := ⟨⟨0x600109, n, 0⟩, 1, 36⟩
/-- 6001h.0A SYNC_POL: U8, ro/ro/rw/rw, default 03h; [0] HSYNC positive, [1] VSYNC positive; [7:2] reserved (10_) -/
abbrev O.syncPol (n : Nat) : Obj := ⟨⟨0x60010A, n, 0⟩, 1, 3⟩
/-- 6002h.01 HEAD_STATE: U8, ro, default 00h; 00h off, 01h training, 02h running, 03h no sink, 04h link failed, 05h stream not carried, 06h stopped by sag or sleep (10_) -/
abbrev O.headState (n : Nat) : Obj := ⟨⟨0x600201, n, 0⟩, 1, 0⟩
/-- 6002h.02 LINK_RATE: U8, ro, default FFh; As LINK_RATE_MAX; FFh untrained (10_) -/
abbrev O.linkRate (n : Nat) : Obj := ⟨⟨0x600202, n, 0⟩, 1, 255⟩
/-- 6002h.03 LANES: U8, ro, default 0; Lanes in use (10_) -/
abbrev O.headLanes (n : Nat) : Obj := ⟨⟨0x600203, n, 0⟩, 1, 0⟩
/-- 6002h.04 FRAME_SEQ: U32, ro, default 0; R287 (10_) -/
abbrev O.frameSeq (n : Nat) : Obj := ⟨⟨0x600204, n, 0⟩, 4, 0⟩
/-- 6002h.05 LINE: U16, ro, default 0; Line now being output (10_) -/
abbrev O.headLine (n : Nat) : Obj := ⟨⟨0x600205, n, 0⟩, 2, 0⟩
/-- 6002h.06 UNDERRUNS: U64, ro, default 0; R299 (10_) -/
abbrev O.underruns (n : Nat) : Obj := ⟨⟨0x600206, n, 0⟩, 8, 0⟩
/-- 6002h.07 LINK_RETRAINS: U32, ro, default 0; R284 (10_) -/
abbrev O.linkRetrains (n : Nat) : Obj := ⟨⟨0x600207, n, 0⟩, 4, 0⟩
/-- 6002h.08 LINK_TRAIN_FAILS: U32, ro, default 0; R284 (10_) -/
abbrev O.linkTrainFails (n : Nat) : Obj := ⟨⟨0x600208, n, 0⟩, 4, 0⟩
/-- 6003h.01 COMMIT: U8, ro/rw/rw/rw, default 00h; Write a layer mask, 01h–0Fh; reads the pending mask; R292, R293 (10_) -/
abbrev O.commit (n : Nat) : Obj := ⟨⟨0x600301, n, 0⟩, 1, 0⟩
/-- 6003h.02 SHOW_SEQ: U32, ro, default 0; R293 (10_) -/
abbrev O.showSeq (n : Nat) : Obj := ⟨⟨0x600302, n, 0⟩, 4, 0⟩
/-- 6003h.03 RETIRED_SEQ: U32, ro, default 0; R295 (10_) -/
abbrev O.retiredSeq (n : Nat) : Obj := ⟨⟨0x600303, n, 0⟩, 4, 0⟩
/-- 6003h.04 COMMITS_REPLACED: U32, ro, default 0; R294 (10_) -/
abbrev O.commitsReplaced (n : Nat) : Obj := ⟨⟨0x600304, n, 0⟩, 4, 0⟩
/-- 6004h.01 ENABLE: BOOL, ro/rw/rw/rw, default false; Shadow (10_) -/
abbrev O.layerEnable (n l : Nat) : Obj := ⟨⟨0x600401, n, l⟩, 1, 0⟩
/-- 6004h.02 FORMAT: U8, ro/rw/rw/rw, default 01h; Shadow; R289 (10_) -/
abbrev O.layerFormat (n l : Nat) : Obj := ⟨⟨0x600402, n, l⟩, 1, 1⟩
/-- 6004h.03 BASE: U64, ro/rw/rw/rw, default 04000000h; Shadow; DRAM offset; R291 (10_) -/
abbrev O.layerBase (n l : Nat) : Obj := ⟨⟨0x600403, n, l⟩, 8, 0x4000000⟩
/-- 6004h.04 STRIDE: U32, ro/rw/rw/rw, default 7680; Shadow (10_) -/
abbrev O.layerStride (n l : Nat) : Obj := ⟨⟨0x600404, n, l⟩, 4, 7680⟩
/-- 6004h.05 WIDTH: U16, ro/rw/rw/rw, default 1920; Shadow (10_) -/
abbrev O.layerWidth (n l : Nat) : Obj := ⟨⟨0x600405, n, l⟩, 2, 1920⟩
/-- 6004h.06 HEIGHT: U16, ro/rw/rw/rw, default 1080; Shadow (10_) -/
abbrev O.layerHeight (n l : Nat) : Obj := ⟨⟨0x600406, n, l⟩, 2, 1080⟩
/-- 6004h.07 X: U16, ro/rw/rw/rw, default 0; Shadow (10_) -/
abbrev O.layerX (n l : Nat) : Obj := ⟨⟨0x600407, n, l⟩, 2, 0⟩
/-- 6004h.08 Y: U16, ro/rw/rw/rw, default 0; Shadow (10_) -/
abbrev O.layerY (n l : Nat) : Obj := ⟨⟨0x600408, n, l⟩, 2, 0⟩
/-- 6004h.09 ALPHA_MODE: U8, ro/rw/rw/rw, default 00h; Shadow; 00h opaque, 01h straight, 02h premultiplied; R290 (10_) -/
abbrev O.alphaMode (n l : Nat) : Obj := ⟨⟨0x600409, n, l⟩, 1, 0⟩
/-- 6004h.0A PLANE_ALPHA: U8, ro/rw/rw/rw, default 255; Shadow (10_) -/
abbrev O.planeAlpha (n l : Nat) : Obj := ⟨⟨0x60040A, n, l⟩, 1, 255⟩
/-- 6004h.0B LATCHED_BASE: U64, ro, default 0; BASE in force (10_) -/
abbrev O.latchedBase (n l : Nat) : Obj := ⟨⟨0x60040B, n, l⟩, 8, 0⟩
/-- 6004h.0C RETIRED_BASE: U64, ro, default 0; R295 (10_) -/
abbrev O.retiredBase (n l : Nat) : Obj := ⟨⟨0x60040C, n, l⟩, 8, 0⟩
/-- 6008h.01 PRESENT_DELAY: U32, ro/ro/rw/rw, default 300000; 100,000–1,000,000; R303, R304 (10_) -/
abbrev O.presentDelay (n : Nat) : Obj := ⟨⟨0x600801, n, 0⟩, 4, 0x493E0⟩
/-- 6008h.02 CAP_FORMAT: U8, ro/ro/rw/rw, default 00h; R300 (10_) -/
abbrev O.capFormat (n : Nat) : Obj := ⟨⟨0x600802, n, 0⟩, 1, 0⟩
/-- 6008h.03 STREAM_STATE: U8, ro, default 00h; R305 (10_) -/
abbrev O.streamState (n : Nat) : Obj := ⟨⟨0x600803, n, 0⟩, 1, 0⟩
/-- 6008h.04 LOSS_LINES: U16, ro/ro/rw/rw, default 64; 1–4,096; R305 (10_) -/
abbrev O.lossLines (n : Nat) : Obj := ⟨⟨0x600804, n, 0⟩, 2, 64⟩
/-- 6008h.05 LATE_PACKETS: U64, ro, default 0; R303 (10_) -/
abbrev O.latePackets (n : Nat) : Obj := ⟨⟨0x600805, n, 0⟩, 8, 0⟩
/-- 6008h.06 FRAMES_CAPTURED: U64, ro, default 0; Attribute packets sent (10_) -/
abbrev O.framesCaptured (n : Nat) : Obj := ⟨⟨0x600806, n, 0⟩, 8, 0⟩
/-- 6008h.07 STORE_BYTES: U32, const, default 2097152; Line store per head (10_) -/
abbrev O.storeBytes (n : Nat) : Obj := ⟨⟨0x600807, n, 0⟩, 4, 0x200000⟩
/-- 6009h.01 HPD: BOOL, ro, default false; HPD level (10_) -/
abbrev O.hpd (n : Nat) : Obj := ⟨⟨0x600901, n, 0⟩, 1, 0⟩
/-- 6009h.02 SINK_DPCD_REV: U8, ro, default 00h; DPCD revision of the sink (10_) -/
abbrev O.sinkDpcdRev (n : Nat) : Obj := ⟨⟨0x600902, n, 0⟩, 1, 0⟩
/-- 6009h.04 AUX_ERRORS: U32, ro, default 0; AUX transactions failed after retries (10_) -/
abbrev O.auxErrors (n : Nat) : Obj := ⟨⟨0x600904, n, 0⟩, 4, 0⟩
/-- 600Ah.01 GUARD_FAULTS: U32, ro, default 0; R297 (10_) -/
abbrev O.guardFaults (n : Nat) : Obj := ⟨⟨0x600A01, n, 0⟩, 4, 0⟩
/-- 600Ah.02 GUARD_LAST_ADDR: U64, ro, default FFFFFFFFFFFFFFFFh; R297 (10_) -/
abbrev O.guardLastAddr (n : Nat) : Obj := ⟨⟨0x600A02, n, 0⟩, 8, 0xFFFFFFFFFFFFFFFF⟩
/-- 600Ah.03 GUARD_LAST_SOURCE: U8, ro, default 00h; 01h rigger bridge, 02h management processor (10_) -/
abbrev O.guardLastSource (n : Nat) : Obj := ⟨⟨0x600A03, n, 0⟩, 1, 0⟩
/-- 600Ah.04 GUARD_LAST_SEQ: U32, ro, default 0; R297 (10_) -/
abbrev O.guardLastSeq (n : Nat) : Obj := ⟨⟨0x600A04, n, 0⟩, 4, 0⟩
/-- 6020h.01 DRAM_SIZE: U64, const, default 200000000h; R309 (10_) -/
abbrev O.dramSize : Obj := ⟨⟨0x602001, 0, 0⟩, 8, 0x200000000⟩
/-- 6020h.02 USER_BASE: U64, const, default 04000000h; R309 (10_) -/
abbrev O.userBase : Obj := ⟨⟨0x602002, 0, 0⟩, 8, 0x4000000⟩
/-- 6020h.03 USER_END: U64, ro, default 180000000h; First offset after the user area (10_) -/
abbrev O.userEnd : Obj := ⟨⟨0x602003, 0, 0⟩, 8, 0x180000000⟩
/-- 6021h.01 DRAM_SCRUB_PERIOD: U32, ro/ro/rw/rw, default 21600; 3,600–86,400; R312 (10_) -/
abbrev O.dramScrubPeriod : Obj := ⟨⟨0x602101, 0, 0⟩, 4, 21600⟩
/-- 6021h.02 DRAM_SCRUB_PASSES: U32, ro, default 0; — (10_) -/
abbrev O.dramScrubPasses : Obj := ⟨⟨0x602102, 0, 0⟩, 4, 0⟩
/-- 6021h.03 DRAM_SCRUB_LAST_PASS: U32, ro, default —; — (10_) -/
abbrev O.dramScrubLastPass : Obj := ⟨⟨0x602103, 0, 0⟩, 4, 0⟩
/-- 6021h.04 DRAM_SCRUB_FORCED: U64, ro, default 0; R312 (10_) -/
abbrev O.dramScrubForced : Obj := ⟨⟨0x602104, 0, 0⟩, 8, 0⟩
/-- 6021h.05 DRAM_CORRECTED: U64, ro, default 0; R311 (10_) -/
abbrev O.dramCorrected : Obj := ⟨⟨0x602105, 0, 0⟩, 8, 0⟩
/-- 6021h.06 DRAM_UNCORRECTABLE: U64, ro, default 0; R311 (10_) -/
abbrev O.dramUncorrectable : Obj := ⟨⟨0x602106, 0, 0⟩, 8, 0⟩
/-- 6021h.07 DRAM_UE_LAST: U64, ro, default FFFFFFFFFFFFFFFFh; R311 (10_) -/
abbrev O.dramUeLast : Obj := ⟨⟨0x602107, 0, 0⟩, 8, 0xFFFFFFFFFFFFFFFF⟩
/-- 6022h.01 DRAM_BUDGET: U32, const, default 1160000; — (10_) -/
abbrev O.dramBudget : Obj := ⟨⟨0x602201, 0, 0⟩, 4, 0x11B340⟩
/-- 6022h.02 SCANOUT_COMMITTED: U32, ro, default 0; R310 (10_) -/
abbrev O.scanoutCommitted : Obj := ⟨⟨0x602202, 0, 0⟩, 4, 0⟩
/-- 6022h.03 DRAM_OVERCOMMIT: BOOL, ro, default false; R310 (10_) -/
abbrev O.dramOvercommit : Obj := ⟨⟨0x602203, 0, 0⟩, 1, 0⟩
/-- 1007h.00 PRODUCT: STRING(16), const, default EPX2460; Product name (11_) -/
abbrev O.product : Obj := ⟨⟨0x100700, 0, 0⟩, 16, 0x30363432585045⟩
/-- 1008h.00 FW_VERSION: U32, ro, default —; Running image: [31:24] major, [23:16] minor, [15:0] build (11_) -/
abbrev O.fwVersion : Obj := ⟨⟨0x100800, 0, 0⟩, 4, 0⟩
/-- 1009h.00 ROM_VERSION: U32, const, default —; Boot ROM, coded as FW_VERSION (11_) -/
abbrev O.romVersion : Obj := ⟨⟨0x100900, 0, 0⟩, 4, Config.romVersion⟩
/-- 1020h.01 SETTINGS_SAVE: BOOL, ro/ro/ro/rw, default false; Write true to save; reads false; R341 (11_) -/
abbrev O.settingsSave : Obj := ⟨⟨0x102001, 0, 0⟩, 1, 0⟩
/-- 1020h.02 SETTINGS_STATE: U8, ro, default —; 00h none stored, 01h stored, 02h saving, 03h last save failed (11_) -/
abbrev O.settingsState : Obj := ⟨⟨0x102002, 0, 0⟩, 1, 0⟩
/-- 1020h.03 FACTORY_RESTORE: BOOL, ro/ro/ro/rw, default false; R341 (11_) -/
abbrev O.factoryRestore : Obj := ⟨⟨0x102003, 0, 0⟩, 1, 0⟩
/-- 1020h.04 SETTINGS_SAVES: U32, ro, default 0; Completed saves (11_) -/
abbrev O.settingsSaves : Obj := ⟨⟨0x102004, 0, 0⟩, 4, 0⟩
/-- 1100h.01 SESSION_OPEN: OCTETS(16), wo, default —; R325; SESSION 0 only (11_) -/
abbrev O.sessionOpen : Obj := ⟨⟨0x110001, 0, 0⟩, 16, 0⟩
/-- 1100h.02 SESSION_CLOSE: U16, wo, default —; R330 (11_) -/
abbrev O.sessionClose : Obj := ⟨⟨0x110002, 0, 0⟩, 2, 0⟩
/-- 1100h.03 SESSIONS_MAX: U8, const, default 8; R324 (11_) -/
abbrev O.sessionsMax : Obj := ⟨⟨0x110003, 0, 0⟩, 1, 8⟩
/-- 1100h.04 IDLE_TIMEOUT: U32, ro/ro/ro/rw, default 60; 10–3,600 (11_) -/
abbrev O.idleTimeout : Obj := ⟨⟨0x110004, 0, 0⟩, 4, 60⟩
/-- 1100h.05 BLOCK_TIMEOUT: U16, ro/ro/ro/rw, default 2000; 100–60,000; R321 (11_) -/
abbrev O.blockTimeout : Obj := ⟨⟨0x110005, 0, 0⟩, 2, 2000⟩
/-- 1101h.01–04 ACCESS_KEY_SLOT: U8, ro/ro/ro/rw, default 0, 1, 2, 3; Observer, Operator, Engineer, Owner in order; key slot 0–63 with the FOP authentication engine bit, otherwise INVALID_VALUE (11_) -/
abbrev O.accessKeySlot (k : Nat) : Obj := ⟨⟨0x110101, 0, k⟩, 1, ([0, 1, 2, 3].getD k 0)⟩
/-- 1103h.01 MALFORMED: U64, ro, default 0; R322 (11_) -/
abbrev O.fopMalformed : Obj := ⟨⟨0x110301, 0, 0⟩, 8, 0⟩
/-- 1103h.02 AUTH_FAILURES: U64, ro, default 0; R322 (11_) -/
abbrev O.fopAuthFailures : Obj := ⟨⟨0x110302, 0, 0⟩, 8, 0⟩
/-- 1103h.03 REPLAYS: U64, ro, default 0; R329 (11_) -/
abbrev O.fopReplays : Obj := ⟨⟨0x110303, 0, 0⟩, 8, 0⟩
/-- 1103h.04 DUPLICATES: U64, ro, default 0; R329 (11_) -/
abbrev O.fopDuplicates : Obj := ⟨⟨0x110304, 0, 0⟩, 8, 0⟩
/-- 1103h.05 OPENS_REFUSED: U64, ro, default 0; SESSION_LIMIT and NO_KEY answers (11_) -/
abbrev O.opensRefused : Obj := ⟨⟨0x110305, 0, 0⟩, 8, 0⟩
/-- 1111h.00 NOTIFY_DROPS: U64, ro, default 0; R336 (11_) -/
abbrev O.notifyDrops : Obj := ⟨⟨0x111100, 0, 0⟩, 8, 0⟩
/-- 1120h.01 T1S_ENABLE: BOOL, ro/ro/ro/rw, default true; 10BASE-T1S interface on (11_) -/
abbrev O.t1sEnable : Obj := ⟨⟨0x112001, 0, 0⟩, 1, 1⟩
/-- 1120h.02 PLCA_NODE_ID: U8, ro/ro/rw/rw, default 255; 0–254; 255 CSMA/CD; R333 (11_) -/
abbrev O.plcaNodeId : Obj := ⟨⟨0x112002, 0, 0⟩, 1, 255⟩
/-- 1120h.03 PLCA_NODE_COUNT: U8, ro/ro/rw/rw, default 8; 1–255; used as node 0 (11_) -/
abbrev O.plcaNodeCount : Obj := ⟨⟨0x112003, 0, 0⟩, 1, 8⟩
/-- 1120h.04 PLCA_TO_TIMER: U8, ro/ro/rw/rw, default 32; 1–255 (11_) -/
abbrev O.plcaToTimer : Obj := ⟨⟨0x112004, 0, 0⟩, 1, 32⟩
/-- 1120h.05 PLCA_BURST_COUNT: U8, ro/ro/rw/rw, default 0; 0–255 (11_) -/
abbrev O.plcaBurstCount : Obj := ⟨⟨0x112005, 0, 0⟩, 1, 0⟩
/-- 1120h.06 PLCA_BURST_TIMER: U8, ro/ro/rw/rw, default 128; 1–255 (11_) -/
abbrev O.plcaBurstTimer : Obj := ⟨⟨0x112006, 0, 0⟩, 1, 128⟩
/-- 1120h.07 PLCA_STATUS: U8, ro, default 00h; 00h CSMA/CD, 01h PLCA with BEACON seen, 02h PLCA without BEACON (11_) -/
abbrev O.plcaStatus : Obj := ⟨⟨0x112007, 0, 0⟩, 1, 0⟩
/-- 1121h.01 MAC_ADDR: OCTETS(6), const, default —; R333 (11_) -/
abbrev O.macAddr : Obj := ⟨⟨0x112101, 0, 0⟩, 6, Config.macAddr⟩
/-- 1121h.02 LINK_LOCAL: OCTETS(16), ro, default —; R333 (11_) -/
abbrev O.linkLocal : Obj := ⟨⟨0x112102, 0, 0⟩, 16, Config.linkLocal⟩
/-- 1121h.03 STATIC_ADDR: OCTETS(16), ro/ro/ro/rw, default All 0; All 0: none; R334 (11_) -/
abbrev O.staticAddr : Obj := ⟨⟨0x112103, 0, 0⟩, 16, 0⟩
/-- 1121h.04 FOP_PORT: U16, ro/ro/ro/rw, default 50614; 1,024–65,535 (11_) -/
abbrev O.fopPort : Obj := ⟨⟨0x112104, 0, 0⟩, 2, 50614⟩
/-- 1121h.05 ADDR_STATE: U8, ro, default 00h; [0] link-local duplicate; [1] static duplicate; [7:2] reserved (11_) -/
abbrev O.addrState : Obj := ⟨⟨0x112105, 0, 0⟩, 1, 0⟩
/-- 1122h.01 UART_BAUD: U32, ro/ro/ro/rw, default 115200; 115,200, 230,400, 921,600 or 3,000,000 (11_) -/
abbrev O.uartBaud : Obj := ⟨⟨0x112201, 0, 0⟩, 4, 0x1C200⟩
/-- 1122h.02 UART_ERRORS: U64, ro, default 0; R337 (11_) -/
abbrev O.uartErrors : Obj := ⟨⟨0x112202, 0, 0⟩, 8, 0⟩
/-- 1123h.01 MAILBOX_OVERRUNS: U64, ro, default 0; R336 (11_) -/
abbrev O.mailboxOverruns : Obj := ⟨⟨0x112301, 0, 0⟩, 8, 0⟩
/-- 1124h.01 RELAY_ENTRIES: U8, ro, default 0; Cox: relay table entries in use, 0–64 (11_) -/
abbrev O.relayEntries : Obj := ⟨⟨0x112401, 0, 0⟩, 1, 0⟩
/-- 1124h.02 RELAY_DISCARDS: U64, ro, default 0; Cox: R335 (11_) -/
abbrev O.relayDiscards : Obj := ⟨⟨0x112402, 0, 0⟩, 8, 0⟩
/-- F000h.01 UPTIME: U64, ro, default —; Since the last reset (11_) -/
abbrev O.uptime : Obj := ⟨⟨0xF00001, 0, 0⟩, 8, 0⟩
/-- F000h.02 DIE_TEMP: I16, ro, default —; Junction temperature (11_) -/
abbrev O.dieTemp : Obj := ⟨⟨0xF00002, 0, 0⟩, 2, 0⟩
/-- F000h.03 DIE_TEMP_PEAK: I16, ro/ro/rw/rw, default —; Write −400 to restart (11_) -/
abbrev O.dieTempPeak : Obj := ⟨⟨0xF00003, 0, 0⟩, 2, 0⟩
/-- F000h.04 MGMT_LOAD: U8, ro, default —; Management pair load over the last second (11_) -/
abbrev O.mgmtLoad : Obj := ⟨⟨0xF00004, 0, 0⟩, 1, 0⟩
/-- F000h.05 ACTIVE_PAIR: U8, ro, default —; 00h pair A, 01h pair B (11_) -/
abbrev O.activePair : Obj := ⟨⟨0xF00005, 0, 0⟩, 1, 0⟩
/-- F001h.00 ECHO: OCTETS(64), ro/rw/rw/rw, default All 0; Reads back what was last written; for transport tests (11_) -/
abbrev O.echoBuffer : Obj := ⟨⟨0xF00100, 0, 0⟩, 64, 0⟩
/-- F002h.01–04 FOP_RX: U64, ro, default 0; Messages received: 10BASE-T1S, management tunnel, mailbox, UART (11_) -/
abbrev O.fopRx (k : Nat) : Obj := ⟨⟨0xF00201, 0, k⟩, 8, 0⟩
/-- F002h.05–08 FOP_TX: U64, ro, default 0; Messages sent, in the same order (11_) -/
abbrev O.fopTx (k : Nat) : Obj := ⟨⟨0xF00205, 0, k⟩, 8, 0⟩
/-- 7000h.01 KEYSTORE_STATE: U8, ro, default 00h; 00h normal, 01h keyless; R359 (12_) -/
abbrev O.keystoreState : Obj := ⟨⟨0x700001, 0, 0⟩, 1, 0⟩
/-- 7000h.02 ROOT_STATE: U8, ro, default 00h; 00h absent, 01h present; R350 (12_) -/
abbrev O.rootState : Obj := ⟨⟨0x700002, 0, 0⟩, 1, 0⟩
/-- 7000h.03 ROOT_GENERATE: BOOL, ro/ro/ro/wo, default —; R350; reads false at ro levels (12_) -/
abbrev O.rootGenerate : Obj := ⟨⟨0x700003, 0, 0⟩, 1, 0⟩
/-- 7000h.04 T1S_KEY_LOAD: BOOL, ro/ro/ro/rw, default false; R346 (12_) -/
abbrev O.t1sKeyLoad : Obj := ⟨⟨0x700004, 0, 0⟩, 1, 0⟩
/-- 7002h.00 KEY_LOAD: OCTETS(36), ro/ro/ro/wo, default —; SLOT U8, ENGINES U8, reserved U16, KEY OCTETS(32); R346; reads all 00h (12_) -/
abbrev O.keyLoad : Obj := ⟨⟨0x700200, 0, 0⟩, 36, 0⟩
/-- 7003h.00 KEY_ERASE: U8, ro/ro/ro/wo, default —; Slot 0–63; R347; reads 0 (12_) -/
abbrev O.keyErase : Obj := ⟨⟨0x700300, 0, 0⟩, 1, 0⟩
/-- 7004h.00 KEY_DERIVE: OCTETS(56), ro/ro/ro/wo, default —; SOURCE U8, DEST U8, ENGINES U8, LABEL_LEN U8, CONTEXT_LEN U8, reserved OCTETS(3), LABEL OCTETS(16), CONTEXT OCTETS(32); R349; reads all 00h (12_) -/
abbrev O.keyDerive : Obj := ⟨⟨0x700400, 0, 0⟩, 56, 0⟩
/-- 7005h.01 KEY_OP_STATE: U8, ro, default 00h; 00h idle, 01h last completed, 02h last aborted by tamper (12_) -/
abbrev O.keyOpState : Obj := ⟨⟨0x700501, 0, 0⟩, 1, 0⟩
/-- 7005h.02 KEY_OPS: U32, ro, default 0; Completed loads, erases and derivations (12_) -/
abbrev O.keyOps : Obj := ⟨⟨0x700502, 0, 0⟩, 4, 0⟩
/-- 7020h.01 TAMPER_ENABLE: U16, ro/ro/ro/rw, default 01C0h; [8:0] per R357; [15:9] reserved (12_) -/
abbrev O.tamperEnable : Obj := ⟨⟨0x702001, 0, 0⟩, 2, 448⟩
/-- 7020h.02 TAMPER_POLARITY: U8, ro/ro/ro/rw, default 00h; [3:0] 1: input active high; [7:4] reserved (12_) -/
abbrev O.tamperPolarity : Obj := ⟨⟨0x702002, 0, 0⟩, 1, 0⟩
/-- 7020h.03 TAMPER_FILTER: U8, ro/ro/ro/rw, default 55h; 2 bits per input, [1:0] for TAMPER_IN0: 00b 1 µs, 01b 10 µs, 10b 100 µs, 11b 1,000 µs (12_) -/
abbrev O.tamperFilter : Obj := ⟨⟨0x702003, 0, 0⟩, 1, 85⟩
/-- 7020h.04 TAMPER_LATCH: BOOL, ro, default false; R358, R360 (12_) -/
abbrev O.tamperLatch : Obj := ⟨⟨0x702004, 0, 0⟩, 1, 0⟩
/-- 7020h.05 TAMPER_CAUSE: U16, ro, default 0000h; Sources detected in the last event, coded as TAMPER_ENABLE (12_) -/
abbrev O.tamperCause : Obj := ⟨⟨0x702005, 0, 0⟩, 2, 0⟩
/-- 7020h.06 TAMPER_TIME: U32, ro, default 0; RTC seconds of the last event (12_) -/
abbrev O.tamperTime : Obj := ⟨⟨0x702006, 0, 0⟩, 4, 0⟩
/-- 7020h.07 TAMPER_EVENTS: U32, ro, default 0; Events since VBAT was first applied (12_) -/
abbrev O.tamperEvents : Obj := ⟨⟨0x702007, 0, 0⟩, 4, 0⟩
/-- 7020h.08 TAMPER_ACTIVE: U16, ro, default —; Sources whose condition is present now, enabled or not (12_) -/
abbrev O.tamperActive : Obj := ⟨⟨0x702008, 0, 0⟩, 2, 0⟩
/-- 7020h.09 TAMPER_CLEAR: BOOL, ro/ro/ro/wo, default —; R360 (12_) -/
abbrev O.tamperClear : Obj := ⟨⟨0x702009, 0, 0⟩, 1, 0⟩
/-- 7030h.01 LMS_PK_HASH_0: OCTETS(32), const, default —; R362 (12_) -/
abbrev O.lmsPkHash0 : Obj := ⟨⟨0x703001, 0, 0⟩, 32, Config.lmsKeyHash 0⟩
/-- 7030h.02 LMS_PK_HASH_1: OCTETS(32), const, default —; R362 (12_) -/
abbrev O.lmsPkHash1 : Obj := ⟨⟨0x703002, 0, 0⟩, 32, Config.lmsKeyHash 1⟩
/-- 7030h.03 PK_REVOKED: U8, ro, default —; [1:0] per R362 (12_) -/
abbrev O.pkRevoked : Obj := ⟨⟨0x703003, 0, 0⟩, 1, 0⟩
/-- 7030h.04 ROLLBACK: U8, ro, default —; 0–64 (12_) -/
abbrev O.rollback : Obj := ⟨⟨0x703004, 0, 0⟩, 1, 0⟩
/-- 7030h.05 COSIGN_LOCK: BOOL, ro, default —; R363 (12_) -/
abbrev O.cosignLock : Obj := ⟨⟨0x703005, 0, 0⟩, 1, 0⟩
/-- 7030h.06 FUSE_PROGRAM: OCTETS(4), ro/ro/ro/wo, default —; CODE U8, reserved U8, CONFIRM U16; R364 (12_) -/
abbrev O.fuseProgram : Obj := ⟨⟨0x703006, 0, 0⟩, 4, 0⟩
/-- 7040h.01 RNG_STATE: U8, ro, default —; 00h starting, 01h healthy, 02h failed; R365 (12_) -/
abbrev O.rngState : Obj := ⟨⟨0x704001, 0, 0⟩, 1, 0⟩
/-- 7040h.02 RNG_FAILS: U32, ro, default 0; Failed health tests (12_) -/
abbrev O.rngFails : Obj := ⟨⟨0x704002, 0, 0⟩, 4, 0⟩
/-- 8000h.01 STATUS_0: U32, ro/ro/rw/rw, default 0; Sources 0–31; write 1 to clear, R375 (13_) -/
abbrev O.status0 : Obj := ⟨⟨0x800001, 0, 0⟩, 4, 0⟩
/-- 8000h.02 STATUS_1: U32, ro/ro/rw/rw, default 0; Sources 32–63 (13_) -/
abbrev O.status1 : Obj := ⟨⟨0x800002, 0, 0⟩, 4, 0⟩
/-- 8000h.03 STATUS_2: U32, ro/ro/rw/rw, default 0; Sources 64–95 (13_) -/
abbrev O.status2 : Obj := ⟨⟨0x800003, 0, 0⟩, 4, 0⟩
/-- 8001h.01 FIRST_SOURCE: U8, ro, default FFh; 0–95; FFh empty; R374 (13_) -/
abbrev O.firstSource : Obj := ⟨⟨0x800101, 0, 0⟩, 1, 255⟩
/-- 8001h.02 FIRST_UNIT: U8, ro, default FFh; Unit; FFh none (13_) -/
abbrev O.firstUnit : Obj := ⟨⟨0x800102, 0, 0⟩, 1, 255⟩
/-- 8001h.03 FIRST_SEVERITY: U8, ro, default 00h; Effective severity, R368 (13_) -/
abbrev O.firstSeverity : Obj := ⟨⟨0x800103, 0, 0⟩, 1, 0⟩
/-- 8001h.04 FIRST_DATA: U64, ro, default 0; R367 (13_) -/
abbrev O.firstData : Obj := ⟨⟨0x800104, 0, 0⟩, 8, 0⟩
/-- 8001h.05 FIRST_STROKE: U64, ro, default 0; Stroke number at detection (13_) -/
abbrev O.firstStroke : Obj := ⟨⟨0x800105, 0, 0⟩, 8, 0⟩
/-- 8001h.06 OVERFLOW: BOOL, ro, default false; R374 (13_) -/
abbrev O.firstOverflow : Obj := ⟨⟨0x800106, 0, 0⟩, 1, 0⟩
/-- 8001h.07 OVERFLOW_COUNT: U32, ro, default 0; R374 (13_) -/
abbrev O.firstOverflowCount : Obj := ⟨⟨0x800107, 0, 0⟩, 4, 0⟩
/-- 8001h.08 FIRST_CLEAR: BOOL, ro/ro/rw/rw, default false; Write true to clear; reads false (13_) -/
abbrev O.firstClear : Obj := ⟨⟨0x800108, 0, 0⟩, 1, 0⟩
/-- 8003h.01 EVENT_SEQ: U32, ro, default 0; SEQ of the newest entry (13_) -/
abbrev O.faultSeq : Obj := ⟨⟨0x800301, 0, 0⟩, 4, 0⟩
/-- 8004h.01 FAULT_N_LEVEL: U8, ro/ro/rw/rw, default 03h; 01h–05h; R377 (13_) -/
abbrev O.faultNLevel : Obj := ⟨⟨0x800401, 0, 0⟩, 1, 3⟩
/-- 8004h.02 FAULT_N_MODE: U8, ro/ro/rw/rw, default 00h; 00h release, 01h hold (13_) -/
abbrev O.faultNMode : Obj := ⟨⟨0x800402, 0, 0⟩, 1, 0⟩
/-- 8004h.03 FAULT_N_RELEASE: BOOL, ro/ro/rw/rw, default false; Write true to release; reads false (13_) -/
abbrev O.faultNRelease : Obj := ⟨⟨0x800403, 0, 0⟩, 1, 0⟩
/-- 8004h.04 FAULT_N_STATE: BOOL, ro, default false; True while FAULT_N is low (13_) -/
abbrev O.faultNState : Obj := ⟨⟨0x800404, 0, 0⟩, 1, 0⟩
/-- 8005h.01 SHADOW_TAIL: U32, ro/ro/rw/rw, default 5000; 100–100,000; R379 (13_) -/
abbrev O.shadowTail : Obj := ⟨⟨0x800501, 0, 0⟩, 4, 5000⟩
/-- 8005h.02 SHADOW_MAX: U32, ro/ro/rw/rw, default 2000; 10–10,000; R379 (13_) -/
abbrev O.shadowMax : Obj := ⟨⟨0x800502, 0, 0⟩, 4, 2000⟩
/-- 8005h.03 FAULTS_IN_PROGRESS: U8, ro, default 0; R382 (13_) -/
abbrev O.faultsInProgress : Obj := ⟨⟨0x800503, 0, 0⟩, 1, 0⟩
/-- 8006h.01 DEGRADED: U32, ro/ro/rw/rw, default 0; [23:0] P0–P23, [27:24] H0–H3, [28] PCIe (sources 64–66), [29] ETH0 and [30] ETH1 (unit M), [31] every other source; write 1 to clear; R371 (13_) -/
abbrev O.degraded : Obj := ⟨⟨0x800601, 0, 0⟩, 4, 0⟩
/-- 8007h.01 FATAL_RECORD: OCTETS(24), ro, default All 0; SOURCE U8, UNIT U8, reserved U16, TIME U32 (RTC seconds), DATA U64, STROKE U64; R383 (13_) -/
abbrev O.fatalRecord : Obj := ⟨⟨0x800701, 0, 0⟩, 24, 0⟩
/-- 8007h.02 FATAL_RESETS: U32, ro, default 0; Since power-on reset (13_) -/
abbrev O.fatalResets : Obj := ⟨⟨0x800702, 0, 0⟩, 4, 0⟩
/-- 9000h.01 RUNNING_SLOT: U8, ro, default —; 00h A, 01h B; FFh in ROM recovery (14_) -/
abbrev O.runningSlot : Obj := ⟨⟨0x900001, 0, 0⟩, 1, 0⟩
/-- 9000h.02 BOOT_SLOT: U8, ro, default —; 00h A, 01h B, FFh none; R389 (14_) -/
abbrev O.bootSlot : Obj := ⟨⟨0x900002, 0, 0⟩, 1, 0⟩
/-- 9000h.03 UPDATE_LOCK: BOOL, ro/ro/ro/rw, default false; R392, R400 (14_) -/
abbrev O.updateLock : Obj := ⟨⟨0x900003, 0, 0⟩, 1, 0⟩
/-- 9000h.04 LINE_RUN: BOOL, ro, default —; Level of the LINE_RUN pin (14_) -/
abbrev O.lineRun : Obj := ⟨⟨0x900004, 0, 0⟩, 1, 0⟩
/-- 9000h.05 FEED_REQUIRE: BOOL, ro/ro/ro/rw, default true; false in an Oar; R400 (14_) -/
abbrev O.feedRequire : Obj := ⟨⟨0x900005, 0, 0⟩, 1, 1⟩
/-- 9002h.00 TRANSFER_OPEN: OCTETS(16), ro/ro/wo/wo, default —; TARGET U8 (01h image, 02h settings record; 02h Owner only), reserved U8 × 3, SIZE U32, TRANSFER_ID OCTETS(8); reads all 00h; R392 (14_) -/
abbrev O.transferOpen : Obj := ⟨⟨0x900200, 0, 0⟩, 16, 0⟩
/-- 9002h.01 TRANSFER_STATE: U8, ro, default 00h; 00h none, 01h open, 02h complete, 03h verifying, 04h verified, 05h verify failed (14_) -/
abbrev O.transferState : Obj := ⟨⟨0x900201, 0, 0⟩, 1, 0⟩
/-- 9002h.02 TRANSFER_ABORT: BOOL, ro/ro/wo/wo, default —; R392 (14_) -/
abbrev O.transferAbort : Obj := ⟨⟨0x900202, 0, 0⟩, 1, 0⟩
/-- 9002h.03 BLOCKS_TOTAL: U16, ro, default 0; R393 (14_) -/
abbrev O.blocksTotal : Obj := ⟨⟨0x900203, 0, 0⟩, 2, 0⟩
/-- 9002h.04 BLOCKS_RECEIVED: U16, ro, default 0; Bits set in BITMAP (14_) -/
abbrev O.blocksReceived : Obj := ⟨⟨0x900204, 0, 0⟩, 2, 0⟩
/-- 9002h.06 BLOCK_CRC_ERRORS: U32, ro, default 0; R393 (14_) -/
abbrev O.blockCrcErrors : Obj := ⟨⟨0x900206, 0, 0⟩, 4, 0⟩
/-- 9002h.07 VERIFY: BOOL, ro/ro/wo/wo, default —; R396 (14_) -/
abbrev O.verify : Obj := ⟨⟨0x900207, 0, 0⟩, 1, 0⟩
/-- 9002h.08 VERIFY_RESULT: U8, ro, default 00h; 00h not run, 01h passed, others per R398 (14_) -/
abbrev O.verifyResult : Obj := ⟨⟨0x900208, 0, 0⟩, 1, 0⟩
/-- 9002h.09 TRANSFER_ID: OCTETS(8), ro, default All 0; Of the open transfer (14_) -/
abbrev O.transferId : Obj := ⟨⟨0x900209, 0, 0⟩, 8, 0⟩
/-- 9004h.01 ACTIVATE: U8, ro/ro/ro/rw, default 00h; R399; reads 02h while deferred (14_) -/
abbrev O.activate : Obj := ⟨⟨0x900401, 0, 0⟩, 1, 0⟩
/-- 9004h.02 ACTIVATION_STATE: U8, ro, default 00h; 00h idle, 01h deferred, 02h–06h per R401, 07h handing back (14_) -/
abbrev O.activationState : Obj := ⟨⟨0x900402, 0, 0⟩, 1, 0⟩
/-- 9004h.03 REFUSAL: U8, ro, default 00h; R400 (14_) -/
abbrev O.refusal : Obj := ⟨⟨0x900403, 0, 0⟩, 1, 0⟩
/-- 9004h.04 CONFIRM: BOOL, ro/ro/rw/rw, default false; R403; reads false (14_) -/
abbrev O.confirmObj : Obj := ⟨⟨0x900404, 0, 0⟩, 1, 0⟩
/-- 9004h.05 REVERT: BOOL, ro/ro/ro/rw, default false; R404; reads false (14_) -/
abbrev O.revertObj : Obj := ⟨⟨0x900405, 0, 0⟩, 1, 0⟩
/-- 9004h.06 CONFIRM_WINDOW: U32, const, default 60000; R403 (14_) -/
abbrev O.confirmWindow : Obj := ⟨⟨0x900406, 0, 0⟩, 4, 60000⟩
/-- 9004h.07 CONFIRM_REMAINING: U32, ro, default 0; R403 (14_) -/
abbrev O.confirmRemaining : Obj := ⟨⟨0x900407, 0, 0⟩, 4, 0⟩
/-- 9004h.08 HANDOVER_TIME: U32, ro, default 0; Last handover or hand-back (14_) -/
abbrev O.handoverTime : Obj := ⟨⟨0x900408, 0, 0⟩, 4, 0⟩
/-- 9004h.09 HANDOVER_LIMIT: U32, const, default 1000; R402 (14_) -/
abbrev O.handoverLimit : Obj := ⟨⟨0x900409, 0, 0⟩, 4, 1000⟩
/-- 9004h.0A HANDOVERS: U32, ro, default 0; Completed handovers (14_) -/
abbrev O.handovers : Obj := ⟨⟨0x90040A, 0, 0⟩, 4, 0⟩
/-- 9004h.0B HANDBACKS: U32, ro, default 0; R404 (14_) -/
abbrev O.handbacks : Obj := ⟨⟨0x90040B, 0, 0⟩, 4, 0⟩
/-- 9004h.0C ROLLBACK_AUTO: BOOL, ro/ro/ro/rw, default true; R403 (14_) -/
abbrev O.rollbackAuto : Obj := ⟨⟨0x90040C, 0, 0⟩, 1, 1⟩
/-- 9005h.01 SETTINGS_FORMAT: U16, ro, default —; Format of the running image (14_) -/
abbrev O.settingsFormat : Obj := ⟨⟨0x900501, 0, 0⟩, 2, 0⟩
/-- 9006h.01 RECOVERY_CAUSE: U8, ro, default 00h; 00h none, 01h strap, 02h no bootable image, 03h requested; R408 (14_) -/
abbrev O.recoveryCause : Obj := ⟨⟨0x900601, 0, 0⟩, 1, 0⟩
/-- 9006h.02 RECOVERY_REQUEST: BOOL, ro/ro/ro/wo, default —; R408 (14_) -/
abbrev O.recoveryRequest : Obj := ⟨⟨0x900602, 0, 0⟩, 1, 0⟩
/-- 9006h.03 ROM_BOOT: BOOL, ro/ro/ro/wo, default —; ROM recovery only; R409 (14_) -/
abbrev O.romBoot : Obj := ⟨⟨0x900603, 0, 0⟩, 1, 0⟩
/-- 3010h.01–05 SAG_ENTER_MV: U32, ro/ro/rw/rw, default 44000, 40000, 36000, 30000, 24000; Stages 1–5 in order; R421 (15_) -/
abbrev O.sagEnterMv (k : Nat) : Obj := ⟨⟨0x301001, 0, k⟩, 4, ([44000, 40000, 36000, 30000, 24000].getD k 0)⟩
/-- 3010h.06 SAG_HYST_MV: U32, ro/ro/rw/rw, default 1000; 200–4,000; R420 (15_) -/
abbrev O.sagHystMv : Obj := ⟨⟨0x301006, 0, 0⟩, 4, 1000⟩
/-- 3010h.07 SAG_FILTER: U16, ro/ro/rw/rw, default 2; 1–1,000 (15_) -/
abbrev O.sagFilter : Obj := ⟨⟨0x301007, 0, 0⟩, 2, 2⟩
/-- 3010h.08 SAG_EXIT_TIME: U32, ro/ro/rw/rw, default 300; 10–100,000 (15_) -/
abbrev O.sagExitTime : Obj := ⟨⟨0x301008, 0, 0⟩, 4, 300⟩
/-- 3011h.01 SAG_STAGE: U8, ro, default 0; 0–5; R420 (15_) -/
abbrev O.sagStage : Obj := ⟨⟨0x301101, 0, 0⟩, 1, 0⟩
/-- 3011h.02–06 SAG_ENTRIES: U32, ro, default 0; Entries of stages 1–5 (15_) -/
abbrev O.sagEntries (k : Nat) : Obj := ⟨⟨0x301102, 0, k⟩, 4, 0⟩
/-- 3011h.07 SAG_FLUSH_TIME: U32, ro, default —; R424 (15_) -/
abbrev O.sagFlushTime : Obj := ⟨⟨0x301107, 0, 0⟩, 4, 0⟩
/-- 3011h.08 LAST_FLUSH: U8, ro, default 00h; 00h none, 01h completed, 02h failed (15_) -/
abbrev O.lastFlush : Obj := ⟨⟨0x301108, 0, 0⟩, 1, 0⟩
/-- 3020h.01 POWER_STATE: U8, ro, default 00h; R415 code (15_) -/
abbrev O.powerState : Obj := ⟨⟨0x302001, 0, 0⟩, 1, 0⟩
/-- 3020h.02 SLEEP_MAX: U8, ro/ro/rw/rw, default 02h; 00h–04h; R416 (15_) -/
abbrev O.sleepMax : Obj := ⟨⟨0x302002, 0, 0⟩, 1, 2⟩
/-- 3020h.03 HISTORY: BOOL, ro, default false; R416 (15_) -/
abbrev O.sleepHistory : Obj := ⟨⟨0x302003, 0, 0⟩, 1, 0⟩
/-- 3020h.04 PREDICTED_GAP: U32, ro, default 0; R416 (15_) -/
abbrev O.predictedGap : Obj := ⟨⟨0x302004, 0, 0⟩, 4, 0⟩
/-- 3020h.05 WAKE_MASK: U8, ro/ro/rw/rw, default 3Fh; R419; [7:6] reserved (15_) -/
abbrev O.wakeMask : Obj := ⟨⟨0x302005, 0, 0⟩, 1, 63⟩
/-- 3020h.06 WAKE_CAUSE: U8, ro, default 00h; Bit number + 1 of R419; 00h none (15_) -/
abbrev O.wakeCause : Obj := ⟨⟨0x302006, 0, 0⟩, 1, 0⟩
/-- 3020h.07 SLOW_EXITS: U32, ro, default 0; R428 (15_) -/
abbrev O.slowExits : Obj := ⟨⟨0x302007, 0, 0⟩, 4, 0⟩
/-- 3021h.01–04 STATE_ENTRIES: U32, ro, default 0; Easy, Paddle, Moored, Stowed (15_) -/
abbrev O.stateEntries (k : Nat) : Obj := ⟨⟨0x302101, 0, k⟩, 4, 0⟩
/-- 3022h.01–04 BREAK_EVEN: U32, const, default 10, 60, 50000, 30000000; R415 (15_) -/
abbrev O.breakEven (k : Nat) : Obj := ⟨⟨0x302201, 0, k⟩, 4, ([10, 60, 50000, 30000000].getD k 0)⟩
/-- 3022h.05–08 EXIT_LATENCY: U32, const, default 2, 40, 8000, 120000; R415 (15_) -/
abbrev O.exitLatency (k : Nat) : Obj := ⟨⟨0x302205, 0, k⟩, 4, ([2, 40, 8000, 120000].getD k 0)⟩
/-- 3030h.01 RESET_CAUSE: U8, ro, default —; R426 (15_) -/
abbrev O.resetCause : Obj := ⟨⟨0x303001, 0, 0⟩, 1, 0⟩
/-- 3030h.02 VBAT_POR: BOOL, ro/ro/rw/rw, default —; R426; write false to clear (15_) -/
abbrev O.vbatPor : Obj := ⟨⟨0x303002, 0, 0⟩, 1, 0⟩
/-- 3030h.03 FORWARDING: BOOL, ro, default false; R427 (15_) -/
abbrev O.forwarding : Obj := ⟨⟨0x303003, 0, 0⟩, 1, 0⟩
/-- 3030h.04 STARTUP_TIME: U32, ro, default —; From the reference event of R427 to FORWARDING (15_) -/
abbrev O.startupTime : Obj := ⟨⟨0x303004, 0, 0⟩, 4, 0⟩
/-- 3031h.01 RTC_SECONDS: U32, ro/ro/ro/rw, default —; Battery-domain seconds (15_) -/
abbrev O.rtcSeconds : Obj := ⟨⟨0x303101, 0, 0⟩, 4, 0⟩
/-- 3031h.02 RTC_ALARM: U32, ro/ro/rw/rw, default 0; 0 none; R419 (15_) -/
abbrev O.rtcAlarm : Obj := ⟨⟨0x303102, 0, 0⟩, 4, 0⟩

/-- Object 4210h.03: the default quantum of queue q = 8e + class (QUANTUM, default column). -/
def quantumDefault (q : Nat) : Nat := match q % 8 with | 4 => 16384 | 5 => 8192 | 6 => 16384 | 7 => 2048 | _ => 1024

/-- The default severity of each Umpire source 0–95, as R368 codes it (R386); a reserved source stands as ignore. -/
def severityDefaults : List Nat := [4, 2, 1, 1, 1, 1, 1, 4, 0, 1, 5, 2, 5, 1, 1, 1, 1, 0, 0, 0, 1, 1, 1, 1, 0, 2, 0, 1, 1, 0, 0, 0] ++
  [2, 2, 0, 2, 1, 1, 1, 1, 1, 1, 1, 1, 0, 1, 1, 1, 1, 0, 1, 1, 1, 1, 1, 1, 0, 1, 4, 1, 1, 1, 1, 5] ++
  [1, 1, 4, 1, 4, 4, 1, 1, 4, 1, 2, 1, 4, 1, 2, 1, 5, 5, 4, 5, 1, 1, 1, 1, 1, 1, 5, 5, 1, 5, 1, 0]
/-- The floor of each Umpire source 0–95 (R386). -/
def severityFloors : List Nat := [1, 0, 0, 0, 0, 0, 0, 1, 0, 0, 4, 0, 5, 0, 0, 0, 0, 0, 0, 0, 0, 0, 0, 0, 0, 0, 0, 0, 1, 0, 0, 0] ++
  [0, 0, 0, 0, 0, 0, 0, 0, 0, 0, 0, 0, 0, 0, 0, 0, 0, 0, 0, 0, 0, 0, 0, 0, 0, 0, 1, 0, 0, 0, 1, 5] ++
  [0, 0, 1, 0, 1, 1, 0, 0, 1, 0, 0, 0, 1, 1, 0, 0, 5, 5, 1, 5, 0, 1, 1, 1, 0, 0, 5, 5, 0, 5, 0, 0]

/-- A001h.00 HUB_TABLE: the field uid of entry e, 8 B at 0 (ro). -/
abbrev O.hubTableUid (e : Nat) : Obj := ⟨⟨0xA00100, e, 0⟩, 8, 0⟩
/-- A001h.00 HUB_TABLE: the field parent of entry e, 1 B at 8 (ro). -/
abbrev O.hubTableParent (e : Nat) : Obj := ⟨⟨0xA00100, e, 8⟩, 1, 0⟩
/-- A001h.00 HUB_TABLE: the field parentPort of entry e, 1 B at 9 (ro). -/
abbrev O.hubTableParentPort (e : Nat) : Obj := ⟨⟨0xA00100, e, 9⟩, 1, 0⟩
/-- A001h.00 HUB_TABLE: the field depth of entry e, 1 B at 10 (ro). -/
abbrev O.hubTableDepth (e : Nat) : Obj := ⟨⟨0xA00100, e, 10⟩, 1, 0⟩
/-- A001h.00 HUB_TABLE: the field state of entry e, 1 B at 11 (ro). -/
abbrev O.hubTableState (e : Nat) : Obj := ⟨⟨0xA00100, e, 11⟩, 1, 0⟩
/-- A001h.00 HUB_TABLE: the field hold of entry e, 4 B at 12 (ro). -/
abbrev O.hubTableHold (e : Nat) : Obj := ⟨⟨0xA00100, e, 12⟩, 4, 0⟩
/-- A005h.00 EVENT_LOG: the field seq of entry e, 2 B at 0 (ro). -/
abbrev O.treeLogSeq (e : Nat) : Obj := ⟨⟨0xA00500, e, 0⟩, 2, 0⟩
/-- A005h.00 EVENT_LOG: the field reporter of entry e, 1 B at 2 (ro). -/
abbrev O.treeLogReporter (e : Nat) : Obj := ⟨⟨0xA00500, e, 2⟩, 1, 0⟩
/-- A005h.00 EVENT_LOG: the field port of entry e, 1 B at 3 (ro). -/
abbrev O.treeLogPort (e : Nat) : Obj := ⟨⟨0xA00500, e, 3⟩, 1, 0⟩
/-- A005h.00 EVENT_LOG: the field kind of entry e, 1 B at 4 (ro). -/
abbrev O.treeLogKind (e : Nat) : Obj := ⟨⟨0xA00500, e, 4⟩, 1, 0⟩
/-- A005h.00 EVENT_LOG: the field reason of entry e, 1 B at 5 (ro). -/
abbrev O.treeLogReason (e : Nat) : Obj := ⟨⟨0xA00500, e, 5⟩, 1, 0⟩
/-- A005h.00 EVENT_LOG: the field uid of entry e, 8 B at 8 (ro). -/
abbrev O.treeLogUid (e : Nat) : Obj := ⟨⟨0xA00500, e, 8⟩, 8, 0⟩
/-- A005h.00 EVENT_LOG: the field stroke of entry e, 8 B at 16 (ro). -/
abbrev O.treeLogStroke (e : Nat) : Obj := ⟨⟨0xA00500, e, 16⟩, 8, 0⟩
/-- 4001h.00 PATH_TABLE: the field flags of entry e, 1 B at 0. -/
abbrev O.pathFlags (e : Nat) : Obj := ⟨⟨0x400100, e, 0⟩, 1, 0⟩
/-- 4001h.00 PATH_TABLE: the field type of entry e, 1 B at 1. -/
abbrev O.pathType (e : Nat) : Obj := ⟨⟨0x400100, e, 1⟩, 1, 0⟩
/-- 4001h.00 PATH_TABLE: the field in of entry e, 1 B at 2. -/
abbrev O.pathIn (e : Nat) : Obj := ⟨⟨0x400100, e, 2⟩, 1, 0⟩
/-- 4001h.00 PATH_TABLE: the field cls of entry e, 1 B at 3. -/
abbrev O.pathCls (e : Nat) : Obj := ⟨⟨0x400100, e, 3⟩, 1, 0⟩
/-- 4001h.00 PATH_TABLE: the field out of entry e, 2 B at 4. -/
abbrev O.pathOut (e : Nat) : Obj := ⟨⟨0x400100, e, 4⟩, 2, 0⟩
/-- 4001h.00 PATH_TABLE: the field outTid of entry e, 2 B at 6. -/
abbrev O.pathOutTid (e : Nat) : Obj := ⟨⟨0x400100, e, 6⟩, 2, 0⟩
/-- 4001h.00 PATH_TABLE: the field shaper of entry e, 2 B at 8. -/
abbrev O.pathShaper (e : Nat) : Obj := ⟨⟨0x400100, e, 8⟩, 2, 0⟩
/-- 4001h.00 PATH_TABLE: the field policer of entry e, 2 B at 10. -/
abbrev O.pathPolicer (e : Nat) : Obj := ⟨⟨0x400100, e, 10⟩, 2, 0⟩
/-- 4001h.00 PATH_TABLE: the field pair of entry e, 2 B at 12. -/
abbrev O.pathPair (e : Nat) : Obj := ⟨⟨0x400100, e, 12⟩, 2, 0⟩
/-- 4002h.00 MCAST_TABLE: the field members of entry e, 4 B at 0. -/
abbrev O.mcastMembers (e : Nat) : Obj := ⟨⟨0x400200, e, 0⟩, 4, 0⟩
/-- 4002h.00 MCAST_TABLE: the field outTid of entry e (place k of the entry), 2 B at 4. -/
abbrev O.mcastOutTid (e k : Nat) : Obj := ⟨⟨0x400200, e, 4 + 2 * k⟩, 2, 0⟩
/-- 4003h.00 STAGE_TABLE: the field tid of entry e, 2 B at 0. -/
abbrev O.stageTid (e : Nat) : Obj := ⟨⟨0x400300, e, 0⟩, 2, 0⟩
/-- 4003h.00 STAGE_TABLE: the field used of entry e, 2 B at 2. -/
abbrev O.stageUsed (e : Nat) : Obj := ⟨⟨0x400300, e, 2⟩, 2, 0⟩
/-- 4003h.00 STAGE_TABLE: the field activate of entry e, 8 B at 4. -/
abbrev O.stageActivate (e : Nat) : Obj := ⟨⟨0x400300, e, 4⟩, 8, 0⟩
/-- 4003h.00 STAGE_TABLE: the field flags of entry e, 1 B at 12. -/
abbrev O.stageFlags (e : Nat) : Obj := ⟨⟨0x400300, e, 12⟩, 1, 0⟩
/-- 4003h.00 STAGE_TABLE: the field type of entry e, 1 B at 13. -/
abbrev O.stageType (e : Nat) : Obj := ⟨⟨0x400300, e, 13⟩, 1, 0⟩
/-- 4003h.00 STAGE_TABLE: the field in of entry e, 1 B at 14. -/
abbrev O.stageIn (e : Nat) : Obj := ⟨⟨0x400300, e, 14⟩, 1, 0⟩
/-- 4003h.00 STAGE_TABLE: the field cls of entry e, 1 B at 15. -/
abbrev O.stageCls (e : Nat) : Obj := ⟨⟨0x400300, e, 15⟩, 1, 0⟩
/-- 4003h.00 STAGE_TABLE: the field out of entry e, 2 B at 16. -/
abbrev O.stageOut (e : Nat) : Obj := ⟨⟨0x400300, e, 16⟩, 2, 0⟩
/-- 4003h.00 STAGE_TABLE: the field outTid of entry e, 2 B at 18. -/
abbrev O.stageOutTid (e : Nat) : Obj := ⟨⟨0x400300, e, 18⟩, 2, 0⟩
/-- 4003h.00 STAGE_TABLE: the field shaper of entry e, 2 B at 20. -/
abbrev O.stageShaper (e : Nat) : Obj := ⟨⟨0x400300, e, 20⟩, 2, 0⟩
/-- 4003h.00 STAGE_TABLE: the field policer of entry e, 2 B at 22. -/
abbrev O.stagePolicer (e : Nat) : Obj := ⟨⟨0x400300, e, 22⟩, 2, 0⟩
/-- 4003h.00 STAGE_TABLE: the field pair of entry e, 2 B at 24. -/
abbrev O.stagePair (e : Nat) : Obj := ⟨⟨0x400300, e, 24⟩, 2, 0⟩
/-- 4004h.00 PATH_COUNTERS: the field packets of entry e, 8 B at 0 (ro). -/
abbrev O.pathCountPackets (e : Nat) : Obj := ⟨⟨0x400400, e, 0⟩, 8, 0⟩
/-- 4004h.00 PATH_COUNTERS: the field bytes of entry e, 8 B at 8 (ro). -/
abbrev O.pathCountBytes (e : Nat) : Obj := ⟨⟨0x400400, e, 8⟩, 8, 0⟩
/-- 4004h.00 PATH_COUNTERS: the field teardownDiscards of entry e, 4 B at 16 (ro). -/
abbrev O.pathCountTeardownDiscards (e : Nat) : Obj := ⟨⟨0x400400, e, 16⟩, 4, 0⟩
/-- 4004h.00 PATH_COUNTERS: the field typeDiscards of entry e, 4 B at 20 (ro). -/
abbrev O.pathCountTypeDiscards (e : Nat) : Obj := ⟨⟨0x400400, e, 20⟩, 4, 0⟩
/-- 4004h.00 PATH_COUNTERS: the field held of entry e, 4 B at 24 (ro). -/
abbrev O.pathCountHeld (e : Nat) : Obj := ⟨⟨0x400400, e, 24⟩, 4, 0⟩
/-- 4006h.00 ADDRESS_ROUTES: the field port of entry e, 1 B at 0 (ro). -/
abbrev O.addrRoutePort (e : Nat) : Obj := ⟨⟨0x400600, e, 0⟩, 1, 255⟩
/-- 4010h.00 ROUTES: the field state of entry e, 1 B at 0. -/
abbrev O.routeState (e : Nat) : Obj := ⟨⟨0x401000, e, 0⟩, 1, 0⟩
/-- 4010h.00 ROUTES: the field type of entry e, 1 B at 1. -/
abbrev O.routeType (e : Nat) : Obj := ⟨⟨0x401000, e, 1⟩, 1, 0⟩
/-- 4010h.00 ROUTES: the field cls of entry e, 1 B at 2. -/
abbrev O.routeCls (e : Nat) : Obj := ⟨⟨0x401000, e, 2⟩, 1, 0⟩
/-- 4010h.00 ROUTES: the field reason of entry e, 1 B at 3 (ro). -/
abbrev O.routeReason (e : Nat) : Obj := ⟨⟨0x401000, e, 3⟩, 1, 0⟩
/-- 4010h.00 ROUTES: the field srcHub of entry e, 1 B at 4. -/
abbrev O.routeSrcHub (e : Nat) : Obj := ⟨⟨0x401000, e, 4⟩, 1, 0⟩
/-- 4010h.00 ROUTES: the field srcEnd of entry e, 1 B at 5. -/
abbrev O.routeSrcEnd (e : Nat) : Obj := ⟨⟨0x401000, e, 5⟩, 1, 0⟩
/-- 4010h.00 ROUTES: the field dstHub of entry e, 1 B at 6. -/
abbrev O.routeDstHub (e : Nat) : Obj := ⟨⟨0x401000, e, 6⟩, 1, 0⟩
/-- 4010h.00 ROUTES: the field dstEnd of entry e, 1 B at 7. -/
abbrev O.routeDstEnd (e : Nat) : Obj := ⟨⟨0x401000, e, 7⟩, 1, 0⟩
/-- 4010h.00 ROUTES: the field rate of entry e, 4 B at 8. -/
abbrev O.routeRate (e : Nat) : Obj := ⟨⟨0x401000, e, 8⟩, 4, 0⟩
/-- 4010h.00 ROUTES: the field pair of entry e, 2 B at 12. -/
abbrev O.routePair (e : Nat) : Obj := ⟨⟨0x401000, e, 12⟩, 2, 0⟩
/-- 4010h.00 ROUTES: the field hubs of entry e, 1 B at 14 (ro). -/
abbrev O.routeHubs (e : Nat) : Obj := ⟨⟨0x401000, e, 14⟩, 1, 0⟩
/-- 4010h.00 ROUTES: the field activate of entry e, 8 B at 16 (ro). -/
abbrev O.routeActivate (e : Nat) : Obj := ⟨⟨0x401000, e, 16⟩, 8, 0⟩
/-- 4010h.00 ROUTES: the field tid of entry e (place k of the entry), 2 B at 24 (ro). -/
abbrev O.routeTid (e k : Nat) : Obj := ⟨⟨0x401000, e, 24 + 2 * k⟩, 2, 0⟩
/-- 4010h.00 ROUTES: the field vid of entry e, 2 B at 50. -/
abbrev O.routeVid (e : Nat) : Obj := ⟨⟨0x401000, e, 50⟩, 2, 0⟩
/-- 4040h.03 VID_MAP: the field prio of entry e, 2 B at 0. -/
abbrev O.vidMapPrio (n e : Nat) : Obj := ⟨⟨0x404003, 4096 * n + e, 0⟩, 2, 65535⟩
/-- 4040h.03 VID_MAP: the field bulk of entry e, 2 B at 2. -/
abbrev O.vidMapBulk (n e : Nat) : Obj := ⟨⟨0x404003, 4096 * n + e, 2⟩, 2, 65535⟩
/-- 4050h.00 FIO_TX: the field tid of entry e, 2 B at 0. -/
abbrev O.fioTxTid (e : Nat) : Obj := ⟨⟨0x405000, e, 0⟩, 2, 65535⟩
/-- 4050h.00 FIO_TX: the field offset of entry e, 2 B at 2. -/
abbrev O.fioTxOffset (e : Nat) : Obj := ⟨⟨0x405000, e, 2⟩, 2, 0⟩
/-- 4050h.00 FIO_TX: the field size of entry e, 2 B at 4. -/
abbrev O.fioTxSize (e : Nat) : Obj := ⟨⟨0x405000, e, 4⟩, 2, 0⟩
/-- 4050h.00 FIO_TX: the field period of entry e, 2 B at 6. -/
abbrev O.fioTxPeriod (e : Nat) : Obj := ⟨⟨0x405000, e, 6⟩, 2, 0⟩
/-- 4050h.00 FIO_TX: the field phase of entry e, 2 B at 8. -/
abbrev O.fioTxPhase (e : Nat) : Obj := ⟨⟨0x405000, e, 8⟩, 2, 0⟩
/-- 4050h.00 FIO_TX: the field sent of entry e, 4 B at 12 (ro). -/
abbrev O.fioTxSent (e : Nat) : Obj := ⟨⟨0x405000, e, 12⟩, 4, 0⟩
/-- 4051h.00 FIO_RX: the field tid of entry e, 2 B at 0. -/
abbrev O.fioRxTid (e : Nat) : Obj := ⟨⟨0x405100, e, 0⟩, 2, 65535⟩
/-- 4051h.00 FIO_RX: the field offset of entry e, 2 B at 2. -/
abbrev O.fioRxOffset (e : Nat) : Obj := ⟨⟨0x405100, e, 2⟩, 2, 0⟩
/-- 4051h.00 FIO_RX: the field size of entry e, 2 B at 4. -/
abbrev O.fioRxSize (e : Nat) : Obj := ⟨⟨0x405100, e, 4⟩, 2, 0⟩
/-- 4051h.00 FIO_RX: the field period of entry e, 2 B at 6. -/
abbrev O.fioRxPeriod (e : Nat) : Obj := ⟨⟨0x405100, e, 6⟩, 2, 0⟩
/-- 4051h.00 FIO_RX: the field staleLimit of entry e, 1 B at 8. -/
abbrev O.fioRxStaleLimit (e : Nat) : Obj := ⟨⟨0x405100, e, 8⟩, 1, 0⟩
/-- 4051h.00 FIO_RX: the field staleAction of entry e, 1 B at 9. -/
abbrev O.fioRxStaleAction (e : Nat) : Obj := ⟨⟨0x405100, e, 9⟩, 1, 0⟩
/-- 4051h.00 FIO_RX: the field status of entry e, 1 B at 10 (ro). -/
abbrev O.fioRxStatus (e : Nat) : Obj := ⟨⟨0x405100, e, 10⟩, 1, 0⟩
/-- 4051h.00 FIO_RX: the field received of entry e, 4 B at 12 (ro). -/
abbrev O.fioRxReceived (e : Nat) : Obj := ⟨⟨0x405100, e, 12⟩, 4, 0⟩
/-- 4052h.00 ACYC_TX: the field tid of entry e, 2 B at 0. -/
abbrev O.acycTxTid (e : Nat) : Obj := ⟨⟨0x405200, e, 0⟩, 2, 0⟩
/-- 4052h.00 ACYC_TX: the field info of entry e, 2 B at 2. -/
abbrev O.acycTxInfo (e : Nat) : Obj := ⟨⟨0x405200, e, 2⟩, 2, 0⟩
/-- 4052h.00 ACYC_TX: the field length of entry e, 2 B at 4. -/
abbrev O.acycTxLength (e : Nat) : Obj := ⟨⟨0x405200, e, 4⟩, 2, 0⟩
/-- 4052h.00 ACYC_TX: the field state of entry e, 1 B at 6. -/
abbrev O.acycTxState (e : Nat) : Obj := ⟨⟨0x405200, e, 6⟩, 1, 0⟩
/-- 4052h.00 ACYC_TX: the field data of entry e, 1024 B at 8. -/
abbrev O.acycTxData (e : Nat) : Obj := ⟨⟨0x405200, e, 8⟩, 1024, 0⟩
/-- 4053h.00 ACYC_RX: the field tid of entry e, 2 B at 0. -/
abbrev O.acycRxTid (e : Nat) : Obj := ⟨⟨0x405300, e, 0⟩, 2, 0⟩
/-- 4053h.00 ACYC_RX: the field info of entry e, 2 B at 2. -/
abbrev O.acycRxInfo (e : Nat) : Obj := ⟨⟨0x405300, e, 2⟩, 2, 0⟩
/-- 4053h.00 ACYC_RX: the field length of entry e, 2 B at 4. -/
abbrev O.acycRxLength (e : Nat) : Obj := ⟨⟨0x405300, e, 4⟩, 2, 0⟩
/-- 4053h.00 ACYC_RX: the field state of entry e, 1 B at 6. -/
abbrev O.acycRxState (e : Nat) : Obj := ⟨⟨0x405300, e, 6⟩, 1, 0⟩
/-- 4053h.00 ACYC_RX: the field data of entry e, 1024 B at 8. -/
abbrev O.acycRxData (e : Nat) : Obj := ⟨⟨0x405300, e, 8⟩, 1024, 0⟩
/-- 4100h.09 INPUT_ALLOWANCE: the field mbps of entry e, 4 B at 0 (ro). -/
abbrev O.inAllowMbps (e : Nat) : Obj := ⟨⟨0x410009, e, 0⟩, 4, 0⟩
/-- 4100h.0A OUTPUT_ALLOWANCE: the field mbps of entry e, 4 B at 0 (ro). -/
abbrev O.outAllowMbps (e : Nat) : Obj := ⟨⟨0x41000A, e, 0⟩, 4, 0⟩
/-- 4105h.00 QUEUE_STATUS: the field cellsSram of entry e, 4 B at 0 (ro). -/
abbrev O.queueStatusCellsSram (e : Nat) : Obj := ⟨⟨0x410500, e, 0⟩, 4, 0⟩
/-- 4105h.00 QUEUE_STATUS: the field cellsDram of entry e, 4 B at 4 (ro). -/
abbrev O.queueStatusCellsDram (e : Nat) : Obj := ⟨⟨0x410500, e, 4⟩, 4, 0⟩
/-- 4105h.00 QUEUE_STATUS: the field packets of entry e, 4 B at 8 (ro). -/
abbrev O.queueStatusPackets (e : Nat) : Obj := ⟨⟨0x410500, e, 8⟩, 4, 0⟩
/-- 4105h.00 QUEUE_STATUS: the field spill of entry e, 1 B at 12 (ro). -/
abbrev O.queueStatusSpill (e : Nat) : Obj := ⟨⟨0x410500, e, 12⟩, 1, 0⟩
/-- 4105h.00 QUEUE_STATUS: the field drops of entry e, 8 B at 16 (ro). -/
abbrev O.queueStatusDrops (e : Nat) : Obj := ⟨⟨0x410500, e, 16⟩, 8, 0⟩
/-- 4105h.00 QUEUE_STATUS: the field peak of entry e, 4 B at 24 (ro). -/
abbrev O.queueStatusPeak (e : Nat) : Obj := ⟨⟨0x410500, e, 24⟩, 4, 0⟩
/-- 4201h.00 EGRESS_STROKE: the field isoBytes of entry e, 8 B at 0 (ro). -/
abbrev O.egressStrokeIsoBytes (e : Nat) : Obj := ⟨⟨0x420100, e, 0⟩, 8, 0⟩
/-- 4201h.00 EGRESS_STROKE: the field heldOver of entry e, 8 B at 8 (ro). -/
abbrev O.egressStrokeHeldOver (e : Nat) : Obj := ⟨⟨0x420100, e, 8⟩, 8, 0⟩
/-- 4201h.00 EGRESS_STROKE: the field stale of entry e, 8 B at 16 (ro). -/
abbrev O.egressStrokeStale (e : Nat) : Obj := ⟨⟨0x420100, e, 16⟩, 8, 0⟩
/-- 4201h.00 EGRESS_STROKE: the field driveBusy of entry e, 4 B at 24 (ro). -/
abbrev O.egressStrokeDriveBusy (e : Nat) : Obj := ⟨⟨0x420100, e, 24⟩, 4, 0⟩
/-- 4202h.03 DEMAND_TABLE: the field offered of entry e, 4 B at 0 (ro). -/
abbrev O.demandOffered (e : Nat) : Obj := ⟨⟨0x420203, e, 0⟩, 4, 0⟩
/-- 4202h.03 DEMAND_TABLE: the field demand of entry e, 4 B at 4 (ro). -/
abbrev O.demandDemand (e : Nat) : Obj := ⟨⟨0x420203, e, 4⟩, 4, 0⟩
/-- 4210h.01 DEFICIT: the field bytes of entry e, 4 B at 0 (ro). -/
abbrev O.deficitBytes (e : Nat) : Obj := ⟨⟨0x421001, e, 0⟩, 4, 0⟩
/-- 4210h.03 QUANTUM: the field bytes of entry e, 4 B at 0. -/
abbrev O.quantumBytes (e : Nat) : Obj := ⟨⟨0x421003, e, 0⟩, 4, quantumDefault e⟩
/-- 4220h.00 SHAPERS: the field mode of entry e, 1 B at 0. -/
abbrev O.shaperMode (e : Nat) : Obj := ⟨⟨0x422000, e, 0⟩, 1, 0⟩
/-- 4220h.00 SHAPERS: the field rate of entry e, 4 B at 4. -/
abbrev O.shaperRate (e : Nat) : Obj := ⟨⟨0x422000, e, 4⟩, 4, 0⟩
/-- 4220h.00 SHAPERS: the field next of entry e, 4 B at 8 (ro). -/
abbrev O.shaperNext (e : Nat) : Obj := ⟨⟨0x422000, e, 8⟩, 4, 0xFFFFFFFF⟩
/-- 4220h.00 SHAPERS: the field tokens of entry e, 4 B at 12 (ro). -/
abbrev O.shaperTokens (e : Nat) : Obj := ⟨⟨0x422000, e, 12⟩, 4, 0⟩
/-- 4230h.00 POLICERS: the field mode of entry e, 1 B at 0. -/
abbrev O.policerMode (e : Nat) : Obj := ⟨⟨0x423000, e, 0⟩, 1, 0⟩
/-- 4230h.00 POLICERS: the field rate of entry e, 4 B at 4. -/
abbrev O.policerRate (e : Nat) : Obj := ⟨⟨0x423000, e, 4⟩, 4, 0⟩
/-- 4230h.00 POLICERS: the field next of entry e, 4 B at 8 (ro). -/
abbrev O.policerNext (e : Nat) : Obj := ⟨⟨0x423000, e, 8⟩, 4, 0xFFFFFFFF⟩
/-- 4230h.00 POLICERS: the field tokens of entry e, 4 B at 12 (ro). -/
abbrev O.policerTokens (e : Nat) : Obj := ⟨⟨0x423000, e, 12⟩, 4, 0⟩
/-- 4230h.00 POLICERS: the field green of entry e, 8 B at 16 (ro). -/
abbrev O.policerGreen (e : Nat) : Obj := ⟨⟨0x423000, e, 16⟩, 8, 0⟩
/-- 4230h.00 POLICERS: the field red of entry e, 8 B at 24 (ro). -/
abbrev O.policerRed (e : Nat) : Obj := ⟨⟨0x423000, e, 24⟩, 8, 0⟩
/-- 4240h.00 ALLOT: the field min of entry e, 4 B at 0. -/
abbrev O.allotMin (e : Nat) : Obj := ⟨⟨0x424000, e, 0⟩, 4, 0⟩
/-- 4240h.00 ALLOT: the field max of entry e, 4 B at 4. -/
abbrev O.allotMax (e : Nat) : Obj := ⟨⟨0x424000, e, 4⟩, 4, 0⟩
/-- 4240h.00 ALLOT: the field demand of entry e, 4 B at 8 (ro). -/
abbrev O.allotDemand (e : Nat) : Obj := ⟨⟨0x424000, e, 8⟩, 4, 0⟩
/-- 4240h.00 ALLOT: the field target of entry e, 4 B at 12 (ro). -/
abbrev O.allotTarget (e : Nat) : Obj := ⟨⟨0x424000, e, 12⟩, 4, 0⟩
/-- 4240h.00 ALLOT: the field grant of entry e, 4 B at 16 (ro). -/
abbrev O.allotGrant (e : Nat) : Obj := ⟨⟨0x424000, e, 16⟩, 4, 0⟩
/-- 4240h.00 ALLOT: the field mode of entry e, 1 B at 20. -/
abbrev O.allotMode (e : Nat) : Obj := ⟨⟨0x424000, e, 20⟩, 1, 0⟩
/-- 4240h.00 ALLOT: the field flags of entry e, 1 B at 21 (ro). -/
abbrev O.allotFlags (e : Nat) : Obj := ⟨⟨0x424000, e, 21⟩, 1, 0⟩
/-- 4240h.00 ALLOT: the field bottleneckHub of entry e, 1 B at 22 (ro). -/
abbrev O.allotBottleneckHub (e : Nat) : Obj := ⟨⟨0x424000, e, 22⟩, 1, 0⟩
/-- 4240h.00 ALLOT: the field bottleneckPort of entry e, 1 B at 23 (ro). -/
abbrev O.allotBottleneckPort (e : Nat) : Obj := ⟨⟨0x424000, e, 23⟩, 1, 0⟩
/-- 4241h.00 LINK_ISO: the field capacity of entry e, 4 B at 0 (ro). -/
abbrev O.linkIsoCapacity (e : Nat) : Obj := ⟨⟨0x424100, e, 0⟩, 4, 0⟩
/-- 4241h.00 LINK_ISO: the field fixed of entry e, 4 B at 4 (ro). -/
abbrev O.linkIsoFixed (e : Nat) : Obj := ⟨⟨0x424100, e, 4⟩, 4, 0⟩
/-- 4241h.00 LINK_ISO: the field allotted of entry e, 4 B at 8 (ro). -/
abbrev O.linkIsoAllotted (e : Nat) : Obj := ⟨⟨0x424100, e, 8⟩, 4, 0⟩
/-- 4241h.00 LINK_ISO: the field rate of entry e, 4 B at 12 (ro). -/
abbrev O.linkIsoRate (e : Nat) : Obj := ⟨⟨0x424100, e, 12⟩, 4, 0⟩
/-- 4250h.00 GRANTS: the field grant of entry e, 4 B at 0. -/
abbrev O.grantGrant (e : Nat) : Obj := ⟨⟨0x425000, e, 0⟩, 4, 0⟩
/-- 4250h.00 GRANTS: the field next of entry e, 4 B at 4 (ro). -/
abbrev O.grantNext (e : Nat) : Obj := ⟨⟨0x425000, e, 4⟩, 4, 0xFFFFFFFF⟩
/-- 4250h.00 GRANTS: the field isoDiscards of entry e, 4 B at 8 (ro). -/
abbrev O.grantIsoDiscards (e : Nat) : Obj := ⟨⟨0x425000, e, 8⟩, 4, 0⟩
/-- 4250h.00 GRANTS: the field flags of entry e, 1 B at 12 (ro). -/
abbrev O.grantFlags (e : Nat) : Obj := ⟨⟨0x425000, e, 12⟩, 1, 0⟩
/-- 4260h.00 HIST_CONFIG: the field depthShift of entry e, 1 B at 0. -/
abbrev O.histCfgDepthShift (e : Nat) : Obj := ⟨⟨0x426000, e, 0⟩, 1, 0⟩
/-- 4260h.00 HIST_CONFIG: the field delayShift of entry e, 1 B at 1. -/
abbrev O.histCfgDelayShift (e : Nat) : Obj := ⟨⟨0x426000, e, 1⟩, 1, 6⟩
/-- 4260h.00 HIST_CONFIG: the field sampleEvery of entry e, 2 B at 2. -/
abbrev O.histCfgSampleEvery (e : Nat) : Obj := ⟨⟨0x426000, e, 2⟩, 2, 64⟩
/-- 4260h.00 HIST_CONFIG: the field delayMax of entry e, 4 B at 4. -/
abbrev O.histCfgDelayMax (e : Nat) : Obj := ⟨⟨0x426000, e, 4⟩, 4, 0⟩
/-- 4261h.00 DEPTH_HIST: the field bin of entry e (place k of the entry), 4 B at 0. -/
abbrev O.depthHistBin (e k : Nat) : Obj := ⟨⟨0x426100, e, 0 + 4 * k⟩, 4, 0⟩
/-- 4262h.00 DELAY_HIST: the field bin of entry e (place k of the entry), 4 B at 0. -/
abbrev O.delayHistBin (e k : Nat) : Obj := ⟨⟨0x426200, e, 0 + 4 * k⟩, 4, 0⟩
/-- 5010h.00 VDP_TABLE: the field down of entry e, 2 B at 0. -/
abbrev O.vdpDown (e : Nat) : Obj := ⟨⟨0x501000, e, 0⟩, 2, 65535⟩
/-- 5010h.00 VDP_TABLE: the field up of entry e, 2 B at 2. -/
abbrev O.vdpUp (e : Nat) : Obj := ⟨⟨0x501000, e, 2⟩, 2, 0⟩
/-- 5010h.00 VDP_TABLE: the field oar of entry e, 1 B at 4 (ro). -/
abbrev O.vdpOar (e : Nat) : Obj := ⟨⟨0x501000, e, 4⟩, 1, 0⟩
/-- 5010h.00 VDP_TABLE: the field state of entry e, 1 B at 5 (ro). -/
abbrev O.vdpState (e : Nat) : Obj := ⟨⟨0x501000, e, 5⟩, 1, 0⟩
/-- 5010h.00 VDP_TABLE: the field farSpeed of entry e, 1 B at 6 (ro). -/
abbrev O.vdpFarSpeed (e : Nat) : Obj := ⟨⟨0x501000, e, 6⟩, 1, 0⟩
/-- 5010h.00 VDP_TABLE: the field farWidth of entry e, 1 B at 7 (ro). -/
abbrev O.vdpFarWidth (e : Nat) : Obj := ⟨⟨0x501000, e, 7⟩, 1, 0⟩
/-- 5041h.00 TARGET_WINDOWS: the field kind of entry e, 1 B at 0. -/
abbrev O.targetWinKind (e : Nat) : Obj := ⟨⟨0x504100, e, 0⟩, 1, 0⟩
/-- 5041h.00 TARGET_WINDOWS: the field flags of entry e, 1 B at 1. -/
abbrev O.targetWinFlags (e : Nat) : Obj := ⟨⟨0x504100, e, 1⟩, 1, 0⟩
/-- 5041h.00 TARGET_WINDOWS: the field level of entry e, 1 B at 2. -/
abbrev O.targetWinLevel (e : Nat) : Obj := ⟨⟨0x504100, e, 2⟩, 1, 0⟩
/-- 5041h.00 TARGET_WINDOWS: the field prefetch of entry e, 2 B at 4. -/
abbrev O.targetWinPrefetch (e : Nat) : Obj := ⟨⟨0x504100, e, 4⟩, 2, 0⟩
/-- 5041h.00 TARGET_WINDOWS: the field base of entry e, 8 B at 8. -/
abbrev O.targetWinBase (e : Nat) : Obj := ⟨⟨0x504100, e, 8⟩, 8, 0⟩
/-- 5041h.00 TARGET_WINDOWS: the field size of entry e, 8 B at 16. -/
abbrev O.targetWinSize (e : Nat) : Obj := ⟨⟨0x504100, e, 16⟩, 8, 0⟩
/-- 5042h.00 INITIATOR_WINDOWS: the field bar4Offset of entry e, 8 B at 0. -/
abbrev O.initWinBar4Offset (e : Nat) : Obj := ⟨⟨0x504200, e, 0⟩, 8, 0⟩
/-- 5042h.00 INITIATOR_WINDOWS: the field size of entry e, 4 B at 8. -/
abbrev O.initWinSize (e : Nat) : Obj := ⟨⟨0x504200, e, 8⟩, 4, 0⟩
/-- 5042h.00 INITIATOR_WINDOWS: the field hub of entry e, 1 B at 12. -/
abbrev O.initWinHub (e : Nat) : Obj := ⟨⟨0x504200, e, 12⟩, 1, 0⟩
/-- 5042h.00 INITIATOR_WINDOWS: the field window of entry e, 1 B at 13. -/
abbrev O.initWinWindow (e : Nat) : Obj := ⟨⟨0x504200, e, 13⟩, 1, 0⟩
/-- 5042h.00 INITIATOR_WINDOWS: the field flags of entry e, 1 B at 14. -/
abbrev O.initWinFlags (e : Nat) : Obj := ⟨⟨0x504200, e, 14⟩, 1, 0⟩
/-- 5042h.00 INITIATOR_WINDOWS: the field targetOffset of entry e, 8 B at 16. -/
abbrev O.initWinTargetOffset (e : Nat) : Obj := ⟨⟨0x504200, e, 16⟩, 8, 0⟩
/-- 5043h.00 REQUEST_SLOTS: the field op of entry e, 1 B at 0. -/
abbrev O.reqSlotOp (e : Nat) : Obj := ⟨⟨0x504300, e, 0⟩, 1, 0⟩
/-- 5043h.00 REQUEST_SLOTS: the field hub of entry e, 1 B at 1. -/
abbrev O.reqSlotHub (e : Nat) : Obj := ⟨⟨0x504300, e, 1⟩, 1, 0⟩
/-- 5043h.00 REQUEST_SLOTS: the field window of entry e, 1 B at 2. -/
abbrev O.reqSlotWindow (e : Nat) : Obj := ⟨⟨0x504300, e, 2⟩, 1, 0⟩
/-- 5043h.00 REQUEST_SLOTS: the field state of entry e, 1 B at 3. -/
abbrev O.reqSlotState (e : Nat) : Obj := ⟨⟨0x504300, e, 3⟩, 1, 0⟩
/-- 5043h.00 REQUEST_SLOTS: the field status of entry e, 1 B at 4. -/
abbrev O.reqSlotStatus (e : Nat) : Obj := ⟨⟨0x504300, e, 4⟩, 1, 0⟩
/-- 5043h.00 REQUEST_SLOTS: the field len of entry e, 2 B at 6. -/
abbrev O.reqSlotLen (e : Nat) : Obj := ⟨⟨0x504300, e, 6⟩, 2, 0⟩
/-- 5043h.00 REQUEST_SLOTS: the field offset of entry e, 8 B at 8. -/
abbrev O.reqSlotOffset (e : Nat) : Obj := ⟨⟨0x504300, e, 8⟩, 8, 0⟩
/-- 5043h.00 REQUEST_SLOTS: the field data of entry e, 512 B at 24. -/
abbrev O.reqSlotData (e : Nat) : Obj := ⟨⟨0x504300, e, 24⟩, 512, 0⟩
/-- 5045h.00 ERR_LOG: the field source of entry e, 1 B at 0. -/
abbrev O.errLogSource (e : Nat) : Obj := ⟨⟨0x504500, e, 0⟩, 1, 0⟩
/-- 5045h.00 ERR_LOG: the field kind of entry e, 1 B at 1. -/
abbrev O.errLogKind (e : Nat) : Obj := ⟨⟨0x504500, e, 1⟩, 1, 0⟩
/-- 5045h.00 ERR_LOG: the field hub of entry e, 1 B at 2. -/
abbrev O.errLogHub (e : Nat) : Obj := ⟨⟨0x504500, e, 2⟩, 1, 0⟩
/-- 5045h.00 ERR_LOG: the field window of entry e, 1 B at 3. -/
abbrev O.errLogWindow (e : Nat) : Obj := ⟨⟨0x504500, e, 3⟩, 1, 0⟩
/-- 5045h.00 ERR_LOG: the field seq of entry e, 4 B at 4. -/
abbrev O.errLogSeq (e : Nat) : Obj := ⟨⟨0x504500, e, 4⟩, 4, 0⟩
/-- 5045h.00 ERR_LOG: the field count of entry e, 4 B at 8. -/
abbrev O.errLogCount (e : Nat) : Obj := ⟨⟨0x504500, e, 8⟩, 4, 0⟩
/-- 5045h.00 ERR_LOG: the field address of entry e, 8 B at 16. -/
abbrev O.errLogAddress (e : Nat) : Obj := ⟨⟨0x504500, e, 16⟩, 8, 0⟩
/-- 5045h.00 ERR_LOG: the field stroke of entry e, 8 B at 24. -/
abbrev O.errLogStroke (e : Nat) : Obj := ⟨⟨0x504500, e, 24⟩, 8, 0⟩
/-- 6009h.03 EDID: the field byte of entry e, 1 B at 0 (ro). -/
abbrev O.edidByte (n e : Nat) : Obj := ⟨⟨0x600903, 512 * n + e, 0⟩, 1, 0⟩
/-- 1102h.00 SESSION_TABLE: the field session of entry e, 2 B at 0 (ro). -/
abbrev O.sessionTableSession (e : Nat) : Obj := ⟨⟨0x110200, e, 0⟩, 2, 0⟩
/-- 1102h.00 SESSION_TABLE: the field level of entry e, 1 B at 2 (ro). -/
abbrev O.sessionTableLevel (e : Nat) : Obj := ⟨⟨0x110200, e, 2⟩, 1, 0⟩
/-- 1102h.00 SESSION_TABLE: the field transport of entry e, 1 B at 3 (ro). -/
abbrev O.sessionTableTransport (e : Nat) : Obj := ⟨⟨0x110200, e, 3⟩, 1, 0⟩
/-- 1102h.00 SESSION_TABLE: the field rxCounter of entry e, 4 B at 4 (ro). -/
abbrev O.sessionTableRxCounter (e : Nat) : Obj := ⟨⟨0x110200, e, 4⟩, 4, 0⟩
/-- 1102h.00 SESSION_TABLE: the field txCounter of entry e, 4 B at 8 (ro). -/
abbrev O.sessionTableTxCounter (e : Nat) : Obj := ⟨⟨0x110200, e, 8⟩, 4, 0⟩
/-- 1102h.00 SESSION_TABLE: the field idle of entry e, 4 B at 12 (ro). -/
abbrev O.sessionTableIdle (e : Nat) : Obj := ⟨⟨0x110200, e, 12⟩, 4, 0⟩
/-- 1110h.00 NOTIFY_TABLE: the field session of entry e, 2 B at 0. -/
abbrev O.notifySession (e : Nat) : Obj := ⟨⟨0x111000, e, 0⟩, 2, 0⟩
/-- 1110h.00 NOTIFY_TABLE: the field index of entry e, 2 B at 2. -/
abbrev O.notifyIndex (e : Nat) : Obj := ⟨⟨0x111000, e, 2⟩, 2, 0⟩
/-- 1110h.00 NOTIFY_TABLE: the field sub of entry e, 1 B at 4. -/
abbrev O.notifySub (e : Nat) : Obj := ⟨⟨0x111000, e, 4⟩, 1, 0⟩
/-- 1110h.00 NOTIFY_TABLE: the field mode of entry e, 1 B at 5. -/
abbrev O.notifyMode (e : Nat) : Obj := ⟨⟨0x111000, e, 5⟩, 1, 0⟩
/-- 1110h.00 NOTIFY_TABLE: the field period of entry e, 4 B at 8. -/
abbrev O.notifyPeriod (e : Nat) : Obj := ⟨⟨0x111000, e, 8⟩, 4, 0⟩
/-- 1110h.00 NOTIFY_TABLE: the field sent of entry e, 4 B at 12 (ro). -/
abbrev O.notifySent (e : Nat) : Obj := ⟨⟨0x111000, e, 12⟩, 4, 0⟩
/-- 7001h.00 KEY_SLOTS: the field state of entry e, 1 B at 0 (ro). -/
abbrev O.keySlotState (e : Nat) : Obj := ⟨⟨0x700100, e, 0⟩, 1, 0⟩
/-- 7001h.00 KEY_SLOTS: the field engines of entry e, 1 B at 1 (ro). -/
abbrev O.keySlotEngines (e : Nat) : Obj := ⟨⟨0x700100, e, 1⟩, 1, 0⟩
/-- 7001h.00 KEY_SLOTS: the field gen of entry e, 4 B at 4 (ro). -/
abbrev O.keySlotGen (e : Nat) : Obj := ⟨⟨0x700100, e, 4⟩, 4, 0⟩
/-- 7001h.00 KEY_SLOTS: the field kcv of entry e, 4 B at 8 (ro). -/
abbrev O.keySlotKcv (e : Nat) : Obj := ⟨⟨0x700100, e, 8⟩, 4, 0⟩
/-- 7001h.00 KEY_SLOTS: the field loaded of entry e, 4 B at 12 (ro). -/
abbrev O.keySlotLoaded (e : Nat) : Obj := ⟨⟨0x700100, e, 12⟩, 4, 0⟩
/-- 7010h.00 LINK_CRYPTO: the field keySlot of entry e, 1 B at 0. -/
abbrev O.linkCryptoKeySlot (e : Nat) : Obj := ⟨⟨0x701000, e, 0⟩, 1, 255⟩
/-- 7010h.00 LINK_CRYPTO: the field keyState of entry e, 1 B at 1 (ro). -/
abbrev O.linkCryptoKeyState (e : Nat) : Obj := ⟨⟨0x701000, e, 1⟩, 1, 0⟩
/-- 7010h.00 LINK_CRYPTO: the field advance of entry e, 1 B at 2. -/
abbrev O.linkCryptoAdvance (e : Nat) : Obj := ⟨⟨0x701000, e, 2⟩, 1, 0⟩
/-- 7010h.00 LINK_CRYPTO: the field sessions of entry e, 4 B at 4 (ro). -/
abbrev O.linkCryptoSessions (e : Nat) : Obj := ⟨⟨0x701000, e, 4⟩, 4, 0⟩
/-- 8002h.00 SOURCE_CONFIG: the field severity of entry e, 1 B at 0. -/
abbrev O.sourceSeverity (e : Nat) : Obj := ⟨⟨0x800200, e, 0⟩, 1, severityDefaults.getD e 0⟩
/-- 8002h.00 SOURCE_CONFIG: the field escTo of entry e, 1 B at 1. -/
abbrev O.sourceEscTo (e : Nat) : Obj := ⟨⟨0x800200, e, 1⟩, 1, 3⟩
/-- 8002h.00 SOURCE_CONFIG: the field escCount of entry e, 2 B at 2. -/
abbrev O.sourceEscCount (e : Nat) : Obj := ⟨⟨0x800200, e, 2⟩, 2, 16⟩
/-- 8002h.00 SOURCE_CONFIG: the field escWindow of entry e, 4 B at 4. -/
abbrev O.sourceEscWindow (e : Nat) : Obj := ⟨⟨0x800200, e, 4⟩, 4, 1000⟩
/-- 8002h.00 SOURCE_CONFIG: the field floor of entry e, 1 B at 8 (ro). -/
abbrev O.sourceFloor (e : Nat) : Obj := ⟨⟨0x800200, e, 8⟩, 1, severityFloors.getD e 0⟩
/-- 8002h.00 SOURCE_CONFIG: the field events of entry e, 4 B at 12 (ro). -/
abbrev O.sourceEvents (e : Nat) : Obj := ⟨⟨0x800200, e, 12⟩, 4, 0⟩
/-- 8003h.00 EVENT_LOG: the field source of entry e, 1 B at 0 (ro). -/
abbrev O.faultLogSource (e : Nat) : Obj := ⟨⟨0x800300, e, 0⟩, 1, 0⟩
/-- 8003h.00 EVENT_LOG: the field unit of entry e, 1 B at 1 (ro). -/
abbrev O.faultLogUnit (e : Nat) : Obj := ⟨⟨0x800300, e, 1⟩, 1, 0⟩
/-- 8003h.00 EVENT_LOG: the field severity of entry e, 1 B at 2 (ro). -/
abbrev O.faultLogSeverity (e : Nat) : Obj := ⟨⟨0x800300, e, 2⟩, 1, 0⟩
/-- 8003h.00 EVENT_LOG: the field flags of entry e, 1 B at 3 (ro). -/
abbrev O.faultLogFlags (e : Nat) : Obj := ⟨⟨0x800300, e, 3⟩, 1, 0⟩
/-- 8003h.00 EVENT_LOG: the field seq of entry e, 4 B at 4 (ro). -/
abbrev O.faultLogSeq (e : Nat) : Obj := ⟨⟨0x800300, e, 4⟩, 4, 0⟩
/-- 8003h.00 EVENT_LOG: the field data of entry e, 8 B at 8 (ro). -/
abbrev O.faultLogData (e : Nat) : Obj := ⟨⟨0x800300, e, 8⟩, 8, 0⟩
/-- 8003h.00 EVENT_LOG: the field stroke of entry e, 8 B at 16 (ro). -/
abbrev O.faultLogStroke (e : Nat) : Obj := ⟨⟨0x800300, e, 16⟩, 8, 0⟩
/-- 8003h.00 EVENT_LOG: the field time of entry e, 4 B at 24 (ro). -/
abbrev O.faultLogTime (e : Nat) : Obj := ⟨⟨0x800300, e, 24⟩, 4, 0⟩
/-- 8003h.00 EVENT_LOG: the field reaction of entry e, 2 B at 28 (ro). -/
abbrev O.faultLogReaction (e : Nat) : Obj := ⟨⟨0x800300, e, 28⟩, 2, 0⟩
/-- 8005h.04 REACTIONS: the field id of entry e, 2 B at 0 (ro). -/
abbrev O.reactionId (e : Nat) : Obj := ⟨⟨0x800504, e, 0⟩, 2, 0⟩
/-- 8005h.04 REACTIONS: the field source of entry e, 1 B at 2 (ro). -/
abbrev O.reactionSource (e : Nat) : Obj := ⟨⟨0x800504, e, 2⟩, 1, 0⟩
/-- 8005h.04 REACTIONS: the field kind of entry e, 1 B at 3 (ro). -/
abbrev O.reactionKind (e : Nat) : Obj := ⟨⟨0x800504, e, 3⟩, 1, 0⟩
/-- 8005h.04 REACTIONS: the field unit of entry e, 1 B at 4 (ro). -/
abbrev O.reactionUnit (e : Nat) : Obj := ⟨⟨0x800504, e, 4⟩, 1, 0⟩
/-- 8005h.04 REACTIONS: the field state of entry e, 1 B at 5 (ro). -/
abbrev O.reactionState (e : Nat) : Obj := ⟨⟨0x800504, e, 5⟩, 1, 0⟩
/-- 8005h.04 REACTIONS: the field opened of entry e, 8 B at 8 (ro). -/
abbrev O.reactionOpened (e : Nat) : Obj := ⟨⟨0x800504, e, 8⟩, 8, 0⟩
/-- 9001h.00 SLOT_INFO: the field state of entry e, 1 B at 0 (ro). -/
abbrev O.slotInfoState (e : Nat) : Obj := ⟨⟨0x900100, e, 0⟩, 1, 0⟩
/-- 9001h.00 SLOT_INFO: the field settingsFormat of entry e, 2 B at 2 (ro). -/
abbrev O.slotInfoSettingsFormat (e : Nat) : Obj := ⟨⟨0x900100, e, 2⟩, 2, 0⟩
/-- 9001h.00 SLOT_INFO: the field fwVersion of entry e, 4 B at 4 (ro). -/
abbrev O.slotInfoFwVersion (e : Nat) : Obj := ⟨⟨0x900100, e, 4⟩, 4, 0⟩
/-- 9001h.00 SLOT_INFO: the field securityVersion of entry e, 1 B at 8 (ro). -/
abbrev O.slotInfoSecurityVersion (e : Nat) : Obj := ⟨⟨0x900100, e, 8⟩, 1, 0⟩
/-- 9001h.00 SLOT_INFO: the field signer of entry e, 1 B at 9 (ro). -/
abbrev O.slotInfoSigner (e : Nat) : Obj := ⟨⟨0x900100, e, 9⟩, 1, 0⟩
/-- 9001h.00 SLOT_INFO: the field size of entry e, 4 B at 12 (ro). -/
abbrev O.slotInfoSize (e : Nat) : Obj := ⟨⟨0x900100, e, 12⟩, 4, 0⟩
/-- 9001h.00 SLOT_INFO: the field transferId of entry e, 8 B at 16 (ro). -/
abbrev O.slotInfoTransferId (e : Nat) : Obj := ⟨⟨0x900100, e, 16⟩, 8, 0⟩
/-- 9001h.00 SLOT_INFO: the field changed of entry e, 4 B at 24 (ro). -/
abbrev O.slotInfoChanged (e : Nat) : Obj := ⟨⟨0x900100, e, 24⟩, 4, 0⟩
/-- 9002h.05 BITMAP: the field byte of entry e, 1 B at 0 (ro). -/
abbrev O.bitmapByte (e : Nat) : Obj := ⟨⟨0x900205, e, 0⟩, 1, 0⟩
/-- 9005h.00 SETTINGS_RECORDS: the field state of entry e, 1 B at 0 (ro). -/
abbrev O.recordState (e : Nat) : Obj := ⟨⟨0x900500, e, 0⟩, 1, 0⟩
/-- 9005h.00 SETTINGS_RECORDS: the field format of entry e, 2 B at 2 (ro). -/
abbrev O.recordFormat (e : Nat) : Obj := ⟨⟨0x900500, e, 2⟩, 2, 0⟩
/-- 9005h.00 SETTINGS_RECORDS: the field seq of entry e, 4 B at 4 (ro). -/
abbrev O.recordSeq (e : Nat) : Obj := ⟨⟨0x900500, e, 4⟩, 4, 0⟩
/-- 9005h.00 SETTINGS_RECORDS: the field length of entry e, 4 B at 8 (ro). -/
abbrev O.recordLength (e : Nat) : Obj := ⟨⟨0x900500, e, 8⟩, 4, 0⟩
/-- 9005h.00 SETTINGS_RECORDS: the field crc of entry e, 4 B at 12 (ro). -/
abbrev O.recordCrc (e : Nat) : Obj := ⟨⟨0x900500, e, 12⟩, 4, 0⟩

end Sys2Proof.Machine
end

