-- ==== Sys2Proof/Machine/Dictionary.lean ====
section
/-! DEFINITION. The object dictionary as data (R314, R315, R316, R318): one row per object of the spec's object tables with its
index, subindex range, type, size, rights per level, unit, name, value check (R7, R10, R459) and, for a TABLE, its entries and
fields. Generated from the object tables of the spec's chapters; FOP, OBJECT_WRITE and the rigger bridge's object window read it. -/
namespace Sys2Proof.Machine

/-- The type codes of R315. -/
inductive Ty where
  | bool | u8 | u16 | u32 | u64 | i16 | i32 | f32 | octets | string | table
  deriving DecidableEq, Repr

/-- The check a written value passes before any byte changes (R317): any value; an inclusive range (R10); a list of encodings
(R7); a mask, whose other bits are reserved and ignored (R6); zero or a range; one value that restarts the object (R459); or a rule
of the object's own chapter, applied by the operation that writes it. -/
inductive Chk where
  | any | range (lo hi : Int) | oneOf (vals : List Nat) | masked (m : Nat) | zeroOr (lo hi : Nat) | only (v : Int) | special
  deriving DecidableEq, Repr

/-- How an object repeats: once, per port, per lane, per head, per layer of a head, or per MAC. -/
inductive Geo where
  | single | port | lane | head | layer (k : Nat) | mac
  deriving DecidableEq, Repr

/-- A field of a table entry: offset, size, whether the entry's description marks it ro, and its default. -/
structure Field where
  off : Nat
  size : Nat
  ro : Bool
  dflt : Nat
  deriving DecidableEq, Repr

/-- One row of the dictionary. `obj` is the number its register keys carry. `entries` is 0 for a scalar. -/
structure Row where
  idx : Nat
  sub : Nat
  last : Nat
  obj : Nat
  geo : Geo
  ty : Ty
  size : Nat
  acc : List Right
  dflt : List Nat
  unit : Nat
  name : String
  chk : Chk
  shadow : Bool
  coxOnly : Bool
  entries : Nat
  fields : List Field
  deriving DecidableEq, Repr

/-- A run of rows that repeats together: object index = row index + stride × n, n below count. -/
structure Block where
  lo : Nat
  hi : Nat
  stride : Nat
  count : Nat
  rows : List Row

/-- The unit strings of object 1011h.00 UNITS, entry 0 meaning no unit. Their order is the order in which the spec's object tables
first name them (DESIGN CHOICE, notes/assumptions/4.md). -/
def unitStrings : List String := ["", "ms", "ns", "stroke", "cell", "Mb/s", "256 MiB", "%", "s", "cycle", "B", "µs", "mV", "bit", "mA", "W", "V", "mV/µs", "µΩ", "mV/ms", "mK/W", "0.1 °C", "0.1 K", "0.0001", "mW", "mJ", "kHz", "bit/s"]

/-- A scalar's row. -/
def Row.scalar (idx sub last obj : Nat) (geo : Geo) (ty : Ty) (size : Nat) (acc : List Right) (dflt : List Nat) (unit : Nat)
    (name : String) (chk : Chk) (shadow cox : Bool) : Row :=
  ⟨idx, sub, last, obj, geo, ty, size, acc, dflt, unit, name, chk, shadow, cox, 0, []⟩

/-- Rows 1000h.00 to 1100h.03 of the dictionary. -/
def dictRows0_0 : List Row := [
  .scalar 0x1000 0 0 0x100000 .single .u32 4 [.const, .const, .const, .const] [9312] 0 "DEVICE_ID" .any false false,
  .scalar 0x1001 0 0 0x100100 .single .u64 8 [.const, .const, .const, .const] [0] 0 "HUB_UID" .any false false,
  .scalar 0x1001 1 1 0x100101 .single .u8 1 [.const, .const, .const, .const] [177] 0 "STEPPING" .any false false,
  .scalar 0x1002 0 0 0x100200 .single .u8 1 [.ro, .ro, .ro, .ro] [0] 0 "ROLE" .any false false,
  .scalar 0x1003 0 0 0x100300 .single .u8 1 [.ro, .ro, .ro, .ro] [255] 0 "HUB_ADDRESS" .any false false,
  .scalar 0x1004 0 0 0x100400 .single .u8 1 [.ro, .ro, .ro, .ro] [255] 0 "UPSTREAM_PORT" .any false false,
  .scalar 0x1005 0 0 0x100500 .single .u8 1 [.ro, .ro, .ro, .ro] [255] 0 "DEPTH" .any false false,
  .scalar 0x1006 0 0 0x100600 .single .u8 1 [.ro, .ro, .ro, .ro] [0] 0 "TREE_STATE" .any false false,
  .scalar 0x1007 0 0 0x100700 .single .string 16 [.const, .const, .const, .const] [13570396692959301] 0 "PRODUCT" .any false false,
  .scalar 0x1008 0 0 0x100800 .single .u32 4 [.ro, .ro, .ro, .ro] [0] 0 "FW_VERSION" .any false false,
  .scalar 0x1009 0 0 0x100900 .single .u32 4 [.const, .const, .const, .const] [0] 0 "ROM_VERSION" .any false false,
  ⟨0x1010, 0, 0, 0x101000, .single, .table, 48, [.ro, .ro, .ro, .ro], [0], 0, "DIRECTORY", .special, false, false, 0, []⟩,
  ⟨0x1011, 0, 0, 0x101100, .single, .table, 16, [.const, .const, .const, .const], [0], 0, "UNITS", .special, false, false, 0, []⟩,
  .scalar 0x1020 1 1 0x102001 .single .bool 1 [.ro, .ro, .ro, .rw] [0] 0 "SETTINGS_SAVE" .special false false,
  .scalar 0x1020 2 2 0x102002 .single .u8 1 [.ro, .ro, .ro, .ro] [0] 0 "SETTINGS_STATE" .any false false,
  .scalar 0x1020 3 3 0x102003 .single .bool 1 [.ro, .ro, .ro, .rw] [0] 0 "FACTORY_RESTORE" .special false false,
  .scalar 0x1020 4 4 0x102004 .single .u32 4 [.ro, .ro, .ro, .ro] [0] 0 "SETTINGS_SAVES" .any false false,
  .scalar 0x1100 1 1 0x110001 .single .octets 16 [.wo, .wo, .wo, .wo] [0] 0 "SESSION_OPEN" .special false false,
  .scalar 0x1100 2 2 0x110002 .single .u16 2 [.wo, .wo, .wo, .wo] [0] 0 "SESSION_CLOSE" .special false false,
  .scalar 0x1100 3 3 0x110003 .single .u8 1 [.const, .const, .const, .const] [8] 0 "SESSIONS_MAX" .any false false]
/-- Rows 1100h.04 to 1121h.02 of the dictionary. -/
def dictRows0_1 : List Row := [
  .scalar 0x1100 4 4 0x110004 .single .u32 4 [.ro, .ro, .ro, .rw] [60] 8 "IDLE_TIMEOUT" (.range 10 3600) false false,
  .scalar 0x1100 5 5 0x110005 .single .u16 2 [.ro, .ro, .ro, .rw] [2000] 1 "BLOCK_TIMEOUT" (.range 100 60000) false false,
  .scalar 0x1101 1 4 0x110101 .single .u8 1 [.ro, .ro, .ro, .rw] [0, 1, 2, 3] 0 "ACCESS_KEY_SLOT" .special false false,
  ⟨0x1102, 0, 0, 0x110200, .single, .table, 16, [.ro, .ro, .ro, .ro], [0], 0, "SESSION_TABLE", .special, false, false, 8, [⟨0, 2, true, 0⟩, ⟨2, 1, true, 0⟩, ⟨3, 1, true, 0⟩, ⟨4, 4, true, 0⟩, ⟨8, 4, true, 0⟩, ⟨12, 4, true, 0⟩]⟩,
  .scalar 0x1103 1 1 0x110301 .single .u64 8 [.ro, .ro, .ro, .ro] [0] 0 "MALFORMED" .any false false,
  .scalar 0x1103 2 2 0x110302 .single .u64 8 [.ro, .ro, .ro, .ro] [0] 0 "AUTH_FAILURES" .any false false,
  .scalar 0x1103 3 3 0x110303 .single .u64 8 [.ro, .ro, .ro, .ro] [0] 0 "REPLAYS" .any false false,
  .scalar 0x1103 4 4 0x110304 .single .u64 8 [.ro, .ro, .ro, .ro] [0] 0 "DUPLICATES" .any false false,
  .scalar 0x1103 5 5 0x110305 .single .u64 8 [.ro, .ro, .ro, .ro] [0] 0 "OPENS_REFUSED" .any false false,
  ⟨0x1110, 0, 0, 0x111000, .single, .table, 16, [.ro, .rw, .rw, .rw], [0], 0, "NOTIFY_TABLE", .special, false, false, 32, [⟨0, 2, false, 0⟩, ⟨2, 2, false, 0⟩, ⟨4, 1, false, 0⟩, ⟨5, 1, false, 0⟩, ⟨8, 4, false, 0⟩, ⟨12, 4, true, 0⟩]⟩,
  .scalar 0x1111 0 0 0x111100 .single .u64 8 [.ro, .ro, .ro, .ro] [0] 0 "NOTIFY_DROPS" .any false false,
  .scalar 0x1120 1 1 0x112001 .single .bool 1 [.ro, .ro, .ro, .rw] [1] 0 "T1S_ENABLE" (.range 0 1) false false,
  .scalar 0x1120 2 2 0x112002 .single .u8 1 [.ro, .ro, .rw, .rw] [255] 0 "PLCA_NODE_ID" .any false false,
  .scalar 0x1120 3 3 0x112003 .single .u8 1 [.ro, .ro, .rw, .rw] [8] 0 "PLCA_NODE_COUNT" (.range 1 255) false false,
  .scalar 0x1120 4 4 0x112004 .single .u8 1 [.ro, .ro, .rw, .rw] [32] 13 "PLCA_TO_TIMER" (.range 1 255) false false,
  .scalar 0x1120 5 5 0x112005 .single .u8 1 [.ro, .ro, .rw, .rw] [0] 0 "PLCA_BURST_COUNT" .any false false,
  .scalar 0x1120 6 6 0x112006 .single .u8 1 [.ro, .ro, .rw, .rw] [128] 13 "PLCA_BURST_TIMER" (.range 1 255) false false,
  .scalar 0x1120 7 7 0x112007 .single .u8 1 [.ro, .ro, .ro, .ro] [0] 0 "PLCA_STATUS" .any false false,
  .scalar 0x1121 1 1 0x112101 .single .octets 6 [.const, .const, .const, .const] [0] 0 "MAC_ADDR" .any false false,
  .scalar 0x1121 2 2 0x112102 .single .octets 16 [.ro, .ro, .ro, .ro] [0] 0 "LINK_LOCAL" .any false false]
/-- Rows 1121h.03 to 1124h.02 of the dictionary. -/
def dictRows0_2 : List Row := [
  .scalar 0x1121 3 3 0x112103 .single .octets 16 [.ro, .ro, .ro, .rw] [0] 0 "STATIC_ADDR" .any false false,
  .scalar 0x1121 4 4 0x112104 .single .u16 2 [.ro, .ro, .ro, .rw] [50614] 0 "FOP_PORT" (.range 1024 65535) false false,
  .scalar 0x1121 5 5 0x112105 .single .u8 1 [.ro, .ro, .ro, .ro] [0] 0 "ADDR_STATE" .any false false,
  .scalar 0x1122 1 1 0x112201 .single .u32 4 [.ro, .ro, .ro, .rw] [115200] 27 "UART_BAUD" (.oneOf [115200,230400,921600,3000000]) false false,
  .scalar 0x1122 2 2 0x112202 .single .u64 8 [.ro, .ro, .ro, .ro] [0] 0 "UART_ERRORS" .any false false,
  .scalar 0x1123 1 1 0x112301 .single .u64 8 [.ro, .ro, .ro, .ro] [0] 0 "MAILBOX_OVERRUNS" .any false false,
  .scalar 0x1124 1 1 0x112401 .single .u8 1 [.ro, .ro, .ro, .ro] [0] 0 "RELAY_ENTRIES" .any false true,
  .scalar 0x1124 2 2 0x112402 .single .u64 8 [.ro, .ro, .ro, .ro] [0] 0 "RELAY_DISCARDS" .any false true]
/-- Rows 2000h.01 to 2003h.05 of the dictionary. -/
def dictRows1_0 : List Row := [
  .scalar 0x2000 1 1 0x200001 .port .u8 1 [.ro, .ro, .ro, .ro] [0] 0 "LINK_STATE" .any false false,
  .scalar 0x2000 2 2 0x200002 .port .u32 4 [.ro, .ro, .ro, .ro] [0] 5 "PAYLOAD_RATE" .any false false,
  .scalar 0x2000 3 3 0x200003 .port .u32 4 [.ro, .ro, .ro, .ro] [0] 5 "RX_PAYLOAD_RATE" .any false false,
  .scalar 0x2000 4 4 0x200004 .port .u16 2 [.ro, .ro, .rw, .rw] [8] 1 "RETRAIN_LIMIT" (.range 1 60) false false,
  .scalar 0x2000 5 5 0x200005 .port .u32 4 [.ro, .ro, .ro, .ro] [0] 0 "RETRAINS" .any false false,
  .scalar 0x2000 6 6 0x200006 .port .u32 4 [.ro, .ro, .ro, .ro] [0] 11 "LAST_RETRAIN" .any false false,
  .scalar 0x2000 7 7 0x200007 .port .u8 1 [.ro, .ro, .ro, .ro] [0] 0 "LAST_RETRAIN_CAUSE" .any false false,
  .scalar 0x2000 8 8 0x200008 .port .bool 1 [.ro, .ro, .rw, .rw] [0] 0 "RETRAIN_REQUEST" .special false false,
  .scalar 0x2000 9 9 0x200009 .port .bool 1 [.ro, .ro, .rw, .rw] [1] 0 "QUIET_ENABLE" (.range 0 1) false false,
  .scalar 0x2000 10 10 0x20000A .port .u16 2 [.const, .const, .const, .const] [40] 11 "QUIET_WAKE_LEAD" .any false false,
  .scalar 0x2000 11 11 0x20000B .port .u32 4 [.ro, .ro, .ro, .ro] [0] 2 "ROUND_TRIP" .any false false,
  .scalar 0x2000 12 12 0x20000C .port .u16 2 [.const, .const, .const, .const] [1000] 11 "INIT_TIMEOUT" .any false false,
  .scalar 0x2001 1 8 0x200101 .port .u16 2 [.ro, .ro, .rw, .rw] [8, 8, 40, 8, 40, 8, 11, 5] 4 "CREDIT_LIMIT" .special false false,
  .scalar 0x2002 1 8 0x200201 .port .u16 2 [.ro, .ro, .ro, .ro] [0, 0, 0, 0, 0, 0, 0, 0] 4 "TX_CREDIT_AVAIL" .any false false,
  .scalar 0x2002 9 16 0x200209 .port .u16 2 [.ro, .ro, .ro, .ro] [0, 0, 0, 0, 0, 0, 0, 0] 4 "PEER_CREDIT_LIMIT" .any false false,
  .scalar 0x2003 1 1 0x200301 .port .u64 8 [.ro, .ro, .ro, .ro] [0] 0 "FLITS_TX" .any false false,
  .scalar 0x2003 2 2 0x200302 .port .u64 8 [.ro, .ro, .ro, .ro] [0] 0 "FLITS_RX" .any false false,
  .scalar 0x2003 3 3 0x200303 .port .u64 8 [.ro, .ro, .ro, .ro] [0] 0 "CRC_ERRORS" .any false false,
  .scalar 0x2003 4 4 0x200304 .port .u64 8 [.ro, .ro, .ro, .ro] [0] 0 "BLOCK_ERRORS" .any false false,
  .scalar 0x2003 5 5 0x200305 .port .u64 8 [.ro, .ro, .ro, .ro] [0] 0 "FEC_CODEWORDS" .any false false]
/-- Rows 2003h.06 to 2006h.01 of the dictionary. -/
def dictRows1_1 : List Row := [
  .scalar 0x2003 6 6 0x200306 .port .u64 8 [.ro, .ro, .ro, .ro] [0] 0 "FEC_CORRECTED" .any false false,
  .scalar 0x2003 7 7 0x200307 .port .u64 8 [.ro, .ro, .ro, .ro] [0] 0 "FEC_UNCORRECTABLE" .any false false,
  .scalar 0x2003 8 8 0x200308 .port .u64 8 [.ro, .ro, .ro, .ro] [0] 0 "NAKS_SENT" .any false false,
  .scalar 0x2003 9 9 0x200309 .port .u64 8 [.ro, .ro, .ro, .ro] [0] 0 "NAKS_RECEIVED" .any false false,
  .scalar 0x2003 10 10 0x20030A .port .u64 8 [.ro, .ro, .ro, .ro] [0] 0 "REPLAYS" .any false false,
  .scalar 0x2003 11 11 0x20030B .port .u64 8 [.ro, .ro, .ro, .ro] [0] 0 "REPLAYED_FLITS" .any false false,
  .scalar 0x2003 12 12 0x20030C .port .u64 8 [.ro, .ro, .ro, .ro] [0] 0 "REPLAY_TIMEOUTS" .any false false,
  .scalar 0x2003 13 13 0x20030D .port .u64 8 [.ro, .ro, .ro, .ro] [0] 0 "AUTH_FAILURES" .any false false,
  .scalar 0x2003 14 14 0x20030E .port .u64 8 [.ro, .ro, .ro, .ro] [0] 0 "LATE_ISO_DISCARDS" .any false false,
  .scalar 0x2003 15 15 0x20030F .port .bool 1 [.ro, .rw, .rw, .rw] [0] 0 "COUNTERS_CLEAR" .special false false,
  .scalar 0x2004 1 1 0x200401 .port .bool 1 [.ro, .ro, .ro, .rw] [0] 0 "CRYPT_ENABLE" .special false false,
  .scalar 0x2004 2 2 0x200402 .port .u8 1 [.ro, .ro, .ro, .ro] [0] 0 "CRYPT_STATE" .any false false,
  .scalar 0x2004 3 3 0x200403 .port .u64 8 [.ro, .ro, .ro, .ro] [0] 0 "TX_COUNTER" .any false false,
  .scalar 0x2004 4 4 0x200404 .port .u64 8 [.ro, .ro, .ro, .ro] [0] 0 "RX_COUNTER" .any false false,
  .scalar 0x2004 5 5 0x200405 .port .u8 1 [.ro, .ro, .ro, .ro] [0] 0 "KEY_EPOCH" .any false false,
  .scalar 0x2005 1 1 0x200501 .port .u16 2 [.const, .const, .const, .const] [256] 0 "REPLAY_DEPTH" .any false false,
  .scalar 0x2005 2 2 0x200502 .port .u16 2 [.ro, .ro, .rw, .rw] [4000] 2 "REPLAY_TIMEOUT" (.range 1000 65000) false false,
  .scalar 0x2005 3 3 0x200503 .port .u8 1 [.ro, .ro, .rw, .rw] [4] 0 "REPLAY_LIMIT" (.range 1 8) false false,
  .scalar 0x2005 4 4 0x200504 .port .u16 2 [.ro, .ro, .ro, .ro] [0] 0 "REPLAY_OUTSTANDING" .any false false,
  .scalar 0x2006 1 1 0x200601 .port .bool 1 [.ro, .ro, .rw, .rw] [1] 0 "LINK_ENABLE" .special false false]
/-- Rows 2006h.02 to 2007h.03 of the dictionary. -/
def dictRows1_2 : List Row := [
  .scalar 0x2006 2 2 0x200602 .port .u8 1 [.ro, .ro, .rw, .rw] [4] 0 "GEAR_MAX" .special false false,
  .scalar 0x2006 3 3 0x200603 .port .u8 1 [.ro, .ro, .ro, .ro] [0] 0 "GEAR" .any false false,
  .scalar 0x2006 4 4 0x200604 .port .u8 1 [.ro, .ro, .ro, .ro] [4] 0 "GEAR_CEILING" .any false false,
  .scalar 0x2006 5 5 0x200605 .port .u8 1 [.ro, .ro, .ro, .ro] [0] 0 "GEARS_FAILED" .any false false,
  .scalar 0x2006 6 6 0x200606 .port .u8 1 [.ro, .ro, .rw, .rw] [0] 0 "LANE_USE" .special false false,
  .scalar 0x2006 7 7 0x200607 .port .u8 1 [.ro, .ro, .ro, .ro] [0] 0 "TX_LANES" .any false false,
  .scalar 0x2006 8 8 0x200608 .port .u8 1 [.ro, .ro, .ro, .ro] [0] 0 "RX_LANES" .any false false,
  .scalar 0x2006 9 9 0x200609 .port .u8 1 [.ro, .ro, .ro, .ro] [0] 0 "LANE_USE_REFUSAL" .any false false,
  .scalar 0x2006 10 10 0x20060A .port .u8 1 [.ro, .ro, .ro, .ro] [0] 0 "TRAIN_STATE" .any false false,
  .scalar 0x2006 11 11 0x20060B .port .bool 1 [.ro, .ro, .rw, .rw] [0] 0 "READY_HOLD" .special false false,
  .scalar 0x2006 12 12 0x20060C .port .u16 2 [.ro, .ro, .rw, .rw] [100] 1 "HOLD_LIMIT" (.range 1 10000) false false,
  .scalar 0x2006 13 13 0x20060D .port .u8 1 [.ro, .ro, .ro, .ro] [0] 0 "HOLD_REASON" .any false false,
  .scalar 0x2006 14 14 0x20060E .port .u32 4 [.ro, .ro, .ro, .ro] [0] 0 "TRAINS" .any false false,
  .scalar 0x2006 15 15 0x20060F .port .u32 4 [.ro, .ro, .ro, .ro] [0] 0 "TRAIN_FAILS" .any false false,
  .scalar 0x2006 16 16 0x200610 .port .u32 4 [.ro, .ro, .ro, .ro] [0] 11 "LAST_TRAIN_TIME" .any false false,
  .scalar 0x2006 17 17 0x200611 .port .u16 2 [.const, .const, .const, .const] [2000] 11 "GEAR_STEP_LIMIT" .any false false,
  .scalar 0x2006 18 18 0x200612 .port .u8 1 [.ro, .ro, .rw, .rw] [96] 0 "EQ_FOM_MIN" (.range 0 255) false false,
  .scalar 0x2007 1 1 0x200701 .port .u8 1 [.ro, .ro, .rw, .rw] [0] 0 "TEST_MODE" .special false false,
  .scalar 0x2007 2 2 0x200702 .port .u8 1 [.ro, .ro, .rw, .rw] [3] 0 "TEST_PATTERN" (.oneOf [0,1,2,3]) false false,
  .scalar 0x2007 3 3 0x200703 .port .u8 1 [.ro, .ro, .rw, .rw] [1] 0 "TEST_GEAR" (.range 1 4) false false]
/-- Rows 2007h.04 to 2008h.04 of the dictionary. -/
def dictRows1_3 : List Row := [
  .scalar 0x2007 4 4 0x200704 .port .bool 1 [.ro, .ro, .ro, .rw] [0] 0 "TEST_NO_ATTACH" (.range 0 1) false false,
  .scalar 0x2008 1 1 0x200801 .port .bool 1 [.ro, .ro, .rw, .rw] [0] 0 "RETUNE_AUTO" (.range 0 1) false false,
  .scalar 0x2008 2 2 0x200802 .port .u32 4 [.ro, .ro, .rw, .rw] [60] 8 "EYE_SCAN_PERIOD" (.range 10 3600) false false,
  .scalar 0x2008 3 3 0x200803 .port .u16 2 [.ro, .ro, .rw, .rw] [30] 12 "MARGIN_ALARM" (.range 0 200) false false,
  .scalar 0x2008 4 4 0x200804 .port .u32 4 [.ro, .ro, .ro, .ro] [0] 0 "MARGIN_ALARMS" .any false false]
/-- Rows 2400h.01 to 2400h.14 of the dictionary. -/
def dictRows2_0 : List Row := [
  .scalar 0x2400 1 1 0x240001 .lane .u8 1 [.ro, .ro, .ro, .ro] [0] 0 "LANE_STATUS" .any false false,
  .scalar 0x2400 2 2 0x240002 .lane .u8 1 [.ro, .ro, .ro, .ro] [255] 0 "LOGICAL_LANE" .any false false,
  .scalar 0x2400 3 3 0x240003 .lane .u32 4 [.ro, .ro, .ro, .ro] [0] 0 "LOS_EVENTS" .any false false,
  .scalar 0x2400 4 4 0x240004 .lane .u32 4 [.ro, .ro, .ro, .ro] [0] 0 "LOL_EVENTS" .any false false,
  .scalar 0x2400 5 5 0x240005 .lane .u8 1 [.ro, .ro, .ro, .ro] [15] 0 "TX_PRESET" .any false false,
  .scalar 0x2400 6 6 0x240006 .lane .u32 4 [.ro, .ro, .ro, .ro] [0] 0 "TX_COEF" .any false false,
  .scalar 0x2400 7 7 0x240007 .lane .u16 2 [.ro, .ro, .ro, .ro] [0] 12 "EYE_HEIGHT" .any false false,
  .scalar 0x2400 8 8 0x240008 .lane .u16 2 [.ro, .ro, .ro, .ro] [0] 0 "EYE_WIDTH" .any false false,
  .scalar 0x2400 9 9 0x240009 .lane .u64 8 [.ro, .ro, .ro, .ro] [0] 0 "RX_ADAPT_UPDATES" .any false false,
  .scalar 0x2400 10 10 0x24000A .lane .bool 1 [.ro, .ro, .ro, .ro] [0] 0 "CHK_LOCKED" .any false false,
  .scalar 0x2400 11 11 0x24000B .lane .u64 8 [.ro, .ro, .ro, .ro] [0] 0 "CHK_BITS" .any false false,
  .scalar 0x2400 12 12 0x24000C .lane .u64 8 [.ro, .ro, .ro, .ro] [0] 0 "CHK_ERRORS" .any false false,
  .scalar 0x2400 13 13 0x24000D .lane .u64 8 [.ro, .ro, .ro, .ro] [0] 0 "ERR_FRAME" .any false false,
  .scalar 0x2400 14 14 0x24000E .lane .u64 8 [.ro, .ro, .ro, .ro] [0] 0 "ERR_RUN" .any false false,
  .scalar 0x2400 15 15 0x24000F .lane .u64 8 [.ro, .ro, .ro, .ro] [0] 0 "ERR_NYQUIST" .any false false,
  .scalar 0x2400 16 16 0x240010 .lane .u64 8 [.ro, .ro, .ro, .ro] [0] 0 "ERR_LADDER" .any false false,
  .scalar 0x2400 17 17 0x240011 .lane .u64 8 [.ro, .ro, .ro, .ro] [0] 0 "ERR_RANDOM" .any false false,
  .scalar 0x2400 18 18 0x240012 .lane .bool 1 [.ro, .rw, .rw, .rw] [0] 0 "COUNTERS_CLEAR" .special false false,
  .scalar 0x2400 19 19 0x240013 .lane .u8 1 [.ro, .ro, .rw, .rw] [0] 0 "INJECT_MODE" .special false false,
  .scalar 0x2400 20 20 0x240014 .lane .u32 4 [.ro, .ro, .rw, .rw] [1048576] 13 "INJECT_INTERVAL" (.range 1024 4294967295) false false]
/-- Rows 2400h.15 to 2400h.19 of the dictionary. -/
def dictRows2_1 : List Row := [
  .scalar 0x2400 21 21 0x240015 .lane .u8 1 [.ro, .ro, .rw, .rw] [1] 13 "INJECT_BURST" (.range 1 64) false false,
  .scalar 0x2400 22 22 0x240016 .lane .u64 8 [.ro, .ro, .ro, .ro] [0] 0 "INJECT_COUNT" .any false false,
  .scalar 0x2400 23 23 0x240017 .lane .u8 1 [.ro, .ro, .wo, .wo] [0] 0 "BITSLIP" .special false false,
  .scalar 0x2400 24 24 0x240018 .lane .u8 1 [.ro, .ro, .rw, .rw] [0] 0 "CAPTURE_AT" .special false false,
  .scalar 0x2400 25 25 0x240019 .lane .u64 8 [.ro, .ro, .ro, .ro] [0] 0 "CAPTURE" .any false false]
/-- Rows 2460h.01 to 2460h.05 of the dictionary. -/
def dictRows3_0 : List Row := [
  .scalar 0x2460 1 1 0x246001 .single .octets 8 [.const, .const, .const, .const] [3938805183532044047] 0 "REGATTA_MARKER" .any false false,
  .scalar 0x2460 2 2 0x246002 .single .u16 2 [.const, .const, .const, .const] [8192] 13 "REGATTA_FRAME" .any false false,
  .scalar 0x2460 3 3 0x246003 .single .u32 4 [.const, .const, .const, .const] [120] 11 "FAST_RETRAIN_MAX" .any false false,
  .scalar 0x2460 4 4 0x246004 .single .u32 4 [.const, .const, .const, .const] [38] 11 "LANES_IDLE_EXIT_MAX" .any false false,
  .scalar 0x2460 5 5 0x246005 .single .u16 2 [.const, .const, .const, .const] [16] 2 "SKEW_MAX" .any false false]
/-- Rows 2800h.01 to 2802h.02 of the dictionary. -/
def dictRows4_0 : List Row := [
  .scalar 0x2800 1 1 0x280001 .port .u8 1 [.ro, .ro, .rw, .rw] [3] 0 "POLICY" .special false false,
  .scalar 0x2800 2 2 0x280002 .port .u8 1 [.ro, .ro, .rw, .rw] [75] 1 "DRP_PERIOD" (.range 50 100) false false,
  .scalar 0x2800 3 3 0x280003 .port .u8 1 [.ro, .ro, .rw, .rw] [50] 7 "DRP_DUTY" (.range 30 70) false false,
  .scalar 0x2800 4 4 0x280004 .port .u8 1 [.ro, .ro, .rw, .rw] [2] 0 "RP_LEVEL" (.oneOf [0,1,2]) false false,
  .scalar 0x2800 5 5 0x280005 .port .u8 1 [.ro, .ro, .ro, .ro] [0] 0 "ATTACH_STATE" .any false false,
  .scalar 0x2800 6 6 0x280006 .port .u8 1 [.ro, .ro, .ro, .ro] [0] 0 "ORIENTATION" .any false false,
  .scalar 0x2800 7 7 0x280007 .port .u8 1 [.ro, .ro, .ro, .ro] [0] 0 "POWER_ROLE" .any false false,
  .scalar 0x2800 8 8 0x280008 .port .u8 1 [.ro, .ro, .ro, .ro] [0] 0 "DATA_ROLE" .any false false,
  .scalar 0x2800 9 9 0x280009 .port .u8 1 [.ro, .ro, .ro, .ro] [0] 0 "VCONN_STATE" .any false false,
  .scalar 0x2800 10 10 0x28000A .port .u16 2 [.ro, .ro, .ro, .ro] [0] 14 "VCONN_CURRENT" .any false false,
  .scalar 0x2800 11 11 0x28000B .port .u8 1 [.ro, .ro, .ro, .ro] [0] 0 "ATTACH_ROLES" .any false false,
  .scalar 0x2800 12 12 0x28000C .port .bool 1 [.ro, .ro, .rw, .rw] [0] 0 "CRITICAL" (.range 0 1) false false,
  .scalar 0x2800 13 13 0x28000D .port .bool 1 [.ro, .ro, .rw, .rw] [0] 0 "PORT_DISABLE" .special false false,
  .scalar 0x2801 1 1 0x280101 .port .u8 1 [.ro, .ro, .ro, .ro] [0] 0 "CONTRACT_STATE" .any false false,
  .scalar 0x2801 2 2 0x280102 .port .u32 4 [.ro, .ro, .ro, .ro] [0] 12 "CONTRACT_V" .any false false,
  .scalar 0x2801 3 3 0x280103 .port .u16 2 [.ro, .ro, .ro, .ro] [0] 14 "CONTRACT_I" .any false false,
  .scalar 0x2801 4 4 0x280104 .port .u32 4 [.ro, .ro, .ro, .ro] [0] 0 "CONTRACT_RDO" .any false false,
  .scalar 0x2801 5 5 0x280105 .port .u8 1 [.ro, .ro, .ro, .ro] [0] 0 "PARTNER_REVISION" .any false false,
  .scalar 0x2802 1 1 0x280201 .port .u16 2 [.ro, .ro, .rw, .rw] [5000] 14 "SOURCE_CURRENT_MAX" .special false false,
  .scalar 0x2802 2 2 0x280202 .port .u16 2 [.ro, .ro, .rw, .rw] [240] 15 "SOURCE_POWER_MAX" .special false false]
/-- Rows 2802h.03 to 2806h.01 of the dictionary. -/
def dictRows4_1 : List Row := [
  .scalar 0x2802 3 3 0x280203 .port .bool 1 [.ro, .ro, .rw, .rw] [1] 0 "EPR_ENABLE" .special false false,
  .scalar 0x2802 4 4 0x280204 .port .u8 1 [.ro, .ro, .rw, .rw] [127] 0 "SOURCE_PDO_MASK" .special false false,
  .scalar 0x2802 5 5 0x280205 .port .u8 1 [.ro, .ro, .ro, .ro] [0] 0 "SOURCE_CAP_STATE" .any false false,
  .scalar 0x2803 1 1 0x280301 .port .u32 4 [.ro, .ro, .rw, .rw] [48000] 12 "SINK_VMAX" (.range 5000 48000) false false,
  .scalar 0x2803 2 2 0x280302 .port .u16 2 [.ro, .ro, .rw, .rw] [15] 15 "SINK_POWER_MIN" (.range 0 240) false false,
  .scalar 0x2803 3 3 0x280303 .port .bool 1 [.ro, .ro, .rw, .rw] [1] 0 "SINK_EPR" (.range 0 1) false false,
  .scalar 0x2803 4 4 0x280304 .port .u32 4 [.ro, .ro, .rw, .rw] [0] 12 "SINK_PPS_MV" (.zeroOr 3300 21000) false false,
  .scalar 0x2803 5 5 0x280305 .port .u16 2 [.ro, .ro, .rw, .rw] [1000] 14 "SINK_PPS_MA" (.range 1000 5000) false false,
  .scalar 0x2803 6 6 0x280306 .port .bool 1 [.ro, .ro, .ro, .ro] [0] 0 "MISMATCH" .any false false,
  .scalar 0x2804 1 1 0x280401 .port .u8 1 [.ro, .ro, .ro, .ro] [0] 0 "CABLE_STATE" .any false false,
  .scalar 0x2804 2 2 0x280402 .port .u16 2 [.ro, .ro, .ro, .ro] [3000] 14 "CABLE_CURRENT" .any false false,
  .scalar 0x2804 3 3 0x280403 .port .u8 1 [.ro, .ro, .ro, .ro] [20] 16 "CABLE_VMAX" .any false false,
  .scalar 0x2804 4 4 0x280404 .port .bool 1 [.ro, .ro, .ro, .ro] [0] 0 "CABLE_EPR" .any false false,
  .scalar 0x2804 5 5 0x280405 .port .u8 1 [.ro, .ro, .ro, .ro] [0] 0 "CABLE_SPEED" .any false false,
  .scalar 0x2804 6 6 0x280406 .port .u32 4 [.ro, .ro, .ro, .ro] [0] 0 "CABLE_VDO" .any false false,
  .scalar 0x2804 7 7 0x280407 .port .u32 4 [.ro, .ro, .ro, .ro] [0] 0 "CABLE_SOPPP_ID" .any false false,
  .scalar 0x2805 1 1 0x280501 .port .u32 4 [.ro, .ro, .ro, .ro] [0] 0 "PARTNER_ID_HEADER" .any false false,
  .scalar 0x2805 2 2 0x280502 .port .octets 24 [.ro, .ro, .ro, .ro] [0] 0 "PARTNER_SVIDS" .any false false,
  .scalar 0x2805 3 3 0x280503 .port .u32 4 [.ro, .ro, .ro, .ro] [0] 0 "PARTNER_MODE_VDO" .any false false,
  .scalar 0x2806 1 1 0x280601 .port .u16 2 [.const, .const, .const, .const] [15198] 0 "VALTOEST_SVID" .any false false]
/-- Rows 2806h.02 to 2808h.09 of the dictionary. -/
def dictRows4_2 : List Row := [
  .scalar 0x2806 2 2 0x280602 .port .bool 1 [.ro, .ro, .rw, .rw] [1] 0 "EPX_ENABLE" .special false false,
  .scalar 0x2806 3 3 0x280603 .port .u16 2 [.ro, .ro, .rw, .rw] [50] 1 "MODE_ENTRY_DELAY" (.range 0 1000) false false,
  .scalar 0x2806 4 4 0x280604 .port .u16 2 [.ro, .ro, .rw, .rw] [2000] 1 "ENTRY_WAIT" (.range 500 10000) false false,
  .scalar 0x2806 5 5 0x280605 .port .u8 1 [.ro, .ro, .ro, .ro] [0] 0 "ENTRY_RESULT" .any false false,
  .scalar 0x2806 6 6 0x280606 .port .u8 1 [.ro, .ro, .ro, .ro] [0] 0 "MODE_STATE" .any false false,
  .scalar 0x2806 7 7 0x280607 .port .u32 4 [.ro, .ro, .ro, .ro] [0] 0 "OWN_MODE_VDO" .any false false,
  .scalar 0x2807 1 1 0x280701 .port .u8 1 [.ro, .ro, .rw, .rw] [7] 0 "SWAP_ACCEPT" (.masked 7) false false,
  .scalar 0x2807 2 2 0x280702 .port .u8 1 [.ro, .ro, .rw, .rw] [0] 0 "SWAP_REQUEST" .special false false,
  .scalar 0x2807 3 3 0x280703 .port .u8 1 [.ro, .ro, .ro, .ro] [0] 0 "SWAP_RESULT" .any false false,
  .scalar 0x2807 4 4 0x280704 .port .u8 1 [.ro, .ro, .rw, .rw] [3] 0 "SWAP_RETRIES" (.range 0 10) false false,
  .scalar 0x2808 1 1 0x280801 .port .u32 4 [.ro, .ro, .ro, .ro] [0] 0 "ATTACHES" .any false false,
  .scalar 0x2808 2 2 0x280802 .port .u32 4 [.ro, .ro, .ro, .ro] [0] 0 "SOFT_RESETS" .any false false,
  .scalar 0x2808 3 3 0x280803 .port .u32 4 [.ro, .ro, .ro, .ro] [0] 0 "HARD_RESETS_SENT" .any false false,
  .scalar 0x2808 4 4 0x280804 .port .u32 4 [.ro, .ro, .ro, .ro] [0] 0 "HARD_RESETS_RECEIVED" .any false false,
  .scalar 0x2808 5 5 0x280805 .port .u8 1 [.ro, .ro, .ro, .ro] [0] 0 "HARD_RESET_RUN" .any false false,
  .scalar 0x2808 6 6 0x280806 .port .u32 4 [.ro, .ro, .ro, .ro] [0] 0 "ERROR_RECOVERIES" .any false false,
  .scalar 0x2808 7 7 0x280807 .port .u32 4 [.ro, .ro, .ro, .ro] [0] 0 "VCONN_FAULTS" .any false false,
  .scalar 0x2808 8 8 0x280808 .port .u32 4 [.ro, .ro, .ro, .ro] [0] 0 "KEEPALIVE_TIMEOUTS" .any false false,
  .scalar 0x2808 9 9 0x280809 .port .bool 1 [.ro, .rw, .rw, .rw] [0] 0 "COUNTERS_CLEAR" .special false false]
/-- Rows 3000h.01 to 3003h.03 of the dictionary. -/
def dictRows5_0 : List Row := [
  .scalar 0x3000 1 1 0x300001 .single .u8 1 [.ro, .ro, .rw, .rw] [0] 0 "FEED_PRIORITY" (.oneOf [0,1]) false false,
  .scalar 0x3000 2 2 0x300002 .single .u8 1 [.ro, .ro, .ro, .ro] [0] 0 "FEED_SELECTED" .any false false,
  .scalar 0x3000 3 3 0x300003 .single .u8 1 [.ro, .ro, .ro, .ro] [3] 0 "FEED_STATE" .any false false,
  .scalar 0x3000 4 4 0x300004 .single .u32 4 [.ro, .ro, .ro, .ro] [0] 12 "SAG_INPUT_MV" .any false false,
  .scalar 0x3001 1 1 0x300101 .single .u32 4 [.ro, .ro, .ro, .ro] [0] 12 "FA_MV" .any false false,
  .scalar 0x3001 2 2 0x300102 .single .u32 4 [.ro, .ro, .ro, .ro] [0] 12 "FB_MV" .any false false,
  .scalar 0x3001 3 3 0x300103 .single .u32 4 [.ro, .ro, .ro, .ro] [0] 12 "BUS_MV" .any false false,
  .scalar 0x3001 4 4 0x300104 .single .bool 1 [.ro, .ro, .ro, .ro] [0] 0 "FA_QUALIFIED" .any false false,
  .scalar 0x3001 5 5 0x300105 .single .bool 1 [.ro, .ro, .ro, .ro] [0] 0 "FB_QUALIFIED" .any false false,
  .scalar 0x3002 1 1 0x300201 .single .u32 4 [.ro, .ro, .rw, .rw] [45000] 12 "FEED_QUAL_MV" .special false false,
  .scalar 0x3002 2 2 0x300202 .single .u16 2 [.ro, .ro, .rw, .rw] [100] 1 "FEED_QUAL_TIME" (.range 10 10000) false false,
  .scalar 0x3002 3 3 0x300203 .single .u32 4 [.ro, .ro, .rw, .rw] [44500] 12 "FEED_LOST_MV" .special false false,
  .scalar 0x3002 4 4 0x300204 .single .u32 4 [.ro, .ro, .rw, .rw] [57000] 12 "FEED_OV_MV" (.range 52000 60000) false false,
  .scalar 0x3002 5 5 0x300205 .single .u16 2 [.ro, .ro, .rw, .rw] [50] 11 "DEAD_TIME" (.range 20 1000) false false,
  .scalar 0x3002 6 6 0x300206 .single .u16 2 [.ro, .ro, .rw, .rw] [10] 17 "FEED_RAMP_RATE" (.range 1 100) false false,
  .scalar 0x3002 7 7 0x300207 .single .bool 1 [.ro, .ro, .rw, .rw] [1] 0 "AUTO_REVERT" (.range 0 1) false false,
  .scalar 0x3002 8 8 0x300208 .single .u32 4 [.ro, .ro, .rw, .rw] [10000] 1 "REVERT_TIME" (.range 1000 3600000) false false,
  .scalar 0x3003 1 1 0x300301 .single .u32 4 [.ro, .ro, .ro, .ro] [0] 0 "TRANSFERS" .any false false,
  .scalar 0x3003 2 2 0x300302 .single .u32 4 [.ro, .ro, .ro, .ro] [0] 11 "LAST_TRANSFER_GAP" .any false false,
  .scalar 0x3003 3 3 0x300303 .single .u32 4 [.ro, .ro, .rw, .rw] [0] 12 "BUS_MIN_MV" (.only 0) false false]
/-- Rows 3004h.01 to 3022h.01 of the dictionary. -/
def dictRows5_1 : List Row := [
  .scalar 0x3004 1 1 0x300401 .single .u16 2 [.const, .const, .const, .const] [10] 11 "ADC_FRAME" .any false false,
  .scalar 0x3004 2 2 0x300402 .single .u16 2 [.const, .const, .const, .const] [360] 11 "ADC_BG_BOUND" .any false false,
  .scalar 0x3004 3 3 0x300403 .single .u32 4 [.ro, .ro, .ro, .ro] [0] 0 "PRIORITY_PORTS" .any false false,
  .scalar 0x3010 1 5 0x301001 .single .u32 4 [.ro, .ro, .rw, .rw] [44000, 40000, 36000, 30000, 24000] 12 "SAG_ENTER_MV" .special false false,
  .scalar 0x3010 6 6 0x301006 .single .u32 4 [.ro, .ro, .rw, .rw] [1000] 12 "SAG_HYST_MV" (.range 200 4000) false false,
  .scalar 0x3010 7 7 0x301007 .single .u16 2 [.ro, .ro, .rw, .rw] [2] 11 "SAG_FILTER" (.range 1 1000) false false,
  .scalar 0x3010 8 8 0x301008 .single .u32 4 [.ro, .ro, .rw, .rw] [300] 11 "SAG_EXIT_TIME" (.range 10 100000) false false,
  .scalar 0x3011 1 1 0x301101 .single .u8 1 [.ro, .ro, .ro, .ro] [0] 0 "SAG_STAGE" .any false false,
  .scalar 0x3011 2 6 0x301102 .single .u32 4 [.ro, .ro, .ro, .ro] [0, 0, 0, 0, 0] 0 "SAG_ENTRIES" .any false false,
  .scalar 0x3011 7 7 0x301107 .single .u32 4 [.ro, .ro, .ro, .ro] [0] 11 "SAG_FLUSH_TIME" .any false false,
  .scalar 0x3011 8 8 0x301108 .single .u8 1 [.ro, .ro, .ro, .ro] [0] 0 "LAST_FLUSH" .any false false,
  .scalar 0x3020 1 1 0x302001 .single .u8 1 [.ro, .ro, .ro, .ro] [0] 0 "POWER_STATE" .any false false,
  .scalar 0x3020 2 2 0x302002 .single .u8 1 [.ro, .ro, .rw, .rw] [2] 0 "SLEEP_MAX" .special false false,
  .scalar 0x3020 3 3 0x302003 .single .bool 1 [.ro, .ro, .ro, .ro] [0] 0 "HISTORY" .any false false,
  .scalar 0x3020 4 4 0x302004 .single .u32 4 [.ro, .ro, .ro, .ro] [0] 11 "PREDICTED_GAP" .any false false,
  .scalar 0x3020 5 5 0x302005 .single .u8 1 [.ro, .ro, .rw, .rw] [63] 0 "WAKE_MASK" (.masked 0x3F) false false,
  .scalar 0x3020 6 6 0x302006 .single .u8 1 [.ro, .ro, .ro, .ro] [0] 0 "WAKE_CAUSE" .any false false,
  .scalar 0x3020 7 7 0x302007 .single .u32 4 [.ro, .ro, .ro, .ro] [0] 0 "SLOW_EXITS" .any false false,
  .scalar 0x3021 1 4 0x302101 .single .u32 4 [.ro, .ro, .ro, .ro] [0, 0, 0, 0] 0 "STATE_ENTRIES" .any false false,
  .scalar 0x3022 1 4 0x302201 .single .u32 4 [.const, .const, .const, .const] [10, 60, 50000, 30000000] 11 "BREAK_EVEN" .any false false]
/-- Rows 3022h.05 to 3031h.02 of the dictionary. -/
def dictRows5_2 : List Row := [
  .scalar 0x3022 5 8 0x302205 .single .u32 4 [.const, .const, .const, .const] [2, 40, 8000, 120000] 11 "EXIT_LATENCY" .any false false,
  .scalar 0x3030 1 1 0x303001 .single .u8 1 [.ro, .ro, .ro, .ro] [0] 0 "RESET_CAUSE" .any false false,
  .scalar 0x3030 2 2 0x303002 .single .bool 1 [.ro, .ro, .rw, .rw] [0] 0 "VBAT_POR" (.only 0) false false,
  .scalar 0x3030 3 3 0x303003 .single .bool 1 [.ro, .ro, .ro, .ro] [0] 0 "FORWARDING" .any false false,
  .scalar 0x3030 4 4 0x303004 .single .u32 4 [.ro, .ro, .ro, .ro] [0] 11 "STARTUP_TIME" .any false false,
  .scalar 0x3031 1 1 0x303101 .single .u32 4 [.ro, .ro, .ro, .rw] [0] 8 "RTC_SECONDS" .any false false,
  .scalar 0x3031 2 2 0x303102 .single .u32 4 [.ro, .ro, .rw, .rw] [0] 8 "RTC_ALARM" .any false false]
/-- Rows 3100h.01 to 3101h.07 of the dictionary. -/
def dictRows6_0 : List Row := [
  .scalar 0x3100 1 1 0x310001 .port .u16 2 [.ro, .ro, .rw, .rw] [5000] 18 "SENSE_UOHM" (.range 1000 20000) false false,
  .scalar 0x3100 2 2 0x310002 .port .u16 2 [.ro, .ro, .rw, .rw] [1000] 19 "INRUSH_RATE" (.range 100 30000) false false,
  .scalar 0x3100 3 3 0x310003 .port .u16 2 [.ro, .ro, .rw, .rw] [1000] 19 "TRANSITION_RATE" (.range 100 30000) false false,
  .scalar 0x3100 4 4 0x310004 .port .u8 1 [.ro, .ro, .rw, .rw] [120] 7 "ILIM_PCT" (.range 105 150) false false,
  .scalar 0x3100 5 5 0x310005 .port .u16 2 [.ro, .ro, .rw, .rw] [6500] 14 "ILIM_CAP" (.range 1000 7500) false false,
  .scalar 0x3100 6 6 0x310006 .port .u16 2 [.ro, .ro, .rw, .rw] [200] 7 "FAST_TRIP_PCT" (.range 150 400) false false,
  .scalar 0x3100 7 7 0x310007 .port .u32 4 [.ro, .ro, .rw, .rw] [10000] 11 "FAULT_TIME" (.range 100 100000) false false,
  .scalar 0x3100 8 8 0x310008 .port .u8 1 [.ro, .ro, .rw, .rw] [1] 0 "RETRY_MODE" (.oneOf [0,1]) false false,
  .scalar 0x3100 9 9 0x310009 .port .u32 4 [.ro, .ro, .rw, .rw] [1000] 1 "COOL_DOWN" (.range 10 60000) false false,
  .scalar 0x3100 10 10 0x31000A .port .u8 1 [.ro, .ro, .rw, .rw] [8] 0 "RETRY_LIMIT" (.range 0 255) false false,
  .scalar 0x3100 11 11 0x31000B .port .u32 4 [.ro, .ro, .rw, .rw] [4750] 12 "SINK_ON_MV" (.range 4750 48000) false false,
  .scalar 0x3100 12 12 0x31000C .port .u16 2 [.ro, .ro, .rw, .rw] [50] 0 "VSET_SCALE" (.range 20 100) false false,
  .scalar 0x3100 13 13 0x31000D .port .u16 2 [.ro, .ro, .rw, .rw] [200] 14 "REVERSE_MA" (.range 50 2000) false false,
  .scalar 0x3101 1 1 0x310101 .port .u8 1 [.ro, .ro, .ro, .ro] [0] 0 "SRC_PATH_STATE" .any false false,
  .scalar 0x3101 2 2 0x310102 .port .u8 1 [.ro, .ro, .ro, .ro] [0] 0 "SNK_PATH_STATE" .any false false,
  .scalar 0x3101 3 3 0x310103 .port .u16 2 [.ro, .ro, .ro, .ro] [0] 14 "ILIM_MA" .any false false,
  .scalar 0x3101 4 4 0x310104 .port .u16 2 [.ro, .ro, .ro, .ro] [0] 14 "FAST_TRIP_MA" .any false false,
  .scalar 0x3101 5 5 0x310105 .port .bool 1 [.ro, .ro, .ro, .ro] [0] 0 "IN_LIMIT" .any false false,
  .scalar 0x3101 6 6 0x310106 .port .u32 4 [.ro, .ro, .ro, .ro] [0] 11 "FAULT_TIMER" .any false false,
  .scalar 0x3101 7 7 0x310107 .port .bool 1 [.ro, .ro, .ro, .ro] [0] 0 "PG" .any false false]
/-- Rows 3101h.08 to 3102h.11 of the dictionary. -/
def dictRows6_1 : List Row := [
  .scalar 0x3101 8 8 0x310108 .port .u8 1 [.ro, .ro, .ro, .ro] [0] 0 "LAST_FAULT" .any false false,
  .scalar 0x3101 9 9 0x310109 .port .u8 1 [.ro, .ro, .ro, .ro] [0] 0 "RETRIES" .any false false,
  .scalar 0x3101 10 10 0x31010A .port .bool 1 [.ro, .ro, .rw, .rw] [0] 0 "FAULT_CLEAR" .special false false,
  .scalar 0x3102 1 1 0x310201 .port .u8 1 [.ro, .ro, .rw, .rw] [0] 0 "THERMAL_MODE" (.oneOf [0,1]) false false,
  .scalar 0x3102 2 2 0x310202 .port .u8 1 [.ro, .ro, .rw, .rw] [0] 0 "DIODE_PAIR" (.oneOf [0,1]) false false,
  .scalar 0x3102 3 3 0x310203 .port .u32 4 [.ro, .ro, .rw, .rw] [250] 20 "FOSTER_RTH_1" (.range 1 100000) false false,
  .scalar 0x3102 4 4 0x310204 .port .u32 4 [.ro, .ro, .rw, .rw] [1000] 20 "FOSTER_RTH_2" (.range 1 100000) false false,
  .scalar 0x3102 5 5 0x310205 .port .u32 4 [.ro, .ro, .rw, .rw] [12000] 20 "FOSTER_RTH_3" (.range 1 100000) false false,
  .scalar 0x3102 6 6 0x310206 .port .u32 4 [.ro, .ro, .rw, .rw] [800] 11 "FOSTER_TAU_1" (.range 10 10000000) false false,
  .scalar 0x3102 7 7 0x310207 .port .u32 4 [.ro, .ro, .rw, .rw] [12000] 11 "FOSTER_TAU_2" (.range 10 10000000) false false,
  .scalar 0x3102 8 8 0x310208 .port .u32 4 [.ro, .ro, .rw, .rw] [2500000] 11 "FOSTER_TAU_3" (.range 10 10000000) false false,
  .scalar 0x3102 9 9 0x310209 .port .i16 2 [.ro, .ro, .rw, .rw] [700] 21 "REF_TEMP" (.range (-400) 1250) false false,
  .scalar 0x3102 10 10 0x31020A .port .u16 2 [.ro, .ro, .rw, .rw] [100] 22 "MODEL_START_RISE" (.range 0 1000) false false,
  .scalar 0x3102 11 11 0x31020B .port .i16 2 [.ro, .ro, .rw, .rw] [1350] 21 "FET_TEMP_WARN" .special false false,
  .scalar 0x3102 12 12 0x31020C .port .i16 2 [.ro, .ro, .rw, .rw] [1500] 21 "FET_TEMP_LIMIT" (.range 600 1750) false false,
  .scalar 0x3102 13 13 0x31020D .port .i16 2 [.ro, .ro, .ro, .ro] [0] 21 "SRC_FET_TEMP" .any false false,
  .scalar 0x3102 14 14 0x31020E .port .i16 2 [.ro, .ro, .ro, .ro] [0] 21 "SNK_FET_TEMP" .any false false,
  .scalar 0x3102 15 15 0x31020F .port .bool 1 [.ro, .ro, .ro, .ro] [0] 0 "MODEL_HISTORY" .any false false,
  .scalar 0x3102 16 16 0x310210 .port .u8 1 [.ro, .ro, .ro, .ro] [0] 0 "DIODE_STATE" .any false false,
  .scalar 0x3102 17 17 0x310211 .port .u16 2 [.ro, .ro, .rw, .rw] [10080] 23 "DIODE_IDEALITY" (.range 9500 10500) false false]
/-- Rows 3102h.12 to 3104h.07 of the dictionary. -/
def dictRows6_2 : List Row := [
  .scalar 0x3102 18 18 0x310212 .port .i16 2 [.ro, .ro, .rw, .rw] [0] 21 "FET_TEMP_PEAK" (.only (-400)) false false,
  .scalar 0x3103 1 1 0x310301 .port .u32 4 [.ro, .ro, .ro, .ro] [0] 12 "VBUS_MV" .any false false,
  .scalar 0x3103 2 2 0x310302 .port .u32 4 [.ro, .ro, .ro, .ro] [0] 12 "VSRC_MV" .any false false,
  .scalar 0x3103 3 3 0x310303 .port .u32 4 [.ro, .ro, .ro, .ro] [0] 12 "VSNK_MV" .any false false,
  .scalar 0x3103 4 4 0x310304 .port .i32 4 [.ro, .ro, .ro, .ro] [0] 14 "CURRENT_MA" .any false false,
  .scalar 0x3103 5 5 0x310305 .port .i32 4 [.ro, .ro, .ro, .ro] [0] 24 "POWER_MW" .any false false,
  .scalar 0x3103 6 6 0x310306 .port .u64 8 [.ro, .ro, .ro, .ro] [0] 25 "ENERGY_OUT" .any false false,
  .scalar 0x3103 7 7 0x310307 .port .u64 8 [.ro, .ro, .ro, .ro] [0] 25 "ENERGY_IN" .any false false,
  .scalar 0x3103 8 8 0x310308 .port .u32 4 [.ro, .ro, .ro, .ro] [0] 24 "FET_POWER_MW" .any false false,
  .scalar 0x3103 9 9 0x310309 .port .u32 4 [.ro, .ro, .ro, .ro] [0] 11 "SAMPLE_AGE" .any false false,
  .scalar 0x3104 1 1 0x310401 .port .u32 4 [.ro, .ro, .ro, .ro] [0] 0 "FAST_TRIPS" .any false false,
  .scalar 0x3104 2 2 0x310402 .port .u32 4 [.ro, .ro, .ro, .ro] [0] 0 "TIMER_TRIPS" .any false false,
  .scalar 0x3104 3 3 0x310403 .port .u32 4 [.ro, .ro, .ro, .ro] [0] 0 "THERMAL_TRIPS" .any false false,
  .scalar 0x3104 4 4 0x310404 .port .u32 4 [.ro, .ro, .ro, .ro] [0] 0 "REVERSE_EVENTS" .any false false,
  .scalar 0x3104 5 5 0x310405 .port .u32 4 [.ro, .ro, .ro, .ro] [0] 0 "LIMIT_ENTRIES" .any false false,
  .scalar 0x3104 6 6 0x310406 .port .u32 4 [.ro, .ro, .ro, .ro] [0] 0 "RAMPS" .any false false,
  .scalar 0x3104 7 7 0x310407 .port .bool 1 [.ro, .rw, .rw, .rw] [0] 0 "COUNTERS_CLEAR" .special false false]
/-- Rows 4000h.01 to 4020h.02 of the dictionary. -/
def dictRows7_0 : List Row := [
  .scalar 0x4000 1 1 0x400001 .single .u16 2 [.ro, .ro, .ro, .ro] [0] 0 "ACTIVE_TUNNELS" .any false false,
  .scalar 0x4000 2 2 0x400002 .single .u16 2 [.const, .const, .const, .const] [4096] 0 "TUNNEL_LIMIT" .any false false,
  .scalar 0x4000 3 3 0x400003 .single .u16 2 [.ro, .ro, .rw, .rw] [80] 3 "DRAIN_HOLD" (.range 8 8000) false false,
  .scalar 0x4000 4 4 0x400004 .single .u8 1 [.ro, .ro, .ro, .ro] [0] 0 "PATH_STATUS" .any false false,
  .scalar 0x4000 5 5 0x400005 .single .u16 2 [.ro, .ro, .ro, .ro] [0] 0 "STAGED" .any false false,
  ⟨0x4001, 0, 0, 0x400100, .single, .table, 16, [.ro, .ro, .rw, .rw], [0], 0, "PATH_TABLE", .special, false, false, 16384, [⟨0, 1, false, 0⟩, ⟨1, 1, false, 0⟩, ⟨2, 1, false, 0⟩, ⟨3, 1, false, 0⟩, ⟨4, 2, false, 0⟩, ⟨6, 2, false, 0⟩, ⟨8, 2, false, 0⟩, ⟨10, 2, false, 0⟩, ⟨12, 2, false, 0⟩]⟩,
  ⟨0x4002, 0, 0, 0x400200, .single, .table, 68, [.ro, .ro, .rw, .rw], [0], 0, "MCAST_TABLE", .special, false, false, 1024, [⟨0, 4, false, 0⟩, ⟨4, 2, false, 0⟩, ⟨6, 2, false, 0⟩, ⟨8, 2, false, 0⟩, ⟨10, 2, false, 0⟩, ⟨12, 2, false, 0⟩, ⟨14, 2, false, 0⟩, ⟨16, 2, false, 0⟩, ⟨18, 2, false, 0⟩, ⟨20, 2, false, 0⟩, ⟨22, 2, false, 0⟩, ⟨24, 2, false, 0⟩, ⟨26, 2, false, 0⟩, ⟨28, 2, false, 0⟩, ⟨30, 2, false, 0⟩, ⟨32, 2, false, 0⟩, ⟨34, 2, false, 0⟩, ⟨36, 2, false, 0⟩, ⟨38, 2, false, 0⟩, ⟨40, 2, false, 0⟩, ⟨42, 2, false, 0⟩, ⟨44, 2, false, 0⟩, ⟨46, 2, false, 0⟩, ⟨48, 2, false, 0⟩, ⟨50, 2, false, 0⟩, ⟨52, 2, false, 0⟩, ⟨54, 2, false, 0⟩, ⟨56, 2, false, 0⟩, ⟨58, 2, false, 0⟩, ⟨60, 2, false, 0⟩, ⟨62, 2, false, 0⟩, ⟨64, 2, false, 0⟩, ⟨66, 2, false, 0⟩]⟩,
  ⟨0x4003, 0, 0, 0x400300, .single, .table, 28, [.ro, .ro, .rw, .rw], [0], 0, "STAGE_TABLE", .special, false, false, 256, [⟨0, 2, false, 0⟩, ⟨2, 2, false, 0⟩, ⟨4, 8, false, 0⟩, ⟨12, 1, false, 0⟩, ⟨13, 1, false, 0⟩, ⟨14, 1, false, 0⟩, ⟨15, 1, false, 0⟩, ⟨16, 2, false, 0⟩, ⟨18, 2, false, 0⟩, ⟨20, 2, false, 0⟩, ⟨22, 2, false, 0⟩, ⟨24, 2, false, 0⟩]⟩,
  ⟨0x4004, 0, 0, 0x400400, .single, .table, 32, [.ro, .ro, .ro, .ro], [0], 0, "PATH_COUNTERS", .special, false, false, 16384, [⟨0, 8, true, 0⟩, ⟨8, 8, true, 0⟩, ⟨16, 4, true, 0⟩, ⟨20, 4, true, 0⟩, ⟨24, 4, true, 0⟩]⟩,
  .scalar 0x4005 1 1 0x400501 .single .u64 8 [.ro, .ro, .ro, .ro] [0] 0 "DISCARD_UNKNOWN" .any false false,
  .scalar 0x4005 2 2 0x400502 .single .u64 8 [.ro, .ro, .ro, .ro] [0] 0 "DISCARD_WRONG_INPUT" .any false false,
  .scalar 0x4005 3 3 0x400503 .single .u64 8 [.ro, .ro, .ro, .ro] [0] 0 "DISCARD_MALFORMED" .any false false,
  .scalar 0x4005 4 4 0x400504 .single .u64 8 [.ro, .ro, .ro, .ro] [0] 0 "DISCARD_TYPE" .any false false,
  .scalar 0x4005 5 5 0x400505 .single .u64 8 [.ro, .ro, .ro, .ro] [0] 0 "DISCARD_NO_MEMBER" .any false false,
  .scalar 0x4005 6 6 0x400506 .single .u64 8 [.ro, .ro, .ro, .ro] [0] 0 "DISCARD_MGMT_ROUTE" .any false false,
  ⟨0x4006, 0, 0, 0x400600, .single, .table, 1, [.ro, .ro, .ro, .ro], [0], 0, "ADDRESS_ROUTES", .special, false, false, 256, [⟨0, 1, true, 255⟩]⟩,
  ⟨0x4010, 0, 0, 0x401000, .single, .table, 64, [.ro, .ro, .rw, .rw], [0], 0, "ROUTES", .special, false, true, 4096, [⟨0, 1, false, 0⟩, ⟨1, 1, false, 0⟩, ⟨2, 1, false, 0⟩, ⟨3, 1, true, 0⟩, ⟨4, 1, false, 0⟩, ⟨5, 1, false, 0⟩, ⟨6, 1, false, 0⟩, ⟨7, 1, false, 0⟩, ⟨8, 4, false, 0⟩, ⟨12, 2, false, 0⟩, ⟨14, 1, true, 0⟩, ⟨16, 8, true, 0⟩, ⟨24, 2, true, 0⟩, ⟨26, 2, true, 0⟩, ⟨28, 2, true, 0⟩, ⟨30, 2, true, 0⟩, ⟨32, 2, true, 0⟩, ⟨34, 2, true, 0⟩, ⟨36, 2, true, 0⟩, ⟨38, 2, true, 0⟩, ⟨40, 2, true, 0⟩, ⟨42, 2, true, 0⟩, ⟨44, 2, true, 0⟩, ⟨46, 2, true, 0⟩, ⟨48, 2, true, 0⟩, ⟨50, 2, false, 0⟩]⟩,
  .scalar 0x4011 0 0 0x401100 .single .u16 2 [.ro, .ro, .ro, .ro] [0] 0 "ROUTES_ACTIVE" .any false false,
  .scalar 0x4020 1 1 0x402001 .single .u8 1 [.const, .const, .const, .const] [64] 0 "PCIE_NP_WINDOW" .any false false,
  .scalar 0x4020 2 2 0x402002 .single .u16 2 [.const, .const, .const, .const] [2000] 2 "PCIE_RELEASE_WAIT" .any false false]
/-- Rows 4040h.01 to 4040h.06 of the dictionary. -/
def dictRows8_0 : List Row := [
  .scalar 0x4040 1 1 0x404001 .mac .u16 2 [.ro, .ro, .rw, .rw] [1] 0 "PVID" (.range 1 4094) false false,
  .scalar 0x4040 2 2 0x404002 .mac .u8 1 [.ro, .ro, .rw, .rw] [224] 0 "PRIO_PCP" .any false false,
  ⟨0x4040, 3, 3, 0x404003, .mac, .table, 4, [.ro, .ro, .rw, .rw], [0], 0, "VID_MAP", .special, false, false, 4096, [⟨0, 2, false, 65535⟩, ⟨2, 2, false, 65535⟩]⟩,
  .scalar 0x4040 4 4 0x404004 .mac .u64 8 [.ro, .ro, .ro, .ro] [0] 0 "FCS_ERRORS" .any false false,
  .scalar 0x4040 5 5 0x404005 .mac .u64 8 [.ro, .ro, .ro, .ro] [0] 0 "REASSEMBLY_ERRORS" .any false false,
  .scalar 0x4040 6 6 0x404006 .mac .u64 8 [.ro, .ro, .ro, .ro] [0] 0 "NO_TUNNEL" .any false false]
/-- Rows 4050h.00 to 4103h.02 of the dictionary. -/
def dictRows9_0 : List Row := [
  ⟨0x4050, 0, 0, 0x405000, .single, .table, 16, [.ro, .ro, .rw, .rw], [0], 0, "FIO_TX", .special, false, false, 64, [⟨0, 2, false, 65535⟩, ⟨2, 2, false, 0⟩, ⟨4, 2, false, 0⟩, ⟨6, 2, false, 0⟩, ⟨8, 2, false, 0⟩, ⟨12, 4, true, 0⟩]⟩,
  ⟨0x4051, 0, 0, 0x405100, .single, .table, 16, [.ro, .ro, .rw, .rw], [0], 0, "FIO_RX", .special, false, false, 64, [⟨0, 2, false, 65535⟩, ⟨2, 2, false, 0⟩, ⟨4, 2, false, 0⟩, ⟨6, 2, false, 0⟩, ⟨8, 1, false, 0⟩, ⟨9, 1, false, 0⟩, ⟨10, 1, true, 0⟩, ⟨12, 4, true, 0⟩]⟩,
  ⟨0x4052, 0, 0, 0x405200, .single, .table, 1032, [.ro, .rw, .rw, .rw], [0], 0, "ACYC_TX", .special, false, false, 8, [⟨0, 2, false, 0⟩, ⟨2, 2, false, 0⟩, ⟨4, 2, false, 0⟩, ⟨6, 1, false, 0⟩, ⟨8, 1024, false, 0⟩]⟩,
  ⟨0x4053, 0, 0, 0x405300, .single, .table, 1032, [.ro, .rw, .rw, .rw], [0], 0, "ACYC_RX", .special, false, false, 32, [⟨0, 2, false, 0⟩, ⟨2, 2, false, 0⟩, ⟨4, 2, false, 0⟩, ⟨6, 1, false, 0⟩, ⟨8, 1024, false, 0⟩]⟩,
  .scalar 0x4054 1 1 0x405401 .single .u64 8 [.ro, .ro, .ro, .ro] [0] 0 "ACYC_RX_DROPS" .any false false,
  ⟨0x4055, 0, 0, 0x405500, .single, .table, 1, [.ro, .rw, .rw, .rw], [0], 0, "PROCESS_IMAGE", .special, false, false, 65536, []⟩,
  .scalar 0x4100 1 1 0x410001 .single .u32 4 [.const, .const, .const, .const] [196608] 4 "CELLS_TOTAL" .any false false,
  .scalar 0x4100 2 2 0x410002 .single .u32 4 [.ro, .ro, .ro, .ro] [0] 4 "CELLS_USED" .any false false,
  .scalar 0x4100 3 3 0x410003 .single .u32 4 [.ro, .ro, .ro, .ro] [0] 4 "SHARED_FREE" .any false false,
  .scalar 0x4100 4 4 0x410004 .single .u32 4 [.ro, .ro, .rw, .rw] [0] 4 "USED_PEAK" (.only 0) false false,
  .scalar 0x4100 5 5 0x410005 .single .u32 4 [.const, .const, .const, .const] [4096000] 5 "WRITE_BUDGET" .any false false,
  .scalar 0x4100 6 6 0x410006 .single .u32 4 [.ro, .ro, .ro, .ro] [0] 5 "WRITE_COMMITTED" .any false false,
  .scalar 0x4100 7 7 0x410007 .single .u32 4 [.ro, .ro, .ro, .ro] [0] 5 "READ_COMMITTED" .any false false,
  .scalar 0x4100 8 8 0x410008 .single .bool 1 [.ro, .ro, .ro, .ro] [0] 0 "OVERCOMMIT" .any false false,
  ⟨0x4100, 9, 9, 0x410009, .single, .table, 4, [.ro, .ro, .ro, .ro], [0], 5, "INPUT_ALLOWANCE", .special, false, false, 33, [⟨0, 4, true, 0⟩]⟩,
  ⟨0x4100, 10, 10, 0x41000A, .single, .table, 4, [.ro, .ro, .ro, .ro], [0], 5, "OUTPUT_ALLOWANCE", .special, false, false, 33, [⟨0, 4, true, 0⟩]⟩,
  .scalar 0x4101 1 8 0x410101 .single .u8 1 [.ro, .ro, .rw, .rw] [7, 4, 4, 4, 6, 4, 5, 2] 0 "ALPHA_CODE" (.range 0 7) false false,
  .scalar 0x4102 1 8 0x410201 .single .u16 2 [.ro, .ro, .rw, .rw] [8, 16, 16, 8, 32, 8, 8, 4] 4 "RESERVE" .special false false,
  .scalar 0x4103 1 1 0x410301 .single .u32 4 [.ro, .ro, .rw, .rw] [16384] 4 "ISO_POOL" .special false false,
  .scalar 0x4103 2 2 0x410302 .single .u32 4 [.ro, .ro, .ro, .ro] [0] 4 "ISO_USED" .any false false]
/-- Rows 4103h.03 to 4106h.0C of the dictionary. -/
def dictRows9_1 : List Row := [
  .scalar 0x4103 3 3 0x410303 .single .u64 8 [.ro, .ro, .ro, .ro] [0] 0 "ISO_NO_CELL" .any false false,
  .scalar 0x4103 4 4 0x410304 .single .u32 4 [.ro, .ro, .ro, .ro] [0] 4 "ISO_NEED" .any false false,
  .scalar 0x4104 1 1 0x410401 .single .u16 2 [.ro, .ro, .rw, .rw] [8] 4 "CREDIT_CELLS_C0" .special false false,
  .scalar 0x4104 2 2 0x410402 .single .u16 2 [.ro, .ro, .rw, .rw] [96] 4 "CREDIT_CELLS_C4" .special false false,
  .scalar 0x4104 3 3 0x410403 .single .u16 2 [.ro, .ro, .rw, .rw] [256] 4 "CREDIT_CELLS_PCIE" .special false false,
  .scalar 0x4104 4 4 0x410404 .single .u32 4 [.ro, .ro, .ro, .ro] [0] 4 "CREDIT_CELLS_USED" .any false false,
  .scalar 0x4104 5 5 0x410405 .single .u16 2 [.const, .const, .const, .const] [32] 4 "CREDIT_CELLS_MGMT" .any false false,
  ⟨0x4105, 0, 0, 0x410500, .single, .table, 32, [.ro, .ro, .ro, .ro], [0], 0, "QUEUE_STATUS", .special, false, false, 264, [⟨0, 4, true, 0⟩, ⟨4, 4, true, 0⟩, ⟨8, 4, true, 0⟩, ⟨12, 1, true, 0⟩, ⟨16, 8, true, 0⟩, ⟨24, 4, true, 0⟩]⟩,
  .scalar 0x4106 1 1 0x410601 .single .u8 1 [.ro, .ro, .rw, .rw] [8] 6 "SPILL_SIZE" .special false false,
  .scalar 0x4106 2 2 0x410602 .single .u8 1 [.ro, .ro, .rw, .rw] [75] 7 "SPILL_ON" (.range 50 95) false false,
  .scalar 0x4106 3 3 0x410603 .single .u16 2 [.ro, .ro, .rw, .rw] [256] 4 "SPILL_QMIN" (.range 16 16384) false false,
  .scalar 0x4106 4 4 0x410604 .single .u16 2 [.ro, .ro, .rw, .rw] [512] 4 "SPILL_TAIL" (.range 64 4096) false false,
  .scalar 0x4106 5 5 0x410605 .single .u16 2 [.ro, .ro, .rw, .rw] [1024] 4 "REFILL_LOW" (.range 128 8192) false false,
  .scalar 0x4106 6 6 0x410606 .single .u8 1 [.ro, .ro, .rw, .rw] [4] 0 "SPILL_ALPHA_CODE" (.range 0 7) false false,
  .scalar 0x4106 7 7 0x410607 .single .u8 1 [.ro, .ro, .rw, .rw] [3] 0 "SPILL_ENABLE" (.masked 3) false false,
  .scalar 0x4106 8 8 0x410608 .single .u32 4 [.ro, .ro, .ro, .ro] [0] 0 "SPILL_UNITS_USED" .any false false,
  .scalar 0x4106 9 9 0x410609 .single .u32 4 [.const, .const, .const, .const] [400000] 5 "SPILL_RATE_MAX" .any false false,
  .scalar 0x4106 10 10 0x41060A .single .u64 8 [.ro, .ro, .ro, .ro] [0] 0 "SPILL_DROPS" .any false false,
  .scalar 0x4106 11 11 0x41060B .single .u32 4 [.ro, .ro, .ro, .ro] [0] 0 "SPILL_ENTRIES" .any false false,
  .scalar 0x4106 12 12 0x41060C .single .u8 1 [.ro, .ro, .ro, .ro] [0] 0 "SPILL_STATE" .any false false]
/-- Rows 4107h.01 to 4200h.07 of the dictionary. -/
def dictRows9_2 : List Row := [
  .scalar 0x4107 1 1 0x410701 .single .u32 4 [.ro, .ro, .rw, .rw] [3600] 8 "SCRUB_PERIOD" (.range 60 86400) false false,
  .scalar 0x4107 2 2 0x410702 .single .u32 4 [.ro, .ro, .ro, .ro] [0] 0 "SCRUB_PASSES" .any false false,
  .scalar 0x4107 3 3 0x410703 .single .u64 8 [.ro, .ro, .ro, .ro] [0] 0 "SCRUB_CORRECTED" .any false false,
  .scalar 0x4107 4 4 0x410704 .single .u64 8 [.ro, .ro, .ro, .ro] [0] 0 "SCRUB_UNCORRECTABLE" .any false false,
  .scalar 0x4107 5 5 0x410705 .single .u32 4 [.ro, .ro, .ro, .ro] [0] 8 "SCRUB_LAST_PASS" .any false false,
  .scalar 0x4107 6 6 0x410706 .single .u64 8 [.ro, .ro, .ro, .ro] [0] 0 "SCRUB_FORCED" .any false false,
  .scalar 0x4108 1 1 0x410801 .single .u64 8 [.ro, .ro, .ro, .ro] [0] 0 "DEQUEUE_CORRECTED" .any false false,
  .scalar 0x4108 2 2 0x410802 .single .u64 8 [.ro, .ro, .ro, .ro] [0] 0 "DEQUEUE_UNCORRECTABLE" .any false false,
  .scalar 0x4108 3 3 0x410803 .single .u32 4 [.ro, .ro, .ro, .ro] [4294967295] 0 "UE_LAST_CELL" .any false false,
  .scalar 0x4109 1 1 0x410901 .single .u64 8 [.ro, .ro, .ro, .ro] [0] 0 "MCAST_MEMBER_DROPS" .any false false,
  .scalar 0x4109 2 2 0x410902 .single .u32 4 [.ro, .ro, .ro, .ro] [0] 4 "MCAST_CELLS" .any false false,
  .scalar 0x410A 1 1 0x410A01 .single .u16 2 [.const, .const, .const, .const] [100] 9 "STAGE_LATENCY" .any false false,
  .scalar 0x410A 2 2 0x410A02 .single .u16 2 [.const, .const, .const, .const] [70] 2 "TIMED_WRITE_WAIT_MAX" .any false false,
  .scalar 0x4200 1 1 0x420001 .single .u32 4 [.const, .const, .const, .const] [125000] 2 "STROKE_LENGTH" .any false false,
  .scalar 0x4200 2 2 0x420002 .single .u32 4 [.ro, .ro, .rw, .rw] [96000] 2 "DRIVE_WINDOW" .special false false,
  .scalar 0x4200 3 3 0x420003 .single .u32 4 [.const, .const, .const, .const] [16000] 2 "RELEASE_MARGIN" .any false false,
  .scalar 0x4200 4 4 0x420004 .single .u32 4 [.const, .const, .const, .const] [4000] 2 "ISO_GUARD" .any false false,
  .scalar 0x4200 5 5 0x420005 .single .u64 8 [.ro, .ro, .ro, .ro] [0] 0 "PLAN_IN_FORCE" .any false false,
  .scalar 0x4200 6 6 0x420006 .single .u8 1 [.ro, .ro, .ro, .ro] [0] 0 "PLAN_STATE" .any false false,
  .scalar 0x4200 7 7 0x420007 .single .u32 4 [.ro, .ro, .ro, .ro] [0] 0 "PLANS_MISSED" .any false false]
/-- Rows 4200h.08 to 4260h.00 of the dictionary. -/
def dictRows9_3 : List Row := [
  .scalar 0x4200 8 8 0x420008 .single .u32 4 [.ro, .ro, .ro, .ro] [0] 0 "PLANS_WITHDRAWN" .any false false,
  ⟨0x4201, 0, 0, 0x420100, .single, .table, 32, [.ro, .ro, .ro, .ro], [0], 0, "EGRESS_STROKE", .special, false, false, 33, [⟨0, 8, true, 0⟩, ⟨8, 8, true, 0⟩, ⟨16, 8, true, 0⟩, ⟨24, 4, true, 0⟩]⟩,
  .scalar 0x4202 1 1 0x420201 .single .u8 1 [.ro, .ro, .rw, .rw] [8] 3 "DEMAND_WINDOW" (.range 1 64) false false,
  .scalar 0x4202 2 2 0x420202 .single .u8 1 [.const, .const, .const, .const] [64] 3 "DEMAND_REFRESH" .any false false,
  ⟨0x4202, 3, 3, 0x420203, .single, .table, 8, [.ro, .ro, .ro, .ro], [0], 0, "DEMAND_TABLE", .special, false, false, 16384, [⟨0, 4, true, 0⟩, ⟨4, 4, true, 0⟩]⟩,
  ⟨0x4210, 1, 1, 0x421001, .single, .table, 4, [.ro, .ro, .ro, .ro], [0], 10, "DEFICIT", .special, false, false, 264, [⟨0, 4, true, 0⟩]⟩,
  .scalar 0x4210 2 2 0x421002 .single .u8 1 [.ro, .ro, .ro, .ro] [0] 0 "HALTED" .any false false,
  ⟨0x4210, 3, 3, 0x421003, .single, .table, 4, [.ro, .ro, .rw, .rw], [0], 10, "QUANTUM", .special, false, false, 264, [⟨0, 4, false, 0⟩]⟩,
  ⟨0x4220, 0, 0, 0x422000, .single, .table, 16, [.ro, .ro, .rw, .rw], [0], 0, "SHAPERS", .special, false, false, 4096, [⟨0, 1, false, 0⟩, ⟨4, 4, false, 0⟩, ⟨8, 4, true, 4294967295⟩, ⟨12, 4, true, 0⟩]⟩,
  ⟨0x4230, 0, 0, 0x423000, .single, .table, 32, [.ro, .ro, .rw, .rw], [0], 0, "POLICERS", .special, false, false, 4096, [⟨0, 1, false, 0⟩, ⟨4, 4, false, 0⟩, ⟨8, 4, true, 4294967295⟩, ⟨12, 4, true, 0⟩, ⟨16, 8, true, 0⟩, ⟨24, 8, true, 0⟩]⟩,
  .scalar 0x4231 0 0 0x423100 .single .u32 4 [.ro, .ro, .rw, .rw] [2080] 10 "POLICE_SLACK" (.range 0 16640) false false,
  ⟨0x4240, 0, 0, 0x424000, .single, .table, 32, [.ro, .ro, .rw, .rw], [0], 0, "ALLOT", .special, false, true, 4096, [⟨0, 4, false, 0⟩, ⟨4, 4, false, 0⟩, ⟨8, 4, true, 0⟩, ⟨12, 4, true, 0⟩, ⟨16, 4, true, 0⟩, ⟨20, 1, false, 0⟩, ⟨21, 1, true, 0⟩, ⟨22, 1, true, 0⟩, ⟨23, 1, true, 0⟩]⟩,
  ⟨0x4241, 0, 0, 0x424100, .single, .table, 16, [.ro, .ro, .ro, .ro], [0], 0, "LINK_ISO", .special, false, true, 6144, [⟨0, 4, true, 0⟩, ⟨4, 4, true, 0⟩, ⟨8, 4, true, 0⟩, ⟨12, 4, true, 0⟩]⟩,
  .scalar 0x4242 1 1 0x424201 .single .u32 4 [.ro, .ro, .rw, .rw] [0] 2 "PLAN_COMPUTE_MAX" (.only 0) false true,
  .scalar 0x4242 2 2 0x424202 .single .u32 4 [.const, .const, .const, .const] [80000] 2 "PLAN_COMPUTE_LIMIT" .any false false,
  .scalar 0x4242 3 3 0x424203 .single .u64 8 [.ro, .ro, .ro, .ro] [0] 0 "REPORTS_LATE" .any false true,
  .scalar 0x4242 4 4 0x424204 .single .u16 2 [.ro, .ro, .ro, .ro] [0] 0 "FLOOR_SHORT" .any false true,
  .scalar 0x4242 5 5 0x424205 .single .u16 2 [.ro, .ro, .ro, .ro] [0] 0 "INCREASE_PENDING" .any false true,
  ⟨0x4250, 0, 0, 0x425000, .single, .table, 16, [.ro, .ro, .rw, .rw], [0], 0, "GRANTS", .special, false, false, 16384, [⟨0, 4, false, 0⟩, ⟨4, 4, true, 4294967295⟩, ⟨8, 4, true, 0⟩, ⟨12, 1, true, 0⟩]⟩,
  ⟨0x4260, 0, 0, 0x426000, .single, .table, 8, [.ro, .ro, .rw, .rw], [0], 0, "HIST_CONFIG", .special, false, false, 264, [⟨0, 1, false, 0⟩, ⟨1, 1, false, 6⟩, ⟨2, 2, false, 64⟩, ⟨4, 4, false, 0⟩]⟩]
/-- Rows 4261h.00 to 5020h.03 of the dictionary. -/
def dictRows9_4 : List Row := [
  ⟨0x4261, 0, 0, 0x426100, .single, .table, 64, [.ro, .ro, .rw, .rw], [0], 0, "DEPTH_HIST", .special, false, false, 264, [⟨0, 4, false, 0⟩, ⟨4, 4, false, 0⟩, ⟨8, 4, false, 0⟩, ⟨12, 4, false, 0⟩, ⟨16, 4, false, 0⟩, ⟨20, 4, false, 0⟩, ⟨24, 4, false, 0⟩, ⟨28, 4, false, 0⟩, ⟨32, 4, false, 0⟩, ⟨36, 4, false, 0⟩, ⟨40, 4, false, 0⟩, ⟨44, 4, false, 0⟩, ⟨48, 4, false, 0⟩, ⟨52, 4, false, 0⟩, ⟨56, 4, false, 0⟩, ⟨60, 4, false, 0⟩]⟩,
  ⟨0x4262, 0, 0, 0x426200, .single, .table, 64, [.ro, .ro, .rw, .rw], [0], 0, "DELAY_HIST", .special, false, false, 264, [⟨0, 4, false, 0⟩, ⟨4, 4, false, 0⟩, ⟨8, 4, false, 0⟩, ⟨12, 4, false, 0⟩, ⟨16, 4, false, 0⟩, ⟨20, 4, false, 0⟩, ⟨24, 4, false, 0⟩, ⟨28, 4, false, 0⟩, ⟨32, 4, false, 0⟩, ⟨36, 4, false, 0⟩, ⟨40, 4, false, 0⟩, ⟨44, 4, false, 0⟩, ⟨48, 4, false, 0⟩, ⟨52, 4, false, 0⟩, ⟨56, 4, false, 0⟩, ⟨60, 4, false, 0⟩]⟩,
  .scalar 0x5000 1 1 0x500001 .single .u8 1 [.ro, .ro, .ro, .ro] [0] 0 "PCIE_MODE" .any false false,
  .scalar 0x5000 2 2 0x500002 .single .u8 1 [.ro, .ro, .rw, .rw] [5] 0 "SPEED_MAX" (.range 1 5) false false,
  .scalar 0x5000 3 3 0x500003 .single .u8 1 [.ro, .ro, .rw, .rw] [8] 0 "WIDTH_MAX" (.oneOf [1,2,4,8]) false false,
  .scalar 0x5000 4 4 0x500004 .single .u8 1 [.ro, .ro, .ro, .ro] [0] 0 "LINK_SPEED" .any false false,
  .scalar 0x5000 5 5 0x500005 .single .u8 1 [.ro, .ro, .ro, .ro] [0] 0 "LINK_WIDTH" .any false false,
  .scalar 0x5000 6 6 0x500006 .single .bool 1 [.ro, .ro, .rw, .rw] [1] 0 "PCIE_ENABLE" (.range 0 1) false false,
  .scalar 0x5001 1 1 0x500101 .single .u64 8 [.ro, .ro, .ro, .ro] [0] 0 "UR_SENT" .any false false,
  .scalar 0x5001 2 2 0x500102 .single .u64 8 [.ro, .ro, .ro, .ro] [0] 0 "LINK_DOWN_DISCARDS" .any false false,
  .scalar 0x5001 3 3 0x500103 .single .u64 8 [.ro, .ro, .ro, .ro] [0] 0 "INTX_DISCARDS" .any false false,
  .scalar 0x5001 4 4 0x500104 .single .u64 8 [.ro, .ro, .ro, .ro] [0] 0 "MALFORMED_DISCARDS" .any false false,
  .scalar 0x5002 1 1 0x500201 .single .u8 1 [.ro, .ro, .rw, .rw] [4] 0 "APERTURE_SIZE" (.range 0 6) false false,
  .scalar 0x5002 2 2 0x500202 .single .u16 2 [.ro, .ro, .rw, .rw] [40] 1 "APERTURE_TIMEOUT" (.range 1 1000) false false,
  .scalar 0x5002 3 3 0x500203 .single .u8 1 [.ro, .ro, .ro, .ro] [0] 0 "APERTURE_QUEUE" .any false false,
  ⟨0x5010, 0, 0, 0x501000, .single, .table, 8, [.ro, .ro, .rw, .rw], [0], 0, "VDP_TABLE", .special, false, true, 64, [⟨0, 2, false, 65535⟩, ⟨2, 2, false, 0⟩, ⟨4, 1, true, 0⟩, ⟨5, 1, true, 0⟩, ⟨6, 1, true, 0⟩, ⟨7, 1, true, 0⟩]⟩,
  .scalar 0x5011 0 0 0x501100 .single .u8 1 [.ro, .ro, .rw, .rw] [8] 3 "VDP_POLL" (.range 1 64) false false,
  .scalar 0x5020 1 1 0x502001 .single .u8 1 [.ro, .ro, .ro, .ro] [0] 0 "RP_LINK_STATE" .any false false,
  .scalar 0x5020 2 2 0x502002 .single .u8 1 [.ro, .ro, .ro, .ro] [0] 0 "RP_SPEED" .any false false,
  .scalar 0x5020 3 3 0x502003 .single .u8 1 [.ro, .ro, .ro, .ro] [0] 0 "RP_WIDTH" .any false false]
/-- Rows 5020h.04 to 5020h.05 of the dictionary. -/
def dictRows9_5 : List Row := [
  .scalar 0x5020 4 4 0x502004 .single .bool 1 [.ro, .ro, .rw, .rw] [0] 0 "RP_HOT_RESET" .special false false,
  .scalar 0x5020 5 5 0x502005 .single .u64 8 [.ro, .ro, .ro, .ro] [0] 0 "RP_DISCARDS" .any false false]
/-- Rows 5030h.01 to 5030h.0D of the dictionary. -/
def dictRows10_0 : List Row := [
  .scalar 0x5030 1 1 0x503001 .mac .u8 1 [.ro, .ro, .rw, .rw] [1] 0 "MAC_MODE" (.oneOf [0,1,2,3]) false false,
  .scalar 0x5030 2 2 0x503002 .mac .u8 1 [.ro, .ro, .rw, .rw] [0] 0 "FEC_MODE" (.oneOf [0,1,2]) false false,
  .scalar 0x5030 3 3 0x503003 .mac .bool 1 [.ro, .ro, .rw, .rw] [0] 0 "PAUSE_RX" (.range 0 1) false false,
  .scalar 0x5030 4 4 0x503004 .mac .u8 1 [.ro, .ro, .ro, .ro] [0] 0 "MAC_LINK" .any false false,
  .scalar 0x5030 5 5 0x503005 .mac .u8 1 [.ro, .ro, .ro, .ro] [0] 0 "USX_RATE" .any false false,
  .scalar 0x5030 6 6 0x503006 .mac .u64 8 [.ro, .ro, .ro, .ro] [0] 0 "FRAMES_RX" .any false false,
  .scalar 0x5030 7 7 0x503007 .mac .u64 8 [.ro, .ro, .ro, .ro] [0] 0 "FRAMES_TX" .any false false,
  .scalar 0x5030 8 8 0x503008 .mac .u64 8 [.ro, .ro, .ro, .ro] [0] 0 "BYTES_RX" .any false false,
  .scalar 0x5030 9 9 0x503009 .mac .u64 8 [.ro, .ro, .ro, .ro] [0] 0 "BYTES_TX" .any false false,
  .scalar 0x5030 10 10 0x50300A .mac .u64 8 [.ro, .ro, .ro, .ro] [0] 0 "RUNTS" .any false false,
  .scalar 0x5030 11 11 0x50300B .mac .u64 8 [.ro, .ro, .ro, .ro] [0] 0 "OVERSIZE" .any false false,
  .scalar 0x5030 12 12 0x50300C .mac .u64 8 [.ro, .ro, .ro, .ro] [0] 0 "LINK_DOWN_DISCARDS" .any false false,
  .scalar 0x5030 13 13 0x50300D .mac .u64 8 [.ro, .ro, .ro, .ro] [0] 0 "PAUSES_RX" .any false false]
/-- Rows 5040h.01 to 5044h.08 of the dictionary. -/
def dictRows11_0 : List Row := [
  .scalar 0x5040 1 1 0x504001 .single .bool 1 [.ro, .ro, .ro, .rw] [1] 0 "BRIDGE_ENABLE" (.range 0 1) false false,
  .scalar 0x5040 2 2 0x504002 .single .u16 2 [.ro, .ro, .rw, .rw] [2000] 11 "RETRY_TIME" (.range 500 50000) false false,
  .scalar 0x5040 3 3 0x504003 .single .u16 2 [.ro, .ro, .rw, .rw] [200] 11 "BACKOFF_TIME" (.range 50 10000) false false,
  .scalar 0x5040 4 4 0x504004 .single .u16 2 [.ro, .ro, .rw, .rw] [10] 1 "CLAIM_MAX" (.range 1 1000) false false,
  .scalar 0x5040 5 5 0x504005 .single .u8 1 [.ro, .ro, .rw, .rw] [8] 0 "CLAIM_RETRIES" (.range 0 64) false false,
  .scalar 0x5040 6 6 0x504006 .single .u16 2 [.ro, .ro, .rw, .rw] [100] 11 "BULK_IDLE" (.range 10 10000) false false,
  .scalar 0x5040 7 7 0x504007 .single .u16 2 [.ro, .ro, .rw, .rw] [100] 11 "PREFETCH_LIFE" (.range 10 10000) false false,
  .scalar 0x5040 8 8 0x504008 .single .u32 4 [.ro, .ro, .ro, .ro] [0] 0 "INSTANCE" .any false false,
  .scalar 0x5040 9 9 0x504009 .single .u8 1 [.ro, .ro, .ro, .ro] [255] 0 "BUS_CLAIMANT" .any false false,
  ⟨0x5041, 0, 0, 0x504100, .single, .table, 32, [.ro, .ro, .ro, .rw], [0], 0, "TARGET_WINDOWS", .special, false, false, 32, [⟨0, 1, false, 0⟩, ⟨1, 1, false, 0⟩, ⟨2, 1, false, 0⟩, ⟨4, 2, false, 0⟩, ⟨8, 8, false, 0⟩, ⟨16, 8, false, 0⟩]⟩,
  ⟨0x5042, 0, 0, 0x504200, .single, .table, 32, [.ro, .ro, .rw, .rw], [0], 0, "INITIATOR_WINDOWS", .special, false, true, 64, [⟨0, 8, false, 0⟩, ⟨8, 4, false, 0⟩, ⟨12, 1, false, 0⟩, ⟨13, 1, false, 0⟩, ⟨14, 1, false, 0⟩, ⟨16, 8, false, 0⟩]⟩,
  ⟨0x5043, 0, 0, 0x504300, .single, .table, 536, [.ro, .ro, .rw, .rw], [0], 0, "REQUEST_SLOTS", .special, false, false, 4, [⟨0, 1, false, 0⟩, ⟨1, 1, false, 0⟩, ⟨2, 1, false, 0⟩, ⟨3, 1, false, 0⟩, ⟨4, 1, false, 0⟩, ⟨6, 2, false, 0⟩, ⟨8, 8, false, 0⟩, ⟨24, 512, false, 0⟩]⟩,
  .scalar 0x5044 1 1 0x504401 .single .u64 8 [.ro, .ro, .ro, .ro] [0] 0 "RETRANSMITS" .any false false,
  .scalar 0x5044 2 2 0x504402 .single .u64 8 [.ro, .ro, .ro, .ro] [0] 0 "DUPLICATES" .any false false,
  .scalar 0x5044 3 3 0x504403 .single .u64 8 [.ro, .ro, .ro, .ro] [0] 0 "POSTED_GAPS" .any false false,
  .scalar 0x5044 4 4 0x504404 .single .u64 8 [.ro, .ro, .ro, .ro] [0] 0 "STREAM_RESTARTS" .any false false,
  .scalar 0x5044 5 5 0x504405 .single .u64 8 [.ro, .ro, .ro, .ro] [0] 0 "BACKOFFS" .any false false,
  .scalar 0x5044 6 6 0x504406 .single .u64 8 [.ro, .ro, .ro, .ro] [0] 0 "BUSY_ANSWERS" .any false false,
  .scalar 0x5044 7 7 0x504407 .single .u64 8 [.ro, .ro, .ro, .ro] [0] 10 "PREFETCH_DISCARDS" .any false false,
  .scalar 0x5044 8 8 0x504408 .single .u64 8 [.ro, .ro, .ro, .ro] [0] 0 "SE_PREFETCH_DISCARDS" .any false false]
/-- Rows 5044h.09 to 5046h.00 of the dictionary. -/
def dictRows11_1 : List Row := [
  .scalar 0x5044 9 9 0x504409 .single .u64 8 [.ro, .ro, .ro, .ro] [18446744073709551615] 0 "SE_PREFETCH_LAST" .any false false,
  .scalar 0x5044 10 10 0x50440A .single .u64 8 [.ro, .ro, .ro, .ro] [0] 0 "BAD_PACKETS" .any false false,
  ⟨0x5045, 0, 0, 0x504500, .single, .table, 40, [.ro, .ro, .rw, .rw], [0], 0, "ERR_LOG", .special, false, false, 16, [⟨0, 1, false, 0⟩, ⟨1, 1, false, 0⟩, ⟨2, 1, false, 0⟩, ⟨3, 1, false, 0⟩, ⟨4, 4, false, 0⟩, ⟨8, 4, false, 0⟩, ⟨16, 8, false, 0⟩, ⟨24, 8, false, 0⟩]⟩,
  .scalar 0x5046 0 0 0x504600 .single .u8 1 [.ro, .ro, .ro, .ro] [0] 0 "ERR_PENDING" .any false false]
/-- Rows 6000h.01 to 6001h.09 of the dictionary. -/
def dictRows12_0 : List Row := [
  .scalar 0x6000 1 1 0x600001 .head .u8 1 [.ro, .ro, .rw, .rw] [0] 0 "MODE" .special false false,
  .scalar 0x6000 2 2 0x600002 .head .u8 1 [.ro, .ro, .rw, .rw] [3] 0 "LINK_RATE_MAX" (.oneOf [0,1,2,3]) false false,
  .scalar 0x6000 3 3 0x600003 .head .u8 1 [.ro, .ro, .rw, .rw] [4] 0 "LANES_MAX" (.oneOf [1,2,4]) false false,
  .scalar 0x6000 4 4 0x600004 .head .u32 4 [.ro, .rw, .rw, .rw] [0] 0 "BACKGROUND" (.masked 0x3FFFFFFF) false false,
  .scalar 0x6000 5 5 0x600005 .head .u8 1 [.ro, .ro, .rw, .rw] [8] 0 "OUTPUT_BPC" (.oneOf [8,10]) false false,
  .scalar 0x6000 6 6 0x600006 .head .bool 1 [.ro, .ro, .rw, .rw] [0] 0 "PAIR_LOCK" .special false false,
  .scalar 0x6000 7 7 0x600007 .head .u8 1 [.ro, .ro, .rw, .rw] [0] 0 "GENLOCK" (.oneOf [0,1,2]) false false,
  .scalar 0x6000 8 8 0x600008 .head .u8 1 [.ro, .ro, .rw, .rw] [0] 0 "GENLOCK_HEAD" .special false false,
  .scalar 0x6000 9 9 0x600009 .head .u64 8 [.ro, .ro, .rw, .rw] [0] 3 "GENLOCK_EPOCH" .any false false,
  .scalar 0x6000 10 10 0x60000A .head .u8 1 [.ro, .ro, .ro, .ro] [0] 0 "GENLOCK_STATE" .any false false,
  .scalar 0x6000 11 11 0x60000B .head .bool 1 [.ro, .ro, .rw, .rw] [0] 0 "SCAN_GUARD" (.range 0 1) false false,
  .scalar 0x6001 1 1 0x600101 .head .u32 4 [.ro, .ro, .rw, .rw] [148500] 26 "PIXEL_CLOCK" .special false false,
  .scalar 0x6001 2 2 0x600102 .head .u16 2 [.ro, .ro, .rw, .rw] [1920] 0 "HACTIVE" .special false false,
  .scalar 0x6001 3 3 0x600103 .head .u16 2 [.ro, .ro, .rw, .rw] [88] 0 "HFRONT" .special false false,
  .scalar 0x6001 4 4 0x600104 .head .u16 2 [.ro, .ro, .rw, .rw] [44] 0 "HSYNC" .special false false,
  .scalar 0x6001 5 5 0x600105 .head .u16 2 [.ro, .ro, .rw, .rw] [148] 0 "HBACK" .special false false,
  .scalar 0x6001 6 6 0x600106 .head .u16 2 [.ro, .ro, .rw, .rw] [1080] 0 "VACTIVE" .special false false,
  .scalar 0x6001 7 7 0x600107 .head .u8 1 [.ro, .ro, .rw, .rw] [4] 0 "VFRONT" .special false false,
  .scalar 0x6001 8 8 0x600108 .head .u8 1 [.ro, .ro, .rw, .rw] [5] 0 "VSYNC" .special false false,
  .scalar 0x6001 9 9 0x600109 .head .u8 1 [.ro, .ro, .rw, .rw] [36] 0 "VBACK" .special false false]
/-- Rows 6001h.0A to 6004h.07 of the dictionary. -/
def dictRows12_1 : List Row := [
  .scalar 0x6001 10 10 0x60010A .head .u8 1 [.ro, .ro, .rw, .rw] [3] 0 "SYNC_POL" .special false false,
  .scalar 0x6002 1 1 0x600201 .head .u8 1 [.ro, .ro, .ro, .ro] [0] 0 "HEAD_STATE" .any false false,
  .scalar 0x6002 2 2 0x600202 .head .u8 1 [.ro, .ro, .ro, .ro] [255] 0 "LINK_RATE" .any false false,
  .scalar 0x6002 3 3 0x600203 .head .u8 1 [.ro, .ro, .ro, .ro] [0] 0 "LANES" .any false false,
  .scalar 0x6002 4 4 0x600204 .head .u32 4 [.ro, .ro, .ro, .ro] [0] 0 "FRAME_SEQ" .any false false,
  .scalar 0x6002 5 5 0x600205 .head .u16 2 [.ro, .ro, .ro, .ro] [0] 0 "LINE" .any false false,
  .scalar 0x6002 6 6 0x600206 .head .u64 8 [.ro, .ro, .ro, .ro] [0] 0 "UNDERRUNS" .any false false,
  .scalar 0x6002 7 7 0x600207 .head .u32 4 [.ro, .ro, .ro, .ro] [0] 0 "LINK_RETRAINS" .any false false,
  .scalar 0x6002 8 8 0x600208 .head .u32 4 [.ro, .ro, .ro, .ro] [0] 0 "LINK_TRAIN_FAILS" .any false false,
  .scalar 0x6003 1 1 0x600301 .head .u8 1 [.ro, .rw, .rw, .rw] [0] 0 "COMMIT" .special false false,
  .scalar 0x6003 2 2 0x600302 .head .u32 4 [.ro, .ro, .ro, .ro] [0] 0 "SHOW_SEQ" .any false false,
  .scalar 0x6003 3 3 0x600303 .head .u32 4 [.ro, .ro, .ro, .ro] [0] 0 "RETIRED_SEQ" .any false false,
  .scalar 0x6003 4 4 0x600304 .head .u32 4 [.ro, .ro, .ro, .ro] [0] 0 "COMMITS_REPLACED" .any false false,
  .scalar 0x6004 1 1 0x600401 (.layer 0) .bool 1 [.ro, .rw, .rw, .rw] [0] 0 "ENABLE" (.range 0 1) true false,
  .scalar 0x6004 2 2 0x600402 (.layer 0) .u8 1 [.ro, .rw, .rw, .rw] [1] 0 "FORMAT" (.oneOf [0,1,2,3,4]) true false,
  .scalar 0x6004 3 3 0x600403 (.layer 0) .u64 8 [.ro, .rw, .rw, .rw] [67108864] 0 "BASE" .any true false,
  .scalar 0x6004 4 4 0x600404 (.layer 0) .u32 4 [.ro, .rw, .rw, .rw] [7680] 10 "STRIDE" .any true false,
  .scalar 0x6004 5 5 0x600405 (.layer 0) .u16 2 [.ro, .rw, .rw, .rw] [1920] 0 "WIDTH" .any true false,
  .scalar 0x6004 6 6 0x600406 (.layer 0) .u16 2 [.ro, .rw, .rw, .rw] [1080] 0 "HEIGHT" .any true false,
  .scalar 0x6004 7 7 0x600407 (.layer 0) .u16 2 [.ro, .rw, .rw, .rw] [0] 0 "X" .any true false]
/-- Rows 6004h.08 to 6006h.03 of the dictionary. -/
def dictRows12_2 : List Row := [
  .scalar 0x6004 8 8 0x600408 (.layer 0) .u16 2 [.ro, .rw, .rw, .rw] [0] 0 "Y" .any true false,
  .scalar 0x6004 9 9 0x600409 (.layer 0) .u8 1 [.ro, .rw, .rw, .rw] [0] 0 "ALPHA_MODE" (.oneOf [0,1,2]) true false,
  .scalar 0x6004 10 10 0x60040A (.layer 0) .u8 1 [.ro, .rw, .rw, .rw] [255] 0 "PLANE_ALPHA" .any true false,
  .scalar 0x6004 11 11 0x60040B (.layer 0) .u64 8 [.ro, .ro, .ro, .ro] [0] 0 "LATCHED_BASE" .any false false,
  .scalar 0x6004 12 12 0x60040C (.layer 0) .u64 8 [.ro, .ro, .ro, .ro] [0] 0 "RETIRED_BASE" .any false false,
  .scalar 0x6005 1 1 0x600401 (.layer 1) .bool 1 [.ro, .rw, .rw, .rw] [0] 0 "ENABLE" (.range 0 1) true false,
  .scalar 0x6005 2 2 0x600402 (.layer 1) .u8 1 [.ro, .rw, .rw, .rw] [1] 0 "FORMAT" (.oneOf [0,1,2,3,4]) true false,
  .scalar 0x6005 3 3 0x600403 (.layer 1) .u64 8 [.ro, .rw, .rw, .rw] [67108864] 0 "BASE" .any true false,
  .scalar 0x6005 4 4 0x600404 (.layer 1) .u32 4 [.ro, .rw, .rw, .rw] [7680] 10 "STRIDE" .any true false,
  .scalar 0x6005 5 5 0x600405 (.layer 1) .u16 2 [.ro, .rw, .rw, .rw] [1920] 0 "WIDTH" .any true false,
  .scalar 0x6005 6 6 0x600406 (.layer 1) .u16 2 [.ro, .rw, .rw, .rw] [1080] 0 "HEIGHT" .any true false,
  .scalar 0x6005 7 7 0x600407 (.layer 1) .u16 2 [.ro, .rw, .rw, .rw] [0] 0 "X" .any true false,
  .scalar 0x6005 8 8 0x600408 (.layer 1) .u16 2 [.ro, .rw, .rw, .rw] [0] 0 "Y" .any true false,
  .scalar 0x6005 9 9 0x600409 (.layer 1) .u8 1 [.ro, .rw, .rw, .rw] [0] 0 "ALPHA_MODE" (.oneOf [0,1,2]) true false,
  .scalar 0x6005 10 10 0x60040A (.layer 1) .u8 1 [.ro, .rw, .rw, .rw] [255] 0 "PLANE_ALPHA" .any true false,
  .scalar 0x6005 11 11 0x60040B (.layer 1) .u64 8 [.ro, .ro, .ro, .ro] [0] 0 "LATCHED_BASE" .any false false,
  .scalar 0x6005 12 12 0x60040C (.layer 1) .u64 8 [.ro, .ro, .ro, .ro] [0] 0 "RETIRED_BASE" .any false false,
  .scalar 0x6006 1 1 0x600401 (.layer 2) .bool 1 [.ro, .rw, .rw, .rw] [0] 0 "ENABLE" (.range 0 1) true false,
  .scalar 0x6006 2 2 0x600402 (.layer 2) .u8 1 [.ro, .rw, .rw, .rw] [1] 0 "FORMAT" (.oneOf [0,1,2,3,4]) true false,
  .scalar 0x6006 3 3 0x600403 (.layer 2) .u64 8 [.ro, .rw, .rw, .rw] [67108864] 0 "BASE" .any true false]
/-- Rows 6006h.04 to 6007h.0B of the dictionary. -/
def dictRows12_3 : List Row := [
  .scalar 0x6006 4 4 0x600404 (.layer 2) .u32 4 [.ro, .rw, .rw, .rw] [7680] 10 "STRIDE" .any true false,
  .scalar 0x6006 5 5 0x600405 (.layer 2) .u16 2 [.ro, .rw, .rw, .rw] [1920] 0 "WIDTH" .any true false,
  .scalar 0x6006 6 6 0x600406 (.layer 2) .u16 2 [.ro, .rw, .rw, .rw] [1080] 0 "HEIGHT" .any true false,
  .scalar 0x6006 7 7 0x600407 (.layer 2) .u16 2 [.ro, .rw, .rw, .rw] [0] 0 "X" .any true false,
  .scalar 0x6006 8 8 0x600408 (.layer 2) .u16 2 [.ro, .rw, .rw, .rw] [0] 0 "Y" .any true false,
  .scalar 0x6006 9 9 0x600409 (.layer 2) .u8 1 [.ro, .rw, .rw, .rw] [0] 0 "ALPHA_MODE" (.oneOf [0,1,2]) true false,
  .scalar 0x6006 10 10 0x60040A (.layer 2) .u8 1 [.ro, .rw, .rw, .rw] [255] 0 "PLANE_ALPHA" .any true false,
  .scalar 0x6006 11 11 0x60040B (.layer 2) .u64 8 [.ro, .ro, .ro, .ro] [0] 0 "LATCHED_BASE" .any false false,
  .scalar 0x6006 12 12 0x60040C (.layer 2) .u64 8 [.ro, .ro, .ro, .ro] [0] 0 "RETIRED_BASE" .any false false,
  .scalar 0x6007 1 1 0x600401 (.layer 3) .bool 1 [.ro, .rw, .rw, .rw] [0] 0 "ENABLE" (.range 0 1) true false,
  .scalar 0x6007 2 2 0x600402 (.layer 3) .u8 1 [.ro, .rw, .rw, .rw] [1] 0 "FORMAT" (.oneOf [0,1,2,3,4]) true false,
  .scalar 0x6007 3 3 0x600403 (.layer 3) .u64 8 [.ro, .rw, .rw, .rw] [67108864] 0 "BASE" .any true false,
  .scalar 0x6007 4 4 0x600404 (.layer 3) .u32 4 [.ro, .rw, .rw, .rw] [7680] 10 "STRIDE" .any true false,
  .scalar 0x6007 5 5 0x600405 (.layer 3) .u16 2 [.ro, .rw, .rw, .rw] [1920] 0 "WIDTH" .any true false,
  .scalar 0x6007 6 6 0x600406 (.layer 3) .u16 2 [.ro, .rw, .rw, .rw] [1080] 0 "HEIGHT" .any true false,
  .scalar 0x6007 7 7 0x600407 (.layer 3) .u16 2 [.ro, .rw, .rw, .rw] [0] 0 "X" .any true false,
  .scalar 0x6007 8 8 0x600408 (.layer 3) .u16 2 [.ro, .rw, .rw, .rw] [0] 0 "Y" .any true false,
  .scalar 0x6007 9 9 0x600409 (.layer 3) .u8 1 [.ro, .rw, .rw, .rw] [0] 0 "ALPHA_MODE" (.oneOf [0,1,2]) true false,
  .scalar 0x6007 10 10 0x60040A (.layer 3) .u8 1 [.ro, .rw, .rw, .rw] [255] 0 "PLANE_ALPHA" .any true false,
  .scalar 0x6007 11 11 0x60040B (.layer 3) .u64 8 [.ro, .ro, .ro, .ro] [0] 0 "LATCHED_BASE" .any false false]
/-- Rows 6007h.0C to 600Ah.04 of the dictionary. -/
def dictRows12_4 : List Row := [
  .scalar 0x6007 12 12 0x60040C (.layer 3) .u64 8 [.ro, .ro, .ro, .ro] [0] 0 "RETIRED_BASE" .any false false,
  .scalar 0x6008 1 1 0x600801 .head .u32 4 [.ro, .ro, .rw, .rw] [300000] 2 "PRESENT_DELAY" (.range 100000 1000000) false false,
  .scalar 0x6008 2 2 0x600802 .head .u8 1 [.ro, .ro, .rw, .rw] [0] 0 "CAP_FORMAT" .special false false,
  .scalar 0x6008 3 3 0x600803 .head .u8 1 [.ro, .ro, .ro, .ro] [0] 0 "STREAM_STATE" .any false false,
  .scalar 0x6008 4 4 0x600804 .head .u16 2 [.ro, .ro, .rw, .rw] [64] 0 "LOSS_LINES" (.range 1 4096) false false,
  .scalar 0x6008 5 5 0x600805 .head .u64 8 [.ro, .ro, .ro, .ro] [0] 0 "LATE_PACKETS" .any false false,
  .scalar 0x6008 6 6 0x600806 .head .u64 8 [.ro, .ro, .ro, .ro] [0] 0 "FRAMES_CAPTURED" .any false false,
  .scalar 0x6008 7 7 0x600807 .head .u32 4 [.const, .const, .const, .const] [2097152] 10 "STORE_BYTES" .any false false,
  .scalar 0x6009 1 1 0x600901 .head .bool 1 [.ro, .ro, .ro, .ro] [0] 0 "HPD" .any false false,
  .scalar 0x6009 2 2 0x600902 .head .u8 1 [.ro, .ro, .ro, .ro] [0] 0 "SINK_DPCD_REV" .any false false,
  ⟨0x6009, 3, 3, 0x600903, .head, .table, 1, [.ro, .ro, .ro, .ro], [0], 0, "EDID", .special, false, false, 512, [⟨0, 1, true, 0⟩]⟩,
  .scalar 0x6009 4 4 0x600904 .head .u32 4 [.ro, .ro, .ro, .ro] [0] 0 "AUX_ERRORS" .any false false,
  .scalar 0x600A 1 1 0x600A01 .head .u32 4 [.ro, .ro, .ro, .ro] [0] 0 "GUARD_FAULTS" .any false false,
  .scalar 0x600A 2 2 0x600A02 .head .u64 8 [.ro, .ro, .ro, .ro] [18446744073709551615] 0 "GUARD_LAST_ADDR" .any false false,
  .scalar 0x600A 3 3 0x600A03 .head .u8 1 [.ro, .ro, .ro, .ro] [0] 0 "GUARD_LAST_SOURCE" .any false false,
  .scalar 0x600A 4 4 0x600A04 .head .u32 4 [.ro, .ro, .ro, .ro] [0] 0 "GUARD_LAST_SEQ" .any false false]
/-- Rows 6020h.01 to 7003h.00 of the dictionary. -/
def dictRows13_0 : List Row := [
  .scalar 0x6020 1 1 0x602001 .single .u64 8 [.const, .const, .const, .const] [8589934592] 10 "DRAM_SIZE" .any false false,
  .scalar 0x6020 2 2 0x602002 .single .u64 8 [.const, .const, .const, .const] [67108864] 0 "USER_BASE" .any false false,
  .scalar 0x6020 3 3 0x602003 .single .u64 8 [.ro, .ro, .ro, .ro] [6442450944] 0 "USER_END" .any false false,
  .scalar 0x6021 1 1 0x602101 .single .u32 4 [.ro, .ro, .rw, .rw] [21600] 8 "DRAM_SCRUB_PERIOD" (.range 3600 86400) false false,
  .scalar 0x6021 2 2 0x602102 .single .u32 4 [.ro, .ro, .ro, .ro] [0] 0 "DRAM_SCRUB_PASSES" .any false false,
  .scalar 0x6021 3 3 0x602103 .single .u32 4 [.ro, .ro, .ro, .ro] [0] 8 "DRAM_SCRUB_LAST_PASS" .any false false,
  .scalar 0x6021 4 4 0x602104 .single .u64 8 [.ro, .ro, .ro, .ro] [0] 0 "DRAM_SCRUB_FORCED" .any false false,
  .scalar 0x6021 5 5 0x602105 .single .u64 8 [.ro, .ro, .ro, .ro] [0] 0 "DRAM_CORRECTED" .any false false,
  .scalar 0x6021 6 6 0x602106 .single .u64 8 [.ro, .ro, .ro, .ro] [0] 0 "DRAM_UNCORRECTABLE" .any false false,
  .scalar 0x6021 7 7 0x602107 .single .u64 8 [.ro, .ro, .ro, .ro] [18446744073709551615] 0 "DRAM_UE_LAST" .any false false,
  .scalar 0x6022 1 1 0x602201 .single .u32 4 [.const, .const, .const, .const] [1160000] 5 "DRAM_BUDGET" .any false false,
  .scalar 0x6022 2 2 0x602202 .single .u32 4 [.ro, .ro, .ro, .ro] [0] 5 "SCANOUT_COMMITTED" .any false false,
  .scalar 0x6022 3 3 0x602203 .single .bool 1 [.ro, .ro, .ro, .ro] [0] 0 "DRAM_OVERCOMMIT" .any false false,
  .scalar 0x7000 1 1 0x700001 .single .u8 1 [.ro, .ro, .ro, .ro] [0] 0 "KEYSTORE_STATE" .any false false,
  .scalar 0x7000 2 2 0x700002 .single .u8 1 [.ro, .ro, .ro, .ro] [0] 0 "ROOT_STATE" .any false false,
  .scalar 0x7000 3 3 0x700003 .single .bool 1 [.ro, .ro, .ro, .wo] [0] 0 "ROOT_GENERATE" .special false false,
  .scalar 0x7000 4 4 0x700004 .single .bool 1 [.ro, .ro, .ro, .rw] [0] 0 "T1S_KEY_LOAD" (.range 0 1) false false,
  ⟨0x7001, 0, 0, 0x700100, .single, .table, 16, [.ro, .ro, .ro, .ro], [0], 0, "KEY_SLOTS", .special, false, false, 64, [⟨0, 1, true, 0⟩, ⟨1, 1, true, 0⟩, ⟨4, 4, true, 0⟩, ⟨8, 4, true, 0⟩, ⟨12, 4, true, 0⟩]⟩,
  .scalar 0x7002 0 0 0x700200 .single .octets 36 [.ro, .ro, .ro, .wo] [0] 0 "KEY_LOAD" .special false false,
  .scalar 0x7003 0 0 0x700300 .single .u8 1 [.ro, .ro, .ro, .wo] [0] 0 "KEY_ERASE" .special false false]
/-- Rows 7004h.00 to 7040h.01 of the dictionary. -/
def dictRows13_1 : List Row := [
  .scalar 0x7004 0 0 0x700400 .single .octets 56 [.ro, .ro, .ro, .wo] [0] 0 "KEY_DERIVE" .special false false,
  .scalar 0x7005 1 1 0x700501 .single .u8 1 [.ro, .ro, .ro, .ro] [0] 0 "KEY_OP_STATE" .any false false,
  .scalar 0x7005 2 2 0x700502 .single .u32 4 [.ro, .ro, .ro, .ro] [0] 0 "KEY_OPS" .any false false,
  ⟨0x7010, 0, 0, 0x701000, .single, .table, 8, [.ro, .ro, .ro, .rw], [0], 0, "LINK_CRYPTO", .special, false, false, 24, [⟨0, 1, false, 255⟩, ⟨1, 1, true, 0⟩, ⟨2, 1, false, 0⟩, ⟨4, 4, true, 0⟩]⟩,
  .scalar 0x7020 1 1 0x702001 .single .u16 2 [.ro, .ro, .ro, .rw] [448] 0 "TAMPER_ENABLE" .special false false,
  .scalar 0x7020 2 2 0x702002 .single .u8 1 [.ro, .ro, .ro, .rw] [0] 0 "TAMPER_POLARITY" .special false false,
  .scalar 0x7020 3 3 0x702003 .single .u8 1 [.ro, .ro, .ro, .rw] [85] 0 "TAMPER_FILTER" .special false false,
  .scalar 0x7020 4 4 0x702004 .single .bool 1 [.ro, .ro, .ro, .ro] [0] 0 "TAMPER_LATCH" .any false false,
  .scalar 0x7020 5 5 0x702005 .single .u16 2 [.ro, .ro, .ro, .ro] [0] 0 "TAMPER_CAUSE" .any false false,
  .scalar 0x7020 6 6 0x702006 .single .u32 4 [.ro, .ro, .ro, .ro] [0] 8 "TAMPER_TIME" .any false false,
  .scalar 0x7020 7 7 0x702007 .single .u32 4 [.ro, .ro, .ro, .ro] [0] 0 "TAMPER_EVENTS" .any false false,
  .scalar 0x7020 8 8 0x702008 .single .u16 2 [.ro, .ro, .ro, .ro] [0] 0 "TAMPER_ACTIVE" .any false false,
  .scalar 0x7020 9 9 0x702009 .single .bool 1 [.ro, .ro, .ro, .wo] [0] 0 "TAMPER_CLEAR" .special false false,
  .scalar 0x7030 1 1 0x703001 .single .octets 32 [.const, .const, .const, .const] [0] 0 "LMS_PK_HASH_0" .any false false,
  .scalar 0x7030 2 2 0x703002 .single .octets 32 [.const, .const, .const, .const] [0] 0 "LMS_PK_HASH_1" .any false false,
  .scalar 0x7030 3 3 0x703003 .single .u8 1 [.ro, .ro, .ro, .ro] [0] 0 "PK_REVOKED" .any false false,
  .scalar 0x7030 4 4 0x703004 .single .u8 1 [.ro, .ro, .ro, .ro] [0] 0 "ROLLBACK" .any false false,
  .scalar 0x7030 5 5 0x703005 .single .bool 1 [.ro, .ro, .ro, .ro] [0] 0 "COSIGN_LOCK" .any false false,
  .scalar 0x7030 6 6 0x703006 .single .octets 4 [.ro, .ro, .ro, .wo] [0] 0 "FUSE_PROGRAM" .special false false,
  .scalar 0x7040 1 1 0x704001 .single .u8 1 [.ro, .ro, .ro, .ro] [0] 0 "RNG_STATE" .any false false]
/-- Rows 7040h.02 to 8005h.01 of the dictionary. -/
def dictRows13_2 : List Row := [
  .scalar 0x7040 2 2 0x704002 .single .u32 4 [.ro, .ro, .ro, .ro] [0] 0 "RNG_FAILS" .any false false,
  .scalar 0x8000 1 1 0x800001 .single .u32 4 [.ro, .ro, .rw, .rw] [0] 0 "STATUS_0" .special false false,
  .scalar 0x8000 2 2 0x800002 .single .u32 4 [.ro, .ro, .rw, .rw] [0] 0 "STATUS_1" .special false false,
  .scalar 0x8000 3 3 0x800003 .single .u32 4 [.ro, .ro, .rw, .rw] [0] 0 "STATUS_2" .special false false,
  .scalar 0x8001 1 1 0x800101 .single .u8 1 [.ro, .ro, .ro, .ro] [255] 0 "FIRST_SOURCE" .any false false,
  .scalar 0x8001 2 2 0x800102 .single .u8 1 [.ro, .ro, .ro, .ro] [255] 0 "FIRST_UNIT" .any false false,
  .scalar 0x8001 3 3 0x800103 .single .u8 1 [.ro, .ro, .ro, .ro] [0] 0 "FIRST_SEVERITY" .any false false,
  .scalar 0x8001 4 4 0x800104 .single .u64 8 [.ro, .ro, .ro, .ro] [0] 0 "FIRST_DATA" .any false false,
  .scalar 0x8001 5 5 0x800105 .single .u64 8 [.ro, .ro, .ro, .ro] [0] 0 "FIRST_STROKE" .any false false,
  .scalar 0x8001 6 6 0x800106 .single .bool 1 [.ro, .ro, .ro, .ro] [0] 0 "OVERFLOW" .any false false,
  .scalar 0x8001 7 7 0x800107 .single .u32 4 [.ro, .ro, .ro, .ro] [0] 0 "OVERFLOW_COUNT" .any false false,
  .scalar 0x8001 8 8 0x800108 .single .bool 1 [.ro, .ro, .rw, .rw] [0] 0 "FIRST_CLEAR" .special false false,
  ⟨0x8002, 0, 0, 0x800200, .single, .table, 16, [.ro, .ro, .rw, .rw], [0], 0, "SOURCE_CONFIG", .special, false, false, 96, [⟨0, 1, false, 0⟩, ⟨1, 1, false, 3⟩, ⟨2, 2, false, 16⟩, ⟨4, 4, false, 1000⟩, ⟨8, 1, true, 0⟩, ⟨12, 4, true, 0⟩]⟩,
  ⟨0x8003, 0, 0, 0x800300, .single, .table, 32, [.ro, .ro, .ro, .ro], [0], 0, "EVENT_LOG", .special, false, false, 256, [⟨0, 1, true, 0⟩, ⟨1, 1, true, 0⟩, ⟨2, 1, true, 0⟩, ⟨3, 1, true, 0⟩, ⟨4, 4, true, 0⟩, ⟨8, 8, true, 0⟩, ⟨16, 8, true, 0⟩, ⟨24, 4, true, 0⟩, ⟨28, 2, true, 0⟩]⟩,
  .scalar 0x8003 1 1 0x800301 .single .u32 4 [.ro, .ro, .ro, .ro] [0] 0 "EVENT_SEQ" .any false false,
  .scalar 0x8004 1 1 0x800401 .single .u8 1 [.ro, .ro, .rw, .rw] [3] 0 "FAULT_N_LEVEL" (.range 1 5) false false,
  .scalar 0x8004 2 2 0x800402 .single .u8 1 [.ro, .ro, .rw, .rw] [0] 0 "FAULT_N_MODE" (.oneOf [0,1]) false false,
  .scalar 0x8004 3 3 0x800403 .single .bool 1 [.ro, .ro, .rw, .rw] [0] 0 "FAULT_N_RELEASE" .special false false,
  .scalar 0x8004 4 4 0x800404 .single .bool 1 [.ro, .ro, .ro, .ro] [0] 0 "FAULT_N_STATE" .any false false,
  .scalar 0x8005 1 1 0x800501 .single .u32 4 [.ro, .ro, .rw, .rw] [5000] 11 "SHADOW_TAIL" (.range 100 100000) false false]
/-- Rows 8005h.02 to 9002h.07 of the dictionary. -/
def dictRows13_3 : List Row := [
  .scalar 0x8005 2 2 0x800502 .single .u32 4 [.ro, .ro, .rw, .rw] [2000] 1 "SHADOW_MAX" (.range 10 10000) false false,
  .scalar 0x8005 3 3 0x800503 .single .u8 1 [.ro, .ro, .ro, .ro] [0] 0 "FAULTS_IN_PROGRESS" .any false false,
  ⟨0x8005, 4, 4, 0x800504, .single, .table, 16, [.ro, .ro, .ro, .ro], [0], 0, "REACTIONS", .special, false, false, 16, [⟨0, 2, true, 0⟩, ⟨2, 1, true, 0⟩, ⟨3, 1, true, 0⟩, ⟨4, 1, true, 0⟩, ⟨5, 1, true, 0⟩, ⟨8, 8, true, 0⟩]⟩,
  .scalar 0x8006 1 1 0x800601 .single .u32 4 [.ro, .ro, .rw, .rw] [0] 0 "DEGRADED" .special false false,
  .scalar 0x8007 1 1 0x800701 .single .octets 24 [.ro, .ro, .ro, .ro] [0] 0 "FATAL_RECORD" .any false false,
  .scalar 0x8007 2 2 0x800702 .single .u32 4 [.ro, .ro, .ro, .ro] [0] 0 "FATAL_RESETS" .any false false,
  .scalar 0x9000 1 1 0x900001 .single .u8 1 [.ro, .ro, .ro, .ro] [0] 0 "RUNNING_SLOT" .any false false,
  .scalar 0x9000 2 2 0x900002 .single .u8 1 [.ro, .ro, .ro, .ro] [0] 0 "BOOT_SLOT" .any false false,
  .scalar 0x9000 3 3 0x900003 .single .bool 1 [.ro, .ro, .ro, .rw] [0] 0 "UPDATE_LOCK" .special false false,
  .scalar 0x9000 4 4 0x900004 .single .bool 1 [.ro, .ro, .ro, .ro] [0] 0 "LINE_RUN" .any false false,
  .scalar 0x9000 5 5 0x900005 .single .bool 1 [.ro, .ro, .ro, .rw] [1] 0 "FEED_REQUIRE" (.range 0 1) false false,
  ⟨0x9001, 0, 0, 0x900100, .single, .table, 32, [.ro, .ro, .ro, .ro], [0], 0, "SLOT_INFO", .special, false, false, 2, [⟨0, 1, true, 0⟩, ⟨2, 2, true, 0⟩, ⟨4, 4, true, 0⟩, ⟨8, 1, true, 0⟩, ⟨9, 1, true, 0⟩, ⟨12, 4, true, 0⟩, ⟨16, 8, true, 0⟩, ⟨24, 4, true, 0⟩]⟩,
  .scalar 0x9002 0 0 0x900200 .single .octets 16 [.ro, .ro, .wo, .wo] [0] 0 "TRANSFER_OPEN" .special false false,
  .scalar 0x9002 1 1 0x900201 .single .u8 1 [.ro, .ro, .ro, .ro] [0] 0 "TRANSFER_STATE" .any false false,
  .scalar 0x9002 2 2 0x900202 .single .bool 1 [.ro, .ro, .wo, .wo] [0] 0 "TRANSFER_ABORT" .special false false,
  .scalar 0x9002 3 3 0x900203 .single .u16 2 [.ro, .ro, .ro, .ro] [0] 0 "BLOCKS_TOTAL" .any false false,
  .scalar 0x9002 4 4 0x900204 .single .u16 2 [.ro, .ro, .ro, .ro] [0] 0 "BLOCKS_RECEIVED" .any false false,
  ⟨0x9002, 5, 5, 0x900205, .single, .table, 1, [.ro, .ro, .ro, .ro], [0], 0, "BITMAP", .special, false, false, 896, [⟨0, 1, true, 0⟩]⟩,
  .scalar 0x9002 6 6 0x900206 .single .u32 4 [.ro, .ro, .ro, .ro] [0] 0 "BLOCK_CRC_ERRORS" .any false false,
  .scalar 0x9002 7 7 0x900207 .single .bool 1 [.ro, .ro, .wo, .wo] [0] 0 "VERIFY" .special false false]
/-- Rows 9002h.08 to 9006h.03 of the dictionary. -/
def dictRows13_4 : List Row := [
  .scalar 0x9002 8 8 0x900208 .single .u8 1 [.ro, .ro, .ro, .ro] [0] 0 "VERIFY_RESULT" .any false false,
  .scalar 0x9002 9 9 0x900209 .single .octets 8 [.ro, .ro, .ro, .ro] [0] 0 "TRANSFER_ID" .any false false,
  ⟨0x9003, 0, 0, 0x900300, .single, .table, 4100, [.ro, .ro, .rw, .rw], [0], 0, "IMAGE_BLOCKS", .special, false, false, 7168, []⟩,
  .scalar 0x9004 1 1 0x900401 .single .u8 1 [.ro, .ro, .ro, .rw] [0] 0 "ACTIVATE" .special false false,
  .scalar 0x9004 2 2 0x900402 .single .u8 1 [.ro, .ro, .ro, .ro] [0] 0 "ACTIVATION_STATE" .any false false,
  .scalar 0x9004 3 3 0x900403 .single .u8 1 [.ro, .ro, .ro, .ro] [0] 0 "REFUSAL" .any false false,
  .scalar 0x9004 4 4 0x900404 .single .bool 1 [.ro, .ro, .rw, .rw] [0] 0 "CONFIRM" .special false false,
  .scalar 0x9004 5 5 0x900405 .single .bool 1 [.ro, .ro, .ro, .rw] [0] 0 "REVERT" .special false false,
  .scalar 0x9004 6 6 0x900406 .single .u32 4 [.const, .const, .const, .const] [60000] 1 "CONFIRM_WINDOW" .any false false,
  .scalar 0x9004 7 7 0x900407 .single .u32 4 [.ro, .ro, .ro, .ro] [0] 1 "CONFIRM_REMAINING" .any false false,
  .scalar 0x9004 8 8 0x900408 .single .u32 4 [.ro, .ro, .ro, .ro] [0] 11 "HANDOVER_TIME" .any false false,
  .scalar 0x9004 9 9 0x900409 .single .u32 4 [.const, .const, .const, .const] [1000] 11 "HANDOVER_LIMIT" .any false false,
  .scalar 0x9004 10 10 0x90040A .single .u32 4 [.ro, .ro, .ro, .ro] [0] 0 "HANDOVERS" .any false false,
  .scalar 0x9004 11 11 0x90040B .single .u32 4 [.ro, .ro, .ro, .ro] [0] 0 "HANDBACKS" .any false false,
  .scalar 0x9004 12 12 0x90040C .single .bool 1 [.ro, .ro, .ro, .rw] [1] 0 "ROLLBACK_AUTO" (.range 0 1) false false,
  ⟨0x9005, 0, 0, 0x900500, .single, .table, 16, [.ro, .ro, .ro, .ro], [0], 0, "SETTINGS_RECORDS", .special, false, false, 4, [⟨0, 1, true, 0⟩, ⟨2, 2, true, 0⟩, ⟨4, 4, true, 0⟩, ⟨8, 4, true, 0⟩, ⟨12, 4, true, 0⟩]⟩,
  .scalar 0x9005 1 1 0x900501 .single .u16 2 [.ro, .ro, .ro, .ro] [0] 0 "SETTINGS_FORMAT" .any false false,
  .scalar 0x9006 1 1 0x900601 .single .u8 1 [.ro, .ro, .ro, .ro] [0] 0 "RECOVERY_CAUSE" .any false false,
  .scalar 0x9006 2 2 0x900602 .single .bool 1 [.ro, .ro, .ro, .wo] [0] 0 "RECOVERY_REQUEST" .special false false,
  .scalar 0x9006 3 3 0x900603 .single .bool 1 [.ro, .ro, .ro, .wo] [0] 0 "ROM_BOOT" .special false false]
/-- Rows A000h.00 to F002h.01 of the dictionary. -/
def dictRows13_5 : List Row := [
  .scalar 0xA000 0 0 0xA00000 .single .u16 2 [.ro, .ro, .ro, .ro] [0] 0 "TREE_HUBS" .any false false,
  ⟨0xA001, 0, 0, 0xA00100, .single, .table, 16, [.ro, .ro, .ro, .ro], [0], 0, "HUB_TABLE", .special, false, true, 256, [⟨0, 8, true, 0⟩, ⟨8, 1, true, 0⟩, ⟨9, 1, true, 0⟩, ⟨10, 1, true, 0⟩, ⟨11, 1, true, 0⟩, ⟨12, 4, true, 0⟩]⟩,
  .scalar 0xA002 0 0 0xA00200 .single .u32 4 [.ro, .ro, .rw, .rw] [10000] 1 "ADDRESS_HOLD" (.range 0 3600000) false false,
  .scalar 0xA003 0 0 0xA00300 .single .u32 4 [.ro, .ro, .rw, .rw] [1000] 1 "ORPHAN_HOLD" (.range 0 60000) false false,
  .scalar 0xA004 1 1 0xA00401 .single .u64 8 [.ro, .ro, .ro, .ro] [0] 0 "STROKE_NUMBER" .any false false,
  .scalar 0xA004 2 2 0xA00402 .single .bool 1 [.ro, .ro, .ro, .ro] [0] 0 "TIME_LOCK" .any false false,
  .scalar 0xA004 3 3 0xA00403 .single .i32 4 [.ro, .ro, .ro, .ro] [0] 2 "OFFSET" .any false false,
  .scalar 0xA004 4 4 0xA00404 .single .u32 4 [.ro, .ro, .ro, .ro] [0] 2 "PATH_DELAY_DOWN" .any false false,
  .scalar 0xA004 5 5 0xA00405 .single .u32 4 [.ro, .ro, .ro, .ro] [0] 2 "PATH_DELAY_UP" .any false false,
  ⟨0xA005, 0, 0, 0xA00500, .single, .table, 24, [.ro, .ro, .ro, .ro], [0], 0, "EVENT_LOG", .special, false, true, 1024, [⟨0, 2, true, 0⟩, ⟨2, 1, true, 0⟩, ⟨3, 1, true, 0⟩, ⟨4, 1, true, 0⟩, ⟨5, 1, true, 0⟩, ⟨8, 8, true, 0⟩, ⟨16, 8, true, 0⟩]⟩,
  .scalar 0xA006 1 1 0xA00601 .single .u16 2 [.ro, .ro, .ro, .ro] [0] 0 "EVENT_SEQ" .any false false,
  .scalar 0xA006 2 2 0xA00602 .single .bool 1 [.ro, .ro, .rw, .rw] [0] 0 "EVENT_OVERFLOW" (.only 0) false false,
  .scalar 0xA007 0 0 0xA00700 .single .u8 1 [.const, .const, .const, .const] [6] 0 "MAX_DEPTH" .any false false,
  .scalar 0xF000 1 1 0xF00001 .single .u64 8 [.ro, .ro, .ro, .ro] [0] 1 "UPTIME" .any false false,
  .scalar 0xF000 2 2 0xF00002 .single .i16 2 [.ro, .ro, .ro, .ro] [0] 21 "DIE_TEMP" .any false false,
  .scalar 0xF000 3 3 0xF00003 .single .i16 2 [.ro, .ro, .rw, .rw] [0] 21 "DIE_TEMP_PEAK" (.only (-400)) false false,
  .scalar 0xF000 4 4 0xF00004 .single .u8 1 [.ro, .ro, .ro, .ro] [0] 7 "MGMT_LOAD" .any false false,
  .scalar 0xF000 5 5 0xF00005 .single .u8 1 [.ro, .ro, .ro, .ro] [0] 0 "ACTIVE_PAIR" .any false false,
  .scalar 0xF001 0 0 0xF00100 .single .octets 64 [.ro, .rw, .rw, .rw] [0] 0 "ECHO" .any false false,
  .scalar 0xF002 1 4 0xF00201 .single .u64 8 [.ro, .ro, .ro, .ro] [0, 0, 0, 0] 0 "FOP_RX" .any false false]
/-- Rows F002h.05 to F002h.05 of the dictionary. -/
def dictRows13_6 : List Row := [
  .scalar 0xF002 5 8 0xF00205 .single .u64 8 [.ro, .ro, .ro, .ro] [0, 0, 0, 0] 0 "FOP_TX" .any false false]

/-- The whole dictionary, in ascending index order (R315). -/
def dictionary : List Block := [
  ⟨0x1000, 0x1124, 0, 1, dictRows0_0 ++ dictRows0_1 ++ dictRows0_2⟩,
  ⟨0x2000, 0x2178, 16, 24, dictRows1_0 ++ dictRows1_1 ++ dictRows1_2 ++ dictRows1_3⟩,
  ⟨0x2400, 0x245F, 1, 96, dictRows2_0 ++ dictRows2_1⟩,
  ⟨0x2460, 0x2460, 0, 1, dictRows3_0⟩,
  ⟨0x2800, 0x2978, 16, 24, dictRows4_0 ++ dictRows4_1 ++ dictRows4_2⟩,
  ⟨0x3000, 0x3031, 0, 1, dictRows5_0 ++ dictRows5_1 ++ dictRows5_2⟩,
  ⟨0x3100, 0x3274, 16, 24, dictRows6_0 ++ dictRows6_1 ++ dictRows6_2⟩,
  ⟨0x4000, 0x4020, 0, 1, dictRows7_0⟩,
  ⟨0x4040, 0x4041, 1, 2, dictRows8_0⟩,
  ⟨0x4050, 0x5020, 0, 1, dictRows9_0 ++ dictRows9_1 ++ dictRows9_2 ++ dictRows9_3 ++ dictRows9_4 ++ dictRows9_5⟩,
  ⟨0x5030, 0x5031, 1, 2, dictRows10_0⟩,
  ⟨0x5040, 0x5046, 0, 1, dictRows11_0 ++ dictRows11_1⟩,
  ⟨0x6000, 0x60CA, 64, 4, dictRows12_0 ++ dictRows12_1 ++ dictRows12_2 ++ dictRows12_3 ++ dictRows12_4⟩,
  ⟨0x6020, 0xF002, 0, 1, dictRows13_0 ++ dictRows13_1 ++ dictRows13_2 ++ dictRows13_3 ++ dictRows13_4 ++ dictRows13_5 ++ dictRows13_6⟩]

end Sys2Proof.Machine
end

