-- ==== Sys2Proof/Machine/Hidden.lean ====
section
/-! DEFINITION. Registers the spec implies and no object shows: counts a rule keeps, flags of a state a table describes, settings in
force until a change takes effect. Their keys use object numbers from 1000000h. Each stands at 0 after reset unless its line says
otherwise (DESIGN CHOICE, notes/assumptions/3.md). -/
namespace Sys2Proof.Machine

/-! ## Tree -/
/-- The port that carries this hub's JOIN while it is Joining; FFh none (enumeration table). -/
abbrev H.joinPort : Obj := ⟨⟨0x1000001, 0, 0⟩, 1, 255⟩
/-- Joining from Unjoined, not from Asleep or Orphan (1003h.00). -/
abbrev H.joinFresh : Obj := ⟨⟨0x1000002, 0, 0⟩, 1, 0⟩
/-- A REFUSE holds on the port until a detach or an exit from the mode (enumeration table). -/
abbrev H.refused (p : Nat) : Obj := ⟨⟨0x1000003, p, 0⟩, 1, 0⟩
/-- A REFUSE was delivered on the port to the partner below it, and no fresh mode entry or ASSIGN since (R18). -/
abbrev H.refusedBelow (p : Nat) : Obj := ⟨⟨0x1000019, p, 0⟩, 1, 0⟩
/-- The port is a former downstream port of an Orphan (R23). -/
abbrev H.formerDown (p : Nat) : Obj := ⟨⟨0x1000004, p, 0⟩, 1, 0⟩
/-- The last upstream port; FFh none (enumeration table, Orphan). -/
abbrev H.lastUpstream : Obj := ⟨⟨0x1000005, 0, 0⟩, 1, 255⟩
/-- HUB_UID of the partner that joined on the port; 0 none (topology events). -/
abbrev H.partnerUid (p : Nat) : Obj := ⟨⟨0x1000006, p, 0⟩, 8, 0⟩
/-- A DETACH of the port was detected and no later ATTACH (R21). -/
abbrev H.portLost (p : Nat) : Obj := ⟨⟨0x1000007, p, 0⟩, 1, 0⟩
/-- This hub has sent ORPHAN on the port, so that the next JOIN there is an attach though its link never went (R23, R24). -/
abbrev H.rejoinDue (p : Nat) : Obj := ⟨⟨0x10002D3, p, 0⟩, 1, 0⟩
/-- The child on the port is held asleep (R418). -/
abbrev H.childAsleep (p : Nat) : Obj := ⟨⟨0x1000008, p, 0⟩, 1, 0⟩
/-- Consecutive SYNCs within ±20 ns (R25). -/
abbrev H.syncGood : Obj := ⟨⟨0x1000009, 0, 0⟩, 1, 0⟩
/-- Consecutive SYNCs outside ±40 ns (R25). -/
abbrev H.syncBad : Obj := ⟨⟨0x100000A, 0, 0⟩, 1, 0⟩
/-- The moment of the last SYNC (R25). -/
abbrev H.lastSync : Obj := ⟨⟨0x100000B, 0, 0⟩, 8, 0⟩
/-- C1–C3 are held because the hub is not time-locked (R27). -/
abbrev H.isoHold : Obj := ⟨⟨0x100000C, 0, 0⟩, 1, 0⟩
/-- The moment the hub became an Orphan (R23). -/
abbrev H.orphanAt : Obj := ⟨⟨0x100000D, 0, 0⟩, 8, 0⟩
/-- The hub has tunnels that it kept as an Orphan (R23), until it is a Member again or ORPHAN_HOLD has run out. -/
abbrev H.orphanKeeps : Obj := ⟨⟨0x100001A, 0, 0⟩, 1, 0⟩
/-- The ASSIGN the hub accepted marked a return (R24). -/
abbrev H.returned : Obj := ⟨⟨0x100000E, 0, 0⟩, 1, 0⟩
/-- The Cox's record of an ASSIGN sent and not yet acknowledged, by address (R18). -/
abbrev H.assignOpen (a : Nat) : Obj := ⟨⟨0x100000F, a, 0⟩, 1, 0⟩
/-- The ASSIGN open for the address gives back a held address (R24). -/
abbrev H.assignReturn (a : Nat) : Obj := ⟨⟨0x1000010, a, 0⟩, 1, 0⟩
/-- PROBEs sent to the address and not yet answered (R22). -/
abbrev H.probes (a : Nat) : Obj := ⟨⟨0x1000011, a, 0⟩, 1, 0⟩
/-- The write position of the Cox's EVENT_LOG ring (A005h.00). -/
abbrev H.treeLogNext : Obj := ⟨⟨0x1000012, 0, 0⟩, 2, 0⟩
/-- Plans missed in a row (R129). -/
abbrev H.missRun : Obj := ⟨⟨0x1000013, 0, 0⟩, 4, 0⟩
/-- The next REPORT carries plan missed (bit 0), plan withdrawn (bit 1), handover pending (bit 2), handover ended (bit 3) (R120). -/
abbrev H.reportFlags : Obj := ⟨⟨0x1000014, 0, 0⟩, 1, 0⟩
/-- The next REPORT carries the port section (R120): a payload rate or a FIXED sum changed, or none was sent since the hub joined. -/
abbrev H.portSection : Obj := ⟨⟨0x1000015, 0, 0⟩, 1, 1⟩
/-- The hub waits for its first FULL plan after ASSIGN_ACK, or the Cox for its first plan (R132). -/
abbrev H.planAwaited : Obj := ⟨⟨0x1000016, 0, 0⟩, 1, 1⟩
/-- A HOLD plan is in force (R130). -/
abbrev H.planHold : Obj := ⟨⟨0x1000017, 0, 0⟩, 1, 0⟩
/-- Boundaries passed since the Cox's reset, up to 3 (R132). -/
abbrev H.coxBoundaries : Obj := ⟨⟨0x1000018, 0, 0⟩, 1, 0⟩

/-! ## Path table, switch and stroke -/
/-- The boundaries that have passed since the entry's teardown (R69). -/
abbrev H.drainCount (t : Nat) : Obj := ⟨⟨0x1000030, t, 0⟩, 4, 0⟩
/-- A VID_MAP change staged with a record: 0 none, else 1 + MAC + 2 × priority + 4 × VID (R73). -/
abbrev H.stageVid (k : Nat) : Obj := ⟨⟨0x1000031, k, 0⟩, 4, 0⟩
/-- The record came in a STAGE message from the Cox (R456). -/
abbrev H.stageFromCox (k : Nat) : Obj := ⟨⟨0x1000032, k, 0⟩, 1, 0⟩
/-- CREDIT_CELLS_PCIE in force (R84); 256 at reset, the object's default. -/
abbrev H.pcieCellsInForce : Obj := ⟨⟨0x1000033, 0, 0⟩, 2, 256⟩
/-- Packets appended to the queue, modulo its SAMPLE_EVERY (R136). -/
abbrev H.appended (q : Nat) : Obj := ⟨⟨0x1000034, q, 0⟩, 2, 0⟩
/-- A shaper's bucket for one output endpoint (R113). -/
abbrev H.bucket (s e : Nat) : Obj := ⟨⟨0x1000035, s, e⟩, 8, 0⟩
/-- The tokens of a policer, of which TOKENS shows what its 32 bits hold (R115). -/
abbrev H.policerBucket (k : Nat) : Obj := ⟨⟨0x10002E0, k, 0⟩, 8, 0⟩
/-- ISO_NEED stands above ISO_POOL and was reported (R87). -/
abbrev H.isoShort : Obj := ⟨⟨0x1000036, 0, 0⟩, 1, 0⟩
/-- The drive window of the link egress is open (R103). -/
abbrev H.driveOpen (p : Nat) : Obj := ⟨⟨0x1000037, p, 0⟩, 1, 0⟩
/-- Nanoseconds of this drive window spent on C0–C3 (LAST_DRIVE_BUSY). -/
abbrev H.driveBusy (e : Nat) : Obj := ⟨⟨0x1000038, e, 0⟩, 4, 0⟩
/-- The current queue of an egress's deficit round robin, 4–7 as class (R133); C4 at reset (R132). -/
abbrev H.drrClass (e : Nat) : Obj := ⟨⟨0x1000039, e, 0⟩, 1, 4⟩
/-- The current queue has been given its quantum in this visit (R133). -/
abbrev H.drrLooked (e : Nat) : Obj := ⟨⟨0x100003A, e, 0⟩, 1, 0⟩
/-- Boundaries left until a raised fixed grant takes effect (R111). -/
abbrev H.grantWait (t : Nat) : Obj := ⟨⟨0x100003B, t, 0⟩, 1, 0⟩
/-- A raised or lowered fixed grant that waits (R111). -/
abbrev H.grantNew (t : Nat) : Obj := ⟨⟨0x100003C, t, 0⟩, 4, 0⟩
/-- The spill engine's last queue served, and the refill engine's (R95). -/
abbrev H.lastSpill : Obj := ⟨⟨0x100003D, 0, 0⟩, 2, 0⟩
abbrev H.lastRefill : Obj := ⟨⟨0x100003F, 0, 0⟩, 2, 0⟩
/-- The moment a scrub pass of the cell memory began (R98). -/
abbrev H.scrubStart : Obj := ⟨⟨0x100003E, 0, 0⟩, 8, 0⟩
/-- SCRUB_LATE has been raised for the pass that runs, of the cell memory (0) or the DRAM (1) (R386). -/
abbrev H.scrubLate (k : Nat) : Obj := ⟨⟨0x10002DF, k, 0⟩, 1, 0⟩
/-- The scrub has fallen behind its pace and takes forced slots (R98). -/
abbrev H.scrubBehind : Obj := ⟨⟨0x1000040, 0, 0⟩, 1, 0⟩
/-- The last plan's GRANT of a route and the two before it, in the Cox (R28, R123, R127): places 0, 1 and 2. -/
abbrev H.pastGrant (r k : Nat) : Obj := ⟨⟨0x1000041, r, k⟩, 4, 0⟩
/-- The Cox's latest demand report of a route: place 0 the window peak, place 1 whether one arrived, place 2 no history (R118). -/
abbrev H.routeDemand (r k : Nat) : Obj := ⟨⟨0x1000042, r, k⟩, 4, 0⟩
/-- The stroke, plus 1, of the last late report of a hub that REPORTS_LATE counts (R126). -/
abbrev H.lateCounted (hub : Nat) : Obj := ⟨⟨0x10002E1, hub, 0⟩, 9, 0⟩
/-- DRIVE_WINDOW as last written in the Cox, in force with the next plan computed (R104); 0 none. -/
abbrev H.windowNext : Obj := ⟨⟨0x1000043, 0, 0⟩, 4, 0⟩
/-- The next sequence number of an ingress adapter's tunnel (R35, R36). -/
abbrev H.txSeq (t : Nat) : Obj := ⟨⟨0x1000044, t, 0⟩, 2, 0⟩

/-- The role a hub joined with, in the Cox (R18): LEAF refuses a joiner below an Oar. -/
abbrev H.hubRole (a : Nat) : Obj := ⟨⟨0x1000045, a, 0⟩, 1, 0⟩
/-- The port that a hub joined on, as its JOIN gave it (R18). -/
abbrev H.hubUpPort (a : Nat) : Obj := ⟨⟨0x100004C, a, 0⟩, 1, 0⟩
/-- When the hold of an address began (R17). -/
abbrev H.holdAt (a : Nat) : Obj := ⟨⟨0x1000046, a, 0⟩, 8, 0⟩
/-- The next ID of 8192–16383 never freed at a hub since the Cox's start-up (R73). -/
abbrev H.freshId (a : Nat) : Obj := ⟨⟨0x1000047, a, 0⟩, 2, 8192⟩
/-- Non-posted TLPs in flight of a tunnel that this PCIe adapter feeds (R46). -/
abbrev H.npInFlight (t : Nat) : Obj := ⟨⟨0x1000048, t, 0⟩, 1, 0⟩
/-- Non-posted TLPs of a tunnel sent to the PCIe partner and not yet reported back (R46). -/
abbrev H.npSent (t : Nat) : Obj := ⟨⟨0x1000049, t, 0⟩, 1, 0⟩
/-- The credit limit of a class advertised at the last Init, and so in force (R84, R154). -/
abbrev H.creditInForce (p c : Nat) : Obj := ⟨⟨0x100004A, p, c⟩, 2, 0⟩
/-- The Cox has marked a plan HOLD before a handover and computes none until it ends (R130). -/
abbrev H.holdMark : Obj := ⟨⟨0x100004B, 0, 0⟩, 1, 0⟩
/-- The stroke for which the plan now in force counts as effective (R129): a HOLD plan and a handover freeze carry it on (R130, R131). -/
abbrev H.planBase : Obj := ⟨⟨0x100004D, 0, 0⟩, 8, 0⟩
/-- The payload rate and the FIXED sum of an egress as the last port section carried them (R120). -/
abbrev H.rateSent (p : Nat) : Obj := ⟨⟨0x1000050, p, 0⟩, 4, 0⟩
abbrev H.fixedSent (p : Nat) : Obj := ⟨⟨0x1000051, p, 0⟩, 4, 0⟩
/-- A Crew or Oar is in a firmware handover (R131). -/
abbrev H.handover : Obj := ⟨⟨0x100004E, 0, 0⟩, 1, 0⟩

/-! ## Link credits -/
/-- RETURNED, the 12-bit count of credits returned of a class on a port (R155, R156). -/
abbrev H.creditReturned (p c : Nat) : Obj := ⟨⟨0x1000060, p, c⟩, 2, 0⟩
/-- CONSUMED, the 12-bit count of credits consumed (R155). -/
abbrev H.creditConsumed (p c : Nat) : Obj := ⟨⟨0x1000061, p, c⟩, 2, 0⟩
/-- The partner's RETURNED of a class, as its LCTRLs last carried it (R156). -/
abbrev H.peerReturned (p c : Nat) : Obj := ⟨⟨0x1000062, p, c⟩, 2, 0⟩

/-! ## Link layer and lanes -/
/-- SEQ of the next data flit to send (R150). -/
abbrev H.txNext (p : Nat) : Obj := ⟨⟨0x1000070, p, 0⟩, 2, 0⟩
/-- The expected SEQ (R151). -/
abbrev H.rxNext (p : Nat) : Obj := ⟨⟨0x1000071, p, 0⟩, 2, 0⟩
/-- A NAK episode is on (R151, R152). -/
abbrev H.nakOn (p : Nat) : Obj := ⟨⟨0x1000072, p, 0⟩, 1, 0⟩
/-- SEQ of the next flit to send again; 4096 none (R152). -/
abbrev H.replayPtr (p : Nat) : Obj := ⟨⟨0x1000073, p, 0⟩, 2, 4096⟩
/-- The SEQ of the NAK last acted on, 4096 none, and when (R152). -/
abbrev H.nakSeq (p : Nat) : Obj := ⟨⟨0x1000074, p, 0⟩, 2, 4096⟩
abbrev H.nakAt (p : Nat) : Obj := ⟨⟨0x1000075, p, 0⟩, 8, 0⟩
/-- BODY bytes to ignore in the next accepted flit (R162). -/
abbrev H.rxSkip (p : Nat) : Obj := ⟨⟨0x1000076, p, 0⟩, 2, 0⟩
/-- The RETURNED count of a class last carried in LCTRL, and the next class in order (R156). -/
abbrev H.lctrlSent (p c : Nat) : Obj := ⟨⟨0x1000077, p, c⟩, 2, 0⟩
abbrev H.lctrlNext (p : Nat) : Obj := ⟨⟨0x1000078, p, 0⟩, 1, 0⟩
/-- The classes LCTRL has carried in the present run of 8 flits (R156). -/
abbrev H.lctrlMask (p : Nat) : Obj := ⟨⟨0x10000A1, p, 0⟩, 1, 0⟩
/-- This Init carries RESUME 1: it was entered from Retrain (R158). -/
abbrev H.resume (p : Nat) : Obj := ⟨⟨0x1000079, p, 0⟩, 1, 0⟩
/-- A valid Init of the partner was received in this Init: PEER_SEEN (R159). -/
abbrev H.peerSeen (p : Nat) : Obj := ⟨⟨0x100007A, p, 0⟩, 1, 0⟩
/-- When the link entered Retrain (R158). -/
abbrev H.retrainAt (p : Nat) : Obj := ⟨⟨0x100007B, p, 0⟩, 8, 0⟩
/-- A stroke boundary passed while the link was in Retrain (R163). -/
abbrev H.retrainCrossed (p : Nat) : Obj := ⟨⟨0x100007C, p, 0⟩, 1, 0⟩
/-- A Quiet request was sent and not yet answered (R160): 1 in this stroke, 2 before it, so that another may go. -/
abbrev H.quietSent (p : Nat) : Obj := ⟨⟨0x100007D, p, 0⟩, 1, 0⟩
/-- Encryption in force on the link since its Init (R149). -/
abbrev H.crypt (p : Nat) : Obj := ⟨⟨0x100007E, p, 0⟩, 1, 0⟩
/-- This Init's own nonce, 12 bytes, and whether the port has a key for it (R352, R356). -/
abbrev H.ownNonce (p : Nat) : Obj := ⟨⟨0x100007F, p, 0⟩, 12, 0⟩
abbrev H.hasKey (p : Nat) : Obj := ⟨⟨0x1000080, p, 0⟩, 1, 0⟩
/-- This Init's own nonce has been drawn (R352, R365). -/
abbrev H.nonceDrawn (p : Nat) : Obj := ⟨⟨0x10002D4, p, 0⟩, 1, 0⟩
/-- The partner's latest NONCE record since entry into Init: seen, parity, nonce (R353). -/
abbrev H.peerNonceSeen (p : Nat) : Obj := ⟨⟨0x1000081, p, 0⟩, 1, 0⟩
abbrev H.peerParity (p : Nat) : Obj := ⟨⟨0x1000082, p, 0⟩, 1, 0⟩
abbrev H.peerNonce (p : Nat) : Obj := ⟨⟨0x1000083, p, 0⟩, 12, 0⟩
/-- The session keys and salts of a port, 36 bytes each: place 0 transmit, 1 receive, 2 next-epoch transmit, 3 next-epoch receive
(R354, R355). -/
abbrev H.sessionKey (p k : Nat) : Obj := ⟨⟨0x1000084, p, k⟩, 36, 0⟩
/-- The parity of the generation a session's keys come from, and of the next epoch's (R354, R355). -/
abbrev H.keyParity (p k : Nat) : Obj := ⟨⟨0x1000085, p, k⟩, 1, 0⟩
/-- The gear of the bring-up, 1–4; 0 before any (R173). -/
abbrev H.trainGear (p : Nat) : Obj := ⟨⟨0x1000086, p, 0⟩, 1, 0⟩
/-- The gear a rate switch goes to; 0 none (R179). -/
abbrev H.rateTarget (p : Nat) : Obj := ⟨⟨0x1000087, p, 0⟩, 1, 0⟩
/-- Consecutive valid TS on a receive lane in this state (R173). -/
abbrev H.tsRun (p l : Nat) : Obj := ⟨⟨0x1000088, p, l⟩, 1, 0⟩
/-- When the first lane reached 8 valid TS in Polarity and order; 0 not yet (R173). -/
abbrev H.firstLaneAt (p : Nat) : Obj := ⟨⟨0x1000089, p, 0⟩, 8, 0⟩
/-- The figure of merit this side measured on a receive lane (R177). -/
abbrev H.fom (p l : Nat) : Obj := ⟨⟨0x100008A, p, l⟩, 1, 0⟩
/-- The best figure so far, its preset, and the preset requested now, of a receive lane (R177): places 0, 1, 2. -/
abbrev H.eqBest (p l : Nat) : Obj := ⟨⟨0x100008B, p, l⟩, 1, 0⟩
abbrev H.eqBestPreset (p l : Nat) : Obj := ⟨⟨0x100008C, p, l⟩, 1, 15⟩
abbrev H.eqPreset (p l : Nat) : Obj := ⟨⟨0x100008D, p, l⟩, 1, 0⟩
/-- The search on the lane (R177): 0 presets in turn, 1 single coefficient steps, 2 ended. -/
abbrev H.eqSteps (p l : Nat) : Obj := ⟨⟨0x100008E, p, l⟩, 1, 0⟩
/-- The partner's FLAGS and lane-use byte in its last TS (R172). -/
abbrev H.peerTsFlags (p : Nat) : Obj := ⟨⟨0x100008F, p, 0⟩, 1, 0⟩
abbrev H.peerLaneUse (p : Nat) : Obj := ⟨⟨0x1000090, p, 0⟩, 1, 0⟩
/-- The gears the partner has marked failed, and those it offers (R180). -/
abbrev H.peerFailed (p : Nat) : Obj := ⟨⟨0x1000091, p, 0⟩, 1, 0⟩
abbrev H.peerGears (p : Nat) : Obj := ⟨⟨0x1000092, p, 0⟩, 1, 0⟩
/-- Consecutive TS in which the partner selected the target gear (R179). -/
abbrev H.selRun (p : Nat) : Obj := ⟨⟨0x1000093, p, 0⟩, 1, 0⟩
/-- The receive direction runs degraded on the lane given: 0 none, 1 RX0, 2 RX1 (R171). -/
abbrev H.rxDegraded (p : Nat) : Obj := ⟨⟨0x1000094, p, 0⟩, 1, 0⟩
/-- The lane use in force: 0 two lanes each way, 1 this side sends three, 2 this side receives three (R168). -/
abbrev H.laneUseNow (p : Nat) : Obj := ⟨⟨0x1000095, p, 0⟩, 1, 0⟩
/-- Entry into Detect, or into Retrain (LAST_TRAIN_TIME). -/
abbrev H.trainAt (p : Nat) : Obj := ⟨⟨0x1000096, p, 0⟩, 8, 0⟩
/-- Consecutive failures counted in TRAIN_FAILS, and whether the run was reported (R180). -/
abbrev H.failRun (p : Nat) : Obj := ⟨⟨0x1000097, p, 0⟩, 1, 0⟩
/-- A wake of idle lanes is under way (R183). -/
abbrev H.idleWake (p : Nat) : Obj := ⟨⟨0x1000098, p, 0⟩, 1, 0⟩
/-- Consecutive eye scans of a lane below MARGIN_ALARM (R188). -/
abbrev H.lowScans (p l : Nat) : Obj := ⟨⟨0x1000099, p, l⟩, 1, 0⟩
/-- A margin retrain waits for the end of the port's drive window (R188). -/
abbrev H.retunePending (p : Nat) : Obj := ⟨⟨0x100009A, p, 0⟩, 1, 0⟩
/-- The retrain passes through Polarity and order, with full equalisation where no coefficients are kept (R181, R188). -/
abbrev H.fullRetrain (p : Nat) : Obj := ⟨⟨0x100009B, p, 0⟩, 1, 0⟩
/-- The transmitter coefficients kept for a lane and gear since the last Detect, as TX_COEF codes them (R177). -/
abbrev H.keptCoef (p l g : Nat) : Obj := ⟨⟨0x100009C, p, 8 * l + g⟩, 4, 0⟩
/-- The gears at which a receive lane has trained since the last Detect, bit g for Gear g (R177). -/
abbrev H.keptRx (p l : Nat) : Obj := ⟨⟨0x10002BD, p, l⟩, 1, 0⟩
/-- The gear at which the lanes last reached Trained (R371). -/
abbrev H.gearTrained (p : Nat) : Obj := ⟨⟨0x10002BC, p, 0⟩, 1, 0⟩
/-- The gear ceiling of a degrade reaction; 0 none (R371). -/
abbrev H.degradeCeiling (p : Nat) : Obj := ⟨⟨0x100009D, p, 0⟩, 1, 0⟩
/-- A retrain to a raised gear ceiling waits for the next stroke boundary (R184). -/
abbrev H.gearRaise (p : Nat) : Obj := ⟨⟨0x100009E, p, 0⟩, 1, 0⟩
/-- LOS, LOL asserted on a lane: places 0 and 1 (R185). -/
abbrev H.detector (p l k : Nat) : Obj := ⟨⟨0x100009F, p, 2 * l + k⟩, 1, 0⟩
/-- Bits by which BITSLIP has delayed the word boundary, within a frame (R194). -/
abbrev H.wordDelay (p l : Nat) : Obj := ⟨⟨0x10000A0, p, l⟩, 2, 0⟩
/-- Which of the last 64 sync headers of a receive lane were invalid, the latest in bit 0 (R142). -/
abbrev H.headerWindow (p l : Nat) : Obj := ⟨⟨0x10002A0, p, l⟩, 8, 0⟩
/-- A change of gear asked of a link that was not Active, for when it is (R184): 0 none, else one more than the Umpire source it answers, FFh for
none. -/
abbrev H.gearDue (p : Nat) : Obj := ⟨⟨0x10002A1, p, 0⟩, 1, 0⟩
/-- The fault in progress that the change of gear waiting in H.gearDue belongs to (R382). -/
abbrev H.gearFault (p : Nat) : Obj := ⟨⟨0x10002DE, p, 0⟩, 8, 0⟩
/-- The transmit direction runs degraded on the lane given, as the partner's RX_LANES_OK has it: 0 none, 1 TX0, 2 TX1 (R171). -/
abbrev H.txDegraded (p : Nat) : Obj := ⟨⟨0x10002A3, p, 0⟩, 1, 0⟩
/-- COUNT of the next training set of a transmit lane (R172). -/
abbrev H.tsCount (p l : Nat) : Obj := ⟨⟨0x10002A4, p, l⟩, 2, 0⟩
/-- READY, GEAR_SEL, DESKEWED and the own hold conditions as this side's training sets now carry them (R172, R175, R179). -/
abbrev H.readySent (p : Nat) : Obj := ⟨⟨0x10002A5, p, 0⟩, 1, 0⟩
abbrev H.selSent (p : Nat) : Obj := ⟨⟨0x10002A6, p, 0⟩, 1, 0⟩
abbrev H.deskewed (p : Nat) : Obj := ⟨⟨0x10002AB, p, 0⟩, 1, 0⟩
abbrev H.ownHold (p : Nat) : Obj := ⟨⟨0x10002AA, p, 0⟩, 1, 0⟩
/-- The request a receive lane makes of the partner's transmitter, as EQ_REQ codes it (R172, R177). -/
abbrev H.eqReq (p l : Nat) : Obj := ⟨⟨0x10002A7, p, l⟩, 1, 0x0F⟩
/-- The gear ceiling at which the lanes last trained (R181). -/
abbrev H.ceilingAt (p : Nat) : Obj := ⟨⟨0x10002A8, p, 0⟩, 1, 0⟩
/-- When the lanes of a port last became those of an Active link: its adaptation updates count from here (R187). -/
abbrev H.adaptAt (p : Nat) : Obj := ⟨⟨0x10002A9, p, 0⟩, 8, 0⟩
/-- The free value whose trace gives the updates beyond one per microsecond (R187), and the one whose trace gives the errors on a locked checker's line (R192). -/
abbrev H.adaptSeed (p : Nat) : Obj := ⟨⟨0x10002E2, p, 0⟩, 8, 0⟩
abbrev H.chkSeed (p l : Nat) : Obj := ⟨⟨0x10002E3, p, l⟩, 8, 0⟩
/-- Entry into a test mode, from which the generators run (R190). -/
abbrev H.testAt (p : Nat) : Obj := ⟨⟨0x10002AC, p, 0⟩, 8, 0⟩
/-- Where the words of a looped lane begin in its frames, and the first frame's counter: both free (R191, R194). -/
abbrev H.wordPhase (p l : Nat) : Obj := ⟨⟨0x10002AD, p, l⟩, 2, 0⟩
abbrev H.frameBase (p l : Nat) : Obj := ⟨⟨0x10002AE, p, l⟩, 2, 0⟩
/-- At Gears 3 and 4, the logical lane that carries the next flit (R144), and the uncorrectable codewords in a row on a receive lane (R185). -/
abbrev H.wordLane (p : Nat) : Obj := ⟨⟨0x10002D5, p, 0⟩, 1, 0⟩
abbrev H.badWords (p l : Nat) : Obj := ⟨⟨0x10002D6, p, l⟩, 1, 0⟩
/-- The last 32 error bursts a locked checker has met in near-end loopback: their moments, their bits, and the place of the next (R192). -/
abbrev H.burstAt (p l k : Nat) : Obj := ⟨⟨0x10002AF, p, 4 * k + l⟩, 8, 0⟩
abbrev H.burstBits (p l k : Nat) : Obj := ⟨⟨0x10002B0, p, 4 * k + l⟩, 1, 0⟩
abbrev H.burstNext (p l : Nat) : Obj := ⟨⟨0x10002B1, p, l⟩, 1, 0⟩
/-- When the lane's checker locked (R192). -/
abbrev H.chkLockAt (p l : Nat) : Obj := ⟨⟨0x10000A2, p, l⟩, 8, 0⟩
/-- The last Regatta frame with a wrong marker bit at a checker, those bits, and the frames in a row before it with more than 8 (R192). -/
abbrev H.markerFrame (p l : Nat) : Obj := ⟨⟨0x10002D8, p, l⟩, 8, 0⟩
abbrev H.markerBits (p l : Nat) : Obj := ⟨⟨0x10002D9, p, l⟩, 1, 0⟩
abbrev H.markerRun (p l : Nat) : Obj := ⟨⟨0x10002DA, p, l⟩, 1, 0⟩

/-! ## Keys -/
/-- The two halves of a slot of the key store (R342): key, engine mask, GEN, check, and whether the generation holds a key. No object reads a key. -/
abbrev H.halfKey (s k : Nat) : Obj := ⟨⟨0x10000B0, s, k⟩, 32, 0⟩
abbrev H.halfEngines (s k : Nat) : Obj := ⟨⟨0x10000B2, s, k⟩, 1, 0⟩
abbrev H.halfGen (s k : Nat) : Obj := ⟨⟨0x10000B3, s, k⟩, 4, 0⟩
abbrev H.halfFull (s k : Nat) : Obj := ⟨⟨0x10000B4, s, k⟩, 1, 0⟩
abbrev H.halfCheck (s k : Nat) : Obj := ⟨⟨0x10000BE, s, k⟩, 4, 0⟩
/-- The commit marker of a slot: the half in force (R342). -/
abbrev H.commit (s : Nat) : Obj := ⟨⟨0x10000B5, s, 0⟩, 1, 0⟩
/-- The root secret (R350). -/
abbrev H.rootSecret : Obj := ⟨⟨0x10000B1, 0, 0⟩, 32, 0⟩

/-- The digest of the verified image of a slot, stored in VBAT, and whether one is stored (R428). -/
abbrev H.digest (s : Nat) : Obj := ⟨⟨0x10000B6, s, 0⟩, 32, 0⟩
abbrev H.digestHeld (s : Nat) : Obj := ⟨⟨0x10000B7, s, 0⟩, 1, 0⟩
/-- Tamper was detected in Moored or Stowed; its last step runs at wake (R358). -/
abbrev H.tamperAtWake : Obj := ⟨⟨0x10000B8, 0, 0⟩, 1, 0⟩
/-- The seeds of the two mesh LFSRs, 15 bits, and when they were taken (R357, R426); 0 before. -/
abbrev H.meshSeed (k : Nat) : Obj := ⟨⟨0x10000BD, 0, k⟩, 2, 0⟩
abbrev H.meshAt : Obj := ⟨⟨0x10000BF, 0, 0⟩, 8, 0⟩
/-- Bit n: the sessions at level n end once the response under way is sent (R330). -/
abbrev H.endLevels : Obj := ⟨⟨0x10000B9, 0, 0⟩, 1, 0⟩
/-- The session that ends once the response under way is sent; 0 none (R330). -/
abbrev H.endSession : Obj := ⟨⟨0x10000BA, 0, 0⟩, 2, 0⟩
/-- The next session number never used since the last reset (R324). -/
abbrev H.nextSession : Obj := ⟨⟨0x10000BB, 0, 0⟩, 2, 1⟩
/-- One more than the highest COUNTER of an open accepted at a level since the last reset; 0 before the first (R325). -/
abbrev H.openCounter (l : Nat) : Obj := ⟨⟨0x10000BC, l, 0⟩, 5, 0⟩

/-! ## Attach and contracts -/
/-- The unattached port presents Rp (1) or Rd (0) (R198); Rp at first. -/
abbrev H.ccRp (p : Nat) : Obj := ⟨⟨0x1000100, p, 0⟩, 1, 1⟩
/-- The CC pin on which AttachWait or Try sees the partner: 1 CC1, 2 CC2 (R199). -/
abbrev H.ccCand (p : Nat) : Obj := ⟨⟨0x1000101, p, 0⟩, 1, 0⟩
/-- Ra is on the other CC pin (R201). -/
abbrev H.ccRa (p : Nat) : Obj := ⟨⟨0x1000102, p, 0⟩, 1, 0⟩
/-- AttachWait toward Source (1) or Sink (2). -/
abbrev H.attachAs (p : Nat) : Obj := ⟨⟨0x1000103, p, 0⟩, 1, 0⟩
/-- The port sees VBUS at vSafe5V or above. -/
abbrev H.vbusSeen (p : Nat) : Obj := ⟨⟨0x1000104, p, 0⟩, 1, 0⟩
/-- The Try path: 0 none, 1 Try.SRC, 2 TryWait.SNK, 3 Try.SNK, 4 TryWait.SRC (R198). -/
abbrev H.tryPath (p : Nat) : Obj := ⟨⟨0x1000105, p, 0⟩, 1, 0⟩
/-- The termination the Try state waits for is seen (R198). -/
abbrev H.trySeen (p : Nat) : Obj := ⟨⟨0x1000106, p, 0⟩, 1, 0⟩
/-- tCCDebounce has ended while a sink waits for VBUS. -/
abbrev H.debounced (p : Nat) : Obj := ⟨⟨0x1000107, p, 0⟩, 1, 0⟩
/-- tErrorRecovery has ended (R214, R219). -/
abbrev H.erTimer (p : Nat) : Obj := ⟨⟨0x1000108, p, 0⟩, 1, 0⟩
/-- The port is the VCONN source (R201). -/
abbrev H.vconnSource (p : Nat) : Obj := ⟨⟨0x1000109, p, 0⟩, 1, 0⟩
/-- The message exchange in progress: 0 none, 1 capabilities sent, 2 request sent, 3 accepted as sink, 4 accepted as source, 5–7 PR, DR or VCONN swap sent, 8 PR swap as old source before PS_RDY, 9 after it, 10 PR swap as new source before the partner's PS_RDY, 11 after it, 12 VCONN swap, 13 EPR entry sent, 15 Soft_Reset sent. -/
abbrev H.pdx (p : Nat) : Obj := ⟨⟨0x100010a, p, 0⟩, 1, 0⟩
/-- Source_Capabilities sent to a partner that has answered nothing since attach (R212). -/
abbrev H.capCount (p : Nat) : Obj := ⟨⟨0x100010b, p, 0⟩, 1, 0⟩
/-- The partner has sent a PD message since attach (R212). -/
abbrev H.pdSeen (p : Nat) : Obj := ⟨⟨0x100010c, p, 0⟩, 1, 0⟩
/-- The port is in the Soft Reset state of R213. -/
abbrev H.softReset (p : Nat) : Obj := ⟨⟨0x100010d, p, 0⟩, 1, 0⟩
/-- The contract being made: its voltage in mV, current in mA, request object, and whether it is EPR. -/
abbrev H.reqV (p : Nat) : Obj := ⟨⟨0x100010e, p, 0⟩, 4, 0⟩
abbrev H.reqI (p : Nat) : Obj := ⟨⟨0x100010f, p, 0⟩, 2, 0⟩
abbrev H.reqRdo (p : Nat) : Obj := ⟨⟨0x1000110, p, 0⟩, 4, 0⟩
abbrev H.reqEpr (p : Nat) : Obj := ⟨⟨0x1000111, p, 0⟩, 1, 0⟩
/-- The port is in EPR (R204, R205). -/
abbrev H.inEpr (p : Nat) : Obj := ⟨⟨0x1000112, p, 0⟩, 1, 0⟩
/-- The sink set EPR Mode Capable in its Request (R204). -/
abbrev H.sinkEprCap (p : Nat) : Obj := ⟨⟨0x1000113, p, 0⟩, 1, 0⟩
/-- The source's 5 V PDO has EPR Mode Capable set (R205). -/
abbrev H.srcEprCap (p : Nat) : Obj := ⟨⟨0x1000114, p, 0⟩, 1, 0⟩
/-- New Source_Capabilities are due once the exchange in progress ends (R203). -/
abbrev H.capsDue (p : Nat) : Obj := ⟨⟨0x1000115, p, 0⟩, 1, 0⟩
/-- Retries of the swap request after Wait (R215). -/
abbrev H.swapTries (p : Nat) : Obj := ⟨⟨0x1000116, p, 0⟩, 1, 0⟩
/-- The port's swap request waits: 1 after Wait, 2 not yet sent for an exchange in progress, 3 withdrawn (R215, R216); 0 it does not. -/
abbrev H.swapWait (p : Nat) : Obj := ⟨⟨0x1000117, p, 0⟩, 1, 0⟩
/-- Retries of the message under way on SOP, SOP' or SOP'' (R210). -/
abbrev H.goodCrc (p k : Nat) : Obj := ⟨⟨0x1000118, p, k⟩, 1, 0⟩
/-- Retries of Discover Identity on SOP' (R209). -/
abbrev H.cableTries (p : Nat) : Obj := ⟨⟨0x1000119, p, 0⟩, 1, 0⟩
/-- A Hard Reset as Source waits for tSrcRecover (R214). -/
abbrev H.srcRecover (p : Nat) : Obj := ⟨⟨0x100011a, p, 0⟩, 1, 0⟩
/-- A Hard Reset that the port sent is under way (R220). -/
abbrev H.hrSent (p : Nat) : Obj := ⟨⟨0x100011b, p, 0⟩, 1, 0⟩
/-- A Hard Reset as Sink: 1 VBUS still up, 2 VBUS seen down (R378). -/
abbrev H.hrSink (p : Nat) : Obj := ⟨⟨0x100011c, p, 0⟩, 1, 0⟩
/-- The port left EPR for sag stage 1, and 500 ms run (R206). -/
abbrev H.stage1Cut (p : Nat) : Obj := ⟨⟨0x100011d, p, 0⟩, 1, 0⟩
/-- MODE_ENTRY_DELAY runs (R223). -/
abbrev H.modeDelayOn (p : Nat) : Obj := ⟨⟨0x100011e, p, 0⟩, 1, 0⟩
/-- The mode-entry message awaiting its answer: 1 Discover Identity, 2 SVIDs, 3 Modes, 4 Enter Mode, 5 Exit Mode; 0 none. -/
abbrev H.vdmStep (p : Nat) : Obj := ⟨⟨0x100011f, p, 0⟩, 1, 0⟩
/-- Retries of mode entry after no answer (R225). -/
abbrev H.vdmTries (p : Nat) : Obj := ⟨⟨0x1000120, p, 0⟩, 1, 0⟩
/-- The CC pins stand open while the hub is Stowed (R206). -/
abbrev H.ccOpen (p : Nat) : Obj := ⟨⟨0x10002B2, p, 0⟩, 1, 0⟩
/-- The request under way, and the contract in force, is for an SPR PPS APDO (R208). -/
abbrev H.reqPps (p : Nat) : Obj := ⟨⟨0x10002B3, p, 0⟩, 1, 0⟩
abbrev H.ppsNow (p : Nat) : Obj := ⟨⟨0x10002B4, p, 0⟩, 1, 0⟩
/-- Discover Identity on SOP' awaits its answer (R209). -/
abbrev H.cableAsked (p : Nat) : Obj := ⟨⟨0x10002B5, p, 0⟩, 1, 0⟩
/-- The MessageID counter of the port on SOP, SOP' or SOP'' (R213). -/
abbrev H.msgId (p k : Nat) : Obj := ⟨⟨0x10002B6, p, k⟩, 1, 0⟩
/-- The swap in progress is the port's own request (R216). -/
abbrev H.swapOwn (p : Nat) : Obj := ⟨⟨0x10002B7, p, 0⟩, 1, 0⟩
/-- The sink port has left EPR for Moored or Stowed, and its SPR contract is still to come (R205). -/
abbrev H.eprLeft (p : Nat) : Obj := ⟨⟨0x10002D2, p, 0⟩, 1, 0⟩
/-- Capabilities, a swap request or an end of the mode wait on the port until the child there is awake (R418). -/
abbrev H.pdHeld (p : Nat) : Obj := ⟨⟨0x10002D7, p, 0⟩, 1, 0⟩
/-- Sag stage 1 entered during a PR_Swap, and acts when it ends (R220). -/
abbrev H.sagDue (p : Nat) : Obj := ⟨⟨0x10002B8, p, 0⟩, 1, 0⟩
/-- ENTRY_WAIT runs from the latest contract, with no Enter Mode since (R225). -/
abbrev H.entryWaitOn (p : Nat) : Obj := ⟨⟨0x10002B9, p, 0⟩, 1, 0⟩
/-- The first seven PDOs the source offered last (R205). -/
abbrev H.srcCaps (p : Nat) : Obj := ⟨⟨0x10002BA, p, 0⟩, 28, 0⟩

/-! ## Power path and feeds -/
/-- A degrade of the port's power path is in force (R371). -/
abbrev H.powerDegraded (p : Nat) : Obj := ⟨⟨0x10001FF, p, 0⟩, 1, 0⟩
/-- The port sequencer calls for VBUS (R230). -/
abbrev H.srcWanted (p : Nat) : Obj := ⟨⟨0x1000121, p, 0⟩, 1, 0⟩
/-- The converter: 0 off, 1 enabled, 2 settled at its target (R230). -/
abbrev H.convState (p : Nat) : Obj := ⟨⟨0x1000122, p, 0⟩, 1, 0⟩
/-- The voltage PPn_VSET asks for, in mV (R227, R231). -/
abbrev H.convTarget (p : Nat) : Obj := ⟨⟨0x1000123, p, 0⟩, 4, 0⟩
/-- A transition of R231 runs. -/
abbrev H.slewing (p : Nat) : Obj := ⟨⟨0x1000124, p, 0⟩, 1, 0⟩
/-- PPn_DISCH is on (R231). -/
abbrev H.disch (p : Nat) : Obj := ⟨⟨0x1000125, p, 0⟩, 1, 0⟩
/-- A contract below SINK_ON_MV has been accepted since the one in force (R232). -/
abbrev H.snkBlocked (p : Nat) : Obj := ⟨⟨0x1000126, p, 0⟩, 1, 0⟩
/-- The sink pair turned off for reverse current (R232). -/
abbrev H.afterReverse (p : Nat) : Obj := ⟨⟨0x1000127, p, 0⟩, 1, 0⟩
/-- The source pair turned off for reverse current, and no new request has come (R229). -/
abbrev H.srcReversed (p : Nat) : Obj := ⟨⟨0x10002BB, p, 0⟩, 1, 0⟩
/-- The gate of the source (0) or sink (1) pair is more than 1 V above its COM (R228). -/
abbrev H.gateHigh (p k : Nat) : Obj := ⟨⟨0x1000128, p, k⟩, 1, 0⟩
/-- Consecutive ticks out of limit, up to 64 (R238, R240). -/
abbrev H.outTicks (p : Nat) : Obj := ⟨⟨0x1000129, p, 0⟩, 1, 0⟩
/-- The pair has held On for 1 s (R229). -/
abbrev H.onHeld (p : Nat) : Obj := ⟨⟨0x100012a, p, 0⟩, 1, 0⟩
/-- The fast-trip latch (R237). -/
abbrev H.fastLatch (p : Nat) : Obj := ⟨⟨0x100012b, p, 0⟩, 1, 0⟩
/-- The Foster rises in µK, place pole + 4 × pair (R243). -/
abbrev H.rise (p x : Nat) : Obj := ⟨⟨0x100012d, p, x⟩, 8, 0⟩
/-- When the PWRCTL domain powered up (R244). -/
abbrev H.modelAt : Obj := ⟨⟨0x100012e, 0, 0⟩, 8, 0⟩
/-- The moment of the last current sample (3103h.09). -/
abbrev H.sampleAt (p : Nat) : Obj := ⟨⟨0x100012f, p, 0⟩, 8, 0⟩
/-- Energy below 1 mJ, in nJ: out (0), in (1) (R247). -/
abbrev H.energyNj (p k : Nat) : Obj := ⟨⟨0x1000130, p, k⟩, 4, 0⟩
/-- PP_THERMAL_WARN was reported for the pair and is not yet armed again (R239). -/
abbrev H.warned (p k : Nat) : Obj := ⟨⟨0x1000131, p, k⟩, 1, 0⟩
/-- Consecutive bad readings of the sense diode, and which kind: 0 open, 1 short (R245). -/
abbrev H.diodeBad (p : Nat) : Obj := ⟨⟨0x1000132, p, 0⟩, 1, 0⟩
/-- Consecutive good readings (R245). -/
abbrev H.diodeGood (p : Nat) : Obj := ⟨⟨0x1000133, p, 0⟩, 1, 0⟩
/-- The diode's temperature in 0.1 °C (R245). -/
abbrev H.diodeTemp (p : Nat) : Obj := ⟨⟨0x1000134, p, 0⟩, 4, 0⟩
/-- A feed transfer: 0 none, 1 dead time, 2 incoming ramp; 3 the first ramp of the bus (R249, R250). -/
abbrev H.feedPhase : Obj := ⟨⟨0x1000135, 0, 0⟩, 1, 0⟩
/-- The feed a transfer goes to: 1 FA, 2 FB. -/
abbrev H.feedTarget : Obj := ⟨⟨0x1000136, 0, 0⟩, 1, 0⟩
/-- The selected feed is lost (R249, R252): 1 by undervoltage, 2 by over-voltage or reverse current; 0 it is not. -/
abbrev H.feedLost : Obj := ⟨⟨0x1000137, 0, 0⟩, 1, 0⟩

/-! ## Update and settings -/
/-- The moment LINE_RUN last fell (R400). -/
abbrev H.lineLowAt : Obj := ⟨⟨0x1000200, 0, 0⟩, 8, 0⟩
/-- The standby pair is held in reset by its isolation (R370, R400). -/
abbrev H.standbyHeld : Obj := ⟨⟨0x1000201, 0, 0⟩, 1, 0⟩
/-- 10 s after the last isolation of the standby pair (R400). -/
abbrev H.standbyIsolatedAt : Obj := ⟨⟨0x1000202, 0, 0⟩, 8, 0⟩
/-- The settings slot that holds the record converted for the new image; FFh none (R401, R406). -/
abbrev H.convertedRecord : Obj := ⟨⟨0x1000203, 0, 0⟩, 1, 255⟩
/-- The activation under way was made with ACTIVATE 02h (R401). -/
abbrev H.deferred : Obj := ⟨⟨0x1000204, 0, 0⟩, 1, 0⟩

/-! ## PCIe and Ethernet -/
/-- A dword of a function's configuration space as written: function 0, 1, or 2 + v (R253, R255). -/
abbrev H.cfg (f reg : Nat) : Obj := ⟨⟨0x1000220, f, reg⟩, 4, 0⟩
/-- Slot Status of a virtual downstream port: [0] Presence Detect, [1] its change, [2] Link Active, [3] its change (R256). -/
abbrev H.slotStatus (v : Nat) : Obj := ⟨⟨0x1000221, v, 0⟩, 1, 0⟩
/-- The far root port was up at the last poll (R256). -/
abbrev H.farUp (v : Nat) : Obj := ⟨⟨0x1000222, v, 0⟩, 1, 0⟩
/-- This hub has claimed its own bus for a claim of the hub at an address (R276, R282). -/
abbrev H.claimOn (a : Nat) : Obj := ⟨⟨0x10002BE, a, 0⟩, 1, 0⟩
/-- An entry of the hub function's MSI-X table (R262): address, data, Vector Control; masked at first. -/
abbrev H.msixAddr (v : Nat) : Obj := ⟨⟨0x10002C0, v, 0⟩, 8, 0⟩
abbrev H.msixData (v : Nat) : Obj := ⟨⟨0x10002C1, v, 0⟩, 4, 0⟩
abbrev H.msixControl (v : Nat) : Obj := ⟨⟨0x10002C2, v, 0⟩, 4, 1⟩
/-- The pending-bit array of MSI-X (R262). -/
abbrev H.msixPending : Obj := ⟨⟨0x10002C3, 0, 0⟩, 4, 0⟩
/-- A function's error registers (R254): 0 Uncorrectable and 1 Correctable Error Status, 2 First Error Pointer, 3–6 Header Log, 7 Device Status. -/
abbrev H.aer (f k : Nat) : Obj := ⟨⟨0x10002C4, f, k⟩, 4, 0⟩
/-- APERTURE_SIZE taken at the last Hot Reset or training from Down (R262). -/
abbrev H.apertureInForce : Obj := ⟨⟨0x1000223, 0, 0⟩, 1, 4⟩
/-- TLPs of a kind received since the last training, and header credits returned for them (R261). -/
abbrev H.pcieTaken (k : Nat) : Obj := ⟨⟨0x1000224, k, 0⟩, 8, 0⟩
abbrev H.pcieGiven (k : Nat) : Obj := ⟨⟨0x1000225, k, 0⟩, 8, 0⟩
/-- The PCIe adapter withholds posted and non-posted credit (R423). -/
abbrev H.quiesced : Obj := ⟨⟨0x1000226, 0, 0⟩, 1, 0⟩
/-- A MAC's release of frames is stopped by a PAUSE (R265). -/
abbrev H.paused (m : Nat) : Obj := ⟨⟨0x1000227, m, 0⟩, 1, 0⟩
/-- The PCIe link is down (0), in training (1) or up (2). -/
abbrev H.pcieLink : Obj := ⟨⟨0x1000228, 0, 0⟩, 1, 0⟩

/-! ## Display heads and DRAM -/
/-- The layer that a head has committed (set 0) and the one it has latched (set 1), field i of layer l (R292, R293): 0 ENABLE, 1 FORMAT,
2 BASE, 3 STRIDE, 4 WIDTH, 5 HEIGHT, 6 X, 7 Y, 8 ALPHA_MODE, 9 PLANE_ALPHA. -/
abbrev H.layer (set h l i : Nat) : Obj := ⟨⟨0x1000240 + set, 4 * h + l, i⟩, 8, 0⟩
/-- Buffers that later commits replaced since the last latch edge (R294). -/
abbrev H.replaced (h : Nat) : Obj := ⟨⟨0x1000242, h, 0⟩, 4, 0⟩
/-- The head is in scan-out and its first latch edge is still to come (R287). -/
abbrev H.firstEdge (h : Nat) : Obj := ⟨⟨0x1000243, h, 0⟩, 1, 0⟩
/-- HPD is held low at a mode change into or out of capture, and the new mode has not started (R285). -/
abbrev H.hpdHold (h : Nat) : Obj := ⟨⟨0x1000244, h, 0⟩, 1, 0⟩
/-- The last attribute packet of a pass-through head, its 48 bytes (R301, R303), and whether one came since the mode began. -/
abbrev H.streamAttr (h : Nat) : Obj := ⟨⟨0x1000245, h, 0⟩, 48, 0⟩
abbrev H.attrSeen (h : Nat) : Obj := ⟨⟨0x1000246, h, 0⟩, 1, 0⟩
/-- The capture frame counter (R301). -/
abbrev H.captureFrame (h : Nat) : Obj := ⟨⟨0x1000247, h, 0⟩, 4, 0⟩
/-- The lines that have underrun, a bit for each: of a scan-out head in its frame (k 0), of a pass-through head in the frames of even and of odd
number (R299, R303). -/
abbrev H.lateLines (h k : Nat) : Obj := ⟨⟨0x1000248, h, k⟩, 1024, 0⟩
/-- The number of attribute packets a pass-through head has received, and of those whose frame has opened at its output (R303). -/
abbrev H.streamFrame (h : Nat) : Obj := ⟨⟨0x10002C6, h, 0⟩, 8, 0⟩
abbrev H.shownFrame (h : Nat) : Obj := ⟨⟨0x10002C7, h, 0⟩, 8, 0⟩
/-- The moment the line last begun at a pass-through head's output began (R303). -/
abbrev H.lineStart (h : Nat) : Obj := ⟨⟨0x10002C8, h, 0⟩, 8, 0⟩
/-- The number of the line that began at `lineStart` (R303). -/
abbrev H.lineAt (h : Nat) : Obj := ⟨⟨0x10002DB, h, 0⟩, 2, 0⟩
/-- The first column of an underrun line of a scan-out head whose pixel was missing (R299): no command says which, so it is free. -/
abbrev H.underrunFrom (h line : Nat) : Obj := ⟨⟨0x10002DC, h, line⟩, 2, 0⟩
/-- The moment of a scan-out head's last latch edge, and that of the frame start that follows it (R287, R307). -/
abbrev H.edgeAt (h : Nat) : Obj := ⟨⟨0x10002C9, h, 0⟩, 8, 0⟩
abbrev H.frameStart (h : Nat) : Obj := ⟨⟨0x10002CA, h, 0⟩, 8, 0⟩
/-- A sag stage has stopped a scan-out head's fetching or a capture head's sending, and no frame has begun since it cleared (R308). -/
abbrev H.haltShown (h : Nat) : Obj := ⟨⟨0x10002CB, h, 0⟩, 1, 0⟩
/-- One more than BASE of the buffer that a later commit of the layer replaced since the last latch edge (R294, R295); 0 none. -/
abbrev H.replacedBase (h l : Nat) : Obj := ⟨⟨0x10002CC, h, l⟩, 8, 0⟩
/-- The bytes of a row of layer l of head h (`hl` = 4 × h + l) as fetched before a write of this frame changed them, with a 1 above the highest
byte; 0 where the row is as the DRAM has it (R296). -/
abbrev H.fetchedRow (hl row : Nat) : Obj := ⟨⟨0x10002CD, hl, row⟩, 32769, 0⟩
/-- A word of the DRAM that a read has found uncorrectable and nothing has written since (R311). -/
abbrev H.dramBad (w : Nat) : Obj := ⟨⟨0x10002CE, w, 0⟩, 1, 0⟩
/-- The DRAM's scrub takes forced slots until it has caught up (R312). -/
abbrev H.dramBehind : Obj := ⟨⟨0x10002CF, 0, 0⟩, 1, 0⟩
/-- The moment a pass of the DRAM's scrub began (R312). -/
abbrev H.dramScrubStart : Obj := ⟨⟨0x1000249, 0, 0⟩, 8, 0⟩

/-! ## The rigger bridge -/
/-- The next tag this hub issues (R270). -/
abbrev H.rigTag : Obj := ⟨⟨0x1000250, 0, 0⟩, 2, 0⟩
/-- INSTANCE of a target as last learned; 0 before (R269). -/
abbrev H.rigKnown (a : Nat) : Obj := ⟨⟨0x1000251, a, 0⟩, 4, 0⟩
/-- The serial of the next aperture read. -/
abbrev H.rigReadId : Obj := ⟨⟨0x1000252, 0, 0⟩, 8, 0⟩
/-- The write position of the ERR_LOG ring. -/
abbrev H.errNext : Obj := ⟨⟨0x1000253, 0, 0⟩, 1, 0⟩

/-! ## Faults -/
/-- The escalation count of a source, and the end of its window (R372, R373). -/
abbrev H.escCount (s : Nat) : Obj := ⟨⟨0x1000260, s, 0⟩, 2, 0⟩
abbrev H.escEnd (s : Nat) : Obj := ⟨⟨0x1000261, s, 0⟩, 8, 0⟩
/-- The minimum low time of FAULT_N runs; a release written in it is held; FAULT_N stays low after a fatal reset (R377). -/
abbrev H.faultNTime : Obj := ⟨⟨0x1000262, 0, 0⟩, 1, 0⟩
abbrev H.faultNFree : Obj := ⟨⟨0x1000263, 0, 0⟩, 1, 0⟩
abbrev H.faultNFatal : Obj := ⟨⟨0x1000264, 0, 0⟩, 1, 0⟩

/-! ## Reset, update, sleep and the mailbox -/
/-- Start-up has run since the last reset; before it the switched domains are held in reset (R425, R427). -/
abbrev H.running : Obj := ⟨⟨0x1000265, 0, 0⟩, 1, 0⟩
/-- The level of PERST_N (R427). -/
abbrev H.perstHigh : Obj := ⟨⟨0x100026A, 0, 0⟩, 1, 0⟩
/-- The cause of the next start-up (R426); an AON power-on at first. -/
abbrev H.nextCause : Obj := ⟨⟨0x1000266, 0, 0⟩, 1, 1⟩
/-- The moment of the last reset's release (F000h.01). -/
abbrev H.resetAt : Obj := ⟨⟨0x1000267, 0, 0⟩, 8, 0⟩
/-- The hub resets once the response under way is sent (R341, R408, R409). -/
abbrev H.resetDue : Obj := ⟨⟨0x1000268, 0, 0⟩, 1, 0⟩
/-- The next start-up enters ROM recovery, as requested (R408). -/
abbrev H.recoveryDue : Obj := ⟨⟨0x1000269, 0, 0⟩, 1, 0⟩
/-- TARGET and SIZE of the open transfer (R392), kept with it in the control area (R388). -/
abbrev H.transferTarget : Obj := ⟨⟨0x1000270, 0, 0⟩, 1, 0⟩
abbrev H.transferSize : Obj := ⟨⟨0x1000271, 0, 0⟩, 4, 0⟩
/-- One more than the block being programmed; 0 none (R393). -/
abbrev H.programming : Obj := ⟨⟨0x1000272, 0, 0⟩, 2, 0⟩
/-- One more than the stroke whose REPORT carried handover pending (R131); 0 none. -/
abbrev H.handoverAsked : Obj := ⟨⟨0x1000277, 0, 0⟩, 8, 0⟩
/-- The moment CONFIRM_REMAINING reaches 0 (R403). -/
abbrev H.confirmEnd : Obj := ⟨⟨0x1000273, 0, 0⟩, 8, 0⟩
/-- A hand-back is no longer possible: the standby pair was isolated in the window (R404). -/
abbrev H.noHandback : Obj := ⟨⟨0x1000274, 0, 0⟩, 1, 0⟩
/-- The save that runs was started by sag stage 5, and Moored follows it (R424). -/
abbrev H.flushing : Obj := ⟨⟨0x1000275, 0, 0⟩, 1, 0⟩
/-- One more than the settings slot that the running save fills, and its body's length (R341).  -/
abbrev H.saveSlot : Obj := ⟨⟨0x1000278, 0, 0⟩, 1, 0⟩
abbrev H.saveLength : Obj := ⟨⟨0x1000279, 0, 0⟩, 4, 0⟩
/-- Settings slots freed whose bytes the flash still holds, a bit for each: they are erased before anything reads or fills the slot (R401, R405;
notes/assumptions/92.md). -/
abbrev H.recordGone : Obj := ⟨⟨0x10002DD, 0, 0⟩, 1, 0⟩
/-- One more than the settings slot that stands erased for the next save (R424). -/
abbrev H.erased : Obj := ⟨⟨0x10002E4, 0, 0⟩, 1, 0⟩
/-- The slot that a transfer fills: an image slot, or a settings slot for TARGET 02h (R392, R397). -/
abbrev H.transferSlot : Obj := ⟨⟨0x1000276, 0, 0⟩, 1, 0⟩
/-- The last 8 unannounced gaps in µs, newest at place 0, and how many have been measured, up to 8 (R416). -/
abbrev H.gap (k : Nat) : Obj := ⟨⟨0x1000280, 0, k⟩, 4, 0⟩
abbrev H.gaps : Obj := ⟨⟨0x1000281, 0, 0⟩, 1, 0⟩
/-- The sag stages that have entered and not cleared, bit n for stage n + 1 (R420). -/
abbrev H.sagFlags : Obj := ⟨⟨0x1000284, 0, 0⟩, 1, 0⟩
/-- The moment of entry into the present sleep state (R416). -/
abbrev H.sleptAt : Obj := ⟨⟨0x1000282, 0, 0⟩, 8, 0⟩
/-- The mailbox: REQ_BUSY, RSP_READY, NTF_HEAD, NTF_TAIL (R336). -/
abbrev H.reqBusy : Obj := ⟨⟨0x1000290, 0, 0⟩, 1, 0⟩
abbrev H.rspReady : Obj := ⟨⟨0x1000291, 0, 0⟩, 1, 0⟩
/-- REQ_LENGTH of the mailbox (R336). -/
abbrev H.reqLength : Obj := ⟨⟨0x10002C5, 0, 0⟩, 4, 0⟩
/-- The time of duplicate address detection, in ns: one RetransTimer of RFC 4861 and 4862 (PRESUMED, notes/assumptions/41.md). -/
abbrev dadTime : Nat := 1000000000
/-- Addresses whose duplicate detection starts once the response to a write is sent: bit 0 the link-local, bit 1 the static (R334). -/
abbrev H.dadDue : Obj := ⟨⟨0x10002D0, 0, 0⟩, 1, 0⟩
/-- FOP_PORT before a write whose response is still to be sent (R334); 0 none. -/
abbrev H.portWas : Obj := ⟨⟨0x10002D1, 0, 0⟩, 2, 0⟩
abbrev H.ntfHead : Obj := ⟨⟨0x1000292, 0, 0⟩, 1, 0⟩
abbrev H.ntfTail : Obj := ⟨⟨0x1000293, 0, 0⟩, 1, 0⟩
/-- The parent's address, learned from ASSIGN (R418). -/
abbrev H.parentAddr : Obj := ⟨⟨0x1000298, 0, 0⟩, 1, 0⟩
/-- The value a subscription last sent, one of them sent, and when (R331). -/
abbrev H.notifyLast (e : Nat) : Obj := ⟨⟨0x1000294, e, 0⟩, 64, 0⟩
abbrev H.notifyAny (e : Nat) : Obj := ⟨⟨0x1000295, e, 0⟩, 1, 0⟩
abbrev H.notifyAt (e : Nat) : Obj := ⟨⟨0x1000296, e, 0⟩, 8, 0⟩
/-- The end of duplicate address detection on the link-local (0) and the static (1) address (R333). -/
abbrev H.tentative (k : Nat) : Obj := ⟨⟨0x1000299, 0, k⟩, 8, 0⟩
/-- Bit e: a periodic NOTIFY of subscription e fell due in a handover (R339). -/
abbrev H.notifyHeld : Obj := ⟨⟨0x100029A, 0, 0⟩, 4, 0⟩

end Sys2Proof.Machine
end

