-- ==== Sys2Proof/Machine/Ops.lean ====
section
/-! DEFINITION. The named operations over registers, memories, outputs and the Umpire's source lines, and the bit, byte-order and
check-code helpers every family uses. -/
namespace Sys2Proof.Machine

/-! ## Registers -/

/-- What a store holds under a key. -/
def Store.find (k : Key) : Store → Option Nat
  | [] => none
  | (k', v) :: rest => if k' = k then some v else Store.find k rest

/-- The store without a key. -/
def Store.erase (k : Key) (st : Store) : Store := st.filter fun e => e.1 ≠ k

/-- The store with a value under a key, in key order. -/
def Store.insert (k : Key) (v : Nat) : Store → Store
  | [] => [(k, v)]
  | (k', v') :: rest =>
    if k' = k then (k, v) :: rest
    else if k.lt k' then (k, v) :: (k', v') :: rest
    else (k', v') :: Store.insert k v rest

/-- The number of values a register's width has room for. -/
def Obj.cap (o : Obj) : Nat := 256 ^ o.size

/-- A register's value. -/
def Hub.get (c : Hub) (o : Obj) : Nat := (c.regs.find o.key).getD o.dflt

/-- A register written with a value, of which it keeps the bits its width holds. -/
def Hub.put (c : Hub) (o : Obj) (v : Nat) : Hub :=
  let v := v % o.cap
  { c with regs := if v = o.dflt then c.regs.erase o.key else c.regs.insert o.key v }

/-- A BOOL register read as a truth value. -/
def Hub.flag (c : Hub) (o : Obj) : Bool := c.get o != 0

/-- A BOOL register written. -/
def Hub.putB (c : Hub) (o : Obj) (b : Bool) : Hub := c.put o (if b then 1 else 0)

/-- A two's-complement register read (I16, I32). -/
def Hub.getI (c : Hub) (o : Obj) : Int :=
  if 2 * c.get o < o.cap then (c.get o : Int) else (c.get o : Int) - (o.cap : Int)

/-- A two's-complement register written. -/
def Hub.putI (c : Hub) (o : Obj) (v : Int) : Hub := c.put o (v % (o.cap : Int)).toNat

/-- The next free value (notes/assumptions/5.md). -/
def Hub.draw (c : Hub) : Nat × Hub := (Config.freeNat c.draws, { c with draws := c.draws + 1 })

/-- A number shown in a two's-complement object. The spec does not say what an object shows of a number beyond it: that is free. -/
def Hub.showI (c : Hub) (o : Obj) (v : Int) : Hub :=
  if -(o.cap : Int) ≤ 2 * v ∧ 2 * v < (o.cap : Int) then c.putI o v else (c.draw.2).put o c.draw.1

/-- A counter raised by n. The spec says nothing of a count that outgrows its object: there the object takes a free value. -/
def Hub.count (c : Hub) (o : Obj) (n : Nat := 1) : Hub :=
  if c.get o + n < o.cap then c.put o (c.get o + n) else (c.draw.2).put o c.draw.1

/-- A read of some words of the DRAM corrects their single-bit errors (R311): how many it met no command says, so the number is free
(notes/assumptions/5.md). -/
def Hub.dramReads (c : Hub) (words : Nat) : Hub :=
  let n := c.draw.1 % (words + 1)
  if words = 0 then c
  else if n = 0 then c.draw.2
  else
    let c := c.draw.2.count O.dramCorrected n
    { c with lines := c.lines ++ [⟨78, 255, 0, c.reactions⟩] }

/-- A register raised to v where it stands below v (peaks and maxima). -/
def Hub.peak (c : Hub) (o : Obj) (v : Nat) : Hub := if c.get o < v then c.put o v else c

/-- The registers of an object that do not stand at their defaults: the instances, in ascending order, at one offset. -/
def Hub.instances (c : Hub) (o : Obj) : List Nat :=
  c.regs.filterMap fun e => if e.1.obj = o.key.obj ∧ e.1.off = o.key.off then some e.1.inst else none

/-- A register returned to its default. -/
def Hub.restore (c : Hub) (o : Obj) : Hub := c.put o o.dflt

/-- One operation over each element of a list, in order. -/
def Hub.each (c : Hub) (xs : List α) (f : Hub → α → Hub) : Hub := xs.foldl f c

/-- One operation where a condition holds. -/
def Hub.when (c : Hub) (b : Bool) (f : Hub → Hub) : Hub := if b then f c else c

/-! ## INFO of management, time-channel and FOP packets (R56, R59, R395) -/

/-- The message kinds of R56. -/
inductive MgmtKind where
  | join | assign | assignAck | refuse | report | plan | orphan | fop | stage | sleep | probe | probeAck | stageFail
  deriving DecidableEq, Repr

/-- The code of a kind in INFO[15:8] (R56). -/
def MgmtKind.code : MgmtKind → Nat
  | .join => 0x01 | .assign => 0x02 | .assignAck => 0x03 | .refuse => 0x04 | .report => 0x05 | .plan => 0x06 | .orphan => 0x07
  | .fop => 0x08 | .stage => 0x09 | .sleep => 0x0A | .probe => 0x0B | .probeAck => 0x0C | .stageFail => 0x0D

/-- The kind a code names, none for a code R56 does not list. -/
def MgmtKind.ofCode (v : Nat) : Option MgmtKind :=
  [MgmtKind.join, .assign, .assignAck, .refuse, .report, .plan, .orphan, .fop, .stage, .sleep, .probe, .probeAck, .stageFail].find? fun k =>
    k.code == v

/-- The kind of a message. -/
def Mgmt.kind : Mgmt → MgmtKind
  | .join .. => .join | .assign .. => .assign | .assignAck .. => .assignAck | .refuse .. => .refuse | .report _ => .report
  | .plan _ => .plan | .orphan => .orphan | .stage .. => .stage | .sleep => .sleep | .probe => .probe | .probeAck .. => .probeAck
  | .stageFail .. => .stageFail

/-- INFO of a management packet: the destination in [7:0] and the kind in [15:8] (R56). -/
def mgmtInfo (dst : Nat) (k : MgmtKind) : Nat := dst % 256 + 256 * k.code

/-- A management message to a destination, on the named port or, with none, routed (R56, R57). -/
def Out.mgmtTo (port : Option Nat) (dst : Nat) (m : Mgmt) : Out := .mgmt port (mgmtInfo dst m.kind) m

/-- A FOP message to a destination (R56, R335, R395). -/
def Out.fopTo (background : Bool) (dst : Nat) (bytes : Bytes) : Out := .fopPacket background (mgmtInfo dst .fop) bytes

/-- INFO[7:0] of a message of the time channel (R59). -/
def TimeMsg.code : TimeMsg → Nat
  | .sync _ => 0x01 | .delayReq => 0x02 | .delayResp _ => 0x03

/-- A message of the time channel on a port. -/
def Out.timeOn (port : Nat) (m : TimeMsg) : Out := .time port m.code m

/-! ## Outputs, time and the Umpire's lines -/

/-- The hub sends something, after all it has sent before. -/
def Hub.emit (c : Hub) (x : Out) : Hub := { c with out := c.out ++ [x] }

/-- A detection on a source line with its unit and DATA (R367). The Umpire handles it at its next sample. -/
def Hub.raise (c : Hub) (source : Nat) (unit : Nat := 255) (data : Nat := 0) : Hub :=
  { c with lines := c.lines ++ [⟨source, unit, data, c.reactions⟩] }

/-- Nanoseconds since the stroke boundary. -/
def Hub.nsInStroke (c : Hub) : Nat := c.now - c.boundaryAt

/-- The stroke number in force (A004h.01). -/
def Hub.stroke (c : Hub) : Nat := c.get O.strokeNumber

/-- The clock moved on to a moment, if that lies ahead. -/
def Hub.advanceTo (c : Hub) (t : Nat) : Hub := { c with now := max c.now t }

/-! ## Commands -/

/-- The rights row ro/ro/ro/rw. -/
abbrev ownerWrites : List Right := [.ro, .ro, .ro, .rw]
/-- The rights row ro/ro/rw/rw. -/
abbrev engineerWrites : List Right := [.ro, .ro, .rw, .rw]
/-- The rights row ro/rw/rw/rw. -/
abbrev operatorWrites : List Right := [.ro, .rw, .rw, .rw]
/-- The rights row wo at every level. -/
abbrev allWrite : List Right := [.wo, .wo, .wo, .wo]

/-- A level's place in a rights row. -/
def Level.rank : Level → Nat
  | .observer => 0 | .operator => 1 | .engineer => 2 | .owner => 3

/-- The right of a level. -/
def rightOf (acc : List Right) (l : Level) : Right := acc.getD (Level.rank l) .ro

/-- Whether a right lets a level write. -/
def Right.writes : Right → Bool
  | .rw => true | .wo => true | .ro => false | .const => false

/-- ROM recovery runs: by strap, or with a cause (R408). -/
def Hub.inRom (c : Hub) : Bool := c.get O.role == 3 || c.get O.recoveryCause != 0

/-- The PCIe port presents the Cox's hierarchy (R253): in ROM recovery it presents what a Crew's does. -/
def Hub.coxPort (c : Hub) : Bool := c.get O.role == 2 && !c.inRom
/-- The PCIe port is an Oar's root port (R253). -/
def Hub.oarPort (c : Hub) : Bool := c.get O.role == 0 && !c.inRom

/-- A write of an object that stands in ROM recovery too (R408), at a level: the right is checked, then the object's own rule runs, and the
status is answered (R317, R322). A refused write changes no object. -/
def Hub.requestRom (c : Hub) (lvl : Level) (acc : List Right) (op : Hub → Status × Hub) : Hub :=
  if (rightOf acc lvl).writes then ((op c).2).emit (.status (op c).1) else c.emit (.status .access)

/-- A write of an object that ROM recovery does not have (R322, R408). -/
def Hub.request (c : Hub) (lvl : Level) (acc : List Right) (op : Hub → Status × Hub) : Hub :=
  if c.inRom then c.emit (.status .noObject) else c.requestRom lvl acc op

/-- The management pairs hand over: to the new image, or back (R392–R394, R399). -/
def Hub.handingOver (c : Hub) : Bool := c.get O.activationState == 5 || c.get O.activationState == 7

/-- A command that acts on the hub and on no memory. -/
def onHub (s : State) (f : Hub → Hub) : Host.Outcome State Fault Refusal := .next { s with hub := f s.hub }

/-- A command that acts on the hub and the memories. -/
def onAll (s : State) (f : Hub → Mems → Hub × Mems) : Host.Outcome State Fault Refusal :=
  .next { s with hub := (f s.hub s.mem).1, mem := (f s.hub s.mem).2 }

/-- The domains that Moored and Stowed stop or power down are on: MGMT, SWITCH, SERDES-A, SERDES-B, DISPLAY, PCIE, ETH, CRYPTO and DRAM (R411). Every
reset holds them until start-up (R425, R426). -/
def Hub.domainsOn (c : Hub) : Bool := c.flag H.running && decide (c.get O.powerState < 3)

/-- PWRCTL, with the PD engines, is on in every state but Stowed and in no reset (R411, R426). -/
def Hub.pdOn (c : Hub) : Bool := c.flag H.running && c.get O.powerState != 4

/-- AON, with the feed logic, is on in every state but Stowed, and runs on in a fatal or requested reset (R411, R426). -/
def Hub.aonOn (c : Hub) : Bool := (c.flag H.running || c.get H.nextCause == 3 || c.get H.nextCause == 4) && c.get O.powerState != 4

/-- A command that a domain of `domainsOn` carries out: while it is off nothing does (R411). -/
def onDomains (s : State) (f : Hub → Hub) : Host.Outcome State Fault Refusal := onHub s fun c => if c.domainsOn then f c else c

/-- The same for a command that reaches the memories. -/
def onDomainsAll (s : State) (f : Hub → Mems → Hub × Mems) : Host.Outcome State Fault Refusal :=
  onAll s fun c m => if c.domainsOn then f c m else (c, m)

/-- A command that PWRCTL carries out: in Stowed and in reset nothing does (R411). -/
def onPorts (s : State) (f : Hub → Hub) : Host.Outcome State Fault Refusal := onHub s fun c => if c.pdOn then f c else c

/-- The same for a command that reaches the memories. -/
def onPortsAll (s : State) (f : Hub → Mems → Hub × Mems) : Host.Outcome State Fault Refusal :=
  onAll s fun c m => if c.pdOn then f c m else (c, m)

/-- A command of the feed logic. -/
def onFeeds (s : State) (f : Hub → Hub) : Host.Outcome State Fault Refusal := onHub s fun c => if c.aonOn then f c else c

/-- A write of an object joins the held work. -/
def Hub.holdWrite (c : Hub) (w : HeldWrite) : Hub := { c with heldWrites := c.heldWrites ++ [w], heldOrder := c.heldOrder ++ [.write] }

/-- A command that writes an object: the management pair carries it out, a firmware handover takes no new work and holds it (R221, R272, R308, R339, R366, R402), and it is executed
and answered after the handover. -/
def onWrite (w : HeldWrite) (s : State) (f : Hub → Hub) : Host.Outcome State Fault Refusal :=
  onDomains s fun c => if c.handingOver then c.holdWrite w else f c

/-- A command that writes an object whose rule reaches the memories; a handover holds it too. -/
def onWriteAll (w : HeldWrite) (s : State) (f : Hub → Mems → Hub × Mems) : Host.Outcome State Fault Refusal :=
  onDomainsAll s fun c m => if c.handingOver then (c.holdWrite w, m) else f c m

/-! ## Bits, byte order, check codes -/

/-- Bit i of v. -/
def bit (v i : Nat) : Bool := v.testBit i

/-- v with bit i set or cleared. -/
def withBit (v i : Nat) (b : Bool) : Nat :=
  if b then (if v.testBit i then v else v + 2 ^ i) else (if v.testBit i then v - 2 ^ i else v)

/-- Bits lo to lo + len − 1 of v. -/
def bits (v lo len : Nat) : Nat := v / 2 ^ lo % 2 ^ len

/-- Bytes laid over others at an offset. -/
def overlay (bs : Bytes) (off : Nat) (v : Bytes) : Bytes := bs.take off ++ v ++ bs.drop (off + v.length)

/-- n bytes of v, lowest first (R5). -/
def leBytes (v : Nat) : Nat → Bytes
  | 0 => []
  | n + 1 => BitVec.ofNat 8 v :: leBytes (v / 256) n

/-- The number that bytes, lowest first, stand for (R5). -/
def leNat : Bytes → Nat
  | [] => 0
  | b :: rest => b.toNat + 256 * leNat rest

/-- The smallest multiple count: ceil(a / b). -/
def ceilDiv (a b : Nat) : Nat := (a + b - 1) / b

/-- One bit of the header check: the register shifted by one message bit (R35). -/
def hcrcBit (crc : Nat) (b : Bool) : Nat :=
  let top := bit crc 15 != b
  let sh := crc * 2 % 65536
  if top then Nat.xor sh 0x1021 else sh

/-- One byte of the header check, most significant bit first (R35). -/
def hcrcByte (crc : Nat) (x : BitVec 8) : Nat :=
  [7, 6, 5, 4, 3, 2, 1, 0].foldl (fun acc i => hcrcBit acc (bit x.toNat i)) crc

/-- HCRC: polynomial 1021h, initial value FFFFh, no reflection, no final XOR (R35). -/
def headerCheck (bs : Bytes) : Nat := bs.foldl hcrcByte 0xFFFF

/-- One bit of CRC-32C, reflected (scope chapter: polynomial 1EDC6F41h, so 82F63B78h reflected). -/
def crc32cBit (crc : Nat) : Nat := if bit crc 0 then Nat.xor (crc / 2) 0x82F63B78 else crc / 2

/-- One byte of CRC-32C. -/
def crc32cByte (crc : Nat) (x : BitVec 8) : Nat :=
  [0, 1, 2, 3, 4, 5, 6, 7].foldl (fun acc _ => crc32cBit acc) (Nat.xor crc x.toNat)

/-- CRC-32C: initial value and final XOR FFFFFFFFh (scope chapter). -/
def crc32c (bs : Bytes) : Nat := Nat.xor (bs.foldl crc32cByte 0xFFFFFFFF) 0xFFFFFFFF

/-! ## Memories -/

/-- A memory reads the listed byte, or what an unlisted address reads as. -/
def Memory.read (d : Byte) (a : Nat) : List Host.Cell → Byte
  | [] => d
  | (a', b) :: rest => if a' = a then b else Memory.read d a rest

/-- A memory with one byte written, kept in ascending order and without bytes that read as unlisted ones do. -/
def Memory.write (d : Byte) (a : Nat) (b : Byte) : List Host.Cell → List Host.Cell
  | [] => if b = d then [] else [(a, b)]
  | (a', b') :: rest =>
    if a < a' then (if b = d then (a', b') :: rest else (a, b) :: (a', b') :: rest)
    else if a' = a then (if b = d then rest else (a, b) :: rest)
    else (a', b') :: Memory.write d a b rest

/-- Bytes written from an address upward. -/
def Memory.writeAll (d : Byte) : Nat → Bytes → List Host.Cell → List Host.Cell
  | _, [], m => m
  | a, b :: rest, m => Memory.writeAll d (a + 1) rest (Memory.write d a b m)

/-- n bytes read from an address upward. -/
def Memory.readAll (d : Byte) (m : List Host.Cell) : Nat → Nat → Bytes
  | _, 0 => []
  | a, n + 1 => Memory.read d a m :: Memory.readAll d m (a + 1) n

/-- The canonical form: addresses strictly rising, and no listed byte equal to what an unlisted address reads as. -/
def Memory.wf (d : Byte) : List Host.Cell → Bool
  | [] => true
  | [(_, b)] => b != d
  | (a, b) :: (a', b') :: rest => b != d && decide (a < a') && Memory.wf d ((a', b') :: rest)

/-- An unlisted byte of the DRAM: start-up writes every byte to zero (R427). -/
abbrev dramIdle : Byte := 0
/-- An unlisted byte of the process image: the default of PROCESS_IMAGE is all 0 (4055h.00). -/
abbrev imageIdle : Byte := 0
/-- An unlisted byte of the external NOR: erased (PRESUMED, notes/assumptions/7.md). -/
abbrev flashIdle : Byte := 0xFF

/-- Bytes of the DRAM. -/
def Mems.readDram (m : Mems) (a n : Nat) : Bytes := Memory.readAll dramIdle m.dram a n
/-- The DRAM written. -/
def Mems.writeDram (m : Mems) (a : Nat) (bs : Bytes) : Mems := { m with dram := Memory.writeAll dramIdle a bs m.dram }
/-- Bytes of the process image. -/
def Mems.readImage (m : Mems) (a n : Nat) : Bytes := Memory.readAll imageIdle m.image a n
/-- The process image written. -/
def Mems.writeImage (m : Mems) (a : Nat) (bs : Bytes) : Mems := { m with image := Memory.writeAll imageIdle a bs m.image }
/-- Bytes of the NOR. -/
def Mems.readFlash (m : Mems) (a n : Nat) : Bytes := Memory.readAll flashIdle m.flash a n
/-- The NOR written. -/
def Mems.writeFlash (m : Mems) (a : Nat) (bs : Bytes) : Mems := { m with flash := Memory.writeAll flashIdle a bs m.flash }

/-- Every memory is in its canonical form. -/
def Mems.wf (m : Mems) : Bool := Memory.wf dramIdle m.dram && Memory.wf imageIdle m.image && Memory.wf flashIdle m.flash

/-! ## Shadow windows (R378–R382) -/

/-- The scope of a reaction (R380): whether it holds a source with its unit. DATA [63] decides for source 0 and the spill engines. -/
def Window.holds (w : Window) (source unit data : Nat) : Bool :=
  let port := source = 0 ∨ source = 25 ∨ (32 ≤ source ∧ source ≤ 58)
  let link := source = 0 ∨ source = 25 ∨ (32 ≤ source ∧ source ≤ 44)
  match w.kind with
  | 0 | 2 | 3 =>
    (decide port && unit == w.unit) || (w.upstream && (source == 13 || source == 14 || source == 20 || source == 21))
  | 1 | 5 => (decide link && unit == w.unit) || (w.upstream && (source == 13 || source == 20))
  | 4 => 45 ≤ source && source ≤ 58 && unit == w.unit
  | 6 => 59 ≤ source && source ≤ 62
  | _ =>
    if w.source == 7 || w.source == 8 then source == 7 || source == 8 || (source == 0 && bit data 63)
    else if 64 ≤ w.source && w.source ≤ 66 then (64 ≤ source && source ≤ 66) || source == 70
    else if w.source == 26 || w.source == 67 || w.source == 68 then
      (source == 26 || source == 67 || source == 68) && unit == w.unit
    else if w.source == 27 || w.source == 69 then source == 27 || source == 69
    else if 70 ≤ w.source && w.source ≤ 72 then 70 ≤ source && source ≤ 72
    else if 73 ≤ w.source && w.source ≤ 76 then 73 ≤ source && source ≤ 76 && unit == w.unit
    else w.source == 82 && source == 82

/-- A reaction starts and opens its window (R379). It belongs to the fault in progress that `fault` names, or of the oldest open window that
holds its source, else begins one of its own where a detection started it (R382); `source` 255 is a reaction no detection started. -/
def Hub.openWindow (c : Hub) (source kind unit : Nat) (byUmpire : Bool := false) (fault : Nat := 0) : Hub :=
  let id := c.reactions + 1
  let root := if source = 255 then 0 else if fault ≠ 0 then fault else
    match c.windows.find? (fun w => w.holds source unit 0) with
    | some w => w.root
    | none => id
  let w : Window :=
    { id := id, source := source, kind := kind, unit := unit, ended := false, doneAt := 0, openedAt := c.now,
      stroke := c.stroke, upstream := decide (c.get O.upstreamPort = unit), byUmpire := byUmpire, root := root }
  { c with reactions := id, windows := c.windows ++ [w] }

/-- The reaction of a kind on a unit is done (R378): its window closes SHADOW_TAIL later. -/
def Hub.reactionDone (c : Hub) (kind unit : Nat) : Hub :=
  { c with windows := c.windows.map fun w =>
      if w.kind = kind ∧ w.unit = unit ∧ w.ended = false then { w with ended := true, doneAt := c.now } else w }

/-- Faults in progress (8005h.03): the distinct faults that open windows belong to (R382). -/
def Hub.faultsInProgress (c : Hub) : Nat := ((c.windows.map Window.root).filter (· ≠ 0)).eraseDups.length

/-- A packet of C0 or C4 lost while more than one fault is in progress (R32, R382). -/
def Hub.losslessLoss (c : Hub) (tid : Nat) : Hub := c.when (decide (1 < c.faultsInProgress)) fun c => c.raise 28 255 tid

end Sys2Proof.Machine
end

