-- ==== Sys2Proof/Machine/Ciphers.lean ====
section
/-! DEFINITION. The published algorithms the spec names by their standards: SHA-256 (FIPS 180-4), HMAC-SHA-256 (RFC 2104), AES-256 (FIPS 197),
CMAC-AES-256 (NIST SP 800-38B), AES-256-GCM (NIST SP 800-38D) and LMS verification (NIST SP 800-208), over bytes in the order of
the standards; a key or a digest held as a number stands for its bytes, lowest first (R5). -/
namespace Sys2Proof.Machine

/-! ## Bytes -/

/-- n bytes of v, highest first. -/
def beBytes (v n : Nat) : Bytes := (leBytes v n).reverse

/-- The number that bytes, highest first, stand for. -/
def beNat (bs : Bytes) : Nat := leNat bs.reverse

/-- The ASCII bytes of a label. -/
def ascii (s : String) : Bytes := s.toList.map fun ch => BitVec.ofNat 8 ch.toNat

/-- The first pieces of n bytes of a string, the last one short where it does not divide. -/
def chunks (n : Nat) : Nat → Bytes → List Bytes
  | 0, _ => []
  | k + 1, b => if b = [] then [] else b.take n :: chunks n k (b.drop n)

/-- All pieces of n bytes of a string. -/
def pieces (n : Nat) (b : Bytes) : List Bytes := chunks n b.length b

/-! ## SHA-256 (FIPS 180-4) and HMAC (RFC 2104) -/

/-- The round constants: the first 32 bits of the fractional parts of the cube roots of the first 64 primes. -/
def shaK : List Nat :=
  [0x428a2f98, 0x71374491, 0xb5c0fbcf, 0xe9b5dba5, 0x3956c25b, 0x59f111f1, 0x923f82a4, 0xab1c5ed5]
  ++ [0xd807aa98, 0x12835b01, 0x243185be, 0x550c7dc3, 0x72be5d74, 0x80deb1fe, 0x9bdc06a7, 0xc19bf174]
  ++ [0xe49b69c1, 0xefbe4786, 0x0fc19dc6, 0x240ca1cc, 0x2de92c6f, 0x4a7484aa, 0x5cb0a9dc, 0x76f988da]
  ++ [0x983e5152, 0xa831c66d, 0xb00327c8, 0xbf597fc7, 0xc6e00bf3, 0xd5a79147, 0x06ca6351, 0x14292967]
  ++ [0x27b70a85, 0x2e1b2138, 0x4d2c6dfc, 0x53380d13, 0x650a7354, 0x766a0abb, 0x81c2c92e, 0x92722c85]
  ++ [0xa2bfe8a1, 0xa81a664b, 0xc24b8b70, 0xc76c51a3, 0xd192e819, 0xd6990624, 0xf40e3585, 0x106aa070]
  ++ [0x19a4c116, 0x1e376c08, 0x2748774c, 0x34b0bcb5, 0x391c0cb3, 0x4ed8aa4a, 0x5b9cca4f, 0x682e6ff3]
  ++ [0x748f82ee, 0x78a5636f, 0x84c87814, 0x8cc70208, 0x90befffa, 0xa4506ceb, 0xbef9a3f7, 0xc67178f2]

/-- The initial hash value. -/
def shaInit : List Nat := [0x6a09e667, 0xbb67ae85, 0x3c6ef372, 0xa54ff53a, 0x510e527f, 0x9b05688c, 0x1f83d9ab, 0x5be0cd19]

/-- A 32-bit word turned right by n. -/
def rotr (n x : Nat) : Nat := Nat.lor (x / 2 ^ n) (x * 2 ^ (32 - n) % 2 ^ 32)

/-- The message schedule of a block of 16 words. -/
def shaSchedule (w : List Nat) : List Nat :=
  ((List.range 48).foldl (fun acc _ =>
    let x := acc.getD 14 0
    let y := acc.getD 1 0
    let s0 := Nat.xor (Nat.xor (rotr 7 x) (rotr 18 x)) (x / 2 ^ 3)
    let s1 := Nat.xor (Nat.xor (rotr 17 y) (rotr 19 y)) (y / 2 ^ 10)
    (s1 + acc.getD 6 0 + s0 + acc.getD 15 0) % 2 ^ 32 :: acc) w.reverse).reverse

/-- One round over the eight working words, with its constant and schedule word. -/
def shaRound (v : List Nat) (kw : Nat × Nat) : List Nat :=
  match v with
  | [a, b, c, d, e, f, g, h] =>
    let s1 := Nat.xor (Nat.xor (rotr 6 e) (rotr 11 e)) (rotr 25 e)
    let ch := Nat.xor (Nat.land e f) (Nat.land (2 ^ 32 - 1 - e) g)
    let t1 := h + s1 + ch + kw.1 + kw.2
    let s0 := Nat.xor (Nat.xor (rotr 2 a) (rotr 13 a)) (rotr 22 a)
    let maj := Nat.xor (Nat.xor (Nat.land a b) (Nat.land a c)) (Nat.land b c)
    [(t1 + s0 + maj) % 2 ^ 32, a, b, c, (d + t1) % 2 ^ 32, e, f, g]
  | _ => v

/-- The hash value after one block of 64 bytes. -/
def shaBlock (v : List Nat) (block : Bytes) : List Nat :=
  let w := shaSchedule ((pieces 4 block).map beNat)
  List.zipWith (fun x y => (x + y) % 2 ^ 32) v ((shaK.zip w).foldl shaRound v)

/-- A message padded to whole blocks. -/
def shaPad (m : Bytes) : Bytes := m ++ [0x80] ++ List.replicate ((119 - m.length % 64) % 64) 0 ++ beBytes (8 * m.length) 8

/-- The 32 bytes of the SHA-256 digest. -/
@[irreducible] def sha256Bytes (m : Bytes) : Bytes := ((pieces 64 (shaPad m)).foldl shaBlock shaInit).flatMap fun w => beBytes w 4

/-- The SHA-256 digest as an object of 32 bytes (R391). -/
def sha256 (m : Bytes) : Nat := leNat (sha256Bytes m)

/-- HMAC-SHA-256 under a key of 32 bytes (R328): the tag as an object of 32 bytes. -/
@[irreducible] def hmacSha256 (key : Nat) (m : Bytes) : Nat :=
  let pad (x : BitVec 8) : Bytes := (leBytes key 32).map (fun b => b ^^^ x) ++ List.replicate 32 x
  sha256 (pad 0x5C ++ sha256Bytes (pad 0x36 ++ m))

/-! ## AES-256 (FIPS 197) -/

/-- The S-box, a row of 16 values to a number, the first highest. -/
def sboxRows : List Nat :=
  [0x637c777bf26b6fc53001672bfed7ab76, 0xca82c97dfa5947f0add4a2af9ca472c0, 0xb7fd9326363ff7cc34a5e5f171d83115, 0x04c723c31896059a071280e2eb27b275]
  ++ [0x09832c1a1b6e5aa0523bd6b329e32f84, 0x53d100ed20fcb15b6acbbe394a4c58cf, 0xd0efaafb434d338545f9027f503c9fa8, 0x51a3408f929d38f5bcb6da2110fff3d2]
  ++ [0xcd0c13ec5f974417c4a77e3d645d1973, 0x60814fdc222a908846eeb814de5e0bdb, 0xe0323a0a4906245cc2d3ac629195e479, 0xe7c8376d8dd54ea96c56f4ea657aae08]
  ++ [0xba78252e1ca6b4c6e8dd741f4bbd8b8a, 0x703eb5664803f60e613557b986c11d9e, 0xe1f8981169d98e949b1e87e9ce5528df, 0x8ca1890dbfe6426841992d0fb054bb16]

/-- The S-box. -/
def subByte (x : Nat) : Nat := sboxRows.getD (x / 16) 0 / 256 ^ (15 - x % 16) % 256

/-- A field element times x. -/
def xtime (x : Nat) : Nat := if 128 ≤ x then Nat.xor (2 * x) 0x11B else 2 * x

/-- The S-box over the four bytes of a word. -/
def subWord (w : Nat) : Nat := beNat ((beBytes w 4).map fun b => BitVec.ofNat 8 (subByte b.toNat))

/-- The 60 words of the key schedule of a 256-bit key. -/
def keySchedule (key : Bytes) : List Nat :=
  let first := (pieces 4 key).map beNat
  ((List.range 52).foldl (fun acc j =>
    let t := acc.headD 0
    let t :=
      if j % 8 = 0 then Nat.xor (subWord (t * 256 % 2 ^ 32 + t / 2 ^ 24)) (2 ^ (j / 8) * 2 ^ 24)
      else if j % 8 = 4 then subWord t else t
    Nat.xor (acc.getD 7 0) t :: acc) first.reverse).reverse

/-- SubBytes and ShiftRows over the 16 bytes of a state, column by column. -/
def subShift (s : List Nat) : List Nat := (List.range 16).map fun i => subByte (s.getD (i % 4 + 4 * ((i / 4 + i % 4) % 4)) 0)

/-- MixColumns. -/
def mixColumns (s : List Nat) : List Nat :=
  (List.range 16).map fun i =>
    let a (k : Nat) := s.getD (4 * (i / 4) + (i + k) % 4) 0
    Nat.xor (Nat.xor (xtime (a 0)) (Nat.xor (xtime (a 1)) (a 1))) (Nat.xor (a 2) (a 3))

/-- AddRoundKey with round r's four words. -/
def addRoundKey (ks s : List Nat) (r : Nat) : List Nat :=
  List.zipWith Nat.xor s (((ks.drop (4 * r)).take 4).flatMap fun w => (beBytes w 4).map BitVec.toNat)

/-- One block of 128 bits, highest byte first, under a key schedule. -/
def aesRounds (ks : List Nat) (block : Nat) : Nat :=
  let s := addRoundKey ks ((beBytes block 16).map BitVec.toNat) 0
  let s := (List.range 13).foldl (fun s i => addRoundKey ks (mixColumns (subShift s)) (i + 1)) s
  beNat ((addRoundKey ks (subShift s) 14).map fun x => BitVec.ofNat 8 x)

/-- The schedule of a key held as an object of 32 bytes. -/
def aesKey (key : Nat) : List Nat := keySchedule (leBytes key 32)

/-! ## CMAC (NIST SP 800-38B) -/

/-- A block doubled in the field of 2^128 elements. -/
def double128 (x : Nat) : Nat := if 2 ^ 127 ≤ x then Nat.xor (2 * x % 2 ^ 128) 0x87 else 2 * x

/-- CMAC-AES-256 (R348, R351): the block as a number, highest byte first. -/
@[irreducible] def cmacAes256 (key : Nat) (m : Bytes) : Nat :=
  let ks := aesKey key
  let k1 := double128 (aesRounds ks 0)
  let n := (m.length - 1) / 16
  let last := m.drop (16 * n)
  let end_ := if last.length = 16 then Nat.xor (beNat last) k1
    else Nat.xor (beNat (last ++ [0x80] ++ List.replicate (15 - last.length) 0)) (double128 k1)
  aesRounds ks (Nat.xor (((pieces 16 (m.take (16 * n))).foldl (fun x b => aesRounds ks (Nat.xor x (beNat b)))) 0) end_)

/-! ## GCM (NIST SP 800-38D) -/

/-- The product of two blocks in the field of GCM, bit 0 of a block its highest. -/
def gcmMul (x y : Nat) : Nat :=
  ((List.range 128).foldl (fun (zv : Nat × Nat) i =>
    (if bit x (127 - i) then Nat.xor zv.1 zv.2 else zv.1,
     if bit zv.2 0 then Nat.xor (zv.2 / 2) (0xE1 * 2 ^ 120) else zv.2 / 2)) (0, y)).1

/-- A string filled with zeros to whole blocks. -/
def zeroPadded (b : Bytes) : Bytes := b ++ List.replicate ((16 - b.length % 16) % 16) 0

/-- GHASH under a hash key. -/
def ghash (h : Nat) (b : Bytes) : Nat := (pieces 16 b).foldl (fun y x => gcmMul (Nat.xor y (beNat x)) h) 0

/-- The counter block of an IV of 12 bytes. -/
def gcmCounter (iv n : Nat) : Nat := beNat (leBytes iv 12) * 2 ^ 32 + n

/-- Encryption, and decryption, of a text under a key and an IV of 12 bytes (R148). -/
@[irreducible] def gcmCrypt (key iv : Nat) (text : Bytes) : Bytes :=
  let ks := aesKey key
  ((pieces 16 text).zipIdx).flatMap fun x => List.zipWith (fun a b => a ^^^ b) x.1 (beBytes (aesRounds ks (gcmCounter iv (x.2 + 2))) 16)

/-- The authentication tag over associated data and a plaintext (R148), as an object of 16 bytes. -/
@[irreducible] def gcmTag (key iv : Nat) (data text : Bytes) : Nat :=
  let ks := aesKey key
  let cipher := gcmCrypt key iv text
  let s := ghash (aesRounds ks 0) (zeroPadded data ++ zeroPadded cipher ++ beBytes (8 * data.length) 8 ++ beBytes (8 * cipher.length) 8)
  leNat (beBytes (Nat.xor s (aesRounds ks (gcmCounter iv 1))) 16)

/-! ## LMS verification (NIST SP 800-208, R363) -/

/-- The height of an LMS type that R363 allows. -/
def lmsHeight (t : Nat) : Option Nat := if t = 6 then some 10 else if t = 7 then some 15 else if t = 8 then some 20 else none

/-- The Winternitz width of an LM-OTS type that R363 allows, with the number of chains and the shift of the checksum. -/
def lmotsWidth (t : Nat) : Option (Nat × Nat × Nat) := if t = 3 then some (4, 67, 4) else if t = 4 then some (8, 34, 0) else none

/-- The digits of a string, w bits each, highest first. -/
def digits (w : Nat) (b : Bytes) : List Nat := if w = 8 then b.map BitVec.toNat else b.flatMap fun x => [x.toNat / 16, x.toNat % 16]

/-- One LM-OTS chain taken from a digit to its end. -/
def lmotsChain (ident : Bytes) (i w a : Nat) (y : Bytes) : Bytes :=
  (List.range (2 ^ w - 1 - a)).foldl (fun t j => sha256Bytes (ident ++ beBytes i 2 ++ beBytes (a + j) 1 ++ t)) y

/-- The LM-OTS public key that a signature of a message leads to; `ident` is I and the leaf number. -/
def lmotsCandidate (ident randomizer msg : Bytes) (p : Nat × Nat × Nat) (ys : List Bytes) : Bytes :=
  let q := sha256Bytes (ident ++ [0x81, 0x81] ++ randomizer ++ msg)
  let sum := ((digits p.1 q).map fun x => 2 ^ p.1 - 1 - x).sum * 2 ^ p.2.2
  let ds := (digits p.1 (q ++ beBytes sum 2)).take p.2.1
  sha256Bytes (ident ++ [0x80, 0x80] ++ ((ds.zip ys).zipIdx.flatMap fun x => lmotsChain ident x.2 p.1 x.1.1 x.1.2))

/-- The root that a leaf and its path lead to. -/
def lmsRoot (ident : Bytes) : Nat → List Bytes → Bytes → Bytes
  | _, [], t => t
  | node, x :: rest, t =>
    lmsRoot ident (node / 2) rest (sha256Bytes (ident ++ beBytes (node / 2) 4 ++ [0x83, 0x83] ++ (if node % 2 = 1 then x ++ t else t ++ x)))

/-- An LMS signature of a message verifies under a public key of 56 bytes: LMS type, LM-OTS type, I, T[1], in the forms of R363. -/
@[irreducible] def lmsVerify (pk msg sig : Bytes) : Bool :=
  let t := beNat (pk.take 4)
  let o := beNat ((pk.drop 4).take 4)
  match lmsHeight t, lmotsWidth o with
  | some h, some p =>
    let q := beNat (sig.take 4)
    let body := 8 + 32 + 32 * p.2.1
    let ident := (pk.drop 8).take 16
    let leaf := ident ++ beBytes q 4
    if sig.length = body + 4 + 32 * h ∧ beNat ((sig.drop 4).take 4) = o ∧ beNat ((sig.drop body).take 4) = t ∧ q < 2 ^ h then
      let kc := lmotsCandidate leaf ((sig.drop 8).take 32) msg p (pieces 32 ((sig.drop 40).take (32 * p.2.1)))
      let node := 2 ^ h + q
      let tmp := sha256Bytes (ident ++ beBytes node 4 ++ [0x82, 0x82] ++ kc)
      lmsRoot ident node (pieces 32 (sig.drop (body + 4))) tmp == pk.drop 24
    else false
  | _, _ => false

end Sys2Proof.Machine
end

