-- ==== Sys2Proof/Machine/Crypto.lean ====
section
/-! DEFINITION. The derivations over the published algorithms: the KDF in counter mode (R348),
HMAC tags (R328) and the link crypto engine's key material (R354). -/
namespace Sys2Proof.Machine

/-- The KDF in counter mode of NIST SP 800-108 with CMAC-AES-256 (R348): the first L / 8 bytes of K(1) ‖ K(2) ‖ …, each K(i) =
CMAC(KI, [i] ‖ Label ‖ 00h ‖ Context ‖ [L]), the two integers highest byte first. -/
def kdf (ki : Nat) (label context : Bytes) (L : Nat) : Bytes :=
  ((List.range (ceilDiv L 128)).flatMap fun i =>
    beBytes (cmacAes256 ki (beBytes (i + 1) 4 ++ label ++ [0] ++ context ++ beBytes L 4)) 16).take (L / 8)

/-- A 256-bit random draw of the generator (R365), and the hub with the draw used. -/
def Hub.random (c : Hub) : Nat × Hub := (Config.random c.draws % 2 ^ 256, { c with draws := c.draws + 1 })

/-- The session key and salt of one direction (R354): 288 bits from the installation key, the sender's nonce, the receiver's nonce
and the sender's parity, as one register of 36 bytes. -/
def linkSession (ki senderNonce receiverNonce parity : Nat) : Nat :=
  leNat (kdf ki (ascii "EPX LINK") (leBytes senderNonce 12 ++ leBytes receiverNonce 12 ++ [BitVec.ofNat 8 parity]) 288)

/-- The AES key of a session register: its first 32 bytes. -/
def sessionAes (k : Nat) : Nat := k % 2 ^ 256
/-- The 96-bit IV: the 4 salt bytes, then COUNTER as it stands in the flit (R148, R354). -/
def sessionIv (k counter : Nat) : Nat := k / 2 ^ 256 % 2 ^ 32 + 2 ^ 32 * (counter % 2 ^ 64)

/-- The key check value of a key (R351). -/
def keyCheckValue (key : Nat) : Nat := leNat ((beBytes (cmacAes256 key (List.replicate 16 0)) 16).take 4)

/-- The check of a generation: CRC-32C over its key, engine mask and GEN (R343). -/
def generationCheck (key engines gen : Nat) : Nat := crc32c (leBytes key 32 ++ leBytes engines 1 ++ leBytes gen 4)

/-- A half of a slot passes its check (R343). -/
def Hub.halfSound (c : Hub) (s k : Nat) : Bool :=
  c.get (H.halfCheck s k) == generationCheck (c.get (H.halfKey s k)) (c.get (H.halfEngines s k)) (c.get (H.halfGen s k))

/-- A slot is read at start-up or at use (R343, R351): a Valid one whose half in force fails its check is Check failed, and is reported. -/
def Hub.useSlot (c : Hub) (s : Nat) : Hub :=
  if s < 64 ∧ c.get (O.keySlotState s) = 1 ∧ c.halfSound s (c.get (H.commit s)) = false then
    ((c.put (O.keySlotState s) 2).put (O.keySlotKcv s) 0).raise 86 s
  else c

/-- A slot Valid with an engine's bit, in a hub that is not keyless, and its key (R345, R359). -/
def Hub.slotKey (c : Hub) (slot engine : Nat) : Option Nat :=
  if slot < 64 ∧ c.get (O.keySlotState slot) = 1 ∧ bit (c.get (O.keySlotEngines slot)) engine = true ∧ c.flag O.tamperLatch = false then
    some (c.get (H.halfKey slot (c.get (H.commit slot))))
  else none

end Sys2Proof.Machine
end

