-- ==== Sys2Proof/Machine/Operands.lean ====
section
/-! DEFINITION. The operand forms of the commands: endpoint codes and numbers, queue numbers, packet headers, path-table entries as
words and as registers, and the value checks of an object write. -/
namespace Sys2Proof.Machine

/-! ## Endpoints and queues -/

/-- The endpoint number e of an endpoint code (R38, R81). -/
def endpointOf (code : Nat) : Option Nat :=
  if code < 24 then some code
  else match code with
    | 0x20 => some 24 | 0x21 => some 25 | 0x22 => some 26 | 0x24 => some 27 | 0x25 => some 28 | 0x26 => some 29
    | 0x27 => some 30 | 0x28 => some 31 | 0x30 => some 32 | _ => none

/-- The endpoint code of an endpoint number (R38, R81). -/
def codeOf (e : Nat) : Nat :=
  if e < 24 then e else match e with
    | 24 => 0x20 | 25 => 0x21 | 26 => 0x22 | 27 => 0x24 | 28 => 0x25 | 29 => 0x26 | 30 => 0x27 | 31 => 0x28 | _ => 0x30

/-- The endpoint of member bit i of a multicast group (R64). -/
def memberEndpoint (i : Nat) : Nat := if i < 24 then i else i + 1

/-- Queue q = 8 × e + c (R81). -/
def queueOf (e cls : Nat) : Nat := 8 * e + cls

end Sys2Proof.Machine

namespace Sys2Proof
open Sys2Proof.Machine

/-! ## Packets -/

/-- Bytes 0–13 of a packet header as they stand in the packet (R35, R5). -/
def Packet.header (p : Packet) : Bytes :=
  leBytes p.tid.toNat 2 ++ [p.ctrl, p.type] ++ leBytes p.length.toNat 2 ++ leBytes p.seq.toNat 2 ++ leBytes p.time.toNat 4
    ++ leBytes p.info.toNat 2

/-- The class in CTRL (R35). -/
def Packet.cls (p : Packet) : Nat := bits p.ctrl.toNat 0 3
/-- FIRST (R35). -/
def Packet.first (p : Packet) : Bool := bit p.ctrl.toNat 3
/-- LAST (R35). -/
def Packet.last (p : Packet) : Bool := bit p.ctrl.toNat 4
/-- MARK (R35). -/
def Packet.mark (p : Packet) : Bool := bit p.ctrl.toNat 5
/-- The size s = 16 + LENGTH (R106, R113). -/
def Packet.size (p : Packet) : Nat := 16 + p.payload.length

/-- The parse tests of R37: HCRC, reserved bits, LENGTH at most 1,024 and equal to the payload received. -/
def Packet.wellFormed (p : Packet) : Bool :=
  headerCheck p.header == p.hcrc.toNat && bits p.tid.toNat 14 2 == 0 && bits p.ctrl.toNat 6 2 == 0
    && bits p.length.toNat 11 5 == 0 && decide (p.length.toNat ≤ 1024) && p.length.toNat == p.payload.length

/-- The packet as the rewrite stage sends it: TID and class of the sending entry, and a fresh HCRC (R36). -/
def Packet.rewrite (p : Packet) (tid cls : Nat) : Packet :=
  let q := { p with tid := BitVec.ofNat 16 tid, ctrl := BitVec.ofNat 8 (p.ctrl.toNat / 8 * 8 + cls) }
  { q with hcrc := BitVec.ofNat 16 (headerCheck q.header) }

/-- The packet as its bytes cross a link, header first (R35). -/
def Packet.toBytes (p : Packet) : Bytes := p.header ++ leBytes p.hcrc.toNat 2 ++ p.payload

/-- The packet that a run of bytes spells (R35). -/
def Packet.ofBytes (b : Bytes) : Packet :=
  let f := fun (o n : Nat) => leNat ((b.drop o).take n)
  { tid := BitVec.ofNat 16 (f 0 2), ctrl := BitVec.ofNat 8 (f 2 1), type := BitVec.ofNat 8 (f 3 1), length := BitVec.ofNat 16 (f 4 2),
    seq := BitVec.ofNat 16 (f 6 2), time := BitVec.ofNat 32 (f 8 4), info := BitVec.ofNat 16 (f 12 2),
    hcrc := BitVec.ofNat 16 (f 14 2), payload := b.drop 16 }

end Sys2Proof

namespace Sys2Proof.Machine

/-- Cells of a payload length, each 256 B (R77). -/
def cellsOf (len : Nat) : Nat := ceilDiv (16 + len) 256

/-- TIME of a moment that lies `d` ns ahead (R35): ns within the stroke, and the stroke number [14:0]. -/
def Hub.packetTime (c : Hub) (d : Nat) : Nat :=
  let n := c.nsInStroke + d
  n % 125000 + 131072 * ((c.stroke + n / 125000) % 32768)

/-- A packet an ingress adapter makes for a tunnel, with the tunnel's next SEQ (R36); its content enters `d` ns from now. -/
def Hub.makePacketAt (c : Hub) (d tid cls type flags info : Nat) (payload : Bytes) : Packet × Hub :=
  let p : Packet :=
    { tid := BitVec.ofNat 16 tid, ctrl := BitVec.ofNat 8 (cls + 8 * flags), type := BitVec.ofNat 8 type,
      length := BitVec.ofNat 16 payload.length, seq := BitVec.ofNat 16 (c.get (H.txSeq tid)),
      time := BitVec.ofNat 32 (c.packetTime d), info := BitVec.ofNat 16 info, hcrc := 0, payload := payload }
  ({ p with hcrc := BitVec.ofNat 16 (headerCheck p.header) }, c.put (H.txSeq tid) (c.get (H.txSeq tid) + 1))

/-- A packet whose content enters now. -/
def Hub.makePacket (c : Hub) (tid cls type flags info : Nat) (payload : Bytes) : Packet × Hub :=
  c.makePacketAt 0 tid cls type flags info payload

/-! ## Path-table entries -/

/-- The entry as the table holds it (R60). -/
def Hub.entry (c : Hub) (t : Nat) : PathEntry :=
  { flags := BitVec.ofNat 8 (c.get (O.pathFlags t)), type := BitVec.ofNat 8 (c.get (O.pathType t)),
    inp := BitVec.ofNat 8 (c.get (O.pathIn t)), cls := BitVec.ofNat 8 (c.get (O.pathCls t)),
    out := BitVec.ofNat 16 (c.get (O.pathOut t)), outTid := BitVec.ofNat 16 (c.get (O.pathOutTid t)),
    shaper := BitVec.ofNat 16 (c.get (O.pathShaper t)), policer := BitVec.ofNat 16 (c.get (O.pathPolicer t)),
    pair := BitVec.ofNat 16 (c.get (O.pathPair t)) }

/-- An entry's fields with the reserved bits cleared (R6) and DRAIN as given (R60). OUT_TID is kept as written, beside an adapter or a group too (DESIGN CHOICE,
notes/assumptions/91.md). -/
def Hub.putEntry (c : Hub) (t : Nat) (e : PathEntry) (drain : Bool) : Hub :=
  (((((((((c.put (O.pathFlags t) (bits e.flags.toNat 0 2 + (if drain then 4 else 0))).put (O.pathType t) e.type.toNat).put
    (O.pathIn t) e.inp.toNat).put (O.pathCls t) (e.cls.toNat % 8)).put (O.pathOut t)
    (if bit e.flags.toNat 1 then e.out.toNat % 1024 else e.out.toNat % 256)).put (O.pathOutTid t) (e.outTid.toNat % 16384)).put
    (O.pathShaper t) e.shaper.toNat).put (O.pathPolicer t) e.policer.toNat).put (O.pathPair t) e.pair.toNat)

/-- VALID of entry t. -/
def Hub.valid (c : Hub) (t : Nat) : Bool := bit (c.get (O.pathFlags t)) 0
/-- MCAST of entry t. -/
def Hub.isMcast (c : Hub) (t : Nat) : Bool := bit (c.get (O.pathFlags t)) 1
/-- DRAIN of entry t. -/
def Hub.drain (c : Hub) (t : Nat) : Bool := bit (c.get (O.pathFlags t)) 2
/-- The entries that are VALID or in DRAIN, in ascending order. -/
def Hub.liveEntries (c : Hub) : List Nat := (c.instances (O.pathFlags 0)).filter fun t => c.valid t || c.drain t
/-- ACTIVE_TUNNELS: entries 3–16383 that are VALID or in DRAIN (R63). -/
def Hub.activeTunnels (c : Hub) : Nat := (c.liveEntries.filter (3 ≤ ·)).length
/-- The endpoints a unicast or multicast entry sends to, each with the outgoing TID (R60, R64). -/
def Hub.outputs (c : Hub) (t : Nat) : List (Nat × Nat) :=
  if c.isMcast t then
    let g := c.get (O.pathOut t)
    ((List.range 31).filter fun i => bit (c.get (O.mcastMembers g)) i).map fun i =>
      (memberEndpoint i, if i < 24 then c.get (O.mcastOutTid g i) else 0)
  else match endpointOf (c.get (O.pathOut t)) with
    | some e => [(e, c.get (O.pathOutTid t))]
    | none => []

/-! ## Values written to objects -/

/-- A two's-complement value of n bytes. -/
def signed (n v : Nat) : Int := if 2 * v < 256 ^ n then (v : Int) else (v : Int) - (256 ^ n : Nat)

/-- Whether the value passes its row's check (R7, R10, R459). A rule of the object's chapter is checked where it is applied. -/
def Row.accepts (r : Row) (v : Nat) : Bool :=
  let i : Int := match r.ty with | .i16 => signed 2 v | .i32 => signed 4 v | _ => v
  match r.chk with
  | .any => true
  | .range lo hi => decide (lo ≤ i ∧ i ≤ hi)
  | .oneOf vs => vs.contains v
  | .masked _ => true
  | .zeroOr lo hi => v == 0 || decide (lo ≤ v ∧ v ≤ hi)
  | .only x => decide (i = x)
  | .special => true

/-- The value kept: reserved bits are ignored (R6). -/
def Row.keeps (r : Row) (v : Nat) : Nat := match r.chk with | .masked m => Nat.land v m | _ => v

end Sys2Proof.Machine
end

