-- ==== Sys2Proof/Machine/Flags.lean ====
section
/-! DEFINITION. The status flags the hub computes: sticky status bits and the bits of DEGRADED. -/
namespace Sys2Proof.Machine

/-- The sticky status word of a source: word floor(s / 32) of STATUS_0–2 (R375). -/
def statusWord (s : Nat) : Obj := if s < 32 then O.status0 else if s < 64 then O.status1 else O.status2

/-- The sticky bit of a source set (R375). -/
def Hub.setStatus (c : Hub) (s : Nat) : Hub := c.put (statusWord s) (withBit (c.get (statusWord s)) (s % 32) true)

/-- Bits written as 1 cleared (R375). -/
def clearOnes (v w : Nat) : Nat := v - Nat.land v w

/-- The bit of DEGRADED of a source and unit (R371, 8006h.01). -/
def degradedBit (source unit : Nat) : Nat :=
  if unit ≤ 23 ∧ (source = 0 ∨ source = 25 ∨ (32 ≤ source ∧ source ≤ 58)) then unit
  else if 73 ≤ source ∧ source ≤ 76 then 24 + unit % 4
  else if 64 ≤ source ∧ source ≤ 66 then 28
  else if source = 26 ∨ source = 67 ∨ source = 68 then 29 + unit % 2
  else 31

end Sys2Proof.Machine
end

