-- ==== Sys2Proof/Machine/Buffer.lean ====
section
/-! DEFINITION. The shared buffer of the switch core (R77, R81–R96): its pools, admission, the two tiers of a queue, credit returns, and the
discards and teardowns that recoveries share (R69, R100, R101). Everything held stands in one list in enqueue order, so a queue's
packets keep that order across its head, its DRAM segment and its tail (R82, R92). -/
namespace Sys2Proof.Machine

/-! ## What is in use -/

/-- Cells one packet or open frame takes from the pools. -/
structure Share where
  q : Nat
  input : Nat
  mcast : Nat
  reserve : Nat
  iso : Nat
  shared : Nat
  credit : Nat

/-- The packets of a queue in one segment, oldest first. -/
def Hub.segment (c : Hub) (q : Nat) (s : Seg) : List Held := c.held.filter fun p => p.q == q && p.seg == s

/-- The packets of a queue, oldest first. -/
def Hub.queue (c : Hub) (q : Nat) : List Held := c.held.filter fun p => p.q == q

/-- The cells a list of packets stands in. -/
def cellSum (ps : List Held) : Nat := (ps.map Held.cells).sum

/-- The shares of the cell memory: packets in it, and cells set aside for open frames (R88). -/
def Hub.shares (c : Hub) : List Share :=
  ((c.held.filter fun p => p.seg != .dram).map fun p => ⟨p.q, p.input, p.mcast, p.reserve, p.iso, p.shared, p.credit⟩)
    ++ c.frames.map fun f => ⟨f.q, 33, f.mcast, f.reserve, 0, f.shared, 0⟩

/-- The shares with the copies of one multicast write counted once (R89). -/
def oncePerWrite (seen : List Nat) : List Share → List Share
  | [] => []
  | p :: rest =>
    if p.mcast = 0 then p :: oncePerWrite seen rest
    else if p.mcast ∈ seen then oncePerWrite seen rest
    else p :: oncePerWrite (p.mcast :: seen) rest

/-- Cells of the queue's own reserve in use. -/
def Hub.reserveUsed (c : Hub) (q : Nat) : Nat := ((c.shares.filter (·.q == q)).map Share.reserve).sum
/-- RESERVE of the queue's class (R83). -/
def Hub.reserveSize (c : Hub) (q : Nat) : Nat := c.get (O.reserve (q % 8))
/-- reserve_free of R85. -/
def Hub.reserveFree (c : Hub) (q : Nat) : Nat := c.reserveSize q - c.reserveUsed q
/-- ISO_USED (4103h.02). -/
def Hub.isoUsed (c : Hub) : Nat := ((oncePerWrite [] c.shares).map Share.iso).sum
/-- Free cells of the isochronous pool. -/
def Hub.isoFree (c : Hub) : Nat := c.get O.isoPool - c.isoUsed
/-- Shared cells charged to the queue (R85, R89). -/
def Hub.sharedCells (c : Hub) (q : Nat) : Nat := ((c.shares.filter (·.q == q)).map Share.shared).sum
/-- Shared cells in use. -/
def Hub.sharedUsed (c : Hub) : Nat := ((oncePerWrite [] c.shares).map Share.shared).sum
/-- CREDIT_CELLS_USED (4104h.04). -/
def Hub.creditUsed (c : Hub) : Nat := (c.shares.map Share.credit).sum
/-- Credit cells of one input in use. -/
def Hub.creditUsedOf (c : Hub) (input : Nat) : Nat := ((c.shares.filter (·.input == input)).map Share.credit).sum
/-- CELLS_USED (4100h.02). -/
def Hub.cellsUsed (c : Hub) : Nat :=
  ((oncePerWrite [] c.shares).map fun s => s.reserve + s.iso + s.shared + s.credit).sum
/-- The cells of the link ports', the PCIe adapter's and the management processor's credit pools (R83). -/
def Hub.creditPools (c : Hub) : Nat :=
  24 * (c.get O.creditCellsC0 + c.get O.creditCellsC4) + c.get H.pcieCellsInForce + c.get O.creditCellsMgmt
/-- The cells of the queue reserves (R83). -/
def Hub.reservePools (c : Hub) : Nat := 33 * ((List.range 8).map fun k => c.get (O.reserve k)).sum
/-- The size of the shared pool (R83). -/
def Hub.sharedSize (c : Hub) : Nat := 196608 - (c.reservePools + c.get O.isoPool + c.creditPools)
/-- Cells that queues and the isochronous pool use beyond a size that a write has lowered (R84). -/
def Hub.overUse (c : Hub) : Nat :=
  ((c.shares.map Share.q).eraseDups.map fun q => c.reserveUsed q - c.reserveSize q).sum + (c.isoUsed - c.get O.isoPool)
/-- F of R85, SHARED_FREE (4100h.03): never below 0 (R84). -/
def Hub.sharedFree (c : Hub) : Nat := c.sharedSize - c.overUse - c.sharedUsed
/-- SPILL_UNITS_USED (4106h.08): one unit per cell (R91). -/
def Hub.spillUnits (c : Hub) : Nat := cellSum (c.held.filter (·.seg == .dram))
/-- The 256 B units of the spill region (R91). -/
def Hub.spillRegion (c : Hub) : Nat := c.get O.spillSize * 1048576
/-- MCAST_CELLS (4109h.02). -/
def Hub.mcastCells (c : Hub) : Nat :=
  ((oncePerWrite [] (c.shares.filter (·.mcast != 0))).map fun s => s.reserve + s.iso + s.shared).sum
/-- Cells of a queue's tail (R93): those of the packets in it, and not those set aside for the rest of a frame (DESIGN CHOICE,
notes/assumptions/86.md). -/
def Hub.tailCells (c : Hub) (q : Nat) : Nat := cellSum (c.segment q .tail)
/-- CELLS_SRAM of a queue (4105h), and sram_cells of R85: those of its packets, as for the tail (DESIGN CHOICE, notes/assumptions/86.md). -/
def Hub.sramCells (c : Hub) (q : Nat) : Nat := cellSum ((c.queue q).filter (·.seg != .dram))

/-! ## Credit returns (R86, R156) -/

/-- A packet's cost is returned to the link it came on. -/
def Hub.returnCredit (c : Hub) (input cls cost : Nat) : Hub :=
  c.when (decide (input < 24)) fun c =>
    c.put (H.creditReturned input cls) ((c.get (H.creditReturned input cls) + cost) % 4096)

/-- A held packet's cells are freed: the credit of one that stood in credit cells returns now (R86). -/
def Hub.freeCells (c : Hub) (p : Held) : Hub := c.when (p.credit != 0) fun c => c.returnCredit p.input p.hdrClass p.credit

/-- A queue leaves spill once its DRAM segment and its tail are both empty (R92). -/
def Hub.leaveSpill (c : Hub) (q : Nat) : Hub :=
  c.when ((c.segment q .dram).isEmpty && (c.segment q .tail).isEmpty) fun c => c.put (O.queueStatusSpill q) 0

/-- A held packet leaves the buffer. -/
def Hub.remove (c : Hub) (p : Held) : Hub :=
  (({ c with held := c.held.erase p }).freeCells p).leaveSpill p.q

/-- A packet of a queue's class is lost: one of C0 or C4 is reported while several faults are in progress (R32). -/
def Hub.lossOf (c : Hub) (k tid : Nat) : Hub := c.when (k == 0 || k == 4) fun c => c.losslessLoss tid

/-- A held packet is discarded because its entry drains or its queue is emptied (R69, R101). -/
def Hub.teardownDiscard (c : Hub) (p : Held) : Hub := ((c.remove p).count (O.pathCountTeardownDiscards p.tid)).lossOf (p.q % 8) p.tid

/-! ## Admission (R85, R93) -/

/-- The cells an admitted packet takes from each pool, and the segment it joins. -/
structure Charge where
  reserve : Nat
  iso : Nat
  shared : Nat
  credit : Nat
  seg : Seg

/-- A link port through which no tunnel passes: its partner has detached (R21), or a REFUSE holds on it, of this hub's JOIN or of the
partner's (R18). -/
def Hub.portBarred (c : Hub) (e : Nat) : Bool :=
  decide (e < 24) && (c.flag (H.portLost e) || c.flag (H.refused e) || c.flag (H.refusedBelow e))

/-- What admission answers. -/
inductive Verdict where
  | takes (ch : Charge)
  | noCell
  | drop
  | spillDrop

/-- spilling(q) of R85. -/
def Hub.spilling (c : Hub) (q : Nat) : Bool := c.get (O.queueStatusSpill q) != 0

/-- spill_allowed(q) of R85: the class's bit of SPILL_ENABLE, a SPILL_SIZE, and a tier neither frozen nor isolated. -/
def Hub.spillAllowed (c : Hub) (q : Nat) : Bool :=
  (if q % 8 = 4 then bit (c.get O.spillEnable) 0 else if q % 8 = 6 then bit (c.get O.spillEnable) 1 else false)
    && c.get O.spillSize != 0 && c.get O.spillState == 0

/-- A queue enters spill: its present packets are its head (R92). -/
def Hub.enterSpill (c : Hub) (q : Nat) : Hub := (c.put (O.queueStatusSpill q) 1).count O.spillEntries

/-- tail test of R93 for n cells. -/
def Hub.admitTail (c : Hub) (q n : Nat) (mcast : Bool) : Verdict :=
  let r := if mcast then 0 else min n (c.reserveFree q)
  if c.tailCells q + n ≤ c.get O.spillTail ∧ n - r ≤ c.sharedFree then .takes ⟨r, 0, n - r, 0, .tail⟩
  else if q % 8 = 4 then .takes ⟨0, 0, 0, n, .tail⟩
  else .spillDrop

/-- The function of R85 for n cells: whether the queue enters spill, and the verdict. A multicast member's test takes no reserve and no
credit cells (R89). -/
def Hub.verdictOf (c : Hub) (q n : Nat) (mcast : Bool) : Bool × Verdict :=
  let k := q % 8
  let r := if mcast then 0 else min n (c.reserveFree q)
  let s := n - r
  let full := c.spillAllowed q && !c.spilling q && decide (c.get O.spillOn * 196608 ≤ 100 * c.cellsUsed)
    && decide (c.get O.spillQmin ≤ c.sramCells q)
  if k = 1 ∨ k = 2 ∨ k = 3 then
    let i := min s c.isoFree
    (false, if c.sharedFree < s - i then .noCell else .takes ⟨r, i, s - i, 0, .head⟩)
  else if full || c.spilling q then (full, c.admitTail q n mcast)
  else if 16 * (c.sharedCells q + s) ≤ 2 ^ c.get (O.alphaCode k) * c.sharedFree ∧ s ≤ c.sharedFree then
    (false, .takes ⟨r, 0, s, 0, .head⟩)
  else if c.spillAllowed q then (true, c.admitTail q n mcast)
  else if k = 0 ∨ k = 4 then (false, .takes ⟨0, 0, 0, n, .head⟩)
  else (false, .drop)

/-- A packet is appended to a queue: it is sampled by the queue's own count (R136) and counted for its entry, and the queue's peak follows. -/
def Hub.append (c : Hub) (p : Held) : Hub :=
  let k := c.get (H.appended p.q)
  let every := max 1 (c.get (O.histCfgSampleEvery p.q))
  let p := { p with sampled := k = 0, appended := c.now, stroke := c.stroke }
  let c := ({ c with held := c.held ++ [p] }).put (H.appended p.q) ((k + 1) % every)
  let c := (c.count (O.pathCountPackets p.tid)).count (O.pathCountBytes p.tid) p.pkt.size
  c.peak (O.queueStatusPeak p.q) (cellSum (c.queue p.q))

/-- A C1–C3 packet refused for want of cells: a policer discard of its tunnel (R85, R87). -/
def Hub.isoRefused (c : Hub) (tid : Nat) : Hub :=
  ((c.count O.isoNoCell).count (O.grantIsoDiscards tid)).raise 5 255 tid

/-- What a refused packet counts in (R85, R93, R96). -/
def Hub.refused (c : Hub) (q tid : Nat) (v : Verdict) : Hub :=
  match v with
  | .noCell => c.isoRefused tid
  | .spillDrop => (c.count O.spillDrops).raise 8 255 q
  | .drop => c.count (O.queueStatusDrops q)
  | .takes _ => c

/-- The cells an Ethernet frame of L bytes needs (R88). -/
def frameCells (L : Nat) : Nat := 5 * (L / 1024) + if L % 1024 = 0 then 0 else ceilDiv (16 + L % 1024) 256

/-- The open frame of an entry in a queue. -/
def Hub.openFrame (c : Hub) (tid q : Nat) : Option OpenFrame := c.frames.find? fun f => f.tid == tid && f.q == q

/-- The frame of an entry in a queue replaced, or closed. -/
def Hub.setFrame (c : Hub) (tid q : Nat) (f : Option OpenFrame) : Hub :=
  { c with frames := c.frames.filter (fun g => !(g.tid == tid && g.q == q)) ++ f.toList }

/-- Admission of one packet to one queue: an Ethernet frame is tested whole on its FIRST packet, and its later packets draw on the cells
set aside (R50, R88); any other packet is tested alone. -/
def Hub.offerTest (c : Hub) (tid q : Nat) (mcast : Bool) (p : Packet) : Bool × Verdict :=
  let n := cellsOf p.payload.length
  if p.type ≠ 3 then c.verdictOf q n mcast
  else if p.first then c.verdictOf q (frameCells (bits p.info.toNat 0 14)) mcast
  else match c.openFrame tid q with
    | none => (false, .drop)
    | some f =>
      let r := min n f.reserve
      (false, if f.reserve + f.shared < n then .drop else .takes ⟨r, 0, n - r, 0, if c.spilling q then .tail else .head⟩)

/-- What a verdict on one packet does at its queue. A FIRST packet opens its frame with the cells set aside for it, of which the packet takes
its own; one longer than the whole set-aside is dropped and its frame stays open (R88). A frame closes after its LAST packet (R50). `serial`
is 0 for unicast; the cells set aside for the members of a multicast frame count once under serial + 1. The answer says whether the queue
took the packet. A queue that entered spill for a packet it then refuses leaves it again, both segments being empty (R92). -/
def Hub.offerTake (c : Hub) (tid outTid q input serial : Nat) (cutoff : Bool) (p : Packet) (v : Bool × Verdict) : Hub × Bool :=
  let n := cellsOf p.payload.length
  let held : Charge → Held := fun ch =>
    { q := q, seg := ch.seg, tid := tid, outTid := outTid, input := input, hdrClass := p.cls, cells := n, reserve := ch.reserve,
      iso := ch.iso, shared := ch.shared, credit := ch.credit, mcast := serial, appended := 0, stroke := 0, sampled := false,
      heldOver := false, cutoff := cutoff, spilled := false, marked := none, shaper := if tid < 3 then 0xFFFF else c.get (O.pathShaper tid), pkt := p }
  let c := c.when v.1 fun c => c.enterSpill q
  let closes := decide (p.type = 3) && (p.first || p.last)
  match v.2 with
  | .takes ch =>
    if p.type ≠ 3 then (c.append (held ch), true)
    else if p.first then
      let opened : Nat → Nat → Hub := fun r s => c.setFrame tid q
        (if p.last then none else some { tid := tid, q := q, seg := ch.seg, reserve := r, shared := s, mcast := if serial = 0 then 0 else serial + 1 })
      if ch.reserve + ch.shared < n then (((opened ch.reserve ch.shared).count (O.queueStatusDrops q)).when v.1 fun c => c.leaveSpill q, false)
      else
        let r := min n ch.reserve
        ((opened (ch.reserve - r) (ch.shared - (n - r))).append (held { ch with reserve := r, shared := n - r }), true)
    else
      let rest := (c.openFrame tid q).map fun f => { f with reserve := f.reserve - ch.reserve, shared := f.shared - ch.shared }
      ((c.setFrame tid q (if p.last then none else rest)).append (held ch), true)
  | w => (((c.when closes fun c => c.setFrame tid q none).refused q tid w).when v.1 fun c => c.leaveSpill q, false)

/-- One packet offered to one queue. -/
def Hub.offer (c : Hub) (tid outTid q input : Nat) (cutoff : Bool) (p : Packet) : Hub × Bool :=
  c.offerTake tid outTid q input 0 cutoff p (c.offerTest tid q false p)

/-- USED_PEAK follows CELLS_USED (4100h). -/
def Hub.peakUsed (c : Hub) : Hub := c.peak O.usedPeak c.cellsUsed

/-- A unicast packet enqueued: its credit returns now unless it stands in credit cells (R86, R156). -/
def Hub.enqueue (c : Hub) (tid outTid q input : Nat) (cutoff : Bool) (p : Packet) : Hub :=
  let n := cellsOf p.payload.length
  match c.offer tid outTid q input cutoff p with
  | (c, true) =>
    c.peakUsed.when (((c.held.getLast?).map Held.credit).getD 0 == 0) fun c => c.returnCredit input p.cls n
  | (c, false) => c.peakUsed.returnCredit input p.cls n

/-- A multicast packet written once and offered to every member's queue but its own input's (R65, R89). Every member is tested on the state
before the packet, and they are appended in one step. A member whose port is barred is passed over, and its copy counted as a teardown discard
(R18, R21). -/
def Hub.enqueueAll (c : Hub) (tid cls input : Nat) (cutoff : Bool) (p : Packet) : Hub :=
  let members := (c.outputs tid).filter fun m => m.1 != input
  let members' := members.filter fun m => !c.portBarred m.1
  if members.isEmpty then (c.count O.discardNoMember).returnCredit input p.cls (cellsOf p.payload.length)
  else
    let serial := c.serial + 1
    let tested := members'.map fun m => (m, c.offerTest tid (queueOf m.1 cls) true p)
    let c := ({ c with serial := c.serial + 2 } : Hub).count (O.pathCountTeardownDiscards tid) (members.length - members'.length)
    let c := c.when (decide (members'.length < members.length)) fun c => c.lossOf cls tid
    let c := c.each tested fun c x =>
      match c.offerTake tid x.1.2 (queueOf x.1.1 cls) input serial cutoff p x.2 with
      | (c, true) => c
      | (c, false) => (c.count O.mcastMemberDrops).raise 29 255 tid
    c.peakUsed.returnCredit input p.cls (cellsOf p.payload.length)

/-- A shaper lets a packet for an output go: FFFFh names none, and a bucket must stand above 0 (R113). -/
def Hub.shaped (c : Hub) (s e : Nat) : Bool := s == 0xFFFF || decide (0 < c.getI (H.bucket s e))

/-! ## Discards, teardowns and emptied queues (R69, R71, R100, R101) -/

/-- The first moment of blanking at or after one, of a stream with attributes `a` (R301) whose line `line` began at `start` (R303): lines follow one
another by the stream's own timing, whether or not their first packets came. -/
def blankingFrom (a start line moment : Nat) : Nat :=
  let clock : Nat := a % 2 ^ 32
  let hactive : Nat := a / 2 ^ 32 % 2 ^ 16
  let htotal : Nat := a / 2 ^ 48 % 2 ^ 16
  let vactive : Nat := a / 2 ^ 96 % 2 ^ 16
  let vtotal : Nat := a / 2 ^ 112 % 2 ^ 16
  let pixel : Int := ((moment : Int) - (start : Int)) * (clock : Int) / 1000000000
  let lines : Int := pixel / (htotal : Int)
  if start = 0 ∨ clock = 0 ∨ htotal = 0 ∨ vtotal = 0 ∨ (hactive : Int) ≤ pixel % (htotal : Int) ∨ (vactive : Int) ≤ ((line : Int) + lines) % (vtotal : Int)
  then moment
  else ((start : Int) + (lines * (htotal : Int) + (hactive : Int)) * 1000000000 / (clock : Int)).toNat

/-- A pixel (INFO[15:13] 0) or secondary data packet (2) of a pass-through head leaves for the output (R303): pixels at their due time, and data in
the first blanking that follows theirs. -/
def Hub.showPacket (c : Hub) (x : StoredPacket) : Hub :=
  if bits x.pkt.info.toNat 13 3 = 2 then
    c.emit (.sdp x.head (blankingFrom (c.get (H.streamAttr x.head)) (c.get (H.lineStart x.head)) (c.get (H.lineAt x.head)) x.due) x.pkt.payload)
  else
    (c.when x.pkt.first fun c => (c.put (H.lineStart x.head) x.due).put (H.lineAt x.head) (bits x.pkt.info.toNat 0 13)).emit
      (.present x.head x.due x.pkt.payload)

/-- The packets of a pass-through head whose time has come leave before its stream stops. -/
def Hub.presentRest (c : Hub) (h : Nat) : Hub :=
  let now := c.lineStore.filter fun x => x.head == h && decide (x.due ≤ c.now) && bits x.pkt.info.toNat 13 3 != 1
  c.when (c.get (O.streamState h) == 2) fun c => ({ c with lineStore := c.lineStore.filter fun x => !now.contains x } : Hub).each now Hub.showPacket

/-- What a teardown ends at an egress adapter (R71): the Ethernet adapter's frame in reassembly, the field I/O slice's freshness,
and a pass-through head's running stream, which is lost (R305). -/
def Hub.endOutputs (c : Hub) (t : Nat) : Hub :=
  let c := { c with reassembly := c.reassembly.filter fun r => r.tid != t }
  let c := c.each ((c.outputs t).filter fun o => 27 ≤ o.1 && o.1 ≤ 30) fun c o =>
    c.when (c.get (O.streamState (o.1 - 27)) == 2) fun c => (c.presentRest (o.1 - 27)).put (O.streamState (o.1 - 27)) 3
  c.each ((c.instances (O.fioRxTid 0)).filter fun r => c.get (O.fioRxTid r) == t) fun c r => c.put (O.fioRxStatus r) 2

/-- One entry torn down at this hub: VALID 0 and DRAIN set (R69), and the cells set aside for a frame open on it returned (R88). -/
def Hub.teardownOne (c : Hub) (t : Nat) : Hub :=
  c.when (c.valid t) fun c =>
    let c := { c with frames := c.frames.filter fun f => f.tid != t }
    ((c.put (O.pathFlags t) (withBit (withBit (c.get (O.pathFlags t)) 0 false) 2 true)).put (H.drainCount t) 0).endOutputs t

/-- Whether the entry is one of a PCIe pair at this PCIe adapter (R47). -/
def Hub.pcieHere (c : Hub) (t : Nat) : Bool :=
  c.get (O.pathType t) == 2 && (c.get (O.pathIn t) == 0x20 || c.get (O.pathOut t) == 0x20)

/-- A teardown of an entry, with the paired entry of a PCIe pair at the same moment (R47, R69): the one its PAIR names, also where that one does not
name it back (DESIGN CHOICE, notes/assumptions/86.md). -/
def Hub.teardown (c : Hub) (t : Nat) : Hub :=
  let pair := c.get (O.pathPair t)
  let both := c.pcieHere t && pair != 0xFFFF && c.pcieHere pair
  (c.teardownOne t).when both fun c => c.teardownOne pair

/-- The entries whose path uses endpoint e at this hub (R23, R101). -/
def Hub.entriesUsing (c : Hub) (e : Nat) : List Nat :=
  (c.liveEntries.filter fun t => c.valid t && (endpointOf (c.get (O.pathIn t)) == some e || (c.outputs t).any (·.1 == e)))

/-- Every tunnel whose path uses endpoint e torn down. -/
def Hub.teardownUsing (c : Hub) (e : Nat) : Hub := c.each (c.entriesUsing e) fun c t => c.teardown t

/-- A packet discarded because its queue is emptied whole (R101, R102). -/
def Hub.emptied (c : Hub) (p : Held) : Hub :=
  let c := c.teardownDiscard p
  c.when (p.q % 8 == 6 && (p.seg == .dram || p.seg == .tail)) fun c => (c.count O.spillDrops).raise 8 255 p.q

/-- The queues of an output endpoint emptied whole, DRAM segments and tails included (R101). -/
def Hub.emptyQueues (c : Hub) (e : Nat) : Hub :=
  let c := c.each (c.held.filter fun p => p.q / 8 == e) fun c p => c.emptied p
  let c := c.each (c.staged.filter fun s => s.port == e && (s.cls == 0 || s.cls == 4)) fun c s => c.losslessLoss s.tid
  { c with frames := c.frames.filter (fun f => f.q / 8 != e), staged := c.staged.filter (fun s => s.port != e) }

/-- Every packet in either tier, in staging and with the management processor discarded (R102, stage 5). -/
def Hub.emptyBuffer (c : Hub) : Hub :=
  let c := c.each c.held fun c p => c.emptied p
  let c := c.each (c.staged.filter fun s => s.cls == 0 || s.cls == 4) fun c s => c.losslessLoss s.tid
  let c := c.each (c.mgmtWait.filter fun p => p.cls == 0 || p.cls == 4) fun c p => c.losslessLoss p.tid.toNat
  let c := c.each (c.arrived.filter fun a => a.pkt.cls == 0 || a.pkt.cls == 4) fun c a => c.losslessLoss a.pkt.tid.toNat
  { c with frames := [], staged := [], mgmtWait := [], arrived := [] }

/-- The C1–C3 tunnel packets queued for endpoint e discarded whole: policer discards of their tunnels (R30, R101, R109). -/
def Hub.discardIso (c : Hub) (which : Held → Bool) (stale : Bool) : Hub :=
  c.each (c.held.filter fun p => 1 ≤ p.q % 8 && p.q % 8 ≤ 3 && 3 ≤ p.tid && which p) fun c p =>
    let c := (c.remove p).count (O.grantIsoDiscards p.tid)
    c.when stale fun c => (c.count (O.egressStrokeStale (p.q / 8))).raise 19 255 p.tid

end Sys2Proof.Machine
end

