-- ==== Sys2Proof/Machine/PcieErrors.lean ====
section
/-! DEFINITION. What the functions of the PCI Express port signal and record (R254, R262): the MSI-X table and pending bits of the hub function, and the
Advanced Error Reporting and Device Status registers of every function. The meaning of the bits is that of PCI Express (PRESUMED,
notes/assumptions/40.md). -/
namespace Sys2Proof.Machine

/-! ## MSI-X (R262) -/

/-- The power state of the hub function: 0 D0, 3 D3hot (R254). -/
def Hub.powerState1 (c : Hub) : Nat := c.get (H.cfg 1 0x44) % 4

/-- A vector may be sent now: the function masters the bus, in D0, and neither it nor the vector is masked. -/
def Hub.msixFree (c : Hub) (v : Nat) : Bool :=
  bit (c.get (H.cfg 1 4)) 2 && c.powerState1 == 0 && !bit (c.get (H.cfg 1 0x48)) 30 && !bit (c.get (H.msixControl v)) 0

/-- Bytes of a host read from an offset in a BAR, cut where a multiple of 64 B ends (R254, R280). -/
def rcbPieces : Nat → Nat → Bytes → List Bytes
  | 0, _, _ => []
  | n + 1, at_, bs => if bs.length ≤ 64 - at_ % 64 then [bs] else bs.take (64 - at_ % 64) :: rcbPieces n (at_ - at_ % 64 + 64) (bs.drop (64 - at_ % 64))

/-- The completions of a host read, one for each 64 B of the BAR that it touches (R254). -/
def Hub.completeRead (c : Hub) (requester tag off : Nat) (bs : Bytes) : Hub :=
  c.each (rcbPieces (bs.length + 1) off bs) fun c piece => c.emit (.completion requester tag 0 piece)

/-- An MSI-X vector raised toward the PCIe partner (R262, R336, R377): sent where the host has enabled MSI-X, or left pending while it is masked.
Nothing is sent while the domain is off (R411). -/
def Hub.msix (c : Hub) (v : Nat) : Hub :=
  if c.domainsOn = false then c
  else if !bit (c.get (H.cfg 1 0x48)) 31 then c
  else if c.msixFree v then c.emit (.msix v (c.get (H.msixAddr v)) (c.get (H.msixData v)))
  else c.put H.msixPending (withBit (c.get H.msixPending) v true)

/-- The pending vectors that a write has unmasked are sent. -/
def Hub.msixSweep (c : Hub) : Hub :=
  c.each ((List.range 32).filter fun v => bit (c.get H.msixPending) v && bit (c.get (H.cfg 1 0x48)) 31 && c.msixFree v) fun c v =>
    (c.put H.msixPending (withBit (c.get H.msixPending) v false)).msix v

/-- A byte of the MSI-X table (8000h) or the pending-bit array (C000h) of BAR0. -/
def Hub.msixByte (c : Hub) (off : Nat) : Byte :=
  if 0x8000 ≤ off ∧ off < 0x8200 then
    let v := (off - 0x8000) / 16
    let k := off % 16
    BitVec.ofNat 8 (if k < 8 then c.get (H.msixAddr v) / 256 ^ k else if k < 12 then c.get (H.msixData v) / 256 ^ (k - 8)
      else c.get (H.msixControl v) / 256 ^ (k - 12))
  else if 0xC000 ≤ off ∧ off < 0xC008 then BitVec.ofNat 8 (c.get H.msixPending / 256 ^ (off - 0xC000))
  else 0

/-- A byte written into a register of n bytes. -/
def Hub.putByte (c : Hub) (o : Obj) (n k : Nat) (b : Byte) : Hub := c.put o (leNat ((leBytes (c.get o) n).set k b))

/-- A byte of the MSI-X table written; of Vector Control the mask bit alone, of the address all but the low two bits. -/
def Hub.msixWrite (c : Hub) (off : Nat) (b : Byte) : Hub :=
  if 0x8000 ≤ off ∧ off < 0x8200 then
    let v := (off - 0x8000) / 16
    let k := off % 16
    if k < 8 then c.putByte (H.msixAddr v) 8 k (if k = 0 then b &&& 0xFC else b)
    else if k < 12 then c.putByte (H.msixData v) 4 (k - 8) b
    else if k = 12 then c.put (H.msixControl v) (b.toNat % 2)
    else c
  else c

/-! ## Errors (R254) -/

/-- The kinds of uncorrectable error the port records, by their bit of Uncorrectable Error Status. -/
abbrev aerAbort : Nat := 15
abbrev aerMalformed : Nat := 18
abbrev aerUnsupported : Nat := 20
abbrev aerAcs : Nat := 21

/-- An error recorded in a function: its status bit; with the first unmasked one its number and the header of its TLP, free where no command brings it
(`tlp` empty; notes/assumptions/5.md); and the Device Status bits. A
non-fatal error that a completion answers (`answered`) is an advisory one, which counts as correctable. An error message goes to the host where
the function's controls enable it, and an error of the hub function or of a virtual downstream port that its mask lets through is detected as PCIE_AER
(R386). -/
def Hub.aerRecord (c : Hub) (f k : Nat) (answered : Bool) (tlp : Bytes) : Hub :=
  let mask := c.get (H.cfg f 0x108)
  let fatal := bit (Nat.xor (c.get (H.cfg f 0x10C)) 0x00462030) k
  let advisory := answered && !fatal
  let open_ := decide (Nat.land (c.get (H.aer f 0)) mask = c.get (H.aer f 0)) && !bit mask k
  let c := (c.put (H.aer f 0) (withBit (c.get (H.aer f 0)) k true)).when (f != 0 && !bit mask k) fun c => c.raise 65
  let c := c.when open_ fun c =>
    (c.put (H.aer f 2) k).each [0, 1, 2, 3] fun c i =>
      if tlp.isEmpty then c.draw.2.put (H.aer f (3 + i)) (c.draw.1 % 2 ^ 32)
      else c.put (H.aer f (3 + i)) (leNat (((tlp.drop (4 * i)).take 4).reverse))
  let c := c.when advisory fun c => c.put (H.aer f 1) (withBit (c.get (H.aer f 1)) 13 true)
  let severity := if advisory then 0 else if fatal then 2 else 1
  let status := withBit (withBit (c.get (H.aer f 7)) severity true) 3 (k == aerUnsupported || bit (c.get (H.aer f 7)) 3)
  let control := Nat.xor (c.get (H.cfg f 0x68)) 0x2810
  let corMask := Nat.xor (c.get (H.cfg f 0x114)) 0xE000
  let enabled := (bit control severity && (k != aerUnsupported || bit control 3)) || (severity != 0 && bit (c.get (H.cfg f 4)) 8)
  (c.put (H.aer f 7) status).when (enabled && !bit mask k && !(advisory && bit corMask 13)) fun c => c.emit (.errMessage f severity)

/-- The registers that record errors, as configuration space shows them. -/
def Hub.aerShown (c : Hub) (f reg : Nat) : Nat :=
  match reg with
  | 0x68 => 65536 * c.get (H.aer f 7)
  | 0x104 => c.get (H.aer f 0)
  | 0x110 => c.get (H.aer f 1)
  | 0x118 => c.get (H.aer f 2)
  | 0x11C => c.get (H.aer f 3)
  | 0x120 => c.get (H.aer f 4)
  | 0x124 => c.get (H.aer f 5)
  | 0x128 => c.get (H.aer f 6)
  | _ => 0

/-- Ones written to the status bits of a function clear them. -/
def Hub.aerClear (c : Hub) (f reg written : Nat) : Hub :=
  match reg with
  | 0x68 => c.put (H.aer f 7) (clearOnes (c.get (H.aer f 7)) (written / 65536 % 16))
  | 0x104 => c.put (H.aer f 0) (clearOnes (c.get (H.aer f 0)) written)
  | 0x110 => c.put (H.aer f 1) (clearOnes (c.get (H.aer f 1)) written)
  | _ => c

end Sys2Proof.Machine
end

