-- ==== Sys2Proof/Machine/RigEnds.lean ====
section
/-! DEFINITION. The ends of the rigger bridge's requests (R270, R275, R278–R282): the log of errors, read-ahead lines that go, what a request's end
does for its sender, and a hub that leaves the tree. -/
namespace Sys2Proof.Machine

/-! ## Errors (R275) -/

/-- An entry of ERR_LOG (5045h.00), with MSI-X vector 1 in the Cox and RIG_POSTED_ERROR. -/
def Hub.logRig (c : Hub) (source kind hub window seq count addr : Nat) : Hub :=
  let n := c.get H.errNext % 16
  let c := (((((c.put (O.errLogSource n) source).put (O.errLogKind n) kind).put (O.errLogHub n) hub).put (O.errLogWindow n) window).put
    (O.errLogSeq n) seq).put (O.errLogCount n) count
  let c := ((c.put (O.errLogAddress n) addr).put (O.errLogStroke n) c.stroke).put H.errNext ((n + 1) % 16)
  (c.when (c.get O.role == 2) fun c => c.msix 1).raise 70 255 n

/-- KIND of an ERR_LOG entry for a status: a gap, a window, a refusal, or a target that left (5045h.00). -/
def errKind (status : Nat) : Nat :=
  match status with | 0 => 1 | 1 => 2 | 2 => 2 | 8 => 4 | 0x0A => 4 | _ => 3

/-- SOURCE of an ERR_LOG entry. -/
def errSource : RigOrigin → Nat
  | .apertureWrite _ => 1 | .apertureRead _ _ => 1 | .slot _ => 2 | .poll _ _ => 3 | .own => 3

/-! ## Read-ahead (R278, R279) -/

/-- A line is discarded: its unread bytes are counted, and one of a SIDE_EFFECT window is reported. -/
def Hub.dropLine (c : Hub) (x : PrefetchLine) : Hub :=
  let c := { c with rigLines := c.rigLines.erase x }
  let c := c.count O.prefetchDiscards (x.read.filter (· == false)).length
  c.when x.sideEffect fun c => ((c.count O.sePrefetchDiscards).put O.sePrefetchLast x.offset).raise 71 255 x.offset

/-! ## Ends of requests (R270, R280, R281) -/

/-- The last part of a host read has arrived: its completions return the bytes, one for each 64 B of the aperture that it touches (R280). -/
def Hub.finishRead (c : Hub) (x : ApertureRead) : Hub :=
  if x.parts.all Option.isSome then
    let bs := x.parts.flatMap fun p : Option Bytes => p.getD []
    ({ c with rigReads := c.rigReads.filter fun y => y.id != x.id } : Hub).completeRead x.requester x.tag x.offset bs
  else c

/-- A host read ends with Completer Abort, which the hub function records (R254, R280). -/
def Hub.abortRead (c : Hub) (x : ApertureRead) : Hub :=
  (({ c with rigReads := c.rigReads.filter fun y => y.id != x.id } : Hub).aerRecord 1 aerAbort true []).emit (.completion x.requester x.tag 4 [])

/-- The claim of a hub by this one ends, and its own bus is free with it (R276, R282). -/
def Hub.claimOver (c : Hub) (hub : Nat) : Hub :=
  (c.put (H.claimOn hub) 0).when (c.get O.busClaimant == c.get O.hubAddress) fun c => c.put O.busClaimant 0xFF

/-- A request ends with a status and, for a READ, its bytes. A failed aperture write is logged with its BAR4 offset; a read part that fails
completes its host read with Completer Abort. -/
def Hub.endRig (c : Hub) (r : RigRequest) (status : Nat) (data : Bytes) : Hub :=
  let c := { c with rigOut := c.rigOut.erase r }
  let c := c.when (r.op == 6 || (r.op == 5 && status != 0)) fun c => c.claimOver r.hub
  match r.origin with
  | .slot k =>
    let c := ((c.put (O.reqSlotState k) 3).put (O.reqSlotStatus k) status)
    c.when (r.op == 1 && status == 0 || !data.isEmpty) fun c => c.put (O.reqSlotData k) (leNat data)
  | .apertureWrite bar => c.when (status != 0) fun c => c.logRig 1 (errKind status) r.hub r.window r.seq 1 bar
  | .apertureRead id place =>
    match c.rigReads.find? fun x => x.id == id with
    | none => c
    | some x =>
      if status ≠ 0 then c.abortRead x
      else
        let y : ApertureRead := { x with parts := x.parts.set place (some data) }
        ({ c with rigReads := c.rigReads.map fun z : ApertureRead => if z.id = id then y else z } : Hub).finishRead y
  | .poll v k => c.when (status == 0) fun c =>
    if k = 1 then c.putB (H.farUp v) (leNat (data.take 1) == 2)
    else if k = 2 then c.put (O.vdpFarSpeed v) (leNat (data.take 1))
    else c.put (O.vdpFarWidth v) (leNat (data.take 1))
  | .own => c

/-- Every waiting, outstanding or turned-away request to a hub ends with STATUS 0Ah, its lines go, its claim of this hub's bus ends, and with
this hub's claim of it this hub's own bus is free (R270, R276, R278, R282). -/
def Hub.rigLost (c : Hub) (hub : Nat) : Hub :=
  let rs := (c.rigOut ++ c.rigBack ++ c.rigWait).filter fun r => r.hub == hub
  let c := { c with rigOut := c.rigOut.filter (·.hub != hub), rigWait := c.rigWait.filter (·.hub != hub), rigBack := c.rigBack.filter (·.hub != hub) }
  let c := c.each rs fun c r => c.endRig r 0x0A []
  let c := c.each (c.rigLines.filter fun x => x.hub == hub) Hub.dropLine
  let c := c.when (c.flag (H.claimOn hub)) fun c => c.claimOver hub
  c.when (c.get O.busClaimant == hub) fun c => c.put O.busClaimant 0xFF

/-- The aperture writes that wait or have not ended (R280). -/
def Hub.apertureWrites (c : Hub) : Nat :=
  ((c.rigWait ++ c.rigOut ++ c.rigBack).filter fun r => r.op == 2 && match r.origin with | .apertureWrite _ => true | _ => false).length

end Sys2Proof.Machine
end

