-- ==== Sys2Proof/Machine/Wake.lean ====
section
/-! DEFINITION. The unannounced gaps of sleep and the wake from Easy and Paddle (R415, R416). -/
namespace Sys2Proof.Machine

/-- An unannounced gap ends (R416): the last 8 are kept, in µs; with 8 measured HISTORY is true and PREDICTED_GAP is their shortest. -/
def Hub.recordGap (c : Hub) : Hub :=
  let old := (List.range 7).map fun k => c.get (H.gap k)
  let new := (c.now - c.get H.sleptAt) / 1000
  let c := (new :: old).zipIdx.foldl (fun (c : Hub) (x : Nat × Nat) => c.put (H.gap x.2) x.1) c
  let n := min 8 (c.get H.gaps + 1)
  (c.put H.gaps n).when (n == 8) fun c => (c.putB O.sleepHistory true).put O.predictedGap (old.foldl min new)

/-- Work that was not announced arrives in Easy or Paddle: the gap ends and the hub is in Run (R415, R416). -/
def Hub.awake (c : Hub) : Hub :=
  if c.get O.powerState = 1 ∨ c.get O.powerState = 2 then c.recordGap.put O.powerState 0 else c

end Sys2Proof.Machine
end

