-- ==== Sys2Proof/Machine/Topology.lean ====
section
/-! DEFINITION. What the tree families share: topology events, JOIN, the loss of a link's partner, Orphans and time lock (R13–R27). -/
namespace Sys2Proof.Machine

/-- The hub is the Cox (R12). -/
def Hub.isCox (c : Hub) : Bool := c.get O.role == 2
/-- The hub is a Crew. -/
def Hub.isCrew (c : Hub) : Bool := c.get O.role == 1
/-- The hub is an Oar. -/
def Hub.isOar (c : Hub) : Bool := c.get O.role == 0
/-- TREE_STATE (1006h). -/
def Hub.treeIs (c : Hub) (s : Nat) : Bool := c.get O.treeState == s

/-- Epolarex Link mode is entered on the port (R224). -/
def Hub.modeEntered (c : Hub) (p : Nat) : Bool := c.get (O.modeState p) == 2
/-- The link of the port is Active or Quiet, and so carries packets or wakes to carry them (R158, R161). -/
def Hub.linkUp (c : Hub) (p : Nat) : Bool := c.get (O.linkState p) == 3 || c.get (O.linkState p) == 4
/-- The lanes of the port are trained (R173). -/
def Hub.trained (c : Hub) (p : Nat) : Bool := c.get (O.trainState p) == 9 || c.get (O.trainState p) == 10
/-- The ports below this hub: links up with the mode entered, other than the upstream port. -/
def Hub.downstream (c : Hub) : List Nat :=
  (List.range 24).filter fun p => c.linkUp p && c.modeEntered p && c.get O.upstreamPort != p

/-- The ports to hubs below, through which their management tunnels run: the mode entered, other than the upstream port, and the link Active,
Quiet, or on its way back from either through Retrain (R23). -/
def Hub.childPorts (c : Hub) : List Nat :=
  (List.range 24).filter fun p => c.modeEntered p && c.get O.upstreamPort != p
    && (c.linkUp p || c.get (O.linkState p) == 5 || (c.get (O.linkState p) == 2 && c.flag (H.resume p)))

/-- Valtoest's SVID (R222). -/
abbrev epxSvid : Nat := 0x3B5E

/-- A new message on SOP (0), SOP' (1) or SOP'' (2) of a port: its retries start over (R210), and the MessageID counter counts it (R213). -/
def Hub.newMessage (c : Hub) (p sop : Nat) : Hub := (c.put (H.goodCrc p sop) 0).put (H.msgId p sop) ((c.get (H.msgId p sop) + 1) % 8)

/-- A structured VDM sent on SOP. -/
def Hub.sendVdm (c : Hub) (p : Nat) (v : Vdm) : Hub := (c.newMessage p 0).emit (.vdm p v)

/-- Exit Mode sent by the DFP (R226). -/
def Hub.sendExit (c : Hub) (p : Nat) : Hub := ((c.put (O.modeState p) 3).put (H.vdmStep p) 5).sendVdm p (.exitMode epxSvid)

/-- This side ends the mode on a port (R226): the DFP sends Exit Mode, the UFP asks for it with Attention 01h. On the port of a sleeping child it waits
until the child is awake (R418). -/
def Hub.leaveMode (c : Hub) (p : Nat) : Hub :=
  if c.flag (H.childAsleep p) then c.put (H.pdHeld p) 1
  else if c.get (O.dataRole p) = 1 then c.sendExit p else c.sendVdm p (.attention epxSvid 1)

/-! ## The tree as the Cox knows it -/

/-- A hub of the tree is a Member; the Cox always is. -/
def Hub.memberAt (c : Hub) (a : Nat) : Bool := a == 0 || c.get (O.hubTableState a) == 2 && c.get (O.hubTableUid a) != 0

/-- The addresses in use or held, 1–254. -/
def Hub.known (c : Hub) : List Nat := (c.instances (O.hubTableUid 0)).filter fun a => decide (1 ≤ a ∧ a ≤ 254)

/-- TREE_HUBS (A000h): the enumerated hubs, the Cox included. An Asleep hub is not counted (DESIGN CHOICE, notes/assumptions/75.md). -/
def Hub.countHubs (c : Hub) : Hub := c.put O.treeHubs (1 + (c.known.filter c.memberAt).length)

/-! ## Topology events (R20, R22) -/

/-- The place of a new event: after the events of earlier strokes, in port order among those of its own stroke, and on one port in the order in
which they occurred (R20). An ATTACH followed by a DETACH of one port in one stroke therefore keeps that order (DESIGN CHOICE,
notes/assumptions/75.md: the rule also has the DETACH first). -/
def insertEvent (e : TopoEvent) : List TopoEvent → List TopoEvent
  | [] => [e]
  | x :: rest => if x.stroke = e.stroke ∧ e.port.toNat < x.port.toNat then e :: x :: rest else x :: insertEvent e rest

/-- SEQ of queued events counts on from the last event reported (R20). -/
def numberEvents (seq : Nat) : List TopoEvent → List TopoEvent
  | [] => []
  | x :: rest => { x with seq := BitVec.ofNat 16 (seq + 1) } :: numberEvents (seq + 1) rest

/-- The newest queued event becomes an overflow DETACH, keeping its SEQ and STROKE (R22). The newest is the last in SEQ order, which is the order
of strokes and ports (DESIGN CHOICE, notes/assumptions/75.md). -/
def overflowLast : List TopoEvent → List TopoEvent
  | [] => []
  | [x] => [{ x with port := 0xFF, kind := 2, reason := 6, uid := 0 }]
  | x :: rest => x :: overflowLast rest

/-- An overflow DETACH stands in the queue (R22). -/
def Hub.overflowQueued (c : Hub) : Bool := c.topo.any fun e => e.kind == 2 && e.port == 0xFF && e.reason == 6

/-- A topology event of a parent's port queued for the next REPORT (R20), or dropped under R22. -/
def Hub.topoEvent (c : Hub) (port kind reason uid : Nat) : Hub :=
  if c.overflowQueued then c
  else if 64 ≤ c.topo.length then
    (({ c with topo := overflowLast c.topo }).putB O.treeEventOverflow true).raise 22
  else
    let e : TopoEvent :=
      { seq := 0, reporter := BitVec.ofNat 8 (c.get O.hubAddress), port := BitVec.ofNat 8 port, kind := BitVec.ofNat 8 kind,
        reason := BitVec.ofNat 8 reason, uid := BitVec.ofNat 64 uid, stroke := BitVec.ofNat 64 c.stroke }
    { c with topo := numberEvents (c.get O.treeEventSeq) (insertEvent e c.topo) }

/-! ## Joining (enumeration table, R18) -/

/-- JOIN on a port, with HUB_UID, role and port number. -/
def Hub.sendJoin (c : Hub) (p : Nat) : Hub :=
  c.emit (.mgmtTo (some p) 0 (.join (c.get O.hubUid) (c.get O.role) p))

/-- The hub enters Joining on a port. From Unjoined its address is 255; from Asleep or Orphan it keeps the address last assigned. -/
def Hub.startJoining (c : Hub) (p : Nat) (fresh : Bool) : Hub :=
  let c := ((((c.put O.treeState 1).put H.joinPort p).putB H.joinFresh fresh).put O.upstreamPort 255).put O.depth 255
  (c.when fresh fun c => c.put O.hubAddress 255).sendJoin p

/-- The hub returns to Unjoined. -/
def Hub.unjoin (c : Hub) : Hub :=
  ((((c.put O.treeState 0).put H.joinPort 255).put O.hubAddress 255).put O.upstreamPort 255).put O.depth 255

/-- Epolarex Link mode is entered on the port and its link has trained: an Unjoined hub, or an Orphan on a port that is no former
downstream port, goes to Joining (enumeration table, R23), and so does an Asleep hub on its upstream port (R418). -/
def Hub.treeTrained (c : Hub) (p : Nat) : Hub :=
  if c.isCox || c.get O.role == 3 || !c.modeEntered p then c
  else if c.treeIs 0 && !c.flag (H.refused p) then c.startJoining p true
  else if c.treeIs 3 && !c.flag (H.formerDown p) then c.startJoining p false
  else if c.treeIs 4 && p == c.get O.upstreamPort then c.startJoining p false
  else c

/-! ## Orphans (R23) -/

/-- The route to an address is forgotten (R58), and with it the bridge's requests to the hub there, its lines and its claim (R270, R276, R278). -/
def Hub.forgetRoute (c : Hub) (a : Nat) : Hub := (c.restore (O.addrRoutePort a)).rigLost a

/-- A Member becomes an Orphan. It tears down the tunnels of a lost upstream port and keeps every other; it forgets the routes
below it (R58), loses the Cox with its upstream port, and sends ORPHAN on each downstream port, to destination 255, the address of a hub without one (DESIGN CHOICE,
notes/assumptions/86.md: R56 gives ORPHAN none). -/
def Hub.becomeOrphan (c : Hub) (lost : Option Nat) : Hub :=
  let down := c.childPorts
  let c := c.put H.lastUpstream (c.get O.upstreamPort)
  let c := (((c.put O.treeState 3).put O.upstreamPort 255).put O.depth 255).put H.orphanAt c.now |>.putB H.orphanKeeps true
  let c := match lost with | some p => c.teardownUsing p | none => c
  let c := (c.each (c.instances (O.addrRoutePort 0)) Hub.forgetRoute).rigLost 0
  (c.each down fun c p => ((c.putB (H.formerDown p) true).putB (H.rejoinDue p) true).emit (.mgmtTo (some p) 255 .orphan)).raise 21

/-- Every packet queued for a port whose partner has detached is discarded whole, as at a teardown (R21). -/
def Hub.flushLost (c : Hub) (p : Nat) : Hub :=
  let c := c.each (c.held.filter fun h => h.q / 8 == p) fun c h =>
    c.teardownDiscard h
  { c with frames := c.frames.filter fun f => f.q / 8 != p }

/-- The port's partner is gone. A Member that loses its upstream link becomes an Orphan (R23); a Joining hub whose JOIN the port
carried returns to Unjoined; any other port reports DETACH of its partner, the routes over it go, unless a full event queue drops the event and an overflow
DETACH covers it (R22), and what is queued for it is discarded (R20, R21, R58). The link of a
child that has sent SLEEP reports SLEEP instead, unless the port detached (R418). An Asleep hub holds its upstream link attached. -/
def Hub.partnerLost (c : Hub) (p : Nat) (detached : Bool := false) : Hub :=
  if c.treeIs 2 && c.get O.upstreamPort == p && !c.isCox then c.becomeOrphan (some p)
  else if c.treeIs 1 && c.get H.joinPort == p then c.unjoin
  else if c.treeIs 4 && c.get O.upstreamPort == p then c
  else if c.flag (H.childAsleep p) && !detached then c.topoEvent p 4 0 (c.get (H.partnerUid p))
  else if c.flag (H.portLost p) then c
  else
    let uid := c.get (H.partnerUid p)
    let reported := !c.overflowQueued && decide (c.topo.length < 64)
    let c := c.topoEvent p 2 0 uid
    let c := c.when reported fun c => c.each ((c.instances (O.addrRoutePort 0)).filter fun a => c.get (O.addrRoutePort a) == p) fun c a =>
      if c.isCox then c.restore (O.addrRoutePort a) else c.forgetRoute a
    (((c.flushLost p).put (H.partnerUid p) 0).putB (H.childAsleep p) false).putB (H.portLost p) true

/-- A JOIN reaches the parent on a port (R20, R24, R418): the first from this partner is an ATTACH, or a WAKE of one held asleep. A child that this
hub's ORPHAN made an Orphan attaches anew, also over a link that stayed up (R24). -/
def Hub.joinSeen (c : Hub) (p uid : Nat) : Hub :=
  let same := c.get (H.partnerUid p) == uid && !c.flag (H.rejoinDue p)
  if c.flag (H.childAsleep p) && same then (c.putB (H.childAsleep p) false).topoEvent p 5 0 uid
  else if same && !c.flag (H.portLost p) then c
  else ((((c.put (H.partnerUid p) uid).putB (H.portLost p) false).putB (H.childAsleep p) false).putB (H.rejoinDue p) false).topoEvent p 1 0 uid

/-- A Type-C detach of the port, or an exit from Epolarex Link mode on it: it is no former downstream port any more (R23), and JOIN
may be offered on it again, by this hub and by a new partner below it (enumeration table). -/
def Hub.freshPort (c : Hub) (p : Nat) : Hub := ((c.putB (H.refused p) false).putB (H.formerDown p) false).putB (H.refusedBelow p) false

/-! ## Time lock (R25, R27, R307, R308) -/

/-- The heads when the hub gains or loses time lock: a scan-out head on tree time locks or holds over, with its pair's
master where the pair is locked (R306); a pass-through head stops. -/
def Hub.headsTimeLock (c : Hub) (locked : Bool) : Hub :=
  c.each [0, 1, 2, 3] fun c h =>
    let o := if h % 2 = 1 ∧ c.flag (O.pairLock (h - 1)) = true then h - 1 else h
    let c := c.when (c.get (O.headMode h) == 1 && c.get (O.genlock o) == 1) fun c => c.put (O.genlockState h) (if locked then 1 else 2)
    c.when (!locked && c.get (O.headMode h) == 2) fun c => (c.presentRest h).put (O.streamState h) 1

/-- Time lock is lost: reported; C1–C3 go on until the next boundary and are held from it (R27). -/
def Hub.loseLock (c : Hub) : Hub :=
  if c.flag O.timeLock && !c.isCox then
    (((c.putB O.timeLock false).put H.syncGood 0).headsTimeLock false).raise 20
  else c

/-- Time lock is declared (R25). -/
def Hub.gainLock (c : Hub) : Hub := ((c.putB O.timeLock true).putB H.isoHold false).headsTimeLock true

end Sys2Proof.Machine
end

