-- ==== Sys2Proof/Machine/LinkOps.lean ====
section
/-! DEFINITION. What the link families share: payload rates and allowances (R79, R146), credits (R155), the link states and their
actions (R158, R460), and the lanes' bring-up states (R173, R180, R184). -/
namespace Sys2Proof.Machine

/-! ## Rates and allowances -/

/-- The scheduling rate of a link direction in Mb/s (R146). -/
def schedulingRate (gear lanes : Nat) (crypt : Bool) : Nat :=
  let row := match gear with
    | 1 => if crypt then [9000, 18000, 27000] else [9000, 19000, 28000]
    | 2 => if crypt then [18000, 37000, 55000] else [19000, 38000, 57000]
    | 3 => if crypt then [35000, 71000, 106000] else [36000, 73000, 110000]
    | 4 => if crypt then [56000, 113000, 170000] else [59000, 118000, 177000]
    | _ => []
  if lanes = 0 then 0 else row.getD (lanes - 1) 0

/-- The allowance of a link direction (R79). -/
def linkAllowance (gear lanes rate : Nat) : Nat :=
  if gear = 4 then 60000 * lanes else 1000 * ceilDiv (rate * 10154) 10000000

/-- The allowance of a link port by its state (R79): none while the link is Down or in bring-up; in Retrain, whose gear is not known, what it had;
else by the gear and lanes in force. -/
def Hub.portAllowance (c : Hub) (e lanes had : Nat) : Nat :=
  match c.get (O.linkState e) with
  | 0 | 1 => 0
  | 5 => had
  | _ => let g := c.get (H.trainGear e); linkAllowance g lanes (schedulingRate g lanes (c.flag (H.crypt e)))

/-- The allowance of a head's link on four lanes by rate code, scaled by lanes / 4 (R79). -/
def headAllowance (rate lanes : Nat) : Nat :=
  let full := match rate with | 0 => 27000 | 1 => 40000 | 2 => 54000 | 3 => 80000 | _ => 0
  1000 * ceilDiv (full * lanes) 4000

/-- The allowance of a MAC (R79): 29,000 at 25 Gb/s, 11,500 at 10 Gb/s and at the rates of USXGMII, 0 while its link is down. -/
def Hub.macAllowance (c : Hub) (m : Nat) : Nat :=
  if c.get (O.macLink m) = 0 ∨ c.get (O.macMode m) = 0 then 0 else if c.get (O.macMode m) = 1 then 29000 else 11500

/-- The allowance of the PCIe adapter (R79): lane rate × lanes while the link is up, in the Cox or an Oar. -/
def Hub.pcieAllowance (c : Hub) : Nat :=
  let rate := match c.get O.pcieLinkSpeed with | 1 => 2500 | 2 => 5000 | 3 => 8000 | 4 => 16000 | 5 => 32000 | _ => 0
  if c.coxPort || c.oarPort then rate * c.get O.pcieLinkWidth else 0

/-- The write allowance of input endpoint e (R79). The joint 8,000 of the field I/O adapter and the management processor stands at the first (DESIGN
CHOICE, notes/assumptions/91.md). -/
def Hub.inputAllowance (c : Hub) (e : Nat) : Nat :=
  if e < 24 then c.portAllowance e (c.get (O.rxLanes e)) (c.get (O.inAllowMbps e))
  else if e = 24 then c.pcieAllowance
  else if e < 27 then c.macAllowance (e - 25)
  else if e < 31 then
    if c.get (O.headMode (e - 27)) = 3 ∧ c.get (O.linkRate (e - 27)) ≠ 255 then
      headAllowance (c.get (O.linkRate (e - 27))) (c.get (O.headLanes (e - 27)))
    else 0
  else if e = 31 then 8000 else 0

/-- The read allowance of output endpoint e (R79), with the joint 8,000 as for the inputs. -/
def Hub.outputAllowance (c : Hub) (e : Nat) : Nat :=
  if e < 24 then c.portAllowance e (c.get (O.txLanes e)) (c.get (O.outAllowMbps e))
  else if e = 24 then c.pcieAllowance
  else if e < 27 then c.macAllowance (e - 25)
  else if e < 31 then
    if c.get (O.headMode (e - 27)) = 2 then
      if c.get (O.linkRate (e - 27)) ≠ 255 then headAllowance (c.get (O.linkRate (e - 27))) (c.get (O.headLanes (e - 27)))
      else headAllowance (c.get (O.linkRateMax (e - 27))) (c.get (O.lanesMax (e - 27)))
    else 0
  else if e = 31 then 8000 else 0

/-- Allowances, WRITE_COMMITTED, READ_COMMITTED and OVERCOMMIT recomputed after a change of rate, gear or mode (R79, R80). -/
def Hub.recompute (c : Hub) : Hub :=
  let c := c.each (List.range 33) fun c e =>
    (c.put (O.inAllowMbps e) (c.inputAllowance e)).put (O.outAllowMbps e) (c.outputAllowance e)
  let w := ((List.range 33).map fun e => c.inputAllowance e).sum
  let r := ((List.range 33).map fun e => c.outputAllowance e).sum
  let past := decide (4096000 < w ∨ 4096000 < r)
  let was := c.flag O.overcommit
  (((c.put O.writeCommitted w).put O.readCommitted r).putB O.overcommit past).when (past && !was) fun c => c.raise 6

/-! ## Credits -/

/-- Credits now available to this sender (R155, TX_CREDIT_AVAIL). -/
def Hub.creditAvail (c : Hub) (p k : Nat) : Nat :=
  c.get (O.peerCreditLimit p k) - (c.get (H.creditConsumed p k) + 4096 - c.get (H.peerReturned p k)) % 4096

/-- Bytes of packet data in a flit: 628, or 604 with encryption on (R146, R147). -/
def Hub.flitRoom (c : Hub) (p : Nat) : Nat := if c.flag (H.crypt p) then 604 else 628

/-! ## Lanes -/

/-- The gear ceiling (R179, R371): GEAR_MAX, Gear 3 while sag stage 3 or deeper is in force, and the ceiling of a degrade. -/
def Hub.gearCeilingNow (c : Hub) (p : Nat) : Nat :=
  let g := if 3 ≤ c.get O.sagStage then min 3 (c.get (O.gearMax p)) else c.get (O.gearMax p)
  if c.get (H.degradeCeiling p) = 0 then g else min g (c.get (H.degradeCeiling p))

/-- GEAR_CEILING shown (2006h.04). -/
def Hub.showCeiling (c : Hub) (p : Nat) : Hub := c.put (O.gearCeiling p) (c.gearCeilingNow p)

/-- Counts of training sets start over on entry into a bring-up state (R173). -/
def Hub.clearRuns (c : Hub) (p : Nat) : Hub :=
  ((c.each [0, 1, 2] fun c l => c.put (H.tsRun p l) 0).put (H.firstLaneAt p) 0).put (H.selRun p) 0

/-- The lanes enter a bring-up state. -/
def Hub.lanesTo (c : Hub) (p st : Nat) : Hub := ((c.put (O.trainState p) st).clearRuns p).put (H.selSent p) 0

/-- The receive lanes in use: 0 RX0, 1 RX1, 2 the turned TX1 (R168, R171). -/
def Hub.rxInUse (c : Hub) (p : Nat) : List Nat :=
  match c.get (H.laneUseNow p) with
  | 1 => [0]
  | 2 => [0, 1, 2]
  | _ => match c.get (H.rxDegraded p) with | 1 => [0] | 2 => [1] | _ => [0, 1]

/-- The lane number (0 TX0, 1 TX1, 2 RX0, 3 RX1) of a receive lane. -/
def rxLaneOf (l : Nat) : Nat := if l = 2 then 1 else 2 + l

/-- The lanes in use and turned shown in LANE_STATUS and LOGICAL_LANE for numbers of lanes sent and received (R168, R171). A degraded direction
runs on the lane that passed. -/
def Hub.showLanes (c : Hub) (p tx rx : Nat) : Hub :=
  let inUse : Nat → Bool := fun l => match l with
    | 0 => decide (1 ≤ tx) && !(tx == 1 && c.get (H.txDegraded p) == 2)
    | 1 => decide (2 ≤ tx ∨ rx = 3) || (tx == 1 && c.get (H.txDegraded p) == 2)
    | 2 => decide (1 ≤ rx) && !(rx == 1 && c.get (H.rxDegraded p) == 2)
    | _ => decide (2 ≤ rx ∨ tx = 3) || (rx == 1 && c.get (H.rxDegraded p) == 2)
  let turned : Nat → Bool := fun l => (l == 1 && rx == 3) || (l == 3 && tx == 3)
  c.each [0, 1, 2, 3] fun c l =>
    let c := c.put (O.laneStatus p l) (withBit (withBit (c.get (O.laneStatus p l)) 3 (inUse l)) 4 (turned l))
    if !inUse l then c.put (O.logicalLane p l) 255
    else if turned l then c.put (O.logicalLane p l) 2
    else if l < 2 then c.put (O.logicalLane p l) l
    else if c.get (O.logicalLane p l) = 255 then c.put (O.logicalLane p l) (if bit (c.get (O.laneStatus p l)) 5 then 3 - l else l - 2)
    else c

/-- The transmit lanes in use: RX1 last where it is turned (R168, R171). -/
def Hub.txInUse (c : Hub) (p : Nat) : List Nat :=
  match c.get (H.laneUseNow p) with
  | 1 => [0, 1, 3]
  | 2 => [0]
  | _ => match c.get (H.txDegraded p) with | 1 => [0] | 2 => [1] | _ => [0, 1]

/-- A receive lane has equalised at a gear since the last Detect: the partner keeps the coefficients it then had for the lane (R177). -/
def Hub.eqKept (c : Hub) (p l g : Nat) : Bool := bit (c.get (H.keptRx p l)) g

/-- The lanes enter Equalise at a gear (R177, R181): preset 4 at Gears 1 and 2, presets in turn at Gears 3 and 4, and on a lane that has kept
coefficients only a check of them. -/
def Hub.toEqualise (c : Hub) (p gear : Nat) : Hub :=
  let c := ((c.lanesTo p 5).put (H.trainGear p) gear).put (H.peerTsFlags p) 0
  let c := c.each [0, 1, 2] fun c l =>
    let kept := c.eqKept p l gear
    let c := ((c.put (H.fom p l) 0).put (H.eqBest p l) 0).put (H.eqBestPreset p l) 15
    let c := (c.put (H.eqPreset p l) (if gear ≤ 2 then 4 else 0)).put (H.eqSteps p l) (if gear ≤ 2 ∨ kept = true then 2 else 0)
    c.put (H.eqReq p l) (if kept then 0x0F else if gear ≤ 2 then 4 else 0)
  c.each (c.txInUse p) fun c l =>
    c.when (c.get (H.keptCoef p l gear) != 0) fun c => c.put (O.txCoef p l) (c.get (H.keptCoef p l gear))

/-- The coefficients of a gear that has trained are kept for it on each lane that sends, and each lane that receives is noted (R177). TX_COEF of a
receive lane that is not turned reads 0. -/
def Hub.keepCoefs (c : Hub) (p gear : Nat) : Hub :=
  let c := c.each [0, 1, 2, 3] fun c l =>
    if (c.txInUse p).contains l then
      let v := c.get (O.txCoef p l) % 2 ^ 24 + 2 ^ 24 * gear
      (c.put (O.txCoef p l) v).put (H.keptCoef p l gear) v
    else if 2 ≤ l then c.put (O.txCoef p l) 0
    else c
  c.each (c.rxInUse p) fun c l => c.put (H.keptRx p l) (withBit (c.get (H.keptRx p l)) gear true)

/-- The count of sync headers starts anew for each lane of a port (R142). -/
def Hub.clearHeaders (c : Hub) (p : Nat) : Hub := c.each [0, 1, 2] fun c l => c.put (H.headerWindow p l) 0

/-- The codewords of a port count from the first lane on, none of them uncorrectable yet (R144, R185). -/
def Hub.clearWords (c : Hub) (p : Nat) : Hub := (c.put (H.wordLane p) 0).each [0, 1, 2] fun c l => c.put (H.badWords p l) 0

/-- The lanes enter Lock, none of those in use locked yet (R173, R178). -/
def Hub.toLock (c : Hub) (p : Nat) : Hub :=
  let c := c.each (c.rxInUse p) fun c l => c.put (O.laneStatus p (rxLaneOf l)) (withBit (c.get (O.laneStatus p (rxLaneOf l))) 1 false)
  ((c.clearHeaders p).lanesTo p 6).put (H.deskewed p) 0

/-- Lanes of an Active link that take adaptation updates (R187). -/
def Hub.adapts (c : Hub) (p l : Nat) : Bool :=
  c.get (O.linkState p) == 3 && bit (c.get (O.laneStatus p l)) 3 && (if 2 ≤ l then !bit (c.get (O.laneStatus p l)) 4 else bit (c.get (O.laneStatus p l)) 4)

/-- A sum over the first n places of a run. -/
def traceSum (f : Nat → Nat) : Nat → Nat
  | 0 => 0
  | n + 1 => traceSum f n + f n

/-- Updates a lane has had since its link became Active: in each microsecond one, and how many more is free (R187, notes/assumptions/5.md). -/
def Hub.adaptSince (c : Hub) (p l : Nat) : Nat :=
  if c.adapts p l then
    let n := (c.now - c.get (H.adaptAt p)) / 1000
    n + traceSum (fun k => Config.freeTrace (c.get (H.adaptSeed p)) (4 * k + l)) n
  else 0

/-- The adaptation of a port's lanes begins: the link is Active. -/
def Hub.adaptStart (c : Hub) (p : Nat) : Hub := (({ c with draws := c.draws + 1 } : Hub).put (H.adaptSeed p) c.draws).put (H.adaptAt p) c.now

/-- The adaptation updates of a port's lanes counted, as the link leaves Active (R187). -/
def Hub.adapted (c : Hub) (p : Nat) : Hub :=
  c.each [0, 1, 2, 3] fun c l => c.when (c.adapts p l) fun c => c.count (O.rxAdaptUpdates p l) (c.adaptSince p l)

/-- The link leaves Active, if it is: the updates of its lanes are counted (R187). -/
def Hub.adaptEnd (c : Hub) (p : Nat) : Hub := c.when (c.get (O.linkState p) == 3) fun c => c.adapted p

/-! ## What this side's training sets carry (R172, R458) -/

/-- This side is a Member; the Cox always is (R168). -/
def Hub.isMember (c : Hub) : Bool := c.isCox || c.treeIs 2
/-- The gears this side offers: bit g − 1 for Gear g, up to its ceiling (R179). -/
def Hub.gearsOffered (c : Hub) (p : Nat) : Nat := 2 ^ c.gearCeilingNow p - 1

/-- The target gear (R179): the highest that both sides offer and neither has marked failed; Gear 1 where none is left. -/
def Hub.targetGear (c : Hub) (p : Nat) : Nat :=
  let ok : Nat → Bool := fun g => bit (c.gearsOffered p) (g - 1) && bit (c.get (H.peerGears p)) (g - 1) && !bit (c.get (O.gearsFailed p)) (g - 1)
  ([4, 3, 2].find? ok).getD 1

/-- Every lane in use meets equalisation: its search has ended and its figure of merit reaches EQ_FOM_MIN (R177). -/
def Hub.equalised (c : Hub) (p : Nat) : Bool :=
  (c.rxInUse p).all fun l => c.get (H.eqSteps p l) == 2 && decide (c.get (O.eqFomMin p) ≤ c.get (H.fom p l))

/-- READY and HOLD_REASON by this side's unmet conditions, bit 0 the lane PLL and bit 1 power, and READY_HOLD (R175). -/
def Hub.holdNow (c : Hub) (p unmet : Nat) : Hub :=
  let own := unmet + if c.flag (O.readyHold p) then 4 else 0
  let c := (c.put (H.ownHold p) unmet).putB (H.readySent p) (own == 0)
  c.put (O.holdReason p) (own + 16 * bits (c.get (O.holdReason p)) 4 3)

/-- The logical lane that a receive lane carries, as far as the training sets have shown it. -/
def Hub.logicalRx (c : Hub) (p l : Nat) : Nat := let k := c.get (O.logicalLane p (rxLaneOf l)); if k = 255 then l else k

/-- The training set that a transmit lane now sends (R172): figures and requests are those of the receive lane of the same logical number. -/
def Hub.ownTs (c : Hub) (p lane : Nat) : Bytes :=
  let st := c.get (O.trainState p)
  let k := if lane = 3 then 2 else lane
  let rx := (c.rxInUse p).find? fun l => c.logicalRx p l == k
  let b : Bool → Nat → Nat := fun x v => if x then v else 0
  let locked := (c.rxInUse p).all fun l => bit (c.get (O.laneStatus p (rxLaneOf l))) 1
  let flags := b (c.flag (H.readySent p)) 1 + b (5 ≤ st && c.equalised p) 2 + b (6 ≤ st && locked) 4 + b (7 ≤ st && c.flag (H.deskewed p)) 8
    + b (bit (c.get (O.laneStatus p 2)) 5) 16 + b (c.get (H.rxDegraded p) != 0) 32
  let ok := if c.get (H.rxDegraded p) = 0 then (2 ^ (c.rxInUse p).length - 1) else ((c.rxInUse p).map fun l => 2 ^ c.logicalRx p l).sum
  let bytes := leBytes (0x5A + 256 * st + 2 ^ 16 * k + 2 ^ 24 * flags) 4
    ++ leBytes (c.gearsOffered p + 16 * bits (c.get (O.gearsFailed p)) 0 4) 1 ++ leBytes (if st = 8 then c.targetGear p else 0) 1
    ++ leBytes (c.get (O.laneUse p) % 4 + b c.isMember 4) 1
    ++ leBytes (match rx with | some l => if st = 5 then c.get (H.eqReq p l) else 0x0F | none => 0x0F) 1
    ++ leBytes (match rx with | some l => c.get (H.fom p l) | none => 0) 1
    ++ leBytes (c.get (H.ownHold p) + b (c.flag (O.readyHold p)) 4) 1 ++ leBytes (c.get (H.tsCount p lane)) 2 ++ leBytes ok 1 ++ [0]
  bytes ++ leBytes (headerCheck bytes) 2

/-- In the bring-up states from the stake-boat hold on, every transmit lane in use sends training sets back to back (R458). One is given here after
each command that acts on the lanes: how many go out before the next is timing (notes/assumptions/78.md). -/
def Hub.sendTs (c : Hub) (p : Nat) : Hub :=
  if 3 ≤ c.get (O.trainState p) ∧ c.get (O.trainState p) ≤ 8 then
    c.each (c.txInUse p) fun c l => (c.emit (.ts p l (c.ownTs p l))).put (H.tsCount p l) ((c.get (H.tsCount p l) + 1) % 65536)
  else c

/-- The coefficients kept at every gear go, on every lane of a port: the bring-up that follows searches anew (R177, R181). -/
def Hub.dropKept (c : Hub) (p : Nat) : Hub :=
  c.each [0, 1, 2, 3] fun c l => (c.put (H.keptRx p l) 0).each [1, 2, 3, 4] fun c g => c.put (H.keptCoef p l g) 0

/-- The lanes enter Detect (R173, R176): the failed gears, the corrections, the lane map, a degraded lane and the kept coefficients go. -/
def Hub.toDetect (c : Hub) (p : Nat) : Hub :=
  let c := (((((c.lanesTo p 1).put (O.gearsFailed p) 0).put (H.peerFailed p) 0).put (H.rxDegraded p) 0).put (H.txDegraded p) 0).put (H.readySent p) 0
  let c := ((c.put (H.trainGear p) 1).put (O.gear p) 0).put (H.rateTarget p) 0
  let c := c.when (c.get (O.linkState p) != 5) fun c => c.put (H.trainAt p) c.now
  let c := (c.put (H.laneUseNow p) 0).putB (H.fullRetrain p) true
  let c := c.each [0, 1, 2, 3] fun c l =>
    (c.put (O.laneStatus p l) (Nat.land (c.get (O.laneStatus p l)) 0x03)).put (O.logicalLane p l) 255
  let c := (c.dropKept p).put (H.idleWake p) 0
  c.when (c.get (O.linkState p) == 0) fun c => c.put (O.linkState p) 1

/-- The lanes go to Off, in electrical idle (R173, R174). -/
def Hub.lanesOff (c : Hub) (p : Nat) : Hub :=
  let c := (((((c.adaptEnd p).lanesTo p 0).put (O.gear p) 0).put (O.txLanes p) 0).put (O.rxLanes p) 0).put (H.idleWake p) 0
  let c := c.showLanes p 0 0
  c.when (c.get (O.linkState p) == 1) fun c => c.put (O.linkState p) 0

/-- The lanes leave Off where the mode is entered and LINK_ENABLE is true (R173), once the hub forwards (R427). -/
def Hub.lanesStart (c : Hub) (p : Nat) : Hub :=
  if c.modeEntered p && c.flag (O.linkEnable p) && c.get (O.trainState p) == 0 && c.flag O.forwarding && c.get O.role != 3 then
    c.toDetect p
  else c

/-- A failure counted in TRAIN_FAILS; a run of three is reported once (R180). -/
def Hub.trainFail (c : Hub) (p : Nat) : Hub :=
  let c := c.count (O.trainFails p)
  let run := c.get (H.failRun p) + 1
  (c.put (H.failRun p) (min run 4)).when (run == 3) fun c => c.raise 42 p

/-- A receive lane of the port marked degraded out; the direction runs on the other (R171). -/
def Hub.degradeLane (c : Hub) (p bad : Nat) : Hub :=
  let l := 2 + bad
  ((c.put (O.laneStatus p l) (withBit (c.get (O.laneStatus p l)) 6 true)).put (H.rxDegraded p) (2 - bad)).raise 41 p

/-- A failure in Equalise, Lock, Deskew or Gear negotiation (R180); a fast retrain goes on as a full bring-up (R181). `failing` names the receive lanes that fail; `next` is
where bring-up continues when one lane of a direction of two is left out (R171). -/
def Hub.bringUpFail (c : Hub) (p : Nat) (failing : List Nat) (next : Nat) : Hub :=
  let g := c.get (H.trainGear p)
  let c := c.put (H.rateTarget p) 0
  if c.get (O.linkState p) = 5 ∧ c.flag (H.fullRetrain p) = false then
    (((c.dropKept p).putB (H.fullRetrain p) true).put (H.trainGear p) 1).lanesTo p 4
  else if 2 ≤ g then (c.put (O.gearsFailed p) (withBit (c.get (O.gearsFailed p)) (g - 1) true)).toEqualise p 1
  else match failing with
    | [l] => if c.rxInUse p = [0, 1] then (c.degradeLane p l).lanesTo p next else (c.trainFail p).toDetect p
    | _ => (c.trainFail p).toDetect p

/-! ## Link states (R158) -/

/-- The port's replay buffer, with the flits kept aside, its partial packet and its staging emptied: what the egress has chosen and no flit carries yet goes
with the link, although the queues keep theirs (R460; DESIGN CHOICE, notes/assumptions/93.md). -/
def Hub.dropLinkBuffers (c : Hub) (p : Nat) : Hub :=
  { c with replay := c.replay.filter (fun f => f.port != p), kept := c.kept.filter (fun f => f.port != p), rxPart := c.rxPart.filter (fun f => f.port != p),
           staged := c.staged.filter (fun f => f.port != p) }

/-- The C0 and C4 packets that a port's staging and replay buffers lose, where several faults are in progress (R32). Whether the partner has
received a flit that it has not acknowledged is not known here: such packets are reported too (DESIGN CHOICE, notes/assumptions/77.md). -/
def Hub.reportLinkLosses (c : Hub) (p : Nat) : Hub :=
  let waiting := (c.staged.filter fun s => s.port == p && (s.cls == 0 || s.cls == 4)).map Staged.tid
  c.each (((c.replay.filter fun f => f.port == p).flatMap ReplayFlit.lossless) ++ waiting) fun c t => c.losslessLoss t

/-- The next-epoch keys of a port go (R355, R366). -/
def Hub.dropNextKeys (c : Hub) (p : Nat) : Hub :=
  ((c.put (H.sessionKey p 2) 0).put (H.sessionKey p 3) 0).when (c.get (O.linkCryptoKeyState p) == 3) fun c => c.put (O.linkCryptoKeyState p) 1

/-- The link goes Down: nothing of the session stays, the retrain in progress is done (R378), and the tree effects follow (R21, R23). -/
def Hub.linkDown (c : Hub) (p : Nat) (detached : Bool := false) : Hub :=
  if c.get (O.linkState p) = 0 ∨ c.get (O.linkState p) = 1 then c
  else
    let c := (((c.adaptEnd p).put (O.linkState p) 0).put (O.payloadRate p) 0).put (O.rxPayloadRate p) 0
    let c := (((c.putB (O.retrainRequest p) false).put (H.quietSent p) 0)).put (H.crypt p) 0
    let c := (c.dropNextKeys p).each [0, 1] fun c k => c.put (H.sessionKey p k) 0
    let c := ((((c.reportLinkLosses p).dropLinkBuffers p).put (H.gearDue p) 0).reactionDone 1 p).reactionDone 5 p
    let bringUp := decide (1 ≤ c.get (O.trainState p) ∧ c.get (O.trainState p) ≤ 8)
    ((c.partnerLost p detached).recompute).when bringUp fun c => c.put (O.linkState p) 1

/-- Active to Retrain (R158): the cause is shown and counted, a shadow window opens (R378), next-epoch keys go (R355, R366), and the lanes
pass through Wake (R173, R181). `source` is the Umpire source the retrain answers, 255 for none, and `fault` its fault in progress, 0 where the
window finds its own (R382). -/
def Hub.retrainFor (c : Hub) (p cause source : Nat) (fault : Nat := 0) : Hub :=
  let c := ((c.adapted p).put (O.linkState p) 5).count (O.retrains p) |>.put (O.lastRetrainCause p) cause
  let c := (((c.putB (O.retrainRequest p) false).put (O.payloadRate p) 0).put (O.rxPayloadRate p) 0).put (H.retrainAt p) c.now
  let c := (((c.putB (H.retrainCrossed p) false).put (H.trainAt p) c.now).put (H.quietSent p) 0).put (O.gear p) 0
  let c := ((c.put (H.gearDue p) 0).put (H.idleWake p) 0).dropNextKeys p
  let c := { (c.lanesTo p 2).emit (.laneWake p) with rxPart := c.rxPart }
  c.openWindow source 1 p false fault

/-- A retrain that the link reports as the Umpire source it answers, 255 for none. -/
def Hub.enterRetrain (c : Hub) (p cause source : Nat) : Hub := (c.when (source != 255) fun c => c.raise source p).retrainFor p cause source

/-- Retrain with cause 03h for a change of the gear ceiling (R164, R184), as part of the reaction to a source, 255 for none, and of its fault in
progress, 0 where the window finds its own (R382): a full bring-up (R181).
R158 starts one from Active alone: a link in Init or Quiet does once it is Active (DESIGN CHOICE, notes/assumptions/77.md). -/
def Hub.gearRetrain (c : Hub) (p : Nat) (source : Nat := 255) (fault : Nat := 0) : Hub :=
  match c.get (O.linkState p) with
  | 3 => (c.putB (H.fullRetrain p) true).retrainFor p 3 source fault
  | 2 | 4 => (c.put (H.gearDue p) (if source = 255 then 255 else source + 1)).put (H.gearFault p) fault
  | _ => c

/-- A change of gear that waited for the link to be Active (R184). -/
def Hub.gearNow (c : Hub) (p : Nat) : Hub :=
  let due := c.get (H.gearDue p)
  if due = 0 then c else c.gearRetrain p (if due = 255 then 255 else due - 1) (c.get (H.gearFault p))

/-- The hub may use Quiet on the port (R160): QUIET_ENABLE, and a sleep selection of Paddle or deeper. -/
def Hub.quietAllowed (c : Hub) (p : Nat) : Bool := c.flag (O.quietEnable p) && 2 ≤ c.get O.powerState

/-- Both sides idle their lanes (R160, R183). -/
def Hub.enterQuiet (c : Hub) (p : Nat) : Hub := (((c.adapted p).put (O.linkState p) 4).put (H.quietSent p) 0).lanesTo p 10

/-- A wake of a Quiet link starts: one wake burst, then training sets until every lane has relocked (R161, R173, R183). -/
def Hub.startWake (c : Hub) (p : Nat) : Hub :=
  if c.get (O.linkState p) = 4 ∧ c.get (O.trainState p) = 10 then
    ((((c.toLock p).put (O.gear p) 0).put (H.idleWake p) 1).emit (.laneWake p)).sendTs p
  else c

/-- The installation key of a port (R345, R354). -/
def Hub.linkKey (c : Hub) (p : Nat) : Option Nat := c.slotKey (c.get (O.linkCryptoKeySlot p)) 0

/-- The parity of GEN of the slot that a port names (R353); 0 where it names none. -/
def Hub.linkParity (c : Hub) (p : Nat) : Nat := c.get (O.keySlotGen (c.get (O.linkCryptoKeySlot p))) % 2

/-- The nonce of a side: drawn on entry to Init, and kept until it leaves Init (R352). With a key the port then sends its record (R356). -/
def Hub.drawNonce (c : Hub) (p : Nat) : Hub :=
  let d := ((c.putB (H.nonceDrawn p) true).putB (H.hasKey p) (c.linkKey p).isSome).random
  d.2.put (H.ownNonce p) d.1

/-- KEY_STATE and the report of a port by whether it has a key (R356): a port with CRYPT_ENABLE true and none reads 02h, is reported once for each
entry into that condition, and in Init sends no NONCE record; one that has a key again reads 01h. A port in an encrypted Init needs a key also after
CRYPT_ENABLE was written false; it follows the parity of GEN (R353), and a key gained there has it send its record. -/
def Hub.keyCondition (c : Hub) (p : Nat) : Hub :=
  let init := c.get (O.linkState p) == 2 && c.flag (H.crypt p)
  let none_ := (c.flag (O.cryptEnable p) || init) && (c.linkKey p).isNone
  let draws := init && !none_ && !c.flag (H.nonceDrawn p) && c.get O.rngState != 2
  let c := c.when init fun c => (c.put (H.keyParity p 0) (c.linkParity p)).putB (H.hasKey p) (!none_ && c.flag (H.nonceDrawn p))
  let c := c.when draws fun c => c.drawNonce p
  if none_ then
    let c := c.dropNextKeys p
    if c.get (O.linkCryptoKeyState p) = 2 then c else (c.put (O.linkCryptoKeyState p) 2).raise 39 p
  else if c.get (O.linkCryptoKeyState p) = 2 then c.put (O.linkCryptoKeyState p) (if c.flag (O.cryptEnable p) || c.flag (H.crypt p) then 1 else 0)
  else c

/-- The port stays in Init without a NONCE record: it has a key, and the failed random generator draws nothing (R365). -/
def Hub.awaitsNonce (c : Hub) (p : Nat) : Bool :=
  c.get O.rngState == 2 && c.get (O.linkState p) == 2 && c.flag (H.crypt p) && !c.flag (H.nonceDrawn p)
    && (c.linkKey p).isSome

/-- A slot used (R351): where its check now fails, every port that names it has no key any more (R356). -/
def Hub.usedSlot (c : Hub) (s : Nat) : Hub :=
  let d := c.useSlot s
  if d.get (O.keySlotState s) = c.get (O.keySlotState s) then d
  else d.each ((List.range 24).filter fun p => d.get (O.linkCryptoKeySlot p) == s) Hub.keyCondition

/-- Entry into Init (R158): a fresh start or RESUME 1, with the CREDIT_LIMITs as they stand now (R154). With encryption on, the side draws a nonce, unless the generator has failed (R352,
R365). -/
def Hub.enterInit (c : Hub) (p : Nat) (resume : Bool) : Hub :=
  let c := ((c.put (O.linkState p) 2).putB (H.resume p) resume).putB (H.peerSeen p) false
  let c := if resume then c
    else
      let c := ((((c.dropLinkBuffers p).put (H.txNext p) 0).put (H.rxNext p) 0).put (H.replayPtr p) 4096).put (H.rxSkip p) 0
      c.each (List.range 8) fun c k => ((c.put (H.creditReturned p k) 0).put (H.creditConsumed p k) 0).put (H.peerReturned p k) 0
  let c := c.each (List.range 8) fun c k => c.put (H.creditInForce p k) (c.get (O.creditLimit p k))
  let c := (((c.putB (H.nakOn p) false).put (H.nakSeq p) 4096).put (H.peerNonceSeen p) 0)
  let on := c.flag (O.cryptEnable p)
  let c := c.putB (H.crypt p) on
  if !on then c.put (O.linkCryptoKeyState p) 0
  else
    let c := (c.putB (H.nonceDrawn p) false).when (c.get O.rngState != 2) fun c => c.drawNonce p
    let c := (c.usedSlot (c.get (O.linkCryptoKeySlot p))).keyCondition p
    c.when (c.get (O.linkCryptoKeyState p) == 0) fun c => c.put (O.linkCryptoKeyState p) 1

/-- The lane receives: RX0 and RX1 unless turned, TX1 where it is turned (R185). In the states of a bring-up the lane use that it goes by decides, which
LANE_STATUS shows once the lanes have trained. -/
def Hub.receives (c : Hub) (p l : Nat) : Bool :=
  let bringUp := decide (1 ≤ c.get (O.trainState p) ∧ c.get (O.trainState p) ≤ 8)
  let turned := if bringUp then (l == 1 && c.get (H.laneUseNow p) == 2) || (l == 3 && c.get (H.laneUseNow p) == 1)
    else bit (c.get (O.laneStatus p l)) 4
  if 2 ≤ l then !turned else l == 1 && turned

/-- Lanes that have trained, or relocked from Lanes idle, have signal and lock: their detectors are deasserted (R178, R183, R185). -/
def Hub.relocked (c : Hub) (p : Nat) : Hub :=
  c.each [1, 2, 3] fun c l =>
    if c.receives p l && bit (c.get (O.laneStatus p l)) 3 then
      ((c.put (H.detector p l 0) 0).put (H.detector p l 1) 0).put (O.laneStatus p l) (withBit (withBit (c.get (O.laneStatus p l)) 0 true) 1 true)
    else c

/-- The lanes have trained at a gear with these lanes (R173, R178): the state is shown and counted. -/
def Hub.lanesUp (c : Hub) (p gear tx rx : Nat) : Hub :=
  let c := ((((c.lanesTo p 9).put (O.gear p) gear).put (H.trainGear p) gear).put (O.txLanes p) tx).put (O.rxLanes p) rx
  let c := (((c.count (O.trains p)).put (O.lastTrainTime p) ((c.now - c.get (H.trainAt p)) / 1000)).put (H.failRun p) 0)
  let c := ((c.keepCoefs p gear).put (H.ceilingAt p) (c.gearCeilingNow p)).put (H.gearTrained p) gear
  ((((c.putB (H.fullRetrain p) false).put (H.idleWake p) 0).clearHeaders p).showLanes p tx rx).relocked p |>.clearWords p

/-- A detector of a lane asserts (R185, R186): counted but in Lanes idle; on a lane in use of an Active link it retrains the link. One that is
asserted already asserts only after it has deasserted. -/
def Hub.detectorUp (c : Hub) (p l kind : Nat) : Hub :=
  if c.get (O.trainState p) = 10 ∨ ¬ (2 ≤ l ∨ c.receives p l = true) ∨ c.flag (H.detector p l kind) = true then c
  else
    let c := (c.put (H.detector p l kind) 1).put (O.laneStatus p l) (withBit (c.get (O.laneStatus p l)) kind false)
    let c := if kind = 0 then c.count (O.losEvents p l) else c.count (O.lolEvents p l)
    if c.get (O.linkState p) = 3 ∧ c.receives p l = true ∧ bit (c.get (O.laneStatus p l)) 3 = true then c.enterRetrain p 2 33 else c

/-- Invalid sync headers among the 64 latest of a lane. -/
def badHeaders (w : Nat) : Nat := ((List.range 64).filter fun i => bit w i).length

/-- A sync header of a receive lane taken: 16 invalid ones within 64 lose block lock, which is a loss of lock (R142, R185). The window then starts
anew, for the lock that follows; without lock no header counts. -/
def Hub.takeHeader (c : Hub) (p l : Nat) (bad : Bool) : Hub :=
  let w := (2 * c.get (H.headerWindow p l) + if bad then 1 else 0) % 2 ^ 64
  if c.flag (H.detector p (rxLaneOf l) 1) then c
  else if bad && decide (16 ≤ badHeaders w) then (c.put (H.headerWindow p l) 0).detectorUp p (rxLaneOf l) 1 else c.put (H.headerWindow p l) w

/-- A wake of a Quiet link is complete (R158, R161, R183): Active, with SEQ, credits and keys going on. A RETRAIN_REQUEST that woke it
then acts (R460). -/
def Hub.wakeDone (c : Hub) (p : Nat) : Hub :=
  if c.get (O.linkState p) = 4 then
    let c := ((((((c.lanesTo p 9).relocked p).clearWords p).put (O.gear p) (c.get (H.trainGear p))).put (H.idleWake p) 0).put (O.linkState p) 3).adaptStart p
    if c.flag (O.retrainRequest p) then c.enterRetrain p 4 255 else c.gearNow p
  else c

/-- The port's tunnels torn down and its queues and staging emptied whole (R101's port-reset row, R174, R460). -/
def Hub.flushPort (c : Hub) (p : Nat) : Hub :=
  let c := (c.teardownUsing p).emptyQueues p
  let c := c.each (c.arrived.filter fun a => a.port == p) fun c a => c.lossOf a.pkt.cls a.pkt.tid.toNat
  { c with arrived := c.arrived.filter (fun a => a.port != p) }

end Sys2Proof.Machine
end

