-- ==== Sys2Proof/Machine/Path.lean ====
section
/-! DEFINITION. The path table, the multicast groups and the staging table (R33–R39, R60–R69, R112, R115, R259, R286, R453): the checks a
write passes, its effect, and the staged records. -/
namespace Sys2Proof.Machine

/-! ## What an entry may say (R39, R112, R115, R259, R286) -/

/-- VALID as an entry gives it. -/
def entryValid (e : PathEntry) : Bool := bit e.flags.toNat 0
/-- MCAST as an entry gives it. -/
def entryMcast (e : PathEntry) : Bool := bit e.flags.toNat 1
/-- The class as an entry gives it. -/
def entryCls (e : PathEntry) : Nat := e.cls.toNat % 8
/-- OUT as an entry gives it: a group, or an endpoint code. -/
def entryOut (e : PathEntry) : Nat := if entryMcast e then e.out.toNat % 1024 else e.out.toNat % 256
/-- The endpoint codes an entry names: IN, and OUT where it is no group. -/
def entryEnds (e : PathEntry) : List Nat := e.inp.toNat :: if entryMcast e then [] else [entryOut e]

/-- The classes, adapter endpoints and multicast right of a TYPE (R39). -/
def typeRow (type : Nat) : List Nat × List Nat × Bool :=
  match type with
  | 1 => ([2, 3], [0x24, 0x25, 0x26, 0x27], true)
  | 2 => ([4], [0x20], false)
  | 3 => ([5, 6], [0x21, 0x22], true)
  | 4 => ([1], [0x28], true)
  | _ => ([], [], false)

/-- The combination is one that R39 allows in this role. -/
def Hub.combination (c : Hub) (e : PathEntry) : Bool :=
  let row := typeRow e.type.toNat
  let ends := entryEnds e
  row.1.contains (entryCls e) && (!entryMcast e || row.2.2) && ends.all (fun k => decide (k < 24) || row.2.1.contains k)
    && (entryMcast e || ends.any fun k => decide (k < 24)) && !(c.isCrew && ends.contains 0x20)
    && !(c.isOar && ends.any fun k => decide (k < 24) && k != c.get O.upstreamPort)

/-- Every field holds a listed value (R7, R10, R38, R60): a TYPE, the code of an endpoint, and a SHAPER, POLICER and PAIR in range or FFFFh. TYPE 0
goes with VALID 0 alone, as a free entry reads. -/
def entryListed (e : PathEntry) : Bool :=
  let named : Nat → Nat → Bool := fun v top => v == 0xFFFF || decide (v < top)
  decide (e.type.toNat ≤ 5) && (e.type != 0 || !entryValid e) && (entryEnds e).all (fun k => (endpointOf k).isSome)
    && named e.shaper.toNat 4096 && named e.policer.toNat 4096 && named e.pair.toNat 16384

/-- The shaper an entry names suits its class (R112). -/
def Hub.shaperSuits (c : Hub) (e : PathEntry) : Bool :=
  let k := entryCls e
  let linked := e.shaper.toNat != 0xFFFF && c.get (O.shaperMode e.shaper.toNat) == 0
  if 1 ≤ k ∧ k ≤ 3 then linked || !(entryMcast e || decide (entryOut e < 24)) else !linked

/-- A use that only one entry may make is made by another VALID entry: a grant-linked shaper or policer (DRAIN counts too), an Oar's
PCIe adapter, a head per class and direction; or a head is not in the mode its use needs (R112, R115, R259, R286). -/
def Hub.useTaken (c : Hub) (t : Nat) (e : PathEntry) : Bool :=
  let others := c.liveEntries.filter fun u => u != t
  let valid := others.filter fun u => c.valid u
  let shaper := e.shaper.toNat != 0xFFFF && c.get (O.shaperMode e.shaper.toNat) == 0
    && others.any fun u => c.get (O.pathShaper u) == e.shaper.toNat
  let policer := e.policer.toNat != 0xFFFF && c.get (O.policerMode e.policer.toNat) == 0
    && others.any fun u => c.get (O.pathPolicer u) == e.policer.toNat
  let isIn : Nat → Bool := fun k => e.inp.toNat == k
  let isOut : Nat → Bool := fun k => !entryMcast e && entryOut e == k
  let usesIn : Nat → Nat → Bool := fun u k => c.get (O.pathIn u) == k
  let usesOut : Nat → Nat → Bool := fun u k => !c.isMcast u && c.get (O.pathOut u) == k
  let pcie := c.isOar && ((isIn 0x20 && valid.any fun u => usesIn u 0x20) || (isOut 0x20 && valid.any fun u => usesOut u 0x20))
  let head := [0, 1, 2, 3].any fun h =>
    let k := 0x24 + h
    let same : Nat → Bool := fun u => c.get (O.pathCls u) == entryCls e
    (isIn k && (c.get (O.headMode h) != 3 || valid.any fun u => usesIn u k && same u))
      || (isOut k && (c.get (O.headMode h) != 2 || valid.any fun u => usesOut u k && same u))
  shaper || policer || pcie || head

/-- The fields that may not change in place differ (R62). -/
def Hub.reroutes (c : Hub) (t : Nat) (e : PathEntry) : Bool :=
  c.get (O.pathType t) != e.type.toNat || c.get (O.pathIn t) != e.inp.toNat || c.get (O.pathCls t) != entryCls e
    || c.get (O.pathOut t) != entryOut e || c.get (O.pathOutTid t) != e.outTid.toNat % 16384 || c.isMcast t != entryMcast e

/-- An Oar not enumerated refuses every write (R39). -/
def Hub.oarUnjoined (c : Hub) : Bool := c.isOar && (c.treeIs 0 || c.treeIs 1)

/-- The refusal of an entry write, if any: PATH_STATUS and the FOP status (R453). Where several hold, an unlisted value comes first, and the present
state of the entry (02h, 04h) before its combination (DESIGN CHOICE, notes/assumptions/86.md). -/
def Hub.entryRefusal (c : Hub) (t : Nat) (e : PathEntry) : Option (Nat × Status) :=
  if t < 3 ∨ 16383 < t then some (5, .invalidValue)
  else if c.oarUnjoined then some (1, .busy)
  else if !entryListed e then some (1, .invalidValue)
  else if !entryValid e then none
  else if c.drain t then some (2, .busy)
  else if c.valid t && c.reroutes t e then some (4, .busy)
  else if !c.combination e || !c.shaperSuits e then some (1, .invalidValue)
  else if c.useTaken t e then some (1, .busy)
  else if !c.valid t && decide (4096 ≤ c.activeTunnels) then some (3, .busy)
  else none

/-! ## Applying an entry (R60, R62, R69, R113, R116, R117) -/

/-- A policer's tokens set, and shown. -/
def Hub.setPolicer (c : Hub) (k : Nat) (v : Int) : Hub := (c.putI (H.policerBucket k) v).showI (O.policerTokens k) v

/-- A shaper or policer that a path-table write has just named starts with no tokens (R113, R116). -/
def Hub.freshBuckets (c : Hub) (t : Nat) (e : PathEntry) : Hub :=
  let s := e.shaper.toNat
  let k := e.policer.toNat
  let newS := s != 0xFFFF && c.get (O.pathShaper t) != s || (s != 0xFFFF && !c.valid t)
  let newK := k != 0xFFFF && c.get (O.pathPolicer t) != k || (k != 0xFFFF && !c.valid t)
  let c := c.when newS fun c => (c.each (List.range 33) fun c o => c.put (H.bucket s o) 0).put (O.shaperTokens s) 0
  c.when newK fun c => c.setPolicer k 0

/-- A checked entry written. VALID 0 tears a VALID entry down and leaves its other fields; it writes a free entry, and an entry in DRAIN
stays as it is (R60, R62, R69). A new PCIe tunnel starts with nothing in flight in its non-posted windows (R46; DESIGN CHOICE,
notes/assumptions/76.md, for what a torn-down one left in them). `boundary`: the entry is activated at a stroke boundary (R118). -/
def Hub.applyEntry (c : Hub) (t : Nat) (e : PathEntry) (boundary : Bool := false) : Hub :=
  if !entryValid e then
    if c.valid t then c.teardown t else if c.drain t then c else c.putEntry t e false
  else
    let fresh := !c.valid t
    let c := (c.freshBuckets t e).putEntry t e false
    let c := c.when (fresh && e.type.toNat == 2) fun c => (c.put (H.npInFlight t) 0).put (H.npSent t) 0
    let measured := decide (8192 ≤ t) && decide (24 ≤ e.inp.toNat)
    if fresh && measured then
      let o : Offer := { tid := t, now := 0, past := [], completed := 0, peak := 0, noHistory := true, age := 64, fresh := boundary }
      { c with offers := c.offers.filter (fun x => x.tid != t) ++ [o] }
    else c

/-! ## Staged records (R66–R68) -/

/-- The slots in use, in ascending order. -/
def Hub.stagedSlots (c : Hub) : List Nat := (c.instances (O.stageUsed 0)).filter fun k => bit (c.get (O.stageUsed k)) 0

/-- The record of a slot. -/
def Hub.stageRecord (c : Hub) (k : Nat) : StageRecord :=
  let e : PathEntry :=
    { flags := BitVec.ofNat 8 (c.get (O.stageFlags k)), type := BitVec.ofNat 8 (c.get (O.stageType k)),
      inp := BitVec.ofNat 8 (c.get (O.stageIn k)), cls := BitVec.ofNat 8 (c.get (O.stageCls k)),
      out := BitVec.ofNat 16 (c.get (O.stageOut k)), outTid := BitVec.ofNat 16 (c.get (O.stageOutTid k)),
      shaper := BitVec.ofNat 16 (c.get (O.stageShaper k)), policer := BitVec.ofNat 16 (c.get (O.stagePolicer k)),
      pair := BitVec.ofNat 16 (c.get (O.stagePair k)) }
  { tid := BitVec.ofNat 16 (c.get (O.stageTid k)), used := BitVec.ofNat 16 (c.get (O.stageUsed k)),
    activate := BitVec.ofNat 64 (c.get (O.stageActivate k)), entry := e }

/-- A record written into a slot; a VID_MAP change may ride with it (R73). -/
def Hub.putStage (c : Hub) (k : Nat) (r : StageRecord) (vid : Option VidMapping) (fromCox : Bool) : Hub :=
  let e := r.entry
  let c := ((c.put (O.stageTid k) r.tid.toNat).put (O.stageUsed k) (r.used.toNat % 2)).put (O.stageActivate k) r.activate.toNat
  let c := ((c.put (O.stageFlags k) (e.flags.toNat % 4)).put (O.stageType k) e.type.toNat).put (O.stageIn k) e.inp.toNat
  let c := ((c.put (O.stageCls k) (e.cls.toNat % 8)).put (O.stageOut k) (entryOut e)).put (O.stageOutTid k) (e.outTid.toNat % 16384)
  let c := ((c.put (O.stageShaper k) e.shaper.toNat).put (O.stagePolicer k) e.policer.toNat).put (O.stagePair k) e.pair.toNat
  let v := match vid with | none => 0 | some m => 1 + m.mac.val + (if m.prio then 2 else 0) + 4 * m.vid.toNat
  (c.put (H.stageVid k) v).putB (H.stageFromCox k) fromCox

/-- A slot freed. -/
def Hub.freeStage (c : Hub) (k : Nat) : Hub :=
  let z : PathEntry := { flags := 0, type := 0, inp := 0, cls := 0, out := 0, outTid := 0, shaper := 0, policer := 0, pair := 0 }
  c.putStage k { tid := 0, used := 0, activate := 0, entry := z } none false

/-- The refusal of a staged record at its acceptance, if any (R67, R453). `full`: no slot is free for it. -/
def Hub.stageRefusal (c : Hub) (r : StageRecord) (full : Bool) : Option (Nat × Status) :=
  let t := r.tid.toNat
  if t < 3 ∨ 16383 < t then some (5, .invalidValue)
  else if c.oarUnjoined then some (1, .busy)
  else if !entryListed r.entry || (entryValid r.entry && !c.combination r.entry) then some (1, .invalidValue)
  else if r.activate.toNat ≤ c.stroke then some (6, .invalidValue)
  else if full then some (7, .busy)
  else none

/-- A record of the Cox that failed: the hub sends STAGE_FAIL; in the Cox itself it waits for the route service (R456). -/
def Hub.stageFailed (c : Hub) (t st at0 : Nat) : Hub :=
  if c.isCox then { c with ownFails := c.ownFails ++ [(t, st, at0)] } else c.emit (.mgmtTo none 0 (.stageFail t st at0))

/-- A record that fails at its boundary is dropped and reported, and to the Cox if it came from there (R67, R456). -/
def Hub.dropStage (c : Hub) (k st : Nat) : Hub :=
  let t := c.get (O.stageTid k)
  let cox := c.flag (H.stageFromCox k)
  let at0 := c.get (O.stageActivate k)
  let c := ((c.put O.pathStatus st).raise 9 255 t).freeStage k
  c.when cox fun c => c.stageFailed t st at0

/-- One record at its boundary: applied with its shaper and policer of the Cox at MODE 00h (R457) and its VID_MAP change, deferred by
DRAIN, or dropped (R67). -/
def Hub.applyStage (c : Hub) (k : Nat) : Hub :=
  let t := c.get (O.stageTid k)
  let e := (c.stageRecord k).entry
  if entryValid e && c.drain t then c.put O.pathStatus 8
  else
    let trial := c.when (c.flag (H.stageFromCox k)) fun c =>
      let c := c.when (e.shaper.toNat != 0xFFFF) fun c => c.put (O.shaperMode e.shaper.toNat) 0
      c.when (e.policer.toNat != 0xFFFF) fun c => c.put (O.policerMode e.policer.toNat) 0
    match trial.entryRefusal t e with
    | some (st, _) => c.dropStage k st
    | none =>
      let c := trial.applyEntry t e true
      let v := c.get (H.stageVid k)
      let c := c.when (v != 0) fun c =>
        let m := (v - 1) % 2
        let x := if (v - 1) / 4 = 0 then c.get (O.pvid m) else (v - 1) / 4
        if bit (v - 1) 1 then c.put (O.vidMapPrio m x) t else c.put (O.vidMapBulk m x) t
      c.freeStage k

/-- A place in an order by TID for the records of one boundary (R67). -/
def insertByTid (c : Hub) (k : Nat) : List Nat → List Nat
  | [] => [k]
  | x :: rest => if c.get (O.stageTid k) < c.get (O.stageTid x) then k :: x :: rest else x :: insertByTid c k rest

/-- Every record due at the boundary that starts this stroke, in ascending TID order (R67). -/
def Hub.applyStaged (c : Hub) : Hub :=
  let due := (c.stagedSlots.filter fun k => decide (c.get (O.stageActivate k) ≤ c.stroke)).foldl (fun acc k => insertByTid c k acc) []
  c.each due fun c k => c.applyStage k

/-! ## The writes -/

/-- Entries written one after another, each checked on what those before it leave; the first refusal answers for all (R317, R453). -/
def Hub.writeEntries (c : Hub) : Nat → List PathEntry → Option (Nat × Status) × Hub
  | _, [] => (none, c)
  | t, e :: rest =>
    match c.entryRefusal t e with
    | some r => (some r, c)
    | none =>
      let c := c.each (c.stagedSlots.filter fun k => c.get (O.stageTid k) == t) fun c k => c.freeStage k
      Hub.writeEntries (c.applyEntry t e) (t + 1) rest

/-- PATH_TABLE written from an entry on: all of it or nothing, a refusal in PATH_STATUS (R62, R68, R317, R453). -/
def Hub.writePathTable (c : Hub) (first : Nat) (es : List PathEntry) : Status × Hub :=
  if 16384 < first + es.length then (.range, c)
  else match c.writeEntries first es with
    | (some (st, answer), _) => (answer, c.put O.pathStatus st)
    | (none, c) => (.ok, c)

/-- PATH_TABLE_WRITE: Engineer and Owner. -/
def execPathTableWrite (lvl : Level) (first : Fin 16384) (entries : List PathEntry) (s : State) : Host.Outcome State Fault Refusal :=
  onWrite (.pathTableWrite lvl first entries) s fun c => c.request lvl engineerWrites fun c => c.writePathTable first entries

/-- MCAST_TABLE written: MEMBERS without its reserved bit, and the outgoing IDs given (R64, R65). An Oar takes members of any port (DESIGN CHOICE,
notes/assumptions/76.md: R39 bounds the entries of an Oar, not its groups). -/
def Hub.writeMcast (c : Hub) (g members : Nat) (outTids : List (BitVec 16)) : Status × Hub :=
  if c.oarUnjoined then (.busy, c.put O.pathStatus 1)
  else
    let c := c.put (O.mcastMembers g) (members % 2 ^ 31)
    (.ok, c.each ((List.range 32).zip outTids) fun c x => c.put (O.mcastOutTid g x.1) (x.2.toNat % 16384))

/-- MCAST_TABLE_WRITE: Engineer and Owner. -/
def execMcastTableWrite (lvl : Level) (group : Fin 1024) (members : BitVec 32) (outTids : List (BitVec 16)) (s : State) :
    Host.Outcome State Fault Refusal :=
  onWrite (.mcastTableWrite lvl group members outTids) s fun c => c.request lvl engineerWrites fun c => c.writeMcast group members.toNat outTids

/-- The refusal of a record written with USED 0: a TID and an entry hold listed values then too (R7, R10), or the zeros of a free slot. -/
def Hub.clearRefusal (c : Hub) (r : StageRecord) : Option (Nat × Status) :=
  if r.tid != 0 && (decide (r.tid.toNat < 3) || decide (16383 < r.tid.toNat)) then some (5, .invalidValue)
  else if c.oarUnjoined then some (1, .busy)
  else if !entryListed r.entry then some (1, .invalidValue)
  else none

/-- STAGE_TABLE written at a slot: USED 0 frees it, and the rest of the record written is not stored (R66, R67; DESIGN CHOICE,
notes/assumptions/91.md). -/
def Hub.writeStage (c : Hub) (k : Nat) (r : StageRecord) : Status × Hub :=
  if !bit r.used.toNat 0 then
    match c.clearRefusal r with
    | some (st, answer) => (answer, c.put O.pathStatus st)
    | none => (.ok, c.freeStage k)
  else match c.stageRefusal r (c.stagedSlots.length == 256) with
    | some (st, answer) => (answer, c.put O.pathStatus st)
    | none => (.ok, c.putStage k r none false)

/-- STAGE_TABLE_WRITE: Engineer and Owner. -/
def execStageTableWrite (lvl : Level) (slot : Fin 256) (rec : StageRecord) (s : State) : Host.Outcome State Fault Refusal :=
  onWrite (.stageTableWrite lvl slot rec) s fun c => c.request lvl engineerWrites fun c => c.writeStage slot rec

/-- A STAGE record of the Cox taken into the lowest free slot, or refused with STAGE_FAIL (R73, R456). -/
def Hub.stageFromMessage (c : Hub) (r : StageRecord) (vid : Option VidMapping) : Hub :=
  let free := (List.range 256).find? fun k => !bit (c.get (O.stageUsed k)) 0
  match c.stageRefusal r free.isNone with
  | some (st, _) => (c.put O.pathStatus st).stageFailed r.tid.toNat st r.activate.toNat
  | none => c.putStage (free.getD 0) { r with used := 1 } vid true

/-- STAGE_MESSAGE (R67, R73, R456). -/
def execStageMessage (rec : StageRecord) (vid : Option VidMapping) (s : State) : Host.Outcome State Fault Refusal :=
  onDomains s fun c => c.stageFromMessage rec vid

end Sys2Proof.Machine
end

