-- ==== Sys2Proof/Machine/Switch.lean ====
section
/-! DEFINITION. The switch core's commands (R37, R57, R61, R75, R84, R85–R99, R115): a packet through parse, look-up, police and
enqueue, the spill and refill engines, the scrub of the cell memory and the sizes of the pools. -/
namespace Sys2Proof.Machine

/-! ## Parse to enqueue -/

/-- A packet that the pipeline discards returns its credit to its link (R156). -/
def Hub.discardReturn (c : Hub) (input : Nat) (p : Packet) : Hub := c.returnCredit input p.cls (cellsOf p.payload.length)

/-- A packet's bytes counted as offered by its entry in this stroke, green or red (R117). -/
def Hub.offered (c : Hub) (t size : Nat) : Hub :=
  { c with offers := c.offers.map fun o : Offer => if o.tid = t then { o with now := o.now + size } else o }

/-- The police stage (R115): whether the packet passes its entry's policer. -/
def Hub.police (c : Hub) (t size : Nat) : Hub × Bool :=
  let k := c.get (O.pathPolicer t)
  if k = 0xFFFF then (c, true)
  else
    let tokens := c.getI (H.policerBucket k)
    if (size : Int) ≤ tokens then ((c.setPolicer k (tokens - size)).count (O.policerGreen k), true)
    else (((c.count (O.policerRed k)).count (O.grantIsoDiscards t)).raise 18 255 k, false)

/-- The routes of management and background packets by destination (R57, R59): an endpoint, or none where there is no route. A hub without an
upstream port has none to destination 0 (DESIGN CHOICE, notes/assumptions/76.md: R57 names only an ADDRESS_ROUTES entry of FFh). -/
def Hub.mgmtRoute (c : Hub) (dst : Nat) : Option Nat :=
  if dst = c.get O.hubAddress then some 32
  else if dst = 0 ∧ c.isCox = false then (if c.get O.upstreamPort < 24 then some (c.get O.upstreamPort) else none)
  else if c.get (O.addrRoutePort dst) < 24 then some (c.get (O.addrRoutePort dst)) else none

/-- A packet of a hop channel or of the management tunnel queued for an endpoint (R34, R81). -/
def Hub.toQueue (c : Hub) (tid e cls input : Nat) (p : Packet) : Hub := c.enqueue tid tid (queueOf e cls) input false p

/-- A parent reads a JOIN from the hub on its own port; one relayed from deeper comes through a port with an address behind it (R20). -/
def Hub.noteJoin (c : Hub) (input : Nat) (p : Packet) : Hub :=
  let uid := leNat (p.payload.take 8)
  let behind := (c.instances (O.addrRoutePort 0)).any fun a => c.get (O.addrRoutePort a) == input
  if input < 24 ∧ input ≠ c.get O.upstreamPort ∧ (behind = false ∨ c.get (H.partnerUid input) = uid) then c.joinSeen input uid else c

/-- A REFUSE delivered on a parent's port: a topology event (R20), and the port carries no tunnels (R18). -/
def Hub.refuseBelow (c : Hub) (port reason : Nat) : Hub := (c.putB (H.refusedBelow port) true).topoEvent port 3 reason (c.get (H.partnerUid port))

/-- A packet of the management tunnel (R57): ASSIGN and REFUSE addressed to this hub go to the port their payload names, in its first byte, and
a delivered REFUSE is a topology event, with the reason of its second byte (DESIGN CHOICE, notes/assumptions/76.md: the spec prints no
layout). A hub that is Joining takes them itself on the port of its JOIN (R16). -/
def Hub.receiveMgmt (c : Hub) (input : Nat) (p : Packet) : Hub :=
  let dst := bits p.info.toNat 0 8
  let kind := MgmtKind.ofCode (bits p.info.toNat 8 8)
  let down := kind == some .assign || kind == some .refuse
  let port := leNat (p.payload.take 1)
  let c := c.when (kind == some .join) fun c => c.noteJoin input p
  if c.treeIs 1 && down && input == c.get H.joinPort then c.toQueue 0 32 0 input p
  else if dst = c.get O.hubAddress ∧ down = true ∧ port < 24 then
    let c := if kind = some .refuse then c.refuseBelow port (leNat ((p.payload.drop 1).take 1)) else c.putB (H.refusedBelow port) false
    c.toQueue 0 port 0 input p
  else match c.mgmtRoute dst with
    | some e => c.toQueue 0 e 0 input p
    | none => ((c.count O.discardMgmtRoute).raise 24).discardReturn input p

/-- A packet of the background channel, routed as a management packet (R59). -/
def Hub.receiveBackground (c : Hub) (input : Nat) (p : Packet) : Hub :=
  match c.mgmtRoute (bits p.info.toNat 0 8) with
  | some e => c.toQueue 2 e 7 input p
  | none => ((c.count O.discardMgmtRoute).raise 24).discardReturn input p

/-- A tunnel packet past parse: the tests of R61 in their order, the police stage, and enqueue. A tunnel packet from or for a barred port is
discarded as at a teardown (R18, R21; DESIGN CHOICE, notes/assumptions/75.md, for the counter of one from or for a refused port). -/
def Hub.receiveTunnel (c : Hub) (input : Nat) (p : Packet) : Hub :=
  let t := p.tid.toNat
  let adapterIn := decide (24 ≤ c.get (O.pathIn t))
  if !c.valid t && !c.drain t then (c.count O.discardUnknown).discardReturn input p
  else if !c.valid t || c.portBarred input then ((c.count (O.pathCountTeardownDiscards t)).lossOf (c.get (O.pathCls t)) t).discardReturn input p
  else if endpointOf (c.get (O.pathIn t)) ≠ some input then (c.count O.discardWrongInput).discardReturn input p
  else if c.get (O.pathType t) ≠ p.type.toNat then (c.count O.discardType).discardReturn input p
  else
    let c := c.when (decide (8192 ≤ t) && adapterIn) fun c => c.offered t p.size
    match c.police t p.size with
    | (c, false) => c.discardReturn input p
    | (c, true) =>
      let k := c.get (O.pathCls t)
      if c.isMcast t then c.enqueueAll t k input adapterIn p
      else match c.outputs t with
        | (e, outTid) :: _ =>
          if c.portBarred e then ((c.count (O.pathCountTeardownDiscards t)).lossOf k t).discardReturn input p
          else c.enqueue t outTid (queueOf e k) input adapterIn p
        | [] => c.discardReturn input p

/-- A whole packet from an input endpoint through parse, look-up, police and enqueue (R75). Before FORWARDING nothing passes (R427). -/
def Hub.receive (c : Hub) (input : Nat) (p : Packet) : Hub :=
  if !c.flag O.forwarding then c
  else if !p.wellFormed then
    ((c.count O.discardMalformed).when (decide (input < 24)) fun c => c.raise 25 input).discardReturn input p
  else
    let hop : Nat → (Hub → Hub) → Hub := fun type f => if p.type.toNat = type then f c else (c.count O.discardType).discardReturn input p
    match p.tid.toNat with
    | 0 => hop 5 fun c => c.receiveMgmt input p
    | 1 => hop 0 fun c => c.toQueue 1 32 3 input p
    | 2 => hop 0 fun c => c.receiveBackground input p
    | _ => c.receiveTunnel input p

/-- The management processor hands the C0 packets it keeps to the core, in order, while its credit cells have room (R86). -/
def Hub.pumpMgmt : Nat → Hub → Hub
  | 0, c => c
  | n + 1, c => match c.mgmtWait with
    | [] => c
    | p :: rest =>
      if c.creditUsedOf 32 + cellsOf p.payload.length ≤ c.get O.creditCellsMgmt then
        Hub.pumpMgmt n (({ c with mgmtWait := rest }).receive 32 p)
      else c

/-- The packets the management processor may now hand over. -/
def Hub.pump (c : Hub) : Hub := Hub.pumpMgmt c.mgmtWait.length c

/-- PACKET_RECEIVE (R75): a whole packet in an input's staging; a packet of the management tunnel, class C0, from the management processor
waits for its credit cells (R86). -/
def execPacketReceive (input : Fin 33) (pkt : Packet) (s : State) : Host.Outcome State Fault Refusal :=
  onDomains s fun c =>
    let c := c.when (input.val != 32) Hub.awake
    if input.val = 32 ∧ pkt.tid.toNat = 0 then ({ c with mgmtWait := c.mgmtWait ++ [pkt] }).pump
    else ({ c with arrived := c.arrived.erase ⟨input.val, pkt⟩ }).receive input.val pkt

/-! ## Uncorrectable packets (R97) -/

/-- A packet with an uncorrectable word discarded at dequeue or refill: counted, reported as SWITCH_CELL_UE, and its class's action
taken. UE_LAST_CELL names cells alone (DESIGN CHOICE, notes/assumptions/91.md, for an error in DRAM). `unit` is the cell, or the 256 B unit of the spill region for an error in DRAM. -/
def Hub.discardDamaged (c : Hub) (p : Held) (unit : Nat) (inDram : Bool) : Hub :=
  let k := p.q % 8
  let data := unit % 2 ^ 32 + (if inDram then 2 ^ 62 else 0) + (if p.spilled then 2 ^ 63 else 0)
  let port := if p.input < 24 then p.input else p.q / 8
  let c := (c.remove p).count O.dequeueUncorrectable
  let c := c.when (!inDram) fun c => c.put O.ueLastCell unit
  let c := c.raise 0 (if k = 0 ∧ port < 24 then port else 255) data
  let c := c.when (k == 0 || k == 4) fun c => c.losslessLoss p.tid
  match k with
  | 0 => c
  | 4 => c.teardown p.tid
  | 1 | 2 | 3 => c.count (O.grantIsoDiscards p.tid)
  | _ => c.count (O.queueStatusDrops p.q)

/-! ## Spill and refill (R91–R95) -/

/-- The next queue of a round robin among those with work, after the last one served. -/
def nextTurn (last : Nat) (qs : List Nat) : Option Nat :=
  match (qs.filter (last < ·)).min? with
  | some q => some q
  | none => qs.min?

/-- The packet that the spill engine may move for a queue (R94): the front of its tail, if the queue's share of the free units allows; C4 is
refused only for want of units. -/
def Hub.spillReady (c : Hub) (q : Nat) : Option Held :=
  (c.segment q .tail).head?.filter fun p =>
    let free := c.spillRegion - c.spillUnits
    let share := decide (16 * (cellSum (c.segment q .dram) + p.cells) ≤ 2 ^ c.get O.spillAlphaCode * free) || q % 8 == 4
    c.get O.spillState == 0 && c.spilling q && share && decide (p.cells ≤ free)

/-- The packet that the refill engine may move for a queue (R94, R102): the front of its DRAM segment, while the head holds fewer than
REFILL_LOW cells and reserve and shared cells can supply it. While the tier is frozen only C4 is refilled. -/
def Hub.refillReady (c : Hub) (q : Nat) : Option Held :=
  (c.segment q .dram).head?.filter fun p =>
    (c.get O.spillState == 0 || (c.get O.spillState == 1 && q % 8 == 4)) && decide (cellSum (c.segment q .head) < c.get O.refillLow)
      && decide (p.cells - min p.cells (c.reserveFree q) ≤ c.sharedFree)

/-- The queues with packets in a segment. -/
def Hub.queuesIn (c : Hub) (s : Seg) : List Nat := ((c.held.filter fun p => p.seg == s).map Held.q).eraseDups

/-- SPILL_MOVE (R94, R95): the packet at the front of a tail moves to the end of the DRAM segment, in the queue's turn of the round robin. -/
def execSpillMove (q : Fin 264) (s : State) : Host.Outcome State Fault Refusal :=
  onDomains s fun c =>
    let turn := nextTurn (c.get H.lastSpill) ((c.queuesIn .tail).filter fun k => (c.spillReady k).isSome)
    match c.spillReady q with
    | none => c
    | some p =>
      if turn = some q.val then
        let moved : Held := { p with seg := .dram, reserve := 0, iso := 0, shared := 0, credit := 0, mcast := 0, spilled := true }
        (({ c with held := c.held.map fun h : Held => if h = p then moved else h }).freeCells p).put H.lastSpill q
      else c

/-- REFILL_MOVE (R94, R95, R100): in the queue's turn, the packet at the front of a DRAM segment moves to the end of the head, in reserve cells
and then shared ones. One that its DRAM check shows damaged is discarded under R97. -/
def execRefillMove (q : Fin 264) (dramError : Bool) (s : State) : Host.Outcome State Fault Refusal :=
  onDomains s fun c =>
    let turn := nextTurn (c.get H.lastRefill) ((c.queuesIn .dram).filter fun k => (c.refillReady k).isSome)
    match c.refillReady q with
    | none => c
    | some p =>
      let r := min p.cells (c.reserveFree q)
      if turn = some q.val then
        let c := (c.put H.lastRefill q).dramReads (4 * p.cells)
        if dramError then (c.discardDamaged p (cellSum ((c.held.takeWhile (· ≠ p)).filter (·.seg == .dram))) true).pump
        else
          let moved : Held := { p with seg := .head, reserve := r, shared := p.cells - r }
          let c := { c with held := c.held.map fun h : Held => if h = p then moved else h }
          (c.leaveSpill q).peak O.usedPeak c.cellsUsed
      else c

/-! ## Scrub (R98, R99) -/

/-- SCRUB_LATE, once for a pass: it has not ended within its period (R386). -/
def Hub.lateScrub (c : Hub) (k start period : Nat) : Hub :=
  c.when (!c.flag (H.scrubLate k) && decide (period * 1000000000 < c.now - start)) fun c => (c.put (H.scrubLate k) 1).raise 3 255 k

/-- The pass of the cell memory's scrub that runs is past its period (R98). -/
def Hub.lateCells (c : Hub) : Hub := c.lateScrub 0 (c.get H.scrubStart) (c.get O.scrubPeriod)

/-- A pass of the cell memory's scrub ends (R98). -/
def Hub.scrubPassEnd (c : Hub) : Hub :=
  let took := c.now - c.get H.scrubStart
  (((c.lateCells.put (H.scrubLate 0) 0).count O.scrubPasses).put O.scrubLastPass (took / 1000000000)).put H.scrubStart c.now

/-- A cell marked by the scrub (R99): the packet that stands in it, with the other copies of its multicast write, is dealt with at dequeue. -/
def Hub.markCell (c : Hub) (owner cell : Nat) : Hub :=
  match c.held[owner]? with
  | none => c
  | some p =>
    { c with held := c.held.zipIdx.map fun x : Held × Nat =>
        if x.1.seg ≠ .dram ∧ (x.2 = owner ∨ (p.mcast ≠ 0 ∧ x.1.mcast = p.mcast)) then { x.1 with marked := some cell } else x.1 }

/-- SCRUB_READ (R98, R99): a correctable word is written back and counted, in a forced slot while the scrub is behind, unless a packet write
fell on it; an uncorrectable one is counted and reported, and the packet in its cell, if any, is marked for R97 unless that write renewed the
word. A word beyond the memory is a fault. -/
def execScrubRead (word : Nat) (err : WordError) (owner : Option Nat) (collide : Bool) (s : State) : Host.Outcome State Fault Refusal :=
  if 1572864 ≤ word then .fault .noSuchWord
  else onDomains s fun c =>
    let c := match err with
      | .clean => c
      | .correctable => if collide then c else (c.count O.scrubCorrected).when (c.flag H.scrubBehind) fun c => c.count O.scrubForced
      | .uncorrectable =>
        let c := (c.count O.scrubUncorrectable).raise 2 255 (word / 8)
        match owner with
        | some k => if collide then c else c.markCell k (word / 8)
        | none => c
    if word = 1572863 then c.scrubPassEnd else c

/-- SCRUB_PACE_CHECK (R98): 1,024 words or more behind, the scrub takes forced slots, one in 1,024 cycles, until it catches up. -/
def execScrubPaceCheck (wordsDone wordsDue : Nat) (s : State) : Host.Outcome State Fault Refusal :=
  onDomains s fun c =>
    let behind := decide (wordsDone + (if c.flag H.scrubBehind then 1 else 1024) ≤ wordsDue)
    (c.lateCells.putB H.scrubBehind behind).when behind fun c => c.count O.scrubForced (min (wordsDue - wordsDone) 1562)

/-! ## Pool sizes (R84, R87) -/

/-- ISO_NEED_SHORT is reported when ISO_NEED comes to exceed ISO_POOL, and anew once it has fallen back (R87). -/
def Hub.isoCheck (c : Hub) : Hub :=
  let short := decide (c.get O.isoPool < c.get O.isoNeed)
  (c.putB H.isoShort short).when (short && !c.flag H.isoShort) fun c => c.raise 4

/-- The object of a pool size and its range (4102h–4104h). -/
def poolObj : PoolSize → Obj × Nat × Nat
  | .reserve k => (O.reserve k, 0, 1024)
  | .isoPool => (O.isoPool, 0, 65536)
  | .creditC0 => (O.creditCellsC0, 4, 64)
  | .creditC4 => (O.creditCellsC4, 32, 1024)
  | .creditPcie => (O.creditCellsPcie, 64, 2048)

/-- The credit limits of a class in force or written at any port (R84). -/
def Hub.topLimit (c : Hub) (k : Nat) : Nat :=
  (List.range 24).foldl (fun acc p => max acc (max (c.get (O.creditLimit p k)) (c.get (H.creditInForce p k)))) 0

/-- The shared pool that the sizes written leave, as a signed count (R83, R84). -/
def Hub.sharedLeft (c : Hub) : Int :=
  196608 - ((c.reservePools + c.get O.isoPool + 24 * (c.get O.creditCellsC0 + c.get O.creditCellsC4) + c.get O.creditCellsPcie
    + c.get O.creditCellsMgmt : Nat) : Int)

/-- A pool size written (R84). -/
def Hub.writePool (c : Hub) (pool : PoolSize) (v : Nat) : Status × Hub :=
  let o := poolObj pool
  let c' := c.put o.1 v
  let backed := match pool with | .creditC0 => decide (c.topLimit 0 ≤ v) | .creditC4 => decide (c.topLimit 4 ≤ v) | _ => true
  if v < o.2.1 ∨ o.2.2 < v ∨ backed = false ∨ c'.sharedLeft < 65536 then (.invalidValue, c) else (.ok, c'.isoCheck)

/-- POOL_SIZE_WRITE: Engineer and Owner. -/
def execPoolSizeWrite (lvl : Level) (pool : PoolSize) (value : BitVec 32) (s : State) : Host.Outcome State Fault Refusal :=
  onWrite (.poolSizeWrite lvl pool value) s fun c => c.request lvl engineerWrites fun c => c.writePool pool value.toNat

end Sys2Proof.Machine
end

