-- ==== Sys2Proof/Machine/VdpOps.lean ====
section
/-! DEFINITION. The link states of the Cox's virtual downstream ports (R255, R256), which route changes and polls move. -/
namespace Sys2Proof.Machine

/-- The virtual downstream ports with a binding, in ascending order. -/
def Hub.boundVdps (c : Hub) : List Nat := c.instances (O.vdpDown 0)

/-- STATE of a virtual downstream port (R256). A route whose entry at the Cox is torn down, as by an isolation of the PCIe adapter, takes the port to
01h too (R282). -/
def Hub.vdpNow (c : Hub) (v : Nat) : Nat :=
  if c.get (O.vdpDown v) = 0xFFFF then 0
  else if c.valid (c.get (O.routeTid (c.get (O.vdpDown v)) 0)) = false then 1
  else if c.get (O.routeState (c.get (O.vdpDown v))) ≠ 2 ∨ c.get (O.routeState (c.get (O.vdpUp v))) ≠ 2 then 1
  else if c.flag (H.farUp v) then 3 else 2

/-- A virtual downstream port sends its MSI (R256): the host lets it master the bus, has enabled MSI and the hot-plug interrupt, and has enabled the
change that occurred. -/
def Hub.vdpInterrupt (c : Hub) (v : Nat) (presence active : Bool) : Hub :=
  let f := 2 + v
  let control := c.get (H.cfg f 0x78)
  let wanted := bit (c.get (H.cfg f 4)) 2 && bit (c.get (H.cfg f 0x48)) 16 && bit control 5
    && ((presence && bit control 3) || (active && bit control 12))
  c.when wanted fun c => c.emit (.vdpMsi v (c.get (H.cfg f 0x4C) + c.get (H.cfg f 0x50) * 2 ^ 32) (c.get (H.cfg f 0x54)))

/-- STATE and Slot Status of a virtual downstream port brought up to date; a change of Presence Detect or Link Active sets its change bit
and is signalled (R256). -/
def Hub.refreshVdp (c : Hub) (v : Nat) : Hub :=
  let st := c.vdpNow v
  let was := c.get (H.slotStatus v)
  let c := c.put (O.vdpState v) st
  let present := decide (2 ≤ st)
  let active := st == 3
  let dp := present != bit was 0
  let da := active != bit was 2
  let now := withBit (withBit (withBit (withBit was 0 present) 2 active) 1 (bit was 1 || dp)) 3 (bit was 3 || da)
  let c := c.when (decide (st < 2)) fun c => ((c.put (H.farUp v) 0).put (O.vdpFarSpeed v) 0).put (O.vdpFarWidth v) 0
  if dp || da then ((c.put (H.slotStatus v) now).emit (.slotChange v now)).vdpInterrupt v dp da else c

/-- Every bound port brought up to date after routes have changed (R256). -/
def Hub.refreshVdps (c : Hub) : Hub := c.boundVdps.foldl Hub.refreshVdp c

end Sys2Proof.Machine
end

