-- ==== Sys2Proof/Machine/PcieOps.lean ====
section
/-! DEFINITION. The PCIe adapter's window, credits and FIFOs (R43–R46, R261), and what a reset of the link or the adapter does. -/
namespace Sys2Proof

/-- The category of a TLP (R44). -/
def TlpKind.category : TlpKind → Nat
  | .memWrite => 0 | .message => 0 | .otherPosted => 0
  | .memRead => 1 | .cfgRead => 1 | .cfgWrite => 1 | .otherNonPosted => 1
  | .completion => 2

end Sys2Proof

namespace Sys2Proof.Machine

/-- A TLP enters a tunnel as one packet, with the sends of the paired tunnel to report (R43, R44, R46). -/
def Hub.tlpPacket (c : Hub) (tid cat : Nat) (bytes : Bytes) : Hub :=
  let pair := c.get (O.pathPair tid)
  let rel := if pair < 16384 then min (c.get (H.npSent pair)) 64 else 0
  let c := c.when (rel != 0) fun c => c.put (H.npSent pair) (c.get (H.npSent pair) - rel)
  let (p, c) := c.makePacket tid (c.get (O.pathCls tid)) 2 0 (cat + 256 * rel) bytes
  (c.when (cat == 1) fun c => c.put (H.npInFlight tid) (c.get (H.npInFlight tid) + 1)).receive 24 p

/-- Non-posted TLPs that wait enter their tunnels while the windows have room, in order (R46). -/
def Hub.feedWaiting : Nat → Hub → Hub
  | 0, c => c
  | n + 1, c =>
    match c.tlpWait.find? fun w => decide (c.get (H.npInFlight w.tid) < 64) with
    | none => c
    | some w => Hub.feedWaiting n (Hub.tlpPacket { c with tlpWait := c.tlpWait.erase w } w.tid 1 w.bytes)

/-- TLPs of a kind that still stand in credit cells: of those in the queues the ones charged to them, and those that wait (R86, R261). -/
def Hub.tlpsHeld (c : Hub) (k : Nat) : Nat :=
  (c.held.filter fun p => p.input == 24 && p.credit != 0 && bits p.pkt.info.toNat 0 2 == k).length + (if k = 1 then c.tlpWait.length else 0)

/-- Some tunnel has 64 non-posted TLPs in flight (R46). One torn down with 64 in flight still counts, and what waits for it goes on waiting (DESIGN
CHOICE, notes/assumptions/76.md: R46 says nothing of a teardown). -/
def Hub.windowFull (c : Hub) : Bool := (c.instances (H.npInFlight 0)).any fun t => decide (64 ≤ c.get (H.npInFlight t))

/-- Credit is returned for the TLPs that have left the credit cells, but for what R46, R280 (posted, while the aperture queue is full) and R423
withhold. -/
def Hub.returnPcie (c : Hub) : Hub :=
  [0, 1, 2].foldl (fun c k =>
    let due := c.get (H.pcieTaken k) - c.tlpsHeld k - c.get (H.pcieGiven k)
    if due = 0 ∨ (k ≤ 1 ∧ c.flag H.quiesced = true) ∨ (k = 1 ∧ c.windowFull = true) ∨ (k = 0 ∧ 64 ≤ c.apertureWrites) then c
    else (c.put (H.pcieGiven k) (c.get (H.pcieGiven k) + due)).emit (.pcieReturn k due)) c

/-- What the adapter does after any change in its cells or windows. -/
def Hub.pcieSweep (c : Hub) : Hub := (Hub.feedWaiting c.tlpWait.length c).returnPcie

/-- What follows once a packet has left the buffer: the management processor and the PCIe adapter use the cells it freed (R46, R86). -/
def Hub.settle (c : Hub) : Hub := c.pump.pcieSweep

/-- The functions that stand on the link itself: the upstream switch port and the hub function of a Cox, the hub function of a Crew; an Oar's root
port has none that the host can see (R253, R259). -/
def Hub.linkFunctions (c : Hub) : List Nat := if c.coxPort then [0, 1] else if c.oarPort then [] else [1]

/-- A TLP too long for a tunnel is discarded, and recorded as malformed (R43, R254). -/
def Hub.malformed (c : Hub) (bytes : Bytes) : Hub :=
  (c.count O.malformedDiscards).each c.linkFunctions fun c f => c.aerRecord f aerMalformed false bytes

/-- A TLP of the partner enters a tunnel (R43, R46): one over 1,024 B is discarded and reported; a non-posted one waits at 64 in flight. -/
def Hub.tlpIngress (c : Hub) (tid : Nat) (t : Tlp) : Hub :=
  if 1024 < t.bytes.length then (c.malformed t.bytes).emit .malformedTlp
  else
    let k := t.kind.category
    let c := c.put (H.pcieTaken k) (c.get (H.pcieTaken k) + 1)
    if k = 1 ∧ (64 ≤ c.get (H.npInFlight tid) ∨ c.tlpWait.any (fun w => w.tid == tid) = true) then
      ({ c with tlpWait := c.tlpWait ++ [⟨tid, t.bytes⟩] } : Hub).pcieSweep
    else (c.tlpPacket tid k t.bytes).pcieSweep

/-- A TLP without its prefixes: its header, and what follows (PRESUMED: the layout of PCI Express Base Specification 5.0, notes/assumptions/40.md). -/
def tlpHeader : Nat → Bytes → Bytes
  | 0, bs => bs
  | n + 1, bs => if bits (bs.getD 0 0).toNat 5 3 = 4 then tlpHeader n (bs.drop 4) else bs

/-- The bytes of a completion without data for a non-posted TLP, from its header, with a status: 1 Unsupported Request, 4 Completer Abort (PRESUMED, as
above). The completer's own number and the byte count are open. -/
def completionBytes (status : Nat) (tlp : Bytes) (open4 : Nat) : Bytes :=
  let req := tlpHeader tlp.length tlp
  let b : Nat → Byte := fun i => req.getD i 0
  let free : Nat → Byte := fun i => BitVec.ofNat 8 (open4 / 256 ^ i)
  [0x0A, b 1 &&& 0xFC, b 2 &&& 0x30, 0, free 0, free 1, BitVec.ofNat 8 (32 * status) ||| (free 2 &&& 0x0F), free 3, b 4, b 5, b 6, 0]

/-- The PCIe side of this hub takes no TLP from a tunnel: its link is down (R258), or in an Oar no pair is VALID (R260). -/
def Hub.tlpBarred (c : Hub) : Bool :=
  if c.oarPort then
    c.get O.rpLinkState != 2 || !((c.liveEntries.any fun t => c.valid t && c.get (O.pathIn t) == 0x20)
      && (c.liveEntries.any fun t => c.valid t && c.get (O.pathOut t) == 0x20 && !c.isMcast t))
  else c.get H.pcieLink != 2

/-- A TLP that left a tunnel while the link is barred (R258, R260): discarded and counted; an Oar answers a non-posted one as Unsupported
Request. Either way a non-posted one is over for its window (R46). -/
def Hub.barTlp (c : Hub) (x : EgressTlp) : Hub :=
  let c := c.when (x.category == 1) fun c => c.put (H.npSent x.tid) (c.get (H.npSent x.tid) + 1)
  if c.oarPort then
    let c := c.count O.rpDiscards
    let pair := c.get (O.pathPair x.tid)
    if x.category = 1 ∧ pair < 16384 ∧ c.valid pair = true then (c.draw.2).tlpPacket pair 2 (completionBytes 1 x.bytes c.draw.1) else c
  else c.count O.pcieLinkDownDiscards

/-- What waits at a barred egress goes (R258, R260). -/
def Hub.barWaiting (c : Hub) : Hub :=
  if c.tlpBarred then
    let xs := c.tlpOut
    xs.foldl Hub.barTlp { c with tlpOut := [] }
  else c

/-- A TLP that the hub takes itself uses a credit and returns it. -/
def Hub.tlpTaken (c : Hub) (t : Tlp) : Hub :=
  let k := t.kind.category
  (c.put (H.pcieTaken k) (c.get (H.pcieTaken k) + 1)).returnPcie

/-- The credits of R261 for CREDIT_CELLS_PCIE: header credits at most 127, data credits at most 2,047. -/
def Hub.advertise (c : Hub) : Hub :=
  let n := c.get H.pcieCellsInForce
  let h : Nat → Nat := fun v => min 127 (v * n / 256)
  let d : Nat → Nat := fun v => min 2047 (v * n / 256)
  let c := [0, 1, 2].foldl (fun c k => (c.put (H.pcieTaken k) 0).put (H.pcieGiven k) 0) c
  c.emit (.pcieCredits (h 32) (d 1024) (h 64) (d 64) (h 32) (d 1024))

/-- Functions 0 and 1 and every virtual downstream port return to their configuration-space defaults (R258), with the hub function's MSI-X table and
every error record; BAR4 takes its size anew
(R262). -/
def Hub.configDefaults (c : Hub) : Hub :=
  let gone : List Nat := [(H.cfg 0 0).key.obj, (H.aer 0 0).key.obj, (H.msixAddr 0).key.obj, (H.msixData 0).key.obj, (H.msixControl 0).key.obj,
    H.msixPending.key.obj]
  let c := { c with regs := c.regs.filter fun e => !gone.contains e.1.obj }
  let c := (c.instances (H.slotStatus 0)).foldl (fun c v => c.put (H.slotStatus v) (Nat.land (c.get (H.slotStatus v)) 5)) c
  c.put H.apertureInForce (c.get O.apertureSize)

/-- The PCIe link is down (R79, R256): what waits for it goes. -/
def Hub.pcieDown (c : Hub) : Hub :=
  let c := ((c.put H.pcieLink 0).put O.pcieLinkSpeed 0).put O.pcieLinkWidth 0
  let c := c.when c.oarPort fun c => ((c.put O.rpLinkState 0).put O.rpSpeed 0).put O.rpWidth 0
  ({ c with tlpWait := [] } : Hub).barWaiting.recompute

/-- The PCIe link goes down, and configuration space with it (R258). -/
def Hub.pcieLost (c : Hub) : Hub := (c.when (!c.oarPort) Hub.configDefaults).pcieDown

/-- PCIe path entries with an end at the adapter are torn down with their partners (R47, R101). -/
def Hub.teardownPcie (c : Hub) : Hub := (c.teardownUsing 24).emptyQueues 24

/-- Isolation of the PCIe adapter (R101, R370): its tunnels are torn down, its FIFOs emptied, and the link, which has gone down with its configuration
space (R258, R386), retrains. -/
def Hub.isolatePcie (c : Hub) : Hub :=
  let c := c.teardownPcie
  let c := { c with tlpOut := [], tlpWait := [] }
  let c := (c.instances (H.npInFlight 0)).foldl (fun (c : Hub) t => c.put (H.npInFlight t) 0) c
  let c := (c.instances (H.npSent 0)).foldl (fun c t => c.put (H.npSent t) 0) c
  let c := c.when (c.get H.pcieLink == 2) fun c => c.raise 64
  ((c.pcieLost).put H.pcieLink (if c.flag O.pcieEnable then 1 else 0)).refreshVdps

end Sys2Proof.Machine
end

