-- ==== Sys2Proof/Machine/BridgeOps.lean ====
section
/-! DEFINITION. The rigger bridge's shared operations (R266–R281): packets, the initiator's queue, tags and streams, and
read-ahead lines. -/
namespace Sys2Proof.Machine

/-! ## Packets (R266, R269) -/

/-- A bridge packet on the background channel (R266): operation, destination, header fields and data. Its INSTANCE is the target's as last learned in a
request, this hub's own in a response. -/
def Hub.sendRig (c : Hub) (op dst tag : Nat) (retx : Bool) (window status len offset inst seq : Nat) (data : Bytes) : Hub :=
  let header := leBytes op 1 ++ leBytes (c.get O.hubAddress) 1 ++ leBytes (tag % 4096 + (if retx then 4096 else 0)) 2 ++ leBytes window 1
    ++ leBytes status 1 ++ leBytes len 2 ++ leBytes offset 8 ++ leBytes inst 4 ++ leBytes seq 4
  let (p, c) := c.makePacket 2 7 0 0 (dst + 256 * 0x0A) (header ++ data)
  ({ c with mgmtWait := c.mgmtWait ++ [p] }).pump

/-- A request as sent under its tag. -/
def Hub.sendRigRequest (c : Hub) (r : RigRequest) (retx : Bool) : Hub :=
  c.sendRig r.op r.hub r.tag retx r.window 0 r.len r.offset r.inst r.seq r.data

/-- The hub at an address can be reached no more (R58, R270). -/
def Hub.rigGone (c : Hub) (a : Nat) : Bool := (c.mgmtRoute a).isNone

/-! ## Read-ahead (R278, R279) -/

/-- A line shares bytes with a range of a window. -/
def lineHit (x : PrefetchLine) (hub window a n : Nat) : Bool :=
  x.hub == hub && x.window == window && decide (a < x.offset + x.bytes.length ∧ x.offset < a + n)

/-- The initiator writes bytes of a window: the lines that hold any of them go (R278). -/
def Hub.dropWritten (c : Hub) (hub window a n : Nat) : Hub :=
  c.each (c.rigLines.filter fun x => lineHit x hub window a n) Hub.dropLine

/-- Read-ahead bytes arrive as lines of 512 B, replacing the least recently used where 64 stand (R278). -/
def Hub.addLine (c : Hub) (x : PrefetchLine) : Hub :=
  let c := match c.rigLines with
    | oldest :: _ => c.when (decide (64 ≤ c.rigLines.length)) fun c => c.dropLine oldest
    | [] => c
  { c with rigLines := c.rigLines ++ [x] }

/-- The line that holds a range whole. -/
def Hub.lineFor (c : Hub) (hub window a n : Nat) : Option PrefetchLine :=
  c.rigLines.find? fun x => x.hub == hub && x.window == window && decide (x.offset ≤ a ∧ a + n ≤ x.offset + x.bytes.length)

/-- Bytes of a line read: the line is the most recently used now. -/
def Hub.readLine (c : Hub) (x : PrefetchLine) (a n : Nat) : Bytes × Hub :=
  let i := a - x.offset
  let seen := (List.range x.read.length).map fun k => x.read.getD k true || decide (i ≤ k ∧ k < i + n)
  ((x.bytes.drop i).take n, { c with rigLines := c.rigLines.erase x ++ [{ x with read := seen }] })

/-! ## Issuing (R270, R273, R278) -/

/-- A WRITE, CLAIM or RELEASE (R270). -/
def serialOp (op : Nat) : Bool := op == 2 || op == 5 || op == 6

/-- The tag may be issued: the tag 64 before it has ended, with every earlier one in the window (R270). -/
def Hub.tagFree (c : Hub) : Bool := c.rigOut.all fun r => decide ((c.get H.rigTag + 4096 - r.tag) % 4096 < 64)

/-- A WRITE of the aperture write queue (R280). -/
def isApertureWrite (r : RigRequest) : Bool := r.op == 2 && match r.origin with | .apertureWrite _ => true | _ => false

/-- A waiting request may be sent now: no earlier one to its target waits or was turned away, a serial one has no serial one outstanding, and a
tag is free. A posted write, which has no tag and no end to wait for, follows the posted writes before it alone (R273), and the WRITEs of the
aperture queue follow one another in TLP order, whatever their targets (R280). -/
def Hub.issuable (c : Hub) (before : List RigRequest) (r : RigRequest) : Bool :=
  if r.op = 3 then !(before.any fun x => x.hub == r.hub && x.op == 3)
  else !((before ++ c.rigBack).any fun x => x.hub == r.hub) && !(isApertureWrite r && before.any isApertureWrite) && !(serialOp r.op && c.rigOut.any fun x => x.hub == r.hub && serialOp x.op) && c.tagFree

/-- The first waiting request that may be sent, with those before it. -/
def firstIssuable (c : Hub) : List RigRequest → List RigRequest → Option RigRequest
  | _, [] => none
  | before, r :: rest => if c.issuable before r then some r else firstIssuable c (before ++ [r]) rest

/-- The stream of posted writes to a window. -/
def Hub.postedTo (c : Hub) (hub window : Nat) : PostedStream :=
  (c.rigPosted.find? fun x => x.hub == hub && x.window == window).getD ⟨hub, window, 0, [], 0, false⟩

/-- A stream of posted writes replaced. -/
def Hub.putPosted (c : Hub) (x : PostedStream) : Hub :=
  { c with rigPosted := x :: c.rigPosted.filter fun y => !(y.hub == x.hub && y.window == x.window) }

/-- A posted write goes out under the stream's next SEQ and enters its log (R273, R274). -/
def Hub.postWrite (c : Hub) (hub window offset : Nat) (bar : Option Nat) (data : Bytes) : Hub :=
  let x := c.postedTo hub window
  let log := (x.log ++ [(⟨x.next, offset, bar⟩ : PostedWrite)]).drop (x.log.length + 1 - 4096)
  let c := (c.putPosted { x with next := (x.next + 1) % 2 ^ 32, log := log, unflushed := true }).dropWritten hub window offset data.length
  c.sendRig 3 hub 0 false window 0 data.length offset (c.get (H.rigKnown hub)) x.next data

/-- The slot of a request shows that it was issued (R281). -/
def Hub.slotIssued (c : Hub) (r : RigRequest) : Hub :=
  match r.origin with | .slot k => c.put (O.reqSlotState k) 2 | _ => c

/-- A request turned away with BUSY, here or at its target, is tried again after BACKOFF_TIME, up to CLAIM_RETRIES times, and then ended with 05h
(R276). One told to back off with 06h frees this hub's own bus first, and is tried again however often (R277). -/
def Hub.rigBusy (c : Hub) (r : RigRequest) (status : Nat) : Hub :=
  if status = 6 then
    let c := c.when (c.get O.busClaimant == c.get O.hubAddress) fun c => (c.put O.busClaimant 0xFF).count O.backoffs
    { c with rigOut := c.rigOut.erase r, rigBack := c.rigBack ++ [r] }
  else if r.tries < c.get O.claimRetries then
    { c with rigOut := c.rigOut.erase r, rigBack := c.rigBack ++ [{ r with tries := r.tries + 1 }] }
  else c.endRig r 5 []

/-- A request goes out under the next tag. -/
def Hub.sendTagged (c : Hub) (r : RigRequest) : Hub :=
  let tag := c.get H.rigTag
  let r : RigRequest := { r with tag := tag, inst := c.get (H.rigKnown r.hub) }
  let c := (c.put H.rigTag ((tag + 1) % 4096)).when (r.op == 2) fun c => c.dropWritten r.hub r.window r.offset r.len
  ({ c with rigOut := c.rigOut ++ [r] }).sendRigRequest r false

/-- The BAR4 offset that an aperture write's request was made from. -/
def barOfOrigin : RigOrigin → Option Nat
  | .apertureWrite bar => some bar | _ => none

/-- A request as it is issued: a FLUSH carries the SEQ of its stream's last posted write (R274). -/
def Hub.asIssued (c : Hub) (r : RigRequest) : RigRequest :=
  if r.op = 4 then { r with seq := ((c.postedTo r.hub r.window).next + 2 ^ 32 - 1) % 2 ^ 32 } else r

/-- One request issued. A posted write ends as it is sent (R273); away from the Cox one for a hub without a route ends with 0Ah (R270); a CLAIM
claims the hub's own bus first (R276); a READ that lies whole inside a line is served from it (R278); any other goes out. -/
def Hub.issue (c : Hub) (r : RigRequest) : Hub :=
  let own := c.get O.hubAddress
  let c := ({ c with rigWait := c.rigWait.erase r }).slotIssued r
  if r.op = 3 then (c.postWrite r.hub r.window r.offset (barOfOrigin r.origin) r.data).endRig r 0 []
  else if c.isCox = false ∧ c.rigGone r.hub = true then c.endRig r 0x0A []
  else if r.op = 5 then
    if c.get O.busClaimant = 0xFF ∨ c.get O.busClaimant = own then ((c.put O.busClaimant own).put (H.claimOn r.hub) 1).sendTagged r
    else c.rigBusy r 5
  else match (if r.op = 1 then c.lineFor r.hub r.window r.offset r.len else none) with
    | some x =>
      let (bytes, c) := c.readLine x r.offset r.len
      c.endRig r 0 bytes
    | none => c.sendTagged (c.asIssued r)

/-- Waiting requests issued, in order, while they may be; none while the bridge is off (5040h.01). -/
def Hub.issueAll : Nat → Hub → Hub
  | 0, c => c
  | n + 1, c =>
    if c.flag O.bridgeEnable = false then c
    else match firstIssuable c [] c.rigWait with
      | none => c
      | some r => Hub.issueAll n (c.issue r)

/-- What a change of the waiting or outstanding requests lets go out, and the posted credit that room in the aperture queue gives back (R280). -/
def Hub.pumpRig (c : Hub) : Hub := (Hub.issueAll c.rigWait.length c).returnPcie

/-- A request joins those that wait. -/
def Hub.queueRig (c : Hub) (r : RigRequest) : Hub := ({ c with rigWait := c.rigWait ++ [r] }).pumpRig

/-- A FLUSH of a stream; its SEQ is set as it is issued (R274). -/
def Hub.flushRequest (c : Hub) (hub window : Nat) (origin : RigOrigin) : RigRequest :=
  c.asIssued ⟨4, hub, window, 0, 0, [], origin, 0, 0, 0, 0⟩

/-- Posted writes were found missing, or one failed (R275): logged with the address of the first, from the log of the stream. -/
def Hub.postedError (c : Hub) (hub window status seq count : Nat) : Hub :=
  let x := c.postedTo hub window
  match x.log.find? fun w => w.seq == seq with
  | none => c.logRig (match x.log.getLast? with | some w => if w.bar.isSome then 1 else 2 | none => 3) (errKind status) hub window seq count 0xFFFFFFFFFFFFFFFF
  | some w => c.logRig (if w.bar.isSome then 1 else 2) (errKind status) hub window seq count (w.bar.getD w.offset)

/-! ## Targets that leave or restart (R269, R270, R276, R282) -/

/-- A hub has left the tree: what waits for it ends, and its claim ends (R270, R276). -/
def Hub.rigLeft (c : Hub) (hub : Nat) : Hub := (c.rigLost hub).pumpRig

/-- A response shows a hub's INSTANCE (R269): a new one ends that hub's claim and discards its lines (R276, R278). -/
def Hub.rigLearn (c : Hub) (hub inst : Nat) : Hub :=
  let was := c.get (H.rigKnown hub)
  let c := c.put (H.rigKnown hub) inst
  c.when (was != 0 && was != inst) fun c =>
    let c := c.each (c.rigLines.filter fun x => x.hub == hub) Hub.dropLine
    let c := { c with rigPosted := c.rigPosted.map fun x : PostedStream => if x.hub = hub then { x with reported := 0 } else x }
    c.when (c.get O.busClaimant == hub) fun c => c.put O.busClaimant 0xFF

/-! ## Objects of the bridge (R268, R281) -/

/-- A target window written (R268). The hub sets SIDE_EFFECT. -/
def Hub.writeTargetWindow (c : Hub) (w : Nat) (v : TargetWindow) : Status × Hub :=
  let k := v.kind.toNat
  let f := v.flags.toNat
  let n := v.size.toNat
  let b := v.base.toNat
  let bad := decide (3 < k ∨ 2 < v.level.toNat ∨ 4096 < v.prefetch.toNat ∨ v.prefetch.toNat % 512 ≠ 0)
    || (k == 3 && (bit f 1 || bit f 2 || bit f 3)) || n == 0
    || (k == 1 && !decide (0x04000000 ≤ b ∧ b + n ≤ 0x200000000 - c.get O.spillSize * 0x10000000)) || (k == 2 && decide (65536 < b + n))
  if bad then (.invalidValue, c)
  else
    let side := k == 3 || bit f 3
    (.ok, (((((c.put (O.targetWinKind w) k).put (O.targetWinFlags w) (withBit (f % 64) 4 side)).put (O.targetWinLevel w) v.level.toNat).put
      (O.targetWinPrefetch w) v.prefetch.toNat).put (O.targetWinBase w) b).put (O.targetWinSize w) n)

/-- The request of a slot is submitted (R274, R281). -/
def Hub.submitSlot (c : Hub) (k : Nat) (v : SlotRequest) : Hub :=
  let hub := v.hub.toNat
  let window := v.window.toNat
  let r : RigRequest := ⟨v.op.toNat, hub, window, v.offset.toNat, v.len.toNat, if v.op.toNat = 2 ∨ v.op.toNat = 3 then v.data.take v.len.toNat else [],
    .slot k, 0, 0, 0, 0⟩
  if v.op.toNat = 4 then c.queueRig { c.flushRequest hub window (.slot k) with offset := v.offset.toNat } else c.queueRig r

/-- A request slot written (R281): STATE 01h submits it; busy while a request of the slot runs. -/
def Hub.writeSlot (c : Hub) (k : Nat) (v : SlotRequest) : Status × Hub :=
  if c.get (O.reqSlotState k) = 1 ∨ c.get (O.reqSlotState k) = 2 then (.busy, c)
  else if v.op.toNat = 0 ∧ v.state.toNat = 1 ∨ 6 < v.op.toNat ∨ 1 < v.state.toNat ∨ 31 < v.window.toNat ∨ 512 < v.len.toNat ∨ 512 < v.data.length then
    (.invalidValue, c)
  else
    let c := ((((c.put (O.reqSlotOp k) v.op.toNat).put (O.reqSlotHub k) v.hub.toNat).put (O.reqSlotWindow k) v.window.toNat).put
      (O.reqSlotState k) v.state.toNat).put (O.reqSlotStatus k) 0
    let c := ((c.put (O.reqSlotLen k) v.len.toNat).put (O.reqSlotOffset k) v.offset.toNat).put (O.reqSlotData k) (leNat v.data)
    (.ok, if v.state = 1 then c.submitSlot k v else c)

end Sys2Proof.Machine
end

