-- ==== Sys2Proof/Machine/Allot.lean ====
section
/-! DEFINITION. The Cox's services that several commands share: answers to JOINs, detaches and holds (R15–R24), the route service
(R72–R74, R454–R457) and the allotment of a plan (R118–R125, R127). -/
namespace Sys2Proof.Machine

/-! ## The tree as the Cox knows it -/

/-- A hub and those above it up to the Cox. A tree is at most 6 links deep (R15). -/
def Hub.chain (c : Hub) : Nat → Nat → List Nat
  | 0, a => [a]
  | n + 1, a => if a = 0 then [0] else a :: c.chain n (c.get (O.hubTableParent a))

/-- The hubs that stand in the tree: known, and not already detached (R17, R21). -/
def Hub.standing (c : Hub) : List Nat := c.known.filter fun a => c.get (O.hubTableState a) != 3

/-- The hubs behind a port of a hub (R21). -/
def Hub.behind (c : Hub) (reporter port : Nat) : List Nat :=
  c.standing.filter fun a => (c.chain 8 a).any fun x =>
    x != 0 && c.get (O.hubTableParent x) == reporter && c.get (O.hubTableParentPort x) == port

/-- The hubs below a hub (R22). -/
def Hub.below (c : Hub) (reporter : Nat) : List Nat := c.standing.filter fun a => a != reporter && (c.chain 8 a).contains reporter

/-- What the Cox keeps of a hub's reports. -/
def Hub.reportOf (c : Hub) (a : Nat) : HubReport := (c.reports.find? fun r => r.hub == a).getD ⟨a, false, false, false, false⟩

/-- A change to what the Cox keeps of a hub's reports. -/
def Hub.setReport (c : Hub) (r : HubReport) : Hub := { c with reports := c.reports.filter (fun x => x.hub != r.hub) ++ [r] }

/-- A message of the Cox to a parent about its port: to the port itself where the Cox is that parent (R56, R57). -/
def Hub.toParent (c : Hub) (parent port : Nat) (m : Mgmt) : Hub :=
  if parent = 0 then c.emit (.mgmtTo (some port) 0 m) else c.emit (.mgmtTo none parent m)

/-! ## JOIN (R15–R18, R24) -/

/-- The reason for which a JOIN is refused, the first in R18's order, if any; `addr` is the address it would get. -/
def Hub.joinRefusal (c : Hub) (j : JoinRecord) (addr : Option Nat) : Option Nat :=
  let parent := j.parent.toNat
  let depth := if parent = 0 then 0 else c.get (O.hubTableDepth parent)
  let loops := c.known.any fun a => c.get (O.hubTableUid a) == j.uid.toNat && c.get (O.hubTableState a) == 2
  let full := ((List.range 254).map (· + 1)).all fun a => c.get (O.hubTableUid a) != 0
  if 7 ≤ depth + 1 then some 1
  else if full && (addr.isNone || loops) then some 2
  else if loops then some 3
  else if j.role = 2 then some 4
  else if parent ≠ 0 ∧ c.get (H.hubRole parent) = 0 then some 5
  else none

/-- A JOIN answered (R18): with the ASSIGN still open for its HUB_UID again, with a REFUSE, or with an address: the one held for it, as a
return, or the lowest free one (R17, R24). -/
def Hub.answerJoin (c : Hub) (j : JoinRecord) : Hub :=
  let uid := j.uid.toNat
  let parent := j.parent.toNat
  let port := j.port.toNat
  let held := c.known.find? fun a => c.get (O.hubTableUid a) == uid
  let free := ((List.range 254).map (· + 1)).find? fun a => c.get (O.hubTableUid a) == 0
  let addr := held.or free
  match held.filter fun a => c.get (H.assignOpen a) == 1 with
  | some a =>
    c.toParent (c.get (O.hubTableParent a)) (c.get (O.hubTableParentPort a))
      (.assign a (c.get (O.hubTableDepth a)) (c.get (O.hubTableParentPort a)) (c.flag (H.assignReturn a)))
  | none => match c.joinRefusal j addr with
    | some why =>
      let c := c.when (parent == 0) fun c => (c.putB (H.refusedBelow port) true).topoEvent port 3 why uid
      (c.toParent parent port (.refuse port why)).raise 23 255 why
    | none =>
      let a := addr.getD 0
      let depth := 1 + if parent = 0 then 0 else c.get (O.hubTableDepth parent)
      let c := ((c.put (O.hubTableUid a) uid).put (O.hubTableParent a) parent).put (O.hubTableParentPort a) port
      let c := ((c.put (O.hubTableDepth a) depth).put (O.hubTableState a) 1).put (H.hubRole a) j.role.toNat
      let c := ((c.put (H.hubUpPort a) j.ownPort.toNat).put (H.assignOpen a) 1).putB (H.assignReturn a) held.isSome
      (c.when (parent == 0) fun c => c.putB (H.refusedBelow port) false).toParent parent port (.assign a depth port held.isSome)

/-! ## Routes (R72–R74, R455, R457) -/

/-- The tree path between two hubs, source first. -/
def Hub.treePath (c : Hub) (src dst : Nat) : List Nat :=
  let up := c.chain 8 src
  let down := c.chain 8 dst
  let top := (up.find? fun a => down.contains a).getD 0
  up.takeWhile (· ≠ top) ++ [top] ++ (down.takeWhile (· ≠ top)).reverse

/-- The egress port of a hub toward its neighbour on a path: its own upstream port, or the parent port of the child. -/
def Hub.portToward (c : Hub) (a b : Nat) : Nat :=
  if a ≠ 0 ∧ c.get (O.hubTableParent a) = b then c.get (H.hubUpPort a) else c.get (O.hubTableParentPort b)

/-- A route's work record, if it was taken up. -/
def Hub.workOf (c : Hub) (r : Nat) : Option RouteWork := c.works.find? fun w => w.route == r

/-- A route's work record replaced. -/
def Hub.setWork (c : Hub) (w : RouteWork) : Hub := { c with works := c.works.filter (fun x => x.route != w.route) ++ [w] }

/-- The class of a route is isochronous (C1–C3). -/
def Hub.routeIso (c : Hub) (r : Nat) : Bool := decide (1 ≤ c.get (O.routeCls r) ∧ c.get (O.routeCls r) ≤ 3)

/-- The reason found before any allocation, the first in R72's order: unknown hub, hub not Member, combination, endpoint. -/
def Hub.routeRefusal (c : Hub) (r : Nat) : Option Nat :=
  let src := c.get (O.routeSrcHub r)
  let dst := c.get (O.routeDstHub r)
  let unknown : Nat → Bool := fun a => a != 0 && c.get (O.hubTableUid a) == 0
  let path := c.treePath src dst
  let row := typeRow (c.get (O.routeType r))
  let ends := [c.get (O.routeSrcEnd r), c.get (O.routeDstEnd r)]
  let crew : Nat → Bool := fun a => a != 0 && c.get (H.hubRole a) == 1
  if unknown src || unknown dst then some 1
  else if !path.all c.memberAt then some 7
  else if !(row.1.contains (c.get (O.routeCls r)) && ends.all (fun k => row.2.1.contains k) && src != dst) then some 3
  else if c.get (O.routeType r) == 2 && (crew src || crew dst) then some 2
  else none

/-- An ID at a hub for a route (R73): one never freed, lowest first, then the least recently freed. The count goes on for an
address that passes to another hub (DESIGN CHOICE, notes/assumptions/91.md). -/
def Hub.allocId (c : Hub) (a : Nat) : Option (Nat × Hub) :=
  let t := c.get (H.freshId a)
  if t ≤ 16383 then some (t, c.put (H.freshId a) (t + 1))
  else match c.freedIds.find? fun x => x.1 == a with
    | some x => some (x.2, { c with freedIds := c.freedIds.erase x })
    | none => none

/-- IDs at each hub of a path. -/
def Hub.allocIds (c : Hub) : List Nat → Option (List Nat × Hub)
  | [] => some ([], c)
  | a :: rest => match c.allocId a with
    | none => none
    | some (t, c) => (Hub.allocIds c rest).map fun x => (t :: x.1, x.2)

/-- The lowest shaper of 2048–4095 that no entry at a hub names (R457): of no route there, nor of one whose entry may still be in DRAIN. A
suspended route keeps its shapers and its policer (DESIGN CHOICE, notes/assumptions/91.md: R74 speaks of its IDs alone). -/
def Hub.freeShaper (c : Hub) (a : Nat) : Option Nat :=
  let used := (c.works.flatMap fun w => ((w.hubs.zip w.shapers).filter fun x => x.1 == a).map Prod.snd)
    ++ (c.retired.filter fun u => u.hub == a).map RetiredUse.shaper
  let own := if a = 0 then c.liveEntries.map fun t => c.get (O.pathShaper t) else []
  ((List.range 2048).map (· + 2048)).find? fun s => !used.contains s && !own.contains s

/-- The lowest policer of 2048–4095 that no entry at a source hub names (R457); a suspended route keeps its own, as its shapers. -/
def Hub.freePolicer (c : Hub) (a : Nat) : Option Nat :=
  let used := (c.works.filter fun w => w.hubs.head? == some a).map RouteWork.policer
    ++ (c.retired.filter fun u => u.hub == a).map RetiredUse.policer
  let own := if a = 0 then c.liveEntries.map fun t => c.get (O.pathPolicer t) else []
  ((List.range 2048).map (· + 2048)).find? fun s => !used.contains s && !own.contains s

/-- Route entries at a hub. -/
def Hub.routeLoad (c : Hub) (a : Nat) : Nat := if a = 0 then c.activeTunnels else (c.works.filter fun w => w.hubs.contains a).length

/-- A request's path, IDs, shapers and policer, or the reason for which none can be had (R73, R457). -/
def Hub.allocRoute (c : Hub) (r : Nat) : Except Nat (RouteWork × Hub) :=
  let hubs := c.treePath (c.get (O.routeSrcHub r)) (c.get (O.routeDstHub r))
  let iso := c.routeIso r
  let shapers := if iso then hubs.map c.freeShaper else []
  let policer := if iso then c.freePolicer (hubs.headD 0) else some 0xFFFF
  match c.allocIds hubs with
  | none => .error 4
  | some (ids, c') =>
    if shapers.any Option.isNone || policer.isNone then .error 10
    else if hubs.any fun a => decide (4096 ≤ c.routeLoad a) then .error 5
    else if hubs.contains 0 && c.stagedSlots.length == 256 then .error 6
    else
      let pairs := hubs.zip (hubs.drop 1)
      let w : RouteWork :=
        { route := r, hubs := hubs, ports := pairs.map (fun x => c.portToward x.1 x.2), inPorts := pairs.map (fun x => c.portToward x.2 x.1),
          shapers := shapers.map fun x => x.getD 0, policer := policer.getD 0xFFFF, tornDown := 0, lost := [] }
      let c' := (c'.put (O.routeHubs r) hubs.length).each ((List.range 13).zip ids) fun c x => c.put (O.routeTid r x.1) x.2
      .ok (w, c'.setWork w)

/-- The entry of a route at the ith hub of its path (R60, R73). The two tunnels of a PCIe pair, and a stream and its companion, name each
other where both have IDs (R42, R47). A stream taken up before its companion carries PAIR FFFFh, and the companion, taken up after it, names
the stream (DESIGN CHOICE, notes/assumptions/76.md). -/
def Hub.routeEntry (c : Hub) (w : RouteWork) (i : Nat) (valid : Bool) : PathEntry :=
  let r := w.route
  let n := w.hubs.length
  let a := w.hubs.getD i 0
  let pair := match c.workOf (c.get (O.routePair r)) with
    | some q => match q.hubs.idxOf? a with | some j => c.get (O.routeTid q.route j) | none => 0xFFFF
    | none => 0xFFFF
  { flags := if valid then 1 else 0, type := BitVec.ofNat 8 (c.get (O.routeType r)),
    inp := BitVec.ofNat 8 (if i = 0 then c.get (O.routeSrcEnd r) else w.inPorts.getD (i - 1) 0), cls := BitVec.ofNat 8 (c.get (O.routeCls r)),
    out := BitVec.ofNat 16 (if i + 1 = n then c.get (O.routeDstEnd r) else w.ports.getD i 0),
    outTid := BitVec.ofNat 16 (if i + 1 = n then 0 else c.get (O.routeTid r (i + 1))),
    shaper := BitVec.ofNat 16 (w.shapers.getD i 0xFFFF), policer := BitVec.ofNat 16 (if i = 0 then w.policer else 0xFFFF),
    pair := BitVec.ofNat 16 (if i = 0 ∨ i + 1 = n then pair else 0xFFFF) }

/-- STAGE for a route at the hubs given, for one boundary (R73): to itself the Cox stages at once. The source MAC's VID_MAP entry rides
along, for the low 12 bits of VID (DESIGN CHOICE, notes/assumptions/86.md: R72 gives VID no range). -/
def Hub.stageRoute (c : Hub) (w : RouteWork) (at0 : Nat) (valid : Bool) (skip : List Nat) : Hub :=
  let r := w.route
  c.each ((List.range w.hubs.length).filter fun i => !skip.contains (w.hubs.getD i 0)) fun c i =>
    let a := w.hubs.getD i 0
    let rec0 : StageRecord :=
      { tid := BitVec.ofNat 16 (c.get (O.routeTid r i)), used := 1, activate := BitVec.ofNat 64 at0, entry := c.routeEntry w i valid }
    let vid : Option VidMapping := if valid ∧ i = 0 ∧ c.get (O.routeType r) = 3 then
        some { mac := if c.get (O.routeSrcEnd r) = 0x22 then 1 else 0, vid := BitVec.ofNat 12 (c.get (O.routeVid r)),
               prio := c.get (O.routeCls r) == 5 }
      else none
    if a = 0 then c.stageFromMessage rec0 vid else c.emit (.mgmtTo none a (.stage rec0 vid))

/-- A route refused (R73). -/
def Hub.refuseRoute (c : Hub) (r why : Nat) : Hub := (c.put (O.routeState r) 3).put (O.routeReason r) why

/-- What a route that ends still holds at the hubs of its path (R69, R127, R454, R457): its IDs until stroke `idAt`, 0 where they are free at
once, its shapers and policer until its entries are out of DRAIN, and the plans that must list its grant 0. A hub that was lost keeps its entry until
the plan of its return takes effect, two or three strokes on (R24). -/
def Hub.retiredUses (c : Hub) (w : RouteWork) (idAt : Nat) : List RetiredUse :=
  let owe := if c.get (H.pastGrant w.route 0) ≠ 0 then 2 else if c.get (H.pastGrant w.route 1) ≠ 0 then 1 else 0
  let back := if w.lost.isEmpty then 0 else c.stroke + 3
  (List.range w.hubs.length).map fun i =>
    { route := w.route, hub := w.hubs.getD i 0, tid := c.get (O.routeTid w.route i), shaper := w.shapers.getD i 0xFFFF,
      policer := if i = 0 then w.policer else 0xFFFF, idAt := idAt, useAt := max (max w.tornDown idAt) back + c.get O.drainHold, owe := owe }

/-- A route ends: its record of work goes, and what it still holds is kept. With `idAt` 0 its IDs are free at once, the least recently freed first
in the list. -/
def Hub.endRoute (c : Hub) (r idAt : Nat) : Hub :=
  match c.workOf r with
  | none => c
  | some w =>
    let uses := c.retiredUses w idAt
    let ids := if idAt = 0 then uses.map fun u => (u.hub, u.tid) else []
    let c := { c with freedIds := c.freedIds ++ ids, works := c.works.filter (fun x => x.route != r), retired := c.retired ++ uses }
    ((((c.put (H.pastGrant r 0) 0).put (H.pastGrant r 1) 0).put (H.pastGrant r 2) 0).put (H.routeDemand r 0) 0).put (H.routeDemand r 1) 0

/-- A route ends with its IDs free at once. -/
def Hub.freeRoute (c : Hub) (r : Nat) : Hub := c.endRoute r 0

/-- The IDs whose teardown has applied are freed, and what holds nothing any more is dropped. What a route held at a hub that is lost stays held
until that hub has returned and torn its entry down, or its address is free (R24, R457). -/
def Hub.clearRetired (c : Hub) : Hub :=
  let due : RetiredUse → Bool := fun u => u.idAt != 0 && decide (u.idAt ≤ c.stroke)
  let ids := (c.retired.filter due).map fun u => (u.hub, u.tid)
  let away : RetiredUse → Bool := fun u => u.hub != 0 && c.get (O.hubTableUid u.hub) != 0 && !c.memberAt u.hub
  let held := c.retired.map fun u =>
    { u with idAt := if due u then 0 else u.idAt, useAt := if away u then max u.useAt (c.stroke + 3 + c.get O.drainHold) else u.useAt }
  let kept := held.filter fun u =>
    u.idAt != 0 || u.owe != 0 || decide (c.stroke < u.useAt)
  { c with freedIds := c.freedIds ++ ids, retired := kept }

/-- The other route of a PCIe pair, where the two name each other (R455). -/
def Hub.pairOf (c : Hub) (r : Nat) : Option Nat :=
  let q := c.get (O.routePair r)
  if c.get (O.routeType r) = 2 ∧ q < 4096 ∧ c.get (O.routePair q) = r then some q else none

/-- The conditions of a pair but that of STATE (R455). -/
def Hub.pairMatches (c : Hub) (r q : Nat) : Bool :=
  q != r && c.get (O.routePair q) == r && c.get (O.routeType q) == 2 && c.get (O.routeSrcHub r) == c.get (O.routeDstHub q)
    && c.get (O.routeDstHub r) == c.get (O.routeSrcHub q) && c.get (O.routeSrcEnd r) == 0x20 && c.get (O.routeDstEnd r) == 0x20
    && c.get (O.routeSrcEnd q) == 0x20 && c.get (O.routeDstEnd q) == 0x20

/-- A request taken up alone (R73): refused, or staged for the boundary two strokes ahead. -/
def Hub.takeUpOne (c : Hub) (r : Nat) : Hub :=
  match c.routeRefusal r with
  | some why => c.refuseRoute r why
  | none => match c.allocRoute r with
    | .error why => c.refuseRoute r why
    | .ok (w, c) => (c.put (O.routeActivate r) (c.stroke + 2)).stageRoute w (c.stroke + 2) true []

/-- The reason for which no IDs, shapers or places can be had for a request, if any. -/
def Hub.allocRefusal (c : Hub) (r : Nat) : Option Nat := match c.allocRoute r with | .error why => some why | .ok _ => none

/-- The two requests of a PCIe pair taken up together, or both refused: each with its own reason, or with 08h where only its partner has one
(R455). -/
def Hub.takeUpPair (c : Hub) (r q : Nat) : Hub :=
  let both : Option Nat → Option Nat → Hub := fun x y => (c.refuseRoute r (x.getD 8)).refuseRoute q (y.getD 8)
  match c.routeRefusal r, c.routeRefusal q with
  | none, none => match c.allocRoute r with
    | .error why => both (some why) (c.allocRefusal q)
    | .ok (wr, c1) => match c1.allocRoute q with
      | .error why => both none (some why)
      | .ok (wq, c2) =>
        let c2 := (c2.put (O.routeActivate r) (c2.stroke + 2)).put (O.routeActivate q) (c2.stroke + 2)
        (c2.stageRoute wr (c2.stroke + 2) true []).stageRoute wq (c2.stroke + 2) true []
  | x, y => both x y

/-- A request at a boundary (R73, R455): a PCIe route waits while its partner is free, is taken up with it where the two form a pair, and else is
refused. -/
def Hub.takeUp (c : Hub) (r : Nat) : Hub :=
  let q := c.get (O.routePair r)
  if c.get (O.routeState r) ≠ 1 ∨ (c.workOf r).isSome = true then c
  else if c.get (O.routeType r) ≠ 2 then c.takeUpOne r
  else if q < 4096 ∧ q ≠ r ∧ c.get (O.routeState q) = 0 then c
  else if decide (q < 4096) && c.pairMatches r q && c.get (O.routeState q) == 1 && (c.workOf q).isNone then c.takeUpPair r q
  else c.refuseRoute r ((c.routeRefusal r).getD 8)

/-- A teardown of a route staged at every hub but those named, for the boundary two strokes ahead, and after the route's activation (R73, R74,
R454). A STAGE_FAIL or a DETACH in the course of a stroke counts from the boundary that began the stroke, and a route not yet activated is torn
down at the boundary after its activation (R74, R456; DESIGN CHOICE, notes/assumptions/76.md). -/
def Hub.stageTeardown (c : Hub) (r : Nat) (skip : List Nat) : Hub :=
  match c.workOf r with
  | none => c
  | some w =>
    let at0 := max (c.stroke + 2) (c.get (O.routeActivate r) + 1)
    (c.stageRoute w at0 false skip).setWork { w with tornDown := at0, lost := skip }

/-- A route suspended because hubs on its path are lost (R74); a teardown already staged stands. -/
def Hub.suspendRoute (c : Hub) (r : Nat) (lost : List Nat) : Hub :=
  match c.workOf r with
  | none => c
  | some w =>
    let c := c.when (c.get (O.routeState r) != 5) fun c => (c.put (O.routeState r) 5).put (O.routeReason r) 9
    if w.tornDown = 0 then c.stageTeardown r lost else c.setWork { w with lost := (w.lost ++ lost).eraseDups }

/-- Hubs treated as detached (R17, R21, R22): their holds start, and every route over them is suspended, with the other of its pair (R74, a route
whose teardown is under way among them), from the boundary that began the stroke also where its plan was computed already (DESIGN CHOICE,
notes/assumptions/76.md). A hub already detached stays as it is. -/
def Hub.detachHubs (c : Hub) (gone : List Nat) : Hub :=
  let gone := gone.filter fun a => c.get (O.hubTableUid a) != 0 && c.get (O.hubTableState a) != 3
  let c := c.each gone fun c a =>
    let c := ((c.put (O.hubTableState a) 3).put (O.hubTableHold a) (c.get O.addressHold)).put (H.holdAt a) c.now
    ((c.put (H.assignOpen a) 0).put (H.probes a) 0).rigLeft a
  let hit := c.works.filter fun w => w.hubs.any gone.contains
  let c := c.each hit fun c w =>
    let lost := w.hubs.filter gone.contains
    let c := c.suspendRoute w.route lost
    match c.pairOf w.route with
    | some q => if (c.workOf q).isSome then c.suspendRoute q lost else c
    | none => c
  c.countHubs

/-- An address hold ends (R17, R74): the address is free, and a route that still waits for its hub goes, with the other of its pair. -/
def Hub.endHold (c : Hub) (a : Nat) : Hub :=
  let hit := c.works.filter fun w => w.lost.contains a && c.get (O.routeState w.route) == 5
  let c := c.each hit fun c w => (c.freeRoute w.route).put (O.routeState w.route) 0
  let c := ((c.put (O.hubTableUid a) 0).put (O.hubTableParent a) 0).put (O.hubTableParentPort a) 0
  let c := ((c.put (O.hubTableDepth a) 0).put (O.hubTableState a) 0).put (O.hubTableHold a) 0
  { c with reports := c.reports.filter fun r => r.hub != a }

/-! ## Routes at a stroke boundary (R73, R74, R454) -/

/-- The path of a route as the tree now stands is the one it was taken up with. -/
def Hub.pathUnchanged (c : Hub) (w : RouteWork) : Bool :=
  let hubs := c.treePath (c.get (O.routeSrcHub w.route)) (c.get (O.routeDstHub w.route))
  let pairs := hubs.zip (hubs.drop 1)
  decide (hubs = w.hubs) && decide (pairs.map (fun x => c.portToward x.1 x.2) = w.ports)
    && decide (pairs.map (fun x => c.portToward x.2 x.1) = w.inPorts)

/-- Every lost hub of a suspended route is a Member again (R74). -/
def Hub.mayResume (c : Hub) (w : RouteWork) : Bool := c.get (O.routeState w.route) == 5 && w.lost.all c.memberAt

/-- A suspended route whose hubs are all Members again (R74): staged again with its IDs where its path is unchanged, else requested
anew. -/
def Hub.resumeRoute (c : Hub) (w : RouteWork) : Hub :=
  let r := w.route
  if c.pathUnchanged w then
    let at0 := max (c.stroke + 2) (w.tornDown + c.get O.drainHold)
    let w := { w with lost := [], tornDown := 0 }
    (((c.put (O.routeState r) 2).put (O.routeReason r) 0).put (O.routeActivate r) at0).setWork w |>.stageRoute w at0 true []
  else (c.freeRoute r).put (O.routeState r) 1 |>.put (O.routeReason r) 0

/-- The REASON for a PATH_STATUS in a STAGE_FAIL (R456). -/
def failReason (status : Nat) : Nat := match status with | 3 => 5 | 7 => 6 | 6 => 11 | _ => 3

/-- A route refused in the course of its staging (R456): torn down at every hub of its path but those named, unless its teardown is staged
already; its IDs are free once that applies, and it may be requested anew at once (R454). -/
def Hub.abortRoute (c : Hub) (r why : Nat) (skip : List Nat) : Hub :=
  match c.workOf r with
  | none => c
  | some w =>
    let c := c.refuseRoute r why
    let c := if w.tornDown = 0 then c.stageTeardown r skip else c
    c.endRoute r (match c.workOf r with | some w => w.tornDown | none => 0)

/-- The REASON of a refused route for which a further failure comes: 08h of a partner's failure gives way to its own (R455), and of two of its own the
first in R72's order stands. -/
def laterReason (old new : Nat) : Nat :=
  if old = 8 then new
  else (([1, 7, 3, 2, 8, 4, 10, 5, 6, 11] : List Nat).find? fun x => x == old || x == new).getD new

/-- A failed record of a route refused already: the record's ID is still held at the hub that failed it for the route's teardown, and the route's
REASON follows (R455, R456). -/
def Hub.failAgain (c : Hub) (a tid why at0 : Nat) : Hub :=
  match c.retired.find? fun u => u.hub == a && u.tid == tid && u.idAt != 0 with
  | some u =>
    if c.get (O.routeState u.route) = 3 ∧ c.get (O.routeActivate u.route) = at0 then
      c.put (O.routeReason u.route) (laterReason (c.get (O.routeReason u.route)) why)
    else c
  | none => c

/-- A STAGE_FAIL of a hub for an activation or a teardown of a route (R456); the other route of a pair is refused with 08h (R455). -/
def Hub.stageFailAt (c : Hub) (a tid st at0 : Nat) : Hub :=
  let hit := c.works.find? fun w => match w.hubs.idxOf? a with
    | some i => c.get (O.routeTid w.route i) == tid && (c.get (O.routeActivate w.route) == at0 || w.tornDown == at0)
    | none => false
  match hit with
  | none => c.failAgain a tid (failReason st) at0
  | some w =>
    let pair := c.pairOf w.route
    let c := c.abortRoute w.route (failReason st) [a]
    match pair with
    | some q => c.abortRoute q 8 []
    | none => c

/-- The Cox's own records that were refused or dropped (R456). -/
def Hub.takeOwnFails (c : Hub) : Hub :=
  let fs := c.ownFails
  ({ c with ownFails := [] } : Hub).each fs fun c f => c.stageFailAt 0 f.1 f.2.1 f.2.2

/-- The route service at a boundary: the Cox's own failed records, activations, teardowns due and staged, suspended routes that may resume, and
new requests. -/
def Hub.routeBoundary (c : Hub) : Hub :=
  let c := c.takeOwnFails.clearRetired
  let c := c.each c.works fun c w =>
    let r := w.route
    let c := c.when (c.get (O.routeState r) == 1 && decide (c.get (O.routeActivate r) ≤ c.stroke)) fun c => c.put (O.routeState r) 2
    if w.tornDown ≠ 0 ∧ w.tornDown ≤ c.stroke ∧ c.get (O.routeState r) ≠ 5 then (c.freeRoute r).put (O.routeState r) 0
    else c.when (c.get (O.routeState r) == 4 && w.tornDown == 0) fun c => c.stageTeardown r []
  let c := c.each (c.works.filter c.mayResume) fun c w => c.resumeRoute w
  let c := c.each ((c.instances (O.routeState 0)).filter fun r => c.get (O.routeState r) == 1) fun c r => c.takeUp r
  c.takeOwnFails

/-! ## The allotment (R118–R125) -/

/-- A tunnel in a plan: its route, the links it crosses (24 × hub + port), demand, floor, previous grant, and whether it is frozen. -/
structure Flow where
  route : Nat
  links : List Nat
  demand : Nat
  floor : Nat
  prev : Nat
  eligible : Bool
  frozen : Bool

/-- A share being filled: its links, what it wants and has, and whether it is open (R123). -/
structure Share1 where
  links : List Nat
  want : Nat
  give : Nat
  opened : Bool

/-- A link's bytes left. -/
def capOf (cap : List (Nat × Nat)) (l : Nat) : Nat := ((cap.find? fun x => x.1 == l).map Prod.snd).getD 0

/-- The open shares that cross a link. -/
def openOn (xs : List Share1) (l : Nat) : Nat := (xs.filter fun x => x.opened && x.links.contains l).length

/-- The passes of waterfill (R123). Each closes at least one share. -/
def fillPasses : Nat → List Share1 → List (Nat × Nat) → List Share1
  | 0, xs, _ => xs
  | n + 1, xs, cap =>
    let opens := xs.filter Share1.opened
    match opens with
    | [] => xs
    | x :: rest =>
      let need := (rest.map fun y => y.want - y.give).foldl min (x.want - x.give)
      let busy := cap.filter fun l => openOn xs l.1 != 0
      let level := (busy.map fun l => l.2 / openOn xs l.1).foldl min need
      let cap' := cap.map fun l => (l.1, l.2 - level * openOn xs l.1)
      let xs' := xs.map fun y =>
        if y.opened then
          let g := y.give + level
          { y with give := g, opened := g != y.want && !y.links.any fun l => decide (capOf cap' l < openOn xs l) }
        else y
      fillPasses n xs' cap'

/-- waterfill(want, cap) of R123: what each share is given. -/
def waterfill (wants : List (List Nat × Nat)) (cap : List (Nat × Nat)) : List Nat :=
  (fillPasses (wants.length + 1) (wants.map fun w => ⟨w.1, w.2, 0, decide (0 < w.2)⟩) cap).map Share1.give

/-- What crosses each link. -/
def lessUse (cap : List (Nat × Nat)) (flows : List Flow) (use : List Nat) : List (Nat × Nat) :=
  cap.map fun l => (l.1, l.2 - (((flows.zip use).filter fun x => x.1.links.contains l.1).map Prod.snd).sum)

/-- plan() of R123: floors, targets, and the new grants. -/
def allot (cap : List (Nat × Nat)) (flows : List Flow) : List (Nat × Nat × Nat) :=
  let links := flows.map Flow.links
  let d := flows.map fun t => if t.eligible then t.demand else 0
  let f := (d.zip flows).map fun x => min x.1 x.2.floor
  let g1 := waterfill (links.zip f) cap
  let more := waterfill (links.zip ((d.zip g1).map fun x => x.1 - x.2)) (lessUse cap flows g1)
  let target := (flows.zip (g1.zip more)).map fun x => if x.1.frozen then x.1.prev else x.2.1 + x.2.2
  let low := (flows.zip target).map fun x => min x.1.prev x.2
  let room := lessUse cap flows (flows.map Flow.prev)
  let up := waterfill (links.zip ((target.zip low).map fun x => x.1 - x.2)) room
  g1.zip (target.zip ((low.zip up).map fun x => x.1 + x.2))

/-- W that the next plan carries (R104). -/
def Hub.planWindow (c : Hub) : Nat := if c.get H.windowNext = 0 then c.get O.driveWindow else c.get H.windowNext

/-- Isochronous capacity of a rate (R121). -/
def isoCapacity (rate w : Nat) : Nat := rate * (w - 20000) / 8000

/-- The demand D of a route (R118). -/
def Hub.demandOf (c : Hub) (r : Nat) : Nat :=
  let lo := c.get (O.allotMin r)
  let hi := c.get (O.allotMax r)
  if c.get (O.allotMode r) = 1 ∧ c.get (H.routeDemand r 1) = 1 ∧ c.get (H.routeDemand r 2) = 0 then max lo (min hi (c.get (H.routeDemand r 0)))
  else max lo hi

/-- Every hub of a path is a Member and reported time lock (R122). -/
def Hub.pathLocked (c : Hub) (hubs : List Nat) : Bool := hubs.all fun a => a == 0 || (c.memberAt a && (c.reportOf a).locked)

/-- The flows a plan for boundary e covers (R122): routes of C1–C3, active or due, not torn down by then. -/
def Hub.flows (c : Hub) (e : Nat) : List Flow :=
  (c.works.filter fun w =>
    let st := c.get (O.routeState w.route)
    c.routeIso w.route && (st == 2 || ((st == 1 || st == 4) && decide (c.get (O.routeActivate w.route) ≤ e)))
      && !(w.tornDown != 0 && decide (w.tornDown ≤ e))).map fun w =>
    { route := w.route, links := (w.hubs.zip w.ports).map (fun x => 24 * x.1 + x.2), demand := c.demandOf w.route,
      floor := c.get (O.allotMin w.route), prev := c.get (H.pastGrant w.route 0), eligible := c.pathLocked w.hubs,
      frozen := w.hubs.any fun a => (c.reportOf a).frozen }

/-- The ALLOT record of a flow after a plan (R124, R125): FLAGS, DEMAND, TARGET, GRANT and the link that limits it. -/
def Hub.showAllot (c : Hub) (cap : List (Nat × Nat)) (t : Flow) (g1 target grant : Nat) : Hub :=
  let r := t.route
  let d := if t.eligible then t.demand else 0
  let floorShort := decide (g1 < min d t.floor)
  let was := bit (c.get (O.allotFlags r)) 0
  let fl := (if floorShort then 1 else 0) + (if grant < target then 2 else 0) + (if t.eligible then 0 else 4) + (if t.frozen then 8 else 0)
  let tight := t.links.foldl (fun (acc : Option (Nat × Nat)) l => match acc with
    | none => some (l, capOf cap l) | some a => if capOf cap l < a.2 then some (l, capOf cap l) else some a) none
  let c := ((c.put (O.allotDemand r) t.demand).put (O.allotTarget r) target).put (O.allotGrant r) grant
  let c := c.put (O.allotFlags r) fl
  let c := match (if grant < d then tight else none) with
    | some l => (c.put (O.allotBottleneckHub r) (l.1 / 24)).put (O.allotBottleneckPort r) (l.1 % 24)
    | none => (c.put (O.allotBottleneckHub r) 0).put (O.allotBottleneckPort r) 0
  c.when (floorShort && !was) fun c => c.raise 16 255 r

/-- The ALLOT records that show anything of a plan. -/
def Hub.allotShown (c : Hub) : List Nat :=
  ([O.allotDemand 0, O.allotTarget 0, O.allotGrant 0, O.allotFlags 0, O.allotBottleneckHub 0, O.allotBottleneckPort 0].flatMap c.instances).eraseDups

/-- The ALLOT record of a route that no plan covers: no demand, target or grant, no flag, no link that limits it (R124, R125). -/
def Hub.hideAllot (c : Hub) (r : Nat) : Hub :=
  [O.allotDemand r, O.allotTarget r, O.allotGrant r, O.allotFlags r, O.allotBottleneckHub r, O.allotBottleneckPort r].foldl Hub.restore c

/-- Records cut into PLAN packets of 125 at most (R127). -/
def planParts (n : Nat) (rs : List (BitVec 16 × BitVec 32)) : List (List (BitVec 16 × BitVec 32)) :=
  (List.range n).map fun i => (rs.drop (125 * i)).take 125

/-- The PLAN packets of one hub for a boundary (R127): FULL where the hub needs one, and naming a returning hub's other tunnels (R24), those of
routes that resume with it and of routes taken up for that boundary or before among them (R74). A route that has ended is listed with grant 0 as one whose grant falls. -/
def Hub.sendPlan (c : Hub) (e a : Nat) (old : List (Nat × Nat × Nat)) (hold : Bool) : Hub :=
  let rep := c.reportOf a
  let recs := c.works.flatMap fun w =>
    let g := (old.find? fun x => x.1 == w.route).map fun x => x.2
    let now := c.get (H.pastGrant w.route 0)
    let p1 := (g.map Prod.fst).getD now
    let p2 := (g.map Prod.snd).getD now
    let st := c.get (O.routeState w.route)
    let kept := st == 2 || ((st == 1 || st == 4) && decide (c.get (O.routeActivate w.route) ≤ e)) || (c.mayResume w && c.pathUnchanged w)
    let listed := if rep.needFull then now != 0 || (rep.returned && kept) else now != p1 || p1 != p2
    match w.hubs.idxOf? a with
    | some i => if listed then [(BitVec.ofNat 16 (c.get (O.routeTid w.route i)), BitVec.ofNat 32 now)] else []
    | none => []
  let ended := if rep.needFull then [] else (c.retired.filter fun u => u.hub == a && u.owe != 0).map fun u => (BitVec.ofNat 16 u.tid, 0)
  let recs := recs ++ ended.filter fun x => !recs.any fun y => y.1 == x.1
  let parts := max 1 (ceilDiv recs.length 125)
  let fl : BitVec 8 := BitVec.ofNat 8 ((if rep.needFull then 1 else 0) + if hold then 2 else 0)
  let pk : Nat → List (BitVec 16 × BitVec 32) → PlanPacket := fun i rs =>
    { effective := BitVec.ofNat 64 e, flags := fl, part := BitVec.ofNat 8 i, parts := BitVec.ofNat 8 parts,
      window := BitVec.ofNat 32 c.planWindow, records := rs }
  let c := c.setReport { rep with needFull := false, returned := false }
  c.each ((List.range parts).zip (planParts parts recs)) fun c x =>
    if a = 0 then { c with plan := c.plan ++ [pk x.1 x.2] } else c.emit (.mgmtTo none a (.plan (pk x.1 x.2)))

/-- A plan computed in stroke k for boundary k + 2 and sent to every Member (R122–R127). -/
def Hub.computePlan (c : Hub) : Hub :=
  let e := c.stroke + 2
  let flows := c.flows e
  let links := (flows.flatMap Flow.links).eraseDups
  let cap := links.map fun l => (l, isoCapacity (c.get (O.linkIsoRate l)) c.planWindow - c.get (O.linkIsoFixed l))
  let res := allot cap flows
  let left := lessUse cap flows (res.map fun x => x.2.2)
  let old := c.works.map fun w => (w.route, c.get (H.pastGrant w.route 0), c.get (H.pastGrant w.route 1))
  let c := c.each (flows.zip res) fun c x => c.showAllot left x.1 x.2.1 x.2.2.1 x.2.2.2
  let grantOf : Nat → Nat := fun r => (((flows.zip res).find? fun x => x.1.route == r).map fun x => x.2.2.2).getD 0
  let c := c.each c.works fun c w =>
    let p := c.get (H.pastGrant w.route 0)
    ((c.put (H.pastGrant w.route 2) (c.get (H.pastGrant w.route 1))).put (H.pastGrant w.route 1) p).put (H.pastGrant w.route 0) (grantOf w.route)
  let covered := flows.map Flow.route
  let c := c.each ((c.allotShown).filter fun r => !covered.contains r) fun c r => c.hideAllot r
  let use := c.works.map fun w => ((w.hubs.zip w.ports).map fun x => 24 * x.1 + x.2, max (c.get (H.pastGrant w.route 0)) (c.get (H.pastGrant w.route 1)))
  let c := c.each (c.instances (O.linkIsoAllotted 0) ++ use.flatMap Prod.fst).eraseDups fun c l =>
    c.put (O.linkIsoAllotted l) ((use.filter fun x => x.1.contains l).map Prod.snd).sum
  let shown := flows.map fun t => c.get (O.allotFlags t.route)
  let c := (c.put O.floorShort (shown.filter fun v => bit v 0).length).put O.increasePending (shown.filter fun v => bit v 1).length
  let hold := c.flag H.holdMark
  let c := c.each (0 :: c.known.filter c.memberAt) fun c a => c.sendPlan e a old hold
  { c with retired := c.retired.map fun u => { u with owe := u.owe - 1 } }

end Sys2Proof.Machine
end

