-- ==== Sys2Proof/Machine/Cox.lean ====
section
/-! DEFINITION. The Cox's commands (R17–R22, R72–R74, R118–R127, R454, R456): reports, probes, holds, routes and plans. -/
namespace Sys2Proof.Machine

/-! ## Reports (R20–R22, R120, R126) -/

/-- A received topology event in the ring of A005h. -/
def Hub.logEvent (c : Hub) (e : TopoEvent) : Hub :=
  let i := c.get H.treeLogNext
  let c := ((c.put (O.treeLogSeq i) e.seq.toNat).put (O.treeLogReporter i) e.reporter.toNat).put (O.treeLogPort i) e.port.toNat
  let c := ((c.put (O.treeLogKind i) e.kind.toNat).put (O.treeLogReason i) e.reason.toNat).put (O.treeLogUid i) e.uid.toNat
  (c.put (O.treeLogStroke i) e.stroke.toNat).put H.treeLogNext ((i + 1) % 1024)

/-- A PROBE sent to a hub (R22). -/
def Hub.sendProbe (c : Hub) (a : Nat) : Hub := (c.put (H.probes a) (c.get (H.probes a) + 1)).emit (.mgmtTo none a .probe)

/-- One topology event at the Cox (R21, R22, R418): a DETACH detaches what stands behind the port; an overflow DETACH has every hub below
the reporter probed; a SLEEP acts as a DETACH of the child, whose address is held for as long as its parent reports it asleep. -/
def Hub.applyEvent (c : Hub) (e : TopoEvent) : Hub :=
  let c := c.logEvent e
  let rep := e.reporter.toNat
  if e.kind = 2 then
    if e.port = 0xFF then c.each (c.below rep) fun c a => (c.put (H.probes a) 0).sendProbe a
    else c.detachHubs (c.behind rep e.port.toNat)
  else if e.kind = 4 then
    let child := c.standing.filter fun a => c.get (O.hubTableParent a) == rep && c.get (O.hubTableParentPort a) == e.port.toNat
    ((c.detachHubs child).each (child.filter fun a => c.get (O.hubTableUid a) != 0) fun c a => c.put (O.hubTableState a) 4).countHubs
  else c

/-- The flags, port section and demands of a REPORT (R118, R120, R129, R131). -/
def Hub.applyDemands (c : Hub) (r : Report) : Hub :=
  let a := r.hub.toNat
  let fl := r.flags.toNat
  let old := c.reportOf a
  let frozen := if bit fl 4 then false else bit fl 3 || old.frozen
  let c := c.setReport { old with locked := bit fl 0, needFull := old.needFull || bit fl 2, frozen := frozen }
  let c := c.when (bit fl 5) fun c => c.each ((List.range 24).zip r.ports) fun c x =>
    let l := 24 * a + x.1
    let rate := x.2.1.toNat
    ((c.put (O.linkIsoRate l) rate).put (O.linkIsoFixed l) x.2.2.toNat).put (O.linkIsoCapacity l) (isoCapacity rate (c.get O.driveWindow))
  c.each r.demands fun c d =>
    match c.works.find? fun w => w.hubs.head? == some a && c.get (O.routeTid w.route 0) == d.tid.toNat with
    | none => c
    | some w =>
      ((c.put (H.routeDemand w.route 0) d.demand.toNat).put (H.routeDemand w.route 1) 1).put (H.routeDemand w.route 2) (bits d.flags.toNat 1 1)

/-- A late report is counted and reported once, however many packets it comes in (R120, R126). -/
def Hub.countLate (c : Hub) (r : Report) : Hub :=
  let mark := r.stroke.toNat + 1
  if c.get (H.lateCounted r.hub.toNat) = mark then c
  else ((c.put (H.lateCounted r.hub.toNat) mark).count O.reportsLate).raise 17 255 r.hub.toNat

/-- A REPORT at the Cox (R20, R120, R126): its events and JOINs apply in order at once; the rest of a late one counts from the next
plan. -/
def Hub.takeReport (c : Hub) (r : Report) : Hub :=
  if !c.isCox || !c.memberAt r.hub.toNat then c
  else
    let c := c.each r.events fun c e => c.applyEvent e
    let c := c.each r.joins fun c j => c.answerJoin j
    if r.late then ({ c with lateReports := c.lateReports ++ [r] } : Hub).countLate r else c.applyDemands r

/-- REPORT_RECEIVE. A handover of the Cox holds reports (R28). -/
def execReportReceive (rep : Report) (s : State) : Host.Outcome State Fault Refusal :=
  onDomains s fun c => if c.isCox && c.handingOver then { c with reportsHeld := c.reportsHeld ++ [rep] } else (c.takeReport rep).refreshVdps

/-- The reports that a handover held, processed in order (R28). -/
def Hub.runReports (c : Hub) : Hub :=
  let rs := c.reportsHeld
  (({ c with reportsHeld := [] }).each rs fun c r => c.takeReport r).refreshVdps

/-! ## Probes and holds (R17, R22) -/

/-- PROBE_ACK (R22): a hub that answers with the HUB_UID on record keeps its address, and its state is updated. -/
def execProbeAck (addr : BitVec 8) (uid : BitVec 64) (treeState : BitVec 8) (s : State) : Host.Outcome State Fault Refusal :=
  onDomains s fun c =>
    let a := addr.toNat
    if c.isCox = true ∧ 1 ≤ a ∧ c.get (O.hubTableUid a) = uid.toNat then
      ((c.put (H.probes a) 0).put (O.hubTableState a) treeState.toNat).countHubs
    else c

/-- PROBE_RETRY (R22): an unanswered PROBE is sent again, twice in all. -/
def execProbeRetry (addr : BitVec 8) (s : State) : Host.Outcome State Fault Refusal :=
  onDomains s fun c =>
    let n := c.get (H.probes addr.toNat)
    if c.isCox = true ∧ (n = 1 ∨ n = 2) then c.sendProbe addr.toNat else c

/-- PROBE_TIMEOUT (R22): a hub that has not answered is treated as detached, and the virtual downstream ports follow (R256). -/
def execProbeTimeout (addr : BitVec 8) (s : State) : Host.Outcome State Fault Refusal :=
  onDomains s fun c => if c.isCox = true ∧ c.get (H.probes addr.toNat) ≠ 0 then (c.detachHubs [addr.toNat]).refreshVdps else c

/-- ADDRESS_HOLD_EXPIRY (R17, R74). -/
def execAddressHoldExpiry (addr : BitVec 8) (s : State) : Host.Outcome State Fault Refusal :=
  onDomains s fun c =>
    let a := addr.toNat
    if c.isCox = true ∧ 1 ≤ a ∧ c.get (O.hubTableState a) = 3 then (c.endHold a).refreshVdps else c

/-! ## Routes (R72, R119, R454, R456) -/

/-- The request fields of a record equal those written. -/
def Hub.sameRequest (c : Hub) (r : Nat) (q : RouteRequest) : Bool :=
  c.get (O.routeType r) == q.type.toNat && c.get (O.routeCls r) == q.cls.toNat && c.get (O.routeSrcHub r) == q.srcHub.toNat
    && c.get (O.routeSrcEnd r) == q.srcEnd.toNat && c.get (O.routeDstHub r) == q.dstHub.toNat && c.get (O.routeDstEnd r) == q.dstEnd.toNat
    && c.get (O.routeRate r) == q.rate.toNat && c.get (O.routePair r) == q.pair.toNat && c.get (O.routeVid r) == q.vid.toNat

/-- The request fields written. -/
def Hub.putRequest (c : Hub) (r : Nat) (q : RouteRequest) : Hub :=
  let c := ((c.put (O.routeType r) q.type.toNat).put (O.routeCls r) q.cls.toNat).put (O.routeSrcHub r) q.srcHub.toNat
  let c := ((c.put (O.routeSrcEnd r) q.srcEnd.toNat).put (O.routeDstHub r) q.dstHub.toNat).put (O.routeDstEnd r) q.dstEnd.toNat
  ((c.put (O.routeRate r) q.rate.toNat).put (O.routePair r) q.pair.toNat).put (O.routeVid r) q.vid.toNat

/-- A request written (R73, R119): STATE 01h, and for C1–C3 the ALLOT record at the requested rate, in fixed mode. What MIN and
MAX hold of a rate whose bytes outgrow them is free (notes/assumptions/5.md). -/
def Hub.requestRoute (c : Hub) (r : Nat) (q : RouteRequest) : Hub :=
  let c := ((c.putRequest r q).put (O.routeState r) 1).put (O.routeReason r) 0
  let b := q.rate.toNat * 125 / 8
  let (b, c) := if b < 2 ^ 32 then (b, c) else (c.draw.1 % 2 ^ 32, c.draw.2)
  c.when (c.routeIso r) fun c => ((c.put (O.allotMin r) b).put (O.allotMax r) b).put (O.allotMode r) 0

/-- A teardown requested, of the route and of the other of its pair (R455). The route service stages it at the next boundary, for after the
activation (R73, R454). -/
def Hub.requestTeardown (c : Hub) (r : Nat) : Hub :=
  let one : Hub → Nat → Hub := fun c r => if c.get (O.routeState r) = 1 ∨ c.get (O.routeState r) = 2 then c.put (O.routeState r) 4 else c
  match c.pairOf r with
  | some q => if (c.workOf q).isSome then one (one c r) q else one c r
  | none => one c r

/-- A suspended route released: its held IDs are free at once (R454). -/
def Hub.releaseRoute (c : Hub) (r : Nat) : Hub := ((c.freeRoute r).put (O.routeState r) 0).put (O.routeReason r) 0

/-- A TYPE that R72 lists, or 0 in a record written with STATE 00h, as R6 has a free record read (DESIGN CHOICE, notes/assumptions/76.md). -/
def routeTypeListed (q : RouteRequest) : Bool := decide (1 ≤ q.type.toNat ∧ q.type.toNat ≤ 4) || (q.type == 0 && q.state == 0)

/-- Both ends are endpoint codes (R38, R72). -/
def routeEndsListed (q : RouteRequest) : Bool := (endpointOf q.srcEnd.toNat).isSome && (endpointOf q.dstEnd.toNat).isSome

/-- A ROUTES record written, by the table of R454. An unlisted TYPE or endpoint code is refused (R7). A refused record that is freed keeps its request fields (DESIGN
CHOICE, notes/assumptions/86.md: the table says only that the record is freed). -/
def Hub.writeRoute (c : Hub) (r : Nat) (q : RouteRequest) : Status × Hub :=
  if !c.isCox then (.range, c)
  else if !((routeTypeListed q && routeEndsListed q) || (q.state.toNat == c.get (O.routeState r) && c.sameRequest r q)) then (.invalidValue, c)
  else
    let st := c.get (O.routeState r)
    let up := (c.workOf r).isSome
    if q.state.toNat = st ∧ c.sameRequest r q = true then (.ok, c)
    else match st, q.state.toNat with
      | 0, 0 => (.ok, c.putRequest r q)
      | 0, 1 => (.ok, c.requestRoute r q)
      | 3, 0 => (.ok, (c.put (O.routeState r) 0).put (O.routeReason r) 0)
      | 3, 1 => (.ok, c.requestRoute r q)
      | 1, 1 => if up then (.busy, c) else (.ok, c.requestRoute r q)
      | 1, 4 => if up then (.ok, c.requestTeardown r) else (.ok, c.put (O.routeState r) 0)
      | 2, 4 => (.ok, c.requestTeardown r)
      | 5, 4 => match c.pairOf r with
        | some p => (.ok, (c.releaseRoute r).when (c.get (O.routeState p) == 5) fun c => c.releaseRoute p)
        | none => (.ok, c.releaseRoute r)
      | _, 0 => (.busy, c)
      | _, 1 => (.busy, c)
      | _, 4 => (.busy, c)
      | _, _ => (.invalidValue, c)

/-- A ROUTES record written, and what a virtual downstream port shows of the change (R256, R454). -/
def Hub.writeRouteShown (c : Hub) (r : Nat) (q : RouteRequest) : Status × Hub :=
  let (st, c) := c.writeRoute r q
  (st, c.refreshVdps)

/-- ROUTE_WRITE: Engineer and Owner, in the Cox. -/
def execRouteWrite (lvl : Level) (route : Fin 4096) (req : RouteRequest) (s : State) : Host.Outcome State Fault Refusal :=
  onWrite (.routeWrite lvl route req) s fun c => c.request lvl engineerWrites fun c => c.writeRouteShown route req

/-- STAGE_FAIL (R456): the route is refused, torn down at every other hub of its path, and its IDs are freed once that applies. -/
def execStageFail (hub : BitVec 8) (tid : BitVec 16) (status : BitVec 8) (activate : BitVec 64) (s : State) :
    Host.Outcome State Fault Refusal :=
  onDomains s fun c => if c.isCox then (c.stageFailAt hub.toNat tid.toNat status.toNat activate.toNat).refreshVdps else c

/-- ALLOT written (R119): MIN not above MAX. -/
def Hub.writeAllot (c : Hub) (r lo hi mode : Nat) : Status × Hub :=
  if !c.isCox then (.range, c)
  else if hi < lo ∨ 1 < mode then (.invalidValue, c)
  else (.ok, ((c.put (O.allotMin r) lo).put (O.allotMax r) hi).put (O.allotMode r) mode)

/-- ALLOT_WRITE: Engineer and Owner, in the Cox. -/
def execAllotWrite (lvl : Level) (route : Fin 4096) (min max : BitVec 32) (mode : BitVec 8) (s : State) :
    Host.Outcome State Fault Refusal :=
  onWrite (.allotWrite lvl route min max mode) s fun c => c.request lvl engineerWrites fun c => c.writeAllot route min.toNat max.toNat mode.toNat

/-! ## Plans (R123, R126, R130, R132) -/

/-- PLAN_COMPUTE (R123, R126): the Cox computes the plan of this stroke, once a boundary has passed since its start (R132) and outside its
own handover (R130). A computation longer than its limit is reported. -/
def execPlanCompute (elapsed : Nat) (s : State) : Host.Outcome State Fault Refusal :=
  onDomains s fun c =>
    let busy := c.get H.holdMark == 2 || c.handingOver
    if c.isCox = true ∧ c.flag O.forwarding = true ∧ 1 ≤ c.get H.coxBoundaries ∧ busy = false then
      let c := c.computePlan
      let c := c.when (c.get H.holdMark == 1) fun c => c.put H.holdMark 2
      (c.peak O.planComputeMax elapsed).when (decide (c.get O.planComputeLimit < elapsed)) fun c => c.raise 15
    else c

end Sys2Proof.Machine
end

