-- ==== Sys2Proof/Machine/Ether.lean ====
section
/-! DEFINITION. The Ethernet MACs and their adapters' commands (R48, R49, R51, R264, R265). -/
namespace Sys2Proof.Machine

/-- The tag of a frame, where TPID 8100h stands directly after the source address: its PCP and VID (R264). -/
def vlanTag (b : Bytes) : Option (Nat × Nat) :=
  if b.getD 12 0 = 0x81 ∧ b.getD 13 0 = 0x00 then
    let tci := (b.getD 14 0).toNat * 256 + (b.getD 15 0).toNat
    some (tci / 8192, tci % 4096)
  else none

/-- The tunnel of a frame at a MAC (R48, R264): by the VID of its tag, 0 among them, or the PVID and PCP 0 where it has none. -/
def Hub.frameTunnel (c : Hub) (m : Nat) (b : Bytes) : Nat :=
  let tag := (vlanTag b).getD (0, c.get (O.pvid m))
  let vid := tag.2
  if bit (c.get (O.prioPcp m)) tag.1 then c.get (O.vidMapPrio m vid) else c.get (O.vidMapBulk m vid)

/-- The packets of a frame enter its tunnel (R49): `i` is the index of the next one, `rest` what it still carries. -/
def Hub.sendFrame (m t total : Nat) : Nat → Nat → Bytes → Hub → Hub
  | 0, _, _, c => c
  | n + 1, i, rest, c =>
    let part := rest.take 1024
    let last := decide (rest.length ≤ 1024)
    let flags := (if i = 0 then 1 else 0) + (if last then 2 else 0)
    let (p, c) := c.makePacket t (c.get (O.pathCls t)) 3 flags (if i = 0 then total else i) part
    let c := c.receive (25 + m) p
    if last then c else Hub.sendFrame m t total n (i + 1) (rest.drop 1024) c

/-- MAC_FRAME_RECEIVE (R48, R265): short and long frames end at the MAC, frames with a wrong FCS or no tunnel at the adapter; the rest enter
their tunnel. -/
def execMacFrameReceive (mac : Mac) (frame : EthFrame) (s : State) : Host.Outcome State Fault Refusal :=
  onDomains s fun c =>
    let c := c.awake
    let m := mac.val
    let n := frame.bytes.length
    if n < 64 then c.count (O.runts m)
    else if 9216 < n then c.count (O.oversize m)
    else
      let c := (c.count (O.framesRx m)).count (O.bytesRx m) n
      if frame.fcsOk = false then c.count (O.fcsErrors m)
      else
        let t := c.frameTunnel m frame.bytes
        if t = 0xFFFF then c.count (O.noTunnel m) else Hub.sendFrame m t n 9 0 frame.bytes c

/-- PAUSE_FRAME (R264, R265): counted; with PAUSE_RX true it stops the release of frames for its time, and one of no time ends the stop. -/
def execPauseFrame (mac : Mac) (quanta : BitVec 16) (s : State) : Host.Outcome State Fault Refusal :=
  onDomains s fun c =>
    let c := c.count (O.pausesRx mac)
    c.when (c.flag (O.pauseRx mac)) fun c => c.putB (H.paused mac) (quanta != 0)

/-- PAUSE_EXPIRY (R265): the release of frames goes on. -/
def execPauseExpiry (mac : Mac) (s : State) : Host.Outcome State Fault Refusal := onDomains s fun c => c.putB (H.paused mac) false

/-- ETH_FRAME_EGRESS (R51, R265): a whole frame of the tunnel goes to the MAC, unless a PAUSE stops it; while the MAC's link is down it is
discarded and counted. -/
def execEthFrameEgress (mac : Mac) (tid : Fin 16384) (s : State) : Host.Outcome State Fault Refusal :=
  onDomains s fun c =>
    let m := mac.val
    match c.frameOut.find? fun f => f.mac == m && f.tid == tid.val with
    | none => c
    | some f =>
      let gone := { c with frameOut := c.frameOut.erase f }
      if c.get (O.macLink m) = 0 then gone.count (O.macLinkDownDiscards m)
      else if c.flag (H.paused m) then c
      else ((gone.count (O.framesTx m)).count (O.bytesTx m) f.bytes.length).emit (.frame m f.bytes)

/-- MAC_LINK_DOWN (R265): MAC_LINK reads 00h, reported as its source; a PAUSE ends with the link. -/
def execMacLinkDown (mac : Mac) (s : State) : Host.Outcome State Fault Refusal :=
  onDomains s fun c =>
    ((((c.put (O.macLink mac) 0).put (O.usxRate mac) 0).putB (H.paused mac) false).raise 67 mac).recompute

/-- MAC_LINK_UP (R79, R417): MAC_LINK reads 01h, USX_RATE the rate of a USXGMII partner, and the allowances change. -/
def execMacLinkUp (mac : Mac) (rate : BitVec 8) (s : State) : Host.Outcome State Fault Refusal :=
  onDomains s fun c =>
    ((c.put (O.macLink mac) 1).put (O.usxRate mac) (if c.get (O.macMode mac) = 3 then rate.toNat else 0)).recompute

/-- Isolation of an Ethernet adapter (R101, R370): its tunnels are torn down and its frames dropped. -/
def Hub.isolateMac (c : Hub) (m : Nat) : Hub :=
  let c := ((c.teardownUsing (25 + m)).emptyQueues (25 + m)).putB (H.paused m) false
  { c with reassembly := c.reassembly.filter (·.mac != m), frameOut := c.frameOut.filter (·.mac != m) }

end Sys2Proof.Machine
end

