-- ==== Sys2Proof/Machine/Fio.lean ====
section
/-! DEFINITION. The field I/O adapter's commands (R52–R55): cyclic slices of the process image and acyclic messages. -/
namespace Sys2Proof.Machine

/-- The receive record that names a tunnel: of several, the lowest (DESIGN CHOICE, notes/assumptions/93.md). -/
def Hub.fioRxOf (c : Hub) (t : Nat) : Option Nat := (List.range 64).find? fun r => c.get (O.fioRxTid r) == t

/-- FIO_CYCLIC_RECEIVE (R53): the payload replaces the slice in one step and STATUS is fresh; one of another length is discarded and counted in
the entry's TYPE_DISCARDS. -/
def execFioCyclicReceive (tid : Fin 16384) (payload : Bytes) (s : State) : Host.Outcome State Fault Refusal :=
  onDomainsAll s fun c m =>
    match c.fioRxOf tid with
    | none => (c, m)
    | some r =>
      if payload.length ≠ c.get (O.fioRxSize r) then (c.count (O.pathCountTypeDiscards tid), m)
      else ((c.put (O.fioRxStatus r) 1).count (O.fioRxReceived r), m.writeImage (c.get (O.fioRxOffset r)) payload)

/-- FIO_STALE (R53): no cyclic packet for STALE_LIMIT × PERIOD strokes, counted from the record's write at the earliest. -/
def execFioStale (rec : Fin 64) (s : State) : Host.Outcome State Fault Refusal :=
  onDomainsAll s fun c m =>
    let r := rec.val
    if c.get (O.fioRxTid r) = 0xFFFF ∨ c.get (O.fioRxStatus r) = 2 then (c, m)
    else
      let zeros : Bytes := List.replicate (c.get (O.fioRxSize r)) 0
      ((c.put (O.fioRxStatus r) 2).raise 27 255 r, if c.get (O.fioRxStaleAction r) = 1 then m.writeImage (c.get (O.fioRxOffset r)) zeros else m)

/-- Two slices share a byte. -/
def overlaps (a n b k : Nat) : Bool := decide (a < b + k ∧ b < a + n)

/-- What R10 and R54 ask of a record: the ranges of the object table, a slice inside the image, and, of a record that names a tunnel, no overlap that
R54 forbids. A record of no tunnel has no slice that others could overlap. -/
def Hub.fioAccepts (c : Hub) (rx : Bool) (r : Nat) (v : FioRecord) : Bool :=
  let a := v.offset.toNat
  let n := v.size.toNat
  let clear : Bool :=
    ((List.range 64).all fun k => c.get (O.fioRxTid k) == 0xFFFF || (rx && k == r) || !overlaps a n (c.get (O.fioRxOffset k)) (c.get (O.fioRxSize k)))
    && (!rx || (List.range 64).all fun k => c.get (O.fioTxTid k) == 0xFFFF || !overlaps a n (c.get (O.fioTxOffset k)) (c.get (O.fioTxSize k)))
  decide (1 ≤ n ∧ n ≤ 1024 ∧ 1 ≤ v.period.toNat ∧ v.period.toNat ≤ 256 ∧ a + n ≤ 65536)
    && (!rx || decide (1 ≤ v.staleLimit.toNat ∧ v.staleAction.toNat ≤ 1)) && (v.tid == 0xFFFF || clear)

/-- An FIO_TX record written (R54): its count stays while tunnel and slice stay. -/
def Hub.writeFioTx (c : Hub) (r : Nat) (v : FioRecord) : Status × Hub :=
  if c.fioAccepts false r v = false then (.invalidValue, c)
  else
    let same := c.get (O.fioTxTid r) == v.tid.toNat && c.get (O.fioTxOffset r) == v.offset.toNat && c.get (O.fioTxSize r) == v.size.toNat
    let c := ((((c.put (O.fioTxTid r) v.tid.toNat).put (O.fioTxOffset r) v.offset.toNat).put (O.fioTxSize r) v.size.toNat).put
      (O.fioTxPeriod r) v.period.toNat).put (O.fioTxPhase r) v.phase.toNat
    (.ok, c.when (!same) fun c => c.put (O.fioTxSent r) 0)

/-- An FIO_RX record written (R54): its count and STATUS stay while tunnel and slice stay. -/
def Hub.writeFioRx (c : Hub) (r : Nat) (v : FioRecord) : Status × Hub :=
  if c.fioAccepts true r v = false then (.invalidValue, c)
  else
    let same := c.get (O.fioRxTid r) == v.tid.toNat && c.get (O.fioRxOffset r) == v.offset.toNat && c.get (O.fioRxSize r) == v.size.toNat
    let c := (((((c.put (O.fioRxTid r) v.tid.toNat).put (O.fioRxOffset r) v.offset.toNat).put (O.fioRxSize r) v.size.toNat).put
      (O.fioRxPeriod r) v.period.toNat).put (O.fioRxStaleLimit r) v.staleLimit.toNat).put (O.fioRxStaleAction r) v.staleAction.toNat
    (.ok, c.when (!same) fun c => (c.put (O.fioRxReceived r) 0).put (O.fioRxStatus r) 0)

/-- FIO_RECORD_WRITE: Engineer and Owner. -/
def execFioRecordWrite (lvl : Level) (rx : Bool) (rec : Fin 64) (val : FioRecord) (s : State) : Host.Outcome State Fault Refusal :=
  onWrite (.fioRecordWrite lvl rx rec val) s fun c => c.request lvl engineerWrites fun c => if rx then c.writeFioRx rec val else c.writeFioTx rec val

/-- An ACYC_TX slot written (R55): STATE 01h submits it. INFO[15:12] is one of the three kinds, or 0 in a slot written free. -/
def Hub.writeAcyc (c : Hub) (k : Nat) (v : AcycMsg) : Status × Hub :=
  let kind := bits v.info.toNat 12 4
  if 1024 < v.length.toNat ∨ 1 < v.state.toNat ∨ 1024 < v.data.length ∨ 3 < kind ∨ (kind = 0 ∧ v.state.toNat = 1) then (.invalidValue, c)
  else (.ok, ((((c.put (O.acycTxTid k) v.tid.toNat).put (O.acycTxInfo k) v.info.toNat).put (O.acycTxLength k) v.length.toNat).put
    (O.acycTxState k) v.state.toNat).put (O.acycTxData k) (leNat v.data))

/-- ACYC_SUBMIT: Operator, Engineer and Owner. -/
def execAcycSubmit (lvl : Level) (slot : Fin 8) (msg : AcycMsg) (s : State) : Host.Outcome State Fault Refusal :=
  onWrite (.acycSubmit lvl slot msg) s fun c => c.request lvl operatorWrites fun c => c.writeAcyc slot msg

/-- ACYC_SEND (R55): a submitted message enters its tunnel with MARK 0, and its slot is free. Until the tunnel is VALID, and its shaper
lets a packet go for each of its outputs, it waits. -/
def execAcycSend (slot : Fin 8) (s : State) : Host.Outcome State Fault Refusal :=
  onDomains s fun c =>
    let k := slot.val
    let t := c.get (O.acycTxTid k)
    if c.get (O.acycTxState k) = 1 ∧ t < 16384 ∧ c.valid t = true ∧ c.get (O.pathIn t) = 0x28
        ∧ ((c.outputs t).all fun o => c.shaped (c.get (O.pathShaper t)) o.1) = true then
      let data := leBytes (c.get (O.acycTxData k)) (c.get (O.acycTxLength k))
      let (p, c) := c.makePacket t (c.get (O.pathCls t)) 4 0 (c.get (O.acycTxInfo k)) data
      (c.put (O.acycTxState k) 0).receive 31 p
    else c

/-- ACYC_RECEIVE (R55): into a free ACYC_RX slot, the lowest (DESIGN CHOICE, notes/assumptions/93.md), or dropped and counted. -/
def execAcycReceive (tid : Fin 16384) (info : BitVec 16) (payload : Bytes) (s : State) : Host.Outcome State Fault Refusal :=
  onDomains s fun c =>
    match (List.range 32).find? fun k => c.get (O.acycRxState k) == 0 with
    | none => c.count O.acycRxDrops
    | some k => ((((c.put (O.acycRxTid k) tid).put (O.acycRxInfo k) info.toNat).put (O.acycRxLength k) payload.length).put
        (O.acycRxState k) 1).put (O.acycRxData k) (leNat payload)

/-- Isolation of the field I/O adapter (R101, R370): its tunnels are torn down. -/
def Hub.isolateFio (c : Hub) : Hub := (c.teardownUsing 31).emptyQueues 31

end Sys2Proof.Machine
end

