-- ==== Sys2Proof/Machine/Egress.lean ====
section
/-! DEFINITION. The egresses (R97, R105–R107, R113, R133, R134, R136): the choice of the next packet at a link port and at an adapter, its
dequeue and rewrite, and the Ethernet adapters' reassembly (R51). -/
namespace Sys2Proof.Machine

/-! ## Heads of queues -/

/-- The first packet of a queue's head; none while the head is empty (R92). -/
def Hub.headPacket (c : Hub) (q : Nat) : Option Held := c.held.find? fun p => p.q == q && p.seg == .head

/-- At sag stage 5 a packet is forwarded only in C0, in a field I/O tunnel, or on the time channel (R422); the stage acts after a
handover that runs (R429). -/
def Hub.sagDiscards (c : Hub) (p : Held) : Bool :=
  c.get O.sagStage == 5 && c.get H.flushing != 2 && !(p.q % 8 == 0 || p.tid == 1 || p.pkt.type.toNat == 4)

/-- Packets of torn-down tunnels at the head of a queue are discarded at dequeue (R69, R100), and so is what sag stage 5 no longer
forwards (R422). -/
def Hub.dropDrained : Nat → Nat → Hub → Hub
  | 0, _, c => c
  | n + 1, q, c => match c.headPacket q with
    | some p =>
      if p.tid ≠ 0 ∧ c.drain p.tid = true then Hub.dropDrained n q (c.teardownDiscard p)
      else if c.sagDiscards p then Hub.dropDrained n q (c.emptied p) else c
    | none => c

/-- A shaper charged for a packet (R113). TOKENS shows the lowest bucket. -/
def Hub.charge (c : Hub) (s e size : Nat) : Hub :=
  if s = 0xFFFF then c
  else
    let n := c.getI (H.bucket s e)
    let c := c.putI (H.bucket s e) (n - size)
    if n - size < c.getI (O.shaperTokens s) then c.showI (O.shaperTokens s) (n - size) else c

/-- Credits that packets already chosen for a link will consume with their first byte (R105, R155). -/
def Hub.creditBound (c : Hub) (e k : Nat) : Nat :=
  ((c.staged.filter fun s => s.port == e && s.cls == k && !s.begun).map Staged.cost).sum

/-- Link credit for a packet of a class with these cells, beyond the packets already chosen (R155). Adapters need none. -/
def Hub.creditFor (c : Hub) (e k cost : Nat) : Bool := decide (24 ≤ e) || decide (cost + c.creditBound e k ≤ c.creditAvail e k)

/-- A class is halted by a sag stage (R134). -/
def Hub.classHalted (c : Hub) (k : Nat) : Bool := decide (4 ≤ k) && bit (c.get O.halted) (k - 4)

/-! ## Deficit round robin (R133) -/

/-- The head of a recovery queue that may be sent: credit, a fixed shaper with tokens, its class not halted, and at an Ethernet adapter
room for a frame of its tunnel (R51). -/
def Hub.recoveryHead (c : Hub) (e k : Nat) : Option Held :=
  match c.headPacket (queueOf e k) with
  | none => none
  | some p =>
    let room := !((e == 25 || e == 26) && c.frameOut.any fun f => f.mac == e - 25 && f.tid == p.tid)
    if c.creditFor e k p.cells && c.shaped p.shaper e && room && !c.classHalted k then some p else none

/-- A queue holds packets, in whichever segment. -/
def Hub.backlogged (c : Hub) (q : Nat) : Bool := c.held.any fun p => p.q == q

/-- The round robin of an egress moves to its next class (R133). -/
def Hub.drrAdvance (c : Hub) (e : Nat) : Hub :=
  let k := c.get (H.drrClass e)
  (c.put (H.drrClass e) (if k = 7 then 4 else k + 1)).put (H.drrLooked e) 0

/-- drr_next of R133, which has C7 take its turn (DEDUCED, notes/assumptions/85.md, beside R59). Each visit of an eligible queue adds a quantum of 64 B at least, so 80 visits find a packet. -/
def Hub.drrNext (e : Nat) : Nat → Hub → Hub × Option Held
  | 0, c => (c, none)
  | n + 1, c =>
    if !([4, 5, 6, 7].any fun k => c.backlogged (queueOf e k) && (c.recoveryHead e k).isSome) then (c, none)
    else
      let k := c.get (H.drrClass e)
      let q := queueOf e k
      if !c.backlogged q then Hub.drrNext e n ((c.put (O.deficitBytes q) 0).drrAdvance e)
      else match c.recoveryHead e k with
        | none => Hub.drrNext e n (c.drrAdvance e)
        | some p =>
          let c := if c.get (H.drrLooked e) = 0 then
              (c.put (O.deficitBytes q) (c.get (O.deficitBytes q) + c.get (O.quantumBytes q))).put (H.drrLooked e) 1 else c
          if p.pkt.size ≤ c.get (O.deficitBytes q) then
            (c.put (O.deficitBytes q) (c.get (O.deficitBytes q) - p.pkt.size), some p)
          else Hub.drrNext e n (c.drrAdvance e)

/-! ## Isochronous classes (R105, R106) -/

/-- A packet fits if its transmission ends by the end of the drive window, or by the release cutoff where that applies (R103, R106).
Times in units of 1 / rate ns. -/
def Hub.fits (c : Hub) (e : Nat) (p : Held) : Bool :=
  let rate := c.get (O.payloadRate e)
  let limit := if p.cutoff then c.get O.driveWindow - c.get O.releaseMargin else c.get O.driveWindow
  decide (c.nsInStroke * rate + p.pkt.size * 8000 ≤ limit * rate)

/-- The head of an isochronous queue of a link egress that may be sent now (R27, R105, R106). -/
def Hub.driveHead (c : Hub) (e k : Nat) : Option Held :=
  match c.headPacket (queueOf e k) with
  | none => none
  | some p =>
    let held := c.flag H.isoHold && p.tid != 1
    if c.flag (H.driveOpen e) && c.creditFor e k p.cells && c.shaped p.shaper e && !held && c.fits e p then some p else none

/-- A head that the open drive window is too short for is counted once (R106); one first seen after the window has closed is not (DESIGN CHOICE,
notes/assumptions/91.md). -/
def Hub.noteHeldOver (c : Hub) (e k : Nat) : Hub :=
  match c.headPacket (queueOf e k) with
  | none => c
  | some p =>
    if c.flag (H.driveOpen e) && !p.heldOver && !c.fits e p then
      ({ c with held := c.held.map fun h : Held => if h = p then { h with heldOver := true } else h }).count (O.egressStrokeHeldOver e)
    else c

/-! ## Dequeue (R97, R136) -/

/-- The bin of a value under a shift (R137). -/
def histBin (v shift : Nat) : Nat :=
  let x := v / 2 ^ shift
  if x = 0 then 0 else if 16384 ≤ x then 15 else Nat.log2 x + 1

/-- A histogram bin raised, up to FFFFFFFFh (R137). -/
def Hub.binUp (c : Hub) (o : Obj) : Hub := c.put o (min (c.get o + 1) 0xFFFFFFFF)

/-- The delay sample of a packet that passes to its output (R136). -/
def Hub.sampleDelay (c : Hub) (p : Held) : Hub :=
  if p.sampled then
    let d := c.now - p.appended
    (c.binUp (O.delayHistBin p.q (histBin d (c.get (O.histCfgDelayShift p.q))))).peak (O.histCfgDelayMax p.q) (min d 0xFFFFFFFF)
  else c

/-- A chosen packet dequeued for output endpoint e: every corrected word is counted, and an uncorrectable word, or a cell the scrub has marked,
discards it (R97, R99); else it leaves its queue, is charged to the shaper it was parsed under (R62) and sampled, and comes out with the TID and class of this hub's entry (R36). -/
def Hub.dequeue (c : Hub) (e : Nat) (p : Held) (read : CellRead) : Hub × Option Packet :=
  let corrected := read.corrected + if read.err = .correctable then 1 else 0
  let c := c.when (corrected != 0) fun c => (c.count O.dequeueCorrected corrected).raise 1
  match (if read.err = .uncorrectable then some read.cell.val else p.marked) with
  | some cell => (c.discardDamaged p cell false, none)
  | none =>
    let k := p.q % 8
    let c := ((c.remove p).charge p.shaper e p.pkt.size).sampleDelay p
    let c := c.when (decide (1 ≤ k ∧ k ≤ 3)) fun c => c.count (O.egressStrokeIsoBytes e) p.pkt.size
    (c, some (p.pkt.rewrite (if e < 24 then p.outTid else p.tid) k))

/-- A link egress with room for its next choice: the link Active and less than one flit of bytes waiting (R105, R140). -/
def Hub.egressReady (c : Hub) (e : Nat) : Bool :=
  c.get (O.linkState e) == 3 && decide (((c.staged.filter fun s => s.port == e).map fun s => s.rest.length).sum < c.flitRoom e)

/-- The head of the C0 queue of a link egress that credit lets go (R105). -/
def Hub.firstHead (c : Hub) (e : Nat) : Option Held := (c.headPacket (queueOf e 0)).filter fun p => c.creditFor e 0 p.cells

/-- A packet that the egress of a link could choose now (R105, R133, R160). -/
def Hub.eligible (c : Hub) (e : Nat) : Bool :=
  (c.firstHead e).isSome || [1, 2, 3].any (fun k => (c.driveHead e k).isSome) || [4, 5, 6, 7].any fun k => (c.recoveryHead e k).isSome

/-- Whether a side has nothing to send on the port (R160): its replay buffer is empty, and no packet is eligible or on its way to a flit. -/
def Hub.nothingToSend (c : Hub) (p : Nat) : Bool :=
  !(c.replay.any fun f => f.port == p) && !(c.staged.any fun f => f.port == p) && !c.eligible p

/-- EGRESS_SELECT (R105): C0, then C1, C2 and C3 in the drive window, then C4–C7 by deficit round robin. The packet's bytes go to the
link. -/
def execEgressSelect (port : Port) (read : CellRead) (s : State) : Host.Outcome State Fault Refusal :=
  onDomains s fun c =>
    let e := port.val
    let c := c.each (List.range 8) fun c k => Hub.dropDrained c.held.length (queueOf e k) c
    if !c.egressReady e then c.settle
    else
      let c := c.each [1, 2, 3] fun c k => c.noteHeldOver e k
      let timed := [1, 2, 3].findSome? fun k => c.driveHead e k
      let pick := match c.firstHead e with
        | some p => (c, some p)
        | none => match timed with
          | some p => (c, some p)
          | none => Hub.drrNext e 80 c
      match pick with
      | (c, none) => c.settle
      | (c, some p) =>
        match c.dequeue e p read with
        | (c, none) => c.settle
        | (c, some out) =>
          let k := p.q % 8
          let ns := p.pkt.size * 8000 / max 1 (c.get (O.payloadRate e))
          let c := c.when (decide (k ≤ 3) && c.flag (H.driveOpen e)) fun c => c.put (H.driveBusy e) (c.get (H.driveBusy e) + ns)
          let st : Staged := { port := e, cls := k, cost := p.cells, rest := out.toBytes, begun := false, tid := p.tid }
          ({ c with staged := c.staged ++ [st] }).settle

/-! ## Adapter egresses (R45, R51, R107) -/

/-- What is in reassembly for a tunnel at a MAC replaced. -/
def Hub.setReassembly (c : Hub) (m t : Nat) (r : Option Reassembly) : Hub :=
  { c with reassembly := c.reassembly.filter (fun x => !(x.mac == m && x.tid == t)) ++ r.toList }

/-- A frame in reassembly fails: discarded whole and counted (R51). -/
def Hub.reassemblyError (c : Hub) (m : Nat) : Hub := (c.count (O.reassemblyErrors m)).raise 26 m

/-- The frame of a packet, other than its last, has failed: what follows of it is discarded up to its LAST, and the cells still set aside for it,
if it is the frame open at the enqueue stage, are returned (R51, R88). -/
def Hub.failFrame (c : Hub) (m t : Nat) (p : Packet) : Hub :=
  let later := (c.held.filter fun h => h.tid == t && h.q / 8 == 25 + m).any fun h => h.pkt.first || h.pkt.last
  let c := c.when (!later) fun c =>
    { c with frames := c.frames.map fun f : OpenFrame => if f.tid = t ∧ f.q / 8 = 25 + m then { f with reserve := 0, shared := 0, mcast := 0 } else f }
  c.setReassembly m t (some { mac := m, tid := t, packets := [p], failed := true })

/-- A packet at an Ethernet egress adapter (R49, R51): frames of each tunnel are put together separately, and a whole one waits for the
MAC. A packet that is not FIRST where no frame is in reassembly, or that follows a failed frame's packets out of order, belongs to a frame whose
FIRST is lost, which counts once (DESIGN CHOICE, notes/assumptions/76.md). -/
def Hub.reassemble (c : Hub) (m t : Nat) (p : Packet) : Hub :=
  let i := bits p.info.toNat 0 4
  let fails : Hub → Hub := fun c => if p.last then c.setReassembly m t none else c.failFrame m t p
  match c.reassembly.find? fun r => r.mac == m && r.tid == t, p.first with
  | none, false => fails (c.reassemblyError m)
  | some ⟨_, _, ps, true⟩, false =>
    let lost := match ps.getLast? with | some x => !x.first && decide (i ≤ bits x.info.toNat 0 4) | none => false
    fails (c.when lost fun c => c.reassemblyError m)
  | old, _ =>
    let ps := match old with | some r => if p.first then [] else r.packets | none => []
    let c := c.when (p.first && old.any fun r => !r.failed) fun c => c.reassemblyError m
    let gap := match ps.getLast? with | some x => p.seq.toNat != (x.seq.toNat + 1) % 65536 | none => false
    let all := ps ++ [p]
    let bytes := all.flatMap Packet.payload
    if gap || (!p.first && i != ps.length) then fails (c.reassemblyError m)
    else if !p.last then c.setReassembly m t (some { mac := m, tid := t, packets := all, failed := false })
    else if bytes.length = bits ((all.head?).getD p).info.toNat 0 14 then
      let c := c.setReassembly m t none
      { c with frameOut := c.frameOut ++ [⟨m, t, bytes⟩] }
    else (c.setReassembly m t none).reassemblyError m

/-- A packet at the PCIe egress adapter (R44–R46): its release count lowers what the paired tunnel has in flight, and its TLP joins the
adapter's FIFOs, but where the link takes none (R258, R260). -/
def Hub.pcieEgress (c : Hub) (t : Nat) (p : Packet) : Hub :=
  let pair := c.get (O.pathPair t)
  let rel := bits p.info.toNat 8 8
  let c := c.when (pair != 0xFFFF) fun c => c.put (H.npInFlight pair) (c.get (H.npInFlight pair) - rel)
  let cat := bits p.info.toNat 0 2
  if cat = 3 then c else ({ c with tlpOut := c.tlpOut ++ [⟨t, cat, p.payload⟩] } : Hub).barWaiting

/-- A bridge packet with an OP that R267 does not list. -/
def badRig (p : Packet) : Bool :=
  p.tid == 2 && bits p.info.toNat 8 8 == 0x0A && !([1, 2, 3, 4, 5, 6, 0x81, 0x82, 0x84, 0x85, 0x86, 0x88, 0x89].contains (p.payload.getD 0 0).toNat)

/-- ADAPTER_EGRESS (R107) of endpoint 24 + e: C0, C1, C2 and C3 in order whenever a packet is present, then C4–C7. While the management pairs
hand over, C0 packets wait for the management processor (R101). A bridge packet of unknown OP ends there (R267). -/
def execAdapterEgress (e : Fin 9) (read : CellRead) (s : State) : Host.Outcome State Fault Refusal :=
  onDomains s fun c =>
    let e := 24 + e.val
    let c := c.each (List.range 8) fun c k => Hub.dropDrained c.held.length (queueOf e k) c
    let first := [0, 1, 2, 3].findSome? fun k => (c.headPacket (queueOf e k)).filter fun p =>
      if k = 0 then !(e == 32 && c.handingOver) else p.tid == 1 || !c.flag H.isoHold
    let pick := match first with | some p => (c, some p) | none => Hub.drrNext e 80 c
    match pick with
    | (c, none) => c.settle
    | (c, some p) =>
      match c.dequeue e p read with
      | (c, none) => c.settle
      | (c, some out) =>
        (if e = 24 then c.pcieEgress p.tid out
        else if e = 25 ∨ e = 26 then c.reassemble (e - 25) p.tid out
        else if e = 32 ∧ badRig out = true then c.count O.badPackets
        else c.emit (.packet e out)).settle

end Sys2Proof.Machine
end

