-- ==== Sys2Proof/Machine/Link.lean ====
section
/-! DEFINITION. The commands of the link layer (R138–R164, R352–R356, R460): flits, replay, credits, Init, Retrain and Quiet. -/
namespace Sys2Proof.Machine

/-! ## LCTRL (R138, R152, R156) -/

/-- The class an LCTRL carries (R156): in turn among the classes whose count has changed, each class once in a run of 8 flits. -/
def Hub.lctrlClass (c : Hub) (p : Nat) : Nat :=
  let order := (List.range 8).map fun k => (c.get (H.lctrlNext p) + k) % 8
  let free := order.filter fun k => !bit (c.get (H.lctrlMask p)) k
  match free.find? (fun k => c.get (H.creditReturned p k) != c.get (H.lctrlSent p k)) with
  | some k => k
  | none => free.headD 0

/-- LCTRL of the flit sent now, and what its sending records (R141, R152, R156). -/
def Hub.makeLctrl (c : Hub) (p : Nat) : Nat × Hub :=
  let k := c.lctrlClass p
  let nak := c.flag (H.nakOn p)
  let whole := match c.rxPart.find? (fun r => r.port == p) with | some r => r.seq | none => c.get (H.rxNext p)
  let ack := if nak then c.get (H.rxNext p) else (whole + 4095) % 4096
  let r := c.get (H.creditReturned p k)
  let mask := withBit (c.get (H.lctrlMask p)) k true
  (ack + (if nak then 4096 else 0) + 8192 * k + 65536 * r,
    ((c.put (H.lctrlSent p k) r).put (H.lctrlNext p) ((k + 1) % 8)).put (H.lctrlMask p) (if mask = 255 then 0 else mask))

/-- The unreleased flits of a port, oldest first. -/
def Hub.unreleased (c : Hub) (p : Nat) : List ReplayFlit := c.replay.filter fun f => f.port == p

/-- The flits before SEQ n leave the replay buffer, if n lies in or just past the unreleased flits (R150, R152). Those that a NAK releases (`keep`) may
hold the first bytes of a packet that the partner has in part: they are kept aside until a release point passes them, for the replay after a retrain
(R162; DEDUCED, notes/assumptions/91.md). -/
def Hub.releaseBefore (c : Hub) (p n : Nat) (keep : Bool := false) : Hub :=
  let mine := c.unreleased p
  match mine with
  | [] => c
  | f :: _ =>
    let k := (n + 4096 - f.seq) % 4096
    if mine.length < k then c
    else
      let c := { c with replay := c.replay.filter (fun g => g.port != p) ++ mine.drop k,
                        kept := c.kept ++ (if keep then mine.take k else []) }
      let ptr := c.get (H.replayPtr p)
      if ptr = 4096 ∨ ((mine.drop k).any fun g => g.seq == ptr) = true then c
      else c.put (H.replayPtr p) (match mine.drop k with | [] => 4096 | g :: _ => g.seq)

/-- The flits of a port that a NAK released and no release point has passed, oldest first. -/
def Hub.keptOf (c : Hub) (p : Nat) : List ReplayFlit := c.kept.filter fun f => f.port == p

/-- A release point has passed every flit before SEQ n: of those kept aside too, none of them may be asked for again (R152). -/
def Hub.passKept (c : Hub) (p n : Nat) : Hub :=
  match c.keptOf p with
  | [] => c
  | f :: rest =>
    let k := (n + 4096 - f.seq) % 4096
    if 2048 ≤ k then c else { c with kept := c.kept.filter (fun g => g.port != p) ++ (f :: rest).drop k }

/-- The flits kept aside are unreleased again: a retrain's Init may name one of them (R162). -/
def Hub.restoreKept (c : Hub) (p : Nat) : Hub :=
  if c.keptOf p = [] then c
  else { c with replay := c.replay.filter (fun g => g.port != p) ++ c.keptOf p ++ c.unreleased p,
                kept := c.kept.filter fun g => g.port != p }

/-- A replay from SEQ n: every unreleased flit from n on is to be sent again (R152). -/
def Hub.replayFrom (c : Hub) (p n : Nat) : Hub :=
  if (c.unreleased p).any fun g => g.seq == n then (c.put (H.replayPtr p) n).count (O.linkReplays p) else c

/-- The partner's RETURNED of a class (R155). Where it has moved, credits have come back and ROUND_TRIP is measured anew: what the measurement
shows is free (R165, notes/assumptions/5.md). -/
def Hub.takeReturned (c : Hub) (p k v : Nat) : Hub :=
  if v = c.get (H.peerReturned p k) then c else ((c.draw.2).put (H.peerReturned p k) v).put (O.roundTrip p) c.draw.1

/-- LCTRL of an accepted or duplicate flit acted on (R152, R155). NAK 1 releases every flit before the SEQ it names; of these the release point has
passed none, so a retrain can still bring them back (R162). -/
def Hub.takeLctrl (c : Hub) (p v : Nat) : Hub :=
  let c := c.takeReturned p (bits v 13 3) (bits v 16 12)
  let ack := bits v 0 12
  if bit v 12 then
    let c := c.releaseBefore p ack true
    if c.get (H.nakSeq p) = ack ∧ c.now < c.get (H.nakAt p) + c.get (O.replayTimeout p) then c
    else (((c.put (H.nakSeq p) ack).put (H.nakAt p) c.now).count (O.naksReceived p)).replayFrom p ack
  else (c.releaseBefore p ((ack + 1) % 4096)).passKept p ((ack + 1) % 4096)

/-! ## Sending (R138–R141, R147–R153) -/

/-- The 640 bytes of a flit from HDR, the 628 bytes after it and LCTRL, closed with FCRC (R138). -/
def flitBytes (hdr lctrl : Nat) (body : Bytes) : Bytes :=
  let b := leBytes hdr 4 ++ body ++ leBytes lctrl 4
  b ++ leBytes (crc32c b) 4

/-- A flit sent with a fresh LCTRL; with encryption on, data and null flits carry COUNTER, ciphertext and TAG (R147, R148). CBODY of a
null flit, which has no plaintext, is 604 bytes of 00h (DESIGN CHOICE, notes/assumptions/93.md). COUNTER at 2⁴⁸ starts a retrain. -/
def Hub.sendFlit (c : Hub) (p seq kind first : Nat) (retrained : Bool) (plain : Bytes) : Hub :=
  let l := c.makeLctrl p
  let c := l.2
  let hdr := seq + 4096 * kind + 65536 * first + (if retrained then 2 ^ 27 else 0)
  if c.flag (H.crypt p) ∧ (kind = 0 ∨ kind = 1 ∨ kind = 8) then
    let k := c.get (H.sessionKey p 0)
    let n := c.get (O.txCounter p) + 1
    let hdr := hdr + (if bit (c.get (O.keyEpoch p)) 0 then 2 ^ 26 else 0)
    let text := if kind = 8 then [] else plain
    let body := if kind = 8 then List.replicate 604 0 else gcmCrypt (sessionAes k) (sessionIv k n) text
    let tag := gcmTag (sessionAes k) (sessionIv k n) (leBytes hdr 4 ++ leBytes n 8 ++ leBytes l.1 4) text
    let c := (c.put (O.txCounter p) n).emit (.flit p (flitBytes hdr l.1 (leBytes n 8 ++ body ++ leBytes tag 16)))
    c.when (decide (2 ^ 48 ≤ n) && c.get (O.linkState p) == 3) fun c => c.enterRetrain p 4 255
  else c.emit (.flit p (flitBytes hdr l.1 plain))

/-- One flit of the replay buffer sent, first or again; at REPLAY_LIMIT + 1 sends the link retrains with cause 01h (R152, R153). -/
def Hub.sendData (c : Hub) (p : Nat) (f : ReplayFlit) (again : Bool) : Hub :=
  let g := { f with sends := f.sends + 1 }
  let c := { c with replay := c.replay.map fun x : ReplayFlit => if x.port = p ∧ x.seq = f.seq then g else x }
  let c := (c.count (O.flitsTx p)).when again fun c => c.count (O.replayedFlits p)
  let c := c.sendFlit p f.seq f.kind f.firstOffset f.retrained f.body
  c.when (decide (c.get (O.replayLimit p) < g.sends) && c.get (O.linkState p) == 3) fun c => c.enterRetrain p 1 32

/-- Packets laid back to back into `room` bytes: the bytes, the offset of the first packet that starts among them, and what is left.
A packet's credits are consumed with its first byte (R140, R155): the packets that start here come next to last, and those that end here last. -/
def layPackets (room : Nat) : List Staged → Nat → Bytes × Option Nat × List Staged × List Staged × List Staged
  | [], _ => ([], none, [], [], [])
  | s :: rest, o =>
    if room ≤ o then ([], none, s :: rest, [], [])
    else
      let part := s.rest.take (room - o)
      let left := s.rest.drop (room - o)
      let r := if left = [] then layPackets room rest (o + part.length) else ([], none, { s with rest := left, begun := true } :: rest, [], [])
      (part ++ r.1, (if s.begun then r.2.1 else some o), r.2.2.1, (if s.begun then [] else [s]) ++ r.2.2.2.1, (if left = [] then [s] else []) ++ r.2.2.2.2)

/-- How many bytes of packets the next flit takes (R139, R140): all its room, or, of fewer, what leaves room for the count. -/
def flitShare (room total : Nat) : Nat := if room ≤ total then room else min total (room - 2)

/-- KIND and BODY for the packet bytes of a data flit: whole as KIND 0h, short as KIND 1h with its count in the last 2 bytes (R139). -/
def dataBody (room : Nat) (b : Bytes) : Nat × Bytes :=
  if b.length = room then (0, b) else (1, b ++ List.replicate (room - 2 - b.length) 0 ++ leBytes b.length 2)

/-- The packet bytes that a data flit's BODY carries (R139). -/
def bodyData (kind : Nat) (body : Bytes) : Bytes :=
  if kind = 0 then body else body.take (min (body.length - 2) (leNat (body.drop (body.length - 2))))

/-- The packets staged for a port whose bytes may be laid now (R155): what has begun, and what the credit of its class still covers. A packet
without credit, as one kept over a retrain that took a lower CREDIT_LIMIT, holds back those of its class behind it. -/
def Hub.sendable (c : Hub) (p : Nat) : List Staged :=
  ((c.staged.filter fun s => s.port == p).foldl (fun (acc : List Staged × List Nat) s =>
    let due := ((acc.1.filter fun x => !x.begun && x.cls == s.cls).map Staged.cost).sum
    if s.begun || (!acc.2.contains s.cls && decide (due + s.cost ≤ c.creditAvail p s.cls)) then (acc.1 ++ [s], acc.2)
    else (acc.1, s.cls :: acc.2)) ([], [])).1

/-- A new data flit built from the packets the egress has staged (R140). -/
def Hub.newDataFlit (c : Hub) (p : Nat) : Hub :=
  let mine := c.sendable p
  let held := (c.staged.filter fun s => s.port == p).filter fun s => !mine.contains s
  let room := c.flitRoom p
  let r := layPackets (flitShare room (mine.map fun s => s.rest.length).sum) mine 0
  let d := dataBody room r.1
  let seq := c.get (H.txNext p)
  let f : ReplayFlit :=
    { port := p, seq := seq, kind := d.1, firstOffset := r.2.1.getD 0x3FF, body := d.2, sends := 0, retrained := false,
      lossless := (r.2.2.2.2.filter fun s => s.cls == 0 || s.cls == 4).map Staged.tid }
  let c := { c with staged := c.staged.filter (fun s : Staged => s.port != p) ++ r.2.2.1 ++ held, replay := c.replay ++ [f] }
  let c := c.each r.2.2.2.1 fun c s => c.put (H.creditConsumed p s.cls) ((c.get (H.creditConsumed p s.cls) + s.cost) % 4096)
  (c.put (H.txNext p) ((seq + 1) % 4096)).sendData p f false

/-- The Init record this side sends (R159, R353), with the limits of this Init (R154). -/
def Hub.initRecord (c : Hub) (p : Nat) : InitRecord :=
  let at0 := c.rxPart.find? fun r => r.port == p
  let fl := (if c.flag (H.resume p) then 1 else 0) + (if c.flag (H.crypt p) then 2 else 0)
    + (if c.flag (H.crypt p) ∧ c.get (H.keyParity p 0) = 1 then 4 else 0) + (if c.flag (H.peerSeen p) then 8 else 0)
  { version := 1, flags := BitVec.ofNat 8 fl,
    rxNextSeq := BitVec.ofNat 16 (match at0 with | some r => r.seq | none => c.get (H.rxNext p)),
    rxOffset := BitVec.ofNat 16 (match at0 with | some r => r.offset | none => c.get (H.rxSkip p)),
    limits := (List.range 8).map fun k => BitVec.ofNat 16 (c.get (H.creditInForce p k)),
    returned := (List.range 8).map fun k => BitVec.ofNat 16 (c.get (H.creditReturned p k)) }

/-- The Init record as it stands at the start of BODY (R159). -/
def initBytes (r : InitRecord) : Bytes :=
  [r.version, r.flags] ++ leBytes r.rxNextSeq.toNat 2 ++ leBytes r.rxOffset.toNat 2 ++ [0, 0]
    ++ r.limits.flatMap (fun v => leBytes v.toNat 2) ++ r.returned.flatMap (fun v => leBytes v.toNat 2)

/-- The Init record that a BODY spells (R159). -/
def initOfBody (b : Bytes) : InitRecord :=
  let f := fun (o n : Nat) => leNat ((b.drop o).take n)
  { version := BitVec.ofNat 8 (f 0 1), flags := BitVec.ofNat 8 (f 1 1), rxNextSeq := BitVec.ofNat 16 (f 2 2),
    rxOffset := BitVec.ofNat 16 (f 4 2), limits := (List.range 8).map fun k => BitVec.ofNat 16 (f (8 + 2 * k) 2),
    returned := (List.range 8).map fun k => BitVec.ofNat 16 (f (24 + 2 * k) 2) }

/-- Bytes 0–13 of a NONCE record (R352). -/
def nonceHead (parity : Bool) (nonce : Nat) : Bytes := [0xC3, if parity then 1 else 0] ++ leBytes nonce 12

/-- The NONCE record of a side, closed with CHECK (R352). -/
def Hub.nonceBytes (c : Hub) (p : Nat) : Bytes :=
  let b := nonceHead (c.get (H.keyParity p 0) == 1) (c.get (H.ownNonce p))
  b ++ leBytes (headerCheck b) 2

/-- An Init flit, with its NONCE record before it on every lane in use where encryption is on and the port has a key (R158, R352, R356). -/
def Hub.sendInit (c : Hub) (p : Nat) : Hub :=
  let c := c.when (c.flag (H.crypt p) && c.flag (H.hasKey p)) fun c =>
    c.each (c.txInUse p) fun c l => c.emit (.nonceRecord p l (c.nonceBytes p))
  let b := initBytes (c.initRecord p)
  c.sendFlit p 0 9 0x3FF false (b ++ List.replicate (628 - b.length) 0)

/-- FLIT_TRANSMIT (R140, R150, R152, R158, R160): in Init an Init flit; in Active the next flit of a replay, a new data flit, a Quiet
request where both it and the sleep selection allow one, or a null flit. -/
def execFlitTransmit (p : Port) (s : State) : Host.Outcome State Fault Refusal :=
  onDomains s fun c =>
    if c.get (O.linkState p) = 2 then c.sendInit p
    else if c.get (O.linkState p) ≠ 3 then c
    else
      let ptr := c.get (H.replayPtr p)
      let idle := List.replicate (c.flitRoom p) 0
      match (c.unreleased p).find? fun f => f.seq == ptr with
      | some f =>
        let next := (ptr + 1) % 4096
        let c := c.put (H.replayPtr p) (if (c.unreleased p).any fun g => g.seq == next then next else 4096)
        c.sendData p f true
      | none =>
        if (c.unreleased p).length < c.get (O.replayDepth p) ∧ (c.sendable p).isEmpty = false then c.newDataFlit p
        else if c.quietAllowed p && c.nothingToSend p && c.get (H.quietSent p) != 1 then
          (c.put (H.quietSent p) 1).sendFlit p (c.get (H.txNext p)) 10 0x3FF false (List.replicate 628 0)
        else c.sendFlit p (c.get (H.txNext p)) 8 0x3FF false idle

/-- REPLAY_TIMEOUT (R152): flits are outstanding and neither a release nor a NAK has come. -/
def execReplayTimeout (p : Port) (s : State) : Host.Outcome State Fault Refusal :=
  onDomains s fun c => match c.unreleased p with
    | [] => c
    | f :: _ => if c.get (O.linkState p) = 3 then (c.count (O.replayTimeouts p)).replayFrom p f.seq else c

/-! ## Receiving (R151, R152, R163) -/

/-- Whole packets cut from a run of bytes, with the place each starts, and the place and bytes of the one left in part (R35, R140).
Every packet takes 16 bytes at least. -/
def cutPackets : Nat → Nat → Bytes → List (Nat × Bytes) × Nat × Bytes
  | 0, o, b => ([], o, b)
  | n + 1, o, b =>
    let size := 16 + bits (leNat ((b.drop 4).take 2)) 0 11
    if b.length < 16 ∨ b.length < size then ([], o, b)
    else
      let r := cutPackets n (o + size) (b.drop size)
      ((o, b.take size) :: r.1, r.2)

/-- A whole packet enters staging, unless it is a late C1–C3 packet of a RETRAINED flit (R163). -/
def Hub.stageArrived (c : Hub) (p : Nat) (retrained : Bool) (b : Bytes) : Hub :=
  let k := Packet.ofBytes b
  if retrained && c.flag (H.retrainCrossed p) && decide (1 ≤ k.cls ∧ k.cls ≤ 3) then
    ((((c.returnCredit p k.cls (cellsOf k.payload.length)).count (O.lateIsoDiscards p)).count (O.grantIsoDiscards k.tid.toNat))).raise 44 p
  else { c with arrived := c.arrived ++ [⟨p, k⟩] }

/-- The packet bytes of an accepted data flit enter staging (R140, R151, R162). -/
def Hub.takeBody (c : Hub) (p seq : Nat) (retrained : Bool) (data : Bytes) : Hub :=
  let skip := min (c.get (H.rxSkip p)) data.length
  let data := data.drop skip
  let part := (c.rxPart.find? fun r => r.port == p).getD ⟨p, [], seq, skip, retrained⟩
  let held := part.bytes.length
  let all := part.bytes ++ data
  let r := cutPackets (all.length / 16) 0 all
  let fresh : Nat → Bool := fun o => held ≤ o && decide (0 < o ∨ held = 0)
  let c := { c with rxPart := c.rxPart.filter fun x => x.port != p }
  let c := (c.put (H.rxSkip p) 0).each r.1 fun c k => c.stageArrived p (if fresh k.1 then retrained else part.retrained) k.2
  if r.2.2 = [] then c
  else if fresh r.2.1 then { c with rxPart := c.rxPart ++ [⟨p, r.2.2, seq, skip + (r.2.1 - held), retrained⟩] }
  else { c with rxPart := c.rxPart ++ [{ part with bytes := r.2.2 }] }

/-- A NAK episode starts, if none is on (R151). -/
def Hub.startNak (c : Hub) (p : Nat) : Hub :=
  if c.flag (H.nakOn p) then c else (c.putB (H.nakOn p) true).count (O.naksSent p)

/-- A failed flit (R151): LINK_CRC, and a NAK episode. -/
def Hub.failedFlit (c : Hub) (p : Nat) : Hub := (c.raise 34 p).startNak p

/-- The receive session register that a KEY_EPOCH names, and whether it is the next epoch's (R355). -/
def Hub.receiveKey (c : Hub) (p epoch : Nat) : Option (Nat × Bool) :=
  if c.get (H.keyParity p 1) = epoch then some (c.get (H.sessionKey p 1), false)
  else if c.get (H.sessionKey p 3) ≠ 0 ∧ c.get (H.keyParity p 3) = epoch then some (c.get (H.sessionKey p 3), true)
  else none

/-- The transmit direction switches to the next-epoch key (R355). -/
def Hub.switchTransmit (c : Hub) (p : Nat) : Hub :=
  if c.get (H.sessionKey p 2) = 0 then c
  else
    let par := c.get (H.keyParity p 2)
    let c := ((c.put (H.sessionKey p 0) (c.get (H.sessionKey p 2))).put (H.sessionKey p 2) 0).put (H.keyParity p 0) par
    (c.put (O.keyEpoch p) (withBit (c.get (O.keyEpoch p)) 0 (par == 1))).when (c.get (H.sessionKey p 3) == 0) fun c =>
      c.put (O.linkCryptoKeyState p) 1

/-- A flit carried the new KEY_EPOCH: the old receive key goes, and the transmit direction follows (R355). -/
def Hub.switchReceive (c : Hub) (p : Nat) : Hub :=
  let par := c.get (H.keyParity p 3)
  let c := ((c.put (H.sessionKey p 1) (c.get (H.sessionKey p 3))).put (H.sessionKey p 3) 0).put (H.keyParity p 1) par
  let c := c.put (O.keyEpoch p) (withBit (c.get (O.keyEpoch p)) 1 (par == 1))
  (c.switchTransmit p).put (O.linkCryptoKeyState p) 1

/-- The authentication of R148 on an encrypted flit: the plaintext and whether it came under the next-epoch key, or a failure. -/
def Hub.authenticate (c : Hub) (p kind : Nat) (b : Bytes) : Option (Bytes × Bool) :=
  let hdr := b.take 4
  let n := leNat ((b.drop 4).take 8)
  let text := if kind = 8 then [] else (b.drop 12).take 604
  match c.receiveKey p (bits (leNat hdr) 26 1) with
  | none => none
  | some (k, next) =>
    let iv := sessionIv k n
    let plain := gcmCrypt (sessionAes k) iv text
    let tag := gcmTag (sessionAes k) iv (hdr ++ leBytes n 8 ++ (b.drop 632).take 4) plain
    if c.get (O.rxCounter p) < n ∧ tag = leNat ((b.drop 616).take 16) then
      some (if kind = 8 then List.replicate 604 0 else plain, next)
    else none

/-! ### Init, Quiet as received -/

/-- The packets that start in a run of bytes that begins with one: the place of each, that of its end, and whether its class is C0 or C4 (R35, R36). -/
def packetStarts : Nat → Nat → Bytes → List (Nat × Nat × Bool)
  | 0, _, _ => []
  | n + 1, o, b =>
    if b.length < 16 then []
    else
      let k := Packet.ofBytes b
      let size := 16 + bits (leNat ((b.drop 4).take 2)) 0 11
      (o, o + size, k.cls == 0 || k.cls == 4) :: packetStarts n (o + size) (b.drop size)

/-- Packet bytes laid anew into data flits of the room in force, from a SEQ on: `skip` bytes of the first belong to packets that the partner has
whole (R162). `starts` are the places where packets start and end, `lossless` the entries of those of C0 and C4, in order. -/
def relayFlits (p room : Nat) : Nat → Nat → Nat → Bytes → List (Nat × Nat × Bool) → List Nat → List ReplayFlit
  | 0, _, _, _, _, _ => []
  | n + 1, seq, o, b, starts, lossless =>
    if b = [] then []
    else
      let use := flitShare room b.length
      let mine := starts.filter fun x => decide (o ≤ x.1 ∧ x.1 < o + use)
      let loss := (starts.filter fun x => x.2.2 && decide (o < x.2.1 ∧ x.2.1 ≤ o + use)).length
      let d := dataBody room (b.take use)
      { port := p, seq := seq % 4096, kind := d.1, firstOffset := (mine.head?.map fun x => x.1 - o).getD 0x3FF, body := d.2, sends := 0,
        retrained := true, lossless := lossless.take loss } :: relayFlits p room n (seq + 1) (o + use) (b.drop use) starts (lossless.drop loss)

/-- The unreleased flits of a port whose room has changed with encryption laid anew (R147, R149, R162). The partner ignores `skip` bytes of the flit
it expects, which stay the bytes they were, so far as the room holds them (DESIGN CHOICE, notes/assumptions/77.md). -/
def Hub.layAnew (c : Hub) (p skip : Nat) : Hub :=
  let mine := c.unreleased p
  let room := c.flitRoom p
  match mine with
  | [] => c
  | f :: _ =>
    if mine.all fun g : ReplayFlit => g.body.length == room then c
    else
      let all := mine.flatMap fun g : ReplayFlit => bodyData g.kind g.body
      let b := if skip ≤ room then all else all.take room ++ all.drop skip
      let skip := min skip room
      let starts := packetStarts b.length skip (b.drop skip)
      let lossless := mine.flatMap ReplayFlit.lossless
      let fresh := relayFlits p room (b.length + 1) f.seq 0 b starts (lossless.drop (lossless.length - (starts.filter fun x => x.2.2 && decide (x.2.1 ≤ b.length)).length))
      ({ c with replay := c.replay.filter (fun g => g.port != p) ++ fresh } : Hub).put (H.txNext p) ((f.seq + fresh.length) % 4096)

/-- The link becomes Active (R158): the partner's limits and counts, the rates of R146, and the session keys (R354). After a retrain the flits are
sent anew, and how often each was sent is counted afresh (DESIGN CHOICE, notes/assumptions/93.md: R153 does not say). -/
def Hub.linkActive (c : Hub) (p : Nat) (r : InitRecord) : Hub :=
  let on := c.flag (H.crypt p)
  let resume := c.flag (H.resume p)
  let c := c.each (List.range 8) fun c k =>
    (c.put (O.peerCreditLimit p k) (r.limits.getD k 0).toNat).put (H.peerReturned p k) ((r.returned.getD k 0).toNat % 4096)
  let c := ((c.put (O.linkState p) 3).put (O.payloadRate p) (schedulingRate (c.get (O.gear p)) (c.get (O.txLanes p)) on)).put
    (O.rxPayloadRate p) (schedulingRate (c.get (O.gear p)) (c.get (O.rxLanes p)) on)
  let c := c.put (O.cryptState p) (if on then 1 else 0)
  let c := if !on then c else match c.linkKey p with
  | none => c
  | some ki =>
    let par := c.get (H.keyParity p 0)
    let c := (c.put (H.sessionKey p 0) (linkSession ki (c.get (H.ownNonce p)) (c.get (H.peerNonce p)) par)).put (H.sessionKey p 1)
      (linkSession ki (c.get (H.peerNonce p)) (c.get (H.ownNonce p)) par)
    let c := (((c.put (H.keyParity p 1) par).put (O.keyEpoch p) (3 * par)).put (O.txCounter p) 0).put (O.rxCounter p) 0
    (((c.put (H.sessionKey p 2) 0).put (H.sessionKey p 3) 0).put (O.linkCryptoKeyState p) 1).count (O.linkCryptoSessions p)
  let c := c.when resume fun c =>
    let c := match c.rxPart.find? fun x => x.port == p with
      | some x => ({ c with rxPart := c.rxPart.filter fun y => y.port != p }.put (H.rxNext p) x.seq).put (H.rxSkip p) x.offset
      | none => c
    let c := (c.restoreKept p).releaseBefore p (r.rxNextSeq.toNat % 4096)
    let c := { c with replay := c.replay.map fun f : ReplayFlit => if f.port = p then { f with sends := 0, retrained := true } else f }
    let c := c.layAnew p (bits r.rxOffset.toNat 0 10)
    (c.replayFrom p (r.rxNextSeq.toNat % 4096)).put (O.lastRetrain p) ((c.now - c.get (H.retrainAt p)) / 1000)
  let c := ((c.adaptStart p).recompute).reactionDone 1 p
  if c.flag (H.gearDue p) then c.gearNow p else c.reactionDone 5 p

/-- A partner's Init (R158, R353): it disagrees and takes the link Down; or it is valid, is noted as seen, and takes the link Active
once the partner too has seen one. -/
def Hub.initReceived (c : Hub) (p : Nat) (r : InitRecord) : Hub :=
  if c.get (O.linkState p) ≠ 2 then c
  else
    let fl := r.flags.toNat
    let on := c.flag (H.crypt p)
    let c := c.when on fun c => (c.usedSlot (c.get (O.linkCryptoKeySlot p))).keyCondition p
    let epochOff := on && (c.linkKey p).isSome && bit fl 1 && bits fl 2 1 != c.get (H.keyParity p 0)
    let cryptOff := bit fl 1 != on || epochOff
    if r.version != 1 || bit fl 0 != c.flag (H.resume p) || cryptOff then
      let c := c.when cryptOff fun c => (c.put (O.cryptState p) 2).raise 38 p
      (c.raise 37 p).linkDown p
    else if on && (!c.flag (H.hasKey p) || !c.flag (H.peerNonceSeen p) || c.get (H.peerParity p) != bits fl 2 1) then c
    else
      let c := c.putB (H.peerSeen p) true
      if bit fl 3 then c.linkActive p r else c

/-- A Quiet request arrives (R160): taken as the acknowledge of one's own of this stroke, answered where this side too has nothing to send, else
not answered. An own request of an earlier stroke, which the partner did not answer, is past (DESIGN CHOICE, notes/assumptions/93.md). -/
def Hub.quietAsked (c : Hub) (p : Nat) : Hub :=
  if c.get (O.linkState p) ≠ 3 then c
  else if c.get (H.quietSent p) = 1 ∧ c.quietAllowed p = true then (c.emit (.laneQuiet p)).enterQuiet p
  else if c.quietAllowed p && c.nothingToSend p then
    let c := c.sendFlit p (c.get (H.txNext p)) 11 0x3FF false (List.replicate 628 0)
    (c.emit (.laneQuiet p)).enterQuiet p
  else c

/-- A Quiet acknowledge arrives for a request of this side, in whichever stroke it sent it (R160). A hub that may no longer use Quiet on the port
does not enter it. -/
def Hub.quietAnswered (c : Hub) (p : Nat) : Hub :=
  if c.get (O.linkState p) ≠ 3 ∨ c.get (H.quietSent p) = 0 then c
  else if c.quietAllowed p then (c.emit (.laneQuiet p)).enterQuiet p
  else c.put (H.quietSent p) 0

/-- A flit past the checks of its line code, FCRC and KIND, its SEQ and tag next (R151). In Init only Init flits are looked at (DESIGN CHOICE,
notes/assumptions/93.md). A duplicate passes the same checks before its LCTRL is
used; its packets are not taken again. -/
def Hub.checkedFlit (c : Hub) (p kind : Nat) (b : Bytes) : Hub :=
  let hdr := leNat (b.take 4)
  let seq := bits hdr 0 12
  let lctrl := leNat ((b.drop 632).take 4)
  let ahead := (seq + 4096 - c.get (H.rxNext p)) % 4096
  if kind = 9 then (c.takeLctrl p lctrl).initReceived p (initOfBody ((b.drop 4).take 628))
  else if c.get (O.linkState p) ≠ 3 then c
  else if ahead ≠ 0 ∧ ahead < 2048 then c.startNak p
  else
    let secret := c.flag (H.crypt p) && decide (kind = 0 ∨ kind = 1 ∨ kind = 8)
    match (if secret then c.authenticate p kind b else some ((b.drop 4).take 628, false)) with
    | none => ((c.count (O.linkAuthFailures p)).raise 36 p).failedFlit p
    | some (body, next) =>
      let c := c.when secret fun c => (c.put (O.rxCounter p) (leNat ((b.drop 4).take 8))).when next fun c => c.switchReceive p
      let c := c.takeLctrl p lctrl
      if kind = 10 then c.quietAsked p
      else if kind = 11 then c.quietAnswered p
      else if kind = 8 ∨ ahead ≠ 0 then c
      else
        let c := ((c.put (H.rxNext p) ((seq + 1) % 4096)).putB (H.nakOn p) false).count (O.flitsRx p)
        c.takeBody p seq (bit hdr 27) (bodyData kind body)

/-- A flit of sound line code: FCRC, then KIND, before the rest of R151. -/
def Hub.soundFlit (c : Hub) (p : Nat) (b : Bytes) : Hub :=
  let kind := bits (leNat (b.take 4)) 12 4
  if b.length ≠ 640 ∨ crc32c (b.take 636) ≠ leNat (b.drop 636) then (c.count (O.crcErrors p)).failedFlit p
  else if [0, 1, 8, 9, 10, 11].contains kind then c.checkedFlit p kind b
  else (c.count (O.crcErrors p)).failedFlit p

/-- A flit at Gears 1 and 2 (R142, R143): each block with an invalid sync header or of a reserved type is counted and fails the flit, and the
headers of a lane may lose its block lock. -/
def Hub.flitBlocks (c : Hub) (p : Nat) (rx : FlitRx) : Hub :=
  let bad := (rx.blocks.filter fun b => b.2 != .sound).length
  let c := if bad = 0 then c.soundFlit p rx.bytes else (c.count (O.blockErrors p) bad).failedFlit p
  c.each rx.blocks fun c b => c.takeHeader p b.1.val (b.2 == .badHeader)

/-- The codeword of a flit at Gears 3 and 4 on its lane, the lanes in use in turn from the first one on (R144; DEDUCED, notes/assumptions/91.md): the
eighth uncorrectable one in a row is a loss of lock (R185). -/
def Hub.takeCodeword (c : Hub) (p : Nat) (bad : Bool) : Hub :=
  let lanes := c.rxInUse p
  let k := c.get (H.wordLane p) % max 1 lanes.length
  let l := (lanes.find? fun l => c.logicalRx p l == k).getD (lanes.getD k 0)
  let n := if bad then c.get (H.badWords p l) + 1 else 0
  let c := (c.put (H.wordLane p) ((k + 1) % max 1 lanes.length)).put (H.badWords p l) (if 8 ≤ n then 0 else n)
  c.when (decide (8 ≤ n)) fun c => c.detectorUp p (rxLaneOf l) 1

/-- A flit at Gears 3 and 4 (R144, R145). -/
def Hub.flitCodeword (c : Hub) (p : Nat) (rx : FlitRx) : Hub :=
  let c := c.count (O.fecCodewords p)
  let c := if rx.uncorrectable then ((c.count (O.fecUncorrectable p)).raise 35 p).failedFlit p
    else (c.count (O.fecCorrected p) rx.corrected).soundFlit p rx.bytes
  c.takeCodeword p rx.uncorrectable

/-- FLIT_RECEIVE (R142–R145, R151): the line code's verdict, FCRC, KIND, SEQ and the tag, in this order. -/
def execFlitReceive (p : Port) (rx : FlitRx) (s : State) : Host.Outcome State Fault Refusal :=
  onDomains s fun c =>
    if c.get (O.linkState p) ≠ 2 ∧ c.get (O.linkState p) ≠ 3 then c
    else if c.get (O.gear p) ≤ 2 then c.flitBlocks p rx else c.flitCodeword p rx

/-! ## Link states (R158, R460) -/

/-- The lanes report trained (R158): Init, with a fresh start from Down or with RESUME 1 from Retrain. -/
def Hub.reportTrained (c : Hub) (p : Nat) : Hub :=
  if c.get (O.linkState p) = 0 ∨ c.get (O.linkState p) = 1 then ((c.enterInit p false).treeTrained p).recompute
  else if c.get (O.linkState p) = 5 then (c.enterInit p true).recompute
  else c

/-- LANES_TRAINED (R158): the lanes of a port on which the mode is entered report trained at a gear with their lanes. -/
def execLanesTrained (p : Port) (gear txLanes rxLanes : Nat) (s : State) : Host.Outcome State Fault Refusal :=
  onDomains s fun c =>
    let st := c.get (O.linkState p)
    let bringUp := decide (c.get (O.trainState p) ≠ 0 ∧ c.get (O.trainState p) ≠ 11)
    if bringUp && (st == 0 || st == 1 || st == 5) && decide (1 ≤ gear ∧ gear ≤ 4 ∧ 1 ≤ txLanes ∧ txLanes ≤ 3 ∧ 1 ≤ rxLanes ∧ rxLanes ≤ 3)
    then (c.lanesUp p gear txLanes rxLanes).reportTrained p else c

/-- INIT_RECEIVE (R158, R353). -/
def execInitReceive (p : Port) (init : InitRecord) (s : State) : Host.Outcome State Fault Refusal :=
  onDomains s fun c => c.initReceived p init

/-- A block that stands only in another state of the link (R172, R352): at Gears 1 and 2 a reserved block, which is counted and fails the flit in
progress (R143). R144 gives a codeword of a reserved type no effect. -/
def Hub.strayBlock (c : Hub) (p : Nat) : Hub :=
  if 3 ≤ c.get (H.trainGear p) then c
  else (c.count (O.blockErrors p)).when (c.get (O.linkState p) == 2 || c.get (O.linkState p) == 3) fun c => c.failedFlit p

/-- NONCE_RECORD (R352, R353): a valid record in Init is the latest of the partner; in any other state of lanes that receive it is a stray block. -/
def execNonceRecord (p : Port) (parity : Bool) (nonce : BitVec 96) (check : BitVec 16) (s : State) :
    Host.Outcome State Fault Refusal :=
  onDomains s fun c =>
    if c.get (O.linkState p) = 2 then
      if c.flag (H.crypt p) && headerCheck (nonceHead parity nonce.toNat) == check.toNat then
        ((c.putB (H.peerNonceSeen p) true).putB (H.peerParity p) parity).put (H.peerNonce p) nonce.toNat
      else c
    else if 3 ≤ c.get (O.trainState p) ∧ c.get (O.trainState p) ≤ 10 then c.strayBlock p
    else c

/-- INIT_TIMEOUT (R158): no valid Init within 1 ms. A port that awaits its nonce stays in Init (R365). -/
def execInitTimeout (p : Port) (s : State) : Host.Outcome State Fault Refusal :=
  onDomains s fun c => if c.get (O.linkState p) = 2 ∧ c.awaitsNonce p = false then c.linkDown p else c

/-- RETRAIN_LIMIT_EXPIRY (R158, R460): before the link is Active again, in Retrain or in the Init after it. A port that awaits its nonce stays in
Init (R365). -/
def execRetrainLimitExpiry (p : Port) (s : State) : Host.Outcome State Fault Refusal :=
  onDomains s fun c =>
    if c.get (O.linkState p) = 5 ∨ (c.get (O.linkState p) = 2 ∧ c.flag (H.resume p) = true ∧ c.awaitsNonce p = false) then (c.linkDown p).raise 40 p else c

/-- The write of RETRAIN_REQUEST (R158, R460); false asks for nothing. -/
def Hub.writeRetrainRequest (c : Hub) (p : Nat) (value : Bool) : Status × Hub :=
  if !value then (.ok, c)
  else if c.get (O.linkState p) = 3 then (.ok, c.enterRetrain p 4 255)
  else if c.get (O.linkState p) = 4 then (.ok, (c.putB (O.retrainRequest p) true).startWake p)
  else (.ok, c)

/-- RETRAIN_REQUEST: Engineer and Owner. -/
def execRetrainRequest (lvl : Level) (p : Port) (value : Bool) (s : State) : Host.Outcome State Fault Refusal :=
  onWrite (.retrainRequest lvl p value) s fun c => c.request lvl engineerWrites fun c => c.writeRetrainRequest p value

/-- QUIET_REQUEST (R160). -/
def execQuietRequest (p : Port) (s : State) : Host.Outcome State Fault Refusal := onDomains s fun c => c.quietAsked p

/-- QUIET_ACKNOWLEDGE (R160). -/
def execQuietAcknowledge (p : Port) (s : State) : Host.Outcome State Fault Refusal := onDomains s fun c => c.quietAnswered p

/-- QUIET_WAKE (R161): a side with a packet for a Quiet link wakes it. -/
def execQuietWake (p : Port) (s : State) : Host.Outcome State Fault Refusal := onDomains s fun c => c.startWake p

/-- QUIET_WAKE_LEAD (R161): before each boundary the parent wakes a Quiet link below it. -/
def execQuietWakeLead (p : Port) (s : State) : Host.Outcome State Fault Refusal :=
  onDomains s fun c => if c.get O.upstreamPort = p.val then c else c.startWake p

/-- WAKE_FAIL (R158, R183): the wake of a Quiet link failed. -/
def execWakeFail (p : Port) (s : State) : Host.Outcome State Fault Refusal :=
  onDomains s fun c => if c.get (O.linkState p) = 4 then c.enterRetrain p 2 33 else c

/-- CRYPT_ENABLE written (R149, R356): in force at the next Init; whether the port has a key shows at once. -/
def Hub.writeCryptEnable (c : Hub) (p : Nat) (value : Bool) : Status × Hub := (.ok, (c.putB (O.cryptEnable p) value).keyCondition p)

/-- CRYPT_ENABLE_WRITE: Owner. -/
def execCryptEnableWrite (lvl : Level) (p : Port) (value : Bool) (s : State) : Host.Outcome State Fault Refusal :=
  onWrite (.cryptEnableWrite lvl p value) s fun c => c.request lvl ownerWrites fun c => c.writeCryptEnable p value

/-- The limits of R154 with class k at v. -/
def Hub.limitsHold (c : Hub) (p k v : Nat) : Bool :=
  let l : Nat → Nat := fun i => if i = k then v else c.get (O.creditLimit p i)
  decide (l 0 + l 1 + l 2 + l 3 ≤ 64 ∧ l 4 + l 5 + l 6 + l 7 ≤ 64 ∧ 5 ≤ v ∧ l 0 ≤ c.get O.creditCellsC0
    ∧ l 4 ≤ c.get O.creditCellsC4)

/-- The write of a CREDIT_LIMIT (R154, R7): in force at the next Init. -/
def Hub.writeCreditLimit (c : Hub) (p k v : Nat) : Status × Hub :=
  if c.limitsHold p k v then (.ok, c.put (O.creditLimit p k) v) else (.invalidValue, c)

/-- CREDIT_LIMIT_WRITE: Engineer and Owner. -/
def execCreditLimitWrite (lvl : Level) (p : Port) (cls : Fin 8) (value : BitVec 16) (s : State) : Host.Outcome State Fault Refusal :=
  onWrite (.creditLimitWrite lvl p cls value) s fun c => c.request lvl engineerWrites fun c => c.writeCreditLimit p cls value.toNat

end Sys2Proof.Machine
end

