-- ==== Sys2Proof/Machine/Sessions.lean ====
section
/-! DEFINITION. The ends of FOP sessions (R330), which keys, sleep, resets and FOP itself use. -/
namespace Sys2Proof.Machine

/-- The subscriptions of the sessions for which `gone` holds are freed (R330). -/
def Hub.freeSubscriptions (c : Hub) (gone : Nat → Bool) : Hub :=
  (List.range 32).foldl (fun c e =>
    if c.get (O.notifySession e) ≠ 0 ∧ gone (c.get (O.notifySession e)) = true then
      [O.notifySession e, O.notifyIndex e, O.notifySub e, O.notifyMode e, O.notifyPeriod e, O.notifySent e].foldl (fun c o => c.put o 0) c
    else c) c

/-- The kind of a held message that is no longer executed: it keeps its place in the order, and nothing comes of it (R330). -/
abbrev droppedKind : Nat := 256

/-- A request waits in REQ_BUF for the response area: none of the mailbox is held, and none waits for the programming of its block (R336). -/
def Hub.requestWaits (c : Hub) : Bool :=
  c.flag H.reqBusy && c.fopHeld.all (fun h => h.1 == droppedKind || h.2.transport != .mailbox)
    && c.blockWait.all fun w => w.transport != .mailbox

/-- A message is a request of one of these sessions at this hub (R319). -/
def Hub.requestOf (c : Hub) (ids : List Nat) (kind hub session : Nat) : Bool :=
  decide (kind < 128) && (hub == 0xFF || hub == c.get O.hubAddress) && ids.contains session

/-- The requests that sessions still have queued are dropped, and no answer is sent (R330): those a handover holds, and one in REQ_BUF. -/
def Hub.dropRequests (c : Hub) (ids : List Nat) : Hub :=
  let gone : Nat × FopMsg → Bool := fun h => c.requestOf ids h.1 h.2.hub.toNat h.2.session.toNat
  let buffered := c.requestWaits && c.requestOf ids (c.reqBuf.getD 1 0).toNat (c.reqBuf.getD 6 0).toNat (leNat ((c.reqBuf.drop 4).take 2))
  let busy := buffered || c.fopHeld.any fun h => gone h && h.2.transport == .mailbox
  let c : Hub := { c with fopHeld := c.fopHeld.map fun h => if gone h then (droppedKind, h.2) else h }
  c.when busy fun c => c.put H.reqBusy 0

/-- The sessions for which `gone` holds end: their blocks, keys, subscriptions and queued requests go (R330). -/
def Hub.endSessionsWhere (c : Hub) (gone : Session → Bool) : Hub :=
  let ids := (c.sessions.filter gone).map Session.id
  ({ c.dropRequests ids with sessions := c.sessions.filter fun x : Session => !gone x }).freeSubscriptions fun i => ids.contains i

/-- Every session ends at once, and no session that is being opened gets its answer (R330, R340). -/
def Hub.endSessions (c : Hub) : Hub := (c.dropRequests [0]).endSessionsWhere fun _ => true

/-- The sessions marked to end after the response under way (R330). -/
def Hub.endMarked (c : Hub) : Hub :=
  let levels := c.get H.endLevels
  let one := c.get H.endSession
  if levels = 0 ∧ one = 0 then c
  else ((c.endSessionsWhere fun x => bit levels (Level.rank x.level) || x.id == one).put H.endLevels 0).put H.endSession 0

/-- The sessions of every level whose access-key slot is the one named are to end (R330). -/
def Hub.markSlotLevels (c : Hub) (slot : Nat) : Hub :=
  [0, 1, 2, 3].foldl (fun c l => if c.get (O.accessKeySlot l) = slot then c.put H.endLevels (withBit (c.get H.endLevels) l true) else c) c

end Sys2Proof.Machine
end

