-- ==== Sys2Proof/Machine/UpdateOps.lean ====
section
/-! DEFINITION. The conditions of an activation and its stop (R400, R401), which feeds, sag stages, tamper and the standby pair's
isolation reach too. -/
namespace Sys2Proof.Machine

/-- The slot that is not running. -/
def Hub.otherSlot (c : Hub) : Nat := if c.get O.runningSlot = 1 then 0 else 1

/-- The first condition of R400 that fails; 0 none. -/
def Hub.activationRefusal (c : Hub) : Nat :=
  if c.flag O.updateLock then 1
  else if c.flag O.lineRun || decide (c.now < c.get H.lineLowAt + 1000000) then 2
  else if c.flag O.feedRequire && c.get O.feedState != 0 then 3
  else if c.get (O.slotInfoState c.otherSlot) ≠ 3 ∧ c.get (O.slotInfoState c.otherSlot) ≠ 5 then 4
  else if c.get O.sagStage ≠ 0 then 5
  else if c.flag H.standbyHeld || decide (c.now < c.get H.standbyIsolatedAt) then 6
  else if Nat.land (c.get O.tamperActive) 0x1FF ≠ 0 ∨ c.get O.rngState ≠ 1 then 7
  else 0

/-- SETTINGS_RECORDS of a slot that holds none: all 0 (9005h.00). -/
def Hub.clearRecord (c : Hub) (k : Nat) : Hub :=
  [O.recordState k, O.recordFormat k, O.recordSeq k, O.recordLength k, O.recordCrc k].foldl (fun c o => c.put o 0) c

/-- The settings record converted for the new image is freed, and the protection of the old one ends (R401, R406). -/
def Hub.dropConverted (c : Hub) : Hub :=
  let c := c.when (c.get H.convertedRecord != 255) fun c =>
    (c.put H.recordGone (withBit (c.get H.recordGone) (c.get H.convertedRecord) true)).clearRecord (c.get H.convertedRecord)
  let c := c.put H.convertedRecord 255
  (List.range 4).foldl (fun c k => if c.get (O.recordState k) = 3 then c.put (O.recordState k) 1 else c) c

/-- The plans no longer wait for this hub (R130, R131): the Cox marks no HOLD; another hub takes back a pending that it has not reported yet, and
reports the end of one that it has, so that the Cox unfreezes its tunnels (DEDUCED, notes/assumptions/84.md). -/
def Hub.stopWaiting (c : Hub) : Hub :=
  let c := c.put H.holdMark 0
  let c := c.when (c.get H.handoverAsked != 0) fun c => c.put H.reportFlags (withBit (c.get H.reportFlags) 3 true)
  (c.put H.reportFlags (withBit (c.get H.reportFlags) 2 false)).put H.handoverAsked 0

/-- An activation in states 02h–04h stops (R401): the standby pair runs the old image again; 00h, or 01h where it was deferred. A failed
handover stops it from state 05h too (R402). -/
def Hub.stopActivation (c : Hub) (refusal : Nat) : Hub :=
  let c := (c.dropConverted.put O.refusal refusal).put O.activationState (if c.flag H.deferred then 1 else 0)
  let c := c.put O.activate (if c.flag H.deferred then 2 else 0)
  c.stopWaiting

/-- After a change of a condition (R399–R401): a running preparation stops if one fails; a deferred activation shows what it waits for. -/
def Hub.activationCheck (c : Hub) : Hub :=
  let st := c.get O.activationState
  if 2 ≤ st ∧ st ≤ 4 then (if c.activationRefusal = 0 then c else c.stopActivation c.activationRefusal)
  else if st = 1 then c.put O.refusal c.activationRefusal
  else c

/-! ## The handover area (R402) -/

/-- A record with its CRC-32C. -/
def sealed (data : Bytes) : HandoverRecord := ⟨data, crc32c data⟩

/-- The record of the sessions, with their keys, counters and open blocks. -/
def Hub.sessionRecord (c : Hub) : HandoverRecord :=
  sealed (c.sessions.flatMap fun x =>
    let block := match x.block with | none => [] | some b => leBytes b.index 2 ++ leBytes b.sub 1 ++ leBytes b.offset 4 ++ b.bytes
    leBytes x.id 2 ++ leBytes (Level.rank x.level) 1 ++ leBytes x.key 32 ++ leBytes x.rxHigh 4 ++ leBytes x.tx 4 ++ leBytes block.length 4 ++ block)

/-- The key copies in the handover area are cleared (R358, R410): the record of the sessions, its second, stands without them. -/
def Hub.clearHandoverKeys (c : Hub) : Hub :=
  if c.handoverArea.isEmpty then c else { c with handoverArea := c.handoverArea.set 1 c.sessionRecord }

/-- A refusal reported as UPDATE_REFUSED (R398, R399). -/
def Hub.updateRefused (c : Hub) (data : Nat) : Hub := c.raise 88 255 data

end Sys2Proof.Machine
end

