-- ==== Sys2Proof/Machine/Keys.lean ====
section
/-! DEFINITION. The commands of the key store, tamper, fuses and random numbers (R342–R366). -/
namespace Sys2Proof.Machine

/-! ## Slots (R342–R351) -/

/-- A slot shown as its half in force has it (R343, R351): STATE, ENGINES, GEN and KCV. -/
def Hub.showSlot (c : Hub) (s : Nat) : Hub :=
  let h := c.get (H.commit s)
  let full := c.flag (H.halfFull s h)
  let c := (c.putB (O.keySlotState s) full).put (O.keySlotEngines s) (c.get (H.halfEngines s h))
  let c := (c.put (O.keySlotGen s) (c.get (H.halfGen s h))).put (O.keySlotKcv s) (if full then keyCheckValue (c.get (H.halfKey s h)) else 0)
  c.useSlot s

/-- An encrypted port takes the new Valid generation of its slot (R355): next-epoch keys where its parity differs from that of the key in use, else
none. A link in Retrain has no session to re-key, and one in Init takes the generation as it stands (R354, R366). -/
def Hub.portEpoch (c : Hub) (p ki par : Nat) : Hub :=
  if c.flag (H.crypt p) = false ∨ c.get (H.sessionKey p 0) = 0 ∨ (c.get (O.linkState p) ≠ 3 ∧ c.get (O.linkState p) ≠ 4) then c
  else if par ≠ c.get (H.keyParity p 0) then
    let c := c.put (H.sessionKey p 2) (linkSession ki (c.get (H.ownNonce p)) (c.get (H.peerNonce p)) par)
    let c := c.put (H.sessionKey p 3) (linkSession ki (c.get (H.peerNonce p)) (c.get (H.ownNonce p)) par)
    ((c.put (H.keyParity p 2) par).put (H.keyParity p 3) par).put (O.linkCryptoKeyState p) 3
  else c.dropNextKeys p

/-- The ports that name a slot take its new generation (R355), or have no key where it gives them none (R356). -/
def Hub.newEpoch (c : Hub) (slot : Nat) : Hub :=
  c.each ((List.range 24).filter fun p => c.get (O.linkCryptoKeySlot p) == slot) fun c p =>
    let c := c.keyCondition p
    match c.linkKey p with
    | none => c
    | some ki => c.portEpoch p ki (c.linkParity p)

/-- Step 1 of R344: a new generation, with its check, written to the half of a slot that is not in force. -/
def Hub.writeHalf (c : Hub) (s n : Nat) (full : Bool) (engines gen key : Nat) : Hub :=
  let c := (((c.put (H.halfKey s n) key).put (H.halfEngines s n) engines).put (H.halfGen s n) gen).putB (H.halfFull s n) full
  c.put (H.halfCheck s n) (generationCheck key engines gen)

/-- A new generation installed in a slot (R344): written to the half not in force, read back, and the commit marker. Sessions at the levels that
name the slot end after the response (R330). -/
def Hub.install (c : Hub) (s : Nat) (full : Bool) (engines key : Nat) : Hub :=
  let h := c.get (H.commit s)
  let n := 1 - h
  let c := c.writeHalf s n full engines ((c.get (H.halfGen s h) + 1) % 2 ^ 32) key
  if c.halfSound s n then
    let c := ((c.put (H.commit s) n).showSlot s).put (O.keySlotLoaded s) (c.get O.rtcSeconds)
    ((c.put O.keyOpState 1).count O.keyOps).markSlotLevels s
  else c

/-- VBAT stands below the threshold of its undervoltage detector, so no operation starts (R344, R366). -/
def Hub.vbatLow (c : Hub) : Bool := bit (c.get O.tamperActive) 6
/-- Key operations are refused with BUSY (R359, R366). -/
def Hub.keysBusy (c : Hub) : Bool := c.flag O.tamperLatch || c.vbatLow

/-- KEY_LOAD written (R346). -/
def Hub.writeKeyLoad (c : Hub) (t : Transport) (slot engines key : Nat) : Status × Hub :=
  if t = .t1s ∧ c.flag O.t1sKeyLoad = false then (.access, c)
  else if 63 < slot ∨ engines = 0 ∨ 16 ≤ engines then (.invalidValue, c)
  else if c.keysBusy then (.busy, c)
  else (.ok, (c.install slot true engines key).newEpoch slot)

/-- KEY_ERASE written (R347). -/
def Hub.writeKeyErase (c : Hub) (slot : Nat) : Status × Hub :=
  if 63 < slot then (.invalidValue, c) else if c.keysBusy then (.busy, c) else (.ok, (c.install slot false 0 0).newEpoch slot)

/-- The source of a derivation (R349): its key and the engine bits it carries. -/
def Hub.deriveSource (c : Hub) (source : Nat) : Option (Nat × Nat) :=
  if source = 0x40 then (if c.get O.rootState = 1 then some (c.get H.rootSecret, 255) else none)
  else (c.slotKey source 1).map fun k => (k, c.get (O.keySlotEngines source))

/-- KEY_DERIVE written (R348, R349). The reserved bits of ENGINES, which the root secret would carry, are not kept (R6). -/
def Hub.writeKeyDerive (c : Hub) (r : DeriveRequest) : Status × Hub :=
  let c := c.usedSlot r.source.toNat
  if c.keysBusy then (.busy, c)
  else match c.deriveSource r.source.toNat with
    | none => (.invalidValue, c)
    | some (key, carries) =>
      let ok := decide (r.dest.toNat ≤ 63) && r.dest != r.source && Nat.land r.engines.toNat carries == r.engines.toNat
        && decide (1 ≤ r.labelLen.toNat ∧ r.labelLen.toNat ≤ 16) && decide (r.contextLen.toNat ≤ 32)
      if !ok then (.invalidValue, c)
      else
        let out := leNat (kdf key (r.label.take r.labelLen.toNat) (r.context.take r.contextLen.toNat) 256)
        (.ok, (c.install r.dest.toNat true (r.engines.toNat % 16) out).newEpoch r.dest.toNat)

/-- ROOT_GENERATE written (R350, R365). -/
def Hub.writeRootGenerate (c : Hub) (value : Bool) : Status × Hub :=
  if !value then (.ok, c)
  else if c.get O.rootState = 1 ∨ c.keysBusy = true ∨ c.get O.rngState ≠ 1 then (.busy, c)
  else (.ok, (c.random.2.put H.rootSecret c.random.1).put O.rootState 1)

/-- ROOT_GENERATE: Owner. -/
def execRootGenerate (lvl : Level) (value : Bool) (s : State) : Host.Outcome State Fault Refusal :=
  onWrite (.rootGenerate lvl value) s fun c => c.request lvl ownerWrites fun c => c.writeRootGenerate value

/-- ADVANCE written (R355): the transmit direction of the port takes the next-epoch key from the next flit. The 00h that it reads as changes nothing (DESIGN
CHOICE, notes/assumptions/91.md). -/
def Hub.writeAdvance (c : Hub) (p value : Nat) : Status × Hub :=
  if value = 0 then (.ok, c)
  else if value ≠ 1 then (.invalidValue, c)
  else if c.get (O.linkCryptoKeyState p) ≠ 3 then (.busy, c)
  else (.ok, c.switchTransmit p)

/-- ADVANCE: Owner. -/
def execAdvance (lvl : Level) (port : Port) (value : BitVec 8) (s : State) : Host.Outcome State Fault Refusal :=
  onWrite (.advance lvl port value) s fun c => c.request lvl ownerWrites fun c => c.writeAdvance port value.toNat

/-! ## Tamper (R357–R361) -/

/-- Every slot, commit marker and the root secret zeroed (R358). -/
def Hub.zeroStore (c : Hub) : Hub :=
  let c := (List.range 64).foldl (fun c s =>
    [H.halfKey s 0, H.halfKey s 1, H.halfEngines s 0, H.halfEngines s 1, H.halfGen s 0, H.halfGen s 1, H.halfFull s 0, H.halfFull s 1,
     H.halfCheck s 0, H.halfCheck s 1, H.commit s, O.keySlotState s, O.keySlotEngines s, O.keySlotGen s, O.keySlotKcv s, O.keySlotLoaded s].foldl (fun c o => c.put o 0) c) c
  (c.put H.rootSecret 0).put O.rootState 0

/-- The link session and next-epoch keys of every port cleared (R358). -/
def Hub.clearLinkKeys (c : Hub) : Hub :=
  (List.range 24).foldl (fun c p => [0, 1, 2, 3].foldl (fun c k => c.put (H.sessionKey p k) 0) c) c

/-- The last step of the response (R358): sessions end, encrypted ports have no key and retrain with cause 04h, all as part of one fault in progress
(R382), and TAMPER is reported. -/
def Hub.tamperReport (c : Hub) : Hub :=
  let fault := c.reactions + 1
  let c := c.endSessions.raise 85 255 (c.get O.tamperCause)
  let c := c.each (List.range 24) fun c p =>
    let c := c.keyCondition p
    if c.flag (H.crypt p) = true ∧ (c.get (O.linkState p) = 3 ∨ c.get (O.linkState p) = 4) then c.retrainFor p 4 85 fault else c
  c.put H.tamperAtWake 0

/-- The response to a detection (R358, R359, R428). Under reset and in Moored and Stowed its last step runs once the management pair does. -/
def Hub.tamperResponse (c : Hub) (cause : Nat) : Hub :=
  let c := c.clearLinkKeys.zeroStore
  let c := ({ c with sessions := c.sessions.map fun x : Session => { x with key := 0 } } : Hub).clearHandoverKeys
  let c := ((c.put O.tamperLatch 1).put O.tamperCause cause).put O.tamperTime (c.get O.rtcSeconds)
  let c := ((c.count O.tamperEvents).put O.keystoreState 1).put (H.digestHeld 0) 0 |>.put (H.digestHeld 1) 0
  let c := (c.put (H.digest 0) 0).put (H.digest 1) 0
  if 3 ≤ c.get O.powerState ∨ c.flag H.running = false then c.put H.tamperAtWake 1 else c.tamperReport

/-- The sources that detect: their conditions have come to hold, and they are enabled (R357). -/
def Hub.tamperActing (c : Hub) (sources : Nat) : Nat :=
  Nat.land (Nat.land sources (511 - c.get O.tamperActive % 512)) (c.get O.tamperEnable)

/-- TAMPER_DETECT (R357): the conditions that now hold. Detection is the moment a condition of an enabled source comes to hold. -/
def execTamperDetect (sources : BitVec 9) (s : State) : Host.Outcome State Fault Refusal :=
  onHub s fun c =>
    let acting := c.tamperActing sources.toNat
    let c := c.put O.tamperActive sources.toNat
    (if acting = 0 then c else c.tamperResponse acting).activationCheck

/-- A key operation written (R344), and the tamper conditions that come to hold while it runs. A detection aborts it: the zeroing wins, KEY_OP_STATE reads
02h, and no response is sent (R358, R366). -/
def Hub.keyRequest (c : Hub) (lvl : Level) (tamper : Nat) (op : Hub → Status × Hub) : Hub :=
  let runs := !c.inRom && (rightOf ownerWrites lvl).writes && (op c).1 == .ok && tamper != 0
  let active := Nat.lor (c.get O.tamperActive) tamper
  if runs = false then c.request lvl ownerWrites op
  else if c.tamperActing tamper = 0 then ((c.request lvl ownerWrites op).put O.tamperActive active).activationCheck
  else (((c.put O.tamperActive active).put O.keyOpState 2).tamperResponse (c.tamperActing tamper)).activationCheck

/-- KEY_LOAD: Owner. -/
def execKeyLoad (lvl : Level) (transport : Transport) (slot engines : BitVec 8) (key : KeyOperand (BitVec 256)) (s : State) :
    Host.Outcome State Fault Refusal :=
  onWrite (.keyLoad lvl transport slot engines key) s fun c =>
    (c.keyRequest lvl key.tamper.toNat fun c => c.writeKeyLoad transport slot.toNat engines.toNat key.value.toNat).endMarked

/-- KEY_ERASE: Owner. -/
def execKeyErase (lvl : Level) (slot : KeyOperand (BitVec 8)) (s : State) : Host.Outcome State Fault Refusal :=
  onWrite (.keyErase lvl slot) s fun c => (c.keyRequest lvl slot.tamper.toNat fun c => c.writeKeyErase slot.value.toNat).endMarked

/-- KEY_DERIVE: Owner. -/
def execKeyDerive (lvl : Level) (req : KeyOperand DeriveRequest) (s : State) : Host.Outcome State Fault Refusal :=
  onWrite (.keyDerive lvl req) s fun c => (c.keyRequest lvl req.tamper.toNat fun c => c.writeKeyDerive req.value).endMarked

/-- TAMPER_CLEAR written (R360). -/
def Hub.writeTamperClear (c : Hub) (value : Bool) : Status × Hub :=
  if !value then (.ok, c)
  else if Nat.land (c.get O.tamperActive) (c.get O.tamperEnable) ≠ 0 then (.busy, c)
  else (.ok, (c.put O.tamperLatch 0).put O.keystoreState 0)

/-- TAMPER_CLEAR: Owner. -/
def execTamperClear (lvl : Level) (value : Bool) (s : State) : Host.Outcome State Fault Refusal :=
  onWrite (.tamperClear lvl value) s fun c => c.request lvl ownerWrites fun c => c.writeTamperClear value

/-- A tamper setting written (R361): enabling a source whose condition is present triggers the response at once. -/
def Hub.writeTamperConfig (c : Hub) (item : TamperItem) (v : Nat) : Status × Hub :=
  match item with
  | .enable =>
    let fresh := Nat.land (Nat.land (v % 512) (c.get O.tamperActive)) (511 - c.get O.tamperEnable % 512)
    let c := c.put O.tamperEnable (v % 512)
    (.ok, if fresh = 0 then c else c.tamperResponse fresh)
  | .polarity => (.ok, c.put O.tamperPolarity (v % 16))
  | .filter => (.ok, c.put O.tamperFilter v)

/-- TAMPER_CONFIG_WRITE: Owner. -/
def execTamperConfigWrite (lvl : Level) (item : TamperItem) (value : BitVec 16) (s : State) : Host.Outcome State Fault Refusal :=
  onWrite (.tamperConfigWrite lvl item value) s fun c => c.request lvl ownerWrites fun c => c.writeTamperConfig item value.toNat

/-! ## Fuses (R362, R364) -/

/-- Some Valid slot carries the IMAGE bit. -/
def Hub.hasImageSlot (c : Hub) : Bool := (List.range 64).any fun s => (c.slotKey s 2).isSome

/-- FUSE_PROGRAM written (R364): judged on the running image (R410). -/
def Hub.writeFuse (c : Hub) (code confirm : Nat) : Status × Hub :=
  let signer := c.get (O.slotInfoSigner (c.get O.runningSlot))
  if confirm ≠ 0xA5C3 ∨ code = 0 ∨ 3 < code then (.invalidValue, c)
  else if code = 1 then (if bit signer 1 then (.ok, c.put O.pkRevoked (withBit (c.get O.pkRevoked) 0 true)) else (.busy, c))
  else if code = 2 then (if bit signer 0 then (.ok, c.put O.pkRevoked (withBit (c.get O.pkRevoked) 1 true)) else (.busy, c))
  else if c.hasImageSlot then (.ok, c.putB O.cosignLock true) else (.busy, c)

/-- REVOKE_KEY_0: Owner. -/
def execRevokeKey0 (lvl : Level) (confirm : BitVec 16) (s : State) : Host.Outcome State Fault Refusal :=
  onWrite (.revokeKey0 lvl confirm) s fun c => c.request lvl ownerWrites fun c => c.writeFuse 1 confirm.toNat
/-- REVOKE_KEY_1: Owner. -/
def execRevokeKey1 (lvl : Level) (confirm : BitVec 16) (s : State) : Host.Outcome State Fault Refusal :=
  onWrite (.revokeKey1 lvl confirm) s fun c => c.request lvl ownerWrites fun c => c.writeFuse 2 confirm.toNat
/-- BLOW_COSIGN_LOCK: Owner. -/
def execBlowCosignLock (lvl : Level) (confirm : BitVec 16) (s : State) : Host.Outcome State Fault Refusal :=
  onWrite (.blowCosignLock lvl confirm) s fun c => c.request lvl ownerWrites fun c => c.writeFuse 3 confirm.toNat

/-! ## Random numbers (R365) -/

/-- RNG_HEALTH_FAIL. -/
def execRngHealthFail (s : State) : Host.Outcome State Fault Refusal :=
  onDomains s fun c => (((c.put O.rngState 2).count O.rngFails).raise 87).activationCheck

/-- The seed of a mesh LFSR: 15 bits, which must not all be 0 (R357). -/
def Hub.seedMesh (c : Hub) (k : Nat) : Hub := c.random.2.put (H.meshSeed k) (c.random.1 % (2 ^ 15 - 1) + 1)

/-- Both mesh lines seeded afresh, unless the generator has failed (R357, R365). -/
def Hub.seedMeshes (c : Hub) : Hub :=
  if c.get O.rngState = 2 then (c.put (H.meshSeed 0) 0).put (H.meshSeed 1) 0 else ((c.seedMesh 0).seedMesh 1).put H.meshAt c.now

/-- The level of MESH_A_OUT (0) or MESH_B_OUT (1): the bit of its LFSR at 8,192 bit/s since it was seeded. The spec gives the LFSR no polynomial, so
which sequence a seed starts is free (R357, notes/assumptions/5.md). -/
def Hub.meshOut (c : Hub) (k : Nat) : Bool := Config.meshBit k (c.get (H.meshSeed k)) ((c.now - c.get H.meshAt) * 8192 / 1000000000)

/-- RNG_HEALTH_PASS: values are drawn again, first the nonces of the ports that wait in Init, and mesh seeds that could not be. -/
def execRngHealthPass (s : State) : Host.Outcome State Fault Refusal :=
  onDomains s fun c =>
    let c := (c.each ((List.range 24).filter c.awaitsNonce) Hub.drawNonce).put O.rngState 1
    (c.when (c.get (H.meshSeed 0) == 0) Hub.seedMeshes).activationCheck

end Sys2Proof.Machine
end

