-- ==== Sys2Proof/Machine/Lanes.lean ====
section
/-! DEFINITION. The commands of the link lanes (R166–R188, R458): bring-up through training sets, gears, lane use, the detectors and
the eye scan. -/
namespace Sys2Proof.Machine

/-! ## Training sets (R172) -/

/-- Bytes 0–13 of a training set. -/
def tsBytes (r : TsRx) : Bytes :=
  [r.id, r.state, r.lane, r.flags, r.gears, r.gearSel, r.laneUse, r.eqReq, r.eqFom, r.holdReason] ++ leBytes r.count.toNat 2
    ++ [r.rxLanesOk, r.reserved]

/-- A training set is valid when ID, CHECK and every reserved field are correct (R172). -/
def tsValid (r : TsRx) : Bool :=
  r.id == 0x5A && headerCheck (tsBytes r) == r.check.toNat && bits r.lane.toNat 2 6 == 0 && bits r.flags.toNat 6 2 == 0
    && bits r.gearSel.toNat 3 5 == 0 && bits r.laneUse.toNat 3 5 == 0 && bits r.holdReason.toNat 3 5 == 0
    && bits r.rxLanesOk.toNat 3 5 == 0 && r.reserved == 0

/-! ## Transmitter coefficients (R177, R445) -/

/-- The presets: pre-cursor and post-cursor magnitudes; the main cursor takes 64 less both (R445). -/
def presets : List (Nat × Nat) := [(0, 16), (0, 10), (0, 12), (0, 6), (0, 0), (4, 0), (6, 0), (6, 12), (6, 8), (8, 0)]

/-- TX_COEF of magnitudes: each field two's complement, the gear above them. -/
def coefWord (pre post gear : Nat) : Nat :=
  (256 - pre) % 256 + 256 * (64 - pre - post) + 65536 * ((256 - post) % 256) + 2 ^ 24 * gear

/-- The magnitudes in a TX_COEF. -/
def coefPre (v : Nat) : Nat := (256 - bits v 0 8) % 256
def coefPost (v : Nat) : Nat := (256 - bits v 16 8) % 256

/-- A magnitude stepped: +1 of the coefficient lowers it, −1 raises it; none where the step leaves 0 to `top`. -/
def stepped (m top step : Nat) : Option Nat :=
  if step = 1 then (if m = 0 then none else some (m - 1)) else if step = 2 then (if m < top then some (m + 1) else none) else none

/-- A request of the partner applied to a transmit lane; one for an unlisted preset or beyond a range changes nothing (R177). -/
def Hub.applyEqReq (c : Hub) (p lane req : Nat) : Hub :=
  let gear := c.get (H.trainGear p)
  let preset := bits req 0 4
  let c := match presets[preset]? with
    | some (a, b) => (c.put (O.txCoef p lane) (coefWord a b gear)).put (O.txPreset p lane) preset
    | none => c
  let v := c.get (O.txCoef p lane)
  let step := bits req 6 2
  let fits : Nat → Nat → Bool := fun a b => decide (a + b ≤ 32)
  match bits req 4 2 with
  | 1 => match stepped (coefPre v) 12 step with
    | some a => if fits a (coefPost v) then c.put (O.txCoef p lane) (coefWord a (coefPost v) gear) else c
    | none => c
  | 2 => match stepped (coefPost v) 24 step with
    | some b => if fits (coefPre v) b then c.put (O.txCoef p lane) (coefWord (coefPre v) b gear) else c
    | none => c
  | _ => c

/-! ## Lane use and gears (R168–R171, R179) -/

/-- The partner's last training set showed it as Member (R172). -/
def Hub.peerMember (c : Hub) (p : Nat) : Bool := bit (c.get (H.peerLaneUse p)) 2
/-- This side is the deciding side (R168). -/
def Hub.deciding (c : Hub) (p : Nat) : Bool := c.isMember && !c.peerMember p
/-- Either side has reported crossed receive lanes (R169, R176). -/
def Hub.crossed (c : Hub) (p : Nat) : Bool := bit (c.get (O.laneStatus p 2)) 5 || bit (c.get (H.peerTsFlags p)) 4
/-- Either direction runs degraded (R169, R171). -/
def Hub.degradedLink (c : Hub) (p : Nat) : Bool := c.get (H.rxDegraded p) != 0 || c.get (H.txDegraded p) != 0

/-- A LANE_USE as this side's lanes take it: three sent, three received, or two each way. Downstream is away from the Cox. -/
def Hub.localUse (c : Hub) (p use : Nat) : Nat :=
  let below := c.get O.upstreamPort != p && !(c.peerMember p && !c.isMember)
  match use with | 1 => if below then 1 else 2 | 2 => if below then 2 else 1 | _ => 0

/-- The lane use the link agrees on: the deciding side's, or two each way where a crossing or a degraded direction forbids more
(R168, R169). -/
def Hub.agreedUse (c : Hub) (p : Nat) : Nat :=
  let asked := if c.deciding p then c.get (O.laneUse p) else if c.peerMember p && !c.isMember then bits (c.get (H.peerLaneUse p)) 0 2 else 0
  if c.crossed p || c.degradedLink p then 0 else c.localUse p asked

/-- LANE_USE_REFUSAL (R169): why a LANE_USE other than two each way is not in force. -/
def Hub.useRefusal (c : Hub) (p : Nat) : Nat :=
  if c.get (O.laneUse p) = 0 then 0
  else if !c.deciding p then 1
  else if c.crossed p then 2
  else if c.degradedLink p then 3
  else 0

/-- Lanes sent and received under the lane use in force (R168, R171). -/
def Hub.laneCounts (c : Hub) (p : Nat) : Nat × Nat :=
  match c.get (H.laneUseNow p) with
  | 1 => (3, 1)
  | 2 => (1, 3)
  | _ => (if c.get (H.txDegraded p) = 0 then 2 else 1, if c.get (H.rxDegraded p) = 0 then 2 else 1)

/-! ## The bring-up states (R173) -/

/-- Equalise to Lock, once this side's lanes meet R177 and the partner shows EQ_DONE (R173). -/
def Hub.tryLock (c : Hub) (p : Nat) : Hub :=
  if c.equalised p && bit (c.get (H.peerTsFlags p)) 1 then c.toLock p else c

/-- The retrain may be fast (R181): the gear, the lane use and the gear ceiling are what they were. -/
def Hub.fastRetrain (c : Hub) (p : Nat) : Bool :=
  c.get (O.linkState p) == 5 && !c.flag (H.fullRetrain p) && c.gearCeilingNow p == c.get (H.ceilingAt p) && c.agreedUse p == c.get (H.laneUseNow p)

/-- In the stake-boat hold (R173, R175): HOLD_REASON of both sides; with 16 TS sent with READY and 8 received with it in a row on some
lane, on to Polarity and order, or in a fast retrain to Equalise at the gear in force. -/
def Hub.tsInHold (c : Hub) (p l : Nat) (r : TsRx) : Hub :=
  let was := c.flag (H.readySent p)
  let c := (c.put (O.holdReason p) (16 * bits r.holdReason.toNat 0 3)).holdNow p r.ownHold.toNat
  let c := c.put (H.tsRun p l) (if bit r.flags.toNat 0 then min 8 (c.get (H.tsRun p l) + 1) else 0)
  if was = true ∧ c.flag (H.readySent p) = true ∧ 16 ≤ r.sent.toNat ∧ c.get (H.tsRun p l) = 8 then
    if c.fastRetrain p then c.toEqualise p (c.get (H.trainGear p)) else ((c.put (H.trainGear p) 1).putB (H.fullRetrain p) true).lanesTo p 4
  else c

/-- In Polarity and order (R173, R176): the inversion and the logical lane are taken; with 8 valid TS on every lane, or on one 20 µs
after the first, on to Equalise at Gear 1, or at the gear of a rate switch that turned a lane. -/
def Hub.tsInPolarity (c : Hub) (p l : Nat) (r : TsRx) : Hub :=
  let lane := rxLaneOf l
  let logical := bits r.lane.toNat 0 2
  let c := (c.put (O.laneStatus p lane) (withBit (c.get (O.laneStatus p lane)) 2 r.inverted)).put (O.logicalLane p lane) logical
  let c := c.when (l == 0) fun c => c.each [2, 3] fun c k => c.put (O.laneStatus p k) (withBit (c.get (O.laneStatus p k)) 5 (logical == 1))
  let c := c.put (H.tsRun p l) (min 8 (c.get (H.tsRun p l) + 1))
  let full := (c.rxInUse p).filter fun k => c.get (H.tsRun p k) == 8
  let c := c.when (!full.isEmpty && c.get (H.firstLaneAt p) == 0) fun c => c.put (H.firstLaneAt p) c.now
  if full.length = (c.rxInUse p).length ∨ (full ≠ [] ∧ c.get (H.firstLaneAt p) + 20000 ≤ c.now) then
    c.toEqualise p (max 1 (c.get (H.trainGear p)))
  else c

/-- In Lock (R178): a lane that holds lock is noted; with every lane in use locked, on to Deskew. -/
def Hub.tsInLock (c : Hub) (p l : Nat) (r : TsRx) : Hub :=
  let lane := rxLaneOf l
  let c := c.put (O.laneStatus p lane) (withBit (c.get (O.laneStatus p lane)) 1 r.locked)
  if (c.rxInUse p).all fun k => bit (c.get (O.laneStatus p (rxLaneOf k))) 1 then c.lanesTo p 7 else c

/-- In Deskew (R178): aligned, with the partner's DESKEWED, the gear's coefficients are kept (R177) and the lanes go on to Gear negotiation; a wake from
Lanes idle is complete without it (R183). -/
def Hub.tsInDeskew (c : Hub) (p : Nat) (r : TsRx) : Hub :=
  let c := c.putB (H.deskewed p) r.aligned
  if r.aligned && bit r.flags.toNat 3 then
    (if c.flag (H.idleWake p) then c.wakeDone p else (c.keepCoefs p (c.get (H.trainGear p))).lanesTo p 8)
  else c

/-- In Gear negotiation (R168–R171, R179): once this side has sent 16 TS with its GEAR_SEL and the partner's last 8 selected the
target, counted anew for each target, both act: trained at the gear and lane use in force, or a change of lane use, of gear, or of both. -/
def Hub.tsInNegotiation (c : Hub) (p : Nat) (r : TsRx) : Hub :=
  let target := c.targetGear p
  let was := c.get (H.selSent p)
  let c := (c.put (H.selSent p) target).put (H.selRun p) (if r.gearSel.toNat = target then min 8 ((if was = target then c.get (H.selRun p) else 0) + 1) else 0)
  if was = target ∧ c.get (H.selRun p) = 8 ∧ 16 ≤ r.sent.toNat ∧ c.get (H.rateTarget p) = 0 then
    let use := c.agreedUse p
    let c := c.put (O.laneUseRefusal p) (c.useRefusal p)
    if target = c.get (H.trainGear p) ∧ use = c.get (H.laneUseNow p) then
      (c.lanesUp p target (c.laneCounts p).1 (c.laneCounts p).2).reportTrained p
    else if target = c.get (H.trainGear p) then (c.put (H.laneUseNow p) use).lanesTo p 4
    else (c.put (H.rateTarget p) target).clearRuns p
  else c

/-- The lane of its own that the partner's RX_LANES_OK leaves a degraded direction (R171). -/
def Hub.degradeTx (c : Hub) (p : Nat) (r : TsRx) : Hub :=
  if bit r.flags.toNat 5 then c.put (H.txDegraded p) (if bit r.rxLanesOk.toNat 0 then 1 else 2) else c

/-- The transmit lane that carries a logical lane (R168). -/
def txLaneOf (k : Nat) : Nat := if 2 ≤ k then 3 else k

/-- TS_RECEIVE (R172–R180): a valid set advances the bring-up state it arrives in; an invalid one is ignored. The partner's failed gears
are added to this side's own (R180). -/
def execTsReceive (p : Port) (lane : Fin 3) (rx : TsRx) (s : State) : Host.Outcome State Fault Refusal :=
  onDomains s fun c =>
    let st := c.get (O.trainState p)
    if tsValid rx && decide (3 ≤ st ∧ st ≤ 8) then
      let failed := bits rx.gears.toNat 4 4
      let c := ((c.put (H.peerTsFlags p) rx.flags.toNat).put (H.peerLaneUse p) rx.laneUse.toNat).put (H.peerGears p) (bits rx.gears.toNat 0 4)
      let c := (c.put (H.peerFailed p) (Nat.lor (c.get (H.peerFailed p)) failed)).put (O.gearsFailed p) (Nat.lor (c.get (O.gearsFailed p)) failed)
      let c := c.degradeTx p rx
      (match st with
      | 3 => c.tsInHold p lane rx
      | 4 => c.tsInPolarity p lane rx
      | 5 => (c.applyEqReq p (txLaneOf (bits rx.lane.toNat 0 2)) rx.eqReq.toNat).tryLock p
      | 6 => c.tsInLock p lane rx
      | 7 => c.tsInDeskew p rx
      | _ => c.tsInNegotiation p rx).sendTs p
    else if rx.id == 0x5A && (st == 9 || st == 10) then c.strayBlock p
    else c

/-- RECEIVER_DETECT (R173): a termination on a TX lane in Detect takes the lanes to Wake. -/
def execReceiverDetect (p : Port) (tx0 tx1 : Bool) (s : State) : Host.Outcome State Fault Refusal :=
  onDomains s fun c => if c.get (O.trainState p) = 1 ∧ (tx0 || tx1) = true then (c.lanesTo p 2).emit (.laneWake p) else c

/-- WAKE_BURSTS_RECEIVED (R173, R175): the lanes enter the stake-boat hold and start TS at Gear 1, with READY where nothing is unmet: the PLL and the
power as last seen. -/
def execWakeBurstsReceived (p : Port) (s : State) : Host.Outcome State Fault Refusal :=
  onDomains s fun c =>
    if c.get (O.trainState p) = 2 then (((c.lanesTo p 3).put (O.holdReason p) 0).holdNow p (c.get (H.ownHold p))).sendTs p else c

/-- WAKE_TIMEOUT (R173). -/
def execWakeTimeout (p : Port) (s : State) : Host.Outcome State Fault Refusal :=
  onDomains s fun c => if c.get (O.trainState p) = 2 then c.toDetect p else c

/-- A single coefficient step requested next, beside a preset or Fh: which coefficient and which way the spec leaves to the receiver, so both are
free (R177, notes/assumptions/5.md). -/
def Hub.requestStep (c : Hub) (p l preset : Nat) : Hub :=
  let d := c.draw
  d.2.put (H.eqReq p l) (preset + 16 * (1 + d.1 % 2) + 64 * (1 + d.1 / 2 % 2))

/-- EQ_STEP (R177): the receiver's interval ends with a figure of merit. In the search over presets the best is kept and the next is
requested; single steps start from it and go on while the figure rises. -/
def execEqStep (p : Port) (lane : Fin 3) (fom : BitVec 8) (s : State) : Host.Outcome State Fault Refusal :=
  onDomains s fun c =>
    let l := lane.val
    if c.get (O.trainState p) = 5 ∧ l ∈ c.rxInUse p then
      let f := fom.toNat
      let best := c.get (H.eqBest p l)
      let was := c.get (H.eqPreset p l)
      let c := c.put (H.fom p l) f
      let c := match c.get (H.eqSteps p l) with
        | 0 =>
          let c := if best < f ∨ c.get (H.eqBestPreset p l) = 15 then (c.put (H.eqBest p l) f).put (H.eqBestPreset p l) was else c
          if was < 9 then (c.put (H.eqPreset p l) (was + 1)).put (H.eqReq p l) (was + 1)
          else
            let b := c.get (H.eqBestPreset p l)
            ((c.put (H.eqPreset p l) b).put (H.eqSteps p l) 1).requestStep p l b
        | 1 => if best < f then (c.put (H.eqBest p l) f).requestStep p l 0x0F else (c.put (H.eqSteps p l) 2).put (H.eqReq p l) 0x0F
        | _ => c
      (c.tryLock p).sendTs p
    else c

/-- RATE_SWITCH (R173, R176): the switch to the gear both sides selected completes. A lane that turns with it goes through Polarity
and order first. -/
def execRateSwitch (p : Port) (s : State) : Host.Outcome State Fault Refusal :=
  onDomains s fun c =>
    let g := c.get (H.rateTarget p)
    if c.get (O.trainState p) = 8 ∧ g ≠ 0 then
      let use := c.agreedUse p
      let turns := use != c.get (H.laneUseNow p) && (use == 2 || c.get (H.laneUseNow p) == 1)
      let c := ((c.put (H.rateTarget p) 0).put (H.laneUseNow p) use).put (H.trainGear p) g
      (if turns then c.lanesTo p 4 else c.toEqualise p g).sendTs p
    else c

/-- HOLD_LIMIT_EXPIRY (R173, R175). -/
def execHoldLimitExpiry (p : Port) (s : State) : Host.Outcome State Fault Refusal :=
  onDomains s fun c => if c.get (O.trainState p) = 3 then (c.trainFail p).toDetect p else c

/-- POLARITY_TIMEOUT (R173). -/
def execPolarityTimeout (p : Port) (s : State) : Host.Outcome State Fault Refusal :=
  onDomains s fun c => if c.get (O.trainState p) = 4 then (c.trainFail p).toDetect p else c

/-- EQUALISE_LIMIT (R177, R180): the lanes that miss EQ_FOM_MIN fail. -/
def execEqualiseLimit (p : Port) (s : State) : Host.Outcome State Fault Refusal :=
  onDomains s fun c =>
    if c.get (O.trainState p) = 5 then
      (c.bringUpFail p ((c.rxInUse p).filter fun l => decide (c.get (H.fom p l) < c.get (O.eqFomMin p))) 6).sendTs p
    else c

/-- LOCK_TIMEOUT (R173, R180): 100 µs pass in Lock, where the lanes without lock fail, or in Deskew. -/
def execLockTimeout (p : Port) (s : State) : Host.Outcome State Fault Refusal :=
  onDomains s fun c =>
    if c.get (O.linkState p) = 4 then c
    else if c.get (O.trainState p) = 6 then
      (c.bringUpFail p ((c.rxInUse p).filter fun l => !bit (c.get (O.laneStatus p (rxLaneOf l))) 1) 7).sendTs p
    else if c.get (O.trainState p) = 7 then (c.bringUpFail p [] 8).sendTs p
    else c

/-- GEAR_NEGOTIATION_TIMEOUT (R173, R180). -/
def execGearNegotiationTimeout (p : Port) (s : State) : Host.Outcome State Fault Refusal :=
  onDomains s fun c => if c.get (O.trainState p) = 8 ∧ c.get (H.rateTarget p) = 0 then (c.bringUpFail p [] 8).sendTs p else c

/-- GEAR_STEP_LIMIT (R180): a side at a higher gear falls back once the limit has passed without Trained. -/
def execGearStepLimit (p : Port) (s : State) : Host.Outcome State Fault Refusal :=
  onDomains s fun c =>
    if 2 ≤ c.get (H.trainGear p) ∧ 4 ≤ c.get (O.trainState p) ∧ c.get (O.trainState p) ≤ 8 ∧ c.get (O.linkState p) ≠ 4 then
      (c.bringUpFail p [] 8).sendTs p
    else c

/-- LANES_IDLE_WAKE (R183): the lanes relock and report trained without gear negotiation. -/
def execLanesIdleWake (p : Port) (s : State) : Host.Outcome State Fault Refusal := onDomains s fun c => c.wakeDone p

/-! ## Detectors and eye scan (R185, R186, R188) -/

/-- A detector of a lane deasserts (R185): the signal is present, or the lane locked, again. -/
def Hub.detectorDown (c : Hub) (p l kind : Nat) : Hub :=
  if 2 ≤ l ∨ c.receives p l = true then
    let c := c.when (kind == 1) fun c => c.put (H.headerWindow p (if l = 1 then 2 else l - 2)) 0
    (c.put (H.detector p l kind) 0).put (O.laneStatus p l) (withBit (c.get (O.laneStatus p l)) kind true)
  else c

/-- LOS_ASSERT. -/
def execLosAssert (p : Port) (lane : Lane) (s : State) : Host.Outcome State Fault Refusal := onDomains s fun c => c.detectorUp p lane 0
/-- LOL_ASSERT. -/
def execLolAssert (p : Port) (lane : Lane) (s : State) : Host.Outcome State Fault Refusal := onDomains s fun c => c.detectorUp p lane 1
/-- LOS_DEASSERT. -/
def execLosDeassert (p : Port) (lane : Lane) (s : State) : Host.Outcome State Fault Refusal := onDomains s fun c => c.detectorDown p lane 0
/-- LOL_DEASSERT. -/
def execLolDeassert (p : Port) (lane : Lane) (s : State) : Host.Outcome State Fault Refusal := onDomains s fun c => c.detectorDown p lane 1

/-- EYE_SCAN_DONE (R188): three scans in a row below MARGIN_ALARM raise the alarm, and with RETUNE_AUTO a retrain at the end of the
port's next drive window. -/
def execEyeScanDone (p : Port) (lane : Lane) (height width : BitVec 16) (s : State) : Host.Outcome State Fault Refusal :=
  onDomains s fun c =>
    if c.get (O.trainState p) = 9 ∧ c.receives p lane = true ∧ bit (c.get (O.laneStatus p lane)) 3 = true then
      let c := (c.put (O.eyeHeight p lane) height.toNat).put (O.eyeWidth p lane) width.toNat
      let low := decide (c.get (O.marginAlarm p) ≠ 0 ∧ height.toNat < c.get (O.marginAlarm p))
      let run := if low then c.get (H.lowScans p lane) + 1 else 0
      if run = 3 then
        (((c.put (H.lowScans p lane) 0).count (O.marginAlarms p)).raise 43 p lane).when (c.flag (O.retuneAuto p)) fun c =>
          c.putB (H.retunePending p) true
      else c.put (H.lowScans p lane) run
    else c

/-! ## Settings (R168, R170, R174, R175, R184) -/

/-- LINK_ENABLE written (R174, R460): false takes the lanes Off and the link Down with the effects of a port reset on the link and the
switch; true starts bring-up. -/
def Hub.writeLinkEnable (c : Hub) (p : Nat) (value : Bool) : Status × Hub :=
  if value then (.ok, (c.putB (O.linkEnable p) true).lanesStart p)
  else
    let c := c.putB (O.linkEnable p) false
    let c := if c.get (O.trainState p) = 11 then c else c.lanesOff p
    (.ok, (c.linkDown p).flushPort p)

/-- LINK_ENABLE_WRITE: Engineer and Owner. -/
def execLinkEnableWrite (lvl : Level) (p : Port) (value : Bool) (s : State) : Host.Outcome State Fault Refusal :=
  onWrite (.linkEnableWrite lvl p value) s fun c => c.request lvl engineerWrites fun c => c.writeLinkEnable p value

/-- GEAR_MAX written (R179, R184): below the gear in force it retrains the link. -/
def Hub.writeGearMax (c : Hub) (p v : Nat) : Status × Hub :=
  if v < 1 ∨ 4 < v then (.invalidValue, c)
  else
    let c := (c.put (O.gearMax p) v).showCeiling p
    (.ok, if v < c.get (H.trainGear p) then c.gearRetrain p else c)

/-- GEAR_MAX_WRITE: Engineer and Owner. -/
def execGearMaxWrite (lvl : Level) (p : Port) (value : BitVec 8) (s : State) : Host.Outcome State Fault Refusal :=
  onWrite (.gearMaxWrite lvl p value) s fun c => c.request lvl engineerWrites fun c => c.writeGearMax p value.toNat

/-- LANE_USE written (R168, R170): at the deciding side of an Active link a use other than the one in force retrains it. -/
def Hub.writeLaneUse (c : Hub) (p v : Nat) : Status × Hub :=
  if 2 < v then (.invalidValue, c)
  else
    let c := c.put (O.laneUse p) v
    (.ok, if c.get (O.linkState p) == 3 && c.deciding p && c.localUse p v != c.get (H.laneUseNow p) then c.gearRetrain p else c)

/-- LANE_USE_WRITE: Engineer and Owner. -/
def execLaneUseWrite (lvl : Level) (p : Port) (value : BitVec 8) (s : State) : Host.Outcome State Fault Refusal :=
  onWrite (.laneUseWrite lvl p value) s fun c => c.request lvl engineerWrites fun c => c.writeLaneUse p value.toNat

/-- READY_HOLD written (R175): READY is withheld, and HOLD_REASON names it, while it is true. -/
def Hub.writeReadyHold (c : Hub) (p : Nat) (value : Bool) : Status × Hub :=
  let c := c.putB (O.readyHold p) value
  (.ok, if 3 ≤ c.get (O.trainState p) ∧ c.get (O.trainState p) ≤ 8 then (c.holdNow p (c.get (H.ownHold p))).sendTs p else c)

/-- READY_HOLD_WRITE: Engineer and Owner. -/
def execReadyHoldWrite (lvl : Level) (p : Port) (value : Bool) (s : State) : Host.Outcome State Fault Refusal :=
  onWrite (.readyHoldWrite lvl p value) s fun c => c.request lvl engineerWrites fun c => c.writeReadyHold p value

end Sys2Proof.Machine
end

