-- ==== Sys2Proof/Machine/TestLoops.lean ====
section
/-! DEFINITION. The commands of the test loops (R189–R194): test modes, checkers, error injection, bit slip and capture. -/
namespace Sys2Proof.Machine

/-- Bits per nanosecond of a lane at a gear (R166). -/
def gearRate (g : Nat) : Nat := match g with | 1 => 10 | 2 => 20 | 3 => 40 | 4 => 64 | _ => 0

/-! ## Patterns (R190, R191) -/

/-- x times a polynomial over GF(2), modulo x^n + x^m + 1. -/
def timesX (n m v : Nat) : Nat := if v.testBit (n - 1) then Nat.xor (2 * v % 2 ^ n) (2 ^ m + 1) else 2 * v

/-- A product of polynomials modulo x^n + x^m + 1, by the bits of the second from the highest down. -/
def polyMul (n m a b : Nat) : Nat :=
  (List.range n).foldr (fun i acc => Nat.xor (timesX n m acc) (if bit b i then a else 0)) 0

/-- x to the power k modulo x^n + x^m + 1, for k below 2^fuel. -/
def polyPow (n m : Nat) : Nat → Nat → Nat
  | 0, _ => 1
  | f + 1, k =>
    let h := polyPow n m f (k / 2)
    let sq := polyMul n m h h
    if k % 2 = 1 then timesX n m sq else sq

/-- Bit k of the sequence of x^n + x^m + 1 seeded with all ones (R190): each bit is the sum of those n and m places before it, so bit k is the
parity of x^k modulo x^n + x^(n − m) + 1. The seed's bits come out first (DESIGN CHOICE, notes/assumptions/78.md). -/
def prbsBit (n m k : Nat) : Bool :=
  let v := polyPow n (n - m) 64 k
  (List.range n).foldl (fun acc i => acc != bit v i) false

/-- The marker of Regatta (R191). -/
def regattaMarkerBytes : Bytes := [0x0F, 0x0F, 0xE5, 0x1B, 0x72, 0x72, 0xA9, 0x36]

/-- Bit k of Regatta, the first frame's counter given (R191). `pam`: Gears 3 and 4. -/
def regattaBit (pam : Bool) (base k : Nat) : Bool :=
  let f := k / 8192
  let i := k % 8192
  let n := (base + f) % 65536
  if i < 64 then bit (leNat regattaMarkerBytes) i
  else if i < 80 then bit n (i - 64)
  else if i < 96 then !bit n (i - 80)
  else if i < 160 then false
  else if i < 224 then (if pam then i % 2 == 0 else true)
  else if i < 736 then (if pam then i % 4 == 2 else i % 2 == 0)
  else if i < 1248 then (if pam then [3, 4, 5, 6, 8, 10, 11, 13].contains ((i - 736) % 16) else decide ((i - 736) % 8 < 4))
  else prbsBit 31 28 (6944 * f + (i - 1248))

/-- Bit k of the pattern a generator sends (R190). -/
def patternBit (pattern : Nat) (pam : Bool) (base k : Nat) : Bool :=
  match pattern with
  | 0 => prbsBit 7 6 k
  | 1 => prbsBit 15 14 k
  | 2 => prbsBit 31 28 k
  | _ => regattaBit pam base k

/-- Bit k of what transmit lane l of a port in test sends; the generator of TX1 starts 1,024 bits after that of TX0 (R190). -/
def Hub.generated (c : Hub) (p l k : Nat) : Bool :=
  patternBit (c.get (O.testPattern p)) (decide (3 ≤ c.get (O.testGear p))) (c.get (H.frameBase p l)) (if l = 1 then k - 1024 else k)

/-- Bits the generators of a port have sent since the test mode began. -/
def Hub.bitsSent (c : Hub) (p : Nat) : Nat := gearRate (c.get (O.testGear p)) * (c.now - c.get (H.testAt p))

/-- The next word of a number that a receive lane takes from its looped transmit lane (R189, R194): words follow one another, 128 to a frame, from a
boundary that is free when the loop closes and that BITSLIP delays. -/
def Hub.loopedWord (c : Hub) (p l w : Nat) : Nat :=
  let n := c.bitsSent p / 64 + 1
  let k := 64 * (n + (w + 128 - n % 128) % 128) + c.get (H.wordPhase p l) + c.get (H.wordDelay p l)
  ((List.range 64).map fun i => if c.generated p (l - 2) (k + i) then 2 ^ i else 0).sum

/-- The error counter of the Regatta segment that a bit of a frame falls in (R191, R192). -/
def segmentCounter (p l i : Nat) : Obj :=
  if i < 96 then O.errFrame p l else if i < 224 then O.errRun p l else if i < 736 then O.errNyquist p l
  else if i < 1248 then O.errLadder p l else O.errRandom p l

/-! ## Checkers (R192) -/

/-- Bits a locked checker has compared since it locked (R192). -/
def Hub.chkSince (c : Hub) (p l : Nat) : Nat :=
  if c.flag (O.chkLocked p l) then gearRate (c.get (O.testGear p)) * (c.now - c.get (H.chkLockAt p l)) else 0

/-- The Regatta segment counters of a lane, each with the least number of errors that 4 frames with more than 8 wrong marker bits put in it (R192). -/
def segmentMinima (p l : Nat) : List (Obj × Nat) :=
  [(O.errFrame p l, 36), (O.errRun p l, 0), (O.errNyquist p l, 0), (O.errLadder p l, 0), (O.errRandom p l, 0)]

/-- A locked checker compares what its line brings: in near-end loopback the injector's errors alone are there, and are counted already (R189, R192). -/
def Hub.checksLine (c : Hub) (p l : Nat) : Bool :=
  c.flag (O.chkLocked p l) && (c.get (O.testMode p) == 1 || c.get (O.testMode p) == 3)

/-- The mismatches that a locked checker has met on its line since it locked, segment by segment for Regatta and as one number for PRBS, which has no
segments: whether a bit compared is one, and in which segment, the line decides, so it is free (R192, notes/assumptions/5.md). -/
def Hub.lineErrorsOf (c : Hub) (p l : Nat) : List Nat :=
  let kinds := if c.get (O.testPattern p) = 3 then 5 else 1
  if !c.checksLine p l then []
  else (List.range kinds).map fun k =>
    traceSum (fun i => if Config.freeTrace (c.get (H.chkSeed p l)) i % (kinds + 1) = k + 1 then 1 else 0) (c.chkSince p l)

/-- A locked checker counts from now on. -/
def Hub.chkStart (c : Hub) (p l : Nat) : Hub := (({ c with draws := c.draws + 1 } : Hub).put (H.chkSeed p l) c.draws).put (H.chkLockAt p l) c.now

/-- CHK_ERRORS as a read shows it: every mismatch, in whichever segment it falls (R192). -/
def Hub.lineErrorsNow (c : Hub) (p l : Nat) : Nat := (c.get (O.chkErrors p l) + (c.lineErrorsOf p l).sum) % 2 ^ 64

/-- The counter of Regatta segment k as a read shows it; PRBS has no segments (R192). -/
def Hub.segmentErrorsNow (c : Hub) (p l k : Nat) (o : Obj) : Nat :=
  (c.get o + if c.get (O.testPattern p) = 3 then (c.lineErrorsOf p l).getD k 0 else 0) % 2 ^ 64

/-- A checker drops lock, with the bits it compared and the mismatches it met on its line counted so far (R192). -/
def Hub.chkDrop (c : Hub) (p l : Nat) : Hub :=
  if c.flag (O.chkLocked p l) then
    let errs := c.lineErrorsOf p l
    let d := c.each (if c.get (O.testPattern p) = 3 then (segmentMinima p l).zip errs else []) fun c x => c.count x.1.1 x.2
    ((d.count (O.chkErrors p l) errs.sum).count (O.chkBits p l) (c.chkSince p l)).putB (O.chkLocked p l) false
  else c

/-- The lanes leave Test for Off, and leave Off at once where LINK_ENABLE has been written true and the mode is entered (R173, R189). -/
def Hub.testOff (c : Hub) (p : Nat) : Hub :=
  if c.get (O.trainState p) = 11 then (((c.each [2, 3] fun c l => c.chkDrop p l).put (O.testMode p) 0).lanesOff p).lanesStart p else c

/-- A test mode begins (R189, R190): the transmitters stand at preset 4, and the generators start. -/
def Hub.startTest (c : Hub) (p v : Nat) : Hub :=
  let c := (c.put (O.testMode p) v).put (H.testAt p) c.now
  let c := c.each [0, 1] fun c l =>
    let d := c.draw
    ((d.2.put (H.frameBase p l) d.1).put (O.txCoef p l) (coefWord 0 0 (c.get (O.testGear p)))).put (O.txPreset p l) 4
  c.each [2, 3] fun c l =>
    let d := c.draw
    (d.2.put (H.wordPhase p l) (d.1 % 8192)).put (H.wordDelay p l) 0

/-- TEST_PATTERN or TEST_GEAR is about to change while a test mode runs: what the checkers have counted so far stands (DESIGN CHOICE,
notes/assumptions/93.md). -/
def Hub.testChanging (c : Hub) (p : Nat) (changes : Bool) : Hub :=
  c.when (changes && c.get (O.trainState p) == 11) fun c => c.each [2, 3] fun c l => c.chkDrop p l

/-- TEST_PATTERN or TEST_GEAR has changed: a running test mode goes on with it from its start (R189; DESIGN CHOICE, notes/assumptions/93.md). -/
def Hub.testChanged (c : Hub) (p : Nat) (changes : Bool) : Hub :=
  c.when (changes && c.get (O.trainState p) == 11) fun c => c.startTest p (c.get (O.testMode p))

/-- TEST_NO_ATTACH has been written: modes 01h and 03h run only with the mode entered or with it (R189). -/
def Hub.noAttachWritten (c : Hub) (p : Nat) : Hub :=
  c.when (!c.flag (O.testNoAttach p) && !c.modeEntered p && (c.get (O.testMode p) == 1 || c.get (O.testMode p) == 3)) fun c => c.testOff p

/-- TEST_MODE written (R189): a mode is entered from Off with LINK_ENABLE false, 01h and 03h only with the mode entered or
TEST_NO_ATTACH; 00h returns the lanes to Off. -/
def Hub.writeTestMode (c : Hub) (p v : Nat) : Status × Hub :=
  if 3 < v then (.invalidValue, c)
  else if v = 0 then (.ok, c.testOff p)
  else if c.get (O.trainState p) = 0 ∧ c.flag (O.linkEnable p) = false
      ∧ (v = 2 ∨ c.modeEntered p = true ∨ c.flag (O.testNoAttach p) = true) then
    (.ok, (c.startTest p v).lanesTo p 11)
  else (.busy, c)

/-- TEST_MODE_WRITE: Engineer and Owner. -/
def execTestModeWrite (lvl : Level) (p : Port) (value : BitVec 8) (s : State) : Host.Outcome State Fault Refusal :=
  onWrite (.testModeWrite lvl p value) s fun c => c.request lvl engineerWrites fun c => c.writeTestMode p value.toNat

/-- TEST_MODE 01h or 02h is running (R194). -/
def Hub.slipMode (c : Hub) (p : Nat) : Bool := c.get (O.testMode p) == 1 || c.get (O.testMode p) == 2

/-- The rights row ro/ro/wo/wo. -/
abbrev engineerWriteOnly : List Right := [.ro, .ro, .wo, .wo]

/-- BITSLIP written (R194): the word boundary of a receive lane moves by k bits, or 2k at PAM4 gears, and a locked checker loses lock. -/
def Hub.writeBitslip (c : Hub) (p l v : Nat) : Status × Hub :=
  if v = 0 then (.invalidValue, c)
  else if !c.slipMode p then (.busy, c)
  else if l < 2 then (.ok, c)
  else
    let k := if 3 ≤ c.get (O.testGear p) then 2 * v else v
    (.ok, (c.put (H.wordDelay p l) ((c.get (H.wordDelay p l) + k) % 8192)).chkDrop p l)

/-- BITSLIP. -/
def execBitslip (lvl : Level) (p : Port) (lane : Lane) (value : BitVec 8) (s : State) : Host.Outcome State Fault Refusal :=
  onWrite (.bitslip lvl p lane value) s fun c => c.request lvl engineerWriteOnly fun c => c.writeBitslip p lane value.toNat

/-- CAPTURE_AT written (R194): CAPTURE holds the next word of that number, which the line supplies, and in near-end loopback the matching transmit
lane. -/
def Hub.writeCaptureAt (c : Hub) (p l v word : Nat) : Status × Hub :=
  if 127 < v then (.invalidValue, c)
  else if !c.slipMode p then (.busy, c)
  else (.ok, (c.put (O.captureAt p l) v).when (decide (2 ≤ l)) fun c => c.put (O.capture p l) (if c.get (O.testMode p) = 2 then c.loopedWord p l v else word))

/-- CAPTURE_AT_WRITE: Engineer and Owner. -/
def execCaptureAtWrite (lvl : Level) (p : Port) (lane : Lane) (value : BitVec 8) (word : BitVec 64) (s : State) :
    Host.Outcome State Fault Refusal :=
  onWrite (.captureAtWrite lvl p lane value word) s fun c => c.request lvl engineerWrites fun c => c.writeCaptureAt p lane value.toNat word.toNat

/-- INJECT_MODE written (R193). -/
def Hub.writeInjectMode (c : Hub) (p l v : Nat) : Status × Hub :=
  if 2 < v then (.invalidValue, c) else (.ok, c.put (O.injectMode p l) v)

/-- INJECT_MODE_WRITE: Engineer and Owner. -/
def execInjectModeWrite (lvl : Level) (p : Port) (lane : Lane) (value : BitVec 8) (s : State) : Host.Outcome State Fault Refusal :=
  onWrite (.injectModeWrite lvl p lane value) s fun c => c.request lvl engineerWrites fun c => c.writeInjectMode p lane value.toNat

/-- A wrong marker bit of Regatta frame f: the wrong bits of the frame are counted, and the frames in a row before it with more than 8 (R192). -/
def Hub.markerError (c : Hub) (p l f : Nat) : Hub :=
  if c.get (H.markerFrame p l) = f then c.count (H.markerBits p l)
  else
    let run := if c.get (H.markerFrame p l) + 1 = f ∧ 8 < c.get (H.markerBits p l) then min 3 (c.get (H.markerRun p l) + 1) else 0
    ((c.put (H.markerFrame p l) f).put (H.markerBits p l) 1).put (H.markerRun p l) run

/-- Error bits of a Regatta frame counted (R192): each in CHK_ERRORS and in the counter of its segment. A counter that arrives wrong is followed, so it
makes two steps other than +1, there and back, each counted once (DESIGN CHOICE, notes/assumptions/78.md). The checker drops lock at the marker bit that
makes the fourth frame in a row have more than 8 wrong ones. -/
def Hub.regattaErrors (c : Hub) (p l burst : Nat) : Hub :=
  let at_ := (List.range burst).map fun i => c.bitsSent p + 8192 - (if l = 3 then 1024 else 0) + i
  let places := at_.map fun i => i % 8192
  let inCounter : Nat → Bool := fun i => decide (64 ≤ i ∧ i < 80)
  let c := c.when (places.any inCounter) fun c => (c.count (O.errFrame p l) 2).count (O.chkErrors p l) 2
  let c := c.each (places.filter fun i => !inCounter i) fun c i => (c.count (segmentCounter p l i)).count (O.chkErrors p l)
  let c := c.each ((at_.filter fun i => decide (i % 8192 < 64)).map fun i => i / 8192) fun c f => c.markerError p l f
  c.when (decide (8 < c.get (H.markerBits p l) ∧ 3 ≤ c.get (H.markerRun p l))) fun c => c.chkDrop p l

/-- Error bits counted by a locked checker in near-end loopback (R192). A PRBS checker that meets more than 32 within 1,024 bits drops lock. -/
def Hub.loopErrors (c : Hub) (p l burst : Nat) : Hub :=
  if c.get (O.testPattern p) = 3 then c.regattaErrors p l burst
  else
    let c := c.count (O.chkErrors p l) burst
    let n := c.get (H.burstNext p l)
    let c := ((c.put (H.burstAt p l n) c.now).put (H.burstBits p l n) burst).put (H.burstNext p l) ((n + 1) % 32)
    let near := (List.range 32).filter fun k => decide (c.get (H.chkLockAt p l) ≤ c.get (H.burstAt p l k)
      ∧ gearRate (c.get (O.testGear p)) * (c.now - c.get (H.burstAt p l k)) < 1024)
    c.when (decide (32 < (near.map fun k => c.get (H.burstBits p l k)).sum)) fun c => c.chkDrop p l

/-- INJECT (R193): the injector of a transmit lane inverts INJECT_BURST bits in a test mode or on an Active link; a single injection
ends its mode. In near-end loopback a locked checker of the matching lane counts the bits (R192). -/
def execInject (p : Port) (lane : Lane) (s : State) : Host.Outcome State Fault Refusal :=
  onDomains s fun c =>
    let l := lane.val
    let mode := c.get (O.injectMode p l)
    let sends := decide (l < 2) != bit (c.get (O.laneStatus p l)) 4
    if mode ≠ 0 ∧ sends = true ∧ (c.get (O.trainState p) = 11 ∨ c.get (O.linkState p) = 3) then
      let burst := c.get (O.injectBurst p l)
      let c := (c.count (O.injectCount p l)).emit (.inject p l burst)
      let c := c.when (mode == 1) fun c => c.put (O.injectMode p l) 0
      c.when (c.get (O.testMode p) == 2 && decide (l < 2) && c.flag (O.chkLocked p (l + 2))) fun c => c.loopErrors p (l + 2) burst
    else c

/-- CHECKER_LOCK (R192): the checker of a receive lane in a test mode locks and starts counting. -/
def execCheckerLock (p : Port) (lane : Lane) (s : State) : Host.Outcome State Fault Refusal :=
  onDomains s fun c =>
    if c.get (O.trainState p) = 11 ∧ 2 ≤ lane.val ∧ c.flag (O.chkLocked p lane) = false then
      (((c.putB (O.chkLocked p lane) true).chkStart p lane).put (H.markerBits p lane) 0).put (H.markerRun p lane) 0
    else c

/-- The errors of the line that made a locked checker drop lock are counted beside those met before (R192): how many and in which segments no command
says, so the counts are free above what the loss takes, more than 32 bits of a PRBS, or more than 8 of the marker in each of 4 Regatta frames (notes/assumptions/5.md). -/
def Hub.lineErrors (c : Hub) (p l : Nat) : Hub :=
  if c.get (O.testPattern p) = 3 then
    c.each (segmentMinima p l) fun c x =>
      let d := c.draw
      (d.2.count x.1 (x.2 + d.1)).count (O.chkErrors p l) (x.2 + d.1)
  else let d := c.draw; d.2.count (O.chkErrors p l) (33 + d.1)

/-- CHECKER_LOCK_LOSS (R192): a locked checker drops lock; in near-end loopback its errors are the injector's, counted already. -/
def execCheckerLockLoss (p : Port) (lane : Lane) (s : State) : Host.Outcome State Fault Refusal :=
  onDomains s fun c =>
    if c.flag (O.chkLocked p lane) then (c.when (c.get (O.testMode p) != 2) fun c => c.lineErrors p lane).chkDrop p lane else c

end Sys2Proof.Machine
end

