-- ==== Sys2Proof/Machine/PortOps.lean ====
section
/-! DEFINITION. What the port families share (chapters 7 and 8): the state of the pairs and the converter, capabilities and contracts, the
end of Epolarex Link mode, detach, Hard Reset, ErrorRecovery, Disabled and port reset. -/
namespace Sys2Proof.Machine

/-! ## Power path (R228–R234) -/

/-- The path state of a pair: 0 source, 1 sink (3101h.01, 3101h.02). -/
def pathObj (p k : Nat) : Obj := if k = 0 then O.srcPathState p else O.snkPathState p

/-- The pair in Ramp or On, if any: the interlock of R228 allows one. -/
def Hub.activePair (c : Hub) (p : Nat) : Option Nat :=
  if c.get (O.srcPathState p) = 1 ∨ c.get (O.srcPathState p) = 2 then some 0
  else if c.get (O.snkPathState p) = 1 ∨ c.get (O.snkPathState p) = 2 then some 1
  else none

/-- The temperature a pair's model gives, in 0.1 °C (R243). -/
def Hub.modelTemp (c : Hub) (p k : Nat) : Int :=
  c.getI (O.refTemp p) + ((c.get (H.rise p (1 + 4 * k)) + c.get (H.rise p (2 + 4 * k)) + c.get (H.rise p (3 + 4 * k))) / 100000000 : Nat)

/-- The pair uses the diode (R242, R245). -/
def Hub.usesDiode (c : Hub) (p k : Nat) : Bool :=
  c.get (O.thermalMode p) == 1 && c.get (O.diodePair p) == k && c.get (O.diodeState p) == 1

/-- The temperature in use of a pair in 0.1 °C (R242), whatever its object has room for. -/
def Hub.fetTemp (c : Hub) (p k : Nat) : Int := if c.usesDiode p k then c.getI (H.diodeTemp p) else c.modelTemp p k

/-- The estimate lets a pair turn on (R229). -/
def Hub.coolEnough (c : Hub) (p k : Nat) : Bool := decide (c.fetTemp p k < c.getI (O.fetTempLimit p) - 200)

/-- An explicit contract is in force. -/
def Hub.explicit (c : Hub) (p : Nat) : Bool := c.get (O.contractState p) == 2 || c.get (O.contractState p) == 3
/-- The port is Source, or Sink. -/
def Hub.isSource (c : Hub) (p : Nat) : Bool := c.get (O.powerRole p) == 1

/-- The Rp level's current (R234). -/
def Hub.rpCurrent (c : Hub) (p : Nat) : Nat := match c.get (O.rpLevel p) with | 0 => 900 | 1 => 1500 | _ => 3000
/-- The base current of R234: the contract's, before an explicit one the Rp level's as Source and 3 A else; from its Accept, a request's that is lower. -/
def Hub.baseCurrent (c : Hub) (p : Nat) : Nat :=
  let base := if c.explicit p then c.get (O.contractI p) else if c.isSource p then c.rpCurrent p else 3000
  if c.get (H.pdx p) = 3 ∨ c.get (H.pdx p) = 4 then min base (c.get (H.reqI p)) else base
/-- The current limit in force (R234). -/
def Hub.ilimNow (c : Hub) (p : Nat) : Nat := min (c.baseCurrent p * c.get (O.ilimPct p) / 100) (c.get (O.ilimCap p))
/-- The fast-trip threshold in force (R234). -/
def Hub.fastTripNow (c : Hub) (p : Nat) : Nat := min (c.ilimNow p * c.get (O.fastTripPct p) / 100) 15000

/-- A pair leaves Ramp and On: the fault timer clears (R238) and PG falls (R240). -/
def Hub.leavePath (c : Hub) (p : Nat) : Hub :=
  (((c.put (O.faultTimer p) 0).putB (O.inLimit p) false).putB (O.pg p) false).put (H.onHeld p) 0

/-- A normal turn-off of a pair in Ramp or On (R229); RETRIES counts a turn-on that did not reach On. -/
def Hub.turnOff (c : Hub) (p k : Nat) : Hub :=
  if c.get (pathObj p k) = 1 ∨ c.get (pathObj p k) = 2 then
    ((c.when (c.get (pathObj p k) == 1) fun c => c.count (O.retries p)).put (pathObj p k) 0).leavePath p
  else c

/-- The port sequencer calls for VBUS as Source (R230 step 1): PPn_VSET for 5 V, and the converter enabled. -/
def Hub.callSource (c : Hub) (p : Nat) : Hub :=
  (((((c.put (H.srcWanted p) 1).put (H.srcReversed p) 0).put (H.convState p) 1).put (H.convTarget p) 5000).put (H.disch p) 0).put (H.slewing p) 0

/-- VBUS to vSafe0V (R231): the pair Off, the converter disabled, PPn_DISCH on. -/
def Hub.dropSource (c : Hub) (p : Nat) : Hub :=
  let up := c.get (H.srcWanted p) != 0
  (((((c.turnOff p 0).put (H.srcWanted p) 0).put (H.srcReversed p) 0).put (H.convState p) 0).put (H.convTarget p) 0).put (H.slewing p) 0 |>.when up fun c => c.put (H.disch p) 1

/-- The sink pair is wanted (R232): not while the port becomes Source (R217). -/
def Hub.sinkWanted (c : Hub) (p : Nat) : Bool :=
  c.get (O.powerRole p) == 2 && decide (1 ≤ c.get (O.contractState p) ∧ c.get (O.contractState p) ≤ 3)
    && decide (c.get (O.sinkOnMv p) ≤ c.get (O.contractV p)) && c.get (H.snkBlocked p) == 0 && c.get (H.pdx p) != 10 && c.get (H.pdx p) != 11

/-- Latched or, on a detach, Cool-down ends, and RETRIES returns to 0 with it (R229, R252). -/
def Hub.clearPath (c : Hub) (p : Nat) (cooling : Bool) : Hub :=
  c.each [0, 1] fun c k =>
    c.when (c.get (pathObj p k) == 4 || (cooling && c.get (pathObj p k) == 3)) fun c => (c.put (pathObj p k) 0).put (O.retries p) 0

/-! ## Messages and capabilities (R202, R203, R206, R210) -/

/-- The port is attached as Source or Sink. -/
def Hub.attached (c : Hub) (p : Nat) : Bool := c.get (O.attachState p) == 3 || c.get (O.attachState p) == 4
/-- The port takes PD messages. -/
def Hub.takesPd (c : Hub) (p : Nat) : Bool := c.attached p && c.pdOn
/-- A PD message is sent (R210). -/
def Hub.sendPd (c : Hub) (p : Nat) (m : Pd) (sop : Nat := 0) : Hub := (c.newMessage p sop).emit (.pd p sop m)

/-- The MessageID counters of a port return to 0 (R213). -/
def Hub.resetIds (c : Hub) (p : Nat) : Hub := c.each [0, 1, 2] fun c k => c.put (H.msgId p k) 0

/-- A PD message of the partner has arrived (R212). -/
def Hub.heard (c : Hub) (p : Nat) : Hub := c.put (H.pdSeen p) 1

/-- The source PDO voltages in mV, by mask bit (R202). -/
def pdoVolts : List (Nat × Nat) := [(0, 5000), (1, 9000), (2, 15000), (3, 20000), (4, 28000), (5, 36000), (6, 48000)]

/-- The current of a PDO in 10 mA steps (R202, R206): at most 15 W while stage 1 caps the port. -/
def Hub.pdoCurrent (c : Hub) (p mv : Nat) : Nat :=
  let i := min (min (c.get (O.sourceCurrentMax p)) (c.get (O.cableCurrent p))) (c.get (O.sourcePowerMax p) * 1000000 / mv)
  (if c.get (O.sourceCapState p) = 1 then min i (15000000 / mv) else i) / 10

/-- EPR entry is possible but for the sink's part (R204). -/
def Hub.eprReady (c : Hub) (p : Nat) : Bool :=
  c.flag (O.eprEnable p) && c.flag (O.cableEpr p) && c.get (O.cableCurrent p) == 5000 && c.get (O.sourceCapState p) == 0

/-- Every condition of R204 for EPR entry holds. -/
def Hub.eprAllowed (c : Hub) (p : Nat) : Bool := c.eprReady p && c.get (O.contractState p) == 2 && c.get (H.sinkEprCap p) == 1

/-- A fixed PDO as the standard lays it out: voltage in 50 mV, current in 10 mA; EPR Mode Capable is bit 23 of the first. -/
def fixedPdo (mv steps : Nat) (epr : Bool) : Nat := (if epr then 2 ^ 23 else 0) + 2 ^ 10 * (mv / 50) + steps

/-- The mask bits offered (R202): 5 V always. -/
def Hub.offeredPdos (c : Hub) (p : Nat) : List (Nat × Nat) :=
  pdoVolts.filter fun v => v.1 == 0 || (bit (c.get (O.sourcePdoMask p)) v.1 && decide (v.2 ≤ 1000 * c.get (O.cableVmax p)))

/-- The PDOs of Source_Capabilities or EPR_Source_Capabilities (R202). The EPR Mode Capable bit shows whether R204 holds for the port's
own part (DEDUCED, notes/assumptions/30.md). -/
def Hub.sourcePdos (c : Hub) (p : Nat) (epr : Bool) : List Nat :=
  let pdo : Nat × Nat → Nat := fun v => fixedPdo v.2 (c.pdoCurrent p v.2) (v.1 == 0 && c.eprReady p)
  let spr := ((c.offeredPdos p).filter fun v => decide (v.1 ≤ 3)).map pdo
  if epr then spr ++ List.replicate (7 - spr.length) 0 ++ ((c.offeredPdos p).filter fun v => decide (4 ≤ v.1)).map pdo else spr

/-- Source_Capabilities sent, or EPR_Source_Capabilities in EPR (R203); those to a partner that has answered nothing are counted (R212). -/
def Hub.sendCaps (c : Hub) (p : Nat) : Hub :=
  let epr := c.flag (H.inEpr p)
  let c := c.when (!c.flag (H.pdSeen p)) fun c => c.put (H.capCount p) (c.get (H.capCount p) + 1)
  ((c.sendPd p (.sourceCaps epr (c.sourcePdos p epr))).put (H.pdx p) 1).put (H.capsDue p) 0

/-- New capabilities are due at a source port (R203, R206). A child asleep there is sent none before it is awake (R418). -/
def Hub.capsChanged (c : Hub) (p : Nat) : Hub :=
  if c.get (O.attachState p) = 3 ∧ c.isSource p = true ∧ c.get (O.contractState p) ≠ 4 then
    if c.flag (H.childAsleep p) then (c.put (H.capsDue p) 1).put (H.pdHeld p) 1
    else if c.get (H.pdx p) = 0 then c.sendCaps p else c.put (H.capsDue p) 1
  else c

/-- A port that a sag stage may act on (R206). -/
def Hub.sagPort (c : Hub) (p : Nat) : Bool := !c.flag (O.critical p)

/-- Stage 1 acts on a port that is Source: in EPR it leaves EPR and offers 15 W; in an SPR contract it offers EPR no longer (R206). -/
def Hub.sag1Act (c : Hub) (p : Nat) : Hub :=
  if c.sagPort p && c.isSource p && c.get (O.attachState p) == 3 then
    let c := c.put (O.sourceCapState p) 1
    if c.flag (H.inEpr p) && !c.flag (H.childAsleep p) then (((c.put (H.inEpr p) 0).sendPd p .eprExit).put (H.stage1Cut p) 1).capsChanged p else c
  else c

/-- Stage 1 acts now where it entered during a PR_Swap (R220). -/
def Hub.sagHeld (c : Hub) (p : Nat) : Hub := if c.flag (H.sagDue p) then (c.put (H.sagDue p) 0).sag1Act p else c

/-- The swap request of SWAP_REQUEST is sent (R215). -/
def Hub.sendSwap (c : Hub) (p k : Nat) : Hub :=
  let m : Pd := match k with | 1 => .prSwap | 2 => .drSwap | _ => .vconnSwap
  (((c.put (H.swapWait p) 0).put (H.swapOwn p) 1).sendPd p m).put (H.pdx p) (4 + k)

/-- What waited for an exchange to end: sag stage 1 (R220), capabilities that came due (R203), a swap request not yet sent (R215). While the child
sleeps it waits on (R418). -/
def Hub.sendDue (c : Hub) (p : Nat) : Hub :=
  let c := c.sagHeld p
  if c.flag (H.childAsleep p) then (if c.flag (H.capsDue p) = true ∨ c.get (H.swapWait p) = 2 then c.put (H.pdHeld p) 1 else c)
  else if c.get (H.pdx p) ≠ 0 ∨ c.get (O.modeState p) = 1 ∨ c.get (O.modeState p) = 3 then c
  else if c.flag (H.capsDue p) && c.isSource p then c.sendCaps p
  else if c.get (H.swapWait p) = 2 ∧ c.get (O.swapRequest p) ≠ 0 then c.sendSwap p (c.get (O.swapRequest p))
  else c

/-- An exchange ends. -/
def Hub.pdEnd (c : Hub) (p : Nat) : Hub := (c.put (H.pdx p) 0).sendDue p

/-! ## Contracts (R203, R232, R234) -/

/-- The implicit contract of an attach, of a PR_Swap and after a Hard Reset: 5 V at the Rp current, 3 A as Sink (R234). -/
def Hub.implicitContract (c : Hub) (p : Nat) : Hub :=
  let i := if c.isSource p then c.rpCurrent p else 3000
  let c := (((c.put (O.contractState p) 1).put (O.contractV p) 5000).put (O.contractI p) i).put (O.contractRdo p) 0
  (c.put (H.snkBlocked p) 0).put (H.ppsNow p) 0

/-- No contract: EPR ends with it, and the sink pair is no longer wanted (R214, R232). -/
def Hub.endContract (c : Hub) (p : Nat) : Hub :=
  let c := (((c.put (O.contractState p) 0).put (O.contractV p) 0).put (O.contractI p) 0).put (O.contractRdo p) 0
  let c := ((((c.put (H.inEpr p) 0).put (H.modeDelayOn p) 0).put (H.entryWaitOn p) 0).put (H.ppsNow p) 0).put (H.reqPps p) 0
  (((c.put (H.pdx p) 0).put (H.capsDue p) 0).put (H.softReset p) 0).turnOff p 1

/-- The contract of the request in progress comes into force, and the exchange is at its end (R206, R208, R213, R223, R225, R234). -/
def Hub.contractIn (c : Hub) (p : Nat) : Hub :=
  let c := (c.put (O.contractState p) (2 + c.get (H.reqEpr p))).put (O.contractV p) (c.get (H.reqV p))
  let c := (c.put (O.contractI p) (c.get (H.reqI p))).put (O.contractRdo p) (c.get (H.reqRdo p))
  let c := (c.put (H.snkBlocked p) 0).put (O.hardResetRun p) 0
  let c := (((c.put (H.softReset p) 0).put (H.slewing p) 0).put (H.modeDelayOn p) 1).put (H.entryWaitOn p) 1
  let c := c.when (decide (c.get (O.contractV p) * c.get (O.contractI p) ≤ 15000000)) fun c => c.put (H.stage1Cut p) 0
  (c.put (H.ppsNow p) (c.get (H.reqPps p))).put (H.pdx p) 0

/-- A contract comes into force, and what waited for its exchange is sent. -/
def Hub.contractMade (c : Hub) (p : Nat) : Hub := (c.contractIn p).sendDue p

/-! ## Epolarex Link mode (R224, R226) -/

/-- This port's Mode VDO (R222). -/
def Hub.modeVdo (c : Hub) (p : Nat) : Nat := (2 ^ c.get (O.gearMax p) - 1) + 16 * c.get O.role + 0x40 + 0x80 + 0x100 + 65536 * p

/-- An Oar that is a Member enters the mode on its upstream port alone (R226). -/
def Hub.modeAllowed (c : Hub) (p : Nat) : Bool := !(c.isOar && c.treeIs 2 && c.get O.upstreamPort != p)

/-- The mode is entered (R224): the lanes may leave Off. -/
def Hub.enterMode (c : Hub) (p : Nat) : Hub := (((c.put (O.modeState p) 2).put (O.entryResult p) 1).put (H.vdmStep p) 0).lanesStart p

/-- The lanes as the port leaves the mode, which it had entered or not: Off, but a test goes on with TEST_NO_ATTACH or where the mode was not entered
(R173, R189). -/
def Hub.lanesExit (c : Hub) (p : Nat) (entered : Bool) : Hub :=
  if c.get (O.trainState p) = 11 then (if entered && !c.flag (O.testNoAttach p) then c.testOff p else c) else c.lanesOff p

/-- The mode ends (R226): the lanes go to Off and the link Down, with the tree effects of R21 and R23; a test ends with a detach or an exit from
the mode it had entered, and with TEST_NO_ATTACH goes on (R173, R189). A parent's record of a child held
asleep reports no DETACH (R418). -/
def Hub.exitMode (c : Hub) (p : Nat) (detached : Bool := false) : Hub :=
  let was := c.get (O.modeState p) != 0
  let ends := detached || c.get (O.modeState p) == 2 || c.get (O.modeState p) == 3
  let c := ((c.put (O.modeState p) 0).put (H.vdmStep p) 0).lanesExit p ends
  (c.linkDown p detached).when was fun c => c.freshPort p

/-- Discovery on a port ends without an outcome: an Oar that has become a Member enters the mode nowhere but on its upstream port (R226). Where Enter
Mode is out already, Exit Mode takes the mode back. -/
def Hub.endDiscovery (c : Hub) (p : Nat) : Hub :=
  if c.get (H.vdmStep p) = 4 then c.sendExit p
  else (((c.put (O.modeState p) 0).put (H.vdmStep p) 0).put (H.vdmTries p) 0).sendDue p

/-! ## VCONN (R201) -/

/-- VCONN on, where Ra shows on the other CC pin. In ROM recovery no port sources it (R408). -/
def Hub.vconnOn (c : Hub) (p : Nat) : Hub :=
  if c.flag (H.ccRa p) = true ∧ c.get (O.vconnState p) ≠ 2 ∧ c.inRom = false then c.put (O.vconnState p) 1 else c
/-- VCONN off; a fault shown ends: on a detach, a Hard Reset or ErrorRecovery. -/
def Hub.vconnOff (c : Hub) (p : Nat) : Hub := (c.put (O.vconnState p) 0).put (O.vconnCurrent p) 0
/-- VCONN passes to the partner by a swap; a fault shown stands. -/
def Hub.vconnRelease (c : Hub) (p : Nat) : Hub := if c.get (O.vconnState p) = 2 then c else c.vconnOff p

/-! ## Swaps (R215, R218) -/

/-- The port's own swap request ends with a result; SWAP_REQUEST reads 00h. -/
def Hub.swapEnd (c : Hub) (p result : Nat) : Hub :=
  ((((c.put (O.swapRequest p) 0).put (O.swapResult p) result).put (H.swapTries p) 0).put (H.swapWait p) 0).put (H.swapOwn p) 0

/-- A swap has ended with a result: the port's own request with it, if it is the one (R216). -/
def Hub.swapOver (c : Hub) (p result : Nat) : Hub := if c.flag (H.swapOwn p) then c.swapEnd p result else c

/-- A swap is in progress on the port. -/
def Hub.swapping (c : Hub) (p : Nat) : Bool := decide (5 ≤ c.get (H.pdx p) ∧ c.get (H.pdx p) ≤ 12)

/-- A Hard Reset or port reset ends a swap undone (R218). -/
def Hub.abandonSwap (c : Hub) (p : Nat) : Hub := c.when (c.swapping p || c.get (O.swapRequest p) != 0) fun c => c.swapEnd p 5

/-! ## Attach and detach (R197–R201, R214, R220) -/

/-- Roles as ATTACH_ROLES codes them. -/
def rolesOf (power data : Nat) (vconn : Bool) : Nat := power + 4 * data + if vconn then 16 else 0

/-- Attached as Source (k = 1) or Sink (k = 2), with the orientation seen (R198, R199, R201). -/
def Hub.attach (c : Hub) (p k : Nat) : Hub :=
  let c := ((c.put (O.attachState p) (2 + k)).put (O.orientation p) (c.get (H.ccCand p))).put (O.powerRole p) k
  let c := (c.put (O.dataRole p) k).put (O.attachRoles p) (rolesOf k k (k == 1))
  let c := ((c.count (O.attaches p)).put (H.vconnSource p) (if k = 1 then 1 else 0)).put (H.tryPath p) 0
  let c := (((c.put (H.pdSeen p) 0).put (H.capCount p) 0).put (H.pdx p) 0).put (O.hardResetRun p) 0
  let c := c.implicitContract p
  if k = 1 then (c.vconnOn p).callSource p else c

/-- What a port forgets of its partner and cable at a detach. -/
def Hub.forgetPartner (c : Hub) (p : Nat) : Hub :=
  let c := c.each [O.cableState p, O.cableCurrent p, O.cableVmax p, O.cableEpr p, O.cableSpeed p, O.cableVdo p, O.cableSopppId p,
    O.partnerIdHeader p, O.partnerSvids p, O.partnerModeVdo p, O.partnerRevision p, O.entryResult p, O.mismatch p, O.hardResetRun p,
    H.ccCand p, H.ccRa p, H.tryPath p, H.trySeen p, H.debounced p, H.vconnSource p, H.pdSeen p, H.capCount p, H.cableTries p, H.srcRecover p,
    H.hrSent p, H.hrSink p, H.stage1Cut p, H.sinkEprCap p, H.srcEprCap p, H.vdmTries p, H.erTimer p, H.cableAsked p, H.sagDue p,
    H.srcCaps p, H.eprLeft p, H.pdHeld p, H.msgId p 0, H.msgId p 1, H.msgId p 2] fun c o => c.restore o
  ((c.put (O.orientation p) 0).put (O.powerRole p) 0).put (O.dataRole p) 0 |>.put (O.attachRoles p) 0

/-- The contract, the mode, VBUS and VCONN go (R214, R226). -/
def Hub.dropPort (c : Hub) (p : Nat) (detached : Bool) : Hub :=
  ((((c.endContract p).exitMode p detached).dropSource p).turnOff p 1).vconnOff p

/-- The port returns to Unattached. Reactions on it are done (R378). -/
def Hub.unattach (c : Hub) (p : Nat) : Hub :=
  let c := (c.forgetPartner p).put (O.attachState p) 0
  ((c.reactionDone 0 p).reactionDone 2 p).reactionDone 3 p

/-- A detach (R220, R229, R252, R418): it wins over anything in progress, and a child held asleep is reported as DETACH. -/
def Hub.detachPort (c : Hub) (p : Nat) : Hub :=
  let quietLink := c.get (O.linkState p) == 0 || c.get (O.linkState p) == 1
  let known := c.flag (H.childAsleep p) || (c.get (H.partnerUid p) != 0 && !c.flag (H.portLost p))
  let c := c.when (c.swapping p || c.get (O.swapRequest p) != 0) fun c => c.swapEnd p 0
  let c := (c.dropPort p true).when (quietLink && known) fun c => c.partnerLost p true
  ((c.clearPath p true).freshPort p).unattach p

/-! ## Reset escalation (R213, R214, R219) -/

/-- A port reset that the Umpire started runs on the port (R378). -/
def Hub.resetting (c : Hub) (p : Nat) : Bool := c.windows.any fun w => w.kind == 0 && w.unit == p && !w.ended

/-- Hard Reset, sent or received (R213, R214, R218): counted and reported, and its effects on the contract, the mode, the roles, VBUS and
VCONN. Outside a port reset it is a reaction of its own (R378). -/
def Hub.hardReset (c : Hub) (p : Nat) (sent : Bool) (inReset : Bool := false) : Hub :=
  let c := if sent then (((c.count (O.hardResetsSent p)).put (O.hardResetRun p) (min 3 (c.get (O.hardResetRun p) + 1))).put (H.hrSent p) 1).emit (.hardReset p)
    else (c.count (O.hardResetsReceived p)).put (O.hardResetRun p) 1
  let c := (c.raise 45 p).when (!inReset && !c.resetting p) fun c => c.openWindow 45 2 p
  let c := (c.abandonSwap p).dropPort p false
  let r := c.get (O.attachRoles p)
  let c := ((c.put (O.powerRole p) (bits r 0 2)).put (O.dataRole p) (bits r 2 2)).put (H.vconnSource p) (bits r 4 1)
  let c := ((c.put (O.attachState p) (2 + bits r 0 2)).resetIds p).sagHeld p
  if bits r 0 2 = 1 then (c.put (H.srcRecover p) 1).put (H.hrSink p) 0 else (c.put (H.hrSink p) 1).put (H.srcRecover p) 0

/-- ErrorRecovery (R213, R214): VBUS and VCONN off, both CC pins open. -/
def Hub.errorRecovery (c : Hub) (p : Nat) : Hub :=
  let c := ((c.count (O.errorRecoveries p)).raise 46 p).openWindow 46 3 p
  let c := (c.abandonSwap p).dropPort p false
  let c := ((c.put (O.attachState p) 5).put (H.erTimer p) 0).put (O.hardResetRun p) 0
  ((c.put (H.srcRecover p) 0).put (H.hrSink p) 0).put (H.tryPath p) 0

/-- The port escalates from Normal (R213): neither a Soft Reset nor a Hard Reset is on its way to a contract. -/
def Hub.normal (c : Hub) (p : Nat) : Bool := c.get (H.softReset p) == 0 && c.get (O.hardResetRun p) == 0

/-- A swap that Soft Reset breaks off ends with no result (DESIGN CHOICE, notes/assumptions/79.md). -/
def Hub.breakSwap (c : Hub) (p : Nat) : Hub := c.swapOver p 0

/-- Soft Reset (R213): the MessageID counters return to 0, Soft_Reset is sent, and its answer awaited. -/
def Hub.sendSoftReset (c : Hub) (p : Nat) : Hub :=
  ((((((c.breakSwap p).count (O.softResets p)).raise 49 p).put (H.softReset p) 1).resetIds p).sendPd p .softReset).put (H.pdx p) 15

/-- The exchange in progress is a power transition (R213, R217). -/
def Hub.inTransition (c : Hub) (p : Nat) : Bool :=
  let x := c.get (H.pdx p)
  x == 3 || x == 4 || decide (8 ≤ x ∧ x ≤ 11)

/-- A message that the exchange in progress does not expect (R213): in Normal a Hard Reset in a power transition, else Soft Reset. In every
other state the table lists no such event, and nothing changes. -/
def Hub.unexpected (c : Hub) (p : Nat) : Hub :=
  if c.get (H.pdx p) = 0 ∨ c.normal p = false then c else if c.inTransition p then c.hardReset p true else c.sendSoftReset p

/-- A port goes to Disabled (R206): source off, VCONN off, both CC pins open, and any exchange abandoned. A Hard Reset or an ErrorRecovery that runs ends
with that, as at Unattached (R378). -/
def Hub.disablePort (c : Hub) (p : Nat) : Hub :=
  let c := (c.dropPort p true).when (c.get (O.swapRequest p) != 0) fun c => c.swapEnd p 0
  let c := ((c.freshPort p).forgetPartner p).put (O.attachState p) 6
  ((c.reactionDone 0 p).reactionDone 2 p).reactionDone 3 p

/-- A Disabled port returns through ErrorRecovery (R206). -/
def Hub.enablePort (c : Hub) (p : Nat) : Hub := if c.get (O.attachState p) = 6 then c.errorRecovery p else c

/-- What a CC pin of a port presents (R195, R197–R200). -/
inductive CcShown where
  | isOpen | rd | deadBatteryRd
  /-- Rp at a level: 0 Default, 1 the 1.5 A of SinkTxNG, 2 the 3.0 A of SinkTxOK. -/
  | rp (level : Nat)
  deriving DecidableEq, Repr

/-- An exchange that this port began is in progress (R216): capabilities, a request's transition, a swap, Soft_Reset, or a discovery. -/
def Hub.ownExchange (c : Hub) (p : Nat) : Bool :=
  c.get (H.pdx p) != 0 || c.get (H.vdmStep p) != 0 || c.flag (H.cableAsked p)

/-- The level of an attached Source's Rp (R195, R198, R216): SinkTxNG while an exchange of its own runs; SinkTxOK in an explicit contract, and
RP_LEVEL before one. -/
def Hub.rpShown (c : Hub) (p : Nat) : Nat := if c.ownExchange p then 1 else if c.explicit p then 2 else c.get (O.rpLevel p)

/-- What an unattached or trying port presents: Rp (true) or Rd (R197, R198). -/
def Hub.presentsRp (c : Hub) (p : Nat) : Bool :=
  match c.get (O.policy p) with | 0 => true | 1 => false | _ => c.flag (H.ccRp p)

/-- What the CC pin of a port presents: dead-battery Rd in reset and in Stowed, unless Disabled there (R200, R206); open in ErrorRecovery and
Disabled (R206, R214); in a PR_Swap the old Source's Rd once it has sent PS_RDY, and the new Source's Rp once it has received it (R217). -/
def Hub.ccShown (c : Hub) (p : Nat) : CcShown :=
  if !c.flag H.running then (if c.flag (H.ccOpen p) then .isOpen else .deadBatteryRd)
  else match c.get (O.attachState p) with
    | 5 => .isOpen
    | 6 => .isOpen
    | 3 => if c.get (H.pdx p) = 9 then .rd else .rp (c.rpShown p)
    | 4 => if c.get (H.pdx p) = 11 then .rp (c.rpShown p) else .rd
    | _ => if c.presentsRp p then .rp (c.get (O.rpLevel p)) else .rd

/-- The degrade of a port's power path (R371): RETRY_MODE counts as 00h while a bit of DEGRADED set by sources 45–58 holds. -/
def Hub.retryMode (c : Hub) (p : Nat) : Nat := if c.flag (H.powerDegraded p) then 0 else c.get (O.retryMode p)

/-! ## Faults of a pair (R219, R229) -/

/-- The object that counts a fault of a pair (3104h): fast trip, fault timer, thermal; a converter fault has none. -/
def Hub.countTrip (c : Hub) (p code : Nat) : Hub :=
  match code with
  | 1 => c.count (O.fastTrips p)
  | 2 => c.count (O.timerTrips p)
  | 3 => c.count (O.thermalTrips p)
  | _ => c

/-- A fault of a pair (R229): LAST_FAULT, Cool-down or Latched, the reports, and what the port does (R217, R219). A sink that keeps its explicit contract
sends Alert, over-current or over-temperature (R196; DESIGN CHOICE, notes/assumptions/79.md, for the moment), but to no child asleep (R418). -/
def Hub.pairFault (c : Hub) (p k code : Nat) : Hub :=
  let early := c.get (pathObj p k) != 2 || c.get (H.onHeld p) == 0
  let limit := c.get (O.retryLimit p)
  let latch := c.retryMode p != 1 || (limit != 0 && decide (limit ≤ c.get (O.retries p)))
  let c := ((c.countTrip p code).put (O.lastFault p) code).put (pathObj p k) (if latch then 4 else 3)
  let c := (c.when early fun c => c.count (O.retries p)).leavePath p
  let source := 49 + (if code = 4 then 5 else code)
  let c := ((c.raise source p).openWindow source 4 p).when latch fun c => c.raise 57 p
  let c := c.when (k == 1 && c.explicit p && c.takesPd p && !c.flag (H.childAsleep p)) fun c => c.sendPd p (.alert (code == 3))
  if k = 0 ∧ c.get (H.pdx p) = 11 then c.hardReset p true
  else if k = 0 ∧ c.get (O.attachState p) = 3 then c.errorRecovery p
  else c

/-- A pair in Cool-down or Latched is permitted again: a port that waited in ErrorRecovery for it returns to Unattached (R219). -/
def Hub.pathPermits (c : Hub) (p : Nat) : Bool := c.get (O.srcPathState p) != 3 && c.get (O.srcPathState p) != 4
/-- PORT_DISABLE or sag stage 4 holds the port Disabled (R206). -/
def Hub.heldOff (c : Hub) (p : Nat) : Bool := c.flag (O.portDisable p) || c.get (O.sourceCapState p) == 2

/-- ErrorRecovery ends when tErrorRecovery has passed and the power path permits the source pair (R214, R219): Unattached, or Disabled again where
the port is held so (R206). -/
def Hub.recoveryEnds (c : Hub) (p : Nat) : Hub :=
  if c.get (O.attachState p) = 5 ∧ c.get (H.erTimer p) = 1 ∧ c.pathPermits p = true then
    (c.unattach p).when (c.heldOff p) fun c => c.put (O.attachState p) 6
  else c

/-! ## Port reset (R31, R101, R220, R370) -/

/-- A port reset: tunnels torn down and queues emptied; Hard Reset with an explicit contract, else ErrorRecovery; Latched ends. A
Disabled port passes through ErrorRecovery too, and is Disabled again after it (DESIGN CHOICE, notes/assumptions/91.md). -/
def Hub.portReset (c : Hub) (p : Nat) : Hub :=
  let c := ((c.flushPort p).testOff p).clearPath p false
  if c.explicit p then c.hardReset p true true
  else c.errorRecovery p

/-! ## Supply sag (R206) -/

/-- A PR_Swap is in progress (R220). -/
def Hub.powerSwapping (c : Hub) (p : Nat) : Bool := c.get (H.pdx p) == 5 || decide (8 ≤ c.get (H.pdx p) ∧ c.get (H.pdx p) ≤ 11)

/-- Stage 1 enters (R206): during a PR_Swap, the swap ends first (R220). -/
def Hub.sag1Enter (c : Hub) (p : Nat) : Hub := if c.powerSwapping p then c.put (H.sagDue p) 1 else c.sag1Act p

/-- Stage 1 clears: capabilities under R202 again (R206). -/
def Hub.sag1Clear (c : Hub) (p : Nat) : Hub :=
  let c := c.put (H.sagDue p) 0
  if c.sagPort p && c.get (O.sourceCapState p) == 1 then ((c.put (O.sourceCapState p) 0).put (H.stage1Cut p) 0).capsChanged p else c

/-- Stage 4 enters: a Source or an unattached port goes to Disabled (R206). -/
def Hub.sag4Enter (c : Hub) (p : Nat) : Hub :=
  if c.sagPort p && c.get (O.attachState p) != 4 && c.get (O.attachState p) != 6 then (c.disablePort p).put (O.sourceCapState p) 2 else c

/-- Stage 4 clears: each port it disabled returns through ErrorRecovery (R206). -/
def Hub.sag4Clear (c : Hub) (p : Nat) : Hub :=
  if c.sagPort p && c.get (O.sourceCapState p) == 2 then
    let c := c.put (O.sourceCapState p) (if 1 ≤ c.get O.sagStage then 1 else 0)
    if c.flag (O.portDisable p) then c else c.enablePort p
  else c

end Sys2Proof.Machine
end

