-- ==== Sys2Proof/Machine/ModeEntry.lean ====
section
/-! DEFINITION. The commands of Epolarex Link mode (R222–R226): discovery as responder and as DFP, entry, exit, Attention, and their
timers. -/
namespace Sys2Proof.Machine

/-- ENTRY_RESULT recorded (R225), and EPX_ENTRY_FAIL for 03h, 04h and 07h. -/
def Hub.entryOutcome (c : Hub) (p r : Nat) : Hub :=
  (c.put (O.entryResult p) r).when (r == 3 || r == 4 || r == 7) fun c => c.raise 48 p r

/-- Mode entry ends without the mode; what waited for it is sent. -/
def Hub.entryFails (c : Hub) (p r : Nat) : Hub :=
  ((((c.put (O.modeState p) 0).put (H.vdmStep p) 0).put (H.vdmTries p) 0).entryOutcome p r).sendDue p

/-- DISCOVER_IDENTITY (R222): ID Header VDO with PDUSB Hub for UFP and DFP and VID 3B5Eh; Cert Stat VDO 0; product 2460h, bcdDevice
00B1h. The product-type codes stand as the standard places them: UFP [29:27] = 001b, DFP [25:23] = 001b. -/
def execDiscoverIdentity (p : Port) (s : State) : Host.Outcome State Fault Refusal :=
  onPorts s fun c =>
    if c.takesPd p then (c.heard p).sendVdm p (.ackIdentity (2 ^ 27 + 2 ^ 23 + epxSvid) 0 0x246000B1) else c

/-- DISCOVER_SVIDS (R222). -/
def execDiscoverSvids (p : Port) (s : State) : Host.Outcome State Fault Refusal :=
  onPorts s fun c => if c.takesPd p then (c.heard p).sendVdm p (.ackSvids [epxSvid]) else c

/-- DISCOVER_MODES (R196, R222): answered for SVID 3B5Eh only. -/
def execDiscoverModes (p : Port) (svid : BitVec 16) (s : State) : Host.Outcome State Fault Refusal :=
  onPorts s fun c =>
    if c.takesPd p = true ∧ svid.toNat = epxSvid then (c.heard p).sendVdm p (.ackModes epxSvid [c.modeVdo p]) else c

/-- ENTER_MODE at the UFP (R224–R226). -/
def execEnterMode (p : Port) (svid : BitVec 16) (position : BitVec 3) (vdo : BitVec 32) (s : State) : Host.Outcome State Fault Refusal :=
  onPorts s fun c =>
    if c.takesPd p = false ∨ svid.toNat ≠ epxSvid ∨ c.get (O.dataRole p) ≠ 2 then c
    else
      let c := ((c.heard p).put (O.partnerModeVdo p) vdo.toNat).put (H.entryWaitOn p) 0
      let version := bits vdo.toNat 8 8 = 1
      if position = 1 ∧ version ∧ c.flag (O.epxEnable p) = true ∧ c.modeAllowed p = true then
        (c.sendVdm p (.ackEnter epxSvid)).enterMode p
      else
        let c := c.sendVdm p (.nak 4)
        c.entryOutcome p (if ¬ version then 7 else if c.flag (O.epxEnable p) = false then 6 else 3)

/-- EXIT_MODE at the UFP (R226). -/
def execExitMode (p : Port) (svid : BitVec 16) (s : State) : Host.Outcome State Fault Refusal :=
  onPorts s fun c =>
    if c.takesPd p = true ∧ svid.toNat = epxSvid ∧ c.get (O.modeState p) ≠ 0 then
      ((c.heard p).sendVdm p (.ackExit epxSvid)).exitMode p
    else c

/-- ATTENTION at the DFP (R222, R226): 01h asks it to exit the mode. -/
def execAttention (p : Port) (svid : BitVec 16) (vdo : BitVec 32) (s : State) : Host.Outcome State Fault Refusal :=
  onPorts s fun c =>
    if c.takesPd p = true ∧ svid.toNat = epxSvid ∧ c.get (O.dataRole p) = 1 ∧ c.get (O.modeState p) = 2 ∧ bits vdo.toNat 0 8 = 1 then
      (c.heard p).sendExit p
    else c

/-- The message of a step of mode entry (R223). -/
def Hub.sendStep (c : Hub) (p step : Nat) : Hub :=
  let c := c.put (H.vdmStep p) step
  match step with
  | 1 => c.sendVdm p .discoverIdentity
  | 2 => c.sendVdm p .discoverSvids
  | 3 => c.sendVdm p (.discoverModes epxSvid)
  | 4 => c.sendVdm p (.enterMode epxSvid 1 (c.modeVdo p))
  | _ => c

/-- The cable is reported as USB 2.0 only (R223, R225). -/
def Hub.cableUsb2 (c : Hub) (p : Nat) : Bool := decide (2 ≤ c.get (O.cableState p)) && c.get (O.cableSpeed p) == 0

/-- MODE_ENTRY_DELAY at the DFP (R223): a negotiation or EPR entry in progress is waited out, with the full delay again. A result
that R225 does not retry here bars it. -/
def execModeEntryDelay (p : Port) (s : State) : Host.Outcome State Fault Refusal :=
  onPorts s fun c =>
    if c.flag (H.modeDelayOn p) = false ∨ c.takesPd p = false ∨ c.explicit p = false ∨ c.get (O.dataRole p) ≠ 1 ∨ c.get (O.modeState p) ≠ 0 then c
    else if c.get (H.pdx p) ≠ 0 then c
    else
      let c := c.put (H.modeDelayOn p) 0
      if !c.flag (O.epxEnable p) then c.entryOutcome p 6
      else if c.cableUsb2 p then c.entryOutcome p 5
      else if [2, 3, 5, 7, 8].contains (c.get (O.entryResult p)) = true ∨ c.modeAllowed p = false then c
      else ((c.put (O.modeState p) 1).put (H.vdmTries p) 0).sendStep p 1

/-- SVIDs as PARTNER_SVIDS holds them: up to 12, two bytes each. -/
def svidBytes (xs : List (BitVec 16)) : Nat := leNat ((xs.take 12).flatMap fun x => leBytes x.toNat 2)

/-- VDM_ANSWER at the DFP (R223–R226). -/
def execVdmAnswer (p : Port) (ans : VdmAnswer) (s : State) : Host.Outcome State Fault Refusal :=
  onPorts s fun c =>
    let c := if c.takesPd p then c.heard p else c
    if 1 ≤ c.get (H.vdmStep p) ∧ c.get (H.vdmStep p) ≤ 3 ∧ c.modeAllowed p = false then c.endDiscovery p
    else match c.get (H.vdmStep p), ans with
    | 1, .identity h => (c.put (O.partnerIdHeader p) h.toNat).sendStep p 2
    | 2, .svids xs =>
      let c := c.put (O.partnerSvids p) (svidBytes xs)
      if xs.any fun x => x.toNat == epxSvid then c.sendStep p 3 else c.entryFails p 2
    | 3, .modes (v :: _) =>
      let c := c.put (O.partnerModeVdo p) v.toNat
      if bits v.toNat 8 8 = 1 then c.sendStep p 4 else c.entryFails p 7
    | 3, .modes [] => c.entryFails p 2
    | 4, .enterAck => (c.enterMode p).sendDue p
    | 5, .exitAck => (c.exitMode p).sendDue p
    | 4, .nak => c.entryFails p 3
    | 1, .nak => c.entryFails p 2
    | 2, .nak => c.entryFails p 2
    | 3, .nak => c.entryFails p 2
    | _, _ => c

/-- ENTRY_WAIT at the UFP (R225): no Enter Mode has come since the contract. -/
def execEntryWait (p : Port) (s : State) : Host.Outcome State Fault Refusal :=
  onPorts s fun c =>
    let waited := c.flag (H.entryWaitOn p) && c.explicit p && c.get (O.dataRole p) == 2 && c.get (O.modeState p) == 0
    (c.put (H.entryWaitOn p) 0).when waited fun c => c.entryOutcome p 2

/-- VDM_RESPONSE_TIMEOUT at the DFP (R225): the step is tried up to 3 times more, then as for 02h. An unanswered Exit Mode ends the mode. -/
def execVdmResponseTimeout (p : Port) (s : State) : Host.Outcome State Fault Refusal :=
  onPorts s fun c =>
    let step := c.get (H.vdmStep p)
    if step = 0 then c
    else if step = 5 then (c.exitMode p).sendDue p
    else if c.get (H.vdmTries p) < 3 then ((c.put (H.vdmTries p) (c.get (H.vdmTries p) + 1)).entryOutcome p 4).sendStep p step
    else (c.entryOutcome p 4).entryFails p 2

/-- EPX_ENABLE written (R223, R225, R226): false ends the mode by Exit Mode or Attention, also where Enter Mode is out already; true lets the DFP try
again. On the port of a sleeping child the end waits until it is awake (R418). -/
def Hub.writeEpxEnable (c : Hub) (p : Nat) (value : Bool) : Status × Hub :=
  let was := c.flag (O.epxEnable p)
  let c := c.putB (O.epxEnable p) value
  if !value then
    (.ok, if c.get (O.modeState p) = 2 then c.leaveMode p
          else if c.get (O.modeState p) = 1 then (if c.get (H.vdmStep p) = 4 then (c.entryOutcome p 6).sendExit p else c.entryFails p 6) else c)
  else
    let again := c.get (O.entryResult p) == 3 || c.get (O.entryResult p) == 6 || (!was && c.get (O.entryResult p) ≤ 1)
    (.ok, if again && c.explicit p && c.get (O.modeState p) == 0 then (c.put (H.modeDelayOn p) 1).put (O.entryResult p) 0 else c)

/-- What the parent held back while the child on a port slept, once it is awake (R418): the end of the mode, or what waits for no exchange. -/
def Hub.pdReleased (c : Hub) (p : Nat) : Hub :=
  if c.flag (H.pdHeld p) = false ∨ c.flag (H.childAsleep p) = true then c
  else
    let c := c.put (H.pdHeld p) 0
    (c.when (c.get (O.modeState p) == 2 && !c.flag (O.epxEnable p)) fun c => c.leaveMode p).sendDue p

/-- EPX_ENABLE_WRITE: Engineer and Owner. -/
def execEpxEnableWrite (lvl : Level) (p : Port) (value : Bool) (s : State) : Host.Outcome State Fault Refusal :=
  onWrite (.epxEnableWrite lvl p value) s fun c => c.request lvl engineerWrites fun c => c.writeEpxEnable p value

end Sys2Proof.Machine
end

