-- ==== Sys2Proof/Machine/Pcie.lean ====
section
/-! DEFINITION. The PCI Express port's commands (R253–R263): TLPs at the Cox's upstream port and at an Oar's root port, configuration space,
the virtual downstream ports, resets and training, and the BAR windows. -/
namespace Sys2Proof.Machine

/-! ## Configuration space (R253–R255) -/

/-- The function of configuration space that a request to this hub names: 0 the upstream switch port, 1 the hub function, 2 + v virtual
downstream port v. A Crew, and a hub in ROM recovery, presents the hub function alone, as function 0 (R253). -/
def Hub.functionOf (c : Hub) (t : Tlp) : Option Nat :=
  if c.coxPort then
    if !t.type1 then (if t.fn.toNat ≤ 1 then some t.fn.toNat else none)
    else if t.bus.toNat = bits (c.get (H.cfg 0 0x18)) 8 8 ∧ t.dev.toNat < 8 then some (2 + 8 * t.dev.toNat + t.fn.toNat)
    else none
  else if !c.oarPort && !t.type1 && t.fn.toNat == 0 then some 1
  else none

/-- The bits of a dword that a write changes (R254, R255, R262): of the header command, cache line size, bus numbers, windows, BARs, interrupt line and
bridge control; of the capabilities the power state, the MSI-X, MSI, device, link and slot controls, and the AER masks and severity. Which bits these
are in the standard's registers is PRESUMED, where the capabilities stand a DESIGN CHOICE (notes/assumptions/40.md). -/
def Hub.cfgMask (c : Hub) (f reg : Nat) : Nat :=
  let vdp := decide (2 ≤ f)
  let a := c.get H.apertureInForce
  match reg, f with
  | 0x04, _ => 0x0547
  | 0x0C, _ => 0xFF
  | 0x10, 1 => 0xFFFF0000
  | 0x18, 1 => if c.coxPort then 0xFFFF0000 else 0
  | 0x1C, 1 => if c.coxPort then 0xFFFFFFFF else 0
  | 0x20, 1 => if c.coxPort ∧ a < 2 then 2 ^ 32 - 2 ^ (30 + a) else 0
  | 0x24, 1 => if c.coxPort then 2 ^ 32 - 2 ^ (a - 2) else 0
  | 0x3C, 1 => 0xFF
  | 0x44, 1 => 3
  | 0x48, 1 => 0xC0000000
  | 0x18, _ => 0x00FFFFFF
  | 0x20, _ => 0xFFF0FFF0
  | 0x24, _ => 0xFFF0FFF0
  | 0x28, _ => if f = 1 then 0 else 0xFFFFFFFF
  | 0x2C, _ => if f = 1 then 0 else 0xFFFFFFFF
  | 0x3C, _ => 0xFFFF00FF
  | 0x48, _ => if vdp then 0x00010000 else 0
  | 0x4C, _ => if vdp then 0xFFFFFFFC else 0
  | 0x50, _ => if vdp then 0xFFFFFFFF else 0
  | 0x54, _ => if vdp then 0x0000FFFF else 0
  | 0x68, _ => 0x79FF
  | 0x70, _ => if vdp then 0x00D3 else 0x00C3
  | 0x78, _ => if vdp then 0x1028 else 0
  | 0x90, _ => 0x000F
  | 0x108, _ => 0x007FF030
  | 0x10C, _ => 0x007FF030
  | 0x114, _ => 0x0000F1C1
  | _, _ => 0

/-- What the bits that a write changes hold by default (R258; the standard's defaults, PRESUMED, notes/assumptions/40.md). -/
def cfgReset (reg : Nat) : Nat := match reg with | 0x68 => 0x2810 | 0x90 => 5 | 0x10C => 0x00462030 | 0x114 => 0xE000 | _ => 0

/-- The device number of a function (R254). -/
def cfgDevice (f : Nat) : Nat := if f = 0 then 0x2461 else if f = 1 then 0x2460 else 0x2462

/-- The bits of the header that no write changes (R254, R255, R262): identity, class, header type, where the capabilities begin, BAR types. What the
spec leaves open there, the revision and the subsystem numbers, is free. -/
def Hub.cfgHeader (c : Hub) (f reg : Nat) : Nat :=
  let hub := f == 1
  match reg with
  | 0x00 => cfgDevice f * 65536 + 0x3B5E
  | 0x04 => 0x00100000
  | 0x08 => (if hub then 0x088000 else 0x060400) * 256 + Config.pcieCfg f 8 % 256
  | 0x0C => ((if hub then 0 else 1) + (if c.coxPort then 0x80 else 0)) * 65536
  | 0x18 => if hub && c.coxPort then 4 else 0
  | 0x20 => if hub && c.coxPort then 4 else 0
  | 0x24 => if hub then 0 else 0x00010001
  | 0x2C => if hub then Config.pcieCfg f 0x2C % 2 ^ 32 else 0
  | 0x34 => if hub then 0x40 else if f = 0 then 0x60 else 0x48
  | _ => 0

/-- The bits of the capabilities that no write changes (R254, R256): power management (D3hot) and MSI-X with 32 vectors on the hub function, MSI and ACS
on virtual downstream ports, the PCI Express capability and AER on every function; no other capability is in either list. -/
def Hub.cfgCaps (c : Hub) (f reg : Nat) : Nat :=
  let hub := f == 1
  let vdp := decide (2 ≤ f)
  let v := f - 2
  let slot := c.get (H.slotStatus v)
  let at_ : Nat → Bool → Nat := fun i b => if b then 2 ^ i else 0
  let speed := if vdp then 5 else c.get O.pcieSpeedMax
  match reg with
  | 0x40 => if hub then 0x00034801 else 0
  | 0x44 => if hub then Nat.land (Config.pcieCfg f 0x44) 8 else 0
  | 0x48 => if hub then 0x001F6011 else if vdp then 0x00806005 else 0
  | 0x4C => if hub then 0x8000 else 0
  | 0x50 => if hub then 0xC000 else 0
  | 0x60 => if hub then 0x00020010 else if vdp then 0x01620010 else 0x00520010
  | 0x64 => 0x8022 + (if hub then Nat.land (Config.pcieCfg f 0x64) 0x0FC0 else 0)
  | 0x6C => speed + 16 * (if vdp then 8 else c.get O.pcieWidthMax) + 0x00400800 + at_ 20 vdp + Nat.land (Config.pcieCfg f 0x6C) 0xFF038000
  | 0x70 => 65536 * (if vdp then c.get (O.vdpFarSpeed v) + 16 * c.get (O.vdpFarWidth v) + at_ 13 (bit slot 2)
      else c.get O.pcieLinkSpeed + 16 * c.get O.pcieLinkWidth)
  | 0x74 => if vdp then 0x60 + Nat.land (Config.pcieCfg f 0x74) 0xFFF80000 else 0
  | 0x78 => if vdp then at_ 19 (bit slot 1) + at_ 22 (bit slot 0) + at_ 24 (bit slot 3) else 0
  | 0x84 => 0x00010000
  | 0x8C => 2 * (2 ^ speed - 1)
  | 0x100 => if vdp then 0x15020001 else 0x00020001
  | 0x150 => if vdp then 0x0001000D else 0
  | 0x154 => if vdp then 0x001D001D else 0
  | _ => 0

/-- The bits of a dword that writes change, as they stand. -/
def Hub.cfgWritten (c : Hub) (f reg : Nat) : Nat := Nat.land (Nat.xor (c.get (H.cfg f reg)) (cfgReset reg)) (c.cfgMask f reg)

/-- A dword of configuration space as read (R254). -/
def Hub.cfgRead (c : Hub) (f reg : Nat) : Nat :=
  c.cfgWritten f reg + (if reg < 0x40 then c.cfgHeader f reg else c.cfgCaps f reg + c.aerShown f reg)

/-- A request of the Cox to an object of the far root port of a bound port, through the rigger bridge (R256, R258, R272). Which target window of the
Oar it names is open: a free value of Config (notes/assumptions/49.md). -/
def Hub.farObject (c : Hub) (v op sub : Nat) (data : Bytes) (origin : RigOrigin) : Hub :=
  let oar := c.get (O.vdpOar v)
  c.queueRig ⟨op, oar, (Config.vdpWindow oar).toNat, 0x5020 * 256 + sub, 1, data, origin, 0, 0, 0, 0⟩

/-- RP_HOT_RESET written true at the Oar of a bound port through the rigger bridge (R258). -/
def Hub.resetFar (c : Hub) (v : Nat) : Hub := c.when (c.get (O.vdpDown v) != 0xFFFF) fun c => c.farObject v 2 4 [1] .own

/-- The hub function returns from D3hot to D0 with its configuration space at its defaults, where its No_Soft_Reset bit, which the spec leaves open,
reads 0 (R254). -/
def Hub.softReset (c : Hub) : Hub := { c with regs := c.regs.filter fun e => !(e.1.obj == (H.cfg 0 0).key.obj && e.1.inst == 1) }

/-- Bytes written into a dword of configuration space. Ones written to error bits clear them, as a 1 written to a change bit of Slot Status does
(R256), a power state other than D0 and D3hot
is not taken (R254), and a Secondary Bus Reset set in a virtual downstream port resets its Oar's link (R258). -/
def Hub.cfgWrite (c : Hub) (f reg lane : Nat) (data : Bytes) : Hub :=
  let n := min data.length (4 - lane)
  let was := c.cfgWritten f reg
  let field := 256 ^ n * 256 ^ lane
  let written := leNat (data.take n) * 256 ^ lane
  let new := Nat.land (was / field * field + written + was % 256 ^ lane) (c.cfgMask f reg)
  let new := if f = 1 ∧ reg = 0x44 ∧ (new = 1 ∨ new = 2) then was else new
  let c := (c.put (H.cfg f reg) (Nat.xor new (cfgReset reg))).aerClear f reg written
  let c := c.when (f == 1 && reg == 0x44 && was % 4 == 3 && new % 4 == 0 && !bit (Config.pcieCfg 1 0x44) 3) Hub.softReset
  let c := c.when (decide (2 ≤ f) && reg == 0x78) fun c =>
    let s := c.get (H.slotStatus (f - 2))
    c.put (H.slotStatus (f - 2)) (withBit (withBit s 1 (bit s 1 && !bit written 19)) 3 (bit s 3 && !bit written 24))
  (c.when (decide (2 ≤ f) && reg == 0x3C && bit new 22 && !bit was 22) fun c => c.resetFar (f - 2)).msixSweep

/-- A configuration request that the hub completes (R257): with Request Retry Status until the image has started (R427). -/
def Hub.configRequest (c : Hub) (f : Nat) (t : Tlp) : Hub :=
  let reg := t.reg.toNat / 4 * 4
  let c := c.tlpTaken t
  if !c.flag H.running then c.emit (.completion t.requester.toNat t.tag.toNat 2 [])
  else if t.kind = .cfgWrite then (c.cfgWrite f reg (t.reg.toNat % 4) t.data).emit (.completion t.requester.toNat t.tag.toNat 0 [])
  else c.emit (.completion t.requester.toNat t.tag.toNat 0 (leBytes (c.cfgRead f reg) 4))

/-! ## Routing at the Cox (R257) -/

/-- A TLP that nothing takes: a request is completed as Unsupported Request, anything else discarded; both count in UR_SENT and are recorded in the
functions named. -/
def Hub.unsupported (c : Hub) (t : Tlp) (fs : List Nat) : Hub :=
  let c := ((c.tlpTaken t).count O.urSent).each fs fun c f => c.aerRecord f aerUnsupported (t.kind.category == 1) t.bytes
  c.when (t.kind.category == 1) fun c => c.emit (.completion t.requester.toNat t.tag.toNat 1 [])

/-- A TLP for a virtual downstream port enters its downstream tunnel where the port is active. -/
def Hub.toVdp (c : Hub) (v : Nat) (t : Tlp) : Hub :=
  if c.vdpNow v = 3 then c.tlpIngress (c.get (O.routeTid (c.get (O.vdpDown v)) 0)) t else c.unsupported t [2 + v]

/-- The secondary and subordinate bus numbers of a virtual downstream port. -/
def Hub.vdpBuses (c : Hub) (v : Nat) : Nat × Nat := (bits (c.get (H.cfg (2 + v) 0x18)) 8 8, bits (c.get (H.cfg (2 + v) 0x18)) 16 8)

/-- The virtual downstream port behind which a bus number lies. Bus numbers are not assigned before enumeration. -/
def Hub.vdpOfBus (c : Hub) (bus : Nat) : Option Nat :=
  (List.range 64).find? fun v => decide ((c.vdpBuses v).1 ≠ 0 ∧ (c.vdpBuses v).1 ≤ bus ∧ bus ≤ (c.vdpBuses v).2)

/-- A memory address lies in an enabled window of a virtual downstream port. -/
def Hub.inWindow (c : Hub) (v a : Nat) : Bool :=
  let w := c.get (H.cfg (2 + v) 0x20)
  let q := c.get (H.cfg (2 + v) 0x24)
  let lo := bits q 4 12 * 2 ^ 20 + c.get (H.cfg (2 + v) 0x28) * 2 ^ 32
  let hi := bits q 20 12 * 2 ^ 20 + 0xFFFFF + c.get (H.cfg (2 + v) 0x2C) * 2 ^ 32
  bit (c.get (H.cfg (2 + v) 4)) 1 &&
    ((decide (bits w 4 12 * 2 ^ 20 ≤ a) && decide (a ≤ bits w 20 12 * 2 ^ 20 + 0xFFFFF)) || (decide (lo ≤ a) && decide (a ≤ hi)))

/-- The BAR of the hub function that an address hits, and the offset in it (R262); in D3hot it takes no memory request (R254). -/
def Hub.barOf (c : Hub) (a : Nat) : Option (Nat × Nat) :=
  let b0 := c.get (H.cfg 1 0x10)
  let b2 := c.get (H.cfg 1 0x18) + c.get (H.cfg 1 0x1C) * 2 ^ 32
  let b4 := c.get (H.cfg 1 0x20) + c.get (H.cfg 1 0x24) * 2 ^ 32
  if bit (c.get (H.cfg 1 4)) 1 = false ∨ c.powerState1 ≠ 0 then none
  else if b0 ≤ a ∧ a < b0 + 65536 then some (0, a - b0)
  else if c.coxPort = true ∧ b2 ≤ a ∧ a < b2 + 65536 then some (2, a - b2)
  else if c.coxPort = true ∧ b4 ≤ a ∧ a < b4 + 2 ^ (30 + c.get H.apertureInForce) then some (4, a - b4)
  else none

/-- The header of a type 1 configuration request made type 0 (R257; PRESUMED layout: bit 0 of the first byte). -/
def typeZero (t : Tlp) : Tlp :=
  { t with type1 := false, bytes := match t.bytes with | [] => [] | b :: rest => (b &&& 0xFE) :: rest }

/-- A byte of the FOP mailbox as the host reads it (R336). DOORBELL reads 1 while a request waits for the response area. -/
def Hub.mailboxByte (c : Hub) (off : Nat) : Byte :=
  let u32 : Nat → Byte := fun v => BitVec.ofNat 8 (v / 256 ^ (off % 4))
  let waits := c.requestWaits && c.flag H.rspReady
  let flag : Bool → Nat → Nat := fun b k => if b then k else 0
  if off < 4 then u32 (c.get H.reqLength)
  else if off < 8 then u32 (flag waits 1)
  else if off < 0xC then u32 c.rspBuf.length
  else if off < 0x10 then u32 (flag (c.flag H.rspReady) 1 + flag (c.flag H.reqBusy) 2 + flag (c.get H.ntfHead != c.get H.ntfTail) 4)
  else if off < 0x14 then 0
  else if off < 0x18 then u32 (c.get H.ntfHead)
  else if off < 0x1C then u32 (c.get H.ntfTail)
  else if 0x1000 ≤ off ∧ off < 0x1400 then c.reqBuf.getD (off - 0x1000) 0
  else if 0x1400 ≤ off ∧ off < 0x1800 then c.rspBuf.getD (off - 0x1400) 0
  else if 0x2000 ≤ off then
    match c.ntfRing.find? fun x => x.slot == (off - 0x2000) / 0x600 with
    | none => 0
    | some x => (leBytes x.bytes.length 4 ++ x.bytes).getD ((off - 0x2000) % 0x600) 0
  else 0

/-- A byte of BAR0 as the host reads it (R262). -/
def Hub.bar0Byte (c : Hub) (off : Nat) : Byte := if off < 0x8000 then c.mailboxByte off else c.msixByte off

/-- Bytes of REQ_LENGTH and REQ_BUF written while no request runs (R336). -/
def Hub.requestWrite (c : Hub) (off : Nat) (data : Bytes) : Hub :=
  if off < 4 then c.put H.reqLength (leNat (overlay (leBytes (c.get H.reqLength) 4) off data))
  else { c with reqBuf := (overlay (c.reqBuf ++ List.replicate (1024 - c.reqBuf.length) 0) (off - 0x1000) data).take 1024 }

/-- A memory write in BAR0 (R262, R336). REQ_LENGTH and REQ_BUF take their bytes, or count MAILBOX_OVERRUNS while a request runs; the MSI-X table
takes its own; DOORBELL, RSP_ACK and NTF_TAIL are the commands MAILBOX_DOORBELL, RSP_ACK and NTF_TAIL_WRITE. -/
def Hub.bar0Write (c : Hub) (off : Nat) (data : Bytes) : Hub :=
  if off < 4 ∨ (0x1000 ≤ off ∧ off < 0x1400) then
    if c.flag H.reqBusy then c.count O.mailboxOverruns else c.requestWrite off data
  else if 0x8000 ≤ off then
    (c.each (List.range data.length) fun c i => c.msixWrite (off + i) (data.getD i 0)).msixSweep
  else c.emit (.barAccess 0 off)

/-- The length in bytes that a memory read asks for, from its header (PRESUMED: bits 9 to 0 of the first dword, in dwords, 0 for 1,024). -/
def readLength (t : Tlp) : Nat :=
  let n := (t.bytes.getD 2 0).toNat % 4 * 256 + (t.bytes.getD 3 0).toNat
  4 * (if n = 0 then 1024 else n)

/-- A memory request inside a BAR of the hub function (R262). BAR0 is read and written here; an access to BAR2 or BAR4 is the command BAR2_ACCESS,
BAR4_WRITE or BAR4_READ. -/
def Hub.barRequest (c : Hub) (bar off : Nat) (t : Tlp) : Hub :=
  let c := c.tlpTaken t
  if bar ≠ 0 then c.emit (.barAccess bar off)
  else if t.kind = .memWrite then c.bar0Write off t.data
  else c.completeRead t.requester.toNat t.tag.toNat off ((List.range (readLength t)).map fun i => c.bar0Byte (off + i))

/-- A TLP from the link of a Cox or a Crew (R253, R257). -/
def Hub.routeTlp (c : Hub) (t : Tlp) : Hub :=
  match t.kind with
  | .cfgRead | .cfgWrite =>
    match c.functionOf t with
    | some f => c.configRequest f t
    | none =>
      if t.type1 && c.coxPort then
        match c.vdpOfBus t.bus.toNat with
        | some v => if t.bus.toNat = (c.vdpBuses v).1 then c.toVdp v (typeZero t) else c.toVdp v t
        | none => c.unsupported t c.linkFunctions
      else c.unsupported t c.linkFunctions
  | .memRead | .memWrite =>
    match c.barOf t.addr.toNat with
    | some (bar, off) => c.barRequest bar off t
    | none =>
      match (if c.coxPort then (List.range 64).find? fun v => c.inWindow v t.addr.toNat else none) with
      | some v => c.toVdp v t
      | none => c.unsupported t c.linkFunctions
  | .completion =>
    match (if c.coxPort then c.vdpOfBus t.bus.toNat else none) with
    | some v => c.toVdp v t
    | none => c.unsupported t c.linkFunctions
  | .message | .otherPosted | .otherNonPosted => c.unsupported t c.linkFunctions

/-! ## The Oar's root port (R259, R260) -/

/-- The VALID PCIe entry of an Oar that enters at, or leaves by, its PCIe adapter. -/
def Hub.rootEntry (c : Hub) (inward : Bool) : Option Nat :=
  c.liveEntries.find? fun t => c.valid t && (if inward then c.get (O.pathIn t) == 0x20 else c.get (O.pathOut t) == 0x20 && !c.isMcast t)

/-- A TLP from the link of an Oar's root port enters its tunnel unchanged, or is answered. -/
def Hub.rootPortIn (c : Hub) (t : Tlp) : Hub :=
  match c.rootEntry true with
  | some e =>
    if c.tlpBarred then ((c.tlpTaken t).count O.rpDiscards).when (t.kind.category == 1) fun c =>
      c.emit (.completion t.requester.toNat t.tag.toNat 1 [])
    else c.tlpIngress e t
  | none => ((c.tlpTaken t).count O.rpDiscards).when (t.kind.category == 1) fun c =>
      c.emit (.completion t.requester.toNat t.tag.toNat 1 [])

/-- PCIE_TLP_RECEIVE (R257, R259). -/
def execPcieTlpReceive (tlp : Tlp) (s : State) : Host.Outcome State Fault Refusal :=
  onDomains s fun c => if c.oarPort then c.awake.rootPortIn tlp else c.awake.routeTlp tlp

/-- The virtual downstream port whose pair of tunnels a TLP came up. -/
def Hub.vdpOfTid (c : Hub) (tid : Nat) : Option Nat :=
  let pair := c.get (O.pathPair tid)
  if 16384 ≤ pair then none else c.boundVdps.find? fun v => c.get (O.routeTid (c.get (O.vdpDown v)) 0) == pair

/-- The virtual downstream port that a request violates by its requester's bus number (R254, ACS Source Validation): one that lies outside the port's
secondary and subordinate bus numbers (PRESUMED, notes/assumptions/40.md). -/
def Hub.acsViolated (c : Hub) (x : EgressTlp) : Option Nat :=
  if c.coxPort = false ∨ x.category = 2 then none
  else
    let bus := ((tlpHeader x.bytes.length x.bytes).getD 4 0).toNat
    match c.vdpOfTid x.tid with
    | some v => if (c.vdpBuses v).1 ≤ bus ∧ bus ≤ (c.vdpBuses v).2 then none else some v
    | none => none

/-- A request that a virtual downstream port's Source Validation stops (R254): recorded there as an ACS violation, and a non-posted one answered down
the port's tunnel with Completer Abort (PRESUMED, notes/assumptions/40.md). -/
def Hub.acsStop (c : Hub) (v : Nat) (x : EgressTlp) : Hub :=
  let c := c.aerRecord (2 + v) aerAcs (x.category == 1) x.bytes
  c.when (x.category == 1) fun c => (c.draw.2).tlpPacket (c.get (O.pathPair x.tid)) 2 (completionBytes 4 x.bytes c.draw.1)

/-- The TLP goes out to the PCIe partner, but for a request that Source Validation stops; a non-posted one is to be reported on the paired tunnel
(R46). INTx messages from tunnels end at
the Cox, and so does a vendor-defined message whose routing field names the receiver or is a broadcast of the root, which counts in UR_SENT (R254;
DESIGN CHOICE, notes/assumptions/40.md). -/
def Hub.sendTlp (c : Hub) (x : EgressTlp) : Hub :=
  let header := tlpHeader x.bytes.length x.bytes
  let b := (header.getD 0 0).toNat
  let code := (header.getD 7 0).toNat
  let message := c.coxPort && bits b 5 1 == 1 && bits b 3 2 == 2
  let intx := message && decide (0x20 ≤ code ∧ code ≤ 0x27)
  let vendor := message && (code == 0x7E || code == 0x7F) && (bits b 0 3 == 3 || bits b 0 3 == 4)
  let c := c.when (x.category == 1) fun c => c.put (H.npSent x.tid) (c.get (H.npSent x.tid) + 1)
  match c.acsViolated x with
  | some v => c.acsStop v x
  | none => if intx then c.count O.intxDiscards else if vendor then c.count O.urSent else c.emit (.tlp x.bytes)

/-- The TLP the egress adapter may send next (R45): the oldest of its FIFO whose partner credit allows, with no posted TLP before it. -/
def nextTlp (creditP creditNp creditCpl : Bool) (seenNp seenCpl : Bool) : List EgressTlp → Option EgressTlp
  | [] => none
  | x :: rest =>
    if x.category = 0 then (if creditP then some x else none)
    else if x.category = 1 then
      (if creditNp && !seenNp then some x else nextTlp creditP creditNp creditCpl true seenCpl rest)
    else (if creditCpl && !seenCpl then some x else nextTlp creditP creditNp creditCpl seenNp true rest)

/-- ROOT_PORT_TLP_RECEIVE (R45, R259, R260): a TLP of the link enters the tunnel. One of the tunnel, which joins the adapter's FIFOs where it does not
stand in them yet, goes to the link if no posted TLP and none of its own kind is before it; else it waits there. -/
def execRootPortTlpReceive (fromTunnel : Bool) (tlp : Tlp) (s : State) : Host.Outcome State Fault Refusal :=
  onDomains s fun c =>
    if !c.oarPort then c
    else if !fromTunnel then c.awake.rootPortIn tlp
    else
      let k := tlp.kind.category
      let x : EgressTlp := (c.tlpOut.find? fun x => x.bytes == tlp.bytes).getD ⟨(c.rootEntry false).getD 0xFFFF, k, tlp.bytes⟩
      let c := if c.tlpOut.contains x then c else { c with tlpOut := c.tlpOut ++ [x] }
      if c.tlpBarred then ({ c with tlpOut := c.tlpOut.erase x } : Hub).barTlp x
      else if nextTlp (x.category == 0) (x.category == 1) (x.category == 2) false false c.tlpOut = some x then
        ({ c with tlpOut := c.tlpOut.erase x } : Hub).sendTlp x
      else c

/-- PCIE_TLP_EGRESS (R45): with the credits the partner has left, one TLP of the adapter's FIFOs is sent. -/
def execPcieTlpEgress (creditP creditNp creditCpl : Bool) (s : State) : Host.Outcome State Fault Refusal :=
  onDomains s fun c =>
    match nextTlp creditP creditNp creditCpl false false c.barWaiting.tlpOut with
    | none => c.barWaiting
    | some x => ({ c.barWaiting with tlpOut := c.barWaiting.tlpOut.erase x } : Hub).sendTlp x

/-- PCIE_RELEASE_ONLY (R46): the sends of a tunnel that no packet of its pair has reported go back in a packet without TLP. -/
def execPcieReleaseOnly (tid : Fin 16384) (s : State) : Host.Outcome State Fault Refusal :=
  onDomains s fun c =>
    let pair := c.get (O.pathPair tid)
    let n := min (c.get (H.npSent tid)) 64
    if n = 0 ∨ 16384 ≤ pair then c
    else
      let c := c.put (H.npSent tid) (c.get (H.npSent tid) - n)
      let (p, c) := c.makePacket pair (c.get (O.pathCls pair)) 2 0 (3 + 256 * n) []
      (c.receive 24 p).pcieSweep

/-! ## Resets and training (R258, R260–R262) -/

/-- PCIE_HOT_RESET (R258): a Hot Reset of the host, or with a port named the Secondary Bus Reset of that virtual downstream port. -/
def execPcieHotReset (vdp : Option (Fin 64)) (s : State) : Host.Outcome State Fault Refusal :=
  onDomains s fun c =>
    if c.oarPort then c
    else match vdp with
      | some v => c.resetFar v
      | none => c.configDefaults.when c.coxPort fun c => c.each c.boundVdps Hub.resetFar

/-- PCIE_LINK_TRAINING (R261, R262): the link comes up within SPEED_MAX and WIDTH_MAX and advertises credits for the cells written; from
Down the aperture takes its size anew. A false PCIE_ENABLE holds the link down. -/
def execPcieLinkTraining (speed width : BitVec 8) (s : State) : Host.Outcome State Fault Refusal :=
  onDomains s fun c =>
    if c.flag O.pcieEnable = false then c
    else
      let v := min speed.toNat (c.get O.pcieSpeedMax)
      let w := min width.toNat (c.get O.pcieWidthMax)
      let c := c.when (c.get H.pcieLink != 2) fun c => c.put H.apertureInForce (c.get O.apertureSize)
      let c := (((c.put H.pcieLink 2).put O.pcieLinkSpeed v).put O.pcieLinkWidth w).put H.pcieCellsInForce (c.get O.creditCellsPcie)
      let c := c.when c.oarPort fun c => (((c.put O.rpLinkState 2).put O.rpSpeed v).put O.rpWidth w).putB O.rpHotReset false
      c.advertise.recompute

/-- PCIE_LINK_DOWN (R258, R260): configuration space returns to its defaults, the adapter discards what it holds, and PCIE_LINK_DOWN is
reported, but for the Hot Reset that RP_HOT_RESET asked for. -/
def execPcieLinkDown (s : State) : Host.Outcome State Fault Refusal :=
  onDomains s fun c =>
    let asked := c.flag O.rpHotReset
    let c := c.pcieLost
    c.when (!asked) fun c => c.raise 64

/-- RP_HOT_RESET written (R260): true sends a Hot Reset, and the link retrains. -/
def Hub.writeRpHotReset (c : Hub) (on : Bool) : Status × Hub :=
  if !c.isOar then (.noObject, c)
  else if !on then (.ok, c)
  else
    let c := (((c.putB O.rpHotReset true).put O.rpLinkState 1).put O.rpSpeed 0).put O.rpWidth 0
    (.ok, ((((c.put O.pcieLinkSpeed 0).put O.pcieLinkWidth 0).put H.pcieLink 1).barWaiting.recompute).emit .hotReset)

/-- RP_HOT_RESET: Engineer and Owner, in an Oar. -/
def execRpHotReset (lvl : Level) (value : Bool) (s : State) : Host.Outcome State Fault Refusal :=
  onWrite (.rpHotReset lvl value) s fun c => c.request lvl engineerWrites fun c => c.writeRpHotReset value

/-! ## Virtual downstream ports (R255, R256) -/

/-- A request of a poll of a virtual downstream port's root port. -/
def polls (v : Nat) (r : RigRequest) : Bool := match r.origin with | .poll w _ => w == v | _ => false

/-- A poll of the far root port begins: READs of RP_LINK_STATE, RP_SPEED and RP_WIDTH (R256). One still under way is not joined by another (DESIGN
CHOICE, notes/assumptions/49.md). -/
def Hub.beginPoll (c : Hub) (v : Nat) : Hub :=
  if (c.rigWait ++ c.rigOut ++ c.rigBack).any (polls v) then c
  else c.each [1, 2, 3] fun c k => c.farObject v 1 k [] (.poll v k)

/-- The three answers of a poll, arriving together. -/
def Hub.endPoll (c : Hub) (v : Nat) (a : VdpPoll) : Hub :=
  let drop : List RigRequest → List RigRequest := fun rs => rs.filter fun r => !polls v r
  let c := { c with rigWait := drop c.rigWait, rigOut := drop c.rigOut, rigBack := drop c.rigBack }
  let c := ((c.putB (H.farUp v) (a.linkState == 2)).put (O.vdpFarSpeed v) a.speed.toNat).put (O.vdpFarWidth v) a.width.toNat
  (c.refreshVdp v).pumpRig

/-- VDP_POLL (R256): VDP_POLL strokes have passed, and the Cox reads the far root port of a port whose routes carry; with the answers, what the three
READs of the poll have brought. -/
def execVdpPoll (vdp : Fin 64) (answer : Option VdpPoll) (s : State) : Host.Outcome State Fault Refusal :=
  onDomains s fun c =>
    if !c.coxPort || decide (c.vdpNow vdp < 2) then c.refreshVdp vdp
    else match answer with
      | none => c.beginPoll vdp
      | some a => c.endPoll vdp a

/-- Two routes may bind a port (R255): PCIe routes that name each other, from 20h of the Cox to an Oar and back from the same Oar. -/
def Hub.bindable (c : Hub) (d u : Nat) : Bool :=
  decide (d < 4096 ∧ u < 4096) && c.get (O.routeType d) == 2 && c.get (O.routeType u) == 2
    && c.get (O.routePair d) == u && c.get (O.routePair u) == d
    && c.get (O.routeSrcHub d) == 0 && c.get (O.routeSrcEnd d) == 0x20 && c.get (O.routeDstHub u) == 0 && c.get (O.routeDstEnd u) == 0x20
    && c.get (O.routeDstHub d) == c.get (O.routeSrcHub u) && c.get (O.routeDstHub d) != 0
    && c.get (H.hubRole (c.get (O.routeDstHub d))) == 0

/-- A binding written (R255): FFFFh in DOWN_ROUTE unbinds. -/
def Hub.writeVdp (c : Hub) (v d u : Nat) : Status × Hub :=
  if !c.isCox then (.range, c)
  else if d = 0xFFFF then (.ok, ((((c.put (O.vdpDown v) d).put (O.vdpUp v) u).put (O.vdpOar v) 0).refreshVdp v))
  else if c.bindable d u then (.ok, (((c.put (O.vdpDown v) d).put (O.vdpUp v) u).put (O.vdpOar v) (c.get (O.routeDstHub d))).refreshVdp v)
  else (.invalidValue, c)

/-- VDP_TABLE_WRITE: Engineer and Owner, in the Cox. -/
def execVdpTableWrite (lvl : Level) (vdp : Fin 64) (down up : BitVec 16) (s : State) : Host.Outcome State Fault Refusal :=
  onWrite (.vdpTableWrite lvl vdp down up) s fun c => c.request lvl engineerWrites fun c => c.writeVdp vdp down.toNat up.toNat

/-! ## BAR2 (R263) -/

/-- BAR2_ACCESS (R263): one local read or write of the process image, within its 64 KiB; a Cox alone has BAR2. A read asks for as many bytes
as `data` has. -/
def execBar2Access (offset : Fin 65536) (write : Bool) (data : Bytes) (s : State) : Host.Outcome State Fault Refusal :=
  onDomainsAll s fun c m =>
    if !c.coxPort then (c.count O.urSent, m)
    else
      let n := min data.length (65536 - offset.val)
      if write then (c, m.writeImage offset (data.take n)) else (c.emit (.barData (m.readImage offset n)), m)

end Sys2Proof.Machine
end

