-- ==== Sys2Proof/Machine/TypeC.lean ====
section
/-! DEFINITION. The commands of cable attach (R195–R200, R206, R214, R219, R220): toggling, termination, debounce, the Try paths, detach,
ErrorRecovery, POLICY and PORT_DISABLE. -/
namespace Sys2Proof.Machine

/-- The CC pin on which exactly one partner termination of a kind shows: 1 CC1, 2 CC2, 0 none. Ra/Ra and a termination on both pins are
no attach (R195). -/
def ccPins (cc : CcView) (t : CcTerm) : Nat :=
  if cc.cc1 = t ∧ cc.cc2 ≠ .rd ∧ cc.cc2 ≠ .rp then 1 else if cc.cc2 = t ∧ cc.cc1 ≠ .rd ∧ cc.cc1 ≠ .rp then 2 else 0

/-- What the port sees is recorded (R199, R201). -/
def Hub.noteCc (c : Hub) (p pin : Nat) (cc : CcView) : Hub :=
  let other := if pin = 1 then cc.cc2 else cc.cc1
  ((c.put (H.ccCand p) pin).putB (H.ccRa p) (other == .ra)).putB (H.vbusSeen p) cc.vbus

/-- DRP_TOGGLE (R198): an unattached DRP port presents the other termination. -/
def execDrpToggle (p : Port) (s : State) : Host.Outcome State Fault Refusal :=
  onPorts s fun c =>
    if c.get (O.attachState p) = 0 ∧ 2 ≤ c.get (O.policy p) then c.putB (H.ccRp p) (!c.flag (H.ccRp p)) else c

/-- tCCDebounce has ended with the partner still there: attach, or the Try path that POLICY selects (R198). -/
def Hub.afterDebounce (c : Hub) (p : Nat) : Hub :=
  if c.get (H.attachAs p) = 1 then
    if c.get (O.policy p) = 4 then (((c.put (O.attachState p) 2).put (H.tryPath p) 3).put (H.trySeen p) 0).putB (H.ccRp p) false else c.attach p 1
  else if !c.flag (H.vbusSeen p) then c.put (H.debounced p) 1
  else if c.get (O.policy p) = 3 then (((c.put (O.attachState p) 2).put (H.tryPath p) 1).put (H.trySeen p) 0).putB (H.ccRp p) true
  else c.attach p 2

/-- The Try state that follows a failed Try.SRC or Try.SNK. -/
def Hub.tryWait (c : Hub) (p path : Nat) : Hub := ((c.put (H.tryPath p) path).put (H.trySeen p) 0).putB (H.ccRp p) (path == 4)

/-- CC_TERMINATION_SEEN (R195, R198): toggling stops and debounce starts; a sink that waits for VBUS attaches with it; a Try state notes the
partner it waits for. -/
def execCcTerminationSeen (p : Port) (cc : CcView) (s : State) : Host.Outcome State Fault Refusal :=
  onPorts s fun c =>
    let rd := ccPins cc .rd
    let rp := ccPins cc .rp
    match c.get (O.attachState p) with
    | 0 =>
      let pin := if c.presentsRp p then rd else rp
      if pin = 0 ∨ c.pdOn = false then c
      else (((c.awake.noteCc p pin cc).put (O.attachState p) 1).put (H.attachAs p) (if c.presentsRp p then 1 else 2)).put (H.debounced p) 0
    | 1 =>
      if c.get (H.attachAs p) = 2 ∧ rp = c.get (H.ccCand p) then
        let c := c.putB (H.vbusSeen p) cc.vbus
        if c.flag (H.debounced p) && cc.vbus then c.afterDebounce p else c
      else c
    | 2 =>
      let path := c.get (H.tryPath p)
      let pin := if path = 1 ∨ path = 4 then rd else rp
      if pin = 0 ∨ ((path = 2 ∨ path = 3) ∧ cc.vbus = false) then c.put (H.trySeen p) 0 else (c.noteCc p pin cc).put (H.trySeen p) 1
    | _ => c

/-- CC_DEBOUNCE_EXPIRY (R198, R199): AttachWait ends; in TryWait.SNK the port attaches as Sink. -/
def execCcDebounceExpiry (p : Port) (s : State) : Host.Outcome State Fault Refusal :=
  onPorts s fun c =>
    if c.get (O.attachState p) = 1 then c.afterDebounce p
    else if c.get (O.attachState p) = 2 ∧ c.get (H.tryPath p) = 2 ∧ c.flag (H.trySeen p) = true then c.attach p 2
    else c

/-- TRY_TIMER_EXPIRY (R198, R211): tDRPTry (0) and tTryTimeout (1) end a Try state in which the partner has not shown; tTryCCDebounce (2) attaches
where it has. -/
def execTryTimerExpiry (p : Port) (timer : Fin 3) (s : State) : Host.Outcome State Fault Refusal :=
  onPorts s fun c =>
    if c.get (O.attachState p) ≠ 2 then c
    else
      let seen := c.flag (H.trySeen p)
      match c.get (H.tryPath p), timer.val with
      | 1, 2 => if seen then c.attach p 1 else c
      | 1, 1 => c.tryWait p 2
      | 1, _ => if seen then c else c.tryWait p 2
      | 3, 2 => if seen then c.attach p 2 else c.tryWait p 4
      | 3, _ => if seen then c else c.tryWait p 4
      | 4, 2 => if seen then c.attach p 1 else c
      | 4, _ => if seen then c else c.unattach p
      | _, _ => c

/-- CC_DETACH (R220). A port in ErrorRecovery or Disabled shows no partner to lose. -/
def execCcDetach (p : Port) (s : State) : Host.Outcome State Fault Refusal :=
  onPorts s fun c =>
    let st := c.get (O.attachState p)
    if st = 1 ∨ st = 2 then c.unattach p else if st = 3 ∨ st = 4 then c.detachPort p else c

/-- ERROR_RECOVERY_TIMER (R214, R219). -/
def execErrorRecoveryTimer (p : Port) (s : State) : Host.Outcome State Fault Refusal :=
  onPorts s fun c => if c.get (O.attachState p) = 5 then (c.put (H.erTimer p) 1).recoveryEnds p else c

/-- POLICY written (R197): a change sends the port through ErrorRecovery. -/
def Hub.writePolicy (c : Hub) (p v : Nat) : Status × Hub :=
  if 4 < v then (.invalidValue, c)
  else if v = c.get (O.policy p) then (.ok, c)
  else
    let c := c.put (O.policy p) v
    (.ok, if c.get (O.attachState p) = 6 then c else c.errorRecovery p)

/-- POLICY_WRITE: Engineer and Owner. -/
def execPolicyWrite (lvl : Level) (p : Port) (value : BitVec 8) (s : State) : Host.Outcome State Fault Refusal :=
  onWrite (.policyWrite lvl p value) s fun c => c.request lvl engineerWrites fun c => c.writePolicy p value.toNat

/-- PORT_DISABLE written (R206). -/
def Hub.writePortDisable (c : Hub) (p : Nat) (value : Bool) : Status × Hub :=
  let c := c.putB (O.portDisable p) value
  (.ok, if value then (if c.get (O.attachState p) = 6 then c else c.disablePort p)
        else if c.get (O.sourceCapState p) = 2 then c else c.enablePort p)

/-- PORT_DISABLE_WRITE: Engineer and Owner. -/
def execPortDisableWrite (lvl : Level) (p : Port) (value : Bool) (s : State) : Host.Outcome State Fault Refusal :=
  onWrite (.portDisableWrite lvl p value) s fun c => c.request lvl engineerWrites fun c => c.writePortDisable p value

end Sys2Proof.Machine
end

