-- ==== Sys2Proof/Machine/Pd.lean ====
section
/-! DEFINITION. The commands of USB Power Delivery (R196, R201–R218): contracts as Source and as Sink, EPR, resets and their escalation,
swaps, the cable marker, VCONN, and the writes that start them. -/
namespace Sys2Proof.Machine

/-! ## Request objects, as the standard lays them out -/

/-- The object position of a request. -/
def rdoPosition (rdo : Nat) : Nat := bits rdo 28 4
/-- A request for a fixed PDO (R207): full current, No USB Suspend, EPR Mode Capable and Capability Mismatch as given. -/
def fixedRdo (position steps : Nat) (epr mismatch : Bool) : Nat :=
  2 ^ 28 * position + (if mismatch then 2 ^ 26 else 0) + 2 ^ 24 + (if epr then 2 ^ 22 else 0) + 2 ^ 10 * steps + steps
/-- A request for an SPR PPS APDO (R208): voltage in 20 mV, current in 50 mA. -/
def ppsRdo (position mv ma : Nat) (epr : Bool) : Nat :=
  2 ^ 28 * position + 2 ^ 24 + (if epr then 2 ^ 22 else 0) + 2 ^ 9 * (mv / 20) + ma / 50

/-- A fixed PDO: its voltage in mV, and its current in 10 mA steps. -/
def pdoMv (pdo : Nat) : Nat := 50 * bits pdo 10 10
def pdoSteps (pdo : Nat) : Nat := bits pdo 0 10
/-- The PDO is a fixed one that offers something. -/
def pdoFixed (pdo : Nat) : Bool := bits pdo 30 2 == 0 && pdo != 0

/-- The PDOs with their positions, from 1. -/
def positioned (pdos : List Nat) : List (Nat × Nat) := ((List.range pdos.length).map (· + 1)).zip pdos

/-- The fixed PDO a sink takes (R207): the greatest power up to SINK_VMAX; between equals the lower voltage. -/
def Hub.bestPdo (c : Hub) (p : Nat) (pdos : List Nat) : Option (Nat × Nat) :=
  let power : Nat × Nat → Nat := fun x => pdoMv x.2 * pdoSteps x.2
  ((positioned pdos).filter fun x => pdoFixed x.2 && decide (pdoMv x.2 ≤ c.get (O.sinkVmax p))).foldl
    (fun best x => match best with
      | none => some x
      | some b => if power b < power x ∨ (power b = power x ∧ pdoMv x.2 < pdoMv b.2) then some x else some b) none

/-- The SPR PPS APDO that covers SINK_PPS_MV at SINK_PPS_MA (R208). -/
def Hub.ppsPdo (c : Hub) (p : Nat) (pdos : List Nat) : Option (Nat × Nat) :=
  let mv := c.get (O.sinkPpsMv p)
  (positioned pdos).find? fun x => bits x.2 28 4 == 12 && mv != 0 && decide (100 * bits x.2 8 8 ≤ mv ∧ mv ≤ 100 * bits x.2 17 8)
    && decide (c.get (O.sinkPpsMa p) ≤ 50 * bits x.2 0 7)

/-- A sink's request sent, and remembered until it is answered. -/
def Hub.sendRequest (c : Hub) (p rdo mv ma : Nat) (epr : Bool) : Hub :=
  let c := (((((c.put (H.reqRdo p) rdo).put (H.reqV p) mv).put (H.reqI p) ma).putB (H.reqEpr p) epr).put (H.reqPps p) 0).put (H.eprLeft p) 0
  (c.sendPd p (.request epr rdo)).put (H.pdx p) 2

/-- The sink's choice from the capabilities received (R207, R208). -/
def Hub.chooseRequest (c : Hub) (p : Nat) (epr : Bool) (pdos : List Nat) : Hub :=
  let cap := c.flag (O.sinkEpr p)
  match (if epr then none else c.ppsPdo p pdos) with
  | some x => ((c.putB (O.mismatch p) false).sendRequest p (ppsRdo x.1 (c.get (O.sinkPpsMv p)) (c.get (O.sinkPpsMa p)) cap)
      (c.get (O.sinkPpsMv p)) (c.get (O.sinkPpsMa p)) false).put (H.reqPps p) 1
  | none =>
    let five := pdos.headD 0
    match c.bestPdo p pdos with
    | some x =>
      if c.get (O.sinkPowerMin p) * 100000 ≤ pdoMv x.2 * pdoSteps x.2 then
        (c.putB (O.mismatch p) false).sendRequest p (fixedRdo x.1 (pdoSteps x.2) cap false) (pdoMv x.2) (10 * pdoSteps x.2) epr
      else (c.putB (O.mismatch p) true).sendRequest p (fixedRdo 1 (pdoSteps five) cap true) (pdoMv five) (10 * pdoSteps five) epr
    | none => (c.putB (O.mismatch p) true).sendRequest p (fixedRdo 1 (pdoSteps five) cap true) (pdoMv five) (10 * pdoSteps five) epr

/-- The SPR PDOs of the source's last offer: positions 1–7, without the empty ones at the end (R202). -/
def Hub.sprCaps (c : Hub) (p : Nat) : List Nat :=
  (((List.range 7).map fun i => c.get (H.srcCaps p) / 2 ^ (32 * i) % 2 ^ 32).reverse.dropWhile (· == 0)).reverse

/-- A sink port is in EPR or on its way in, or has left it with its SPR contract still to come (R205). -/
def Hub.eprStill (c : Hub) (p : Nat) : Bool :=
  c.get (O.attachState p) == 4 && (c.flag (H.inEpr p) || c.get (O.contractState p) == 3 || c.get (H.pdx p) == 13)

/-- A sink port leaves EPR before Moored or Stowed (R205): EPR_Mode (Exit), and a request for an SPR contract. It does so once no exchange runs, or
with `now` at once, and the exchange is given up (DESIGN CHOICE, notes/assumptions/79.md). -/
def Hub.leaveEpr (c : Hub) (now : Bool) (p : Nat) : Hub :=
  if c.eprStill p && (c.get (H.pdx p) == 0 || (now && !c.flag (H.eprLeft p))) then
    let c := c.when (c.flag (H.inEpr p) || c.get (H.pdx p) == 13) fun c => (c.put (H.inEpr p) 0).sendPd p .eprExit
    (c.chooseRequest p false (c.sprCaps p)).put (H.eprLeft p) 1
  else c

/-! ## Contracts (R202–R208, R231) -/

/-- SOURCE_CAPABILITIES at a sink (R207, R208, R213). -/
def execSourceCapabilities (p : Port) (epr : Bool) (pdos : List (BitVec 32)) (s : State) : Host.Outcome State Fault Refusal :=
  onPorts s fun c =>
    if c.takesPd p = false ∨ c.isSource p = true then c
    else
      let c := c.heard p
      let x := c.get (H.pdx p)
      if x = 0 ∨ x = 13 ∨ x = 15 then
        let c := (c.putB (H.inEpr p) epr).putB (H.srcEprCap p) (bit ((pdos.headD 0).toNat) 23 || epr)
        let pdos := pdos.map BitVec.toNat
        (c.put (H.srcCaps p) (leNat ((pdos.take 7).flatMap fun x => leBytes x 4))).chooseRequest p epr pdos
      else c.unexpected p

/-- REQUEST at a source (R202, R204): accepted if the PDO is offered with the current asked for, else rejected. -/
def execRequest (p : Port) (epr : Bool) (rdo : BitVec 32) (s : State) : Host.Outcome State Fault Refusal :=
  onPorts s fun c =>
    if c.takesPd p = false ∨ c.isSource p = false then c
    else
      let c := c.heard p
      if 1 < c.get (H.pdx p) then c.unexpected p
      else
        let r := rdo.toNat
        let pdo := (c.sourcePdos p (c.flag (H.inEpr p))).getD (rdoPosition r - 1) 0
        let ok := rdoPosition r != 0 && pdoFixed pdo && decide (bits r 10 10 ≤ pdoSteps pdo) && (bit r 26 || decide (bits r 0 10 ≤ pdoSteps pdo))
        let c := c.put (H.sinkEprCap p) (if bit r 22 then 1 else 0)
        if ok then
          let c := (((c.put (H.reqRdo p) r).put (H.reqV p) (pdoMv pdo)).put (H.reqI p) (10 * bits r 10 10)).putB (H.reqEpr p) epr
          (c.sendPd p .accept).put (H.pdx p) 4
        else (c.sendPd p .reject).pdEnd p

/-- ACCEPT (R208, R213, R215, R217, R231, R232, R234): of a request, of a swap, or of a Soft_Reset. -/
def execAccept (p : Port) (s : State) : Host.Outcome State Fault Refusal :=
  onPorts s fun c =>
    if !c.takesPd p then c
    else
      let c := c.heard p
      match c.get (H.pdx p) with
      | 2 =>
        let c := c.when (decide (c.get (H.reqV p) < c.get (O.sinkOnMv p))) fun c => (c.put (H.snkBlocked p) 1).turnOff p 1
        (c.put (H.pdx p) 3).when (c.flag (H.reqPps p)) fun c => c.sendPd p .getPpsStatus
      | 5 => if c.isSource p then c.put (H.pdx p) 8 else (c.turnOff p 1).put (H.pdx p) 10
      | 6 => ((c.put (O.dataRole p) (3 - c.get (O.dataRole p))).swapOver p 1).pdEnd p
      | 7 =>
        if c.flag (H.vconnSource p) then c.put (H.pdx p) 12
        else ((((c.put (H.vconnSource p) 1).vconnOn p).sendPd p .psRdy).swapOver p 1).pdEnd p
      | 15 => let c := c.put (H.pdx p) 0; if c.isSource p then c.sendCaps p else c.sendDue p
      | _ => c.unexpected p

/-- A PR_Swap ends with this port as Source (k = 1) or Sink (k = 2), on vSafe5V (R217). -/
def Hub.powerSwapped (c : Hub) (p k : Nat) : Hub :=
  let c := ((c.put (O.powerRole p) k).put (O.attachState p) (2 + k)).implicitContract p
  let c := ((c.put (H.inEpr p) 0).swapOver p 1).put (H.pdx p) 0
  if k = 1 then (c.sagHeld p).sendCaps p else c.sendDue p

/-- PS_RDY (R205, R213, R217): a contract in force at the sink, which may enter EPR before what waited for
the exchange is sent, but not in Moored; or a step of a swap. -/
def execPsRdy (p : Port) (s : State) : Host.Outcome State Fault Refusal :=
  onPorts s fun c =>
    if !c.takesPd p then c
    else
      let c := c.heard p
      match c.get (H.pdx p) with
      | 3 =>
        let c := c.contractIn p
        let left := c.flag (H.eprLeft p)
        let c := c.put (H.eprLeft p) 0
        if left = false ∧ c.get O.powerState < 3 ∧ c.get (O.contractState p) = 2 ∧ c.flag (H.srcEprCap p) = true ∧ c.flag (O.sinkEpr p) = true ∧ 20000 < c.get (O.sinkVmax p) then
          (c.sendPd p (.eprEnter 240)).put (H.pdx p) 13
        else c.sendDue p
      | 9 => c.powerSwapped p 2
      | 10 => ((c.turnOff p 1).callSource p).put (H.pdx p) 11
      | 12 => (((c.put (H.vconnSource p) 0).vconnRelease p).swapOver p 1).pdEnd p
      | _ => c.unexpected p

/-- The reason of Enter Failed that the standard assigns to the first condition of R204 that fails. -/
def Hub.eprReason (c : Hub) (p : Nat) : Nat :=
  if c.get (H.sinkEprCap p) = 0 then 3 else if c.flag (O.eprEnable p) = false then 5
  else if c.flag (O.cableEpr p) = false ∨ c.get (O.cableCurrent p) ≠ 5000 then 1 else 4

/-- EPR_MODE_ENTER at a source (R204). -/
def execEprModeEnter (p : Port) (s : State) : Host.Outcome State Fault Refusal :=
  onPorts s fun c =>
    if c.takesPd p = false ∨ c.isSource p = false then c
    else
      let c := c.heard p
      if c.get (H.pdx p) ≠ 0 then c.unexpected p
      else
        let c := c.sendPd p .eprEnterAck
        if c.eprAllowed p then ((c.sendPd p .eprSucceeded).put (H.inEpr p) 1).sendCaps p else c.sendPd p (.eprFailed (c.eprReason p))

/-- EPR_MODE_EXIT (R204): EPR is left, and a source offers SPR capabilities. -/
def execEprModeExit (p : Port) (s : State) : Host.Outcome State Fault Refusal :=
  onPorts s fun c =>
    if c.takesPd p = true ∧ c.flag (H.inEpr p) = true then ((c.heard p).put (H.inEpr p) 0).capsChanged p else c

/-- EPR_KEEPALIVE at a source (R204): acknowledged; its timer starts again. -/
def execEprKeepalive (p : Port) (s : State) : Host.Outcome State Fault Refusal :=
  onPorts s fun c => if c.takesPd p = true ∧ c.isSource p = true ∧ c.flag (H.inEpr p) = true then (c.heard p).sendPd p .eprKeepAliveAck else c

/-- SRC_TRANSITION_TIMER (R217, R231): the voltage transition begins, or the old source of a PR_Swap turns its source FET off. -/
def execSrcTransitionTimer (p : Port) (s : State) : Host.Outcome State Fault Refusal :=
  onPorts s fun c =>
    match c.get (H.pdx p) with
    | 4 => (c.put (H.convTarget p) (c.get (H.reqV p))).put (H.slewing p) 1
    | 8 => c.dropSource p
    | _ => c

/-! ## Resets (R213, R214) -/

/-- SOFT_RESET received (R213, R231, R418): accepted, any slew of VBUS toward a contract given up, and a source offers capabilities anew. A parent counts the mode on the port of a child it
holds asleep as exited, without DETACH. -/
def execSoftReset (p : Port) (s : State) : Host.Outcome State Fault Refusal :=
  onPorts s fun c =>
    if !c.takesPd p then c
    else
      let c := c.heard p
      if c.inTransition p && c.normal p then c.unexpected p
      else
        let entered := c.get (O.modeState p) == 2 || c.get (O.modeState p) == 3
        let c := ((c.breakSwap p).resetIds p).when (c.flag (H.childAsleep p)) fun c =>
          ((c.put (O.modeState p) 0).put (O.entryResult p) 0).lanesExit p entered
        let c := ((c.sendPd p .accept).put (H.pdx p) 0).put (H.slewing p) 0
        if c.isSource p then c.sendCaps p else c.sendDue p

/-- HARD_RESET received (R213, R214, R220): one that crosses the port's own counts as sent alone. -/
def execHardReset (p : Port) (s : State) : Host.Outcome State Fault Refusal :=
  onPorts s fun c => if c.takesPd p = false ∨ c.get (H.hrSent p) = 1 then c else c.hardReset p false

/-- An exchange that awaits an answer ends without one, a swap with no result (notes/assumptions/79.md). -/
def Hub.unanswered (c : Hub) (p : Nat) : Hub := (c.breakSwap p).pdEnd p

/-- SENDER_RESPONSE_TIMER (R212, R213): from Normal, Soft Reset; Hard Reset where a Soft_Reset goes unanswered. Against a Type-C-only partner or one
that has never spoken the exchange just ends, and so it does in a state whose row of R213 lists no such event. To a child asleep nothing is sent, and a
source's offer is made anew when it is awake (R418). -/
def execSenderResponseTimer (p : Port) (s : State) : Host.Outcome State Fault Refusal :=
  onPorts s fun c =>
    let x := c.get (H.pdx p)
    if ¬ (x = 1 ∨ x = 2 ∨ (5 ≤ x ∧ x ≤ 7) ∨ x = 13 ∨ x = 15) then c
    else if c.flag (H.childAsleep p) = true ∧ x ≠ 15 then (c.unanswered p).capsChanged p
    else if c.get (O.contractState p) = 4 ∨ (x = 1 ∧ c.flag (H.pdSeen p) = false) then c.unanswered p
    else if x = 15 then c.hardReset p true
    else if c.normal p then c.sendSoftReset p
    else c.unanswered p

/-- PS_TRANSITION_TIMER (R213, R217): PSTransitionTimer at a sink, from Normal; tPSSourceOn at either side of a PR_Swap. -/
def execPsTransitionTimer (p : Port) (s : State) : Host.Outcome State Fault Refusal :=
  onPorts s fun c =>
    let x := c.get (H.pdx p)
    if (x = 3 ∧ c.normal p = true) ∨ x = 9 ∨ x = 10 ∨ x = 11 then c.hardReset p true else c

/-- NO_RESPONSE_TIMER (R212, R213, R378): no contract within tNoResponse of a Soft Reset or of Hard Reset k. -/
def execNoResponseTimer (p : Port) (s : State) : Host.Outcome State Fault Refusal :=
  onPorts s fun c =>
    if c.attached p = false ∨ c.get (O.contractState p) = 4 ∨ (c.explicit p = true ∧ c.get (H.softReset p) = 0) then c
    else
      let k := c.get (O.hardResetRun p)
      let c := c.when (c.get (H.hrSink p) != 0) fun c => ((c.put (H.hrSink p) 0).reactionDone 2 p).reactionDone 0 p
      if k = 3 then c.errorRecovery p
      else if 1 ≤ k ∨ c.flag (H.softReset p) = true then (c.put (H.hrSent p) 0).hardReset p true
      else c

/-- SRC_RECOVER_TIMER (R214): vSafe5V again, with VCONN; capabilities follow once VBUS is up. -/
def execSrcRecoverTimer (p : Port) (s : State) : Host.Outcome State Fault Refusal :=
  onPorts s fun c =>
    if c.get (H.srcRecover p) = 1 then
      let c := (((c.put (H.srcRecover p) 0).put (H.hrSent p) 0).implicitContract p).callSource p
      (c.when (c.flag (H.vconnSource p)) fun c => c.vconnOn p).put (H.capsDue p) 1
    else c

/-- SOURCE_EPR_KEEPALIVE_TIMER (R204, R213): counted, and from Normal a Hard Reset. -/
def execSourceEprKeepaliveTimer (p : Port) (s : State) : Host.Outcome State Fault Refusal :=
  onPorts s fun c =>
    if c.takesPd p = true ∧ c.isSource p = true ∧ c.flag (H.inEpr p) = true then
      (c.count (O.keepaliveTimeouts p)).when (c.normal p) fun c => c.hardReset p true
    else c

/-- SINK_EPR_KEEPALIVE_TIMER (R205). A child asleep is sent nothing unasked (R418). -/
def execSinkEprKeepaliveTimer (p : Port) (s : State) : Host.Outcome State Fault Refusal :=
  onPorts s fun c =>
    if c.takesPd p = true ∧ c.isSource p = false ∧ c.flag (H.inEpr p) = true ∧ c.flag (H.childAsleep p) = false then c.sendPd p .eprKeepAlive else c

/-- PPS_REQUEST_TIMER (R208): the PPS request in force is repeated, but to no child asleep (R418). -/
def execPpsRequestTimer (p : Port) (s : State) : Host.Outcome State Fault Refusal :=
  onPorts s fun c =>
    if c.takesPd p = true ∧ c.isSource p = false ∧ c.flag (H.ppsNow p) = true ∧ c.get (H.pdx p) = 0 ∧ c.flag (H.childAsleep p) = false then
      (c.sendRequest p (c.get (O.contractRdo p)) (c.get (O.contractV p)) (c.get (O.contractI p)) false).put (H.reqPps p) 1
    else c

/-- GOODCRC_TIMEOUT (R210): up to two retries; an SOP message still unanswered is a transmission failure, which R213 acts on in Soft Reset. With
VCONN off nothing goes out on SOP' or SOP'' (R201). -/
def execGoodcrcTimeout (p : Port) (sop : Fin 3) (s : State) : Host.Outcome State Fault Refusal :=
  onPorts s fun c =>
    let n := c.get (H.goodCrc p sop)
    if sop ≠ 0 ∧ c.get (O.vconnState p) ≠ 1 then c.put (H.goodCrc p sop) 0
    else if n < 2 then (c.put (H.goodCrc p sop) (n + 1)).emit (.pd p sop .again)
    else
      let c := c.put (H.goodCrc p sop) 0
      if sop = 0 ∧ c.flag (H.softReset p) = true then c.hardReset p true else c

/-! ## Swaps (R215–R218) -/

/-- A message exchange, EPR entry, mode discovery or exit from the mode is in progress (R215, R220). -/
def Hub.exchanging (c : Hub) (p : Nat) : Bool := c.get (H.pdx p) != 0 || c.get (O.modeState p) == 1 || c.get (O.modeState p) == 3

/-- A received swap request of kind k (1 PR, 2 DR, 3 VCONN): Wait, Reject or what accepting does (R215, R216). The sink's own request, if it
has one unanswered, is withdrawn, and is sent again later unless it was of the same kind. -/
def Hub.swapAsked (c : Hub) (p k : Nat) (accept : Hub → Hub) : Hub :=
  let c := c.heard p
  let x := c.get (H.pdx p)
  let own := decide (5 ≤ x ∧ x ≤ 7)
  if own && c.isSource p then c.sendPd p .wait
  else
    let c := if own then (if x = 4 + k then (c.put (H.pdx p) 0).swapEnd p 0 else ((c.put (H.pdx p) 0).put (H.swapWait p) 3).put (H.swapOwn p) 0) else c
    let dual := decide (2 ≤ c.get (O.policy p))
    let allowed := bit (c.get (O.swapAccept p)) (k - 1)
      && (if k = 3 then c.get (O.vconnState p) != 2 && !c.inRom else dual && c.get (O.modeState p) != 2)
    if c.exchanging p then c.sendPd p .wait
    else if allowed then accept (c.sendPd p .accept)
    else c.sendPd p .reject

/-- PR_SWAP received. -/
def execPrSwap (p : Port) (s : State) : Host.Outcome State Fault Refusal :=
  onPorts s fun c =>
    if !c.takesPd p then c
    else c.swapAsked p 1 fun c => if c.isSource p then c.put (H.pdx p) 8 else (c.turnOff p 1).put (H.pdx p) 10

/-- DR_SWAP received. -/
def execDrSwap (p : Port) (s : State) : Host.Outcome State Fault Refusal :=
  onPorts s fun c => if !c.takesPd p then c else c.swapAsked p 2 fun c => c.put (O.dataRole p) (3 - c.get (O.dataRole p))

/-- VCONN_SWAP received (R201, R209). -/
def execVconnSwap (p : Port) (s : State) : Host.Outcome State Fault Refusal :=
  onPorts s fun c =>
    if !c.takesPd p then c
    else c.swapAsked p 3 fun c =>
      if c.flag (H.vconnSource p) then c.put (H.pdx p) 12
      else ((c.put (H.vconnSource p) 1).vconnOn p).sendPd p .psRdy

/-- SWAP_REQUEST written (R7, R215): 01h–03h; refused for PR_Swap and DR_Swap in the mode; sent once no exchange runs and the child, if any, is awake
(R418). -/
def Hub.writeSwap (c : Hub) (p k : Nat) : Status × Hub :=
  if k = 0 ∨ 3 < k then (.invalidValue, c)
  else if k ≤ 2 ∧ (c.get (O.modeState p) = 2 ∨ c.get (O.modeState p) = 3) then (.busy, c.put (O.swapResult p) 4)
  else if c.takesPd p = false ∨ c.get (O.swapRequest p) ≠ 0 then (.busy, c)
  else
    let c := ((c.put (O.swapRequest p) k).put (O.swapResult p) 0).put (H.swapTries p) 0
    (.ok, if c.flag (H.childAsleep p) then (c.put (H.swapWait p) 2).put (H.pdHeld p) 1
          else if c.exchanging p then c.put (H.swapWait p) 2 else c.sendSwap p k)

/-- SWAP_REQUEST_PR_SWAP: Engineer and Owner. -/
def execSwapRequestPrSwap (lvl : Level) (p : Port) (s : State) : Host.Outcome State Fault Refusal :=
  onWrite (.swapRequestPrSwap lvl p) s fun c => c.request lvl engineerWrites fun c => c.writeSwap p 1
/-- SWAP_REQUEST_DR_SWAP: Engineer and Owner. -/
def execSwapRequestDrSwap (lvl : Level) (p : Port) (s : State) : Host.Outcome State Fault Refusal :=
  onWrite (.swapRequestDrSwap lvl p) s fun c => c.request lvl engineerWrites fun c => c.writeSwap p 2
/-- SWAP_REQUEST_VCONN_SWAP: Engineer and Owner. -/
def execSwapRequestVconnSwap (lvl : Level) (p : Port) (s : State) : Host.Outcome State Fault Refusal :=
  onWrite (.swapRequestVconnSwap lvl p) s fun c => c.request lvl engineerWrites fun c => c.writeSwap p 3

/-- PD_WAIT (R215): the swap waits for tSwapRetry; a Request that gets Wait leaves the contract in force. -/
def execPdWait (p : Port) (s : State) : Host.Outcome State Fault Refusal :=
  onPorts s fun c =>
    if !c.takesPd p then c
    else
      let c := c.heard p
      match c.get (H.pdx p) with
      | 2 => c.pdEnd p
      | 5 => ((c.put (H.swapWait p) 1).put (H.swapOwn p) 0).pdEnd p
      | 6 => ((c.put (H.swapWait p) 1).put (H.swapOwn p) 0).pdEnd p
      | 7 => ((c.put (H.swapWait p) 1).put (H.swapOwn p) 0).pdEnd p
      | _ => c.unexpected p

/-- REJECT (R215): the request or the swap ends. -/
def execReject (p : Port) (s : State) : Host.Outcome State Fault Refusal :=
  onPorts s fun c =>
    if !c.takesPd p then c
    else
      let c := c.heard p
      match c.get (H.pdx p) with
      | 2 => c.pdEnd p
      | 5 => (c.swapEnd p 2).pdEnd p
      | 6 => (c.swapEnd p 2).pdEnd p
      | 7 => (c.swapEnd p 2).pdEnd p
      | _ => c.unexpected p

/-- SWAP_RETRY_TIMER (R215, R216): after Wait the swap is tried again, up to SWAP_RETRIES times; one withdrawn, or not yet sent, is sent at no cost.
While an exchange runs it waits on. -/
def execSwapRetryTimer (p : Port) (s : State) : Host.Outcome State Fault Refusal :=
  onPorts s fun c =>
    let retry := c.get (H.swapWait p) == 1
    if c.flag (H.swapWait p) = false ∨ c.get (O.swapRequest p) = 0 ∨ c.takesPd p = false ∨ c.exchanging p = true
        ∨ c.flag (H.childAsleep p) = true then c
    else if retry = true ∧ c.get (O.swapRetries p) ≤ c.get (H.swapTries p) then c.swapEnd p 3
    else (c.when retry fun c => c.put (H.swapTries p) (c.get (H.swapTries p) + 1)).sendSwap p (c.get (O.swapRequest p))

/-! ## VCONN and the cable marker (R201, R203, R209) -/

/-- The marker is known, or known to be absent: a source without a contract offers capabilities. -/
def Hub.cableKnown (c : Hub) (p : Nat) : Hub :=
  if c.get (O.attachState p) = 3 ∧ c.isSource p = true ∧ c.get (H.pdx p) = 0 ∧ c.get (O.contractState p) ≠ 4 ∧ c.get (O.srcPathState p) = 2 then
    c.sendCaps p
  else c

/-- VCONN_STABLE_TIMER (R209): Discover Identity on SOP'. -/
def execVconnStableTimer (p : Port) (s : State) : Host.Outcome State Fault Refusal :=
  onPorts s fun c =>
    if c.flag (H.vconnSource p) = true ∧ c.get (O.vconnState p) = 1 ∧ c.pdOn = true then
      ((c.put (H.cableTries p) 0).put (H.cableAsked p) 1).sendPd p .discoverIdentity 1
    else c

/-- CABLE_DISCOVERY_RETRY (R203, R209): three more tries, then no marker. -/
def execCableDiscoveryRetry (p : Port) (s : State) : Host.Outcome State Fault Refusal :=
  onPorts s fun c =>
    if c.flag (H.vconnSource p) = false ∨ c.get (O.vconnState p) ≠ 1 ∨ c.flag (H.cableAsked p) = false ∨ c.pdOn = false then c
    else if c.get (H.cableTries p) < 3 then (c.put (H.cableTries p) (c.get (H.cableTries p) + 1)).sendPd p .discoverIdentity 1
    else (((((c.put (O.cableState p) 1).put (O.cableCurrent p) 3000).put (O.cableVmax p) 20).putB (O.cableEpr p) false).put (H.cableAsked p) 0).cableKnown p

/-- CABLE_IDENTITY (R202, R209, R225): from SOP' the cable's current, voltage, EPR and speed; from SOP'' its ID Header. -/
def execCableIdentity (p : Port) (cable : CableMarker) (s : State) : Host.Outcome State Fault Refusal :=
  onPorts s fun c =>
    if c.flag (H.vconnSource p) = false ∨ c.get (O.vconnState p) ≠ 1 ∨ c.pdOn = false then c
    else if cable.sopPP then c.put (O.cableSopppId p) cable.idHeader.toNat
    else
      let c := ((c.put (H.cableAsked p) 0).put (O.cableState p) (if cable.active then 3 else 2)).put (O.cableCurrent p) (if cable.fiveAmps then 5000 else 3000)
      let c := ((c.put (O.cableVmax p) (20 + 10 * cable.vmax.val)).putB (O.cableEpr p) cable.epr).put (O.cableSpeed p) cable.speed.toNat
      let c := (c.put (O.cableVdo p) cable.vdo.toNat).when (cable.speed == 0) fun c => c.put (O.entryResult p) 5
      let c := c.when (cable.active && cable.controller) fun c => c.sendPd p .discoverIdentity 2
      if c.explicit p then c.capsChanged p else c.cableKnown p

/-- SEND_SOURCE_CAP_TIMER (R212): capabilities again, up to 50 times; then a Type-C-only partner. -/
def execSendSourceCapTimer (p : Port) (s : State) : Host.Outcome State Fault Refusal :=
  onPorts s fun c =>
    if c.get (O.attachState p) ≠ 3 ∨ c.isSource p = false ∨ c.explicit p = true ∨ c.get (O.contractState p) = 4 ∨ c.flag (H.pdSeen p) = true
        ∨ c.get (O.srcPathState p) ≠ 2 ∨ c.pdOn = false then c
    else if c.get (H.capCount p) < 50 then c.sendCaps p
    else ((c.put (O.contractState p) 4).put (O.entryResult p) 8).put (H.pdx p) 0

/-- VCONN_OVERCURRENT (R201): above 350 mA, VCONN goes off with a fault; the contract stays. -/
def execVconnOvercurrent (p : Port) (milliamps : BitVec 16) (s : State) : Host.Outcome State Fault Refusal :=
  onPorts s fun c =>
    if c.get (O.vconnState p) ≠ 1 then c
    else
      let c := c.put (O.vconnCurrent p) milliamps.toNat
      if 350 < milliamps.toNat then ((c.put (O.vconnState p) 2).count (O.vconnFaults p)).raise 47 p else c

/-! ## Settings and queries (R196, R203, R206) -/

/-- The object of a source setting. -/
def sourceObj (p : Nat) : SourceSetting → Obj
  | .currentMax => O.sourceCurrentMax p | .powerMax => O.sourcePowerMax p | .pdoMask => O.sourcePdoMask p | .eprEnable => O.eprEnable p

/-- A source setting written (R202, R203): checked, and new capabilities are due on a change. -/
def Hub.writeSource (c : Hub) (p : Nat) (what : SourceSetting) (v : Nat) : Status × Hub :=
  let o := sourceObj p what
  let v := match what with | .pdoMask => v % 128 | _ => v
  let ok := match what with
    | .currentMax => decide (500 ≤ v ∧ v ≤ 5000) | .powerMax => decide (15 ≤ v ∧ v ≤ 240) | .pdoMask => bit v 0 | .eprEnable => decide (v ≤ 1)
  if !ok then (.invalidValue, c) else if v = c.get o then (.ok, c) else (.ok, (c.put o v).capsChanged p)

/-- SOURCE_SETTINGS_WRITE: Engineer and Owner. -/
def execSourceSettingsWrite (lvl : Level) (p : Port) (setting : SourceSetting) (value : BitVec 16) (s : State) :
    Host.Outcome State Fault Refusal :=
  onWrite (.sourceSettingsWrite lvl p setting value) s fun c => c.request lvl engineerWrites fun c => c.writeSource p setting value.toNat

/-- STAGE_1_CONTRACT_TIMEOUT (R206): no contract within 15 W is in force. -/
def execStage1ContractTimeout (p : Port) (s : State) : Host.Outcome State Fault Refusal :=
  onPorts s fun c =>
    if c.get (H.stage1Cut p) = 1 ∧ c.isSource p = true then
      let c := c.put (H.stage1Cut p) 0
      if c.explicit p = true ∧ c.get (O.contractV p) * c.get (O.contractI p) ≤ 15000000 then c else c.hardReset p true
    else c

/-- GET_SOURCE_CAP (R196). -/
def execGetSourceCap (p : Port) (s : State) : Host.Outcome State Fault Refusal :=
  onPorts s fun c =>
    if !c.takesPd p then c
    else if c.isSource p then (if c.get (H.pdx p) = 0 then (c.heard p).sendCaps p else (c.heard p).unexpected p)
    else (c.heard p).sendPd p (.sourceCaps false (c.sourcePdos p false))

/-- GET_SINK_CAP (R196). The spec fixes no content: a free value. -/
def execGetSinkCap (p : Port) (s : State) : Host.Outcome State Fault Refusal :=
  onPorts s fun c => if c.takesPd p then (c.heard p).draw.2.sendPd p (.sinkCaps (c.heard p).draw.1) else c

/-- GET_REVISION (R196): Revision 3.2. -/
def execGetRevision (p : Port) (s : State) : Host.Outcome State Fault Refusal :=
  onPorts s fun c => if c.takesPd p then (c.heard p).sendPd p (.revision 0x32) else c

/-- GET_STATUS (R196). The spec fixes no content: a free value. -/
def execGetStatus (p : Port) (s : State) : Host.Outcome State Fault Refusal :=
  onPorts s fun c => if c.takesPd p then (c.heard p).draw.2.sendPd p (.status (c.heard p).draw.1) else c

/-- PD_UNSUPPORTED (R196): Not_Supported on SOP; nothing on SOP' and SOP''. -/
def execPdUnsupported (p : Port) (sop : Fin 3) (_msg : BitVec 8) (s : State) : Host.Outcome State Fault Refusal :=
  onPorts s fun c => if c.takesPd p = true ∧ sop = 0 then (c.heard p).sendPd p .notSupported else c

end Sys2Proof.Machine
end

