-- ==== Sys2Proof/Machine/HeadOps.lean ====
section
/-! DEFINITION. The display heads' shared operations (R283–R311): layers and their extents, the guarded ranges, composition, link choice, the start
and stop of a mode, and the DRAM's budget. -/
namespace Sys2Proof.Machine

/-! ## Layers (R289, R291) -/

/-- The fields of a layer. -/
structure Layer where
  enable : Bool
  format : Nat
  base : Nat
  stride : Nat
  width : Nat
  height : Nat
  x : Nat
  y : Nat
  alphaMode : Nat
  alpha : Nat
  deriving DecidableEq, Repr

/-- The shadow fields of layer l of head h. -/
def Hub.shadowLayer (c : Hub) (h l : Nat) : Layer :=
  ⟨c.flag (O.layerEnable h l), c.get (O.layerFormat h l), c.get (O.layerBase h l), c.get (O.layerStride h l), c.get (O.layerWidth h l),
    c.get (O.layerHeight h l), c.get (O.layerX h l), c.get (O.layerY h l), c.get (O.alphaMode h l), c.get (O.planeAlpha h l)⟩

/-- The committed (0) or latched (1) fields of a layer. -/
def Hub.heldLayer (c : Hub) (set h l : Nat) : Layer :=
  let f : Nat → Nat := fun i => c.get (H.layer set h l i)
  ⟨f 0 != 0, f 1, f 2, f 3, f 4, f 5, f 6, f 7, f 8, f 9⟩

/-- The committed or latched fields of a layer replaced. -/
def Hub.putLayer (c : Hub) (set h l : Nat) (y : Layer) : Hub :=
  (([(0, if y.enable then 1 else 0), (1, y.format), (2, y.base), (3, y.stride), (4, y.width), (5, y.height), (6, y.x), (7, y.y),
    (8, y.alphaMode), (9, y.alpha)] : List (Nat × Nat))).foldl (fun c f => c.put (H.layer set h l f.1) f.2) c

/-- Bytes per pixel of a format (R289). -/
def bytesPerPixel (format : Nat) : Nat := if format = 4 then 2 else 4

/-- The first byte after a layer's extent (R291). -/
def Layer.top (y : Layer) : Nat := y.base + y.stride * (y.height - 1) + y.width * bytesPerPixel y.format

/-- Bytes a to a + n − 1 touch the extent of the layer, where it is enabled. -/
def Layer.touches (y : Layer) (a n : Nat) : Bool := y.enable && decide (a < y.top ∧ y.base < a + n)

/-- The head whose TIMING and layers a head uses: its pair's master where the pair is locked (R306). -/
def Hub.master (c : Hub) (h : Nat) : Nat := if h % 2 = 1 ∧ c.flag (O.pairLock (h - 1)) = true then h - 1 else h

/-- The head follows the other of a locked pair. -/
def Hub.follows (c : Hub) (h : Nat) : Bool := c.master h != h

/-- The width of the picture that a head's layers address (R291, R306). -/
def Hub.headWidth (c : Hub) (h : Nat) : Nat := if c.flag (O.pairLock h) then 2 * c.get (O.hactive h) else c.get (O.hactive h)

/-- The user area of the DRAM ends here (R309). -/
def userTop (spillSize : Nat) : Nat := 0x200000000 - spillSize * 0x10000000

/-- A layer is valid at a head (R291). -/
def Hub.layerValid (c : Hub) (h : Nat) (y : Layer) : Bool :=
  y.base % 256 == 0 && y.stride % 256 == 0 && decide (y.width * bytesPerPixel y.format ≤ y.stride)
    && decide (0x04000000 ≤ y.base ∧ y.top ≤ userTop (c.get O.spillSize)) && decide (y.x + y.width ≤ c.headWidth h)
    && decide (y.y + y.height ≤ c.get (O.vactive h)) && decide (1 ≤ y.width ∧ 1 ≤ y.height)

/-! ## Scan guard (R297) -/

/-- A DRAM write of n bytes at a, by the rigger bridge (1) or the management processor (2), checked against the ranges that heads guard. -/
def Hub.scanGuard (c : Hub) (a n source : Nat) : Hub :=
  c.each [0, 1, 2, 3] fun c h =>
    let hit := c.flag (O.scanGuard h) && c.get (O.headMode h) == 1 && !c.follows h && decide (0 < n)
      && [0, 1, 2, 3].any fun l => (c.heldLayer 1 h l).touches a n
    c.when hit fun c =>
      ((((c.count (O.guardFaults h)).put (O.guardLastAddr h) a).put (O.guardLastSource h) source).put (O.guardLastSeq h)
        (c.get (O.frameSeq h))).raise 75 h a

/-! ## Composition (R289, R290, R306) -/

/-- A component of n bits widened to 10 by repeating its high bits below it. -/
def widen (n v : Nat) : Nat :=
  match n with | 5 => 32 * v + v | 6 => 16 * v + v / 4 | 8 => 4 * v + v / 64 | _ => v

/-- A pixel of a buffer: red, green and blue of 10 bits, and its alpha over its largest value. -/
def readPixel (format : Nat) (b : Bytes) : Nat × Nat × Nat × Nat × Nat :=
  let v := leNat b
  match format with
  | 0 => (widen 8 (bits v 16 8), widen 8 (bits v 8 8), widen 8 (bits v 0 8), 1, 1)
  | 1 => (widen 8 (bits v 16 8), widen 8 (bits v 8 8), widen 8 (bits v 0 8), bits v 24 8, 255)
  | 2 => (bits v 20 10, bits v 10 10, bits v 0 10, 1, 1)
  | 3 => (bits v 20 10, bits v 10 10, bits v 0 10, bits v 30 2, 3)
  | _ => (widen 5 (bits v 11 5), widen 6 (bits v 5 6), widen 5 (bits v 0 5), 1, 1)

/-- One component blended (R290): alpha is num / den, rounded to the nearest 10-bit value and saturated at 1,023. den is odd, so no value
lies halfway. -/
def blend (mode plane num den s d : Nat) : Nat :=
  let a := if mode = 0 then plane * den else num * plane
  let q := den * 255
  let top := if mode = 2 then s * plane * den + (q - a) * d else a * s + (q - a) * d
  min 1023 ((2 * top + q) / (2 * q))

/-- The head scans out: its mode says so and has started, and its domain is up (R285, R298, R308). -/
def Hub.scansOut (c : Hub) (h : Nat) : Bool := c.get (O.headMode h) == 1 && c.get (O.headState h) != 6 && !c.flag (H.hpdHold h)

/-- A sag stage halts the heads (R308). -/
def Hub.headsHalted (c : Hub) : Bool := decide (2 ≤ c.get O.sagStage)

/-- HTOTAL, and the pixels of a frame. -/
def Hub.lineClocks (c : Hub) (h : Nat) : Nat := c.get (O.hactive h) + c.get (O.hfront h) + c.get (O.hsync h) + c.get (O.hback h)
def Hub.blankLines (c : Hub) (h : Nat) : Nat := c.get (O.vfront h) + c.get (O.vsync h) + c.get (O.vback h)
def Hub.frameClocks (c : Hub) (h : Nat) : Nat := c.lineClocks h * (c.get (O.vactive h) + c.blankLines h)

/-- ns that a number of a head's pixels takes (R288). -/
def Hub.pixelTime (c : Hub) (h n : Nat) : Nat := n * 1000000 / c.get (O.pixelClock h)

/-- The lines that have passed since the latch edge of a frame, by the head's pixel clock (R287). -/
def Hub.linesSince (c : Hub) (h : Nat) : Nat := (c.now - c.get (H.edgeAt h)) * c.get (O.pixelClock h) / (c.lineClocks h * 1000000)

/-- Bytes a to a + n − 1 touch a word that reads as uncorrectable (R311). -/
def Hub.dramFails (c : Hub) (a n : Nat) : Bool :=
  decide (0 < n) && (c.instances (H.dramBad 0)).any fun w => decide (w * 64 < a + n ∧ a < w * 64 + 64)

/-- Bytes written carry fresh check codes (R313; a word written in part too, DESIGN CHOICE, notes/assumptions/45.md). -/
def Hub.dramFresh (c : Hub) (a n : Nat) : Hub :=
  c.each ((c.instances (H.dramBad 0)).filter fun w => decide (0 < n ∧ w * 64 < a + n ∧ a < w * 64 + 64)) fun c w => c.put (H.dramBad w) 0

/-- Row `row` of the picture in a layer's buffer: its first byte and its length. -/
def Layer.rowAt (y : Layer) (row : Nat) : Nat × Nat := (y.base + y.stride * (row - y.y), y.width * bytesPerPixel y.format)

/-- The layer has pixels in a row of the picture. -/
def Layer.inRow (y : Layer) (row : Nat) : Bool := y.enable && decide (y.y ≤ row ∧ row < y.y + y.height)

/-- Rows that a head has fetched ahead of output keep the bytes they had before a write (R296). Up to 34 lines are fetched ahead; how many stand so at a
moment the spec leaves open, and a free value says. -/
def Hub.fetchAhead (c : Hub) (m : Mems) (a n : Nat) : Hub :=
  c.each [0, 1, 2, 3] fun c h =>
    if c.scansOut h = false ∨ c.follows h = true ∨ c.flag (H.firstEdge h) = true ∨ c.flag (H.haltShown h) = true ∨ n = 0
      ∨ ([0, 1, 2, 3].any fun l => (c.heldLayer 1 h l).touches a n) = false then c
    else
      let last := c.linesSince h + c.draw.1 % 35
      let rows := (List.range (last - c.blankLines h)).drop (c.linesSince h - c.blankLines h) |>.filter fun r => decide (r < c.get (O.vactive h))
      c.draw.2.each rows fun c row => c.each [0, 1, 2, 3] fun c l =>
        let y := c.heldLayer 1 h l
        let r := y.rowAt row
        c.when (y.inRow row && decide (a < r.1 + r.2 ∧ r.1 < a + n) && c.get (H.fetchedRow (4 * h + l) row) == 0) fun c =>
          c.put (H.fetchedRow (4 * h + l) row) (leNat (m.readDram r.1 r.2) + 256 ^ r.2)

/-- The bytes of a pixel as the head fetched them (R296). -/
def Hub.pixelBytes (c : Hub) (m : Mems) (h l : Nat) (y : Layer) (x row : Nat) : Bytes :=
  let n := bytesPerPixel y.format
  let kept := c.get (H.fetchedRow (4 * h + l) row)
  if kept = 0 then m.readDram ((y.rowAt row).1 + n * (x - y.x)) n else leBytes (kept / 256 ^ (n * (x - y.x))) n

/-- The composed pixel of head h at a column and row of its active picture (R289, R290), of 10 bits a component. The follower of a locked pair
shows the right half of the picture (R306). Before the first latch edge (R287, R307), from sag stage 2 or 3 until the first frame after it (R308),
where a layer's word is uncorrectable (R311), and from the missing pixel of an underrun line to its end (R299), the picture is background. -/
def composed (c : Hub) (m : Mems) (h col row : Nat) : Nat × Nat × Nat :=
  let o := c.master h
  let x := if c.follows h then col + c.get (O.hactive o) else col
  let bg := c.get (O.headBackground h)
  let ground := (bits bg 20 10, bits bg 10 10, bits bg 0 10)
  let shown := ([0, 1, 2, 3].map fun l => (l, c.heldLayer 1 o l)).filter fun y => y.2.inRow row && decide (y.2.x ≤ x ∧ x < y.2.x + y.2.width)
  let spoilt := shown.any fun y => c.dramFails ((y.2.rowAt row).1 + bytesPerPixel y.2.format * (x - y.2.x)) (bytesPerPixel y.2.format)
  if c.flag (H.firstEdge o) = true ∨ c.headsHalted = true ∨ c.flag (H.haltShown o) = true ∨ spoilt = true
    ∨ (bit (c.get (H.lateLines h 0)) row = true ∧ c.get (H.underrunFrom h row) ≤ col) then ground
  else shown.foldl (fun (d : Nat × Nat × Nat) y =>
    let (r, g, b, num, den) := readPixel y.2.format (c.pixelBytes m o y.1 y.2 x row)
    let f := blend y.2.alphaMode y.2.alpha num den
    (f r d.1, f g d.2.1, f b d.2.2)) ground

/-- The words of a frame that read as uncorrectable when the head fetches it (R311): each is counted, logged and reported. -/
def Hub.scanReads (c : Hub) (h : Nat) : Hub :=
  let read : Nat → Bool := fun w => [0, 1, 2, 3].any fun l =>
    let y := c.heldLayer 1 h l
    y.enable && decide (y.base ≤ w * 64 ∧ (w * 64 - y.base) / y.stride < y.height ∧ (w * 64 - y.base) % y.stride < y.width * bytesPerPixel y.format)
  c.each ((c.instances (H.dramBad 0)).filter read) fun c w =>
    ((c.count O.dramUncorrectable).put O.dramUeLast (w * 64)).raise 77 255 (w * 64)

/-- The words that a head fetches for a frame (R291, R311): a row begins at a multiple of 256 B. -/
def Hub.scanWords (c : Hub) (h : Nat) : Nat :=
  ([0, 1, 2, 3].map fun l =>
    let y := c.heldLayer 1 h l
    if y.enable then y.height * ceilDiv (y.width * bytesPerPixel y.format) 64 else 0).sum

/-- A component as the lanes carry it (R290). -/
def sentComponent (bpc v : Nat) : Nat := if bpc = 8 then min 255 ((v + 2) / 4) else v

/-! ## Links (R284) -/

/-- Payload per lane of a rate, in kb/s (R284). -/
def lanePayload (rate : Nat) : Nat := match rate with | 0 => 6480000 | 1 => 9671000 | 2 => 13056000 | _ => 19342000

/-- A field of an attribute packet's payload: n bytes at an offset (R301). -/
def attrField (a off n : Nat) : Nat := a / 256 ^ off % 256 ^ n

/-- Bits per second a head's stream needs (R284): its TIMING, or the last attribute packet of a pass-through head. -/
def Hub.streamRate (c : Hub) (h : Nat) : Nat :=
  if c.get (O.headMode h) = 2 ∧ c.flag (H.attrSeen h) = true then
    let a := c.get (H.streamAttr h)
    let bpc := match bits (attrField a 21 1) 1 3 with | 0 => 6 | 1 => 8 | _ => 10
    attrField a 0 4 * 3 * bpc
  else c.get (O.pixelClock (c.master h)) * 1000 * 3 * c.get (O.outputBpc h)

/-- The encodings that a head captures and passes through (R283): RGB at 6, 8 and 10 bpc, YCbCr 4:4:4 at 8 and 10. -/
def encodingListed (ycc : Bool) (bpc : Nat) : Bool := decide (bpc ≤ 2) && !(ycc && bpc == 0)

/-- A pass-through head's stream has an encoding that R283 does not list: no link carries it (DESIGN CHOICE, notes/assumptions/92.md). -/
def Hub.encodingBarred (c : Hub) (h : Nat) : Bool :=
  let e := attrField (c.get (H.streamAttr h)) 21 1
  c.get (O.headMode h) == 2 && c.flag (H.attrSeen h) && !encodingListed (bit e 0) (bits e 1 3)

/-- The links that a source head tries, in order (R284): each rate the sink supports up to LINK_RATE_MAX, downward, at the lowest lane count that
carries the stream. -/
def Hub.linkChoices (c : Hub) (h : Nat) (k : SinkCaps) : List (Nat × Nat) :=
  if c.encodingBarred h then [] else [3, 2, 1, 0].filterMap fun r =>
    if r ≤ c.get (O.linkRateMax h) ∧ (k.rates.any fun x => x.toNat == r) = true then
      ([1, 2, 4].find? fun n => decide (n ≤ c.get (O.lanesMax h) ∧ n ≤ k.maxLanes.toNat ∧ c.streamRate h ≤ lanePayload r * 1000 * n)).map fun n => (r, n)
    else none

/-- The sink that a head sees. -/
def Hub.sinkOf (c : Hub) (h : Nat) : Option SinkCaps := (c.sinks.find? fun x => x.head == h).map SinkSeen.sink

/-- The head has no link. -/
def Hub.headUntrained (c : Hub) (h state : Nat) : Hub := ((c.put (O.headState h) state).put (O.linkRate h) 0xFF).put (O.headLanes h) 0

/-- A source head trains (R284): the first link that trains carries the stream; else HEAD_STATE says why, and it is reported. -/
def Hub.trainHead (c : Hub) (h : Nat) : Hub :=
  if c.get (O.headMode h) ≠ 1 ∧ c.get (O.headMode h) ≠ 2 then c
  else if c.get (O.headState h) = 6 ∨ c.flag (H.hpdHold h) = true then c
  else match (if c.flag (O.hpd h) then c.sinkOf h else none) with
    | none => (c.headUntrained h 3).recompute
    | some k =>
      let tried := c.linkChoices h k
      let works : Nat × Nat → Bool := fun x => k.trains.any fun t => t.1.toNat == x.1 && t.2.toNat == x.2
      let failed := (tried.takeWhile fun x => !works x).length
      let c := c.count (O.linkTrainFails h) failed
      match tried.find? works with
      | some x => (((c.put (O.headState h) 2).put (O.linkRate h) x.1).put (O.headLanes h) x.2).recompute
      | none => ((c.headUntrained h (if tried.isEmpty then 5 else 4)).raise 73 h).recompute

/-! ## The DRAM's budget (R310) -/

/-- Mb/s that a layer's scan-out takes, rounded up: the rule's own case adds figures that are whole for each layer. -/
def Hub.layerLoad (c : Hub) (h : Nat) (y : Layer) : Nat :=
  if y.enable then ceilDiv (y.width * y.height * bytesPerPixel y.format * 8 * c.get (O.pixelClock h) * 1000) (c.frameClocks h * 1000000) else 0

/-- SCANOUT_COMMITTED recomputed, and DRAM_OVERCOMMIT, reported when it comes to read true (R310). -/
def Hub.scanoutRecompute (c : Hub) : Hub :=
  let heads := [0, 1, 2, 3].filter fun h => c.get (O.headMode h) == 1 && !c.follows h
  let mbps := (heads.flatMap fun h => [0, 1, 2, 3].map fun l => c.layerLoad h (c.heldLayer 1 h l)).sum
  let past := decide (700000 < mbps)
  let was := c.flag O.dramOvercommit
  ((c.put O.scanoutCommitted mbps).putB O.dramOvercommit past).when (past && !was) fun c => c.raise 79

/-! ## Modes (R285, R287, R307, R308) -/

/-- The frame times of two heads agree within 500 ppm (R307). -/
def Hub.sameTiming (c : Hub) (a b : Nat) : Bool :=
  let x := c.frameClocks a * c.get (O.pixelClock b)
  let y := c.frameClocks b * c.get (O.pixelClock a)
  decide ((max x y - min x y) * 2000 ≤ y)

/-- GENLOCK_STATE of a head (R307). -/
def Hub.genlockNow (c : Hub) (h : Nat) : Nat :=
  let o := c.master h
  if c.get (O.headMode h) ≠ 1 then 0
  else match c.get (O.genlock o) with
    | 1 => if c.isCox || c.flag O.timeLock then 1 else 2
    | 2 => let g := c.master (c.get (O.genlockHead o)); if c.get (O.headMode g) = 1 ∧ c.sameTiming o g = true then 1 else 2
    | _ => 0

/-- The start of frame n of a head on GENLOCK 01h (R307), or of the nth frame after the last that GENLOCK_HEAD began, counted from a moment in ns. -/
def Hub.genlockTarget (c : Hub) (o n : Nat) : Int :=
  let g := if c.get (O.genlock o) = 2 then c.master (c.get (O.genlockHead o)) else o
  let base : Int := if c.get (O.genlock o) = 2 then (c.get (H.frameStart g) : Int)
    else (c.boundaryAt : Int) + 125000 * ((c.get (O.genlockEpoch o) : Int) - (c.stroke : Int))
  base + ((n * c.frameClocks g * 1000000 / c.get (O.pixelClock g) : Nat) : Int)

/-- The frame start that the next latch edge of a locked head leads to (R307): for its first frame the next target whose edge is to come, and from
then on the target nearest to where its pixel clock has brought it. -/
def Hub.genlockStart (c : Hub) (o : Nat) : Option Nat :=
  if c.genlockNow o ≠ 1 then none
  else
    let g := if c.get (O.genlock o) = 2 then c.master (c.get (O.genlockHead o)) else o
    let away := ((c.now : Int) + (c.pixelTime o (c.blankLines o * c.lineClocks o) : Int) - c.genlockTarget o 0).toNat * c.get (O.pixelClock g)
    let period := c.frameClocks g * 1000000
    let n := if c.flag (H.firstEdge o) then ceilDiv away period else (2 * away + period) / (2 * period)
    some (c.genlockTarget o n).toNat

/-- The moment of the latch edge that occurs now, and of the frame start after it (R287, R307). -/
def Hub.edgeTime (c : Hub) (o : Nat) : Hub :=
  let blank := c.pixelTime o (c.blankLines o * c.lineClocks o)
  let c := match c.genlockStart o with | some t => c.advanceTo (t - blank) | none => c
  (c.put (H.edgeAt o) c.now).put (H.frameStart o) (c.now + blank)

/-- GENLOCK_STATE of every head brought up to date. -/
def Hub.genlockRefresh (c : Hub) : Hub := c.each [0, 1, 2, 3] fun c h => c.put (O.genlockState h) (c.genlockNow h)

/-- What a head has committed is latched outside any edge (R298). -/
def Hub.latchAtOnce (c : Hub) (h : Nat) : Hub :=
  let c := c.each [0, 1, 2, 3] fun c l =>
    c.when (bit (c.get (O.commit h)) l) fun c => (c.putLayer 1 h l (c.heldLayer 0 h l)).put (O.latchedBase h l) (c.heldLayer 0 h l).base
  ((c.put (O.commit h) 0).put (H.replaced h) 0).each [0, 1, 2, 3] fun c l => c.put (H.replacedBase h l) 0

/-- What a head has fetched ahead of its output is forgotten with the frame it was fetched for (R296). -/
def Hub.dropFetched (c : Hub) (h : Nat) : Hub :=
  { c with regs := c.regs.filter fun e => !(e.1.obj == (H.fetchedRow 0 0).key.obj && decide (e.1.inst / 4 = h)) }

/-- The line store of a head emptied (R285) of what its output has not taken, the frames that have not opened among it. -/
def Hub.emptyStore (c : Hub) (h : Nat) : Hub :=
  let c := (c.presentRest h).dropFetched h
  let c := c.put (H.shownFrame h) (c.get (H.streamFrame h))
  { c with lineStore := c.lineStore.filter fun x => x.head != h }

/-- An attribute packet's frame opens at the output (R303): its timing is in force, and the link trains where it does not carry the stream. -/
def Hub.openPicture (c : Hub) (h a : Nat) : Hub :=
  let changed := !c.flag (H.attrSeen h) || c.get (H.streamAttr h) % 256 ^ 22 != a % 256 ^ 22
  let c := ((c.put (H.streamAttr h) a).put (H.attrSeen h) 1).put (H.shownFrame h) (c.get (H.shownFrame h) + 1)
  let carried := c.get (O.headState h) == 2 && !c.encodingBarred h && decide (c.streamRate h ≤ lanePayload (c.get (O.linkRate h)) * 1000 * c.get (O.headLanes h))
  c.when (changed && !carried) fun c => c.trainHead h

/-- The moment a packet's TIME stands for, nearest to this stroke (R35, R41), in ns. -/
def Hub.momentOf (c : Hub) (time : Nat) : Int :=
  let d : Int := (((time / 131072 : Nat) : Int) - ((c.stroke % 32768 : Nat) : Int)) % 32768
  (c.boundaryAt : Int) + (if d < 16384 then d else d - 32768) * 125000 + ((time % 131072 : Nat) : Int)

/-- Packets whose time has come leave the line store of a pass-through head, in order of arrival: attributes open their frame, whose line 0 begins at
their own due time where they are not late, and pixels and secondary data go out while the stream runs (R303). -/
def Hub.presentDue (c : Hub) (h : Nat) : Hub :=
  let now := c.lineStore.filter fun x => x.head == h && decide (x.due ≤ c.now)
  ({ c with lineStore := c.lineStore.filter fun x => !(x.head == h && decide (x.due ≤ c.now)) } : Hub).each now fun c x =>
    if bits x.pkt.info.toNat 13 3 = 1 then
      let onTime := decide (c.momentOf x.pkt.time.toNat + c.get (O.presentDelay h) = (x.due : Int))
      (c.openPicture h (leNat (x.pkt.payload.take 48))).when onTime fun c => (c.put (H.lineStart h) x.due).put (H.lineAt h) 0
    else c.when (c.get (O.streamState h) == 2) fun c => c.showPacket x

/-- A capture head drives HPD (R283, R285). -/
def Hub.driveHpd (c : Hub) (h : Nat) (high : Bool) : Hub :=
  (c.putB (O.hpd h) high).emit (.sinkHpd h high (if high then [0, 1, 2, 3] else []) (if high then [1, 2, 4] else []))

/-- A head goes through off into a mode (R285, R287, R305). -/
def Hub.startMode (c : Hub) (h m : Nat) : Hub :=
  let c := ((c.emptyStore h).headUntrained h 0).latchAtOnce h
  let c := (((((c.put (O.headMode h) m).put (O.streamState h) (if m = 2 then 1 else 0)).put (H.firstEdge h) (if m = 1 then 1 else 0)).put
    (O.headLine h) 0).put (H.attrSeen h) 0).put (H.hpdHold h) (if m = 3 then 1 else 0)
  let c := ((c.put (H.lateLines h 0) 0).put (H.lateLines h 1) 0).putB (H.haltShown h) ((m == 1 || m == 3) && c.headsHalted)
  let c := c.when (m == 1) fun c => (c.put (O.frameSeq h) 0).put (O.showSeq h) 0
  let c := c.when (m == 3) fun c => c.driveHpd h false
  ((c.trainHead h).scanoutRecompute).genlockRefresh.recompute

/-- A head goes into a mode (R285, R308): at once, but out of capture, or while HPD is still held low after it, only when HPD has been low for 10 ms, and
while the DISPLAY domain is down only when it returns. -/
def Hub.changeMode (c : Hub) (h m : Nat) : Hub :=
  let held := c.flag (H.hpdHold h) || c.get (O.headMode h) == 3
  if 4 ≤ c.get O.sagStage then
    (((((c.emptyStore h).put (O.headMode h) m).headUntrained h (if m = 0 then 0 else 6)).put (O.streamState h) (if m = 2 then 1 else 0)).putB
      (H.hpdHold h) (held && m != 3)).when (m == 3) (fun c => c.driveHpd h false)
      |>.scanoutRecompute.genlockRefresh.recompute
  else if held = true ∧ m ≠ 3 then
    ((((c.headUntrained h 0).put (O.headMode h) m).put (H.hpdHold h) 1).put (H.firstEdge h) (if m = 1 then 1 else 0)).driveHpd h false
      |>.scanoutRecompute.genlockRefresh.recompute
  else c.startMode h m

/-- The DISPLAY domain goes down: the heads stop and keep their modes, and a capture head's HPD falls (R308). -/
def Hub.headsOff (c : Hub) : Hub :=
  let c := c.each [0, 1, 2, 3] fun c h =>
    if c.get (O.headMode h) = 0 then c
    else (((c.emptyStore h).headUntrained h 6).put (O.streamState h) (if c.get (O.headMode h) = 2 then 1 else 0)).when (c.get (O.headMode h) == 3)
        fun c => c.driveHpd h false
  c.recompute

/-- The DISPLAY domain returns: each head starts afresh in its mode (R308), one that left capture once its HPD has been low for 10 ms (R285). -/
def Hub.headsOn (c : Hub) : Hub :=
  c.each [0, 1, 2, 3] fun c h =>
    if c.get (O.headState h) ≠ 6 then c
    else if c.flag (H.hpdHold h) = true ∧ c.get (O.headMode h) ≠ 3 then c.put (O.headState h) 0
    else (c.put (O.headState h) 0).startMode h (c.get (O.headMode h))

/-- Sag stage 2 or 3 is entered: scan-out heads stop fetching, capture heads stop sending, and pass-through heads wait (R308). -/
def Hub.headsHalt (c : Hub) : Hub :=
  c.each [0, 1, 2, 3] fun c h =>
    if c.get (O.headMode h) = 2 then (c.emptyStore h).put (O.streamState h) 1
    else c.when (c.get (O.headMode h) == 1 || c.get (O.headMode h) == 3) fun c => c.put (H.haltShown h) 1

/-- A capture head sends (R302, R308): its link is trained, no sag stage halts it or has until the frame under way, and the hub has time lock. -/
def Hub.captures (c : Hub) (h : Nat) : Bool :=
  c.get (O.headMode h) == 3 && c.get (O.headState h) == 2 && !c.headsHalted && !c.flag (H.haltShown h) && (c.isCox || c.flag O.timeLock)

/-- The VALID entry of class k that names a head as IN (R286). -/
def Hub.captureEntry (c : Hub) (h k : Nat) : Option Nat :=
  c.liveEntries.find? fun t => c.valid t && c.get (O.pathIn t) == 0x24 + h && c.get (O.pathCls t) == k

/-- A head starts afresh in its mode (R308, R370): one that HPD is held low for waits for the end of the hold (R285). -/
def Hub.restartHead (c : Hub) (h : Nat) : Hub := c.changeMode h (c.get (O.headMode h))

/-- Isolation of a head (R101, R370, R384): its tunnels are torn down and its queues emptied, and it starts as on entry to its mode. Its caller restores
its objects. -/
def Hub.isolateHead (c : Hub) (h : Nat) : Hub := ((c.teardownUsing (27 + h)).emptyQueues (27 + h)).restartHead h

end Sys2Proof.Machine
end

