-- ==== Sys2Proof/Machine/Heads.lean ====
section
/-! DEFINITION. The display heads' and the DRAM's commands (R91, R284–R313). -/
namespace Sys2Proof.Machine

/-! ## Modes and timing (R285, R288, R306) -/

/-- The limits of R288 on the timing a head would scan out with. -/
def Hub.timingValid (c : Hub) (h : Nat) : Bool :=
  let ha := c.get (O.hactive h)
  let va := c.get (O.vactive h)
  let hs := [c.get (O.hfront h), c.get (O.hsync h), c.get (O.hback h)]
  let vs := [c.get (O.vfront h), c.get (O.vsync h), c.get (O.vback h)]
  decide (25000 ≤ c.get (O.pixelClock h) ∧ c.get (O.pixelClock h) ≤ 1400000) && decide (640 ≤ ha ∧ ha ≤ 3840 ∧ ha % 8 = 0)
    && decide (480 ≤ va ∧ va ≤ 2160) && hs.all (fun v => decide (8 ≤ v ∧ v ≤ 1024)) && vs.all (fun v => decide (1 ≤ v ∧ v ≤ 255))
    && decide (8 ≤ vs.sum)

/-- An entry that is VALID or in DRAIN names the head as IN, or as OUT. -/
def Hub.headNamed (c : Hub) (h : Nat) (inward : Bool) : Bool :=
  c.liveEntries.any fun t => if inward then c.get (O.pathIn t) == 0x24 + h else (c.outputs t).any fun o => o.1 == 27 + h

/-- A head's path-table entries keep it from a mode (R285). -/
def Hub.modeBarred (c : Hub) (h m : Nat) : Bool := (m != 3 && c.headNamed h true) || (m != 2 && c.headNamed h false)

/-- MODE written (R285, R288, R306). A write that does not change it trains the link again (R284). -/
def Hub.writeHeadMode (c : Hub) (h m : Nat) : Status × Hub :=
  let locked := c.flag (O.pairLock h)
  if 3 < m ∨ (locked = true ∧ 1 < m) ∨ (m = 1 ∧ c.follows h = false ∧ c.timingValid h = false) then (.invalidValue, c)
  else if c.follows h = true ∨ c.modeBarred h m = true ∨ (locked = true ∧ c.modeBarred (h + 1) m = true) then (.busy, c)
  else if m = c.get (O.headMode h) then (.ok, (c.trainHead h).when locked fun c => c.trainHead (h + 1))
  else (.ok, (c.changeMode h m).when locked fun c => c.changeMode (h + 1) m)

/-- HEAD_MODE_WRITE: Engineer and Owner. -/
def execHeadModeWrite (lvl : Level) (head : Head) (value : BitVec 8) (s : State) : Host.Outcome State Fault Refusal :=
  onWrite (.headModeWrite lvl head value) s fun c => c.request lvl engineerWrites fun c => c.writeHeadMode head value.toNat

/-- The TIMING objects in the order of their subindices (6001h). -/
def timingObj (h item : Nat) : Obj :=
  match item with
  | 0 => O.pixelClock h | 1 => O.hactive h | 2 => O.hfront h | 3 => O.hsync h | 4 => O.hback h | 5 => O.vactive h | 6 => O.vfront h
  | 7 => O.vsync h | 8 => O.vback h | _ => O.syncPol h

/-- A TIMING object written (R288): refused in scan-out. A head whose link failed tries again (R284). -/
def Hub.writeTiming (c : Hub) (h item v : Nat) : Status × Hub :=
  if c.get (O.headMode h) = 1 then (.busy, c)
  else if (timingObj h item).cap ≤ v then (.invalidValue, c)
  else
    let c := c.put (timingObj h item) (if item = 9 then v % 4 else v)
    (.ok, if c.get (O.headState h) = 4 ∨ c.get (O.headState h) = 5 then c.trainHead h else c)

/-- TIMING_WRITE: Engineer and Owner. -/
def execTimingWrite (lvl : Level) (head : Head) (item : Fin 10) (value : BitVec 32) (s : State) : Host.Outcome State Fault Refusal :=
  onWrite (.timingWrite lvl head item value) s fun c => c.request lvl engineerWrites fun c => c.writeTiming head item value.toNat

/-- PAIR_LOCK written (R306): on H0 and H2 only, while both heads are off. -/
def Hub.writePairLock (c : Hub) (h : Nat) (v : Bool) : Status × Hub :=
  if h % 2 = 1 then (.invalidValue, c)
  else if c.get (O.headMode h) ≠ 0 ∨ c.get (O.headMode (h + 1)) ≠ 0 then (.busy, c)
  else (.ok, c.putB (O.pairLock h) v)

/-- PAIR_LOCK_WRITE: Engineer and Owner. -/
def execPairLockWrite (lvl : Level) (head : Head) (value : Bool) (s : State) : Host.Outcome State Fault Refusal :=
  onWrite (.pairLockWrite lvl head value) s fun c => c.request lvl engineerWrites fun c => c.writePairLock head value

/-- CAP_FORMAT written (R301): refused in capture. -/
def Hub.writeCapFormat (c : Hub) (h v : Nat) : Status × Hub :=
  if 1 < v then (.invalidValue, c) else if c.get (O.headMode h) = 3 then (.busy, c) else (.ok, c.put (O.capFormat h) v)

/-- CAP_FORMAT_WRITE: Engineer and Owner. -/
def execCapFormatWrite (lvl : Level) (head : Head) (value : BitVec 8) (s : State) : Host.Outcome State Fault Refusal :=
  onWrite (.capFormatWrite lvl head value) s fun c => c.request lvl engineerWrites fun c => c.writeCapFormat head value.toNat

/-! ## Commit, latch and retire (R292–R298) -/

/-- One layer committed (R293, R294): a buffer that waited and is replaced by another is counted at the edge. -/
def Hub.commitLayer (c : Hub) (h l : Nat) : Hub :=
  let was := c.heldLayer 0 h l
  let now := c.shadowLayer h l
  let replaced := bit (c.get (O.commit h)) l && was.enable && !(now.enable && now.base == was.base)
  ((c.when replaced fun c => (c.put (H.replaced h) (c.get (H.replaced h) + 1)).put (H.replacedBase h l) (was.base + 1)).putLayer 0 h l now).put (O.commit h)
    (withBit (c.get (O.commit h)) l true)

/-- COMMIT written (R292, R293, R298). -/
def Hub.writeCommit (c : Hub) (h mask : Nat) : Status × Hub :=
  let named := [0, 1, 2, 3].filter fun l => bit mask l
  if mask = 0 ∨ 15 < mask ∨ (named.any fun l => (c.shadowLayer h l).enable && !c.layerValid h (c.shadowLayer h l)) = true then (.invalidValue, c)
  else
    let c := c.each named fun c l => c.commitLayer h l
    if c.scansOut h then (.ok, c.put (O.showSeq h) (if c.flag (H.firstEdge h) then 0 else c.get (O.frameSeq h) + 1))
    else (.ok, (c.latchAtOnce h).put (O.showSeq h) 0)

/-- COMMIT: Operator, Engineer and Owner; held through a firmware handover (R308). -/
def execCommit (lvl : Level) (head : Head) (mask : BitVec 8) (s : State) : Host.Outcome State Fault Refusal :=
  onWrite (.commit lvl head mask) s fun c => c.request lvl operatorWrites fun c => c.writeCommit head mask.toNat

/-- A layer latched at an edge (R293, R295): the buffer it had retires where the layer takes another or is disabled. A buffer that a later commit
replaced before the edge retires with it (R294); where both do, RETIRED_BASE shows the one that was on the screen (DESIGN CHOICE,
notes/assumptions/81.md). -/
def Hub.latchLayer (c : Hub) (h l : Nat) : Hub :=
  let was := c.heldLayer 1 h l
  let now := c.heldLayer 0 h l
  let c := c.when (c.get (H.replacedBase h l) != 0) fun c =>
    ((c.put (O.retiredBase h l) (c.get (H.replacedBase h l) - 1)).put (O.retiredSeq h) (c.get (O.frameSeq h))).put (H.replacedBase h l) 0
  let c := c.when (was.enable && !(now.enable && now.base == was.base)) fun c =>
    (c.put (O.retiredBase h l) was.base).put (O.retiredSeq h) (c.get (O.frameSeq h))
  (c.putLayer 1 h l now).put (O.latchedBase h l) now.base

/-- The VSC SDP of scan-out (R283): RGB in the sRGB colour space at OUTPUT_BPC. Its layout is that of DisplayPort (PRESUMED,
notes/assumptions/81.md). -/
def vscSdp (bpc : Nat) : Bytes :=
  [0x00, 0x07, 0x05, 0x13] ++ List.replicate 16 0 ++ [0x00, if bpc = 8 then 0x01 else 0x02, 0x00] ++ List.replicate 13 0

/-- LATCH_EDGE (R287, R293–R295, R306, R310): FRAME_SEQ rises, in both heads of a locked pair, and what was committed is latched. A buffer
replaced before the edge retires at it, which RETIRED_SEQ shows (DEDUCED, notes/assumptions/81.md). -/
def execLatchEdge (head : Head) (s : State) : Host.Outcome State Fault Refusal :=
  onDomains s fun c =>
    let h := head.val
    if c.scansOut h = false ∨ c.follows h = true then c
    else
      let c := (c.edgeTime h).dropFetched h
      let seq := if c.flag (H.firstEdge h) then 0 else c.get (O.frameSeq h) + 1
      let shown := if c.flag (O.pairLock h) then [h, h + 1] else [h]
      let c := c.each shown fun c k => c.put (H.lateLines k 0) 0
      let c := c.when (!c.headsHalted) fun c => c.put (H.haltShown h) 0
      let c := ((c.put (O.frameSeq h) seq).put (H.firstEdge h) 0).put (O.headLine h) (c.get (O.vactive h))
      let c := c.when (c.flag (O.pairLock h)) fun c =>
        ((c.put (O.frameSeq (h + 1)) seq).put (H.firstEdge (h + 1)) 0).put (O.headLine (h + 1)) (c.get (O.vactive h))
      let mask := c.get (O.commit h)
      let c := c.each ([0, 1, 2, 3].filter fun l => bit mask l) fun c l => c.latchLayer h l
      let c := (c.when (c.get (H.replaced h) != 0) fun c => (c.count (O.commitsReplaced h) (c.get (H.replaced h))).put (O.retiredSeq h) seq).put
        (H.replaced h) 0
      let c := (c.put (O.commit h) 0).scanoutRecompute
      let c := c.when (!c.flag (H.haltShown h)) fun c => (c.scanReads h).dramReads (c.scanWords h)
      c.each (shown.filter fun k => c.get (O.headState k) == 2) fun c k => c.emit (.sdp k c.now (vscSdp (c.get (O.outputBpc k))))

/-- A line of a head's frame underruns (R299): counted once, and reported with its line. -/
def Hub.underrunLine (c : Hub) (h k line : Nat) : Hub :=
  if bit (c.get (H.lateLines h k)) line then c
  else ((c.put (H.lateLines h k) (withBit (c.get (H.lateLines h k)) line true)).count (O.underruns h)).raise 74 h line

/-- From a moment to the end of an underrun line, a pass-through head shows background: the line's pixels that are due from then on go (R299). -/
def Hub.dropLineFrom (c : Hub) (h line : Nat) (moment : Int) : Hub :=
  { c with lineStore := c.lineStore.filter fun x =>
      !(x.head == h && bits x.pkt.info.toNat 13 3 == 0 && bits x.pkt.info.toNat 0 13 == line && decide (moment ≤ (x.due : Int))) }

/-- UNDERRUN (R299): the line is counted and reported. From which pixel of it a scan-out head shows background is free. -/
def execUnderrun (head : Head) (line : BitVec 16) (s : State) : Host.Outcome State Fault Refusal :=
  onDomains s fun c =>
    let h := head.val
    if c.scansOut h then
      let fresh := !bit (c.get (H.lateLines h 0)) line.toNat
      ((c.put (O.headLine h) line.toNat).underrunLine h 0 line.toNat).when fresh fun c =>
        c.draw.2.put (H.underrunFrom h line.toNat) (c.draw.1 % c.get (O.hactive (c.master h)))
    else if c.get (O.headMode h) = 2 ∧ c.get (O.headState h) ≠ 6 then
      ((c.presentDue h).put (O.headLine h) line.toNat).underrunLine h (c.get (H.shownFrame h) % 2) line.toNat
        |>.dropLineFrom h line.toNat c.now
    else c

/-! ## Sinks and sources (R284, R285, R308) -/

/-- What the AUX channel read of a sink: its DPCD revision and EDID. -/
def Hub.readSink (c : Hub) (h : Nat) (k : SinkCaps) : Hub :=
  let c := { c with sinks := ⟨h, k⟩ :: c.sinks.filter fun x => x.head != h }
  let c := (c.put (O.sinkDpcdRev h) k.dpcdRev.toNat).count (O.auxErrors h) k.auxErrors.toNat
  (List.range 512).foldl (fun c i => c.put (O.edidByte h i) (k.edid.getD i 0).toNat) c

/-- HPD_RISE (R284): a source head reads its sink and trains. In capture the head drives HPD itself. -/
def execHpdRise (head : Head) (sink : SinkCaps) (s : State) : Host.Outcome State Fault Refusal :=
  onDomains s fun c =>
    if c.get (O.headMode head) = 3 then c else ((c.putB (O.hpd head) true).readSink head sink).trainHead head

/-- HPD_FALL (R308): a source head has no sink; scanning goes on inside the head. -/
def execHpdFall (head : Head) (s : State) : Host.Outcome State Fault Refusal :=
  onDomains s fun c =>
    if c.get (O.headMode head) = 3 then c
    else ({ (c.putB (O.hpd head) false) with sinks := c.sinks.filter fun x => x.head != head.val } : Hub).trainHead head

/-- IRQ_HPD (R284): one that shows loss of link status counts LINK_RETRAINS and trains again. -/
def execIrqHpd (head : Head) (linkLost : Bool) (sink : SinkCaps) (s : State) : Host.Outcome State Fault Refusal :=
  onDomains s fun c =>
    let source := c.get (O.headMode head) == 1 || c.get (O.headMode head) == 2
    if source && c.flag (O.hpd head) && linkLost then ((c.count (O.linkRetrains head)).readSink head sink).trainHead head else c

/-- HPD_LOW_HOLD_END (R285): the new mode starts, but while the DISPLAY domain is down (R308). A capture head drives HPD high, and its source trains
the link. -/
def execHpdLowHoldEnd (head : Head) (s : State) : Host.Outcome State Fault Refusal :=
  onDomains s fun c =>
    let h := head.val
    if c.flag (H.hpdHold h) = false then c
    else
      let c := c.put (H.hpdHold h) 0
      if c.get (O.headState h) = 6 then c
      else if c.get (O.headMode h) = 3 then (c.driveHpd h true).headUntrained h 1 else c.startMode h (c.get (O.headMode h))

/-- The links that a capture head advertises and can train (R283). -/
def sinkLinkValid (k : SinkLink) : Bool := decide (k.rate.toNat ≤ 3) && ([1, 2, 4] : List Nat).contains k.lanes.toNat

/-- SINK_RETRAINING (R283, R308): the source trains a capture head's link; `link` is what it ended at, none while it trains, or where it tried a link
that the head does not support. Whether the head has signalled IRQ_HPD before a trained link is trained anew no command says: it is free
(notes/assumptions/92.md). -/
def execSinkRetraining (head : Head) (link : Option SinkLink) (s : State) : Host.Outcome State Fault Refusal :=
  onDomains s fun c =>
    if c.get (O.headMode head) ≠ 3 ∨ c.flag (H.hpdHold head) = true ∨ c.get (O.headState head) = 6 then c
    else match link.filter sinkLinkValid with
      | none =>
        let asked := c.get (O.headState head) == 2 && c.draw.1 % 2 == 1
        ((c.when (c.get (O.headState head) == 2) fun c => c.draw.2).when asked fun c => c.emit (.sinkIrqHpd head)).headUntrained head 1 |>.recompute
      | some k => (((c.put (O.headState head) 2).put (O.linkRate head) k.rate.toNat).put (O.headLanes head) k.lanes.toNat).recompute

/-! ## Capture (R40–R42, R300–R302) -/

/-- A received pixel in CAP_FORMAT (R300): `bpc` as ENCODING codes it, 0 for 6, 1 for 8, 2 for 10. -/
def convertPixel (format bpc : Nat) (p : Pixel) : Bytes :=
  if format = 0 then
    let f : BitVec 10 → Byte := fun v => BitVec.ofNat 8 (if bpc = 0 then v.toNat * 4 else if bpc = 1 then v.toNat else v.toNat / 4)
    [f p.b, f p.g, f p.r]
  else
    let f : BitVec 10 → Nat := fun v => (if bpc = 0 then v.toNat * 16 else if bpc = 1 then v.toNat * 4 else v.toNat) % 1024
    leBytes (f p.b + 1024 * f p.g + 1048576 * f p.r) 4

/-- The payload of the stream-attribute packet (R301). -/
def attrPayload (a : StreamAttr) (format frame : Nat) : Bytes :=
  leBytes a.pixelClock.toNat 4 ++ leBytes a.hactive.toNat 2 ++ leBytes a.htotal.toNat 2 ++ leBytes a.hstart.toNat 2 ++ leBytes a.hsync.toNat 2
    ++ leBytes a.vactive.toNat 2 ++ leBytes a.vtotal.toNat 2 ++ leBytes a.vstart.toNat 2 ++ leBytes a.vsync.toNat 2
    ++ [BitVec.ofNat 8 format, BitVec.ofNat 8 ((if a.ycc then 1 else 0) + 2 * a.bpc.toNat), 0, 0] ++ leBytes frame 4
    ++ (a.colorimetry ++ List.replicate 20 0).take 20

/-- A display packet enters a head's tunnel (R40); the first pixel it carries is captured `d` ns from now (R41). -/
def Hub.sendStream (c : Hub) (h t d flags info : Nat) (payload : Bytes) : Hub :=
  let (p, c) := c.makePacketAt d t (c.get (O.pathCls t)) 1 flags info payload
  c.receive (27 + h) p

/-- Bytes of a pixel in CAP_FORMAT (R300). -/
def captureBytes (format : Nat) : Nat := if format = 0 then 3 else 4

/-- When a pixel is captured, in ns from the first pixel of line 0 (R41): `n` pixel times of the stream's own clock. -/
def captureOffset (a : StreamAttr) (n : Nat) : Nat := n * 1000000000 / a.pixelClock.toNat

/-- The packets of one line from byte `at` of it: 1,024 B each but the last, FIRST on the first and LAST on the last (R40), each with the
capture time of its first pixel, the first that begins in it (R41). -/
def Hub.sendLine (h t format line : Nat) (a : StreamAttr) : Nat → Nat → Bytes → Hub → Hub
  | 0, _, _, c => c
  | n + 1, off, rest, c =>
    let last := decide (rest.length ≤ 1024)
    let d := captureOffset a (line * a.htotal.toNat + ceilDiv off (captureBytes format))
    let c := c.sendStream h t d ((if off = 0 then 1 else 0) + (if last then 2 else 0)) line (rest.take 1024)
    if last then c else Hub.sendLine h t format line a n (off + 1024) (rest.drop 1024) c

/-- The lines of a frame, from a line number on. -/
def Hub.sendLines (h t format : Nat) (a : StreamAttr) : Nat → List (List Pixel) → Hub → Hub
  | _, [], c => c
  | i, l :: rest, c =>
    let bytes := l.flatMap (convertPixel format a.bpc.toNat)
    Hub.sendLines h t format a (i + 1) rest (Hub.sendLine h t format i a (ceilDiv bytes.length 1024) 0 bytes c)

/-- CAPTURE_FRAME (R41, R300–R302, R308): the attributes, then the lines in CAP_FORMAT; the command's moment is the capture time of the frame's first
pixel. Without a VALID entry, a trained link, or time lock, under a sag stage that halts it, or in an encoding that R283 does not list (DESIGN CHOICE,
notes/assumptions/92.md), the head sends nothing. -/
def execCaptureFrame (head : Head) (attr : StreamAttr) (lines : List (List Pixel)) (s : State) : Host.Outcome State Fault Refusal :=
  onDomains s fun c =>
    let h := head.val
    let frame := c.get (H.captureFrame h)
    let c := c.when (c.get (O.headMode h) == 3) fun c => (c.put (H.captureFrame h) (frame + 1)).when (!c.headsHalted) fun c => c.put (H.haltShown h) 0
    match (if c.captures h && encodingListed attr.ycc attr.bpc.toNat then c.captureEntry h 2 else none) with
    | none => c
    | some t =>
      let format := c.get (O.capFormat h)
      let c := (c.count (O.framesCaptured h)).sendStream h t 0 4 0x2000 (attrPayload attr format frame)
      Hub.sendLines h t format attr 0 lines c

/-- SDP_RECEIVE (R42, R302): one packet, an audio one on the companion where one is named. -/
def execSdpReceive (head : Head) (line : BitVec 13) (audio : Bool) (data : Bytes) (s : State) : Host.Outcome State Fault Refusal :=
  onDomains s fun c =>
    let h := head.val
    match (if c.captures h then c.captureEntry h 2 else none) with
    | none => c
    | some t =>
      let pair := c.get (O.pathPair t)
      let companion := audio && decide (pair < 16384) && c.valid pair && c.get (O.pathCls pair) == 3
      c.sendStream h (if companion then pair else t) 0 0 (0x4000 + line.toNat) data

/-! ## Pass-through (R41, R303–R305) -/

/-- The delayed stream of an attribute packet fits the line store (R304). -/
def Hub.streamFits (c : Hub) (h a : Nat) : Bool :=
  let n := c.get (O.presentDelay h) * attrField a 0 4 * attrField a 4 2 * (if attrField a 20 1 = 1 then 4 else 3)
  decide (n ≤ 2031616 * 1000000000 * attrField a 6 2)

/-- An attribute packet at a pass-through head (R303–R305): it opens a frame at its own due time, or at once where that has passed. One whose line 0
can still be output on time starts a stream that waits or is lost, and what is left of earlier frames is not output. -/
def Hub.streamAttributes (c : Hub) (h : Nat) (due : Int) (p : Packet) : Hub :=
  let n := c.get (H.streamFrame h) + 1
  let c := (c.put (H.streamFrame h) n).put (H.lateLines h (n % 2)) 0
  let onTime := decide ((c.now : Int) ≤ due)
  let c := c.when (!c.headsHalted && (c.isCox || c.flag O.timeLock)) fun c =>
    if c.streamFits h (leNat (p.payload.take 48)) = false then c.put (O.streamState h) 4
    else c.when (onTime && c.get (O.streamState h) != 2) fun c =>
      { c.put (O.streamState h) 2 with lineStore := c.lineStore.filter fun x => !(x.head == h && bits x.pkt.info.toNat 13 3 != 1) }
  ({ c with lineStore := c.lineStore ++ [⟨h, if onTime then due.toNat else c.now, p⟩] } : Hub).presentDue h

/-- Pixels at a pass-through head (R299, R303): late ones are discarded, and their line underruns; the rest of an underrun line is not output. -/
def Hub.streamPixels (c : Hub) (h : Nat) (due : Int) (p : Packet) : Hub :=
  let line := bits p.info.toNat 0 13
  let k := c.get (H.streamFrame h) % 2
  if due < (c.now : Int) then ((c.count (O.latePackets h)).underrunLine h k line).dropLineFrom h line due
  else if bit (c.get (H.lateLines h k)) line then c
  else { c with lineStore := c.lineStore ++ [⟨h, due.toNat, p⟩] }

/-- PASS_THROUGH_PACKET (R303–R305): pixels and secondary data wait in the line store for TIME + PRESENT_DELAY, as attributes do for the frame they
open. -/
def execPassThroughPacket (head : Head) (pkt : Packet) (s : State) : Host.Outcome State Fault Refusal :=
  onDomains s fun c =>
    let h := head.val
    if c.get (O.headMode h) ≠ 2 ∨ c.get (O.headState h) = 6 ∨ c.flag (H.hpdHold h) = true then c
    else
      let c := c.presentDue h
      let due := c.momentOf pkt.time.toNat + c.get (O.presentDelay h)
      match bits pkt.info.toNat 13 3 with
      | 0 => c.streamPixels h due pkt
      | 1 => c.streamAttributes h due pkt
      | 2 => { c with lineStore := c.lineStore ++ [⟨h, due.toNat, pkt⟩] }
      | _ => c

/-- STREAM_LOST (R305): LOSS_LINES lines without a packet. -/
def execStreamLost (head : Head) (s : State) : Host.Outcome State Fault Refusal :=
  onDomains s fun c => if c.get (O.streamState head) = 2 then (c.presentDue head).put (O.streamState head) 3 else c

/-! ## The DRAM (R91, R309, R311–R313) -/

/-- Some enabled layer, latched or committed, or DRAM window has a byte at or above an offset (R309). -/
def Hub.usedAbove (c : Hub) (a : Nat) : Bool :=
  ([0, 1, 2, 3].any fun h => [0, 1, 2, 3].any fun l =>
    ((c.heldLayer 1 h l).enable && decide (a < (c.heldLayer 1 h l).top))
      || (bit (c.get (O.commit h)) l && (c.heldLayer 0 h l).enable && decide (a < (c.heldLayer 0 h l).top)))
    || (List.range 32).any fun w => c.get (O.targetWinKind w) == 1 && decide (a < c.get (O.targetWinBase w) + c.get (O.targetWinSize w))

/-- SPILL_SIZE written (R91, R309). 0 disables the tier. -/
def Hub.writeSpillSize (c : Hub) (v : Nat) : Status × Hub :=
  if 16 < v ∨ c.usedAbove (userTop v) = true then (.invalidValue, c)
  else if c.held.any (fun p => c.spilling p.q) then (.busy, c)
  else
    let st := c.get O.spillState
    let c := (c.put O.spillSize v).put O.userEnd (userTop v)
    (.ok, c.put O.spillState (if st = 2 then 2 else if v = 0 then 3 else if st = 1 ∨ 3 ≤ c.get O.sagStage then 1 else 0))

/-- SPILL_SIZE_WRITE: Engineer and Owner. -/
def execSpillSizeWrite (lvl : Level) (value : BitVec 8) (s : State) : Host.Outcome State Fault Refusal :=
  onWrite (.spillSizeWrite lvl value) s fun c => c.request lvl engineerWrites fun c => c.writeSpillSize value.toNat

/-- No reader owns the word (R311): it lies in the user area outside every extent and every window, or in a free unit of the spill region. The
units in use are the first of the region (notes/assumptions/45.md). -/
def Hub.unowned (c : Hub) (a : Nat) : Bool :=
  let top := userTop (c.get O.spillSize)
  decide (top + 256 * c.spillUnits ≤ a) || decide (0x04000000 ≤ a ∧ a < top)
    && ([0, 1, 2, 3].all fun h => [0, 1, 2, 3].all fun l => !(c.heldLayer 1 h l).touches a 64
      && !(bit (c.get (O.commit h)) l && (c.heldLayer 0 h l).touches a 64))
    && (List.range 32).all fun w => c.get (O.targetWinKind w) != 1
      || !decide (a < c.get (O.targetWinBase w) + c.get (O.targetWinSize w) ∧ c.get (O.targetWinBase w) < a + 64)

/-- The pass of the DRAM's scrub that runs is past its period, or past 24 h (R312). -/
def Hub.lateDram (c : Hub) : Hub := c.lateScrub 1 (c.get H.dramScrubStart) (min (c.get O.dramScrubPeriod) 86400)

/-- A pass of the DRAM's scrub ends (R312). -/
def Hub.dramPassEnd (c : Hub) : Hub :=
  let took := c.now - c.get H.dramScrubStart
  (((c.lateDram.put (H.scrubLate 1) 0).count O.dramScrubPasses).put O.dramScrubLastPass (took / 1000000000)).put H.dramScrubStart c.now

/-- DRAM_SCRUB (R311–R313): a corrected error is counted; an uncorrectable word is counted, logged and reported, and rewritten only where no reader
owns it (what it then holds is open); else its readers find it so until it is written. A write that meets the scrub's wins. A word beyond the DRAM is a fault. -/
def execDramScrub (word : Nat) (err : WordError) (collide : Bool) (s : State) : Host.Outcome State Fault Refusal :=
  if 134217728 ≤ word then .fault .noSuchWord
  else onDomainsAll s fun c m =>
    let finish : Hub → Hub := fun c => if word = 134217727 then c.dramPassEnd else c
    match err with
    | .clean => (finish c, m)
    | .correctable => (finish ((c.count O.dramCorrected).raise 78), m)
    | .uncorrectable =>
      let c := ((c.count O.dramUncorrectable).put O.dramUeLast (word * 64)).raise 77 255 (word * 64)
      if collide then (finish c, m)
      else if c.unowned (word * 64) then (finish (c.draw.2.dramFresh (word * 64) 64), m.writeDram (word * 64) (leBytes c.draw.1 64))
      else (finish (c.put (H.dramBad word) 1), m)

/-- DRAM_SCRUB_PACE (R312): 65,536 words or more behind, and from then on until it has caught up, the scrub takes one forced slot in 4,096 of the
226,562,500 of 100 ms. -/
def execDramScrubPace (wordsDone wordsDue : Nat) (s : State) : Host.Outcome State Fault Refusal :=
  onDomains s fun c =>
    let behind := decide (wordsDone + 65536 ≤ wordsDue) || (c.flag H.dramBehind && decide (wordsDone < wordsDue))
    (c.lateDram.putB H.dramBehind behind).when behind fun c => c.count O.dramScrubForced (min (wordsDue - wordsDone) 55313)

end Sys2Proof.Machine
end

