-- ==== Sys2Proof/Machine/PowerPath.lean ====
section
/-! DEFINITION. The commands of the port power path and of measurement (R227–R247, R252): the tick, faults, turn-on and turn-off of the
pairs, retries, and the ADC with the FET model. -/
namespace Sys2Proof.Machine

/-! ## Turn-on (R228–R232) -/

/-- v lies within ±5 % of the voltage t. -/
def within5 (v t : Nat) : Bool := decide (95 * t ≤ 100 * v ∧ 100 * v ≤ 105 * t)

/-- The request to turn a pair on stands (R230, R232): a settled converter that the sequencer calls for; or a wanted sink pair with VBUS
within ±5 % of the contract, and above VSNK after reverse current. -/
def Hub.rampAsked (c : Hub) (p k : Nat) : Bool :=
  if k = 0 then c.flag (H.srcWanted p) && c.get (H.convState p) == 2 && !c.flag (H.srcReversed p)
  else c.sinkWanted p && within5 (c.get (O.vbusMv p)) (c.get (O.contractV p))
    && (!c.flag (H.afterReverse p) || decide (c.get (O.vsnkMv p) < c.get (O.vbusMv p)))

/-- The interlock is clear for a pair (R228): the other pair is neither in Ramp nor On, and its gate is within 1 V of its COM. -/
def Hub.interlockClear (c : Hub) (p k : Nat) : Bool :=
  c.get (pathObj p (1 - k)) != 1 && c.get (pathObj p (1 - k)) != 2 && !c.flag (H.gateHigh p (1 - k))

/-- A pair may enter Ramp (R229). -/
def Hub.rampAllowed (c : Hub) (p k : Nat) : Bool :=
  c.get (pathObj p k) == 0 && c.rampAsked p k && c.interlockClear p k && c.coolEnough p k

/-- Off to Ramp, where it is asked for and allowed (R229). -/
def Hub.tryRamp (c : Hub) (p k : Nat) : Hub :=
  if c.rampAllowed p k then ((c.put (pathObj p k) 1).put (H.gateHigh p k) 1).put (H.onHeld p) 0 |>.when (k == 1) fun c => c.put (H.afterReverse p) 0
  else c

/-- The port sequencer may ask for VBUS (R230): an attached Source, in no swap, and not in the vSafe0V of a Hard Reset. -/
def Hub.mayCall (c : Hub) (p : Nat) : Bool :=
  c.flag (H.srcWanted p) || (c.get (O.attachState p) == 3 && !c.swapping p && !c.flag (H.srcRecover p))

/-- PATH_TURN_ON (R230): the sequencer asks for VBUS, anew after a turn-off or reverse current: from step 1 on, with the converter set for 5 V. -/
def execPathTurnOn (p : Port) (sink : Bool) (s : State) : Host.Outcome State Fault Refusal :=
  onPorts s fun c =>
    if sink then c.tryRamp p 1
    else if (c.get (H.convState p) = 0 ∨ c.flag (H.srcReversed p) = true) ∧ c.mayCall p = true then c.callSource p
    else (c.put (H.srcReversed p) 0).tryRamp p 0

/-- CONVERTER_SETTLED (R230 steps 2 and 3). -/
def execConverterSettled (p : Port) (s : State) : Host.Outcome State Fault Refusal :=
  onPorts s fun c => if c.get (H.convState p) = 1 then (c.put (H.convState p) 2).tryRamp p 0 else c

/-- CONVERTER_TIMEOUT (R229): a converter fault. -/
def execConverterTimeout (p : Port) (s : State) : Host.Outcome State Fault Refusal :=
  onPorts s fun c =>
    if c.get (H.convState p) = 1 ∧ c.get (O.srcPathState p) = 0 then (c.put (H.convState p) 0).pairFault p 0 4 else c

/-- RAMP_COMPLETE (R229): Ramp to On. A source port that was in a Hard Reset is done with it (R378), and offers capabilities where the cable
is known. -/
def execRampComplete (p : Port) (sink : Bool) (s : State) : Host.Outcome State Fault Refusal :=
  onPorts s fun c =>
    let k := if sink then 1 else 0
    if c.get (pathObj p k) ≠ 1 then c
    else
      let c := ((c.put (pathObj p k) 2).count (O.ramps p)).put (H.onHeld p) 0
      if sink then c
      else
        let c := (c.reactionDone 2 p).reactionDone 0 p
        if c.explicit p = false ∧ (c.get (O.vconnState p) ≠ 1 ∨ c.get (O.cableState p) ≠ 0) then c.cableKnown p else c

/-- PATH_TURN_OFF (R229, R231): a normal turn-off. -/
def execPathTurnOff (p : Port) (sink : Bool) (s : State) : Host.Outcome State Fault Refusal :=
  onPorts s fun c => if sink then c.turnOff p 1 else c.dropSource p

/-! ## Faults (R229, R235–R240) -/

/-- Reverse current (R229, R236): Off, counted, no fault. The sink pair waits for VBUS (R232), the source pair for a new request. -/
def Hub.reversed (c : Hub) (p k : Nat) : Hub :=
  (((c.turnOff p k).count (O.reverseEvents p)).raise 56 p).put (if k = 1 then H.afterReverse p else H.srcReversed p) 1

/-- FAST_TRIP (R237): the comparator acts in Ramp and On, and latches until the next tick reads it. -/
def execFastTrip (p : Port) (s : State) : Host.Outcome State Fault Refusal :=
  onPorts s fun c => match c.activePair p with | some k => (c.pairFault p k 1).put (H.fastLatch p) 1 | none => c

/-- FAULT_TIMER_EXPIRY (R238): acts where FAULT_TIMER has reached FAULT_TIME. -/
def execFaultTimerExpiry (p : Port) (s : State) : Host.Outcome State Fault Refusal :=
  onPorts s fun c => match c.activePair p with
    | some k => if c.get (O.faultTime p) ≤ c.get (O.faultTimer p) then c.pairFault p k 2 else c
    | none => c

/-- THERMAL_LIMIT (R239): acts where the temperature in use has reached FET_TEMP_LIMIT. -/
def execThermalLimit (p : Port) (sink : Bool) (s : State) : Host.Outcome State Fault Refusal :=
  onPorts s fun c =>
    let k := if sink then 1 else 0
    if c.activePair p = some k ∧ c.getI (O.fetTempLimit p) ≤ c.fetTemp p k then c.pairFault p k 3 else c

/-- REVERSE_CURRENT (R236). -/
def execReverseCurrent (p : Port) (s : State) : Host.Outcome State Fault Refusal :=
  onPorts s fun c => match c.activePair p with | some k => c.reversed p k | none => c

/-- Step 1 of the tick (R235, R238): IN_LIMIT, its entries, and the ticks out of limit. -/
def Hub.tickLimit (c : Hub) (p : Nat) (inLimit : Bool) : Hub :=
  let c := c.when (inLimit && !c.flag (O.inLimit p)) fun c => c.count (O.limitEntries p)
  (c.putB (O.inLimit p) inLimit).put (H.outTicks p) (if inLimit then 0 else min 64 (c.get (H.outTicks p) + 1))

/-- The fault timer after a tick (R238). -/
def Hub.tickTimer (c : Hub) (p : Nat) : Nat :=
  if c.flag (O.inLimit p) then c.get (O.faultTimer p) + 1 else if c.get (H.outTicks p) = 64 then 0 else c.get (O.faultTimer p)

/-- Steps 2 to 6 of the tick for the pair in Ramp or On (R240). -/
def Hub.tickPair (c : Hub) (p k : Nat) (cmp : Comparators) (trip : Bool) : Hub :=
  let start := c.get (O.faultTimer p) == 0 && c.flag (O.inLimit p)
  let timer := c.tickTimer p
  let c := c.put (O.faultTimer p) timer
  if trip then c.pairFault p k 1
  else if c.get (O.faultTime p) ≤ timer then c.pairFault p k 2
  else if c.getI (O.fetTempLimit p) ≤ c.fetTemp p k then c.pairFault p k 3
  else if cmp.reverse then c.reversed p k
  else c.putB (O.pg p) (c.get (pathObj p k) == 2 && cmp.enhanced && c.get (H.outTicks p) == 64 && !start)

/-- The gates that are within 1 V of their COM (R228, R378). -/
def Hub.tickGates (c : Hub) (p : Nat) (cmp : Comparators) : Hub :=
  let c := c.when (cmp.srcGateLow && c.activePair p != some 0) fun c => c.put (H.gateHigh p 0) 0
  let c := c.when (cmp.snkGateLow && c.activePair p != some 1) fun c => c.put (H.gateHigh p 1) 0
  c.when (cmp.srcGateLow && cmp.snkGateLow) fun c => c.reactionDone 4 p

/-- VBUS in transition (R217, R231): the discharge switch, the end of a transition, and vSafe0V of an old source. -/
def Hub.tickVbus (c : Hub) (p : Nat) (cmp : Comparators) : Hub :=
  let c := c.when (c.flag (H.slewing p)) fun c => c.putB (H.disch p) (decide (c.get (H.convTarget p) + 500 < c.get (O.vbusMv p)))
  let c := c.when (c.get (H.pdx p) == 4 && c.flag (H.slewing p) && cmp.atTarget) fun c =>
    ((c.put (H.disch p) 0).sendPd p .psRdy).contractMade p
  if c.flag (H.srcWanted p) = false ∧ cmp.vsafe0 = true then
    (c.put (H.disch p) 0).when (c.get (H.pdx p) == 8) fun c => ((c.sendPd p .psRdy).put (H.pdx p) 9).putB (H.ccRp p) false
  else c

/-- POWER_PATH_TICK (R240): one tick of one port. A sink pair no longer wanted turns off (R232); requests that wait are tried last, but not for the
pair that this tick found in Ramp or On (R228, R229);
and PG of a new source completes its swap (R217). -/
def execPowerPathTick (p : Port) (cmp : Comparators) (s : State) : Host.Outcome State Fault Refusal :=
  onPorts s fun c =>
    let c := c.tickGates p cmp
    let trip := cmp.fastTrip || c.flag (H.fastLatch p)
    let c := c.put (H.fastLatch p) 0
    let active := c.activePair p
    let c := c.tickLimit p (cmp.inLimit && active.isSome)
    let c := match active with
      | some k => c.tickPair p k cmp trip
      | none => c.putB (O.pg p) false
    let c := c.when (!c.sinkWanted p) fun c => c.turnOff p 1
    let c := c.tickVbus p cmp
    let c := c.when (c.get (H.pdx p) == 11 && c.flag (O.pg p)) fun c => (c.sendPd p .psRdy).powerSwapped p 1
    c.each ([0, 1].filter fun k => active != some k) fun c k => c.tryRamp p k

/-- COOL_DOWN_EXPIRY (R229, R219): Off, once the estimate is low enough. -/
def execCoolDownExpiry (p : Port) (sink : Bool) (s : State) : Host.Outcome State Fault Refusal :=
  onPorts s fun c =>
    let k := if sink then 1 else 0
    if c.get (pathObj p k) = 3 ∧ c.coolEnough p k = true then (c.put (pathObj p k) 0).recoveryEnds p else c

/-- RETRY_HOLD (R229): a pair has held On for 1 s. -/
def execRetryHold (p : Port) (s : State) : Host.Outcome State Fault Refusal :=
  onPorts s fun c =>
    if c.get (O.srcPathState p) = 2 ∨ c.get (O.snkPathState p) = 2 then (c.put (O.retries p) 0).put (H.onHeld p) 1 else c

/-- FAULT_CLEAR written (R229, R252): true takes Latched to Off; Cool-down ignores it. -/
def Hub.writeFaultClear (c : Hub) (p : Nat) (value : Bool) : Status × Hub :=
  (.ok, if value && (c.get (O.srcPathState p) == 4 || c.get (O.snkPathState p) == 4) then (c.clearPath p false).recoveryEnds p else c)

/-- FAULT_CLEAR: Engineer and Owner. -/
def execFaultClear (lvl : Level) (p : Port) (value : Bool) (s : State) : Host.Outcome State Fault Refusal :=
  onWrite (.faultClear lvl p value) s fun c => c.request lvl engineerWrites fun c => c.writeFaultClear p value

/-! ## FET temperature (R242–R245) -/

/-- The Foster parameters of a pole, 1–3: RTH in mK/W and TAU in µs. -/
def Hub.fosterRth (c : Hub) (p i : Nat) : Nat := c.get (match i with | 1 => O.fosterRth1 p | 2 => O.fosterRth2 p | _ => O.fosterRth3 p)
/-- TAU of a pole. -/
def Hub.fosterTau (c : Hub) (p i : Nat) : Nat := c.get (match i with | 1 => O.fosterTau1 p | 2 => O.fosterTau2 p | _ => O.fosterTau3 p)

/-- A model's start without history (R244). MODEL_START_RISE is in 0.1 K. -/
def Hub.modelStart (c : Hub) (p : Nat) : Hub :=
  let sum := c.fosterRth p 1 + c.fosterRth p 2 + c.fosterRth p 3
  [0, 1].foldl (fun c k => [1, 2, 3].foldl (fun c i => c.put (H.rise p (i + 4 * k)) (c.get (O.modelStartRise p) * 100000000 * c.fosterRth p i / sum)) c) c

/-- e^(−1) in parts of 2^64. -/
abbrev expMinusOne : Nat := 6786177901268885274

/-- e^(−x) for x below 1, both in parts of 2^64: the terms of its series, those added and those subtracted. -/
def expFraction (x : Nat) : Nat :=
  let t := (List.range 20).foldl (fun (a : Nat × Nat × Nat) i => (a.1 * x / 2 ^ 64 / (i + 1), a.2.2, a.2.1 + a.1)) (2 ^ 64, 0, 0)
  t.2.1 - t.2.2

/-- 1 − e^(−Δt/TAU) in parts of 2^32 (R243). -/
def fosterStep (dt tau : Nat) : Nat :=
  if 32 ≤ dt / tau then 2 ^ 32
  else 2 ^ 32 - (List.range (dt / tau)).foldl (fun v _ => v * expMinusOne / 2 ^ 64) (expFraction (dt % tau * 2 ^ 64 / tau)) / 2 ^ 32

/-- One update of a pair's model with dissipation mw over dt µs (R243); rises in nK. -/
def Hub.modelUpdate (c : Hub) (p k mw dt : Nat) : Hub :=
  [1, 2, 3].foldl (fun c i =>
    let o := H.rise p (i + 4 * k)
    let target : Int := 1000 * mw * c.fosterRth p i
    c.put o ((c.get o : Int) + (target - c.get o) * fosterStep dt (c.fosterTau p i) / 2 ^ 32).toNat) c

/-- The temperature in use of a pair is shown (R242), its peak kept, and PP_THERMAL_WARN reported once (R239). What an object shows of a temperature
beyond an I16 is free (notes/assumptions/5.md). -/
def Hub.showTemp (c : Hub) (p k : Nat) : Hub :=
  let t := c.fetTemp p k
  let fits := decide (-32768 ≤ t ∧ t ≤ 32767)
  let shown := if fits then t else (c.draw.1 : Int)
  let c := (c.when (!fits) fun c => c.draw.2).putI (if k = 0 then O.srcFetTemp p else O.snkFetTemp p) shown
  let c := c.when (decide (c.getI (O.fetTempPeak p) < t)) fun c => c.putI (O.fetTempPeak p) shown
  let warn := c.getI (O.fetTempWarn p)
  if warn ≤ t ∧ c.flag (H.warned p k) = false then (c.put (H.warned p k) 1).raise 53 p
  else c.when (decide (t ≤ warn - 100)) fun c => c.put (H.warned p k) 0

/-- Both pairs' temperatures shown. -/
def Hub.showTemps (c : Hub) (p : Nat) : Hub := (c.showTemp p 0).showTemp p 1

/-- The temperatures after a write of THERMAL_MODE or DIODE_PAIR (R242): the diode is unused in mode 00h. -/
def Hub.thermalWritten (c : Hub) (p : Nat) : Hub :=
  (c.when (c.get (O.thermalMode p) == 0) fun c => ((c.put (O.diodeState p) 0).put (H.diodeBad p) 0).put (H.diodeGood p) 0).showTemps p

/-- MODEL_HISTORY (R244): 3 × FOSTER_TAU_3 have passed since PWRCTL powered up. -/
def Hub.modelHistoryNow (c : Hub) (p : Nat) : Bool := decide (c.get H.modelAt + 3000 * c.fosterTau p 3 ≤ c.now)

/-- A port is a priority port of the ADC (R246). -/
def Hub.priorityPort (c : Hub) (p : Nat) : Bool :=
  c.get (O.srcPathState p) == 1 || c.get (O.snkPathState p) == 1 || c.flag (O.inLimit p) || c.get (O.faultTimer p) != 0
    || c.flag (H.slewing p) || c.flag (H.disch p)
    || decide (c.getI (O.fetTempWarn p) ≤ c.fetTemp p 0) || decide (c.getI (O.fetTempWarn p) ≤ c.fetTemp p 1)

/-- PRIORITY_PORTS (3004h.03). -/
def Hub.priorityPorts (c : Hub) : Nat := (((List.range 24).filter c.priorityPort).map fun p => 2 ^ p).sum

/-- The diode's temperature in 0.1 °C from its two voltages in µV (R245): ΔV = n (k T / q) ln 10. -/
def diodeCelsius (ideality low high : Nat) : Int := ((high - low) * 1000000000 / (ideality * 1984214) : Nat) - 2732

/-- A pair of sense-diode readings (R245). -/
def Hub.diodeReading (c : Hub) (p low high : Nat) : Hub :=
  if c.get (O.thermalMode p) ≠ 1 then c
  else
    let bad := if 1200000 < low ∨ 1200000 < high then 1 else if low < 100000 ∨ high < 100000 then 2 else 0
    if bad ≠ 0 then
      let twice := c.get (H.diodeBad p) = bad
      let c := (c.put (H.diodeBad p) bad).put (H.diodeGood p) 0
      if twice ∧ c.get (O.diodeState p) ≠ 1 + bad then ((c.put (O.diodeState p) (1 + bad)).raise 55 p).showTemps p else c
    else
      let c := (c.put (H.diodeBad p) 0).putI (H.diodeTemp p) (diodeCelsius (c.get (O.diodeIdeality p)) low high)
      let good := c.get (H.diodeGood p) + 1
      if c.get (O.diodeState p) = 0 ∨ c.get (O.diodeState p) = 1 then (c.put (O.diodeState p) 1).showTemps p
      else if good < 16 then c.put (H.diodeGood p) good
      else ((c.put (H.diodeGood p) 0).put (O.diodeState p) 1).showTemps p

/-! ## Measurement (R246, R247) -/

/-- Energy at a current sample, mW × µs = nJ (R247). -/
def Hub.addEnergy (c : Hub) (p k nj : Nat) : Hub :=
  let sum := c.get (H.energyNj p k) + nj
  (c.count (if k = 0 then O.energyOut p else O.energyIn p) (sum / 1000000)).put (H.energyNj p k) (sum % 1000000)

/-- The dissipation of a pair in mW (R243): |Vin − Vout| × |I| for the active pair. -/
def Hub.dissipation (c : Hub) (p k ma : Nat) : Nat :=
  if c.activePair p ≠ some k then 0
  else
    let vin := if k = 0 then c.get (O.vsrcMv p) else c.get (O.vbusMv p)
    let vout := if k = 0 then c.get (O.vbusMv p) else c.get (O.vsnkMv p)
    (max vin vout - min vin vout) * ma / 1000

/-- A current sample (R243, R244, R247). -/
def Hub.currentSample (c : Hub) (p : Nat) (ma : Int) (dt : Nat) : Hub :=
  let mw : Int := (c.get (O.vbusMv p) : Int) * ma / 1000
  let c := (c.putI (O.currentMa p) ma).putI (O.powerMw p) mw
  let c := c.addEnergy p (if 0 ≤ ma then 0 else 1) (mw.natAbs * dt)
  let c := c.put (O.fetPowerMw p) (match c.activePair p with | some k => c.dissipation p k ma.natAbs | none => 0)
  let c := c.modelUpdate p 0 (c.dissipation p 0 ma.natAbs) dt
  let c := c.modelUpdate p 1 (c.dissipation p 1 ma.natAbs) dt
  (c.put (H.sampleAt p) c.now).showTemps p

/-- A voltage sample (R247). A sink that awaits VBUS after a Hard Reset sees it down and back (R378). -/
def Hub.voltageSample (c : Hub) (p vbus vsrc vsnk : Nat) : Hub :=
  let c := ((c.put (O.vbusMv p) vbus).put (O.vsrcMv p) vsrc).put (O.vsnkMv p) vsnk
  if c.get (H.hrSink p) = 1 ∧ vbus < 800 then c.put (H.hrSink p) 2
  else if c.get (H.hrSink p) = 2 ∧ 4750 ≤ vbus then
    (((c.put (H.hrSink p) 0).put (H.hrSent p) 0).implicitContract p |>.reactionDone 2 p).reactionDone 0 p
  else c

/-- SAG_INPUT_MV (R251): the selected feed's voltage in states 00h and 01h, the bus voltage in 02h and 03h. -/
def Hub.sagInput (c : Hub) : Nat :=
  if 2 ≤ c.get O.feedState then c.get O.busMv else if c.get O.feedSelected = 1 then c.get O.faMv else c.get O.fbMv

/-- A sample of the feeds and the bus (R247, R251). -/
def Hub.feedSample (c : Hub) (fa fb bus : Nat) : Hub :=
  let c := ((c.put O.faMv fa).put O.fbMv fb).put O.busMv bus
  let c := c.when (c.get O.feedState == 2 && (c.get O.busMinMv == 0 || decide (bus < c.get O.busMinMv))) fun c => c.put O.busMinMv bus
  c.put O.sagInputMv c.sagInput

/-- ADC_CONVERSION (R246). -/
def execAdcConversion (sample : AdcSample) (s : State) : Host.Outcome State Fault Refusal :=
  onPorts s fun c => match sample with
    | .feeds fa fb bus => c.feedSample fa.toNat fb.toNat bus.toNat
    | .voltages p vbus vsrc vsnk => c.voltageSample p vbus.toNat vsrc.toNat vsnk.toNat
    | .current p ma dt => c.currentSample p ma dt
    | .diode p low high => c.diodeReading p low high

end Sys2Proof.Machine
end

