-- ==== Sys2Proof/Machine/Read.lean ====
section
/-! DEFINITION. The dictionary as it is read (R314–R316): which object an index and subindex name, what exists in the running role, the
values that the hub computes as they are read, and the bytes of scalars and table ranges. -/
namespace Sys2Proof.Machine

/-! ## Names -/

/-- The repeat number of a row at an index, if the row repeats to it. -/
def Row.unitAt (r : Row) (b : Block) (index : Nat) : Option Nat :=
  if index < r.idx then none
  else if b.stride = 0 then (if index = r.idx then some 0 else none)
  else if (index - r.idx) % b.stride = 0 ∧ (index - r.idx) / b.stride < b.count then some ((index - r.idx) / b.stride) else none

/-- The row an index and subindex name, and its repeat number (R314). -/
def locate (index sub : Nat) : Option (Row × Nat) :=
  dictionary.findSome? fun b => b.rows.findSome? fun r =>
    if r.sub ≤ sub ∧ sub ≤ r.last then (r.unitAt b index).map fun n => (r, n) else none

/-- The row whose registers carry an object number. -/
def rowOf (obj : Nat) : Option Row := (dictionary.flatMap Block.rows).find? fun r => r.obj == obj

/-- The register of a scalar: its row, repeat number and place among the row's subindices. -/
def Row.key (r : Row) (n k : Nat) : Key :=
  match r.geo with
  | .lane => ⟨r.obj, n / 4, n % 4⟩
  | .layer l => ⟨r.obj, n, l⟩
  | _ => ⟨r.obj, n, k⟩

/-- The default of a scalar: the dictionary's, or what fuses hold (R362). -/
def Row.initial (r : Row) (k : Nat) : Nat :=
  if r.obj = 0x100100 then Config.hubUid
  else if r.obj = 0x100900 then Config.romVersion % 2 ^ 32
  else if r.obj = 0x112101 then Config.macAddr
  else if r.obj = 0x112102 then Config.linkLocal
  else if r.obj = 0x703001 then Config.lmsKeyHash 0 % 2 ^ 256
  else if r.obj = 0x703002 then Config.lmsKeyHash 1 % 2 ^ 256
  else r.dflt.getD k 0

/-- The register object of a scalar. -/
def Row.scalarObj (r : Row) (n k : Nat) : Obj := ⟨r.key n k, r.size, r.initial k⟩

/-- The default of a table's field in an entry. -/
def Row.fieldInitial (r : Row) (f : Field) (e : Nat) : Nat :=
  if r.obj = 0x421003 then quantumDefault e
  else if r.obj = 0x800200 ∧ f.off = 0 then severityDefaults.getD e 0
  else if r.obj = 0x800200 ∧ f.off = 8 then severityFloors.getD e 0
  else f.dflt

/-- The number an entry's registers carry: entries of a MAC's or head's table count on from the one before it. -/
def Row.entryInst (r : Row) (n e : Nat) : Nat := r.entries * n + e

/-- The register object of a table's field. -/
def Row.fieldObj (r : Row) (n e : Nat) (f : Field) : Obj := ⟨⟨r.obj, r.entryInst n e, f.off⟩, f.size, r.fieldInitial f (r.entryInst n e)⟩

/-! ## Existence (R315, R408) -/

/-- The objects present in ROM recovery (R408). -/
def inRomRange (index sub : Nat) : Bool :=
  decide (0x1000 ≤ index ∧ index ≤ 0x1011) || decide (0x1100 ≤ index ∧ index ≤ 0x1102) || (index == 0x7000 && sub == 1)
    || decide (0x8000 ≤ index ∧ index ≤ 0x8007) || decide (0x9000 ≤ index ∧ index ≤ 0x9006)

/-- Whether an object exists in the running role: a scalar of the Cox only in the Cox, the root port's objects only in an Oar, ROM_BOOT only in
ROM recovery, and there only the objects R408 lists. A table of the Cox only exists everywhere, with no entries (R316). -/
def Hub.present (c : Hub) (r : Row) (index sub : Nat) : Bool :=
  (!c.inRom || inRomRange index sub) && (!r.coxOnly || r.ty == .table || c.isCox) && (r.idx != 0x5020 || c.isOar)
    && (r.obj != 0x900603 || c.inRom)

/-- The object that an index and subindex name in the running role (R314). -/
def Hub.object (c : Hub) (index sub : Nat) : Option (Row × Nat) :=
  match locate index sub with
  | some (r, n) => if c.present r index sub then some (r, n) else none
  | none => none

/-- A writable setting: Owner may write it, and its description names no one value that restarts it. -/
def Row.setting (r : Row) : Bool := rightOf r.acc .owner == .rw && (match r.chk with | .only _ => false | _ => true)

/-- Whether an object is stored in settings (R341). RTC_ALARM is (R427); for every other setting the set is the part's own
(notes/assumptions/6.md). -/
def Row.isStored (r : Row) : Bool := r.setting && (r.obj == 0x303102 || Config.stored r.obj)

/-! ## The directory (R315) -/

/-- A subindex of a row that exists: index, subindex, row. -/
structure Named where
  index : Nat
  sub : Nat
  row : Row

/-- Every object of the dictionary that exists in the running role, in ascending index and subindex order. -/
def Hub.names (c : Hub) : List Named :=
  let all : List Named := dictionary.flatMap fun b => (List.range b.count).flatMap fun n => b.rows.flatMap fun r =>
    ((List.range (r.last + 1 - r.sub)).map fun k => (⟨r.idx + b.stride * n, r.sub + k, r⟩ : Named)).filter fun x => c.present r x.index x.sub
  all.mergeSort fun x y => x.index < y.index || (x.index == y.index && x.sub ≤ y.sub)

/-- The TYPE code of the directory (R315). -/
def Ty.code : Ty → Nat
  | .bool => 1 | .u8 => 2 | .u16 => 3 | .u32 => 4 | .u64 => 5 | .i16 => 6 | .i32 => 7 | .f32 => 8 | .octets => 9 | .string => 10
  | .table => 11

/-- The ACCESS code of a right (R315). -/
def Right.code : Right → Nat
  | .ro => 0 | .rw => 1 | .wo => 2 | .const => 3

/-- A character in UTF-8, the code of every STRING(n) (00_scope, the types of objects). -/
def utf8Char (ch : Char) : Bytes :=
  let v := ch.toNat
  let tail : Nat → BitVec 8 := fun k => BitVec.ofNat 8 (128 + v / 64 ^ k % 64)
  if v < 0x80 then [BitVec.ofNat 8 v]
  else if v < 0x800 then [BitVec.ofNat 8 (192 + v / 64), tail 0]
  else if v < 0x10000 then [BitVec.ofNat 8 (224 + v / 4096), tail 1, tail 0]
  else [BitVec.ofNat 8 (240 + v / 262144), tail 2, tail 1, tail 0]

/-- Text in UTF-8 padded with zero bytes to n. -/
def padded (s : String) (n : Nat) : Bytes := (s.toList.flatMap utf8Char ++ List.replicate n 0).take n

/-- The entries a table has now (R315, R316): none where it is of the Cox only in another role; as many blocks as the open transfer. -/
def Hub.entryCount (c : Hub) (r : Row) : Nat :=
  if r.coxOnly && !c.isCox then 0
  else if r.obj = 0x101000 then c.names.length
  else if r.obj = 0x101100 then unitStrings.length
  else if r.obj = 0x900300 then (if c.get O.transferState = 0 then 0 else c.get O.blocksTotal)
  else r.entries

/-- A directory entry (R315). -/
def Hub.directoryEntry (c : Hub) (x : Named) : Bytes :=
  let r := x.row
  let access := Right.code (rightOf r.acc .observer) + 4 * Right.code (rightOf r.acc .operator) + 16 * Right.code (rightOf r.acc .engineer)
    + 64 * Right.code (rightOf r.acc .owner)
  let flags := (if r.isStored then 1 else 0) + (if r.shadow then 2 else 0) + (if r.coxOnly then 4 else 0)
  let entries := if r.ty != .table then 1 else if r.obj = 0x101000 then c.names.length else c.entryCount r
  leBytes x.index 2 ++ leBytes x.sub 1 ++ leBytes r.ty.code 1 ++ leBytes access 1 ++ leBytes r.unit 1 ++ leBytes flags 2
    ++ leBytes r.size 4 ++ leBytes entries 4 ++ padded r.name 32

/-! ## Values computed as they are read -/

/-- The next GRANT of an entry that names a shaper or policer linked to grants (R112, SHAPERS, POLICERS). -/
def Hub.linkedNext (c : Hub) (mode : Obj) (next : Obj) (namer : Option Nat) : Nat :=
  match c.get mode, namer with
  | 0, some t => c.get (O.grantNext t)
  | _, _ => c.get next

/-- A value the part measures and no rule computes: a free value (notes/assumptions/5.md). -/
def Hub.measured (c : Hub) (size : Nat) : Nat := Config.freeNat c.draws % 256 ^ size

/-- The BEACON the hub sends as coordinator, node 0 of its segment, and the node count in it (R333); none where another node is. -/
def Hub.plcaBeacon (c : Hub) : Option Nat :=
  if c.flag O.t1sEnable = true ∧ c.get O.plcaNodeId = 0 then some (c.get O.plcaNodeCount) else none

/-- PLCA_STATUS (1120h.07): CSMA/CD under node ID 255; the coordinator has its own BEACON; for any other node the segment decides whether one is
seen (notes/assumptions/69.md). -/
def Hub.plcaNow (c : Hub) : Nat :=
  if c.get O.plcaNodeId = 255 then 0 else if c.plcaBeacon.isSome then 1 else 1 + c.measured 1 % 2

/-- DIE_TEMP_PEAK (F000h.03): no less than where it was restarted, nor than the junction is now; how far above is measured. -/
def Hub.diePeak (c : Hub) : Nat :=
  let v := signed 2 (c.measured 2)
  (max (max (c.getI O.dieTempPeak) v) (v + (Config.freeNat (c.draws + 1) % 1000 : Nat)) % (65536 : Int)).toNat

/-- What a scalar that the hub computes on reading shows; none where its register holds it. -/
def Hub.computed (c : Hub) (o n k : Nat) : Option Nat :=
  match o with
  | 0x112007 => some c.plcaNow
  | 0x112401 => some c.relay.length
  | 0x200201 => some (c.creditAvail n k)
  | 0x200504 => some ((c.replay.filter fun f => f.port == n).length)
  | 0x24000B => some ((c.get (O.chkBits (n / 4) (n % 4)) + c.chkSince (n / 4) (n % 4)) % 2 ^ 64)
  | 0x24000C => some (c.lineErrorsNow (n / 4) (n % 4))
  | 0x24000D => some (c.segmentErrorsNow (n / 4) (n % 4) 0 (O.errFrame (n / 4) (n % 4)))
  | 0x24000E => some (c.segmentErrorsNow (n / 4) (n % 4) 1 (O.errRun (n / 4) (n % 4)))
  | 0x24000F => some (c.segmentErrorsNow (n / 4) (n % 4) 2 (O.errNyquist (n / 4) (n % 4)))
  | 0x240010 => some (c.segmentErrorsNow (n / 4) (n % 4) 3 (O.errLadder (n / 4) (n % 4)))
  | 0x240011 => some (c.segmentErrorsNow (n / 4) (n % 4) 4 (O.errRandom (n / 4) (n % 4)))
  | 0x240009 => some ((c.get (O.rxAdaptUpdates (n / 4) (n % 4)) + c.adaptSince (n / 4) (n % 4)) % 2 ^ 64)
  | 0x280607 => some (c.modeVdo n)
  | 0x300403 => some c.priorityPorts
  | 0x301107 => some (c.measured 4)
  | 0x310103 => some (c.ilimNow n)
  | 0x310104 => some (c.fastTripNow n)
  | 0x31020F => some (if c.modelHistoryNow n then 1 else 0)
  | 0x310309 => some ((c.now - c.get (H.sampleAt n)) / 1000 % 2 ^ 32)
  | 0x400001 => some c.activeTunnels
  | 0x400005 => some (((List.range 256).filter fun i => c.get (O.stageUsed i) != 0).length)
  | 0x401100 => some (if !c.isCox then 0 else ((List.range 4096).filter fun i => c.get (O.routeState i) == 2).length)
  | 0x410002 => some c.cellsUsed
  | 0x410003 => some c.sharedFree
  | 0x410302 => some c.isoUsed
  | 0x410404 => some c.creditUsed
  | 0x410608 => some c.spillUnits
  | 0x410902 => some c.mcastCells
  | 0x500001 => some (if c.isOar then 2 else if c.isCox then 1 else 0)
  | 0x500203 => some (min 64 c.apertureWrites)
  | 0x504600 => some (((List.range 16).filter fun e => c.get (O.errLogKind e) != 0).length)
  | 0x800503 => some c.faultsInProgress
  | 0x900204 => some (((List.range (c.get O.blocksTotal)).filter fun b => bit (c.get (O.bitmapByte (b / 8))) (b % 8)).length)
  | 0x900403 => some (if c.get O.activationState = 1 then c.activationRefusal else c.get O.refusal)
  | 0x900407 => some (if c.get O.activationState = 6 then (c.get H.confirmEnd - c.now) / 1000000 else 0)
  | 0xA00000 => if c.isCox then none else some 0
  | 0xA00402 => some (if c.isCox || c.flag O.timeLock then 1 else 0)
  | 0xF00001 => some ((c.now - c.get H.resetAt) / 1000000)
  | 0xF00002 => some (c.measured 2)
  | 0xF00003 => some c.diePeak
  | 0xF00004 => some (c.measured 1 % 101)
  | _ => none

/-- A scalar's value as a read shows it. -/
def Hub.scalarValue (c : Hub) (r : Row) (n k : Nat) : Nat := (c.computed r.obj n k).getD (c.get (r.scalarObj n k))

/-- KIND and the other fields of an open window in REACTIONS (8005h.04). -/
def windowField (w : Window) (off : Nat) : Nat :=
  match off with
  | 0 => w.id % 65536 | 2 => w.source | 3 => w.kind | 4 => w.unit | 5 => if w.ended then 1 else 0 | _ => w.stroke

/-- The level of a session as a code. -/
def Session.field (x : Session) (now off : Nat) : Nat :=
  match off with
  | 0 => x.id | 2 => Level.rank x.level
  | 3 => (match x.transport with | .t1s => 1 | .tunnel => 2 | .mailbox => 3 | .uart => 4)
  | 4 => x.rxHigh | 8 => x.tx | _ => (now - x.lastAt) / 1000000

/-- What a table's field that the hub computes on reading shows; none where its register holds it. -/
def Hub.computedField (c : Hub) (o e off : Nat) : Option Nat :=
  match o with
  | 0x110200 => some ((c.sessions[e]?.map fun x => x.field c.now off).getD 0)
  | 0x400400 => if off = 24 then some ((c.held.filter fun p => p.tid == e).length) else none
  | 0x410500 =>
    if off = 0 then some (c.sramCells e) else if off = 4 then some (cellSum (c.segment e .dram))
    else if off = 8 then some (c.queue e).length
    else if off = 12 then some (if c.spilling e && decide (3 ≤ c.get O.sagStage) then 2 else c.get (O.queueStatusSpill e)) else none
  | 0x422000 => if off = 8 then some (c.linkedNext (O.shaperMode e) (O.shaperNext e) (c.liveEntries.find? fun t => c.get (O.pathShaper t) == e)) else none
  | 0x423000 => if off = 8 then some (c.linkedNext (O.policerMode e) (O.policerNext e) (c.liveEntries.find? fun t => c.get (O.pathPolicer t) == e)) else none
  | 0x425000 =>
    if off = 12 then
      let frozen := decide (8192 ≤ e) && (c.flag H.planHold || c.flag H.handover)
      let fixed := decide (3 ≤ e ∧ e < 8192) && decide (1 ≤ c.get (O.pathCls e) ∧ c.get (O.pathCls e) ≤ 3) && c.valid e
      some ((if frozen then 1 else 0) + if fixed then 2 else 0)
    else none
  | 0x800504 => some ((c.windows[e]?.map fun w => windowField w off).getD 0)
  | 0xA00100 =>
    if off = 12 ∧ c.get (O.hubTableState e) = 3 then
      some (c.get (O.hubTableHold e) - (c.now - c.get (H.holdAt e)) / 1000000)
    else none
  | _ => none

/-! ## Bytes -/

/-- The slot that the open transfer fills, as an offset in the flash (R388). -/
def Hub.transferBase (c : Hub) : Nat :=
  if c.get H.transferTarget = 2 then 0x3C00000 + 0x100000 * c.get H.transferSlot
  else if c.get H.transferSlot = 1 then 0x2000000 else 0x400000

/-- Entry e of a table, with its reserved bytes 0. -/
def Hub.entryBytes (c : Hub) (m : Mems) (r : Row) (n e : Nat) : Bytes :=
  if r.obj = 0x101000 then (c.names[e]?.map c.directoryEntry).getD []
  else if r.obj = 0x101100 then padded (unitStrings.getD e "") 16
  else if r.obj = 0x405500 then m.readImage e 1
  else if r.obj = 0x900300 then
    let d := m.readFlash (c.transferBase + 4096 * e) 4096
    d ++ leBytes (crc32c d) 4
  else r.fields.foldl (fun bs f =>
    overlay bs f.off (leBytes ((c.computedField r.obj (r.entryInst n e) f.off).getD (c.get (r.fieldObj n e f))) f.size)) (List.replicate r.size 0)

/-- Any byte range inside a table (R316). -/
def Hub.tableBytes (c : Hub) (m : Mems) (r : Row) (n off count : Nat) : Bytes :=
  let first := off / r.size
  let last := (off + count - 1) / r.size
  let all := (List.range (last + 1 - first)).flatMap fun i => c.entryBytes m r n (first + i)
  (all.drop (off % r.size)).take count

/-- A whole scalar. -/
def Hub.scalarBytes (c : Hub) (r : Row) (n sub : Nat) : Bytes := leBytes (c.scalarValue r n (sub - r.sub)) r.size

/-- The right of a level to read (R322 check 9). -/
def Right.reads : Right → Bool
  | .wo => false | .ro => true | .rw => true | .const => true

/-- A read of a whole scalar or of a table's range, with the status of the first check that fails (R316, R322); `limit` is the most a kind may
ask for (R320). Measured values differ from read to read. -/
def Hub.readObject (c : Hub) (m : Mems) (lvl : Level) (index sub off count limit : Nat) : Status × Bytes :=
  match c.object index sub with
  | none => (.noObject, [])
  | some (r, n) =>
    if !(rightOf r.acc lvl).reads then (.writeOnly, [])
    else if r.ty != .table then (if off = 0 ∧ count = 0 then (.ok, c.scalarBytes r n sub) else (.length, []))
    else if count = 0 ∨ limit < count then (.length, [])
    else if c.entryCount r = 0 then (.ok, [])
    else if c.entryCount r * r.size < off + count then (.range, [])
    else (.ok, c.tableBytes m r n off count)

end Sys2Proof.Machine
end

