-- ==== Sys2Proof/Machine/Flash.lean ====
section
/-! DEFINITION. The external NOR (R387–R391): the image slots and their checks (R398), and the settings records and what they hold
(R341, R405, R406). -/
namespace Sys2Proof.Machine

/-! ## The flash (R388) -/

/-- A range of the NOR erased. -/
def Mems.eraseFlash (m : Mems) (a n : Nat) : Mems := { m with flash := m.flash.filter fun x => decide (x.1 < a) || decide (a + n ≤ x.1) }
/-- A range of the NOR erased and programmed. -/
def Mems.programFlash (m : Mems) (a : Nat) (bs : Bytes) : Mems := (m.eraseFlash a bs.length).writeFlash a bs
/-- A number in the NOR, lowest byte first. -/
def Mems.flashNat (m : Mems) (a n : Nat) : Nat := leNat (m.readFlash a n)
/-- The offset of an image slot: 0 A, 1 B. -/
def slotBase (s : Nat) : Nat := if s = 1 then 0x2000000 else 0x400000
/-- The offset of a settings slot. -/
def recordBase (k : Nat) : Nat := 0x3C00000 + 0x100000 * k

/-! ## The control area (R388, R389)

Three items: 0 the boot slot, 1 the transfer state, 2 the block bitmap. A copy is its sequence number, the length of its data, the data and the
CRC-32C over all of them; where the copies stand and what frames their data is the model's (DESIGN CHOICE, notes/assumptions/54.md). -/

/-- The offset of a copy of an item. -/
def controlBase (item copy : Nat) : Nat := 0x100000 * item + 0x80000 * copy

/-- A sound copy of an item: its sequence number and data. -/
def Mems.controlCopy (m : Mems) (item copy : Nat) : Option (Nat × Bytes) :=
  let b := controlBase item copy
  let n := m.flashNat (b + 4) 2
  if m.flashNat b 4 = 0xFFFFFFFF ∨ 896 < n then none
  else if crc32c (m.readFlash b (n + 6)) = m.flashNat (b + n + 6) 4 then some (m.flashNat b 4, m.readFlash (b + 6) n) else none

/-- The copy that holds the newer sequence number, which it is, and its data. -/
def Mems.controlNewest (m : Mems) (item : Nat) : Option (Nat × Nat × Bytes) :=
  match m.controlCopy item 0, m.controlCopy item 1 with
  | none, none => none
  | some x, none => some (0, x)
  | none, some y => some (1, y)
  | some x, some y => if x.1 < y.1 then some (1, y) else some (0, x)

/-- An item changed (R389): the copy without the newer sequence number is written, and counts from then on. -/
def Mems.putControl (m : Mems) (item : Nat) (data : Bytes) : Mems :=
  let next := match m.controlNewest item with | none => (0, 0) | some (k, seq, _) => (1 - k, seq + 1)
  let bs := leBytes next.2 4 ++ leBytes data.length 2 ++ data
  (m.eraseFlash (controlBase item next.1) 4096).writeFlash (controlBase item next.1) (bs ++ leBytes (crc32c bs) 4)

/-- The data of an item as the hub's registers hold it. -/
def Hub.controlData (c : Hub) : Nat → Bytes
  | 0 => leBytes (c.get O.bootSlot) 1
  | 1 => leBytes (c.get O.transferState) 1 ++ leBytes (c.get H.transferTarget) 1 ++ leBytes (c.get H.transferSlot) 1
      ++ leBytes (c.get O.blocksTotal) 2 ++ leBytes (c.get H.transferSize) 4 ++ leBytes (c.get O.transferId) 8
  | _ => (List.range (ceilDiv (c.get O.blocksTotal) 8)).map fun k => BitVec.ofNat 8 (c.get (O.bitmapByte k))

/-- The items of the control area that a command changed go into the flash (R389). -/
def Hub.syncControl (c d : Hub) (m : Mems) : Mems :=
  [0, 1, 2].foldl (fun m i => if c.controlData i = d.controlData i then m else m.putControl i (d.controlData i)) m

/-- What a command leaves, with its changes of the control area in the flash. -/
def Hub.recorded (c : Hub) (r : Hub × Mems) : Hub × Mems := (r.1, c.syncControl r.1 r.2)

/-- A command that writes an object of update: what it changes in the control area goes into the flash (R389). -/
def onUpdate (w : HeldWrite) (s : State) (f : Hub → Mems → Hub × Mems) : Host.Outcome State Fault Refusal :=
  onWriteAll w s fun c m => c.recorded (f c m)

/-- The items as the flash holds them (R389, R394). An item of which no copy is sound stands as it is. -/
def Hub.readControl (c : Hub) (m : Mems) : Hub :=
  let c := match m.controlNewest 0 with | none => c | some (_, _, bs) => c.put O.bootSlot (leNat bs)
  let c := match m.controlNewest 1 with
    | none => c
    | some (_, _, bs) =>
      let f : Nat → Nat → Nat := fun off n => leNat ((bs.drop off).take n)
      (((((c.put O.transferState (f 0 1)).put H.transferTarget (f 1 1)).put H.transferSlot (f 2 1)).put O.blocksTotal (f 3 2)).put H.transferSize
        (f 5 4)).put O.transferId (f 9 8)
  match m.controlNewest 2 with
  | none => c
  | some (_, _, bs) => c.each (List.range bs.length) fun c k => c.put (O.bitmapByte k) (bs.getD k 0).toNat

/-- The items as start-up finds them: the transfer whose verification a reset broke off stands at 02h again, in the flash too (R389, R396). -/
def Hub.loadControl (c : Hub) (m : Mems) : Hub × Mems :=
  let c := c.readControl m
  c.recorded (c.when (c.get O.transferState == 3) fun c => c.put O.transferState 2, m)

/-! ## Images (R390, R391, R398) -/

/-- The engine bit IMAGE of a key slot (R345). -/
def imageEngine : Nat := 2
/-- IMAGE_SIZE of an image. -/
def Mems.imageSize (m : Mems) (b : Nat) : Nat := m.flashNat (b + 12) 4
/-- SECURITY_VERSION of an image. -/
def Mems.securityVersion (m : Mems) (b : Nat) : Nat := m.flashNat (b + 7) 1
/-- FW_VERSION of an image. -/
def Mems.imageVersion (m : Mems) (b : Nat) : Nat := m.flashNat (b + 8) 4
/-- SETTINGS_FORMAT of an image. -/
def Mems.imageFormat (m : Mems) (b : Nat) : Nat := m.flashNat (b + 16) 2
/-- CONVERT_FROM of an image. -/
def Mems.convertFrom (m : Mems) (b : Nat) : Nat := m.flashNat (b + 18) 2
/-- The signed message. -/
def Mems.signedMessage (m : Mems) (b : Nat) : Bytes := m.readFlash b (m.imageSize b - 8192)
/-- PUBLIC_KEY of a signature block. -/
def Mems.publicKey (m : Mems) (sig : Nat) : Bytes := m.readFlash (sig + 4) 56
/-- The offset of the Valtoest signature block; the owner's follows it. -/
def Mems.signatureAt (m : Mems) (b : Nat) : Nat := b + m.imageSize b - 8192
/-- A signature block verifies over the image's message under the public key it carries (R363, R391). -/
def Mems.signatureHolds (m : Mems) (b sig : Nat) : Bool :=
  let n := m.flashNat sig 4
  decide (1 ≤ n ∧ n ≤ 4036) && lmsVerify (m.publicKey sig) (m.signedMessage b) (m.readFlash (sig + 60) n)

/-- The unrevoked LMS_PK_HASH that the Valtoest key's hash equals. -/
def Hub.valtoestKey (c : Hub) (m : Mems) (b : Nat) : Option Nat :=
  let h := sha256 (m.publicKey (m.signatureAt b))
  [0, 1].find? fun k => !bit (c.get O.pkRevoked) k && h == Config.lmsKeyHash k % 2 ^ 256

/-- The owner signature verifies under the key of a Valid slot with the IMAGE bit (R363). -/
def Hub.ownerSigned (c : Hub) (m : Mems) (b : Nat) : Bool :=
  let sig := m.signatureAt b + 4096
  let h := sha256 (m.publicKey sig)
  ((List.range 64).any fun s => c.slotKey s imageEngine == some h) && m.signatureHolds b sig

/-- An owner signature is required: some IMAGE slot is Valid, or COSIGN_LOCK is blown (R363). -/
def Hub.ownerRequired (c : Hub) : Bool := ((List.range 64).any fun s => (c.slotKey s imageEngine).isSome) || c.flag O.cosignLock

/-- One check of R398 on the image at an offset; `size` is SIZE of its transfer. -/
def Hub.imageCheck (c : Hub) (m : Mems) (b size : Nat) : Nat → Bool
  | 1 => (List.range (c.get O.blocksTotal)).all fun k => bit (c.get (O.bitmapByte (k / 8))) (k % 8)
  | 2 => m.readFlash b 4 == [0x45, 0x50, 0x58, 0x49] && m.flashNat (b + 4) 2 == 1 && bits (m.flashNat (b + 6) 1) 3 5 == 0
      && m.flashNat (b + 20) 4 == 0 && (m.readFlash (b + 24) 4072).all fun x => x == 0
  | 3 => m.imageSize b == size
  | 4 => (c.valtoestKey m b).isSome
  | 5 => m.signatureHolds b (m.signatureAt b)
  | 6 => !c.ownerRequired || c.ownerSigned m b
  | 7 => decide (c.get O.rollback ≤ m.securityVersion b)
  | 8 => bit (m.flashNat (b + 6) 1) (c.get O.role)
  | _ => decide (m.convertFrom b ≤ c.get O.settingsFormat ∧ c.get O.settingsFormat ≤ m.imageFormat b)

/-- VERIFY_RESULT where a check fails (R398). -/
def checkResult : Nat → Nat
  | 1 => 2 | 2 => 3 | 3 => 0xA | 4 => 4 | 5 => 5 | 6 => 6 | 7 => 7 | 8 => 8 | _ => 9

/-- VERIFY_RESULT of the checks in order: the first that fails, or 01h passed. -/
def Hub.verifyImage (c : Hub) (m : Mems) (b size : Nat) : List Nat → Nat
  | [] => 1
  | k :: rest => if c.imageCheck m b size k then c.verifyImage m b size rest else checkResult k

/-- SIGNER of an image that passed: [0] key 0, [1] key 1, [2] owner (9001h.00). -/
def Hub.signerOf (c : Hub) (m : Mems) (b : Nat) : Nat :=
  (match c.valtoestKey m b with | some k => 2 ^ k | none => 0) + if c.ownerSigned m b then 4 else 0

/-- What SLOT_INFO shows of the image in a slot (9001h.00). -/
def Hub.showImage (c : Hub) (m : Mems) (s : Nat) : Hub :=
  let b := slotBase s
  ((((c.put (O.slotInfoSettingsFormat s) (m.imageFormat b)).put (O.slotInfoFwVersion s) (m.imageVersion b)).put
    (O.slotInfoSecurityVersion s) (m.securityVersion b)).put (O.slotInfoSigner s) (c.signerOf m b))

/-- The digest of a verified image is stored in VBAT (R428). -/
def Hub.storeDigest (c : Hub) (m : Mems) (s : Nat) : Hub :=
  (c.put (H.digest s) (sha256 (m.signedMessage (slotBase s)))).put (H.digestHeld s) 1

/-! ## Settings (R341, R405, R406) -/

/-- The registers of a stored object as they stand, as the bytes of a record's value. -/
def Hub.storedBytes (c : Hub) (m : Mems) (x : Named) : Bytes :=
  match locate x.index x.sub with
  | none => []
  | some (r, n) =>
    if r.ty != .table then leBytes (c.get (r.scalarObj n (x.sub - r.sub))) r.size
    else (List.range (c.entryCount r)).flatMap fun e => c.entryBytes m r n e

/-- The body of a record: INDEX, SUB, a reserved byte, SIZE and the value of every stored object (R405). -/
def Hub.recordBody (c : Hub) (m : Mems) : Bytes :=
  (c.names.filter fun x => x.row.isStored).flatMap fun x =>
    let v := c.storedBytes m x
    leBytes x.index 2 ++ leBytes x.sub 1 ++ [0] ++ leBytes v.length 4 ++ v

/-- The records that the active pair writes into the handover area (R402): the running value of every object, whose flash contents IMAGE_BLOCKS
stands for alone left out; sessions; the relay table; the routes that the Cox works on; the messages held. Their layout is the model's (DESIGN CHOICE,
notes/assumptions/92.md). -/
def Hub.handoverRecords (c : Hub) (m : Mems) : List HandoverRecord :=
  let objects := (c.names.filter fun x => x.row.obj != 0x900300).flatMap fun x =>
    let v := c.storedBytes m x
    leBytes x.index 2 ++ leBytes x.sub 1 ++ [0] ++ leBytes v.length 4 ++ v
  let relay := c.relay.flatMap fun x => leBytes x.hub 1 ++ leBytes x.session 2 ++ leBytes x.addr 16 ++ leBytes x.port 2
  let works := c.works.flatMap fun w => leBytes w.route 2 ++ leBytes w.hubs.length 1 ++ w.hubs.flatMap fun h => leBytes h 1
  let held := c.fopHeld.flatMap fun h => leBytes h.1 2 ++ leBytes h.2.session.toNat 2 ++ leBytes h.2.counter.toNat 4 ++ h.2.body
  [sealed objects, c.sessionRecord, sealed relay, sealed works, sealed held]

/-- Bytes 0–23 of a record's header (R405). -/
def recordHead (format seq length uid : Nat) : Bytes :=
  [0x45, 0x50, 0x58, 0x53] ++ leBytes format 2 ++ [0, 0] ++ leBytes seq 4 ++ leBytes length 4 ++ leBytes uid 8

/-- A whole header, with its CRC over the head and the body. -/
def recordHeader (format seq uid : Nat) (body : Bytes) : Bytes :=
  let h := recordHead format seq body.length uid
  h ++ leBytes (crc32c (h ++ body)) 4 ++ leBytes 0 4

/-- One entry of a record applied: the fields of a stored object that no description marks ro. -/
def Hub.applyStored (c : Hub) (index sub : Nat) (v : Bytes) : Hub :=
  match locate index sub with
  | none => c
  | some (r, n) =>
    if !r.isStored then c
    else if r.ty != .table then (if v.length = r.size then c.put (r.scalarObj n (sub - r.sub)) (leNat v) else c)
    else if r.obj = 0x405500 then c
    else (List.range (v.length / r.size)).foldl (fun c e =>
      (r.fields.filter fun f => !f.ro).foldl (fun c f => c.put (r.fieldObj n e f) (leNat ((v.drop (r.size * e + f.off)).take f.size))) c) c

/-- The entries of a record's body applied in order; the number bounds their count. -/
def Hub.applyBody : Nat → Bytes → Hub → Hub
  | 0, _, c => c
  | fuel + 1, b, c =>
    if b.length < 8 then c
    else
      let n := leNat ((b.drop 4).take 4)
      Hub.applyBody fuel (b.drop (8 + n)) (c.applyStored (leNat (b.take 2)) (leNat ((b.drop 2).take 1)) ((b.drop 8).take n))

/-- The defaults of a role where they differ from the dictionary's: POLICY of every port, and FEED_REQUIRE, in an Oar (2800h.01, 9000h.05). -/
def Hub.roleBase (c : Hub) : Hub :=
  if c.isOar then ((List.range 24).foldl (fun c p => c.put (O.policy p) 4) Hub.reset).putB O.feedRequire false else Hub.reset

/-- The stored settings a body holds over the role's defaults, as the registers they set. -/
def Hub.settingsOf (c : Hub) (body : Bytes) : Store := (Hub.applyBody body.length body c.roleBase).regs

/-- The stored settings in force applied to the registers (R9, R427). -/
def Hub.applySaved (c : Hub) : Hub := { c with regs := c.saved.foldl (fun st e => Store.insert e.1 e.2 st) c.regs }

/-- SETTINGS_RECORDS of a slot as the flash holds it (R405): free without MAGIC, else valid or invalid by its CRC. -/
def Hub.scanRecord (c : Hub) (m : Mems) (k : Nat) : Hub :=
  let b := recordBase k
  if m.readFlash b 4 != [0x45, 0x50, 0x58, 0x53] then c.clearRecord k
  else
    let n := m.flashNat (b + 12) 4
    let ok := decide (n ≤ 1048544) && crc32c (m.readFlash b 24 ++ m.readFlash (b + 32) n) == m.flashNat (b + 24) 4
    ((((c.put (O.recordState k) (if ok then 1 else 2)).put (O.recordFormat k) (m.flashNat (b + 4) 2)).put (O.recordSeq k)
      (m.flashNat (b + 8) 4)).put (O.recordLength k) n).put (O.recordCrc k) (m.flashNat (b + 24) 4)

/-- A slot holds a valid record, protected or not. -/
def Hub.recordValid (c : Hub) (k : Nat) : Bool := c.get (O.recordState k) == 1 || c.get (O.recordState k) == 3

/-- Of some settings slots, the one whose record has the highest SEQ. -/
def Hub.newestOf (c : Hub) (ks : List Nat) : Option Nat :=
  ks.foldl (fun b k => match b with | none => some k | some j => if c.get (O.recordSeq j) < c.get (O.recordSeq k) then some k else some j) none

/-- The record that an image uses (R406): the valid one with the highest SEQ among the formats it reads. -/
def Hub.readable (c : Hub) (m : Mems) (base : Nat) : Option Nat :=
  c.newestOf ((List.range 4).filter fun k => c.recordValid k
    && decide (m.convertFrom base ≤ c.get (O.recordFormat k) ∧ c.get (O.recordFormat k) ≤ m.imageFormat base))

/-- A SEQ above every other record's (R397, R405). -/
def Hub.nextSeq (c : Hub) : Nat := ((List.range 4).map fun k => if c.recordValid k then c.get (O.recordSeq k) else 0).foldl max 0 + 1

/-- An open transfer fills the settings slot (R397). -/
def Hub.fillsRecord (c : Hub) (k : Nat) : Bool := c.get O.transferState != 0 && c.get H.transferTarget == 2 && c.get H.transferSlot == k

/-- The slot holds no record that the running image has a use for: none, or one of a format above its own, which it cannot read (R406). In ROM recovery
no image runs. -/
def Hub.recordFree (c : Hub) (k : Nat) : Bool :=
  c.get (O.recordState k) == 0 || (c.get (O.recordState k) == 1 && !c.inRom && decide (c.get O.settingsFormat < c.get (O.recordFormat k)))

/-- The slot of the next save (R406): neither protected, nor the newest record of the running format, nor one that a transfer or a save fills; the
one that stands erased first (R424), then a free one, then an invalid one, else the oldest. -/
def Hub.saveTarget (c : Hub) : Nat :=
  let newest := c.newestOf ((List.range 4).filter fun k => c.recordValid k && c.get (O.recordFormat k) == c.get O.settingsFormat)
  let open4 := (List.range 4).filter fun k => c.get (O.recordState k) != 3 && !c.fillsRecord k && c.get H.saveSlot != k + 1
  let free := open4.filter fun k => newest != some k && c.get H.convertedRecord != k
  match (free.find? fun k => c.get H.erased == k + 1).or <| (free.find? fun k => c.recordFree k).or (free.find? fun k => !c.recordValid k) with
  | some k => k
  | none => free.foldl (fun b k => if c.get (O.recordSeq k) < c.get (O.recordSeq b) then k else b) (free.headD (open4.headD 0))

/-- The settings slots that were freed are erased (R401, R406). -/
def Hub.eraseGone (c : Hub) (m : Mems) : Hub × Mems :=
  if c.get H.recordGone = 0 then (c, m)
  else
    (c.put H.recordGone 0,
      [0, 1, 2, 3].foldl (fun m k => if bit (c.get H.recordGone) k then m.eraseFlash (recordBase k) 0x100000 else m) m)

/-- The slot that the next save will use is erased in advance (R424), whatever bytes a save that was broken off has left in it. ROM recovery saves
nothing. -/
def Hub.eraseAhead (c : Hub) (m : Mems) : Hub × Mems :=
  let (c, m) := c.eraseGone m
  let k := c.saveTarget
  if c.inRom = true ∨ c.get (O.recordState k) = 3 ∨ c.fillsRecord k = true ∨ c.get H.saveSlot = k + 1 then (c, m)
  else ((if c.get (O.recordState k) = 0 then c else c.clearRecord k).put H.erased (k + 1), m.eraseFlash (recordBase k) 0x100000)

/-- A slot is filled, its bytes erased with that: no erase of it is due any more, and it is not the next save's. -/
def Hub.takeSlot (c : Hub) (k : Nat) : Hub :=
  (c.put H.recordGone (withBit (c.get H.recordGone) k false)).when (c.get H.erased == k + 1) fun c => c.put H.erased 0

/-- A record written whole into a slot, and shown. -/
def Hub.putRecord (c : Hub) (m : Mems) (k format seq : Nat) (body : Bytes) : Hub × Mems :=
  let c := c.takeSlot k
  let m := (m.eraseFlash (recordBase k) 0x100000).programFlash (recordBase k) (recordHeader format seq Config.hubUid body ++ body)
  (c.scanRecord m k, m)

/-- A save runs (R341). -/
def Hub.saving (c : Hub) : Bool := c.get O.settingsState == 2

/-- A save starts (R341): the stored objects as they stand go into the body of the next slot, whose header is not yet written. -/
def Hub.startSave (c : Hub) (m : Mems) : Hub × Mems :=
  let k := c.saveTarget
  let c := c.takeSlot k
  let body := c.recordBody m
  let m := (m.eraseFlash (recordBase k) 0x100000).programFlash (recordBase k + 32) body
  (((((c.put (O.recordState k) 2).put H.saveSlot (k + 1)).put H.saveLength body.length).put O.settingsState 2), m)

/-- A save ends (R341, R406): its header is written and its values are the stored settings, or the previous record stands. -/
def Hub.finishSave (c : Hub) (m : Mems) (ok : Bool) : Hub × Mems :=
  let k := c.get H.saveSlot - 1
  let c1 := c.put H.saveSlot 0
  if ok then
    let body := m.readFlash (recordBase k + 32) (c.get H.saveLength)
    let m := m.programFlash (recordBase k) (recordHeader (c.get O.settingsFormat) c.nextSeq Config.hubUid body)
    Hub.eraseAhead { ((c1.scanRecord m k).put O.settingsState 1).count O.settingsSaves with saved := c.settingsOf body } m
  else Hub.eraseAhead (c1.put O.settingsState 3) m

/-! ## Objects of a block return to stored settings (R31, R370) -/

/-- Objects that hold messages in flight or rings, and are no settings of their block. -/
def messageTable (obj : Nat) : Bool := [0x405200, 0x405300, 0x405500, 0x504300, 0x504500].contains obj

/-- A register of a setting in a block: the row and the key decide. -/
def settingIn (inBlock : Row → Key → Bool) (k : Key) : Bool :=
  match rowOf k.obj with
  | none => false
  | some r => r.setting && !messageTable r.obj && inBlock r k && r.fields.all fun f => f.off != k.off || !f.ro

/-- The settings of a block return to their stored values, or to their defaults where none are stored. -/
def Hub.restoreBlock (c : Hub) (inBlock : Row → Key → Bool) : Hub :=
  let kept := c.regs.filter fun e => !settingIn inBlock e.1
  { c with regs := (c.saved.filter fun e => settingIn inBlock e.1).foldl (fun st e => Store.insert e.1 e.2 st) kept }

/-- Objects of a port: its ranges at 2000h, 2400h, 2800h and 3100h. -/
def ofPort (p : Nat) (r : Row) (k : Key) : Bool := (r.geo == .port || r.geo == .lane) && k.inst == p
/-- Objects of a head but MODE. -/
def ofHead (h : Nat) (r : Row) (k : Key) : Bool :=
  r.obj != (O.headMode 0).key.obj && (match r.geo with | .head => k.inst == h | .layer _ => k.inst == h | _ => false)
/-- Objects of a MAC and its adapter. -/
def ofMac (m : Nat) (r : Row) (k : Key) : Bool := r.geo == .mac && (if r.ty == .table then k.inst / r.entries else k.inst) == m
/-- Objects in an index range. -/
def ofRange (lo hi : Nat) (r : Row) (_ : Key) : Bool := decide (lo ≤ r.idx ∧ r.idx ≤ hi)

end Sys2Proof.Machine
end

