-- ==== Sys2Proof/Machine/ResetOps.lean ====
section
/-! DEFINITION. Entry into reset (R383, R425, R426): what lies in the battery domain, in fuses and in the flash, and what the always-on domain
keeps; FAULT_N (R377) and the fatal reset (R383). -/
namespace Sys2Proof.Machine

/-- Registers of the battery domain, the fuses and the flash, and pin levels: they stand through every reset (R361, R389, R394, R411). -/
def outlivesReset (k : Key) : Bool :=
  decide (0x10000B0 ≤ k.obj ∧ k.obj ≤ 0x10000B8) || k.obj == 0x10000BD || k.obj == 0x10000BE || k.obj == 0x10000BF || decide (0x702001 ≤ k.obj ∧ k.obj ≤ 0x702008)
    || [0x700001, 0x700002, 0x700100, 0x703003, 0x703004, 0x703005, 0x303002, 0x303101, 0x900002, 0x900100, 0x900201, 0x900203,
        0x900205, 0x900208, 0x900209, 0x900500, 0x900004, 0x800702, 0x1000200, 0x1000269, 0x100026A, 0x1000270, 0x1000271, 0x1000276, 0x10002DD].contains k.obj
    || k.obj == O.hubInstance.key.obj

/-- Registers that the always-on domain and the Umpire in it keep when neither restarts (R12, R376, R411): STATUS, FIRST, EVENT_LOG, the counts
of SOURCE_CONFIG, FAULT_N, DEGRADED with its actions, FATAL_RECORD; the feed and sag state; the stroke counter, until start-up. -/
def aonKeeps (k : Key) : Bool :=
  [0x800001, 0x800002, 0x800003, 0x800101, 0x800102, 0x800103, 0x800104, 0x800105, 0x800106, 0x800107, 0x800300, 0x800301, 0x800404,
    0x800601, 0x800701, 0x100200, 0x1000260, 0x1000261, 0x1000262, 0x1000263, 0x1000264, 0x100009D, 0x10001FF, 0x1000135, 0x1000136,
    0x1000137, 0x1000284, 0xA00401].contains k.obj
    || (k.obj == 0x800200 && k.off == 12)
    || ((decide (0x300000 ≤ k.obj ∧ k.obj ≤ 0x3003FF) || decide (0x301100 ≤ k.obj ∧ k.obj ≤ 0x3011FF))
      && (match rowOf k.obj with | some r => !r.setting | none => false))

/-- ENERGY_OUT and ENERGY_IN, with what is below 1 mJ: only a power-on reset clears them (R247). -/
def energyCounts (k : Key) : Bool := k.obj == 0x310306 || k.obj == 0x310307 || k.obj == 0x1000130

/-- What the heads keep in Stowed (R308): MODE and the latched layers, where R412 has an object that is not stored take its default (DEDUCED,
notes/assumptions/93.md). -/
def headsKeep (k : Key) : Bool := [0x600001, 0x60040B, 0x1000241].contains k.obj

/-- What survives the reset of a cause (R247, R426): Stowed too keeps the role (R12), what the heads keep, and WAKE_MASK, which its entry restores. -/
def survives (cause : Nat) (k : Key) : Bool :=
  outlivesReset k || ((cause == 3 || cause == 4) && aonKeeps k) || (cause == 5 && (k == O.role.key || headsKeep k))
    || (cause != 1 && energyCounts k)

/-- An activation in states 02h–06h ends with a reset, and the new slot is unconfirmed (R407); a verification under way is lost. -/
def Hub.dropActivation (c : Hub) : Hub :=
  let st := c.get O.activationState
  let new := if st = 6 ∨ st = 7 then c.get O.runningSlot else c.otherSlot
  let c := c.when (decide (2 ≤ st ∧ st ≤ 7)) fun c => c.put (O.slotInfoState new) 5
  c.when (c.get O.transferState == 3) fun c => c.put O.transferState 2

/-- The hub goes into reset (R383, R425, R426): gates, VCONN and every switched domain off, sessions and everything in flight gone. The next
start-up has the cause given. -/
def Hub.enterReset (c : Hub) (cause : Nat) : Hub :=
  let c := c.dropActivation
  let fresh : Hub :=
    { Hub.reset with
      regs := c.regs.filter fun e => survives cause e.1
      out := c.out
      now := c.now
      boundaryAt := c.boundaryAt
      draws := c.draws
      saved := c.saved }
  fresh.put H.nextCause cause

/-- FAULT_N driven low for at least 10 µs (R377): a high-to-low change raises MSI-X vector 2, and a held release is cancelled. -/
def Hub.assertFaultN (c : Hub) : Hub :=
  let c := if c.flag O.faultNState then c else (c.putB O.faultNState true).msix 2
  (c.put H.faultNTime 1).put H.faultNFree 0

/-- FATAL_RECORD: SOURCE, UNIT, reserved, TIME, DATA, STROKE (8007h.01). -/
def Hub.fatalRecordOf (c : Hub) (source unit data : Nat) : Nat :=
  source + 2 ^ 8 * unit + 2 ^ 32 * c.get O.rtcSeconds + 2 ^ 64 * (data % 2 ^ 64) + 2 ^ 128 * c.stroke

/-- A fatal reaction (R383): recorded and counted; FAULT_N stays low; the hub goes into reset with the role kept. A flush of stage 5 in progress
has failed (R429, R438). -/
def Hub.fatalReset (c : Hub) (source unit data : Nat) : Hub :=
  let c := c.when (c.get H.flushing == 1) fun c => c.put O.lastFlush 2
  let c := (c.put O.fatalRecord (c.fatalRecordOf source unit data)).count O.fatalResets
  ((c.assertFaultN).put H.faultNFatal 1).enterReset 3

end Sys2Proof.Machine
end

