-- ==== Sys2Proof/Machine/Umpire.lean ====
section
/-! DEFINITION. The Umpire (R367–R386): the event path, escalation, FIRST, the event log, FAULT_N, the reactions it starts, their windows, and
the writes of its objects. -/
namespace Sys2Proof.Machine

/-! ## Sampling (R367, R376) -/

/-- A domain that is powered in Run only while a block in it is enabled, by a source of it, is off (R411): DISPLAY with every head's MODE at 00h and
at sag stages 4 and 5 (R308), PCIE with PCIE_ENABLE false, ETH with both MACs off, and SERDES-A or SERDES-B, by the unit, with no link of its
twelve ports enabled and none in a test mode. -/
def Hub.domainIdle (c : Hub) (s unit : Nat) : Bool :=
  if 73 ≤ s ∧ s ≤ 76 then decide (4 ≤ c.get O.sagStage) || [0, 1, 2, 3].all fun h => c.get (O.headMode h) == 0
  else if 64 ≤ s ∧ s ≤ 66 then !c.flag O.pcieEnable
  else if s = 26 ∨ s = 67 ∨ s = 68 then c.get (O.macMode 0) == 0 && c.get (O.macMode 1) == 0
  else if 32 ≤ s ∧ s ≤ 44 ∧ unit ≤ 23 then
    (List.range 12).all fun k => let p := 12 * (unit / 12) + k; !c.flag (O.linkEnable p) && c.get (O.testMode p) == 0
  else false

/-- A source in a domain that is unpowered or held in reset (R308, R367, R411): under RESET_N low, which holds the always-on domain too, none detects
(R426, R438), and under a fatal or requested reset only the always-on ones do; in Moored those of the domains that power down do not; in Stowed none
does; else those of a domain that no block of it needs do not. -/
def Hub.masked (c : Hub) (s : Nat) (unit : Nat := 255) : Bool :=
  if !c.flag H.running then decide (c.get H.nextCause ≠ 3 ∧ c.get H.nextCause ≠ 4) || !(([59, 60, 61, 62, 91, 93, 94] : List Nat).contains s)
  else if c.get O.powerState = 4 then true
  else if c.get O.powerState = 3 then decide (s < 45) || decide (64 ≤ s ∧ s ≤ 84) || s == 87 || s == 88 || s == 89
  else c.domainIdle s unit

/-- A reserved source (R386). -/
def reservedSource (s : Nat) : Bool := s == 30 || s == 31 || 95 ≤ s

/-! ## The log and FIRST (R374–R376) -/

/-- EVENT_LOG takes an entry, the oldest overwritten. -/
def Hub.logFault (c : Hub) (source unit data severity flags reaction : Nat) : Hub :=
  let c := c.count O.faultSeq
  let e := (c.get O.faultSeq + 255) % 256
  let c := (((c.put (O.faultLogSource e) source).put (O.faultLogUnit e) unit).put (O.faultLogSeverity e) severity).put (O.faultLogFlags e) flags
  let c := (((c.put (O.faultLogSeq e) (c.get O.faultSeq)).put (O.faultLogData e) data).put (O.faultLogStroke e) c.stroke).put
    (O.faultLogTime e) c.nsInStroke
  c.put (O.faultLogReaction e) reaction

/-- A latching event (R374): the first fills FIRST, a later one sets OVERFLOW and counts. -/
def Hub.latchFirst (c : Hub) (source unit data severity : Nat) : Hub :=
  if c.get O.firstSource = 255 then
    ((((c.put O.firstSource source).put O.firstUnit unit).put O.firstSeverity severity).put O.firstData data).put O.firstStroke c.stroke
  else (c.putB O.firstOverflow true).count O.firstOverflowCount

/-! ## Reactions (R370, R371, R383) -/

/-- A source whose unit is a port. -/
def portSource (s : Nat) : Bool := s == 0 || s == 25 || decide (32 ≤ s ∧ s ≤ 58)

/-- The gear in force at an event of a port's link (R371): a link that the event itself took into Retrain had the gear it last trained at. -/
def Hub.gearAtEvent (c : Hub) (p : Nat) : Nat :=
  if c.get (O.gear p) = 0 ∧ c.get (O.linkState p) = 5 then c.get (H.gearTrained p) else c.get (O.gear p)

/-- Degrade (R371): the bit, and a gear ceiling one below the gear in force at the event, or the ceiling now where no gear is, or a power path
that latches. A link already in Retrain applies the ceiling at its gear negotiation (R184). -/
def Hub.degrade (c : Hub) (source unit : Nat) : Hub :=
  let c := c.put O.degraded (withBit (c.get O.degraded) (degradedBit source unit) true)
  if unit ≤ 23 ∧ (source = 0 ∨ source = 25 ∨ (32 ≤ source ∧ source ≤ 44)) then
    let gear := c.gearAtEvent unit
    let top := max 1 ((if gear = 0 then c.gearCeilingNow unit else gear) - 1)
    let c := ((c.put (H.degradeCeiling unit) top).showCeiling unit).openWindow source 5 unit true
    if top < gear ∧ 2 ≤ c.get (O.linkState unit) ∧ c.get (O.linkState unit) ≤ 4 then c.gearRetrain unit source else c.reactionDone 5 unit
  else if unit ≤ 23 ∧ 45 ≤ source ∧ source ≤ 58 then c.put (H.powerDegraded unit) 1
  else c

/-- A port reset by the Umpire (R31, R220, R370): its objects return to stored settings, and in ROM recovery its POLICY stays Sink only (R408); a port
that PORT_DISABLE no longer holds leaves Disabled, and one that it holds is Disabled when its ErrorRecovery ends, or at once where it has none. -/
def Hub.isolatePort (c : Hub) (source p : Nat) : Hub :=
  let c := (c.openWindow source 0 p true).when (c.get (O.testMode p) != 0) fun c => (c.writeTestMode p 0).2
  let c := c.when (c.get (O.swapRequest p) != 0) fun c => c.abandonSwap p
  let c := ((c.restoreBlock (ofPort p)).showCeiling p).when c.inRom fun c => c.put (O.policy p) 1
  let c := c.portReset p
  let c := if c.get (O.attachState p) = 6 ∧ c.flag (O.portDisable p) = false ∧ c.get (O.sourceCapState p) ≠ 2 then c.enablePort p else c
  if c.flag (O.portDisable p) = true ∧ c.get (O.attachState p) ≠ 5 ∧ c.get (O.attachState p) ≠ 6 then c.disablePort p else c

/-- Isolation of the spill engines (R101): every PCIe tunnel with a packet in a DRAM segment, one that passes through among them, is torn down,
then the segments go whole, C6 counted in SPILL_DROPS; the tails follow their heads, and queues run from then on as if spill were disabled. -/
def Hub.discardSpilled (c : Hub) : Hub :=
  let pcie := ((c.held.filter fun p => p.seg == .dram && p.q % 8 == 4 && c.get (O.pathType p.tid) == 2).map Held.tid).eraseDups
  let c := c.each pcie fun c t => c.teardown t
  let c := c.each (c.held.filter fun p => p.seg == .dram) fun c p =>
    let c := c.remove p
    if p.q % 8 = 6 then (c.count O.spillDrops).raise 8 255 p.q
    else (c.when (c.drain p.tid) fun c => c.count (O.pathCountTeardownDiscards p.tid)).lossOf (p.q % 8) p.tid
  let c := { c with held := c.held.map fun p : Held => { p with seg := .head } }
  (c.each (c.instances (O.queueStatusSpill 0)) fun c q => c.put (O.queueStatusSpill q) 0).put O.spillState 2

/-- Isolation of any other block (R101, R370): out of reset at once, its objects restored. -/
def Hub.isolateBlock (c : Hub) (source unit : Nat) : Hub :=
  let c := c.openWindow source 7 unit true
  let c :=
    if source = 7 ∨ source = 8 then
      let c := c.discardSpilled.restoreBlock (ofRange 0x4106 0x4106)
      c.put O.userEnd (userTop (c.get O.spillSize))
    else if 64 ≤ source ∧ source ≤ 66 then (c.restoreBlock (ofRange 0x5000 0x5020)).isolatePcie
    else if source = 26 ∨ source = 67 ∨ source = 68 then ((c.restoreBlock (ofMac (unit % 2))).isolateMac (unit % 2)).recompute
    else if source = 27 ∨ source = 69 then (c.restoreBlock (ofRange 0x4050 0x4055)).isolateFio
    else if 70 ≤ source ∧ source ≤ 72 then (c.restoreBlock (ofRange 0x5040 0x5046)).pumpRig
    else if 73 ≤ source ∧ source ≤ 76 then (c.restoreBlock (ofHead (unit % 4))).isolateHead (unit % 4)
    else c
  c.reactionDone 7 unit

/-- The standby management pair restarts with the running image (R370, R400, R401, R404). -/
def Hub.isolateStandby (c : Hub) : Hub :=
  let c := (c.openWindow 82 7 255 true).put H.standbyIsolatedAt (c.now + 10000000000)
  let st := c.get O.activationState
  let c := if 2 ≤ st ∧ st ≤ 4 then c.stopActivation 6 else if st = 6 then c.put H.noHandback 1 else c.activationCheck
  c.reactionDone 7 255

/-- Isolate (R370): the source's block. -/
def Hub.isolate (c : Hub) (source unit : Nat) : Hub :=
  if portSource source && decide (unit ≤ 23) then c.isolatePort source unit
  else if source = 82 then c.isolateStandby
  else c.isolateBlock source unit

/-- The source has an isolation block (R370). -/
def isolates (source unit : Nat) : Bool :=
  (portSource source && decide (unit ≤ 23)) || source == 7 || source == 8 || source == 26 || source == 27 || decide (64 ≤ source ∧ source ≤ 76)
    || source == 82

/-- A reaction of a severity is the fatal reset (R368, R370). Source 0 with unit none starts none but its DEGRADED bit (R371, R386). -/
def fatalReaction (severity source unit : Nat) : Bool :=
  !(source == 0 && decide (23 < unit)) && (severity == 5 || (severity == 4 && !isolates source unit))

/-- The reaction of a severity that is not the fatal reset (R368). -/
def Hub.react (c : Hub) (severity source unit : Nat) : Hub :=
  if severity = 3 then c.degrade source unit
  else if severity = 4 ∧ ¬ (source = 0 ∧ 23 < unit) then c.isolate source unit
  else c

/-! ## The event path (R372) -/

/-- A primary event of an effective severity: the sticky bit, the log, FIRST and FAULT_N. -/
def Hub.primary (c : Hub) (source unit data severity : Nat) (escalated : Bool) : Hub :=
  let c := (c.setStatus source).logFault source unit data severity (if escalated then 4 else 0) 0
  (c.latchFirst source unit data severity).when (decide (c.get O.faultNLevel ≤ severity)) Hub.assertFaultN

/-- A counted correctable event (R372, R373), with the severity of the reaction due, 0 for none: the window opens with the first; at ESC_COUNT it
escalates to ESC_TO. -/
def Hub.correctable (c : Hub) (source unit data : Nat) : Hub × Nat :=
  let fresh := c.get (H.escCount source) = 0 ∨ c.get (H.escEnd source) ≤ c.now
  let c := if fresh then
      (c.put (H.escCount source) 0).put (H.escEnd source) (c.now + 1000000 * c.get (O.sourceEscWindow source)) else c
  let n := c.get (H.escCount source) + 1
  if n < c.get (O.sourceEscCount source) then
    (((c.put (H.escCount source) n).setStatus source).logFault source unit data 2 0 0, 0)
  else ((c.put (H.escCount source) 0).primary source unit data (c.get (O.sourceEscTo source)) true, c.get (O.sourceEscTo source))

/-- The window's scope holds a detection (R380): of RIG_POSTED_ERROR the PCIe adapter's holds what an aperture write logged alone. -/
def Hub.inScope (c : Hub) (w : Window) (d : Detection) : Bool :=
  w.holds d.source d.unit d.data
    && !(w.kind == 7 && decide (64 ≤ w.source ∧ w.source ≤ 66) && d.source == 70 && c.get (O.errLogSource (d.data % 16)) != 1)

/-- A window that holds a detection: opened before it, by the Umpire, or in answer to a detection of the cycle that was handled before it (R376,
R379, R380). -/
def Hub.windowOf (c : Hub) (handled : List Detection) (d : Detection) : Option Window :=
  c.windows.find? fun w =>
    (decide (w.id ≤ d.before) || w.byUmpire || handled.any fun x => x.source == w.source && decide (x.before < w.id)) && c.inScope w d

/-- on_event (R372), with the severity of the reaction due, 0 for none. -/
def Hub.onEvent (c : Hub) (handled : List Detection) (d : Detection) : Hub × Nat :=
  let c := c.count (O.sourceEvents d.source)
  let sev := c.get (O.sourceSeverity d.source)
  match c.windowOf handled d with
  | some w => ((c.setStatus d.source).logFault d.source d.unit d.data sev 3 (w.id % 65536), 0)
  | none =>
    if sev = 0 then (c, 0)
    else if sev = 2 then c.correctable d.source d.unit d.data
    else (c.primary d.source d.unit d.data sev false, sev)

/-- The severity that a detection has on its own (R370, R372): a correctable one that reaches its count has ESC_TO, and an isolation without a block is
the fatal reset. -/
def Hub.effective (c : Hub) (d : Detection) : Nat :=
  let own := c.get (O.sourceSeverity d.source)
  let sev := if own = 2 then max 2 (c.correctable d.source d.unit d.data).2 else own
  if fatalReaction sev d.source d.unit then 5 else sev

/-- One detection goes before another in a cycle (R376): higher effective severity, then lower source number. -/
def Hub.before (c : Hub) (a b : Detection) : Bool :=
  let x := c.effective a
  let y := c.effective b
  y < x || (x == y && a.source < b.source)

/-- A detection put in its place, after its equals. -/
def Hub.place (c : Hub) (d : Detection) : List Detection → List Detection
  | [] => [d]
  | x :: rest => if c.before d x then d :: x :: rest else x :: Hub.place c d rest

/-- The order in which a cycle's detections are handled. -/
def Hub.inOrder (c : Hub) (ds : List Detection) : List Detection := ds.foldl (fun acc d => c.place d acc) []

/-- The detections of one cycle in turn, with no reaction started, and the first that is fatal. From it on the open windows are abandoned (R385). -/
def Hub.judge : List Detection → List Detection → Hub → Hub × Option Detection
  | _, [], c => (c, none)
  | handled, d :: rest, c =>
    let r := c.onEvent handled d
    if fatalReaction r.2 d.source d.unit then (rest.foldl (fun (c : Hub) x => (c.onEvent [] x).1) { r.1 with windows := [] }, some d)
    else Hub.judge (d :: handled) rest r.1

/-- The detections of one cycle in turn, each with its reaction. -/
def Hub.handle : List Detection → List Detection → Hub → Hub
  | _, [], c => c
  | handled, d :: rest, c =>
    let r := c.onEvent handled d
    Hub.handle (d :: handled) rest (r.1.react r.2 d.source d.unit)

/-- The detections of one cycle (R376): where one is fatal the hub resets, and no other reaction of the cycle starts. -/
def Hub.handleCycle (c : Hub) (ds : List Detection) : Hub :=
  match Hub.judge [] ds c with
  | (c, some d) => c.fatalReset d.source d.unit d.data
  | (_, none) => Hub.handle [] ds c

/-- One sample of every line (R367): what the blocks have raised, and what comes with it. -/
def Hub.sample (c : Hub) (cycle : List Detection) : Hub :=
  let ds := c.inOrder ((c.lines ++ cycle).filter fun d => !c.masked d.source d.unit && !reservedSource d.source)
  Hub.handleCycle { c with lines := [] } ds

/-- 10 ns on: pass-through heads output what is due (R303), and the lines are sampled: the step of a hub with no command waiting
(notes/assumptions/8.md). -/
def Hub.idle (c : Hub) : Hub := (({ c with now := c.now + 10 } : Hub).each [0, 1, 2, 3] Hub.presentDue).sample []

/-- UMPIRE_EVENT (R372, R376): the lines sampled in one cycle. -/
def execUmpireEvent (cycle : List SourceEvent) (s : State) : Host.Outcome State Fault Refusal :=
  onHub s fun c => c.sample (cycle.map fun e => ⟨e.source, e.unit.toNat, e.data.toNat, c.reactions⟩)

/-! ## Windows (R379) -/

/-- SHADOW_WINDOW_CLOSE: SHADOW_TAIL after its reaction is done, a window closes. -/
def execShadowWindowClose (reaction : BitVec 16) (s : State) : Host.Outcome State Fault Refusal :=
  onHub s fun c =>
    match c.windows.find? fun w => w.id % 65536 == reaction.toNat && w.ended with
    | none => c
    | some w => { (c.advanceTo (w.doneAt + 1000 * c.get O.shadowTail)) with windows := c.windows.filter fun x : Window => x.id != w.id }

/-- REACTION_TIMEOUT: a reaction not done within SHADOW_MAX of its start. -/
def execReactionTimeout (reaction : BitVec 16) (s : State) : Host.Outcome State Fault Refusal :=
  onHub s fun c =>
    match c.windows.find? fun w => w.id % 65536 == reaction.toNat && !w.ended with
    | none => c
    | some w =>
      ({ (c.advanceTo (w.openedAt + 1000000 * c.get O.shadowMax)) with windows := c.windows.filter fun x : Window => x.id != w.id } : Hub).raise 94 255
        reaction.toNat

/-! ## FAULT_N (R377) -/

/-- FAULT_N released. -/
def Hub.releaseFaultN (c : Hub) : Hub := ((c.putB O.faultNState false).put H.faultNFatal 0).put H.faultNFree 0

/-- FAULT_N_TIME_END: the minimum low time is over; a held release acts, mode 00h releases unless a fatal reset holds FAULT_N. -/
def execFaultNTimeEnd (s : State) : Host.Outcome State Fault Refusal :=
  onHub s fun c =>
    if c.flag H.faultNTime = false then c
    else
      let c := c.put H.faultNTime 0
      if c.flag H.faultNFree || (c.get O.faultNMode == 0 && !c.flag H.faultNFatal) then c.releaseFaultN else c

/-- FAULT_N_RELEASE written. -/
def Hub.writeFaultNRelease (c : Hub) (value : Bool) : Status × Hub :=
  (.ok, if !value || !c.flag O.faultNState then c else if c.flag H.faultNTime then c.put H.faultNFree 1 else c.releaseFaultN)

/-- FAULT_N_RELEASE: Engineer and Owner. -/
def execFaultNRelease (lvl : Level) (value : Bool) (s : State) : Host.Outcome State Fault Refusal :=
  onWrite (.faultNRelease lvl value) s fun c => c.requestRom lvl engineerWrites fun c => c.writeFaultNRelease value

/-! ## Writes of the Umpire's objects -/

/-- FIRST_CLEAR written (R374, R459). -/
def Hub.writeFirstClear (c : Hub) (value : Bool) : Status × Hub :=
  if !value then (.invalidValue, c)
  else (.ok, [O.firstSource, O.firstUnit, O.firstSeverity, O.firstData, O.firstStroke, O.firstOverflow, O.firstOverflowCount].foldl Hub.restore c)

/-- FIRST_CLEAR: Engineer and Owner. -/
def execFirstClear (lvl : Level) (value : Bool) (s : State) : Host.Outcome State Fault Refusal :=
  onWrite (.firstClear lvl value) s fun c => c.requestRom lvl engineerWrites fun c => c.writeFirstClear value

/-- A STATUS word written (R375). -/
def Hub.writeStatus (c : Hub) (word value : Nat) : Status × Hub :=
  (.ok, c.put (statusWord (32 * word)) (clearOnes (c.get (statusWord (32 * word))) value))

/-- STATUS_CLEAR: Engineer and Owner. -/
def execStatusClear (lvl : Level) (word : Fin 3) (value : BitVec 32) (s : State) : Host.Outcome State Fault Refusal :=
  onWrite (.statusClear lvl word value) s fun c => c.requestRom lvl engineerWrites fun c => c.writeStatus word value.toNat

/-- The rules of a SOURCE_CONFIG entry (R369, R373, R386). -/
def sourceConfigAllowed (source : Nat) (v : SourceConfig) : Bool :=
  !reservedSource source && decide (v.severity.toNat ≤ 5 ∧ severityFloors.getD source 0 ≤ v.severity.toNat)
    && decide (3 ≤ v.escTo.toNat ∧ v.escTo.toNat ≤ 5 ∧ 1 ≤ v.escCount.toNat ∧ 1 ≤ v.escWindow.toNat ∧ v.escWindow.toNat ≤ 3600000)

/-- A SOURCE_CONFIG entry written: the source's count starts over (R373). -/
def Hub.writeSourceConfig (c : Hub) (source : Nat) (v : SourceConfig) : Status × Hub :=
  if !sourceConfigAllowed source v then (.invalidValue, c)
  else (.ok, ((((c.put (O.sourceSeverity source) v.severity.toNat).put (O.sourceEscTo source) v.escTo.toNat).put (O.sourceEscCount source)
    v.escCount.toNat).put (O.sourceEscWindow source) v.escWindow.toNat).put (H.escCount source) 0)

/-- SOURCE_CONFIG_WRITE: Engineer and Owner. -/
def execSourceConfigWrite (lvl : Level) (source : Fin 96) (val : SourceConfig) (s : State) : Host.Outcome State Fault Refusal :=
  onWrite (.sourceConfigWrite lvl source val) s fun c => c.requestRom lvl engineerWrites fun c => c.writeSourceConfig source val

/-- DEGRADED written (R371): the action of each bit cleared ends; a raised gear ceiling acts at the next retrain. -/
def Hub.writeDegraded (c : Hub) (value : Nat) : Status × Hub :=
  let c := c.put O.degraded (clearOnes (c.get O.degraded) value)
  (.ok, (List.range 24).foldl (fun c p => c.when (bit value p) fun c => ((c.put (H.degradeCeiling p) 0).put (H.powerDegraded p) 0).showCeiling p) c)

/-- DEGRADED_CLEAR: Engineer and Owner. -/
def execDegradedClear (lvl : Level) (value : BitVec 32) (s : State) : Host.Outcome State Fault Refusal :=
  onWrite (.degradedClear lvl value) s fun c => c.requestRom lvl engineerWrites fun c => c.writeDegraded value.toNat

end Sys2Proof.Machine
end

