-- ==== Sys2Proof/Machine/Reset.lean ====
section
/-! DEFINITION. The commands of reset and start-up (R200, R407, R408, R425–R429, R438). -/
namespace Sys2Proof.Machine

/-! ## The boot ROM (R407, R428) -/

/-- The digest stored for a slot equals its image's (R428). -/
def Hub.digestMatches (c : Hub) (m : Mems) (s : Nat) : Bool :=
  c.flag (H.digestHeld s) && c.get (H.digest s) == sha256 (m.signedMessage (slotBase s))

/-- The digest stored for the boot slot stands for its LMS checks: after Stowed, where it matches (R428). -/
def Hub.digestStands (c : Hub) (m : Mems) (s : Nat) : Bool := c.get H.nextCause == 5 && s == c.get O.bootSlot && c.digestMatches m s

/-- VERIFY_RESULT of a slot at start-up: checks 2, 4, 5, 6, 7 and 8; after Stowed a matching digest stands for the boot slot's LMS checks (R428). -/
def Hub.bootResult (c : Hub) (m : Mems) (s : Nat) : Nat :=
  if c.digestStands m s then c.verifyImage m (slotBase s) 0 [2, 7, 8]
  else c.verifyImage m (slotBase s) 0 [2, 4, 5, 6, 7, 8]

/-- An image starts from a slot (R407, R428). Where its signatures have been checked, SLOT_INFO shows them (9001h.00). -/
def Hub.startImage (c : Hub) (m : Mems) (s : Nat) : Hub :=
  let c := c.when (!c.digestStands m s) fun c => c.showImage m s
  ((((c.put O.runningSlot s).put O.fwVersion (m.imageVersion (slotBase s))).put O.settingsFormat (m.imageFormat (slotBase s))).storeDigest m s)

/-- ROM recovery with a cause (R408): no image runs. -/
def Hub.enterRom (c : Hub) (cause : Nat) : Hub := ((c.put O.recoveryCause cause).put O.runningSlot 255).put O.fwVersion Config.romVersion

/-- The boot ROM's choice (R404, R407, R408): recovery by strap or by request, the boot slot, the other slot unless its image was handed back, or
recovery for want of an image. -/
def Hub.boot (c : Hub) (m : Mems) : Hub :=
  if c.get O.role = 3 then c.enterRom 1
  else if c.flag H.recoveryDue then (c.put H.recoveryDue 0).enterRom 3
  else
    let b := c.get O.bootSlot
    let c := c.when (c.get H.nextCause == 5 && !c.digestMatches m b) fun c => c.count O.slowExits
    if 1 < b then c.enterRom 2
    else
      let r := c.bootResult m b
      if r = 1 then c.startImage m b
      else if c.get (O.slotInfoState (1 - b)) ≠ 6 ∧ c.bootResult m (1 - b) = 1 then (c.startImage m (1 - b)).updateRefused (0x200 + r)
      else c.enterRom 2

/-! ## Start-up (R427) -/

/-- The settings of the newest record that the running image reads, over the role's defaults (R9, R406); none in ROM recovery. -/
def Hub.loadSettings (c : Hub) (m : Mems) : Hub :=
  match (if c.inRom then none else c.readable m (slotBase (c.get O.runningSlot))) with
  | none => ({ c with saved := c.roleBase.regs } : Hub).applySaved
  | some k =>
    let body := m.readFlash (recordBase k + 32) (c.get (O.recordLength k))
    (({ c with saved := c.settingsOf body } : Hub).applySaved).put O.settingsState 1

/-- The heads' modes stand as they were before Stowed (R308). -/
def Hub.keepModes (c : Hub) (before : Hub) : Hub := c.each [0, 1, 2, 3] fun c h => c.put (O.headMode h) (before.get (O.headMode h))

/-- A port at start-up (R200, R427): Disabled by PORT_DISABLE; Attached as Sink, with Soft_Reset, where it sees a source; else in ErrorRecovery for
tErrorRecovery, neither counted nor reported (DESIGN CHOICE, notes/assumptions/79.md). -/
def Hub.startPort (c : Hub) (powered : List PoweredPort) (p : Nat) : Hub :=
  let c := ((((c.modelStart p).putI (O.fetTempPeak p) (-400)).showTemps p).showCeiling p |>.put (H.ccOpen p) 0).when c.inRom fun c => c.put (O.policy p) 1
  if c.flag (O.portDisable p) then c.put (O.attachState p) 6
  else match powered.find? fun x => x.port.val == p with
    | some x => ((((c.put (H.ccCand p) (if x.cc2 then 2 else 1)).put (H.vbusSeen p) 1).attach p 2).sendSoftReset p)
    | none => (c.put (O.attachState p) 5).put (H.erTimer p) 0

/-- The tree state a hub starts in (enumeration table): the Cox is its own Member, every other hub is Unjoined. -/
def Hub.startTree (c : Hub) : Hub :=
  if c.isCox then
    (((((c.put O.treeState 2).put O.hubAddress 0).put O.depth 0).put (O.hubTableUid 0) Config.hubUid).put (O.hubTableState 0) 2).put O.treeHubs 1
  else c.unjoin

/-- INSTANCE is drawn anew, nonzero and different from the one before (R269). -/
def Hub.newInstance (c : Hub) : Hub :=
  let old := c.get O.hubInstance
  let v := c.random.1 % (2 ^ 32 - 2) + 1
  c.random.2.put O.hubInstance (if old ≠ 0 ∧ old ≤ v then v + 1 else v)

/-- The spill region as SPILL_SIZE gives it at start-up: 0 disables spill (R91). -/
def Hub.startSpill (c : Hub) : Hub :=
  let n := c.get O.spillSize
  (c.put O.userEnd (userTop n)).put O.spillState (if n = 0 then 3 else if 3 ≤ c.get O.sagStage then 1 else 0)

/-- What runs once the image has started (R427): spill, heads in their modes, the PCIe link in training, forwarding. -/
def Hub.startForwarding (c : Hub) : Hub :=
  let c := ((c.putB O.forwarding true).recompute).isoCheck.startSpill
  let c := c.each [0, 1, 2, 3] fun c h => c.when (c.get (O.headMode h) != 0) fun c => c.restartHead h
  let c := (c.scanoutRecompute.genlockRefresh).when (decide (4 ≤ c.get O.sagStage)) fun c => c.each (List.range 24) Hub.sag4Enter
  let c := c.when (decide (3 ≤ c.get O.sagStage)) fun c => c.put O.halted 12
  c.when (decide (4 ≤ c.get O.sagStage)) fun c => (c.put H.quiesced 1).headsOff

/-- The Neighbor Solicitations of duplicate address detection on the addresses the hub starts with (R333). -/
def Hub.soliciting (c : Hub) : Hub :=
  let own := if c.inRom then [c.get O.linkLocal] else [c.get O.linkLocal, c.get O.staticAddr]
  c.when (c.flag O.t1sEnable) fun c => c.each (own.filter fun a => a != 0) fun c a => c.emit (.neighborSolicitation a)

/-- SETTINGS_RECORDS as start-up finds them: a record that an open transfer is still to verify is none yet (R397). -/
def Hub.scanRecords (c : Hub) (m : Mems) : Hub :=
  let c := [0, 1, 2, 3].foldl (fun c k => c.scanRecord m k) c
  let st := c.get O.transferState
  if st ≠ 0 ∧ st ≠ 4 ∧ c.get H.transferTarget = 2 then c.put (O.recordState (c.get H.transferSlot)) (if st = 5 then 2 else 0) else c

/-- The highest stage whose bit is set; 0 none (R420). -/
def topStage (flags : Nat) : Nat := [1, 2, 3, 4, 5].foldl (fun n k => if bit flags (k - 1) then k else n) 0

/-- The flush of stage 5 starts (R424): a save, or the one that runs already; after a handover that runs (R429). -/
def Hub.startFlush (c : Hub) (m : Mems) : Hub × Mems :=
  if c.handingOver then (c.put H.flushing 2, m)
  else if c.saving then (c.put H.flushing 1, m)
  else ((c.put H.flushing 1).startSave m)

/-- A stage's entry is shown, counted and reported (R420). -/
def Hub.recordStage (c : Hub) (n : Nat) : Hub :=
  if bit (c.get H.sagFlags) (n - 1) then c
  else
    let c := c.put H.sagFlags (withBit (c.get H.sagFlags) (n - 1) true)
    ((c.put O.sagStage (topStage (c.get H.sagFlags))).count (O.sagEntries (n - 1))).raise 62 255 n

/-- What start-up reads from the flash: the control area, then the settings records (R389, R405). -/
def Hub.readFlashState (c : Hub) (m : Mems) : Hub × Mems :=
  let (c, m) := c.eraseGone m
  let (c, m) := c.loadControl m
  (c.scanRecords m, m)

/-- Start-up, from strap sampling to forwarding or to ROM recovery (R427). The slot of the next save is erased (R424), and the DRAM and the process image are written to zero. Sag stage 5 enters where
FEED_STATE reads 03h, and once the hub forwards its flush runs (R420, R424). -/
def Hub.startUp (c : Hub) (m : Mems) (straps : Nat) (powered : List PoweredPort) : Hub × Mems :=
  let cause := c.get H.nextCause
  let c := c.when (cause == 1 || cause == 2) fun c => c.put O.role straps
  let c := ((({ c with boundaryAt := c.now } : Hub).put O.resetCause cause).put O.strokeNumber 0).put H.resetAt c.now
  let c := (c.put O.powerState 0).when (c.get O.feedState == 3) fun c => c.recordStage 5
  let (c, m) := (c.put H.running 1).readFlashState m
  let c := (c.each (List.range 64) Hub.useSlot).boot m
  let c := ((c.loadSettings m).when (cause == 5) fun d => d.keepModes c).put O.rngState 1
  let (c, m) := c.eraseAhead m
  let c := (((c.put H.modelAt c.now).put H.scrubStart c.now).put H.dramScrubStart c.now).putI O.dieTempPeak (-400)
  let c := (c.each (List.range 24) fun c p => c.startPort powered p).startTree.newInstance
  let c := c.when (c.flag H.perstHigh && c.flag O.pcieEnable) fun c => c.put H.pcieLink 1
  let c := c.draw.2.put O.startupTime c.draw.1
  let c := ((c.put (H.tentative 0) (c.now + dadTime)).put (H.tentative 1) (c.now + dadTime)).soliciting
  let c := c.each (List.range 24) Hub.keyCondition
  let c := c.when (!c.inRom) Hub.startForwarding
  let c := c.when (c.flag H.tamperAtWake) Hub.tamperReport
  let m := { m with dram := [], image := [] }
  if c.get O.sagStage = 5 ∧ c.inRom = false then c.startFlush m else (c, m)

/-! ## Output pins -/

/-- RAIL_EN is high in every state but Stowed (R437). -/
def Hub.railEn (c : Hub) : Bool := c.get O.powerState != 4

/-- RESET_OUT_N is released once the hub forwards (R427). -/
def Hub.resetOutReleased (c : Hub) : Bool := c.flag O.forwarding

/-- FAULT_N is driven low (R377). -/
def Hub.faultNLow (c : Hub) : Bool := c.flag O.faultNState

/-- OSPI_CS_N: 1 in reset (14_update, 16_electrical_package), else as the OSPI controller drives it. -/
def Hub.ospiCsN (c : Hub) (driven : Bool) : Bool := !c.flag H.running || driven
/-- OSPI_RESET_N: 0 in reset. -/
def Hub.ospiResetN (c : Hub) (driven : Bool) : Bool := c.flag H.running && driven
/-- OSPI_CLK: 0 in reset. -/
def Hub.ospiClk (c : Hub) (driven : Bool) : Bool := c.flag H.running && driven
/-- UART_TX: 1 in reset, else as the service UART drives it. -/
def Hub.uartTx (c : Hub) (driven : Bool) : Bool := !c.flag H.running || driven
/-- FA_GATE (1) and FB_GATE (2): on for the feed selected, in a transfer off for the outgoing one and on for the incoming one from its ramp (R250); 0
in reset, where FEED_SELECTED is at its default. -/
def Hub.feedGate (c : Hub) (f : Nat) : Bool :=
  match c.get H.feedPhase with
  | 1 => false
  | 2 => c.get H.feedTarget == f
  | _ => c.get O.feedSelected == f

/-! ## The commands -/

/-- RESET_RELEASE (R427): the rising edge of RESET_N, or the release of a fatal or requested reset. The straps count only for causes 01h and
02h (R426). -/
def execResetRelease (straps : BitVec 2) (powered : List PoweredPort) (s : State) : Host.Outcome State Fault Refusal :=
  onAll s fun c m => if c.flag H.running = true ∨ c.get H.nextCause = 5 then (c, m) else c.startUp m straps.toNat powered

/-- FATAL_RESET_RELEASE (R383): start-up with cause fatal. -/
def execFatalResetRelease (powered : List PoweredPort) (s : State) : Host.Outcome State Fault Refusal :=
  onAll s fun c m => if c.flag H.running = true ∨ c.get H.nextCause ≠ 3 then (c, m) else c.startUp m 0 powered

/-- AON_POWER_ON (R376, R426): nothing of the always-on domain is left, nor FATAL_RESETS. -/
def execAonPowerOn (s : State) : Host.Outcome State Fault Refusal :=
  onHub s fun c => (c.enterReset 1).put O.fatalResets 0

/-- RESET_N_ASSERT (R200, R425, R429). -/
def execResetNAssert (s : State) : Host.Outcome State Fault Refusal := onHub s fun c => c.enterReset 2

/-- PERST_ASSERT (R258, R429): PCIE restarts alone, its configuration space at defaults; a link that was up is reported down. -/
def execPerstAssert (s : State) : Host.Outcome State Fault Refusal :=
  onHub s fun c =>
    let up := c.get H.pcieLink == 2
    let c := (c.put H.perstHigh 0).pcieLost
    c.when up fun c => c.raise 64

/-- PERST_DEASSERT (R427): PCIE is powered and its link trains; in Moored it stays off (R411). -/
def execPerstDeassert (s : State) : Host.Outcome State Fault Refusal :=
  onHub s fun c => (c.put H.perstHigh 1).when (c.domainsOn && c.flag O.pcieEnable && c.get H.pcieLink == 0) fun c => c.put H.pcieLink 1

/-- The rails are required (R438): RESET_N and RAIL_EN are high, as in a fatal or requested reset too. -/
def Hub.railsRequired (c : Hub) : Bool := c.flag H.running || c.get H.nextCause == 3 || c.get H.nextCause == 4

/-- RAIL_FAULT (R438): a required rail, by its row of the rail table, is detected as SUPPLY_RAIL. VBAT, its last row, is not monitored,
and no rail is required under RESET_N or in Stowed. -/
def execRailFault (rail : Fin 14) (s : State) : Host.Outcome State Fault Refusal :=
  onHub s fun c => if c.railsRequired && rail != 13 then c.raise 93 255 rail else c

/-- VBAT_POWER_ON (R357, R426): the key store, the tamper latch and the RTC are empty, and the mesh LFSRs seeded afresh. Ports of a hub that runs have no
key any more (R356). -/
def execVbatPowerOn (s : State) : Host.Outcome State Fault Refusal :=
  onHub s fun c =>
    let c := c.zeroStore
    let c := [O.tamperEnable, O.tamperPolarity, O.tamperFilter, O.tamperLatch, O.tamperCause, O.tamperTime, O.tamperEvents, O.keystoreState,
      O.rtcSeconds, H.digest 0, H.digest 1, H.digestHeld 0, H.digestHeld 1, H.tamperAtWake].foldl Hub.restore c
    (c.seedMeshes.putB O.vbatPor true).when c.domainsOn fun c => c.each (List.range 24) Hub.keyCondition

end Sys2Proof.Machine
end

