-- ==== Sys2Proof/Machine/Settings.lean ====
section
/-! DEFINITION. The commands of the settings record (R340, R341, R406), and what follows the response to a request. -/
namespace Sys2Proof.Machine

/-- A write of an object that ROM recovery does not have, and whose rule reaches the memories: the right is checked, then the rule runs, and
the status is answered (R322, R408). -/
def Hub.requestAll (c : Hub) (m : Mems) (lvl : Level) (acc : List Right) (op : Hub → Mems → Status × Hub × Mems) : Hub × Mems :=
  if c.inRom then (c.emit (.status .noObject), m)
  else if (rightOf acc lvl).writes then (((op c m).2.1).emit (.status (op c m).1), (op c m).2.2) else (c.emit (.status .access), m)

/-- Duplicate address detection starts on an address (R333, R334): until its time is over the address is not used. -/
def Hub.startDad (c : Hub) (k : Nat) : Hub :=
  let a := if k = 0 then c.get O.linkLocal else c.get O.staticAddr
  ((c.put O.addrState (withBit (c.get O.addrState) k false)).put (H.tentative k) (c.now + dadTime)).when (a != 0 && c.flag O.t1sEnable) fun c =>
    c.emit (.neighborSolicitation a)

/-- What a write of 1120h–1121h changes in the management network, once its response is sent (R334). -/
def Hub.networkSettle (c : Hub) : Hub :=
  if c.get H.dadDue = 0 ∧ c.get H.portWas = 0 then c
  else
    let due := c.get H.dadDue
    let c := (c.put H.dadDue 0).put H.portWas 0
    c.each ([0, 1].filter fun k => bit due k) Hub.startDad

/-- What follows the response to a request: sessions end (R330), settings of the management network take effect (R334), and a reset that was
asked for runs (R341, R408, R409). -/
def Hub.afterResponse (c : Hub) : Hub :=
  let c := c.endMarked.networkSettle
  if c.flag H.resetDue then (c.put H.resetDue 0).enterReset 4 else c

/-- The settings area is held (R397, R401): by a transfer of a settings record, or while an activation prepares. -/
def Hub.settingsHeld (c : Hub) : Bool :=
  (c.get O.transferState != 0 && c.get H.transferTarget == 2) || c.get O.activationState == 3

/-- SETTINGS_SAVE written (R340, R341, R410). -/
def Hub.writeSave (c : Hub) (m : Mems) (value : Bool) : Status × Hub × Mems :=
  if !value then (.ok, c, m) else if c.saving || c.settingsHeld then (.busy, c, m) else (.ok, c.startSave m)

/-- SETTINGS_SAVE: Owner. -/
def execSettingsSave (lvl : Level) (value : Bool) (s : State) : Host.Outcome State Fault Refusal :=
  onWriteAll (.settingsSave lvl value) s fun c m => c.requestAll m lvl ownerWrites fun c m => c.writeSave m value

/-- The four settings slots erased (R341). -/
def Hub.eraseRecords (c : Hub) (m : Mems) : Hub × Mems :=
  (c.each [0, 1, 2, 3] Hub.clearRecord, m.eraseFlash (recordBase 0) 0x400000)

/-- FACTORY_RESTORE written (R341, R406): the hub resets after the response, and the defaults apply. -/
def Hub.writeRestore (c : Hub) (m : Mems) (value : Bool) : Status × Hub × Mems :=
  if !value then (.ok, c, m)
  else if 2 ≤ c.get O.activationState ∧ c.get O.activationState ≤ 6 then (.busy, c, m)
  else
    let r := c.eraseRecords m
    (.ok, ((r.1.put O.settingsState 0).put H.saveSlot 0).put H.resetDue 1, r.2)

/-- FACTORY_RESTORE: Owner. -/
def execFactoryRestore (lvl : Level) (value : Bool) (s : State) : Host.Outcome State Fault Refusal :=
  onWriteAll (.factoryRestore lvl value) s fun c m =>
    let r := c.requestAll m lvl ownerWrites fun c m => c.writeRestore m value
    (r.1.afterResponse, r.2)

end Sys2Proof.Machine
end

