-- ==== Sys2Proof/Machine/Stroke.lean ====
section
/-! DEFINITION. The stroke (R25, R103–R137): what the hub does at each stroke boundary, in the order of R108, the end of the drive
window, plans as they arrive, and the writes of grants, shapers, policers, quanta, histograms and the drive window. -/
namespace Sys2Proof.Machine

/-! ## Plans (R24, R127–R132) -/

/-- The parts held of the plan for boundary e. -/
def Hub.planPartsFor (c : Hub) (e : Nat) : List PlanPacket := c.plan.filter fun p => p.effective.toNat == e

/-- The hub holds a plan for boundary e complete (R129): every part, and the plan is FULL or follows the plan in force by one or two. In the
Cox, whose grants all start at 0, the first plan needs no FULL. -/
def Hub.planComplete (c : Hub) (e : Nat) : Bool :=
  let ps := c.planPartsFor e
  match ps with
  | [] => false
  | p :: _ =>
    let full := bit p.flags.toNat 0
    let follows := !c.flag H.planAwaited && decide (c.get H.planBase + 1 ≤ e ∧ e ≤ c.get H.planBase + 2)
    (List.range p.parts.toNat).all (fun i => ps.any fun x => x.part.toNat == i) && (full || follows || (c.isCox && c.flag H.planAwaited))

/-- The entries of routes whose grants a plan for boundary e changes, with their new grants: those listed, and for a FULL plan every other
entry at 0 (R127). -/
def Hub.plannedGrants (c : Hub) (e : Nat) : List (Nat × Nat) :=
  let ps := c.planPartsFor e
  let listed := ps.flatMap fun p => p.records.map fun r => (r.1.toNat, r.2.toNat)
  let full := ps.any fun p => bit p.flags.toNat 0
  let rest := if full then ((c.instances (O.grantGrant 0)).filter fun t => 8192 ≤ t && !listed.any (·.1 == t)).map fun t => (t, 0) else []
  listed.filter (fun x => decide (8192 ≤ x.1 ∧ x.1 < 16384)) ++ rest

/-- NEXT of the route entries for the coming boundary (4250h). -/
def Hub.showNextGrants (c : Hub) : Hub :=
  let c := c.each ((c.instances (O.grantNext 0)).filter (8192 ≤ ·)) fun c t => c.restore (O.grantNext t)
  if c.planComplete (c.stroke + 1) then c.each (c.plannedGrants (c.stroke + 1)) fun c x => c.put (O.grantNext x.1) x.2 else c

/-- CAPACITY of every directed link by the drive window in force (R121). -/
def Hub.showCapacities (c : Hub) : Hub :=
  c.each (c.instances (O.linkIsoRate 0)) fun c l => c.put (O.linkIsoCapacity l) (isoCapacity (c.get (O.linkIsoRate l)) (c.get O.driveWindow))

/-- A complete plan put into force (R24, R104, R127, R129, R130). -/
def Hub.applyPlan (c : Hub) (e : Nat) : Hub :=
  let ps := c.planPartsFor e
  let hold := ps.any fun p => bit p.flags.toNat 1
  let named := ps.flatMap fun p => p.records.map fun r => r.1.toNat
  let c := c.each (c.plannedGrants e) fun c x => c.put (O.grantGrant x.1) x.2
  let c := match ps with | p :: _ => c.put O.driveWindow p.window.toNat | [] => c
  let c := c.when c.isCox Hub.showCapacities
  let c := ((((c.put O.planInForce e).put H.planBase e).put H.missRun 0).putB H.planAwaited false).putB H.planHold hold
  let c := c.put O.planState (if hold then 4 else 1)
  if c.flag H.returned then
    (c.each (c.liveEntries.filter fun t => 3 ≤ t && c.valid t && !named.contains t) fun c t => c.teardown t).putB H.returned false
  else c

/-- A plan missed (R129): the first of a run reports PLAN_MISSED, the second PLAN_WITHDRAWN, and no later one anything.
PLAN_IN_FORCE keeps the last plan's EFFECTIVE (DESIGN CHOICE, notes/assumptions/93.md). -/
def Hub.missPlan (c : Hub) : Hub :=
  let n := c.get H.missRun + 1
  let c := ((c.put H.missRun (min n 3)).count O.plansMissed).when (n == 1) fun c => c.raise 13
  let fl := c.get H.reportFlags
  if n = 1 then (c.put O.planState 2).put H.reportFlags (withBit fl 0 true)
  else
    let c := (c.put O.planState 3).put H.reportFlags (withBit fl 1 true)
    let c := c.each ((c.instances (O.grantGrant 0)).filter (8192 ≤ ·)) fun c t => c.put (O.grantGrant t) 0
    c.when (n == 2) fun c => (c.count O.plansWithdrawn).raise 14

/-- Step 3's plan (R28, R129–R132): only a Member or the Cox applies plans or counts a miss. In its own handover a Crew or Oar applies none, and the
Cox goes on to the plan it marked HOLD and keeps those grants. -/
def Hub.planBoundary (c : Hub) : Hub :=
  let e := c.stroke
  let c :=
    if !(c.isCox || c.treeIs 2) then c
    else if c.flag H.handover then (c.put O.planState 5).put H.planBase e
    else if c.planComplete e then c.applyPlan e
    else if c.flag H.planHold || c.handingOver then c.put H.planBase e
    else if c.flag H.planAwaited then c
    else c.missPlan
  ({ c with plan := c.plan.filter fun p : PlanPacket => decide (e < p.effective.toNat) }).showNextGrants

/-- PLAN (R127): a PLAN packet for a boundary that lies ahead is kept. -/
def execPlan (plan : PlanPacket) (s : State) : Host.Outcome State Fault Refusal :=
  onDomains s fun c =>
    if c.stroke < plan.effective.toNat ∧ c.treeIs 2 = true ∧ c.isCox = false then
      let others := c.plan.filter fun p : PlanPacket => p.effective != plan.effective || p.part != plan.part
      ({ c with plan := others ++ [plan] }).showNextGrants
    else c

/-! ## The steps of a boundary (R108) -/

/-- Step 1 (R135): every queue's depth, across both tiers. -/
def Hub.sampleDepths (c : Hub) : Hub :=
  c.each (List.range 264) fun c q =>
    c.binUp (O.depthHistBin q (histBin (cellSum (c.queue q)) (c.get (O.histCfgDepthShift q))))

/-- Step 2's DRAIN (R69): cleared where no packet of the entry remains and DRAIN_HOLD boundaries have passed since the teardown. A packet that an
egress has chosen remains until its last byte is in a flit; a flit of the replay buffer counts no more (DESIGN CHOICE, notes/assumptions/76.md). -/
def Hub.clearDrains (c : Hub) : Hub :=
  c.each (c.liveEntries.filter fun t => c.drain t) fun c t =>
    let n := c.get (H.drainCount t) + 1
    let c := c.put (H.drainCount t) n
    if c.get O.drainHold ≤ n ∧ (c.held.any fun p => p.tid == t) = false ∧ (c.staged.any fun x => x.tid == t) = false then
      (c.put (O.pathFlags t) (withBit (c.get (O.pathFlags t)) 2 false)).put (H.drainCount t) 0
    else c

/-- Teardowns applied in step 2 of a boundary count their boundaries from that one (R69), which is the first (DEDUCED, notes/assumptions/87.md). -/
def Hub.countDrains (c : Hub) (before : List Nat) : Hub :=
  c.each (c.liveEntries.filter fun t => c.drain t && !before.contains t) fun c t => c.put (H.drainCount t) 1

/-- Step 3's fixed grants (R111): a change whose boundaries have passed takes effect. -/
def Hub.fixedBoundary (c : Hub) : Hub :=
  c.each (c.instances (H.grantWait 0)) fun c t =>
    let n := c.get (H.grantWait t) - 1
    let c := c.put (H.grantWait t) n
    if n = 0 then ((c.put (O.grantGrant t) (c.get (H.grantNew t))).put (H.grantNew t) 0).restore (O.grantNext t)
    else if n = 1 then c.put (O.grantNext t) (c.get (H.grantNew t))
    else c

/-- The VALID entries of classes C1–C3. -/
def Hub.isoEntries (c : Hub) : List Nat :=
  c.liveEntries.filter fun t => 3 ≤ t && c.valid t && decide (1 ≤ c.get (O.pathCls t) ∧ c.get (O.pathCls t) ≤ 3)

/-- Step 3's ISO_NEED (R87, R110): per C1–C3 entry its grant in cells plus 5. -/
def Hub.setIsoNeed (c : Hub) : Hub :=
  (c.put O.isoNeed ((c.isoEntries.map fun t => ceilDiv (c.get (O.grantGrant t)) 208 + 5).sum)).isoCheck

/-- Step 4 (R109), and the C1–C3 packets for ports in Retrain, up to the Init that ends it (R101). -/
def Hub.discardStale (c : Hub) : Hub :=
  let c := c.discardIso (fun p => p.stroke + 1 < c.stroke || c.get (O.grantGrant p.tid) == 0) true
  let late := (List.range 24).filter fun p => c.get (O.linkState p) == 5 || (c.get (O.linkState p) == 2 && c.flag (H.resume p))
  let c := c.discardIso (fun p => late.contains (p.q / 8)) false
  c.each (late.filter fun p => c.get (O.linkState p) == 5) fun c p => c.putB (H.retrainCrossed p) true

/-- The VALID entry that names a grant-linked shaper or policer, by the field given. -/
def Hub.namedBy (c : Hub) (field : Nat → Obj) (n : Nat) : Option Nat := c.liveEntries.find? fun t => c.valid t && c.get (field t) == n

/-- The rate of a shaper or policer from this boundary on (R112, R114–R116). -/
def Hub.rateNow (c : Hub) (mode rate next : Obj) (entry : Option Nat) : Nat :=
  if c.get mode = 0 then (match entry with | some t => c.get (O.grantGrant t) | none => 0)
  else if c.get next = 0xFFFFFFFF then c.get rate else c.get next

/-- One shaper refilled (R113, R114): its bucket for each output of the entries that name it, and for each at which a packet still waits that was queued
under it. TOKENS shows the lowest. -/
def Hub.refillShaper (c : Hub) (s : Nat) : Hub :=
  let r := c.rateNow (O.shaperMode s) (O.shaperRate s) (O.shaperNext s) (c.namedBy O.pathShaper s)
  let c := (c.put (O.shaperRate s) r).restore (O.shaperNext s)
  let outs := ((c.liveEntries.filter fun t => c.get (O.pathShaper t) == s).flatMap fun t => (c.outputs t).map Prod.fst)
    ++ (c.held.filter fun p => p.shaper == s).map fun p => p.q / 8
  let outs := outs.eraseDups
  let c := c.each outs fun c e => c.putI (H.bucket s e) (min (c.getI (H.bucket s e) + r) r)
  match outs with
  | [] => c
  | e :: rest => c.showI (O.shaperTokens s) ((rest.map fun x => c.getI (H.bucket s x)).foldl min (c.getI (H.bucket s e)))

/-- One policer refilled (R115, R116). -/
def Hub.refillPolicer (c : Hub) (k : Nat) : Hub :=
  let r := c.rateNow (O.policerMode k) (O.policerRate k) (O.policerNext k) (c.namedBy O.pathPolicer k)
  let c := (c.put (O.policerRate k) r).restore (O.policerNext k)
  c.setPolicer k (if r = 0 then 0 else min (c.getI (H.policerBucket k) + r) (r + c.get O.policeSlack : Nat))

/-- Step 5 (R113–R116): every policer and shaper with a rate or that an entry names. -/
def Hub.refillAll (c : Hub) : Hub :=
  let live := c.liveEntries
  let ks := (c.instances (O.policerRate 0) ++ c.instances (O.policerNext 0) ++ live.map fun t => c.get (O.pathPolicer t)).eraseDups
  let ss := (c.instances (O.shaperRate 0) ++ c.instances (O.shaperNext 0) ++ live.map fun t => c.get (O.pathShaper t)).eraseDups
  let c := c.each (ks.filter (· < 4096)) fun c k => c.refillPolicer k
  c.each (ss.filter (· < 4096)) fun c s => c.refillShaper s

/-- Step 6 (R103): the drive window of every link egress opens. -/
def Hub.openDrive (c : Hub) : Hub := c.each (List.range 24) fun c p => (c.putB (H.driveOpen p) true).put (H.driveBusy p) 0

/-! ## The report (R20, R118, R120) -/

/-- One tunnel's offered bytes at a boundary (R117, R118): the stroke just ended joins the completed ones, but for a tunnel that this boundary
activated. -/
def Offer.roll (o : Offer) : Offer :=
  if o.fresh then { o with fresh := false }
  else { o with now := 0, past := (o.now :: o.past).take 64, completed := min (o.completed + 1) 64 }

/-- The window peak over the last n completed strokes (R118). -/
def Offer.window (o : Offer) (n : Nat) : Nat := (o.past.take n).foldl max 0

/-- The offered bytes rolled over, and OFFERED of DEMAND_TABLE (4202h.03). The count of an entry torn down ends with the first stroke in which it had
nothing. -/
def Hub.rollOffers (c : Hub) : Hub :=
  let c := { c with offers := c.offers.map Offer.roll }
  let c := c.each c.offers fun c o => c.put (O.demandOffered o.tid) (o.past.headD 0)
  { c with offers := c.offers.filter fun o : Offer => c.valid o.tid || o.past.headD 0 != 0 }

/-- A demand record is due: its peak or its no-history flag changed, or 64 strokes have passed since its last (R120). -/
def Offer.due (o : Offer) (n refresh : Nat) : Bool :=
  o.window n != o.peak || decide (o.completed < n) != o.noHistory || decide (refresh ≤ o.age + 1)

/-- The demand records of this boundary's report, and the counts that follow them. -/
def Hub.takeDemands (c : Hub) : List DemandRecord × Hub :=
  let n := c.get O.demandWindow
  let refresh := c.get O.demandRefresh
  let recs := (c.offers.filter fun o => c.valid o.tid && o.due n refresh).map fun o : Offer =>
    ({ tid := BitVec.ofNat 16 o.tid, flags := if o.completed < n then 2 else 0, demand := BitVec.ofNat 32 (o.window n) } : DemandRecord)
  let offers := c.offers.map fun o : Offer =>
    if o.due n refresh then { o with peak := o.window n, noHistory := decide (o.completed < n), age := 0 } else { o with age := o.age + 1 }
  let c := { c with offers := offers }
  (recs, c.each recs fun c r => c.put (O.demandDemand r.tid.toNat) r.demand.toNat)

/-- The port section of a report (R120): per egress its payload rate and its fixed grants. -/
def Hub.portRows (c : Hub) : List (BitVec 32 × BitVec 32) :=
  let fixed := c.isoEntries.filter fun t => decide (t < 8192)
  (List.range 24).map fun p =>
    let onPort := fixed.filter fun t => (c.outputs t).any fun o => o.1 == p
    let g := (onPort.map fun t => if c.get (H.grantWait t) = 0 then c.get (O.grantGrant t) else c.get (H.grantNew t)).sum
    (BitVec.ofNat 32 (c.get (O.payloadRate p)), BitVec.ofNat 32 g)

/-- The port section is due (R120): in the first report after a join, and where a rate or a fixed sum is not the one last sent. -/
def Hub.portsDue (c : Hub) : Bool :=
  c.flag H.portSection || ((List.range 24).zip c.portRows).any fun x =>
    c.get (H.rateSent x.1) != x.2.1.toNat || c.get (H.fixedSent x.1) != x.2.2.toNat

/-- The rows of a port section as sent. -/
def Hub.portsSent (c : Hub) : Hub :=
  (c.each ((List.range 24).zip c.portRows) fun c x => (c.put (H.rateSent x.1) x.2.1.toNat).put (H.fixedSent x.1) x.2.2.toNat).putB H.portSection false

/-- A report cut into REPORT packets (R120): up to 40 events and 1,024 B each, the port section in part 0 alone. -/
def reportParts : Nat → Report → Nat → List TopoEvent → List DemandRecord → List Report
  | 0, _, _, _, _ => []
  | n + 1, base, part, es, ds =>
    let room := if part = 0 ∧ bit base.flags.toNat 5 = true then 816 else 1008
    let es' := es.take (min 40 (room / 24))
    let ds' := ds.take ((room - 24 * es'.length) / 8)
    let fl := if part = 0 then base.flags else BitVec.ofNat 16 (withBit base.flags.toNat 5 false)
    let r : Report :=
      { base with part := BitVec.ofNat 8 part, flags := fl, ports := if part = 0 then base.ports else [], events := es', demands := ds' }
    let es := es.drop es'.length
    let ds := ds.drop ds'.length
    if es.isEmpty && ds.isEmpty then [r] else r :: reportParts n base (part + 1) es ds

/-- Step 7: the report of a Member, or the Cox's own to itself (R20, R120). A handover holds it back with its events (R28). -/
def Hub.sendReport (c : Hub) : Hub :=
  let c := c.rollOffers
  if !(c.isCox || c.treeIs 2) || c.handingOver then c
  else
    let section5 := c.portsDue
    let fl := (if c.isCox || c.flag O.timeLock then 1 else 0) + 2 * (c.get H.reportFlags % 16) + if section5 then 32 else 0
    let (ds, c) := c.takeDemands
    let base : Report :=
      { hub := BitVec.ofNat 8 (c.get O.hubAddress), stroke := BitVec.ofNat 64 c.stroke, flags := BitVec.ofNat 16 fl, part := 0,
        ports := if section5 then c.portRows else [], events := [], joins := [], demands := [], late := false }
    let parts := reportParts (c.topo.length + ds.length + 1) base 0 c.topo ds
    let c := c.put O.treeEventSeq (c.get O.treeEventSeq + c.topo.length)
    let c := c.when (bit (c.get H.reportFlags) 2) fun c => c.put H.handoverAsked (c.stroke + 1)
    let c := (({ c with topo := [] }).put H.reportFlags 0).when section5 Hub.portsSent
    c.each parts fun c r => if c.isCox then c.takeReport { r with hub := 0 } else c.emit (.mgmtTo none 0 (.report r))

/-! ## Field I/O snapshots (R52) -/

/-- The cyclic packet of a transmit record due in this stroke. One whose entry is not VALID, or in DRAIN, sends nothing (DESIGN CHOICE,
notes/assumptions/86.md). -/
def Hub.sendCyclic (c : Hub) (m : Mems) (r : Nat) : Hub :=
  let t := c.get (O.fioTxTid r)
  let period := c.get (O.fioTxPeriod r)
  if t < 16384 ∧ period ≠ 0 ∧ c.stroke % period = c.get (O.fioTxPhase r) ∧ c.valid t = true ∧ c.get (O.pathIn t) = 0x28 then
    let bytes := m.readImage (c.get (O.fioTxOffset r)) (c.get (O.fioTxSize r))
    let (p, c) := c.makePacket t (c.get (O.pathCls t)) 4 4 (c.stroke % 65536) bytes
    (c.count (O.fioTxSent r)).receive 31 p
  else c

/-! ## The boundary -/

/-- The tree's messages at a boundary (R25): SYNC on each downstream port, and every 16 strokes a delay request upstream. -/
def Hub.sendSyncs (c : Hub) : Hub :=
  let c := c.each c.downstream fun c p => c.emit (.timeOn p (.sync c.stroke))
  if c.stroke % 16 = 0 ∧ c.get O.upstreamPort < 24 then c.emit (.timeOn (c.get O.upstreamPort) .delayReq) else c

/-- The stroke counter, in the always-on domain, enters the next stroke. -/
def Hub.nextStroke (c : Hub) : Hub :=
  let next := c.boundaryAt + 125000
  ({ c with now := max c.now next, boundaryAt := next } : Hub).put O.strokeNumber (c.stroke + 1)

/-- What waits for a boundary beside the steps: the hold of C1–C3 without time lock (R27), reports that came late (R126), Quiet requests
that may be sent again (R160), and retrains to a raised gear ceiling (R184). -/
def Hub.boundaryStart (c : Hub) : Hub :=
  let c := c.nextStroke
  let c := (c.putB H.isoHold (!(c.isCox || c.flag O.timeLock))).put H.coxBoundaries (min 3 (c.get H.coxBoundaries + 1))
  let late := c.lateReports
  let c := ({ c with lateReports := [] }).each late fun c r => c.applyDemands r
  c.each (List.range 24) fun c p =>
    let c := c.when (c.get (H.quietSent p) == 1) fun c => c.put (H.quietSent p) 2
    c.when (c.flag (H.gearRaise p)) fun c => (c.putB (H.gearRaise p) false).gearRetrain p

/-- Steps 1 to 6 of R108. -/
def Hub.boundarySteps (c : Hub) : Hub :=
  let c := c.sampleDepths.clearDrains
  let before := c.liveEntries.filter fun t => c.drain t
  let c := (c.applyStaged).countDrains before
  (((c.planBoundary).fixedBoundary).setIsoNeed).discardStale.refillAll.openDrive

/-- STROKE_BOUNDARY (R52, R73, R108, R135): the steps in order, then the report, the Cox's route service, SYNC, the field I/O
snapshots and the PD messages that waited for a child to wake (R418; DESIGN CHOICE, notes/assumptions/91.md, for the moment). In Moored the
counter alone goes on (R411). -/
def execStrokeBoundary (s : State) : Host.Outcome State Fault Refusal :=
  onPortsAll s fun c m => if !c.domainsOn then (c.nextStroke, m) else
    let c := c.boundaryStart.boundarySteps.sendReport
    let c := (c.when c.isCox fun c => c.routeBoundary.refreshVdps).sendSyncs
    let c := c.each (List.range 64) fun c r => c.sendCyclic m r
    ((c.each (List.range 24) fun c p => c.pdReleased p).settle, m)

/-- DRIVE_WINDOW_CLOSE (R103, R188): the recovery phase begins, and a margin retrain that waited for it starts: fast, but at the gear in force it
equalises without the coefficients kept. -/
def execDriveWindowClose (port : Port) (s : State) : Host.Outcome State Fault Refusal :=
  onDomains s fun c =>
    let p := port.val
    if c.flag (H.driveOpen p) = false then c
    else
      let c := (c.putB (H.driveOpen p) false).put (O.egressStrokeDriveBusy p) (c.get (H.driveBusy p))
      let c := { c with now := max c.now (c.boundaryAt + c.get O.driveWindow) }
      if c.flag (H.retunePending p) then
        let c := c.putB (H.retunePending p) false
        let g := c.get (O.gear p)
        let c := c.each [0, 1, 2, 3] fun c l => (c.put (H.keptCoef p l g) 0).put (H.keptRx p l) (withBit (c.get (H.keptRx p l)) g false)
        if c.get (O.linkState p) = 3 then c.retrainFor p 4 43 else c
      else c

/-! ## Writes (R104, R110–R116, R134, R137) -/

/-- GRANT written (R110, R111): repeated, or a fixed grant lowered at the next boundary or raised at the fourth. -/
def Hub.writeGrant (c : Hub) (t g : Nat) : Status × Hub :=
  let now := c.get (O.grantGrant t)
  let fixed := decide (3 ≤ t ∧ t ≤ 8191) && decide (1 ≤ c.get (O.pathCls t) ∧ c.get (O.pathCls t) ≤ 3)
  if !fixed then (if g = now then (.ok, c) else (.invalidValue, c))
  else if g = now then (.ok, ((c.put (H.grantWait t) 0).put (H.grantNew t) 0).restore (O.grantNext t))
  else if g < now then (.ok, ((c.put (H.grantWait t) 1).put (H.grantNew t) g).put (O.grantNext t) g)
  else (.ok, ((c.put (H.grantWait t) 4).put (H.grantNew t) g).restore (O.grantNext t))

/-- GRANT_WRITE: Engineer and Owner. -/
def execGrantWrite (lvl : Level) (entry : Fin 16384) (grant : BitVec 32) (s : State) : Host.Outcome State Fault Refusal :=
  onWrite (.grantWrite lvl entry grant) s fun c => c.request lvl engineerWrites fun c => c.writeGrant entry grant.toNat

/-- MODE and RATE of a shaper or policer written (R112, R114–R116): MODE does not change while an entry names it, and the rate of a
grant-linked one may only be repeated. RATE FFFFFFFFh is the NEXT of none, so the rate stays (DESIGN CHOICE, notes/assumptions/91.md). -/
def Hub.writeRate (c : Hub) (mode rate next : Obj) (inUse : Bool) (m r : Nat) : Status × Hub :=
  if 1 < m then (.invalidValue, c)
  else if m ≠ c.get mode ∧ inUse = true then (.busy, c)
  else if m = 0 then (if r = c.get rate then (.ok, (c.put mode 0).restore next) else (.invalidValue, c))
  else (.ok, (c.put mode 1).put next r)

/-- An entry that is VALID or in DRAIN names the shaper or policer. -/
def Hub.named (c : Hub) (field : Nat → Obj) (n : Nat) : Bool := c.liveEntries.any fun t => c.get (field t) == n

/-- SHAPERS written. -/
def Hub.writeShaper (c : Hub) (s m r : Nat) : Status × Hub :=
  c.writeRate (O.shaperMode s) (O.shaperRate s) (O.shaperNext s) (c.named O.pathShaper s) m r

/-- SHAPER_WRITE: Engineer and Owner. -/
def execShaperWrite (lvl : Level) (shaper : Fin 4096) (mode : BitVec 8) (rate : BitVec 32) (s : State) : Host.Outcome State Fault Refusal :=
  onWrite (.shaperWrite lvl shaper mode rate) s fun c => c.request lvl engineerWrites fun c => c.writeShaper shaper mode.toNat rate.toNat

/-- POLICERS written. -/
def Hub.writePolicer (c : Hub) (k m r : Nat) : Status × Hub :=
  c.writeRate (O.policerMode k) (O.policerRate k) (O.policerNext k) (c.named O.pathPolicer k) m r

/-- POLICER_WRITE: Engineer and Owner. -/
def execPolicerWrite (lvl : Level) (policer : Fin 4096) (mode : BitVec 8) (rate : BitVec 32) (s : State) :
    Host.Outcome State Fault Refusal :=
  onWrite (.policerWrite lvl policer mode rate) s fun c => c.request lvl engineerWrites fun c => c.writePolicer policer mode.toNat rate.toNat

/-- QUANTUM written (R134, 4210h.03). -/
def Hub.writeQuantum (c : Hub) (q v : Nat) : Status × Hub :=
  if v < 64 ∨ 65536 < v then (.invalidValue, c) else (.ok, c.put (O.quantumBytes q) v)

/-- QUANTUM_WRITE: Engineer and Owner. -/
def execQuantumWrite (lvl : Level) (q : Fin 264) (value : BitVec 32) (s : State) : Host.Outcome State Fault Refusal :=
  onWrite (.quantumWrite lvl q value) s fun c => c.request lvl engineerWrites fun c => c.writeQuantum q value.toNat

/-- Histogram bins written from bin 0 (R137, R459): zeros clear them, and nothing else is accepted. -/
def Hub.clearHist (c : Hub) (delay : Bool) (q : Nat) (bins : List (BitVec 32)) : Status × Hub :=
  if 16 < bins.length then (.range, c)
  else if bins.any (· != 0) then (.invalidValue, c)
  else (.ok, c.each (List.range bins.length) fun c k => c.put (if delay then O.delayHistBin q k else O.depthHistBin q k) 0)

/-- HIST_CLEAR: Engineer and Owner. -/
def execHistClear (lvl : Level) (delay : Bool) (q : Fin 264) (bins : List (BitVec 32)) (s : State) : Host.Outcome State Fault Refusal :=
  onWrite (.histClear lvl delay q bins) s fun c => c.request lvl engineerWrites fun c => c.clearHist delay q bins

/-- DRIVE_WINDOW written (R104): in the Cox alone, in force with the next plan. -/
def Hub.writeWindow (c : Hub) (w : Nat) : Status × Hub :=
  if !c.isCox || decide (w < 32000 ∨ 112000 < w) then (.invalidValue, c) else (.ok, c.put H.windowNext w)

/-- DRIVE_WINDOW_WRITE: Engineer and Owner. -/
def execDriveWindowWrite (lvl : Level) (value : BitVec 32) (s : State) : Host.Outcome State Fault Refusal :=
  onWrite (.driveWindowWrite lvl value) s fun c => c.request lvl engineerWrites fun c => c.writeWindow value.toNat

end Sys2Proof.Machine
end

