-- ==== Sys2Proof/Machine/Sleep.lean ====
section
/-! DEFINITION. The sleep states: their choice, entry and wake (R14, R28, R415–R419). -/
namespace Sys2Proof.Machine

/-! ## The choice (R416, R417) -/

/-- No packet in staging or in any queue, and no task of the management pair (R416). -/
def Hub.isIdle (c : Hub) : Bool :=
  c.held.isEmpty && c.arrived.isEmpty && c.mgmtWait.isEmpty && c.staged.isEmpty && c.fopHeld.isEmpty && c.heldWrites.isEmpty
    && c.rigHeld.isEmpty && !c.saving && c.get H.programming == 0 && c.get O.transferState != 3

/-- A C1–C3 grant at the hub, and in the Cox any in the tree (R28): of a route, in a plan that is in force or on its way, and of the fixed tunnels that a
Member's port section reports. -/
def Hub.isoGranted (c : Hub) : Bool :=
  (c.isoEntries.any fun t => c.get (O.grantGrant t) != 0)
    || (c.isCox && ((c.works.any fun w => [0, 1, 2].any fun k => c.get (H.pastGrant w.route k) != 0) || (c.retired.any fun u => u.owe != 0)
      || (c.instances (O.linkIsoFixed 0)).any fun l => c.memberAt (l / 24) && c.get (O.linkIsoFixed l) != 0))

/-- A hub below this one is enumerated, so that ADDRESS_ROUTES leads to it (R58), and neither lost nor asleep (R13, R14). -/
def Hub.hubBelow (c : Hub) : Bool :=
  (c.instances (O.addrRoutePort 0)).any fun a =>
    let p := c.get (O.addrRoutePort a)
    decide (p < 24) && p != c.get O.upstreamPort && !c.flag (H.portLost p) && !c.flag (H.childAsleep p)

/-- Nothing forbids Paddle (R28, R417). -/
def Hub.paddleAllowed (c : Hub) : Bool :=
  let a := c.get O.activationState
  !(decide (2 ≤ a ∧ a ≤ 7)) && !c.isoGranted && [0, 1, 2, 3].all fun h => c.get (O.headState h) != 2

/-- Nothing forbids Moored (R14, R417). -/
def Hub.mooredAllowed (c : Hub) : Bool :=
  c.paddleAllowed && !(c.isCox && decide (1 < c.get O.treeHubs)) && !(c.isCrew && c.hubBelow) && c.get H.pcieLink != 2
    && c.get (O.macLink 0) == 0 && c.get (O.macLink 1) == 0

/-- Nothing forbids Stowed (R417). -/
def Hub.stowedAllowed (c : Hub) : Bool :=
  c.mooredAllowed && (List.range 24).all fun p => !(c.flag (O.critical p) && (c.get (O.srcPathState p) == 1 || c.get (O.srcPathState p) == 2))

/-- The deepest state allowed (R416). -/
def Hub.deepest (c : Hub) : Nat :=
  min (c.get O.sleepMax) (if c.stowedAllowed then 4 else if c.mooredAllowed then 3 else if c.paddleAllowed then 2 else 1)

/-- select() of R416, times in ns; `next` is the time to the next known event, none where none is known. -/
def Hub.selectState (c : Hub) (next : Option Nat) (toBoundary : Nat) : Nat :=
  let gap := if c.flag O.sleepHistory then some (1000 * c.get O.predictedGap) else none
  let reaches (n : Nat) (t : Option Nat) : Bool := match t with | none => true | some t => decide (1000 * c.get (O.breakEven (n - 1)) ≤ t)
  let stroke := if c.isCox || c.treeIs 2 then some (toBoundary - 40000) else none
  let best := [1, 2, 3, 4].foldl (fun best n =>
    if n ≤ c.deepest ∧ reaches n next = true ∧ reaches n gap = true ∧ (3 ≤ n ∨ reaches n stroke = true) then n else best) 0
  if c.flag O.sleepHistory then best else min best 2

/-! ## Entry (R205, R206, R418) -/

/-- Every sink port in EPR leaves EPR (R205). -/
def Hub.leaveEprAll (c : Hub) (now : Bool) : Hub := c.each (List.range 24) fun c p => c.leaveEpr now p

/-- A sink port is still in EPR. -/
def Hub.eprAnywhere (c : Hub) : Bool := (List.range 24).any fun p => c.eprStill p

/-- SLEEP to the parent, and the hub is Asleep (R418). -/
def Hub.sendSleep (c : Hub) : Hub :=
  if c.treeIs 2 && !c.isCox then
    (c.emit (.mgmtTo (some (c.get O.upstreamPort)) (c.get H.parentAddr) .sleep)).put O.treeState 4
  else c

/-- Moored holds nothing of the blocks whose domains are off: links, packets, adapters, heads (R411, R418). Their windows close
at once (R385). -/
def Hub.domainsOff (c : Hub) : Hub :=
  let up := if c.treeIs 4 then c.get O.upstreamPort else 255
  let c := c.each (List.range 24) fun c p =>
    if p = up then (c.lanesOff p).linkDown p
    else if c.get (O.modeState p) = 0 then c
    else (c.when (c.get (O.modeState p) == 2 || c.get (H.vdmStep p) == 4) fun c => c.leaveMode p).exitMode p
  let c := c.emptyBuffer.headsOff.pcieLost
  let c := c.each [0, 1] fun c k => ((c.put (O.macLink k) 0).put (O.usxRate k) 0).putB (H.paused k) false
  { c with reassembly := [], frameOut := [], tlpOut := [], arrived := [],
           windows := c.windows.filter fun (w : Window) => w.kind != 1 && w.kind != 5 && w.kind != 7 }

/-- An activation that an entry into Moored ends (R407): the boot slot's image is the running one again. -/
def Hub.endActivation (c : Hub) (m : Mems) : Hub × Mems :=
  let st := c.get O.activationState
  c.recorded <| Prod.mk (α := Hub) (β := Mems) (if 2 ≤ st ∧ st ≤ 7 then
    let b := c.get O.bootSlot
    let c := ((((c.dropActivation.dropConverted.put O.activationState 0).put O.activate 0).stopWaiting).put H.handover 0).put O.confirmRemaining 0
    if b ≤ 1 then ((c.put O.runningSlot b).put O.fwVersion (m.imageVersion (slotBase b))).put O.settingsFormat (m.imageFormat (slotBase b)) else c
  else c) m

/-- A state is entered and counted (R416). -/
def Hub.intoState (c : Hub) (n : Nat) : Hub := ((c.put O.powerState n).put H.sleptAt c.now).count (O.stateEntries (n - 1))

/-- Entry into Moored (R206, R418). -/
def Hub.enterMoored (c : Hub) (m : Mems) : Hub × Mems :=
  let c := (c.leaveEprAll true).sendSleep.endSessions
  let c := c.each (List.range 24) fun c p => c.when (c.get (O.attachState p) == 3 && !c.flag (O.critical p)) fun c => c.disablePort p
  let (c, m) := c.domainsOff.endActivation m
  (c.intoState 3, m)

/-- Entry into Stowed (R206, R412, R418): all but the battery domain is off; the wake mask stands with the wake logic. -/
def Hub.enterStowed (c : Hub) : Hub :=
  let c := (c.leaveEprAll true).sendSleep
  let mask := c.get O.wakeMask
  let off := (List.range 24).filter fun p => [3, 5, 6].contains (c.get (O.attachState p))
  ((((c.enterReset 5).put O.wakeMask mask).put O.powerState 4).put H.sleptAt c.now).each off fun c p => c.put (H.ccOpen p) 1

/-- A selected state is entered; Run is none. -/
def Hub.enterState (c : Hub) (m : Mems) (n : Nat) : Hub × Mems :=
  if n = c.get O.powerState then (c, m)
  else if n = 0 then (c.put O.powerState 0, m)
  else if n ≤ 2 then (c.intoState n, m)
  else if n = 3 then c.enterMoored m
  else (c.enterStowed, m)

/-- SLEEP_SELECT (R416): in an idle hub that is awake. Moored and Stowed wait until no sink port is in EPR (R205). -/
def execSleepSelect (nextKnown : Option Nat) (toBoundary : Nat) (s : State) : Host.Outcome State Fault Refusal :=
  onAll s fun c m =>
    if c.flag H.running && decide (c.get O.powerState ≤ 2) && c.isIdle then
      let n := c.selectState nextKnown toBoundary
      if 3 ≤ n ∧ c.eprAnywhere = true then (c.leaveEprAll false, m) else c.enterState m n
    else (c, m)

/-! ## Wake (R416, R418, R419, R422) -/

/-- A port that went Disabled on entry into Moored, and that neither PORT_DISABLE nor sag stage 4 holds there. -/
def Hub.freedPort (c : Hub) (p : Nat) : Bool :=
  c.get (O.attachState p) == 6 && !c.flag (O.portDisable p) && !(decide (4 ≤ c.get O.sagStage) && c.sagPort p)

/-- The exit from Moored: the domains return, lanes leave Off where the mode is entered, and a tamper event that slept is reported. -/
def Hub.exitMoored (c : Hub) : Hub :=
  let c := c.put O.powerState 0
  let c := (c.when (decide (c.get O.sagStage < 4)) Hub.headsOn).recompute
  let c := c.each (List.range 24) fun c p => (c.when (c.freedPort p) fun c => c.enablePort p).lanesStart p
  let c := c.when (c.flag H.perstHigh && c.flag O.pcieEnable) fun c => c.put H.pcieLink 1
  c.when (c.flag H.tamperAtWake) Hub.tamperReport

/-- The exit from the present sleep state. -/
def Hub.exitSleep (c : Hub) (m : Mems) (powered : List PoweredPort) : Hub × Mems :=
  match c.get O.powerState with
  | 3 => (c.exitMoored, m)
  | 4 => (c.restore O.wakeMask).startUp m 0 powered
  | _ => (c.put O.powerState 0, m)

/-- EXIT_START (R416): the exit for a known event, EXIT[s] before it is due. -/
def execExitStart (powered : List PoweredPort) (s : State) : Host.Outcome State Fault Refusal :=
  onAll s fun c m => if c.get O.powerState = 0 then (c, m) else c.exitSleep m powered

/-- A source wakes the hub from its present state (R419). Easy and Paddle wake for any. -/
def Hub.wakes (c : Hub) (source : Nat) : Bool :=
  bit (c.get O.wakeMask) source && match c.get O.powerState with
    | 0 => false
    | 4 => source == 0 || source == 1 || source == 5
    | _ => true

/-- The hub wakes on a source, which WAKE_CAUSE records. The alarm is a known event (R416). -/
def Hub.wakeOn (c : Hub) (m : Mems) (source : Nat) (powered : List PoweredPort) : Hub × Mems :=
  let r := (c.when (source != 1 && c.get O.powerState != 4) Hub.recordGap).exitSleep m powered
  (r.1.put O.wakeCause (source + 1), r.2)

/-- WAKE (R419). -/
def execWake (source : Fin 6) (powered : List PoweredPort) (s : State) : Host.Outcome State Fault Refusal :=
  onAll s fun c m => if c.wakes source then c.wakeOn m source powered else (c, m)

/-- SLEEP_MAX written (R416): the gaps are measured anew. -/
def Hub.writeSleepMax (c : Hub) (v : Nat) : Status × Hub :=
  if 4 < v then (.invalidValue, c)
  else (.ok, (((c.put O.sleepMax v).put H.gaps 0).putB O.sleepHistory false).put O.predictedGap 0)

/-- SLEEP_MAX_WRITE: Engineer. -/
def execSleepMaxWrite (lvl : Level) (value : BitVec 8) (s : State) : Host.Outcome State Fault Refusal :=
  onWrite (.sleepMaxWrite lvl value) s fun c => c.request lvl engineerWrites fun c => c.writeSleepMax value.toNat

end Sys2Proof.Machine
end

