-- ==== Sys2Proof/Machine/Sag.lean ====
section
/-! DEFINITION. Supply-sag stages: their entry and clearing, and the flush of stage 5 (R206, R308, R420–R424, R429). -/
namespace Sys2Proof.Machine

/-- Links change gear for stage 3 (R179, R184), all as one fault in progress: that of the open window that holds SAG_STAGE, else one that it began
(R382). -/
def Hub.sagGears (c : Hub) : Hub :=
  let fault := match c.windows.find? (fun w => w.holds 62 255 0) with | some w => w.root | none => c.reactions + 1
  c.each (List.range 24) fun c p => (c.showCeiling p).when (decide (3 < c.get (H.trainGear p))) fun c => c.gearRetrain p 62 fault

/-- On clearing of stage 3 every link below its ceiling retrains at the next boundary (R184), and a change of gear that the stage asked for and that has
not begun is cancelled (R422). -/
def Hub.clearGears (c : Hub) : Hub :=
  c.each (List.range 24) fun c p =>
    let c := c.showCeiling p
    let c := c.when (c.get (H.gearDue p) == 63 && decide (c.get (H.trainGear p) ≤ c.get (O.gearCeiling p))) fun c => c.put (H.gearDue p) 0
    let up := decide (2 ≤ c.get (O.linkState p) ∧ c.get (O.linkState p) ≤ 4)
    c.when (up && decide (c.get (H.trainGear p) < c.get (O.gearCeiling p))) fun c => c.putB (H.gearRaise p) true

/-- The actions of a stage on entry (R422). SAG_STAGE already shows it. -/
def Hub.stageIn (c : Hub) (n : Nat) : Hub :=
  match n with
  | 1 => c.each (List.range 24) Hub.sag1Enter
  | 2 => c.headsHalt
  | 3 => ((c.put O.halted 12).when (c.get O.spillState == 0) fun c => c.put O.spillState 1).sagGears
  | 4 => ((c.put H.quiesced 1).each (List.range 24) Hub.sag4Enter).headsOff
  | _ => c

/-- The clearing actions of a stage (R422). SAG_STAGE already shows what is left; heads read it, so stage 2 needs no more (R308). -/
def Hub.stageOut (c : Hub) (n : Nat) : Hub :=
  match n with
  | 1 => c.each (List.range 24) Hub.sag1Clear
  | 3 => ((c.put O.halted 0).when (c.get O.spillState == 1) fun c => c.put O.spillState 0).clearGears
  | 4 => (((c.put H.quiesced 0).each (List.range 24) Hub.sag4Clear).when (c.get O.powerState != 3) Hub.headsOn).settle
  | _ => c

/-- A stage is in force whose actions the hub can take: its blocks run, or retain their state in Moored. -/
def Hub.acts (c : Hub) : Bool := c.flag H.running

/-- A stage enters (R420, R429): counted, reported, and its actions begin, with those of the stages below it. -/
def Hub.enterStage (c : Hub) (m : Mems) (n : Nat) : Hub × Mems :=
  if bit (c.get H.sagFlags) (n - 1) = true ∨ c.get O.powerState = 4 then (c, m)
  else
    let old := c.get O.sagStage
    let c := c.recordStage n
    if c.acts then
      let c := c.awake
      let c := ((List.range 5).filter fun k => decide (old ≤ k ∧ k < c.get O.sagStage)).foldl (fun (c : Hub) k => c.stageIn (k + 1)) c
      let c := c.activationCheck
      if n = 5 then c.startFlush m else (c, m)
    else (c, m)

/-- A stage clears (R420, R422, R429): the clearing actions of the stages no longer in force, the deepest first. Stage 5 does not clear in
hold-up; it wakes a hub that it had moored. -/
def Hub.clearStage (c : Hub) (m : Mems) (n : Nat) : Hub × Mems :=
  if bit (c.get H.sagFlags) (n - 1) = false ∨ c.get O.powerState = 4 ∨ (n = 5 ∧ c.get O.feedState = 3) then (c, m)
  else
    let old := c.get O.sagStage
    let c := c.put H.sagFlags (withBit (c.get H.sagFlags) (n - 1) false)
    let c := c.put O.sagStage (topStage (c.get H.sagFlags))
    let c := c.when (n == 5 && c.get H.flushing == 2) fun c => c.put H.flushing 0
    if c.acts then
      let c := ([5, 4, 3, 2, 1].filter fun k => decide (c.get O.sagStage < k ∧ k ≤ old)).foldl (fun (c : Hub) k => c.stageOut k) c
      let c := c.activationCheck
      if n = 5 ∧ c.get O.powerState = 3 ∧ c.wakes 4 = true then c.wakeOn m 4 [] else (c, m)
    else (c, m)

/-- SAG_STAGE_ENTER (R420): SAG_INPUT_MV has stayed below the threshold of a stage for SAG_FILTER. -/
def execSagStageEnter (stage : Fin 5) (s : State) : Host.Outcome State Fault Refusal := onAll s fun c m => c.enterStage m (stage + 1)

/-- SAG_STAGE_CLEAR (R420). -/
def execSagStageClear (stage : Fin 5) (s : State) : Host.Outcome State Fault Refusal := onAll s fun c m => c.clearStage m (stage + 1)

/-- A save ends (R341); one that stage 5 waited for is the flush, and Moored follows while the stage is in force (R424, R429). -/
def Hub.saveDone (c : Hub) (m : Mems) (ok : Bool) : Hub × Mems :=
  if !c.saving then (c, m)
  else
    let r := c.finishSave m ok
    if r.1.get H.flushing = 1 then
      let c := (r.1.put H.flushing 0).put O.lastFlush (if ok then 1 else 2)
      if c.get O.sagStage = 5 ∧ c.get O.powerState ≠ 3 then c.enterMoored r.2 else (c, r.2)
    else r

/-- SETTINGS_SAVE_DONE (R341, R424). -/
def execSettingsSaveDone (ok : Bool) (s : State) : Host.Outcome State Fault Refusal := onAll s fun c m => c.saveDone m ok

end Sys2Proof.Machine
end

