-- ==== Sys2Proof/Machine/FopOps.lean ====
section
/-! DEFINITION. The making of FOP messages and their way out (R319, R328, R332–R337), which update and FOP share. -/
namespace Sys2Proof.Machine

/-- The code of a status (R323). -/
def Status.code : Status → Nat
  | .ok => 0 | .noObject => 1 | .access => 2 | .writeOnly => 3 | .invalidValue => 4 | .busy => 5 | .length => 6 | .range => 7
  | .noSession => 8 | .sessionLimit => 9 | .noKey => 10 | .blockBusy => 11 | .blockEnded => 12 | .notHere => 14 | .unreachable => 15

/-- The 32 bytes of a header (R319). -/
def fopHeader (kind flags level session hub counter reqId length index sub status offset count : Nat) : Bytes :=
  leBytes 1 1 ++ leBytes kind 1 ++ leBytes flags 1 ++ leBytes level 1 ++ leBytes session 2 ++ leBytes hub 1 ++ [0] ++ leBytes counter 4
    ++ leBytes reqId 2 ++ leBytes length 2 ++ leBytes index 2 ++ leBytes sub 1 ++ leBytes status 1 ++ leBytes offset 4
    ++ leBytes count 4 ++ leBytes 0 4

/-- The header and body of a received message, as they are authenticated (R328). -/
def fopSigned (m : FopMsg) (kind : Nat) : Bytes :=
  leBytes m.version.toNat 1 ++ leBytes kind 1 ++ leBytes m.flags.toNat 1 ++ leBytes m.level.toNat 1 ++ leBytes m.session.toNat 2
    ++ leBytes m.hub.toNat 1 ++ leBytes m.pad.toNat 1 ++ leBytes m.counter.toNat 4 ++ leBytes m.reqId.toNat 2 ++ leBytes m.length.toNat 2
    ++ leBytes m.index.toNat 2 ++ leBytes m.sub.toNat 1 ++ leBytes m.status.toNat 1 ++ leBytes m.offset.toNat 4
    ++ leBytes m.count.toNat 4 ++ leBytes m.pad2.toNat 4 ++ m.body

/-- A whole received message. -/
def fopRaw (m : FopMsg) (kind : Nat) : Bytes := fopSigned m kind ++ leBytes m.tag.toNat 32

/-- The message on the index of the image blocks travels on the background channel (R395). -/
def onBackground (m : FopMsg) : Bool := m.index == 0x9003

/-- The place of a transport in FOP_RX and FOP_TX (F002h). -/
def transportPlace : Transport → Nat
  | .t1s => 0 | .tunnel => 1 | .mailbox => 2 | .uart => 3

/-- A byte on the service UART, stuffed (R337). -/
def stuffed (b : BitVec 8) : Bytes := if b = 0x7E then [0x7D, 0x5E] else if b = 0x7D then [0x7D, 0x5D] else [b]

/-- A frame of the service UART (R337). -/
def uartFrame (bytes : Bytes) : Bytes := [0x7E] ++ (bytes ++ leBytes (crc32c bytes) 4).flatMap stuffed ++ [0x7E]

/-- A response for the mailbox: written while RSP_READY is 0, with MSI-X vector 0; else it waits for RSP_ACK (R336). It may answer an
earlier request that was relayed: whoever ends the one in REQ_BUF clears REQ_BUSY. -/
def Hub.mailboxRespond (c : Hub) (bytes : Bytes) : Hub :=
  if c.flag H.rspReady then { c with rspWait := c.rspWait ++ [bytes] }
  else (({ c with rspBuf := bytes } : Hub).put H.rspReady 1).msix 0

/-- The source port of replies (R333): FOP_PORT, or the one before a write of it whose response is still to be sent (R334). -/
def Hub.sourcePort (c : Hub) : Nat := if c.get H.portWas = 0 then c.get O.fopPort else c.get H.portWas

/-- A FOP message to a hub: on the management tunnel, or with `background` a packet of the background channel, which goes through the switch as
class C7 (R56, R335, R395). -/
def Hub.sendFop (c : Hub) (background : Bool) (dst : Nat) (bytes : Bytes) : Hub :=
  if background then
    let (p, c) := c.makePacket 2 7 0 0 (mgmtInfo dst .fop) bytes
    ({ c with mgmtWait := c.mgmtWait ++ [p] }).pump
  else c.emit (.fopTo false dst bytes)

/-- A message goes out on the transport and to the address a request came from (R332). In the mailbox it is the response (R336). -/
def Hub.deliver (c : Hub) (t : Transport) (addr port : Nat) (background : Bool) (bytes : Bytes) : Hub :=
  let c := c.count (O.fopTx (transportPlace t))
  match t with
  | .t1s => c.emit (.fop t addr port c.sourcePort bytes)
  | .uart => c.emit (.fop t 0 0 0 (uartFrame bytes))
  | .tunnel => c.sendFop background 0 bytes
  | .mailbox => c.mailboxRespond bytes

/-- The header of the answer to a request: LEVEL, SESSION, HUB, REQ_ID, INDEX, SUB and OFFSET are the request's. -/
def answerHead (m : FopMsg) (kind counter : Nat) (st : Status) (count : Nat) (body : Bytes) : Bytes :=
  fopHeader (kind + 128) 0 m.level.toNat m.session.toNat m.hub.toNat counter m.reqId.toNat body.length m.index.toNat m.sub.toNat
    st.code m.offset.toNat count

/-- A session replaced by its new state. -/
def Hub.setSession (c : Hub) (x : Session) : Hub := { c with sessions := c.sessions.map fun y : Session => if y.id = x.id then x else y }

/-- The session of a number. -/
def Hub.session (c : Hub) (id : Nat) : Option Session := c.sessions.find? fun x => x.id == id

/-- An answer in a session (R320, R328, R329): authenticated, numbered, kept for retransmission. A session whose counter has reached FFFFFFFFh
ends with it. -/
def Hub.answer (c : Hub) (kind : Nat) (m : FopMsg) (st : Status) (count : Nat) (body : Bytes) : Hub :=
  match c.session m.session.toNat with
  | none => c
  | some x =>
    let head := answerHead m kind (x.tx + 1) st count body
    let bytes := head ++ body ++ leBytes (hmacSha256 x.key (head ++ body)) 32
    let c := c.setSession { x with tx := x.tx + 1, answers := (⟨m.counter.toNat, m.reqId.toNat, bytes⟩ :: x.answers).take 16 }
    let c := c.deliver m.transport m.addr.toNat m.port.toNat (onBackground m) bytes
    c.when (x.tx + 1 == 0xFFFFFFFF || m.counter.toNat == 0xFFFFFFFF) fun c => c.endSessionsWhere fun y => y.id == x.id

/-- An unauthenticated answer (R322): COUNTER 0 and a TAG of zeros. -/
def Hub.answerBare (c : Hub) (kind : Nat) (m : FopMsg) (st : Status) : Hub :=
  let c := c.when (st == .sessionLimit || st == .noKey) fun c => c.count O.opensRefused
  c.deliver m.transport m.addr.toNat m.port.toNat (onBackground m) (answerHead m kind 0 st m.count.toNat [] ++ List.replicate 32 0)

end Sys2Proof.Machine
end

