-- ==== Sys2Proof/Machine/Update.lean ====
section
/-! DEFINITION. The commands of firmware update (R392–R409): the transfer, its verification, activation up to the start of the handover,
confirmation and ROM recovery. -/
namespace Sys2Proof.Machine

/-! ## Transfer (R392–R397) -/

/-- The slot an image is received into: the one that does not run; in ROM recovery the one that is not the boot slot, or A (R392, R409). -/
def Hub.receivingSlot (c : Hub) : Nat := if c.inRom then (if c.get O.bootSlot = 0 then 1 else 0) else c.otherSlot

/-- STATE of an image slot changes, with CHANGED (9001h.00). -/
def Hub.slotTo (c : Hub) (s state : Nat) : Hub := (c.put (O.slotInfoState s) state).put (O.slotInfoChanged s) (c.get O.rtcSeconds)

/-- The digest of a slot is cleared (R428). -/
def Hub.clearDigest (c : Hub) (s : Nat) : Hub := (c.put (H.digest s) 0).put (H.digestHeld s) 0

/-- A deferred activation is cancelled (R392, R399, R400). -/
def Hub.cancelDeferred (c : Hub) : Hub := if c.get O.activationState = 1 then ((c.put O.activationState 0).put O.activate 0).put O.refusal c.activationRefusal else c

/-- The answer that a programmed block waited with (R393): to the completing SEGMENT, or to the command that wrote it. A session that has ended
gets none (R330). -/
def Hub.answerBlock (c : Hub) (st : Status) : Hub :=
  match c.blockWait with
  | [] => c.emit (.status st)
  | w :: rest =>
    (({ c with blockWait := rest } : Hub).when (w.transport == .mailbox) fun c => c.put H.reqBusy 0).answer 5 w st w.count.toNat []

/-- The transfer closes (R396). The write of a block that is still being programmed is answered BUSY, and its bit is gone with the others (DESIGN
CHOICE, notes/assumptions/54.md). A settings record that was not verified is none. -/
def Hub.closeTransfer (c : Hub) : Hub :=
  let c := c.when (c.get H.programming != 0) fun c => c.answerBlock .busy
  let c := c.when (c.get H.transferTarget == 2 && c.get O.transferState != 0 && c.get O.transferState != 4) fun c =>
    c.clearRecord (c.get H.transferSlot)
  let c := (((c.put O.transferState 0).put O.blocksTotal 0).put O.transferId 0).put H.programming 0
  (c.each (List.range 896) fun c k => c.put (O.bitmapByte k) 0).put H.transferTarget 0

/-- TRANSFER_OPEN written (R392, R397, R410): TARGET 02h only by an Owner; BUSY in activation states 02h to 06h whatever is open. -/
def Hub.writeTransferOpen (c : Hub) (lvl : Level) (target size ident : Nat) : Status × Hub :=
  let st := c.get O.transferState
  if target ≠ 1 ∧ target ≠ 2 then (.invalidValue, c)
  else if target = 2 ∧ lvl ≠ .owner then (.access, c)
  else if 2 ≤ c.get O.activationState ∧ c.get O.activationState ≤ 6 then (.busy, c)
  else if st ≠ 0 ∧ c.get H.transferTarget = target ∧ c.get H.transferSize = size ∧ c.get O.transferId = ident then (.ok, c)
  else if st = 1 ∨ st = 3 then (.busy, c)
  else if c.flag O.updateLock = true ∨ 1 < c.get O.activationState then (.busy, c)
  else if target = 1 ∧ (size % 4096 ≠ 0 ∨ size < 16384 ∨ 29360128 < size) then (.invalidValue, c)
  else if target = 2 ∧ (size < 32 ∨ 1048576 < size) then (.invalidValue, c)
  else
    let slot := if target = 1 then c.receivingSlot else c.saveTarget
    let c := (((c.closeTransfer.put O.transferState 1).put H.transferTarget target).put H.transferSize size).put H.transferSlot slot
    let c := ((c.put O.transferId ident).put O.blocksTotal (ceilDiv size 4096)).put O.verifyResult 0
    let c := if target = 1 then
        ((((c.slotTo slot 1).put (O.slotInfoSize slot) size).put (O.slotInfoTransferId slot) ident)).clearDigest slot
      else (c.clearRecord slot).takeSlot slot
    (.ok, c.cancelDeferred)

/-- The open transfer, or none, is the same before and after a command. -/
def Hub.sameTransfer (c d : Hub) : Bool :=
  (c.get O.transferState == 0) == (d.get O.transferState == 0) && c.get H.transferTarget == d.get H.transferTarget
    && c.get H.transferSize == d.get H.transferSize && c.get O.transferId == d.get O.transferId

/-- A transfer of a settings record that opens, ends or gives way to another leaves no bytes in a slot that reads free (R392, R397): what was not
verified becomes no record at the next start-up. Where it took the slot of the next save, another stands erased for that (R424). -/
def Hub.transferFlash (c d : Hub) (m : Mems) : Hub × Mems :=
  if c.sameTransfer d then (d, m)
  else d.eraseAhead ([0, 1, 2, 3].foldl (fun m k => if d.get (O.recordState k) = 0 then m.eraseFlash (recordBase k) 0x100000 else m) m)

/-- TRANSFER_OPEN: Engineer or Owner. -/
def execTransferOpen (lvl : Level) (target : BitVec 8) (size : BitVec 32) (ident : BitVec 64) (s : State) :
    Host.Outcome State Fault Refusal :=
  onUpdate (.transferOpen lvl target size ident) s fun c m =>
    c.transferFlash (c.requestRom lvl [.ro, .ro, .wo, .wo] fun c => c.writeTransferOpen lvl target.toNat size.toNat ident.toNat) m

/-- The settings record that a verified transfer brought is protected by an activation (R406): nothing overwrites it. -/
def Hub.transferProtected (c : Hub) : Bool := c.get H.transferTarget == 2 && c.get (O.recordState (c.get H.transferSlot)) == 3

/-- TRANSFER_ABORT written (R392): the receiving slot reads STATE 00h, but a protected record stands (R406). -/
def Hub.writeTransferAbort (c : Hub) (value : Bool) : Status × Hub :=
  if value = false ∨ c.get O.transferState = 0 then (.ok, c)
  else
    let slot := c.get H.transferSlot
    let c := if c.get H.transferTarget = 1 then c.slotTo slot 0 else if c.transferProtected then c else c.clearRecord slot
    (.ok, c.closeTransfer.activationCheck)

/-- TRANSFER_ABORT: Engineer or Owner. -/
def execTransferAbort (lvl : Level) (value : Bool) (s : State) : Host.Outcome State Fault Refusal :=
  onUpdate (.transferAbort lvl value) s fun c m =>
    c.transferFlash (c.requestRom lvl [.ro, .ro, .wo, .wo] fun c => c.writeTransferAbort value) m

/-- The block that was programmed has its bitmap bit set, and a transfer with every bit set is complete (R393, R396). -/
def Hub.blockDone (c : Hub) : Hub :=
  let k := c.get H.programming - 1
  let c := (c.put (O.bitmapByte (k / 8)) (withBit (c.get (O.bitmapByte (k / 8))) (k % 8) true)).put H.programming 0
  let all := (List.range (c.get O.blocksTotal)).all fun b => bit (c.get (O.bitmapByte (b / 8))) (b % 8)
  if c.get O.transferState = 1 ∧ all = true then c.put O.transferState 2 else c

/-- The block under way is programmed and read back, and the write is answered (R393). -/
def Hub.blockProgrammed (c : Hub) : Hub := if c.get H.programming = 0 then c else c.blockDone.answerBlock .ok

/-- A sound block goes into the flash: its sector is erased and programmed (R393, R396, R428). -/
def Hub.putBlock (c : Hub) (m : Mems) (k : Nat) (data : Bytes) : Hub × Mems :=
  let a := c.transferBase + 4096 * k
  let slot := c.get H.transferSlot
  let c := c.when (c.get H.transferTarget == 1) fun c => (c.clearDigest slot).when (c.get (O.slotInfoState slot) != 1) fun c => c.slotTo slot 1
  let c := c.when (c.get H.transferTarget == 2) fun c => c.clearRecord slot
  let c := c.when (decide (4 ≤ c.get O.transferState)) fun c => c.put O.transferState 2
  ((c.put H.programming (k + 1)).activationCheck, (m.eraseFlash a 4096).writeFlash a data)

/-- Entries of IMAGE_BLOCKS in ascending order, each whole before the next. -/
def Hub.putBlocks : Nat → List Bytes → Hub → Mems → Hub × Mems
  | _, [], c, m => (c, m)
  | k, d :: rest, c, m =>
    let r := (if c.get H.programming = 0 then c else c.blockDone).putBlock m k d
    Hub.putBlocks (k + 1) rest r.1 r.2

/-- Entries of IMAGE_BLOCKS written (R393): DATA with its CRC. A block written while another is programmed comes after it; the write is answered
when IMAGE_BLOCK_PROGRAMMED follows. BUSY while the record that the transfer brought is protected (R406; DESIGN CHOICE, notes/assumptions/92.md). -/
def Hub.writeBlocks (c : Hub) (m : Mems) (k : Nat) (xs : List (Bytes × Nat)) : Status × Hub × Mems :=
  if c.get O.transferState = 3 ∨ c.transferProtected = true then (.busy, c, m)
  else if xs.any (fun x => crc32c x.1 != x.2) then (.invalidValue, c.count O.blockCrcErrors (xs.filter fun x => crc32c x.1 != x.2).length, m)
  else (.ok, Hub.putBlocks k (xs.map Prod.fst) c.blockProgrammed m)

/-- The range of a write of one block (R316). -/
def Hub.blockFits (c : Hub) (k : Nat) (data : Bytes) : Status :=
  if c.get O.transferState = 0 ∨ c.get O.blocksTotal ≤ k then .range else if data.length ≠ 4096 then .length else .ok

/-- IMAGE_BLOCK_WRITE: Engineer or Owner. A sound block is answered when it is programmed. -/
def execImageBlockWrite (lvl : Level) (block : Nat) (data : Bytes) (crc : BitVec 32) (s : State) : Host.Outcome State Fault Refusal :=
  onUpdate (.imageBlockWrite lvl block data crc) s fun c m =>
    if (rightOf engineerWrites lvl).writes = false then (c.emit (.status .access), m)
    else if c.blockFits block data ≠ .ok then (c.emit (.status (c.blockFits block data)), m)
    else
      let r := c.writeBlocks m block [(data, crc.toNat)]
      if r.1 = .ok then r.2 else (r.2.1.emit (.status r.1), r.2.2)

/-- IMAGE_BLOCK_PROGRAMMED (R393). -/
def execImageBlockProgrammed (s : State) : Host.Outcome State Fault Refusal :=
  onDomainsAll s fun c m => c.recorded (c.blockProgrammed, m)

/-! ## Verification (R396–R398) -/

/-- VERIFY written (R396, R410). -/
def Hub.writeVerify (c : Hub) (value : Bool) : Status × Hub :=
  let st := c.get O.transferState
  if !value then (.ok, c)
  else if 2 ≤ c.get O.activationState then (.busy, c)
  else if st = 2 ∨ st = 4 ∨ st = 5 then (.ok, c.put O.transferState 3)
  else (.busy, c)

/-- VERIFY: Engineer or Owner. -/
def execVerify (lvl : Level) (value : Bool) (s : State) : Host.Outcome State Fault Refusal :=
  onUpdate (.verify lvl value) s fun c m => (c.requestRom lvl [.ro, .ro, .wo, .wo] fun c => c.writeVerify value, m)

/-- The key slots of image verification are read at use (R343, R363). -/
def Hub.useImageKeys (c : Hub) : Hub := c.each ((List.range 64).filter fun s => bit (c.get (O.keySlotEngines s)) imageEngine) Hub.usedSlot

/-- Verification of a received image ends (R398, R409, R428). -/
def Hub.imageVerified (c : Hub) (m : Mems) : Hub :=
  let s := c.get H.transferSlot
  let r := c.verifyImage m (slotBase s) (c.get H.transferSize) (if c.inRom then [1, 2, 3, 4, 5, 6, 7, 8] else [1, 2, 3, 4, 5, 6, 7, 8, 9])
  let c := c.put O.verifyResult r
  if r = 1 then ((((c.showImage m s).slotTo s 3).put O.transferState 4).storeDigest m s).activationCheck
  else (((c.slotTo s 7).put O.transferState 5).updateRefused r).activationCheck

/-- VERIFY_RESULT of a settings record (R397): MAGIC, LENGTH, CRC, FORMAT. For a wrong CRC the table of R398 has no code: a free value. -/
def Hub.recordResult (c : Hub) (m : Mems) (b size : Nat) : Nat :=
  let n := m.flashNat (b + 12) 4
  let f := m.flashNat (b + 4) 2
  if m.readFlash b 4 ≠ [0x45, 0x50, 0x58, 0x53] then 3
  else if n + 32 ≠ size then 0xA
  else if crc32c (m.readFlash b 24 ++ m.readFlash (b + 32) n) ≠ m.flashNat (b + 24) 4 then c.draw.1 % 256
  else if f < m.convertFrom (slotBase (c.get O.runningSlot)) ∨ c.get O.settingsFormat < f then 9
  else 1

/-- A settings record is sound (R397). -/
def Hub.recordPasses (c : Hub) (m : Mems) (b size : Nat) : Bool :=
  let n := m.flashNat (b + 12) 4
  m.readFlash b 4 == [0x45, 0x50, 0x58, 0x53] && n + 32 == size
    && crc32c (m.readFlash b 24 ++ m.readFlash (b + 32) n) == m.flashNat (b + 24) 4 && c.recordResult m b size == 1

/-- Verification of a received settings record ends (R397): one that passes gets a SEQ above every other record. A record that an activation has protected
since stands as it is (R406). -/
def Hub.recordVerified (c : Hub) (m : Mems) : Hub × Mems :=
  let k := c.get H.transferSlot
  let b := recordBase k
  let size := c.get H.transferSize
  let pass := c.recordPasses m b size
  let c := (c.draw.2).put O.verifyResult (c.recordResult m b size)
  if c.transferProtected then
    (if pass then c.put O.transferState 4 else (c.put O.transferState 5).updateRefused (c.get O.verifyResult), m)
  else if pass then
    let body := m.readFlash (b + 32) (m.flashNat (b + 12) 4)
    let m := m.writeFlash b (recordHeader (m.flashNat (b + 4) 2) c.nextSeq (m.flashNat (b + 16) 8) body)
    ((c.scanRecord m k).put O.transferState 4).eraseAhead m
  else ((((c.put (O.recordState k) 2).put O.transferState 5).updateRefused (c.get O.verifyResult)), m)

/-- VERIFY_DONE (R397, R398). -/
def execVerifyDone (s : State) : Host.Outcome State Fault Refusal :=
  onDomainsAll s fun c m =>
    if c.get O.transferState ≠ 3 then (c, m)
    else if c.get H.transferTarget = 1 then c.recorded (c.useImageKeys.imageVerified m, m)
    else c.recorded (c.recordVerified m)

/-! ## Activation (R399–R401) -/

/-- An activation starts (R396, R401): loading, and the transfer of an image closes. -/
def Hub.startActivation (c : Hub) (deferred : Bool) : Hub :=
  let c := (((c.put O.activationState 2).put O.activate (if deferred then 2 else 0)).put O.refusal 0).putB H.deferred deferred
  if c.get H.transferTarget = 1 ∧ c.get O.transferState ≠ 0 then c.closeTransfer else c

/-- ACTIVATE written (R399). -/
def Hub.writeActivate (c : Hub) (v : Nat) : Status × Hub :=
  if v = 0 ∨ 3 < v then (.invalidValue, c)
  else if v = 3 then (.ok, c.cancelDeferred)
  else if c.get O.activationState ≠ 0 then (.busy, c)
  else if v = 2 then (.ok, ((c.put O.activationState 1).put O.activate 2).put O.refusal c.activationRefusal)
  else if c.activationRefusal ≠ 0 then (.busy, (c.put O.refusal c.activationRefusal).updateRefused (0x100 + c.activationRefusal))
  else (.ok, c.startActivation false)

/-- ACTIVATE_NOW: Owner. -/
def execActivateNow (lvl : Level) (s : State) : Host.Outcome State Fault Refusal :=
  onUpdate (.activateNow lvl) s fun c m => (c.requestRom lvl ownerWrites fun c => c.writeActivate 1, m)
/-- ACTIVATE_DEFERRED: Owner. -/
def execActivateDeferred (lvl : Level) (s : State) : Host.Outcome State Fault Refusal :=
  onWrite (.activateDeferred lvl) s fun c => c.requestRom lvl ownerWrites fun c => c.writeActivate 2
/-- ACTIVATE_CANCEL: Owner. -/
def execActivateCancel (lvl : Level) (s : State) : Host.Outcome State Fault Refusal :=
  onWrite (.activateCancel lvl) s fun c => c.requestRom lvl ownerWrites fun c => c.writeActivate 3

/-- ACTIVATION_START (R400): every condition of a deferred activation holds. -/
def execActivationStart (s : State) : Host.Outcome State Fault Refusal :=
  onDomainsAll s fun c m => if c.get O.activationState = 1 ∧ c.activationRefusal = 0 then c.recorded (c.startActivation true, m) else (c, m)

/-- LINE_RUN_CHANGE (R400, R401): the level after its filter; its fall starts the 1 ms. -/
def execLineRunChange (level : Bool) (s : State) : Host.Outcome State Fault Refusal :=
  onHub s fun c =>
    let fell := c.flag O.lineRun && !level
    ((c.putB O.lineRun level).when fell fun c => c.put H.lineLowAt c.now).activationCheck

/-- UPDATE_LOCK written (R400): true cancels a deferred activation, whose REFUSAL reads 01h, and stops one that prepares. -/
def Hub.writeUpdateLock (c : Hub) (value : Bool) : Status × Hub :=
  let c := c.putB O.updateLock value
  (.ok, if value = true ∧ c.get O.activationState = 1 then c.cancelDeferred.put O.refusal 1 else c.activationCheck)

/-- UPDATE_LOCK_WRITE: Owner. -/
def execUpdateLockWrite (lvl : Level) (value : Bool) (s : State) : Host.Outcome State Fault Refusal :=
  onWrite (.updateLockWrite lvl value) s fun c => c.requestRom lvl ownerWrites fun c => c.writeUpdateLock value

/-- A check or self-test failed on the standby pair (R401): the slot is invalid, and the activation stops; a deferred one then waits
for another image (R400). -/
def Hub.activationFails (c : Hub) (result : Nat) : Hub :=
  ((((c.put O.verifyResult result).slotTo c.otherSlot 7).updateRefused result).stopActivation 0).activationCheck

/-- LOADING_DONE (R401): the checks 2 to 9 on the copy in the standby pair's memory. -/
def execLoadingDone (s : State) : Host.Outcome State Fault Refusal :=
  onDomainsAll s fun c m =>
    if c.get O.activationState ≠ 2 then (c, m)
    else
      let c := c.useImageKeys
      let b := slotBase c.otherSlot
      let r := c.verifyImage m b (c.get (O.slotInfoSize c.otherSlot)) [2, 3, 4, 5, 6, 7, 8, 9]
      if r = 1 then ((c.put O.activationState 3).put O.verifyResult 1, m) else (c.activationFails r, m)

/-- Preparation (R406): the newest record that the old image reads is protected, and converted into a free slot where the formats differ. -/
def Hub.prepareRecords (c : Hub) (m : Mems) : Hub × Mems :=
  let old := slotBase (c.get O.runningSlot)
  let new := slotBase c.otherSlot
  let (c, m) := c.eraseGone m
  let c := match c.readable m old with | some k => c.put (O.recordState k) 3 | none => c
  if m.imageFormat old = m.imageFormat new then (c, m)
  else match c.readable m new with
    | none => (c, m)
    | some k =>
      let t := c.saveTarget
      (c.put H.convertedRecord t).putRecord m t (m.imageFormat new) c.nextSeq (m.readFlash (recordBase k + 32) (c.get (O.recordLength k)))

/-- The hub waits for its handover (R130, R131, R401): the Cox marks its next plan HOLD, another hub sets handover pending in its REPORT. -/
def Hub.awaitHandover (c : Hub) : Hub :=
  let c := (c.put O.activationState 4).put H.handoverAsked 0
  if c.isCox then c.put H.holdMark 1 else c.put H.reportFlags (withBit (c.get H.reportFlags) 2 true)

/-- PREPARING_DONE (R401): settings converted and self-tests run. For a failed self-test the spec names no VERIFY_RESULT: a free value. -/
def execPreparingDone (selfTestsPass : Bool) (s : State) : Host.Outcome State Fault Refusal :=
  onDomainsAll s fun c m =>
    if c.get O.activationState ≠ 3 then (c, m)
    else if selfTestsPass then
      let r := c.prepareRecords m
      let r := r.1.eraseAhead r.2
      (r.1.awaitHandover, r.2)
    else (c.draw.2.activationFails (c.draw.1 % 256), m)

/-- The plans allow the handover (R130, R131): the Cox's HOLD plan is out; a Member's pending has been reported, and the first plan computed after
it has taken effect; a hub in no tree starts at once. -/
def Hub.handoverMayStart (c : Hub) : Bool :=
  if c.isCox then c.get H.holdMark == 2
  else if c.treeIs 2 then c.get H.handoverAsked != 0 && decide (c.get H.handoverAsked + 1 ≤ c.get O.planInForce)
  else true

/-- A Crew or Oar in a handover applies no plan, and a Member's PLAN_STATE reads 05h (R131). -/
def Hub.freezePlans (c : Hub) : Hub :=
  c.when (!c.isCox) fun c => (c.put H.handover 1).when (c.treeIs 2) fun c => c.put O.planState 5

/-- The active pair takes no new work, and writes its state into the handover area (R402). -/
def Hub.beginHandover (c : Hub) (m : Mems) (state : Nat) : Hub :=
  ({ c with handoverArea := c.handoverRecords m } : Hub).put O.activationState state |>.freezePlans

/-- HANDOVER_START (R402). -/
def execHandoverStart (s : State) : Host.Outcome State Fault Refusal :=
  onDomainsAll s fun c m => (if c.get O.activationState = 4 ∧ c.handoverMayStart = true then c.beginHandover m 5 else c, m)

/-! ## Confirmation (R403, R404) -/

/-- The confirmation window is open. -/
def Hub.confirming (c : Hub) : Bool := c.get O.activationState == 6

/-- ROLLBACK fuses blown up to a SECURITY_VERSION (R403, R409). -/
def Hub.advanceRollback (c : Hub) (v : Nat) : Hub := c.when (c.flag O.rollbackAuto && decide (c.get O.rollback < v)) fun c => c.put O.rollback v

/-- CONFIRM written (R403): outside the window there is nothing to confirm. -/
def Hub.writeConfirm (c : Hub) (m : Mems) (value : Bool) : Status × Hub :=
  if !value || !c.confirming || decide (c.get H.confirmEnd ≤ c.now) then (.ok, c)
  else
    let s := c.get O.runningSlot
    let c := ((c.put O.bootSlot s).slotTo s 4).slotTo (1 - s) 2
    let c := (List.range 4).foldl (fun (c : Hub) k => if c.get (O.recordState k) = 3 then c.put (O.recordState k) 1 else c) c
    let c := (c.put H.convertedRecord 255).advanceRollback (m.securityVersion (slotBase s))
    (.ok, (((c.put O.activationState 0).put O.activate 0).put H.confirmEnd 0).put H.noHandback 0)

/-- CONFIRM: Engineer or Owner. -/
def execConfirm (lvl : Level) (value : Bool) (s : State) : Host.Outcome State Fault Refusal :=
  onUpdate (.confirm lvl value) s fun c m => (c.requestRom lvl engineerWrites fun c => c.writeConfirm m value, m)

/-- The hand-back begins: R402 from the new pair to the old one (R404). -/
def Hub.startHandback (c : Hub) (m : Mems) : Hub := c.beginHandover m 7

/-- REVERT written (R404): no hand-back is possible once the standby pair has been isolated in the window. -/
def Hub.writeRevert (c : Hub) (m : Mems) (value : Bool) : Status × Hub :=
  if !value || !c.confirming then (.ok, c) else if c.flag H.noHandback then (.busy, c) else (.ok, c.startHandback m)

/-- REVERT: Owner. -/
def execRevert (lvl : Level) (value : Bool) (s : State) : Host.Outcome State Fault Refusal :=
  onWriteAll (.revert lvl value) s fun c m => (c.requestRom lvl ownerWrites fun c => c.writeRevert m value, m)

/-- CONFIRM_WINDOW_EXPIRY (R404): a hand-back, or a fatal reset that names UPDATE_HANDBACK. -/
def execConfirmWindowExpiry (s : State) : Host.Outcome State Fault Refusal :=
  onDomainsAll s fun c m =>
    if !c.confirming then (c, m)
    else
      let c := c.advanceTo (c.get H.confirmEnd)
      (if c.flag H.noHandback then c.fatalReset 89 255 0 else c.startHandback m, m)

/-! ## ROM recovery (R408, R409) -/

/-- RECOVERY_REQUEST written (R408): the hub resets after the response. -/
def Hub.writeRecovery (c : Hub) (value : Bool) : Status × Hub :=
  if !value then (.ok, c)
  else if c.flag O.updateLock || c.flag O.lineRun then (.busy, c)
  else (.ok, (c.put H.recoveryDue 1).put H.resetDue 1)

/-- RECOVERY_REQUEST: Owner. -/
def execRecoveryRequest (lvl : Level) (value : Bool) (s : State) : Host.Outcome State Fault Refusal :=
  onWrite (.recoveryRequest lvl value) s fun c => (c.requestRom lvl [.ro, .ro, .ro, .wo] fun c => c.writeRecovery value).afterResponse

/-- ROM_BOOT written (R409): there in ROM recovery only. -/
def Hub.writeRomBoot (c : Hub) (m : Mems) (value : Bool) : Status × Hub :=
  let s := c.receivingSlot
  if !value then (.ok, c)
  else if c.get O.role = 3 ∨ c.get (O.slotInfoState s) ≠ 3 then (.busy, c)
  else (.ok, ((c.put O.bootSlot s).advanceRollback (m.securityVersion (slotBase s))).put H.resetDue 1)

/-- ROM_BOOT: Owner. -/
def execRomBoot (lvl : Level) (value : Bool) (s : State) : Host.Outcome State Fault Refusal :=
  onUpdate (.romBoot lvl value) s fun c m =>
    (((if c.inRom then c.requestRom lvl [.ro, .ro, .ro, .wo] fun c => c.writeRomBoot m value else c.emit (.status .noObject))).afterResponse, m)

end Sys2Proof.Machine
end

