-- ==== Sys2Proof/Machine/Access.lean ====
section
/-! DEFINITION. The dictionary as it is written (R316, R317, R322, R459): the checks of a write in their order, the rules of the objects that have
one, and the write of any scalar or run of table entries. FOP, the rigger bridge's object windows and OBJECT_WRITE go through it. -/
namespace Sys2Proof.Machine

/-- Who writes an object: the level, the session (0 for none) and the transport. -/
structure Writer where
  level : Level
  session : Nat
  transport : Transport
  deriving DecidableEq, Repr

/-! ## Subscriptions (R331) -/

/-- A subscription's target: a scalar that exists and is readable at the level. -/
def Hub.subscribable (c : Hub) (lvl : Level) (index sub : Nat) : Bool :=
  match c.object index sub with
  | some (r, _) => r.ty != .table && (rightOf r.acc lvl).reads
  | none => false

/-- The session may write an entry of NOTIFY_TABLE: a free one or its own; an Owner session any. -/
def Hub.entryOpen (c : Hub) (lvl : Level) (session e : Nat) : Bool :=
  lvl == .owner || c.get (O.notifySession e) == 0 || c.get (O.notifySession e) == session

/-- A subscription as written may stand: it names the session itself (an Owner: any session that is open), a scalar readable at that session's
level, a listed MODE, and a PERIOD in range. -/
def Hub.subscriptionOk (c : Hub) (lvl : Level) (session : Nat) (v : NotifyEntry) : Bool :=
  match c.session v.session.toNat with
  | none => false
  | some x => (lvl == .owner || v.session.toNat == session) && decide (v.mode.toNat ≤ 3) && decide (10 ≤ v.period.toNat ∧ v.period.toNat ≤ 3600000)
      && c.subscribable x.level v.index.toNat v.sub.toNat

/-- MODE and PERIOD of an entry hold a listed value and one in range, or the 0 of a free entry. -/
def notifyListed (v : NotifyEntry) : Bool :=
  decide (v.mode.toNat ≤ 3) && (v.period == 0 || decide (10 ≤ v.period.toNat ∧ v.period.toNat ≤ 3600000))

/-- NOTIFY_TABLE written at an entry (R331). SESSION 0 frees it; a subscription starts with no value sent, so the first check sends one (DEDUCED,
notes/assumptions/82.md). SENT is the hub's own (R316). A MODE that is not listed and a PERIOD out of range are refused with SESSION 0 too (R7, R10), but
for the 0 that a free entry reads; the object it names is not looked at then (DESIGN CHOICE, notes/assumptions/91.md). -/
def Hub.writeNotify (c : Hub) (lvl : Level) (session e : Nat) (v : NotifyEntry) : Status × Hub :=
  if !c.entryOpen lvl session e then (.invalidValue, c)
  else if v.session = 0 then
    if !notifyListed v then (.invalidValue, c) else
    (.ok, ([O.notifySession e, O.notifyIndex e, O.notifySub e, O.notifyMode e, O.notifyPeriod e, O.notifySent e].foldl (fun c o => c.put o 0) c))
  else if !c.subscriptionOk lvl session v then (.invalidValue, c)
  else
    let c := (((c.put (O.notifySession e) v.session.toNat).put (O.notifyIndex e) v.index.toNat).put (O.notifySub e) v.sub.toNat).put
      (O.notifyMode e) v.mode.toNat
    (.ok, ((c.put (O.notifyPeriod e) v.period.toNat).put (H.notifyAny e) 0).put (H.notifyAt e) c.now)

/-! ## Rules of scalars -/

/-- The registers of an object, at a repeat number, set to 0. -/
def Hub.zero (c : Hub) (n obj : Nat) : Hub :=
  match rowOf obj with | some r => c.put (r.scalarObj n 0) 0 | none => c

/-- An object whose description names true as the value to write (R459). -/
def clearing (v : Nat) (c cleared : Hub) : Status × Hub := if v = 1 then (.ok, cleared) else (.invalidValue, c)

/-- The error counters of a lane cleared (2400h.12). -/
def Hub.clearLane (c : Hub) (n : Nat) : Hub :=
  let c := c.each [0x240003, 0x240004, 0x24000B, 0x24000C, 0x24000D, 0x24000E, 0x24000F, 0x240010, 0x240011] fun c o => c.zero n o
  c.chkStart (n / 4) (n % 4)

/-- The energies and counts of a port cleared (3104h.07). -/
def Hub.clearMeter (c : Hub) (n : Nat) : Hub :=
  (c.each [0x310401, 0x310402, 0x310403, 0x310404, 0x310405, 0x310406, 0x310306, 0x310307] fun c o => c.zero n o).each [0, 1] fun c k => c.put (H.energyNj n k) 0

/-- The range of a sag threshold (R421). -/
def sagRange (k : Nat) : Nat × Nat :=
  match k with | 0 => (40000, 47000) | 1 => (36000, 46000) | 2 => (32000, 45000) | 3 => (26000, 44000) | _ => (20000, 40000)

/-- SAG_ENTER_MV of a stage written (R421): in its range, and at least 1,000 mV from the stages before and after it. -/
def Hub.writeSagEnter (c : Hub) (k v : Nat) : Status × Hub :=
  let below := k = 0 ∨ v + 1000 ≤ c.get (O.sagEnterMv (k - 1))
  let above := k = 4 ∨ c.get (O.sagEnterMv (k + 1)) + 1000 ≤ v
  if (sagRange k).1 ≤ v ∧ v ≤ (sagRange k).2 ∧ below ∧ above then (.ok, c.put (O.sagEnterMv k) v) else (.invalidValue, c)

/-- FEED_QUAL_MV written (R248): in range, and FEED_LOST_MV at least 500 mV below it. -/
def Hub.writeFeedQual (c : Hub) (v : Nat) : Status × Hub :=
  if 36000 ≤ v ∧ v ≤ 52000 ∧ c.get O.feedLostMv + 500 ≤ v then (.ok, c.put O.feedQualMv v) else (.invalidValue, c)

/-- FEED_LOST_MV written, by the same rule. -/
def Hub.writeFeedLost (c : Hub) (v : Nat) : Status × Hub :=
  if 24000 ≤ v ∧ v ≤ 51500 ∧ v + 500 ≤ c.get O.feedQualMv then (.ok, c.put O.feedLostMv v) else (.invalidValue, c)

/-- ACCESS_KEY_SLOT of a level written (R330, 1101h.01–04): a slot whose key serves FOP authentication; the level's sessions end after the
response. -/
def Hub.writeAccessSlot (c : Hub) (k v : Nat) : Status × Hub :=
  if 63 < v ∨ bit (c.get (O.keySlotEngines v)) 3 = false then (.invalidValue, c)
  else (.ok, (c.put (O.accessKeySlot k) v).put H.endLevels (withBit (c.get H.endLevels) k true))

/-- SESSION_CLOSE written (R330): the session itself, or, by an Owner, any session; it ends after the response. -/
def Hub.writeClose (c : Hub) (w : Writer) (v : Nat) : Status × Hub :=
  if (c.session v).isSome && (v == w.session || w.level == .owner) then (.ok, c.put H.endSession v) else (.invalidValue, c)

/-- FET_TEMP_WARN written (3102h.0B): 50.0 °C to FET_TEMP_LIMIT. -/
def Hub.writeFetWarn (c : Hub) (p v : Nat) : Status × Hub :=
  if 500 ≤ v ∧ (v : Int) ≤ c.getI (O.fetTempLimit p) then (.ok, c.put (O.fetTempWarn p) v) else (.invalidValue, c)

/-- The special scalars of the link ports and their lanes (2000h–2400h). -/
def Hub.writeLinkScalar (c : Hub) (obj n k v : Nat) : Option (Status × Hub) :=
  let b := v != 0
  match obj with
  | 0x200008 => some (c.writeRetrainRequest n b)
  | 0x200101 => some (c.writeCreditLimit n k v)
  | 0x20030F => some (clearing v c (c.each (List.range 14) fun c i => c.zero n (0x200301 + i)))
  | 0x200401 => some (.ok, c.putB (O.cryptEnable n) b)
  | 0x200601 => some (c.writeLinkEnable n b)
  | 0x200602 => some (c.writeGearMax n v)
  | 0x200606 => some (c.writeLaneUse n v)
  | 0x20060B => some (c.writeReadyHold n b)
  | 0x200701 => some (c.writeTestMode n v)
  | 0x240012 => some (clearing v c (c.clearLane n))
  | 0x240013 => some (c.writeInjectMode (n / 4) (n % 4) v)
  | 0x240017 => some (c.writeBitslip (n / 4) (n % 4) v)
  | 0x240018 => some (c.draw.2.writeCaptureAt (n / 4) (n % 4) v (c.draw.1 % 2 ^ 64))
  | _ => none

/-- The special scalars of attach, power and sleep (2800h–31FFh). -/
def Hub.writePowerScalar (c : Hub) (obj n k v : Nat) : Option (Status × Hub) :=
  match obj with
  | 0x280001 => some (c.writePolicy n v)
  | 0x28000D => some (c.writePortDisable n (v != 0))
  | 0x280201 => some (c.writeSource n .currentMax v)
  | 0x280202 => some (c.writeSource n .powerMax v)
  | 0x280203 => some (c.writeSource n .eprEnable v)
  | 0x280204 => some (c.writeSource n .pdoMask v)
  | 0x280602 => some (c.writeEpxEnable n (v != 0))
  | 0x280702 => some (c.writeSwap n v)
  | 0x280809 => some (clearing v c (c.each (List.range 8) fun c i => c.zero n (0x280801 + i)))
  | 0x300201 => some (c.writeFeedQual v)
  | 0x300203 => some (c.writeFeedLost v)
  | 0x301001 => some (c.writeSagEnter k v)
  | 0x302002 => some (c.writeSleepMax v)
  | 0x31010A => some (c.writeFaultClear n (v != 0))
  | 0x31020B => some (c.writeFetWarn n v)
  | 0x310407 => some (clearing v c (c.clearMeter n))
  | _ => none

/-- GENLOCK_HEAD written (6000h.08): another head. -/
def Hub.writeGenlockHead (c : Hub) (h v : Nat) : Status × Hub :=
  if v < 4 ∧ v ≠ h then (.ok, (c.put (O.genlockHead h) v).genlockRefresh) else (.invalidValue, c)

/-- The special scalars of the switch core, the PCIe port and the display heads (4100h–60FFh). -/
def Hub.writeCoreScalar (c : Hub) (obj n k v : Nat) : Option (Status × Hub) :=
  match obj with
  | 0x410201 => some (if h : k < 8 then c.writePool (.reserve ⟨k, h⟩) v else (.noObject, c))
  | 0x410301 => some (c.writePool .isoPool v)
  | 0x410401 => some (c.writePool .creditC0 v)
  | 0x410402 => some (c.writePool .creditC4 v)
  | 0x410403 => some (c.writePool .creditPcie v)
  | 0x410601 => some (c.writeSpillSize v)
  | 0x420002 => some (c.writeWindow v)
  | 0x502004 => some (c.writeRpHotReset (v != 0))
  | 0x600001 => some (c.writeHeadMode n v)
  | 0x600006 => some (c.writePairLock n (v != 0))
  | 0x600008 => some (c.writeGenlockHead n v)
  | 0x600301 => some (c.writeCommit n v)
  | 0x600802 => some (c.writeCapFormat n v)
  | _ => if 0x600101 ≤ obj ∧ obj ≤ 0x60010A then some (c.writeTiming n (obj - 0x600101) v) else none

/-- KEY_DERIVE as its 56 bytes give it (7004h.00). -/
def deriveOf (bs : Bytes) : DeriveRequest :=
  let byte : Nat → BitVec 8 := fun i => bs.getD i 0
  ⟨byte 0, byte 1, byte 2, byte 3, byte 4, (bs.drop 8).take 16, (bs.drop 24).take 32⟩

/-- The special scalars of keys, faults and update (7000h–90FFh) that reach no memory. -/
def Hub.writeGuardScalar (c : Hub) (w : Writer) (obj v : Nat) (bs : Bytes) : Option (Status × Hub) :=
  match obj with
  | 0x700003 => some (c.writeRootGenerate (v != 0))
  | 0x700200 => some (c.writeKeyLoad w.transport (v % 256) (v / 256 % 256) (leNat (bs.drop 4)))
  | 0x700300 => some (c.writeKeyErase v)
  | 0x700400 => some (c.writeKeyDerive (deriveOf bs))
  | 0x702001 => some (c.writeTamperConfig .enable v)
  | 0x702002 => some (c.writeTamperConfig .polarity v)
  | 0x702003 => some (c.writeTamperConfig .filter v)
  | 0x702009 => some (c.writeTamperClear (v != 0))
  | 0x703006 => some (c.writeFuse (v % 256) (v / 65536))
  | 0x800001 => some (c.writeStatus 0 v)
  | 0x800002 => some (c.writeStatus 1 v)
  | 0x800003 => some (c.writeStatus 2 v)
  | 0x800108 => some (c.writeFirstClear (v != 0))
  | 0x800403 => some (c.writeFaultNRelease (v != 0))
  | 0x800601 => some (c.writeDegraded v)
  | 0x900003 => some (c.writeUpdateLock (v != 0))
  | 0x900207 => some (c.writeVerify (v != 0))
  | 0x900401 => some (c.writeActivate v)
  | 0x900602 => some (c.writeRecovery (v != 0))
  | _ => none

/-- A special scalar written by its object's own rule. A session opens only by the message of R325, so SESSION_OPEN takes no other write. -/
def Hub.writeSpecial (c : Hub) (m : Mems) (w : Writer) (obj n k v : Nat) (bs : Bytes) : Status × Hub × Mems :=
  match obj with
  | 0x102001 => c.writeSave m (v != 0)
  | 0x102003 => c.writeRestore m (v != 0)
  | 0x900200 =>
    let r := c.writeTransferOpen w.level (v % 256) (leNat ((bs.drop 4).take 4)) (leNat (bs.drop 8))
    (r.1, c.transferFlash r.2 m)
  | 0x900202 => ((c.writeTransferAbort (v != 0)).1, c.transferFlash (c.writeTransferAbort (v != 0)).2 m)
  | 0x900404 => ((c.writeConfirm m (v != 0)).1, (c.writeConfirm m (v != 0)).2, m)
  | 0x900405 => ((c.writeRevert m (v != 0)).1, (c.writeRevert m (v != 0)).2, m)
  | 0x900603 => ((c.writeRomBoot m (v != 0)).1, (c.writeRomBoot m (v != 0)).2, m)
  | 0x110001 => (.invalidValue, c, m)
  | 0x110002 => ((c.writeClose w v).1, (c.writeClose w v).2, m)
  | 0x110101 => ((c.writeAccessSlot k v).1, (c.writeAccessSlot k v).2, m)
  | _ =>
    match (c.writeLinkScalar obj n k v).or ((c.writePowerScalar obj n k v).or ((c.writeCoreScalar obj n k v).or (c.writeGuardScalar w obj v bs))) with
    | some (st, c) => (st, c, m)
    | none => (.invalidValue, c, m)

/-! ## Any other scalar -/

/-- What comes before the write of an object without a rule of its own. -/
def Hub.beforeWrite (c : Hub) (obj n v was : Nat) : Hub :=
  match obj with
  | 0x200702 => c.testChanging n (v != was)
  | 0x200703 => c.testChanging n (v != was)
  | _ => c

/-- What follows the write of an object without a rule of its own, in the parts of the hub that follow the object. -/
def Hub.afterWrite (c : Hub) (obj n v was : Nat) : Hub :=
  match obj with
  | 0x200702 => c.testChanged n (v != was)
  | 0x200703 => c.testChanged n (v != was)
  | 0x200704 => c.noAttachWritten n
  | 0x280004 => c.when (c.isSource n && (c.get (O.contractState n) == 1 || c.get (O.contractState n) == 4)) fun c => c.put (O.contractI n) (c.rpCurrent n)
  | 0x310201 => c.thermalWritten n
  | 0x310202 => c.thermalWritten n
  | 0x310209 => c.showTemps n
  | 0x503001 => c.recompute
  | 0x600002 => c.recompute
  | 0x600003 => c.recompute
  | 0x600007 => c.genlockRefresh
  | 0x600009 => c.genlockRefresh
  | 0x500006 => if v = 0 then c.pcieLost.when (c.get H.pcieLink == 2) (fun c => c.raise 64) else c.when (c.flag H.perstHigh && c.get H.pcieLink == 0) fun c => c.put H.pcieLink 1
  | 0x504001 => c.when (v != 0) Hub.pumpRig
  | 0x900005 => c.activationCheck
  | 0x112001 => c.when (v != 0 && was == 0) fun c => c.put H.dadDue 3
  | 0x112103 => c.put H.dadDue (withBit (c.get H.dadDue) 1 true)
  | 0x112104 => c.put H.portWas was
  | _ => c

/-- A value that does not fit what another object holds: Clause 108 FEC belongs to 25GBASE-R alone (R264). FEC_MODE 02h is refused beside
MAC_MODE 02h or 03h, and so are those modes beside it (DESIGN CHOICE, notes/assumptions/89.md). -/
def Hub.misfits (c : Hub) (obj n v : Nat) : Bool :=
  (obj == 0x503002 && v == 2 && decide (2 ≤ c.get (O.macMode n))) || (obj == 0x503001 && decide (2 ≤ v) && c.get (O.fecMode n) == 2)

/-- A scalar without a rule of its own written (R317). -/
def Hub.writePlain (c : Hub) (r : Row) (n k v : Nat) : Status × Hub :=
  let was := c.get (r.scalarObj n k)
  if r.accepts v && !c.misfits r.obj n v then (.ok, ((c.beforeWrite r.obj n v was).put (r.scalarObj n k) (r.keeps v)).afterWrite r.obj n v was)
  else (.invalidValue, c)

/-- A whole scalar written. -/
def Hub.writeScalar (c : Hub) (m : Mems) (w : Writer) (r : Row) (n k : Nat) (bs : Bytes) : Status × Hub × Mems :=
  if r.ty = .bool ∧ 1 < leNat bs then (.invalidValue, c, m)
  else if r.chk = .special then c.writeSpecial m w r.obj n k (leNat bs) bs
  else ((c.writePlain r n k (leNat bs)).1, (c.writePlain r n k (leNat bs)).2, m)

/-! ## Entries of tables -/

/-- A little-endian field of an entry. -/
def fieldAt (bs : Bytes) (off n : Nat) : Nat := leNat ((bs.drop off).take n)

/-- A path-table entry as its 16 bytes give it (R60). -/
def pathEntryOf (bs : Bytes) : PathEntry :=
  let half : Nat → BitVec 16 := fun i => BitVec.ofNat 16 (fieldAt bs i 2)
  ⟨bs.getD 0 0, bs.getD 1 0, bs.getD 2 0, bs.getD 3 0, half 4, half 6, half 8, half 10, half 12⟩

/-- The entries of a run of bytes. -/
def entriesOf (size : Nat) : Nat → Bytes → List Bytes
  | 0, _ => []
  | n + 1, bs => bs.take size :: entriesOf size n (bs.drop size)

/-- A record of FIO_TX or FIO_RX as its 16 bytes give it. -/
def fioOf (rx : Bool) (bs : Bytes) : FioRecord :=
  let half : Nat → BitVec 16 := fun i => BitVec.ofNat 16 (fieldAt bs i 2)
  ⟨half 0, half 2, half 4, half 6, if rx then 0 else half 8, if rx then bs.getD 8 0 else 0, if rx then bs.getD 9 0 else 0⟩

/-- A ROUTES record as its 64 bytes give it (R72). -/
def routeOf (bs : Bytes) : RouteRequest :=
  let byte : Nat → BitVec 8 := fun i => bs.getD i 0
  ⟨byte 0, byte 1, byte 2, byte 4, byte 5, byte 6, byte 7, BitVec.ofNat 32 (fieldAt bs 8 4), BitVec.ofNat 16 (fieldAt bs 12 2),
    BitVec.ofNat 16 (fieldAt bs 50 2)⟩

/-- VID_MAP written at a VID: identifiers of tunnels, or FFFFh for none (4040h.03). -/
def Hub.writeVidMap (c : Hub) (mac vid prio bulk : Nat) : Status × Hub :=
  let ok : Nat → Bool := fun t => t == 0xFFFF || decide (t < 16384)
  if ok prio && ok bulk then (.ok, (c.put (O.vidMapPrio mac vid) prio).put (O.vidMapBulk mac vid) bulk) else (.invalidValue, c)

/-- ACYC_RX written at a slot: STATE 00h frees it (4053h.00). -/
def Hub.writeAcycRx (c : Hub) (k state : Nat) : Status × Hub :=
  if state = 0 then (.ok, c.put (O.acycRxState k) 0) else (.invalidValue, c)

/-- HIST_CONFIG written at a queue: shifts 0–16, SAMPLE_EVERY at least 1; DELAY_MAX takes only the 0 that restarts it (4260h.00, R459). -/
def Hub.writeHistConfig (c : Hub) (q depth delay every top : Nat) : Status × Hub :=
  if 16 < depth ∨ 16 < delay ∨ every = 0 ∨ top ≠ 0 then (.invalidValue, c)
  else (.ok, (((c.put (O.histCfgDepthShift q) depth).put (O.histCfgDelayShift q) delay).put (O.histCfgSampleEvery q) every).put (O.histCfgDelayMax q) top)

/-- INITIATOR_WINDOWS written at an entry (5042h.00): BAR4_OFFSET on a 1 MiB boundary, WINDOW 0–31. -/
def Hub.writeInitWindow (c : Hub) (e : Nat) (bs : Bytes) : Status × Hub :=
  if fieldAt bs 0 8 % 0x100000 ≠ 0 ∨ 31 < fieldAt bs 13 1 then (.invalidValue, c)
  else
    let c := ((c.put (O.initWinBar4Offset e) (fieldAt bs 0 8)).put (O.initWinSize e) (fieldAt bs 8 4)).put (O.initWinHub e) (fieldAt bs 12 1)
    (.ok, ((c.put (O.initWinWindow e) (fieldAt bs 13 1)).put (O.initWinFlags e) (fieldAt bs 14 1 % 2)).put (O.initWinTargetOffset e) (fieldAt bs 16 8))

/-- ERR_LOG written at an entry: KIND 0 frees it (5045h.00). -/
def Hub.freeErr (c : Hub) (e kind : Nat) : Status × Hub := if kind = 0 then (.ok, c.put (O.errLogKind e) 0) else (.invalidValue, c)

/-- LINK_CRYPTO written at a port: KEY_SLOT 0–63 or FFh, and ADVANCE where it is 01h (7010h.00, R355). -/
def Hub.writeLinkCrypto (c : Hub) (p slot advance : Nat) : Status × Hub :=
  if 63 < slot ∧ slot ≠ 0xFF then (.invalidValue, c)
  else if advance = 0 then (.ok, (c.put (O.linkCryptoKeySlot p) slot).keyCondition p)
  else match ((c.put (O.linkCryptoKeySlot p) slot).keyCondition p).writeAdvance p advance with
    | (.ok, c) => (.ok, c)
    | (st, _) => (st, c)

/-- One entry of a table of paths and field I/O written by its rule (4002h–4053h). -/
def Hub.writePathEntryOf (c : Hub) (obj n e : Nat) (bs : Bytes) : Option (Status × Hub) :=
  match obj with
  | 0x400200 => some (c.writeMcast e (fieldAt bs 0 4) ((List.range 32).map fun i => BitVec.ofNat 16 (fieldAt bs (4 + 2 * i) 2)))
  | 0x400300 => some (c.writeStage e ⟨BitVec.ofNat 16 (fieldAt bs 0 2), BitVec.ofNat 16 (fieldAt bs 2 2), BitVec.ofNat 64 (fieldAt bs 4 8),
      pathEntryOf (bs.drop 12)⟩)
  | 0x401000 => some (c.writeRouteShown e (routeOf bs))
  | 0x404003 => some (c.writeVidMap n e (fieldAt bs 0 2) (fieldAt bs 2 2))
  | 0x405000 => some (c.writeFioTx e (fioOf false bs))
  | 0x405100 => some (c.writeFioRx e (fioOf true bs))
  | 0x405200 => some (c.writeAcyc e ⟨BitVec.ofNat 16 (fieldAt bs 0 2), BitVec.ofNat 16 (fieldAt bs 2 2), BitVec.ofNat 16 (fieldAt bs 4 2),
      bs.getD 6 0, bs.drop 8⟩)
  | 0x405300 => some (c.writeAcycRx e (fieldAt bs 6 1))
  | _ => none

/-- One entry of a table of scheduling written by its rule (4210h–4262h). -/
def Hub.writeStrokeEntryOf (c : Hub) (obj e : Nat) (bs : Bytes) : Option (Status × Hub) :=
  let bins := (List.range 16).map fun i => BitVec.ofNat 32 (fieldAt bs (4 * i) 4)
  match obj with
  | 0x421003 => some (c.writeQuantum e (fieldAt bs 0 4))
  | 0x422000 => some (c.writeShaper e (fieldAt bs 0 1) (fieldAt bs 4 4))
  | 0x423000 => some (c.writePolicer e (fieldAt bs 0 1) (fieldAt bs 4 4))
  | 0x424000 => some (c.writeAllot e (fieldAt bs 0 4) (fieldAt bs 4 4) (fieldAt bs 20 1))
  | 0x425000 => some (c.writeGrant e (fieldAt bs 0 4))
  | 0x426000 => some (c.writeHistConfig e (fieldAt bs 0 1) (fieldAt bs 1 1) (fieldAt bs 2 2) (fieldAt bs 4 4))
  | 0x426100 => some (c.clearHist false e bins)
  | 0x426200 => some (c.clearHist true e bins)
  | _ => none

/-- One entry of a table of the endpoints, keys and faults, or of subscriptions, written by its rule. -/
def Hub.writeBlockEntryOf (c : Hub) (w : Writer) (obj e : Nat) (bs : Bytes) : Option (Status × Hub) :=
  let byte : Nat → BitVec 8 := fun i => bs.getD i 0
  match obj with
  | 0x111000 => some (c.writeNotify w.level w.session e ⟨BitVec.ofNat 16 (fieldAt bs 0 2), BitVec.ofNat 16 (fieldAt bs 2 2), byte 4, byte 5,
      BitVec.ofNat 32 (fieldAt bs 8 4)⟩)
  | 0x501000 => some (c.writeVdp e (fieldAt bs 0 2) (fieldAt bs 2 2))
  | 0x504100 => some (c.writeTargetWindow e ⟨byte 0, byte 1, byte 2, BitVec.ofNat 16 (fieldAt bs 4 2), BitVec.ofNat 64 (fieldAt bs 8 8),
      BitVec.ofNat 64 (fieldAt bs 16 8)⟩)
  | 0x504200 => some (c.writeInitWindow e bs)
  | 0x504300 => some (c.writeSlot e ⟨byte 0, byte 1, byte 2, byte 3, BitVec.ofNat 16 (fieldAt bs 6 2), BitVec.ofNat 64 (fieldAt bs 8 8),
      bs.drop 24⟩)
  | 0x504500 => some (c.freeErr e (fieldAt bs 1 1))
  | 0x701000 => some (c.writeLinkCrypto e (fieldAt bs 0 1) (fieldAt bs 2 1))
  | 0x800200 => some (c.writeSourceConfig e ⟨byte 0, byte 1, BitVec.ofNat 16 (fieldAt bs 2 2), BitVec.ofNat 32 (fieldAt bs 4 4)⟩)
  | _ => none

/-- One entry of a table written by its rule (R316). -/
def Hub.writeEntry (c : Hub) (w : Writer) (r : Row) (n e : Nat) (bs : Bytes) : Status × Hub :=
  ((c.writePathEntryOf r.obj n e bs).or ((c.writeStrokeEntryOf r.obj e bs).or (c.writeBlockEntryOf w r.obj e bs))).getD (.invalidValue, c)

/-- Entries written one after another, in ascending order, each seen whole (R316, R321); the first refusal ends it. -/
def Hub.writeRun (c : Hub) (w : Writer) (r : Row) (n : Nat) : Nat → List Bytes → Status × Hub
  | _, [] => (.ok, c)
  | e, bs :: rest =>
    match c.writeEntry w r n e bs with
    | (.ok, c) => Hub.writeRun c w r n (e + 1) rest
    | (st, c) => (st, c)

/-- Whole entries of a table written: all of them or none (R316, R317). A refused write leaves what its object says of the refusal. -/
def Hub.writeTable (c : Hub) (m : Mems) (w : Writer) (r : Row) (n off : Nat) (bs : Bytes) : Status × Hub × Mems :=
  let first := off / r.size
  let entries := entriesOf r.size (bs.length / r.size) bs
  if r.obj = 0x405500 then (.ok, c, m.writeImage off bs)
  else if r.obj = 0x900300 then c.writeBlocks m first (entries.map fun x => (x.take 4096, leNat (x.drop 4096)))
  else if r.obj = 0x400100 then
    ((c.writePathTable first (entries.map pathEntryOf)).1, (c.writePathTable first (entries.map pathEntryOf)).2, m)
  else match entries with
    | [x] => ((c.writeEntry w r n first x).1, (c.writeEntry w r n first x).2, m)
    | _ => match c.writeRun w r n first entries with
      | (.ok, c) => (.ok, c, m)
      | (st, c') => (st, c.put O.pathStatus (c'.get O.pathStatus), m)

/-- The checks of a write up to its value, in the order of R322 and R316: existence, right, length and range. `limit` is the most a request of
its kind may bring. -/
def Hub.writeCheck (c : Hub) (lvl : Level) (index sub off count limit : Nat) : Status :=
  match c.object index sub with
  | none => .noObject
  | some (r, _) =>
    if !(rightOf r.acc lvl).writes then .access
    else if r.ty != .table then (if off = 0 ∧ count = r.size then .ok else .length)
    else if c.entryCount r = 0 then .range
    else if count = 0 ∨ limit < count then .length
    else if c.entryCount r * r.size < off + count then .range
    else if off % r.size ≠ 0 ∨ count % r.size ≠ 0 then .length
    else .ok

/-- An object written (R316, R317, R322). A write that fails a check changes no byte of the object. What one of the objects of update changes in the
control area goes into the flash (R389). -/
def Hub.writeObject (c : Hub) (m : Mems) (w : Writer) (index sub off : Nat) (bs : Bytes) (limit : Nat) : Status × Hub × Mems :=
  match c.writeCheck w.level index sub off bs.length limit, c.object index sub with
  | .ok, some (r, n) =>
    let x := if r.ty = .table then c.writeTable m w r n off bs else c.writeScalar m w r n (sub - r.sub) bs
    if 0x9000 ≤ index ∧ index < 0x9100 then (x.1, c.recorded x.2) else x
  | st, _ => (st, c, m)

end Sys2Proof.Machine
end

