-- ==== Sys2Proof/Machine/Bridge.lean ====
section
/-! DEFINITION. The commands of the rigger bridge (R266–R282): requests at their target, responses at their initiator, claims, posted streams, the
host's aperture, request slots and target windows. -/
namespace Sys2Proof.Machine

/-! ## The target: windows (R268, R272) -/

/-- A bit of a window's FLAGS. -/
def Hub.winFlag (c : Hub) (w i : Nat) : Bool := bit (c.get (O.targetWinFlags w)) i

/-- Why a request of the window's bytes is refused before it reaches them, if it is: no window or off (01h), an initiator that COX_ONLY shuts out
(03h), a range beyond the window (02h), a write of a read-only window (03h). -/
def Hub.winRefusal (c : Hub) (req : RigPacket) (write : Bool) : Option Nat :=
  let w := req.window.toNat
  let n := req.len.toNat
  if 31 < w ∨ c.get (O.targetWinKind w) = 0 then some 1
  else if c.winFlag w 5 = true ∧ req.src ≠ 0 then some 3
  else if 512 < n ∨ c.get (O.targetWinSize w) < req.offset.toNat + n then some 2
  else if write = true ∧ c.winFlag w 0 = false then some 3
  else none

/-- Bytes behind a DRAM or process-image window. -/
def Hub.winBytes (c : Hub) (m : Mems) (w off n : Nat) : Bytes :=
  if c.get (O.targetWinKind w) = 1 then m.readDram (c.get (O.targetWinBase w) + off) n else m.readImage (c.get (O.targetWinBase w) + off) n

/-- Bytes written behind a DRAM or process-image window; a guarded range of the DRAM is watched (R297), and what heads have fetched stands (R296). -/
def Hub.winWrite (c : Hub) (m : Mems) (w off : Nat) (bs : Bytes) : Hub × Mems :=
  let a := c.get (O.targetWinBase w) + off
  if c.get (O.targetWinKind w) = 1 then (((c.fetchAhead m a bs.length).dramFresh a bs.length).scanGuard a bs.length 1, m.writeDram a bs)
  else (c, m.writeImage a bs)

/-- Bytes read behind a window, which a READ_CLEAR window leaves zero in the same step. -/
def Hub.winTake (c : Hub) (m : Mems) (w off n : Nat) : Bytes × Hub × Mems :=
  let bs := c.winBytes m w off n
  if c.winFlag w 3 then (bs, c.winWrite m w off (List.replicate n 0)) else (bs, c, m)

/-- The level an object window works at. -/
def winLevel (k : Nat) : Level := match k with | 0 => .observer | 1 => .operator | _ => .engineer

/-- STATUS and data of an object's answer: a LEN that does not fit is 02h, any other refusal 04h with its code (R272). -/
def objectAnswer (st : Status) (bs : Bytes) : Nat × Bytes :=
  match st with
  | .ok => (0, bs)
  | .range => (2, [])
  | _ => (4, leBytes st.code 1)

/-- An object read through an object window (R272): LEN equals the object's size, or lies within the table. -/
def Hub.objectRead (c : Hub) (m : Mems) (req : RigPacket) : Nat × Bytes :=
  let o := req.offset.toNat
  let n := req.len.toNat
  let lvl := winLevel (c.get (O.targetWinLevel req.window.toNat))
  match c.object (o / 256 % 65536) (o % 256) with
  | none => objectAnswer .noObject []
  | some (r, _) =>
    if !(rightOf r.acc lvl).reads then objectAnswer .writeOnly []
    else if r.ty != .table then
      (if n ≠ r.size ∨ o / 0x1000000 ≠ 0 then (2, [])
      else objectAnswer .ok (c.readObject m lvl (o / 256 % 65536) (o % 256) 0 0 512).2)
    else if n = 0 ∨ c.entryCount r * r.size < o / 0x1000000 + n then (2, [])
    else objectAnswer .ok (c.readObject m lvl (o / 256 % 65536) (o % 256) (o / 0x1000000) n 512).2

/-- A write brings other bytes than the scalar it names has: LEN does not equal the object's size (R272). -/
def Hub.lenMisfits (c : Hub) (lvl : Level) (o n : Nat) : Bool :=
  match c.object (o / 256 % 65536) (o % 256) with
  | some (r, _) => (rightOf r.acc lvl).writes && r.ty != .table && decide (n ≠ r.size ∨ o / 0x1000000 ≠ 0)
  | none => false

/-- An object written through an object window (R272). -/
def Hub.objectWrite (c : Hub) (m : Mems) (req : RigPacket) : Nat × Bytes × Hub × Mems :=
  let o := req.offset.toNat
  let lvl := winLevel (c.get (O.targetWinLevel req.window.toNat))
  let bs := req.data.take req.len.toNat
  if c.lenMisfits lvl o bs.length then (2, [], c, m)
  else
    let r := c.writeObject m ⟨lvl, 0, .tunnel⟩ (o / 256 % 65536) (o % 256) (o / 0x1000000) bs 512
    ((objectAnswer r.1 []).1, (objectAnswer r.1 []).2, r.2.1.afterResponse, r.2.2)

/-- Bytes behind a DRAM window lie in an uncorrectable word (R311). -/
def Hub.winFails (c : Hub) (w off n : Nat) : Bool := c.get (O.targetWinKind w) == 1 && c.dramFails (c.get (O.targetWinBase w) + off) n

/-- The single-bit errors that the DRAM read of a request corrects, as its command says (R311). -/
def Hub.winCorrects (c : Hub) (w : Nat) (req : RigPacket) : Hub :=
  c.when (c.get (O.targetWinKind w) == 1 && req.corrected != 0) fun c => (c.count O.dramCorrected req.corrected.toNat).raise 78

/-- The words of the DRAM that bytes behind a window lie in: none where the window shows another memory. -/
def Hub.winWords (c : Hub) (w off n : Nat) : Nat :=
  let a := c.get (O.targetWinBase w) + off
  if c.get (O.targetWinKind w) = 1 then ceilDiv (a + n) 64 - a / 64 else 0

/-- A READ at the target: STATUS, data, and what it leaves (R268, R311). -/
def Hub.rigRead (c : Hub) (m : Mems) (req : RigPacket) : Nat × Bytes × Hub × Mems :=
  let w := req.window.toNat
  match c.winRefusal req false with
  | some st => (st, [], c, m)
  | none =>
    if c.get (O.targetWinKind w) = 3 then
      let (st, bs) := c.objectRead m req
      (st, bs, { c with draws := c.draws + 1 }, m)
    else if req.memError || c.winFails w req.offset.toNat req.len.toNat then (7, [], c.winCorrects w req, m)
    else
      let (bs, c, m) := (c.winCorrects w req).winTake m w req.offset.toNat req.len.toNat
      (0, bs, c, m)

/-- A WRITE at the target. -/
def Hub.rigWrite (c : Hub) (m : Mems) (req : RigPacket) : Nat × Bytes × Hub × Mems :=
  match c.winRefusal req true with
  | some st => (st, [], c, m)
  | none =>
    if c.get (O.targetWinKind req.window.toNat) = 3 then c.objectWrite m req
    else
      let (c, m) := c.winWrite m req.window.toNat req.offset.toNat (req.data.take req.len.toNat)
      (0, [], c, m)

/-! ## The target: answers (R267, R271) -/

/-- A response to a request. -/
def Hub.sendAnswer (c : Hub) (op : Nat) (req : RigPacket) (status seq : Nat) (data : Bytes) : Hub :=
  c.sendRig (op + 0x80) req.src.toNat req.tag.toNat false req.window.toNat status data.length req.offset.toNat (c.get O.hubInstance) seq data

/-- An outcome joins the initiator's 64 most recent (R271). The data of a READ without side effect is not kept. -/
def Hub.keepOutcome (c : Hub) (op : Nat) (req : RigPacket) (status seq : Nat) (data : Bytes) : Hub :=
  let keeps := op != 1 || status != 0 || c.winFlag req.window.toNat 4
  let x : RigRecord := ⟨req.src.toNat, req.tag.toNat, op, req.window.toNat, status, req.offset.toNat, req.len.toNat, seq, keeps, if keeps then data else []⟩
  let mine := (c.rigDone.filter fun y => y.src == x.src && y.tag != x.tag).take 63
  { c with rigDone := x :: mine ++ c.rigDone.filter fun y => y.src != x.src }

/-- A request is answered, and its outcome kept. -/
def Hub.answerRig (c : Hub) (op : Nat) (req : RigPacket) (status seq : Nat) (data : Bytes) : Hub :=
  (c.keepOutcome op req status seq data).sendAnswer op req status seq data

/-- A retransmitted request answered from the record (R271); bytes of a READ without side effect are read anew, and that read too can meet an
uncorrectable word (R311). -/
def Hub.answerAgain (c : Hub) (m : Mems) (req : RigPacket) (x : RigRecord) : Hub :=
  let c := c.count O.rigDuplicates
  if x.keeps then c.sendAnswer x.op req x.status x.seq x.data
  else
    let c := c.winCorrects x.window req
    if req.memError || c.winFails x.window x.offset x.len then c.sendAnswer x.op req 7 x.seq []
    else c.sendAnswer x.op req x.status x.seq (c.winBytes m x.window x.offset x.len)

/-- The packets of read-ahead bytes. -/
def Hub.sendAhead (c : Hub) (req : RigPacket) : Nat → List Bytes → Hub
  | _, [] => c
  | a, bs :: rest =>
    let side := if c.winFlag req.window.toNat 4 then 0x80 else 0
    Hub.sendAhead (c.sendRig 0x88 req.src.toNat req.tag.toNat false req.window.toNat side bs.length a (c.get O.hubInstance) 0 bs)
      req (a + bs.length) rest

/-- Read-ahead after a READ (R278): the next PREFETCH_SIZE bytes within the window, if they can be read. -/
def Hub.readAhead (c : Hub) (m : Mems) (req : RigPacket) : Hub × Mems :=
  let w := req.window.toNat
  let a := req.offset.toNat + req.len.toNat
  let n := min (c.get (O.targetWinPrefetch w)) (c.get (O.targetWinSize w) - a)
  if c.winFlag w 2 = false ∨ n = 0 ∨ c.winFails w a n = true then (c, m)
  else
    let (bs, c, m) := (c.dramReads (c.winWords w a n)).winTake m w a n
    (c.sendAhead req a (entriesOf 512 (ceilDiv n 512) bs), m)

/-! ## The target: posted streams (R273, R274) -/

/-- The stream of posted writes that an initiator sends to a window. -/
def Hub.streamFrom (c : Hub) (src window : Nat) : StreamIn :=
  (c.rigStreams.find? fun x => x.src == src && x.window == window).getD ⟨src, window, 0, 0⟩

/-- A stream replaced. -/
def Hub.putStream (c : Hub) (x : StreamIn) : Hub :=
  { c with rigStreams := x :: c.rigStreams.filter fun y => !(y.src == x.src && y.window == x.window) }

/-- A POSTED_ERROR. -/
def Hub.sendPostedError (c : Hub) (req : RigPacket) (status seq count : Nat) : Hub :=
  c.sendRig 0x89 req.src.toNat 0 false req.window.toNat status 4 req.offset.toNat (c.get O.hubInstance) seq (leBytes count 4)

/-- The SEQ of a posted write taken in: a gap before it is reported, a lower one starts a new stream (R273). SEQs compare modulo 2^32. -/
def Hub.takeSeq (c : Hub) (req : RigPacket) : Hub :=
  let x := c.streamFrom req.src.toNat req.window.toNat
  let seq := req.seq.toNat
  let gap := (seq + 2 ^ 32 - x.expected) % 2 ^ 32
  let next := (seq + 1) % 2 ^ 32
  if gap = 0 then c.putStream { x with expected := next }
  else if gap < 2 ^ 31 then
    ((c.putStream { x with expected := next, gaps := x.gaps + gap }).count O.postedGaps).sendPostedError req 0 x.expected gap
  else (c.putStream { x with expected := next, gaps := 0 }).count O.streamRestarts

/-- A POSTED_WRITE at the target (R273). -/
def Hub.rigPosted1 (c : Hub) (m : Mems) (req : RigPacket) : Hub × Mems :=
  let w := req.window.toNat
  let seq := req.seq.toNat
  let src := req.src.toNat
  let claimed := c.get O.busClaimant
  if c.flag O.bridgeEnable = false then (c.sendPostedError req 1 seq 1, m)
  else if req.inst.toNat ≠ 0 ∧ req.inst.toNat ≠ c.get O.hubInstance then
    ((c.putStream { c.streamFrom src w with expected := (seq + 1) % 2 ^ 32 }).sendPostedError req 8 seq 1, m)
  else if claimed ≠ 0xFF ∧ claimed ≠ src then ((c.takeSeq req).count O.busyAnswers |>.sendPostedError req 5 seq 1, m)
  else match c.winRefusal req true with
    | some 2 => if c.winFlag w 1 then ((c.takeSeq req).sendPostedError req 2 seq 1, m) else (c.sendPostedError req 3 seq 1, m)
    | some _ => (c.sendPostedError req 3 seq 1, m)
    | none =>
      if c.winFlag w 1 = false then (c.sendPostedError req 3 seq 1, m)
      else (c.takeSeq req).winWrite m w req.offset.toNat (req.data.take req.len.toNat)

/-- A FLUSH at the target (R274): the writes missing since the last, the trailing ones included, and the last SEQ applied. -/
def Hub.rigFlush1 (c : Hub) (req : RigPacket) : Hub :=
  let x := c.streamFrom req.src.toNat req.window.toNat
  if 31 < req.window.toNat ∨ c.get (O.targetWinKind req.window.toNat) = 0 then c.answerRig 4 req 1 0 []
  else if c.winFlag req.window.toNat 5 = true ∧ req.src ≠ 0 then c.answerRig 4 req 3 0 []
  else
    let next := (req.seq.toNat + 1) % 2 ^ 32
    let trailing := (next + 2 ^ 32 - x.expected) % 2 ^ 32
    let missing := if trailing < 2 ^ 31 then trailing else 0
    let last := (x.expected + 2 ^ 32 - 1) % 2 ^ 32
    (c.putStream { x with expected := if missing = 0 then x.expected else next, gaps := 0 }).answerRig 4 req 0 last (leBytes (x.gaps + missing) 4)

/-! ## The target: claims (R276, R277) -/

/-- This hub holds its own bus for a claim toward a hub that has not been granted. -/
def Hub.claiming (c : Hub) (hub : Nat) : Bool :=
  c.get O.busClaimant == c.get O.hubAddress && (c.rigOut ++ c.rigWait ++ c.rigBack).any fun r => r.op == 5 && r.hub == hub

/-- A CLAIM at the target: granted on a free bus or to its claimant; of two hubs that claim each other the one with the higher address backs off. -/
def Hub.rigClaim1 (c : Hub) (req : RigPacket) : Hub :=
  let src := req.src.toNat
  let claimed := c.get O.busClaimant
  if claimed = 0xFF ∨ claimed = src then (c.put O.busClaimant src).answerRig 5 req 0 0 []
  else if c.claiming src then
    if src < c.get O.hubAddress then ((c.count O.backoffs).put O.busClaimant src).answerRig 5 req 0 0 []
    else c.answerRig 5 req 6 0 []
  else (c.count O.busyAnswers).answerRig 5 req 5 0 []

/-! ## The target: requests -/

/-- A request executed at the target, and answered (R270–R278). -/
def Hub.rigServe (c : Hub) (m : Mems) (op : Nat) (req : RigPacket) : Hub × Mems :=
  match op with
  | 1 =>
    let (st, bs, c, m) := c.rigRead m req
    let c := c.answerRig 1 req st 0 bs
    if st = 0 then c.readAhead m req else (c, m)
  | 2 =>
    let (st, bs, c, m) := c.rigWrite m req
    (c.answerRig 2 req st 0 bs, m)
  | 4 => (c.rigFlush1 req, m)
  | 5 => (c.rigClaim1 req, m)
  | _ => ((c.when (c.get O.busClaimant == req.src.toNat) fun c => c.put O.busClaimant 0xFF).answerRig 6 req 0 0 [], m)

/-- A request to an object window during a handover waits (R272). -/
def Hub.rigWaits (c : Hub) (op : Nat) (req : RigPacket) : Bool :=
  c.handingOver && (op == 1 || op == 2) && (c.winRefusal req (op == 2)).isNone && c.get (O.targetWinKind req.window.toNat) == 3

/-- A non-posted request arrives (R269–R272, R276). -/
def Hub.rigArrives (c : Hub) (m : Mems) (op : Nat) (req : RigPacket) : Hub × Mems :=
  let claimed := c.get O.busClaimant
  let src := req.src.toNat
  if c.flag O.bridgeEnable = false then (c.sendAnswer op req 1 0 [], m)
  else if req.inst.toNat ≠ 0 ∧ req.inst.toNat ≠ c.get O.hubInstance then (c.sendAnswer op req 8 0 [], m)
  else match (if req.retx then c.rigDone.find? fun x => x.src == src && x.tag == req.tag.toNat else none) with
    | some x => (c.answerAgain m req x, m)
    | none =>
      if op ≠ 5 ∧ claimed ≠ 0xFF ∧ claimed ≠ src then ((c.count O.busyAnswers).answerRig op req 5 0 [], m)
      else if c.rigWaits op req then
        (if req.retx = true ∧ (c.rigHeld.any fun h => h.req.src == req.src && h.req.tag == req.tag) = true then (c, m)
        else ({ c with rigHeld := c.rigHeld ++ [⟨op, req⟩], heldOrder := c.heldOrder ++ [.rig] }, m))
      else c.rigServe m op req

/-- RIG_READ (R268, R270, R271, R278). -/
def execRigRead (req : RigPacket) (s : State) : Host.Outcome State Fault Refusal := onDomainsAll s fun c m => c.rigArrives m 1 req
/-- RIG_WRITE (R268, R270, R271). -/
def execRigWrite (req : RigPacket) (s : State) : Host.Outcome State Fault Refusal := onDomainsAll s fun c m => c.rigArrives m 2 req
/-- RIG_POSTED_WRITE (R273). -/
def execRigPostedWrite (req : RigPacket) (s : State) : Host.Outcome State Fault Refusal := onDomainsAll s fun c m => c.rigPosted1 m req
/-- RIG_FLUSH (R274). -/
def execRigFlush (req : RigPacket) (s : State) : Host.Outcome State Fault Refusal := onDomainsAll s fun c m => c.rigArrives m 4 req
/-- RIG_CLAIM (R276, R277). -/
def execRigClaim (req : RigPacket) (s : State) : Host.Outcome State Fault Refusal := onDomainsAll s fun c m => c.rigArrives m 5 req
/-- RIG_RELEASE (R276). -/
def execRigRelease (req : RigPacket) (s : State) : Host.Outcome State Fault Refusal := onDomainsAll s fun c m => c.rigArrives m 6 req

/-! ## The initiator: responses -/

/-- The outstanding request that a response ends. -/
def Hub.awaited (c : Hub) (op : Nat) (rsp : RigPacket) : Option RigRequest :=
  c.rigOut.find? fun r => r.op == op && r.hub == rsp.src.toNat && r.tag == rsp.tag.toNat

/-- STATUS 08h (R269, R270): the request ends so; away from the Cox it also tells that the target has left, and every other request to it ends. -/
def Hub.rigRestarted (c : Hub) (r : RigRequest) : Hub :=
  let c := c.endRig r 8 []
  c.when (!c.isCox) fun c => c.rigLost r.hub

/-- A response arrives (R269–R271, R276, R277): it ends the request it answers, or makes it try again. -/
def Hub.rigAnswered (c : Hub) (op : Nat) (rsp : RigPacket) : Hub :=
  let c := c.rigLearn rsp.src.toNat rsp.inst.toNat
  match c.awaited op rsp with
  | none => c
  | some r =>
    let st := rsp.status.toNat
    let c := if st = 5 ∨ st = 6 then c.rigBusy r st else if st = 8 then c.rigRestarted r else c.endRig r st rsp.data
    let c := match r.origin with | .poll v _ => c.refreshVdp v | _ => c
    c.pumpRig

/-- READ_RSP. -/
def execReadRsp (rsp : RigPacket) (s : State) : Host.Outcome State Fault Refusal := onDomains s fun c => c.rigAnswered 1 rsp
/-- WRITE_RSP. -/
def execWriteRsp (rsp : RigPacket) (s : State) : Host.Outcome State Fault Refusal := onDomains s fun c => c.rigAnswered 2 rsp
/-- CLAIM_RSP. -/
def execClaimRsp (rsp : RigPacket) (s : State) : Host.Outcome State Fault Refusal := onDomains s fun c => c.rigAnswered 5 rsp
/-- RELEASE_RSP. -/
def execReleaseRsp (rsp : RigPacket) (s : State) : Host.Outcome State Fault Refusal := onDomains s fun c => c.rigAnswered 6 rsp

/-- POSTED_ERROR (R273, R275). -/
def execPostedError (rsp : RigPacket) (s : State) : Host.Outcome State Fault Refusal :=
  onDomains s fun c =>
    let hub := rsp.src.toNat
    let window := rsp.window.toNat
    let n := fieldAt rsp.data 0 4
    let c := c.rigLearn hub rsp.inst.toNat
    let x := c.postedTo hub window
    let c := c.when (rsp.status == 0) fun c => c.putPosted { x with reported := x.reported + n }
    c.postedError hub window rsp.status.toNat rsp.seq.toNat n

/-- FLUSH_RSP (R274, R275): missing writes that no POSTED_ERROR has reported are logged from the SEQ after the last applied. -/
def execFlushRsp (rsp : RigPacket) (s : State) : Host.Outcome State Fault Refusal :=
  onDomains s fun c =>
    let known := (c.awaited 4 rsp).isSome && rsp.status == 0
    let c := c.when known fun c =>
      let x := c.postedTo rsp.src.toNat rsp.window.toNat
      let n := fieldAt rsp.data 0 4
      let c := c.putPosted { x with reported := 0 }
      c.when (decide (x.reported < n)) fun c =>
        c.postedError rsp.src.toNat rsp.window.toNat 0 ((rsp.seq.toNat + 1) % 2 ^ 32) (n - x.reported)
    c.rigAnswered 4 rsp

/-- PREFETCH_DATA (R278, R279): the bytes are held as a line. -/
def execPrefetchData (rsp : RigPacket) (s : State) : Host.Outcome State Fault Refusal :=
  onDomains s fun c =>
    let c := c.rigLearn rsp.src.toNat rsp.inst.toNat
    c.when (!rsp.data.isEmpty) fun c =>
      c.addLine ⟨rsp.src.toNat, rsp.window.toNat, rsp.offset.toNat, rsp.data.take 512, (rsp.data.take 512).map fun _ => false, bit rsp.status.toNat 7⟩

/-! ## The initiator: timers -/

/-- RETRY_TIME (R270, R282): sent again with RETX, while the target can be reached. -/
def execRetryTime (tag : BitVec 12) (s : State) : Host.Outcome State Fault Refusal :=
  onDomains s fun c =>
    match c.rigOut.find? fun r => r.tag == tag.toNat with
    | none => c
    | some r =>
      if c.rigGone r.hub then (c.endRig r 0x0A []).pumpRig
      else if c.flag O.bridgeEnable = false then c
      else (c.count O.retransmits).sendRigRequest r true

/-- BULK_IDLE (R274): a FLUSH follows the last posted write. -/
def execBulkIdle (hub : BitVec 8) (window : Fin 32) (s : State) : Host.Outcome State Fault Refusal :=
  onDomains s fun c =>
    let x := c.postedTo hub.toNat window
    c.when x.unflushed fun c => (c.putPosted { x with unflushed := false }).queueRig (c.flushRequest hub.toNat window .own)

/-- CLAIM_MAX (R276): the claim of this hub's bus ends. -/
def execClaimMax (s : State) : Host.Outcome State Fault Refusal :=
  onDomains s fun c => (c.each (c.instances (H.claimOn 0)) fun c a => c.put (H.claimOn a) 0).put O.busClaimant 0xFF

/-- One request tried again, before every one that waits (R270): a CLAIM waits on where another hub holds this hub's own bus (R277). -/
def Hub.rigAgain (c : Hub) (r : RigRequest) : Hub :=
  let claimed := c.get O.busClaimant
  if r.op = 5 ∧ claimed ≠ 0xFF ∧ claimed ≠ c.get O.hubAddress then c
  else { c with rigBack := c.rigBack.erase r, rigWait := r :: c.rigWait }

/-- BACKOFF_TIME (R276, R277): the requests to a target that were turned away are tried again, in their order. -/
def execBackoffTime (hub : BitVec 8) (s : State) : Host.Outcome State Fault Refusal :=
  onDomains s fun c => (c.each (c.rigBack.filter fun r => r.hub == hub.toNat).reverse Hub.rigAgain).pumpRig

/-- PREFETCH_LIFE (R278): a line is discarded. -/
def execPrefetchLife (line : Fin 64) (s : State) : Host.Outcome State Fault Refusal :=
  onDomains s fun c => match c.rigLines[line.val]? with | some x => c.dropLine x | none => c

/-! ## The host's aperture (R280) -/

/-- The VALID mapping of BAR4 that holds a range whole. -/
def Hub.bar4Map (c : Hub) (offset n : Nat) : Option Nat :=
  if !c.coxPort then none
  else (List.range 64).find? fun e =>
    let b := c.get (O.initWinBar4Offset e)
    bit (c.get (O.initWinFlags e)) 0 && decide (b ≤ offset ∧ offset + n ≤ b + c.get (O.initWinSize e) * 0x100000)

/-- The host's writes in order, each of at most 512 B: posted writes (`op` 3) to a bulk window, else WRITEs of the aperture write queue (`op` 2). -/
def Hub.queueAll (c : Hub) (op hub window : Nat) : Nat → Nat → List Bytes → Hub
  | _, _, [] => c
  | at_, bar, bs :: rest =>
    let r : RigRequest := ⟨op, hub, window, at_, bs.length, bs, .apertureWrite bar, 0, 0, 0, 0⟩
    Hub.queueAll (c.queueRig r) op hub window (at_ + bs.length) (bar + bs.length) rest

/-- BAR4_WRITE (R280): posted writes to a bulk window, or writes through the aperture write queue. A write that the host had credit for joins a full
queue too; its credit and the next ones are held back until there is room (`returnPcie`). -/
def execBar4Write (offset : BitVec 64) (bulk : Bool) (data : Bytes) (s : State) : Host.Outcome State Fault Refusal :=
  onDomains s fun c =>
    match c.bar4Map offset.toNat data.length with
    | none => (c.count O.urSent).when (!c.oarPort) fun c => c.aerRecord 1 aerUnsupported false []
    | some e =>
      let a := c.get (O.initWinTargetOffset e) + (offset.toNat - c.get (O.initWinBar4Offset e))
      let parts := entriesOf 512 (ceilDiv data.length 512) data
      c.queueAll (if bulk then 3 else 2) (c.get (O.initWinHub e)) (c.get (O.initWinWindow e)) a offset.toNat parts

/-- The parts of a host read queued: places, offsets and lengths. -/
def Hub.queueReads (c : Hub) (hub window id : Nat) : List (Nat × Nat × Nat) → Hub
  | [] => c
  | (k, a, n) :: rest => Hub.queueReads (c.queueRig ⟨1, hub, window, a, n, [], .apertureRead id k, 0, 0, 0, 0⟩) hub window id rest

/-- BAR4_READ (R280): READs of at most 512 B, after every earlier write to the same target. -/
def execBar4Read (requester : BitVec 16) (tag : BitVec 10) (offset : BitVec 64) (len : Nat) (s : State) : Host.Outcome State Fault Refusal :=
  onDomains s fun c =>
    match c.bar4Map offset.toNat len with
    | none => ((c.count O.urSent).when (!c.oarPort) fun c => c.aerRecord 1 aerUnsupported true []).emit (.completion requester.toNat tag.toNat 1 [])
    | some e =>
      let a := c.get (O.initWinTargetOffset e) + (offset.toNat - c.get (O.initWinBar4Offset e))
      let parts := (List.range (ceilDiv len 512)).map fun i => (i, a + 512 * i, min 512 (len - 512 * i))
      let id := c.get H.rigReadId
      let x : ApertureRead := ⟨id, requester.toNat, tag.toNat, offset.toNat, parts.map fun _ => none⟩
      let c := ({ c with rigReads := c.rigReads ++ [x] } : Hub).put H.rigReadId (id + 1)
      if parts.isEmpty then c.finishRead x else c.queueReads (c.get (O.initWinHub e)) (c.get (O.initWinWindow e)) id parts

/-- APERTURE_TIMEOUT (R280): the host read ends with Completer Abort; its requests run on. -/
def execApertureTimeout (requester : BitVec 16) (tag : BitVec 10) (s : State) : Host.Outcome State Fault Refusal :=
  onDomains s fun c =>
    match c.rigReads.find? fun x => x.requester == requester.toNat && x.tag == tag.toNat with
    | none => c
    | some x => c.abortRead x

/-! ## Objects -/

/-- REQUEST_SLOT_SUBMIT: Engineer and Owner; held through a handover of this hub (R282). -/
def execRequestSlotSubmit (lvl : Level) (slot : Fin 4) (req : SlotRequest) (s : State) : Host.Outcome State Fault Refusal :=
  onWrite (.requestSlotSubmit lvl slot req) s fun c => c.request lvl engineerWrites fun c => c.writeSlot slot req

/-- TARGET_WINDOWS_WRITE: Owner. -/
def execTargetWindowsWrite (lvl : Level) (window : Fin 32) (val : TargetWindow) (s : State) : Host.Outcome State Fault Refusal :=
  onWrite (.targetWindowsWrite lvl window val) s fun c => c.request lvl ownerWrites fun c => c.writeTargetWindow window val

end Sys2Proof.Machine
end

