-- ==== Sys2Proof/Machine/Feeds.lean ====
section
/-! DEFINITION. The commands of the feeds FA and FB (R248–R252): qualification, loss, transfer and revert. A feed is 1 for FA, 2 for FB, as
FEED_SELECTED codes it. -/
namespace Sys2Proof.Machine

/-- The other feed. -/
def otherFeed (f : Nat) : Nat := 3 - f
/-- FA_QUALIFIED or FB_QUALIFIED. -/
def qualifiedObj (f : Nat) : Obj := if f = 1 then O.faQualified else O.fbQualified
/-- The feed that FEED_PRIORITY prefers. -/
def Hub.preferred (c : Hub) : Nat := if c.get O.feedPriority = 1 then 2 else 1

/-- FEED_STATE and SAG_INPUT_MV after a change (R251); entry into hold-up is reported, and an activation that needs the feeds is checked (R401). -/
def Hub.feedsChanged (c : Hub) : Hub :=
  let sel := c.get O.feedSelected
  let st := if c.get H.feedPhase = 1 ∨ c.get H.feedPhase = 2 then 2
    else if sel = 0 then 3 else if c.flag (qualifiedObj (otherFeed sel)) then 0 else 1
  let was := c.get O.feedState
  let c := c.put O.feedState st
  let c := c.put O.sagInputMv c.sagInput
  (c.when (was != 3 && st == 3) fun c => c.raise 60).activationCheck

/-- A feed is selected with none before it (R249): the bus ramps from its present voltage. -/
def Hub.selectFeed (c : Hub) (f : Nat) : Hub :=
  (((c.put O.feedSelected f).put H.feedPhase 3).put H.feedTarget f).put H.feedLost 0

/-- A break-before-make transfer to a feed begins (R250), with how the outgoing feed was lost, if it was: reported inside its own shadow window
(R378, R380). It is part of a fault in progress where FEED_FAULT started it (R382). -/
def Hub.startTransfer (c : Hub) (f lost : Nat) : Hub :=
  let c := (((c.put H.feedPhase 1).put H.feedTarget f).put H.feedLost lost).put O.busMinMv (c.get O.busMv)
  ((c.openWindow (if lost = 2 then 61 else 255) 6 255).raise 59 255 f).feedsChanged

/-- With no feed selected, the preferred qualified feed, or the only one (R249). -/
def Hub.selectAny (c : Hub) : Hub :=
  if c.flag (qualifiedObj c.preferred) then c.selectFeed c.preferred
  else if c.flag (qualifiedObj (otherFeed c.preferred)) then c.selectFeed (otherFeed c.preferred)
  else c

/-- FEED_QUALIFY (R248, R249): a lost feed that stayed selected is transferred away from, or is sound again. -/
def execFeedQualify (feedB : Bool) (s : State) : Host.Outcome State Fault Refusal :=
  onFeeds s fun c =>
    let f := if feedB then 2 else 1
    let c := c.putB (qualifiedObj f) true
    if c.get H.feedPhase = 1 ∨ c.get H.feedPhase = 2 then c.when (c.get O.feedSelected == f) fun c => c.put H.feedLost 0
    else if c.get O.feedSelected = 0 then c.selectAny.feedsChanged
    else if c.get O.feedSelected = f then (c.put H.feedLost 0).feedsChanged
    else if c.flag H.feedLost then c.startTransfer f (c.get H.feedLost)
    else c.feedsChanged

/-- The feed of a cause that turns its pair off though no other is qualified (R249). -/
def turnsOff : FeedLossCause → Bool
  | .undervoltage => false | .overvoltage => true | .reverse => true

/-- How H.feedLost records a loss. -/
def lossCode (cause : FeedLossCause) : Nat := if turnsOff cause then 2 else 1

/-- The feed that a transfer brings in is lost (R249, R252): the outgoing feed stays selected, and ramps again, unless over-voltage or reverse current
took it; then a qualified feed is selected, or none. -/
def Hub.transferFails (c : Hub) : Hub :=
  let c := (c.put H.feedPhase 0).put H.feedTarget 0
  let c := if c.get H.feedLost = 2 then (c.put O.feedSelected 0).selectAny else (c.put H.feedPhase 3).put H.feedTarget (c.get O.feedSelected)
  (c.reactionDone 6 255).feedsChanged

/-- A feed is lost (R248–R250): reported for over-voltage and reverse current; a transfer where the other feed is qualified. -/
def Hub.feedLoss (c : Hub) (f : Nat) (cause : FeedLossCause) : Hub :=
  let c := (c.putB (qualifiedObj f) false).when (turnsOff cause) fun c => c.raise 61 255 f
  if c.get H.feedPhase = 1 ∨ c.get H.feedPhase = 2 then
    if c.get H.feedTarget = f then c.transferFails else c.put H.feedLost (max (c.get H.feedLost) (lossCode cause))
  else if c.get O.feedSelected ≠ f then c.feedsChanged
  else if c.flag (qualifiedObj (otherFeed f)) then c.startTransfer (otherFeed f) (lossCode cause)
  else if turnsOff cause then ((c.put O.feedSelected 0).put H.feedPhase 0).feedsChanged
  else (c.put H.feedLost 1).feedsChanged

/-- FEED_LOSS: stage 5 enters at once in hold-up (R420). -/
def execFeedLoss (feedB : Bool) (cause : FeedLossCause) (s : State) : Host.Outcome State Fault Refusal :=
  onPortsAll s fun c m =>
    let c := c.feedLoss (if feedB then 2 else 1) cause
    if c.get O.feedState = 3 then c.enterStage m 5 else (c, m)

/-- FEED_DEAD_TIME_EXPIRY (R250 step 3). -/
def execFeedDeadTimeExpiry (s : State) : Host.Outcome State Fault Refusal :=
  onFeeds s fun c =>
    if c.get H.feedPhase = 1 then (c.put H.feedPhase 2).put O.lastTransferGap (c.get O.deadTime) else c

/-- FEED_RAMP_COMPLETE (R250 step 4, R378): the transfer is complete, or the first ramp of the bus. -/
def execFeedRampComplete (s : State) : Host.Outcome State Fault Refusal :=
  onFeeds s fun c =>
    if c.get H.feedPhase = 2 then
      let c := (((c.put O.feedSelected (c.get H.feedTarget)).put H.feedPhase 0).put H.feedTarget 0).put H.feedLost 0
      ((c.count O.transfers).reactionDone 6 255).feedsChanged
    else if c.get H.feedPhase = 3 then ((c.put H.feedPhase 0).put H.feedTarget 0).feedsChanged
    else c

/-- FEED_REVERT (R249): the preferred feed has stayed qualified for REVERT_TIME. -/
def execFeedRevert (s : State) : Host.Outcome State Fault Refusal :=
  onFeeds s fun c =>
    if c.flag O.autoRevert = true ∧ c.get H.feedPhase ≠ 1 ∧ c.get H.feedPhase ≠ 2 ∧ c.get O.feedSelected = otherFeed c.preferred
        ∧ c.flag (qualifiedObj c.preferred) = true then c.startTransfer c.preferred 0
    else c

end Sys2Proof.Machine
end

