-- ==== Sys2Proof/Machine/Fop.lean ====
section
/-! DEFINITION. The commands of the Fevik Object Protocol (R319–R340): messages and their checks, sessions, blocks, notifications, the transports, and
OBJECT_WRITE. -/
namespace Sys2Proof.Machine

/-! ## Messages from bytes (R319) -/

/-- A message from its bytes: the last 32 are its TAG. -/
def parseFop (t : Transport) (addr port : Nat) (bs : Bytes) : FopMsg :=
  let f : Nat → Nat → Nat := fun off n => fieldAt bs off n
  ⟨t, BitVec.ofNat 128 addr, BitVec.ofNat 16 port, BitVec.ofNat 8 (f 0 1), BitVec.ofNat 8 (f 2 1), BitVec.ofNat 8 (f 3 1), BitVec.ofNat 16 (f 4 2),
    BitVec.ofNat 8 (f 6 1), BitVec.ofNat 8 (f 7 1), BitVec.ofNat 32 (f 8 4), BitVec.ofNat 16 (f 12 2), BitVec.ofNat 16 (f 14 2),
    BitVec.ofNat 16 (f 16 2), BitVec.ofNat 8 (f 18 1), BitVec.ofNat 8 (f 19 1), BitVec.ofNat 32 (f 20 4), BitVec.ofNat 32 (f 24 4),
    BitVec.ofNat 32 (f 28 4), (bs.drop 32).take (bs.length - 64), BitVec.ofNat 256 (leNat (bs.drop (bs.length - 32)))⟩

/-- Checks 1 and 2 (R322): lengths, VERSION, KIND and reserved fields. ABORT is a flag of block requests alone. -/
def fopWellFormed (kind : Nat) (x : FopMsg) : Bool :=
  x.length.toNat == x.body.length && decide (x.body.length ≤ 960) && x.version == 1 && decide (1 ≤ kind ∧ kind ≤ 5) && decide (x.flags.toNat ≤ 1)
    && (x.flags == 0 || kind == 3 || kind == 4) && x.pad == 0 && x.pad2 == 0

/-- The level of a message, if it is one. -/
def fopLevel (x : FopMsg) : Option Level :=
  match x.level.toNat with | 0 => some .observer | 1 => some .operator | 2 => some .engineer | 3 => some .owner | _ => none

/-! ## The relay of the Cox (R335) -/

/-- A hub the Cox may relay to: a Member that is not Asleep. -/
def Hub.relays (c : Hub) (a : Nat) : Bool := a != 0 && a != 0xFF && c.get (O.hubTableState a) == 2

/-- A relay entry becomes the most recently used; of 65 the least recently used goes. -/
def Hub.putRelay (c : Hub) (e : RelayEntry) : Hub :=
  let rest := c.relay.filter fun x => !(x.hub == e.hub && x.session == e.session)
  { c with relay := rest.drop (rest.length - 63) ++ [e] }

/-- A message for another hub: sent there unchanged, or answered UNREACHABLE. -/
def Hub.relayOut (c : Hub) (kind : Nat) (x : FopMsg) : Hub :=
  if c.relays x.hub.toNat then
    ((c.putRelay ⟨x.hub.toNat, x.session.toNat, x.transport, x.addr.toNat, x.port.toNat⟩).count (O.fopTx 1)).sendFop (onBackground x) x.hub.toNat
      (fopRaw x kind)
  else c.answerBare kind x .unreachable

/-- A NOTIFY in the mailbox's ring, and what is counted where it enters; a full ring drops it (R336). -/
def Hub.ringNotify (c : Hub) (sent : Hub → Hub) (bytes : Bytes) : Hub :=
  let h := c.get H.ntfHead
  if (h + 1) % 16 = c.get H.ntfTail then c.count O.notifyDrops
  else
    let was := h == c.get H.ntfTail
    let c := { c with ntfRing := ⟨h, bytes⟩ :: c.ntfRing.filter fun x => x.slot != h }
    (sent ((c.put H.ntfHead ((h + 1) % 16)).count (O.fopTx 2))).when was fun c => c.msix 0

/-- A message that a hub sends up: passed on to where the relay table says, a NOTIFY for the mailbox into its ring, or discarded (R335, R336). -/
def Hub.relayBack (c : Hub) (kind : Nat) (x : FopMsg) : Hub :=
  match c.relay.find? fun e => e.hub == x.hub.toNat && e.session == x.session.toNat with
  | none => c.count O.relayDiscards
  | some e =>
    if e.transport = .mailbox ∧ kind = 0x86 then (c.putRelay e).ringNotify id (fopRaw x kind)
    else (c.putRelay e).deliver e.transport e.addr e.port (onBackground x) (fopRaw x kind)

/-! ## Opening a session (R324–R327) -/

/-- The access key of a level; none where its slot holds none. -/
def Hub.accessKey (c : Hub) (lvl : Level) : Option Nat := c.slotKey (c.get (O.accessKeySlot (Level.rank lvl))) 3

/-- A level's slot is not empty, and yet no key of it may be used: its check has failed, or it lacks the FOP bit (R343, R345). Its opens get NO_KEY
on every transport (DEDUCED, notes/assumptions/83.md). A keyless hub's levels stand as with empty slots (R327, R359). -/
def Hub.keyUnusable (c : Hub) (lvl : Level) : Bool :=
  let s := c.get (O.accessKeySlot (Level.rank lvl))
  decide (s < 64) && c.get (O.keySlotState s) != 0 && !c.flag O.tamperLatch && (c.accessKey lvl).isNone

/-- The next session number: the lowest not used since the last reset, wrapping after FFFEh past the numbers in use (R324). -/
def Hub.freeSession (c : Hub) : Nat :=
  ((List.range 9).map fun i => (c.get H.nextSession + 65533 + i) % 65534 + 1).find? (fun n => (c.session n).isNone) |>.getD 1

/-- An open that has passed the checks of its message (R325): nonce, number and key are drawn, and the answer goes out under the new key. -/
def Hub.openSession (c : Hub) (lvl : Level) (key : Nat) (x : FopMsg) : Hub :=
  let nonce := c.random.1 % 2 ^ 128
  let c := c.random.2
  let s := c.freeSession
  let context := x.body ++ leBytes nonce 16 ++ leBytes s 2 ++ leBytes (Level.rank lvl) 1
  let sk := leNat (kdf key (ascii "FOP SESSION") context 256)
  let new : Session := ⟨s, lvl, sk, x.transport, x.addr.toNat, x.port.toNat, 0, [], 0, [], none, c.now⟩
  let c := ({ c with sessions := c.sessions ++ [new] } : Hub).put H.nextSession (s % 65534 + 1)
  let body := leBytes s 2 ++ [0, 0] ++ leBytes nonce 16
  let head := answerHead x 2 0 .ok x.count.toNat body
  c.deliver x.transport x.addr.toNat x.port.toNat false (head ++ body ++ leBytes (hmacSha256 sk (head ++ body)) 32)

/-- An open refused by a check after its TAG: answered under the access key. -/
def Hub.openRefused (c : Hub) (key : Nat) (x : FopMsg) (st : Status) : Hub :=
  let head := answerHead x 2 0 st x.count.toNat []
  c.deliver x.transport x.addr.toNat x.port.toNat false (head ++ leBytes (hmacSha256 key head) 32)

/-- Checks 5 to 10 of an open (R322, R325, R327). While the random generator has failed, every open is answered NO_KEY (R365). -/
def Hub.fopOpen (c : Hub) (x : FopMsg) : Hub :=
  match fopLevel x with
  | none => c.count O.fopAuthFailures
  | some lvl =>
    let l := Level.rank lvl
    let c := c.usedSlot (c.get (O.accessKeySlot l))
    let key := (c.accessKey lvl).getD 0
    if ((c.accessKey lvl).isNone ∧ (x.transport = .t1s ∨ x.transport = .tunnel)) ∨ c.keyUnusable lvl = true ∨ c.get O.rngState = 2 then
      c.answerBare 2 x .noKey
    else if hmacSha256 key (fopSigned x 2) % 2 ^ 256 ≠ x.tag.toNat then c.count O.fopAuthFailures
    else if x.counter.toNat < c.get (H.openCounter l) then c.count O.fopReplays
    else
      let c := c.put (H.openCounter l) (x.counter.toNat + 1)
      if x.body.length ≠ 16 ∨ x.offset ≠ 0 then c.openRefused key x .length
      else if 8 ≤ c.sessions.length then c.answerBare 2 x .sessionLimit
      else c.openSession lvl key x

/-! ## Requests in a session (R320, R321) -/

/-- The session a request came in, with its open block replaced. -/
def Hub.setBlock (c : Hub) (id : Nat) (b : Option OpenBlock) : Hub :=
  { c with sessions := c.sessions.map fun y : Session => if y.id = id then { y with block := b } else y }

/-- READ (R320). Values that are measured differ from read to read. -/
def Hub.fopRead (c : Hub) (m : Mems) (lvl : Level) (x : FopMsg) : Hub :=
  let r := c.readObject m lvl x.index.toNat x.sub.toNat x.offset.toNat x.count.toNat 960
  ({ c with draws := c.draws + 1 } : Hub).answer 1 x r.1 x.count.toNat r.2

/-- The answer to a write, and what follows it. A write of image blocks that is taken is answered when its blocks are programmed (R393). -/
def Hub.wrote (c : Hub) (kind : Nat) (x : FopMsg) (st : Status) (count : Nat) : Hub :=
  if st = .ok ∧ x.index = 0x9003 then { c with blockWait := c.blockWait ++ [{ x with count := BitVec.ofNat 32 count }] }
  else (c.answer kind x st count []).afterResponse

/-- WRITE (R317, R320). -/
def Hub.fopWrite (c : Hub) (m : Mems) (lvl : Level) (x : FopMsg) : Hub × Mems :=
  let r := c.writeObject m ⟨lvl, x.session.toNat, x.transport⟩ x.index.toNat x.sub.toNat x.offset.toNat x.body 960
  (r.2.1.wrote 2 x r.1 x.count.toNat, r.2.2)

/-- The object is a table: blocks move tables alone (R320). -/
def Hub.isTable (c : Hub) (index sub : Nat) : Bool := match c.object index sub with | some (r, _) => r.ty == .table | none => false

/-- Checks 8 to 10 of a block request (R322): object, right, and a range of a table. -/
def Hub.blockCheck (c : Hub) (m : Mems) (lvl : Level) (kind : Nat) (x : FopMsg) : Status :=
  let n := x.count.toNat
  let st := if kind = 3 then (c.readObject m lvl x.index.toNat x.sub.toNat x.offset.toNat n 65536).1
    else c.writeCheck lvl x.index.toNat x.sub.toNat x.offset.toNat n 65536
  if st = .ok ∧ (c.isTable x.index.toNat x.sub.toNat = false ∨ (kind ≠ 3 ∧ n < x.body.length)) then .length else st

/-- READ_BLOCK (R320, R321): the range is copied in one step, and its first bytes are answered. -/
def Hub.fopReadBlock (c : Hub) (m : Mems) (lvl : Level) (s : Session) (x : FopMsg) : Hub :=
  let n := x.count.toNat
  let r := c.readObject m lvl x.index.toNat x.sub.toNat x.offset.toNat n 65536
  let c : Hub := { c with draws := c.draws + 1 }
  if r.1 ≠ .ok then c.answer 3 x r.1 n []
  else if c.isTable x.index.toNat x.sub.toNat = false then c.answer 3 x .length n []
  else if s.block.isSome then c.answer 3 x .blockBusy n []
  else
    let b : OpenBlock := ⟨true, x.index.toNat, x.sub.toNat, x.offset.toNat, r.2, (List.range r.2.length).map fun i => decide (i < 960), c.now⟩
    (c.setBlock s.id (if r.2.length ≤ 960 then none else some b)).answer 3 x .ok n (r.2.take 960)

/-- Bytes put into an open block at a position. -/
def OpenBlock.fill (b : OpenBlock) (at_ : Nat) (bs : Bytes) (now : Nat) : OpenBlock :=
  { b with bytes := overlay b.bytes at_ bs, lastAt := now,
           seen := (List.range b.seen.length).map fun i => b.seen.getD i false || decide (at_ ≤ i ∧ i < at_ + bs.length) }

/-- The bytes a block has received, or served. -/
def OpenBlock.got (b : OpenBlock) : Nat := (b.seen.filter id).length

/-- A write block in its new state: answered with the bytes received, or, when whole, written as one and answered with its status (R321). -/
def Hub.fillBlock (c : Hub) (m : Mems) (lvl : Level) (s : Session) (kind : Nat) (x : FopMsg) (b : OpenBlock) : Hub × Mems :=
  if b.seen.all id then
    let c := c.setBlock s.id none
    let r := c.writeObject m ⟨lvl, s.id, x.transport⟩ b.index b.sub b.offset b.bytes 65536
    (r.2.1.wrote kind x r.1 b.got, r.2.2)
  else ((c.setBlock s.id (some b)).answer kind x .ok b.got [], m)

/-- WRITE_BLOCK (R320, R321). -/
def Hub.fopWriteBlock (c : Hub) (m : Mems) (lvl : Level) (s : Session) (x : FopMsg) : Hub × Mems :=
  let n := x.count.toNat
  let st := c.blockCheck m lvl 4 x
  if st ≠ .ok then (c.answer 4 x st n [], m)
  else if s.block.isSome then (c.answer 4 x .blockBusy n [], m)
  else
    let b : OpenBlock := ⟨false, x.index.toNat, x.sub.toNat, x.offset.toNat, List.replicate n 0, List.replicate n false, c.now⟩
    c.fillBlock m lvl s 4 x (b.fill 0 x.body c.now)

/-- SEGMENT (R320, R321): bytes of the copy of a read block, or bytes for a write block. Its checks come in the order of R322 whether or not the
block it names is open; without one, an empty body asks for bytes and any other brings them, and no block is longer than 65,536 B (DEDUCED,
notes/assumptions/90.md). -/
def Hub.fopSegment (c : Hub) (m : Mems) (lvl : Level) (s : Session) (x : FopMsg) : Hub × Mems :=
  let n := x.count.toNat
  let o := x.offset.toNat
  let named := s.block.filter fun b => b.index == x.index.toNat && b.sub == x.sub.toNat
  let reads := match named with | some b => b.reads | none => x.body == []
  let size := match named with | some b => b.bytes.length | none => 65536
  let part := if reads then n else x.body.length
  match c.object x.index.toNat x.sub.toNat with
  | none => (c.answer 5 x .noObject n [], m)
  | some (r, _) =>
    if reads && !(rightOf r.acc lvl).reads then (c.answer 5 x .writeOnly n [], m)
    else if !reads && !(rightOf r.acc lvl).writes then (c.answer 5 x .access n [], m)
    else if r.ty != .table || part == 0 || decide (960 < part) || (reads && x.body != []) then (c.answer 5 x .length n [], m)
    else if size < o + part then (c.answer 5 x .range n [], m)
    else match named with
      | none => (c.answer 5 x .blockEnded n [], m)
      | some b =>
        if b.reads then
          let bytes := (b.bytes.drop o).take n
          let b := b.fill o bytes c.now
          ((c.setBlock s.id (if b.seen.all id then none else some b)).answer 5 x .ok n bytes, m)
        else c.fillBlock m lvl s 5 x (b.fill o x.body c.now)

/-- ABORT (R321): a block request that passes checks 8 to 10 ends the open block, and opens none. -/
def Hub.fopAbort (c : Hub) (m : Mems) (s : Session) (kind : Nat) (x : FopMsg) : Hub :=
  let st := c.blockCheck m s.level kind x
  if st ≠ .ok then c.answer kind x st x.count.toNat [] else (c.setBlock s.id none).answer kind x .ok x.count.toNat []

/-- A request that has passed checks 1 to 7 executed (R320). -/
def Hub.fopExecute (c : Hub) (m : Mems) (s : Session) (kind : Nat) (x : FopMsg) : Hub × Mems :=
  if x.flags = 1 then (c.fopAbort m s kind x, m)
  else match kind with
    | 1 => (c.fopRead m s.level x, m)
    | 2 => c.fopWrite m s.level x
    | 3 => (c.fopReadBlock m s.level s x, m)
    | 4 => c.fopWriteBlock m s.level s x
    | _ => c.fopSegment m s.level s x

/-- Checks 5 to 7 of a request in a session (R322, R328, R329). -/
def Hub.fopInSession (c : Hub) (m : Mems) (s : Session) (kind : Nat) (x : FopMsg) : Hub × Mems :=
  let n := x.counter.toNat
  if hmacSha256 s.key (fopSigned x kind) % 2 ^ 256 ≠ x.tag.toNat then (c.count O.fopAuthFailures, m)
  else match s.accepted.find? fun a => a.1 == n with
    | some a =>
      if a.2 ≠ x.reqId.toNat then (c.count O.fopReplays, m)
      else match s.answers.find? fun y => y.counter == n && y.reqId == x.reqId.toNat with
        | some y => ((c.count O.fopDuplicates).deliver x.transport x.addr.toNat x.port.toNat (onBackground x) y.bytes, m)
        | none => (c, m)
    | none =>
      if n + 16 ≤ s.rxHigh then (c.count O.fopReplays, m)
      else if x.level.toNat ≠ Level.rank s.level then (c.count O.fopAuthFailures, m)
      else
        let s : Session := { s with accepted := (n, x.reqId.toNat) :: s.accepted, rxHigh := max s.rxHigh n, transport := x.transport,
                                    addr := x.addr.toNat, port := x.port.toNat, lastAt := c.now }
        (c.setSession s).fopExecute m s kind x

/-- A received message is checked in order and answered, discarded silently, or executed (R322). Nobody relays an answer but the Cox. -/
def Hub.fopRun (c : Hub) (m : Mems) (kind : Nat) (x : FopMsg) : Hub × Mems :=
  if 128 ≤ kind then (if c.isCox && x.transport == .tunnel then c.relayBack kind x else c.count O.fopMalformed, m)
  else if !fopWellFormed kind x then (c.count O.fopMalformed, m)
  else if x.hub ≠ 0xFF ∧ x.hub.toNat ≠ c.get O.hubAddress then (if c.isCox then c.relayOut kind x else c.answerBare kind x .notHere, m)
  else if x.session = 0 ∧ kind = 2 ∧ x.index = 0x1100 ∧ x.sub = 1 then (c.fopOpen x, m)
  else match c.session x.session.toNat with
    | none => (c.answerBare kind x .noSession, m)
    | some s => c.fopInSession m s kind x

/-! ## Arrival (R332, R338, R339) -/

/-- The address may be used: no duplicate of it was found, and its detection is over. -/
def Hub.addressUsed (c : Hub) (k : Nat) : Bool := !bit (c.get O.addrState) k && decide (c.get (H.tentative k) ≤ c.now)

/-- The management network has an address in use. -/
def Hub.reachable (c : Hub) : Bool :=
  c.flag O.t1sEnable && (c.addressUsed 0 || (c.get O.staticAddr != 0 && !c.inRom && c.addressUsed 1))

/-- The transport exists in this role and is on (R332, R334, R408). -/
def Hub.transportOn (c : Hub) (t : Transport) : Bool :=
  match t with
  | .t1s => c.reachable
  | .tunnel => !c.inRom && !c.isCox
  | .mailbox => !c.isOar || c.inRom
  | .uart => true

/-- The hub takes a message of a kind on a transport: from the tunnel the Cox takes only what hubs send up, for its relay (R332, R335). -/
def Hub.takesFop (c : Hub) (t : Transport) (kind : Nat) : Bool :=
  c.transportOn t || (t == .tunnel && c.isCox && !c.inRom && decide (128 ≤ kind))

/-- A message held already is repeated (R340). -/
def Hub.heldAlready (c : Hub) (x : FopMsg) : Bool :=
  c.fopHeld.any fun h => h.1 != droppedKind && h.2.session == x.session && h.2.counter == x.counter && h.2.reqId == x.reqId && h.2.hub == x.hub && x.session != 0

/-- A message arrives: counted, and executed, or held through a handover, up to 64 (R338, R339). -/
def Hub.fopArrives (c : Hub) (m : Mems) (kind : Nat) (x : FopMsg) : Hub × Mems :=
  if !c.takesFop x.transport kind then (c, m)
  else
    let c := c.awake.count (O.fopRx (transportPlace x.transport))
    if c.handingOver then
      (if c.heldAlready x ∨ 64 ≤ (c.fopHeld.filter fun h => h.1 != droppedKind).length then c else { c with fopHeld := c.fopHeld ++ [(kind, x)], heldOrder := c.heldOrder ++ [.fop] }, m)
    else c.fopRun m kind x

/-- The request in REQ_BUF is taken (R336). It stays busy where its answer waits for a handover or for the programming of blocks. -/
def Hub.takeRequest (c : Hub) (m : Mems) : Hub × Mems :=
  let bs := c.reqBuf
  let waits := c.fopHeld.length + c.blockWait.length
  let r := if bs.length < 64 then ((c.count (O.fopRx 2)).count O.fopMalformed, m) else c.fopArrives m (fieldAt bs 1 1) (parseFop .mailbox 0 0 bs)
  (r.1.when (decide (r.1.fopHeld.length + r.1.blockWait.length ≤ waits)) fun c => c.put H.reqBusy 0, r.2)

/-- A request submitted through the mailbox (R336). -/
def Hub.doorbell (c : Hub) (m : Mems) (bs : Bytes) : Hub × Mems :=
  if !c.transportOn .mailbox then (c, m)
  else if c.flag H.reqBusy then (c.count O.mailboxOverruns, m)
  else
    let c := (({ c with reqBuf := bs } : Hub).put H.reqLength bs.length).put H.reqBusy 1
    if c.flag H.rspReady then (c, m) else c.takeRequest m

/-- A message by its command: through the mailbox it is a request submitted there. -/
def Hub.fopReceive (c : Hub) (m : Mems) (kind : Nat) (x : FopMsg) : Hub × Mems :=
  if x.transport = .mailbox then c.doorbell m (fopRaw x kind) else c.fopArrives m kind x

/-- FOP_READ (R320, R322). -/
def execFopRead (msg : FopMsg) (s : State) : Host.Outcome State Fault Refusal := onDomainsAll s fun c m => c.fopReceive m 1 msg
/-- FOP_WRITE (R317, R322). -/
def execFopWrite (msg : FopMsg) (s : State) : Host.Outcome State Fault Refusal := onDomainsAll s fun c m => c.fopReceive m 2 msg
/-- FOP_READ_BLOCK (R320, R321). -/
def execFopReadBlock (msg : FopMsg) (s : State) : Host.Outcome State Fault Refusal := onDomainsAll s fun c m => c.fopReceive m 3 msg
/-- FOP_WRITE_BLOCK (R320, R321). -/
def execFopWriteBlock (msg : FopMsg) (s : State) : Host.Outcome State Fault Refusal := onDomainsAll s fun c m => c.fopReceive m 4 msg
/-- FOP_SEGMENT (R321). -/
def execFopSegment (msg : FopMsg) (s : State) : Host.Outcome State Fault Refusal := onDomainsAll s fun c m => c.fopReceive m 5 msg
/-- FOP_ABORT (R321): a READ_BLOCK or WRITE_BLOCK request with ABORT set. -/
def execFopAbort (write : Bool) (msg : FopMsg) (s : State) : Host.Outcome State Fault Refusal :=
  onDomainsAll s fun c m => c.fopReceive m (if write then 4 else 3) { msg with flags := 1 }
/-- SESSION_OPEN (R325): the WRITE of 1100h.01. -/
def execSessionOpen (msg : FopMsg) (s : State) : Host.Outcome State Fault Refusal :=
  onDomainsAll s fun c m => c.fopReceive m 2 { msg with index := 0x1100, sub := 1 }
/-- SESSION_CLOSE (R330): the WRITE of 1100h.02. -/
def execSessionClose (msg : FopMsg) (s : State) : Host.Outcome State Fault Refusal :=
  onDomainsAll s fun c m => c.fopReceive m 2 { msg with index := 0x1100, sub := 2 }

/-- A message as bytes on a transport: one too short for a header and a TAG is malformed (R322, check 1). -/
def Hub.fopBytes (c : Hub) (m : Mems) (t : Transport) (addr port : Nat) (raw : Bytes) : Hub × Mems :=
  if raw.length < 64 then ((if c.takesFop t 0 then (c.count (O.fopRx (transportPlace t))).count O.fopMalformed else c), m)
  else c.fopReceive m (fieldAt raw 1 1) (parseFop t addr port raw)

/-- The bytes between flags on the service UART unstuffed; none where a 7Dh is followed by anything but 5Dh or 5Eh (R337). -/
def unstuffed : Bytes → Option Bytes
  | [] => some []
  | x :: rest =>
    if x = 0x7D then
      match rest with
      | [] => none
      | y :: rest => if y = 0x5E then (unstuffed rest).map fun bs => 0x7E :: bs else if y = 0x5D then (unstuffed rest).map fun bs => 0x7D :: bs else none
    else (unstuffed rest).map fun bs => x :: bs

/-- A received frame of the service UART: its message where it is sound, none where the receiver discards it (R337). -/
def uartMessage (frame : Bytes) : Option Bytes :=
  match unstuffed frame with
  | none => none
  | some bs =>
    let n := bs.length - 4
    if bs.length < 4 ∨ 2060 < bs.length ∨ crc32c (bs.take n) ≠ leNat (bs.drop n) then none else some (bs.take n)

/-- The frames of a run of bytes that begins with a flag: what stands between flags, and whether the last was closed. -/
def uartFrames : Bytes → Bytes → List (Bytes × Bool)
  | now, [] => [(now, false)]
  | now, x :: rest => if x = 0x7E then (now, true) :: uartFrames [] rest else uartFrames (now ++ [x]) rest

/-- What the line of the service UART carries (R337): empty frames are ignored, a frame that is not sound, or that a gap of more than 10 ms leaves
open, is discarded and counted in UART_ERRORS, and any other gives its message. -/
def Hub.uartLine (c : Hub) (m : Mems) (line : Bytes) : Hub × Mems :=
  ((uartFrames [] (line.drop 1)).filter fun f => f.1 != []).foldl (fun cm f =>
    match (if f.2 then uartMessage f.1 else none) with
    | none => (cm.1.count O.uartErrors, cm.2)
    | some raw => cm.1.fopBytes cm.2 .uart 0 0 raw) (c, m)

/-- FOP_RELAY (R335): a message as bytes, relayed down, or up where it is an answer or a NOTIFY that a hub sends. On the service UART, bytes that
begin with the flag 7Eh, which no message does, are what its line carries (R337; DESIGN CHOICE, notes/assumptions/69.md). -/
def execFopRelay (transport : Transport) (addr : BitVec 128) (port : BitVec 16) (raw : Bytes) (s : State) : Host.Outcome State Fault Refusal :=
  onDomainsAll s fun c m =>
    if transport = .uart ∧ raw.head? = some 0x7E then c.uartLine m raw else c.fopBytes m transport addr.toNat port.toNat raw

/-! ## Timers (R321, R330) -/

/-- IDLE_TIMEOUT (R330). -/
def execIdleTimeout (session : BitVec 16) (s : State) : Host.Outcome State Fault Refusal :=
  onDomains s fun c =>
    match c.session session.toNat with
    | none => c
    | some x => (c.advanceTo (x.lastAt + 1000000000 * c.get O.idleTimeout)).endSessionsWhere fun y => y.id == x.id

/-- BLOCK_TIMEOUT (R321): the block ends; a write block is discarded. -/
def execBlockTimeout (session : BitVec 16) (s : State) : Host.Outcome State Fault Refusal :=
  onDomains s fun c =>
    match (c.session session.toNat).bind fun x => x.block with
    | none => c
    | some b => (c.advanceTo (b.lastAt + 1000000 * c.get O.blockTimeout)).setBlock session.toNat none

/-! ## Notifications (R331, R336, R339) -/

/-- A NOTIFY of a subscription's value (R331), in its session's counter sequence (R329). -/
def Hub.notify (c : Hub) (e : Nat) (s : Session) (value : Bytes) : Hub :=
  let head := fopHeader 0x86 0 (Level.rank s.level) s.id (c.get O.hubAddress) (s.tx + 1) e value.length (c.get (O.notifyIndex e))
    (c.get (O.notifySub e)) 0 0 0
  let bytes := head ++ value ++ leBytes (hmacSha256 s.key (head ++ value)) 32
  let c := (((c.setSession { s with tx := s.tx + 1 }).put (H.notifyLast e) (leNat value)).put (H.notifyAny e) 1).put (H.notifyAt e) c.now
  let c := if s.transport = .mailbox then c.ringNotify (fun c => c.count (O.notifySent e)) bytes
    else (c.deliver s.transport s.addr s.port false bytes).count (O.notifySent e)
  c.when (s.tx + 1 == 0xFFFFFFFF) fun c => c.endSessionsWhere fun y => y.id == s.id

/-- A subscription's session and present value. -/
def Hub.subscription (c : Hub) (e : Nat) : Option (Session × Bytes) :=
  match c.session (c.get (O.notifySession e)), c.object (c.get (O.notifyIndex e)) (c.get (O.notifySub e)) with
  | some s, some (r, n) => some (s, c.scalarBytes r n (c.get (O.notifySub e)))
  | _, _ => none

/-- Ten milliseconds have passed since the subscription's last NOTIFY. -/
def Hub.notifyRested (c : Hub) (e : Nat) : Bool := !c.flag (H.notifyAny e) || decide (c.get (H.notifyAt e) + 10000000 ≤ c.now)

/-- One subscription checked for a change. -/
def Hub.sampleNotify (c : Hub) (e : Nat) : Hub :=
  let mode := c.get (O.notifyMode e)
  if (mode = 1 ∨ mode = 3) ∧ c.notifyRested e = true then
    match c.subscription e with
    | some (s, v) => c.when (!c.flag (H.notifyAny e) || c.get (H.notifyLast e) != leNat v) fun c => c.notify e s v
    | none => c
  else c

/-- NOTIFY_SAMPLE (R331): every subscription to changes is checked; what falls due in a handover is sent at the first sample after it (R339). -/
def execNotifySample (s : State) : Host.Outcome State Fault Refusal :=
  onDomains s fun c => if c.handingOver then c else { c.each (List.range 32) Hub.sampleNotify with draws := c.draws + 1 }

/-- NOTIFY_PERIOD (R331): a periodic subscription's PERIOD passes; one that also follows changes keeps to one NOTIFY in 10 ms. -/
def Hub.periodNotify (c : Hub) (e : Nat) : Hub :=
  let mode := c.get (O.notifyMode e)
  let c := c.when (mode == 2) fun c => c.advanceTo (c.get (H.notifyAt e) + 1000000 * c.get (O.notifyPeriod e))
  if (mode = 2 ∨ (mode = 3 ∧ c.notifyRested e = true)) then
    match c.subscription e with
    | some (s, v) => c.notify e s v
    | none => c
  else c

/-- NOTIFY_PERIOD: held through a handover and sent after it (R339). -/
def execNotifyPeriod (sub : Fin 32) (s : State) : Host.Outcome State Fault Refusal :=
  onDomains s fun c => if c.handingOver then c.put H.notifyHeld (withBit (c.get H.notifyHeld) sub true) else c.periodNotify sub

/-- NOTIFY_TABLE_WRITE: Operator, Engineer and Owner. -/
def execNotifyTableWrite (lvl : Level) (session : BitVec 16) (sub : Fin 32) (val : NotifyEntry) (s : State) : Host.Outcome State Fault Refusal :=
  onWrite (.notifyTableWrite lvl session sub val) s fun c => c.request lvl operatorWrites fun c => c.writeNotify lvl session.toNat sub val

/-! ## The mailbox (R336) -/

/-- MAILBOX_DOORBELL. -/
def execMailboxDoorbell (request : Bytes) (s : State) : Host.Outcome State Fault Refusal := onDomainsAll s fun c m => c.doorbell m request

/-- RSP_ACK: the response area is free for a response that waits, else for the next request. -/
def execRspAck (s : State) : Host.Outcome State Fault Refusal :=
  onDomainsAll s fun c m =>
    if c.flag H.rspReady = false then (c, m)
    else
      let c := c.put H.rspReady 0
      match c.rspWait with
      | bs :: rest => (((({ c with rspBuf := bs, rspWait := rest } : Hub).put H.rspReady 1)).msix 0, m)
      | [] => if c.requestWaits then c.takeRequest m else (c, m)

/-- NTF_TAIL_WRITE: slots up to the tail are free. -/
def execNtfTailWrite (value : BitVec 32) (s : State) : Host.Outcome State Fault Refusal := onDomains s fun c => c.put H.ntfTail (value.toNat % 16)

/-! ## The management network (R333, R334) -/

/-- The place of one of the hub's addresses: the link-local 0, the static 1; ROM recovery has the link-local alone (R408). -/
def Hub.ownAddress (c : Hub) (a : Nat) : Option Nat :=
  if !c.flag O.t1sEnable then none
  else if a = c.get O.linkLocal then some 0
  else if a ≠ 0 ∧ a = c.get O.staticAddr ∧ c.inRom = false then some 1 else none

/-- NEIGHBOR_SOLICITATION (R333, R334): a solicitation is answered for an address in use. An address still in the hub's own detection is shown a
duplicate by another node's detection of it, or by an advertisement of it. An advertisement of an address in use has no effect (notes/assumptions/74.md). -/
def execNeighborSolicitation (target : BitVec 128) (kind : NeighborMsg) (s : State) : Host.Outcome State Fault Refusal :=
  onDomains s fun c =>
    match c.ownAddress target.toNat with
    | none => c
    | some k =>
      if c.addressUsed k then c.when (kind != .advert) fun c => c.emit (.neighborAdvertisement target.toNat (kind == .detect))
      else if kind = .ask ∨ bit (c.get O.addrState) k = true then c
      else (c.put O.addrState (withBit (c.get O.addrState) k true)).raise 84

/-- ECHO_REQUEST (R333). -/
def execEchoRequest (source : BitVec 128) (payload : Bytes) (s : State) : Host.Outcome State Fault Refusal :=
  onDomains s fun c => c.when c.reachable fun c => c.emit (.echoReply source.toNat payload)

/-- UDP_WRONG_PORT (R333). -/
def execUdpWrongPort (source : BitVec 128) (port : BitVec 16) (s : State) : Host.Outcome State Fault Refusal :=
  onDomains s fun c => c.when (c.reachable && decide (port.toNat ≠ c.get O.fopPort)) fun c => c.emit (.portUnreachable source.toNat port.toNat)

/-! ## OBJECT_WRITE -/

/-- A write of an object outside a session, answered with its status; one of image blocks that is taken is answered when they are programmed. -/
def Hub.plainWrite (c : Hub) (m : Mems) (lvl : Level) (index sub off : Nat) (data : Bytes) : Hub × Mems :=
  let r := c.writeObject m ⟨lvl, 0, .uart⟩ index sub off data 65536
  ((if r.1 = .ok ∧ index = 0x9003 then r.2.1 else r.2.1.emit (.status r.1)).afterResponse, r.2.2)

/-- OBJECT_WRITE (R317): held through a firmware handover, as object requests are (R339). -/
def execObjectWrite (lvl : Level) (index : BitVec 16) (sub : BitVec 8) (offset : BitVec 32) (data : Bytes) (s : State) :
    Host.Outcome State Fault Refusal :=
  onWriteAll (.objectWrite lvl index sub offset data) s fun c m =>
    c.plainWrite m lvl index.toNat sub.toNat offset.toNat data

end Sys2Proof.Machine
end

