-- ==== Sys2Proof/Machine/Tree.lean ====
section
/-! DEFINITION. The commands of enumeration, Orphans and the time base in a Crew or Oar, and in a parent (R13–R27, R418). -/
namespace Sys2Proof.Machine

/-- JOIN_REPEAT (R18): a Joining hub sends JOIN again on the same port. -/
def execJoinRepeat (s : State) : Host.Outcome State Fault Refusal :=
  onDomains s fun c => if c.treeIs 1 then c.sendJoin (c.get H.joinPort) else c

/-- What an accepted ASSIGN sets (enumeration table, R13, R24, R132). -/
def Hub.acceptAssign (c : Hub) (p parent addr depth : Nat) (isReturn : Bool) : Hub :=
  let c := (((((c.put H.parentAddr parent).put O.treeState 2).put O.hubAddress addr).put O.upstreamPort p).put O.depth depth).put H.joinPort 255
  let c := (((c.putB H.returned isReturn).put H.syncGood 0).put H.syncBad 0).putB H.orphanKeeps false
  let c := ((((c.putB H.planAwaited true).put O.planState 0).put O.planInForce 0).put H.missRun 0).putB H.portSection true
  let c := c.each ((c.instances (O.grantGrant 0)).filter (8192 ≤ ·)) fun c t => c.put (O.grantGrant t) 0
  c.emit (.mgmtTo (some p) 0 (.assignAck addr (c.get O.hubUid) isReturn))

/-- ASSIGN (R16): accepted only while Joining, and only from a port on which the mode is entered; ignored otherwise. An ASSIGN that
names this hub as the parent goes to the named port (R57), which is refused no longer (R18). In an Oar every other port leaves the mode (R12, R226). -/
def execAssign (p : Port) (parent addr depth : BitVec 8) (parentPort : Port) (isReturn : Bool) (s : State) :
    Host.Outcome State Fault Refusal :=
  onDomains s fun c =>
    if c.treeIs 1 && c.modeEntered p && !c.isCox then
      let c := c.acceptAssign p parent.toNat addr.toNat depth.toNat isReturn
      c.when c.isOar fun c => c.each ((List.range 24).filter fun q => q != p.val) fun c q =>
        if c.modeEntered q then c.leaveMode q else c.when (c.get (O.modeState q) == 1) fun c => c.endDiscovery q
    else if c.treeIs 2 && c.get O.upstreamPort == p.val && c.get O.hubAddress == parent.toNat then
      (c.putB (H.refusedBelow parentPort) false).emit (.mgmtTo (some parentPort.val) parent.toNat (.assign addr.toNat depth.toNat parentPort.val isReturn))
    else c

/-- ASSIGN_ACK passing upward (R24, R58): the entry of the assigned address is set to the port it arrived on, and the parent reports
REJOIN for a returning hub. -/
def execAssignAck (p : Port) (addr : BitVec 8) (uid : BitVec 64) (isReturn : Bool) (s : State) : Host.Outcome State Fault Refusal :=
  onDomains s fun c =>
    if c.get O.upstreamPort = p.val then c
    else
      let parent := c.get (H.partnerUid p) == uid.toNat
      let c := c.put (O.addrRoutePort addr.toNat) p
      let c := c.when (isReturn && parent) fun c => c.topoEvent p 6 0 uid.toNat
      if c.isCox then
        let c := ((c.put (H.assignOpen addr.toNat) 0).put (O.hubTableState addr.toNat) 2).put (O.hubTableHold addr.toNat) 0
        let n : HubReport := { hub := addr.toNat, locked := false, frozen := false, needFull := true, returned := isReturn }
        let c := { c with reports := c.reports.filter (fun r : HubReport => r.hub != addr.toNat) ++ [n] }
        c.countHubs
      else c.emit (.mgmtTo none 0 (.assignAck addr.toNat uid.toNat isReturn))

/-- REFUSE (enumeration table, R18): a Joining hub returns to Unjoined and offers no JOIN on the port until a fresh mode entry. -/
def execRefuse (p : Port) (_reason : BitVec 8) (s : State) : Host.Outcome State Fault Refusal :=
  onDomains s fun c =>
    if c.treeIs 1 && c.get H.joinPort == p.val then (c.unjoin).putB (H.refused p) true else c

/-- ORPHAN on the upstream port (R23): the Member becomes an Orphan, having lost no port of its own. -/
def execOrphan (p : Port) (s : State) : Host.Outcome State Fault Refusal :=
  onDomains s fun c => if c.treeIs 2 && c.get O.upstreamPort == p.val && !c.isCox then c.becomeOrphan none else c

/-- Every tunnel but management torn down (R23). -/
def Hub.dropTunnels (c : Hub) : Hub := (c.each (c.liveEntries.filter (3 ≤ ·)) fun c t => c.teardown t).putB H.orphanKeeps false

/-- ORPHAN_HOLD_EXPIRY (R23): every tunnel but management is torn down; the Orphan goes Unjoined, and at once Joining if its last
upstream port is still trained with the mode entered. A hub that was an Orphan and is not yet a Member again keeps its tunnels no longer either. -/
def execOrphanHoldExpiry (s : State) : Host.Outcome State Fault Refusal :=
  onDomains s fun c =>
    if c.treeIs 3 then
      let p := c.get H.lastUpstream
      let c := c.dropTunnels.unjoin
      if p < 24 ∧ c.trained p = true ∧ c.modeEntered p = true then c.startJoining p true else c
    else c.when (c.flag H.orphanKeeps) Hub.dropTunnels

/-- PROBE (R22): the hub answers for itself; a parent answers for a child it holds asleep (R418). -/
def execProbe (dst : BitVec 8) (s : State) : Host.Outcome State Fault Refusal :=
  onDomains s fun c =>
    if dst.toNat = c.get O.hubAddress then
      c.emit (.mgmtTo none 0 (.probeAck (c.get O.hubUid) (c.get O.treeState)))
    else
      let p := c.get (O.addrRoutePort dst.toNat)
      if p < 24 ∧ c.flag (H.childAsleep p) = true then c.emit (.mgmtTo none 0 (.probeAck (c.get (H.partnerUid p)) 4)) else c

/-- How far one SYNC steers the stroke clock: a slew of at most 100 ppm is 12 ns per stroke (R25). -/
def slew (offset : Int) : Int := max (-12) (min 12 offset)

/-- SYNC on the upstream port (R25): the offset is recorded, the stroke clock steers toward the parent's, the stroke number is taken
until the hub is locked, and lock is declared after 16 SYNCs within ±20 ns or dropped after 4 in a row outside ±40 ns. A positive offset moves the next
boundary later (DESIGN CHOICE, notes/assumptions/91.md). -/
def execSync (p : Port) (stroke : BitVec 64) (offset : Int) (s : State) : Host.Outcome State Fault Refusal :=
  onDomains s fun c =>
    if c.isCox || c.get O.upstreamPort != p.val then c
    else
      let near := decide (-20 ≤ offset ∧ offset ≤ 20)
      let far := decide (offset < -40 ∨ 40 < offset)
      let c := ((c.putI O.clockOffset offset).put H.lastSync c.now).when (!c.flag O.timeLock) fun c => c.put O.strokeNumber stroke.toNat
      let c := { c with boundaryAt := ((c.boundaryAt : Int) + slew offset).toNat }
      let c := c.put H.syncGood (if near then min 16 (c.get H.syncGood + 1) else 0)
      let c := c.put H.syncBad (if far then min 4 (c.get H.syncBad + 1) else 0)
      if c.flag O.timeLock then (if c.get H.syncBad = 4 then c.loseLock else c)
      else if c.get H.syncGood = 16 then c.gainLock else c

/-- DELAY_REQ at a parent (R25, R59): the parent answers on the port with what it measured of the child's path. -/
def execDelayReq (p : Port) (sentAt : BitVec 32) (s : State) : Host.Outcome State Fault Refusal :=
  onDomains s fun c => c.emit (.timeOn p (.delayResp (((c.nsInStroke : Int) - (sentAt.toNat : Int)) % (2 ^ 32 : Int)).toNat))

/-- DELAY_RESP at a child (R25): the path delay of each direction. -/
def execDelayResp (p : Port) (down up : BitVec 32) (s : State) : Host.Outcome State Fault Refusal :=
  onDomains s fun c =>
    if c.get O.upstreamPort = p.val then (c.put O.pathDelayDown down.toNat).put O.pathDelayUp up.toNat else c

/-- SYNC_TIMEOUT (R25): 8 strokes without a SYNC. -/
def execSyncTimeout (s : State) : Host.Outcome State Fault Refusal := onDomains s fun c => c.loseLock

/-- SLEEP from a child (R418): the parent holds the port as asleep, and reports SLEEP when the link goes Down. -/
def execSleep (p : Port) (s : State) : Host.Outcome State Fault Refusal :=
  onDomains s fun c => if c.get O.upstreamPort = p.val then c else c.putB (H.childAsleep p) true

end Sys2Proof.Machine
end

