-- ==== Sys2Proof/Machine/Handover.lean ====
section
/-! DEFINITION. The end of a firmware handover or hand-back, and the work that it held (R402, R404, R339). -/
namespace Sys2Proof.Machine

/-- The running slot changes to the other one, with the object values of its image. -/
def Hub.swapImage (c : Hub) (m : Mems) : Hub :=
  let s := c.otherSlot
  (((c.put O.runningSlot s).put O.fwVersion (m.imageVersion (slotBase s))).put O.settingsFormat (m.imageFormat (slotBase s))).put O.activePair
    (1 - c.get O.activePair)

/-- What PLAN_STATE shows outside a handover (R129, R130, R132). -/
def Hub.planStateNow (c : Hub) : Nat :=
  if c.flag H.planAwaited then 0 else if c.flag H.planHold then 4 else min 3 (c.get H.missRun + 1)

/-- The plans go on after a handover (R130, R131): the Cox's next plan has no HOLD, another hub reports that its handover ended. -/
def Hub.plansGoOn (c : Hub) : Hub :=
  let c := c.when (c.flag H.handover && c.treeIs 2) fun c => c.put O.planState c.planStateNow
  let c := ((c.put H.handover 0).put H.holdMark 0).put H.handoverAsked 0
  c.when (!c.isCox) fun c => c.put H.reportFlags (withBit (c.get H.reportFlags) 3 true)

/-- The new image has taken control: the confirmation window opens (R401, R402). -/
def Hub.handedOver (c : Hub) (m : Mems) (elapsed : Nat) : Hub :=
  let c := ((c.swapImage m).count O.handovers).put O.handoverTime elapsed
  (((c.put O.activationState 6).put H.confirmEnd (c.now + 1000000 * c.get O.confirmWindow)).put H.noHandback 0).plansGoOn

/-- The old image has taken control again (R404): it treats the slots of records that it cannot read as free (R406). -/
def Hub.handedBack (c : Hub) (m : Mems) (elapsed : Nat) : Hub :=
  let new := c.get O.runningSlot
  let c := (((c.swapImage m).count O.handbacks).put O.handoverTime elapsed).slotTo new 6
  let c := (((c.put O.activationState 0).put O.activate 0).put H.confirmEnd 0).dropConverted
  let c := c.each [0, 1, 2, 3] fun c k => c.when (c.get (O.recordState k) != 0 && c.recordFree k) fun c => c.clearRecord k
  c.plansGoOn.raise 89

/-- A record failed its check (R402): the pair in control keeps it. A failed handover stops the activation; after a failed hand-back, none is
possible any more (DESIGN CHOICE, notes/assumptions/42.md). -/
def Hub.handoverFailed (c : Hub) : Hub :=
  if c.get O.activationState = 5 then (c.stopActivation 6).plansGoOn else ((c.put O.activationState 6).put H.noHandback 1).plansGoOn

/-- A held write executed (R339, R402). -/
def execHeld (w : HeldWrite) (s : State) : Host.Outcome State Fault Refusal :=
  match w with
  | .pathTableWrite lvl first entries => execPathTableWrite lvl first entries s
  | .mcastTableWrite lvl group members outTids => execMcastTableWrite lvl group members outTids s
  | .stageTableWrite lvl slot rec => execStageTableWrite lvl slot rec s
  | .routeWrite lvl route req => execRouteWrite lvl route req s
  | .poolSizeWrite lvl pool value => execPoolSizeWrite lvl pool value s
  | .spillSizeWrite lvl value => execSpillSizeWrite lvl value s
  | .grantWrite lvl entry grant => execGrantWrite lvl entry grant s
  | .shaperWrite lvl shaper mode rate => execShaperWrite lvl shaper mode rate s
  | .policerWrite lvl policer mode rate => execPolicerWrite lvl policer mode rate s
  | .allotWrite lvl route min max mode => execAllotWrite lvl route min max mode s
  | .quantumWrite lvl q value => execQuantumWrite lvl q value s
  | .histClear lvl delay q bins => execHistClear lvl delay q bins s
  | .driveWindowWrite lvl value => execDriveWindowWrite lvl value s
  | .vdpTableWrite lvl vdp down up => execVdpTableWrite lvl vdp down up s
  | .rpHotReset lvl value => execRpHotReset lvl value s
  | .fioRecordWrite lvl rx rec val => execFioRecordWrite lvl rx rec val s
  | .acycSubmit lvl slot msg => execAcycSubmit lvl slot msg s
  | .requestSlotSubmit lvl slot req => execRequestSlotSubmit lvl slot req s
  | .targetWindowsWrite lvl window val => execTargetWindowsWrite lvl window val s
  | .retrainRequest lvl port value => execRetrainRequest lvl port value s
  | .cryptEnableWrite lvl port value => execCryptEnableWrite lvl port value s
  | .creditLimitWrite lvl port cls value => execCreditLimitWrite lvl port cls value s
  | .linkEnableWrite lvl port value => execLinkEnableWrite lvl port value s
  | .gearMaxWrite lvl port value => execGearMaxWrite lvl port value s
  | .laneUseWrite lvl port value => execLaneUseWrite lvl port value s
  | .readyHoldWrite lvl port value => execReadyHoldWrite lvl port value s
  | .testModeWrite lvl port value => execTestModeWrite lvl port value s
  | .bitslip lvl port lane value => execBitslip lvl port lane value s
  | .captureAtWrite lvl port lane value word => execCaptureAtWrite lvl port lane value word s
  | .injectModeWrite lvl port lane value => execInjectModeWrite lvl port lane value s
  | .policyWrite lvl port value => execPolicyWrite lvl port value s
  | .sourceSettingsWrite lvl port setting value => execSourceSettingsWrite lvl port setting value s
  | .swapRequestPrSwap lvl port => execSwapRequestPrSwap lvl port s
  | .swapRequestDrSwap lvl port => execSwapRequestDrSwap lvl port s
  | .swapRequestVconnSwap lvl port => execSwapRequestVconnSwap lvl port s
  | .portDisableWrite lvl port value => execPortDisableWrite lvl port value s
  | .epxEnableWrite lvl port value => execEpxEnableWrite lvl port value s
  | .faultClear lvl port value => execFaultClear lvl port value s
  | .headModeWrite lvl head value => execHeadModeWrite lvl head value s
  | .timingWrite lvl head item value => execTimingWrite lvl head item value s
  | .commit lvl head mask => execCommit lvl head mask s
  | .pairLockWrite lvl head value => execPairLockWrite lvl head value s
  | .capFormatWrite lvl head value => execCapFormatWrite lvl head value s
  | .notifyTableWrite lvl session sub val => execNotifyTableWrite lvl session sub val s
  | .settingsSave lvl value => execSettingsSave lvl value s
  | .factoryRestore lvl value => execFactoryRestore lvl value s
  | .keyLoad lvl transport slot engines key => execKeyLoad lvl transport slot engines key s
  | .keyErase lvl slot => execKeyErase lvl slot s
  | .keyDerive lvl req => execKeyDerive lvl req s
  | .rootGenerate lvl value => execRootGenerate lvl value s
  | .advance lvl port value => execAdvance lvl port value s
  | .tamperClear lvl value => execTamperClear lvl value s
  | .tamperConfigWrite lvl item value => execTamperConfigWrite lvl item value s
  | .revokeKey0 lvl confirm => execRevokeKey0 lvl confirm s
  | .revokeKey1 lvl confirm => execRevokeKey1 lvl confirm s
  | .blowCosignLock lvl confirm => execBlowCosignLock lvl confirm s
  | .faultNRelease lvl value => execFaultNRelease lvl value s
  | .firstClear lvl value => execFirstClear lvl value s
  | .statusClear lvl word value => execStatusClear lvl word value s
  | .sourceConfigWrite lvl source val => execSourceConfigWrite lvl source val s
  | .degradedClear lvl value => execDegradedClear lvl value s
  | .transferOpen lvl target size ident => execTransferOpen lvl target size ident s
  | .transferAbort lvl value => execTransferAbort lvl value s
  | .imageBlockWrite lvl block data crc => execImageBlockWrite lvl block data crc s
  | .verify lvl value => execVerify lvl value s
  | .activateNow lvl => execActivateNow lvl s
  | .activateDeferred lvl => execActivateDeferred lvl s
  | .activateCancel lvl => execActivateCancel lvl s
  | .updateLockWrite lvl value => execUpdateLockWrite lvl value s
  | .confirm lvl value => execConfirm lvl value s
  | .revert lvl value => execRevert lvl value s
  | .recoveryRequest lvl value => execRecoveryRequest lvl value s
  | .romBoot lvl value => execRomBoot lvl value s
  | .sleepMaxWrite lvl value => execSleepMaxWrite lvl value s
  | .objectWrite lvl index sub offset data => execObjectWrite lvl index sub offset data s

/-- A held write takes effect, and is answered, after the handover. -/
def Hub.runWrite (c : Hub) (m : Mems) (w : HeldWrite) : Hub × Mems :=
  match execHeld w ⟨[], c, m⟩ with
  | .next t => (t.hub, t.mem)
  | _ => (c, m)

/-- The first of the held work of a kind executed. -/
def Hub.runHeld (c : Hub) (m : Mems) : HeldKind → Hub × Mems
  | .write => match c.heldWrites with
    | [] => (c, m)
    | w :: rest => ({ c with heldWrites := rest } : Hub).runWrite m w
  | .fop => match c.fopHeld with
    | [] => (c, m)
    | (kind, x) :: rest =>
      if kind = droppedKind then ({ c with fopHeld := rest }, m) else
      let waits := c.blockWait.length
      let r := ({ c with fopHeld := rest } : Hub).fopRun m kind x
      (r.1.when (x.transport == .mailbox && decide (r.1.blockWait.length ≤ waits)) fun c => c.put H.reqBusy 0, r.2)
  | .rig => match c.rigHeld with
    | [] => (c, m)
    | h :: rest => ({ c with rigHeld := rest } : Hub).rigServe m h.op h.req

/-- The held work executed in the order it arrived. Work that starts a hand-back leaves the rest held. -/
def Hub.runOrder (c : Hub) (m : Mems) : List HeldKind → Hub × Mems
  | [] => (c, m)
  | k :: rest =>
    if c.handingOver then ({ c with heldOrder := (k :: rest) ++ c.heldOrder }, m)
    else
      let r := c.runHeld m k
      Hub.runOrder r.1 r.2 rest

/-- All held work runs: the Cox's held reports, requests and writes in arrival order, a flush of settings that a sag stage asked for, and the NOTIFYs that fell due. -/
def Hub.runAllHeld (c : Hub) (m : Mems) : Hub × Mems :=
  let order := c.heldOrder
  let r := Hub.runOrder ({ c with heldOrder := [] } : Hub).runReports m order
  let r := if r.1.get H.flushing = 2 then (r.1.put H.flushing 0).startFlush r.2 else r
  let due := r.1.get H.notifyHeld
  let c := (r.1.put H.notifyHeld 0).each ((List.range 32).filter fun e => bit due e) Hub.periodNotify
  (c.settle, r.2)

/-- HANDOVER_COMPLETE (R402, R404): whether every record passed its check, and the time it took. -/
def execHandoverComplete (recordsOk : Bool) (elapsed : BitVec 32) (s : State) : Host.Outcome State Fault Refusal :=
  onDomainsAll s fun c m =>
    let st := c.get O.activationState
    if st ≠ 5 ∧ st ≠ 7 then (c, m)
    else
      let c := if !recordsOk then c.handoverFailed else if st = 5 then c.handedOver m elapsed.toNat else c.handedBack m elapsed.toNat
      c.runAllHeld m

end Sys2Proof.Machine
end

