-- ==== Sys2Proof/Machine/Dispatch.lean ====
section
/-! DEFINITION. One arm per command: each calls its meaning. -/
namespace Sys2Proof.Machine

/-- What a command does to everything but the queue. -/
def exec (i : Instr) (s : State) : Host.Outcome State Fault Refusal :=
  match i with
  -- Reset
  | .resetRelease straps powered => Sys2Proof.Machine.execResetRelease straps powered s
  | .aonPowerOn => Sys2Proof.Machine.execAonPowerOn s
  | .resetNAssert => Sys2Proof.Machine.execResetNAssert s
  | .perstAssert => Sys2Proof.Machine.execPerstAssert s
  | .railFault rail => Sys2Proof.Machine.execRailFault rail s
  -- Tree
  | .joinRepeat => Sys2Proof.Machine.execJoinRepeat s
  | .assign port parent addr depth parentPort isReturn => Sys2Proof.Machine.execAssign port parent addr depth parentPort isReturn s
  | .assignAck port addr uid isReturn => Sys2Proof.Machine.execAssignAck port addr uid isReturn s
  | .refuse port reason => Sys2Proof.Machine.execRefuse port reason s
  | .orphan port => Sys2Proof.Machine.execOrphan port s
  | .orphanHoldExpiry => Sys2Proof.Machine.execOrphanHoldExpiry s
  -- Cox
  | .addressHoldExpiry addr => Sys2Proof.Machine.execAddressHoldExpiry addr s
  -- Tree
  | .probe dst => Sys2Proof.Machine.execProbe dst s
  -- Cox
  | .probeAck addr uid treeState => Sys2Proof.Machine.execProbeAck addr uid treeState s
  | .probeRetry addr => Sys2Proof.Machine.execProbeRetry addr s
  | .probeTimeout addr => Sys2Proof.Machine.execProbeTimeout addr s
  -- Tree
  | .sync port stroke offset => Sys2Proof.Machine.execSync port stroke offset s
  | .delayReq port sentAt => Sys2Proof.Machine.execDelayReq port sentAt s
  | .delayResp port down up => Sys2Proof.Machine.execDelayResp port down up s
  | .syncTimeout => Sys2Proof.Machine.execSyncTimeout s
  | .sleep port => Sys2Proof.Machine.execSleep port s
  -- Switch
  | .packetReceive input pkt => Sys2Proof.Machine.execPacketReceive input pkt s
  -- Path
  | .pathTableWrite lvl first entries => Sys2Proof.Machine.execPathTableWrite lvl first entries s
  | .mcastTableWrite lvl group members outTids => Sys2Proof.Machine.execMcastTableWrite lvl group members outTids s
  | .stageTableWrite lvl slot rec => Sys2Proof.Machine.execStageTableWrite lvl slot rec s
  | .stageMessage rec vid => Sys2Proof.Machine.execStageMessage rec vid s
  -- Cox
  | .stageFail hub tid status activate => Sys2Proof.Machine.execStageFail hub tid status activate s
  | .routeWrite lvl route req => Sys2Proof.Machine.execRouteWrite lvl route req s
  -- Stroke
  | .strokeBoundary => Sys2Proof.Machine.execStrokeBoundary s
  | .driveWindowClose port => Sys2Proof.Machine.execDriveWindowClose port s
  -- Cox
  | .reportReceive rep => Sys2Proof.Machine.execReportReceive rep s
  | .planCompute elapsed => Sys2Proof.Machine.execPlanCompute elapsed s
  -- Stroke
  | .plan plan => Sys2Proof.Machine.execPlan plan s
  -- Egress
  | .egressSelect port read => Sys2Proof.Machine.execEgressSelect port read s
  | .adapterEgress e read => Sys2Proof.Machine.execAdapterEgress e read s
  -- Switch
  | .spillMove q => Sys2Proof.Machine.execSpillMove q s
  | .refillMove q dramError => Sys2Proof.Machine.execRefillMove q dramError s
  | .scrubRead word err owner collide => Sys2Proof.Machine.execScrubRead word err owner collide s
  | .scrubPaceCheck wordsDone wordsDue => Sys2Proof.Machine.execScrubPaceCheck wordsDone wordsDue s
  | .poolSizeWrite lvl pool value => Sys2Proof.Machine.execPoolSizeWrite lvl pool value s
  | .spillSizeWrite lvl value => Sys2Proof.Machine.execSpillSizeWrite lvl value s
  -- Stroke
  | .grantWrite lvl entry grant => Sys2Proof.Machine.execGrantWrite lvl entry grant s
  | .shaperWrite lvl shaper mode rate => Sys2Proof.Machine.execShaperWrite lvl shaper mode rate s
  | .policerWrite lvl policer mode rate => Sys2Proof.Machine.execPolicerWrite lvl policer mode rate s
  -- Cox
  | .allotWrite lvl route min max mode => Sys2Proof.Machine.execAllotWrite lvl route min max mode s
  -- Stroke
  | .quantumWrite lvl q value => Sys2Proof.Machine.execQuantumWrite lvl q value s
  | .histClear lvl delay q bins => Sys2Proof.Machine.execHistClear lvl delay q bins s
  | .driveWindowWrite lvl value => Sys2Proof.Machine.execDriveWindowWrite lvl value s
  -- Pcie
  | .pcieTlpReceive tlp => Sys2Proof.Machine.execPcieTlpReceive tlp s
  | .rootPortTlpReceive fromTunnel tlp => Sys2Proof.Machine.execRootPortTlpReceive fromTunnel tlp s
  | .pcieTlpEgress creditP creditNp creditCpl => Sys2Proof.Machine.execPcieTlpEgress creditP creditNp creditCpl s
  | .pcieReleaseOnly tid => Sys2Proof.Machine.execPcieReleaseOnly tid s
  | .pcieHotReset vdp => Sys2Proof.Machine.execPcieHotReset vdp s
  | .pcieLinkTraining speed width => Sys2Proof.Machine.execPcieLinkTraining speed width s
  | .pcieLinkDown => Sys2Proof.Machine.execPcieLinkDown s
  | .vdpPoll vdp answer => Sys2Proof.Machine.execVdpPoll vdp answer s
  | .vdpTableWrite lvl vdp down up => Sys2Proof.Machine.execVdpTableWrite lvl vdp down up s
  | .rpHotReset lvl value => Sys2Proof.Machine.execRpHotReset lvl value s
  | .bar2Access offset write data => Sys2Proof.Machine.execBar2Access offset write data s
  -- Bridge
  | .bar4Write offset bulk data => Sys2Proof.Machine.execBar4Write offset bulk data s
  | .bar4Read requester tag offset len => Sys2Proof.Machine.execBar4Read requester tag offset len s
  | .apertureTimeout requester tag => Sys2Proof.Machine.execApertureTimeout requester tag s
  -- Ether
  | .macFrameReceive mac frame => Sys2Proof.Machine.execMacFrameReceive mac frame s
  | .pauseFrame mac quanta => Sys2Proof.Machine.execPauseFrame mac quanta s
  | .pauseExpiry mac => Sys2Proof.Machine.execPauseExpiry mac s
  | .ethFrameEgress mac tid => Sys2Proof.Machine.execEthFrameEgress mac tid s
  | .macLinkDown mac => Sys2Proof.Machine.execMacLinkDown mac s
  -- Fio
  | .fioCyclicReceive tid payload => Sys2Proof.Machine.execFioCyclicReceive tid payload s
  | .fioStale rec => Sys2Proof.Machine.execFioStale rec s
  | .fioRecordWrite lvl rx rec val => Sys2Proof.Machine.execFioRecordWrite lvl rx rec val s
  | .acycSubmit lvl slot msg => Sys2Proof.Machine.execAcycSubmit lvl slot msg s
  | .acycSend slot => Sys2Proof.Machine.execAcycSend slot s
  | .acycReceive tid info payload => Sys2Proof.Machine.execAcycReceive tid info payload s
  -- Bridge
  | .rigRead req => Sys2Proof.Machine.execRigRead req s
  | .rigWrite req => Sys2Proof.Machine.execRigWrite req s
  | .rigPostedWrite req => Sys2Proof.Machine.execRigPostedWrite req s
  | .rigFlush req => Sys2Proof.Machine.execRigFlush req s
  | .rigClaim req => Sys2Proof.Machine.execRigClaim req s
  | .rigRelease req => Sys2Proof.Machine.execRigRelease req s
  | .readRsp rsp => Sys2Proof.Machine.execReadRsp rsp s
  | .writeRsp rsp => Sys2Proof.Machine.execWriteRsp rsp s
  | .postedError rsp => Sys2Proof.Machine.execPostedError rsp s
  | .flushRsp rsp => Sys2Proof.Machine.execFlushRsp rsp s
  | .claimRsp rsp => Sys2Proof.Machine.execClaimRsp rsp s
  | .releaseRsp rsp => Sys2Proof.Machine.execReleaseRsp rsp s
  | .prefetchData rsp => Sys2Proof.Machine.execPrefetchData rsp s
  | .retryTime tag => Sys2Proof.Machine.execRetryTime tag s
  | .bulkIdle hub window => Sys2Proof.Machine.execBulkIdle hub window s
  | .claimMax => Sys2Proof.Machine.execClaimMax s
  | .backoffTime hub => Sys2Proof.Machine.execBackoffTime hub s
  | .prefetchLife line => Sys2Proof.Machine.execPrefetchLife line s
  | .requestSlotSubmit lvl slot req => Sys2Proof.Machine.execRequestSlotSubmit lvl slot req s
  | .targetWindowsWrite lvl window val => Sys2Proof.Machine.execTargetWindowsWrite lvl window val s
  -- Link
  | .flitReceive port rx => Sys2Proof.Machine.execFlitReceive port rx s
  | .flitTransmit port => Sys2Proof.Machine.execFlitTransmit port s
  | .replayTimeout port => Sys2Proof.Machine.execReplayTimeout port s
  | .lanesTrained port gear txLanes rxLanes => Sys2Proof.Machine.execLanesTrained port gear txLanes rxLanes s
  | .initReceive port init => Sys2Proof.Machine.execInitReceive port init s
  | .nonceRecord port parity nonce check => Sys2Proof.Machine.execNonceRecord port parity nonce check s
  | .initTimeout port => Sys2Proof.Machine.execInitTimeout port s
  | .retrainLimitExpiry port => Sys2Proof.Machine.execRetrainLimitExpiry port s
  | .retrainRequest lvl port value => Sys2Proof.Machine.execRetrainRequest lvl port value s
  | .quietRequest port => Sys2Proof.Machine.execQuietRequest port s
  | .quietAcknowledge port => Sys2Proof.Machine.execQuietAcknowledge port s
  | .quietWake port => Sys2Proof.Machine.execQuietWake port s
  | .quietWakeLead port => Sys2Proof.Machine.execQuietWakeLead port s
  | .wakeFail port => Sys2Proof.Machine.execWakeFail port s
  | .cryptEnableWrite lvl port value => Sys2Proof.Machine.execCryptEnableWrite lvl port value s
  | .creditLimitWrite lvl port cls value => Sys2Proof.Machine.execCreditLimitWrite lvl port cls value s
  -- Lanes
  | .receiverDetect port tx0 tx1 => Sys2Proof.Machine.execReceiverDetect port tx0 tx1 s
  | .wakeBurstsReceived port => Sys2Proof.Machine.execWakeBurstsReceived port s
  | .wakeTimeout port => Sys2Proof.Machine.execWakeTimeout port s
  | .tsReceive port lane rx => Sys2Proof.Machine.execTsReceive port lane rx s
  | .eqStep port lane fom => Sys2Proof.Machine.execEqStep port lane fom s
  | .rateSwitch port => Sys2Proof.Machine.execRateSwitch port s
  | .holdLimitExpiry port => Sys2Proof.Machine.execHoldLimitExpiry port s
  | .polarityTimeout port => Sys2Proof.Machine.execPolarityTimeout port s
  | .equaliseLimit port => Sys2Proof.Machine.execEqualiseLimit port s
  | .lockTimeout port => Sys2Proof.Machine.execLockTimeout port s
  | .gearNegotiationTimeout port => Sys2Proof.Machine.execGearNegotiationTimeout port s
  | .gearStepLimit port => Sys2Proof.Machine.execGearStepLimit port s
  | .lanesIdleWake port => Sys2Proof.Machine.execLanesIdleWake port s
  | .losAssert port lane => Sys2Proof.Machine.execLosAssert port lane s
  | .lolAssert port lane => Sys2Proof.Machine.execLolAssert port lane s
  | .eyeScanDone port lane height width => Sys2Proof.Machine.execEyeScanDone port lane height width s
  | .linkEnableWrite lvl port value => Sys2Proof.Machine.execLinkEnableWrite lvl port value s
  | .gearMaxWrite lvl port value => Sys2Proof.Machine.execGearMaxWrite lvl port value s
  | .laneUseWrite lvl port value => Sys2Proof.Machine.execLaneUseWrite lvl port value s
  | .readyHoldWrite lvl port value => Sys2Proof.Machine.execReadyHoldWrite lvl port value s
  -- TestLoops
  | .testModeWrite lvl port value => Sys2Proof.Machine.execTestModeWrite lvl port value s
  | .bitslip lvl port lane value => Sys2Proof.Machine.execBitslip lvl port lane value s
  | .captureAtWrite lvl port lane value word => Sys2Proof.Machine.execCaptureAtWrite lvl port lane value word s
  | .injectModeWrite lvl port lane value => Sys2Proof.Machine.execInjectModeWrite lvl port lane value s
  | .inject port lane => Sys2Proof.Machine.execInject port lane s
  -- TypeC
  | .drpToggle port => Sys2Proof.Machine.execDrpToggle port s
  | .ccTerminationSeen port cc => Sys2Proof.Machine.execCcTerminationSeen port cc s
  | .ccDebounceExpiry port => Sys2Proof.Machine.execCcDebounceExpiry port s
  | .ccDetach port => Sys2Proof.Machine.execCcDetach port s
  -- Pd
  | .sourceCapabilities port epr pdos => Sys2Proof.Machine.execSourceCapabilities port epr pdos s
  | .request port epr rdo => Sys2Proof.Machine.execRequest port epr rdo s
  | .accept port => Sys2Proof.Machine.execAccept port s
  | .psRdy port => Sys2Proof.Machine.execPsRdy port s
  | .eprModeEnter port => Sys2Proof.Machine.execEprModeEnter port s
  | .eprModeExit port => Sys2Proof.Machine.execEprModeExit port s
  | .eprKeepalive port => Sys2Proof.Machine.execEprKeepalive port s
  | .softReset port => Sys2Proof.Machine.execSoftReset port s
  | .hardReset port => Sys2Proof.Machine.execHardReset port s
  | .prSwap port => Sys2Proof.Machine.execPrSwap port s
  | .drSwap port => Sys2Proof.Machine.execDrSwap port s
  | .vconnSwap port => Sys2Proof.Machine.execVconnSwap port s
  | .pdWait port => Sys2Proof.Machine.execPdWait port s
  | .pdUnsupported port sop msg => Sys2Proof.Machine.execPdUnsupported port sop msg s
  -- ModeEntry
  | .discoverIdentity port => Sys2Proof.Machine.execDiscoverIdentity port s
  | .discoverSvids port => Sys2Proof.Machine.execDiscoverSvids port s
  | .discoverModes port svid => Sys2Proof.Machine.execDiscoverModes port svid s
  | .enterMode port svid position vdo => Sys2Proof.Machine.execEnterMode port svid position vdo s
  | .exitMode port svid => Sys2Proof.Machine.execExitMode port svid s
  | .attention port svid vdo => Sys2Proof.Machine.execAttention port svid vdo s
  -- Pd
  | .cableIdentity port cable => Sys2Proof.Machine.execCableIdentity port cable s
  | .senderResponseTimer port => Sys2Proof.Machine.execSenderResponseTimer port s
  | .psTransitionTimer port => Sys2Proof.Machine.execPsTransitionTimer port s
  | .sourceEprKeepaliveTimer port => Sys2Proof.Machine.execSourceEprKeepaliveTimer port s
  | .sinkEprKeepaliveTimer port => Sys2Proof.Machine.execSinkEprKeepaliveTimer port s
  | .noResponseTimer port => Sys2Proof.Machine.execNoResponseTimer port s
  | .ppsRequestTimer port => Sys2Proof.Machine.execPpsRequestTimer port s
  | .swapRetryTimer port => Sys2Proof.Machine.execSwapRetryTimer port s
  -- ModeEntry
  | .modeEntryDelay port => Sys2Proof.Machine.execModeEntryDelay port s
  | .entryWait port => Sys2Proof.Machine.execEntryWait port s
  | .vdmResponseTimeout port => Sys2Proof.Machine.execVdmResponseTimeout port s
  -- Pd
  | .goodcrcTimeout port sop => Sys2Proof.Machine.execGoodcrcTimeout port sop s
  -- TypeC
  | .errorRecoveryTimer port => Sys2Proof.Machine.execErrorRecoveryTimer port s
  -- Pd
  | .srcRecoverTimer port => Sys2Proof.Machine.execSrcRecoverTimer port s
  | .vconnStableTimer port => Sys2Proof.Machine.execVconnStableTimer port s
  | .cableDiscoveryRetry port => Sys2Proof.Machine.execCableDiscoveryRetry port s
  | .sendSourceCapTimer port => Sys2Proof.Machine.execSendSourceCapTimer port s
  | .vconnOvercurrent port milliamps => Sys2Proof.Machine.execVconnOvercurrent port milliamps s
  -- TypeC
  | .policyWrite lvl port value => Sys2Proof.Machine.execPolicyWrite lvl port value s
  -- Pd
  | .sourceSettingsWrite lvl port setting value => Sys2Proof.Machine.execSourceSettingsWrite lvl port setting value s
  | .swapRequestPrSwap lvl port => Sys2Proof.Machine.execSwapRequestPrSwap lvl port s
  | .swapRequestDrSwap lvl port => Sys2Proof.Machine.execSwapRequestDrSwap lvl port s
  | .swapRequestVconnSwap lvl port => Sys2Proof.Machine.execSwapRequestVconnSwap lvl port s
  -- TypeC
  | .portDisableWrite lvl port value => Sys2Proof.Machine.execPortDisableWrite lvl port value s
  -- ModeEntry
  | .epxEnableWrite lvl port value => Sys2Proof.Machine.execEpxEnableWrite lvl port value s
  -- PowerPath
  | .powerPathTick port cmp => Sys2Proof.Machine.execPowerPathTick port cmp s
  | .fastTrip port => Sys2Proof.Machine.execFastTrip port s
  | .faultTimerExpiry port => Sys2Proof.Machine.execFaultTimerExpiry port s
  | .thermalLimit port sink => Sys2Proof.Machine.execThermalLimit port sink s
  | .reverseCurrent port => Sys2Proof.Machine.execReverseCurrent port s
  | .pathTurnOn port sink => Sys2Proof.Machine.execPathTurnOn port sink s
  | .converterSettled port => Sys2Proof.Machine.execConverterSettled port s
  | .converterTimeout port => Sys2Proof.Machine.execConverterTimeout port s
  | .rampComplete port sink => Sys2Proof.Machine.execRampComplete port sink s
  | .pathTurnOff port sink => Sys2Proof.Machine.execPathTurnOff port sink s
  | .coolDownExpiry port sink => Sys2Proof.Machine.execCoolDownExpiry port sink s
  | .retryHold port => Sys2Proof.Machine.execRetryHold port s
  | .faultClear lvl port value => Sys2Proof.Machine.execFaultClear lvl port value s
  | .adcConversion sample => Sys2Proof.Machine.execAdcConversion sample s
  -- Feeds
  | .feedQualify feedB => Sys2Proof.Machine.execFeedQualify feedB s
  | .feedLoss feedB cause => Sys2Proof.Machine.execFeedLoss feedB cause s
  | .feedDeadTimeExpiry => Sys2Proof.Machine.execFeedDeadTimeExpiry s
  | .feedRampComplete => Sys2Proof.Machine.execFeedRampComplete s
  | .feedRevert => Sys2Proof.Machine.execFeedRevert s
  -- Heads
  | .headModeWrite lvl head value => Sys2Proof.Machine.execHeadModeWrite lvl head value s
  | .timingWrite lvl head item value => Sys2Proof.Machine.execTimingWrite lvl head item value s
  | .commit lvl head mask => Sys2Proof.Machine.execCommit lvl head mask s
  | .latchEdge head => Sys2Proof.Machine.execLatchEdge head s
  | .underrun head line => Sys2Proof.Machine.execUnderrun head line s
  | .hpdRise head sink => Sys2Proof.Machine.execHpdRise head sink s
  | .irqHpd head linkLost sink => Sys2Proof.Machine.execIrqHpd head linkLost sink s
  | .captureFrame head attr lines => Sys2Proof.Machine.execCaptureFrame head attr lines s
  | .sdpReceive head line audio data => Sys2Proof.Machine.execSdpReceive head line audio data s
  | .passThroughPacket head pkt => Sys2Proof.Machine.execPassThroughPacket head pkt s
  | .streamLost head => Sys2Proof.Machine.execStreamLost head s
  | .pairLockWrite lvl head value => Sys2Proof.Machine.execPairLockWrite lvl head value s
  | .capFormatWrite lvl head value => Sys2Proof.Machine.execCapFormatWrite lvl head value s
  | .dramScrub word err collide => Sys2Proof.Machine.execDramScrub word err collide s
  | .dramScrubPace wordsDone wordsDue => Sys2Proof.Machine.execDramScrubPace wordsDone wordsDue s
  -- Fop
  | .fopRead msg => Sys2Proof.Machine.execFopRead msg s
  | .fopWrite msg => Sys2Proof.Machine.execFopWrite msg s
  | .fopReadBlock msg => Sys2Proof.Machine.execFopReadBlock msg s
  | .fopWriteBlock msg => Sys2Proof.Machine.execFopWriteBlock msg s
  | .fopSegment msg => Sys2Proof.Machine.execFopSegment msg s
  | .fopAbort write msg => Sys2Proof.Machine.execFopAbort write msg s
  | .fopRelay transport addr port raw => Sys2Proof.Machine.execFopRelay transport addr port raw s
  | .sessionOpen msg => Sys2Proof.Machine.execSessionOpen msg s
  | .sessionClose msg => Sys2Proof.Machine.execSessionClose msg s
  | .idleTimeout session => Sys2Proof.Machine.execIdleTimeout session s
  | .blockTimeout session => Sys2Proof.Machine.execBlockTimeout session s
  | .notifySample => Sys2Proof.Machine.execNotifySample s
  | .notifyPeriod sub => Sys2Proof.Machine.execNotifyPeriod sub s
  | .notifyTableWrite lvl session sub val => Sys2Proof.Machine.execNotifyTableWrite lvl session sub val s
  | .mailboxDoorbell request => Sys2Proof.Machine.execMailboxDoorbell request s
  | .rspAck => Sys2Proof.Machine.execRspAck s
  | .neighborSolicitation target kind => Sys2Proof.Machine.execNeighborSolicitation target kind s
  | .echoRequest source payload => Sys2Proof.Machine.execEchoRequest source payload s
  | .udpWrongPort source port => Sys2Proof.Machine.execUdpWrongPort source port s
  -- Settings
  | .settingsSave lvl value => Sys2Proof.Machine.execSettingsSave lvl value s
  | .settingsSaveDone ok => Sys2Proof.Machine.execSettingsSaveDone ok s
  | .factoryRestore lvl value => Sys2Proof.Machine.execFactoryRestore lvl value s
  -- Keys
  | .keyLoad lvl transport slot engines key => Sys2Proof.Machine.execKeyLoad lvl transport slot engines key s
  | .keyErase lvl slot => Sys2Proof.Machine.execKeyErase lvl slot s
  | .keyDerive lvl req => Sys2Proof.Machine.execKeyDerive lvl req s
  | .rootGenerate lvl value => Sys2Proof.Machine.execRootGenerate lvl value s
  | .advance lvl port value => Sys2Proof.Machine.execAdvance lvl port value s
  | .tamperDetect sources => Sys2Proof.Machine.execTamperDetect sources s
  | .tamperClear lvl value => Sys2Proof.Machine.execTamperClear lvl value s
  | .tamperConfigWrite lvl item value => Sys2Proof.Machine.execTamperConfigWrite lvl item value s
  | .revokeKey0 lvl confirm => Sys2Proof.Machine.execRevokeKey0 lvl confirm s
  | .revokeKey1 lvl confirm => Sys2Proof.Machine.execRevokeKey1 lvl confirm s
  | .blowCosignLock lvl confirm => Sys2Proof.Machine.execBlowCosignLock lvl confirm s
  | .rngHealthFail => Sys2Proof.Machine.execRngHealthFail s
  -- Umpire
  | .umpireEvent cycle => Sys2Proof.Machine.execUmpireEvent cycle s
  -- Reset
  | .fatalResetRelease powered => Sys2Proof.Machine.execFatalResetRelease powered s
  -- Umpire
  | .shadowWindowClose reaction => Sys2Proof.Machine.execShadowWindowClose reaction s
  | .reactionTimeout reaction => Sys2Proof.Machine.execReactionTimeout reaction s
  | .faultNTimeEnd => Sys2Proof.Machine.execFaultNTimeEnd s
  | .faultNRelease lvl value => Sys2Proof.Machine.execFaultNRelease lvl value s
  | .firstClear lvl value => Sys2Proof.Machine.execFirstClear lvl value s
  | .statusClear lvl word value => Sys2Proof.Machine.execStatusClear lvl word value s
  | .sourceConfigWrite lvl source val => Sys2Proof.Machine.execSourceConfigWrite lvl source val s
  | .degradedClear lvl value => Sys2Proof.Machine.execDegradedClear lvl value s
  -- Update
  | .transferOpen lvl target size ident => Sys2Proof.Machine.execTransferOpen lvl target size ident s
  | .transferAbort lvl value => Sys2Proof.Machine.execTransferAbort lvl value s
  | .imageBlockWrite lvl block data crc => Sys2Proof.Machine.execImageBlockWrite lvl block data crc s
  | .imageBlockProgrammed => Sys2Proof.Machine.execImageBlockProgrammed s
  | .verify lvl value => Sys2Proof.Machine.execVerify lvl value s
  | .verifyDone => Sys2Proof.Machine.execVerifyDone s
  | .activateNow lvl => Sys2Proof.Machine.execActivateNow lvl s
  | .activateDeferred lvl => Sys2Proof.Machine.execActivateDeferred lvl s
  | .activateCancel lvl => Sys2Proof.Machine.execActivateCancel lvl s
  | .activationStart => Sys2Proof.Machine.execActivationStart s
  | .lineRunChange level => Sys2Proof.Machine.execLineRunChange level s
  | .updateLockWrite lvl value => Sys2Proof.Machine.execUpdateLockWrite lvl value s
  | .loadingDone => Sys2Proof.Machine.execLoadingDone s
  | .preparingDone selfTestsPass => Sys2Proof.Machine.execPreparingDone selfTestsPass s
  | .handoverStart => Sys2Proof.Machine.execHandoverStart s
  | .handoverComplete recordsOk elapsed => Sys2Proof.Machine.execHandoverComplete recordsOk elapsed s
  | .confirm lvl value => Sys2Proof.Machine.execConfirm lvl value s
  | .revert lvl value => Sys2Proof.Machine.execRevert lvl value s
  | .confirmWindowExpiry => Sys2Proof.Machine.execConfirmWindowExpiry s
  | .recoveryRequest lvl value => Sys2Proof.Machine.execRecoveryRequest lvl value s
  | .romBoot lvl value => Sys2Proof.Machine.execRomBoot lvl value s
  -- Sleep
  | .sleepSelect nextKnown toBoundary => Sys2Proof.Machine.execSleepSelect nextKnown toBoundary s
  | .exitStart powered => Sys2Proof.Machine.execExitStart powered s
  | .wake source powered => Sys2Proof.Machine.execWake source powered s
  | .sleepMaxWrite lvl value => Sys2Proof.Machine.execSleepMaxWrite lvl value s
  -- Sag
  | .sagStageEnter stage => Sys2Proof.Machine.execSagStageEnter stage s
  | .sagStageClear stage => Sys2Proof.Machine.execSagStageClear stage s
  -- Fop
  | .objectWrite lvl index sub offset data => Sys2Proof.Machine.execObjectWrite lvl index sub offset data s
  -- Reset
  | .perstDeassert => Sys2Proof.Machine.execPerstDeassert s
  -- Ether
  | .macLinkUp mac rate => Sys2Proof.Machine.execMacLinkUp mac rate s
  -- Heads
  | .hpdFall head => Sys2Proof.Machine.execHpdFall head s
  | .sinkRetraining head link => Sys2Proof.Machine.execSinkRetraining head link s
  -- Lanes
  | .losDeassert port lane => Sys2Proof.Machine.execLosDeassert port lane s
  | .lolDeassert port lane => Sys2Proof.Machine.execLolDeassert port lane s
  -- TestLoops
  | .checkerLock port lane => Sys2Proof.Machine.execCheckerLock port lane s
  | .checkerLockLoss port lane => Sys2Proof.Machine.execCheckerLockLoss port lane s
  -- TypeC
  | .tryTimerExpiry port timer => Sys2Proof.Machine.execTryTimerExpiry port timer s
  -- Pd
  | .srcTransitionTimer port => Sys2Proof.Machine.execSrcTransitionTimer port s
  | .stage1ContractTimeout port => Sys2Proof.Machine.execStage1ContractTimeout port s
  | .getSourceCap port => Sys2Proof.Machine.execGetSourceCap port s
  | .getSinkCap port => Sys2Proof.Machine.execGetSinkCap port s
  | .getRevision port => Sys2Proof.Machine.execGetRevision port s
  | .getStatus port => Sys2Proof.Machine.execGetStatus port s
  | .reject port => Sys2Proof.Machine.execReject port s
  -- ModeEntry
  | .vdmAnswer port ans => Sys2Proof.Machine.execVdmAnswer port ans s
  -- Keys
  | .rngHealthPass => Sys2Proof.Machine.execRngHealthPass s
  -- Reset
  | .vbatPowerOn => Sys2Proof.Machine.execVbatPowerOn s
  -- Heads
  | .hpdLowHoldEnd head => Sys2Proof.Machine.execHpdLowHoldEnd head s
  -- Fop
  | .ntfTailWrite value => Sys2Proof.Machine.execNtfTailWrite value s

end Sys2Proof.Machine
end

