-- ==== Sys2Proof/Machine/Step.lean ====
section
/-! DEFINITION. One step of the block: the command at the front of the queue runs; with none waiting the block idles. -/
namespace Sys2Proof.Machine

/-- One step. The command that has waited longest runs on the state with the rest of the queue. On an empty queue the block idles for one period of its
logic, in which the Umpire samples its lines (DESIGN CHOICE, notes/assumptions/8.md). -/
def step (s : State) : Host.Outcome State Fault Refusal :=
  match s.pending with
  | [] => .next { s with hub := s.hub.idle }
  | c :: rest => exec c { s with pending := rest }

/-- The state with the command that a table's word spells in front of its queue; no word spells one. -/
def State.withFetchWord (s : State) (nbits w : Nat) : State :=
  match decodeTableWord nbits w with
  | some c => { s with pending := c :: s.pending }
  | none => s

end Sys2Proof.Machine
end

