-- ==== Sys2Proof/Safety.lean ====
section
/-! DEFINITION. What counts as a safe run of the block: no step faults or is refused, the memories keep their canonical form, and the
pairs of a port their interlock; and the forms in which the statements say what a command answers. -/
namespace Sys2Proof.Machine

/-- The step answers a next state. -/
def State.steps (s : State) : Prop := ∃ t, step s = .next t

/-- The memories of a state are in canonical form. -/
def State.memWf (s : State) : Prop := s.mem.wf = true

/-- Every state that at most k steps reach exists, with canonical memories. -/
def safeFor : Nat → State → Prop
  | 0, s => s.memWf
  | k + 1, s => s.memWf ∧ ∃ t, step s = .next t ∧ safeFor k t

/-- A command completes: `exec` answers a next state whose queue is untouched, and hub and memories have a property. -/
def AnswersAll (i : Instr) (s : State) (P : Hub → Mems → Prop) : Prop := ∃ t, exec i s = .next t ∧ t.pending = s.pending ∧ P t.hub t.mem

/-- A command completes and leaves every memory as it was: `exec` answers a next state whose queue is untouched and whose hub has a property. -/
def Answers (i : Instr) (s : State) (P : Hub → Prop) : Prop := AnswersAll i s fun d m => m = s.mem ∧ P d

/-- The hub after a command sends exactly this more. -/
def Sends (c d : Hub) (xs : List Out) : Prop := d.out = c.out ++ xs

/-- The registers of d are those of c but for the ones named. -/
def OnlyRegs (c d : Hub) (os : List Obj) : Prop := ∀ o : Obj, (∀ x ∈ os, o.key ≠ x.key) → d.get o = c.get o

/-- Registers of objects other than the ones named are unchanged. One register of an object names the whole object: all its ports, lanes, heads or
entries, and all fields of a table. -/
def OnlyObjects (c d : Hub) (os : List Obj) : Prop := ∀ o : Obj, (∀ x ∈ os, o.key.obj ≠ x.key.obj) → d.get o = c.get o

/-- The dictionary's objects outside the indexes named are unchanged. -/
def OnlyIndexes (c d : Hub) (is : List Nat) : Prop := ∀ o : Obj, o.key.obj < 0x1000000 → o.key.obj / 256 ∉ is → d.get o = c.get o

/-- Nothing waits on a port for an exchange to end: neither sag stage 1, nor capabilities, nor a swap request not yet sent. -/
abbrev Settled (c : Hub) (p : Port) : Prop := c.flag (H.sagDue p) = false ∧ c.flag (H.capsDue p) = false ∧ c.get (H.swapWait p) ≠ 2

/-- No change of the management network's settings waits for a response to go out before it. -/
abbrev NetworkSettled (c : Hub) : Prop := c.get H.dadDue = 0 ∧ c.get H.portWas = 0

/-- The bridge is on, no request of it waits or is out, and it holds no read-ahead line. -/
abbrev RigIdle (c : Hub) : Prop :=
  c.flag O.bridgeEnable = true ∧ c.rigWait = [] ∧ c.rigOut = [] ∧ c.rigBack = [] ∧ c.rigLines = []

/-- A hub's requests are sent, though the Cox alone sends them without a route (R270). -/
abbrev Reaches (c : Hub) (hub : Nat) : Prop := c.isCox = true ∨ c.rigGone hub = false

/-- A key slot that is read passes its check, or is not Valid (R343). -/
abbrev SlotSound (c : Hub) (k : Nat) : Prop := c.useSlot k = c

/-- DRAM, process image and the image slots of the flash are unchanged: only the control area and the settings area may differ (R388). -/
abbrev ImagesKept (m n : Mems) : Prop :=
  n.dram = m.dram ∧ n.image = m.image ∧ ∀ a, 0x400000 ≤ a → a < 0x3C00000 → n.readFlash a 1 = m.readFlash a 1

/-- Every memory but the control area of the flash is unchanged (R388). -/
abbrev RecordsKept (m n : Mems) : Prop := ImagesKept m n ∧ ∀ a, 0x3C00000 ≤ a → n.readFlash a 1 = m.readFlash a 1

/-- A PLAN for a boundary is among what the hub sent to another (R127). -/
def planSent (d : Hub) (a effective : Nat) : Bool :=
  d.out.any fun o => match o with | .mgmt _ _ (.plan x) => o == .mgmtTo none a (.plan x) && x.effective.toNat == effective | _ => false

/-- The registers of a path-table entry. -/
def entryRegs (t : Nat) : List Obj :=
  [O.pathFlags t, O.pathType t, O.pathIn t, O.pathCls t, O.pathOut t, O.pathOutTid t, O.pathShaper t, O.pathPolicer t, O.pathPair t]

/-- Entry t holds an entry as it was written, its reserved bits cleared and DRAIN 0 (R6, R60). -/
def EntryTaken (d : Hub) (t : Nat) (e : PathEntry) : Prop :=
  d.get (O.pathFlags t) = e.flags.toNat % 4 ∧ d.get (O.pathType t) = e.type.toNat ∧ d.get (O.pathIn t) = e.inp.toNat
    ∧ d.get (O.pathCls t) = e.cls.toNat % 8 ∧ d.get (O.pathOut t) = e.out.toNat % (if bit e.flags.toNat 1 then 1024 else 256)
    ∧ d.get (O.pathOutTid t) = e.outTid.toNat % 16384 ∧ d.get (O.pathShaper t) = e.shaper.toNat
    ∧ d.get (O.pathPolicer t) = e.policer.toNat ∧ d.get (O.pathPair t) = e.pair.toNat

/-- The registers of a staged record, with the two that say where it came from. -/
def stageRegs (k : Nat) : List Obj :=
  [O.stageTid k, O.stageUsed k, O.stageActivate k, O.stageFlags k, O.stageType k, O.stageIn k, O.stageCls k, O.stageOut k, O.stageOutTid k,
    O.stageShaper k, O.stagePolicer k, O.stagePair k, H.stageVid k, H.stageFromCox k]

/-- Slot k holds a staged record in use as it was given (R6, R66). -/
def StageTaken (d : Hub) (k : Nat) (r : StageRecord) : Prop :=
  d.get (O.stageUsed k) = 1 ∧ d.get (O.stageTid k) = r.tid.toNat ∧ d.get (O.stageActivate k) = r.activate.toNat
    ∧ d.get (O.stageFlags k) = r.entry.flags.toNat % 4 ∧ d.get (O.stageType k) = r.entry.type.toNat ∧ d.get (O.stageIn k) = r.entry.inp.toNat
    ∧ d.get (O.stageCls k) = r.entry.cls.toNat % 8
    ∧ d.get (O.stageOut k) = r.entry.out.toNat % (if bit r.entry.flags.toNat 1 then 1024 else 256)
    ∧ d.get (O.stageOutTid k) = r.entry.outTid.toNat % 16384 ∧ d.get (O.stageShaper k) = r.entry.shaper.toNat
    ∧ d.get (O.stagePolicer k) = r.entry.policer.toNat ∧ d.get (O.stagePair k) = r.entry.pair.toNat

/-- A write of the path table or the staging table is refused: its status is answered, PATH_STATUS shows the code of R453, and nothing else changes. -/
def PathRefused (c d : Hub) (code : Nat) (st : Status) : Prop :=
  Sends c d [.status st] ∧ d.get O.pathStatus = code ∧ OnlyRegs c d [O.pathStatus]

/-- The interlock of the power paths (R228): of no port are both pairs in Ramp or On. -/
def Interlocked (c : Hub) : Prop :=
  ∀ p : Port, (c.get (pathObj p 0) = 1 ∨ c.get (pathObj p 0) = 2) → c.get (pathObj p 1) ≠ 1 ∧ c.get (pathObj p 1) ≠ 2

/-- The pair that a current counts for (R247): 0 source, 1 sink. -/
abbrev pairOf (ma : Int) : Nat := if 0 ≤ ma then 0 else 1

/-- The energy counter of a current's direction (R247). -/
abbrev energyObj (p : Nat) (ma : Int) : Obj := if 0 ≤ ma then O.energyOut p else O.energyIn p

/-- Engineer or Owner. -/
abbrev Engineers (lvl : Level) : Prop := lvl = .engineer ∨ lvl = .owner

/-- Operator, Engineer or Owner. -/
abbrev Operators (lvl : Level) : Prop := lvl = .operator ∨ lvl = .engineer ∨ lvl = .owner

/-- A request on the T1S transport that passes checks 1 to 7 of R322 in the hub's only session, its TAG apart, and after whose answer the
session goes on. -/
abbrev Admitted (c : Hub) (e : Session) (k : Nat) (x : FopMsg) : Prop :=
  x.transport = .t1s ∧ c.reachable = true ∧ c.get O.powerState = 0 ∧ c.handingOver = false ∧ fopWellFormed k x = true ∧ x.hub = 0xFF
    ∧ c.sessions = [e] ∧ x.session.toNat = e.id ∧ x.session ≠ 0 ∧ e.accepted = [] ∧ e.rxHigh < x.counter.toNat + 16
    ∧ x.level.toNat = Level.rank e.level ∧ e.tx + 1 < 0xFFFFFFFF ∧ x.counter ≠ 0xFFFFFFFF

/-- The TAG of a request is the HMAC of its header and body under the session's key (R328). -/
abbrev Signed (e : Session) (k : Nat) (x : FopMsg) : Prop := hmacSha256 e.key (fopSigned x k) % 2 ^ 256 = x.tag.toNat

/-- The hub answers a request in a session, on T1S, with a status, a COUNT and a body, and sends nothing else. -/
def Replied (c d : Hub) (e : Session) (k : Nat) (x : FopMsg) (st : Status) (count : Nat) (body : Bytes) : Prop :=
  Sends c d [.fop .t1s x.addr.toNat x.port.toNat c.sourcePort (answerHead x k (e.tx + 1) st count body ++ body
    ++ leBytes (hmacSha256 e.key (answerHead x k (e.tx + 1) st count body ++ body)) 32)]

/-- The level at which a command writes an object, and the lowest level that has the right to (R317, R322); none for every other command. -/
def writerOf : Instr → Option (Level × Level)
  | .pathTableWrite lvl .. => some (lvl, .engineer)
  | .mcastTableWrite lvl .. => some (lvl, .engineer)
  | .stageTableWrite lvl .. => some (lvl, .engineer)
  | .routeWrite lvl .. => some (lvl, .engineer)
  | .poolSizeWrite lvl .. => some (lvl, .engineer)
  | .spillSizeWrite lvl .. => some (lvl, .engineer)
  | .grantWrite lvl .. => some (lvl, .engineer)
  | .shaperWrite lvl .. => some (lvl, .engineer)
  | .policerWrite lvl .. => some (lvl, .engineer)
  | .allotWrite lvl .. => some (lvl, .engineer)
  | .quantumWrite lvl .. => some (lvl, .engineer)
  | .histClear lvl .. => some (lvl, .engineer)
  | .driveWindowWrite lvl .. => some (lvl, .engineer)
  | .vdpTableWrite lvl .. => some (lvl, .engineer)
  | .rpHotReset lvl .. => some (lvl, .engineer)
  | .fioRecordWrite lvl .. => some (lvl, .engineer)
  | .acycSubmit lvl .. => some (lvl, .operator)
  | .requestSlotSubmit lvl .. => some (lvl, .engineer)
  | .targetWindowsWrite lvl .. => some (lvl, .owner)
  | .retrainRequest lvl .. => some (lvl, .engineer)
  | .cryptEnableWrite lvl .. => some (lvl, .owner)
  | .creditLimitWrite lvl .. => some (lvl, .engineer)
  | .linkEnableWrite lvl .. => some (lvl, .engineer)
  | .gearMaxWrite lvl .. => some (lvl, .engineer)
  | .laneUseWrite lvl .. => some (lvl, .engineer)
  | .readyHoldWrite lvl .. => some (lvl, .engineer)
  | .testModeWrite lvl .. => some (lvl, .engineer)
  | .bitslip lvl .. => some (lvl, .engineer)
  | .captureAtWrite lvl .. => some (lvl, .engineer)
  | .injectModeWrite lvl .. => some (lvl, .engineer)
  | .policyWrite lvl .. => some (lvl, .engineer)
  | .sourceSettingsWrite lvl .. => some (lvl, .engineer)
  | .swapRequestPrSwap lvl .. => some (lvl, .engineer)
  | .swapRequestDrSwap lvl .. => some (lvl, .engineer)
  | .swapRequestVconnSwap lvl .. => some (lvl, .engineer)
  | .portDisableWrite lvl .. => some (lvl, .engineer)
  | .epxEnableWrite lvl .. => some (lvl, .engineer)
  | .faultClear lvl .. => some (lvl, .engineer)
  | .headModeWrite lvl .. => some (lvl, .engineer)
  | .timingWrite lvl .. => some (lvl, .engineer)
  | .commit lvl .. => some (lvl, .operator)
  | .pairLockWrite lvl .. => some (lvl, .engineer)
  | .capFormatWrite lvl .. => some (lvl, .engineer)
  | .notifyTableWrite lvl .. => some (lvl, .operator)
  | .settingsSave lvl .. => some (lvl, .owner)
  | .factoryRestore lvl .. => some (lvl, .owner)
  | .keyLoad lvl .. => some (lvl, .owner)
  | .keyErase lvl .. => some (lvl, .owner)
  | .keyDerive lvl .. => some (lvl, .owner)
  | .rootGenerate lvl .. => some (lvl, .owner)
  | .advance lvl .. => some (lvl, .owner)
  | .tamperClear lvl .. => some (lvl, .owner)
  | .tamperConfigWrite lvl .. => some (lvl, .owner)
  | .revokeKey0 lvl .. => some (lvl, .owner)
  | .revokeKey1 lvl .. => some (lvl, .owner)
  | .blowCosignLock lvl .. => some (lvl, .owner)
  | .faultNRelease lvl .. => some (lvl, .engineer)
  | .firstClear lvl .. => some (lvl, .engineer)
  | .statusClear lvl .. => some (lvl, .engineer)
  | .sourceConfigWrite lvl .. => some (lvl, .engineer)
  | .degradedClear lvl .. => some (lvl, .engineer)
  | .transferOpen lvl .. => some (lvl, .engineer)
  | .transferAbort lvl .. => some (lvl, .engineer)
  | .verify lvl .. => some (lvl, .engineer)
  | .activateNow lvl .. => some (lvl, .owner)
  | .activateDeferred lvl .. => some (lvl, .owner)
  | .activateCancel lvl .. => some (lvl, .owner)
  | .updateLockWrite lvl .. => some (lvl, .owner)
  | .confirm lvl .. => some (lvl, .engineer)
  | .revert lvl .. => some (lvl, .owner)
  | .recoveryRequest lvl .. => some (lvl, .owner)
  | .sleepMaxWrite lvl .. => some (lvl, .engineer)
  | _ => none

/-- What a firmware handover holds of a command: a write of an object, with its operands (R339, R402). -/
def heldOf : Instr → Option HeldWrite
  | .pathTableWrite lvl first entries => some (.pathTableWrite lvl first entries)
  | .mcastTableWrite lvl group members outTids => some (.mcastTableWrite lvl group members outTids)
  | .stageTableWrite lvl slot rec => some (.stageTableWrite lvl slot rec)
  | .routeWrite lvl route req => some (.routeWrite lvl route req)
  | .poolSizeWrite lvl pool value => some (.poolSizeWrite lvl pool value)
  | .spillSizeWrite lvl value => some (.spillSizeWrite lvl value)
  | .grantWrite lvl entry grant => some (.grantWrite lvl entry grant)
  | .shaperWrite lvl shaper mode rate => some (.shaperWrite lvl shaper mode rate)
  | .policerWrite lvl policer mode rate => some (.policerWrite lvl policer mode rate)
  | .allotWrite lvl route min max mode => some (.allotWrite lvl route min max mode)
  | .quantumWrite lvl q value => some (.quantumWrite lvl q value)
  | .histClear lvl delay q bins => some (.histClear lvl delay q bins)
  | .driveWindowWrite lvl value => some (.driveWindowWrite lvl value)
  | .vdpTableWrite lvl vdp down up => some (.vdpTableWrite lvl vdp down up)
  | .rpHotReset lvl value => some (.rpHotReset lvl value)
  | .fioRecordWrite lvl rx rec val => some (.fioRecordWrite lvl rx rec val)
  | .acycSubmit lvl slot msg => some (.acycSubmit lvl slot msg)
  | .requestSlotSubmit lvl slot req => some (.requestSlotSubmit lvl slot req)
  | .targetWindowsWrite lvl window val => some (.targetWindowsWrite lvl window val)
  | .retrainRequest lvl port value => some (.retrainRequest lvl port value)
  | .cryptEnableWrite lvl port value => some (.cryptEnableWrite lvl port value)
  | .creditLimitWrite lvl port cls value => some (.creditLimitWrite lvl port cls value)
  | .linkEnableWrite lvl port value => some (.linkEnableWrite lvl port value)
  | .gearMaxWrite lvl port value => some (.gearMaxWrite lvl port value)
  | .laneUseWrite lvl port value => some (.laneUseWrite lvl port value)
  | .readyHoldWrite lvl port value => some (.readyHoldWrite lvl port value)
  | .testModeWrite lvl port value => some (.testModeWrite lvl port value)
  | .bitslip lvl port lane value => some (.bitslip lvl port lane value)
  | .captureAtWrite lvl port lane value word => some (.captureAtWrite lvl port lane value word)
  | .injectModeWrite lvl port lane value => some (.injectModeWrite lvl port lane value)
  | .policyWrite lvl port value => some (.policyWrite lvl port value)
  | .sourceSettingsWrite lvl port setting value => some (.sourceSettingsWrite lvl port setting value)
  | .swapRequestPrSwap lvl port => some (.swapRequestPrSwap lvl port)
  | .swapRequestDrSwap lvl port => some (.swapRequestDrSwap lvl port)
  | .swapRequestVconnSwap lvl port => some (.swapRequestVconnSwap lvl port)
  | .portDisableWrite lvl port value => some (.portDisableWrite lvl port value)
  | .epxEnableWrite lvl port value => some (.epxEnableWrite lvl port value)
  | .faultClear lvl port value => some (.faultClear lvl port value)
  | .headModeWrite lvl head value => some (.headModeWrite lvl head value)
  | .timingWrite lvl head item value => some (.timingWrite lvl head item value)
  | .commit lvl head mask => some (.commit lvl head mask)
  | .pairLockWrite lvl head value => some (.pairLockWrite lvl head value)
  | .capFormatWrite lvl head value => some (.capFormatWrite lvl head value)
  | .notifyTableWrite lvl session sub val => some (.notifyTableWrite lvl session sub val)
  | .settingsSave lvl value => some (.settingsSave lvl value)
  | .factoryRestore lvl value => some (.factoryRestore lvl value)
  | .keyLoad lvl transport slot engines key => some (.keyLoad lvl transport slot engines key)
  | .keyErase lvl slot => some (.keyErase lvl slot)
  | .keyDerive lvl req => some (.keyDerive lvl req)
  | .rootGenerate lvl value => some (.rootGenerate lvl value)
  | .advance lvl port value => some (.advance lvl port value)
  | .tamperClear lvl value => some (.tamperClear lvl value)
  | .tamperConfigWrite lvl item value => some (.tamperConfigWrite lvl item value)
  | .revokeKey0 lvl confirm => some (.revokeKey0 lvl confirm)
  | .revokeKey1 lvl confirm => some (.revokeKey1 lvl confirm)
  | .blowCosignLock lvl confirm => some (.blowCosignLock lvl confirm)
  | .faultNRelease lvl value => some (.faultNRelease lvl value)
  | .firstClear lvl value => some (.firstClear lvl value)
  | .statusClear lvl word value => some (.statusClear lvl word value)
  | .sourceConfigWrite lvl source val => some (.sourceConfigWrite lvl source val)
  | .degradedClear lvl value => some (.degradedClear lvl value)
  | .transferOpen lvl target size ident => some (.transferOpen lvl target size ident)
  | .transferAbort lvl value => some (.transferAbort lvl value)
  | .imageBlockWrite lvl block data crc => some (.imageBlockWrite lvl block data crc)
  | .verify lvl value => some (.verify lvl value)
  | .activateNow lvl => some (.activateNow lvl)
  | .activateDeferred lvl => some (.activateDeferred lvl)
  | .activateCancel lvl => some (.activateCancel lvl)
  | .updateLockWrite lvl value => some (.updateLockWrite lvl value)
  | .confirm lvl value => some (.confirm lvl value)
  | .revert lvl value => some (.revert lvl value)
  | .recoveryRequest lvl value => some (.recoveryRequest lvl value)
  | .romBoot lvl value => some (.romBoot lvl value)
  | .sleepMaxWrite lvl value => some (.sleepMaxWrite lvl value)
  | .objectWrite lvl index sub offset data => some (.objectWrite lvl index sub offset data)
  | _ => none

/-- The commands that may change a memory. -/
def touchesMemory : Instr → Bool
  | .resetRelease .. | .strokeBoundary .. | .bar2Access .. | .fioCyclicReceive .. | .fioStale .. | .rigRead .. | .rigWrite ..
  | .rigPostedWrite .. | .rigFlush .. | .rigClaim .. | .rigRelease .. | .feedLoss .. | .dramScrub .. | .fopRead .. | .fopWrite ..
  | .fopReadBlock .. | .fopWriteBlock .. | .fopSegment .. | .fopAbort .. | .fopRelay .. | .sessionOpen .. | .sessionClose ..
  | .mailboxDoorbell .. | .rspAck .. | .settingsSave .. | .settingsSaveDone .. | .factoryRestore .. | .fatalResetRelease ..
  | .imageBlockWrite .. | .verifyDone .. | .loadingDone .. | .preparingDone .. | .handoverComplete .. | .confirm .. | .romBoot ..
  | .sleepSelect .. | .exitStart .. | .wake .. | .sagStageEnter .. | .sagStageClear .. | .objectWrite .. | .transferOpen ..
  | .transferAbort .. | .imageBlockProgrammed .. | .verify .. | .activateNow .. | .activationStart .. => true
  | _ => false

/-- A scrub of a word that does not exist (R98, 6020h.01). -/
def namesAbsentWord : Instr → Bool
  | .scrubRead word .. => decide (1572864 ≤ word)
  | .dramScrub word .. => decide (134217728 ≤ word)
  | _ => false

end Sys2Proof.Machine
end

