-- ==== Sys2Proof/Certificates/Slice0/Obligations.lean ====
section
/-! DEFINITION. The statements for the provers: what each command of the block does, what it leaves, and what every step keeps. -/
open Sys2Proof Sys2Proof.Machine

/-! ## Reset and start-up -/

/-- The reset, pin and power commands take effect. A released hub starts with DRAM and process image cleared and its flash as it was, unless
it runs or leaves Stowed by another command; entry into reset records the next cause, ends every session and sends nothing; PERST_N of a
link that was up reports PCIE_LINK_DOWN (the model's reading, notes/assumptions/59.md); its release starts training only where the PCIe
domain is powered (the model's reading, 93.md); a failed rail is detected as SUPPLY_RAIL with its number, where the rails are required;
VBAT_POR is set when the battery domain powers on. -/
def Obligations.ResetCommandsComplete : Prop :=
  (∀ (s : State) (straps : BitVec 2) (powered : List PoweredPort), s.hub.flag H.running = false → s.hub.get H.nextCause ≠ 5 →
      AnswersAll (.resetRelease straps powered) s fun d m => m.dram = [] ∧ m.image = [] ∧ (∀ a, 0x400000 ≤ a → a < 0x3C00000 → m.readFlash a 1 = s.mem.readFlash a 1)
        ∧ d.flag H.running = true ∧ d.get O.resetCause = s.hub.get H.nextCause % 256 ∧ d.get O.powerState = 0 ∧ d.get O.strokeNumber = 0)
  ∧ (∀ (s : State) (powered : List PoweredPort), s.hub.flag H.running = false → s.hub.get H.nextCause = 3 →
        AnswersAll (.fatalResetRelease powered) s fun d m => m.dram = [] ∧ m.image = [] ∧ (∀ a, 0x400000 ≤ a → a < 0x3C00000 → m.readFlash a 1 = s.mem.readFlash a 1)
        ∧ d.flag H.running = true ∧ d.get O.resetCause = 3 ∧ d.get O.powerState = 0 ∧ d.get O.strokeNumber = 0)
  ∧ (∀ (s : State),
        Answers .aonPowerOn s fun d => d.get H.nextCause = 1 ∧ d.get O.fatalResets = 0 ∧ d.sessions = [] ∧ d.held = []
          ∧ d.out = s.hub.out)
  ∧ (∀ (s : State), Answers .resetNAssert s fun d => d.get H.nextCause = 2 ∧ d.sessions = [] ∧ d.held = [] ∧ d.out = s.hub.out)
  ∧ (∀ (s : State), s.hub.get H.pcieLink = 2 →
        Answers .perstAssert s fun d => OnlyIndexes s.hub d [0x4001, 0x4004, 0x4005, 0x4006, 0x4100, 0x4103, 0x4105, 0x4106, 0x4109, 0x4230, 0x4250, 0x5000, 0x5001, 0x5010, 0x5020, 0xA001, 0xA006]
          ∧ ∃ ls r, d.lines = ls ++ [⟨64, 255, 0, r⟩])
  ∧ (∀ (s : State), s.hub.domainsOn = true → s.hub.flag O.pcieEnable = true → s.hub.get H.pcieLink = 0 →
        Answers .perstDeassert s fun d => d.get H.perstHigh = 1 ∧ d.get H.pcieLink = 1 ∧ OnlyRegs s.hub d [H.perstHigh, H.pcieLink])
  ∧ (∀ (s : State), s.hub.domainsOn = false →
        Answers .perstDeassert s fun d => d.get H.perstHigh = 1 ∧ OnlyRegs s.hub d [H.perstHigh])
  ∧ (∀ (s : State) (rail : Fin 14), s.hub.railsRequired = true → rail ≠ 13 →
        Answers (.railFault rail) s fun d => d.lines = s.hub.lines ++ [⟨93, 255, rail.val, s.hub.reactions⟩] ∧ OnlyRegs s.hub d [])
  ∧ (∀ (s : State),
        Answers .vbatPowerOn s fun d => OnlyObjects s.hub d [O.vbatPor, O.rtcSeconds, O.keystoreState, O.rootState, O.keySlotEngines 0, O.tamperEnable, O.tamperPolarity, O.tamperFilter, O.tamperLatch, O.tamperCause, O.tamperTime, O.tamperEvents, H.halfKey 0 0, H.rootSecret, H.halfEngines 0 0, H.halfGen 0 0, H.halfFull 0 0, H.commit 0, H.digest 0, H.digestHeld 0, H.tamperAtWake, H.meshSeed 0, H.halfCheck 0 0, H.meshAt, O.linkCryptoKeyState 0, H.sessionKey 0 0]
          ∧ d.get O.vbatPor = 1)

  ∧ (∀ (s : State) (straps : BitVec 2) (powered : List PoweredPort), (s.hub.flag H.running = true ∨ s.hub.get H.nextCause = 5) →
        exec (.resetRelease straps powered) s = .next s)
  ∧ (∀ (s : State) (rail : Fin 14), (s.hub.railsRequired = false ∨ rail = 13) → exec (.railFault rail) s = .next s)
/-- RESET_N keeps the battery domain, the fuses, the flash and the pins, and returns every other register to its default. The registers that a
reset outlives are the model's reading (notes/assumptions/3.md); an activation that the reset ends moves SLOT_INFO and TRANSFER_STATE
(R407). -/
def Obligations.ResetNKeepsOutlivingState : Prop :=
  ∀ (s : State),
    Answers .resetNAssert s fun d => (∀ o : Obj, outlivesReset o.key = false → o.key ≠ H.nextCause.key → d.get o = o.dflt)
      ∧ (∀ o : Obj, outlivesReset o.key = true → o.key ≠ H.nextCause.key → o.key.obj ≠ (O.slotInfoState 0).key.obj →
      o.key ≠ O.transferState.key → d.get o = s.hub.get o)

/-! ## The tree -/

/-- Joining, assignment, refusal, orphaning, probing and the child's SLEEP take effect. At the end of ORPHAN_HOLD every tunnel but
management is gone, and an Orphan whose last upstream port is trained with the mode entered goes Joining there, any other Unjoined. A hub
that is neither Joining nor a Member ignores every ASSIGN. -/
def Obligations.TreeJoinCommands : Prop :=
  (∀ (s : State), s.hub.domainsOn = true → s.hub.get O.treeState = 1 →
      Answers .joinRepeat s fun d => Sends s.hub d [.mgmtTo (some (s.hub.get H.joinPort)) 0 (.join (s.hub.get O.hubUid) (s.hub.get O.role) (s.hub.get H.joinPort))]
        ∧ OnlyRegs s.hub d [])
  ∧ (∀ (s : State) (p : Port) (parent addr depth : BitVec 8) (pp : Port) (ret : Bool), s.hub.domainsOn = true → s.hub.get O.treeState = 1 →
        s.hub.modeEntered p = true → s.hub.get O.role ≠ 2 →
        Answers (.assign p parent addr depth pp ret) s fun d => OnlyIndexes s.hub d [0x1003, 0x1004, 0x1005, 0x1006, 0x2000, 0x2006, 0x2007, 0x2400, 0x2806, 0x4001, 0x4004, 0x4006, 0x4051, 0x4100, 0x4103, 0x4105, 0x4106, 0x4200, 0x4250, 0x5040, 0x5043, 0x5044, 0x5045, 0x6008, 0x7010, 0xA006]
          ∧ d.get O.treeState = 2 ∧ d.get O.hubAddress = addr.toNat ∧ d.get O.upstreamPort = p.val ∧ d.get O.depth = depth.toNat)
  ∧ (∀ (s : State) (p : Port) (addr : BitVec 8) (uid : BitVec 64), s.hub.domainsOn = true → s.hub.get O.upstreamPort ≠ p.val → s.hub.get O.role ≠ 2 →
        Answers (.assignAck p addr uid false) s fun d => d.get (O.addrRoutePort addr.toNat) = p.val
          ∧ Sends s.hub d [.mgmtTo none 0 (.assignAck addr.toNat uid.toNat false)] ∧ OnlyRegs s.hub d [O.addrRoutePort addr.toNat])
  ∧ (∀ (s : State) (p : Port) (reason : BitVec 8), s.hub.domainsOn = true → s.hub.get O.treeState = 1 → s.hub.get H.joinPort = p.val →
        Answers (.refuse p reason) s fun d => d.get O.treeState = 0 ∧ d.get O.hubAddress = 255 ∧ d.get (H.refused p) = 1
          ∧ OnlyRegs s.hub d [O.treeState, H.joinPort, O.hubAddress, O.upstreamPort, O.depth, H.refused p])
  ∧ (∀ (s : State) (p : Port), s.hub.domainsOn = true → s.hub.get O.treeState = 2 → s.hub.get O.upstreamPort = p.val → s.hub.get O.role ≠ 2 →
        RigIdle s.hub →
        Answers (.orphan p) s fun d => OnlyObjects s.hub d [O.upstreamPort, O.depth, O.treeState, O.pathFlags 0, O.addrRoutePort 0, O.fioRxStatus 0, O.streamState 0, H.formerDown 0, H.lastUpstream, H.orphanAt, H.drainCount 0, H.orphanKeeps, H.claimOn 0, O.busClaimant, O.prefetchDiscards, O.sePrefetchDiscards, O.sePrefetchLast, H.rejoinDue 0]
          ∧ d.get O.treeState = 3 ∧ d.get H.lastUpstream = p.val ∧ d.get O.upstreamPort = 255
          ∧ d.lines = s.hub.lines ++ [⟨21, 255, 0, s.hub.reactions⟩])
  ∧ (∀ (s : State), s.hub.domainsOn = true → s.hub.get O.treeState = 3 → 24 ≤ s.hub.get H.lastUpstream →
        Answers .orphanHoldExpiry s fun d => OnlyObjects s.hub d [O.hubAddress, O.upstreamPort, O.depth, O.treeState, O.pathFlags 0, O.fioRxStatus 0, O.streamState 0, H.joinPort, H.joinFresh, H.drainCount 0, H.orphanKeeps]
          ∧ d.get O.treeState = 0 ∧ d.get O.hubAddress = 255)

  ∧ (∀ (s : State) (p : Port), s.hub.domainsOn = true → s.hub.get O.treeState = 3 → s.hub.get H.lastUpstream = p.val →
        s.hub.trained p = true → s.hub.modeEntered p = true → s.hub.get O.role ≠ 2 →
        Answers .orphanHoldExpiry s fun d => OnlyObjects s.hub d [O.hubAddress, O.upstreamPort, O.depth, O.treeState, O.pathFlags 0, O.fioRxStatus 0, O.streamState 0, H.joinPort, H.joinFresh, H.drainCount 0, H.orphanKeeps]
          ∧ d.get O.treeState = 1 ∧ d.get H.joinPort = p.val ∧ d.get O.hubAddress = 255 ∧ (∀ t : Nat, t < 16384 → 3 ≤ t → d.valid t = false)
          ∧ ∃ xs, Sends s.hub d (xs ++ [.mgmtTo (some p.val) 0 (.join (s.hub.get O.hubUid) (s.hub.get O.role) p.val)]))
  ∧ (∀ (s : State) (p : Port), s.hub.domainsOn = true → s.hub.get O.treeState = 3 → s.hub.get H.lastUpstream = p.val →
        (s.hub.trained p = false ∨ s.hub.modeEntered p = false) →
        Answers .orphanHoldExpiry s fun d => OnlyObjects s.hub d [O.hubAddress, O.upstreamPort, O.depth, O.treeState, O.pathFlags 0, O.fioRxStatus 0, O.streamState 0, H.joinPort, H.joinFresh, H.drainCount 0, H.orphanKeeps]
          ∧ d.get O.treeState = 0 ∧ d.get O.hubAddress = 255 ∧ (∀ t : Nat, t < 16384 → 3 ≤ t → d.valid t = false))  ∧ (∀ (s : State) (dst : BitVec 8), s.hub.domainsOn = true → s.hub.get O.hubAddress = dst.toNat →
        Answers (.probe dst) s fun d => Sends s.hub d [.mgmtTo none 0 (.probeAck (s.hub.get O.hubUid) (s.hub.get O.treeState))]
          ∧ OnlyRegs s.hub d [])
  ∧ (∀ (s : State) (p : Port), s.hub.domainsOn = true → s.hub.get O.upstreamPort ≠ p.val →
        Answers (.sleep p) s fun d => d.get (H.childAsleep p) = 1 ∧ OnlyRegs s.hub d [H.childAsleep p])
  ∧ (∀ (s : State) (p : Port) (parent addr depth : BitVec 8) (pp : Port) (ret : Bool), s.hub.domainsOn = true → s.hub.get O.treeState ≠ 1 →
        s.hub.get O.treeState ≠ 2 →
        exec (.assign p parent addr depth pp ret) s = .next s)

/-- Path delays, SYNC and the SYNC timeout take effect. A SYNC from the upstream port sets CLOCK_OFFSET; a timeout while locked clears
TIME_LOCK and raises its source. Sixteen consecutive SYNCs within 20 ns declare time lock, and four in a row outside 40 ns drop it. A SYNC
outside 20 ns starts the count towards lock anew, and one inside 40 ns the count towards its loss. -/
def Obligations.TimeCommands : Prop :=
  (∀ (s : State) (p : Port) (sentAt : BitVec 32),
      s.hub.domainsOn = true → Answers (.delayReq p sentAt) s fun d => Sends s.hub d [.timeOn p.val (.delayResp (((s.hub.nsInStroke : Int) - (sentAt.toNat : Int)) % (2 ^ 32 : Int)).toNat)]
        ∧ OnlyRegs s.hub d [])
  ∧ (∀ (s : State) (p : Port) (down up : BitVec 32), s.hub.domainsOn = true → s.hub.get O.upstreamPort = p.val →
        Answers (.delayResp p down up) s fun d => d.get O.pathDelayDown = down.toNat ∧ d.get O.pathDelayUp = up.toNat
          ∧ OnlyRegs s.hub d [O.pathDelayDown, O.pathDelayUp])
  ∧ (∀ (s : State), s.hub.domainsOn = true → s.hub.flag O.timeLock = true → s.hub.get O.role ≠ 2 →
        Answers .syncTimeout s fun d => OnlyObjects s.hub d [O.genlockState 0, O.streamState 0, O.timeLock, H.syncGood]
          ∧ d.flag O.timeLock = false ∧ d.lines = s.hub.lines ++ [⟨20, 255, 0, s.hub.reactions⟩])
  ∧ (∀ (s : State) (p : Port) (stroke : BitVec 64) (offset : Int), s.hub.domainsOn = true → s.hub.get O.upstreamPort = p.val → s.hub.get O.role ≠ 2 →
        -2147483648 ≤ offset → offset < 2147483648 →
        Answers (.sync p stroke offset) s fun d => OnlyObjects s.hub d [O.genlockState 0, O.streamState 0, O.strokeNumber, O.timeLock, O.clockOffset, H.syncGood, H.syncBad, H.lastSync, H.isoHold]
          ∧ d.getI O.clockOffset = offset)
  ∧ (∀ (s : State) (p : Port) (stroke : BitVec 64) (offset : Int), s.hub.domainsOn = true → s.hub.get O.upstreamPort = p.val → s.hub.get O.role ≠ 2 →
      s.hub.flag O.timeLock = false → s.hub.get H.syncGood = 15 → -20 ≤ offset → offset ≤ 20 →
      Answers (.sync p stroke offset) s fun d => OnlyObjects s.hub d [O.genlockState 0, O.streamState 0, O.strokeNumber, O.timeLock, O.clockOffset, H.syncGood, H.syncBad, H.lastSync, H.isoHold]
        ∧ d.flag O.timeLock = true)
  ∧ (∀ (s : State) (p : Port) (stroke : BitVec 64) (offset : Int), s.hub.domainsOn = true → s.hub.get O.upstreamPort = p.val → s.hub.get O.role ≠ 2 →
        s.hub.flag O.timeLock = false → s.hub.get H.syncGood < 15 → -20 ≤ offset → offset ≤ 20 →
        Answers (.sync p stroke offset) s fun d => OnlyObjects s.hub d [O.genlockState 0, O.streamState 0, O.strokeNumber, O.timeLock, O.clockOffset, H.syncGood, H.syncBad, H.lastSync, H.isoHold]
          ∧ d.flag O.timeLock = false ∧ d.get H.syncGood = s.hub.get H.syncGood + 1)
  ∧ (∀ (s : State) (p : Port) (stroke : BitVec 64) (offset : Int), s.hub.domainsOn = true → s.hub.get O.upstreamPort = p.val → s.hub.get O.role ≠ 2 →
        s.hub.flag O.timeLock = true → s.hub.get H.syncBad = 3 → (offset < -40 ∨ 40 < offset) →
        Answers (.sync p stroke offset) s fun d => OnlyObjects s.hub d [O.genlockState 0, O.streamState 0, O.strokeNumber, O.timeLock, O.clockOffset, H.syncGood, H.syncBad, H.lastSync, H.isoHold]
          ∧ d.flag O.timeLock = false ∧ d.lines = s.hub.lines ++ [⟨20, 255, 0, s.hub.reactions⟩])
  ∧ (∀ (s : State) (p : Port) (stroke : BitVec 64) (offset : Int), s.hub.domainsOn = true → s.hub.get O.upstreamPort = p.val → s.hub.get O.role ≠ 2 →
        s.hub.flag O.timeLock = true → s.hub.get H.syncBad < 3 → (offset < -40 ∨ 40 < offset) →
        Answers (.sync p stroke offset) s fun d => OnlyObjects s.hub d [O.genlockState 0, O.streamState 0, O.strokeNumber, O.timeLock, O.clockOffset, H.syncGood, H.syncBad, H.lastSync, H.isoHold]
          ∧ d.flag O.timeLock = true ∧ d.get H.syncBad = s.hub.get H.syncBad + 1 ∧ d.lines = s.hub.lines)
  ∧ (∀ (s : State) (p : Port) (stroke : BitVec 64) (offset : Int), s.hub.domainsOn = true → s.hub.get O.upstreamPort = p.val → s.hub.get O.role ≠ 2 →
        s.hub.flag O.timeLock = true → -40 ≤ offset → offset ≤ 40 →
        Answers (.sync p stroke offset) s fun d => OnlyObjects s.hub d [O.genlockState 0, O.streamState 0, O.strokeNumber, O.timeLock, O.clockOffset, H.syncGood, H.syncBad, H.lastSync, H.isoHold]
          ∧ d.flag O.timeLock = true ∧ d.get H.syncBad = 0 ∧ d.lines = s.hub.lines)
  ∧ (∀ (s : State) (p : Port) (stroke : BitVec 64) (offset : Int), s.hub.domainsOn = true → s.hub.get O.upstreamPort = p.val → s.hub.get O.role ≠ 2 →
        s.hub.flag O.timeLock = false → (offset < -20 ∨ 20 < offset) →
        Answers (.sync p stroke offset) s fun d => OnlyObjects s.hub d [O.genlockState 0, O.streamState 0, O.strokeNumber, O.timeLock, O.clockOffset, H.syncGood, H.syncBad, H.lastSync, H.isoHold]
          ∧ d.flag O.timeLock = false ∧ d.get H.syncGood = 0 ∧ d.lines = s.hub.lines)

/-- Every step keeps the interlock: the source pair and the sink pair of one port are never both in Ramp or On, whatever the command, in every
state in which they are not. The path states stand for the two FETs that R228 keeps from standing enhanced together. -/
def Obligations.StepKeepsInterlock : Prop :=
  ∀ s t : State, Interlocked s.hub → step s = .next t → Interlocked t.hub

/-! ## The Cox -/

/-- The Cox's reports, probes, holds, routes and plans take effect. A report on time replaces the demands it lists; a late one is kept,
counted and raised once, and a further part of it only kept; a probe unanswered to its limit detaches the hub, and its HUB_TABLE state reads
03h until its hold ends (the model's choice, notes/assumptions/14.md); a request makes a free record 01h and a teardown takes an established
one to 04h; a plan goes to every known Member for the boundary two strokes on. An ALLOT record with MIN above MAX, or a MODE other than 0
and 1, and a request with an unlisted TYPE, are refused with INVALID_VALUE. -/
def Obligations.CoxCommands : Prop :=
  (∀ (s : State) (r : Report), s.hub.domainsOn = true → s.hub.get O.role = 2 → s.hub.memberAt r.hub.toNat = true → r.late = true → r.events = [] →
      r.joins = [] → s.hub.handingOver = false → s.hub.get (H.lateCounted r.hub.toNat) ≠ r.stroke.toNat + 1 →
      Answers (.reportReceive r) s fun d => OnlyObjects s.hub d [O.reportsLate, O.vdpState 0, H.farUp 0, H.slotStatus 0, H.lateCounted 0]
        ∧ d.lateReports = s.hub.lateReports ++ [r] ∧ d.lines = s.hub.lines ++ [⟨17, 255, r.hub.toNat, s.hub.reactions⟩])
  ∧ (∀ (s : State) (r : Report), s.hub.domainsOn = true → s.hub.get O.role = 2 → s.hub.memberAt r.hub.toNat = true → r.late = true → r.events = [] →
        r.joins = [] → s.hub.handingOver = false → s.hub.get (H.lateCounted r.hub.toNat) = r.stroke.toNat + 1 →
        Answers (.reportReceive r) s fun d => OnlyObjects s.hub d [O.vdpState 0, H.farUp 0, H.slotStatus 0]
          ∧ d.lateReports = s.hub.lateReports ++ [r] ∧ d.lines = s.hub.lines)

  ∧ (∀ (s : State) (r : Report) (x : DemandRecord) (w : RouteWork), s.hub.domainsOn = true → s.hub.get O.role = 2 → s.hub.memberAt r.hub.toNat = true →
        r.late = false → r.events = [] → r.joins = [] → r.demands = [x] → bit r.flags.toNat 5 = false → s.hub.handingOver = false →
        (s.hub.works.find? fun w => w.hubs.head? == some r.hub.toNat && s.hub.get (O.routeTid w.route 0) == x.tid.toNat) = some w →
        Answers (.reportReceive r) s fun d => OnlyObjects s.hub d [H.routeDemand 0 0, O.vdpState 0, H.farUp 0, H.slotStatus 0]
          ∧ d.get (H.routeDemand w.route 0) = x.demand.toNat ∧ d.get (H.routeDemand w.route 1) = 1
          ∧ d.get (H.routeDemand w.route 2) = bits x.flags.toNat 1 1 ∧ d.lines = s.hub.lines)  ∧ (∀ (s : State) (addr : BitVec 8) (uid : BitVec 64) (ts : BitVec 8), s.hub.domainsOn = true → s.hub.get O.role = 2 → 1 ≤ addr.toNat →
        s.hub.get (O.hubTableUid addr.toNat) = uid.toNat →
        Answers (.probeAck addr uid ts) s fun d => d.get (H.probes addr.toNat) = 0 ∧ d.get (O.hubTableState addr.toNat) = ts.toNat
          ∧ OnlyRegs s.hub d [H.probes addr.toNat, O.hubTableState addr.toNat, O.treeHubs])
  ∧ (∀ (s : State) (addr : BitVec 8), s.hub.domainsOn = true → s.hub.get O.role = 2 → (s.hub.get (H.probes addr.toNat) = 1
        ∨ s.hub.get (H.probes addr.toNat) = 2) →
        Answers (.probeRetry addr) s fun d => d.get (H.probes addr.toNat) = s.hub.get (H.probes addr.toNat) + 1
          ∧ Sends s.hub d [.mgmtTo none addr.toNat .probe] ∧ OnlyRegs s.hub d [H.probes addr.toNat])
  ∧ (∀ (s : State) (addr : BitVec 8), s.hub.domainsOn = true → s.hub.get O.role = 2 → s.hub.get (H.probes addr.toNat) ≠ 0 →
        s.hub.get (O.hubTableUid addr.toNat) ≠ 0 →
        Answers (.probeTimeout addr) s fun d => OnlyIndexes s.hub d [0x1003, 0x1004, 0x1005, 0x1006, 0x2000, 0x2006, 0x2007, 0x2400, 0x2800, 0x2801, 0x2802, 0x2803, 0x2804, 0x2805, 0x2806, 0x2807, 0x2808, 0x3101, 0x4000, 0x4001, 0x4003, 0x4004, 0x4005, 0x4006, 0x4010, 0x4051, 0x4100, 0x4103, 0x4105, 0x4106, 0x4109, 0x4210, 0x4230, 0x4250, 0x5040, 0x5043, 0x5044, 0x5045, 0x5010, 0x6000, 0x6002, 0x6003, 0x6004, 0x6008, 0x6009, 0x6022, 0x7010, 0xA000, 0xA001, 0xA006]
          ∧ d.get (O.hubTableState addr.toNat) = 3)
  ∧ (∀ (s : State) (addr : BitVec 8), s.hub.domainsOn = true → s.hub.get O.role = 2 → 1 ≤ addr.toNat → s.hub.get (O.hubTableState addr.toNat) = 3 →
        Answers (.addressHoldExpiry addr) s fun d => OnlyObjects s.hub d [O.routeState 0, O.hubTableDepth 0, H.pastGrant 0 0, H.routeDemand 0 0, O.vdpState 0, H.farUp 0, H.slotStatus 0]
          ∧ d.get (O.hubTableUid addr.toNat) = 0 ∧ d.get (O.hubTableState addr.toNat) = 0 ∧ ∀ x ∈ d.reports, x.hub ≠ addr.toNat)
  ∧ (∀ (s : State) (lvl : Level) (route : Fin 4096) (q : RouteRequest), s.hub.domainsOn = true → s.hub.get O.role = 2 → Engineers lvl → routeTypeListed q = true → routeEndsListed q = true → q.state = 1 →
        s.hub.get (O.routeState route) = 0 → s.hub.inRom = false → s.hub.handingOver = false →
        Answers (.routeWrite lvl route q) s fun d => OnlyObjects s.hub d [O.routeCls 0, O.allotMax 0, O.vdpDown 0, H.pastGrant 0 0, H.routeDemand 0 0, H.slotStatus 0, H.farUp 0]
          ∧ d.get (O.routeState route) = 1 ∧ d.get (O.routeSrcHub route) = q.srcHub.toNat ∧ d.get (O.routeDstHub route) = q.dstHub.toNat
          ∧ d.get (O.routeRate route) = q.rate.toNat ∧ d.out.getLast? = some (.status .ok))
  ∧ (∀ (s : State) (lvl : Level) (route : Fin 4096) (lo hi : BitVec 32) (mode : BitVec 8), s.hub.domainsOn = true → s.hub.get O.role = 2 → Engineers lvl →
        lo.toNat ≤ hi.toNat → mode.toNat ≤ 1 → s.hub.inRom = false → s.hub.handingOver = false →
        Answers (.allotWrite lvl route lo hi mode) s fun d => d.get (O.allotMin route) = lo.toNat ∧ d.get (O.allotMax route) = hi.toNat
          ∧ d.get (O.allotMode route) = mode.toNat ∧ Sends s.hub d [.status .ok]
          ∧ OnlyRegs s.hub d [O.allotMin route, O.allotMax route, O.allotMode route])
  ∧ (∀ (s : State) (hub : BitVec 8) (tid : BitVec 16) (status : BitVec 8) (activate : BitVec 64) (w : RouteWork) (i : Nat), s.hub.domainsOn = true → s.hub.get O.role = 2 →
        s.hub.works = [w] → w.hubs.idxOf? hub.toNat = some i → s.hub.get (O.routeTid w.route i) = tid.toNat →
        s.hub.get (O.routeActivate w.route) = activate.toNat → w.tornDown = 0 → s.hub.get (O.routeType w.route) ≠ 2 →
        Answers (.stageFail hub tid status activate) s fun d => OnlyIndexes s.hub d [0x1003, 0x1004, 0x1005, 0x1006, 0x2000, 0x2006, 0x2007, 0x2400, 0x2800, 0x2801, 0x2802, 0x2803, 0x2804, 0x2805, 0x2806, 0x2807, 0x2808, 0x3101, 0x4000, 0x4001, 0x4003, 0x4004, 0x4005, 0x4006, 0x4010, 0x4051, 0x4100, 0x4103, 0x4105, 0x4106, 0x4109, 0x4210, 0x4230, 0x4250, 0x5040, 0x5043, 0x5044, 0x5045, 0x5010, 0x6000, 0x6002, 0x6003, 0x6004, 0x6008, 0x6009, 0x6022, 0x7010, 0xA001, 0xA006]
          ∧ d.get (O.routeState w.route) = 3 ∧ d.get (O.routeReason w.route) = failReason status.toNat)
  ∧ (∀ (s : State) (elapsed : Nat), s.hub.domainsOn = true → s.hub.get O.role = 2 → s.hub.flag O.forwarding = true → 1 ≤ s.hub.get H.coxBoundaries →
        s.hub.get H.holdMark ≠ 2 → s.hub.handingOver = false → elapsed < 2 ^ 32 →
        Answers (.planCompute elapsed) s fun d => OnlyObjects s.hub d [O.allotBottleneckHub 0, O.linkIsoAllotted 0, O.planComputeMax, O.floorShort, O.increasePending, O.hubTableUid 0, H.pastGrant 0 0, H.holdMark]
          ∧ elapsed ≤ d.get O.planComputeMax
          ∧ (∀ a : Nat, a ∈ s.hub.known → s.hub.memberAt a = true → planSent d a ((s.hub.stroke + 2) % 2 ^ 64) = true)
          ∧ (elapsed ≤ s.hub.get O.planComputeLimit → d.lines = s.hub.lines)
          ∧ (s.hub.get O.planComputeLimit < elapsed → d.lines = s.hub.lines ++ [⟨15, 255, 0, s.hub.reactions⟩]))
  ∧ (∀ (s : State) (lvl : Level) (route : Fin 4096) (lo hi : BitVec 32) (mode : BitVec 8), s.hub.domainsOn = true → s.hub.get O.role = 2 → Engineers lvl →
        (hi.toNat < lo.toNat ∨ 1 < mode.toNat) → s.hub.inRom = false → s.hub.handingOver = false →
        exec (.allotWrite lvl route lo hi mode) s = .next { s with hub := s.hub.emit (.status .invalidValue) })
  ∧ (∀ (s : State) (r : Report), s.hub.domainsOn = true → s.hub.get O.role = 2 → s.hub.memberAt r.hub.toNat = true → r.late = false → r.events = [] →
        r.joins = [] → r.demands = [] → s.hub.handingOver = false →
        Answers (.reportReceive r) s fun d => OnlyObjects s.hub d [O.linkIsoRate 0, O.vdpState 0, H.farUp 0, H.slotStatus 0]
          ∧ (d.reportOf r.hub.toNat).locked = bit r.flags.toNat 0
          ∧ (∀ i : Fin 24, bit r.flags.toNat 5 = true → i.val < r.ports.length →
          d.get (O.linkIsoRate (24 * r.hub.toNat + i.val)) = (r.ports.getD i.val (0, 0)).1.toNat
          ∧ d.get (O.linkIsoFixed (24 * r.hub.toNat + i.val)) = (r.ports.getD i.val (0, 0)).2.toNat)
          ∧ d.lines = s.hub.lines ∧ d.lateReports = s.hub.lateReports)
  ∧ (∀ (s : State) (lvl : Level) (route : Fin 4096) (q : RouteRequest), s.hub.domainsOn = true → s.hub.get O.role = 2 → Engineers lvl → routeTypeListed q = true → routeEndsListed q = true →
        q.state = 4 → s.hub.get (O.routeState route) = 2 → s.hub.inRom = false → s.hub.handingOver = false →
        Answers (.routeWrite lvl route q) s fun d => OnlyObjects s.hub d [O.routeCls 0, O.vdpDown 0, H.slotStatus 0, H.farUp 0]
          ∧ d.get (O.routeState route) = 4 ∧ d.get (O.routeTid route 0) = s.hub.get (O.routeTid route 0)
          ∧ d.out.getLast? = some (.status .ok))
  ∧ (∀ (s : State) (lvl : Level) (route : Fin 4096) (q : RouteRequest), s.hub.domainsOn = true → s.hub.get O.role = 2 → Engineers lvl →
        (routeTypeListed q = false ∨ routeEndsListed q = false) → (q.state.toNat ≠ s.hub.get (O.routeState route) ∨ s.hub.sameRequest route q = false) →
        s.hub.inRom = false → s.hub.handingOver = false → s.hub.boundVdps = [] →
        Answers (.routeWrite lvl route q) s fun d => Sends s.hub d [.status .invalidValue] ∧ d.regs = s.hub.regs)

/-! ## The switch, the buffer and the scrub -/

/-- Packets enter and move through the buffer, and the scrub corrects and counts. A sound time-channel packet that finds cells joins its
queue, and so does a tunnel packet of the entry's type on the entry's input whose queue has its reserve free; a spill or refill move takes
the front packet of its segment; a scrub word is counted by what its check code shows, and the last word ends a pass. The forced slots that
one check counts, at most 1562, are the model's reading (notes/assumptions/17.md). A scrub read of a word beyond its memory is the one
fault: cell words are 0 to 1572863, DRAM words 0 to 134217727. -/
def Obligations.PacketAndScrubCommands : Prop :=
  (∀ (s : State) (input : Fin 33) (pkt : Packet), input ≠ 32 → s.hub.flag O.forwarding = true → s.hub.flag H.running = true → s.hub.get O.powerState = 0 →
      pkt.wellFormed = true → pkt.tid = 1 → pkt.type = 0 → cellsOf pkt.payload.length ≤ s.hub.isoFree →
      Answers (.packetReceive input pkt) s fun d => OnlyIndexes s.hub d [0x3020, 0x4004, 0x4005, 0x4006, 0x4100, 0x4103, 0x4105, 0x4106, 0x4109, 0x4230, 0x4250, 0xA001, 0xA006]
        ∧ ∃ h : Held, d.held = s.hub.held ++ [h] ∧ h.pkt = pkt ∧ h.q = queueOf 32 3 ∧ h.seg = .head)
  ∧ (∀ (s : State) (q : Fin 264) (p : Held), s.hub.domainsOn = true → s.hub.held = [p] → p.q = q.val → p.seg = .tail → s.hub.get O.spillState = 0 →
        s.hub.spilling q = true → q.val % 8 = 4 → p.cells ≤ s.hub.spillRegion - s.hub.spillUnits →
        Answers (.spillMove q) s fun d => OnlyObjects s.hub d [H.lastSpill, H.creditReturned 0 0]
          ∧ d.held = [{ p with seg := .dram, reserve := 0, iso := 0, shared := 0, credit := 0, mcast := 0, spilled := true }]
          ∧ d.get H.lastSpill = q.val)
  ∧ (∀ (s : State) (q : Fin 264) (p : Held), s.hub.domainsOn = true → s.hub.held = [p] → p.q = q.val → p.seg = .dram → s.hub.get O.spillState = 0 →
        0 < s.hub.get O.refillLow → p.cells ≤ s.hub.sharedFree →
        Answers (.refillMove q false) s fun d => OnlyIndexes s.hub d [0x4001, 0x4004, 0x4005, 0x4006, 0x4051, 0x4100, 0x4103, 0x4105, 0x4106, 0x4108, 0x4109, 0x4230, 0x4250, 0x6008, 0x6021, 0xA001, 0xA006]
          ∧ ∃ h : Held, d.held = [h] ∧ h.seg = .head ∧ h.pkt = p.pkt ∧ h.reserve + h.shared = p.cells ∧ d.get H.lastRefill = q.val)
  ∧ (∀ (s : State) (word : Nat) (owner : Option Nat), s.hub.domainsOn = true → word < 1572863 → s.hub.get O.scrubCorrected + 1 < 2 ^ 32 →
        s.hub.get O.scrubForced + 1 < 2 ^ 32 →
        Answers (.scrubRead word .correctable owner false) s fun d => d.get O.scrubCorrected = s.hub.get O.scrubCorrected + 1
          ∧ d.get O.scrubForced = s.hub.get O.scrubForced + (if s.hub.flag H.scrubBehind then 1 else 0)
          ∧ OnlyRegs s.hub d [O.scrubCorrected, O.scrubForced])
  ∧ (∀ (s : State) (word : Nat) (owner : Option Nat), s.hub.domainsOn = true → word < 1572863 → s.hub.get O.scrubUncorrectable + 1 < 2 ^ 32 →
        Answers (.scrubRead word .uncorrectable owner false) s fun d => d.get O.scrubUncorrectable = s.hub.get O.scrubUncorrectable + 1
          ∧ d.lines = s.hub.lines ++ [⟨2, 255, word / 8, s.hub.reactions⟩] ∧ OnlyRegs s.hub d [O.scrubUncorrectable]
          ∧ (owner = none → d.held = s.hub.held) ∧ (∀ (k : Nat) (p : Held), owner = some k → s.hub.held[k]? = some p → p.seg ≠ .dram →
          d.held[k]? = some { p with marked := some (word / 8) }))
  ∧ (∀ (s : State) (word : Nat) (err : WordError) (owner : Option Nat), s.hub.domainsOn = true → word < 1572863 → err = .clean →
        Answers (.scrubRead word err owner false) s fun d => d = s.hub)
  ∧ (∀ (s : State) (done due : Nat), s.hub.domainsOn = true → due < done + 1024 → s.hub.flag H.scrubBehind = false →
        Answers (.scrubPaceCheck done due) s fun d => d.get H.scrubBehind = 0 ∧ OnlyRegs s.hub d [H.scrubBehind, H.scrubLate 0])
  ∧ (∀ (s : State) (done due : Nat), s.hub.domainsOn = true → done + 1024 ≤ due → s.hub.get O.scrubForced + 1562 < 2 ^ 32 →
        Answers (.scrubPaceCheck done due) s fun d => OnlyObjects s.hub d [O.scrubForced, O.hubTableUid 0, H.scrubBehind, H.scrubLate 0]
          ∧ d.get H.scrubBehind = 1 ∧ d.get O.scrubForced = s.hub.get O.scrubForced + min (due - done) 1562)
  ∧ (∀ (s : State) (done due : Nat), s.hub.domainsOn = true → s.hub.flag H.scrubBehind = true → done < due →
        s.hub.get O.scrubForced + 1562 < 2 ^ 32 →
        Answers (.scrubPaceCheck done due) s fun d => OnlyObjects s.hub d [O.scrubForced, O.hubTableUid 0, H.scrubBehind, H.scrubLate 0]
          ∧ d.get H.scrubBehind = 1 ∧ d.get O.scrubForced = s.hub.get O.scrubForced + min (due - done) 1562)
  ∧ (∀ (s : State) (done due : Nat), s.hub.domainsOn = true → due ≤ done →
        Answers (.scrubPaceCheck done due) s fun d => OnlyRegs s.hub d [H.scrubBehind, H.scrubLate 0] ∧ d.get H.scrubBehind = 0)
  ∧ (∀ (s : State) (done due : Nat), s.hub.domainsOn = true → s.hub.flag (H.scrubLate 0) = false →
        s.hub.get O.scrubPeriod * 1000000000 < s.hub.now - s.hub.get H.scrubStart →
        Answers (.scrubPaceCheck done due) s fun d => d.flag (H.scrubLate 0) = true ∧ d.lines = s.hub.lines ++ [⟨3, 255, 0, s.hub.reactions⟩])
  ∧ (∀ (s : State) (word : Nat) (err : WordError) (owner : Option Nat) (collide : Bool), s.hub.domainsOn = true → 1572864 ≤ word →
        exec (.scrubRead word err owner collide) s = .fault .noSuchWord)
  ∧ (∀ (s : State) (word : Nat) (err : WordError) (collide : Bool), s.hub.domainsOn = true → 134217728 ≤ word →
        exec (.dramScrub word err collide) s = .fault .noSuchWord)

  ∧ (∀ (s : State) (input : Fin 33) (pkt : Packet) (out outTid : Nat), input ≠ 32 → s.hub.flag O.forwarding = true → s.hub.flag H.running = true → s.hub.get O.powerState = 0 →
        pkt.wellFormed = true → 3 ≤ pkt.tid.toNat → pkt.type ≠ 3 → s.hub.valid pkt.tid.toNat = true → s.hub.isMcast pkt.tid.toNat = false →
        endpointOf (s.hub.get (O.pathIn pkt.tid.toNat)) = some input.val → s.hub.get (O.pathType pkt.tid.toNat) = pkt.type.toNat →
        s.hub.get (O.pathPolicer pkt.tid.toNat) = 0xFFFF → s.hub.outputs pkt.tid.toNat = [(out, outTid)] →
        s.hub.portBarred input = false → s.hub.portBarred out = false →
        (s.hub.get (O.pathCls pkt.tid.toNat) = 0 ∨ 4 ≤ s.hub.get (O.pathCls pkt.tid.toNat) ∧ s.hub.get (O.pathCls pkt.tid.toNat) ≤ 7) →
        s.hub.spilling (queueOf out (s.hub.get (O.pathCls pkt.tid.toNat))) = false → 100 * s.hub.cellsUsed < s.hub.get O.spillOn * 196608 →
        cellsOf pkt.payload.length ≤ s.hub.reserveFree (queueOf out (s.hub.get (O.pathCls pkt.tid.toNat))) →
        16 * s.hub.sharedCells (queueOf out (s.hub.get (O.pathCls pkt.tid.toNat)))
          ≤ 2 ^ s.hub.get (O.alphaCode (s.hub.get (O.pathCls pkt.tid.toNat))) * s.hub.sharedFree →
        Answers (.packetReceive input pkt) s fun d => OnlyObjects s.hub d [O.pathCountPackets 0, O.queueStatusPeak 0, O.usedPeak, H.appended 0, H.creditReturned 0 0]
          ∧ ∃ h : Held, d.held = s.hub.held ++ [h] ∧ h.pkt = pkt ∧ h.q = queueOf out (s.hub.get (O.pathCls pkt.tid.toNat)) ∧ h.tid = pkt.tid.toNat
            ∧ h.outTid = outTid ∧ h.seg = .head ∧ h.reserve = cellsOf pkt.payload.length ∧ h.shared = 0)
  ∧ (∀ (s : State) (owner : Option Nat) (collide : Bool), s.hub.domainsOn = true → s.hub.get O.scrubPasses + 1 < 2 ^ 32 →
        s.hub.get H.scrubStart ≤ s.hub.now → s.hub.now - s.hub.get H.scrubStart ≤ s.hub.get O.scrubPeriod * 1000000000 →
        Answers (.scrubRead 1572863 .clean owner collide) s fun d => d.get O.scrubPasses = s.hub.get O.scrubPasses + 1
          ∧ d.get O.scrubLastPass = (s.hub.now - s.hub.get H.scrubStart) / 1000000000 % 2 ^ 32 ∧ d.get H.scrubStart = s.hub.now % 2 ^ 64 ∧ d.get (H.scrubLate 0) = 0
          ∧ d.lines = s.hub.lines ∧ OnlyRegs s.hub d [O.scrubPasses, O.scrubLastPass, H.scrubStart, H.scrubLate 0])
/-- A pool size in range that leaves the shared pool 65,536 cells is taken, another is refused. So is a credit pool below a CREDIT_LIMIT.
The spill region is resized only while no queue spills, and refused where a layer or a window stands in it. -/
def Obligations.PoolAndSpillSizeWrites : Prop :=
  (∀ (s : State) (lvl : Level) (pool : PoolSize) (v : BitVec 32), s.hub.domainsOn = true → Engineers lvl → (poolObj pool).2.1 ≤ v.toNat →
      v.toNat ≤ (poolObj pool).2.2 → 65536 ≤ (s.hub.put (poolObj pool).1 v.toNat).sharedLeft →
      (pool = .creditC0 → s.hub.topLimit 0 ≤ v.toNat) → (pool = .creditC4 → s.hub.topLimit 4 ≤ v.toNat) →
      s.hub.inRom = false → s.hub.handingOver = false →
      Answers (.poolSizeWrite lvl pool v) s fun d => d.get (poolObj pool).1 = v.toNat ∧ Sends s.hub d [.status .ok]
        ∧ OnlyRegs s.hub d [(poolObj pool).1, H.isoShort])
  ∧ (∀ (s : State) (lvl : Level) (pool : PoolSize) (v : BitVec 32), s.hub.domainsOn = true → Engineers lvl → (v.toNat < (poolObj pool).2.1
        ∨ (poolObj pool).2.2 < v.toNat) → s.hub.inRom = false → s.hub.handingOver = false →
        exec (.poolSizeWrite lvl pool v) s = .next { s with hub := s.hub.emit (.status .invalidValue) })
  ∧ (∀ (s : State) (lvl : Level) (v : BitVec 8), s.hub.domainsOn = true → Engineers lvl → v.toNat ≤ 16 → s.hub.usedAbove (userTop v.toNat) = false →
        s.hub.held = [] → s.hub.inRom = false → s.hub.handingOver = false →
        Answers (.spillSizeWrite lvl v) s fun d => d.get O.spillSize = v.toNat ∧ d.get O.userEnd = userTop v.toNat 
          ∧ (v = 0 → s.hub.get O.spillState ≠ 2 → d.get O.spillState = 3) ∧ Sends s.hub d [.status .ok] ∧ OnlyRegs s.hub d [O.spillSize, O.userEnd, O.spillState])

  ∧ (∀ (s : State) (lvl : Level) (pool : PoolSize) (v : BitVec 32), s.hub.domainsOn = true → Engineers lvl →
        (s.hub.put (poolObj pool).1 v.toNat).sharedLeft < 65536 → s.hub.inRom = false → s.hub.handingOver = false →
        exec (.poolSizeWrite lvl pool v) s = .next { s with hub := s.hub.emit (.status .invalidValue) })
  ∧ (∀ (s : State) (lvl : Level) (pool : PoolSize) (v : BitVec 32), s.hub.domainsOn = true → Engineers lvl →
        (pool = .creditC0 ∧ v.toNat < s.hub.topLimit 0 ∨ pool = .creditC4 ∧ v.toNat < s.hub.topLimit 4) → s.hub.inRom = false → s.hub.handingOver = false →
        exec (.poolSizeWrite lvl pool v) s = .next { s with hub := s.hub.emit (.status .invalidValue) })
  ∧ (∀ (s : State) (lvl : Level) (v : BitVec 8) (p : Held), s.hub.domainsOn = true → Engineers lvl → v.toNat ≤ 16 → s.hub.usedAbove (userTop v.toNat) = false →
        p ∈ s.hub.held → s.hub.spilling p.q = true → s.hub.inRom = false → s.hub.handingOver = false →
        exec (.spillSizeWrite lvl v) s = .next { s with hub := s.hub.emit (.status .busy) })
  ∧ (∀ (s : State) (lvl : Level) (v : BitVec 8), s.hub.domainsOn = true → Engineers lvl → (16 < v.toNat ∨ s.hub.usedAbove (userTop v.toNat) = true) → s.hub.inRom = false → s.hub.handingOver = false →
        exec (.spillSizeWrite lvl v) s = .next { s with hub := s.hub.emit (.status .invalidValue) })
/-! ## The path table and staged records -/

/-- The writes of the path table, of a multicast group and of a staged record, and the Cox's staged records. An entry that nothing refuses
is in force at once with every field as written; an invalid one is taken where the entry is free, changes nothing where it drains, and
starts DRAIN with the fields kept where it was VALID; a staged record of that entry is dropped. A group takes its members and OUT_TIDs, a
record all its fields, and a record with USED 0 frees its slot; a record of the Cox takes the lowest free slot, or is answered with
STAGE_FAIL. The refusals, each with its PATH_STATUS code and nothing else written: a reserved ID, an unlisted value, a combination or a
shaper that does not suit, a use that another entry makes, a draining entry, a change in place, the limit, a late record, a full stage, an
Oar not joined, and a write beyond the table's end. -/
def Obligations.PathTableWrites : Prop :=
  (∀ (s : State) (lvl : Level) (t : Fin 16384) (e : PathEntry), s.hub.domainsOn = true → Engineers lvl → s.hub.entryRefusal t e = none → entryValid e = true →
      s.hub.stagedSlots = [] → s.hub.inRom = false → s.hub.handingOver = false →
      Answers (.pathTableWrite lvl t [e]) s fun d => EntryTaken d t e ∧ d.valid t = true ∧ Sends s.hub d [.status .ok]
        ∧ OnlyRegs s.hub d (entryRegs t ++ [O.shaperTokens e.shaper.toNat, O.policerTokens e.policer.toNat, H.policerBucket e.policer.toNat, H.npSent t, H.npInFlight t]
          ++ (List.range 33).map fun o => H.bucket e.shaper.toNat o))
  ∧ (∀ (s : State) (lvl : Level) (g : Fin 1024) (members : BitVec 32) (outTids : List (BitVec 16)), s.hub.domainsOn = true → Engineers lvl →
        s.hub.oarUnjoined = false → s.hub.inRom = false → s.hub.handingOver = false →
        Answers (.mcastTableWrite lvl g members outTids) s fun d => d.get (O.mcastMembers g) = members.toNat % 2 ^ 31
          ∧ (∀ i : Nat, i < 32 → d.get (O.mcastOutTid g i) = match outTids[i]? with | some x => x.toNat % 16384 | none => s.hub.get (O.mcastOutTid g i))
          ∧ Sends s.hub d [.status .ok] ∧ OnlyRegs s.hub d (O.mcastMembers g :: (List.range 32).map fun i => O.mcastOutTid g i))
  ∧ (∀ (s : State) (lvl : Level) (k : Fin 256) (r : StageRecord), s.hub.domainsOn = true → Engineers lvl → s.hub.inRom = false → s.hub.handingOver = false → bit r.used.toNat 0 = false →
        s.hub.clearRefusal r = none →
        Answers (.stageTableWrite lvl k r) s fun d => OnlyRegs s.hub d (stageRegs k) ∧ (∀ o ∈ stageRegs k, d.get o = 0) ∧ Sends s.hub d [.status .ok])
  ∧ (∀ (s : State) (lvl : Level) (k : Fin 256) (r : StageRecord), s.hub.domainsOn = true → Engineers lvl → s.hub.inRom = false → s.hub.handingOver = false → bit r.used.toNat 0 = true →
        s.hub.stageRefusal r (s.hub.stagedSlots.length == 256) = none →
        Answers (.stageTableWrite lvl k r) s fun d => OnlyRegs s.hub d (stageRegs k) ∧ StageTaken d k r ∧ d.get (H.stageFromCox k) = 0
          ∧ d.get (H.stageVid k) = 0 ∧ Sends s.hub d [.status .ok])
  ∧ (∀ (s : State) (r : StageRecord) (vid : Option VidMapping) (k : Fin 256), s.hub.domainsOn = true → (List.range 256).find? (fun k => !bit (s.hub.get (O.stageUsed k)) 0) = some k.val →
        s.hub.stageRefusal r false = none →
        Answers (.stageMessage r vid) s fun d => OnlyRegs s.hub d (stageRegs k) ∧ StageTaken d k r ∧ d.get (H.stageFromCox k) = 1 ∧ d.out = s.hub.out)
  ∧ (∀ (s : State) (r : StageRecord) (vid : Option VidMapping) (st0 : Nat) (answer : Status),
        s.hub.domainsOn = true → s.hub.get O.role ≠ 2 →
        s.hub.stageRefusal r ((List.range 256).find? fun k => !bit (s.hub.get (O.stageUsed k)) 0).isNone = some (st0, answer) →
        Answers (.stageMessage r vid) s fun d => Sends s.hub d [.mgmtTo none 0 (.stageFail r.tid.toNat st0 r.activate.toNat)]
          ∧ d.get O.pathStatus = st0 ∧ OnlyRegs s.hub d [O.pathStatus])
  ∧ (∀ (s : State) (r : StageRecord) (vid : Option VidMapping) (st0 : Nat) (answer : Status), s.hub.domainsOn = true → s.hub.get O.role = 2 →
        s.hub.stageRefusal r ((List.range 256).find? fun k => !bit (s.hub.get (O.stageUsed k)) 0).isNone = some (st0, answer) →
        Answers (.stageMessage r vid) s fun d => d.ownFails = s.hub.ownFails ++ [(r.tid.toNat, st0, r.activate.toNat)]
          ∧ d.get O.pathStatus = st0 ∧ d.out = s.hub.out ∧ OnlyRegs s.hub d [O.pathStatus])

  ∧ (∀ (s : State) (lvl : Level) (t : Fin 16384) (e : PathEntry), s.hub.domainsOn = true → Engineers lvl → s.hub.inRom = false → s.hub.handingOver = false → t.val < 3 →
        Answers (.pathTableWrite lvl t [e]) s fun d => PathRefused s.hub d 5 .invalidValue)
  ∧ (∀ (s : State) (lvl : Level) (t : Fin 16384) (e : PathEntry), s.hub.domainsOn = true → Engineers lvl → s.hub.inRom = false → s.hub.handingOver = false → 3 ≤ t.val →
        s.hub.oarUnjoined = true → Answers (.pathTableWrite lvl t [e]) s fun d => PathRefused s.hub d 1 .busy)
  ∧ (∀ (s : State) (lvl : Level) (t : Fin 16384) (e : PathEntry), s.hub.domainsOn = true → Engineers lvl → s.hub.inRom = false → s.hub.handingOver = false → 3 ≤ t.val →
        s.hub.oarUnjoined = false → entryListed e = false → Answers (.pathTableWrite lvl t [e]) s fun d => PathRefused s.hub d 1 .invalidValue)
  ∧ (∀ (s : State) (lvl : Level) (t : Fin 16384) (e : PathEntry), s.hub.domainsOn = true → Engineers lvl → s.hub.inRom = false → s.hub.handingOver = false → s.hub.oarUnjoined = false →
        3 ≤ t.val → entryListed e = true → entryValid e = true → s.hub.drain t = true →
        Answers (.pathTableWrite lvl t [e]) s fun d => PathRefused s.hub d 2 .busy)
  ∧ (∀ (s : State) (lvl : Level) (t : Fin 16384) (e : PathEntry), s.hub.domainsOn = true → Engineers lvl → s.hub.inRom = false → s.hub.handingOver = false → s.hub.oarUnjoined = false →
        3 ≤ t.val → entryListed e = true → entryValid e = true → s.hub.drain t = false → s.hub.valid t = true →
        (s.hub.get (O.pathType t) ≠ e.type.toNat ∨ s.hub.get (O.pathIn t) ≠ e.inp.toNat ∨ s.hub.get (O.pathCls t) ≠ e.cls.toNat % 8
          ∨ s.hub.get (O.pathOut t) ≠ entryOut e ∨ s.hub.get (O.pathOutTid t) ≠ e.outTid.toNat % 16384 ∨ s.hub.isMcast t ≠ bit e.flags.toNat 1) →
        Answers (.pathTableWrite lvl t [e]) s fun d => PathRefused s.hub d 4 .busy)
  ∧ (∀ (s : State) (lvl : Level) (t : Fin 16384) (e : PathEntry), s.hub.domainsOn = true → Engineers lvl → s.hub.inRom = false → s.hub.handingOver = false → s.hub.oarUnjoined = false →
        3 ≤ t.val → entryListed e = true → entryValid e = true → s.hub.drain t = false → s.hub.valid t = false →
        ((typeRow e.type.toNat).1.contains (entryCls e) = false ∨ (e.type = 2 ∧ bit e.flags.toNat 1 = true) ∨ (s.hub.get O.role = 1 ∧ 0x20 ∈ entryEnds e)
          ∨ s.hub.shaperSuits e = false) →
        Answers (.pathTableWrite lvl t [e]) s fun d => PathRefused s.hub d 1 .invalidValue)
  ∧ (∀ (s : State) (lvl : Level) (t : Fin 16384) (e : PathEntry), s.hub.domainsOn = true → Engineers lvl → s.hub.inRom = false → s.hub.handingOver = false → s.hub.oarUnjoined = false →
        3 ≤ t.val → entryListed e = true → entryValid e = true → s.hub.drain t = false → s.hub.valid t = false →
        s.hub.combination e = true → s.hub.shaperSuits e = true → s.hub.useTaken t e = true →
        Answers (.pathTableWrite lvl t [e]) s fun d => PathRefused s.hub d 1 .busy)
  ∧ (∀ (s : State) (lvl : Level) (t : Fin 16384) (e : PathEntry), s.hub.domainsOn = true → Engineers lvl → s.hub.inRom = false → s.hub.handingOver = false → s.hub.oarUnjoined = false →
        3 ≤ t.val → entryListed e = true → entryValid e = true → s.hub.drain t = false → s.hub.valid t = false →
        s.hub.combination e = true → s.hub.shaperSuits e = true → s.hub.useTaken t e = false → 4096 ≤ s.hub.activeTunnels →
        Answers (.pathTableWrite lvl t [e]) s fun d => PathRefused s.hub d 3 .busy)
  ∧ (∀ (s : State) (lvl : Level) (t : Fin 16384) (e : PathEntry), s.hub.domainsOn = true → Engineers lvl → s.hub.inRom = false → s.hub.handingOver = false → s.hub.oarUnjoined = false →
        3 ≤ t.val → entryListed e = true → entryValid e = false → s.hub.stagedSlots = [] →
        s.hub.valid t = false → s.hub.drain t = false →
        Answers (.pathTableWrite lvl t [e]) s fun d => EntryTaken d t e ∧ Sends s.hub d [.status .ok] ∧ OnlyRegs s.hub d (entryRegs t))
  ∧ (∀ (s : State) (lvl : Level) (t : Fin 16384) (e : PathEntry), s.hub.domainsOn = true → Engineers lvl → s.hub.inRom = false → s.hub.handingOver = false → s.hub.oarUnjoined = false →
        3 ≤ t.val → entryListed e = true → entryValid e = false → s.hub.stagedSlots = [] →
        s.hub.valid t = false → s.hub.drain t = true →
        Answers (.pathTableWrite lvl t [e]) s fun d => Sends s.hub d [.status .ok] ∧ OnlyRegs s.hub d [])
  ∧ (∀ (s : State) (lvl : Level) (t : Fin 16384) (e : PathEntry), s.hub.domainsOn = true → Engineers lvl → s.hub.inRom = false → s.hub.handingOver = false → s.hub.oarUnjoined = false →
        3 ≤ t.val → entryListed e = true → entryValid e = false → s.hub.valid t = true → s.hub.get (O.pathFlags t) < 256 →
        Answers (.pathTableWrite lvl t [e]) s fun d => d.valid t = false ∧ d.drain t = true ∧ (∀ o ∈ entryRegs t, o ≠ O.pathFlags t → d.get o = s.hub.get o))
  ∧ (∀ (s : State) (lvl : Level) (t : Fin 16384) (e : PathEntry) (k : Fin 256), s.hub.domainsOn = true → Engineers lvl → s.hub.entryRefusal t e = none →
        s.hub.inRom = false → s.hub.handingOver = false → bit (s.hub.get (O.stageUsed k)) 0 = true → s.hub.get (O.stageTid k) = t.val →
        Answers (.pathTableWrite lvl t [e]) s fun d => d.get (O.stageUsed k) = 0)
  ∧ (∀ (s : State) (lvl : Level) (g : Fin 1024) (members : BitVec 32) (outTids : List (BitVec 16)), s.hub.domainsOn = true → Engineers lvl →
        s.hub.oarUnjoined = true → s.hub.inRom = false → s.hub.handingOver = false →
        Answers (.mcastTableWrite lvl g members outTids) s fun d => PathRefused s.hub d 1 .busy)
  ∧ (∀ (s : State) (lvl : Level) (k : Fin 256) (r : StageRecord), s.hub.domainsOn = true → Engineers lvl → s.hub.inRom = false → s.hub.handingOver = false → (r.tid.toNat < 3 ∨ 16383 < r.tid.toNat) → bit r.used.toNat 0 = true →
        Answers (.stageTableWrite lvl k r) s fun d => PathRefused s.hub d 5 .invalidValue)
  ∧ (∀ (s : State) (lvl : Level) (k : Fin 256) (r : StageRecord), s.hub.domainsOn = true → Engineers lvl → s.hub.inRom = false → s.hub.handingOver = false → 3 ≤ r.tid.toNat ∧ r.tid.toNat ≤ 16383 → bit r.used.toNat 0 = true → s.hub.oarUnjoined = false →
        entryListed r.entry = true → (entryValid r.entry = true → s.hub.combination r.entry = true) → r.activate.toNat ≤ s.hub.stroke →
        Answers (.stageTableWrite lvl k r) s fun d => PathRefused s.hub d 6 .invalidValue)
  ∧ (∀ (s : State) (lvl : Level) (k : Fin 256) (r : StageRecord), s.hub.domainsOn = true → Engineers lvl → s.hub.inRom = false → s.hub.handingOver = false → 3 ≤ r.tid.toNat ∧ r.tid.toNat ≤ 16383 → bit r.used.toNat 0 = true → s.hub.oarUnjoined = false →
        entryListed r.entry = true → (entryValid r.entry = true → s.hub.combination r.entry = true) → s.hub.stroke < r.activate.toNat →
        s.hub.stagedSlots.length = 256 →
        Answers (.stageTableWrite lvl k r) s fun d => PathRefused s.hub d 7 .busy)
  ∧ (∀ (s : State) (lvl : Level) (k : Fin 256) (r : StageRecord), s.hub.domainsOn = true → Engineers lvl → s.hub.inRom = false → s.hub.handingOver = false → 3 ≤ r.tid.toNat ∧ r.tid.toNat ≤ 16383 → bit r.used.toNat 0 = true → s.hub.oarUnjoined = false →
        (entryListed r.entry = false ∨ (entryValid r.entry = true ∧ s.hub.combination r.entry = false)) →
        Answers (.stageTableWrite lvl k r) s fun d => PathRefused s.hub d 1 .invalidValue)
  ∧ (∀ (s : State) (lvl : Level) (t : Fin 16384) (es : List PathEntry), s.hub.domainsOn = true → Engineers lvl → s.hub.inRom = false → s.hub.handingOver = false →
        16384 < t.val + es.length →
        Answers (.pathTableWrite lvl t es) s fun d => Sends s.hub d [.status .range] ∧ d.regs = s.hub.regs)

/-! ## The stroke -/

/-- The boundary counts the stroke, the drive window closes, a PLAN for a boundary ahead is kept, and the egress chooses and sends. A
management packet alone in its queue is staged for the next flits with the entry's outgoing ID; in the drive window the lowest class of C1
to C3 with an eligible head goes first; after it the deficit round robin of C4 to C7 sends the head of the class in turn where quantum and
deficit cover it, passes to the next class where they do not, and passes a class without a backlog. What was sent pays its shaper and its
deficit, and is counted by port, class and entry, with its delay. At an adapter the first head of the lowest class passes to its endpoint. A
sound read of the cell memory is assumed. -/
def Obligations.StrokeAndEgressCommands : Prop :=
  (∀ (s : State),
      s.hub.pdOn = true → AnswersAll .strokeBoundary s fun d m => OnlyIndexes s.hub d [0x1003, 0x1004, 0x1005, 0x1006, 0x2000, 0x2006, 0x2007, 0x2400, 0x2800, 0x2801, 0x2802, 0x2803, 0x2804, 0x2805, 0x2806, 0x2807, 0x2808, 0x3101, 0x4000, 0x4001, 0x4003, 0x4004, 0x4005, 0x4006, 0x4010, 0x4040, 0x4050, 0x4051, 0x4100, 0x4103, 0x4105, 0x4106, 0x4109, 0x4200, 0x4201, 0x4202, 0x4210, 0x4220, 0x4230, 0x4241, 0x4242, 0x4250, 0x4261, 0x5010, 0x5040, 0x5043, 0x5044, 0x5045, 0x6000, 0x6002, 0x6003, 0x6004, 0x6008, 0x6009, 0x6022, 0x7010, 0xA000, 0xA001, 0xA004, 0xA005, 0xA006]
        ∧ d.get O.strokeNumber = (s.hub.stroke + 1) % 2 ^ 64 ∧ m = s.mem)
  ∧ (∀ (s : State) (p : Port), s.hub.domainsOn = true → s.hub.flag (H.driveOpen p) = true → s.hub.flag (H.retunePending p) = false →
        Answers (.driveWindowClose p) s fun d => d.flag (H.driveOpen p) = false
          ∧ d.now = max s.hub.now (s.hub.boundaryAt + s.hub.get O.driveWindow)
          ∧ OnlyRegs s.hub d [H.driveOpen p, O.egressStrokeDriveBusy p])
  ∧ (∀ (s : State) (plan : PlanPacket), s.hub.domainsOn = true → s.hub.stroke < plan.effective.toNat → s.hub.get O.treeState = 2 → s.hub.get O.role ≠ 2 →
        Answers (.plan plan) s fun d => OnlyObjects s.hub d [O.grantGrant 0] ∧ d.plan.getLast? = some plan ∧ d.out = s.hub.out)
  ∧ (∀ (s : State) (port : Port) (p : Held) (cell : Fin 196608), s.hub.domainsOn = true → s.hub.held = [p] → p.q = queueOf port 0 → p.seg = .head → p.tid = 0 →
        p.cells ≤ s.hub.creditAvail port 0 → s.hub.get (O.linkState port) = 3 → s.hub.staged = [] → 0 < s.hub.flitRoom port →
        s.hub.mgmtWait = [] → s.hub.tlpWait = [] → p.marked = none →
        Answers (.egressSelect port ⟨.clean, cell, 0⟩) s fun d => OnlyIndexes s.hub d [0x1003, 0x1004, 0x1005, 0x1006, 0x2000, 0x2006, 0x2007, 0x2400, 0x2800, 0x2801, 0x2803, 0x2804, 0x2805, 0x2806, 0x2807, 0x2808, 0x3101, 0x4001, 0x4004, 0x4005, 0x4006, 0x4051, 0x4100, 0x4103, 0x4105, 0x4106, 0x4108, 0x4109, 0x4201, 0x4210, 0x4220, 0x4230, 0x4250, 0x4260, 0x4262, 0x5000, 0x5001, 0x5010, 0x5020, 0x5040, 0x5043, 0x5044, 0x5045, 0x6000, 0x6002, 0x6003, 0x6004, 0x6008, 0x6009, 0x6022, 0x7010, 0x8000, 0x8001, 0x8003, 0x8004, 0x8006, 0x8007, 0x9001, 0x9002, 0x9004, 0x9005, 0xA001, 0xA006]
          ∧ d.held = [] ∧ d.staged = [⟨port.val, 0, p.cells, (p.pkt.rewrite p.outTid 0).toBytes, false, 0⟩])
  ∧ (∀ (s : State) (p : Held) (cell : Fin 196608), s.hub.domainsOn = true → s.hub.held = [p] → p.q = queueOf 32 0 → p.seg = .head → p.tid = 0 →
        s.hub.handingOver = false → s.hub.mgmtWait = [] → s.hub.tlpWait = [] → p.marked = none →
        Answers (.adapterEgress 8 ⟨.clean, cell, 0⟩) s fun d => OnlyIndexes s.hub d [0x1003, 0x1004, 0x1005, 0x1006, 0x2000, 0x2006, 0x2007, 0x2400, 0x2800, 0x2801, 0x2803, 0x2804, 0x2805, 0x2806, 0x2807, 0x2808, 0x3101, 0x4001, 0x4004, 0x4005, 0x4006, 0x4040, 0x4051, 0x4100, 0x4103, 0x4105, 0x4106, 0x4108, 0x4109, 0x4201, 0x4210, 0x4220, 0x4230, 0x4250, 0x4260, 0x4262, 0x5000, 0x5001, 0x5010, 0x5020, 0x5040, 0x5043, 0x5044, 0x5045, 0x6000, 0x6002, 0x6003, 0x6004, 0x6008, 0x6009, 0x6022, 0x7010, 0x8000, 0x8001, 0x8003, 0x8004, 0x8006, 0x8007, 0x9001, 0x9002, 0x9004, 0x9005, 0xA001, 0xA006]
          ∧ d.held = [] ∧ Out.packet 32 (p.pkt.rewrite 0 0) ∈ d.out)
  ∧ (∀ (s : State) (port : Port) (k : Nat) (p : Held) (cell : Fin 196608), s.hub.domainsOn = true → s.hub.egressReady port = true → 1 ≤ k → k ≤ 3 →
        s.hub.firstHead port = none → (∀ j ∈ [1, 2, 3], j < k → s.hub.driveHead port j = none) → s.hub.driveHead port k = some p →
        s.hub.get O.sagStage ≠ 5 → (∀ h ∈ s.hub.held, s.hub.drain h.tid = false) →
        s.hub.mgmtWait = [] → s.hub.tlpWait = [] → p.marked = none →
        Answers (.egressSelect port ⟨.clean, cell, 0⟩) s fun d => OnlyIndexes s.hub d [0x1003, 0x1004, 0x1005, 0x1006, 0x2000, 0x2006, 0x2007, 0x2400, 0x2800, 0x2801, 0x2803, 0x2804, 0x2805, 0x2806, 0x2807, 0x2808, 0x3101, 0x4001, 0x4004, 0x4005, 0x4006, 0x4051, 0x4100, 0x4103, 0x4105, 0x4106, 0x4108, 0x4109, 0x4201, 0x4210, 0x4220, 0x4230, 0x4250, 0x4260, 0x4262, 0x5000, 0x5001, 0x5010, 0x5020, 0x5040, 0x5043, 0x5044, 0x5045, 0x6000, 0x6002, 0x6003, 0x6004, 0x6008, 0x6009, 0x6022, 0x7010, 0x8000, 0x8001, 0x8003, 0x8004, 0x8006, 0x8007, 0x9001, 0x9002, 0x9004, 0x9005, 0xA001, 0xA006]
          ∧ d.staged = s.hub.staged ++ [⟨port.val, k, p.cells, (p.pkt.rewrite p.outTid k).toBytes, false, p.tid⟩] ∧ d.held.length + 1 = s.hub.held.length
          ∧ (p.shaper < 0xFFFF → d.getI (H.bucket p.shaper port) = (((s.hub.getI (H.bucket p.shaper port) - p.pkt.size : Int) + 2 ^ 63) % 2 ^ 64 - 2 ^ 63))
          ∧ (s.hub.get (O.egressStrokeIsoBytes port) + p.pkt.size < (O.egressStrokeIsoBytes port).cap →
              d.get (O.egressStrokeIsoBytes port) = s.hub.get (O.egressStrokeIsoBytes port) + p.pkt.size)
          ∧ (p.sampled = true → d.get (O.delayHistBin p.q (histBin (s.hub.now - p.appended) (s.hub.get (O.histCfgDelayShift p.q))))
              = min (s.hub.get (O.delayHistBin p.q (histBin (s.hub.now - p.appended) (s.hub.get (O.histCfgDelayShift p.q)))) + 1) 0xFFFFFFFF))
  ∧ (∀ (s : State) (port : Port) (k : Nat) (p : Held) (cell : Fin 196608), s.hub.domainsOn = true → s.hub.egressReady port = true →
        s.hub.get (H.drrClass port) = k → 4 ≤ k → k ≤ 7 → s.hub.firstHead port = none → (∀ j ∈ [1, 2, 3], s.hub.driveHead port j = none) →
        s.hub.recoveryHead port k = some p → s.hub.get (H.drrLooked port) = 0 →
        p.pkt.size ≤ s.hub.get (O.deficitBytes (queueOf port k)) + s.hub.get (O.quantumBytes (queueOf port k)) →
        s.hub.get (O.deficitBytes (queueOf port k)) + s.hub.get (O.quantumBytes (queueOf port k)) < 2 ^ 32 →
        s.hub.get O.sagStage ≠ 5 → (∀ h ∈ s.hub.held, s.hub.drain h.tid = false) →
        s.hub.mgmtWait = [] → s.hub.tlpWait = [] → p.marked = none →
        Answers (.egressSelect port ⟨.clean, cell, 0⟩) s fun d => OnlyIndexes s.hub d [0x1003, 0x1004, 0x1005, 0x1006, 0x2000, 0x2006, 0x2007, 0x2400, 0x2800, 0x2801, 0x2803, 0x2804, 0x2805, 0x2806, 0x2807, 0x2808, 0x3101, 0x4001, 0x4004, 0x4005, 0x4006, 0x4051, 0x4100, 0x4103, 0x4105, 0x4106, 0x4108, 0x4109, 0x4201, 0x4210, 0x4220, 0x4230, 0x4250, 0x4260, 0x4262, 0x5000, 0x5001, 0x5010, 0x5020, 0x5040, 0x5043, 0x5044, 0x5045, 0x6000, 0x6002, 0x6003, 0x6004, 0x6008, 0x6009, 0x6022, 0x7010, 0x8000, 0x8001, 0x8003, 0x8004, 0x8006, 0x8007, 0x9001, 0x9002, 0x9004, 0x9005, 0xA001, 0xA006]
          ∧ d.staged = s.hub.staged ++ [⟨port.val, k, p.cells, (p.pkt.rewrite p.outTid k).toBytes, false, p.tid⟩] ∧ d.held.length + 1 = s.hub.held.length
          ∧ d.get (O.deficitBytes (queueOf port k)) = s.hub.get (O.deficitBytes (queueOf port k)) + s.hub.get (O.quantumBytes (queueOf port k)) - p.pkt.size
          ∧ d.get (H.drrClass port) = k ∧ d.get (H.drrLooked port) = 1)
  ∧ (∀ (s : State) (port : Port) (was k : Nat) (h p : Held) (cell : Fin 196608), s.hub.domainsOn = true → s.hub.egressReady port = true →
        s.hub.get (H.drrClass port) = was → 4 ≤ was → was ≤ 7 → k = (if was = 7 then 4 else was + 1) → s.hub.firstHead port = none → (∀ j ∈ [1, 2, 3], s.hub.driveHead port j = none) →
        s.hub.recoveryHead port was = some h → s.hub.get (H.drrLooked port) = 0 →
        s.hub.get (O.deficitBytes (queueOf port was)) + s.hub.get (O.quantumBytes (queueOf port was)) < h.pkt.size →
        s.hub.recoveryHead port k = some p →
        p.pkt.size ≤ s.hub.get (O.deficitBytes (queueOf port k)) + s.hub.get (O.quantumBytes (queueOf port k)) →
        s.hub.get (O.deficitBytes (queueOf port k)) + s.hub.get (O.quantumBytes (queueOf port k)) < 2 ^ 32 →
        h.pkt.size < 2 ^ 32 → s.hub.get O.sagStage ≠ 5 → (∀ h ∈ s.hub.held, s.hub.drain h.tid = false) →
        s.hub.mgmtWait = [] → s.hub.tlpWait = [] → p.marked = none →
        Answers (.egressSelect port ⟨.clean, cell, 0⟩) s fun d => OnlyIndexes s.hub d [0x1003, 0x1004, 0x1005, 0x1006, 0x2000, 0x2006, 0x2007, 0x2400, 0x2800, 0x2801, 0x2803, 0x2804, 0x2805, 0x2806, 0x2807, 0x2808, 0x3101, 0x4001, 0x4004, 0x4005, 0x4006, 0x4051, 0x4100, 0x4103, 0x4105, 0x4106, 0x4108, 0x4109, 0x4201, 0x4210, 0x4220, 0x4230, 0x4250, 0x4260, 0x4262, 0x5000, 0x5001, 0x5010, 0x5020, 0x5040, 0x5043, 0x5044, 0x5045, 0x6000, 0x6002, 0x6003, 0x6004, 0x6008, 0x6009, 0x6022, 0x7010, 0x8000, 0x8001, 0x8003, 0x8004, 0x8006, 0x8007, 0x9001, 0x9002, 0x9004, 0x9005, 0xA001, 0xA006]
          ∧ d.staged = s.hub.staged ++ [⟨port.val, k, p.cells, (p.pkt.rewrite p.outTid k).toBytes, false, p.tid⟩] ∧ d.held.length + 1 = s.hub.held.length
          ∧ d.get (O.deficitBytes (queueOf port was)) = s.hub.get (O.deficitBytes (queueOf port was)) + s.hub.get (O.quantumBytes (queueOf port was))
          ∧ d.get (H.drrClass port) = k)
  ∧ (∀ (s : State) (port : Port) (was k : Nat) (p : Held) (cell : Fin 196608), s.hub.domainsOn = true → s.hub.egressReady port = true →
        s.hub.get (H.drrClass port) = was → 4 ≤ was → was ≤ 7 → k = (if was = 7 then 4 else was + 1) → s.hub.firstHead port = none → (∀ j ∈ [1, 2, 3], s.hub.driveHead port j = none) →
        s.hub.backlogged (queueOf port was) = false → s.hub.recoveryHead port k = some p →
        p.pkt.size ≤ s.hub.get (O.deficitBytes (queueOf port k)) + s.hub.get (O.quantumBytes (queueOf port k)) →
        s.hub.get (O.deficitBytes (queueOf port k)) + s.hub.get (O.quantumBytes (queueOf port k)) < 2 ^ 32 →
        s.hub.get O.sagStage ≠ 5 → (∀ h ∈ s.hub.held, s.hub.drain h.tid = false) →
        s.hub.mgmtWait = [] → s.hub.tlpWait = [] → p.marked = none →
        Answers (.egressSelect port ⟨.clean, cell, 0⟩) s fun d => OnlyIndexes s.hub d [0x1003, 0x1004, 0x1005, 0x1006, 0x2000, 0x2006, 0x2007, 0x2400, 0x2800, 0x2801, 0x2803, 0x2804, 0x2805, 0x2806, 0x2807, 0x2808, 0x3101, 0x4001, 0x4004, 0x4005, 0x4006, 0x4051, 0x4100, 0x4103, 0x4105, 0x4106, 0x4108, 0x4109, 0x4201, 0x4210, 0x4220, 0x4230, 0x4250, 0x4260, 0x4262, 0x5000, 0x5001, 0x5010, 0x5020, 0x5040, 0x5043, 0x5044, 0x5045, 0x6000, 0x6002, 0x6003, 0x6004, 0x6008, 0x6009, 0x6022, 0x7010, 0x8000, 0x8001, 0x8003, 0x8004, 0x8006, 0x8007, 0x9001, 0x9002, 0x9004, 0x9005, 0xA001, 0xA006]
          ∧ d.staged = s.hub.staged ++ [⟨port.val, k, p.cells, (p.pkt.rewrite p.outTid k).toBytes, false, p.tid⟩] ∧ d.held.length + 1 = s.hub.held.length
          ∧ d.get (O.deficitBytes (queueOf port was)) = 0 ∧ d.get (H.drrClass port) = k)
  ∧ (∀ (s : State) (e : Fin 9) (k : Nat) (p : Held) (cell : Fin 196608), s.hub.domainsOn = true → 3 ≤ e.val → e.val ≤ 7 → k ≤ 3 →
        (∀ j : Nat, j < k → s.hub.headPacket (queueOf (24 + e.val) j) = none) → s.hub.headPacket (queueOf (24 + e.val) k) = some p →
        s.hub.flag H.isoHold = false →
        s.hub.get O.sagStage ≠ 5 → (∀ h ∈ s.hub.held, s.hub.drain h.tid = false) →
        s.hub.mgmtWait = [] → s.hub.tlpWait = [] → p.marked = none →
        Answers (.adapterEgress e ⟨.clean, cell, 0⟩) s fun d => OnlyIndexes s.hub d [0x1003, 0x1004, 0x1005, 0x1006, 0x2000, 0x2006, 0x2007, 0x2400, 0x2800, 0x2801, 0x2803, 0x2804, 0x2805, 0x2806, 0x2807, 0x2808, 0x3101, 0x4001, 0x4004, 0x4005, 0x4006, 0x4040, 0x4051, 0x4100, 0x4103, 0x4105, 0x4106, 0x4108, 0x4109, 0x4201, 0x4210, 0x4220, 0x4230, 0x4250, 0x4260, 0x4262, 0x5000, 0x5001, 0x5010, 0x5020, 0x5040, 0x5043, 0x5044, 0x5045, 0x6000, 0x6002, 0x6003, 0x6004, 0x6008, 0x6009, 0x6022, 0x7010, 0x8000, 0x8001, 0x8003, 0x8004, 0x8006, 0x8007, 0x9001, 0x9002, 0x9004, 0x9005, 0xA001, 0xA006]
          ∧ d.held = s.hub.held.erase p ∧ Out.packet (24 + e.val) (p.pkt.rewrite p.tid k) ∈ d.out)

/-- Grants, rates, quanta, histogram clears and the drive window are taken as written, and what the boundary makes of them. A raised grant
waits 4 boundaries and a lowered one 1: each boundary counts the wait down, and the one that ends it puts the new value into GRANT and NEXT
back to FFFFFFFFh; a grant that waits for nothing stays. The NEXT of a fixed shaper or policer becomes its RATE at the boundary, where no
staged record takes effect. -/
def Obligations.StrokeWrites : Prop :=
  (∀ (s : State) (lvl : Level) (t : Fin 16384) (g : BitVec 32), s.hub.domainsOn = true → Engineers lvl → 3 ≤ t.val ∧ t.val ≤ 8191 → s.hub.valid t = true →
      1 ≤ s.hub.get (O.pathCls t) ∧ s.hub.get (O.pathCls t) ≤ 3 → g.toNat < s.hub.get (O.grantGrant t) → s.hub.inRom = false →
      s.hub.handingOver = false →
      Answers (.grantWrite lvl t g) s fun d => OnlyObjects s.hub d [O.grantNext 0, H.portSection, H.grantWait 0, H.grantNew 0]
        ∧ d.get (H.grantWait t) = 1 ∧ d.get (H.grantNew t) = g.toNat ∧ d.get (O.grantNext t) = g.toNat
        ∧ d.get (O.grantGrant t) = s.hub.get (O.grantGrant t) ∧ Sends s.hub d [.status .ok])
  ∧ (∀ (s : State) (lvl : Level) (t : Fin 16384) (g : BitVec 32), s.hub.domainsOn = true → Engineers lvl → 3 ≤ t.val ∧ t.val ≤ 8191 → s.hub.valid t = true →
        1 ≤ s.hub.get (O.pathCls t) ∧ s.hub.get (O.pathCls t) ≤ 3 → s.hub.get (O.grantGrant t) < g.toNat → s.hub.inRom = false →
        s.hub.handingOver = false →
        Answers (.grantWrite lvl t g) s fun d => OnlyObjects s.hub d [O.grantNext 0, H.portSection, H.grantWait 0, H.grantNew 0]
          ∧ d.get (H.grantWait t) = 4 ∧ d.get (H.grantNew t) = g.toNat ∧ d.get (O.grantGrant t) = s.hub.get (O.grantGrant t)
          ∧ Sends s.hub d [.status .ok])
  ∧ (∀ (s : State) (lvl : Level) (k : Fin 4096) (rate : BitVec 32), s.hub.domainsOn = true → Engineers lvl → s.hub.get (O.shaperMode k) = 1 →
        s.hub.inRom = false → s.hub.handingOver = false →
        Answers (.shaperWrite lvl k 1 rate) s fun d => d.get (O.shaperNext k) = rate.toNat ∧ Sends s.hub d [.status .ok]
          ∧ OnlyRegs s.hub d [O.shaperMode k, O.shaperNext k])
  ∧ (∀ (s : State) (lvl : Level) (k : Fin 4096) (rate : BitVec 32), s.hub.domainsOn = true → Engineers lvl → s.hub.get (O.policerMode k) = 1 →
        s.hub.inRom = false → s.hub.handingOver = false →
        Answers (.policerWrite lvl k 1 rate) s fun d => d.get (O.policerNext k) = rate.toNat ∧ Sends s.hub d [.status .ok]
          ∧ OnlyRegs s.hub d [O.policerMode k, O.policerNext k])
  ∧ (∀ (s : State) (lvl : Level) (q : Fin 264) (v : BitVec 32), s.hub.domainsOn = true → Engineers lvl → 64 ≤ v.toNat → v.toNat ≤ 65536 → s.hub.inRom = false →
        s.hub.handingOver = false →
        Answers (.quantumWrite lvl q v) s fun d => d.get (O.quantumBytes q) = v.toNat ∧ Sends s.hub d [.status .ok]
          ∧ OnlyRegs s.hub d [O.quantumBytes q])
  ∧ (∀ (s : State) (lvl : Level) (q : Fin 264) (bins : List (BitVec 32)), s.hub.domainsOn = true → Engineers lvl → bins.length ≤ 16 → (∀ b ∈ bins, b = 0) →
        s.hub.inRom = false → s.hub.handingOver = false →
        Answers (.histClear lvl true q bins) s fun d => OnlyObjects s.hub d [O.depthHistBin 0 0, O.delayHistBin 0 0]
          ∧ (∀ k, k < bins.length → d.get (O.delayHistBin q k) = 0) ∧ Sends s.hub d [.status .ok])
  ∧ (∀ (s : State) (lvl : Level) (v : BitVec 32), s.hub.domainsOn = true → Engineers lvl → s.hub.get O.role = 2 → 32000 ≤ v.toNat → v.toNat ≤ 112000 →
        s.hub.inRom = false → s.hub.handingOver = false →
        Answers (.driveWindowWrite lvl v) s fun d => d.get H.windowNext = v.toNat ∧ Sends s.hub d [.status .ok]
          ∧ OnlyRegs s.hub d [H.windowNext])

  ∧ (∀ (s : State) (t : Nat), s.hub.domainsOn = true → 3 ≤ t ∧ t ≤ 8191 → s.hub.get (H.grantWait t) = 1 → (s.hub.instances (H.grantWait 0)).Nodup →
        s.hub.get (H.grantNew t) < 2 ^ 32 →
        Answers .strokeBoundary s fun d => d.get (O.grantGrant t) = s.hub.get (H.grantNew t) ∧ d.get (O.grantNext t) = 0xFFFFFFFF
          ∧ d.get (H.grantWait t) = 0)
  ∧ (∀ (s : State) (t : Nat), s.hub.domainsOn = true → 3 ≤ t ∧ t ≤ 8191 → 2 ≤ s.hub.get (H.grantWait t) ∧ s.hub.get (H.grantWait t) ≤ 4 →
        (s.hub.instances (H.grantWait 0)).Nodup →
        Answers .strokeBoundary s fun d => d.get (O.grantGrant t) = s.hub.get (O.grantGrant t) ∧ d.get (H.grantNew t) = s.hub.get (H.grantNew t)
          ∧ d.get (H.grantWait t) = s.hub.get (H.grantWait t) - 1)
  ∧ (∀ (s : State) (t : Nat), s.hub.domainsOn = true → t ≤ 8191 → s.hub.get (H.grantWait t) = 0 →
        Answers .strokeBoundary s fun d => d.get (O.grantGrant t) = s.hub.get (O.grantGrant t))
  ∧ (∀ (s : State) (k : Fin 4096), s.hub.domainsOn = true → s.hub.stagedSlots = [] → s.hub.get (O.shaperMode k) = 1 → s.hub.get (O.shaperNext k) < 2 ^ 32 →
        s.hub.get (O.shaperRate k) < 2 ^ 32 →
        Answers .strokeBoundary s fun d => d.get (O.shaperNext k) = 0xFFFFFFFF
          ∧ d.get (O.shaperRate k) = if s.hub.get (O.shaperNext k) = 0xFFFFFFFF then s.hub.get (O.shaperRate k) else s.hub.get (O.shaperNext k))
  ∧ (∀ (s : State) (k : Fin 4096), s.hub.domainsOn = true → s.hub.stagedSlots = [] → s.hub.get (O.policerMode k) = 1 → s.hub.get (O.policerNext k) < 2 ^ 32 →
        s.hub.get (O.policerRate k) < 2 ^ 32 →
        Answers .strokeBoundary s fun d => d.get (O.policerNext k) = 0xFFFFFFFF
          ∧ d.get (O.policerRate k) = if s.hub.get (O.policerNext k) = 0xFFFFFFFF then s.hub.get (O.policerRate k) else s.hub.get (O.policerNext k))

/-! ## PCI Express -/

/-- TLPs at the PCIe port are routed, sent and released. A memory request that hits a BAR of the hub function is taken there, and a read of
BAR0 is answered in completions that end at the 64-byte boundaries; a TLP of a tunnel goes out to the partner with its bytes unchanged;
unreported sends, up to 64, go back in a packet without TLP, which joins the queue of the paired entry where that has room; BAR2 reads and
writes the process image. -/
def Obligations.PcieTlpCommands : Prop :=
  (∀ (s : State) (tlp : Tlp) (bar off : Nat), s.hub.oarPort = false → s.hub.flag H.running = true → s.hub.get O.powerState = 0 → tlp.kind = .memRead →
      s.hub.barOf tlp.addr.toNat = some (bar, off) → bar ≠ 0 →
      Answers (.pcieTlpReceive tlp) s fun d => OnlyIndexes s.hub d [0x3020, 0x4001, 0x4004, 0x4005, 0x4006, 0x4100, 0x4103, 0x4105, 0x4106, 0x4109, 0x4230, 0x4250, 0x5001, 0x5020, 0xA001, 0xA006]
        ∧ d.out.getLast? = some (.barAccess bar off))
  ∧ (∀ (s : State) (tlp : Tlp) (off : Nat), s.hub.oarPort = false → s.hub.flag H.running = true → s.hub.get O.powerState = 0 → tlp.kind = .memRead →
        s.hub.barOf tlp.addr.toNat = some (0, off) →
        Answers (.pcieTlpReceive tlp) s fun d => OnlyIndexes s.hub d [0x3020, 0x4001, 0x4004, 0x4005, 0x4006, 0x4100, 0x4103, 0x4105, 0x4106, 0x4109, 0x4230, 0x4250, 0x5001, 0x5020, 0xA001, 0xA006]
          ∧ ∃ (pre : List Out) (ps : List Bytes), d.out = pre ++ ps.map (fun b => Out.completion tlp.requester.toNat tlp.tag.toNat 0 b)
            ∧ ps.flatten = (List.range (readLength tlp)).map (fun i => s.hub.bar0Byte (off + i)) ∧ (∀ b ∈ ps, b.length ≤ 64)
            ∧ ∀ k : Nat, k + 1 < ps.length → (off + (ps.take (k + 1)).flatten.length) % 64 = 0)
  ∧ (∀ (s : State) (tlp : Tlp) (x : EgressTlp), s.hub.domainsOn = true → s.hub.oarPort = true → s.hub.tlpOut = [x] → x.category ≤ 2 → x.bytes = tlp.bytes →
        s.hub.tlpBarred = false →
        Answers (.rootPortTlpReceive true tlp) s fun d => OnlyIndexes s.hub d [0x3020, 0x4001, 0x4004, 0x4005, 0x4006, 0x4100, 0x4103, 0x4105, 0x4106, 0x4109, 0x4230, 0x4250, 0x5001, 0x5020, 0xA001, 0xA006]
          ∧ d.tlpOut = [] ∧ Sends s.hub d [.tlp tlp.bytes])
  ∧ (∀ (s : State) (np cpl : Bool) (x : EgressTlp), s.hub.domainsOn = true → s.hub.tlpOut = [x] → x.category = 0 → s.hub.tlpBarred = false → s.hub.acsViolated x = none →
        bits (x.bytes.getD 0 0).toNat 5 3 ≠ 1 →
        Answers (.pcieTlpEgress true np cpl) s fun d => d.tlpOut = [] ∧ Sends s.hub d [.tlp x.bytes] ∧ OnlyRegs s.hub d [])
  ∧ (∀ (s : State) (tid : Fin 16384), s.hub.domainsOn = true → 0 < s.hub.get (H.npSent tid) → s.hub.get (H.npSent tid) ≤ 64 →
        s.hub.get (O.pathPair tid) < 16384 → s.hub.tlpWait = [] →
        Answers (.pcieReleaseOnly tid) s fun d => d.get (H.npSent tid) = 0)
  ∧ (∀ (s : State) (offset : Fin 65536) (data : Bytes), s.hub.domainsOn = true → s.hub.coxPort = true →
        AnswersAll (.bar2Access offset true data) s fun d m => d = s.hub ∧ m = s.mem.writeImage offset (data.take (65536 - offset.val)))
  ∧ (∀ (s : State) (offset : Fin 65536) (data : Bytes), s.hub.domainsOn = true → s.hub.coxPort = true →
        AnswersAll (.bar2Access offset false data) s fun d m => m = s.mem
          ∧ Sends s.hub d [.barData (s.mem.readImage offset (min data.length (65536 - offset.val)))] ∧ OnlyRegs s.hub d [])

  ∧ (∀ (s : State) (tid : Fin 16384) (out outTid : Nat), s.hub.domainsOn = true → s.hub.flag O.forwarding = true → 0 < s.hub.get (H.npSent tid) →
        s.hub.tlpWait = [] → 3 ≤ s.hub.get (O.pathPair tid) → s.hub.get (O.pathPair tid) < 16384 →
        s.hub.valid (s.hub.get (O.pathPair tid)) = true → s.hub.isMcast (s.hub.get (O.pathPair tid)) = false →
        s.hub.get (O.pathIn (s.hub.get (O.pathPair tid))) = 0x20 → s.hub.get (O.pathType (s.hub.get (O.pathPair tid))) = 2 →
        s.hub.get (O.pathCls (s.hub.get (O.pathPair tid))) = 4 → s.hub.get (O.pathPolicer (s.hub.get (O.pathPair tid))) = 0xFFFF →
        s.hub.outputs (s.hub.get (O.pathPair tid)) = [(out, outTid)] → s.hub.portBarred out = false → s.hub.spilling (queueOf out 4) = false →
        100 * s.hub.cellsUsed < s.hub.get O.spillOn * 196608 → 1 ≤ s.hub.reserveFree (queueOf out 4) →
        16 * s.hub.sharedCells (queueOf out 4) ≤ 2 ^ s.hub.get (O.alphaCode 4) * s.hub.sharedFree →
        Answers (.pcieReleaseOnly tid) s fun d => OnlyObjects s.hub d [O.pathCountPackets 0, O.queueStatusPeak 0, O.usedPeak, H.appended 0, H.txSeq 0, H.npSent 0, H.pcieGiven 0]
          ∧ d.get (H.npSent tid) = s.hub.get (H.npSent tid) - min (s.hub.get (H.npSent tid)) 64
          ∧ ∃ h : Held, d.held = s.hub.held ++ [h] ∧ h.q = queueOf out 4 ∧ h.outTid = outTid ∧ h.pkt.tid.toNat = s.hub.get (O.pathPair tid)
            ∧ h.pkt.type = 2 ∧ h.pkt.payload = [] ∧ h.pkt.info.toNat = 3 + 256 * min (s.hub.get (H.npSent tid)) 64)
/-- Resets, training and loss of the PCIe link, and the virtual downstream ports. A downstream port of the Cox takes a pair of PCIe routes
that may be bound, with the Oar that the downstream route reaches; a pair that may not be bound is refused with INVALID_VALUE; FFFFh
unbinds. -/
def Obligations.PcieLinkCommands : Prop :=
  (∀ (s : State), s.hub.domainsOn = true → s.hub.oarPort = false → s.hub.get O.apertureSize ≤ 6 →
      Answers (.pcieHotReset none) s fun d => OnlyIndexes s.hub d [0x4004, 0x4005, 0x4006, 0x4100, 0x4103, 0x4105, 0x4106, 0x4109, 0x4230, 0x4250, 0x5010, 0x5040, 0x5043, 0x5044, 0x5045, 0xA001, 0xA006]
        ∧ (∀ f, f < 66 → d.get (H.cfg f 4) = 0) ∧ d.get H.apertureInForce = s.hub.get O.apertureSize)
  ∧ (∀ (s : State) (v : Fin 64), s.hub.domainsOn = true → s.hub.oarPort = false → s.hub.get (O.vdpDown v) ≠ 0xFFFF →
        RigIdle s.hub → Reaches s.hub (s.hub.get (O.vdpOar v)) →
        Answers (.pcieHotReset (some v)) s fun d => OnlyIndexes s.hub d [0x4004, 0x4005, 0x4006, 0x4100, 0x4103, 0x4105, 0x4106, 0x4109, 0x4230, 0x4250, 0x5040, 0x5043, 0x5044, 0x5045, 0xA001, 0xA006]
          ∧ ∃ r, d.rigOut = [r] ∧ r.op = 2 ∧ r.hub = s.hub.get (O.vdpOar v) ∧ r.data = [1])
  ∧ (∀ (s : State) (speed width : BitVec 8), s.hub.domainsOn = true → s.hub.flag O.pcieEnable = true →
        Answers (.pcieLinkTraining speed width) s fun d => OnlyObjects s.hub d [O.writeCommitted, O.readCommitted, O.overcommit, O.inAllowMbps 0, O.outAllowMbps 0, O.pcieLinkSpeed, O.pcieLinkWidth, O.rpLinkState, O.rpSpeed, O.rpWidth, O.rpHotReset, H.pcieCellsInForce, H.apertureInForce, H.pcieTaken 0, H.pcieGiven 0, H.pcieLink]
          ∧ d.get H.pcieLink = 2 ∧ d.get O.pcieLinkSpeed = min speed.toNat (s.hub.get O.pcieSpeedMax)
          ∧ d.get O.pcieLinkWidth = min width.toNat (s.hub.get O.pcieWidthMax))
  ∧ (∀ (s : State), s.hub.domainsOn = true → s.hub.flag O.rpHotReset = false →
        Answers .pcieLinkDown s fun d => OnlyIndexes s.hub d [0x4001, 0x4004, 0x4005, 0x4006, 0x4100, 0x4103, 0x4105, 0x4106, 0x4109, 0x4230, 0x4250, 0x5000, 0x5001, 0x5010, 0x5020, 0xA001, 0xA006]
          ∧ ∃ ls r, d.lines = ls ++ [⟨64, 255, 0, r⟩])
  ∧ (∀ (s : State) (lvl : Level), s.hub.domainsOn = true → Engineers lvl → s.hub.get O.role = 0 → s.hub.tlpOut = [] → s.hub.inRom = false →
        s.hub.handingOver = false →
        Answers (.rpHotReset lvl true) s fun d => d.get O.rpHotReset = 1 ∧ d.get O.rpLinkState = 1 ∧ d.get H.pcieLink = 1
          ∧ Sends s.hub d [.hotReset, .status .ok]
          ∧ OnlyObjects s.hub d [O.rpHotReset, O.rpLinkState, O.rpSpeed, O.rpWidth, O.pcieLinkSpeed, O.pcieLinkWidth, H.pcieLink, O.writeCommitted, O.readCommitted, O.overcommit, O.inAllowMbps 0, O.outAllowMbps 0])
  ∧ (∀ (s : State) (v : Fin 64) (a : VdpPoll), s.hub.domainsOn = true → s.hub.coxPort = true → 2 ≤ s.hub.vdpNow v →
        Answers (.vdpPoll v (some a)) s fun d => OnlyIndexes s.hub d [0x1101, 0x1103, 0x4004, 0x4005, 0x4006, 0x4100, 0x4103, 0x4105, 0x4106, 0x4109, 0x4230, 0x4250, 0x5010, 0x5040, 0x5043, 0x5044, 0x5045, 0xA001, 0xA006]
          ∧ d.get (O.vdpFarSpeed v) = a.speed.toNat ∧ d.get (O.vdpFarWidth v) = a.width.toNat
          ∧ d.get (O.vdpState v) = (if a.linkState = 2 then 3 else 2))
  ∧ (∀ (s : State) (lvl : Level) (v : Fin 64) (up : BitVec 16), s.hub.domainsOn = true → Engineers lvl → s.hub.get O.role = 2 → s.hub.inRom = false →
        s.hub.handingOver = false →
        Answers (.vdpTableWrite lvl v 0xFFFF up) s fun d => OnlyObjects s.hub d [O.vdpDown 0, H.slotStatus 0, H.farUp 0]
          ∧ d.get (O.vdpDown v) = 0xFFFF ∧ d.get (O.vdpState v) = 0 ∧ d.out.getLast? = some (.status .ok))
  ∧ (∀ (s : State) (lvl : Level) (v : Fin 64) (down up : BitVec 16), s.hub.domainsOn = true → Engineers lvl → s.hub.get O.role = 2 → s.hub.inRom = false →
        s.hub.handingOver = false → s.hub.bindable down.toNat up.toNat = true →
        Answers (.vdpTableWrite lvl v down up) s fun d => OnlyObjects s.hub d [O.vdpDown 0, H.slotStatus 0, H.farUp 0]
          ∧ d.get (O.vdpDown v) = down.toNat ∧ d.get (O.vdpUp v) = up.toNat ∧ d.get (O.vdpOar v) = s.hub.get (O.routeDstHub down.toNat)
          ∧ d.get (O.vdpState v) = d.vdpNow v ∧ d.out.getLast? = some (.status .ok))
  ∧ (∀ (s : State) (lvl : Level) (v : Fin 64) (down up : BitVec 16), s.hub.domainsOn = true → Engineers lvl → s.hub.get O.role = 2 → s.hub.inRom = false →
        s.hub.handingOver = false → down.toNat ≠ 0xFFFF → s.hub.bindable down.toNat up.toNat = false →
        Answers (.vdpTableWrite lvl v down up) s fun d => Sends s.hub d [.status .invalidValue] ∧ d.regs = s.hub.regs)

/-! ## Ethernet and field I/O -/

/-- Frames, PAUSE and the MAC's link. A frame of a legal length is counted with its bytes; a whole frame goes to a MAC whose link is up and
that no PAUSE stops; a PAUSE counts, and stops release only where PAUSE_RX is true. -/
def Obligations.EthernetCommands : Prop :=
  (∀ (s : State) (m : Mac) (f : EthFrame), s.hub.flag H.running = true → s.hub.get O.powerState = 0 → 64 ≤ f.bytes.length → f.bytes.length ≤ 9216 →
      s.hub.get (O.framesRx m) + 1 < 2 ^ 64 → s.hub.get (O.bytesRx m) + f.bytes.length < 2 ^ 64 →
      Answers (.macFrameReceive m f) s fun d => OnlyIndexes s.hub d [0x3020, 0x4004, 0x4005, 0x4006, 0x4040, 0x4100, 0x4103, 0x4105, 0x4106, 0x4109, 0x4230, 0x4250, 0x5030, 0xA001, 0xA006]
        ∧ d.get (O.framesRx m) = s.hub.get (O.framesRx m) + 1 ∧ d.get (O.bytesRx m) = s.hub.get (O.bytesRx m) + f.bytes.length)
  ∧ (∀ (s : State) (m : Mac) (f : EthFrame), s.hub.flag H.running = true → s.hub.get O.powerState = 0 → f.bytes.length < 64 → s.hub.get (O.runts m) + 1 < 2 ^ 64 →
        Answers (.macFrameReceive m f) s fun d => d.get (O.runts m) = s.hub.get (O.runts m) + 1 ∧ OnlyRegs s.hub d [O.runts m])
  ∧ (∀ (s : State) (m : Mac) (quanta : BitVec 16), s.hub.domainsOn = true → s.hub.flag (O.pauseRx m) = true → s.hub.get (O.pausesRx m) + 1 < 2 ^ 64 →
        Answers (.pauseFrame m quanta) s fun d => OnlyObjects s.hub d [O.pausesRx 0, H.paused 0] ∧ d.get (O.pausesRx m) = s.hub.get (O.pausesRx m) + 1 ∧ d.flag (H.paused m) = (quanta != 0))
  ∧ (∀ (s : State) (m : Mac), s.hub.domainsOn = true → Answers (.pauseExpiry m) s fun d => d.flag (H.paused m) = false ∧ OnlyRegs s.hub d [H.paused m])
  ∧ (∀ (s : State) (m : Mac) (tid : Fin 16384) (bs : Bytes), s.hub.domainsOn = true → s.hub.frameOut = [⟨m.val, tid.val, bs⟩] → s.hub.get (O.macLink m) ≠ 0 →
        s.hub.flag (H.paused m) = false →
        Answers (.ethFrameEgress m tid) s fun d => d.frameOut = [] ∧ Sends s.hub d [.frame m.val bs]
          ∧ OnlyRegs s.hub d [O.framesTx m, O.bytesTx m])
  ∧ (∀ (s : State) (m : Mac),
        s.hub.domainsOn = true → Answers (.macLinkDown m) s fun d => OnlyObjects s.hub d [O.writeCommitted, O.readCommitted, O.overcommit, O.inAllowMbps 0, O.outAllowMbps 0, O.macLink 0, O.usxRate 0, H.paused 0]
          ∧ d.get (O.macLink m) = 0 ∧ d.get (O.usxRate m) = 0 ∧ d.get (H.paused m) = 0 ∧ ⟨67, m.val, 0, s.hub.reactions⟩ ∈ d.lines)
  ∧ (∀ (s : State) (m : Mac) (rate : BitVec 8),
        s.hub.domainsOn = true → Answers (.macLinkUp m rate) s fun d => OnlyObjects s.hub d [O.writeCommitted, O.readCommitted, O.overcommit, O.inAllowMbps 0, O.outAllowMbps 0, O.macLink 0, O.usxRate 0]
          ∧ d.get (O.macLink m) = 1 ∧ d.get (O.usxRate m) = (if s.hub.get (O.macMode m) = 3 then rate.toNat else 0))

  ∧ (∀ (s : State) (m : Mac) (quanta : BitVec 16), s.hub.domainsOn = true → s.hub.flag (O.pauseRx m) = false → s.hub.get (O.pausesRx m) + 1 < 2 ^ 64 →
        Answers (.pauseFrame m quanta) s fun d => d.get (O.pausesRx m) = s.hub.get (O.pausesRx m) + 1 ∧ OnlyRegs s.hub d [O.pausesRx m])
/-- Cyclic and acyclic field I/O. A cyclic payload of the slice's length replaces it in one step; a stale record keeps its slice or zeroes it
as STALE_ACTION says; a record that R54 accepts is taken; an acyclic message is submitted, sent and received by slots. -/
def Obligations.FieldIoCommands : Prop :=
  (∀ (s : State) (tid : Fin 16384) (payload : Bytes) (r : Nat), s.hub.domainsOn = true → s.hub.fioRxOf tid = some r →
      payload.length = s.hub.get (O.fioRxSize r) →
      AnswersAll (.fioCyclicReceive tid payload) s fun d m => d.get (O.fioRxStatus r) = 1
        ∧ m = s.mem.writeImage (s.hub.get (O.fioRxOffset r)) payload ∧ OnlyRegs s.hub d [O.fioRxStatus r, O.fioRxReceived r])
  ∧ (∀ (s : State) (r : Fin 64), s.hub.domainsOn = true → s.hub.get (O.fioRxTid r) ≠ 0xFFFF → s.hub.get (O.fioRxStatus r) ≠ 2 →
        AnswersAll (.fioStale r) s fun d m => d.get (O.fioRxStatus r) = 2 ∧ d.lines = s.hub.lines ++ [⟨27, 255, r.val, s.hub.reactions⟩]
          ∧ m = (if s.hub.get (O.fioRxStaleAction r) = 1 then s.mem.writeImage (s.hub.get (O.fioRxOffset r)) (List.replicate (s.hub.get (O.fioRxSize r)) 0) else s.mem)
          ∧ OnlyRegs s.hub d [O.fioRxStatus r])
  ∧ (∀ (s : State) (lvl : Level) (r : Fin 64) (v : FioRecord), s.hub.domainsOn = true → Engineers lvl → s.hub.fioAccepts true r v = true → s.hub.inRom = false →
        s.hub.handingOver = false →
        Answers (.fioRecordWrite lvl true r v) s fun d => OnlyObjects s.hub d [O.fioTxOffset 0, O.fioRxOffset 0]
          ∧ d.get (O.fioRxTid r) = v.tid.toNat ∧ d.get (O.fioRxOffset r) = v.offset.toNat ∧ d.get (O.fioRxSize r) = v.size.toNat
          ∧ d.get (O.fioRxStaleAction r) = v.staleAction.toNat ∧ Sends s.hub d [.status .ok])
  ∧ (∀ (s : State) (lvl : Level) (r : Fin 64) (v : FioRecord), s.hub.domainsOn = true → Engineers lvl → s.hub.fioAccepts false r v = false →
        s.hub.inRom = false → s.hub.handingOver = false →
        exec (.fioRecordWrite lvl false r v) s = .next { s with hub := s.hub.emit (.status .invalidValue) })
  ∧ (∀ (s : State) (lvl : Level) (k : Fin 8) (v : AcycMsg), s.hub.domainsOn = true → Operators lvl → v.length.toNat ≤ 1024 → v.state.toNat ≤ 1 →
        v.data.length ≤ 1024 → bits v.info.toNat 12 4 ≤ 3 → (v.state = 0 ∨ bits v.info.toNat 12 4 ≠ 0) → s.hub.inRom = false → s.hub.handingOver = false →
        Answers (.acycSubmit lvl k v) s fun d => OnlyObjects s.hub d [O.acycTxData 0] ∧ d.get (O.acycTxTid k) = v.tid.toNat
          ∧ d.get (O.acycTxLength k) = v.length.toNat ∧ d.get (O.acycTxState k) = v.state.toNat ∧ Sends s.hub d [.status .ok])
  ∧ (∀ (s : State) (k : Fin 8), s.hub.domainsOn = true → s.hub.get (O.acycTxState k) = 1 → s.hub.get (O.acycTxTid k) < 16384 →
        s.hub.valid (s.hub.get (O.acycTxTid k)) = true → s.hub.get (O.pathIn (s.hub.get (O.acycTxTid k))) = 0x28 →
        ((s.hub.outputs (s.hub.get (O.acycTxTid k))).all fun o => s.hub.shaped (s.hub.get (O.pathShaper (s.hub.get (O.acycTxTid k)))) o.1) = true →
        Answers (.acycSend k) s fun d => OnlyObjects s.hub d [O.pathCountBytes 0, O.discardUnknown, O.discardWrongInput, O.discardMalformed, O.discardType, O.discardNoMember, O.discardMgmtRoute, O.addrRoutePort 0, O.acycTxState 0, O.usedPeak, O.isoNoCell, O.queueStatusDrops 0, O.spillDrops, O.spillEntries, O.mcastMemberDrops, O.policerGreen 0, O.grantIsoDiscards 0, O.hubTableUid 0, O.treeEventOverflow, H.partnerUid 0, H.portLost 0, H.childAsleep 0, H.appended 0, H.txSeq 0, H.creditReturned 0 0]
          ∧ d.get (O.acycTxState k) = 0)
  ∧ (∀ (s : State) (tid : Fin 16384) (info : BitVec 16) (payload : Bytes) (k : Nat), s.hub.domainsOn = true → (List.range 32).find? (fun k => s.hub.get (O.acycRxState k) == 0) = some k →
        payload.length < 2 ^ 16 →
        Answers (.acycReceive tid info payload) s fun d => d.get (O.acycRxTid k) = tid.val ∧ d.get (O.acycRxInfo k) = info.toNat
          ∧ d.get (O.acycRxLength k) = payload.length ∧ d.get (O.acycRxState k) = 1
          ∧ OnlyRegs s.hub d [O.acycRxTid k, O.acycRxInfo k, O.acycRxLength k, O.acycRxState k, O.acycRxData k])

/-! ## The rigger bridge -/

/-- The target of a bridge request executes it and keeps its outcome. Stated for a request without RETX to a hub whose bus nobody has claimed,
in a window of the DRAM or the process image; claims, releases and flushes beside. -/
def Obligations.BridgeTargetCommands : Prop :=
  (∀ (s : State) (q : RigPacket), s.hub.domainsOn = true → s.hub.flag O.bridgeEnable = true → q.inst = 0 → q.retx = false → s.hub.get O.busClaimant = 0xFF →
      s.hub.winRefusal q false = none → s.hub.get (O.targetWinKind q.window.toNat) = 1 → q.memError = false → q.corrected = 0 →
      s.hub.winFails q.window.toNat q.offset.toNat q.len.toNat = false →
      s.hub.winFlag q.window.toNat 2 = false → s.hub.winFlag q.window.toNat 3 = false →
      AnswersAll (.rigRead q) s fun d m => OnlyIndexes s.hub d [0x4001, 0x4004, 0x4005, 0x4006, 0x4100, 0x4103, 0x4105, 0x4106, 0x4109, 0x4220, 0x4230, 0x4250, 0x5040, 0x5044, 0x600A, 0xA001, 0xA006]
        ∧ m = s.mem ∧ ∃ x, d.rigDone.head? = some x ∧ x.src = q.src.toNat ∧ x.tag = q.tag.toNat ∧ x.op = 1 ∧ x.status = 0
        ∧ (s.hub.winFlag q.window.toNat 4 = true →
        x.data = s.mem.readDram (s.hub.get (O.targetWinBase q.window.toNat) + q.offset.toNat) q.len.toNat))
  ∧ (∀ (s : State) (q : RigPacket), s.hub.domainsOn = true → s.hub.flag O.bridgeEnable = true → q.inst = 0 → q.retx = false → s.hub.get O.busClaimant = 0xFF →
        s.hub.winRefusal q true = none → s.hub.get (O.targetWinKind q.window.toNat) = 2 →
        AnswersAll (.rigWrite q) s fun d m => OnlyIndexes s.hub d [0x4001, 0x4004, 0x4005, 0x4006, 0x4100, 0x4103, 0x4105, 0x4106, 0x4109, 0x4220, 0x4230, 0x4250, 0x5040, 0x5044, 0x600A, 0xA001, 0xA006]
          ∧ m = s.mem.writeImage (s.hub.get (O.targetWinBase q.window.toNat) + q.offset.toNat) (q.data.take q.len.toNat)
          ∧ ∃ x, d.rigDone.head? = some x ∧ x.src = q.src.toNat ∧ x.tag = q.tag.toNat ∧ x.op = 2 ∧ x.status = 0)
  ∧ (∀ (s : State) (q : RigPacket), s.hub.domainsOn = true → s.hub.flag O.bridgeEnable = true → q.inst = 0 → s.hub.get O.busClaimant = 0xFF →
        s.hub.winRefusal q true = none → s.hub.winFlag q.window.toNat 1 = true → s.hub.get (O.targetWinKind q.window.toNat) = 1 →
        AnswersAll (.rigPostedWrite q) s fun d m => OnlyIndexes s.hub d [0x4004, 0x4005, 0x4006, 0x4100, 0x4103, 0x4105, 0x4106, 0x4109, 0x4230, 0x4250, 0x5044, 0x600A, 0xA001, 0xA006]
          ∧ m = s.mem.writeDram (s.hub.get (O.targetWinBase q.window.toNat) + q.offset.toNat) (q.data.take q.len.toNat))
  ∧ (∀ (s : State) (q : RigPacket), s.hub.domainsOn = true → s.hub.flag O.bridgeEnable = true → q.inst = 0 → q.retx = false → s.hub.get O.busClaimant = 0xFF →
        q.window.toNat ≤ 31 → s.hub.get (O.targetWinKind q.window.toNat) ≠ 0 → s.hub.winFlag q.window.toNat 5 = false →
        (s.hub.streamFrom q.src.toNat q.window.toNat).expected = (q.seq.toNat + 1) % 2 ^ 32 →
        AnswersAll (.rigFlush q) s fun d m => OnlyIndexes s.hub d [0x4001, 0x4004, 0x4005, 0x4006, 0x4100, 0x4103, 0x4105, 0x4106, 0x4109, 0x4220, 0x4230, 0x4250, 0x5040, 0x5044, 0x600A, 0xA001, 0xA006]
          ∧ m = s.mem ∧ ∃ x, d.rigDone.head? = some x ∧ x.op = 4 ∧ x.status = 0 ∧ x.seq = q.seq.toNat
          ∧ x.data = leBytes (s.hub.streamFrom q.src.toNat q.window.toNat).gaps 4)
  ∧ (∀ (s : State) (q : RigPacket), s.hub.domainsOn = true → s.hub.flag O.bridgeEnable = true → q.inst = 0 → q.retx = false → s.hub.get O.busClaimant = 0xFF →
        AnswersAll (.rigClaim q) s fun d m => OnlyIndexes s.hub d [0x4001, 0x4004, 0x4005, 0x4006, 0x4100, 0x4103, 0x4105, 0x4106, 0x4109, 0x4220, 0x4230, 0x4250, 0x5040, 0x5044, 0x600A, 0xA001, 0xA006]
          ∧ m = s.mem ∧ d.get O.busClaimant = q.src.toNat ∧ ∃ x, d.rigDone.head? = some x ∧ x.op = 5 ∧ x.status = 0)
  ∧ (∀ (s : State) (q : RigPacket), s.hub.domainsOn = true → s.hub.flag O.bridgeEnable = true → q.inst = 0 → q.retx = false →
        s.hub.get O.busClaimant = q.src.toNat →
        AnswersAll (.rigRelease q) s fun d m => OnlyIndexes s.hub d [0x4001, 0x4004, 0x4005, 0x4006, 0x4100, 0x4103, 0x4105, 0x4106, 0x4109, 0x4220, 0x4230, 0x4250, 0x5040, 0x5044, 0x600A, 0xA001, 0xA006]
          ∧ m = s.mem ∧ d.get O.busClaimant = 0xFF ∧ ∃ x, d.rigDone.head? = some x ∧ x.op = 6 ∧ x.status = 0)

/-- A response ends the initiator's request that it answers. Stated for one outstanding request of a slot, and a target whose INSTANCE is
known; a POSTED_ERROR enters the log, its KIND by the model's reading of the status codes (notes/assumptions/46.md); read-ahead bytes are
held as a line. -/
def Obligations.BridgeInitiatorAnswers : Prop :=
  (∀ (s : State) (q : RigPacket) (r : RigRequest) (k : Nat), s.hub.domainsOn = true → s.hub.rigOut = [r] → s.hub.rigWait = [] → r.op = 1 → r.hub = q.src.toNat →
      r.tag = q.tag.toNat → r.origin = .slot k → q.status = 0 → q.data.length ≤ 512 → s.hub.get (H.rigKnown q.src.toNat) = q.inst.toNat →
      Answers (.readRsp q) s fun d => OnlyIndexes s.hub d [0x4004, 0x4005, 0x4006, 0x4100, 0x4103, 0x4105, 0x4106, 0x4109, 0x4230, 0x4250, 0x5040, 0x5043, 0x5044, 0x5045, 0xA001, 0xA006]
        ∧ d.rigOut = [] ∧ d.get (O.reqSlotState k) = 3 ∧ d.get (O.reqSlotStatus k) = 0 ∧ d.get (O.reqSlotData k) = leNat q.data)
  ∧ (∀ (s : State) (q : RigPacket) (r : RigRequest) (k : Nat), s.hub.domainsOn = true → s.hub.rigOut = [r] → s.hub.rigWait = [] → r.op = 2 →
        r.hub = q.src.toNat → r.tag = q.tag.toNat → r.origin = .slot k → q.status.toNat ∈ [0, 1, 2, 3, 4, 7] → q.data = [] →
        Answers (.writeRsp q) s fun d => OnlyIndexes s.hub d [0x4004, 0x4005, 0x4006, 0x4100, 0x4103, 0x4105, 0x4106, 0x4109, 0x4230, 0x4250, 0x5040, 0x5043, 0x5044, 0x5045, 0xA001, 0xA006]
          ∧ d.rigOut = [] ∧ d.get (O.reqSlotState k) = 3 ∧ d.get (O.reqSlotStatus k) = q.status.toNat)
  ∧ (∀ (s : State) (q : RigPacket) (r : RigRequest) (k : Nat), s.hub.domainsOn = true → s.hub.rigOut = [r] → s.hub.rigWait = [] → r.op = 5 →
        r.hub = q.src.toNat → r.tag = q.tag.toNat → r.origin = .slot k → q.status = 0 → q.data = [] →
        Answers (.claimRsp q) s fun d => OnlyIndexes s.hub d [0x4004, 0x4005, 0x4006, 0x4100, 0x4103, 0x4105, 0x4106, 0x4109, 0x4230, 0x4250, 0x5040, 0x5043, 0x5044, 0x5045, 0xA001, 0xA006]
          ∧ d.rigOut = [] ∧ d.get (O.reqSlotState k) = 3 ∧ d.get (O.reqSlotStatus k) = 0)
  ∧ (∀ (s : State) (q : RigPacket) (r : RigRequest) (k : Nat), s.hub.domainsOn = true → s.hub.rigOut = [r] → s.hub.rigWait = [] → r.op = 6 →
        r.hub = q.src.toNat → r.tag = q.tag.toNat → r.origin = .slot k → q.status = 0 → q.data = [] →
        s.hub.get O.busClaimant = s.hub.get O.hubAddress →
        Answers (.releaseRsp q) s fun d => OnlyIndexes s.hub d [0x4004, 0x4005, 0x4006, 0x4100, 0x4103, 0x4105, 0x4106, 0x4109, 0x4230, 0x4250, 0x5040, 0x5043, 0x5044, 0x5045, 0xA001, 0xA006]
          ∧ d.rigOut = [] ∧ d.get O.busClaimant = 0xFF ∧ d.get (O.reqSlotState k) = 3)
  ∧ (∀ (s : State) (q : RigPacket) (r : RigRequest), s.hub.domainsOn = true → s.hub.rigOut = [r] → s.hub.rigWait = [] → r.op = 4 → r.hub = q.src.toNat →
        r.tag = q.tag.toNat → r.origin = .own → q.status = 0 → leNat (q.data.take 4) = 0 → s.hub.rigLines = [] →
        Answers (.flushRsp q) s fun d => OnlyIndexes s.hub d [0x4004, 0x4005, 0x4006, 0x4100, 0x4103, 0x4105, 0x4106, 0x4109, 0x4230, 0x4250, 0x5040, 0x5043, 0x5044, 0x5045, 0xA001, 0xA006]
          ∧ d.rigOut = [] ∧ d.lines = s.hub.lines)
  ∧ (∀ (s : State) (q : RigPacket), s.hub.domainsOn = true → s.hub.get H.errNext = 0 → s.hub.rigPosted = [] →
        Answers (.postedError q) s fun d => OnlyObjects s.hub d [O.busClaimant, O.prefetchDiscards, O.sePrefetchDiscards, O.sePrefetchLast, O.errLogAddress 0, H.rigKnown 0, H.errNext]
          ∧ d.get (O.errLogKind 0) = errKind q.status.toNat ∧ d.get (O.errLogHub 0) = q.src.toNat
          ∧ d.get (O.errLogWindow 0) = q.window.toNat ∧ d.get (O.errLogSeq 0) = q.seq.toNat ∧ d.get H.errNext = 1)
  ∧ (∀ (s : State) (q : RigPacket), s.hub.domainsOn = true → q.data ≠ [] → s.hub.rigLines = [] →
        Answers (.prefetchData q) s fun d => OnlyObjects s.hub d [O.busClaimant, O.prefetchDiscards, O.sePrefetchDiscards, O.sePrefetchLast, H.rigKnown 0]
          ∧ d.rigLines = [⟨q.src.toNat, q.window.toNat, q.offset.toNat, q.data.take 512, (q.data.take 512).map fun _ => false, bit q.status.toNat 7⟩])

/-- The bridge's timers, the host's aperture, the request slots and the target windows. -/
def Obligations.BridgeTimersAndRequests : Prop :=
  (∀ (s : State) (tag : BitVec 12) (r : RigRequest), s.hub.domainsOn = true → s.hub.rigOut = [r] → r.tag = tag.toNat → s.hub.rigGone r.hub = false →
      s.hub.flag O.bridgeEnable = true → s.hub.get O.retransmits + 1 < 2 ^ 32 →
      Answers (.retryTime tag) s fun d => OnlyIndexes s.hub d [0x4004, 0x4005, 0x4006, 0x4100, 0x4103, 0x4105, 0x4106, 0x4109, 0x4230, 0x4250, 0x5040, 0x5043, 0x5044, 0x5045, 0xA001, 0xA006]
        ∧ d.rigOut = [r] ∧ d.get O.retransmits = s.hub.get O.retransmits + 1)
  ∧ (∀ (s : State) (hub : BitVec 8) (window : Fin 32), s.hub.domainsOn = true → (s.hub.postedTo hub.toNat window).unflushed = true → RigIdle s.hub →
        Reaches s.hub hub.toNat →
        Answers (.bulkIdle hub window) s fun d => OnlyIndexes s.hub d [0x4004, 0x4005, 0x4006, 0x4100, 0x4103, 0x4105, 0x4106, 0x4109, 0x4230, 0x4250, 0x5040, 0x5043, 0x5044, 0x5045, 0xA001, 0xA006]
          ∧ ∃ r, d.rigOut = [r] ∧ r.op = 4 ∧ r.hub = hub.toNat ∧ r.window = window.val ∧ d.rigWait = [])
  ∧ (∀ (s : State), s.hub.domainsOn = true → Answers .claimMax s fun d => d.get O.busClaimant = 0xFF ∧ OnlyObjects s.hub d [O.busClaimant, H.claimOn 0]
          ∧ ∀ a, d.flag (H.claimOn a) = false)
  ∧ (∀ (s : State) (hub : BitVec 8) (r : RigRequest), s.hub.domainsOn = true → s.hub.rigBack = [r] → r.hub = hub.toNat → r.op = 1 → s.hub.rigWait = [] →
        s.hub.rigOut = [] → s.hub.rigLines = [] → s.hub.flag O.bridgeEnable = true → Reaches s.hub hub.toNat →
        Answers (.backoffTime hub) s fun d => OnlyIndexes s.hub d [0x4004, 0x4005, 0x4006, 0x4100, 0x4103, 0x4105, 0x4106, 0x4109, 0x4230, 0x4250, 0x5040, 0x5043, 0x5044, 0x5045, 0xA001, 0xA006]
          ∧ d.rigBack = [] ∧ d.rigWait = [] ∧ d.rigOut.map RigRequest.hub = [hub.toNat])
  ∧ (∀ (s : State) (x : PrefetchLine), s.hub.domainsOn = true → s.hub.rigLines = [x] →
        Answers (.prefetchLife 0) s fun d => OnlyObjects s.hub d [O.prefetchDiscards, O.sePrefetchDiscards, O.sePrefetchLast]
          ∧ d.rigLines = [])
  ∧ (∀ (s : State) (offset : BitVec 64) (data : Bytes) (e : Nat), s.hub.domainsOn = true → s.hub.bar4Map offset.toNat data.length = some e → 0 < data.length →
        data.length ≤ 512 → RigIdle s.hub → Reaches s.hub (s.hub.get (O.initWinHub e)) →
        Answers (.bar4Write offset false data) s fun d => OnlyIndexes s.hub d [0x4004, 0x4005, 0x4006, 0x4100, 0x4103, 0x4105, 0x4106, 0x4109, 0x4230, 0x4250, 0x5001, 0x5040, 0x5043, 0x5044, 0x5045, 0xA001, 0xA006]
          ∧ ∃ r, d.rigOut = [r] ∧ r.op = 2 ∧ r.hub = s.hub.get (O.initWinHub e)
          ∧ r.offset = s.hub.get (O.initWinTargetOffset e) + (offset.toNat - s.hub.get (O.initWinBar4Offset e)) ∧ r.data = data)
  ∧ (∀ (s : State) (requester : BitVec 16) (tag : BitVec 10) (offset : BitVec 64) (len e : Nat), s.hub.domainsOn = true → s.hub.bar4Map offset.toNat len = some e →
        0 < len → len ≤ 512 → RigIdle s.hub → s.hub.rigReads = [] → Reaches s.hub (s.hub.get (O.initWinHub e)) →
        Answers (.bar4Read requester tag offset len) s fun d => OnlyIndexes s.hub d [0x4004, 0x4005, 0x4006, 0x4100, 0x4103, 0x4105, 0x4106, 0x4109, 0x4230, 0x4250, 0x5001, 0x5040, 0x5043, 0x5044, 0x5045, 0xA001, 0xA006]
          ∧ ∃ r x, d.rigOut = [r] ∧ r.op = 1 ∧ r.len = len ∧ d.rigReads = [x] ∧ x.requester = requester.toNat ∧ x.tag = tag.toNat)
  ∧ (∀ (s : State) (requester : BitVec 16) (tag : BitVec 10) (x : ApertureRead), s.hub.domainsOn = true → s.hub.rigReads = [x] → x.requester = requester.toNat →
        x.tag = tag.toNat →
        Answers (.apertureTimeout requester tag) s fun d => d.rigReads = [] ∧ (∃ xs, Sends s.hub d (xs ++ [.completion requester.toNat tag.toNat 4 []]))
          ∧ OnlyObjects s.hub d [H.aer 0 0])
  ∧ (∀ (s : State) (lvl : Level) (k : Fin 4) (v : SlotRequest), s.hub.domainsOn = true → Engineers lvl → s.hub.handingOver = false →
        s.hub.get (O.reqSlotState k) = 0 → v.state = 0 → v.op.toNat ≤ 6 → v.window.toNat ≤ 31 → v.len.toNat ≤ 512 → v.data.length ≤ 512 →
        s.hub.inRom = false →
        Answers (.requestSlotSubmit lvl k v) s fun d => OnlyIndexes s.hub d [0x4004, 0x4005, 0x4006, 0x4100, 0x4103, 0x4105, 0x4106, 0x4109, 0x4230, 0x4250, 0x5040, 0x5043, 0x5044, 0x5045, 0xA001, 0xA006]
          ∧ d.get (O.reqSlotOp k) = v.op.toNat ∧ d.get (O.reqSlotHub k) = v.hub.toNat ∧ d.get (O.reqSlotOffset k) = v.offset.toNat
          ∧ d.get (O.reqSlotState k) = 0 ∧ Sends s.hub d [.status .ok])
  ∧ (∀ (s : State) (lvl : Level) (k : Fin 4) (v : SlotRequest), s.hub.domainsOn = true → Engineers lvl → s.hub.handingOver = false →
        s.hub.get (O.reqSlotState k) = 0 → v.state = 1 → v.op.toNat = 2 → v.window.toNat ≤ 31 → v.len.toNat ≤ 512 → v.data.length ≤ 512 →
        RigIdle s.hub → Reaches s.hub v.hub.toNat → s.hub.inRom = false →
        Answers (.requestSlotSubmit lvl k v) s fun d => OnlyIndexes s.hub d [0x4004, 0x4005, 0x4006, 0x4100, 0x4103, 0x4105, 0x4106, 0x4109, 0x4230, 0x4250, 0x5040, 0x5043, 0x5044, 0x5045, 0xA001, 0xA006]
          ∧ d.get (O.reqSlotState k) = 2 ∧ d.rigOut.map RigRequest.origin = [.slot k.val] ∧ d.rigOut.map RigRequest.op = [2])
  ∧ (∀ (s : State) (w : Fin 32) (v : TargetWindow), s.hub.domainsOn = true → v.kind = 2 → v.level.toNat ≤ 2 → v.prefetch.toNat ≤ 4096 →
        v.prefetch.toNat % 512 = 0 → 0 < v.size.toNat → v.base.toNat + v.size.toNat ≤ 65536 → s.hub.inRom = false →
        s.hub.handingOver = false →
        Answers (.targetWindowsWrite .owner w v) s fun d => OnlyObjects s.hub d [O.targetWinBase 0] ∧ d.get (O.targetWinKind w) = 2
          ∧ d.get (O.targetWinBase w) = v.base.toNat ∧ d.get (O.targetWinSize w) = v.size.toNat
          ∧ d.get (O.targetWinFlags w) = withBit (v.flags.toNat % 64) 4 (bit v.flags.toNat 3) ∧ Sends s.hub d [.status .ok])

/-! ## The link layer -/

/-- Flits are sent, received in sequence and replayed. An idle Active link without encryption sends a null flit, whose LCTRL cycles as the
model chooses (notes/assumptions/19.md); a sound data flit of the expected SEQ is accepted at every gear, one under encryption where its tag
authenticates; a replay timeout sets the next flit to the oldest unreleased one; a flit that fails its line code or codeword, its FCRC, its
KIND or its tag raises LINK_CRC, leaves the expected SEQ, and starts a NAK episode. -/
def Obligations.LinkFlitCommands : Prop :=
  (∀ (s : State) (p : Port), s.hub.domainsOn = true → s.hub.get (O.linkState p) = 3 → s.hub.replay = [] → s.hub.staged = [] → s.hub.quietAllowed p = false →
      s.hub.flag (H.crypt p) = false →
      Answers (.flitTransmit p) s fun d => OnlyObjects s.hub d [H.lctrlSent 0 0, H.lctrlNext 0, H.lctrlMask 0]
        ∧ Sends s.hub d [.flit p.val (flitBytes (s.hub.get (H.txNext p) + 4096 * 8 + 65536 * 0x3FF) (s.hub.makeLctrl p).1 (List.replicate 628 0))])
  ∧ (∀ (s : State) (p : Port) (rx : FlitRx), s.hub.domainsOn = true → s.hub.get (O.linkState p) = 3 → s.hub.get (O.gear p) ≤ 2 → (∀ b ∈ rx.blocks, b.2 = .sound) →
        rx.bytes.length = 640 → crc32c (rx.bytes.take 636) = leNat (rx.bytes.drop 636) → bits (leNat (rx.bytes.take 4)) 12 4 = 0 →
        bits (leNat (rx.bytes.take 4)) 0 12 = s.hub.get (H.rxNext p) → s.hub.flag (H.crypt p) = false →
        Answers (.flitReceive p rx) s fun d => OnlyIndexes s.hub d [0x1003, 0x1004, 0x1005, 0x1006, 0x2000, 0x2002, 0x2003, 0x2004, 0x2006, 0x4001, 0x4004, 0x4006, 0x4051, 0x4100, 0x4103, 0x4105, 0x4106, 0x4250, 0x5040, 0x5043, 0x5044, 0x5045, 0x6008, 0x7010, 0xA006]
          ∧ d.get (H.rxNext p) = (s.hub.get (H.rxNext p) + 1) % 4096 ∧ d.flag (H.nakOn p) = false)
  ∧ (∀ (s : State) (p : Port) (f : ReplayFlit), s.hub.domainsOn = true → s.hub.get (O.linkState p) = 3 → s.hub.replay = [f] → f.port = p.val → f.seq < 4096 →
        Answers (.replayTimeout p) s fun d => OnlyObjects s.hub d [O.linkReplays 0, O.replayTimeouts 0, H.replayPtr 0]
          ∧ d.get (H.replayPtr p) = f.seq ∧ d.replay = [f])
  ∧ (∀ (s : State) (p : Port) (rx : FlitRx), s.hub.domainsOn = true → s.hub.get (O.linkState p) = 3 → s.hub.get (O.gear p) ≤ 2 → (∀ b ∈ rx.blocks, b.2 ≠ .badHeader) →
        ((∃ b ∈ rx.blocks, b.2 = .reserved) ∨ rx.bytes.length ≠ 640) →
        Answers (.flitReceive p rx) s fun d => OnlyIndexes s.hub d [0x1003, 0x1004, 0x1005, 0x1006, 0x2000, 0x2002, 0x2003, 0x2004, 0x2006, 0x4001, 0x4004, 0x4006, 0x4051, 0x4100, 0x4103, 0x4105, 0x4106, 0x4250, 0x5040, 0x5043, 0x5044, 0x5045, 0x6008, 0x7010, 0xA006]
          ∧ d.flag (H.nakOn p) = true ∧ d.get (H.rxNext p) = s.hub.get (H.rxNext p) ∧ d.arrived = s.hub.arrived
          ∧ d.lines = s.hub.lines ++ [⟨34, p.val, 0, s.hub.reactions⟩])

  ∧ (∀ (s : State) (p : Port) (rx : FlitRx), s.hub.domainsOn = true → s.hub.get (O.linkState p) = 3 → s.hub.get (O.gear p) ≤ 2 → (∀ b ∈ rx.blocks, b.2 = .sound) → rx.bytes.length = 640 →
        (crc32c (rx.bytes.take 636) ≠ leNat (rx.bytes.drop 636) ∨ bits (leNat (rx.bytes.take 4)) 12 4 ∉ [0, 1, 8, 9, 10, 11]) →
        s.hub.get (O.crcErrors p) + 1 < 2 ^ 64 →
        Answers (.flitReceive p rx) s fun d => OnlyIndexes s.hub d [0x1003, 0x1004, 0x1005, 0x1006, 0x2000, 0x2002, 0x2003, 0x2004, 0x2006, 0x4001, 0x4004, 0x4006, 0x4051, 0x4100, 0x4103, 0x4105, 0x4106, 0x4250, 0x5040, 0x5043, 0x5044, 0x5045, 0x6008, 0x7010, 0xA006]
          ∧ d.get (H.rxNext p) = s.hub.get (H.rxNext p) ∧ d.flag (H.nakOn p) = true ∧ d.arrived = s.hub.arrived ∧ d.get (O.crcErrors p) = s.hub.get (O.crcErrors p) + 1 ∧ d.lines = s.hub.lines ++ [⟨34, p.val, 0, s.hub.reactions⟩])
  ∧ (∀ (s : State) (p : Port) (rx : FlitRx), s.hub.domainsOn = true → s.hub.get (O.linkState p) = 3 → 2 < s.hub.get (O.gear p) → rx.uncorrectable = true →
        (∀ l : Nat, l < 3 → s.hub.get (H.badWords p l) < 7) → s.hub.get (O.fecUncorrectable p) + 1 < 2 ^ 64 →
        Answers (.flitReceive p rx) s fun d => OnlyIndexes s.hub d [0x1003, 0x1004, 0x1005, 0x1006, 0x2000, 0x2002, 0x2003, 0x2004, 0x2006, 0x4001, 0x4004, 0x4006, 0x4051, 0x4100, 0x4103, 0x4105, 0x4106, 0x4250, 0x5040, 0x5043, 0x5044, 0x5045, 0x6008, 0x7010, 0xA006]
          ∧ d.get (H.rxNext p) = s.hub.get (H.rxNext p) ∧ d.flag (H.nakOn p) = true ∧ d.arrived = s.hub.arrived ∧ d.get (O.fecUncorrectable p) = s.hub.get (O.fecUncorrectable p) + 1
          ∧ d.lines = s.hub.lines ++ [⟨35, p.val, 0, s.hub.reactions⟩, ⟨34, p.val, 0, s.hub.reactions⟩])
  ∧ (∀ (s : State) (p : Port) (rx : FlitRx), s.hub.domainsOn = true → s.hub.get (O.linkState p) = 3 → 2 < s.hub.get (O.gear p) → rx.uncorrectable = false →
        rx.bytes.length = 640 → crc32c (rx.bytes.take 636) = leNat (rx.bytes.drop 636) → bits (leNat (rx.bytes.take 4)) 12 4 = 0 →
        bits (leNat (rx.bytes.take 4)) 0 12 = s.hub.get (H.rxNext p) → s.hub.flag (H.crypt p) = false →
        s.hub.get (O.fecCorrected p) + rx.corrected < 2 ^ 64 →
        Answers (.flitReceive p rx) s fun d => OnlyIndexes s.hub d [0x1003, 0x1004, 0x1005, 0x1006, 0x2000, 0x2002, 0x2003, 0x2004, 0x2006, 0x4001, 0x4004, 0x4006, 0x4051, 0x4100, 0x4103, 0x4105, 0x4106, 0x4250, 0x5040, 0x5043, 0x5044, 0x5045, 0x6008, 0x7010, 0xA006]
          ∧ d.get (H.rxNext p) = (s.hub.get (H.rxNext p) + 1) % 4096 ∧ d.flag (H.nakOn p) = false
          ∧ d.get (O.fecCorrected p) = s.hub.get (O.fecCorrected p) + rx.corrected)
  ∧ (∀ (s : State) (p : Port) (rx : FlitRx), s.hub.domainsOn = true → s.hub.get (O.linkState p) = 3 → s.hub.get (O.gear p) ≤ 2 → (∀ b ∈ rx.blocks, b.2 = .sound) → rx.bytes.length = 640 →
        crc32c (rx.bytes.take 636) = leNat (rx.bytes.drop 636) → bits (leNat (rx.bytes.take 4)) 12 4 ≤ 1 → bits (leNat (rx.bytes.take 4)) 0 12 = s.hub.get (H.rxNext p) → s.hub.flag (H.crypt p) = true →
        s.hub.authenticate p (bits (leNat (rx.bytes.take 4)) 12 4) rx.bytes = none → s.hub.get (O.linkAuthFailures p) + 1 < 2 ^ 64 →
        Answers (.flitReceive p rx) s fun d => OnlyIndexes s.hub d [0x1003, 0x1004, 0x1005, 0x1006, 0x2000, 0x2002, 0x2003, 0x2004, 0x2006, 0x4001, 0x4004, 0x4006, 0x4051, 0x4100, 0x4103, 0x4105, 0x4106, 0x4250, 0x5040, 0x5043, 0x5044, 0x5045, 0x6008, 0x7010, 0xA006]
          ∧ d.get (H.rxNext p) = s.hub.get (H.rxNext p) ∧ d.flag (H.nakOn p) = true ∧ d.arrived = s.hub.arrived ∧ d.get (O.linkAuthFailures p) = s.hub.get (O.linkAuthFailures p) + 1
          ∧ d.lines = s.hub.lines ++ [⟨36, p.val, 0, s.hub.reactions⟩, ⟨34, p.val, 0, s.hub.reactions⟩])
  ∧ (∀ (s : State) (p : Port) (rx : FlitRx) (body : Bytes), s.hub.domainsOn = true → s.hub.get (O.linkState p) = 3 → s.hub.get (O.gear p) ≤ 2 → (∀ b ∈ rx.blocks, b.2 = .sound) → rx.bytes.length = 640 →
        crc32c (rx.bytes.take 636) = leNat (rx.bytes.drop 636) → bits (leNat (rx.bytes.take 4)) 12 4 ≤ 1 → bits (leNat (rx.bytes.take 4)) 0 12 = s.hub.get (H.rxNext p) → s.hub.flag (H.crypt p) = true →
        s.hub.authenticate p (bits (leNat (rx.bytes.take 4)) 12 4) rx.bytes = some (body, false) →
        Answers (.flitReceive p rx) s fun d => OnlyIndexes s.hub d [0x1003, 0x1004, 0x1005, 0x1006, 0x2000, 0x2002, 0x2003, 0x2004, 0x2006, 0x4001, 0x4004, 0x4006, 0x4051, 0x4100, 0x4103, 0x4105, 0x4106, 0x4250, 0x5040, 0x5043, 0x5044, 0x5045, 0x6008, 0x7010, 0xA006]
          ∧ d.get (H.rxNext p) = (s.hub.get (H.rxNext p) + 1) % 4096 ∧ d.flag (H.nakOn p) = false
          ∧ d.get (O.rxCounter p) = leNat ((rx.bytes.drop 4).take 8))
/-- Events of the link between Down, Init, Active, Quiet and Retrain have their effect, each in the state that awaits it. Trained lanes give
Init, a matching Init record Active without encryption, INIT_TIMEOUT and RETRAIN_LIMIT leave, Quiet is agreed and left, and a write asks for
a retrain, encryption or a credit limit. A port that awaits a random nonce stays in Init at INIT_TIMEOUT by the model's reading
(notes/assumptions/35.md). An Init record of an encrypted port is not stated here. -/
def Obligations.LinkStateCommands : Prop :=
  (∀ (s : State) (p : Port) (gear tx rx : Nat), s.hub.domainsOn = true → (s.hub.get (O.linkState p) = 0 ∨ s.hub.get (O.linkState p) = 1
      ∨ s.hub.get (O.linkState p) = 5) → s.hub.get (O.trainState p) ≠ 0 → s.hub.get (O.trainState p) ≠ 11 → 1 ≤ gear ∧ gear ≤ 4 → 1 ≤ tx
      ∧ tx ≤ 3 → 1 ≤ rx ∧ rx ≤ 3 →
      Answers (.lanesTrained p gear tx rx) s fun d => OnlyIndexes s.hub d [0x1003, 0x1004, 0x1005, 0x1006, 0x2000, 0x2006, 0x2400, 0x4100, 0x4103, 0x4105, 0x4106, 0x4250, 0x5040, 0x5043, 0x5044, 0x5045, 0x7010]
        ∧ d.get (O.linkState p) = 2 ∧ d.flag (H.resume p) = decide (s.hub.get (O.linkState p) = 5))
  ∧ (∀ (s : State) (p : Port) (r : InitRecord), s.hub.domainsOn = true → s.hub.get (O.linkState p) = 2 → s.hub.flag (H.crypt p) = false → r.version = 1 →
        bit r.flags.toNat 0 = s.hub.flag (H.resume p) → bit r.flags.toNat 1 = false → bit r.flags.toNat 3 = true → s.hub.flag (H.gearDue p) = false →
        Answers (.initReceive p r) s fun d => OnlyIndexes s.hub d [0x1003, 0x1004, 0x1005, 0x1006, 0x2000, 0x2002, 0x2003, 0x2004, 0x4001, 0x4004, 0x4006, 0x4051, 0x4100, 0x4103, 0x4105, 0x4106, 0x4250, 0x5040, 0x5043, 0x5044, 0x5045, 0x6008, 0x7010, 0xA006]
          ∧ d.get (O.linkState p) = 3 ∧ d.get (O.cryptState p) = 0)
  ∧ (∀ (s : State) (p : Port) (parity : Bool) (nonce : BitVec 96) (check : BitVec 16), s.hub.domainsOn = true → s.hub.get (O.linkState p) = 2 →
        s.hub.flag (H.crypt p) = true → headerCheck ([0xC3, if parity then 1 else 0] ++ leBytes nonce.toNat 12) = check.toNat →
        Answers (.nonceRecord p parity nonce check) s fun d => d.flag (H.peerNonceSeen p) = true ∧ d.flag (H.peerParity p) = parity
          ∧ d.get (H.peerNonce p) = nonce.toNat ∧ OnlyRegs s.hub d [H.peerNonceSeen p, H.peerParity p, H.peerNonce p])
  ∧ (∀ (s : State) (p : Port), s.hub.domainsOn = true → s.hub.get (O.linkState p) = 2 → s.hub.awaitsNonce p = false →
        Answers (.initTimeout p) s fun d => OnlyIndexes s.hub d [0x1003, 0x1004, 0x1005, 0x1006, 0x2000, 0x4001, 0x4004, 0x4006, 0x4051, 0x4100, 0x4103, 0x4105, 0x4106, 0x4250, 0x5040, 0x5043, 0x5044, 0x5045, 0x6008, 0x7010, 0xA006]
          ∧ d.get (O.linkState p) = (if 1 ≤ s.hub.get (O.trainState p) ∧ s.hub.get (O.trainState p) ≤ 8 then 1 else 0)
          ∧ d.get (O.payloadRate p) = 0)
  ∧ (∀ (s : State) (p : Port), s.hub.domainsOn = true → s.hub.awaitsNonce p = true → Answers (.initTimeout p) s fun d => d = s.hub)
  ∧ (∀ (s : State) (p : Port), s.hub.domainsOn = true → s.hub.get (O.linkState p) = 5 →
        Answers (.retrainLimitExpiry p) s fun d => OnlyIndexes s.hub d [0x1003, 0x1004, 0x1005, 0x1006, 0x2000, 0x4001, 0x4004, 0x4006, 0x4051, 0x4100, 0x4103, 0x4105, 0x4106, 0x4250, 0x5040, 0x5043, 0x5044, 0x5045, 0x6008, 0x7010, 0xA006]
          ∧ d.get (O.linkState p) ≤ 1 ∧ ∃ ls r, d.lines = ls ++ [⟨40, p.val, 0, r⟩])
  ∧ (∀ (s : State) (lvl : Level) (p : Port), s.hub.domainsOn = true → Engineers lvl → s.hub.get (O.linkState p) = 3 → s.hub.inRom = false →
        s.hub.handingOver = false →
        Answers (.retrainRequest lvl p true) s fun d => OnlyObjects s.hub d [O.linkState 0, O.payloadRate 0, O.rxPayloadRate 0, O.retrains 0, O.lastRetrainCause 0, O.retrainRequest 0, O.gear 0, O.trainState 0, O.linkCryptoKeyState 0, H.retrainAt 0, H.retrainCrossed 0, H.quietSent 0, H.tsRun 0 0, H.firstLaneAt 0, H.selRun 0, H.trainAt 0, H.idleWake 0, H.selSent 0, H.gearDue 0, O.rxAdaptUpdates 0 0, H.sessionKey 0 0]
          ∧ d.get (O.linkState p) = 5 ∧ d.get (O.lastRetrainCause p) = 4 ∧ d.get (O.payloadRate p) = 0
          ∧ Sends s.hub d [.laneWake p.val, .status .ok])
  ∧ (∀ (s : State) (p : Port), s.hub.domainsOn = true → s.hub.get (O.linkState p) = 3 → s.hub.get (H.quietSent p) = 1 → s.hub.quietAllowed p = true →
        Answers (.quietRequest p) s fun d => OnlyObjects s.hub d [O.linkState 0, O.payloadRate 0, O.rxPayloadRate 0, O.retrains 0, O.lastRetrainCause 0, O.retrainRequest 0, O.txCounter 0, O.gear 0, O.trainState 0, O.linkCryptoKeyState 0, H.lctrlSent 0 0, H.lctrlNext 0, H.retrainAt 0, H.retrainCrossed 0, H.quietSent 0, H.tsRun 0 0, H.firstLaneAt 0, H.selRun 0, H.trainAt 0, H.lctrlMask 0, H.selSent 0, H.gearDue 0, O.rxAdaptUpdates 0 0]
          ∧ d.get (O.linkState p) = 4 ∧ d.get (O.trainState p) = 10 ∧ Sends s.hub d [.laneQuiet p.val])
  ∧ (∀ (s : State) (p : Port), s.hub.domainsOn = true → s.hub.get (O.linkState p) = 3 → s.hub.get (H.quietSent p) = 1 → s.hub.quietAllowed p = true →
        Answers (.quietAcknowledge p) s fun d => OnlyObjects s.hub d [O.linkState 0, O.trainState 0, H.quietSent 0, H.tsRun 0 0, H.firstLaneAt 0, H.selRun 0, H.selSent 0, O.rxAdaptUpdates 0 0]
          ∧ d.get (O.linkState p) = 4 ∧ d.get (O.trainState p) = 10 ∧ Sends s.hub d [.laneQuiet p.val])
  ∧ (∀ (s : State) (p : Port), s.hub.domainsOn = true → s.hub.get (O.linkState p) = 4 → s.hub.get (O.trainState p) = 10 →
        Answers (.quietWake p) s fun d => OnlyObjects s.hub d [O.gear 0, O.trainState 0, H.tsRun 0 0, H.firstLaneAt 0, H.selRun 0, H.idleWake 0, H.selSent 0, O.laneStatus 0 0, H.deskewed 0, H.tsCount 0 0, H.headerWindow 0 0]
          ∧ d.get (O.trainState p) = 6 ∧ d.get (O.linkState p) = 4 ∧ ∃ xs, Sends s.hub d (.laneWake p.val :: xs))
  ∧ (∀ (s : State) (p : Port), s.hub.domainsOn = true → s.hub.get (O.linkState p) = 4 → s.hub.get (O.trainState p) = 10 → s.hub.get O.upstreamPort ≠ p.val →
        Answers (.quietWakeLead p) s fun d => OnlyObjects s.hub d [O.gear 0, O.trainState 0, H.tsRun 0 0, H.firstLaneAt 0, H.selRun 0, H.idleWake 0, H.selSent 0, O.laneStatus 0 0, H.deskewed 0, H.tsCount 0 0, H.headerWindow 0 0]
          ∧ d.get (O.trainState p) = 6 ∧ d.get (O.linkState p) = 4 ∧ ∃ xs, Sends s.hub d (.laneWake p.val :: xs))
  ∧ (∀ (s : State) (p : Port), s.hub.domainsOn = true → s.hub.get (O.linkState p) = 4 →
        Answers (.wakeFail p) s fun d => OnlyObjects s.hub d [O.linkState 0, O.payloadRate 0, O.rxPayloadRate 0, O.retrains 0, O.lastRetrainCause 0, O.retrainRequest 0, O.gear 0, O.trainState 0, O.linkCryptoKeyState 0, H.retrainAt 0, H.retrainCrossed 0, H.quietSent 0, H.tsRun 0 0, H.firstLaneAt 0, H.selRun 0, H.trainAt 0, H.selSent 0, H.gearDue 0, O.rxAdaptUpdates 0 0, H.sessionKey 0 0, H.idleWake 0]
          ∧ d.get (O.linkState p) = 5 ∧ d.get (O.lastRetrainCause p) = 2 ∧ d.lines = s.hub.lines ++ [⟨33, p.val, 0, s.hub.reactions⟩])
  ∧ (∀ (s : State) (p : Port) (value : Bool), s.hub.domainsOn = true → s.hub.inRom = false → s.hub.handingOver = false →
        Answers (.cryptEnableWrite .owner p value) s fun d => d.flag (O.cryptEnable p) = value ∧ Sends s.hub d [.status .ok]
          ∧ OnlyObjects s.hub d [O.cryptEnable 0, O.linkCryptoKeyState 0, H.sessionKey 0 0, H.hasKey 0, H.keyParity 0 0])
  ∧ (∀ (s : State) (lvl : Level) (p : Port) (k : Fin 8) (v : BitVec 16), s.hub.domainsOn = true → Engineers lvl → s.hub.limitsHold p k v.toNat = true →
        s.hub.inRom = false → s.hub.handingOver = false →
        Answers (.creditLimitWrite lvl p k v) s fun d => d.get (O.creditLimit p k) = v.toNat ∧ Sends s.hub d [.status .ok]
          ∧ OnlyRegs s.hub d [O.creditLimit p k])

/-! ## The lanes -/

/-- Steps of the bring-up: detection, wake, hold, equalisation and rate switch, and the falls back to Gear 1 or to Detect. Each is stated in
the training state that awaits it; a failure above Gear 1 is stated outside Retrain. -/
def Obligations.LaneBringUp : Prop :=
  (∀ (s : State) (p : Port) (tx0 tx1 : Bool), s.hub.domainsOn = true → s.hub.get (O.trainState p) = 1 → (tx0 || tx1) = true →
      Answers (.receiverDetect p tx0 tx1) s fun d => OnlyObjects s.hub d [O.trainState 0, H.tsRun 0 0, H.firstLaneAt 0, H.selRun 0, H.selSent 0]
        ∧ d.get (O.trainState p) = 2 ∧ Sends s.hub d [.laneWake p.val])
  ∧ (∀ (s : State) (p : Port), s.hub.domainsOn = true → s.hub.get (O.trainState p) = 2 →
        Answers (.wakeBurstsReceived p) s fun d => OnlyObjects s.hub d [O.trainState 0, H.tsRun 0 0, H.firstLaneAt 0, H.selRun 0, O.holdReason 0, H.selSent 0, H.readySent 0, H.ownHold 0, H.tsCount 0 0]
          ∧ d.get (O.trainState p) = 3 ∧ d.flag (H.readySent p) = (s.hub.get (H.ownHold p) == 0 && !s.hub.flag (O.readyHold p)))
  ∧ (∀ (s : State) (p : Port), s.hub.domainsOn = true → s.hub.get (O.trainState p) = 2 →
        Answers (.wakeTimeout p) s fun d => OnlyObjects s.hub d [O.linkState 0, O.payloadRate 0, O.rxPayloadRate 0, O.retrains 0, O.lastRetrainCause 0, O.retrainRequest 0, O.gear 0, O.gearsFailed 0, O.trainState 0, O.laneStatus 0 0, O.linkCryptoKeyState 0, H.retrainAt 0, H.retrainCrossed 0, H.quietSent 0, H.trainGear 0, H.rateTarget 0, H.tsRun 0 0, H.firstLaneAt 0, H.peerFailed 0, H.selRun 0, H.rxDegraded 0, H.laneUseNow 0, H.trainAt 0, H.fullRetrain 0, H.keptCoef 0 0 0, H.txDegraded 0, H.selSent 0, H.readySent 0, O.logicalLane 0 0, H.keptRx 0 0, H.idleWake 0]
          ∧ d.get (O.trainState p) = 1 ∧ d.get (O.gear p) = 0 ∧ d.get (O.gearsFailed p) = 0)
  ∧ (∀ (s : State) (p : Port) (lane : Fin 3) (r : TsRx), s.hub.domainsOn = true → tsValid r = true → s.hub.get (O.trainState p) = 3 →
        s.hub.flag (O.readyHold p) = true →
        Answers (.tsReceive p lane r) s fun d => OnlyIndexes s.hub d [0x1003, 0x1004, 0x1005, 0x1006, 0x2000, 0x2006, 0x2400, 0x4100, 0x4103, 0x4105, 0x4106, 0x4250, 0x5040, 0x5043, 0x5044, 0x5045, 0x7010, 0xA001]
          ∧ d.get (O.trainState p) = 3 ∧ d.get (O.holdReason p) = r.ownHold.toNat + 4 + 16 * bits r.holdReason.toNat 0 3)
  ∧ (∀ (s : State) (p : Port) (lane : Fin 3) (r : TsRx), s.hub.domainsOn = true → tsValid r = true → s.hub.get (O.trainState p) = 3 →
        s.hub.flag (O.readyHold p) = false → r.ownHold = 0 → 16 ≤ r.sent.toNat → s.hub.flag (H.readySent p) = true → bit r.flags.toNat 0 = true →
        s.hub.get (H.tsRun p lane) = 7 → s.hub.get (O.linkState p) ≠ 5 →
        Answers (.tsReceive p lane r) s fun d => OnlyIndexes s.hub d [0x1003, 0x1004, 0x1005, 0x1006, 0x2000, 0x2006, 0x2400, 0x4100, 0x4103, 0x4105, 0x4106, 0x4250, 0x5040, 0x5043, 0x5044, 0x5045, 0x7010, 0xA001]
          ∧ d.get (O.trainState p) = 4 ∧ d.get (H.trainGear p) = 1)
  ∧ (∀ (s : State) (p : Port) (lane : Fin 3) (fom : BitVec 8), s.hub.domainsOn = true → s.hub.get (O.trainState p) = 5 → lane.val ∈ s.hub.rxInUse p →
        s.hub.get (H.eqSteps p lane) = 0 → s.hub.get (H.eqBest p lane) < fom.toNat → s.hub.get (H.eqPreset p lane) < 9 →
        Answers (.eqStep p lane fom) s fun d => OnlyObjects s.hub d [O.trainState 0, O.laneStatus 0 0, H.tsRun 0 0, H.firstLaneAt 0, H.fom 0 0, H.eqBest 0 0, H.eqBestPreset 0 0, H.eqPreset 0 0, H.eqSteps 0 0, H.selRun 0, H.tsCount 0 0, H.eqReq 0 0, H.selSent 0, H.deskewed 0]
          ∧ d.get (H.fom p lane) = fom.toNat ∧ d.get (H.eqBest p lane) = fom.toNat
          ∧ d.get (H.eqBestPreset p lane) = s.hub.get (H.eqPreset p lane) ∧ d.get (H.eqPreset p lane) = s.hub.get (H.eqPreset p lane) + 1)
  ∧ (∀ (s : State) (p : Port) (g : Nat), s.hub.domainsOn = true → s.hub.get (O.trainState p) = 8 → s.hub.get (H.rateTarget p) = g → 1 ≤ g ∧ g ≤ 4 →
        s.hub.agreedUse p = s.hub.get (H.laneUseNow p) →
        Answers (.rateSwitch p) s fun d => OnlyObjects s.hub d [O.trainState 0, O.txCoef 0 0, O.hubTableUid 0, H.trainGear 0, H.rateTarget 0, H.tsRun 0 0, H.firstLaneAt 0, H.fom 0 0, H.eqBest 0 0, H.eqBestPreset 0 0, H.eqPreset 0 0, H.eqSteps 0 0, H.peerTsFlags 0, H.selRun 0, H.laneUseNow 0, H.tsCount 0 0, H.eqReq 0 0, H.selSent 0]
          ∧ d.get (O.trainState p) = 5 ∧ d.get (H.trainGear p) = g ∧ d.get (H.rateTarget p) = 0)
  ∧ (∀ (s : State) (p : Port), s.hub.domainsOn = true → s.hub.get (O.trainState p) = 3 →
        Answers (.holdLimitExpiry p) s fun d => OnlyIndexes s.hub d [0x2000, 0x2006, 0x2400, 0x7010] ∧ d.get (O.trainState p) = 1)
  ∧ (∀ (s : State) (p : Port), s.hub.domainsOn = true → s.hub.get (O.trainState p) = 4 →
        Answers (.polarityTimeout p) s fun d => OnlyIndexes s.hub d [0x2000, 0x2006, 0x2400, 0x7010] ∧ d.get (O.trainState p) = 1)
  ∧ (∀ (s : State) (p : Port) (g : Nat), s.hub.domainsOn = true → s.hub.get (O.trainState p) = 5 → s.hub.get (H.trainGear p) = g → 2 ≤ g ∧ g ≤ 4 →
        s.hub.get (O.linkState p) ≠ 5 →
        Answers (.equaliseLimit p) s fun d => OnlyIndexes s.hub d [0x2000, 0x2006, 0x2400, 0x7010] ∧ d.get (O.trainState p) = 5
          ∧ d.get (H.trainGear p) = 1 ∧ d.get (O.gearsFailed p) = withBit (s.hub.get (O.gearsFailed p)) (g - 1) true % 256)
  ∧ (∀ (s : State) (p : Port) (g : Nat), s.hub.domainsOn = true → s.hub.get (O.trainState p) = 6 → s.hub.get (H.trainGear p) = g → 2 ≤ g ∧ g ≤ 4 →
        s.hub.get (O.linkState p) ≠ 5 → s.hub.get (O.linkState p) ≠ 4 →
        Answers (.lockTimeout p) s fun d => OnlyIndexes s.hub d [0x2000, 0x2006, 0x2400, 0x7010] ∧ d.get (O.trainState p) = 5
          ∧ d.get (H.trainGear p) = 1 ∧ d.get (O.gearsFailed p) = withBit (s.hub.get (O.gearsFailed p)) (g - 1) true % 256)
  ∧ (∀ (s : State) (p : Port) (g : Nat), s.hub.domainsOn = true → s.hub.get (O.trainState p) = 8 → s.hub.get (H.rateTarget p) = 0 →
        s.hub.get (H.trainGear p) = g → 2 ≤ g ∧ g ≤ 4 → s.hub.get (O.linkState p) ≠ 5 →
        Answers (.gearNegotiationTimeout p) s fun d => OnlyIndexes s.hub d [0x2000, 0x2006, 0x2400, 0x7010] ∧ d.get (O.trainState p) = 5
          ∧ d.get (H.trainGear p) = 1 ∧ d.get (O.gearsFailed p) = withBit (s.hub.get (O.gearsFailed p)) (g - 1) true % 256)
  ∧ (∀ (s : State) (p : Port) (g : Nat), s.hub.domainsOn = true → 4 ≤ s.hub.get (O.trainState p) ∧ s.hub.get (O.trainState p) ≤ 8 →
        s.hub.get (H.trainGear p) = g → 2 ≤ g ∧ g ≤ 4 → s.hub.get (O.linkState p) ≠ 5 → s.hub.get (O.linkState p) ≠ 4 →
        Answers (.gearStepLimit p) s fun d => OnlyIndexes s.hub d [0x2000, 0x2006, 0x2400, 0x7010] ∧ d.get (O.trainState p) = 5
          ∧ d.get (H.trainGear p) = 1 ∧ d.get (O.gearsFailed p) = withBit (s.hub.get (O.gearsFailed p)) (g - 1) true % 256)
  ∧ (∀ (s : State) (p : Port), s.hub.domainsOn = true → s.hub.get (O.linkState p) = 4 → s.hub.flag (O.retrainRequest p) = false → s.hub.flag (H.gearDue p) = false →
        Answers (.lanesIdleWake p) s fun d => OnlyObjects s.hub d [O.linkState 0, O.payloadRate 0, O.rxPayloadRate 0, O.retrains 0, O.lastRetrainCause 0, O.retrainRequest 0, O.gear 0, O.trainState 0, O.linkCryptoKeyState 0, H.retrainAt 0, H.retrainCrossed 0, H.quietSent 0, H.tsRun 0 0, H.firstLaneAt 0, H.selRun 0, H.trainAt 0, H.idleWake 0, H.selSent 0, H.gearDue 0, O.rxAdaptUpdates 0 0, H.adaptAt 0, H.detector 0 0 0, H.headerWindow 0 0, O.laneStatus 0 0, H.wordLane 0, H.badWords 0 0, H.adaptSeed 0]
          ∧ d.get (O.linkState p) = 3 ∧ d.get (O.trainState p) = 9)

/-- Detectors, eye scans and the lane settings. A loss of signal or of lock on a lane in use of an Active link retrains it with cause 02h,
counts and is detected; a GEAR_MAX below the gear in use, and a lane use that the deciding side changes, retrain it with cause 03h. -/
def Obligations.LaneDetectorsAndSettings : Prop :=
  (∀ (s : State) (p : Port) (l : Lane), s.hub.domainsOn = true → s.hub.get (O.trainState p) ≠ 10 → 2 ≤ l.val → s.hub.flag (H.detector p l 0) = false → s.hub.get (O.linkState p) ≠ 3 →
      Answers (.losAssert p l) s fun d => OnlyObjects s.hub d [O.linkState 0, O.payloadRate 0, O.rxPayloadRate 0, O.retrains 0, O.lastRetrainCause 0, O.retrainRequest 0, O.gear 0, O.trainState 0, O.laneStatus 0 0, O.losEvents 0 0, O.lolEvents 0 0, O.linkCryptoKeyState 0, H.retrainAt 0, H.retrainCrossed 0, H.quietSent 0, H.tsRun 0 0, H.firstLaneAt 0, H.selRun 0, H.trainAt 0, H.detector 0 0 0]
        ∧ d.get (H.detector p l 0) = 1 ∧ d.get (O.laneStatus p l) = withBit (s.hub.get (O.laneStatus p l)) 0 false % 256)
  ∧ (∀ (s : State) (p : Port) (l : Lane), s.hub.domainsOn = true → s.hub.get (O.trainState p) ≠ 10 → 2 ≤ l.val → s.hub.flag (H.detector p l 1) = false → s.hub.get (O.linkState p) ≠ 3 →
        Answers (.lolAssert p l) s fun d => OnlyObjects s.hub d [O.linkState 0, O.payloadRate 0, O.rxPayloadRate 0, O.retrains 0, O.lastRetrainCause 0, O.retrainRequest 0, O.gear 0, O.trainState 0, O.laneStatus 0 0, O.losEvents 0 0, O.lolEvents 0 0, O.linkCryptoKeyState 0, H.retrainAt 0, H.retrainCrossed 0, H.quietSent 0, H.tsRun 0 0, H.firstLaneAt 0, H.selRun 0, H.trainAt 0, H.detector 0 0 0]
          ∧ d.get (H.detector p l 1) = 1 ∧ d.get (O.laneStatus p l) = withBit (s.hub.get (O.laneStatus p l)) 1 false % 256)
  ∧ (∀ (s : State) (p : Port) (l : Lane), s.hub.domainsOn = true → 2 ≤ l.val →
        Answers (.losDeassert p l) s fun d => d.get (H.detector p l 0) = 0
          ∧ d.get (O.laneStatus p l) = withBit (s.hub.get (O.laneStatus p l)) 0 true % 256
          ∧ OnlyRegs s.hub d [H.detector p l 0, O.laneStatus p l])
  ∧ (∀ (s : State) (p : Port) (l : Lane), s.hub.domainsOn = true → 2 ≤ l.val →
        Answers (.lolDeassert p l) s fun d => d.get (H.detector p l 1) = 0
          ∧ d.get (O.laneStatus p l) = withBit (s.hub.get (O.laneStatus p l)) 1 true % 256
          ∧ OnlyRegs s.hub d [H.detector p l 1, O.laneStatus p l, H.headerWindow p (l.val - 2)])
  ∧ (∀ (s : State) (p : Port) (l : Lane) (ht wd : BitVec 16), s.hub.domainsOn = true → s.hub.get (O.trainState p) = 9 → s.hub.receives p l = true →
        bit (s.hub.get (O.laneStatus p l)) 3 = true → s.hub.get (O.marginAlarm p) ≤ ht.toNat →
        Answers (.eyeScanDone p l ht wd) s fun d => d.get (O.eyeHeight p l) = ht.toNat ∧ d.get (O.eyeWidth p l) = wd.toNat
          ∧ d.get (H.lowScans p l) = 0 ∧ OnlyRegs s.hub d [O.eyeHeight p l, O.eyeWidth p l, H.lowScans p l])
  ∧ (∀ (s : State) (p : Port) (l : Lane) (ht wd : BitVec 16), s.hub.domainsOn = true → s.hub.get (O.trainState p) = 9 → s.hub.receives p l = true →
        bit (s.hub.get (O.laneStatus p l)) 3 = true → ht.toNat < s.hub.get (O.marginAlarm p) → s.hub.get (H.lowScans p l) = 2 →
        Answers (.eyeScanDone p l ht wd) s fun d => OnlyObjects s.hub d [O.marginAlarms 0, O.eyeHeight 0 0, O.eyeWidth 0 0, H.lowScans 0 0, H.retunePending 0]
          ∧ d.get (H.lowScans p l) = 0 ∧ d.lines = s.hub.lines ++ [⟨43, p.val, l.val, s.hub.reactions⟩]
          ∧ (s.hub.flag (O.retuneAuto p) = true → d.flag (H.retunePending p) = true))
  ∧ (∀ (s : State) (lvl : Level) (p : Port) (value : Bool), s.hub.domainsOn = true → Engineers lvl → s.hub.inRom = false → s.hub.handingOver = false →
        Answers (.linkEnableWrite lvl p value) s fun d => OnlyIndexes s.hub d [0x1003, 0x1004, 0x1005, 0x1006, 0x2000, 0x2006, 0x2400, 0x4001, 0x4004, 0x4006, 0x4051, 0x4100, 0x4103, 0x4105, 0x4106, 0x4250, 0x5040, 0x5043, 0x5044, 0x5045, 0x6008, 0x7010, 0xA006]
          ∧ d.flag (O.linkEnable p) = value ∧ d.out.getLast? = some (.status .ok))
  ∧ (∀ (s : State) (lvl : Level) (p : Port) (v : BitVec 8), s.hub.domainsOn = true → Engineers lvl → 1 ≤ v.toNat ∧ v.toNat ≤ 4 →
        s.hub.get (H.trainGear p) ≤ v.toNat → s.hub.inRom = false → s.hub.handingOver = false →
        Answers (.gearMaxWrite lvl p v) s fun d => d.get (O.gearMax p) = v.toNat ∧ Sends s.hub d [.status .ok]
          ∧ OnlyRegs s.hub d [O.gearMax p, O.gearCeiling p])
  ∧ (∀ (s : State) (lvl : Level) (p : Port) (v : BitVec 8), s.hub.domainsOn = true → Engineers lvl → v.toNat ≤ 2 → s.hub.deciding p = false →
        s.hub.inRom = false → s.hub.handingOver = false →
        Answers (.laneUseWrite lvl p v) s fun d => d.get (O.laneUse p) = v.toNat ∧ Sends s.hub d [.status .ok]
          ∧ OnlyRegs s.hub d [O.laneUse p])
  ∧ (∀ (s : State) (lvl : Level) (p : Port) (value : Bool), s.hub.domainsOn = true → Engineers lvl → s.hub.inRom = false → s.hub.handingOver = false →
        Answers (.readyHoldWrite lvl p value) s fun d => d.flag (O.readyHold p) = value ∧ (∃ xs, Sends s.hub d (xs ++ [.status .ok]))
          ∧ OnlyRegs s.hub d [O.readyHold p, O.holdReason p, H.ownHold p, H.readySent p, H.tsCount p 0, H.tsCount p 1, H.tsCount p 3])
  ∧ (∀ (s : State) (p : Port) (l : Lane), s.hub.domainsOn = true → s.hub.get (O.trainState p) ≠ 10 → s.hub.receives p l = true →
        bit (s.hub.get (O.laneStatus p l)) 3 = true → s.hub.flag (H.detector p l 0) = false → s.hub.get (O.linkState p) = 3 →
        s.hub.get (O.retrains p) < 2 ^ 32 - 1 → s.hub.get (O.losEvents p l) < 2 ^ 32 - 1 →
        Answers (.losAssert p l) s fun d => OnlyIndexes s.hub d [0x2006, 0x2400, 0x2007, 0x2000, 0x7010]
          ∧ d.get (O.linkState p) = 5 ∧ d.get (O.lastRetrainCause p) = 2 ∧ d.get (O.trainState p) = 2
          ∧ d.get (O.retrains p) = s.hub.get (O.retrains p) + 1 ∧ d.get (O.losEvents p l) = s.hub.get (O.losEvents p l) + 1
          ∧ d.get (H.detector p l 0) = 1 ∧ d.lines = s.hub.lines ++ [⟨33, p.val, 0, s.hub.reactions⟩])
  ∧ (∀ (s : State) (p : Port) (l : Lane), s.hub.domainsOn = true → s.hub.get (O.trainState p) ≠ 10 → s.hub.receives p l = true →
        bit (s.hub.get (O.laneStatus p l)) 3 = true → s.hub.flag (H.detector p l 1) = false → s.hub.get (O.linkState p) = 3 →
        s.hub.get (O.retrains p) < 2 ^ 32 - 1 → s.hub.get (O.lolEvents p l) < 2 ^ 32 - 1 →
        Answers (.lolAssert p l) s fun d => OnlyIndexes s.hub d [0x2006, 0x2400, 0x2007, 0x2000, 0x7010]
          ∧ d.get (O.linkState p) = 5 ∧ d.get (O.lastRetrainCause p) = 2 ∧ d.get (O.trainState p) = 2
          ∧ d.get (O.retrains p) = s.hub.get (O.retrains p) + 1 ∧ d.get (O.lolEvents p l) = s.hub.get (O.lolEvents p l) + 1
          ∧ d.get (H.detector p l 1) = 1 ∧ d.lines = s.hub.lines ++ [⟨33, p.val, 0, s.hub.reactions⟩])
  ∧ (∀ (s : State) (lvl : Level) (p : Port) (v : BitVec 8), s.hub.domainsOn = true → Engineers lvl → 1 ≤ v.toNat ∧ v.toNat ≤ 4 →
        v.toNat < s.hub.get (H.trainGear p) → s.hub.get (O.linkState p) = 3 → s.hub.get (O.retrains p) < 2 ^ 32 - 1 → s.hub.inRom = false → s.hub.handingOver = false →
        Answers (.gearMaxWrite lvl p v) s fun d => OnlyIndexes s.hub d [0x2006, 0x2400, 0x2007, 0x2000, 0x7010]
          ∧ d.get (O.gearMax p) = v.toNat ∧ d.get (O.linkState p) = 5 ∧ d.get (O.lastRetrainCause p) = 3 ∧ d.get (O.trainState p) = 2
          ∧ d.get (O.retrains p) = s.hub.get (O.retrains p) + 1 ∧ Sends s.hub d [.laneWake p, .status .ok])
  ∧ (∀ (s : State) (lvl : Level) (p : Port) (v : BitVec 8), s.hub.domainsOn = true → Engineers lvl → v.toNat ≤ 2 → s.hub.deciding p = true →
        s.hub.localUse p v.toNat ≠ s.hub.get (H.laneUseNow p) → s.hub.get (O.linkState p) = 3 → s.hub.get (O.retrains p) < 2 ^ 32 - 1 →
        s.hub.inRom = false → s.hub.handingOver = false →
        Answers (.laneUseWrite lvl p v) s fun d => OnlyIndexes s.hub d [0x2006, 0x2400, 0x2007, 0x2000, 0x7010]
          ∧ d.get (O.laneUse p) = v.toNat ∧ d.get (O.linkState p) = 5 ∧ d.get (O.lastRetrainCause p) = 3 ∧ d.get (O.trainState p) = 2
          ∧ d.get (O.retrains p) = s.hub.get (O.retrains p) + 1 ∧ Sends s.hub d [.laneWake p, .status .ok])

/-- Test modes, checkers, injection, bit slip and capture. -/
def Obligations.TestLoopCommands : Prop :=
  (∀ (s : State) (lvl : Level) (p : Port), s.hub.domainsOn = true → Engineers lvl → s.hub.get (O.trainState p) = 0 → s.hub.flag (O.linkEnable p) = false →
      s.hub.inRom = false → s.hub.handingOver = false →
      Answers (.testModeWrite lvl p 2) s fun d => OnlyObjects s.hub d [O.linkState 0, O.gear 0, O.txLanes 0, O.rxLanes 0, O.trainState 0, O.testMode 0, O.laneStatus 0 0, O.logicalLane 0 0, O.chkLocked 0 0, O.chkBits 0 0, H.tsRun 0 0, H.firstLaneAt 0, H.selRun 0, H.idleWake 0, O.txPreset 0 0, O.txCoef 0 0, H.testAt 0, H.wordDelay 0 0, H.wordPhase 0 0, H.selSent 0, H.frameBase 0 0]
        ∧ d.get (O.testMode p) = 2 ∧ d.get (O.trainState p) = 11 ∧ Sends s.hub d [.status .ok])
  ∧ (∀ (s : State) (lvl : Level) (p : Port) (l : Lane) (v : BitVec 8), s.hub.domainsOn = true → Engineers lvl → v ≠ 0 → s.hub.slipMode p = true → 2 ≤ l.val →
        s.hub.flag (O.chkLocked p l) = false → s.hub.inRom = false → s.hub.handingOver = false →
        Answers (.bitslip lvl p l v) s fun d => d.get (H.wordDelay p l) = (s.hub.get (H.wordDelay p l) + (if 3 ≤ s.hub.get (O.testGear p) then 2 * v.toNat else v.toNat)) % 8192
          ∧ Sends s.hub d [.status .ok] ∧ OnlyRegs s.hub d [H.wordDelay p l])
  ∧ (∀ (s : State) (lvl : Level) (p : Port) (l : Lane) (v : BitVec 8) (word : BitVec 64), s.hub.domainsOn = true → Engineers lvl → v.toNat ≤ 127 →
        s.hub.slipMode p = true → s.hub.inRom = false → s.hub.handingOver = false →
        Answers (.captureAtWrite lvl p l v word) s fun d => d.get (O.captureAt p l) = v.toNat ∧ (2 ≤ l.val →
          d.get (O.capture p l) = (if s.hub.get (O.testMode p) = 2 then s.hub.loopedWord p l v.toNat else word.toNat)) ∧ Sends s.hub d [.status .ok] ∧ OnlyRegs s.hub d [O.captureAt p l, O.capture p l])
  ∧ (∀ (s : State) (lvl : Level) (p : Port) (l : Lane) (v : BitVec 8), s.hub.domainsOn = true → Engineers lvl → v.toNat ≤ 2 → s.hub.inRom = false →
        s.hub.handingOver = false →
        Answers (.injectModeWrite lvl p l v) s fun d => d.get (O.injectMode p l) = v.toNat ∧ Sends s.hub d [.status .ok]
          ∧ OnlyRegs s.hub d [O.injectMode p l])
  ∧ (∀ (s : State) (p : Port) (l : Lane), s.hub.domainsOn = true → s.hub.get (O.injectMode p l) = 1 → l.val < 2 → bit (s.hub.get (O.laneStatus p l)) 4 = false →
        s.hub.get (O.linkState p) = 3 → s.hub.get (O.testMode p) = 0 →
        Answers (.inject p l) s fun d => d.get (O.injectMode p l) = 0
          ∧ Sends s.hub d [.inject p.val l.val (s.hub.get (O.injectBurst p l))] ∧ OnlyRegs s.hub d [O.injectMode p l, O.injectCount p l])
  ∧ (∀ (s : State) (p : Port) (l : Lane), s.hub.domainsOn = true → s.hub.get (O.trainState p) = 11 → 2 ≤ l.val → s.hub.flag (O.chkLocked p l) = false →
        Answers (.checkerLock p l) s fun d => d.get (O.chkLocked p l) = 1 ∧ OnlyRegs s.hub d [O.chkLocked p l, H.chkLockAt p l, H.markerBits p l, H.markerRun p l, H.chkSeed p l])
  ∧ (∀ (s : State) (p : Port) (l : Lane), s.hub.domainsOn = true → s.hub.flag (O.chkLocked p l) = true →
        Answers (.checkerLockLoss p l) s fun d => d.flag (O.chkLocked p l) = false ∧ OnlyRegs s.hub d [O.chkLocked p l, O.chkBits p l, O.chkErrors p l, O.errFrame p l, O.errRun p l, O.errNyquist p l, O.errLadder p l, O.errRandom p l])

/-! ## Type-C, Power Delivery, mode entry and the power path -/

/-- A port toggles, debounces, attaches, detaches, recovers and takes its policy. A sink attaches on its implicit contract, 5 V and 3 A
whatever the partner's Rp by the model's reading (notes/assumptions/25.md); the outcomes of the Try path are the family's
(notes/assumptions/24.md); an unequal policy sends the port through ErrorRecovery; in a firmware handover the write is held. -/
def Obligations.TypeCCommands : Prop :=
  (∀ (s : State) (p : Port), s.hub.pdOn = true → s.hub.get (O.attachState p) = 0 → 2 ≤ s.hub.get (O.policy p) →
      Answers (.drpToggle p) s fun d => d.flag (H.ccRp p) = !s.hub.flag (H.ccRp p) ∧ OnlyRegs s.hub d [H.ccRp p])
  ∧ (∀ (s : State) (p : Port) (cc : CcView), s.hub.get (O.attachState p) = 0 → s.hub.flag H.running = true → s.hub.get O.powerState = 0 →
        s.hub.get (O.policy p) = 0 → cc.cc1 = .rd → cc.cc2 ≠ .rd → cc.cc2 ≠ .rp →
        Answers (.ccTerminationSeen p cc) s fun d => d.get (O.attachState p) = 1 ∧ d.get (H.attachAs p) = 1 ∧ d.get (H.ccCand p) = 1
          ∧ d.flag (H.ccRa p) = (cc.cc2 == .ra)
          ∧ OnlyRegs s.hub d [O.attachState p, H.attachAs p, H.debounced p, H.ccCand p, H.ccRa p, H.vbusSeen p])
  ∧ (∀ (s : State) (p : Port) (cc : CcView), s.hub.pdOn = true → s.hub.get (O.attachState p) = 0 → cc.cc1 = .ra → cc.cc2 = .ra →
        Answers (.ccTerminationSeen p cc) s fun d => d = s.hub)
  ∧ (∀ (s : State) (p : Port), s.hub.pdOn = true → s.hub.get (O.attachState p) = 1 → s.hub.get (H.attachAs p) = 2 → s.hub.flag (H.vbusSeen p) = true →
        s.hub.get (O.policy p) ≠ 3 → s.hub.get (H.ccCand p) ≤ 2 →
        Answers (.ccDebounceExpiry p) s fun d => OnlyIndexes s.hub d [0x2800, 0x2801, 0x2808] ∧ d.get (O.attachState p) = 4
          ∧ d.get (O.powerRole p) = 2 ∧ d.get (O.dataRole p) = 2 ∧ d.get (O.orientation p) = s.hub.get (H.ccCand p)
          ∧ d.get (O.contractState p) = 1 ∧ d.get (O.contractV p) = 5000 ∧ d.get (O.contractI p) = 3000)
  ∧ (∀ (s : State) (p : Port), s.hub.pdOn = true → s.hub.get (O.attachState p) = 1 → s.hub.get (H.attachAs p) = 2 → s.hub.flag (H.vbusSeen p) = true →
        s.hub.get (O.policy p) = 3 →
        Answers (.ccDebounceExpiry p) s fun d => d.get (O.attachState p) = 2 ∧ d.flag (H.ccRp p) = true
          ∧ OnlyRegs s.hub d [O.attachState p, H.tryPath p, H.trySeen p, H.ccRp p])
  ∧ (∀ (s : State) (p : Port) (timer : Fin 3), s.hub.pdOn = true → s.hub.get (O.attachState p) = 2 → s.hub.get (H.tryPath p) = 4 →
        s.hub.flag (H.trySeen p) = false → timer ≠ 2 →
        Answers (.tryTimerExpiry p timer) s fun d => OnlyIndexes s.hub d [0x2800, 0x2801, 0x2803, 0x2804, 0x2805, 0x2806, 0x2808]
          ∧ d.get (O.attachState p) = 0 ∧ d.get (O.orientation p) = 0 ∧ d.get (O.powerRole p) = 0 ∧ d.get (O.dataRole p) = 0)
  ∧ (∀ (s : State) (p : Port) (timer : Fin 3), s.hub.pdOn = true → s.hub.get (O.attachState p) = 2 → s.hub.get (H.tryPath p) = 3 →
        s.hub.flag (H.trySeen p) = true → timer = 2 →
        Answers (.tryTimerExpiry p timer) s fun d => OnlyIndexes s.hub d [0x2800, 0x2801, 0x2803, 0x2804, 0x2805, 0x2806, 0x2808]
          ∧ d.get (O.attachState p) = 4 ∧ d.get (O.powerRole p) = 2 ∧ d.get (O.dataRole p) = 2)
  ∧ (∀ (s : State) (p : Port), s.hub.pdOn = true → (s.hub.get (O.attachState p) = 1 ∨ s.hub.get (O.attachState p) = 2 ∨ s.hub.get (O.attachState p) = 3
        ∨ s.hub.get (O.attachState p) = 4) →
        Answers (.ccDetach p) s fun d => OnlyIndexes s.hub d [0x1003, 0x1004, 0x1005, 0x1006, 0x2000, 0x2006, 0x2007, 0x2400, 0x2800, 0x2801, 0x2803, 0x2804, 0x2805, 0x2806, 0x2807, 0x2808, 0x3101, 0x4001, 0x4004, 0x4006, 0x4051, 0x4100, 0x4103, 0x4105, 0x4106, 0x4250, 0x5040, 0x5043, 0x5044, 0x5045, 0x6008, 0x7010, 0xA001, 0xA006]
          ∧ d.get (O.attachState p) = 0 ∧ d.get (O.orientation p) = 0 ∧ d.get (O.powerRole p) = 0 ∧ d.get (O.dataRole p) = 0)
  ∧ (∀ (s : State) (p : Port), s.hub.pdOn = true → s.hub.get (O.attachState p) = 5 → s.hub.pathPermits p = true → s.hub.heldOff p = false →
        Answers (.errorRecoveryTimer p) s fun d => OnlyIndexes s.hub d [0x2800, 0x2801, 0x2803, 0x2804, 0x2805, 0x2806, 0x2808]
          ∧ d.get (O.attachState p) = 0)
  ∧ (∀ (s : State) (p : Port), s.hub.pdOn = true → s.hub.get (O.attachState p) = 5 → s.hub.pathPermits p = true → s.hub.heldOff p = true →
        Answers (.errorRecoveryTimer p) s fun d => OnlyIndexes s.hub d [0x2800, 0x2801, 0x2803, 0x2804, 0x2805, 0x2806, 0x2808]
          ∧ d.get (O.attachState p) = 6)
  ∧ (∀ (s : State) (p : Port), s.hub.pdOn = true → s.hub.get (O.attachState p) = 5 → s.hub.pathPermits p = false →
        Answers (.errorRecoveryTimer p) s fun d => d.get (O.attachState p) = 5 ∧ OnlyRegs s.hub d [H.erTimer p])
  ∧ (∀ (s : State) (lvl : Level) (p : Port) (v : BitVec 8), s.hub.domainsOn = true → Engineers lvl → s.hub.handingOver = false → v.toNat ≤ 4 →
        s.hub.get (O.attachState p) = 6 → s.hub.inRom = false →
        Answers (.policyWrite lvl p v) s fun d => d.get (O.policy p) = v.toNat ∧ Sends s.hub d [.status .ok]
          ∧ OnlyRegs s.hub d [O.policy p])
  ∧ (∀ (s : State) (lvl : Level) (p : Port) (v : BitVec 8), s.hub.domainsOn = true → Engineers lvl → s.hub.handingOver = false → v.toNat ≤ 4 →
        v.toNat ≠ s.hub.get (O.policy p) → s.hub.get (O.attachState p) ≠ 6 → s.hub.inRom = false →
        Answers (.policyWrite lvl p v) s fun d => OnlyIndexes s.hub d [0x1003, 0x1004, 0x1005, 0x1006, 0x2000, 0x2006, 0x2007, 0x2400, 0x2800, 0x2801, 0x2806, 0x2807, 0x2808, 0x3101, 0x4001, 0x4004, 0x4006, 0x4051, 0x4100, 0x4103, 0x4105, 0x4106, 0x4250, 0x5040, 0x5043, 0x5044, 0x5045, 0x6008, 0x7010, 0xA006]
          ∧ d.get (O.attachState p) = 5 ∧ d.get (O.hardResetRun p) = 0 ∧ ∃ xs, Sends s.hub d (xs ++ [.status .ok]))
  ∧ (∀ (s : State) (lvl : Level) (p : Port) (v : BitVec 8), s.hub.domainsOn = true → s.hub.handingOver = true →
        Answers (.policyWrite lvl p v) s fun d => d.heldWrites = s.hub.heldWrites ++ [.policyWrite lvl p v] ∧ d.regs = s.hub.regs
          ∧ d.out = s.hub.out)
  ∧ (∀ (s : State) (lvl : Level) (p : Port), s.hub.domainsOn = true → Engineers lvl → s.hub.handingOver = false → s.hub.get (O.attachState p) = 6 →
        s.hub.inRom = false →
        Answers (.portDisableWrite lvl p true) s fun d => d.flag (O.portDisable p) = true ∧ Sends s.hub d [.status .ok]
          ∧ OnlyRegs s.hub d [O.portDisable p])
  ∧ (∀ (s : State) (lvl : Level) (p : Port), s.hub.domainsOn = true → Engineers lvl → s.hub.handingOver = false → s.hub.get (O.attachState p) ≠ 6 →
        s.hub.inRom = false →
        Answers (.portDisableWrite lvl p true) s fun d => OnlyIndexes s.hub d [0x1003, 0x1004, 0x1005, 0x1006, 0x2000, 0x2006, 0x2007, 0x2400, 0x2800, 0x2801, 0x2803, 0x2804, 0x2805, 0x2806, 0x2807, 0x2808, 0x3101, 0x4001, 0x4004, 0x4006, 0x4051, 0x4100, 0x4103, 0x4105, 0x4106, 0x4250, 0x5040, 0x5043, 0x5044, 0x5045, 0x6008, 0x7010, 0xA006]
          ∧ d.get (O.attachState p) = 6 ∧ d.get (O.powerRole p) = 0 ∧ ∃ xs, Sends s.hub d (xs ++ [.status .ok]))

/-- A pair turns on, reaches On, turns off, cools down and is cleared. Ramp begins only where it is asked for, the other pair is Off with
its gate down, and the estimate is low enough, for a source pair at the latest when its converter has settled; Cool-down ends once the
estimate is low enough. A converter that does not settle is a fault of the source pair, LAST_FAULT 04h: an attached Source goes to
ErrorRecovery, a new Source in a PR_Swap to a Hard Reset; FAULT_CLEAR ends an ErrorRecovery that waited for the pair alone. -/
def Obligations.PairCommands : Prop :=
  (∀ (s : State) (p : Port), s.hub.pdOn = true → s.hub.get (O.srcPathState p) = 0 → s.hub.flag (H.srcWanted p) = true → s.hub.get (H.convState p) = 2 → s.hub.flag (H.srcReversed p) = false →
      s.hub.get (O.snkPathState p) = 0 → s.hub.flag (H.gateHigh p 1) = false →
      s.hub.coolEnough p 0 = true →
      Answers (.pathTurnOn p false) s fun d => d.get (O.srcPathState p) = 1 ∧ d.flag (H.gateHigh p 0) = true
        ∧ OnlyRegs s.hub d [O.srcPathState p, H.gateHigh p 0, H.onHeld p, H.srcReversed p])
  ∧ (∀ (s : State) (p : Port), s.hub.pdOn = true → s.hub.flag (H.srcReversed p) = true → s.hub.mayCall p = true →
        Answers (.pathTurnOn p false) s fun d => d.get (H.convState p) = 1 ∧ d.get (H.convTarget p) = 5000
          ∧ OnlyRegs s.hub d [H.srcWanted p, H.srcReversed p, H.convState p, H.convTarget p, H.disch p, H.slewing p])
  ∧ (∀ (s : State) (p : Port), s.hub.pdOn = true → (s.hub.get (O.srcPathState p) = 1 ∨ s.hub.get (O.srcPathState p) = 2
        ∨ s.hub.flag (H.gateHigh p 0) = true) →
        Answers (.pathTurnOn p true) s fun d => d = s.hub)
  ∧ (∀ (s : State) (p : Port), s.hub.pdOn = true → s.hub.get (H.convState p) = 1 → s.hub.flag (H.gateHigh p 1) = true →
        Answers (.converterSettled p) s fun d => d.get (H.convState p) = 2 ∧ OnlyRegs s.hub d [H.convState p])
  ∧ (∀ (s : State) (p : Port), s.hub.pdOn = true → s.hub.get (H.convState p) = 1 → s.hub.get (O.srcPathState p) = 0 → s.hub.get (O.attachState p) = 4 →
        s.hub.get (H.pdx p) ≠ 11 → s.hub.flag (H.powerDegraded p) = false → s.hub.get (O.retryMode p) ≠ 1 →
        Answers (.converterTimeout p) s fun d => OnlyIndexes s.hub d [0x1003, 0x1004, 0x1005, 0x1006, 0x2000, 0x2006, 0x2007, 0x2400, 0x2800, 0x2801, 0x2806, 0x2807, 0x2808, 0x3101, 0x3104, 0x4001, 0x4004, 0x4006, 0x4051, 0x4100, 0x4103, 0x4105, 0x4106, 0x4250, 0x5040, 0x5043, 0x5044, 0x5045, 0x6008, 0x7010, 0xA006]
          ∧ d.get (O.lastFault p) = 4 ∧ d.get (O.srcPathState p) = 4 ∧ d.flag (O.pg p) = false
          ∧ d.lines = s.hub.lines ++ [⟨54, p.val, 0, s.hub.reactions⟩, ⟨57, p.val, 0, s.hub.reactions + 1⟩])
  ∧ (∀ (s : State) (p : Port), s.hub.pdOn = true → s.hub.get (O.snkPathState p) = 1 → s.hub.get (O.ramps p) < 2 ^ 32 - 1 →
        Answers (.rampComplete p true) s fun d => d.get (O.snkPathState p) = 2 ∧ d.get (O.ramps p) = s.hub.get (O.ramps p) + 1
          ∧ OnlyRegs s.hub d [O.snkPathState p, O.ramps p, H.onHeld p])
  ∧ (∀ (s : State) (p : Port), s.hub.pdOn = true → (s.hub.get (O.srcPathState p) = 1 ∨ s.hub.get (O.srcPathState p) = 2) →
        Answers (.pathTurnOff p false) s fun d => d.get (O.srcPathState p) = 0 ∧ d.get (H.convState p) = 0 ∧ d.flag (O.pg p) = false
          ∧ d.get (O.faultTimer p) = 0
          ∧ OnlyRegs s.hub d [O.srcPathState p, H.srcWanted p, H.convState p, H.convTarget p, H.disch p, H.slewing p, O.faultTimer p, O.inLimit p, O.pg p, H.onHeld p, O.retries p, H.srcReversed p])
  ∧ (∀ (s : State) (p : Port) (sink : Bool), s.hub.pdOn = true → s.hub.get (pathObj p (if sink then 1 else 0)) = 3 →
        s.hub.coolEnough p (if sink then 1 else 0) = true → s.hub.get (O.attachState p) ≠ 5 →
        Answers (.coolDownExpiry p sink) s fun d => d.get (pathObj p (if sink then 1 else 0)) = 0
          ∧ OnlyRegs s.hub d [pathObj p (if sink then 1 else 0)])
  ∧ (∀ (s : State) (p : Port) (sink : Bool), s.hub.pdOn = true → s.hub.get (pathObj p (if sink then 1 else 0)) = 3 →
        s.hub.coolEnough p (if sink then 1 else 0) = false →
        Answers (.coolDownExpiry p sink) s fun d => d = s.hub)
  ∧ (∀ (s : State) (p : Port), s.hub.pdOn = true → (s.hub.get (O.srcPathState p) = 2 ∨ s.hub.get (O.snkPathState p) = 2) →
        Answers (.retryHold p) s fun d => d.get (O.retries p) = 0 ∧ d.get (H.onHeld p) = 1 ∧ OnlyRegs s.hub d [O.retries p, H.onHeld p])
  ∧ (∀ (s : State) (lvl : Level) (p : Port), s.hub.domainsOn = true → Engineers lvl → s.hub.get (O.srcPathState p) = 4 → s.hub.get (O.snkPathState p) = 0 →
        s.hub.get (O.attachState p) ≠ 5 → s.hub.inRom = false → s.hub.handingOver = false →
        Answers (.faultClear lvl p true) s fun d => d.get (O.srcPathState p) = 0 ∧ d.get (O.retries p) = 0 ∧ Sends s.hub d [.status .ok]
          ∧ OnlyRegs s.hub d [O.srcPathState p, O.retries p])
  ∧ (∀ (s : State) (lvl : Level) (p : Port) (v : Bool), s.hub.domainsOn = true → Engineers lvl → s.hub.get (O.srcPathState p) ≠ 4 →
        s.hub.get (O.snkPathState p) ≠ 4 → s.hub.inRom = false → s.hub.handingOver = false →
        Answers (.faultClear lvl p v) s fun d => Sends s.hub d [.status .ok] ∧ d.regs = s.hub.regs)

  ∧ (∀ (s : State) (p : Port), s.hub.pdOn = true → s.hub.get (H.convState p) = 1 → s.hub.flag (H.srcWanted p) = true → s.hub.flag (H.srcReversed p) = false →
        s.hub.get (O.srcPathState p) = 0 → s.hub.get (O.snkPathState p) = 0 → s.hub.flag (H.gateHigh p 1) = false → s.hub.coolEnough p 0 = true →
        Answers (.converterSettled p) s fun d => d.get (H.convState p) = 2 ∧ d.get (O.srcPathState p) = 1 ∧ d.flag (H.gateHigh p 0) = true
          ∧ OnlyRegs s.hub d [H.convState p, O.srcPathState p, H.gateHigh p 0, H.onHeld p])
  ∧ (∀ (s : State) (p : Port), s.hub.pdOn = true → s.hub.get (H.convState p) = 1 → s.hub.get (O.srcPathState p) = 0 → s.hub.get (O.attachState p) = 3 →
        s.hub.get (H.pdx p) ≠ 11 → s.hub.flag (H.powerDegraded p) = false → s.hub.get (O.retryMode p) ≠ 1 →
        Answers (.converterTimeout p) s fun d => OnlyIndexes s.hub d [0x1003, 0x1004, 0x1005, 0x1006, 0x2000, 0x2006, 0x2007, 0x2400, 0x2800, 0x2801, 0x2806, 0x2807, 0x2808, 0x3101, 0x3104, 0x4001, 0x4004, 0x4006, 0x4051, 0x4100, 0x4103, 0x4105, 0x4106, 0x4250, 0x5040, 0x5043, 0x5044, 0x5045, 0x6008, 0x7010, 0xA006]
          ∧ d.get (O.lastFault p) = 4 ∧ d.get (O.srcPathState p) = 4 ∧ d.get (O.attachState p) = 5 ∧ d.get (O.contractState p) = 0
          ∧ d.flag (H.srcWanted p) = false
          ∧ ∃ ls, d.lines = s.hub.lines ++ [⟨54, p.val, 0, s.hub.reactions⟩, ⟨57, p.val, 0, s.hub.reactions + 1⟩, ⟨46, p.val, 0, s.hub.reactions + 1⟩] ++ ls)
  ∧ (∀ (s : State) (p : Port), s.hub.pdOn = true → s.hub.get (H.convState p) = 1 → s.hub.get (O.srcPathState p) = 0 → s.hub.get (H.pdx p) = 11 →
        s.hub.flag (H.powerDegraded p) = false → s.hub.get (O.retryMode p) ≠ 1 →
        Answers (.converterTimeout p) s fun d => OnlyIndexes s.hub d [0x1003, 0x1004, 0x1005, 0x1006, 0x2000, 0x2006, 0x2007, 0x2400, 0x2800, 0x2801, 0x2802, 0x2806, 0x2807, 0x2808, 0x3101, 0x3104, 0x4001, 0x4004, 0x4006, 0x4051, 0x4100, 0x4103, 0x4105, 0x4106, 0x4250, 0x5040, 0x5043, 0x5044, 0x5045, 0x6008, 0x7010, 0xA006]
          ∧ d.get (O.lastFault p) = 4 ∧ d.get (O.srcPathState p) = 4 ∧ d.get (O.swapResult p) = 5 ∧ d.get (O.contractState p) = 0
          ∧ d.get (O.attachState p) = 2 + bits (s.hub.get (O.attachRoles p)) 0 2 ∧ Out.hardReset p ∈ d.out)
  ∧ (∀ (s : State) (lvl : Level) (p : Port), s.hub.domainsOn = true → Engineers lvl → s.hub.get (O.srcPathState p) = 4 → s.hub.get (O.snkPathState p) = 0 →
        s.hub.get (O.attachState p) = 5 → s.hub.get (H.erTimer p) = 1 → s.hub.heldOff p = false → s.hub.inRom = false → s.hub.handingOver = false →
        Answers (.faultClear lvl p true) s fun d => OnlyIndexes s.hub d [0x1003, 0x1004, 0x1005, 0x1006, 0x2000, 0x2006, 0x2007, 0x2400, 0x2800, 0x2801, 0x2803, 0x2804, 0x2805, 0x2806, 0x2807, 0x2808, 0x3101, 0x3104, 0x4001, 0x4004, 0x4006, 0x4051, 0x4100, 0x4103, 0x4105, 0x4106, 0x4250, 0x5040, 0x5043, 0x5044, 0x5045, 0x6008, 0x7010, 0xA006]
          ∧ d.get (O.srcPathState p) = 0 ∧ d.get (O.retries p) = 0 ∧ d.get (O.attachState p) = 0)

/-- Fast trip, the fault timer and the thermal limit put the pair in force, sink or source, into Latched or Cool-down; reverse current turns
the source pair off. A fault acts only on a pair in Ramp or On. RETRY_MODE 01h with retries left gives Cool-down, and else the pair latches
and PATH_LATCHED is raised. An attached Source goes to ErrorRecovery with it, and a new Source in the ramp of a PR_Swap to a Hard Reset. -/
def Obligations.PairFaults : Prop :=
  (∀ (s : State) (p : Port), s.hub.pdOn = true → s.hub.get (O.snkPathState p) = 2 → s.hub.get (O.srcPathState p) = 0 →
      s.hub.flag (H.powerDegraded p) = false → s.hub.get (O.retryMode p) ≠ 1 →
      Answers (.fastTrip p) s fun d => OnlyIndexes s.hub d [0x1003, 0x1004, 0x1005, 0x1006, 0x2000, 0x2006, 0x2007, 0x2400, 0x2800, 0x2801, 0x2806, 0x2807, 0x2808, 0x3101, 0x3104, 0x4001, 0x4004, 0x4006, 0x4051, 0x4100, 0x4103, 0x4105, 0x4106, 0x4250, 0x5040, 0x5043, 0x5044, 0x5045, 0x6008, 0x7010, 0xA006]
        ∧ d.get (O.snkPathState p) = 4 ∧ d.get (O.lastFault p) = 1 ∧ d.flag (O.pg p) = false
        ∧ d.lines = s.hub.lines ++ [⟨50, p.val, 0, s.hub.reactions⟩, ⟨57, p.val, 0, s.hub.reactions + 1⟩])
  ∧ (∀ (s : State) (p : Port), s.hub.pdOn = true → s.hub.get (O.snkPathState p) = 2 → s.hub.get (O.srcPathState p) = 0 →
        s.hub.flag (H.powerDegraded p) = false → s.hub.get (O.retryMode p) = 1 → s.hub.get (O.retryLimit p) = 0 → s.hub.get (O.faultTime p) ≤ s.hub.get (O.faultTimer p) →
        Answers (.faultTimerExpiry p) s fun d => OnlyIndexes s.hub d [0x1003, 0x1004, 0x1005, 0x1006, 0x2000, 0x2006, 0x2007, 0x2400, 0x2800, 0x2801, 0x2806, 0x2807, 0x2808, 0x3101, 0x3104, 0x4001, 0x4004, 0x4006, 0x4051, 0x4100, 0x4103, 0x4105, 0x4106, 0x4250, 0x5040, 0x5043, 0x5044, 0x5045, 0x6008, 0x7010, 0xA006]
          ∧ d.get (O.snkPathState p) = 3 ∧ d.get (O.lastFault p) = 2 ∧ d.get (O.faultTimer p) = 0
          ∧ d.lines = s.hub.lines ++ [⟨51, p.val, 0, s.hub.reactions⟩])
  ∧ (∀ (s : State) (p : Port), s.hub.pdOn = true → s.hub.get (O.snkPathState p) = 2 → s.hub.get (O.srcPathState p) = 0 →
        s.hub.flag (H.powerDegraded p) = true → s.hub.getI (O.fetTempLimit p) ≤ s.hub.fetTemp p 1 →
        Answers (.thermalLimit p true) s fun d => OnlyIndexes s.hub d [0x1003, 0x1004, 0x1005, 0x1006, 0x2000, 0x2006, 0x2007, 0x2400, 0x2800, 0x2801, 0x2806, 0x2807, 0x2808, 0x3101, 0x3104, 0x4001, 0x4004, 0x4006, 0x4051, 0x4100, 0x4103, 0x4105, 0x4106, 0x4250, 0x5040, 0x5043, 0x5044, 0x5045, 0x6008, 0x7010, 0xA006]
          ∧ d.get (O.snkPathState p) = 4 ∧ d.get (O.lastFault p) = 3)
  ∧ (∀ (s : State) (p : Port), s.hub.pdOn = true → s.hub.get (O.snkPathState p) ≠ 1 → s.hub.get (O.snkPathState p) ≠ 2 →
        Answers (.thermalLimit p true) s fun d => d = s.hub)
  ∧ (∀ (s : State) (p : Port), s.hub.pdOn = true → s.hub.get (O.srcPathState p) = 2 → s.hub.get (O.reverseEvents p) < 2 ^ 32 - 1 →
        Answers (.reverseCurrent p) s fun d => OnlyObjects s.hub d [O.srcPathState 0, O.snkPathState 0, O.inLimit 0, O.faultTimer 0, O.pg 0, O.reverseEvents 0, H.afterReverse 0, H.onHeld 0, H.srcReversed 0]
          ∧ d.get (O.srcPathState p) = 0 ∧ d.get (O.reverseEvents p) = s.hub.get (O.reverseEvents p) + 1
          ∧ d.get (O.retries p) = s.hub.get (O.retries p) ∧ d.lines = s.hub.lines ++ [⟨56, p.val, 0, s.hub.reactions⟩])
  ∧ (∀ (s : State) (p : Port), s.hub.pdOn = true → s.hub.get (O.srcPathState p) = 0 → s.hub.get (O.snkPathState p) = 0 →
        Answers (.fastTrip p) s fun d => d = s.hub)
  ∧ (∀ (s : State) (p : Port), s.hub.pdOn = true → s.hub.get (O.srcPathState p) = 2 → s.hub.get (O.attachState p) = 3 → s.hub.get (H.pdx p) ≠ 11 →
        s.hub.flag (H.powerDegraded p) = false → s.hub.get (O.retryMode p) ≠ 1 →
        Answers (.fastTrip p) s fun d => OnlyIndexes s.hub d [0x1003, 0x1004, 0x1005, 0x1006, 0x2000, 0x2006, 0x2007, 0x2400, 0x2800, 0x2801, 0x2806, 0x2807, 0x2808, 0x3101, 0x3104, 0x4001, 0x4004, 0x4006, 0x4051, 0x4100, 0x4103, 0x4105, 0x4106, 0x4250, 0x5040, 0x5043, 0x5044, 0x5045, 0x6008, 0x7010, 0xA006]
          ∧ d.get (O.srcPathState p) = 4 ∧ d.get (O.lastFault p) = 1 ∧ d.flag (O.pg p) = false ∧ d.get (O.attachState p) = 5
          ∧ d.get (O.contractState p) = 0 ∧ d.flag (H.srcWanted p) = false
          ∧ ∃ ls, d.lines = s.hub.lines ++ [⟨50, p.val, 0, s.hub.reactions⟩, ⟨57, p.val, 0, s.hub.reactions + 1⟩, ⟨46, p.val, 0, s.hub.reactions + 1⟩] ++ ls)
  ∧ (∀ (s : State) (p : Port), s.hub.pdOn = true → s.hub.get (O.srcPathState p) = 2 → s.hub.get (O.attachState p) = 3 → s.hub.get (H.pdx p) ≠ 11 →
        s.hub.flag (H.powerDegraded p) = false → s.hub.get (O.retryMode p) ≠ 1 → s.hub.get (O.faultTime p) ≤ s.hub.get (O.faultTimer p) →
        Answers (.faultTimerExpiry p) s fun d => OnlyIndexes s.hub d [0x1003, 0x1004, 0x1005, 0x1006, 0x2000, 0x2006, 0x2007, 0x2400, 0x2800, 0x2801, 0x2806, 0x2807, 0x2808, 0x3101, 0x3104, 0x4001, 0x4004, 0x4006, 0x4051, 0x4100, 0x4103, 0x4105, 0x4106, 0x4250, 0x5040, 0x5043, 0x5044, 0x5045, 0x6008, 0x7010, 0xA006]
          ∧ d.get (O.srcPathState p) = 4 ∧ d.get (O.lastFault p) = 2 ∧ d.flag (O.pg p) = false ∧ d.get (O.attachState p) = 5
          ∧ d.get (O.contractState p) = 0 ∧ d.flag (H.srcWanted p) = false
          ∧ ∃ ls, d.lines = s.hub.lines ++ [⟨51, p.val, 0, s.hub.reactions⟩, ⟨57, p.val, 0, s.hub.reactions + 1⟩, ⟨46, p.val, 0, s.hub.reactions + 1⟩] ++ ls)
  ∧ (∀ (s : State) (p : Port), s.hub.pdOn = true → s.hub.get (O.srcPathState p) = 2 → s.hub.get (O.attachState p) = 3 → s.hub.get (H.pdx p) ≠ 11 →
        s.hub.flag (H.powerDegraded p) = false → s.hub.get (O.retryMode p) ≠ 1 → s.hub.getI (O.fetTempLimit p) ≤ s.hub.fetTemp p 0 →
        Answers (.thermalLimit p false) s fun d => OnlyIndexes s.hub d [0x1003, 0x1004, 0x1005, 0x1006, 0x2000, 0x2006, 0x2007, 0x2400, 0x2800, 0x2801, 0x2806, 0x2807, 0x2808, 0x3101, 0x3104, 0x4001, 0x4004, 0x4006, 0x4051, 0x4100, 0x4103, 0x4105, 0x4106, 0x4250, 0x5040, 0x5043, 0x5044, 0x5045, 0x6008, 0x7010, 0xA006]
          ∧ d.get (O.srcPathState p) = 4 ∧ d.get (O.lastFault p) = 3 ∧ d.flag (O.pg p) = false ∧ d.get (O.attachState p) = 5
          ∧ d.get (O.contractState p) = 0 ∧ d.flag (H.srcWanted p) = false
          ∧ ∃ ls, d.lines = s.hub.lines ++ [⟨52, p.val, 0, s.hub.reactions⟩, ⟨57, p.val, 0, s.hub.reactions + 1⟩, ⟨46, p.val, 0, s.hub.reactions + 1⟩] ++ ls)
  ∧ (∀ (s : State) (p : Port), s.hub.pdOn = true → s.hub.get (O.srcPathState p) = 1 → s.hub.get (H.pdx p) = 11 →
        s.hub.flag (H.powerDegraded p) = false → s.hub.get (O.retryMode p) ≠ 1 →
        Answers (.fastTrip p) s fun d => OnlyIndexes s.hub d [0x1003, 0x1004, 0x1005, 0x1006, 0x2000, 0x2006, 0x2007, 0x2400, 0x2800, 0x2801, 0x2802, 0x2806, 0x2807, 0x2808, 0x3101, 0x3104, 0x4001, 0x4004, 0x4006, 0x4051, 0x4100, 0x4103, 0x4105, 0x4106, 0x4250, 0x5040, 0x5043, 0x5044, 0x5045, 0x6008, 0x7010, 0xA006]
          ∧ d.get (O.srcPathState p) = 4 ∧ d.get (O.lastFault p) = 1 ∧ d.get (O.swapResult p) = 5 ∧ d.get (O.contractState p) = 0
          ∧ d.get (O.attachState p) = 2 + bits (s.hub.get (O.attachRoles p)) 0 2 ∧ Out.hardReset p ∈ d.out)

/-- A feed qualifies or is lost, and a transfer breaks before it makes; ticks of a port, and one conversion of each kind. A transfer names
its target, waits out the dead time and ends with the target selected, BUS_MIN_MV starting at BUS_MV by the model's reading
(notes/assumptions/29.md); losing a feed that is not selected leaves the selection alone. A port with both pairs off, no voltage transition
and no exchange only clears PG and the latched comparator and counts the ticks out of limiting; a pair On that has been out of limiting for
64 ticks with its gate enhanced shows PG, and one that enters limiting counts the entry and starts the fault timer. A voltage sample sets
VBUS_MV, VSRC_MV and VSNK_MV, a feed sample the three voltages and SAG_INPUT_MV, a current sample the current, the power, the energy of its
direction, FET_POWER_MW and the rises of the model. -/
def Obligations.FeedsTickAndAdc : Prop :=
  (∀ (s : State) (p : Port) (cmp : Comparators), s.hub.pdOn = true → s.hub.get (O.srcPathState p) = 0 → s.hub.get (O.snkPathState p) = 0 →
      s.hub.flag (H.srcWanted p) = false → s.hub.sinkWanted p = false → s.hub.flag (H.slewing p) = false → s.hub.get (H.pdx p) = 0 →
      cmp.srcGateLow = false → cmp.snkGateLow = false → cmp.vsafe0 = false →
      Answers (.powerPathTick p cmp) s fun d => d.flag (O.pg p) = false ∧ d.flag (O.inLimit p) = false
        ∧ d.get (H.outTicks p) = min 64 (s.hub.get (H.outTicks p) + 1)
        ∧ OnlyRegs s.hub d [O.pg p, O.inLimit p, H.outTicks p, H.fastLatch p])
  ∧ (∀ (s : State) (p : Port) (cmp : Comparators), s.hub.pdOn = true → s.hub.get (O.snkPathState p) = 2 → s.hub.get (O.srcPathState p) = 0 →
        cmp.fastTrip = true → cmp.srcGateLow = false → cmp.snkGateLow = false → cmp.vsafe0 = false → s.hub.flag (H.slewing p) = false →
        s.hub.get (H.pdx p) = 0 → s.hub.flag (H.powerDegraded p) = true → s.hub.flag (H.srcWanted p) = false →
        Answers (.powerPathTick p cmp) s fun d => OnlyIndexes s.hub d [0x1003, 0x1004, 0x1005, 0x1006, 0x2000, 0x2006, 0x2007, 0x2400, 0x2800, 0x2801, 0x2806, 0x2807, 0x2808, 0x3101, 0x3104, 0x4001, 0x4004, 0x4006, 0x4051, 0x4100, 0x4103, 0x4105, 0x4106, 0x4250, 0x5040, 0x5043, 0x5044, 0x5045, 0x6008, 0x7010, 0xA006]
          ∧ d.get (O.snkPathState p) = 4 ∧ d.get (O.lastFault p) = 1)
  ∧ (∀ (s : State) (a b v : BitVec 32), s.hub.pdOn = true → s.hub.get O.feedState ≠ 2 →
        Answers (.adcConversion (.feeds a b v)) s fun d => d.get O.faMv = a.toNat ∧ d.get O.fbMv = b.toNat ∧ d.get O.busMv = v.toNat
          ∧ d.get O.sagInputMv = (if 2 ≤ s.hub.get O.feedState then v.toNat else if s.hub.get O.feedSelected = 1 then a.toNat else b.toNat)
          ∧ OnlyRegs s.hub d [O.faMv, O.fbMv, O.busMv, O.sagInputMv])
  ∧ (∀ (s : State) (p : Port) (v a b : BitVec 32), s.hub.pdOn = true → s.hub.get (H.hrSink p) = 0 →
        Answers (.adcConversion (.voltages p v a b)) s fun d => d.get (O.vbusMv p) = v.toNat ∧ d.get (O.vsrcMv p) = a.toNat ∧ d.get (O.vsnkMv p) = b.toNat
          ∧ OnlyRegs s.hub d [O.vbusMv p, O.vsrcMv p, O.vsnkMv p])
  ∧ (∀ (s : State) (p : Port) (lo hi : Nat), s.hub.pdOn = true → s.hub.get (O.thermalMode p) ≠ 1 →
        Answers (.adcConversion (.diode p lo hi)) s fun d => d = s.hub)
  ∧ (∀ (s : State) (b : Bool), s.hub.pdOn = true → s.hub.get O.feedSelected = (if b then 2 else 1) → s.hub.get H.feedPhase = 0 →
        s.hub.get O.activationState = 0 → s.hub.flag (qualifiedObj (if b then 1 else 2)) = true →
        Answers (.feedQualify b) s fun d => d.flag (qualifiedObj (if b then 2 else 1)) = true ∧ d.get O.feedState = 0
          ∧ d.flag H.feedLost = false ∧ OnlyRegs s.hub d [qualifiedObj (if b then 2 else 1), O.feedState, H.feedLost, O.sagInputMv])
  ∧ (∀ (s : State) (b : Bool), s.hub.pdOn = true → s.hub.get O.feedSelected = (if b then 1 else 2) → s.hub.get H.feedPhase = 0 →
        s.hub.flag H.feedLost = true →
        Answers (.feedQualify b) s fun d => OnlyObjects s.hub d [O.feedSelected, O.feedState, O.sagInputMv, O.faQualified, O.fbQualified, O.busMinMv, O.activate, O.activationState, O.refusal, O.recordCrc 0, H.holdMark, H.handover, H.feedPhase, H.feedTarget, H.feedLost, H.convertedRecord, H.handoverAsked, H.reportFlags, H.recordGone]
          ∧ d.get H.feedPhase = 1 ∧ d.get H.feedTarget = (if b then 2 else 1) ∧ d.get H.feedLost = s.hub.get H.feedLost ∧ d.get O.feedState = 2)
  ∧ (∀ (s : State) (b : Bool) (cause : FeedLossCause), s.hub.pdOn = true → s.hub.get O.feedSelected = (if b then 1 else 2) → s.hub.get H.feedPhase = 0 →
        s.hub.get O.activationState = 0 →
        Answers (.feedLoss b cause) s fun d => OnlyIndexes s.hub d [0x1003, 0x1004, 0x1005, 0x1006, 0x1020, 0x2000, 0x2006, 0x2007, 0x2400, 0x2800, 0x2801, 0x2802, 0x2803, 0x2804, 0x2805, 0x2806, 0x2807, 0x2808, 0x3000, 0x3001, 0x3003, 0x3011, 0x3020, 0x3101, 0x4001, 0x4004, 0x4006, 0x4051, 0x4100, 0x4103, 0x4105, 0x4106, 0x4210, 0x4220, 0x4230, 0x4250, 0x5040, 0x5043, 0x5044, 0x5045, 0x6002, 0x6008, 0x7010, 0x9004, 0x9005, 0xA006]
          ∧ d.flag (qualifiedObj (if b then 2 else 1)) = false ∧ d.get O.feedState = 1 ∧ d.get O.feedSelected = s.hub.get O.feedSelected
          ∧ d.lines = s.hub.lines ++ (if cause = .undervoltage then [] else [⟨61, 255, if b then 2 else 1, s.hub.reactions⟩]))
  ∧ (∀ (s : State) (b : Bool) (cause : FeedLossCause), s.hub.pdOn = true → s.hub.get O.feedSelected = (if b then 2 else 1) → s.hub.get H.feedPhase = 0 →
        s.hub.flag (qualifiedObj (if b then 1 else 2)) = true → s.hub.get O.busMv < 2 ^ 32 →
        Answers (.feedLoss b cause) s fun d => OnlyIndexes s.hub d [0x1003, 0x1004, 0x1005, 0x1006, 0x1020, 0x2000, 0x2006, 0x2007, 0x2400, 0x2800, 0x2801, 0x2802, 0x2803, 0x2804, 0x2805, 0x2806, 0x2807, 0x2808, 0x3000, 0x3001, 0x3003, 0x3011, 0x3020, 0x3101, 0x4001, 0x4004, 0x4006, 0x4051, 0x4100, 0x4103, 0x4105, 0x4106, 0x4210, 0x4220, 0x4230, 0x4250, 0x5040, 0x5043, 0x5044, 0x5045, 0x6002, 0x6008, 0x7010, 0x9004, 0x9005, 0xA006]
          ∧ d.get H.feedPhase = 1 ∧ d.get H.feedTarget = (if b then 1 else 2) ∧ d.get O.busMinMv = s.hub.get O.busMv
          ∧ d.get O.feedState = 2)
  ∧ (∀ (s : State), s.hub.pdOn = true → s.hub.get H.feedPhase = 1 → s.hub.get O.deadTime < O.lastTransferGap.cap →
        Answers .feedDeadTimeExpiry s fun d => d.get H.feedPhase = 2 ∧ d.get O.lastTransferGap = s.hub.get O.deadTime
          ∧ OnlyRegs s.hub d [H.feedPhase, O.lastTransferGap])
  ∧ (∀ (s : State) (b : Bool), s.hub.pdOn = true → s.hub.get H.feedPhase = 2 → s.hub.get H.feedTarget = (if b then 2 else 1) →
        s.hub.get O.activationState = 0 → s.hub.get O.transfers < 2 ^ 32 - 1 →
        Answers .feedRampComplete s fun d => OnlyObjects s.hub d [O.feedSelected, O.feedState, O.sagInputMv, O.faQualified, O.fbQualified, O.transfers, O.activate, O.activationState, O.refusal, O.recordCrc 0, H.holdMark, H.handover, H.feedPhase, H.feedTarget, H.convertedRecord, H.feedLost]
          ∧ d.get O.feedSelected = (if b then 2 else 1) ∧ d.get H.feedPhase = 0 ∧ d.get O.transfers = s.hub.get O.transfers + 1
          ∧ d.get O.feedState ≤ 1)
  ∧ (∀ (s : State) (b : Bool), s.hub.pdOn = true → s.hub.flag O.autoRevert = true → s.hub.get H.feedPhase = 0 →
        s.hub.get O.feedPriority = (if b then 1 else 0) → s.hub.get O.feedSelected = (if b then 1 else 2) →
        s.hub.flag (qualifiedObj (if b then 2 else 1)) = true →
        Answers .feedRevert s fun d => OnlyObjects s.hub d [O.feedState, O.sagInputMv, O.faQualified, O.fbQualified, O.busMinMv, O.activate, O.activationState, O.refusal, O.recordCrc 0, H.holdMark, H.handover, H.feedPhase, H.feedTarget, H.feedLost, H.convertedRecord, H.handoverAsked, H.reportFlags, H.recordGone]
          ∧ d.get H.feedPhase = 1 ∧ d.get H.feedTarget = (if b then 2 else 1) ∧ d.get O.feedState = 2
          ∧ ∃ ls r, d.lines = ls ++ [⟨59, 255, if b then 2 else 1, r⟩])

  ∧ (∀ (s : State) (p : Port) (ma : Int) (dt : Nat), s.hub.pdOn = true → -2147483648 ≤ ma → ma < 2147483648 →
        -2147483648 ≤ (s.hub.get (O.vbusMv p) : Int) * ma / 1000 → (s.hub.get (O.vbusMv p) : Int) * ma / 1000 < 2147483648 →
        Answers (.adcConversion (.current p ma dt)) s fun d => OnlyObjects s.hub d [O.currentMa 0, O.powerMw 0, O.energyOut 0, O.energyIn 0, O.fetPowerMw 0, O.srcFetTemp 0, O.snkFetTemp 0, O.fetTempPeak 0, H.energyNj 0 0, H.rise 0 0, H.warned 0 0, H.sampleAt 0]
          ∧ d.getI (O.currentMa p) = ma ∧ d.getI (O.powerMw p) = (s.hub.get (O.vbusMv p) : Int) * ma / 1000
          ∧ d.get (H.sampleAt p) = s.hub.now % 2 ^ 64
          ∧ (s.hub.get (energyObj p ma) + (s.hub.get (H.energyNj p (pairOf ma)) + ((s.hub.get (O.vbusMv p) : Int) * ma / 1000).natAbs * dt) / 1000000 < 2 ^ 64 →
              d.get (energyObj p ma) = s.hub.get (energyObj p ma) + (s.hub.get (H.energyNj p (pairOf ma)) + ((s.hub.get (O.vbusMv p) : Int) * ma / 1000).natAbs * dt) / 1000000
              ∧ d.get (H.energyNj p (pairOf ma)) = (s.hub.get (H.energyNj p (pairOf ma)) + ((s.hub.get (O.vbusMv p) : Int) * ma / 1000).natAbs * dt) % 1000000)
          ∧ d.get (energyObj p (-1 - ma)) = s.hub.get (energyObj p (-1 - ma))
          ∧ d.get (O.fetPowerMw p) = (s.hub.dissipation p 0 ma.natAbs + s.hub.dissipation p 1 ma.natAbs) % 2 ^ 32
          ∧ ∀ k i : Nat, k < 2 → 1 ≤ i → i ≤ 3 → d.get (H.rise p (i + 4 * k))
              = ((s.hub.get (H.rise p (i + 4 * k)) : Int) + (1000 * s.hub.dissipation p k ma.natAbs * s.hub.fosterRth p i - s.hub.get (H.rise p (i + 4 * k)))
                * fosterStep dt (s.hub.fosterTau p i) / 2 ^ 32).toNat % 2 ^ 64)
  ∧ (∀ (s : State) (p : Port) (sink : Bool) (cmp : Comparators), s.hub.pdOn = true → s.hub.get (pathObj p (if sink then 1 else 0)) = 2 →
        s.hub.get (pathObj p (if sink then 0 else 1)) = 0 → cmp.fastTrip = false → s.hub.flag (H.fastLatch p) = false → cmp.inLimit = false → cmp.reverse = false →
        cmp.enhanced = true → 63 ≤ s.hub.get (H.outTicks p) → 0 < s.hub.get (O.faultTime p) →
        s.hub.fetTemp p (if sink then 1 else 0) < s.hub.getI (O.fetTempLimit p) → s.hub.sinkWanted p = sink → s.hub.flag (H.slewing p) = false →
        s.hub.get (H.pdx p) = 0 → cmp.srcGateLow = false → cmp.snkGateLow = false → cmp.vsafe0 = false →
        Answers (.powerPathTick p cmp) s fun d => d.flag (O.pg p) = true ∧ d.flag (O.inLimit p) = false ∧ d.get (O.faultTimer p) = 0
          ∧ OnlyRegs s.hub d [O.pg p, O.inLimit p, O.faultTimer p, H.outTicks p, H.fastLatch p])
  ∧ (∀ (s : State) (p : Port) (sink : Bool) (cmp : Comparators), s.hub.pdOn = true → s.hub.get (pathObj p (if sink then 1 else 0)) = 2 →
        s.hub.get (pathObj p (if sink then 0 else 1)) = 0 → cmp.fastTrip = false → s.hub.flag (H.fastLatch p) = false → cmp.inLimit = true → cmp.reverse = false →
        s.hub.get (O.faultTimer p) = 0 → 1 < s.hub.get (O.faultTime p) → s.hub.flag (O.inLimit p) = false → s.hub.get (O.limitEntries p) < 2 ^ 32 - 1 →
        s.hub.fetTemp p (if sink then 1 else 0) < s.hub.getI (O.fetTempLimit p) → s.hub.sinkWanted p = sink → s.hub.flag (H.slewing p) = false →
        s.hub.get (H.pdx p) = 0 → cmp.srcGateLow = false → cmp.snkGateLow = false → cmp.vsafe0 = false →
        Answers (.powerPathTick p cmp) s fun d => d.flag (O.pg p) = false ∧ d.flag (O.inLimit p) = true ∧ d.get (O.faultTimer p) = 1
          ∧ d.get (O.limitEntries p) = s.hub.get (O.limitEntries p) + 1 ∧ d.get (pathObj p (if sink then 1 else 0)) = 2
          ∧ OnlyRegs s.hub d [O.pg p, O.inLimit p, O.faultTimer p, O.limitEntries p, H.outTicks p, H.fastLatch p])

/-- A sink port asks for the PDO its policy chooses, and the contract comes into force with PS_RDY. With SINK_PPS_MV 0 the request names the
fixed PDO of the greatest power up to SINK_VMAX; after PS_RDY CONTRACT_STATE, CONTRACT_V and CONTRACT_I are those of the request. A Source
ignores Source_Capabilities outside an exchange. The layout of PDOs and requests is that of USB PD, from outside the spec
(notes/assumptions/24.md). -/
def Obligations.ContractAsSink : Prop :=
  (∀ (s : State) (p : Port) (pdos : List (BitVec 32)) (k pdo : Nat), s.hub.takesPd p = true → s.hub.isSource p = false →
      s.hub.get (H.pdx p) = 0 → s.hub.get (O.sinkPpsMv p) = 0 → s.hub.bestPdo p (pdos.map BitVec.toNat) = some (k, pdo) →
      s.hub.get (O.sinkPowerMin p) * 100000 ≤ pdoMv pdo * pdoSteps pdo →
      Answers (.sourceCapabilities p false pdos) s fun d => OnlyIndexes s.hub d [0x1003, 0x1004, 0x1005, 0x1006, 0x2000, 0x2006, 0x2007, 0x2400, 0x2800, 0x2801, 0x2803, 0x2806, 0x2807, 0x2808, 0x3101, 0x4001, 0x4004, 0x4006, 0x4051, 0x4100, 0x4103, 0x4105, 0x4106, 0x4250, 0x5040, 0x5043, 0x5044, 0x5045, 0x6008, 0x7010, 0xA006]
        ∧ Sends s.hub d [.pd p.val 0 (.request false (fixedRdo k (pdoSteps pdo) (s.hub.flag (O.sinkEpr p)) false))] ∧ d.get (H.pdx p) = 2
        ∧ d.flag (O.mismatch p) = false ∧ d.get (H.reqV p) = pdoMv pdo ∧ d.get (H.reqI p) = 10 * pdoSteps pdo
        ∧ d.get (O.contractState p) = s.hub.get (O.contractState p))
  ∧ (∀ (s : State) (p : Port) (pdos : List (BitVec 32)), s.hub.takesPd p = true → s.hub.isSource p = true → s.hub.get (H.pdx p) = 0 →
        Answers (.sourceCapabilities p false pdos) s fun d => d = s.hub)
  ∧ (∀ (s : State) (p : Port), s.hub.takesPd p = true → s.hub.get (H.pdx p) = 2 →
        s.hub.get (O.sinkOnMv p) ≤ s.hub.get (H.reqV p) → s.hub.flag (H.reqPps p) = false →
        Answers (.accept p) s fun d => d.get (H.pdx p) = 3 ∧ d.out = s.hub.out ∧ OnlyRegs s.hub d [H.pdx p, H.pdSeen p])
  ∧ (∀ (s : State) (p : Port), s.hub.takesPd p = true → s.hub.isSource p = false → s.hub.get (H.pdx p) = 6 → s.hub.flag (H.swapOwn p) = true →
        (s.hub.get (O.dataRole p) = 1 ∨ s.hub.get (O.dataRole p) = 2) →
        Answers (.accept p) s fun d => OnlyIndexes s.hub d [0x1003, 0x1004, 0x1005, 0x1006, 0x2000, 0x2006, 0x2007, 0x2400, 0x2800, 0x2801, 0x2806, 0x2807, 0x2808, 0x3101, 0x4001, 0x4004, 0x4006, 0x4051, 0x4100, 0x4103, 0x4105, 0x4106, 0x4250, 0x5040, 0x5043, 0x5044, 0x5045, 0x6008, 0x7010, 0xA006]
          ∧ d.get (O.dataRole p) = 3 - s.hub.get (O.dataRole p) ∧ d.get (O.swapResult p) = 1 ∧ d.get (O.swapRequest p) = 0
          ∧ d.get (H.pdx p) = 0)
  ∧ (∀ (s : State) (p : Port), s.hub.takesPd p = true → s.hub.isSource p = false → s.hub.get (H.pdx p) = 3 →
        s.hub.get (H.reqEpr p) ≤ 1 → s.hub.get (H.reqV p) < 2 ^ 32 → s.hub.get (H.reqI p) < 2 ^ 16 → s.hub.flag (H.srcEprCap p) = false → Settled s.hub p →
        Answers (.psRdy p) s fun d => OnlyIndexes s.hub d [0x1003, 0x1004, 0x1005, 0x1006, 0x2000, 0x2006, 0x2007, 0x2400, 0x2800, 0x2801, 0x2806, 0x2807, 0x2808, 0x3101, 0x4001, 0x4004, 0x4006, 0x4051, 0x4100, 0x4103, 0x4105, 0x4106, 0x4250, 0x5040, 0x5043, 0x5044, 0x5045, 0x6008, 0x7010, 0xA006]
          ∧ d.get (O.contractState p) = 2 + s.hub.get (H.reqEpr p) ∧ d.get (O.contractV p) = s.hub.get (H.reqV p)
          ∧ d.get (O.contractI p) = s.hub.get (H.reqI p) ∧ d.ilimNow p = min (s.hub.get (H.reqI p) * s.hub.get (O.ilimPct p) / 100) (s.hub.get (O.ilimCap p)) ∧ d.get (H.pdx p) = 0
          ∧ d.flag (H.modeDelayOn p) = true ∧ d.out = s.hub.out)
  ∧ (∀ (s : State) (p : Port), s.hub.takesPd p = true → s.hub.isSource p = false → s.hub.flag (H.ppsNow p) = true → s.hub.flag (H.childAsleep p) = false → s.hub.get (H.pdx p) = 0 →
        Answers (.ppsRequestTimer p) s fun d => OnlyObjects s.hub d [H.pdx 0, H.reqV 0, H.reqI 0, H.reqRdo 0, H.reqEpr 0, H.goodCrc 0 0, H.reqPps 0, H.msgId 0 0, H.eprLeft 0]
          ∧ Sends s.hub d [.pd p.val 0 (.request false (s.hub.get (O.contractRdo p)))] ∧ d.get (H.pdx p) = 2)
  ∧ (∀ (s : State) (p : Port), s.hub.takesPd p = true → s.hub.isSource p = false → s.hub.flag (H.inEpr p) = true → s.hub.flag (H.childAsleep p) = false →
        Answers (.sinkEprKeepaliveTimer p) s fun d => Sends s.hub d [.pd p.val 0 .eprKeepAlive] ∧ OnlyRegs s.hub d [H.goodCrc p 0, H.msgId p 0])

/-- A source port accepts what it offers, moves VBUS, keeps EPR alive, and offers capabilities. A request is accepted only for an offered
fixed PDO at no more than its current, and rejected else; after 50 unanswered offers the partner counts as Type-C only; a contract above 15
W at the stage 1 timeout gives a Hard Reset. The layout of PDOs and requests is that of USB PD, from outside the spec
(notes/assumptions/24.md). -/
def Obligations.ContractAsSource : Prop :=
  (∀ (s : State) (p : Port) (epr : Bool) (rdo : BitVec 32) (pdo : Nat), s.hub.takesPd p = true → s.hub.isSource p = true →
      s.hub.get (H.pdx p) ≤ 1 → 1 ≤ bits rdo.toNat 28 4 →
      (s.hub.sourcePdos p (s.hub.flag (H.inEpr p))).getD (bits rdo.toNat 28 4 - 1) 0 = pdo → bits pdo 30 2 = 0 → pdo ≠ 0 →
      bits rdo.toNat 10 10 ≤ bits pdo 0 10 → bits rdo.toNat 0 10 ≤ bits pdo 0 10 →
      Answers (.request p epr rdo) s fun d => OnlyIndexes s.hub d [0x1003, 0x1004, 0x1005, 0x1006, 0x2000, 0x2006, 0x2007, 0x2400, 0x2800, 0x2801, 0x2806, 0x2807, 0x2808, 0x3101, 0x4001, 0x4004, 0x4006, 0x4051, 0x4100, 0x4103, 0x4105, 0x4106, 0x4250, 0x5040, 0x5043, 0x5044, 0x5045, 0x6008, 0x7010, 0xA006]
        ∧ Sends s.hub d [.pd p.val 0 .accept] ∧ d.get (H.pdx p) = 4 ∧ d.get (H.reqV p) = 50 * bits pdo 10 10
        ∧ d.get (H.reqI p) = 10 * bits rdo.toNat 10 10 ∧ d.get (O.contractState p) = s.hub.get (O.contractState p))
  ∧ (∀ (s : State) (p : Port) (epr : Bool) (rdo : BitVec 32), s.hub.takesPd p = true → s.hub.isSource p = true →
        s.hub.get (H.pdx p) ≤ 1 → Settled s.hub p → bits rdo.toNat 28 4 = 0 →
        Answers (.request p epr rdo) s fun d => OnlyIndexes s.hub d [0x1003, 0x1004, 0x1005, 0x1006, 0x2000, 0x2006, 0x2007, 0x2400, 0x2800, 0x2801, 0x2806, 0x2807, 0x2808, 0x3101, 0x4001, 0x4004, 0x4006, 0x4051, 0x4100, 0x4103, 0x4105, 0x4106, 0x4250, 0x5040, 0x5043, 0x5044, 0x5045, 0x6008, 0x7010, 0xA006]
          ∧ Sends s.hub d [.pd p.val 0 .reject] ∧ d.get (H.pdx p) = 0 ∧ d.get (O.contractState p) = s.hub.get (O.contractState p))
  ∧ (∀ (s : State) (p : Port), s.hub.takesPd p = true → s.hub.isSource p = true → s.hub.get (H.pdx p) = 0 → s.hub.eprAllowed p = true →
        Answers (.eprModeEnter p) s fun d => OnlyIndexes s.hub d [0x1003, 0x1004, 0x1005, 0x1006, 0x2000, 0x2006, 0x2007, 0x2400, 0x2800, 0x2801, 0x2806, 0x2807, 0x2808, 0x3101, 0x4001, 0x4004, 0x4006, 0x4051, 0x4100, 0x4103, 0x4105, 0x4106, 0x4250, 0x5040, 0x5043, 0x5044, 0x5045, 0x6008, 0x7010, 0xA006]
          ∧ Sends s.hub d [.pd p.val 0 .eprEnterAck, .pd p.val 0 .eprSucceeded, .pd p.val 0 (.sourceCaps true (s.hub.sourcePdos p true))]
          ∧ d.flag (H.inEpr p) = true ∧ d.get (H.pdx p) = 1)
  ∧ (∀ (s : State) (p : Port), s.hub.takesPd p = true → s.hub.isSource p = true → s.hub.get (H.pdx p) = 0 →
        s.hub.eprAllowed p = false →
        Answers (.eprModeEnter p) s fun d => (∃ r, Sends s.hub d [.pd p.val 0 .eprEnterAck, .pd p.val 0 (.eprFailed r)])
          ∧ OnlyRegs s.hub d [H.pdSeen p, H.goodCrc p 0, H.msgId p 0])
  ∧ (∀ (s : State) (p : Port), s.hub.takesPd p = true → s.hub.get (O.attachState p) = 4 → s.hub.flag (H.inEpr p) = true →
        Answers (.eprModeExit p) s fun d => d.flag (H.inEpr p) = false ∧ OnlyRegs s.hub d [H.inEpr p, H.pdSeen p])
  ∧ (∀ (s : State) (p : Port), s.hub.takesPd p = true → s.hub.isSource p = true → s.hub.flag (H.inEpr p) = true →
        Answers (.eprKeepalive p) s fun d => Sends s.hub d [.pd p.val 0 .eprKeepAliveAck] ∧ OnlyRegs s.hub d [H.pdSeen p, H.goodCrc p 0, H.msgId p 0])
  ∧ (∀ (s : State) (p : Port), s.hub.pdOn = true → s.hub.get (H.pdx p) = 4 → s.hub.get (H.reqV p) < 2 ^ 32 →
        Answers (.srcTransitionTimer p) s fun d => d.get (H.convTarget p) = s.hub.get (H.reqV p) ∧ d.flag (H.slewing p) = true
          ∧ OnlyRegs s.hub d [H.convTarget p, H.slewing p])
  ∧ (∀ (s : State) (p : Port), s.hub.get (O.attachState p) = 3 → s.hub.isSource p = true → s.hub.get (O.contractState p) = 1 →
        s.hub.flag (H.pdSeen p) = false → s.hub.get (O.srcPathState p) = 2 → s.hub.pdOn = true → 50 ≤ s.hub.get (H.capCount p) →
        Answers (.sendSourceCapTimer p) s fun d => d.get (O.contractState p) = 4 ∧ d.get (O.entryResult p) = 8
          ∧ OnlyRegs s.hub d [O.contractState p, O.entryResult p, H.pdx p])
  ∧ (∀ (s : State) (p : Port), s.hub.get (O.attachState p) = 3 → s.hub.isSource p = true → s.hub.get (O.contractState p) = 1 →
        s.hub.flag (H.pdSeen p) = false → s.hub.get (O.srcPathState p) = 2 → s.hub.pdOn = true → s.hub.get (H.capCount p) < 50 →
        Answers (.sendSourceCapTimer p) s fun d => OnlyObjects s.hub d [O.contractState 0, O.entryResult 0, H.pdx 0, H.capCount 0, H.capsDue 0, H.goodCrc 0 0, H.msgId 0 0]
          ∧ Sends s.hub d [.pd p.val 0 (.sourceCaps (s.hub.flag (H.inEpr p)) (s.hub.sourcePdos p (s.hub.flag (H.inEpr p))))]
          ∧ d.get (H.capCount p) = s.hub.get (H.capCount p) + 1)
  ∧ (∀ (s : State) (p : Port), s.hub.pdOn = true → s.hub.get (H.stage1Cut p) = 1 → s.hub.isSource p = true → s.hub.explicit p = true →
        s.hub.get (O.contractV p) * s.hub.get (O.contractI p) ≤ 15000000 →
        Answers (.stage1ContractTimeout p) s fun d => d.get (H.stage1Cut p) = 0 ∧ OnlyRegs s.hub d [H.stage1Cut p])
  ∧ (∀ (s : State) (lvl : Level) (p : Port) (v : BitVec 16), s.hub.domainsOn = true → Engineers lvl → s.hub.handingOver = false →
        s.hub.get (O.attachState p) ≠ 3 → 500 ≤ v.toNat ∧ v.toNat ≤ 5000 → s.hub.inRom = false →
        Answers (.sourceSettingsWrite lvl p .currentMax v) s fun d => d.get (O.sourceCurrentMax p) = v.toNat
          ∧ Sends s.hub d [.status .ok] ∧ OnlyRegs s.hub d [O.sourceCurrentMax p])
  ∧ (∀ (s : State) (lvl : Level) (p : Port) (v : BitVec 16), s.hub.domainsOn = true → Engineers lvl → s.hub.handingOver = false → (v.toNat < 15
        ∨ 240 < v.toNat) → s.hub.inRom = false →
        Answers (.sourceSettingsWrite lvl p .powerMax v) s fun d => Sends s.hub d [.status .invalidValue] ∧ d.regs = s.hub.regs)

  ∧ (∀ (s : State) (p : Port) (epr : Bool) (rdo : BitVec 32) (pdo : Nat), s.hub.takesPd p = true → s.hub.isSource p = true →
        s.hub.get (H.pdx p) ≤ 1 → Settled s.hub p → 1 ≤ bits rdo.toNat 28 4 →
        (s.hub.sourcePdos p (s.hub.flag (H.inEpr p))).getD (bits rdo.toNat 28 4 - 1) 0 = pdo →
        (pdo = 0 ∨ bits pdo 30 2 ≠ 0 ∨ bits pdo 0 10 < bits rdo.toNat 10 10 ∨ bit rdo.toNat 26 = false ∧ bits pdo 0 10 < bits rdo.toNat 0 10) →
        Answers (.request p epr rdo) s fun d => OnlyIndexes s.hub d [0x1003, 0x1004, 0x1005, 0x1006, 0x2000, 0x2006, 0x2007, 0x2400, 0x2800, 0x2801, 0x2806, 0x2807, 0x2808, 0x3101, 0x4001, 0x4004, 0x4006, 0x4051, 0x4100, 0x4103, 0x4105, 0x4106, 0x4250, 0x5040, 0x5043, 0x5044, 0x5045, 0x6008, 0x7010, 0xA006]
          ∧ Sends s.hub d [.pd p.val 0 .reject] ∧ d.get (H.pdx p) = 0 ∧ d.get (O.contractState p) = s.hub.get (O.contractState p))
  ∧ (∀ (s : State) (p : Port), s.hub.pdOn = true → s.hub.get (H.stage1Cut p) = 1 → s.hub.isSource p = true →
        (s.hub.explicit p = false ∨ 15000000 < s.hub.get (O.contractV p) * s.hub.get (O.contractI p)) → s.hub.get (O.hardResetsSent p) + 1 < 2 ^ 32 →
        bits (s.hub.get (O.attachRoles p)) 0 2 = 1 →
        Answers (.stage1ContractTimeout p) s fun d => OnlyIndexes s.hub d [0x1003, 0x1004, 0x1005, 0x1006, 0x2000, 0x2006, 0x2007, 0x2400, 0x2800, 0x2801, 0x2802, 0x2806, 0x2807, 0x2808, 0x3101, 0x4001, 0x4004, 0x4006, 0x4051, 0x4100, 0x4103, 0x4105, 0x4106, 0x4250, 0x5040, 0x5043, 0x5044, 0x5045, 0x6008, 0x7010, 0xA006]
          ∧ d.get (H.stage1Cut p) = 0 ∧ d.get (O.hardResetsSent p) = s.hub.get (O.hardResetsSent p) + 1 ∧ Out.hardReset p.val ∈ d.out
          ∧ d.get (O.attachState p) = 3 ∧ d.get (O.powerRole p) = 1 ∧ (⟨45, p.val, 0, s.hub.reactions⟩ : Detection) ∈ d.lines)
/-- Soft Reset, Hard Reset and the timers that escalate them. A Hard Reset gives the port back the roles it attached with; a third Hard Reset
without a contract ends in ErrorRecovery. -/
def Obligations.PdResets : Prop :=
  (∀ (s : State) (p : Port), s.hub.takesPd p = true → s.hub.isSource p = false → s.hub.get (H.pdx p) = 0 → Settled s.hub p → s.hub.flag (H.swapOwn p) = false →
      s.hub.flag (H.childAsleep p) = false →
      Answers (.softReset p) s fun d => Sends s.hub d [.pd p.val 0 .accept] ∧ d.get (H.pdx p) = 0
        ∧ OnlyRegs s.hub d [H.pdx p, H.pdSeen p, H.goodCrc p 0, H.msgId p 0, H.msgId p 1, H.msgId p 2, H.slewing p])
  ∧ (∀ (s : State) (p : Port), s.hub.takesPd p = true → s.hub.get (H.hrSent p) ≠ 1 → s.hub.get (O.attachRoles p) = 10 →
        Answers (.hardReset p) s fun d => OnlyIndexes s.hub d [0x1003, 0x1004, 0x1005, 0x1006, 0x2000, 0x2006, 0x2007, 0x2400, 0x2800, 0x2801, 0x2806, 0x2807, 0x2808, 0x3101, 0x4001, 0x4004, 0x4006, 0x4051, 0x4100, 0x4103, 0x4105, 0x4106, 0x4250, 0x5040, 0x5043, 0x5044, 0x5045, 0x6008, 0x7010, 0xA006]
          ∧ d.get (O.attachState p) = 4 ∧ d.get (O.powerRole p) = 2 ∧ d.get (O.dataRole p) = 2 ∧ d.get (H.hrSink p) = 1)
  ∧ (∀ (s : State) (p : Port), s.hub.pdOn = true → s.hub.get (H.hrSent p) = 1 → Answers (.hardReset p) s fun d => d = s.hub)
  ∧ (∀ (s : State) (p : Port), s.hub.pdOn = true → s.hub.get (H.pdx p) = 2 → s.hub.flag (H.childAsleep p) = false → s.hub.normal p = true → s.hub.get (O.contractState p) ≠ 4 → s.hub.get (O.softResets p) < 2 ^ 32 - 1 →
        Answers (.senderResponseTimer p) s fun d => OnlyIndexes s.hub d [0x1003, 0x1004, 0x1005, 0x1006, 0x2000, 0x2006, 0x2007, 0x2400, 0x2800, 0x2801, 0x2806, 0x2807, 0x2808, 0x3101, 0x4001, 0x4004, 0x4006, 0x4051, 0x4100, 0x4103, 0x4105, 0x4106, 0x4250, 0x5040, 0x5043, 0x5044, 0x5045, 0x6008, 0x7010, 0xA006]
          ∧ Sends s.hub d [.pd p.val 0 .softReset] ∧ d.get (H.pdx p) = 15 ∧ d.get (O.softResets p) = s.hub.get (O.softResets p) + 1
          ∧ d.lines = s.hub.lines ++ [⟨49, p.val, 0, s.hub.reactions⟩])
  ∧ (∀ (s : State) (p : Port), s.hub.pdOn = true → s.hub.get (H.pdx p) = 1 → s.hub.flag (H.pdSeen p) = false → Settled s.hub p → s.hub.flag (H.swapOwn p) = false →
        Answers (.senderResponseTimer p) s fun d => d.get (H.pdx p) = 0 ∧ d.out = s.hub.out ∧ OnlyRegs s.hub d [H.pdx p])
  ∧ (∀ (s : State) (p : Port), s.hub.pdOn = true → ((s.hub.get (H.pdx p) = 3 ∧ s.hub.normal p = true) ∨ s.hub.get (H.pdx p) = 9 ∨ s.hub.get (H.pdx p) = 10
        ∨ s.hub.get (H.pdx p) = 11) → s.hub.get (O.attachRoles p) = 21 →
        Answers (.psTransitionTimer p) s fun d => OnlyIndexes s.hub d [0x1003, 0x1004, 0x1005, 0x1006, 0x2000, 0x2006, 0x2007, 0x2400, 0x2800, 0x2801, 0x2802, 0x2806, 0x2807, 0x2808, 0x3101, 0x4001, 0x4004, 0x4006, 0x4051, 0x4100, 0x4103, 0x4105, 0x4106, 0x4250, 0x5040, 0x5043, 0x5044, 0x5045, 0x6008, 0x7010, 0xA006]
          ∧ d.get (O.attachState p) = 3 ∧ d.get (O.powerRole p) = 1 ∧ d.get (O.dataRole p) = 1 ∧ d.get (H.srcRecover p) = 1)
  ∧ (∀ (s : State) (p : Port), s.hub.pdOn = true → s.hub.attached p = true → s.hub.get (O.contractState p) = 1 → s.hub.get (O.hardResetRun p) = 3 →
        Answers (.noResponseTimer p) s fun d => OnlyIndexes s.hub d [0x1003, 0x1004, 0x1005, 0x1006, 0x2000, 0x2006, 0x2007, 0x2400, 0x2800, 0x2801, 0x2806, 0x2807, 0x2808, 0x3101, 0x4001, 0x4004, 0x4006, 0x4051, 0x4100, 0x4103, 0x4105, 0x4106, 0x4250, 0x5040, 0x5043, 0x5044, 0x5045, 0x6008, 0x7010, 0xA006]
          ∧ d.get (O.attachState p) = 5 ∧ d.get (O.hardResetRun p) = 0)
  ∧ (∀ (s : State) (p : Port), s.hub.pdOn = true → s.hub.get (H.srcRecover p) = 1 → s.hub.flag (H.vconnSource p) = false →
        Answers (.srcRecoverTimer p) s fun d => OnlyObjects s.hub d [O.vconnState 0, O.contractState 0, O.contractV 0, O.contractI 0, O.contractRdo 0, H.capsDue 0, H.srcRecover 0, H.hrSent 0, H.srcWanted 0, H.convState 0, H.convTarget 0, H.slewing 0, H.disch 0, H.snkBlocked 0, H.ppsNow 0, H.srcReversed 0]
          ∧ d.get (O.contractState p) = 1 ∧ d.get (O.contractV p) = 5000 ∧ d.get (H.convState p) = 1 ∧ d.get (H.convTarget p) = 5000
          ∧ d.flag (H.srcWanted p) = true ∧ d.flag (H.capsDue p) = true ∧ d.get (H.srcRecover p) = 0)
  ∧ (∀ (s : State) (p : Port), s.hub.takesPd p = true → s.hub.isSource p = true → s.hub.flag (H.inEpr p) = true → s.hub.normal p = true →
        s.hub.get (O.attachRoles p) = 21 →
        Answers (.sourceEprKeepaliveTimer p) s fun d => OnlyIndexes s.hub d [0x1003, 0x1004, 0x1005, 0x1006, 0x2000, 0x2006, 0x2007, 0x2400, 0x2800, 0x2801, 0x2802, 0x2806, 0x2807, 0x2808, 0x3101, 0x4001, 0x4004, 0x4006, 0x4051, 0x4100, 0x4103, 0x4105, 0x4106, 0x4250, 0x5040, 0x5043, 0x5044, 0x5045, 0x6008, 0x7010, 0xA006]
          ∧ d.get (O.attachState p) = 3 ∧ d.get (O.powerRole p) = 1 ∧ d.get (H.srcRecover p) = 1)
  ∧ (∀ (s : State) (p : Port) (sop : Fin 3), s.hub.pdOn = true → s.hub.get (H.goodCrc p sop) < 2 → (sop = 0 ∨ s.hub.get (O.vconnState p) = 1) →
        Answers (.goodcrcTimeout p sop) s fun d => d.get (H.goodCrc p sop) = s.hub.get (H.goodCrc p sop) + 1
          ∧ Sends s.hub d [.pd p.val sop.val .again] ∧ OnlyRegs s.hub d [H.goodCrc p sop])
  ∧ (∀ (s : State) (p : Port) (sop : Fin 3), s.hub.pdOn = true → (2 ≤ s.hub.get (H.goodCrc p sop) ∨ s.hub.get (O.vconnState p) ≠ 1) → sop ≠ 0 →
        Answers (.goodcrcTimeout p sop) s fun d => d.get (H.goodCrc p sop) = 0 ∧ d.out = s.hub.out ∧ OnlyRegs s.hub d [H.goodCrc p sop])

/-- Swaps are asked for, accepted, refused, made to wait and tried again. A partner's request is accepted where SWAP_ACCEPT has its bit and
the port's policy and mode allow it; the port's own ends with SWAP_RESULT and SWAP_REQUEST 00h. -/
def Obligations.SwapCommands : Prop :=
  (∀ (s : State) (p : Port), s.hub.takesPd p = true → s.hub.isSource p = true → s.hub.get (H.pdx p) = 0 →
      s.hub.get (O.modeState p) = 0 → bit (s.hub.get (O.swapAccept p)) 0 = true → 2 ≤ s.hub.get (O.policy p) →
      Answers (.prSwap p) s fun d => Sends s.hub d [.pd p.val 0 .accept] ∧ d.get (H.pdx p) = 8
        ∧ OnlyRegs s.hub d [H.pdx p, H.pdSeen p, H.goodCrc p 0, H.msgId p 0])
  ∧ (∀ (s : State) (p : Port), s.hub.takesPd p = true → s.hub.get (H.pdx p) = 0 → s.hub.get (O.modeState p) = 2 →
        Answers (.prSwap p) s fun d => Sends s.hub d [.pd p.val 0 .reject] ∧ OnlyRegs s.hub d [H.pdSeen p, H.goodCrc p 0, H.msgId p 0])
  ∧ (∀ (s : State) (p : Port), s.hub.takesPd p = true → s.hub.get (H.pdx p) = 0 → s.hub.get (O.modeState p) = 0 →
        bit (s.hub.get (O.swapAccept p)) 1 = true → 2 ≤ s.hub.get (O.policy p) → (s.hub.get (O.dataRole p) = 1
        ∨ s.hub.get (O.dataRole p) = 2) →
        Answers (.drSwap p) s fun d => Sends s.hub d [.pd p.val 0 .accept] ∧ d.get (O.dataRole p) = 3 - s.hub.get (O.dataRole p)
          ∧ OnlyRegs s.hub d [O.dataRole p, H.pdSeen p, H.goodCrc p 0, H.msgId p 0])
  ∧ (∀ (s : State) (p : Port), s.hub.takesPd p = true → s.hub.exchanging p = false → s.hub.inRom = false →
        bit (s.hub.get (O.swapAccept p)) 2 = true → s.hub.get (O.vconnState p) ≠ 2 → s.hub.flag (H.vconnSource p) = true →
        Answers (.vconnSwap p) s fun d => Sends s.hub d [.pd p.val 0 .accept] ∧ d.get (H.pdx p) = 12
          ∧ OnlyRegs s.hub d [H.pdx p, H.pdSeen p, H.goodCrc p 0, H.msgId p 0])
  ∧ (∀ (s : State) (lvl : Level) (p : Port), s.hub.domainsOn = true → Engineers lvl → s.hub.handingOver = false → s.hub.takesPd p = true →
        s.hub.get (H.pdx p) = 0 → s.hub.get (O.modeState p) = 0 → s.hub.get (O.swapRequest p) = 0 → s.hub.inRom = false → s.hub.flag (H.childAsleep p) = false →
        Answers (.swapRequestPrSwap lvl p) s fun d => OnlyObjects s.hub d [O.swapRequest 0, O.swapResult 0, H.pdx 0, H.swapTries 0, H.swapWait 0, H.goodCrc 0 0, H.msgId 0 0, H.swapOwn 0]
          ∧ Sends s.hub d [.pd p.val 0 .prSwap, .status .ok] ∧ d.get (O.swapRequest p) = 1 ∧ d.get (O.swapResult p) = 0
          ∧ d.get (H.pdx p) = 5)
  ∧ (∀ (s : State) (lvl : Level) (p : Port), s.hub.domainsOn = true → Engineers lvl → s.hub.handingOver = false → s.hub.get (O.modeState p) = 2 →
        s.hub.inRom = false →
        Answers (.swapRequestPrSwap lvl p) s fun d => Sends s.hub d [.status .busy] ∧ d.get (O.swapResult p) = 4
          ∧ OnlyRegs s.hub d [O.swapResult p])
  ∧ (∀ (s : State) (lvl : Level) (p : Port), s.hub.domainsOn = true → Engineers lvl → s.hub.handingOver = false → s.hub.takesPd p = true →
        s.hub.get (H.pdx p) = 0 → s.hub.get (O.modeState p) = 0 → s.hub.get (O.swapRequest p) = 0 → s.hub.inRom = false → s.hub.flag (H.childAsleep p) = false →
        Answers (.swapRequestDrSwap lvl p) s fun d => OnlyObjects s.hub d [O.swapRequest 0, O.swapResult 0, H.pdx 0, H.swapTries 0, H.swapWait 0, H.goodCrc 0 0, H.msgId 0 0, H.swapOwn 0]
          ∧ Sends s.hub d [.pd p.val 0 .drSwap, .status .ok] ∧ d.get (O.swapRequest p) = 2 ∧ d.get (H.pdx p) = 6)
  ∧ (∀ (s : State) (lvl : Level) (p : Port), s.hub.domainsOn = true → Engineers lvl → s.hub.handingOver = false → s.hub.takesPd p = true →
        s.hub.get (H.pdx p) = 0 → s.hub.get (O.modeState p) = 2 → s.hub.get (O.swapRequest p) = 0 → s.hub.inRom = false → s.hub.flag (H.childAsleep p) = false →
        Answers (.swapRequestVconnSwap lvl p) s fun d => OnlyObjects s.hub d [O.swapRequest 0, O.swapResult 0, H.pdx 0, H.swapTries 0, H.swapWait 0, H.goodCrc 0 0, H.msgId 0 0, H.swapOwn 0]
          ∧ Sends s.hub d [.pd p.val 0 .vconnSwap, .status .ok] ∧ d.get (O.swapRequest p) = 3 ∧ d.get (H.pdx p) = 7)
  ∧ (∀ (s : State) (p : Port), s.hub.takesPd p = true → s.hub.isSource p = false → (s.hub.get (H.pdx p) = 5 ∨ s.hub.get (H.pdx p) = 6
        ∨ s.hub.get (H.pdx p) = 7) →
        Answers (.pdWait p) s fun d => d.flag (H.swapWait p) = true ∧ d.get (H.pdx p) = 0
          ∧ OnlyRegs s.hub d [H.swapWait p, H.pdx p, H.pdSeen p, H.swapOwn p, H.sagDue p, H.pdHeld p])
  ∧ (∀ (s : State) (p : Port), s.hub.takesPd p = true → s.hub.isSource p = false → (s.hub.get (H.pdx p) = 5 ∨ s.hub.get (H.pdx p) = 6
        ∨ s.hub.get (H.pdx p) = 7) →
        Answers (.reject p) s fun d => OnlyIndexes s.hub d [0x1003, 0x1004, 0x1005, 0x1006, 0x2000, 0x2006, 0x2007, 0x2400, 0x2800, 0x2801, 0x2806, 0x2807, 0x2808, 0x3101, 0x4001, 0x4004, 0x4006, 0x4051, 0x4100, 0x4103, 0x4105, 0x4106, 0x4250, 0x5040, 0x5043, 0x5044, 0x5045, 0x6008, 0x7010, 0xA006]
          ∧ d.get (O.swapResult p) = 2 ∧ d.get (O.swapRequest p) = 0 ∧ d.get (H.pdx p) = 0)
  ∧ (∀ (s : State) (p : Port), s.hub.takesPd p = true → s.hub.flag (H.swapWait p) = true → s.hub.get (O.swapRequest p) = 2 →
        s.hub.get (H.swapTries p) < s.hub.get (O.swapRetries p) → s.hub.get (H.pdx p) = 0 → s.hub.get (O.modeState p) = 0 → s.hub.flag (H.childAsleep p) = false →
        Answers (.swapRetryTimer p) s fun d => OnlyObjects s.hub d [O.swapRequest 0, O.swapResult 0, H.pdx 0, H.swapTries 0, H.swapWait 0, H.goodCrc 0 0, H.msgId 0 0, H.swapOwn 0]
          ∧ Sends s.hub d [.pd p.val 0 .drSwap] ∧ d.flag (H.swapWait p) = false ∧ d.get (H.pdx p) = 6)
  ∧ (∀ (s : State) (p : Port), s.hub.takesPd p = true → s.hub.get (H.swapWait p) = 1 → s.hub.get (O.swapRequest p) ≠ 0 →
        s.hub.exchanging p = false → s.hub.flag (H.childAsleep p) = false →
        s.hub.get (O.swapRetries p) ≤ s.hub.get (H.swapTries p) →
        Answers (.swapRetryTimer p) s fun d => d.get (O.swapResult p) = 3 ∧ d.get (O.swapRequest p) = 0 ∧ d.out = s.hub.out
          ∧ OnlyRegs s.hub d [O.swapResult p, O.swapRequest p, H.swapTries p, H.swapWait p, H.swapOwn p])

/-- The cable marker, VCONN, and the queries every port answers. Four unanswered tries mean a cable without a marker: 3 A, 20 V. What the spec
leaves to the standard in Sink_Capabilities and Status is free: the statement holds for every content. -/
def Obligations.CableAndQueries : Prop :=
  (∀ (s : State) (p : Port), s.hub.flag (H.vconnSource p) = true → s.hub.get (O.vconnState p) = 1 → s.hub.pdOn = true →
      Answers (.vconnStableTimer p) s fun d => Sends s.hub d [.pd p.val 1 .discoverIdentity]
        ∧ OnlyRegs s.hub d [H.cableTries p, H.goodCrc p 1, H.cableAsked p, H.msgId p 1])
  ∧ (∀ (s : State) (p : Port), s.hub.flag (H.vconnSource p) = true → s.hub.get (O.vconnState p) = 1 → s.hub.pdOn = true →
        s.hub.flag (H.cableAsked p) = true → 3 ≤ s.hub.get (H.cableTries p) → s.hub.get (O.attachState p) = 4 →
        Answers (.cableDiscoveryRetry p) s fun d => OnlyObjects s.hub d [O.cableState 0, O.cableCurrent 0, O.cableVmax 0, O.cableEpr 0, H.pdx 0, H.capsDue 0, H.goodCrc 0 0, H.cableTries 0, H.cableAsked 0]
          ∧ d.get (O.cableState p) = 1 ∧ d.get (O.cableCurrent p) = 3000 ∧ d.get (O.cableVmax p) = 20 ∧ d.flag (O.cableEpr p) = false
          ∧ d.out = s.hub.out)
  ∧ (∀ (s : State) (p : Port) (m : CableMarker), s.hub.flag (H.vconnSource p) = true → s.hub.get (O.vconnState p) = 1 →
        s.hub.pdOn = true → m.sopPP = false → m.active = false → s.hub.get (O.attachState p) = 4 → m.speed ≠ 0 →
        Answers (.cableIdentity p m) s fun d => OnlyObjects s.hub d [O.cableState 0, O.cableCurrent 0, O.cableVmax 0, O.cableEpr 0, O.cableSpeed 0, O.cableVdo 0, O.cableSopppId 0, O.entryResult 0, H.pdx 0, H.capsDue 0, H.goodCrc 0 0, H.cableAsked 0]
          ∧ d.get (O.cableState p) = 2 ∧ d.get (O.cableCurrent p) = (if m.fiveAmps then 5000 else 3000)
          ∧ d.get (O.cableVmax p) = 20 + 10 * m.vmax.val ∧ d.flag (O.cableEpr p) = m.epr ∧ d.get (O.cableSpeed p) = m.speed.toNat
          ∧ d.get (O.cableVdo p) = m.vdo.toNat)
  ∧ (∀ (s : State) (p : Port) (ma : BitVec 16), s.hub.pdOn = true → s.hub.get (O.vconnState p) = 1 → 350 < ma.toNat →
        Answers (.vconnOvercurrent p ma) s fun d => OnlyObjects s.hub d [O.vconnState 0, O.vconnCurrent 0, O.vconnFaults 0]
          ∧ d.get (O.vconnState p) = 2 ∧ d.get (O.vconnCurrent p) = ma.toNat ∧ d.get (O.contractState p) = s.hub.get (O.contractState p)
          ∧ d.lines = s.hub.lines ++ [⟨47, p.val, 0, s.hub.reactions⟩])
  ∧ (∀ (s : State) (p : Port) (ma : BitVec 16), s.hub.pdOn = true → s.hub.get (O.vconnState p) = 1 → ma.toNat ≤ 350 →
        Answers (.vconnOvercurrent p ma) s fun d => OnlyRegs s.hub d [O.vconnCurrent p] ∧ d.lines = s.hub.lines)
  ∧ (∀ (s : State) (p : Port), s.hub.takesPd p = true → s.hub.isSource p = false →
        Answers (.getSourceCap p) s fun d => Sends s.hub d [.pd p.val 0 (.sourceCaps false (s.hub.sourcePdos p false))]
          ∧ OnlyRegs s.hub d [H.pdSeen p, H.goodCrc p 0, H.msgId p 0])
  ∧ (∀ (s : State) (p : Port), s.hub.takesPd p = true →
        Answers (.getSinkCap p) s fun d => (∃ v, Sends s.hub d [.pd p.val 0 (.sinkCaps v)])
          ∧ OnlyRegs s.hub d [H.pdSeen p, H.goodCrc p 0, H.msgId p 0])
  ∧ (∀ (s : State) (p : Port), s.hub.takesPd p = true →
        Answers (.getRevision p) s fun d => Sends s.hub d [.pd p.val 0 (.revision 0x32)] ∧ OnlyRegs s.hub d [H.pdSeen p, H.goodCrc p 0, H.msgId p 0])
  ∧ (∀ (s : State) (p : Port), s.hub.takesPd p = true →
        Answers (.getStatus p) s fun d => (∃ v, Sends s.hub d [.pd p.val 0 (.status v)]) ∧ OnlyRegs s.hub d [H.pdSeen p, H.goodCrc p 0, H.msgId p 0])
  ∧ (∀ (s : State) (p : Port) (m : BitVec 8), s.hub.takesPd p = true →
        Answers (.pdUnsupported p 0 m) s fun d => Sends s.hub d [.pd p.val 0 .notSupported]
          ∧ OnlyRegs s.hub d [H.pdSeen p, H.goodCrc p 0, H.msgId p 0])
  ∧ (∀ (s : State) (p : Port) (sop : Fin 3) (m : BitVec 8), s.hub.pdOn = true → sop ≠ 0 → Answers (.pdUnsupported p sop m) s fun d => d = s.hub)

/-- Epolarex Link mode is discovered, entered and left. Only SVID 3B5Eh is answered; the UFP enters at object position 1 with EPX_ENABLE
true; the mode ends with the lanes Off. The layout of the ID Header is that of USB PD, from outside the spec (notes/assumptions/24.md). -/
def Obligations.ModeEntryCommands : Prop :=
  (∀ (s : State) (p : Port), s.hub.takesPd p = true →
      Answers (.discoverIdentity p) s fun d => Sends s.hub d [.vdm p.val (.ackIdentity (2 ^ 27 + 2 ^ 23 + 0x3B5E) 0 0x246000B1)]
        ∧ OnlyRegs s.hub d [H.pdSeen p, H.goodCrc p 0, H.msgId p 0])
  ∧ (∀ (s : State) (p : Port), s.hub.takesPd p = true →
        Answers (.discoverSvids p) s fun d => Sends s.hub d [.vdm p.val (.ackSvids [0x3B5E])] ∧ OnlyRegs s.hub d [H.pdSeen p, H.goodCrc p 0, H.msgId p 0])
  ∧ (∀ (s : State) (p : Port) (svid : BitVec 16), s.hub.takesPd p = true → svid = 0x3B5E →
        Answers (.discoverModes p svid) s fun d => Sends s.hub d [.vdm p.val (.ackModes 0x3B5E [s.hub.modeVdo p])]
          ∧ OnlyRegs s.hub d [H.pdSeen p, H.goodCrc p 0, H.msgId p 0])
  ∧ (∀ (s : State) (p : Port) (svid : BitVec 16), s.hub.pdOn = true → svid ≠ 0x3B5E → Answers (.discoverModes p svid) s fun d => d = s.hub)
  ∧ (∀ (s : State) (p : Port) (vdo : BitVec 32), s.hub.takesPd p = true → s.hub.get (O.dataRole p) = 2 → bits vdo.toNat 8 8 = 1 →
        s.hub.flag (O.epxEnable p) = true → s.hub.modeAllowed p = true →
        Answers (.enterMode p 0x3B5E 1 vdo) s fun d => OnlyIndexes s.hub d [0x2000, 0x2006, 0x2400, 0x2805, 0x2806, 0x7010]
          ∧ d.get (O.modeState p) = 2 ∧ d.get (O.entryResult p) = 1 ∧ d.get (O.partnerModeVdo p) = vdo.toNat)
  ∧ (∀ (s : State) (p : Port) (vdo : BitVec 32), s.hub.takesPd p = true → s.hub.get (O.dataRole p) = 2 → bits vdo.toNat 8 8 = 1 →
        s.hub.flag (O.epxEnable p) = false →
        Answers (.enterMode p 0x3B5E 1 vdo) s fun d => OnlyIndexes s.hub d [0x2000, 0x2006, 0x2400, 0x2805, 0x2806, 0x7010]
          ∧ Sends s.hub d [.vdm p.val (.nak 4)] ∧ d.get (O.entryResult p) = 6 ∧ d.get (O.modeState p) = s.hub.get (O.modeState p))
  ∧ (∀ (s : State) (p : Port), s.hub.takesPd p = true → s.hub.get (O.modeState p) = 2 → s.hub.get (O.trainState p) ≠ 11 →
        s.hub.get (O.linkState p) = 1 →
        Answers (.exitMode p 0x3B5E) s fun d => OnlyIndexes s.hub d [0x1003, 0x1004, 0x1005, 0x1006, 0x2000, 0x2006, 0x2007, 0x2400, 0x2806, 0x4001, 0x4004, 0x4006, 0x4051, 0x4100, 0x4103, 0x4105, 0x4106, 0x4250, 0x5040, 0x5043, 0x5044, 0x5045, 0x6008, 0x7010, 0xA006]
          ∧ d.get (O.modeState p) = 0 ∧ d.get (O.trainState p) = 0 ∧ d.get (O.linkState p) = 0 ∧ d.get (H.vdmStep p) = 0)
  ∧ (∀ (s : State) (p : Port) (vdo : BitVec 32), s.hub.takesPd p = true → s.hub.get (O.dataRole p) = 1 →
        s.hub.get (O.modeState p) = 2 → bits vdo.toNat 0 8 = 1 →
        Answers (.attention p 0x3B5E vdo) s fun d => Sends s.hub d [.vdm p.val (.exitMode 0x3B5E)] ∧ d.get (O.modeState p) = 3
          ∧ d.get (H.vdmStep p) = 5 ∧ OnlyRegs s.hub d [O.modeState p, H.vdmStep p, H.pdSeen p, H.goodCrc p 0, H.msgId p 0])
  ∧ (∀ (s : State) (p : Port), s.hub.flag (H.modeDelayOn p) = true → s.hub.takesPd p = true → s.hub.explicit p = true →
        s.hub.get (O.dataRole p) = 1 → s.hub.get (O.modeState p) = 0 → s.hub.get (H.pdx p) = 0 → s.hub.flag (O.epxEnable p) = true →
        s.hub.get (O.cableState p) = 1 → s.hub.get (O.entryResult p) = 0 → s.hub.modeAllowed p = true →
        Answers (.modeEntryDelay p) s fun d => OnlyIndexes s.hub d [0x2000, 0x2006, 0x2400, 0x2806, 0x7010]
          ∧ Sends s.hub d [.vdm p.val .discoverIdentity] ∧ d.get (O.modeState p) = 1 ∧ d.get (H.vdmStep p) = 1)
  ∧ (∀ (s : State) (p : Port) (x : BitVec 32), s.hub.pdOn = true → s.hub.get (H.vdmStep p) = 1 → s.hub.modeAllowed p = true →
        Answers (.vdmAnswer p (.identity x)) s fun d => OnlyIndexes s.hub d [0x1003, 0x1004, 0x1005, 0x1006, 0x2000, 0x2006, 0x2007, 0x2400, 0x2805, 0x2806, 0x4001, 0x4004, 0x4006, 0x4051, 0x4100, 0x4103, 0x4105, 0x4106, 0x4250, 0x5040, 0x5043, 0x5044, 0x5045, 0x6008, 0x7010, 0xA006]
          ∧ Sends s.hub d [.vdm p.val .discoverSvids] ∧ d.get (O.partnerIdHeader p) = x.toNat ∧ d.get (H.vdmStep p) = 2)
  ∧ (∀ (s : State) (p : Port) (xs : List (BitVec 16)), s.hub.pdOn = true → s.hub.get (H.vdmStep p) = 2 → s.hub.modeAllowed p = true → (0x3B5E : BitVec 16) ∈ xs →
        Answers (.vdmAnswer p (.svids xs)) s fun d => OnlyIndexes s.hub d [0x1003, 0x1004, 0x1005, 0x1006, 0x2000, 0x2006, 0x2007, 0x2400, 0x2805, 0x2806, 0x4001, 0x4004, 0x4006, 0x4051, 0x4100, 0x4103, 0x4105, 0x4106, 0x4250, 0x5040, 0x5043, 0x5044, 0x5045, 0x6008, 0x7010, 0xA006]
          ∧ Sends s.hub d [.vdm p.val (.discoverModes 0x3B5E)] ∧ d.get (H.vdmStep p) = 3)
  ∧ (∀ (s : State) (p : Port) (xs : List (BitVec 16)), s.hub.pdOn = true → s.hub.get (H.vdmStep p) = 2 → s.hub.modeAllowed p = true → (0x3B5E : BitVec 16) ∉ xs → Settled s.hub p →
        Answers (.vdmAnswer p (.svids xs)) s fun d => OnlyIndexes s.hub d [0x1003, 0x1004, 0x1005, 0x1006, 0x2000, 0x2006, 0x2007, 0x2400, 0x2805, 0x2806, 0x4001, 0x4004, 0x4006, 0x4051, 0x4100, 0x4103, 0x4105, 0x4106, 0x4250, 0x5040, 0x5043, 0x5044, 0x5045, 0x6008, 0x7010, 0xA006]
          ∧ d.out = s.hub.out ∧ d.get (O.entryResult p) = 2 ∧ d.get (O.modeState p) = 0 ∧ d.get (H.vdmStep p) = 0)
  ∧ (∀ (s : State) (p : Port), s.hub.pdOn = true → s.hub.explicit p = true → s.hub.get (O.dataRole p) = 2 → s.hub.get (O.modeState p) = 0 →
        s.hub.get (O.entryResult p) = 0 → s.hub.flag (H.entryWaitOn p) = true →
        Answers (.entryWait p) s fun d => d.get (O.entryResult p) = 2 ∧ d.lines = s.hub.lines ∧ OnlyRegs s.hub d [O.entryResult p, H.entryWaitOn p])
  ∧ (∀ (s : State) (p : Port), s.hub.pdOn = true → s.hub.get (H.vdmStep p) = 3 → s.hub.get (H.vdmTries p) < 3 →
        Answers (.vdmResponseTimeout p) s fun d => OnlyIndexes s.hub d [0x1003, 0x1004, 0x1005, 0x1006, 0x2000, 0x2006, 0x2007, 0x2400, 0x2806, 0x4001, 0x4004, 0x4006, 0x4051, 0x4100, 0x4103, 0x4105, 0x4106, 0x4250, 0x5040, 0x5043, 0x5044, 0x5045, 0x6008, 0x7010, 0xA006]
          ∧ Sends s.hub d [.vdm p.val (.discoverModes 0x3B5E)] ∧ d.get (O.entryResult p) = 4
          ∧ d.get (H.vdmTries p) = s.hub.get (H.vdmTries p) + 1 ∧ d.lines = s.hub.lines ++ [⟨48, p.val, 4, s.hub.reactions⟩])
  ∧ (∀ (s : State) (p : Port), s.hub.pdOn = true → s.hub.get (H.vdmStep p) = 3 → 3 ≤ s.hub.get (H.vdmTries p) → Settled s.hub p →
        Answers (.vdmResponseTimeout p) s fun d => OnlyIndexes s.hub d [0x1003, 0x1004, 0x1005, 0x1006, 0x2000, 0x2006, 0x2007, 0x2400, 0x2806, 0x4001, 0x4004, 0x4006, 0x4051, 0x4100, 0x4103, 0x4105, 0x4106, 0x4250, 0x5040, 0x5043, 0x5044, 0x5045, 0x6008, 0x7010, 0xA006]
          ∧ d.out = s.hub.out ∧ d.get (O.entryResult p) = 2 ∧ d.get (O.modeState p) = 0 ∧ d.get (H.vdmStep p) = 0)
  ∧ (∀ (s : State) (lvl : Level) (p : Port), s.hub.domainsOn = true → Engineers lvl → s.hub.handingOver = false → s.hub.get (O.modeState p) = 2 →
        s.hub.get (O.dataRole p) = 1 → s.hub.inRom = false → s.hub.flag (H.childAsleep p) = false →
        Answers (.epxEnableWrite lvl p false) s fun d => OnlyIndexes s.hub d [0x1003, 0x1004, 0x1005, 0x1006, 0x2000, 0x2006, 0x2007, 0x2400, 0x2806, 0x4001, 0x4004, 0x4006, 0x4051, 0x4100, 0x4103, 0x4105, 0x4106, 0x4250, 0x5040, 0x5043, 0x5044, 0x5045, 0x6008, 0x7010, 0xA006]
          ∧ Sends s.hub d [.vdm p.val (.exitMode 0x3B5E), .status .ok] ∧ d.flag (O.epxEnable p) = false ∧ d.get (O.modeState p) = 3)
  ∧ (∀ (s : State) (lvl : Level) (p : Port), s.hub.domainsOn = true → Engineers lvl → s.hub.handingOver = false → s.hub.explicit p = false →
        s.hub.inRom = false →
        Answers (.epxEnableWrite lvl p true) s fun d => Sends s.hub d [.status .ok] ∧ d.flag (O.epxEnable p) = true
          ∧ OnlyRegs s.hub d [O.epxEnable p])

/-! ## The display heads and the DRAM -/

/-- The writes of a head's mode, timing, pair lock, capture format and commit. Timing is refused in scan-out, CAP_FORMAT in capture,
PAIR_LOCK on H1 and H3; a commit shows from the next latch edge. A MODE written in sag stage 4 or 5 is kept, and HEAD_STATE reads 06h
(6002h.01; notes/assumptions/38.md). -/
def Obligations.HeadWrites : Prop :=
  (∀ (s : State) (lvl : Level) (x : Head), s.hub.domainsOn = true → Engineers lvl → s.hub.flag (O.pairLock x) = false → s.hub.follows x = false →
      s.hub.modeBarred x 3 = false → s.hub.get (O.headMode x) ≠ 3 → s.hub.get O.sagStage < 4 → s.hub.inRom = false → s.hub.handingOver = false →
      Answers (.headModeWrite lvl x 3) s fun d => OnlyObjects s.hub d [O.pathFlags 0, O.writeCommitted, O.readCommitted, O.overcommit, O.inAllowMbps 0, O.outAllowMbps 0, O.headMode 0, O.genlockState 0, O.headState 0, O.linkRate 0, O.headLanes 0, O.frameSeq 0, O.headLine 0, O.linkTrainFails 0, O.commit 0, O.showSeq 0, O.latchedBase 0 0, O.streamState 0, O.hpd 0, O.scanoutCommitted, O.dramOvercommit, H.layer 0 0 0 0, H.replaced 0, H.firstEdge 0, H.hpdHold 0, H.attrSeen 0, H.layer 1 0 0 0, H.fetchedRow 0 0, H.replacedBase 0 0, H.lateLines 0 0, H.haltShown 0, H.shownFrame 0]
        ∧ d.get (O.headMode x) = 3 ∧ d.get (O.headState x) = 0 ∧ d.flag (O.hpd x) = false ∧ d.flag (H.hpdHold x) = true
        ∧ ∃ xs, Sends s.hub d (xs ++ [.status .ok]))
  ∧ (∀ (s : State) (lvl : Level) (x : Head) (v : BitVec 8), s.hub.domainsOn = true → Engineers lvl → s.hub.flag (O.pairLock x) = false → s.hub.follows x = false →
        (v = 0 ∨ v = 2 ∨ v = 3 ∨ (v = 1 ∧ s.hub.timingValid x = true)) → s.hub.modeBarred x v.toNat = false → s.hub.get (O.headMode x) ≠ v.toNat →
        4 ≤ s.hub.get O.sagStage → s.hub.inRom = false → s.hub.handingOver = false →
        Answers (.headModeWrite lvl x v) s fun d => d.get (O.headMode x) = v.toNat ∧ d.get (O.headState x) = (if v = 0 then 0 else 6)
          ∧ d.get (O.headLanes x) = 0 ∧ ∃ xs, Sends s.hub d (xs ++ [.status .ok]))
  ∧ (∀ (s : State) (lvl : Level) (x : Head) (v : BitVec 8), s.hub.domainsOn = true → Engineers lvl → 3 < v.toNat → s.hub.inRom = false →
        s.hub.handingOver = false →
        Answers (.headModeWrite lvl x v) s fun d => Sends s.hub d [.status .invalidValue] ∧ d.regs = s.hub.regs)
  ∧ (∀ (s : State) (lvl : Level) (x : Head) (i : Fin 10) (v : BitVec 32), s.hub.domainsOn = true → Engineers lvl → s.hub.get (O.headMode x) ≠ 1 →
        s.hub.get (O.headState x) ≠ 4 → s.hub.get (O.headState x) ≠ 5 → v.toNat < (timingObj x i).cap → i ≠ 9 → s.hub.inRom = false →
        s.hub.handingOver = false →
        Answers (.timingWrite lvl x i v) s fun d => d.get (timingObj x i) = v.toNat ∧ Sends s.hub d [.status .ok]
          ∧ OnlyRegs s.hub d [timingObj x i])
  ∧ (∀ (s : State) (lvl : Level) (x : Head) (i : Fin 10) (v : BitVec 32), s.hub.domainsOn = true → Engineers lvl → s.hub.get (O.headMode x) = 1 →
        s.hub.inRom = false → s.hub.handingOver = false →
        Answers (.timingWrite lvl x i v) s fun d => Sends s.hub d [.status .busy] ∧ d.regs = s.hub.regs)
  ∧ (∀ (s : State) (lvl : Level) (x : Head) (v : Bool), s.hub.domainsOn = true → Engineers lvl → x.val % 2 = 0 → s.hub.get (O.headMode x) = 0 →
        s.hub.get (O.headMode (x.val + 1)) = 0 → s.hub.inRom = false → s.hub.handingOver = false →
        Answers (.pairLockWrite lvl x v) s fun d => d.flag (O.pairLock x) = v ∧ Sends s.hub d [.status .ok]
          ∧ OnlyRegs s.hub d [O.pairLock x])
  ∧ (∀ (s : State) (lvl : Level) (x : Head) (v : Bool), s.hub.domainsOn = true → Engineers lvl → x.val % 2 = 1 → s.hub.inRom = false →
        s.hub.handingOver = false →
        Answers (.pairLockWrite lvl x v) s fun d => Sends s.hub d [.status .invalidValue] ∧ d.regs = s.hub.regs)
  ∧ (∀ (s : State) (lvl : Level) (x : Head) (v : BitVec 8), s.hub.domainsOn = true → Engineers lvl → v.toNat ≤ 1 → s.hub.get (O.headMode x) ≠ 3 →
        s.hub.inRom = false → s.hub.handingOver = false →
        Answers (.capFormatWrite lvl x v) s fun d => d.get (O.capFormat x) = v.toNat ∧ Sends s.hub d [.status .ok]
          ∧ OnlyRegs s.hub d [O.capFormat x])
  ∧ (∀ (s : State) (lvl : Level) (x : Head) (v : BitVec 8), s.hub.domainsOn = true → Engineers lvl → v.toNat ≤ 1 → s.hub.get (O.headMode x) = 3 →
        s.hub.inRom = false → s.hub.handingOver = false →
        Answers (.capFormatWrite lvl x v) s fun d => Sends s.hub d [.status .busy] ∧ d.regs = s.hub.regs)
  ∧ (∀ (s : State) (lvl : Level) (x : Head), s.hub.domainsOn = true → Operators lvl → s.hub.handingOver = false → s.hub.flag (O.layerEnable x 0) = false →
        s.hub.scansOut x = true → s.hub.flag (H.firstEdge x) = false → s.hub.get (O.frameSeq x) < 2 ^ 32 - 1 → s.hub.inRom = false →
        Answers (.commit lvl x 1) s fun d => OnlyObjects s.hub d [O.pathFlags 0, O.commit 0, O.showSeq 0, O.latchedBase 0 0, H.layer 0 0 0 0, H.replaced 0, H.replacedBase 0 0]
          ∧ d.get (O.showSeq x) = s.hub.get (O.frameSeq x) + 1 ∧ bit (d.get (O.commit x)) 0 = true ∧ Sends s.hub d [.status .ok])
  ∧ (∀ (s : State) (lvl : Level) (x : Head) (v : BitVec 8), s.hub.domainsOn = true → Operators lvl → s.hub.handingOver = false → (v = 0 ∨ 16 ≤ v.toNat) →
        s.hub.inRom = false →
        Answers (.commit lvl x v) s fun d => Sends s.hub d [.status .invalidValue] ∧ d.regs = s.hub.regs)

/-- Latch edges, underruns, hot plug and training of a head, and a lost stream. FRAME_SEQ rises by one at each latch edge, a pending commit
of a layer is latched and COMMIT clears, and a buffer that leaves the screen is shown as retired; a source head trains at HPD rise on the
first link that works; without a sink it shows HEAD_STATE 03h. -/
def Obligations.HeadEvents : Prop :=
  (∀ (s : State) (x : Head), s.hub.domainsOn = true → s.hub.scansOut x = true → s.hub.follows x = false →
      s.hub.flag (O.pairLock x) = false → s.hub.flag (H.firstEdge x) = false → s.hub.get (O.commit x) = 0 →
      s.hub.get (O.frameSeq x) < 2 ^ 32 - 1 →
      Answers (.latchEdge x) s fun d => OnlyObjects s.hub d [O.frameSeq 0, O.headLine 0, O.commit 0, O.retiredSeq 0, O.commitsReplaced 0, O.latchedBase 0 0, O.retiredBase 0 0, O.scanoutCommitted, O.dramOvercommit, H.layer 0 0 0 0, H.replaced 0, H.firstEdge 0, H.fetchedRow 0 0, H.lateLines 0 0, H.haltShown 0, H.edgeAt 0, H.frameStart 0, H.replacedBase 0 0, O.dramCorrected, O.dramUncorrectable, O.dramUeLast]
        ∧ d.get (O.frameSeq x) = s.hub.get (O.frameSeq x) + 1 ∧ d.get (O.commit x) = 0)
  ∧ (∀ (s : State) (x : Head) (line : BitVec 16), s.hub.domainsOn = true → s.hub.scansOut x = true → bit (s.hub.get (H.lateLines x 0)) line.toNat = false → s.hub.get (O.underruns x) < 2 ^ 64 - 1 →
        Answers (.underrun x line) s fun d => d.get (O.underruns x) = s.hub.get (O.underruns x) + 1 ∧ d.get (O.headLine x) = line.toNat
          ∧ d.lines = s.hub.lines ++ [⟨74, x.val, line.toNat, s.hub.reactions⟩] ∧ OnlyRegs s.hub d [O.underruns x, O.headLine x, H.lateLines x 0, H.underrunFrom x line.toNat])
  ∧ (∀ (s : State) (x : Head) (line : BitVec 16), s.hub.domainsOn = true → s.hub.get (O.headMode x) = 2 → s.hub.get (O.headState x) ≠ 6 → s.hub.lineStore = [] →
        bit (s.hub.get (H.lateLines x (s.hub.get (H.shownFrame x) % 2))) line.toNat = false → s.hub.get (O.underruns x) < 2 ^ 64 - 1 →
        Answers (.underrun x line) s fun d => d.get (O.underruns x) = s.hub.get (O.underruns x) + 1 ∧ d.get (O.headLine x) = line.toNat
          ∧ d.lines = s.hub.lines ++ [⟨74, x.val, line.toNat, s.hub.reactions⟩]
          ∧ OnlyRegs s.hub d [O.underruns x, O.headLine x, H.lateLines x (s.hub.get (H.shownFrame x) % 2)])
  ∧ (∀ (s : State) (x : Head) (k : SinkCaps), s.hub.domainsOn = true → s.hub.get (O.headMode x) = 0 →
        Answers (.hpdRise x k) s fun d => OnlyObjects s.hub d [O.writeCommitted, O.readCommitted, O.overcommit, O.inAllowMbps 0, O.outAllowMbps 0, O.headState 0, O.linkRate 0, O.headLanes 0, O.linkTrainFails 0, O.hpd 0, O.sinkDpcdRev 0, O.edidByte 0 0, O.auxErrors 0]
          ∧ d.flag (O.hpd x) = true ∧ d.sinks = ⟨x.val, k⟩ :: s.hub.sinks.filter fun y => y.head != x.val)
  ∧ (∀ (s : State) (x : Head), s.hub.domainsOn = true → (s.hub.get (O.headMode x) = 1 ∨ s.hub.get (O.headMode x) = 2) → s.hub.get (O.headState x) ≠ 6 → s.hub.flag (H.hpdHold x) = false →
        Answers (.hpdFall x) s fun d => OnlyObjects s.hub d [O.writeCommitted, O.readCommitted, O.overcommit, O.inAllowMbps 0, O.outAllowMbps 0, O.headState 0, O.linkRate 0, O.headLanes 0, O.linkTrainFails 0, O.hpd 0]
          ∧ d.flag (O.hpd x) = false ∧ d.get (O.headState x) = 3 ∧ d.get (O.headLanes x) = 0)
  ∧ (∀ (s : State) (x : Head) (k : SinkCaps), s.hub.domainsOn = true → (s.hub.get (O.headMode x) = 1 ∨ s.hub.get (O.headMode x) = 2) →
        s.hub.flag (O.hpd x) = true →
        Answers (.irqHpd x true k) s fun d => OnlyObjects s.hub d [O.writeCommitted, O.readCommitted, O.overcommit, O.inAllowMbps 0, O.outAllowMbps 0, O.headState 0, O.linkRate 0, O.headLanes 0, O.linkRetrains 0, O.linkTrainFails 0, O.sinkDpcdRev 0, O.edidByte 0 0, O.auxErrors 0]
          ∧ d.sinks = ⟨x.val, k⟩ :: s.hub.sinks.filter fun y => y.head != x.val)
  ∧ (∀ (s : State) (x : Head) (k : SinkCaps), s.hub.domainsOn = true → Answers (.irqHpd x false k) s fun d => d = s.hub)
  ∧ (∀ (s : State) (x : Head), s.hub.domainsOn = true → s.hub.flag (H.hpdHold x) = true → s.hub.get (O.headMode x) = 3 → s.hub.get (O.headState x) ≠ 6 →
        Answers (.hpdLowHoldEnd x) s fun d => d.flag (O.hpd x) = true ∧ d.get (O.headState x) = 1 ∧ d.flag (H.hpdHold x) = false
          ∧ OnlyRegs s.hub d [O.hpd x, H.hpdHold x, O.headState x, O.linkRate x, O.headLanes x])
  ∧ (∀ (s : State) (x : Head) (k : SinkLink), s.hub.domainsOn = true → s.hub.get (O.headMode x) = 3 → s.hub.flag (H.hpdHold x) = false →
        s.hub.get (O.headState x) ≠ 6 → sinkLinkValid k = true →
        Answers (.sinkRetraining x (some k)) s fun d => OnlyObjects s.hub d [O.writeCommitted, O.readCommitted, O.overcommit, O.inAllowMbps 0, O.outAllowMbps 0, O.headState 0, O.linkRate 0, O.headLanes 0]
          ∧ d.get (O.headState x) = 2 ∧ d.get (O.linkRate x) = k.rate.toNat ∧ d.get (O.headLanes x) = k.lanes.toNat)
  ∧ (∀ (s : State) (x : Head) (link : Option SinkLink), s.hub.domainsOn = true → s.hub.get (O.headMode x) = 3 → s.hub.flag (H.hpdHold x) = false →
        s.hub.get (O.headState x) ≠ 6 → link.filter sinkLinkValid = none →
        Answers (.sinkRetraining x link) s fun d => OnlyObjects s.hub d [O.writeCommitted, O.readCommitted, O.overcommit, O.inAllowMbps 0, O.outAllowMbps 0, O.headState 0, O.linkRate 0, O.headLanes 0]
          ∧ d.get (O.headState x) = 1 ∧ d.get (O.linkRate x) = 0xFF ∧ d.get (O.headLanes x) = 0)
  ∧ (∀ (s : State) (x : Head), s.hub.domainsOn = true → s.hub.get (O.streamState x) = 2 →
        Answers (.streamLost x) s fun d => d.get (O.streamState x) = 3 ∧ OnlyObjects s.hub d [O.writeCommitted, O.readCommitted, O.overcommit, O.inAllowMbps 0, O.outAllowMbps 0, O.headState 0, O.linkRate 0, O.headLanes 0, O.linkTrainFails 0, O.streamState 0, H.streamAttr 0, H.attrSeen 0, H.shownFrame 0, H.lineStart 0, H.lineAt 0])

  ∧ (∀ (s : State) (x : Head) (l : Fin 4), s.hub.domainsOn = true → s.hub.scansOut x = true → s.hub.follows x = false →
        s.hub.flag (O.pairLock x) = false → s.hub.flag (H.firstEdge x) = false → s.hub.get (O.frameSeq x) < 2 ^ 32 - 1 →
        bit (s.hub.get (O.commit x)) l = true → (∀ k : Nat, k < 10 → s.hub.get (H.layer 0 x l k) < 2 ^ 64) → (s.hub.heldLayer 1 x l).base < 2 ^ 64 →
        Answers (.latchEdge x) s fun d => OnlyObjects s.hub d [O.frameSeq 0, O.headLine 0, O.commit 0, O.retiredSeq 0, O.commitsReplaced 0, O.latchedBase 0 0, O.retiredBase 0 0, O.scanoutCommitted, O.dramOvercommit, H.layer 0 0 0 0, H.replaced 0, H.firstEdge 0, H.fetchedRow 0 0, H.lateLines 0 0, H.haltShown 0, H.edgeAt 0, H.frameStart 0, H.replacedBase 0 0, O.dramCorrected, O.dramUncorrectable, O.dramUeLast, H.layer 1 0 0 0]
          ∧ d.get (O.frameSeq x) = s.hub.get (O.frameSeq x) + 1 ∧ d.get (O.commit x) = 0
          ∧ d.heldLayer 1 x l = s.hub.heldLayer 0 x l ∧ d.get (O.latchedBase x l) = (s.hub.heldLayer 0 x l).base
          ∧ ((s.hub.heldLayer 1 x l).enable = true → ((s.hub.heldLayer 0 x l).enable = false ∨ (s.hub.heldLayer 0 x l).base ≠ (s.hub.heldLayer 1 x l).base) →
            d.get (O.retiredBase x l) = (s.hub.heldLayer 1 x l).base ∧ d.get (O.retiredSeq x) = s.hub.get (O.frameSeq x) + 1))
  ∧ (∀ (s : State) (x : Head) (l : Fin 4), s.hub.domainsOn = true → s.hub.scansOut x = true → s.hub.follows x = false →
        s.hub.flag (O.pairLock x) = false → s.hub.flag (H.firstEdge x) = false → bit (s.hub.get (O.commit x)) l = false →
        Answers (.latchEdge x) s fun d => OnlyObjects s.hub d [O.frameSeq 0, O.headLine 0, O.commit 0, O.retiredSeq 0, O.commitsReplaced 0, O.latchedBase 0 0, O.retiredBase 0 0, O.scanoutCommitted, O.dramOvercommit, H.layer 0 0 0 0, H.replaced 0, H.firstEdge 0, H.fetchedRow 0 0, H.lateLines 0 0, H.haltShown 0, H.edgeAt 0, H.frameStart 0, H.replacedBase 0 0, O.dramCorrected, O.dramUncorrectable, O.dramUeLast, H.layer 1 0 0 0]
          ∧ d.heldLayer 1 x l = s.hub.heldLayer 1 x l ∧ d.get (O.latchedBase x l) = s.hub.get (O.latchedBase x l)
          ∧ d.get (O.retiredBase x l) = s.hub.get (O.retiredBase x l))
  ∧ (∀ (s : State) (x : Head) (k : SinkCaps) (rate lanes : Nat), s.hub.domainsOn = true → (s.hub.get (O.headMode x) = 1 ∨ s.hub.get (O.headMode x) = 2) →
        s.hub.get (O.headState x) ≠ 6 → s.hub.flag (H.hpdHold x) = false →
        ((s.hub.linkChoices x k).find? fun y => k.trains.any fun t => t.1.toNat == y.1 && t.2.toNat == y.2) = some (rate, lanes) →
        Answers (.hpdRise x k) s fun d => OnlyObjects s.hub d [O.writeCommitted, O.readCommitted, O.overcommit, O.inAllowMbps 0, O.outAllowMbps 0, O.headState 0, O.linkRate 0, O.headLanes 0, O.linkTrainFails 0, O.hpd 0, O.sinkDpcdRev 0, O.edidByte 0 0, O.auxErrors 0]
          ∧ d.flag (O.hpd x) = true ∧ d.get (O.headState x) = 2 ∧ d.get (O.linkRate x) = rate ∧ d.get (O.headLanes x) = lanes
          ∧ d.sinks = ⟨x.val, k⟩ :: s.hub.sinks.filter fun y => y.head != x.val)
  ∧ (∀ (s : State) (x : Head) (k : SinkCaps), s.hub.domainsOn = true → (s.hub.get (O.headMode x) = 1 ∨ s.hub.get (O.headMode x) = 2) →
        s.hub.get (O.headState x) ≠ 6 → s.hub.flag (H.hpdHold x) = false →
        ((s.hub.linkChoices x k).find? fun y => k.trains.any fun t => t.1.toNat == y.1 && t.2.toNat == y.2) = none →
        Answers (.hpdRise x k) s fun d => OnlyObjects s.hub d [O.writeCommitted, O.readCommitted, O.overcommit, O.inAllowMbps 0, O.outAllowMbps 0, O.headState 0, O.linkRate 0, O.headLanes 0, O.linkTrainFails 0, O.hpd 0, O.sinkDpcdRev 0, O.edidByte 0 0, O.auxErrors 0]
          ∧ d.flag (O.hpd x) = true ∧ d.get (O.headState x) = (if s.hub.linkChoices x k = [] then 5 else 4) ∧ d.get (O.linkRate x) = 0xFF
          ∧ d.get (O.headLanes x) = 0 ∧ (⟨73, x.val, 0, s.hub.reactions⟩ : Detection) ∈ d.lines)

  ∧ (∀ (s : State) (x : Head), s.hub.domainsOn = true → s.hub.flag (H.hpdHold x) = true → s.hub.get (O.headState x) = 6 →
        Answers (.hpdLowHoldEnd x) s fun d => d.flag (H.hpdHold x) = false ∧ OnlyRegs s.hub d [H.hpdHold x])
  ∧ (∀ (s : State) (x : Head), s.hub.domainsOn = true → s.hub.flag (H.hpdHold x) = true → s.hub.get (O.headState x) ≠ 6 → s.hub.get (O.headMode x) = 0 →
        Answers (.hpdLowHoldEnd x) s fun d => d.flag (H.hpdHold x) = false ∧ d.get (O.headMode x) = 0 ∧ d.get (O.headState x) = 0 ∧ d.get (O.headLanes x) = 0)
  ∧ (∀ (s : State) (x : Head), s.hub.domainsOn = true → s.hub.flag (H.hpdHold x) = false → exec (.hpdLowHoldEnd x) s = .next s)
  ∧ (∀ (s : State) (x : Head) (line : BitVec 16), s.hub.domainsOn = true → s.hub.scansOut x = false → (s.hub.get (O.headMode x) ≠ 2 ∨ s.hub.get (O.headState x) = 6) →
        exec (.underrun x line) s = .next s)
  ∧ (∀ (s : State) (x : Head), s.hub.domainsOn = true → s.hub.get (O.streamState x) ≠ 2 → exec (.streamLost x) s = .next s)
  ∧ (∀ (s : State) (x : Head), s.hub.domainsOn = true → (s.hub.scansOut x = false ∨ s.hub.follows x = true) → exec (.latchEdge x) s = .next s)
  ∧ (∀ (s : State) (x : Head) (k : SinkCaps), s.hub.domainsOn = true → s.hub.get (O.headMode x) = 3 →
        exec (.hpdRise x k) s = .next s)
  ∧ (∀ (s : State) (x : Head), s.hub.domainsOn = true → s.hub.get (O.headMode x) = 3 → exec (.hpdFall x) s = .next s)/-- A capture head sends attributes and secondary data into its tunnel; a pass-through head stores packets until TIME plus PRESENT_DELAY. -/
def Obligations.HeadStreams : Prop :=
  (∀ (s : State) (x : Head) (a : StreamAttr) (t : Nat), s.hub.domainsOn = true → s.hub.captures x = true → s.hub.captureEntry x 2 = some t →
      s.hub.get (O.framesCaptured x) < 2 ^ 64 - 1 →
      Answers (.captureFrame x a []) s fun d => ∃ pk : Packet, pk.tid = BitVec.ofNat 16 t ∧ pk.info = 0x2000
        ∧ pk.payload = attrPayload a (s.hub.get (O.capFormat x)) (s.hub.get (H.captureFrame x))
        ∧ d = (((s.hub.put (H.captureFrame x) (s.hub.get (H.captureFrame x) + 1)).put (O.framesCaptured x) (s.hub.get (O.framesCaptured x) + 1)).put (H.txSeq t) (s.hub.get (H.txSeq t) + 1)).receive (27 + x.val) pk)
  ∧ (∀ (s : State) (x : Head) (a : StreamAttr) (ls : List (List Pixel)), s.hub.domainsOn = true → s.hub.get (O.headMode x) = 3 → s.hub.captures x = false →
        Answers (.captureFrame x a ls) s fun d => OnlyRegs s.hub d [H.captureFrame x, H.haltShown x] ∧ d.held = s.hub.held ∧ d.out = s.hub.out)
  ∧ (∀ (s : State) (x : Head) (line : BitVec 13) (bs : Bytes) (t : Nat), s.hub.domainsOn = true → s.hub.captures x = true → s.hub.captureEntry x 2 = some t →
        Answers (.sdpReceive x line false bs) s fun d => ∃ pk : Packet, pk.tid = BitVec.ofNat 16 t
          ∧ pk.info = BitVec.ofNat 16 (0x4000 + line.toNat) ∧ pk.payload = bs
          ∧ d = (s.hub.put (H.txSeq t) (s.hub.get (H.txSeq t) + 1)).receive (27 + x.val) pk)
  ∧ (∀ (s : State) (x : Head) (pk : Packet), s.hub.domainsOn = true → s.hub.get (O.headMode x) = 2 → s.hub.get (O.headState x) ≠ 6 → s.hub.flag (H.hpdHold x) = false → s.hub.lineStore = [] →
        bits pk.info.toNat 13 3 = 2 →
        Answers (.passThroughPacket x pk) s fun d => d.lineStore = [⟨x.val, (s.hub.momentOf pk.time.toNat + s.hub.get (O.presentDelay x)).toNat, pk⟩]
          ∧ d.regs = s.hub.regs ∧ d.out = s.hub.out)
  ∧ (∀ (s : State) (x : Head) (pk : Packet), s.hub.domainsOn = true → s.hub.get (O.headMode x) = 2 → s.hub.get (O.headState x) ≠ 6 → s.hub.flag (H.hpdHold x) = false → s.hub.lineStore = [] →
        bits pk.info.toNat 13 3 = 0 → s.hub.momentOf pk.time.toNat + s.hub.get (O.presentDelay x) < s.hub.now →
        bit (s.hub.get (H.lateLines x (s.hub.get (H.streamFrame x) % 2))) (bits pk.info.toNat 0 13) = false →
        Answers (.passThroughPacket x pk) s fun d => OnlyObjects s.hub d [O.writeCommitted, O.readCommitted, O.overcommit, O.inAllowMbps 0, O.outAllowMbps 0, O.headState 0, O.linkRate 0, O.headLanes 0, O.underruns 0, O.linkTrainFails 0, O.streamState 0, O.latePackets 0, H.streamAttr 0, H.attrSeen 0, H.lateLines 0 0]
          ∧ d.lineStore = [] ∧ d.lines = s.hub.lines ++ [⟨74, x.val, bits pk.info.toNat 0 13, s.hub.reactions⟩])

/-- The DRAM scrub counts what each word shows, and rewrites an uncorrectable word only where no reader owns it. What a rewritten word then
holds is left open; every byte outside the word reads as before; the last word ends a pass. The mark that an owned word keeps is the model's
choice (notes/assumptions/45.md), and the forced slots that one check counts, at most 55313, its reading (notes/assumptions/17.md). -/
def Obligations.DramScrubCommands : Prop :=
  (∀ (s : State) (word : Nat), s.hub.domainsOn = true → word < 134217727 → Answers (.dramScrub word .clean false) s fun d => d = s.hub)
  ∧ (∀ (s : State) (word : Nat) (b : Bool), s.hub.domainsOn = true → word < 134217727 → s.hub.get O.dramCorrected < 2 ^ 64 - 1 →
        Answers (.dramScrub word .correctable b) s fun d => d.get O.dramCorrected = s.hub.get O.dramCorrected + 1
          ∧ d.lines = s.hub.lines ++ [⟨78, 255, 0, s.hub.reactions⟩] ∧ OnlyRegs s.hub d [O.dramCorrected])
  ∧ (∀ (s : State) (word : Nat) (b : Bool), s.hub.domainsOn = true → word < 134217727 → s.hub.get O.dramUncorrectable < 2 ^ 64 - 1 →
        AnswersAll (.dramScrub word .uncorrectable b) s fun d m => OnlyRegs s.hub d [O.dramUncorrectable, O.dramUeLast, H.dramBad word]
          ∧ d.get O.dramUncorrectable = s.hub.get O.dramUncorrectable + 1 ∧ d.get O.dramUeLast = word * 64
          ∧ d.lines = s.hub.lines ++ [⟨77, 255, word * 64, s.hub.reactions⟩] ∧ (∀ a, a < word * 64 ∨ word * 64 + 64 ≤ a →
          m.readDram a 1 = s.mem.readDram a 1) ∧ m.image = s.mem.image ∧ m.flash = s.mem.flash)
  ∧ (∀ (s : State) (word : Nat), s.hub.domainsOn = true → word < 134217727 → s.hub.unowned (word * 64) = false →
        Answers (.dramScrub word .uncorrectable false) s fun d => OnlyRegs s.hub d [O.dramUncorrectable, O.dramUeLast, H.dramBad word]
          ∧ d.flag (H.dramBad word) = true)
  ∧ (∀ (s : State) (done due : Nat), s.hub.domainsOn = true → done + 65536 ≤ due → s.hub.get O.dramScrubForced + 55313 < 2 ^ 64 →
        Answers (.dramScrubPace done due) s fun d => d.get O.dramScrubForced = s.hub.get O.dramScrubForced + min (due - done) 55313
          ∧ d.flag H.dramBehind = true ∧ OnlyRegs s.hub d [O.dramScrubForced, H.dramBehind, H.scrubLate 1])
  ∧ (∀ (s : State) (done due : Nat), s.hub.domainsOn = true → due < done + 65536 → s.hub.flag H.dramBehind = false →
        Answers (.dramScrubPace done due) s fun d => OnlyRegs s.hub d [H.scrubLate 1])
  ∧ (∀ (s : State) (done due : Nat), s.hub.domainsOn = true → done < due → due < done + 65536 → s.hub.flag H.dramBehind = true → s.hub.get O.dramScrubForced + 55313 < 2 ^ 64 →
        Answers (.dramScrubPace done due) s fun d => d.get O.dramScrubForced = s.hub.get O.dramScrubForced + min (due - done) 55313
          ∧ d.flag H.dramBehind = true ∧ OnlyRegs s.hub d [O.dramScrubForced, H.scrubLate 1])
  ∧ (∀ (s : State) (done due : Nat), s.hub.domainsOn = true → due ≤ done →
        Answers (.dramScrubPace done due) s fun d => d.flag H.dramBehind = false ∧ OnlyRegs s.hub d [H.dramBehind, H.scrubLate 1])

  ∧ (∀ (s : State) (b : Bool), s.hub.domainsOn = true → s.hub.get O.dramScrubPasses + 1 < 2 ^ 32 → s.hub.get H.dramScrubStart ≤ s.hub.now →
        s.hub.now - s.hub.get H.dramScrubStart ≤ s.hub.get O.dramScrubPeriod * 1000000000 →
        Answers (.dramScrub 134217727 .clean b) s fun d => d.get O.dramScrubPasses = s.hub.get O.dramScrubPasses + 1
          ∧ d.get O.dramScrubLastPass = (s.hub.now - s.hub.get H.dramScrubStart) / 1000000000 % 2 ^ 32 ∧ d.get H.dramScrubStart = s.hub.now % 2 ^ 64
          ∧ d.lines = s.hub.lines ∧ OnlyRegs s.hub d [O.dramScrubPasses, O.dramScrubLastPass, H.dramScrubStart, H.scrubLate 1])
/-! ## The Fevik Object Protocol -/

/-- Four early checks, each stated for one kind of message over the UART: a malformed READ is counted and answered nothing; a WRITE for
another hub is answered NOT_HERE by a hub that is not the Cox; a SEGMENT in no session is answered NO_SESSION, unauthenticated; a READ_BLOCK
whose tag fails is counted and answered nothing. Which fields an answer repeats is the model's reading (notes/assumptions/62.md). -/
def Obligations.FopChecks : Prop :=
  (∀ (s : State) (x : FopMsg), x.transport = .uart → s.hub.flag H.running = true → s.hub.get O.powerState = 0 → s.hub.handingOver = false →
      fopWellFormed 1 x = false → s.hub.get O.fopMalformed < 2 ^ 32 - 1 →
      Answers (.fopRead x) s fun d => d.get O.fopMalformed = s.hub.get O.fopMalformed + 1 ∧ d.out = s.hub.out
        ∧ d.sessions = s.hub.sessions ∧ OnlyRegs s.hub d [O.fopMalformed, O.fopRx 3])
  ∧ (∀ (s : State) (x : FopMsg), x.transport = .uart → s.hub.flag H.running = true → s.hub.get O.powerState = 0 → s.hub.handingOver = false →
        fopWellFormed 2 x = true → s.hub.get O.role ≠ 2 → x.hub ≠ 0xFF → x.hub.toNat ≠ s.hub.get O.hubAddress →
        Answers (.fopWrite x) s fun d => Sends s.hub d [.fop .uart 0 0 0 (uartFrame (answerHead x 2 0 .notHere x.count.toNat [] ++ List.replicate 32 0))]
          ∧ OnlyRegs s.hub d [O.fopRx 3, O.fopTx 3])
  ∧ (∀ (s : State) (x : FopMsg), x.transport = .uart → s.hub.flag H.running = true → s.hub.get O.powerState = 0 → s.hub.handingOver = false →
        fopWellFormed 5 x = true → x.hub = 0xFF → s.hub.sessions = [] →
        Answers (.fopSegment x) s fun d => Sends s.hub d [.fop .uart 0 0 0 (uartFrame (answerHead x 5 0 .noSession x.count.toNat [] ++ List.replicate 32 0))]
          ∧ OnlyRegs s.hub d [O.fopRx 3, O.fopTx 3])
  ∧ (∀ (s : State) (x : FopMsg) (e : Session), x.transport = .uart → s.hub.flag H.running = true → s.hub.get O.powerState = 0 → s.hub.handingOver = false →
        fopWellFormed 3 x = true → x.hub = 0xFF → s.hub.sessions = [e] → x.session.toNat = e.id →
        hmacSha256 e.key (fopSigned x 3) % 2 ^ 256 ≠ x.tag.toNat → s.hub.get O.fopAuthFailures < 2 ^ 32 - 1 →
        Answers (.fopReadBlock x) s fun d => OnlyObjects s.hub d [O.fopRx 0, O.fopAuthFailures]
          ∧ d.get O.fopAuthFailures = s.hub.get O.fopAuthFailures + 1 ∧ d.out = s.hub.out ∧ d.sessions = [e])

/-- Requests that pass the checks are carried out and answered in their session, under the session's next counter. A READ of a plain
register gives the bytes that the register holds, of the object's size, or NO_OBJECT; a READ of a table gives the bytes of the entries it
names; the WRITE stated is of BLOCK_TIMEOUT, by an Owner session; blocks of a table are opened for reading and for writing, a block's copy
holds the entries as they stand at its opening, a SEGMENT of a read block gives the bytes of the copy, and ABORT ends the block. Which
fields an answer repeats, and its COUNT, are the model's reading (notes/assumptions/62.md). -/
def Obligations.FopRequests : Prop :=
  (∀ (s : State) (e : Session) (x : FopMsg) (r : Row) (n : Nat), s.hub.domainsOn = true → Admitted s.hub e 1 x → Signed e 1 x → x.flags = 0 →
      s.hub.object x.index.toNat x.sub.toNat = some (r, n) → r.ty ≠ .table → (rightOf r.acc e.level).reads = true → x.offset = 0 →
      x.count = 0 →
      Answers (.fopRead x) s fun d => OnlyObjects s.hub d [O.fopRx 0, O.fopTx 0] ∧ ∃ v : Bytes, v.length = r.size
        ∧ Replied s.hub d e 1 x .ok 0 v
        ∧ (s.hub.computed r.obj n (x.sub.toNat - r.sub) = none → r.obj ≠ (O.fopRx 0).key.obj →
          v = leBytes (s.hub.get (r.scalarObj n (x.sub.toNat - r.sub))) r.size))
  ∧ (∀ (s : State) (e : Session) (x : FopMsg), s.hub.domainsOn = true → Admitted s.hub e 1 x → Signed e 1 x → x.flags = 0 →
        s.hub.object x.index.toNat x.sub.toNat = none →
        Answers (.fopRead x) s fun d => OnlyObjects s.hub d [O.fopRx 0, O.fopTx 0] ∧ Replied s.hub d e 1 x .noObject x.count.toNat [])
  ∧ (∀ (s : State) (e : Session) (x : FopMsg) (v : BitVec 16), s.hub.domainsOn = true → Admitted s.hub e 2 x → Signed e 2 x → x.flags = 0 → e.level = .owner →
        x.index = 0x1100 → x.sub = 5 → x.offset = 0 → x.body = leBytes v.toNat 2 → 100 ≤ v.toNat ∧ v.toNat ≤ 60000 →
        s.hub.get H.endLevels = 0 → NetworkSettled s.hub → s.hub.get H.endSession = 0 → s.hub.flag H.resetDue = false →
        Answers (.fopWrite x) s fun d => OnlyObjects s.hub d [O.fopRx 0, O.fopTx 0, O.blockTimeout] ∧ d.get O.blockTimeout = v.toNat
          ∧ Replied s.hub d e 2 x .ok x.count.toNat [])
  ∧ (∀ (s : State) (e : Session) (x : FopMsg) (r : Row) (n : Nat), s.hub.domainsOn = true → Admitted s.hub e 3 x → Signed e 3 x → x.flags = 0 → e.block = none →
        s.hub.object x.index.toNat x.sub.toNat = some (r, n) → r.ty = .table → (rightOf r.acc e.level).reads = true →
        x.offset.toNat + x.count.toNat ≤ s.hub.entryCount r * r.size → s.hub.entryCount r ≠ 0 → 1 ≤ x.count.toNat ∧ x.count.toNat ≤ 65536 →
        Answers (.fopReadBlock x) s fun d => OnlyObjects s.hub d [O.fopRx 0, O.fopTx 0]
          ∧ (r.obj ≠ 0x110200 → Replied s.hub d e 3 x .ok x.count.toNat
            ((s.hub.tableBytes s.mem r n x.offset.toNat x.count.toNat).take 960))
          ∧ ∃ v : Bytes, Replied s.hub d e 3 x .ok x.count.toNat v)
  ∧ (∀ (s : State) (e : Session) (x : FopMsg), s.hub.domainsOn = true → Admitted s.hub e 4 x → Signed e 4 x → x.flags = 0 → e.block = none →
        s.hub.writeCheck e.level x.index.toNat x.sub.toNat x.offset.toNat x.count.toNat 65536 = .ok →
        s.hub.isTable x.index.toNat x.sub.toNat = true → x.body = [] → 1 ≤ x.count.toNat →
        Answers (.fopWriteBlock x) s fun d => OnlyObjects s.hub d [O.fopRx 0, O.fopTx 0] ∧ Replied s.hub d e 4 x .ok 0 []
          ∧ ∃ y b, d.sessions = [y] ∧ y.block = some b ∧ b.reads = false ∧ b.offset = x.offset.toNat ∧ b.bytes.length = x.count.toNat)
  ∧ (∀ (s : State) (e : Session) (x : FopMsg) (r : Row) (n : Nat) (b : OpenBlock), s.hub.domainsOn = true → Admitted s.hub e 5 x → Signed e 5 x → x.flags = 0 →
        e.block = some b → b.reads = true → b.index = x.index.toNat → b.sub = x.sub.toNat →
        s.hub.object x.index.toNat x.sub.toNat = some (r, n) → (rightOf r.acc e.level).reads = true → 1 ≤ x.count.toNat
        ∧ x.count.toNat ≤ 960 → x.body = [] → x.offset.toNat + x.count.toNat ≤ b.bytes.length →
        Answers (.fopSegment x) s fun d => OnlyObjects s.hub d [O.fopRx 0, O.fopTx 0]
          ∧ Replied s.hub d e 5 x .ok x.count.toNat ((b.bytes.drop x.offset.toNat).take x.count.toNat))
  ∧ (∀ (s : State) (e : Session) (x : FopMsg) (b : Bool), s.hub.domainsOn = true → x.flags = 1 → Admitted s.hub e (if b then 4 else 3) x →
        Signed e (if b then 4 else 3) x → s.hub.blockCheck s.mem e.level (if b then 4 else 3) x = .ok →
        Answers (.fopAbort b x) s fun d => OnlyObjects s.hub d [O.fopRx 0, O.fopTx 0]
          ∧ Replied s.hub d e (if b then 4 else 3) x .ok x.count.toNat [] ∧ ∃ y, d.sessions = [y] ∧ y.block = none)

  ∧ (∀ (s : State) (e : Session) (x : FopMsg) (r : Row) (n : Nat), s.hub.domainsOn = true → Admitted s.hub e 1 x → Signed e 1 x → x.flags = 0 →
        s.hub.object x.index.toNat x.sub.toNat = some (r, n) → r.ty = .table → r.obj ≠ 0x110200 → (rightOf r.acc e.level).reads = true →
        s.hub.entryCount r ≠ 0 → x.offset.toNat + x.count.toNat ≤ s.hub.entryCount r * r.size → 1 ≤ x.count.toNat ∧ x.count.toNat ≤ 960 →
        Answers (.fopRead x) s fun d => OnlyObjects s.hub d [O.fopRx 0, O.fopTx 0]
          ∧ Replied s.hub d e 1 x .ok x.count.toNat (s.hub.tableBytes s.mem r n x.offset.toNat x.count.toNat))
  ∧ (∀ (s : State) (e : Session) (x : FopMsg), s.hub.domainsOn = true → Admitted s.hub e 1 x → Signed e 1 x → x.flags = 0 → s.hub.inRom = false →
        x.index = 0x1100 → x.sub = 5 → x.offset = 0 → x.count = 0 →
        Answers (.fopRead x) s fun d => Replied s.hub d e 1 x .ok 0 (leBytes (s.hub.get O.blockTimeout) 2))
  ∧ (∀ (s : State) (e : Session) (x : FopMsg) (q : Fin 264), s.hub.domainsOn = true → Admitted s.hub e 1 x → Signed e 1 x → x.flags = 0 → s.hub.inRom = false →
        x.index = 0x4210 → x.sub = 3 → x.offset.toNat = 4 * q.val → x.count = 4 →
        Answers (.fopRead x) s fun d => Replied s.hub d e 1 x .ok 4 (leBytes (s.hub.get (O.quantumBytes q)) 4))
  ∧ (∀ (s : State) (e : Session) (x : FopMsg), s.hub.domainsOn = true → Admitted s.hub e 3 x → Signed e 3 x → x.flags = 0 → s.hub.inRom = false → e.block = none →
        x.index = 0x4210 → x.sub = 3 → x.offset = 0 → x.count = 1056 →
        Answers (.fopReadBlock x) s fun d => ∃ bs, bs = (List.range 264).flatMap (fun q => leBytes (s.hub.get (O.quantumBytes q)) 4)
          ∧ Replied s.hub d e 3 x .ok 1056 (bs.take 960) ∧ ∃ y b, d.sessions = [y] ∧ y.block = some b ∧ b.reads = true ∧ b.bytes = bs)

/-- Sessions open and close, and end when idle; the Cox relays. An open that its access key authenticates adds a session at the level it
asks for; with no key over the network, or a failed random generator, it is answered NO_KEY; closing answers first and then ends the
session. That NO_KEY comes before TAG is the model's reading (notes/assumptions/35.md, 83.md), as are the fields that an answer repeats
(62.md). -/
def Obligations.FopSessions : Prop :=
  (∀ (s : State) (x : FopMsg) (lvl : Level) (key : Nat), x.transport = .t1s → s.hub.reachable = true →
      s.hub.flag H.running = true → s.hub.get O.powerState = 0 → s.hub.handingOver = false → x.index = 0x1100 → x.sub = 1 → fopWellFormed 2 x = true → x.hub = 0xFF →
      x.session = 0 → x.level.toNat = Level.rank lvl → s.hub.accessKey lvl = some key →
      SlotSound s.hub (s.hub.get (O.accessKeySlot (Level.rank lvl))) →
      hmacSha256 key (fopSigned x 2) % 2 ^ 256 = x.tag.toNat → s.hub.get (H.openCounter (Level.rank lvl)) ≤ x.counter.toNat →
      x.body.length = 16 → x.offset = 0 → s.hub.sessions.length < 8 → s.hub.get O.rngState ≠ 2 →
      Answers (.sessionOpen x) s fun d => OnlyObjects s.hub d [O.fopRx 0, O.fopTx 0, H.nextSession, H.openCounter 0]
        ∧ (∃ e bs, d.sessions = s.hub.sessions ++ [e] ∧ e.level = lvl ∧ e.tx = 0 ∧ e.rxHigh = 0 ∧ e.block = none
        ∧ Sends s.hub d [.fop .t1s x.addr.toNat x.port.toNat s.hub.sourcePort bs]) ∧ d.get O.fopReplays = s.hub.get O.fopReplays)
  ∧ (∀ (s : State) (x : FopMsg) (lvl : Level), x.transport = .t1s → s.hub.reachable = true → s.hub.flag H.running = true → s.hub.get O.powerState = 0 →
        s.hub.handingOver = false → x.index = 0x1100 → x.sub = 1 → fopWellFormed 2 x = true → x.hub = 0xFF → x.session = 0 →
        x.level.toNat = Level.rank lvl → (s.hub.accessKey lvl = none ∨ s.hub.get O.rngState = 2) → s.hub.get O.opensRefused < 2 ^ 64 - 1 →
        Answers (.sessionOpen x) s fun d => OnlyObjects s.hub d [O.fopRx 0, O.fopTx 0, O.opensRefused, O.keySlotEngines 0]
          ∧ d.get O.opensRefused = s.hub.get O.opensRefused + 1 ∧ d.sessions = s.hub.sessions
          ∧ Sends s.hub d [.fop .t1s x.addr.toNat x.port.toNat s.hub.sourcePort (answerHead x 2 0 .noKey x.count.toNat [] ++ List.replicate 32 0)])
  ∧ (∀ (s : State) (e : Session) (x : FopMsg), s.hub.domainsOn = true → Admitted s.hub e 2 x → Signed e 2 x → x.flags = 0 → x.index = 0x1100 → x.sub = 2 →
        x.offset = 0 → x.body = leBytes e.id 2 → s.hub.get H.endLevels = 0 → NetworkSettled s.hub → s.hub.flag H.resetDue = false →
        Answers (.sessionClose x) s fun d => OnlyObjects s.hub d [O.fopRx 0, O.fopTx 0, H.endLevels, H.endSession, O.notifyIndex 0, H.reqBusy]
          ∧ Replied s.hub d e 2 x .ok x.count.toNat [] ∧ d.sessions = [])
  ∧ (∀ (s : State) (a : BitVec 128) (q : BitVec 16) (raw : Bytes) (k : Nat) (x : FopMsg), s.hub.get O.role = 2 →
        s.hub.reachable = true → s.hub.flag H.running = true → s.hub.get O.powerState = 0 → s.hub.handingOver = false → 64 ≤ raw.length →
        leNat ((raw.drop 1).take 1) = k → parseFop .t1s a.toNat q.toNat raw = x → k < 128 → fopWellFormed k x = true → x.hub ≠ 0xFF →
        x.hub.toNat ≠ s.hub.get O.hubAddress → s.hub.relays x.hub.toNat = true → onBackground x = false →
        Answers (.fopRelay .t1s a q raw) s fun d => OnlyObjects s.hub d [O.fopRx 0, O.fopTx 0]
          ∧ Sends s.hub d [.fopTo false x.hub.toNat (fopRaw x k)]
          ∧ d.relay.getLast? = some ⟨x.hub.toNat, x.session.toNat, .t1s, x.addr.toNat, x.port.toNat⟩)
  ∧ (∀ (s : State) (t : Transport) (a : BitVec 128) (q : BitVec 16) (raw : Bytes), s.hub.domainsOn = true → raw.length < 64 →
        Answers (.fopRelay t a q raw) s fun d => OnlyObjects s.hub d [O.fopRx 0, O.fopMalformed] ∧ d.out = s.hub.out
          ∧ d.sessions = s.hub.sessions)
  ∧ (∀ (s : State) (id : BitVec 16) (e : Session), s.hub.domainsOn = true → s.hub.sessions = [e] → e.id = id.toNat →
        Answers (.idleTimeout id) s fun d => OnlyObjects s.hub d [O.notifyIndex 0, H.reqBusy] ∧ d.sessions = [] ∧ d.out = s.hub.out)
  ∧ (∀ (s : State) (id : BitVec 16) (e : Session) (b : OpenBlock), s.hub.domainsOn = true → s.hub.sessions = [e] → e.id = id.toNat → e.block = some b →
        Answers (.blockTimeout id) s fun d => d.sessions = [{ e with block := none }] ∧ d.out = s.hub.out ∧ d.regs = s.hub.regs)

/-- Subscriptions are written, sampled and sent. A free or own entry is taken as written where it is permitted, and freed by SESSION 0;
another session's entry is refused; a periodic subscription, or a first sample of one to changes, sends one NOTIFY under its session's next
counter; without a subscription to changes a sample sends nothing. The NOTIFY at the first sample is the model's reading
(notes/assumptions/82.md). -/
def Obligations.Notifications : Prop :=
  (∀ (s : State), s.hub.domainsOn = true → s.hub.handingOver = false → (∀ k : Nat, k < 32 → s.hub.get (O.notifyMode k) ≠ 1 ∧ s.hub.get (O.notifyMode k) ≠ 3) →
      Answers .notifySample s fun d => d.regs = s.hub.regs ∧ d.out = s.hub.out ∧ d.sessions = s.hub.sessions)
  ∧ (∀ (s : State) (k : Fin 32) (e : Session) (r : Row) (n : Nat), s.hub.domainsOn = true → s.hub.handingOver = false → s.hub.get (O.notifyMode k) = 2 →
        s.hub.sessions = [e] → s.hub.get (O.notifySession k) = e.id →
        s.hub.object (s.hub.get (O.notifyIndex k)) (s.hub.get (O.notifySub k)) = some (r, n) → e.transport = .t1s →
        e.tx + 1 < 0xFFFFFFFF → s.hub.get (O.notifySent k) < 2 ^ 32 - 1 →
        Answers (.notifyPeriod k) s fun d => OnlyObjects s.hub d [O.notifyIndex 0, O.fopTx 0, H.notifyLast 0, H.notifyAny 0, H.notifyAt 0]
          ∧ (∃ v h, h = fopHeader 0x86 0 (Level.rank e.level) e.id (s.hub.get O.hubAddress) (e.tx + 1) k.val v.length (s.hub.get (O.notifyIndex k)) (s.hub.get (O.notifySub k)) 0 0 0
            ∧ (s.hub.computed r.obj n (s.hub.get (O.notifySub k) - r.sub) = none →
              v = leBytes (s.hub.get (r.scalarObj n (s.hub.get (O.notifySub k) - r.sub))) r.size)
            ∧ Sends s.hub d [.fop .t1s e.addr e.port s.hub.sourcePort (h ++ v ++ leBytes (hmacSha256 e.key (h ++ v)) 32)]) ∧ d.get (O.notifySent k) = s.hub.get (O.notifySent k) + 1
          ∧ d.sessions = [{ e with tx := e.tx + 1 }])
  ∧ (∀ (s : State) (lvl : Level) (id : BitVec 16) (k : Fin 32) (v : NotifyEntry), s.hub.domainsOn = true → Operators lvl →
        s.hub.get (O.notifySession k) = id.toNat → v.session = 0 → notifyListed v = true → s.hub.inRom = false → s.hub.handingOver = false →
        Answers (.notifyTableWrite lvl id k v) s fun d => d.get (O.notifySession k) = 0 ∧ d.get (O.notifyMode k) = 0
          ∧ Sends s.hub d [.status .ok]
          ∧ OnlyRegs s.hub d [O.notifySession k, O.notifyIndex k, O.notifySub k, O.notifyMode k, O.notifyPeriod k, O.notifySent k])
  ∧ (∀ (s : State) (lvl : Level) (id : BitVec 16) (k : Fin 32) (v : NotifyEntry), s.hub.domainsOn = true → (lvl = .operator ∨ lvl = .engineer) →
        s.hub.get (O.notifySession k) ≠ 0 → s.hub.get (O.notifySession k) ≠ id.toNat → s.hub.inRom = false → s.hub.handingOver = false →
        Answers (.notifyTableWrite lvl id k v) s fun d => Sends s.hub d [.status .invalidValue] ∧ d.regs = s.hub.regs)
  ∧ (∀ (s : State) (lvl : Level) (id : BitVec 16) (k : Fin 32) (v : NotifyEntry), s.hub.domainsOn = true → Operators lvl →
        (s.hub.get (O.notifySession k) = 0 ∨ s.hub.get (O.notifySession k) = id.toNat) → v.session ≠ 0 →
        s.hub.subscriptionOk lvl id.toNat v = true → s.hub.inRom = false → s.hub.handingOver = false →
        Answers (.notifyTableWrite lvl id k v) s fun d => d.get (O.notifySession k) = v.session.toNat ∧ d.get (O.notifyIndex k) = v.index.toNat
          ∧ d.get (O.notifySub k) = v.sub.toNat ∧ d.get (O.notifyMode k) = v.mode.toNat ∧ d.get (O.notifyPeriod k) = v.period.toNat
          ∧ d.get (H.notifyAny k) = 0 ∧ Sends s.hub d [.status .ok]
          ∧ OnlyRegs s.hub d [O.notifySession k, O.notifyIndex k, O.notifySub k, O.notifyMode k, O.notifyPeriod k, H.notifyAny k, H.notifyAt k])
  ∧ (∀ (s : State) (k : Fin 32) (e : Session) (r : Row) (n : Nat), s.hub.domainsOn = true → s.hub.handingOver = false → s.hub.get (O.notifyMode k) = 1 →
        (∀ j : Fin 32, j ≠ k → s.hub.get (O.notifyMode j) ≠ 1 ∧ s.hub.get (O.notifyMode j) ≠ 3) → s.hub.flag (H.notifyAny k) = false →
        s.hub.sessions = [e] → s.hub.get (O.notifySession k) = e.id →
        s.hub.object (s.hub.get (O.notifyIndex k)) (s.hub.get (O.notifySub k)) = some (r, n) → e.transport = .t1s →
        e.tx + 1 < 0xFFFFFFFF → s.hub.get (O.notifySent k) < 2 ^ 32 - 1 →
        Answers .notifySample s fun d => OnlyObjects s.hub d [O.notifyIndex 0, O.fopTx 0, H.notifyLast 0, H.notifyAny 0, H.notifyAt 0]
          ∧ (∃ v h, h = fopHeader 0x86 0 (Level.rank e.level) e.id (s.hub.get O.hubAddress) (e.tx + 1) k.val v.length (s.hub.get (O.notifyIndex k)) (s.hub.get (O.notifySub k)) 0 0 0
            ∧ (s.hub.computed r.obj n (s.hub.get (O.notifySub k) - r.sub) = none →
              v = leBytes (s.hub.get (r.scalarObj n (s.hub.get (O.notifySub k) - r.sub))) r.size)
            ∧ Sends s.hub d [.fop .t1s e.addr e.port s.hub.sourcePort (h ++ v ++ leBytes (hmacSha256 e.key (h ++ v)) 32)]) ∧ d.get (O.notifySent k) = s.hub.get (O.notifySent k) + 1
          ∧ d.flag (H.notifyAny k) = true ∧ d.sessions = [{ e with tx := e.tx + 1 }])

/-- The mailbox, the management network, and writes by OBJECT_WRITE. A doorbell with REQ_BUSY set counts an overrun and takes nothing;
addresses in use are answered for, any of them for ECHO and UDP by the model's reading (notes/assumptions/70.md), with a neighbour's defence
as IPv6 has it (41.md); an address still in detection that another node asks for or answers is a duplicate, raised and not used, and any
other message of a neighbour changes nothing (74.md); a response that waits for RSP_READY is sent in its turn (66.md); a write of an object
that does not exist answers NO_OBJECT. -/
def Obligations.MailboxAndNetwork : Prop :=
  (∀ (s : State) (bs : Bytes), s.hub.domainsOn = true → s.hub.get O.role ≠ 0 → s.hub.flag H.reqBusy = true → s.hub.get O.mailboxOverruns < 2 ^ 32 - 1 →
      Answers (.mailboxDoorbell bs) s fun d => d.get O.mailboxOverruns = s.hub.get O.mailboxOverruns + 1 ∧ d.reqBuf = s.hub.reqBuf
        ∧ OnlyRegs s.hub d [O.mailboxOverruns])
  ∧ (∀ (s : State) (bs : Bytes), s.hub.domainsOn = true → s.hub.get O.role ≠ 0 → s.hub.flag H.reqBusy = false → s.hub.flag H.rspReady = true →
        Answers (.mailboxDoorbell bs) s fun d => d.reqBuf = bs ∧ d.flag H.reqBusy = true ∧ d.out = s.hub.out
          ∧ OnlyRegs s.hub d [H.reqBusy, H.reqLength])
  ∧ (∀ (s : State) (bs : Bytes) (rest : List Bytes), s.hub.domainsOn = true → s.hub.flag H.rspReady = true → s.hub.rspWait = bs :: rest →
        bit (s.hub.get (H.cfg 1 0x48)) 31 = true → s.hub.msixFree 0 = true →
        Answers .rspAck s fun d => OnlyRegs s.hub d [H.rspReady] ∧ d.rspBuf = bs ∧ d.rspWait = rest ∧ d.flag H.rspReady = true
          ∧ Sends s.hub d [.msix 0 (s.hub.get (H.msixAddr 0)) (s.hub.get (H.msixData 0))])
  ∧ (∀ (s : State), s.hub.domainsOn = true → s.hub.flag H.rspReady = true → s.hub.rspWait = [] → s.hub.flag H.reqBusy = false →
        Answers .rspAck s fun d => d.flag H.rspReady = false ∧ d.out = s.hub.out ∧ OnlyRegs s.hub d [H.rspReady])
  ∧ (∀ (s : State) (v : BitVec 32), s.hub.domainsOn = true → Answers (.ntfTailWrite v) s fun d => d.get H.ntfTail = v.toNat % 16 ∧ OnlyRegs s.hub d [H.ntfTail])
  ∧ (∀ (s : State) (a : BitVec 128) (kind : NeighborMsg) (k : Nat), s.hub.domainsOn = true → s.hub.ownAddress a.toNat = some k → s.hub.addressUsed k = true → kind ≠ .advert →
        Answers (.neighborSolicitation a kind) s fun d => Sends s.hub d [.neighborAdvertisement a.toNat (kind == .detect)] ∧ d.regs = s.hub.regs)
  ∧ (∀ (s : State) (a : BitVec 128) (kind : NeighborMsg), s.hub.domainsOn = true → s.hub.ownAddress a.toNat = none →
        Answers (.neighborSolicitation a kind) s fun d => d = s.hub)
  ∧ (∀ (s : State) (a : BitVec 128) (kind : NeighborMsg) (k : Nat), s.hub.domainsOn = true → s.hub.ownAddress a.toNat = some k →
        s.hub.addressUsed k = false → kind ≠ .ask → bit (s.hub.get O.addrState) k = false →
        Answers (.neighborSolicitation a kind) s fun d => bit (d.get O.addrState) k = true ∧ d.addressUsed k = false
          ∧ d.lines = s.hub.lines ++ [⟨84, 255, 0, s.hub.reactions⟩] ∧ OnlyRegs s.hub d [O.addrState] ∧ d.out = s.hub.out)
  ∧ (∀ (s : State) (a : BitVec 128) (kind : NeighborMsg) (k : Nat), s.hub.domainsOn = true → s.hub.ownAddress a.toNat = some k →
        (if s.hub.addressUsed k then kind = .advert else kind = .ask ∨ bit (s.hub.get O.addrState) k = true) →
        exec (.neighborSolicitation a kind) s = .next s)
  ∧ (∀ (s : State) (a : BitVec 128) (bs : Bytes), s.hub.domainsOn = true → s.hub.reachable = true →
        Answers (.echoRequest a bs) s fun d => Sends s.hub d [.echoReply a.toNat bs] ∧ d.regs = s.hub.regs)
  ∧ (∀ (s : State) (a : BitVec 128) (q : BitVec 16), s.hub.domainsOn = true → s.hub.reachable = true → q.toNat ≠ s.hub.get O.fopPort →
        Answers (.udpWrongPort a q) s fun d => Sends s.hub d [.portUnreachable a.toNat q.toNat] ∧ d.regs = s.hub.regs)
  ∧ (∀ (s : State) (lvl : Level) (i : BitVec 16) (j : BitVec 8) (o : BitVec 32) (bs : Bytes), s.hub.domainsOn = true → s.hub.handingOver = false →
        s.hub.object i.toNat j.toNat = none → s.hub.get H.endLevels = 0 → s.hub.get H.endSession = 0 → s.hub.flag H.resetDue = false → NetworkSettled s.hub →
        Answers (.objectWrite lvl i j o bs) s fun d => Sends s.hub d [.status .noObject] ∧ d.regs = s.hub.regs)
  ∧ (∀ (s : State) (v : BitVec 16), s.hub.domainsOn = true → s.hub.handingOver = false → 100 ≤ v.toNat ∧ v.toNat ≤ 60000 → s.hub.get H.endLevels = 0 →
        s.hub.get H.endSession = 0 → s.hub.flag H.resetDue = false → NetworkSettled s.hub →
        Answers (.objectWrite .owner 0x1100 5 0 (leBytes v.toNat 2)) s fun d => Sends s.hub d [.status .ok]
          ∧ d.get O.blockTimeout = v.toNat ∧ OnlyRegs s.hub d [O.blockTimeout])
  ∧ (∀ (s : State) (lvl : Level) (bs : Bytes), s.hub.domainsOn = true → s.hub.handingOver = false → lvl ≠ .owner → s.hub.get H.endLevels = 0 →
        s.hub.get H.endSession = 0 → s.hub.flag H.resetDue = false → NetworkSettled s.hub →
        Answers (.objectWrite lvl 0x1100 5 0 bs) s fun d => Sends s.hub d [.status .access] ∧ d.regs = s.hub.regs)

/-! ## Keys and security -/

/-- Keys are loaded, derived and advanced, and a root secret is drawn, by an Owner only. A new generation goes to the half not in force and
then takes the slot; a hub whose tamper latch is set, or whose VBAT is low, answers BUSY. A tamper condition that comes to hold while an
operation runs and is enabled aborts it: KEY_OP_STATE stays 02h, the store is empty, the latch and the cause are set and no response is
sent; one that is not enabled only shows. That such a condition is named by the command is the model's choice (notes/assumptions/83.md).
ENGINES without the link bit here: the other case also gives ports next-epoch keys. -/
def Obligations.KeyCommands : Prop :=
  (∀ (s : State) (t : Transport) (slot engines : BitVec 8) (key : BitVec 256), s.hub.domainsOn = true → (t ≠ .t1s ∨ s.hub.flag O.t1sKeyLoad = true) →
      slot.toNat ≤ 63 → 1 ≤ engines.toNat ∧ engines.toNat ≤ 15 → bit engines.toNat 0 = false → s.hub.keysBusy = false →
      s.hub.get (H.commit slot.toNat) ≤ 1 → s.hub.get H.endLevels = 0 → s.hub.get H.endSession = 0 → (∀ l : Nat, l < 4 →
      s.hub.get (O.accessKeySlot l) ≠ slot.toNat) → s.hub.inRom = false → s.hub.handingOver = false →
      Answers (.keyLoad .owner t slot engines ⟨key, 0⟩) s fun d => OnlyObjects s.hub d [O.notifyIndex 0, O.keySlotEngines 0, O.keyOpState, O.keyOps, O.linkCryptoKeyState 0, H.sessionKey 0 0, H.keyParity 0 0, H.halfKey 0 0, H.halfEngines 0 0, H.halfGen 0 0, H.halfFull 0 0, H.commit 0, H.endLevels, H.endSession, H.halfCheck 0 0]
        ∧ Sends s.hub d [.status .ok] ∧ d.get (H.commit slot.toNat) = 1 - s.hub.get (H.commit slot.toNat)
        ∧ d.get (H.halfKey slot.toNat (1 - s.hub.get (H.commit slot.toNat))) = key.toNat ∧ d.get (O.keySlotState slot.toNat) = 1
        ∧ d.get (O.keySlotEngines slot.toNat) = engines.toNat ∧ d.get O.keyOpState = 1)
  ∧ (∀ (s : State) (t : Transport) (slot engines : BitVec 8) (key : BitVec 256) (hit : BitVec 9), s.hub.domainsOn = true → t ≠ .t1s → slot.toNat ≤ 63 → 1 ≤ engines.toNat
        ∧ engines.toNat ≤ 15 → s.hub.flag O.tamperLatch = true → s.hub.get H.endLevels = 0 → s.hub.get H.endSession = 0 →
        s.hub.inRom = false → s.hub.handingOver = false →
        Answers (.keyLoad .owner t slot engines ⟨key, hit⟩) s fun d => Sends s.hub d [.status .busy] ∧ d.regs = s.hub.regs)
  ∧ (∀ (s : State) (r : DeriveRequest) (k n : Nat), s.hub.domainsOn = true → s.hub.keysBusy = false → SlotSound s.hub r.source.toNat → s.hub.deriveSource r.source.toNat = some (k, n) →
        r.dest.toNat ≤ 63 → r.dest ≠ r.source → Nat.land r.engines.toNat n = r.engines.toNat → 1 ≤ r.labelLen.toNat
        ∧ r.labelLen.toNat ≤ 16 → r.contextLen.toNat ≤ 32 → bit r.engines.toNat 0 = false → s.hub.get (H.commit r.dest.toNat) ≤ 1 →
        s.hub.get H.endLevels = 0 → s.hub.get H.endSession = 0 → (∀ l : Nat, l < 4 → s.hub.get (O.accessKeySlot l) ≠ r.dest.toNat) →
        s.hub.inRom = false → s.hub.handingOver = false →
        Answers (.keyDerive .owner ⟨r, 0⟩) s fun d => OnlyObjects s.hub d [O.notifyIndex 0, O.keySlotEngines 0, O.keyOpState, O.keyOps, O.linkCryptoKeyState 0, H.sessionKey 0 0, H.keyParity 0 0, H.halfKey 0 0, H.halfEngines 0 0, H.halfGen 0 0, H.halfFull 0 0, H.commit 0, H.endLevels, H.endSession, H.halfCheck 0 0]
          ∧ Sends s.hub d [.status .ok] ∧ d.get (O.keySlotState r.dest.toNat) = 1
          ∧ d.get (O.keySlotEngines r.dest.toNat) = r.engines.toNat % 16
          ∧ d.get (H.halfKey r.dest.toNat (1 - s.hub.get (H.commit r.dest.toNat))) = leNat (kdf k (r.label.take r.labelLen.toNat) (r.context.take r.contextLen.toNat) 256) % 2 ^ 256)
  ∧ (∀ (s : State) (r : DeriveRequest) (hit : BitVec 9), s.hub.domainsOn = true → s.hub.keysBusy = false → SlotSound s.hub r.source.toNat → s.hub.deriveSource r.source.toNat = none → s.hub.get H.endLevels = 0 →
        s.hub.get H.endSession = 0 → s.hub.inRom = false → s.hub.handingOver = false →
        Answers (.keyDerive .owner ⟨r, hit⟩) s fun d => Sends s.hub d [.status .invalidValue] ∧ d.regs = s.hub.regs)
  ∧ (∀ (s : State), s.hub.domainsOn = true → s.hub.get O.rootState = 0 → s.hub.keysBusy = false → s.hub.get O.rngState = 1 → s.hub.inRom = false →
        s.hub.handingOver = false →
        Answers (.rootGenerate .owner true) s fun d => Sends s.hub d [.status .ok] ∧ d.get O.rootState = 1
          ∧ OnlyRegs s.hub d [O.rootState, H.rootSecret])
  ∧ (∀ (s : State) (p : Port), s.hub.domainsOn = true → s.hub.get (O.linkCryptoKeyState p) = 3 → s.hub.get (H.sessionKey p 2) ≠ 0 →
        s.hub.get (H.sessionKey p 2) < 256 ^ 36 → s.hub.get (H.sessionKey p 3) = 0 → s.hub.inRom = false → s.hub.handingOver = false →
        Answers (.advance .owner p 1) s fun d => OnlyObjects s.hub d [O.keyEpoch 0, O.linkCryptoKeyState 0, H.sessionKey 0 0, H.keyParity 0 0]
          ∧ Sends s.hub d [.status .ok] ∧ d.get (H.sessionKey p 0) = s.hub.get (H.sessionKey p 2) ∧ d.get (H.sessionKey p 2) = 0
          ∧ d.get (O.linkCryptoKeyState p) = 1)
  ∧ (∀ (s : State) (p : Port), s.hub.domainsOn = true → s.hub.get (O.linkCryptoKeyState p) ≠ 3 → s.hub.inRom = false → s.hub.handingOver = false →
        Answers (.advance .owner p 1) s fun d => Sends s.hub d [.status .busy] ∧ d.regs = s.hub.regs)

  ∧ (∀ (s : State) (lvl : Level) (t : Transport) (slot engines : BitVec 8) (key : BitVec 256) (hit : BitVec 9), s.hub.domainsOn = true → lvl ≠ .owner →
        s.hub.get H.endLevels = 0 → s.hub.get H.endSession = 0 → s.hub.inRom = false → s.hub.handingOver = false →
        Answers (.keyLoad lvl t slot engines ⟨key, hit⟩) s fun d => Sends s.hub d [.status .access] ∧ d.regs = s.hub.regs)
  ∧ (∀ (s : State) (t : Transport) (slot engines : BitVec 8) (key : BitVec 256) (hit : BitVec 9), s.hub.domainsOn = true → t ≠ .t1s → slot.toNat ≤ 63 → 1 ≤ engines.toNat
        ∧ engines.toNat ≤ 15 → bit (s.hub.get O.tamperActive) 6 = true → s.hub.get H.endLevels = 0 → s.hub.get H.endSession = 0 → s.hub.inRom = false → s.hub.handingOver = false →
        Answers (.keyLoad .owner t slot engines ⟨key, hit⟩) s fun d => Sends s.hub d [.status .busy] ∧ d.regs = s.hub.regs)
  ∧ (∀ (s : State) (r : DeriveRequest) (hit : BitVec 9), s.hub.domainsOn = true → (s.hub.flag O.tamperLatch = true ∨ bit (s.hub.get O.tamperActive) 6 = true) →
        s.hub.get H.endLevels = 0 → s.hub.get H.endSession = 0 → s.hub.inRom = false → s.hub.handingOver = false → SlotSound s.hub r.source.toNat →
        Answers (.keyDerive .owner ⟨r, hit⟩) s fun d => Sends s.hub d [.status .busy] ∧ d.regs = s.hub.regs)
  ∧ (∀ (s : State), s.hub.domainsOn = true → (s.hub.flag O.tamperLatch = true ∨ bit (s.hub.get O.tamperActive) 6 = true) → s.hub.inRom = false → s.hub.handingOver = false →
        Answers (.rootGenerate .owner true) s fun d => Sends s.hub d [.status .busy] ∧ d.regs = s.hub.regs)
  ∧ (∀ (s : State) (t : Transport) (slot engines : BitVec 8) (key : BitVec 256) (hit : BitVec 9), s.hub.domainsOn = true → (t ≠ .t1s ∨ s.hub.flag O.t1sKeyLoad = true) →
        slot.toNat ≤ 63 → 1 ≤ engines.toNat ∧ engines.toNat ≤ 15 → s.hub.keysBusy = false → s.hub.get (H.commit slot.toNat) ≤ 1 → s.hub.get H.endLevels = 0 →
        s.hub.get H.endSession = 0 → s.hub.inRom = false → s.hub.handingOver = false → s.hub.tamperActing hit.toNat = 0 →
        Answers (.keyLoad .owner t slot engines ⟨key, hit⟩) s fun d => d.get (O.keySlotState slot.toNat) = 1 ∧ (∀ j : Nat, j < 9 → bit (d.get O.tamperActive) j = (bit (s.hub.get O.tamperActive) j || bit hit.toNat j)))
  ∧ (∀ (s : State) (t : Transport) (slot engines : BitVec 8) (key : BitVec 256) (hit : BitVec 9), s.hub.domainsOn = true → (t ≠ .t1s ∨ s.hub.flag O.t1sKeyLoad = true) →
        slot.toNat ≤ 63 → 1 ≤ engines.toNat ∧ engines.toNat ≤ 15 → s.hub.keysBusy = false → s.hub.get (H.commit slot.toNat) ≤ 1 → s.hub.get H.endLevels = 0 →
        s.hub.get H.endSession = 0 → s.hub.inRom = false → s.hub.handingOver = false → s.hub.tamperActing hit.toNat ≠ 0 →
        Answers (.keyLoad .owner t slot engines ⟨key, hit⟩) s fun d => d.get O.keyOpState = 2 ∧ (∀ k : Nat, k < 64 → d.get (O.keySlotState k) = 0 ∧ d.get (H.halfKey k 0) = 0 ∧ d.get (H.halfKey k 1) = 0)
          ∧ d.flag O.tamperLatch = true ∧ d.get O.tamperCause = s.hub.tamperActing hit.toNat ∧ ∃ xs, Sends s.hub d xs ∧ ∀ st : Status, .status st ∉ xs)
  ∧ (∀ (s : State) (r : DeriveRequest) (k n : Nat) (hit : BitVec 9), s.hub.domainsOn = true → s.hub.keysBusy = false → SlotSound s.hub r.source.toNat →
        s.hub.deriveSource r.source.toNat = some (k, n) → r.dest.toNat ≤ 63 → r.dest ≠ r.source → Nat.land r.engines.toNat n = r.engines.toNat →
        1 ≤ r.labelLen.toNat ∧ r.labelLen.toNat ≤ 16 → r.contextLen.toNat ≤ 32 → s.hub.get (H.commit r.dest.toNat) ≤ 1 → s.hub.get H.endLevels = 0 →
        s.hub.get H.endSession = 0 → s.hub.inRom = false → s.hub.handingOver = false → s.hub.tamperActing hit.toNat = 0 →
        Answers (.keyDerive .owner ⟨r, hit⟩) s fun d => d.get (O.keySlotState r.dest.toNat) = 1 ∧ (∀ j : Nat, j < 9 → bit (d.get O.tamperActive) j = (bit (s.hub.get O.tamperActive) j || bit hit.toNat j)))
  ∧ (∀ (s : State) (r : DeriveRequest) (k n : Nat) (hit : BitVec 9), s.hub.domainsOn = true → s.hub.keysBusy = false → SlotSound s.hub r.source.toNat →
        s.hub.deriveSource r.source.toNat = some (k, n) → r.dest.toNat ≤ 63 → r.dest ≠ r.source → Nat.land r.engines.toNat n = r.engines.toNat →
        1 ≤ r.labelLen.toNat ∧ r.labelLen.toNat ≤ 16 → r.contextLen.toNat ≤ 32 → s.hub.get (H.commit r.dest.toNat) ≤ 1 → s.hub.get H.endLevels = 0 →
        s.hub.get H.endSession = 0 → s.hub.inRom = false → s.hub.handingOver = false → s.hub.tamperActing hit.toNat ≠ 0 →
        Answers (.keyDerive .owner ⟨r, hit⟩) s fun d => d.get O.keyOpState = 2 ∧ (∀ k : Nat, k < 64 → d.get (O.keySlotState k) = 0 ∧ d.get (H.halfKey k 0) = 0 ∧ d.get (H.halfKey k 1) = 0)
          ∧ d.flag O.tamperLatch = true ∧ d.get O.tamperCause = s.hub.tamperActing hit.toNat ∧ ∃ xs, Sends s.hub d xs ∧ ∀ st : Status, .status st ∉ xs)
/-- A detection of an enabled source in Moored, Stowed, reset or Run zeroes every key; the tamper settings, the fuses and the generator's
health. A source that is not enabled only shows in TAMPER_ACTIVE, and only one newly present is detected (the model's reading,
notes/assumptions/83.md). In Run a detection ends every session, reports TAMPER and retrains encrypted links; in Moored, Stowed and reset it
waits for the wake to be reported. A signer's fuse blows only where the running image does not need its key, the lock's only with an IMAGE
slot, each with the confirmation word A5C3h; else BUSY. The nonce drawn when the generator passes is the model's reading
(notes/assumptions/35.md). -/
def Obligations.TamperAndFuses : Prop :=
  (∀ (s : State) (src : BitVec 9) (act : Nat),
      Nat.land (Nat.land src.toNat (511 - s.hub.get O.tamperActive % 512)) (s.hub.get O.tamperEnable) = act → act ≠ 0 → (3 ≤ s.hub.get O.powerState ∨ s.hub.flag H.running = false) →
      s.hub.get O.activationState = 0 → s.hub.get O.tamperEnable < 512 →
      Answers (.tamperDetect src) s fun d => OnlyIndexes s.hub d [0x1110, 0x2000, 0x2006, 0x7000, 0x7001, 0x7010, 0x7020, 0x9004, 0x9005]
        ∧ d.flag O.tamperLatch = true ∧ d.get O.tamperCause = act ∧ d.get O.keystoreState = 1
        ∧ d.flag H.tamperAtWake = true ∧ d.get H.rootSecret = 0 ∧ d.get O.rootState = 0 ∧ (∀ k h : Nat, k < 64 → h < 2 →
        d.get (H.halfKey k h) = 0) ∧ (∀ e ∈ d.sessions, e.key = 0))
  ∧ (∀ (s : State) (src : BitVec 9), Nat.land src.toNat (s.hub.get O.tamperEnable) = 0 → s.hub.get O.activationState = 0 →
        Answers (.tamperDetect src) s fun d => d.get O.tamperActive = src.toNat ∧ OnlyRegs s.hub d [O.tamperActive])
  ∧ (∀ (s : State) (v : BitVec 16), s.hub.domainsOn = true → s.hub.inRom = false → s.hub.handingOver = false →
        Answers (.tamperConfigWrite .owner .polarity v) s fun d => d.get O.tamperPolarity = v.toNat % 16 ∧ Sends s.hub d [.status .ok]
          ∧ OnlyRegs s.hub d [O.tamperPolarity])
  ∧ (∀ (s : State), s.hub.domainsOn = true → bit (s.hub.get (O.slotInfoSigner (s.hub.get O.runningSlot))) 1 = true → s.hub.get O.pkRevoked < 256 →
        s.hub.inRom = false → s.hub.handingOver = false →
        Answers (.revokeKey0 .owner 0xA5C3) s fun d => bit (d.get O.pkRevoked) 0 = true ∧ Sends s.hub d [.status .ok]
          ∧ OnlyRegs s.hub d [O.pkRevoked])
  ∧ (∀ (s : State) (v : BitVec 16), s.hub.domainsOn = true → v ≠ 0xA5C3 → s.hub.inRom = false → s.hub.handingOver = false →
        Answers (.revokeKey0 .owner v) s fun d => Sends s.hub d [.status .invalidValue] ∧ d.regs = s.hub.regs)
  ∧ (∀ (s : State), s.hub.domainsOn = true → bit (s.hub.get (O.slotInfoSigner (s.hub.get O.runningSlot))) 0 = true → s.hub.get O.pkRevoked < 256 →
        s.hub.inRom = false → s.hub.handingOver = false →
        Answers (.revokeKey1 .owner 0xA5C3) s fun d => bit (d.get O.pkRevoked) 1 = true ∧ Sends s.hub d [.status .ok]
          ∧ OnlyRegs s.hub d [O.pkRevoked])
  ∧ (∀ (s : State), s.hub.domainsOn = true → s.hub.hasImageSlot = true → s.hub.inRom = false → s.hub.handingOver = false →
        Answers (.blowCosignLock .owner 0xA5C3) s fun d => d.flag O.cosignLock = true ∧ Sends s.hub d [.status .ok]
          ∧ OnlyRegs s.hub d [O.cosignLock])
  ∧ (∀ (s : State), s.hub.domainsOn = true → s.hub.get O.activationState = 0 → s.hub.get O.rngFails < 2 ^ 32 - 1 →
        Answers .rngHealthFail s fun d => d.get O.rngState = 2 ∧ d.get O.rngFails = s.hub.get O.rngFails + 1
          ∧ d.lines = s.hub.lines ++ [⟨87, 255, 0, s.hub.reactions⟩] ∧ OnlyRegs s.hub d [O.rngState, O.rngFails])
  ∧ (∀ (s : State), s.hub.domainsOn = true → s.hub.get O.activationState = 0 → ((∀ p : Nat, p < 24 → s.hub.awaitsNonce p = false)) →
        Answers .rngHealthPass s fun d => d.get O.rngState = 1 ∧ OnlyObjects s.hub d [O.rngState, H.meshSeed 0, H.meshAt])
  ∧ (∀ (s : State) (p : Port), s.hub.domainsOn = true → s.hub.get O.activationState = 0 → s.hub.awaitsNonce p = true →
        Answers .rngHealthPass s fun d => d.get O.rngState = 1 ∧ d.flag (H.hasKey p) = true
          ∧ OnlyObjects s.hub d [O.rngState, H.hasKey 0, H.ownNonce 0, H.keyParity 0 0, H.meshSeed 0, H.meshAt, H.nonceDrawn 0] ∧ d.out = s.hub.out)

  ∧ (∀ (s : State), s.hub.domainsOn = true → bit (s.hub.get (O.slotInfoSigner (s.hub.get O.runningSlot))) 1 = false → s.hub.inRom = false → s.hub.handingOver = false →
        Answers (.revokeKey0 .owner 0xA5C3) s fun d => Sends s.hub d [.status .busy] ∧ d.regs = s.hub.regs)
  ∧ (∀ (s : State), s.hub.domainsOn = true → bit (s.hub.get (O.slotInfoSigner (s.hub.get O.runningSlot))) 0 = false → s.hub.inRom = false → s.hub.handingOver = false →
        Answers (.revokeKey1 .owner 0xA5C3) s fun d => Sends s.hub d [.status .busy] ∧ d.regs = s.hub.regs)
  ∧ (∀ (s : State), s.hub.domainsOn = true → s.hub.hasImageSlot = false → s.hub.inRom = false → s.hub.handingOver = false →
        Answers (.blowCosignLock .owner 0xA5C3) s fun d => Sends s.hub d [.status .busy] ∧ d.regs = s.hub.regs)
  ∧ (∀ (s : State) (src : BitVec 9) (act : Nat),
        Nat.land (Nat.land src.toNat (511 - s.hub.get O.tamperActive % 512)) (s.hub.get O.tamperEnable) = act → act ≠ 0 → s.hub.flag H.running = true → s.hub.get O.powerState = 0 →
 s.hub.get O.activationState = 0 → s.hub.get O.tamperEnable < 512 →
        Answers (.tamperDetect src) s fun d => d.flag O.tamperLatch = true ∧ d.get O.tamperCause = act ∧ d.get O.keystoreState = 1
          ∧ d.get H.rootSecret = 0 ∧ d.get O.rootState = 0 ∧ (∀ k h : Nat, k < 64 → h < 2 → d.get (H.halfKey k h) = 0)
          ∧ d.sessions = [] ∧ d.flag H.tamperAtWake = false ∧ (⟨85, 255, act, s.hub.reactions⟩ : Detection) ∈ d.lines
          ∧ (∀ p : Nat, p < 24 → s.hub.flag (H.crypt p) = true → s.hub.get (O.linkState p) = 3 → d.get (O.linkState p) = 5))
/-! ## The Umpire -/

/-- One sampled event of a Notice outside every shadow window is counted, logged and latched as FIRST; a source of severity Off is only
counted; a masked or reserved source leaves nothing. -/
def Obligations.UmpireEventPath : Prop :=
  (∀ (s : State) (e : SourceEvent), s.hub.lines = [] → s.hub.windows = [] → s.hub.masked e.source e.unit.toNat = false →
      reservedSource e.source = false → s.hub.get (O.sourceSeverity e.source) = 1 → 1 < s.hub.get O.faultNLevel →
      s.hub.get O.firstSource = 255 → e.source.val ≠ 0 → s.hub.get O.faultSeq < 2 ^ 32 - 1 →
      s.hub.get (O.sourceEvents e.source) < 2 ^ 32 - 1 →
      Answers (.umpireEvent [e]) s fun d => OnlyObjects s.hub d [statusWord 0, statusWord 32, statusWord 64, O.sourceEvents 0, O.faultLogSeq 0, O.faultSeq, O.firstSource, O.firstUnit, O.firstSeverity, O.firstData, O.firstStroke]
        ∧ d.get (O.sourceEvents e.source) = s.hub.get (O.sourceEvents e.source) + 1
        ∧ bit (d.get (statusWord e.source)) (e.source.val % 32) = true ∧ d.get O.faultSeq = s.hub.get O.faultSeq + 1
        ∧ d.get O.firstSource = e.source.val ∧ d.get O.firstUnit = e.unit.toNat ∧ d.get O.firstSeverity = 1
        ∧ d.get O.firstData = e.data.toNat ∧ d.lines = [] ∧ d.out = s.hub.out ∧ d.windows = [])
  ∧ (∀ (s : State) (e : SourceEvent), s.hub.lines = [] → s.hub.windows = [] → s.hub.masked e.source e.unit.toNat = false →
        reservedSource e.source = false → s.hub.get (O.sourceSeverity e.source) = 0 → s.hub.get (O.sourceEvents e.source) < 2 ^ 32 - 1 →
        Answers (.umpireEvent [e]) s fun d => d.get (O.sourceEvents e.source) = s.hub.get (O.sourceEvents e.source) + 1
          ∧ OnlyRegs s.hub d [O.sourceEvents e.source] ∧ d.out = s.hub.out)
  ∧ (∀ (s : State) (e : SourceEvent), s.hub.lines = [] → (s.hub.masked e.source e.unit.toNat = true ∨ reservedSource e.source = true) →
        Answers (.umpireEvent [e]) s fun d => d = s.hub)

/-- Windows close, FAULT_N is released, and the Umpire's objects are written. -/
def Obligations.UmpireCommands : Prop :=
  (∀ (s : State) (r : BitVec 16) (w : Window), s.hub.windows = [w] → w.id % 65536 = r.toNat → w.ended = true →
      Answers (.shadowWindowClose r) s fun d => d.windows = [] ∧ d.regs = s.hub.regs ∧ d.lines = s.hub.lines
        ∧ d.now = max s.hub.now (w.doneAt + 1000 * s.hub.get O.shadowTail))
  ∧ (∀ (s : State) (r : BitVec 16) (w : Window), s.hub.windows = [w] → w.id % 65536 = r.toNat → w.ended = false →
        Answers (.reactionTimeout r) s fun d => d.windows = [] ∧ d.regs = s.hub.regs
          ∧ d.lines = s.hub.lines ++ [⟨94, 255, r.toNat, s.hub.reactions⟩])
  ∧ (∀ (s : State), s.hub.flag H.faultNTime = true → s.hub.get O.faultNMode = 0 → s.hub.flag H.faultNFatal = false →
        Answers .faultNTimeEnd s fun d => d.flag O.faultNState = false ∧ d.flag H.faultNTime = false
          ∧ OnlyRegs s.hub d [O.faultNState, H.faultNTime, H.faultNFatal, H.faultNFree])
  ∧ (∀ (s : State), s.hub.flag H.faultNTime = true → s.hub.get O.faultNMode = 1 → s.hub.flag H.faultNFree = false →
        Answers .faultNTimeEnd s fun d => d.flag H.faultNTime = false ∧ OnlyRegs s.hub d [H.faultNTime])
  ∧ (∀ (s : State) (lvl : Level), s.hub.domainsOn = true → Engineers lvl → s.hub.flag O.faultNState = true → s.hub.flag H.faultNTime = false →
        s.hub.handingOver = false →
        Answers (.faultNRelease lvl true) s fun d => d.flag O.faultNState = false ∧ Sends s.hub d [.status .ok]
          ∧ OnlyRegs s.hub d [O.faultNState, H.faultNFatal, H.faultNFree])
  ∧ (∀ (s : State) (lvl : Level), s.hub.domainsOn = true → Engineers lvl → s.hub.handingOver = false →
        Answers (.firstClear lvl true) s fun d => d.get O.firstSource = 255 ∧ d.flag O.firstOverflow = false
          ∧ d.get O.firstOverflowCount = 0 ∧ Sends s.hub d [.status .ok]
          ∧ OnlyRegs s.hub d [O.firstSource, O.firstUnit, O.firstSeverity, O.firstData, O.firstStroke, O.firstOverflow, O.firstOverflowCount])
  ∧ (∀ (s : State) (lvl : Level) (k : Fin 3) (v : BitVec 32), s.hub.domainsOn = true → Engineers lvl → s.hub.get (statusWord (32 * k.val)) < 2 ^ 32 →
        s.hub.handingOver = false →
        Answers (.statusClear lvl k v) s fun d => d.get (statusWord (32 * k.val)) = clearOnes (s.hub.get (statusWord (32 * k.val))) v.toNat
          ∧ Sends s.hub d [.status .ok] ∧ OnlyRegs s.hub d [statusWord (32 * k.val)])
  ∧ (∀ (s : State) (lvl : Level) (k : Fin 96) (v : SourceConfig), s.hub.domainsOn = true → Engineers lvl → sourceConfigAllowed k v = true →
        s.hub.handingOver = false →
        Answers (.sourceConfigWrite lvl k v) s fun d => d.get (O.sourceSeverity k) = v.severity.toNat
          ∧ d.get (O.sourceEscTo k) = v.escTo.toNat ∧ d.get (O.sourceEscCount k) = v.escCount.toNat
          ∧ d.get (O.sourceEscWindow k) = v.escWindow.toNat ∧ Sends s.hub d [.status .ok]
          ∧ OnlyRegs s.hub d [O.sourceSeverity k, O.sourceEscTo k, O.sourceEscCount k, O.sourceEscWindow k, H.escCount k])
  ∧ (∀ (s : State) (lvl : Level) (k : Fin 96) (v : SourceConfig), s.hub.domainsOn = true → Engineers lvl → (5 < v.severity.toNat ∨ v.escCount = 0
        ∨ v.escTo.toNat < 3) → s.hub.handingOver = false →
        Answers (.sourceConfigWrite lvl k v) s fun d => Sends s.hub d [.status .invalidValue] ∧ d.regs = s.hub.regs)
  ∧ (∀ (s : State) (lvl : Level) (v : BitVec 32), s.hub.domainsOn = true → Engineers lvl → s.hub.get O.degraded < 2 ^ 32 → s.hub.handingOver = false →
        Answers (.degradedClear lvl v) s fun d => OnlyObjects s.hub d [O.gearCeiling 0, O.degraded, H.degradeCeiling 0, H.powerDegraded 0]
          ∧ (d.get O.degraded = clearOnes (s.hub.get O.degraded) v.toNat ∧ Sends s.hub d [.status .ok]
          ∧ ∀ p : Port, bit v.toNat p.val = true → d.get (H.degradeCeiling p) = 0 ∧ d.get (H.powerDegraded p) = 0))

/-! ## Update and settings -/

/-- A transfer opens, takes blocks into the flash, is verified, and closes. A sound block changes its own 4,096 bytes of the NOR and nothing
else of the flash; verification of an image gives the first failing check's code, STATE 07h and UPDATE_REFUSED, or Verified, and a settings
record that passes is Verified. A transfer closed while a block is programmed answers that block BUSY (notes/assumptions/54.md, the model's
choice). -/
def Obligations.TransferCommands : Prop :=
  (∀ (s : State) (lvl : Level) (size : BitVec 32) (ident : BitVec 64), s.hub.domainsOn = true → Engineers lvl → s.hub.get O.transferState = 0 → s.hub.get H.programming = 0 →
      s.hub.flag O.updateLock = false → s.hub.get O.activationState = 0 → size.toNat % 4096 = 0 → 16384 ≤ size.toNat
      ∧ size.toNat ≤ 29360128 → s.hub.handingOver = false →
      AnswersAll (.transferOpen lvl 1 size ident) s fun d m => ImagesKept s.mem m ∧ OnlyObjects s.hub d [O.slotInfoChanged 0, O.transferState, O.blocksTotal, O.bitmapByte 0, O.verifyResult, O.transferId, O.activate, O.activationState, O.recordState 0, H.digest 0, H.digestHeld 0, H.transferTarget, H.transferSize, H.programming, H.transferSlot, H.erased, H.recordGone]
        ∧ Sends s.hub d [.status .ok] ∧ d.get O.transferState = 1 ∧ d.get O.transferId = ident.toNat
        ∧ d.get O.blocksTotal = size.toNat / 4096 ∧ d.get O.verifyResult = 0 ∧ d.get (O.slotInfoState s.hub.receivingSlot) = 1
        ∧ d.get (O.slotInfoSize s.hub.receivingSlot) = size.toNat)
  ∧ (∀ (s : State) (size : BitVec 32) (ident : BitVec 64), s.hub.domainsOn = true → s.hub.handingOver = false →
        Answers (.transferOpen .engineer 2 size ident) s fun d => Sends s.hub d [.status .access] ∧ d.regs = s.hub.regs)
  ∧ (∀ (s : State) (lvl : Level), s.hub.domainsOn = true → Engineers lvl → s.hub.get O.transferState ≠ 0 → s.hub.get H.transferTarget = 1 → s.hub.get H.programming = 0 →
        s.hub.get O.activationState = 0 → s.hub.handingOver = false →
        AnswersAll (.transferAbort lvl true) s fun d m => ImagesKept s.mem m ∧ OnlyObjects s.hub d [O.slotInfoChanged 0, O.transferState, O.blocksTotal, O.bitmapByte 0, O.transferId, O.activate, O.activationState, O.refusal, O.recordCrc 0, H.holdMark, H.handover, H.convertedRecord, H.transferTarget, H.programming, H.erased, H.recordGone]
          ∧ Sends s.hub d [.status .ok] ∧ d.get O.transferState = 0 ∧ d.get (O.slotInfoState (s.hub.get H.transferSlot)) = 0
          ∧ d.get O.blocksTotal = 0)
  ∧ (∀ (s : State) (lvl : Level), s.hub.domainsOn = true → Engineers lvl → s.hub.get O.transferState ≠ 0 → s.hub.get H.programming ≠ 0 → s.hub.blockWait = [] →
        s.hub.handingOver = false →
        AnswersAll (.transferAbort lvl true) s fun d m => ImagesKept s.mem m ∧ Sends s.hub d [.status .busy, .status .ok]
          ∧ d.get O.transferState = 0 ∧ d.get H.programming = 0)
  ∧ (∀ (s : State) (lvl : Level), s.hub.domainsOn = true → Engineers lvl → s.hub.get O.transferState = 0 → s.hub.handingOver = false →
        Answers (.transferAbort lvl true) s fun d => Sends s.hub d [.status .ok] ∧ d.regs = s.hub.regs)
  ∧ (∀ (s : State) (lvl : Level) (k : Nat) (bs : Bytes) (crc : BitVec 32), s.hub.domainsOn = true → Engineers lvl → s.hub.get O.transferState = 1 →
        k < s.hub.get O.blocksTotal → k < 7168 → bs.length = 4096 → crc32c bs = crc.toNat → s.hub.get H.programming = 0 →
        s.mem.wf = true → s.hub.handingOver = false →
        AnswersAll (.imageBlockWrite lvl k bs crc) s fun d m => OnlyObjects s.hub d [O.notifyIndex 0, O.slotInfoChanged 0, O.transferState, O.bitmapByte 0, O.blockCrcErrors, O.fopTx 0, H.digest 0, H.digestHeld 0, H.programming, H.reqBusy, H.rspReady, O.recordState 0, O.activate, O.activationState, O.refusal, H.holdMark, H.handover, H.convertedRecord, H.recordGone, H.handoverAsked, H.reportFlags]
          ∧ d.get H.programming = k + 1 ∧ d.out = s.hub.out ∧ m.dram = s.mem.dram ∧ m.image = s.mem.image
          ∧ m.readFlash (s.hub.transferBase + 4096 * k) 4096 = bs ∧ (∀ a, a < s.hub.transferBase + 4096 * k
          ∨ s.hub.transferBase + 4096 * k + 4096 ≤ a → m.readFlash a 1 = s.mem.readFlash a 1))
  ∧ (∀ (s : State) (lvl : Level) (k : Nat) (bs : Bytes) (crc : BitVec 32), s.hub.domainsOn = true → Engineers lvl → (s.hub.get O.transferState = 0
        ∨ s.hub.get O.blocksTotal ≤ k) → s.hub.handingOver = false →
        Answers (.imageBlockWrite lvl k bs crc) s fun d => Sends s.hub d [.status .range] ∧ d.regs = s.hub.regs)
  ∧ (∀ (s : State) (k : Nat), s.hub.domainsOn = true → s.hub.get H.programming = k + 1 → s.hub.blockWait = [] → s.hub.get O.blocksTotal < 2 ^ 16 → s.hub.get (O.bitmapByte (k / 8)) < 256 →
        AnswersAll .imageBlockProgrammed s fun d m => RecordsKept s.mem m ∧ OnlyObjects s.hub d [O.notifyIndex 0, O.transferState, O.bitmapByte 0, O.fopTx 0, H.programming, H.reqBusy, H.rspReady]
          ∧ Sends s.hub d [.status .ok] ∧ bit (d.get (O.bitmapByte (k / 8))) (k % 8) = true ∧ d.get H.programming = 0)
  ∧ (∀ (s : State) (lvl : Level), s.hub.domainsOn = true → Engineers lvl → s.hub.get O.activationState ≤ 1 → (s.hub.get O.transferState = 2
        ∨ s.hub.get O.transferState = 4 ∨ s.hub.get O.transferState = 5) → s.hub.handingOver = false →
        AnswersAll (.verify lvl true) s fun d m => RecordsKept s.mem m ∧ Sends s.hub d [.status .ok] ∧ d.get O.transferState = 3
          ∧ OnlyRegs s.hub d [O.transferState])
  ∧ (∀ (s : State) (lvl : Level), s.hub.domainsOn = true → Engineers lvl → (2 ≤ s.hub.get O.activationState ∨ s.hub.get O.transferState ≤ 1) →
        s.hub.handingOver = false →
        Answers (.verify lvl true) s fun d => Sends s.hub d [.status .busy] ∧ d.regs = s.hub.regs)
  ∧ (∀ (s : State) (r : Nat), s.hub.domainsOn = true → s.hub.get O.transferState = 3 → s.hub.get H.transferTarget = 1 → s.hub.inRom = false →
        s.hub.get O.activationState = 0 → s.hub.useImageKeys = s.hub →
        s.hub.verifyImage s.mem (slotBase (s.hub.get H.transferSlot)) (s.hub.get H.transferSize) [1, 2, 3, 4, 5, 6, 7, 8, 9] = r →
        AnswersAll .verifyDone s fun d m => RecordsKept s.mem m ∧ OnlyObjects s.hub d [O.slotInfoChanged 0, O.transferState, O.verifyResult, O.activate, O.activationState, O.refusal, O.recordCrc 0, H.holdMark, H.handover, H.digest 0, H.digestHeld 0, H.convertedRecord]
          ∧ d.get O.transferState = (if r = 1 then 4 else 5) ∧ d.get O.verifyResult = r
          ∧ d.get (O.slotInfoState (s.hub.get H.transferSlot)) = (if r = 1 then 3 else 7)
          ∧ (r = 1 → d.lines = s.hub.lines) ∧ (r ≠ 1 → d.lines = s.hub.lines ++ [⟨88, 255, r, s.hub.reactions⟩]))
  ∧ (∀ (s : State), s.hub.domainsOn = true → s.hub.get O.transferState = 3 → s.hub.get H.transferTarget = 2 → s.hub.get H.transferSlot < 4 →
        s.hub.recordPasses s.mem (recordBase (s.hub.get H.transferSlot)) (s.hub.get H.transferSize) = true →
        AnswersAll .verifyDone s fun d m => ImagesKept s.mem m ∧ d.get O.transferState = 4 ∧ d.get O.verifyResult = 1
          ∧ d.lines = s.hub.lines ∧ OnlyObjects s.hub d [O.transferState, O.verifyResult, O.recordState 0, H.recordGone, H.erased])

/-- An activation is asked for, loads, prepares, waits for its handover and completes it. ACTIVATE_NOW is refused with the first condition
of R400 that fails, in REFUSAL and in UPDATE_REFUSED; loading verifies the image again and goes on to Preparing or ends the activation; a
handover goes to the confirmation window, and one with a record that fails its check ends with REFUSAL 06h. -/
def Obligations.ActivationCommands : Prop :=
  (∀ (s : State), s.hub.domainsOn = true → s.hub.get O.activationState = 0 → s.hub.activationRefusal = 0 → s.hub.get O.transferState = 0 →
      s.hub.handingOver = false →
      Answers (.activateNow .owner) s fun d => Sends s.hub d [.status .ok] ∧ d.get O.activationState = 2
        ∧ OnlyRegs s.hub d [O.activationState, O.activate, O.refusal, H.deferred])
  ∧ (∀ (s : State) (r : Nat), s.hub.domainsOn = true → s.hub.get O.activationState = 0 → s.hub.activationRefusal = r → r ≠ 0 → s.hub.handingOver = false →
        Answers (.activateNow .owner) s fun d => Sends s.hub d [.status .busy] ∧ d.get O.refusal = r
          ∧ d.lines = s.hub.lines ++ [⟨88, 255, 0x100 + r, s.hub.reactions⟩] ∧ OnlyRegs s.hub d [O.refusal])
  ∧ (∀ (s : State), s.hub.domainsOn = true → s.hub.get O.activationState = 0 → s.hub.handingOver = false →
        Answers (.activateDeferred .owner) s fun d => Sends s.hub d [.status .ok] ∧ d.get O.activationState = 1
          ∧ d.get O.refusal = s.hub.activationRefusal ∧ OnlyRegs s.hub d [O.activationState, O.activate, O.refusal])
  ∧ (∀ (s : State), s.hub.domainsOn = true → s.hub.get O.activationState = 1 → s.hub.handingOver = false →
        Answers (.activateCancel .owner) s fun d => Sends s.hub d [.status .ok] ∧ d.get O.activationState = 0 ∧ d.get O.refusal = s.hub.activationRefusal % 256
          ∧ OnlyRegs s.hub d [O.activationState, O.activate, O.refusal])
  ∧ (∀ (s : State), s.hub.domainsOn = true → s.hub.get O.activationState = 1 → s.hub.activationRefusal = 0 → s.hub.get O.transferState = 0 →
        Answers .activationStart s fun d => d.get O.activationState = 2 ∧ d.flag H.deferred = true
          ∧ OnlyRegs s.hub d [O.activationState, O.activate, O.refusal, H.deferred])
  ∧ (∀ (s : State) (b : Bool), s.hub.get O.activationState = 0 → s.hub.flag O.lineRun = false →
        Answers (.lineRunChange b) s fun d => d.flag O.lineRun = b ∧ OnlyRegs s.hub d [O.lineRun])
  ∧ (∀ (s : State) (b : Bool), s.hub.domainsOn = true → s.hub.get O.activationState = 0 → s.hub.handingOver = false →
        Answers (.updateLockWrite .owner b) s fun d => d.flag O.updateLock = b ∧ Sends s.hub d [.status .ok]
          ∧ OnlyRegs s.hub d [O.updateLock])
  ∧ (∀ (s : State) (r : Nat), s.hub.domainsOn = true → s.hub.get O.activationState = 2 → s.hub.flag H.deferred = false → s.hub.useImageKeys = s.hub →
        s.hub.verifyImage s.mem (slotBase s.hub.otherSlot) (s.hub.get (O.slotInfoSize s.hub.otherSlot)) [2, 3, 4, 5, 6, 7, 8, 9] = r →
        Answers .loadingDone s fun d => OnlyObjects s.hub d [O.slotInfoChanged 0, O.verifyResult, O.activate, O.activationState, O.refusal, O.recordCrc 0, H.holdMark, H.handover, H.convertedRecord, H.handoverAsked, H.reportFlags, H.recordGone]
          ∧ d.get O.activationState = (if r = 1 then 3 else 0) ∧ d.get O.verifyResult = r
          ∧ (r = 1 → d.lines = s.hub.lines) ∧ (r ≠ 1 → d.get (O.slotInfoState s.hub.otherSlot) = 7)
          ∧ (r ≠ 1 → d.lines = s.hub.lines ++ [⟨88, 255, r, s.hub.reactions⟩]))
  ∧ (∀ (s : State), s.hub.domainsOn = true → s.hub.get O.activationState = 3 →
        s.mem.imageFormat (slotBase (s.hub.get O.runningSlot)) = s.mem.imageFormat (slotBase s.hub.otherSlot) → s.hub.get O.role ≠ 2 →
        Answers (.preparingDone true) s fun d => OnlyObjects s.hub d [O.slotInfoChanged 0, O.verifyResult, O.activate, O.activationState, O.refusal, O.recordCrc 0, H.reportFlags, H.holdMark, H.handover, H.convertedRecord, H.handoverAsked, H.recordGone, H.erased]
          ∧ d.get O.activationState = 4 ∧ bit (d.get H.reportFlags) 2 = true)
  ∧ (∀ (s : State), s.hub.domainsOn = true → s.hub.get O.activationState = 3 → s.hub.flag H.deferred = false →
        Answers (.preparingDone false) s fun d => OnlyObjects s.hub d [O.slotInfoChanged 0, O.verifyResult, O.activate, O.activationState, O.refusal, O.recordCrc 0, H.reportFlags, H.holdMark, H.handover, H.convertedRecord, H.handoverAsked, H.recordGone]
          ∧ d.get O.activationState = 0 ∧ d.get (O.slotInfoState s.hub.otherSlot) = 7
          ∧ ∃ r, d.lines = s.hub.lines ++ [⟨88, 255, r, s.hub.reactions⟩])
  ∧ (∀ (s : State), s.hub.domainsOn = true → s.hub.get O.activationState = 4 → s.hub.handoverMayStart = true →
        Answers .handoverStart s fun d => d.get O.activationState = 5 ∧ (s.hub.get O.role ≠ 2 → d.flag H.handover = true)
          ∧ OnlyRegs s.hub d [O.activationState, H.handover, O.planState])
  ∧ (∀ (s : State) (v : BitVec 32), s.hub.domainsOn = true → s.hub.get O.activationState = 5 → s.hub.heldOrder = [] → s.hub.get H.flushing = 0 →
        s.hub.get H.notifyHeld = 0 → s.hub.mgmtWait = [] → s.hub.tlpWait = [] →
        Answers (.handoverComplete true v) s fun d => d.get O.activationState = 6 ∧ d.get O.runningSlot = s.hub.otherSlot
          ∧ d.get O.handoverTime = v.toNat ∧ d.get H.handover = 0)
  ∧ (∀ (s : State) (v : BitVec 32), s.hub.domainsOn = true → s.hub.get O.activationState = 5 → s.hub.flag H.deferred = false → s.hub.heldOrder = [] →
        s.hub.get H.flushing = 0 → s.hub.get H.notifyHeld = 0 → s.hub.mgmtWait = [] → s.hub.tlpWait = [] →
        Answers (.handoverComplete false v) s fun d => d.get O.activationState = 0 ∧ d.get O.refusal = 6
          ∧ d.get O.runningSlot = s.hub.get O.runningSlot)

/-- An image is confirmed, reverted or left to its window; recovery, the settings save and the factory restore. A confirmed image's slot
reads STATE 04h and becomes the boot slot; a save is refused while one runs, and ends in SETTINGS_STATE 01h or 03h as it succeeds; a factory
restore erases the settings slots, all of them by the model's reading (notes/assumptions/61.md), and then resets the hub. What answers in
ROM recovery is its reading too (58.md). -/
def Obligations.ConfirmationAndSettings : Prop :=
  (∀ (s : State) (lvl : Level), s.hub.domainsOn = true → Engineers lvl → s.hub.get O.activationState = 6 → s.hub.now < s.hub.get H.confirmEnd →
      s.hub.get O.runningSlot ≤ 1 → s.hub.handingOver = false →
      AnswersAll (.confirm lvl true) s fun d m => RecordsKept s.mem m ∧ OnlyObjects s.hub d [O.rollback, O.bootSlot, O.slotInfoChanged 0, O.activate, O.activationState, O.recordState 0, H.convertedRecord, H.confirmEnd, H.noHandback]
        ∧ Sends s.hub d [.status .ok] ∧ d.get O.bootSlot = s.hub.get O.runningSlot ∧ d.get (O.slotInfoState (s.hub.get O.runningSlot)) = 4
        ∧ d.get (O.slotInfoState (1 - s.hub.get O.runningSlot)) = 2 ∧ d.get O.activationState = 0)
  ∧ (∀ (s : State), s.hub.domainsOn = true → s.hub.get O.activationState = 6 → s.hub.flag H.noHandback = false → s.hub.handingOver = false →
        Answers (.revert .owner true) s fun d => Sends s.hub d [.status .ok] ∧ d.get O.activationState = 7
          ∧ OnlyRegs s.hub d [O.activationState, H.handover, O.planState])
  ∧ (∀ (s : State), s.hub.domainsOn = true → s.hub.get O.activationState = 6 → s.hub.flag H.noHandback = true → s.hub.handingOver = false →
        Answers (.revert .owner true) s fun d => Sends s.hub d [.status .busy] ∧ d.regs = s.hub.regs)
  ∧ (∀ (s : State), s.hub.domainsOn = true → s.hub.get O.activationState = 6 → s.hub.flag H.noHandback = false →
        Answers .confirmWindowExpiry s fun d => d.get O.activationState = 7 ∧ d.now = max s.hub.now (s.hub.get H.confirmEnd)
          ∧ OnlyRegs s.hub d [O.activationState, H.handover, O.planState])
  ∧ (∀ (s : State), s.hub.domainsOn = true → s.hub.flag O.updateLock = false → s.hub.flag O.lineRun = false → s.hub.get H.endLevels = 0 →
        s.hub.get H.endSession = 0 → NetworkSettled s.hub → s.hub.handingOver = false →
        Answers (.recoveryRequest .owner true) s fun d => Sends s.hub d [.status .ok] ∧ d.get H.nextCause = 4 ∧ d.sessions = []
          ∧ d.flag H.running = false)
  ∧ (∀ (s : State), s.hub.domainsOn = true → (s.hub.flag O.updateLock = true ∨ s.hub.flag O.lineRun = true) → s.hub.get H.endLevels = 0 →
        s.hub.get H.endSession = 0 → s.hub.flag H.resetDue = false → NetworkSettled s.hub → s.hub.handingOver = false →
        Answers (.recoveryRequest .owner true) s fun d => Sends s.hub d [.status .busy] ∧ d.regs = s.hub.regs)
  ∧ (∀ (s : State), s.hub.domainsOn = true → s.hub.inRom = true → s.hub.get O.role ≠ 3 → s.hub.get (O.slotInfoState s.hub.receivingSlot) = 3 →
        s.hub.get H.endLevels = 0 → s.hub.get H.endSession = 0 → NetworkSettled s.hub → s.hub.handingOver = false →
        AnswersAll (.romBoot .owner true) s fun d m => RecordsKept s.mem m ∧ Sends s.hub d [.status .ok] ∧ d.get H.nextCause = 4 ∧ d.flag H.running = false)
  ∧ (∀ (s : State) (lvl : Level) (b : Bool), s.hub.domainsOn = true → s.hub.inRom = false → s.hub.get H.endLevels = 0 → s.hub.get H.endSession = 0 →
        s.hub.flag H.resetDue = false → NetworkSettled s.hub → s.hub.handingOver = false →
        Answers (.romBoot lvl b) s fun d => Sends s.hub d [.status .noObject] ∧ d.regs = s.hub.regs)
  ∧ (∀ (s : State) (lvl : Level) (v : BitVec 32), s.hub.domainsOn = true → s.hub.inRom = true → s.hub.handingOver = false →
        Answers (.driveWindowWrite lvl v) s fun d => Sends s.hub d [.status .noObject] ∧ d.regs = s.hub.regs)
  ∧ (∀ (s : State), s.hub.domainsOn = true → s.hub.saving = false → s.hub.settingsHeld = false → s.hub.inRom = false → s.hub.handingOver = false →
        AnswersAll (.settingsSave .owner true) s fun d m => Sends s.hub d [.status .ok] ∧ d.get O.settingsState = 2
          ∧ m.dram = s.mem.dram ∧ m.image = s.mem.image
          ∧ OnlyRegs s.hub d [O.settingsState, O.recordState s.hub.saveTarget, H.saveSlot, H.saveLength, H.recordGone, H.erased])
  ∧ (∀ (s : State), s.hub.domainsOn = true → (s.hub.saving = true ∨ s.hub.settingsHeld = true) → s.hub.inRom = false → s.hub.handingOver = false →
        Answers (.settingsSave .owner true) s fun d => Sends s.hub d [.status .busy] ∧ d.regs = s.hub.regs)
  ∧ (∀ (s : State), s.hub.get O.settingsState = 2 → s.hub.get H.flushing = 0 →
        AnswersAll (.settingsSaveDone false) s fun d m => ImagesKept s.mem m ∧ d.get O.settingsState = 3
          ∧ OnlyObjects s.hub d [O.settingsState, O.recordState 0, H.saveSlot, H.recordGone, H.erased])
  ∧ (∀ (s : State), s.hub.get O.settingsState = 2 → s.hub.get H.flushing = 0 → 1 ≤ s.hub.get H.saveSlot →
        s.hub.get H.saveSlot ≤ 4 → s.hub.get H.saveLength ≤ 1048544 → s.hub.get O.settingsSaves < 2 ^ 32 - 1 →
        AnswersAll (.settingsSaveDone true) s fun d m => ImagesKept s.mem m ∧ d.get O.settingsState = 1
          ∧ d.get O.settingsSaves = s.hub.get O.settingsSaves + 1
          ∧ OnlyObjects s.hub d [O.settingsState, O.settingsSaves, O.recordState 0, H.saveSlot, H.recordGone, H.erased])
  ∧ (∀ (s : State), s.hub.domainsOn = true → s.hub.get O.activationState = 0 → s.hub.get H.endLevels = 0 → s.hub.get H.endSession = 0 → NetworkSettled s.hub → s.hub.inRom = false →
        s.hub.handingOver = false →
        AnswersAll (.factoryRestore .owner true) s fun d m => Sends s.hub d [.status .ok] ∧ d.get H.nextCause = 4 ∧ (∀ a, 0x3C00000 ≤ a
          ∧ a < 0x4000000 → m.readFlash a 1 = [0xFF]) ∧ (∀ a, a < 0x3C00000 ∨ 0x4000000 ≤ a → m.readFlash a 1 = s.mem.readFlash a 1)
          ∧ m.dram = s.mem.dram ∧ m.image = s.mem.image)

/-! ## Sleep and sag -/

/-- An idle hub enters the state select() chooses and leaves it for a known event or a wake source; a sag stage enters once, with what it
stops, and clears. SAG_STAGE shows the highest stage in force; SAG_STAGE_CLEAR of a stage that is not in force changes nothing. Which work
and which wake sources end a state is the model's reading (notes/assumptions/60.md). -/
def Obligations.SleepAndSagCommands : Prop :=
  (∀ (s : State) (next : Option Nat) (t : Nat), s.hub.flag H.running = true → s.hub.get O.powerState = 0 → s.hub.isIdle = true →
      s.hub.selectState next t = 1 → s.hub.get (O.stateEntries 0) < 2 ^ 32 - 1 →
      Answers (.sleepSelect next t) s fun d => d.get O.powerState = 1 ∧ d.get (O.stateEntries 0) = s.hub.get (O.stateEntries 0) + 1
        ∧ OnlyRegs s.hub d [O.powerState, O.stateEntries 0, H.sleptAt])
  ∧ (∀ (s : State) (next : Option Nat) (t : Nat), s.hub.isIdle = false → Answers (.sleepSelect next t) s fun d => d = s.hub)
  ∧ (∀ (s : State) (ps : List PoweredPort), (s.hub.get O.powerState = 1 ∨ s.hub.get O.powerState = 2) →
        Answers (.exitStart ps) s fun d => d.get O.powerState = 0 ∧ OnlyRegs s.hub d [O.powerState])
  ∧ (∀ (s : State) (k : Fin 6) (ps : List PoweredPort), (s.hub.get O.powerState = 1 ∨ s.hub.get O.powerState = 2) →
        bit (s.hub.get O.wakeMask) k.val = true →
        Answers (.wake k ps) s fun d => OnlyObjects s.hub d [O.powerState, O.sleepHistory, O.predictedGap, O.wakeCause, H.gap 0, H.gaps]
          ∧ d.get O.powerState = 0 ∧ d.get O.wakeCause = k.val + 1)
  ∧ (∀ (s : State) (k : Fin 6) (ps : List PoweredPort), bit (s.hub.get O.wakeMask) k.val = false →
        Answers (.wake k ps) s fun d => d = s.hub)
  ∧ (∀ (s : State) (lvl : Level) (v : BitVec 8), s.hub.domainsOn = true → Engineers lvl → v.toNat ≤ 4 → s.hub.inRom = false → s.hub.handingOver = false →
        Answers (.sleepMaxWrite lvl v) s fun d => d.get O.sleepMax = v.toNat ∧ d.flag O.sleepHistory = false ∧ d.get O.predictedGap = 0
          ∧ Sends s.hub d [.status .ok] ∧ OnlyRegs s.hub d [O.sleepMax, H.gaps, O.sleepHistory, O.predictedGap])
  ∧ (∀ (s : State), s.hub.get H.sagFlags = 3 → s.hub.get O.sagStage = 2 → s.hub.flag H.running = true → s.hub.get O.powerState = 0 → 
        s.hub.get O.activationState = 0 → s.hub.get O.spillState = 0 → (∀ p : Port, s.hub.get (O.gear p) ≤ 3) →
        s.hub.get (O.sagEntries 2) < 2 ^ 32 - 1 →
        Answers (.sagStageEnter 2) s fun d => d.get O.sagStage = 3 ∧ d.get O.halted = 12 ∧ d.get O.spillState = 1
          ∧ d.get (O.sagEntries 2) = s.hub.get (O.sagEntries 2) + 1 ∧ d.lines = s.hub.lines ++ [⟨62, 255, 3, s.hub.reactions⟩])
  ∧ (∀ (s : State) (k : Fin 5), bit (s.hub.get H.sagFlags) k.val = true → Answers (.sagStageEnter k) s fun d => d = s.hub)
  ∧ (∀ (s : State), s.hub.get H.sagFlags = 3 → s.hub.get O.sagStage = 2 → s.hub.flag H.running = true → s.hub.get O.powerState = 0 →
        s.hub.get O.activationState = 0 →
        Answers (.sagStageClear 1) s fun d => d.get O.sagStage = 1 ∧ OnlyRegs s.hub d [O.sagStage, H.sagFlags])
  ∧ (∀ (s : State) (k : Fin 5), bit (s.hub.get H.sagFlags) k.val = false → Answers (.sagStageClear k) s fun d => d = s.hub)

/-! ## Rules stated whole -/

/-- A flit sent REPLAY_LIMIT + 1 times unreleased starts a retrain with cause 01h, and one sent fewer times does not. Stated for the send of a
flit of the replay buffer; with encryption on, the flit's COUNTER has not run out (R148 then starts the retrain). -/
def Obligations.ReplayLimitRule : Prop :=
  (∀ (s : State) (p : Port) (f : ReplayFlit), s.hub.domainsOn = true → s.hub.get (O.linkState p) = 3 →
      (s.hub.unreleased p).find? (fun g => g.seq == s.hub.get (H.replayPtr p)) = some f → s.hub.get (O.replayLimit p) ≤ f.sends →
      s.hub.get (O.txCounter p) + 1 < 2 ^ 48 →
      Answers (.flitTransmit p) s fun d => d.get (O.linkState p) = 5 ∧ d.get (O.lastRetrainCause p) = 1)
  ∧ (∀ (s : State) (p : Port) (f : ReplayFlit), s.hub.domainsOn = true → s.hub.get (O.linkState p) = 3 →
        (s.hub.unreleased p).find? (fun g => g.seq == s.hub.get (H.replayPtr p)) = some f → f.sends < s.hub.get (O.replayLimit p) →
        s.hub.get (O.txCounter p) + 1 < 2 ^ 48 →
        Answers (.flitTransmit p) s fun d => d.get (O.linkState p) = 3 ∧ d.get (O.lastRetrainCause p) = s.hub.get (O.lastRetrainCause p)
          ∧ d.replay = s.hub.replay.map fun x => if x.port = p.val ∧ x.seq = f.seq then { f with sends := f.sends + 1 } else x)

/-- Writing a slot number to KEY_ERASE installs an empty generation with GEN raised by 1; a slot above 63 is INVALID_VALUE, and a keyless
hub answers BUSY. A slot above 63 is refused with INVALID_VALUE on a keyless hub as well, since R317 checks the value first
(notes/assumptions/35.md). An enabled tamper condition that comes to hold while the erasure runs aborts it and empties the store (R366; that
the command names it is the model's choice, 83.md). -/
def Obligations.KeyEraseRule : Prop :=
  (∀ (s : State) (slot : BitVec 8), s.hub.domainsOn = true → slot.toNat ≤ 63 → s.hub.keysBusy = false → s.hub.get (H.commit slot.toNat) ≤ 1 →
      s.hub.get (H.halfGen slot.toNat (s.hub.get (H.commit slot.toNat))) < 2 ^ 32 - 1 → s.hub.get H.endLevels = 0 →
      s.hub.get H.endSession = 0 → (∀ l : Nat, l < 4 → s.hub.get (O.accessKeySlot l) ≠ slot.toNat) →
      (∀ p : Nat, p < 24 → s.hub.get (O.linkCryptoKeySlot p) ≠ slot.toNat) → s.hub.inRom = false →
      s.hub.handingOver = false →
      Answers (.keyErase .owner ⟨slot, 0⟩) s fun d => Sends s.hub d [.status .ok] ∧ d.get (O.keySlotState slot.toNat) = 0
        ∧ d.get (O.keySlotEngines slot.toNat) = 0 ∧ d.get (O.keySlotKcv slot.toNat) = 0
        ∧ d.get (O.keySlotGen slot.toNat) = s.hub.get (H.halfGen slot.toNat (s.hub.get (H.commit slot.toNat))) + 1
        ∧ d.get (H.halfKey slot.toNat (1 - s.hub.get (H.commit slot.toNat))) = 0
        ∧ d.get (H.commit slot.toNat) = 1 - s.hub.get (H.commit slot.toNat)
        ∧ OnlyRegs s.hub d [H.halfKey slot.toNat (1 - s.hub.get (H.commit slot.toNat)), H.halfCheck slot.toNat (1 - s.hub.get (H.commit slot.toNat)), H.halfEngines slot.toNat (1 - s.hub.get (H.commit slot.toNat)), H.halfGen slot.toNat (1 - s.hub.get (H.commit slot.toNat)), H.halfFull slot.toNat (1 - s.hub.get (H.commit slot.toNat)), H.commit slot.toNat, O.keySlotState slot.toNat, O.keySlotEngines slot.toNat, O.keySlotGen slot.toNat, O.keySlotKcv slot.toNat, O.keySlotLoaded slot.toNat, O.keyOpState, O.keyOps])
  ∧ (∀ (s : State) (slot : BitVec 8) (hit : BitVec 9), s.hub.domainsOn = true → 63 < slot.toNat → s.hub.get H.endLevels = 0 → s.hub.get H.endSession = 0 → s.hub.inRom = false →
        s.hub.handingOver = false →
        Answers (.keyErase .owner ⟨slot, hit⟩) s fun d => Sends s.hub d [.status .invalidValue] ∧ d.regs = s.hub.regs)
  ∧ (∀ (s : State) (slot : BitVec 8) (hit : BitVec 9), s.hub.domainsOn = true → slot.toNat ≤ 63 → s.hub.flag O.tamperLatch = true → s.hub.get H.endLevels = 0 →
        s.hub.get H.endSession = 0 → s.hub.inRom = false → s.hub.handingOver = false →
        Answers (.keyErase .owner ⟨slot, hit⟩) s fun d => Sends s.hub d [.status .busy] ∧ d.regs = s.hub.regs)
  ∧ (∀ (s : State) (slot : BitVec 8) (hit : BitVec 9), s.hub.domainsOn = true → slot.toNat ≤ 63 → s.hub.keysBusy = false → s.hub.get (H.commit slot.toNat) ≤ 1 →
        s.hub.get H.endLevels = 0 →
        s.hub.get H.endSession = 0 → s.hub.inRom = false → s.hub.handingOver = false → s.hub.tamperActing hit.toNat = 0 →
        Answers (.keyErase .owner ⟨slot, hit⟩) s fun d => d.get (O.keySlotState slot.toNat) = 0 ∧ (∀ j : Nat, j < 9 → bit (d.get O.tamperActive) j = (bit (s.hub.get O.tamperActive) j || bit hit.toNat j)))
  ∧ (∀ (s : State) (slot : BitVec 8) (hit : BitVec 9), s.hub.domainsOn = true → slot.toNat ≤ 63 → s.hub.keysBusy = false → s.hub.get (H.commit slot.toNat) ≤ 1 →
        s.hub.get H.endLevels = 0 →
        s.hub.get H.endSession = 0 → s.hub.inRom = false → s.hub.handingOver = false → s.hub.tamperActing hit.toNat ≠ 0 →
        Answers (.keyErase .owner ⟨slot, hit⟩) s fun d => d.get O.keyOpState = 2 ∧ (∀ k : Nat, k < 64 → d.get (O.keySlotState k) = 0 ∧ d.get (H.halfKey k 0) = 0 ∧ d.get (H.halfKey k 1) = 0)
          ∧ d.flag O.tamperLatch = true ∧ d.get O.tamperCause = s.hub.tamperActing hit.toNat ∧ ∃ xs, Sends s.hub d xs ∧ ∀ st : Status, .status st ∉ xs)

/-- TAMPER_CLEAR from an Owner clears the latch and leaves the store empty; a present enabled condition refuses it with BUSY, any other level
with ACCESS. -/
def Obligations.TamperClearRule : Prop :=
  (∀ (s : State), s.hub.domainsOn = true → Nat.land (s.hub.get O.tamperActive) (s.hub.get O.tamperEnable) = 0 → s.hub.inRom = false →
      s.hub.handingOver = false →
      Answers (.tamperClear .owner true) s fun d => d.flag O.tamperLatch = false ∧ d.get O.keystoreState = 0
        ∧ Sends s.hub d [.status .ok] ∧ OnlyRegs s.hub d [O.tamperLatch, O.keystoreState])
  ∧ (∀ (s : State), s.hub.domainsOn = true → Nat.land (s.hub.get O.tamperActive) (s.hub.get O.tamperEnable) ≠ 0 → s.hub.inRom = false →
        s.hub.handingOver = false →
        Answers (.tamperClear .owner true) s fun d => Sends s.hub d [.status .busy] ∧ d.regs = s.hub.regs)
  ∧ (∀ (s : State) (lvl : Level) (b : Bool), s.hub.domainsOn = true → lvl ≠ .owner → s.hub.inRom = false → s.hub.handingOver = false →
        Answers (.tamperClear lvl b) s fun d => Sends s.hub d [.status .access] ∧ d.regs = s.hub.regs)

/-- A threshold of a sag stage is taken only in its range and at least 1,000 mV below that of the stage before. ROM recovery has no such
object (R408). The threshold of the stage after bounds a write from below in the same way, since each must lie below the one before it. -/
def Obligations.SagThresholdRule : Prop :=
  (∀ (s : State) (lvl : Level) (k : Fin 5) (v : BitVec 32), s.hub.domainsOn = true → s.hub.handingOver = false → s.hub.inRom = false → Engineers lvl →
      s.hub.get H.endLevels = 0 → s.hub.get H.endSession = 0 → s.hub.flag H.resetDue = false → NetworkSettled s.hub →
      ([40000, 36000, 32000, 26000, 20000].getD k 0 ≤ v.toNat ∧ v.toNat ≤ [47000, 46000, 45000, 44000, 40000].getD k 0) → (k.val = 0
      ∨ v.toNat + 1000 ≤ s.hub.get (O.sagEnterMv (k.val - 1))) → (k.val = 4 ∨ s.hub.get (O.sagEnterMv (k.val + 1)) + 1000 ≤ v.toNat) →
      Answers (.objectWrite lvl 0x3010 (BitVec.ofNat 8 (k.val + 1)) 0 (leBytes v.toNat 4)) s fun d => Sends s.hub d [.status .ok]
        ∧ d.get (O.sagEnterMv k) = v.toNat ∧ OnlyRegs s.hub d [O.sagEnterMv k])
  ∧ (∀ (s : State) (lvl : Level) (k : Fin 5) (v : BitVec 32), s.hub.domainsOn = true → s.hub.handingOver = false → s.hub.inRom = false → Engineers lvl →
        s.hub.get H.endLevels = 0 → s.hub.get H.endSession = 0 → s.hub.flag H.resetDue = false → NetworkSettled s.hub →
        (v.toNat < [40000, 36000, 32000, 26000, 20000].getD k 0 ∨ [47000, 46000, 45000, 44000, 40000].getD k 0 < v.toNat ∨ (k.val ≠ 0
        ∧ s.hub.get (O.sagEnterMv (k.val - 1)) < v.toNat + 1000) ∨ (k.val ≠ 4 ∧ v.toNat < s.hub.get (O.sagEnterMv (k.val + 1)) + 1000)) →
        Answers (.objectWrite lvl 0x3010 (BitVec.ofNat 8 (k.val + 1)) 0 (leBytes v.toNat 4)) s fun d => Sends s.hub d [.status .invalidValue]
          ∧ d.regs = s.hub.regs)

/-! ## The block as a whole -/

/-- A step runs the command that has waited longest on the state with the rest of the queue; with none waiting the Umpire samples its lines 10
ns on. The empty queue's step is the model's choice (notes/assumptions/8.md). -/
def Obligations.StepRunsFront : Prop :=
  (∀ (c : Instr) (rest : List Instr) (s : State), step { s with pending := c :: rest } = exec c { s with pending := rest })
  ∧ (∀ s : State, s.pending = [] → step s = .next { s with hub := ({ s.hub with now := s.hub.now + 10 } : Hub).sample [] })

/-- After reset every register holds its default, no command waits, nothing is queued, held or sent, and every memory lists nothing, in
canonical form; no port has both path states in Ramp or On. A register whose default the manual does not state stands at 0 or at what its
log entry says (notes/assumptions/3.md, the model's choice); the numbers named are the manual's. -/
def Obligations.ResetState : Prop :=
  (∀ o : Obj, State.reset.hub.get o = o.dflt)
  ∧ State.reset.pending = [] ∧ State.reset.hub.held = [] ∧ State.reset.hub.sessions = [] ∧ State.reset.hub.out = [] ∧ State.reset.hub.lines = []
  ∧ State.reset.mem.dram = [] ∧ State.reset.mem.image = [] ∧ State.reset.mem.flash = [] ∧ State.reset.memWf
  ∧ State.reset.hub.get O.hubAddress = 0xFF ∧ State.reset.hub.get O.upstreamPort = 0xFF ∧ State.reset.hub.get O.driveWindow = 96000
  ∧ (∀ p : Port, State.reset.hub.get (O.replayDepth p) = 256 ∧ State.reset.hub.get (O.replayLimit p) = 4)
  ∧ State.reset.hub.get O.busClaimant = 0xFF ∧ State.reset.hub.get O.blockTimeout = 2000 ∧ State.reset.hub.get O.firstSource = 0xFF
  ∧ State.reset.hub.get O.confirmWindow = 60000 ∧ State.reset.hub.get (O.sagEnterMv 0) = 44000 ∧ State.reset.hub.get (O.sagEnterMv 4) = 24000 ∧ Interlocked State.reset.hub

/-- Every step keeps the memories in canonical form: addresses strictly rising, and no entry equal to what an unlisted address reads as. The
form is the model's own (notes/assumptions/7.md); DRAM, process image and flash each keep it, whatever the command. -/
def Obligations.StepKeepsMemoryCanonical : Prop :=
  ∀ s t : State, s.memWf → step s = .next t → t.memWf

/-- Only the commands that reach DRAM, process image or flash may change a memory. `touchesMemory` names them: starts, boundaries, cyclic
data, bridge requests, object writes, transfers and their control area, settings, sleep, sag and the DRAM scrub. -/
def Obligations.CommandsKeepMemory : Prop :=
  ∀ (i : Instr) (s t : State), touchesMemory i = false → exec i s = .next t → t.mem = s.mem

/-- Every command answers a next state and leaves the queue as it was, but a scrub that names a memory word that does not exist, which stops. -/
def Obligations.EveryCommandAnswers : Prop :=
  (∀ (i : Instr) (s : State), namesAbsentWord i = false → ∃ t, exec i s = .next t ∧ t.pending = s.pending)
  ∧ (∀ (i : Instr) (s : State), namesAbsentWord i = true → exec i s = .fault .noSuchWord)

/-- A write below the level its object asks for is answered with ACCESS and changes nothing; in a firmware handover every write waits.
`writerOf` gives the level a command writes at and the lowest that may; ROM recovery lacks most of these objects (R408), and sessions that
were to end with the next response end then (R330). That a handover holds every write, as it holds FOP messages, is the model's reading
(notes/assumptions/67.md). -/
def Obligations.LevelsRefuse : Prop :=
  (∀ (i : Instr) (s : State) (lvl need : Level), writerOf i = some (lvl, need) → Level.rank lvl < Level.rank need → s.hub.domainsOn = true → s.hub.handingOver = false → s.hub.inRom = false →
    s.hub.get H.endLevels = 0 → s.hub.get H.endSession = 0 → NetworkSettled s.hub → s.hub.flag H.resetDue = false →
    exec i s = .next { s with hub := s.hub.emit (.status .access) })
  ∧ (∀ (i : Instr) (s : State) (w : HeldWrite), heldOf i = some w → s.hub.domainsOn = true → s.hub.handingOver = true →
    exec i s = .next { s with hub := s.hub.holdWrite w })
end

