-- ==== Sys2Proof/Laws/Bytes.lean ====
section
/-! SUPPORT. Byte strings and the numbers they stand for: lengths, bounds, and that a field written and read back is the number again. -/
namespace Sys2Proof.Machine

@[simp] theorem leBytes_length (v n : Nat) : (leBytes v n).length = n := by
  induction n generalizing v with
  | zero => rfl
  | succ n ih => simp [leBytes, ih]

@[simp] theorem leNat_leBytes (v n : Nat) : leNat (leBytes v n) = v % 256 ^ n := by
  induction n generalizing v with
  | zero => simp [leBytes, leNat, Nat.mod_one]
  | succ n ih =>
    have h : v % (256 * 256 ^ n) = v % 256 + 256 * (v / 256 % 256 ^ n) := Nat.mod_mul
    rw [leBytes, leNat, ih, BitVec.toNat_ofNat]
    exact h.symm.trans (by rw [Nat.mul_comm, ← Nat.pow_succ])

/-- n bytes stand for less than 256^n. -/
theorem leNat_lt (bs : Bytes) : leNat bs < 256 ^ bs.length := by
  induction bs with
  | nil => simp [leNat]
  | cons b rest ih =>
    have hb : b.toNat < 256 := b.isLt
    rw [leNat, List.length_cons, Nat.pow_succ]
    omega

@[simp] theorem beBytes_length (v n : Nat) : (beBytes v n).length = n := by simp [beBytes]

theorem crc32cBit_lt {c : Nat} (h : c < 2 ^ 32) : crc32cBit c < 2 ^ 32 := by
  unfold crc32cBit
  split
  · exact Nat.xor_lt_two_pow (by omega) (by decide)
  · omega

theorem crc32cByte_lt {c : Nat} (x : BitVec 8) (h : c < 2 ^ 32) : crc32cByte c x < 2 ^ 32 := by
  have hx : x.toNat < 2 ^ 32 := Nat.lt_trans x.isLt (by decide)
  have h0 : Nat.xor c x.toNat < 2 ^ 32 := Nat.xor_lt_two_pow h hx
  simp only [crc32cByte, List.foldl]
  iterate 8 apply crc32cBit_lt
  exact h0

/-- CRC-32C is a 32-bit number. -/
theorem crc32c_lt (bs : Bytes) : crc32c bs < 2 ^ 32 := by
  have h : ∀ (bs : Bytes) (c : Nat), c < 2 ^ 32 → bs.foldl crc32cByte c < 2 ^ 32 := by
    intro bs
    induction bs with
    | nil => intro c h; exact h
    | cons b rest ih => intro c h; exact ih _ (crc32cByte_lt b h)
  exact Nat.xor_lt_two_pow (h bs _ (by decide)) (by decide)

/-- A CRC-32C stands in its 4 bytes. -/
@[simp] theorem leNat_crc32c (bs : Bytes) : leNat (leBytes (crc32c bs) 4) = crc32c bs := by
  rw [leNat_leBytes]
  exact Nat.mod_eq_of_lt (crc32c_lt bs)

/-- A tag is a 128-bit number. -/
theorem gcmTag_lt (key iv : Nat) (data text : Bytes) : gcmTag key iv data text < 256 ^ 16 := by
  unfold gcmTag
  exact Nat.lt_of_lt_of_eq (leNat_lt _) (by rw [beBytes_length])

/-- A tag stands in its 16 bytes. -/
@[simp] theorem leNat_gcmTag (key iv : Nat) (data text : Bytes) : leNat (leBytes (gcmTag key iv data text) 16) = gcmTag key iv data text := by
  rw [leNat_leBytes]
  exact Nat.mod_eq_of_lt (gcmTag_lt key iv data text)

end Sys2Proof.Machine
end

