-- ==== Sys2Proof/Laws/State.lean ====
section
/-! SUPPORT. The fields of the state under its updates, one lemma per field and update (generated from the list of the hub's fields). -/
namespace Sys2Proof.Machine

/-! ## put -/

@[simp] theorem Hub.put_out (c : Hub) (o : Obj) (v : Nat) : (c.put o v).out = c.out := rfl
@[simp] theorem Hub.put_now (c : Hub) (o : Obj) (v : Nat) : (c.put o v).now = c.now := rfl
@[simp] theorem Hub.put_boundaryAt (c : Hub) (o : Obj) (v : Nat) : (c.put o v).boundaryAt = c.boundaryAt := rfl
@[simp] theorem Hub.put_draws (c : Hub) (o : Obj) (v : Nat) : (c.put o v).draws = c.draws := rfl
@[simp] theorem Hub.put_lines (c : Hub) (o : Obj) (v : Nat) : (c.put o v).lines = c.lines := rfl
@[simp] theorem Hub.put_windows (c : Hub) (o : Obj) (v : Nat) : (c.put o v).windows = c.windows := rfl
@[simp] theorem Hub.put_reactions (c : Hub) (o : Obj) (v : Nat) : (c.put o v).reactions = c.reactions := rfl
@[simp] theorem Hub.put_held (c : Hub) (o : Obj) (v : Nat) : (c.put o v).held = c.held := rfl
@[simp] theorem Hub.put_frames (c : Hub) (o : Obj) (v : Nat) : (c.put o v).frames = c.frames := rfl
@[simp] theorem Hub.put_mgmtWait (c : Hub) (o : Obj) (v : Nat) : (c.put o v).mgmtWait = c.mgmtWait := rfl
@[simp] theorem Hub.put_serial (c : Hub) (o : Obj) (v : Nat) : (c.put o v).serial = c.serial := rfl
@[simp] theorem Hub.put_topo (c : Hub) (o : Obj) (v : Nat) : (c.put o v).topo = c.topo := rfl
@[simp] theorem Hub.put_plan (c : Hub) (o : Obj) (v : Nat) : (c.put o v).plan = c.plan := rfl
@[simp] theorem Hub.put_offers (c : Hub) (o : Obj) (v : Nat) : (c.put o v).offers = c.offers := rfl
@[simp] theorem Hub.put_works (c : Hub) (o : Obj) (v : Nat) : (c.put o v).works = c.works := rfl
@[simp] theorem Hub.put_freedIds (c : Hub) (o : Obj) (v : Nat) : (c.put o v).freedIds = c.freedIds := rfl
@[simp] theorem Hub.put_reports (c : Hub) (o : Obj) (v : Nat) : (c.put o v).reports = c.reports := rfl
@[simp] theorem Hub.put_lateReports (c : Hub) (o : Obj) (v : Nat) : (c.put o v).lateReports = c.lateReports := rfl
@[simp] theorem Hub.put_staged (c : Hub) (o : Obj) (v : Nat) : (c.put o v).staged = c.staged := rfl
@[simp] theorem Hub.put_reassembly (c : Hub) (o : Obj) (v : Nat) : (c.put o v).reassembly = c.reassembly := rfl
@[simp] theorem Hub.put_frameOut (c : Hub) (o : Obj) (v : Nat) : (c.put o v).frameOut = c.frameOut := rfl
@[simp] theorem Hub.put_tlpOut (c : Hub) (o : Obj) (v : Nat) : (c.put o v).tlpOut = c.tlpOut := rfl
@[simp] theorem Hub.put_replay (c : Hub) (o : Obj) (v : Nat) : (c.put o v).replay = c.replay := rfl
@[simp] theorem Hub.put_rxPart (c : Hub) (o : Obj) (v : Nat) : (c.put o v).rxPart = c.rxPart := rfl
@[simp] theorem Hub.put_arrived (c : Hub) (o : Obj) (v : Nat) : (c.put o v).arrived = c.arrived := rfl
@[simp] theorem Hub.put_sessions (c : Hub) (o : Obj) (v : Nat) : (c.put o v).sessions = c.sessions := rfl
@[simp] theorem Hub.put_relay (c : Hub) (o : Obj) (v : Nat) : (c.put o v).relay = c.relay := rfl
@[simp] theorem Hub.put_heldOrder (c : Hub) (o : Obj) (v : Nat) : (c.put o v).heldOrder = c.heldOrder := rfl
@[simp] theorem Hub.put_fopHeld (c : Hub) (o : Obj) (v : Nat) : (c.put o v).fopHeld = c.fopHeld := rfl
@[simp] theorem Hub.put_heldWrites (c : Hub) (o : Obj) (v : Nat) : (c.put o v).heldWrites = c.heldWrites := rfl
@[simp] theorem Hub.put_tlpWait (c : Hub) (o : Obj) (v : Nat) : (c.put o v).tlpWait = c.tlpWait := rfl
@[simp] theorem Hub.put_sinks (c : Hub) (o : Obj) (v : Nat) : (c.put o v).sinks = c.sinks := rfl
@[simp] theorem Hub.put_lineStore (c : Hub) (o : Obj) (v : Nat) : (c.put o v).lineStore = c.lineStore := rfl
@[simp] theorem Hub.put_rigWait (c : Hub) (o : Obj) (v : Nat) : (c.put o v).rigWait = c.rigWait := rfl
@[simp] theorem Hub.put_rigOut (c : Hub) (o : Obj) (v : Nat) : (c.put o v).rigOut = c.rigOut := rfl
@[simp] theorem Hub.put_rigBack (c : Hub) (o : Obj) (v : Nat) : (c.put o v).rigBack = c.rigBack := rfl
@[simp] theorem Hub.put_rigDone (c : Hub) (o : Obj) (v : Nat) : (c.put o v).rigDone = c.rigDone := rfl
@[simp] theorem Hub.put_rigPosted (c : Hub) (o : Obj) (v : Nat) : (c.put o v).rigPosted = c.rigPosted := rfl
@[simp] theorem Hub.put_rigStreams (c : Hub) (o : Obj) (v : Nat) : (c.put o v).rigStreams = c.rigStreams := rfl
@[simp] theorem Hub.put_rigLines (c : Hub) (o : Obj) (v : Nat) : (c.put o v).rigLines = c.rigLines := rfl
@[simp] theorem Hub.put_rigReads (c : Hub) (o : Obj) (v : Nat) : (c.put o v).rigReads = c.rigReads := rfl
@[simp] theorem Hub.put_rigHeld (c : Hub) (o : Obj) (v : Nat) : (c.put o v).rigHeld = c.rigHeld := rfl
@[simp] theorem Hub.put_saved (c : Hub) (o : Obj) (v : Nat) : (c.put o v).saved = c.saved := rfl
@[simp] theorem Hub.put_blockWait (c : Hub) (o : Obj) (v : Nat) : (c.put o v).blockWait = c.blockWait := rfl
@[simp] theorem Hub.put_reqBuf (c : Hub) (o : Obj) (v : Nat) : (c.put o v).reqBuf = c.reqBuf := rfl
@[simp] theorem Hub.put_rspBuf (c : Hub) (o : Obj) (v : Nat) : (c.put o v).rspBuf = c.rspBuf := rfl
@[simp] theorem Hub.put_rspWait (c : Hub) (o : Obj) (v : Nat) : (c.put o v).rspWait = c.rspWait := rfl
@[simp] theorem Hub.put_ntfRing (c : Hub) (o : Obj) (v : Nat) : (c.put o v).ntfRing = c.ntfRing := rfl
@[simp] theorem Hub.put_reportsHeld (c : Hub) (o : Obj) (v : Nat) : (c.put o v).reportsHeld = c.reportsHeld := rfl
@[simp] theorem Hub.put_retired (c : Hub) (o : Obj) (v : Nat) : (c.put o v).retired = c.retired := rfl
@[simp] theorem Hub.put_ownFails (c : Hub) (o : Obj) (v : Nat) : (c.put o v).ownFails = c.ownFails := rfl
@[simp] theorem Hub.put_handoverArea (c : Hub) (o : Obj) (v : Nat) : (c.put o v).handoverArea = c.handoverArea := rfl
@[simp] theorem Hub.put_kept (c : Hub) (o : Obj) (v : Nat) : (c.put o v).kept = c.kept := rfl

/-! ## emit -/

@[simp] theorem Hub.emit_regs (c : Hub) (x : Out) : (c.emit x).regs = c.regs := rfl
@[simp] theorem Hub.emit_now (c : Hub) (x : Out) : (c.emit x).now = c.now := rfl
@[simp] theorem Hub.emit_boundaryAt (c : Hub) (x : Out) : (c.emit x).boundaryAt = c.boundaryAt := rfl
@[simp] theorem Hub.emit_draws (c : Hub) (x : Out) : (c.emit x).draws = c.draws := rfl
@[simp] theorem Hub.emit_lines (c : Hub) (x : Out) : (c.emit x).lines = c.lines := rfl
@[simp] theorem Hub.emit_windows (c : Hub) (x : Out) : (c.emit x).windows = c.windows := rfl
@[simp] theorem Hub.emit_reactions (c : Hub) (x : Out) : (c.emit x).reactions = c.reactions := rfl
@[simp] theorem Hub.emit_held (c : Hub) (x : Out) : (c.emit x).held = c.held := rfl
@[simp] theorem Hub.emit_frames (c : Hub) (x : Out) : (c.emit x).frames = c.frames := rfl
@[simp] theorem Hub.emit_mgmtWait (c : Hub) (x : Out) : (c.emit x).mgmtWait = c.mgmtWait := rfl
@[simp] theorem Hub.emit_serial (c : Hub) (x : Out) : (c.emit x).serial = c.serial := rfl
@[simp] theorem Hub.emit_topo (c : Hub) (x : Out) : (c.emit x).topo = c.topo := rfl
@[simp] theorem Hub.emit_plan (c : Hub) (x : Out) : (c.emit x).plan = c.plan := rfl
@[simp] theorem Hub.emit_offers (c : Hub) (x : Out) : (c.emit x).offers = c.offers := rfl
@[simp] theorem Hub.emit_works (c : Hub) (x : Out) : (c.emit x).works = c.works := rfl
@[simp] theorem Hub.emit_freedIds (c : Hub) (x : Out) : (c.emit x).freedIds = c.freedIds := rfl
@[simp] theorem Hub.emit_reports (c : Hub) (x : Out) : (c.emit x).reports = c.reports := rfl
@[simp] theorem Hub.emit_lateReports (c : Hub) (x : Out) : (c.emit x).lateReports = c.lateReports := rfl
@[simp] theorem Hub.emit_staged (c : Hub) (x : Out) : (c.emit x).staged = c.staged := rfl
@[simp] theorem Hub.emit_reassembly (c : Hub) (x : Out) : (c.emit x).reassembly = c.reassembly := rfl
@[simp] theorem Hub.emit_frameOut (c : Hub) (x : Out) : (c.emit x).frameOut = c.frameOut := rfl
@[simp] theorem Hub.emit_tlpOut (c : Hub) (x : Out) : (c.emit x).tlpOut = c.tlpOut := rfl
@[simp] theorem Hub.emit_replay (c : Hub) (x : Out) : (c.emit x).replay = c.replay := rfl
@[simp] theorem Hub.emit_rxPart (c : Hub) (x : Out) : (c.emit x).rxPart = c.rxPart := rfl
@[simp] theorem Hub.emit_arrived (c : Hub) (x : Out) : (c.emit x).arrived = c.arrived := rfl
@[simp] theorem Hub.emit_sessions (c : Hub) (x : Out) : (c.emit x).sessions = c.sessions := rfl
@[simp] theorem Hub.emit_relay (c : Hub) (x : Out) : (c.emit x).relay = c.relay := rfl
@[simp] theorem Hub.emit_heldOrder (c : Hub) (x : Out) : (c.emit x).heldOrder = c.heldOrder := rfl
@[simp] theorem Hub.emit_fopHeld (c : Hub) (x : Out) : (c.emit x).fopHeld = c.fopHeld := rfl
@[simp] theorem Hub.emit_heldWrites (c : Hub) (x : Out) : (c.emit x).heldWrites = c.heldWrites := rfl
@[simp] theorem Hub.emit_tlpWait (c : Hub) (x : Out) : (c.emit x).tlpWait = c.tlpWait := rfl
@[simp] theorem Hub.emit_sinks (c : Hub) (x : Out) : (c.emit x).sinks = c.sinks := rfl
@[simp] theorem Hub.emit_lineStore (c : Hub) (x : Out) : (c.emit x).lineStore = c.lineStore := rfl
@[simp] theorem Hub.emit_rigWait (c : Hub) (x : Out) : (c.emit x).rigWait = c.rigWait := rfl
@[simp] theorem Hub.emit_rigOut (c : Hub) (x : Out) : (c.emit x).rigOut = c.rigOut := rfl
@[simp] theorem Hub.emit_rigBack (c : Hub) (x : Out) : (c.emit x).rigBack = c.rigBack := rfl
@[simp] theorem Hub.emit_rigDone (c : Hub) (x : Out) : (c.emit x).rigDone = c.rigDone := rfl
@[simp] theorem Hub.emit_rigPosted (c : Hub) (x : Out) : (c.emit x).rigPosted = c.rigPosted := rfl
@[simp] theorem Hub.emit_rigStreams (c : Hub) (x : Out) : (c.emit x).rigStreams = c.rigStreams := rfl
@[simp] theorem Hub.emit_rigLines (c : Hub) (x : Out) : (c.emit x).rigLines = c.rigLines := rfl
@[simp] theorem Hub.emit_rigReads (c : Hub) (x : Out) : (c.emit x).rigReads = c.rigReads := rfl
@[simp] theorem Hub.emit_rigHeld (c : Hub) (x : Out) : (c.emit x).rigHeld = c.rigHeld := rfl
@[simp] theorem Hub.emit_saved (c : Hub) (x : Out) : (c.emit x).saved = c.saved := rfl
@[simp] theorem Hub.emit_blockWait (c : Hub) (x : Out) : (c.emit x).blockWait = c.blockWait := rfl
@[simp] theorem Hub.emit_reqBuf (c : Hub) (x : Out) : (c.emit x).reqBuf = c.reqBuf := rfl
@[simp] theorem Hub.emit_rspBuf (c : Hub) (x : Out) : (c.emit x).rspBuf = c.rspBuf := rfl
@[simp] theorem Hub.emit_rspWait (c : Hub) (x : Out) : (c.emit x).rspWait = c.rspWait := rfl
@[simp] theorem Hub.emit_ntfRing (c : Hub) (x : Out) : (c.emit x).ntfRing = c.ntfRing := rfl
@[simp] theorem Hub.emit_reportsHeld (c : Hub) (x : Out) : (c.emit x).reportsHeld = c.reportsHeld := rfl
@[simp] theorem Hub.emit_retired (c : Hub) (x : Out) : (c.emit x).retired = c.retired := rfl
@[simp] theorem Hub.emit_ownFails (c : Hub) (x : Out) : (c.emit x).ownFails = c.ownFails := rfl
@[simp] theorem Hub.emit_handoverArea (c : Hub) (x : Out) : (c.emit x).handoverArea = c.handoverArea := rfl
@[simp] theorem Hub.emit_kept (c : Hub) (x : Out) : (c.emit x).kept = c.kept := rfl

/-! ## raise -/

@[simp] theorem Hub.raise_regs (c : Hub) (n u d : Nat) : (c.raise n u d).regs = c.regs := rfl
@[simp] theorem Hub.raise_out (c : Hub) (n u d : Nat) : (c.raise n u d).out = c.out := rfl
@[simp] theorem Hub.raise_now (c : Hub) (n u d : Nat) : (c.raise n u d).now = c.now := rfl
@[simp] theorem Hub.raise_boundaryAt (c : Hub) (n u d : Nat) : (c.raise n u d).boundaryAt = c.boundaryAt := rfl
@[simp] theorem Hub.raise_draws (c : Hub) (n u d : Nat) : (c.raise n u d).draws = c.draws := rfl
@[simp] theorem Hub.raise_windows (c : Hub) (n u d : Nat) : (c.raise n u d).windows = c.windows := rfl
@[simp] theorem Hub.raise_reactions (c : Hub) (n u d : Nat) : (c.raise n u d).reactions = c.reactions := rfl
@[simp] theorem Hub.raise_held (c : Hub) (n u d : Nat) : (c.raise n u d).held = c.held := rfl
@[simp] theorem Hub.raise_frames (c : Hub) (n u d : Nat) : (c.raise n u d).frames = c.frames := rfl
@[simp] theorem Hub.raise_mgmtWait (c : Hub) (n u d : Nat) : (c.raise n u d).mgmtWait = c.mgmtWait := rfl
@[simp] theorem Hub.raise_serial (c : Hub) (n u d : Nat) : (c.raise n u d).serial = c.serial := rfl
@[simp] theorem Hub.raise_topo (c : Hub) (n u d : Nat) : (c.raise n u d).topo = c.topo := rfl
@[simp] theorem Hub.raise_plan (c : Hub) (n u d : Nat) : (c.raise n u d).plan = c.plan := rfl
@[simp] theorem Hub.raise_offers (c : Hub) (n u d : Nat) : (c.raise n u d).offers = c.offers := rfl
@[simp] theorem Hub.raise_works (c : Hub) (n u d : Nat) : (c.raise n u d).works = c.works := rfl
@[simp] theorem Hub.raise_freedIds (c : Hub) (n u d : Nat) : (c.raise n u d).freedIds = c.freedIds := rfl
@[simp] theorem Hub.raise_reports (c : Hub) (n u d : Nat) : (c.raise n u d).reports = c.reports := rfl
@[simp] theorem Hub.raise_lateReports (c : Hub) (n u d : Nat) : (c.raise n u d).lateReports = c.lateReports := rfl
@[simp] theorem Hub.raise_staged (c : Hub) (n u d : Nat) : (c.raise n u d).staged = c.staged := rfl
@[simp] theorem Hub.raise_reassembly (c : Hub) (n u d : Nat) : (c.raise n u d).reassembly = c.reassembly := rfl
@[simp] theorem Hub.raise_frameOut (c : Hub) (n u d : Nat) : (c.raise n u d).frameOut = c.frameOut := rfl
@[simp] theorem Hub.raise_tlpOut (c : Hub) (n u d : Nat) : (c.raise n u d).tlpOut = c.tlpOut := rfl
@[simp] theorem Hub.raise_replay (c : Hub) (n u d : Nat) : (c.raise n u d).replay = c.replay := rfl
@[simp] theorem Hub.raise_rxPart (c : Hub) (n u d : Nat) : (c.raise n u d).rxPart = c.rxPart := rfl
@[simp] theorem Hub.raise_arrived (c : Hub) (n u d : Nat) : (c.raise n u d).arrived = c.arrived := rfl
@[simp] theorem Hub.raise_sessions (c : Hub) (n u d : Nat) : (c.raise n u d).sessions = c.sessions := rfl
@[simp] theorem Hub.raise_relay (c : Hub) (n u d : Nat) : (c.raise n u d).relay = c.relay := rfl
@[simp] theorem Hub.raise_heldOrder (c : Hub) (n u d : Nat) : (c.raise n u d).heldOrder = c.heldOrder := rfl
@[simp] theorem Hub.raise_fopHeld (c : Hub) (n u d : Nat) : (c.raise n u d).fopHeld = c.fopHeld := rfl
@[simp] theorem Hub.raise_heldWrites (c : Hub) (n u d : Nat) : (c.raise n u d).heldWrites = c.heldWrites := rfl
@[simp] theorem Hub.raise_tlpWait (c : Hub) (n u d : Nat) : (c.raise n u d).tlpWait = c.tlpWait := rfl
@[simp] theorem Hub.raise_sinks (c : Hub) (n u d : Nat) : (c.raise n u d).sinks = c.sinks := rfl
@[simp] theorem Hub.raise_lineStore (c : Hub) (n u d : Nat) : (c.raise n u d).lineStore = c.lineStore := rfl
@[simp] theorem Hub.raise_rigWait (c : Hub) (n u d : Nat) : (c.raise n u d).rigWait = c.rigWait := rfl
@[simp] theorem Hub.raise_rigOut (c : Hub) (n u d : Nat) : (c.raise n u d).rigOut = c.rigOut := rfl
@[simp] theorem Hub.raise_rigBack (c : Hub) (n u d : Nat) : (c.raise n u d).rigBack = c.rigBack := rfl
@[simp] theorem Hub.raise_rigDone (c : Hub) (n u d : Nat) : (c.raise n u d).rigDone = c.rigDone := rfl
@[simp] theorem Hub.raise_rigPosted (c : Hub) (n u d : Nat) : (c.raise n u d).rigPosted = c.rigPosted := rfl
@[simp] theorem Hub.raise_rigStreams (c : Hub) (n u d : Nat) : (c.raise n u d).rigStreams = c.rigStreams := rfl
@[simp] theorem Hub.raise_rigLines (c : Hub) (n u d : Nat) : (c.raise n u d).rigLines = c.rigLines := rfl
@[simp] theorem Hub.raise_rigReads (c : Hub) (n u d : Nat) : (c.raise n u d).rigReads = c.rigReads := rfl
@[simp] theorem Hub.raise_rigHeld (c : Hub) (n u d : Nat) : (c.raise n u d).rigHeld = c.rigHeld := rfl
@[simp] theorem Hub.raise_saved (c : Hub) (n u d : Nat) : (c.raise n u d).saved = c.saved := rfl
@[simp] theorem Hub.raise_blockWait (c : Hub) (n u d : Nat) : (c.raise n u d).blockWait = c.blockWait := rfl
@[simp] theorem Hub.raise_reqBuf (c : Hub) (n u d : Nat) : (c.raise n u d).reqBuf = c.reqBuf := rfl
@[simp] theorem Hub.raise_rspBuf (c : Hub) (n u d : Nat) : (c.raise n u d).rspBuf = c.rspBuf := rfl
@[simp] theorem Hub.raise_rspWait (c : Hub) (n u d : Nat) : (c.raise n u d).rspWait = c.rspWait := rfl
@[simp] theorem Hub.raise_ntfRing (c : Hub) (n u d : Nat) : (c.raise n u d).ntfRing = c.ntfRing := rfl
@[simp] theorem Hub.raise_reportsHeld (c : Hub) (n u d : Nat) : (c.raise n u d).reportsHeld = c.reportsHeld := rfl
@[simp] theorem Hub.raise_retired (c : Hub) (n u d : Nat) : (c.raise n u d).retired = c.retired := rfl
@[simp] theorem Hub.raise_ownFails (c : Hub) (n u d : Nat) : (c.raise n u d).ownFails = c.ownFails := rfl
@[simp] theorem Hub.raise_handoverArea (c : Hub) (n u d : Nat) : (c.raise n u d).handoverArea = c.handoverArea := rfl
@[simp] theorem Hub.raise_kept (c : Hub) (n u d : Nat) : (c.raise n u d).kept = c.kept := rfl

/-! ## advanceTo -/

@[simp] theorem Hub.advanceTo_regs (c : Hub) (t : Nat) : (c.advanceTo t).regs = c.regs := rfl
@[simp] theorem Hub.advanceTo_out (c : Hub) (t : Nat) : (c.advanceTo t).out = c.out := rfl
@[simp] theorem Hub.advanceTo_boundaryAt (c : Hub) (t : Nat) : (c.advanceTo t).boundaryAt = c.boundaryAt := rfl
@[simp] theorem Hub.advanceTo_draws (c : Hub) (t : Nat) : (c.advanceTo t).draws = c.draws := rfl
@[simp] theorem Hub.advanceTo_lines (c : Hub) (t : Nat) : (c.advanceTo t).lines = c.lines := rfl
@[simp] theorem Hub.advanceTo_windows (c : Hub) (t : Nat) : (c.advanceTo t).windows = c.windows := rfl
@[simp] theorem Hub.advanceTo_reactions (c : Hub) (t : Nat) : (c.advanceTo t).reactions = c.reactions := rfl
@[simp] theorem Hub.advanceTo_held (c : Hub) (t : Nat) : (c.advanceTo t).held = c.held := rfl
@[simp] theorem Hub.advanceTo_frames (c : Hub) (t : Nat) : (c.advanceTo t).frames = c.frames := rfl
@[simp] theorem Hub.advanceTo_mgmtWait (c : Hub) (t : Nat) : (c.advanceTo t).mgmtWait = c.mgmtWait := rfl
@[simp] theorem Hub.advanceTo_serial (c : Hub) (t : Nat) : (c.advanceTo t).serial = c.serial := rfl
@[simp] theorem Hub.advanceTo_topo (c : Hub) (t : Nat) : (c.advanceTo t).topo = c.topo := rfl
@[simp] theorem Hub.advanceTo_plan (c : Hub) (t : Nat) : (c.advanceTo t).plan = c.plan := rfl
@[simp] theorem Hub.advanceTo_offers (c : Hub) (t : Nat) : (c.advanceTo t).offers = c.offers := rfl
@[simp] theorem Hub.advanceTo_works (c : Hub) (t : Nat) : (c.advanceTo t).works = c.works := rfl
@[simp] theorem Hub.advanceTo_freedIds (c : Hub) (t : Nat) : (c.advanceTo t).freedIds = c.freedIds := rfl
@[simp] theorem Hub.advanceTo_reports (c : Hub) (t : Nat) : (c.advanceTo t).reports = c.reports := rfl
@[simp] theorem Hub.advanceTo_lateReports (c : Hub) (t : Nat) : (c.advanceTo t).lateReports = c.lateReports := rfl
@[simp] theorem Hub.advanceTo_staged (c : Hub) (t : Nat) : (c.advanceTo t).staged = c.staged := rfl
@[simp] theorem Hub.advanceTo_reassembly (c : Hub) (t : Nat) : (c.advanceTo t).reassembly = c.reassembly := rfl
@[simp] theorem Hub.advanceTo_frameOut (c : Hub) (t : Nat) : (c.advanceTo t).frameOut = c.frameOut := rfl
@[simp] theorem Hub.advanceTo_tlpOut (c : Hub) (t : Nat) : (c.advanceTo t).tlpOut = c.tlpOut := rfl
@[simp] theorem Hub.advanceTo_replay (c : Hub) (t : Nat) : (c.advanceTo t).replay = c.replay := rfl
@[simp] theorem Hub.advanceTo_rxPart (c : Hub) (t : Nat) : (c.advanceTo t).rxPart = c.rxPart := rfl
@[simp] theorem Hub.advanceTo_arrived (c : Hub) (t : Nat) : (c.advanceTo t).arrived = c.arrived := rfl
@[simp] theorem Hub.advanceTo_sessions (c : Hub) (t : Nat) : (c.advanceTo t).sessions = c.sessions := rfl
@[simp] theorem Hub.advanceTo_relay (c : Hub) (t : Nat) : (c.advanceTo t).relay = c.relay := rfl
@[simp] theorem Hub.advanceTo_heldOrder (c : Hub) (t : Nat) : (c.advanceTo t).heldOrder = c.heldOrder := rfl
@[simp] theorem Hub.advanceTo_fopHeld (c : Hub) (t : Nat) : (c.advanceTo t).fopHeld = c.fopHeld := rfl
@[simp] theorem Hub.advanceTo_heldWrites (c : Hub) (t : Nat) : (c.advanceTo t).heldWrites = c.heldWrites := rfl
@[simp] theorem Hub.advanceTo_tlpWait (c : Hub) (t : Nat) : (c.advanceTo t).tlpWait = c.tlpWait := rfl
@[simp] theorem Hub.advanceTo_sinks (c : Hub) (t : Nat) : (c.advanceTo t).sinks = c.sinks := rfl
@[simp] theorem Hub.advanceTo_lineStore (c : Hub) (t : Nat) : (c.advanceTo t).lineStore = c.lineStore := rfl
@[simp] theorem Hub.advanceTo_rigWait (c : Hub) (t : Nat) : (c.advanceTo t).rigWait = c.rigWait := rfl
@[simp] theorem Hub.advanceTo_rigOut (c : Hub) (t : Nat) : (c.advanceTo t).rigOut = c.rigOut := rfl
@[simp] theorem Hub.advanceTo_rigBack (c : Hub) (t : Nat) : (c.advanceTo t).rigBack = c.rigBack := rfl
@[simp] theorem Hub.advanceTo_rigDone (c : Hub) (t : Nat) : (c.advanceTo t).rigDone = c.rigDone := rfl
@[simp] theorem Hub.advanceTo_rigPosted (c : Hub) (t : Nat) : (c.advanceTo t).rigPosted = c.rigPosted := rfl
@[simp] theorem Hub.advanceTo_rigStreams (c : Hub) (t : Nat) : (c.advanceTo t).rigStreams = c.rigStreams := rfl
@[simp] theorem Hub.advanceTo_rigLines (c : Hub) (t : Nat) : (c.advanceTo t).rigLines = c.rigLines := rfl
@[simp] theorem Hub.advanceTo_rigReads (c : Hub) (t : Nat) : (c.advanceTo t).rigReads = c.rigReads := rfl
@[simp] theorem Hub.advanceTo_rigHeld (c : Hub) (t : Nat) : (c.advanceTo t).rigHeld = c.rigHeld := rfl
@[simp] theorem Hub.advanceTo_saved (c : Hub) (t : Nat) : (c.advanceTo t).saved = c.saved := rfl
@[simp] theorem Hub.advanceTo_blockWait (c : Hub) (t : Nat) : (c.advanceTo t).blockWait = c.blockWait := rfl
@[simp] theorem Hub.advanceTo_reqBuf (c : Hub) (t : Nat) : (c.advanceTo t).reqBuf = c.reqBuf := rfl
@[simp] theorem Hub.advanceTo_rspBuf (c : Hub) (t : Nat) : (c.advanceTo t).rspBuf = c.rspBuf := rfl
@[simp] theorem Hub.advanceTo_rspWait (c : Hub) (t : Nat) : (c.advanceTo t).rspWait = c.rspWait := rfl
@[simp] theorem Hub.advanceTo_ntfRing (c : Hub) (t : Nat) : (c.advanceTo t).ntfRing = c.ntfRing := rfl
@[simp] theorem Hub.advanceTo_reportsHeld (c : Hub) (t : Nat) : (c.advanceTo t).reportsHeld = c.reportsHeld := rfl
@[simp] theorem Hub.advanceTo_retired (c : Hub) (t : Nat) : (c.advanceTo t).retired = c.retired := rfl
@[simp] theorem Hub.advanceTo_ownFails (c : Hub) (t : Nat) : (c.advanceTo t).ownFails = c.ownFails := rfl
@[simp] theorem Hub.advanceTo_handoverArea (c : Hub) (t : Nat) : (c.advanceTo t).handoverArea = c.handoverArea := rfl
@[simp] theorem Hub.advanceTo_kept (c : Hub) (t : Nat) : (c.advanceTo t).kept = c.kept := rfl

/-! ## The emitted and raised -/

@[simp] theorem Hub.emit_out (c : Hub) (x : Out) : (c.emit x).out = c.out ++ [x] := rfl
@[simp] theorem Hub.raise_lines (c : Hub) (n u d : Nat) : (c.raise n u d).lines = c.lines ++ [⟨n, u, d, c.reactions⟩] := rfl

/-! ## Commands on the hub and on all of the state -/

@[simp] theorem onHub_next (s : State) (f : Hub → Hub) : onHub s f = .next { s with hub := f s.hub } := rfl
@[simp] theorem onAll_next (s : State) (f : Hub → Mems → Hub × Mems) :
    onAll s f = .next { s with hub := (f s.hub s.mem).1, mem := (f s.hub s.mem).2 } := rfl

/-- A command of the domains that Moored and Stowed stop, while they are on. -/
theorem onDomains_on {s : State} (f : Hub → Hub) (h : s.hub.domainsOn = true) : onDomains s f = .next { s with hub := f s.hub } := by
  simp [onDomains, h]
/-- While they are off nothing changes. -/
theorem onDomains_off {s : State} (f : Hub → Hub) (h : s.hub.domainsOn = false) : onDomains s f = .next s := by simp [onDomains, h]
/-- The same for a command that reaches the memories. -/
theorem onDomainsAll_on {s : State} (f : Hub → Mems → Hub × Mems) (h : s.hub.domainsOn = true) :
    onDomainsAll s f = .next { s with hub := (f s.hub s.mem).1, mem := (f s.hub s.mem).2 } := by simp [onDomainsAll, h]
/-- While the domains are off nothing changes. -/
theorem onDomainsAll_off {s : State} (f : Hub → Mems → Hub × Mems) (h : s.hub.domainsOn = false) : onDomainsAll s f = .next s := by
  simp [onDomainsAll, h]
/-- A command of PWRCTL, in every state but Stowed and in no reset. -/
theorem onPorts_on {s : State} (f : Hub → Hub) (h : s.hub.pdOn = true) : onPorts s f = .next { s with hub := f s.hub } := by simp [onPorts, h]
/-- In Stowed and in reset nothing changes. -/
theorem onPorts_off {s : State} (f : Hub → Hub) (h : s.hub.pdOn = false) : onPorts s f = .next s := by simp [onPorts, h]
/-- The same for a command that reaches the memories. -/
theorem onPortsAll_on {s : State} (f : Hub → Mems → Hub × Mems) (h : s.hub.pdOn = true) :
    onPortsAll s f = .next { s with hub := (f s.hub s.mem).1, mem := (f s.hub s.mem).2 } := by simp [onPortsAll, h]
/-- A command of the feed logic, while AON runs. -/
theorem onFeeds_on {s : State} (f : Hub → Hub) (h : s.hub.aonOn = true) : onFeeds s f = .next { s with hub := f s.hub } := by simp [onFeeds, h]
/-- While AON is held or off nothing changes. -/
theorem onFeeds_off {s : State} (f : Hub → Hub) (h : s.hub.aonOn = false) : onFeeds s f = .next s := by simp [onFeeds, h]
/-- A command that writes an object, where the domains are on and no handover runs. -/
theorem onWrite_on {s : State} (w : HeldWrite) (f : Hub → Hub) (h : s.hub.domainsOn = true) (g : s.hub.handingOver = false) :
    onWrite w s f = .next { s with hub := f s.hub } := by simp [onWrite, onDomains_on _ h, g]
/-- The same for a write that reaches the memories. -/
theorem onWriteAll_on {s : State} (w : HeldWrite) (f : Hub → Mems → Hub × Mems) (h : s.hub.domainsOn = true) (g : s.hub.handingOver = false) :
    onWriteAll w s f = .next { s with hub := (f s.hub s.mem).1, mem := (f s.hub s.mem).2 } := by simp [onWriteAll, onDomainsAll_on _ h, g]
/-- A handover holds a write. -/
theorem onWrite_held {s : State} (w : HeldWrite) (f : Hub → Hub) (h : s.hub.domainsOn = true) (g : s.hub.handingOver = true) :
    onWrite w s f = .next { s with hub := s.hub.holdWrite w } := by simp [onWrite, onDomains_on _ h, g]

end Sys2Proof.Machine
end

