-- ==== Sys2Proof/Laws/Ops.lean ====
section
/-! SUPPORT. The laws of the shared operations: registers (read after write), conditional updates, and memories (read after write, the canonical
form). -/
namespace Sys2Proof.Machine

/-! ## The store of registers -/

theorem Store.erase_cons (k a : Key) (v : Nat) (st : Store) :
    Store.erase k ((a, v) :: st) = if a = k then Store.erase k st else (a, v) :: Store.erase k st := by
  unfold Store.erase
  by_cases h : a = k <;> simp [h]

theorem Store.find_erase_same (k : Key) : ∀ st : Store, (st.erase k).find k = none
  | [] => rfl
  | (a, v) :: rest => by by_cases h : a = k <;> simp [Store.erase_cons, Store.find, h, Store.find_erase_same k rest]

theorem Store.find_erase_other {k k' : Key} (h : k' ≠ k) : ∀ st : Store, (st.erase k).find k' = st.find k'
  | [] => rfl
  | (a, v) :: rest => by
    rw [Store.erase_cons]
    split <;> simp_all [Store.find, Store.find_erase_other h rest, h.symm]

/-- Inserting a register's value either drops the old pair in place or passes it by: reads of the key find the new value. -/
theorem Store.find_insert_same (k : Key) (v : Nat) : ∀ st : Store, (st.insert k v).find k = some v
  | [] => by simp [Store.insert, Store.find]
  | (a, w) :: rest => by
    unfold Store.insert
    split
    · simp [Store.find]
    · split <;> simp_all [Store.find, Store.find_insert_same k v rest]

theorem Store.find_insert_other {k k' : Key} (h : k' ≠ k) (v : Nat) : ∀ st : Store, (st.insert k v).find k' = st.find k'
  | [] => by simp [Store.insert, Store.find, h.symm]
  | (a, w) :: rest => by
    unfold Store.insert
    split
    · simp_all [Store.find, h.symm]
    · split <;> simp [Store.find, h.symm, Store.find_insert_other h v rest]

/-! ## Registers -/

/-- A register reads back what its width keeps of a value written to it. -/
@[simp] theorem Hub.get_put_same (c : Hub) (o : Obj) (v : Nat) : (c.put o v).get o = v % o.cap := by
  unfold Hub.get Hub.put
  by_cases h : v % o.cap = o.dflt
  · simp [h, Store.find_erase_same]
  · simp [h, Store.find_insert_same]

/-- A write leaves every register with another key. -/
theorem Hub.get_put_other (c : Hub) {o o' : Obj} (v : Nat) (h : o'.key ≠ o.key) : (c.put o v).get o' = c.get o' := by
  unfold Hub.get Hub.put
  by_cases hv : v % o.cap = o.dflt
  · simp [hv, Store.find_erase_other h]
  · simp [hv, Store.find_insert_other h]

/-- A write leaves the registers of every other object. -/
theorem Hub.get_put_obj (c : Hub) {o o' : Obj} (v : Nat) (h : o'.key.obj ≠ o.key.obj) : (c.put o v).get o' = c.get o' :=
  Hub.get_put_other c v fun e => h (by rw [e])

/-- A write leaves the other instances of its object. -/
theorem Hub.get_put_inst (c : Hub) {o o' : Obj} (v : Nat) (h : o'.key.inst ≠ o.key.inst) : (c.put o v).get o' = c.get o' :=
  Hub.get_put_other c v fun e => h (by rw [e])

/-- A write leaves the other fields of its entry. -/
theorem Hub.get_put_off (c : Hub) {o o' : Obj} (v : Nat) (h : o'.key.off ≠ o.key.off) : (c.put o v).get o' = c.get o' :=
  Hub.get_put_other c v fun e => h (by rw [e])

@[simp] theorem Hub.get_emit (c : Hub) (x : Out) (o : Obj) : (c.emit x).get o = c.get o := rfl
@[simp] theorem Hub.get_raise (c : Hub) (n u d : Nat) (o : Obj) : (c.raise n u d).get o = c.get o := rfl
@[simp] theorem Hub.get_advanceTo (c : Hub) (t : Nat) (o : Obj) : (c.advanceTo t).get o = c.get o := rfl
@[simp] theorem Hub.flag_emit (c : Hub) (x : Out) (o : Obj) : (c.emit x).flag o = c.flag o := rfl
@[simp] theorem Hub.flag_raise (c : Hub) (n u d : Nat) (o : Obj) : (c.raise n u d).flag o = c.flag o := rfl

@[simp] theorem Hub.when_true (c : Hub) (f : Hub → Hub) : c.when true f = f c := rfl
@[simp] theorem Hub.when_false (c : Hub) (f : Hub → Hub) : c.when false f = c := rfl

/-- What holds of a hub and of every hub the operation makes of it holds after a conditional operation. -/
theorem Hub.when_spec {P : Hub → Prop} (c : Hub) (b : Bool) (f : Hub → Hub) (h : P c) (hf : P (f c)) : P (c.when b f) := by
  cases b <;> assumption

/-- What every operation of a fold keeps, the fold keeps. -/
theorem Hub.each_spec {α : Type} {P : Hub → Prop} (f : Hub → α → Hub) (hf : ∀ c x, P c → P (f c x)) (xs : List α) :
    ∀ c, P c → P (c.each xs f) := by
  induction xs with
  | nil => intro c h; exact h
  | cons x rest ih => intro c h; exact ih _ (hf c x h)

/-- Counting keeps every register but the counter. -/
theorem Hub.get_count_other (c : Hub) {o o' : Obj} (n : Nat) (h : o'.key ≠ o.key) : (c.count o n).get o' = c.get o' := by
  unfold Hub.count
  split
  · exact Hub.get_put_other c _ h
  · rw [Hub.get_put_other _ _ h]; rfl

/-- A count that fits its register rises by n. -/
theorem Hub.get_count_same (c : Hub) (o : Obj) (n : Nat) (h : c.get o + n < o.cap) : (c.count o n).get o = c.get o + n := by
  simp [Hub.count, h, Nat.mod_eq_of_lt h]

@[simp] theorem Hub.count_out (c : Hub) (o : Obj) (n : Nat) : (c.count o n).out = c.out := by unfold Hub.count; split <;> rfl
@[simp] theorem Hub.count_lines (c : Hub) (o : Obj) (n : Nat) : (c.count o n).lines = c.lines := by unfold Hub.count; split <;> rfl
@[simp] theorem Hub.count_now (c : Hub) (o : Obj) (n : Nat) : (c.count o n).now = c.now := by unfold Hub.count; split <;> rfl
@[simp] theorem Hub.count_sessions (c : Hub) (o : Obj) (n : Nat) : (c.count o n).sessions = c.sessions := by
  unfold Hub.count; split <;> rfl

/-! ## Memories -/

/-- Addresses strictly rising from a bound on, and no listed byte that an unlisted address reads as. -/
def Memory.above (d : Byte) (lo : Nat) : List Host.Cell → Prop
  | [] => True
  | (a, b) :: rest => lo ≤ a ∧ b ≠ d ∧ Memory.above d (a + 1) rest

theorem Memory.above_mono {d : Byte} {lo lo' : Nat} (h : lo' ≤ lo) : ∀ {m : List Host.Cell}, Memory.above d lo m → Memory.above d lo' m
  | [], _ => trivial
  | (_, _) :: _, ⟨h1, h2, h3⟩ => ⟨Nat.le_trans h h1, h2, h3⟩

theorem Memory.wf_cons_iff (d : Byte) (a : Nat) (b : Byte) (m : List Host.Cell) :
    Memory.wf d ((a, b) :: m) = true ↔ b ≠ d ∧ Memory.above d (a + 1) m := by
  induction m generalizing a b with
  | nil => simp [Memory.wf, Memory.above]
  | cons e rest ih =>
    obtain ⟨a', b'⟩ := e
    simp only [Memory.wf, Bool.and_eq_true, bne_iff_ne, ne_eq, decide_eq_true_eq, ih, Memory.above, and_assoc, Nat.lt_iff_add_one_le]

theorem Memory.wf_iff (d : Byte) (m : List Host.Cell) : Memory.wf d m = true ↔ Memory.above d 0 m := by
  cases m with
  | nil => simp [Memory.wf, Memory.above]
  | cons e rest => obtain ⟨a, b⟩ := e; simp [Memory.wf_cons_iff, Memory.above]

theorem Memory.write_above {d : Byte} (a : Nat) (b : Byte) {lo : Nat} (hlo : lo ≤ a) :
    ∀ {m : List Host.Cell}, Memory.above d lo m → Memory.above d lo (Memory.write d a b m) := by
  intro m
  induction m generalizing lo with
  | nil => intro _; unfold Memory.write; split <;> simp_all [Memory.above]
  | cons e rest ih =>
    obtain ⟨a', b'⟩ := e
    rintro ⟨h1, h2, h3⟩
    unfold Memory.write
    split
    · split
      · exact ⟨h1, h2, h3⟩
      · next hlt hb => exact ⟨hlo, hb, hlt, h2, h3⟩
    · split
      · split
        · exact Memory.above_mono (by omega) h3
        · next heq hb => exact ⟨hlo, hb, by subst heq; exact h3⟩
      · exact ⟨h1, h2, ih (by omega) h3⟩

/-- Writing one byte keeps the canonical form. -/
theorem Memory.write_wf (d : Byte) (a : Nat) (b : Byte) (m : List Host.Cell) (h : Memory.wf d m = true) :
    Memory.wf d (Memory.write d a b m) = true :=
  (Memory.wf_iff d _).mpr (Memory.write_above a b (Nat.zero_le a) ((Memory.wf_iff d m).mp h))

/-- Writing bytes keeps the canonical form. -/
theorem Memory.writeAll_wf (d : Byte) (bs : Bytes) : ∀ (a : Nat) (m : List Host.Cell), Memory.wf d m = true →
    Memory.wf d (Memory.writeAll d a bs m) = true := by
  induction bs with
  | nil => intro a m h; exact h
  | cons b rest ih => intro a m h; exact ih _ _ (Memory.write_wf d a b m h)

/-- A memory in canonical form stays so where some of its entries go. -/
theorem Memory.filter_above {d : Byte} (p : Host.Cell → Bool) : ∀ {m : List Host.Cell} {lo : Nat}, Memory.above d lo m →
    Memory.above d lo (m.filter p)
  | [], _, _ => trivial
  | (a, b) :: rest, lo, ⟨h1, h2, h3⟩ => by
    by_cases hp : p (a, b) = true
    · simp only [List.filter, hp]
      exact ⟨h1, h2, Memory.filter_above p h3⟩
    · simp only [List.filter, Bool.not_eq_true] at *
      rw [hp]
      exact Memory.above_mono (by omega) (Memory.filter_above p h3)

theorem Memory.filter_wf (d : Byte) (p : Host.Cell → Bool) (m : List Host.Cell) (h : Memory.wf d m = true) :
    Memory.wf d (m.filter p) = true :=
  (Memory.wf_iff d _).mpr (Memory.filter_above p ((Memory.wf_iff d m).mp h))

/-- A memory with nothing listed is canonical. -/
theorem Memory.nil_wf (d : Byte) : Memory.wf d [] = true := rfl

/-- A read after a write of the same address gives the byte written, in a canonical memory. -/
theorem Memory.read_write_same (d : Byte) (a : Nat) (b : Byte) : ∀ (m : List Host.Cell) (lo : Nat), Memory.above d lo m →
    Memory.read d a (Memory.write d a b m) = b := by
  intro m
  induction m with
  | nil => intro lo _; unfold Memory.write; split <;> simp_all [Memory.read]
  | cons e rest ih =>
    obtain ⟨a', b'⟩ := e
    rintro lo ⟨h1, h2, h3⟩
    have absent : ∀ {n : Nat} {r : List Host.Cell}, a < n → Memory.above d n r → Memory.read d a r = d := by
      intro n r hn hr
      induction r generalizing n with
      | nil => rfl
      | cons x xs ihx =>
        obtain ⟨y, z⟩ := x
        obtain ⟨q1, _, q3⟩ := hr
        simp only [Memory.read, show y ≠ a by omega, if_false]
        exact ihx (by omega) q3
    unfold Memory.write
    split
    · next hlt =>
      split
      · next hb =>
        subst hb
        simp only [Memory.read, show a' ≠ a by omega, if_false]
        exact absent (by omega) h3
      · simp [Memory.read]
    · split
      · next heq =>
        subst heq
        split
        · next hb => subst hb; exact absent (by omega) h3
        · simp [Memory.read]
      · next hne =>
        simp only [Memory.read, hne, if_false]
        exact ih _ h3

/-- A write leaves every other address. -/
theorem Memory.read_write_other (d : Byte) {a x : Nat} (b : Byte) (h : x ≠ a) : ∀ m : List Host.Cell,
    Memory.read d x (Memory.write d a b m) = Memory.read d x m := by
  intro m
  induction m with
  | nil => unfold Memory.write; split <;> simp [Memory.read, h.symm]
  | cons e rest ih =>
    obtain ⟨a', b'⟩ := e
    unfold Memory.write
    split
    · split <;> simp [Memory.read, h.symm]
    · split
      · next heq =>
        subst heq
        split <;> simp [Memory.read, h.symm]
      · simp [Memory.read, ih]

end Sys2Proof.Machine
end

