-- ==== Sys2Proof/Laws/Interlock.lean ====
section
/-! SUPPORT. The laws of the interlock of a port's two pairs (R228): which changes of the registers keep it. -/
namespace Sys2Proof.Machine

/-- Every path state as it was: the interlock holds on. -/
theorem Interlocked.of_eq {c d : Hub} (h : Interlocked c) (e : ∀ (p : Port) (k : Nat), d.get (pathObj p k) = c.get (pathObj p k)) : Interlocked d := by
  intro p
  rw [e p 0, e p 1]
  exact h p

/-- A write of a register of another object keeps it. -/
theorem Interlocked.put_other {c : Hub} (h : Interlocked c) (o : Obj) (v : Nat) (n0 : o.key.obj ≠ (O.srcPathState 0).key.obj)
    (n1 : o.key.obj ≠ (O.snkPathState 0).key.obj) : Interlocked (c.put o v) :=
  h.of_eq fun p k => Hub.get_put_obj c v (by unfold pathObj; split <;> [exact n0.symm; exact n1.symm])

theorem pathObj_cap (p k : Nat) : (pathObj p k).cap = 256 := by unfold pathObj; split <;> rfl

/-- The path states of the other ports stay as they were. -/
theorem get_put_path_port (c : Hub) {p q : Nat} (j k v : Nat) (h : q ≠ p) : (c.put (pathObj p k) v).get (pathObj q j) = c.get (pathObj q j) :=
  Hub.get_put_inst c v (by unfold pathObj; split <;> split <;> exact h)

/-- A write of one pair's path state leaves the other pair of the port. -/
theorem get_put_path_pair (c : Hub) (p v : Nat) : (c.put (pathObj p 0) v).get (pathObj p 1) = c.get (pathObj p 1)
    ∧ (c.put (pathObj p 1) v).get (pathObj p 0) = c.get (pathObj p 0) :=
  ⟨Hub.get_put_other c v (by simp [pathObj]), Hub.get_put_other c v (by simp [pathObj])⟩

/-- A pair that goes where neither Ramp nor On is keeps the interlock. -/
theorem Interlocked.put_rest {c : Hub} (h : Interlocked c) (p : Port) (k v : Nat) (hk : k < 2) (n1 : v % 256 ≠ 1) (n2 : v % 256 ≠ 2) :
    Interlocked (c.put (pathObj p k) v) := by
  intro q
  by_cases e : (q : Nat) = p
  · rw [e]
    rcases (by omega : k = 0 ∨ k = 1) with rfl | rfl
    · rw [Hub.get_put_same, pathObj_cap]
      exact fun g => g.elim (absurd · n1) (absurd · n2)
    · rw [Hub.get_put_same, pathObj_cap]
      exact fun _ => ⟨n1, n2⟩
  · rw [get_put_path_port c 0 k v e, get_put_path_port c 1 k v e]
    exact h q

/-- A pair that goes to Ramp or On while the other is in neither keeps it. -/
theorem Interlocked.put_rising {c : Hub} (h : Interlocked c) (p : Port) (k v : Nat) (hk : k < 2)
    (n : c.get (pathObj p (1 - k)) ≠ 1 ∧ c.get (pathObj p (1 - k)) ≠ 2) : Interlocked (c.put (pathObj p k) v) := by
  intro q
  by_cases e : (q : Nat) = p
  · rw [e]
    rcases (by omega : k = 0 ∨ k = 1) with rfl | rfl
    · rw [(get_put_path_pair c p v).1]
      exact fun _ => n
    · rw [(get_put_path_pair c p v).2]
      exact fun g => g.elim (absurd · n.1) (absurd · n.2)
  · rw [get_put_path_port c 0 k v e, get_put_path_port c 1 k v e]
    exact h q

end Sys2Proof.Machine
end

