-- ==== Sys2Proof/WellFormed.lean ====
section
/-! DEFINITION. The operands a command can carry (R5, R8): lengths and numbers that the operand's type leaves wider than the spec does. `exec` does
not rest on it: a command outside it is taken as its rule says, or stops. -/
namespace Sys2Proof

/-- A bridge packet's data: at most 512 B (R266). -/
def rigShape (x : RigPacket) : Bool := decide (x.data.length ≤ 512)

/-- A command whose operands the spec can give it: first the commands whose operand types are wider, then the rest, whose types leave nothing to check. -/
def Instr.wf : Instr → Bool
  | .packetReceive _ pkt => decide (pkt.payload.length ≤ 65535)
  | .pathTableWrite _ first entries => !entries.isEmpty && decide (first.val + entries.length ≤ 16384)
  | .mcastTableWrite _ _ _ outTids => outTids.length == 32
  | .plan x => decide (x.records.length ≤ 125)
  | .scrubRead word _ _ _ => decide (word < 1572864)
  | .histClear _ _ _ bins => bins.length == 16
  | .bar2Access offset _ data => decide (offset.val + data.length ≤ 65536)
  | .bar4Read _ _ _ len => decide (len ≤ 4096)
  | .acycSubmit _ _ x => decide (x.data.length ≤ 1024)
  | .requestSlotSubmit _ _ x => decide (x.data.length ≤ 512)
  | .flitReceive _ x => x.bytes.length == 640
  | .lanesTrained _ gear txLanes rxLanes => decide (1 ≤ gear ∧ gear ≤ 4 ∧ txLanes + rxLanes ≤ 4)
  | .initReceive _ x => x.limits.length == 8 && x.returned.length == 8
  | .sourceCapabilities _ _ pdos => decide (pdos.length ≤ 11)
  | .passThroughPacket _ pkt => decide (pkt.payload.length ≤ 1024)
  | .dramScrub word _ _ => decide (word < 134217728)
  | .keyDerive _ x => x.value.label.length == 16 && x.value.context.length == 32
  | .imageBlockWrite _ block data _ => decide (block < 7168) && data.length == 4096
  | .rigRead x | .rigWrite x | .rigPostedWrite x | .rigFlush x | .rigClaim x | .rigRelease x | .readRsp x | .writeRsp x | .postedError x
  | .flushRsp x | .claimRsp x | .releaseRsp x | .prefetchData x => rigShape x
  | .resetRelease .. | .aonPowerOn | .resetNAssert | .perstAssert | .railFault .. => true
  | .joinRepeat | .assign .. | .assignAck .. | .refuse .. | .orphan .. | .orphanHoldExpiry | .addressHoldExpiry .. => true
  | .probe .. | .probeAck .. | .probeRetry .. | .probeTimeout .. => true
  | .sync .. | .delayReq .. | .delayResp .. | .syncTimeout | .sleep .. | .stageTableWrite .. | .stageMessage .. | .stageFail ..
  | .routeWrite .. => true
  | .strokeBoundary | .driveWindowClose .. | .reportReceive .. | .planCompute .. | .egressSelect .. | .adapterEgress .. => true
  | .spillMove .. | .refillMove .. | .scrubPaceCheck .. => true
  | .poolSizeWrite .. | .spillSizeWrite .. | .grantWrite .. | .shaperWrite .. | .policerWrite .. | .allotWrite .. | .quantumWrite ..
  | .driveWindowWrite .. => true
  | .pcieTlpReceive .. | .rootPortTlpReceive .. | .pcieTlpEgress .. | .pcieReleaseOnly .. | .pcieHotReset .. => true
  | .pcieLinkTraining .. | .pcieLinkDown | .vdpPoll .. | .vdpTableWrite .. => true
  | .rpHotReset .. | .bar4Write .. | .apertureTimeout .. | .macFrameReceive .. | .pauseFrame .. | .pauseExpiry .. | .ethFrameEgress .. => true
  | .macLinkDown .. | .fioCyclicReceive .. | .fioStale .. | .fioRecordWrite .. | .acycSend .. | .acycReceive .. => true
  | .retryTime .. | .bulkIdle .. | .claimMax | .backoffTime .. | .prefetchLife .. | .targetWindowsWrite .. | .flitTransmit ..
  | .replayTimeout .. | .nonceRecord .. => true
  | .initTimeout .. | .retrainLimitExpiry .. | .retrainRequest .. => true
  | .quietRequest .. | .quietAcknowledge .. | .quietWake .. | .quietWakeLead .. | .wakeFail .. => true
  | .cryptEnableWrite .. | .creditLimitWrite .. | .receiverDetect .. | .wakeBurstsReceived .. | .wakeTimeout .. | .tsReceive .. | .eqStep ..
  | .rateSwitch .. => true
  | .holdLimitExpiry .. | .polarityTimeout .. | .equaliseLimit .. | .lockTimeout .. => true
  | .gearNegotiationTimeout .. | .gearStepLimit .. | .lanesIdleWake .. | .losAssert .. | .lolAssert .. | .eyeScanDone .. => true
  | .linkEnableWrite .. | .gearMaxWrite .. | .laneUseWrite .. | .readyHoldWrite .. | .testModeWrite .. | .bitslip .. | .captureAtWrite .. => true
  | .injectModeWrite .. | .inject .. | .drpToggle .. | .ccTerminationSeen .. | .ccDebounceExpiry .. => true
  | .ccDetach .. | .request .. | .accept .. | .psRdy .. | .eprModeEnter .. | .eprModeExit .. | .eprKeepalive .. => true
  | .softReset .. | .hardReset .. | .prSwap .. | .drSwap .. => true
  | .vconnSwap .. | .pdWait .. | .pdUnsupported .. | .discoverIdentity .. | .discoverSvids .. | .discoverModes .. | .enterMode ..
  | .exitMode .. | .attention .. => true
  | .cableIdentity .. | .senderResponseTimer .. | .psTransitionTimer .. | .sourceEprKeepaliveTimer .. | .sinkEprKeepaliveTimer ..
  | .noResponseTimer .. => true
  | .ppsRequestTimer .. | .swapRetryTimer .. | .modeEntryDelay .. => true
  | .entryWait .. | .vdmResponseTimeout .. | .goodcrcTimeout .. | .errorRecoveryTimer .. | .srcRecoverTimer .. | .vconnStableTimer ..
  | .cableDiscoveryRetry .. | .sendSourceCapTimer .. => true
  | .vconnOvercurrent .. | .policyWrite .. | .sourceSettingsWrite .. | .swapRequestPrSwap .. | .swapRequestDrSwap .. => true
  | .swapRequestVconnSwap .. | .portDisableWrite .. | .epxEnableWrite .. | .powerPathTick .. => true
  | .fastTrip .. | .faultTimerExpiry .. | .thermalLimit .. | .reverseCurrent .. | .pathTurnOn .. | .converterSettled ..
  | .converterTimeout .. => true
  | .rampComplete .. | .pathTurnOff .. | .coolDownExpiry .. | .retryHold .. | .faultClear .. | .adcConversion .. => true
  | .feedQualify .. | .feedLoss .. | .feedDeadTimeExpiry | .feedRampComplete | .feedRevert | .headModeWrite .. | .timingWrite ..
  | .commit .. | .latchEdge .. => true
  | .underrun .. | .hpdRise .. | .irqHpd .. => true
  | .captureFrame .. | .sdpReceive .. | .streamLost .. | .pairLockWrite .. | .capFormatWrite .. => true
  | .dramScrubPace .. | .fopRead .. | .fopWrite .. | .fopReadBlock .. | .fopWriteBlock .. | .fopSegment .. | .fopAbort .. | .fopRelay .. => true
  | .sessionOpen .. | .sessionClose .. | .idleTimeout .. | .blockTimeout .. => true
  | .notifySample | .notifyPeriod .. | .notifyTableWrite .. | .mailboxDoorbell .. | .rspAck | .neighborSolicitation .. => true
  | .echoRequest .. | .udpWrongPort .. | .settingsSave .. | .settingsSaveDone .. | .factoryRestore .. | .keyLoad .. | .keyErase .. => true
  | .rootGenerate .. | .advance .. | .tamperDetect .. | .tamperClear .. | .tamperConfigWrite .. => true
  | .revokeKey0 .. | .revokeKey1 .. | .blowCosignLock .. | .rngHealthFail | .umpireEvent .. | .fatalResetRelease .. | .shadowWindowClose .. => true
  | .reactionTimeout .. | .faultNTimeEnd | .faultNRelease .. | .firstClear .. => true
  | .statusClear .. | .sourceConfigWrite .. | .degradedClear .. | .transferOpen .. | .transferAbort .. | .imageBlockProgrammed | .verify ..
  | .verifyDone | .activateNow .. => true
  | .activateDeferred .. | .activateCancel .. | .activationStart | .lineRunChange .. | .updateLockWrite .. | .loadingDone => true
  | .preparingDone .. | .handoverStart | .handoverComplete .. => true
  | .confirm .. | .revert .. | .confirmWindowExpiry | .recoveryRequest .. | .romBoot .. | .sleepSelect .. | .exitStart .. | .wake .. => true
  | .sleepMaxWrite .. | .sagStageEnter .. | .sagStageClear .. | .objectWrite .. | .perstDeassert => true
  | .macLinkUp .. | .hpdFall .. | .sinkRetraining .. | .losDeassert .. => true
  | .lolDeassert .. | .checkerLock .. | .checkerLockLoss .. | .tryTimerExpiry .. | .srcTransitionTimer .. | .stage1ContractTimeout ..
  | .getSourceCap .. => true
  | .getSinkCap .. | .getRevision .. | .getStatus .. | .reject .. | .vdmAnswer .. | .rngHealthPass => true
  | .vbatPowerOn | .hpdLowHoldEnd .. | .ntfTailWrite .. => true

/-- A command is well formed. -/
abbrev Instr.WellFormed (i : Instr) : Prop := i.wf = true

end Sys2Proof
end

