-- ==== Sys2Proof/Tests/Slice0.lean ====
section
/-! SUPPORT. The package's own tests: ill-formed commands that the check refuses, the spec's worked cases, and for each clause of each statement
a state and operands that meet all its hypotheses. -/
open Sys2Proof Sys2Proof.Machine
namespace Sys2Proof.Tests.Slice0
section
set_option Elab.async false
set_option linter.unusedVariables false

/-- A hub that runs, with these registers written. -/
def st (rs : List (Obj × Nat)) : State := { State.reset with hub := rs.foldl (fun c x => c.put x.1 x.2) (State.reset.hub.put H.running 1) }
/-- The same with the hub's other fields changed. -/
def sth (rs : List (Obj × Nat)) (f : Hub → Hub) : State := { st rs with hub := f (st rs).hub }
/-- A sound time-channel packet. -/
def wPkt : Packet := Packet.rewrite ⟨1, 0x1B, 0, 0, 0, 0, 0, 0, []⟩ 1 3
/-- A packet in the buffer. -/
def wHeld : Held := ⟨0, .head, 3000, 7, 3, 4, 1, 0, 0, 1, 0, 0, 0, 0, false, false, false, false, none, 0xFFFF, wPkt⟩
/-- A path-table entry from P3 to P4. -/
def wEntry : PathEntry := ⟨1, 3, 3, 5, 4, 7, 0xFFFF, 0xFFFF, 0xFFFF⟩
/-- A sound training set with READY, of which 16 have been sent back. -/
def wTs : TsRx :=
  let r : TsRx := ⟨0x5A, 3, 0, 1, 0x0F, 1, 0, 0, 0, 0, 0, 0, 0, 0, false, true, true, 0, 16⟩
  { r with check := BitVec.ofNat 16 (headerCheck (tsBytes r)) }
/-- An Operator session. -/
def wSes : Session := ⟨7, .operator, 99, .t1s, 1, 2, 4, [], 3, [], none, 0⟩
/-- An Owner session with a read block open. -/
def wSesBlock : Session := ⟨7, .owner, 99, .t1s, 1, 2, 4, [], 3, [], some ⟨true, 0x1010, 0, 0, [1, 2, 3, 4], [false, false, false, false], 0⟩, 0⟩
/-- A request in that session, authenticated. -/
def wMsg (lvl : BitVec 8) (k : Nat) (session idx : BitVec 16) (sub : BitVec 8) (count : BitVec 32) (body : Bytes) (key : Nat) : FopMsg :=
  let x : FopMsg := ⟨.t1s, 1, 2, 1, 0, lvl, session, 0xFF, 0, 5, 9, BitVec.ofNat 16 body.length, idx, sub, 0, 0, count, 0, body, 0⟩
  { x with tag := BitVec.ofNat 256 (hmacSha256 key (fopSigned x k)) }
/-- Its tag is the one that its session asks for. -/
theorem wMsg_signed (lvl : BitVec 8) (k : Nat) (session idx : BitVec 16) (sub : BitVec 8) (count : BitVec 32) (body : Bytes) (key : Nat) :
    hmacSha256 key (fopSigned (wMsg lvl k session idx sub count body key) k) % 2 ^ 256 = (wMsg lvl k session idx sub count body key).tag.toNat := by
  simp [wMsg, fopSigned]

/-- The parts of an encrypted flit: header, counter, cipher text, tag, LCTRL and FCRC (R148). -/
theorem flit_parts {a n t g l c : Bytes} (ha : a.length = 4) (hn : n.length = 8) (ht : t.length = 604) (hg : g.length = 16) (hl : l.length = 4) (hc : c.length = 4) :
    let f := a ++ n ++ t ++ g ++ l ++ c
    f.length = 640 ∧ f.take 636 = a ++ n ++ t ++ g ++ l ∧ f.drop 636 = c ∧ f.take 4 = a ∧ (f.drop 4).take 8 = n ∧ (f.drop 12).take 604 = t
      ∧ (f.drop 616).take 16 = g ∧ (f.drop 632).take 4 = l := by
  simp [List.take_append, List.drop_append, List.take_of_length_le, List.drop_eq_nil_of_le, ha, hn, ht, hg, hl, hc]
/-- A cipher text of zeros under session key 1 and counter 5. -/
def wText : Bytes := List.replicate 604 0
/-- Its plain text. -/
def wPlain : Bytes := gcmCrypt (sessionAes 1) (sessionIv 1 5) wText
/-- Its tag. -/
def wTag : Nat := gcmTag (sessionAes 1) (sessionIv 1 5) (leBytes 0 4 ++ leBytes 5 8 ++ leBytes 0 4) wPlain
/-- The flit but for its FCRC. -/
def wSealed : Bytes := leBytes 0 4 ++ leBytes 5 8 ++ wText ++ leBytes wTag 16 ++ leBytes 0 4
/-- An encrypted Active link that holds that key. -/
def wCrypt : State := st [(O.linkState 23, 3), (O.gear 23, 2), (H.crypt 23, 1), (H.sessionKey 23 1, 1)]
/-- What f shows of the hub after one step that takes the command from the front of the queue. -/
def after (i : Instr) (s : State) (f : Hub → α) : Option α := match step { s with pending := [i] } with | .next t => some (f t.hub) | _ => none
/-- A bridge packet that carries more than 512 B. -/
def wLong : RigPacket := ⟨3, 0, false, 0, 0, 0, 0, 0, 0, List.replicate 513 0, false, 0⟩
/-- A request slot that is submitted. -/
def wSlot : SlotRequest := ⟨1, 3, 0, 1, 8, 0, []⟩
/-- The two shared links of the worked case "twelve stations on one uplink": hub 5's P0 and the Cox's P4, and what they may be allotted. -/
def uplink : List (Nat × Nat) := [(120, 1120000), (4, 1121000)]
/-- A tunnel of that case: MIN, D and the grant before. -/
def station (low d prev : Nat) : Flow := ⟨0, [120, 4], d, low, prev, true, false⟩
/-- Its twelve tunnels, by T1's demand and grant and by T9's grant. -/
def stations (d1 p1 p9 : Nat) : List Flow :=
  [station 40000 d1 p1] ++ List.replicate 3 (station 40000 95000 95000) ++ List.replicate 4 (station 47500 47500 47500)
    ++ [station 20000 400000 p9] ++ List.replicate 3 (station 20000 60000 60000)
/-- The header and body of the request of the worked case "lowering a port's gear through the Cox". -/
def gearRequest : Bytes :=
  [1, 2, 0, 2, 3, 0, 7, 0, 0x25, 0, 0, 0, 0x11, 0, 1, 0, 0x46, 0x20, 2, 0, 0, 0, 0, 0, 0, 0, 0, 0, 0, 0, 0, 0, 3]
/-- Head H2 of the worked case "a commit one line before blanking", in frame 5,000. -/
def picture (rs : List (Obj × Nat)) : State :=
  st ([(O.headMode 2, 1), (O.frameSeq 2, 5000), (O.hactive 2, 3840), (O.vactive 2, 2160), (O.layerEnable 2 0, 1), (O.layerWidth 2 0, 3840),
    (O.layerHeight 2 0, 2160), (O.layerStride 2 0, 15360)] ++ rs)
/-- The digits 1 to 9 in ASCII. -/
def nine : Bytes := [0x31, 0x32, 0x33, 0x34, 0x35, 0x36, 0x37, 0x38, 0x39]

/-- A path table of `n` VALID entries from entry `a` on, before what else the store lists. -/
def wFull (a n : Nat) (r : Store) : Store := (List.range' a n).map (fun t => ((O.pathFlags t).key, 1)) ++ r
/-- Each of its entries reads as VALID. -/
theorem wFull_find (r : Store) (t : Nat) : ∀ n a, a ≤ t → t < a + n → Store.find (O.pathFlags t).key (wFull a n r) = some 1 := by
  intro n
  induction n with
  | zero => intro a _ _; omega
  | succ n ih =>
    intro a h1 h2
    by_cases h : a = t
    · simp [wFull, List.range'_succ, Store.find, h]
    · have := ih (a + 1) (by omega) (by omega)
      simpa [wFull, List.range'_succ, Store.find, h] using this
/-- A register of another object reads past them. -/
theorem wFull_other (r : Store) (k : Key) (h : k.obj ≠ (O.pathFlags 0).key.obj) : ∀ n a, Store.find k (wFull a n r) = Store.find k r := by
  intro n
  induction n with
  | zero => intro a; simp [wFull]
  | succ n ih =>
    intro a
    have := ih (a + 1)
    have hk : ¬ (O.pathFlags a).key = k := fun e => h (by rw [← e])
    simpa [wFull, List.range'_succ, Store.find, hk] using this
/-- All of them are active tunnels (R63). -/
theorem wFull_active (c : Hub) (a n : Nat) (r : Store) (ha : 3 ≤ a) (hc : c.regs = wFull a n r) : n ≤ c.activeTunnels := by
  have hv : ∀ t ∈ List.range' a n, (c.valid t || c.drain t) = true ∧ decide (3 ≤ t) = true := by
    intro t ht
    rw [List.mem_range'_1] at ht
    simp [Hub.valid, Hub.get, hc, wFull_find r t n a ht.1 ht.2, bit]
    omega
  unfold Hub.activeTunnels Hub.liveEntries Hub.instances
  rw [hc, wFull, List.filterMap_append, List.filterMap_map, List.filter_append, List.filter_append]
  have h1 : (List.range' a n).filterMap ((fun e : Key × Nat => if e.1.obj = (O.pathFlags 0).key.obj ∧ e.1.off = (O.pathFlags 0).key.off then some e.1.inst else none) ∘
      fun t => ((O.pathFlags t).key, 1)) = List.range' a n := by
    rw [show ((fun e : Key × Nat => if e.1.obj = (O.pathFlags 0).key.obj ∧ e.1.off = (O.pathFlags 0).key.off then some e.1.inst else none) ∘
      fun t => ((O.pathFlags t).key, 1)) = some from by funext t; simp]
    simp
  rw [h1, List.filter_eq_self.2 fun t ht => (hv t ht).1, List.filter_eq_self.2 fun t ht => (hv t ht).2]
  simp

/-- The hub with 4096 such entries. -/
def wCrowd : State := sth [(O.role, 1), (O.treeState, 2)] fun c => { c with regs := wFull 3 4096 c.regs }

/-! ## Ill-formed commands that the check refuses -/

theorem test_wf_payload : Instr.wf (.packetReceive 3 { wPkt with payload := List.replicate 65536 0 }) = false := by decide +kernel
theorem test_wf_no_entry : Instr.wf (.pathTableWrite .engineer 3 []) = false := by decide
theorem test_wf_table_end : Instr.wf (.pathTableWrite .engineer 16383 [wEntry, wEntry]) = false := by decide
theorem test_wf_members : Instr.wf (.mcastTableWrite .engineer 3 5 [7]) = false := by decide
theorem test_wf_plan : Instr.wf (.plan ⟨5, 0, 0, 1, 96000, List.replicate 126 (9, 9)⟩) = false := by decide +kernel
theorem test_wf_scrub : Instr.wf (.scrubRead 1572864 .correctable (some 3000) false) = false := by decide
theorem test_wf_bins : Instr.wf (.histClear .owner true 9 [0]) = false := by decide
theorem test_wf_bar2 : Instr.wf (.bar2Access 65535 true [1, 2]) = false := by decide
theorem test_wf_bar4 : Instr.wf (.bar4Read 1 2 0 4097) = false := by decide
theorem test_wf_acyc : Instr.wf (.acycSubmit .owner 0 ⟨8000, 0, 1024, 1, List.replicate 1025 0⟩) = false := by decide +kernel
theorem test_wf_rig : [Instr.rigRead, .rigWrite, .rigPostedWrite, .rigFlush, .rigClaim, .rigRelease, .readRsp, .writeRsp, .postedError, .flushRsp,
    .claimRsp, .releaseRsp, .prefetchData].all (fun f => !(f wLong).wf) = true := by decide +kernel
theorem test_wf_slot : Instr.wf (.requestSlotSubmit .owner 0 { wSlot with data := List.replicate 513 0 }) = false := by decide +kernel
theorem test_wf_flit : Instr.wf (.flitReceive 3 ⟨[], false, 0, [1]⟩) = false := by decide
theorem test_wf_lanes : Instr.wf (.lanesTrained 3 5 2 2) = false := by decide
theorem test_wf_init : Instr.wf (.initReceive 3 ⟨1, 0, 0, 0, [1], []⟩) = false := by decide
theorem test_wf_pdos : Instr.wf (.sourceCapabilities 3 true (List.replicate 12 1)) = false := by decide
theorem test_wf_stream : Instr.wf (.passThroughPacket 1 { wPkt with payload := List.replicate 1025 0 }) = false := by decide +kernel
theorem test_wf_dram : Instr.wf (.dramScrub 134217728 .correctable false) = false := by decide
theorem test_wf_label : Instr.wf (.keyDerive .owner ⟨⟨1, 2, 3, 1, 0, [1], List.replicate 32 0⟩, 0⟩) = false := by decide
theorem test_wf_context : Instr.wf (.keyDerive .owner ⟨⟨1, 2, 3, 1, 0, List.replicate 16 1, []⟩, 0⟩) = false := by decide
theorem test_wf_block : Instr.wf (.imageBlockWrite .owner 7168 (List.replicate 4096 0) 0) = false := by decide +kernel
theorem test_wf_block_data : Instr.wf (.imageBlockWrite .owner 0 [1] 0) = false := by decide

/-! ## The spec's worked cases

Expected values are the spec's own, from the worked case each comment names. -/

/-- Chapter "Tunnels and the path table", "reading entry 8604". -/
theorem test_entry_8604 :
    (let s := st [(O.pathFlags 8604, 1), (⟨⟨0x400100, 8604, 1⟩, 1, 0⟩, 1), (O.pathIn 8604, 0x24), (O.pathCls 8604, 2), (O.pathOut 8604, 2),
        (O.pathOutTid 8604, 9117), (O.pathShaper 8604, 28), (O.pathPolicer 8604, 7), (O.pathPair 8604, 0xFFFF)]
     s.hub.readObject s.mem .observer 0x4001 0 (16 * 8604) 16 65536)
      = (.ok, [1, 1, 0x24, 2, 2, 0, 0x9D, 0x23, 0x1C, 0, 7, 0, 0xFF, 0xFF, 0, 0]) := by decide +kernel

/-- "Twelve stations on one uplink", first change: T9's grant is 370,000 and the others keep theirs. -/
theorem test_plan_first : (allot uplink (stations 95000 95000 60000)).map (fun x => x.2.2) = [95000, 95000, 95000, 95000, 47500, 47500, 47500, 47500, 370000, 60000, 60000, 60000] := by
  decide +kernel

/-- The same, the plan for 9,000,013: T9 falls to 265,000 and T1 stays. -/
theorem test_plan_second : (allot uplink (stations 200000 95000 370000)).map (fun x => x.2.2) = [95000, 95000, 95000, 95000, 47500, 47500, 47500, 47500, 265000, 60000, 60000, 60000] := by
  decide +kernel

/-- The same, the plan for 9,000,014: T1 rises to 200,000. -/
theorem test_plan_third : (allot uplink (stations 200000 95000 265000)).map (fun x => x.2.2) = [200000, 95000, 95000, 95000, 47500, 47500, 47500, 47500, 265000, 60000, 60000, 60000] := by
  decide +kernel

/-- The capacity of the shared links there, and of the retrained link of "lowering a port's gear through the Cox". -/
theorem test_iso_capacity : isoCapacity 118000 96000 = 1121000 ∧ isoCapacity (schedulingRate 3 2 false) 96000 = 693500 := by decide

/-- "Write budgets": 24 links at Gear 4, and what a third inbound lane adds. -/
theorem test_allowances : 24 * linkAllowance 4 2 118000 = 2880000 ∧ linkAllowance 4 3 177000 - linkAllowance 4 2 118000 = 60000 ∧ headAllowance 3 4 = 80000 := by decide

/-- "C4 on a three-lane inbound link": with C5, C6 and C7 at 5 each, 57 for C4 is refused and 49 accepted. -/
theorem test_credit_limits :
    (let s := st [(O.creditLimit 2 5, 5), (O.creditLimit 2 6, 5), (O.creditLimit 2 7, 5)]
     (after (.creditLimitWrite .engineer 2 4 57) s fun d => d.get (O.creditLimit 2 4), after (.creditLimitWrite .engineer 2 4 49) s fun d => d.get (O.creditLimit 2 4)))
      = (some 40, some 49) := by decide +kernel

/-- "An Oar station attaches": the Mode VDOs of the Oar's port 0 and of hub 7's port 4. -/
theorem test_mode_vdo : (st [(O.role, 0)]).hub.modeVdo 0 = 0x000001CF ∧ (st [(O.role, 1)]).hub.modeVdo 4 = 0x000401DF := by decide +kernel

/-- "Lowering a port's gear through the Cox": the request's bytes are those of a write of 03h to 2046h.02 of hub 7. -/
theorem test_gear_request :
    (let x := parseFop .t1s 1 2 (gearRequest ++ List.replicate 32 0)
     (fopWellFormed 2 x, x.hub, x.index, x.sub, x.body)) = (true, 7, 0x2046, 2, [3]) := by decide +kernel

/-- The same: session 3, counter 37, request 17, and the TAG is over these 33 bytes. -/
theorem test_gear_session :
    (let x := parseFop .t1s 1 2 (gearRequest ++ List.replicate 32 0)
     (x.session, x.counter, x.reqId, fopSigned x 2 == gearRequest)) = (3, 37, 17, true) := by decide +kernel

/-- The same: a port at Gear 4 whose GEAR_MAX becomes 3 retrains with cause 03h. -/
theorem test_gear_retrain : after (.gearMaxWrite .engineer 4 3) (st [(O.linkState 4, 3), (O.gear 4, 4), (H.trainGear 4, 4)]) (fun d => (d.get (O.linkState 4), d.get (O.lastRetrainCause 4))) = some (5, 3) := by
  decide +kernel

/-- "A station's first tunnels": the cyclic packet of stroke 4,800,011 carries INFO 3E0Bh. -/
theorem test_cyclic_info :
    after .strokeBoundary (st [(O.strokeNumber, 4800010), (O.forwarding, 1), (O.fioTxTid 0, 8609), (O.fioTxSize 0, 64), (O.fioTxPeriod 0, 8), (O.fioTxPhase 0, 3),
      (O.pathFlags 8609, 1), (⟨⟨0x400100, 8609, 1⟩, 1, 0⟩, 4), (O.pathIn 8609, 0x28), (O.pathCls 8609, 1), (O.pathOut 8609, 2), (O.pathPolicer 8609, 7),
      (O.policerMode 7, 1), (O.policerRate 7, 80)]) (fun d => d.held.map fun h => (h.pkt.info, h.pkt.payload.length)) = some [(0x3E0B, 64)] := by decide +kernel

/-- "A port sequencer fault": STATUS_1 after sources 58 and 47, and STATUS_2 after source 74. -/
theorem test_status_words :
    after (.umpireEvent [⟨58, 4, 0⟩, ⟨47, 4, 0⟩, ⟨74, 2, 0⟩]) (st [(O.role, 1), (H.running, 1), (O.headMode 2, 1)]) (fun d => (d.get O.status1, d.get O.status2)) = some (0x04008000, 0x00000400) := by
  decide +kernel

/-- "A commit one line before blanking": committed in frame 5,000, the buffer is first shown in frame 5,001. -/
theorem test_commit : after (.commit .operator 2 1) (picture [(O.layerBase 2 0, 0x12000000)]) (fun d => (d.get (O.showSeq 2), d.get (O.commit 2))) = some (5001, 1) := by
  decide +kernel

/-- The same: the latch edge of frame 5,001 latches B and retires A. -/
theorem test_latch_edge :
    after (.latchEdge 2) (picture [(O.commit 2, 1), (H.layer 0 2 0 0, 1), (H.layer 0 2 0 2, 0x12000000), (H.layer 1 2 0 0, 1), (H.layer 1 2 0 2, 0x10000000)])
      (fun d => (d.get (O.frameSeq 2), d.get (O.latchedBase 2 0), d.get (O.retiredBase 2 0), d.get (O.retiredSeq 2))) = some (5001, 0x12000000, 0x10000000, 5001) := by
  decide +kernel

/-- "A packet at the window edge": 1,040 B at 118 Gb/s from 95,950 ns do not fit a window of 96,000 ns; from 95,929 ns they do. -/
theorem test_window_edge :
    (let p : Held := { wHeld with pkt := { wPkt with payload := List.replicate 1024 0 } }
     let c : Nat → Hub := fun t => { ((st []).hub.put (O.payloadRate 0) 118000) with now := t, boundaryAt := 0 }
     ((c 95950).fits 0 p, (c 95929).fits 0 p)) = (false, true) := by decide +kernel

/-- CRC-32C and the header check on the standard's nine digits (their parameters are those of the scope chapter and of HCRC). -/
theorem test_check_codes : crc32c nine = 0xE3069283 ∧ headerCheck nine = 0x29B1 := by decide +kernel

/-! ## Hypotheses that can be met -/

set_option maxRecDepth 1000000 in
theorem test_resetCommandsComplete_1 : ∃ (s : State) (straps : BitVec 2) (powered : List PoweredPort), (s.hub.flag H.running = false) ∧ (s.hub.get H.nextCause ≠ 5) :=
  ⟨st [(H.nextCause, 2), (H.running, 0)], 0, [], by decide +kernel⟩

set_option maxRecDepth 1000000 in
theorem test_resetCommandsComplete_2 : ∃ (s : State) (powered : List PoweredPort), (s.hub.flag H.running = false) ∧ (s.hub.get H.nextCause = 3) :=
  ⟨st [(H.nextCause, 3), (H.running, 0)], [], by decide +kernel⟩

set_option maxRecDepth 1000000 in
theorem test_resetCommandsComplete_5 : ∃ (s : State), (s.hub.get H.pcieLink = 2) :=
  ⟨st [(H.pcieLink, 2)], by decide +kernel⟩

set_option maxRecDepth 1000000 in
theorem test_resetCommandsComplete_6 : ∃ (s : State), (s.hub.domainsOn = true) ∧ (s.hub.flag O.pcieEnable = true) ∧ (s.hub.get H.pcieLink = 0) :=
  ⟨st [(H.running, 1), (O.pcieEnable, 1)], by decide +kernel⟩

set_option maxRecDepth 1000000 in
theorem test_resetCommandsComplete_7 : ∃ (s : State), (s.hub.domainsOn = false) :=
  ⟨State.reset, by decide +kernel⟩

set_option maxRecDepth 1000000 in
theorem test_resetCommandsComplete_8 : ∃ (s : State) (rail : Fin 14), (s.hub.railsRequired = true) ∧ (rail ≠ 13) :=
  ⟨st [(H.running, 1)], 12, by decide +kernel⟩

set_option maxRecDepth 1000000 in
theorem test_resetCommandsComplete_10 : ∃ (s : State) (straps : BitVec 2) (powered : List PoweredPort), (s.hub.flag H.running = true ∨ s.hub.get H.nextCause = 5) :=
  ⟨st [(H.nextCause, 5)], 0, [], by decide +kernel⟩

set_option maxRecDepth 1000000 in
theorem test_resetCommandsComplete_11 : ∃ (s : State) (rail : Fin 14), (s.hub.railsRequired = false ∨ rail = 13) :=
  ⟨st [], 13, by decide +kernel⟩

theorem test_treeJoinCommands_1 : ∃ (s : State), (s.hub.domainsOn = true) ∧ (s.hub.get O.treeState = 1) :=
  ⟨st [(O.treeState, 1)], by decide +kernel⟩

set_option maxRecDepth 1000000 in
theorem test_treeJoinCommands_2 : ∃ (s : State) (p : Port) (parent addr depth : BitVec 8) (pp : Port) (ret : Bool), (s.hub.domainsOn = true) ∧ (s.hub.get O.treeState = 1) ∧ (s.hub.modeEntered p = true) ∧ (s.hub.get O.role ≠ 2) :=
  ⟨st [(O.treeState, 1), (O.role, 1), (O.modeState 4, 2)], 4, 0, 1, 1, 2, false, by decide +kernel⟩

set_option maxRecDepth 1000000 in
theorem test_treeJoinCommands_3 : ∃ (s : State) (p : Port) (addr : BitVec 8) (uid : BitVec 64), (s.hub.domainsOn = true) ∧ (s.hub.get O.upstreamPort ≠ p.val) ∧ (s.hub.get O.role ≠ 2) :=
  ⟨st [(O.role, 1), (O.upstreamPort, 0)], 5, 7, 9, by decide +kernel⟩

set_option maxRecDepth 1000000 in
theorem test_treeJoinCommands_4 : ∃ (s : State) (p : Port) (reason : BitVec 8), (s.hub.domainsOn = true) ∧ (s.hub.get O.treeState = 1) ∧ (s.hub.get H.joinPort = p.val) :=
  ⟨st [(O.treeState, 1), (H.joinPort, 6)], 6, 1, by decide +kernel⟩

set_option maxRecDepth 1000000 in
theorem test_treeJoinCommands_5 : ∃ (s : State) (p : Port), (s.hub.domainsOn = true) ∧ (s.hub.get O.treeState = 2) ∧ (s.hub.get O.upstreamPort = p.val) ∧ (s.hub.get O.role ≠ 2) ∧ (RigIdle s.hub) :=
  ⟨st [(O.treeState, 2), (O.role, 1), (O.upstreamPort, 3), (O.bridgeEnable, 1)], 3, by decide +kernel⟩

set_option maxRecDepth 1000000 in
theorem test_treeJoinCommands_6 : ∃ (s : State), (s.hub.domainsOn = true) ∧ (s.hub.get O.treeState = 3) ∧ (24 ≤ s.hub.get H.lastUpstream) :=
  ⟨st [(O.treeState, 3)], by decide +kernel⟩

set_option maxRecDepth 1000000 in
theorem test_treeJoinCommands_7 : ∃ (s : State) (p : Port), (s.hub.domainsOn = true) ∧ (s.hub.get O.treeState = 3) ∧ (s.hub.get H.lastUpstream = p.val) ∧ (s.hub.trained p = true) ∧ (s.hub.modeEntered p = true) ∧ (s.hub.get O.role ≠ 2) :=
  ⟨st [(O.treeState, 3), (H.lastUpstream, 23), (O.trainState 23, 9), (O.modeState 23, 2), (O.role, 1)], 23, by decide +kernel⟩

set_option maxRecDepth 1000000 in
theorem test_treeJoinCommands_8 : ∃ (s : State) (p : Port), (s.hub.domainsOn = true) ∧ (s.hub.get O.treeState = 3) ∧ (s.hub.get H.lastUpstream = p.val) ∧ (s.hub.trained p = false ∨ s.hub.modeEntered p = false) :=
  ⟨st [(O.treeState, 3), (H.lastUpstream, 23)], 23, by decide +kernel⟩

set_option maxRecDepth 1000000 in
theorem test_treeJoinCommands_9 : ∃ (s : State) (dst : BitVec 8), (s.hub.domainsOn = true) ∧ (s.hub.get O.hubAddress = dst.toNat) :=
  ⟨st [(O.hubAddress, 9)], 9, by decide +kernel⟩

set_option maxRecDepth 1000000 in
theorem test_treeJoinCommands_10 : ∃ (s : State) (p : Port), (s.hub.domainsOn = true) ∧ (s.hub.get O.upstreamPort ≠ p.val) :=
  ⟨st [(O.upstreamPort, 0)], 1, by decide +kernel⟩

set_option maxRecDepth 1000000 in
theorem test_treeJoinCommands_11 : ∃ (s : State) (p : Port) (parent addr depth : BitVec 8) (pp : Port) (ret : Bool), (s.hub.domainsOn = true) ∧ (s.hub.get O.treeState ≠ 1) ∧ (s.hub.get O.treeState ≠ 2) :=
  ⟨st [(O.treeState, 0)], 4, 0, 1, 1, 2, false, by decide +kernel⟩

set_option maxRecDepth 1000000 in
theorem test_timeCommands_1 : ∃ (s : State) (p : Port) (sentAt : BitVec 32), (s.hub.domainsOn = true) :=
  ⟨st [], 23, 5, by decide +kernel⟩

set_option maxRecDepth 1000000 in
theorem test_timeCommands_2 : ∃ (s : State) (p : Port) (down up : BitVec 32), (s.hub.domainsOn = true) ∧ (s.hub.get O.upstreamPort = p.val) :=
  ⟨st [(O.upstreamPort, 2)], 2, 100, 200, by decide +kernel⟩

set_option maxRecDepth 1000000 in
theorem test_timeCommands_3 : ∃ (s : State), (s.hub.domainsOn = true) ∧ (s.hub.flag O.timeLock = true) ∧ (s.hub.get O.role ≠ 2) :=
  ⟨st [(O.timeLock, 1), (O.role, 1)], by decide +kernel⟩

set_option maxRecDepth 1000000 in
theorem test_timeCommands_4 : ∃ (s : State) (p : Port) (stroke : BitVec 64) (offset : Int), (s.hub.domainsOn = true) ∧ (s.hub.get O.upstreamPort = p.val) ∧ (s.hub.get O.role ≠ 2) ∧ (-2147483648 ≤ offset) ∧ (offset < 2147483648) :=
  ⟨st [(O.upstreamPort, 2), (O.role, 1)], 2, 100, -5, by decide +kernel⟩

set_option maxRecDepth 1000000 in
theorem test_timeCommands_5 : ∃ (s : State) (p : Port) (stroke : BitVec 64) (offset : Int), (s.hub.domainsOn = true) ∧ (s.hub.get O.upstreamPort = p.val) ∧ (s.hub.get O.role ≠ 2) ∧ (s.hub.flag O.timeLock = false) ∧ (s.hub.get H.syncGood = 15) ∧ (-20 ≤ offset) ∧ (offset ≤ 20) :=
  ⟨st [(O.upstreamPort, 2), (O.role, 1), (H.syncGood, 15)], 2, 100, 20, by decide +kernel⟩

set_option maxRecDepth 1000000 in
theorem test_timeCommands_6 : ∃ (s : State) (p : Port) (stroke : BitVec 64) (offset : Int), (s.hub.domainsOn = true) ∧ (s.hub.get O.upstreamPort = p.val) ∧ (s.hub.get O.role ≠ 2) ∧ (s.hub.flag O.timeLock = false) ∧ (s.hub.get H.syncGood < 15) ∧ (-20 ≤ offset) ∧ (offset ≤ 20) :=
  ⟨st [(O.upstreamPort, 2), (O.role, 1), (H.syncGood, 14)], 2, 100, -20, by decide +kernel⟩

set_option maxRecDepth 1000000 in
theorem test_timeCommands_7 : ∃ (s : State) (p : Port) (stroke : BitVec 64) (offset : Int), (s.hub.domainsOn = true) ∧ (s.hub.get O.upstreamPort = p.val) ∧ (s.hub.get O.role ≠ 2) ∧ (s.hub.flag O.timeLock = true) ∧ (s.hub.get H.syncBad = 3) ∧ (offset < -40 ∨ 40 < offset) :=
  ⟨st [(O.upstreamPort, 2), (O.role, 1), (O.timeLock, 1), (H.syncBad, 3)], 2, 100, 41, by decide +kernel⟩

set_option maxRecDepth 1000000 in
theorem test_timeCommands_8 : ∃ (s : State) (p : Port) (stroke : BitVec 64) (offset : Int), (s.hub.domainsOn = true) ∧ (s.hub.get O.upstreamPort = p.val) ∧ (s.hub.get O.role ≠ 2) ∧ (s.hub.flag O.timeLock = true) ∧ (s.hub.get H.syncBad < 3) ∧ (offset < -40 ∨ 40 < offset) :=
  ⟨st [(O.upstreamPort, 23), (O.role, 1), (O.timeLock, 1), (H.syncBad, 2)], 23, 5, -41, by decide +kernel⟩

set_option maxRecDepth 1000000 in
theorem test_timeCommands_9 : ∃ (s : State) (p : Port) (stroke : BitVec 64) (offset : Int), (s.hub.domainsOn = true) ∧ (s.hub.get O.upstreamPort = p.val) ∧ (s.hub.get O.role ≠ 2) ∧ (s.hub.flag O.timeLock = true) ∧ (-40 ≤ offset) ∧ (offset ≤ 40) :=
  ⟨st [(O.upstreamPort, 23), (O.role, 1), (O.timeLock, 1)], 23, 5, 40, by decide +kernel⟩

set_option maxRecDepth 1000000 in
theorem test_timeCommands_10 : ∃ (s : State) (p : Port) (stroke : BitVec 64) (offset : Int), (s.hub.domainsOn = true) ∧ (s.hub.get O.upstreamPort = p.val) ∧ (s.hub.get O.role ≠ 2) ∧ (s.hub.flag O.timeLock = false) ∧ (offset < -20 ∨ 20 < offset) :=
  ⟨st [(O.upstreamPort, 23), (O.role, 1)], 23, 5, 21, by decide +kernel⟩

/-- A sink path On with its source path Off holds the interlock, and the idle step answers. -/
theorem test_stepKeepsInterlock_1 : ∃ s t : State, (Interlocked s.hub) ∧ (step s = .next t) :=
  ⟨st [(O.snkPathState 23, 2)], _, by unfold Interlocked; decide +kernel, rfl⟩

set_option maxRecDepth 1000000 in
theorem test_coxCommands_1 : ∃ (s : State) (r : Report), (s.hub.domainsOn = true) ∧ (s.hub.get O.role = 2) ∧ (s.hub.memberAt r.hub.toNat = true) ∧ (r.late = true) ∧ (r.events = []) ∧ (r.joins = []) ∧ (s.hub.handingOver = false) ∧ (s.hub.get (H.lateCounted r.hub.toNat) ≠ r.stroke.toNat + 1) :=
  ⟨st [(O.role, 2)], ⟨0, 1, 0, 0, [], [], [], [], true⟩, by decide +kernel⟩

set_option maxRecDepth 1000000 in
theorem test_coxCommands_2 : ∃ (s : State) (r : Report), (s.hub.domainsOn = true) ∧ (s.hub.get O.role = 2) ∧ (s.hub.memberAt r.hub.toNat = true) ∧ (r.late = true) ∧ (r.events = []) ∧ (r.joins = []) ∧ (s.hub.handingOver = false) ∧ (s.hub.get (H.lateCounted r.hub.toNat) = r.stroke.toNat + 1) :=
  ⟨st [(O.role, 2), (H.lateCounted 0, 2)], ⟨0, 1, 0, 0, [], [], [], [], true⟩, by decide +kernel⟩

set_option maxRecDepth 1000000 in
theorem test_coxCommands_3 : ∃ (s : State) (r : Report) (x : DemandRecord) (w : RouteWork), (s.hub.domainsOn = true) ∧ (s.hub.get O.role = 2) ∧ (s.hub.memberAt r.hub.toNat = true) ∧ (r.late = false) ∧ (r.events = []) ∧ (r.joins = []) ∧ (r.demands = [x]) ∧ (bit r.flags.toNat 5 = false) ∧ (s.hub.handingOver = false) ∧ ((s.hub.works.find? fun w => w.hubs.head? == some r.hub.toNat && s.hub.get (O.routeTid w.route 0) == x.tid.toNat) = some w) :=
  ⟨sth [(O.role, 2), (O.hubTableUid 5, 9), (O.hubTableState 5, 2), (O.routeTid 5 0, 3000)] fun c => { c with works := [⟨5, [5, 4], [], [], [], 0, 0, []⟩] }, ⟨5, 0, 1, 0, [], [], [], [⟨3000, 2, 77⟩], false⟩, ⟨3000, 2, 77⟩, ⟨5, [5, 4], [], [], [], 0, 0, []⟩, by decide +kernel⟩

set_option maxRecDepth 1000000 in
theorem test_coxCommands_4 : ∃ (s : State) (addr : BitVec 8) (uid : BitVec 64) (ts : BitVec 8), (s.hub.domainsOn = true) ∧ (s.hub.get O.role = 2) ∧ (1 ≤ addr.toNat) ∧ (s.hub.get (O.hubTableUid addr.toNat) = uid.toNat) :=
  ⟨st [(O.role, 2), (O.hubTableUid 3, 77)], 3, 77, 2, by decide +kernel⟩

set_option maxRecDepth 1000000 in
theorem test_coxCommands_5 : ∃ (s : State) (addr : BitVec 8), (s.hub.domainsOn = true) ∧ (s.hub.get O.role = 2) ∧ (s.hub.get (H.probes addr.toNat) = 1 ∨ s.hub.get (H.probes addr.toNat) = 2) :=
  ⟨st [(O.role, 2), (H.probes 3, 1)], 3, by decide +kernel⟩

set_option maxRecDepth 1000000 in
theorem test_coxCommands_6 : ∃ (s : State) (addr : BitVec 8), (s.hub.domainsOn = true) ∧ (s.hub.get O.role = 2) ∧ (s.hub.get (H.probes addr.toNat) ≠ 0) ∧ (s.hub.get (O.hubTableUid addr.toNat) ≠ 0) :=
  ⟨st [(O.role, 2), (H.probes 3, 1), (O.hubTableUid 3, 77)], 3, by decide +kernel⟩

set_option maxRecDepth 1000000 in
theorem test_coxCommands_7 : ∃ (s : State) (addr : BitVec 8), (s.hub.domainsOn = true) ∧ (s.hub.get O.role = 2) ∧ (1 ≤ addr.toNat) ∧ (s.hub.get (O.hubTableState addr.toNat) = 3) :=
  ⟨st [(O.role, 2), (O.hubTableState 3, 3)], 3, by decide +kernel⟩

set_option maxRecDepth 1000000 in
theorem test_coxCommands_8 : ∃ (s : State) (lvl : Level) (route : Fin 4096) (q : RouteRequest), (s.hub.domainsOn = true) ∧ (s.hub.get O.role = 2) ∧ (Engineers lvl) ∧ (routeTypeListed q = true) ∧ (routeEndsListed q = true) ∧ (q.state = 1) ∧ (s.hub.get (O.routeState route) = 0) ∧ (s.hub.inRom = false) ∧ (s.hub.handingOver = false) :=
  ⟨st [(O.role, 2)], .owner, 4095, ⟨1, 1, 1, 0, 0, 1, 0, 100, 0, 0⟩, by decide +kernel⟩

set_option maxRecDepth 1000000 in
theorem test_coxCommands_9 : ∃ (s : State) (lvl : Level) (route : Fin 4096) (lo hi : BitVec 32) (mode : BitVec 8), (s.hub.domainsOn = true) ∧ (s.hub.get O.role = 2) ∧ (Engineers lvl) ∧ (lo.toNat ≤ hi.toNat) ∧ (mode.toNat ≤ 1) ∧ (s.hub.inRom = false) ∧ (s.hub.handingOver = false) :=
  ⟨st [(O.role, 2)], .engineer, 4095, 5, 5, 1, by decide +kernel⟩

set_option maxRecDepth 1000000 in
theorem test_coxCommands_10 : ∃ (s : State) (hub : BitVec 8) (tid : BitVec 16) (status : BitVec 8) (activate : BitVec 64) (w : RouteWork) (i : Nat), (s.hub.domainsOn = true) ∧ (s.hub.get O.role = 2) ∧ (s.hub.works = [w]) ∧ (w.hubs.idxOf? hub.toNat = some i) ∧ (s.hub.get (O.routeTid w.route i) = tid.toNat) ∧ (s.hub.get (O.routeActivate w.route) = activate.toNat) ∧ (w.tornDown = 0) ∧ (s.hub.get (O.routeType w.route) ≠ 2) :=
  ⟨sth [(O.role, 2), (O.routeTid 5 1, 3000), (O.routeActivate 5, 9)] fun c => { c with works := [⟨5, [3, 4], [], [], [], 0, 0, []⟩] }, 4, 3000, 3, 9, ⟨5, [3, 4], [], [], [], 0, 0, []⟩, 1, by decide +kernel⟩

set_option maxRecDepth 1000000 in
theorem test_coxCommands_11 : ∃ (s : State) (elapsed : Nat), (s.hub.domainsOn = true) ∧ (s.hub.get O.role = 2) ∧ (s.hub.flag O.forwarding = true) ∧ (1 ≤ s.hub.get H.coxBoundaries) ∧ (s.hub.get H.holdMark ≠ 2) ∧ (s.hub.handingOver = false) ∧ (elapsed < 2 ^ 32) :=
  ⟨st [(O.role, 2), (O.forwarding, 1), (H.coxBoundaries, 1)], 70000, by decide +kernel⟩

set_option maxRecDepth 1000000 in
theorem test_coxCommands_12 : ∃ (s : State) (lvl : Level) (route : Fin 4096) (lo hi : BitVec 32) (mode : BitVec 8), (s.hub.domainsOn = true) ∧ (s.hub.get O.role = 2) ∧ (Engineers lvl) ∧ (hi.toNat < lo.toNat ∨ 1 < mode.toNat) ∧ (s.hub.inRom = false) ∧ (s.hub.handingOver = false) :=
  ⟨st [(O.role, 2)], .engineer, 0, 6, 5, 0, by decide +kernel⟩

set_option maxRecDepth 1000000 in
theorem test_coxCommands_13 : ∃ (s : State) (r : Report), (s.hub.domainsOn = true) ∧ (s.hub.get O.role = 2) ∧ (s.hub.memberAt r.hub.toNat = true) ∧ (r.late = false) ∧ (r.events = []) ∧ (r.joins = []) ∧ (r.demands = []) ∧ (s.hub.handingOver = false) :=
  ⟨st [(O.role, 2)], ⟨0, 1, 0x21, 0, [(5, 6)], [], [], [], false⟩, by decide +kernel⟩

set_option maxRecDepth 1000000 in
theorem test_coxCommands_14 : ∃ (s : State) (lvl : Level) (route : Fin 4096) (q : RouteRequest), (s.hub.domainsOn = true) ∧ (s.hub.get O.role = 2) ∧ (Engineers lvl) ∧ (routeTypeListed q = true) ∧ (routeEndsListed q = true) ∧ (q.state = 4) ∧ (s.hub.get (O.routeState route) = 2) ∧ (s.hub.inRom = false) ∧ (s.hub.handingOver = false) :=
  ⟨st [(O.role, 2), (O.routeState 4095, 2)], .owner, 4095, ⟨4, 1, 1, 0, 0, 1, 0, 100, 0, 0⟩, by decide +kernel⟩

set_option maxRecDepth 1000000 in
theorem test_coxCommands_15 : ∃ (s : State) (lvl : Level) (route : Fin 4096) (q : RouteRequest), (s.hub.domainsOn = true) ∧ (s.hub.get O.role = 2) ∧ (Engineers lvl) ∧ (routeTypeListed q = false ∨ routeEndsListed q = false) ∧ (q.state.toNat ≠ s.hub.get (O.routeState route) ∨ s.hub.sameRequest route q = false) ∧ (s.hub.inRom = false) ∧ (s.hub.handingOver = false) ∧ (s.hub.boundVdps = []) :=
  ⟨st [(O.role, 2)], .owner, 4095, ⟨1, 5, 1, 0, 0, 1, 0, 100, 0, 0⟩, by decide +kernel⟩

theorem test_packetAndScrubCommands_1 : ∃ (s : State) (input : Fin 33) (pkt : Packet), (input ≠ 32) ∧ (s.hub.flag O.forwarding = true) ∧ (s.hub.flag H.running = true) ∧ (s.hub.get O.powerState = 0) ∧ (pkt.wellFormed = true) ∧ (pkt.tid = 1) ∧ (pkt.type = 0) ∧ (cellsOf pkt.payload.length ≤ s.hub.isoFree) :=
  ⟨st [(O.forwarding, 1), (O.isoPool, 4096)], 3, wPkt, by decide +kernel⟩

set_option maxRecDepth 1000000 in
theorem test_packetAndScrubCommands_2 : ∃ (s : State) (q : Fin 264) (p : Held), (s.hub.domainsOn = true) ∧ (s.hub.held = [p]) ∧ (p.q = q.val) ∧ (p.seg = .tail) ∧ (s.hub.get O.spillState = 0) ∧ (s.hub.spilling q = true) ∧ (q.val % 8 = 4) ∧ (p.cells ≤ s.hub.spillRegion - s.hub.spillUnits) :=
  ⟨sth [(O.queueStatusSpill 4, 1), (O.spillSize, 1), (O.spillState, 0)] fun c => { c with held := [{ wHeld with q := 4, seg := .tail }] }, 4, { wHeld with q := 4, seg := .tail }, by decide +kernel⟩

set_option maxRecDepth 1000000 in
theorem test_packetAndScrubCommands_3 : ∃ (s : State) (q : Fin 264) (p : Held), (s.hub.domainsOn = true) ∧ (s.hub.held = [p]) ∧ (p.q = q.val) ∧ (p.seg = .dram) ∧ (s.hub.get O.spillState = 0) ∧ (0 < s.hub.get O.refillLow) ∧ (p.cells ≤ s.hub.sharedFree) :=
  ⟨sth [(O.spillState, 0), (O.refillLow, 1024)] fun c => { c with held := [{ wHeld with q := 4, seg := .dram }] }, 4, { wHeld with q := 4, seg := .dram }, by decide +kernel⟩

set_option maxRecDepth 1000000 in
theorem test_packetAndScrubCommands_4 : ∃ (s : State) (word : Nat) (owner : Option Nat), (s.hub.domainsOn = true) ∧ (word < 1572863) ∧ (s.hub.get O.scrubCorrected + 1 < 2 ^ 32) ∧ (s.hub.get O.scrubForced + 1 < 2 ^ 32) :=
  ⟨st [], 1572862, some 3000, by decide +kernel⟩

set_option maxRecDepth 1000000 in
theorem test_packetAndScrubCommands_5 : ∃ (s : State) (word : Nat) (owner : Option Nat), (s.hub.domainsOn = true) ∧ (word < 1572863) ∧ (s.hub.get O.scrubUncorrectable + 1 < 2 ^ 32) :=
  ⟨st [], 0, some 3000, by decide +kernel⟩

set_option maxRecDepth 1000000 in
theorem test_packetAndScrubCommands_6 : ∃ (s : State) (word : Nat) (err : WordError) (owner : Option Nat), (s.hub.domainsOn = true) ∧ (word < 1572863) ∧ (err = .clean) :=
  ⟨st [], 0, .clean, some 3000, by decide +kernel⟩

set_option maxRecDepth 1000000 in
theorem test_packetAndScrubCommands_7 : ∃ (s : State) (done due : Nat), (s.hub.domainsOn = true) ∧ (due < done + 1024) ∧ (s.hub.flag H.scrubBehind = false) :=
  ⟨st [], 5, 1028, by decide +kernel⟩

set_option maxRecDepth 1000000 in
theorem test_packetAndScrubCommands_8 : ∃ (s : State) (done due : Nat), (s.hub.domainsOn = true) ∧ (done + 1024 ≤ due) ∧ (s.hub.get O.scrubForced + 1562 < 2 ^ 32) :=
  ⟨st [], 5, 1029, by decide +kernel⟩

set_option maxRecDepth 1000000 in
theorem test_packetAndScrubCommands_9 : ∃ (s : State) (done due : Nat), (s.hub.domainsOn = true) ∧ (s.hub.flag H.scrubBehind = true) ∧ (done < due) ∧ (s.hub.get O.scrubForced + 1562 < 2 ^ 32) :=
  ⟨st [(H.scrubBehind, 1)], 5, 6, by decide +kernel⟩

set_option maxRecDepth 1000000 in
theorem test_packetAndScrubCommands_10 : ∃ (s : State) (done due : Nat), (s.hub.domainsOn = true) ∧ (due ≤ done) :=
  ⟨st [], 5, 5, by decide +kernel⟩

set_option maxRecDepth 1000000 in
theorem test_packetAndScrubCommands_11 : ∃ (s : State) (done due : Nat), (s.hub.domainsOn = true) ∧ (s.hub.flag (H.scrubLate 0) = false) ∧ (s.hub.get O.scrubPeriod * 1000000000 < s.hub.now - s.hub.get H.scrubStart) :=
  ⟨sth [(O.scrubPeriod, 60)] fun c => { c with now := 60000000001 }, 5, 5, by decide +kernel⟩

set_option maxRecDepth 1000000 in
theorem test_packetAndScrubCommands_12 : ∃ (s : State) (word : Nat) (err : WordError) (owner : Option Nat) (collide : Bool), (s.hub.domainsOn = true) ∧ (1572864 ≤ word) :=
  ⟨st [], 1572864, .clean, none, false, by decide +kernel⟩

set_option maxRecDepth 1000000 in
theorem test_packetAndScrubCommands_13 : ∃ (s : State) (word : Nat) (err : WordError) (collide : Bool), (s.hub.domainsOn = true) ∧ (134217728 ≤ word) :=
  ⟨st [], 134217728, .clean, false, by decide +kernel⟩

set_option maxRecDepth 1000000 in
theorem test_packetAndScrubCommands_14 : ∃ (s : State) (input : Fin 33) (pkt : Packet) (out outTid : Nat), (input ≠ 32) ∧ (s.hub.flag O.forwarding = true) ∧ (s.hub.flag H.running = true) ∧ (s.hub.get O.powerState = 0) ∧ (pkt.wellFormed = true) ∧ (3 ≤ pkt.tid.toNat) ∧ (pkt.type ≠ 3) ∧ (s.hub.valid pkt.tid.toNat = true) ∧ (s.hub.isMcast pkt.tid.toNat = false) ∧ (endpointOf (s.hub.get (O.pathIn pkt.tid.toNat)) = some input.val) ∧ (s.hub.get (O.pathType pkt.tid.toNat) = pkt.type.toNat) ∧ (s.hub.get (O.pathPolicer pkt.tid.toNat) = 0xFFFF) ∧ (s.hub.outputs pkt.tid.toNat = [(out, outTid)]) ∧ (s.hub.portBarred input = false) ∧ (s.hub.portBarred out = false) ∧ (s.hub.get (O.pathCls pkt.tid.toNat) = 0 ∨ 4 ≤ s.hub.get (O.pathCls pkt.tid.toNat) ∧ s.hub.get (O.pathCls pkt.tid.toNat) ≤ 7) ∧ (s.hub.spilling (queueOf out (s.hub.get (O.pathCls pkt.tid.toNat))) = false) ∧ (100 * s.hub.cellsUsed < s.hub.get O.spillOn * 196608) ∧ (cellsOf pkt.payload.length ≤ s.hub.reserveFree (queueOf out (s.hub.get (O.pathCls pkt.tid.toNat)))) ∧ (16 * s.hub.sharedCells (queueOf out (s.hub.get (O.pathCls pkt.tid.toNat))) ≤ 2 ^ s.hub.get (O.alphaCode (s.hub.get (O.pathCls pkt.tid.toNat))) * s.hub.sharedFree) :=
  ⟨st [(O.pathFlags 3000, 1), (O.pathIn 3000, 3), (O.pathType 3000, 2), (O.pathCls 3000, 4), (O.pathPolicer 3000, 0xFFFF), (O.pathOut 3000, 5), (O.pathOutTid 3000, 77), (O.forwarding, 1)], 3, Packet.rewrite { wPkt with type := 2 } 3000 4, 5, 77, by decide +kernel⟩

set_option maxRecDepth 1000000 in
theorem test_packetAndScrubCommands_15 : ∃ (s : State) (owner : Option Nat) (collide : Bool), (s.hub.domainsOn = true) ∧ (s.hub.get O.scrubPasses + 1 < 2 ^ 32) ∧ (s.hub.get H.scrubStart ≤ s.hub.now) ∧ (s.hub.now - s.hub.get H.scrubStart ≤ s.hub.get O.scrubPeriod * 1000000000) :=
  ⟨sth [(O.scrubPeriod, 60)] fun c => { c with now := 60000000000 }, none, false, by decide +kernel⟩

theorem test_poolAndSpillSizeWrites_1 : ∃ (s : State) (lvl : Level) (pool : PoolSize) (v : BitVec 32), (s.hub.domainsOn = true) ∧ (Engineers lvl) ∧ ((poolObj pool).2.1 ≤ v.toNat) ∧ (v.toNat ≤ (poolObj pool).2.2) ∧ (65536 ≤ (s.hub.put (poolObj pool).1 v.toNat).sharedLeft) ∧ (pool = .creditC0 → s.hub.topLimit 0 ≤ v.toNat) ∧ (pool = .creditC4 → s.hub.topLimit 4 ≤ v.toNat) ∧ (s.hub.inRom = false) ∧ (s.hub.handingOver = false) :=
  ⟨st [], .engineer, .creditC4, 1024, by decide +kernel⟩

set_option maxRecDepth 1000000 in
theorem test_poolAndSpillSizeWrites_2 : ∃ (s : State) (lvl : Level) (pool : PoolSize) (v : BitVec 32), (s.hub.domainsOn = true) ∧ (Engineers lvl) ∧ (v.toNat < (poolObj pool).2.1 ∨ (poolObj pool).2.2 < v.toNat) ∧ (s.hub.inRom = false) ∧ (s.hub.handingOver = false) :=
  ⟨st [], .engineer, .creditC0, 3, by decide +kernel⟩

set_option maxRecDepth 1000000 in
theorem test_poolAndSpillSizeWrites_3 : ∃ (s : State) (lvl : Level) (v : BitVec 8), (s.hub.domainsOn = true) ∧ (Engineers lvl) ∧ (v.toNat ≤ 16) ∧ (s.hub.usedAbove (userTop v.toNat) = false) ∧ (s.hub.held = []) ∧ (s.hub.inRom = false) ∧ (s.hub.handingOver = false) :=
  ⟨st [], .owner, 16, by decide +kernel⟩

set_option maxRecDepth 1000000 in
theorem test_poolAndSpillSizeWrites_4 : ∃ (s : State) (lvl : Level) (pool : PoolSize) (v : BitVec 32), (s.hub.domainsOn = true) ∧ (Engineers lvl) ∧ ((s.hub.put (poolObj pool).1 v.toNat).sharedLeft < 65536) ∧ (s.hub.inRom = false) ∧ (s.hub.handingOver = false) :=
  ⟨st [], .engineer, .isoPool, 0xFFFFFFFF, by decide +kernel⟩

set_option maxRecDepth 1000000 in
theorem test_poolAndSpillSizeWrites_5 : ∃ (s : State) (lvl : Level) (pool : PoolSize) (v : BitVec 32), (s.hub.domainsOn = true) ∧ (Engineers lvl) ∧ (pool = .creditC0 ∧ v.toNat < s.hub.topLimit 0 ∨ pool = .creditC4 ∧ v.toNat < s.hub.topLimit 4) ∧ (s.hub.inRom = false) ∧ (s.hub.handingOver = false) :=
  ⟨st [(O.creditLimit 23 4, 300)], .engineer, .creditC4, 299, by decide +kernel⟩

set_option maxRecDepth 1000000 in
theorem test_poolAndSpillSizeWrites_6 : ∃ (s : State) (lvl : Level) (v : BitVec 8) (p : Held), (s.hub.domainsOn = true) ∧ (Engineers lvl) ∧ (v.toNat ≤ 16) ∧ (s.hub.usedAbove (userTop v.toNat) = false) ∧ (p ∈ s.hub.held) ∧ (s.hub.spilling p.q = true) ∧ (s.hub.inRom = false) ∧ (s.hub.handingOver = false) :=
  ⟨sth [(O.queueStatusSpill 4, 1)] fun c => { c with held := [{ wHeld with q := 4 }] }, .engineer, 16, { wHeld with q := 4 }, by decide +kernel⟩

set_option maxRecDepth 1000000 in
theorem test_poolAndSpillSizeWrites_7 : ∃ (s : State) (lvl : Level) (v : BitVec 8), (s.hub.domainsOn = true) ∧ (Engineers lvl) ∧ (16 < v.toNat ∨ s.hub.usedAbove (userTop v.toNat) = true) ∧ (s.hub.inRom = false) ∧ (s.hub.handingOver = false) :=
  ⟨st [], .engineer, 17, by decide +kernel⟩

set_option maxRecDepth 1000000 in
theorem test_pathTableWrites_1 : ∃ (s : State) (lvl : Level) (t : Fin 16384) (e : PathEntry), (s.hub.domainsOn = true) ∧ (Engineers lvl) ∧ (s.hub.entryRefusal t e = none) ∧ (entryValid e = true) ∧ (s.hub.stagedSlots = []) ∧ (s.hub.inRom = false) ∧ (s.hub.handingOver = false) :=
  ⟨st [(O.role, 1), (O.treeState, 2)], .engineer, 3000, wEntry, by decide +kernel⟩

set_option maxRecDepth 1000000 in
theorem test_pathTableWrites_2 : ∃ (s : State) (lvl : Level) (g : Fin 1024) (members : BitVec 32) (outTids : List (BitVec 16)), (s.hub.domainsOn = true) ∧ (Engineers lvl) ∧ (s.hub.oarUnjoined = false) ∧ (s.hub.inRom = false) ∧ (s.hub.handingOver = false) :=
  ⟨st [(O.role, 1), (O.treeState, 2)], .owner, 1023, 0xFFFFFFFF, [77, 0xFFFF], by decide +kernel⟩

set_option maxRecDepth 1000000 in
theorem test_pathTableWrites_3 : ∃ (s : State) (lvl : Level) (k : Fin 256) (r : StageRecord), (s.hub.domainsOn = true) ∧ (Engineers lvl) ∧ (s.hub.inRom = false) ∧ (s.hub.handingOver = false) ∧ (bit r.used.toNat 0 = false) ∧ (s.hub.clearRefusal r = none) :=
  ⟨st [(O.role, 1)], .owner, 255, ⟨3000, 0, 0, wEntry⟩, by decide +kernel⟩

set_option maxRecDepth 1000000 in
theorem test_pathTableWrites_4 : ∃ (s : State) (lvl : Level) (k : Fin 256) (r : StageRecord), (s.hub.domainsOn = true) ∧ (Engineers lvl) ∧ (s.hub.inRom = false) ∧ (s.hub.handingOver = false) ∧ (bit r.used.toNat 0 = true) ∧ (s.hub.stageRefusal r (s.hub.stagedSlots.length == 256) = none) :=
  ⟨st [(O.role, 1), (O.treeState, 2)], .owner, 255, ⟨3000, 1, 5, wEntry⟩, by decide +kernel⟩

set_option maxRecDepth 1000000 in
theorem test_pathTableWrites_5 : ∃ (s : State) (r : StageRecord) (vid : Option VidMapping) (k : Fin 256), (s.hub.domainsOn = true) ∧ ((List.range 256).find? (fun k => !bit (s.hub.get (O.stageUsed k)) 0) = some k.val) ∧ (s.hub.stageRefusal r false = none) :=
  ⟨st [(O.role, 1), (O.treeState, 2)], ⟨3000, 1, 5, wEntry⟩, none, 0, by decide +kernel⟩

set_option maxRecDepth 1000000 in
theorem test_pathTableWrites_6 : ∃ (s : State) (r : StageRecord) (vid : Option VidMapping) (st0 : Nat) (answer : Status), (s.hub.domainsOn = true) ∧ (s.hub.get O.role ≠ 2) ∧ (s.hub.stageRefusal r ((List.range 256).find? fun k => !bit (s.hub.get (O.stageUsed k)) 0).isNone = some (st0, answer)) :=
  ⟨st [(O.role, 1), (O.treeState, 2)], ⟨2, 1, 5, wEntry⟩, none, 5, .invalidValue, by decide +kernel⟩

set_option maxRecDepth 1000000 in
theorem test_pathTableWrites_7 : ∃ (s : State) (r : StageRecord) (vid : Option VidMapping) (st0 : Nat) (answer : Status), (s.hub.domainsOn = true) ∧ (s.hub.get O.role = 2) ∧ (s.hub.stageRefusal r ((List.range 256).find? fun k => !bit (s.hub.get (O.stageUsed k)) 0).isNone = some (st0, answer)) :=
  ⟨st [(O.role, 2), (O.treeState, 2)], ⟨2, 1, 5, wEntry⟩, none, 5, .invalidValue, by decide +kernel⟩

set_option maxRecDepth 1000000 in
theorem test_pathTableWrites_8 : ∃ (s : State) (lvl : Level) (t : Fin 16384) (e : PathEntry), (s.hub.domainsOn = true) ∧ (Engineers lvl) ∧ (s.hub.inRom = false) ∧ (s.hub.handingOver = false) ∧ (t.val < 3) :=
  ⟨st [(O.role, 1), (O.treeState, 2)], .owner, 2, wEntry, by decide +kernel⟩

set_option maxRecDepth 1000000 in
theorem test_pathTableWrites_9 : ∃ (s : State) (lvl : Level) (t : Fin 16384) (e : PathEntry), (s.hub.domainsOn = true) ∧ (Engineers lvl) ∧ (s.hub.inRom = false) ∧ (s.hub.handingOver = false) ∧ (3 ≤ t.val) ∧ (s.hub.oarUnjoined = true) :=
  ⟨st [(O.role, 0), (O.treeState, 1)], .engineer, 3, wEntry, by decide +kernel⟩

set_option maxRecDepth 1000000 in
theorem test_pathTableWrites_10 : ∃ (s : State) (lvl : Level) (t : Fin 16384) (e : PathEntry), (s.hub.domainsOn = true) ∧ (Engineers lvl) ∧ (s.hub.inRom = false) ∧ (s.hub.handingOver = false) ∧ (3 ≤ t.val) ∧ (s.hub.oarUnjoined = false) ∧ (entryListed e = false) :=
  ⟨st [(O.role, 1), (O.treeState, 2)], .owner, 16383, { wEntry with type := 6 }, by decide +kernel⟩

set_option maxRecDepth 1000000 in
theorem test_pathTableWrites_11 : ∃ (s : State) (lvl : Level) (t : Fin 16384) (e : PathEntry), (s.hub.domainsOn = true) ∧ (Engineers lvl) ∧ (s.hub.inRom = false) ∧ (s.hub.handingOver = false) ∧ (s.hub.oarUnjoined = false) ∧ (3 ≤ t.val) ∧ (entryListed e = true) ∧ (entryValid e = true) ∧ (s.hub.drain t = true) :=
  ⟨st [(O.role, 1), (O.treeState, 2), (O.pathFlags 3, 4)], .owner, 3, wEntry, by decide +kernel⟩

set_option maxRecDepth 1000000 in
theorem test_pathTableWrites_12 : ∃ (s : State) (lvl : Level) (t : Fin 16384) (e : PathEntry), (s.hub.domainsOn = true) ∧ (Engineers lvl) ∧ (s.hub.inRom = false) ∧ (s.hub.handingOver = false) ∧ (s.hub.oarUnjoined = false) ∧ (3 ≤ t.val) ∧ (entryListed e = true) ∧ (entryValid e = true) ∧ (s.hub.drain t = false) ∧ (s.hub.valid t = true) ∧ (s.hub.get (O.pathType t) ≠ e.type.toNat ∨ s.hub.get (O.pathIn t) ≠ e.inp.toNat ∨ s.hub.get (O.pathCls t) ≠ e.cls.toNat % 8 ∨ s.hub.get (O.pathOut t) ≠ entryOut e ∨ s.hub.get (O.pathOutTid t) ≠ e.outTid.toNat % 16384 ∨ s.hub.isMcast t ≠ bit e.flags.toNat 1) :=
  ⟨st [(O.role, 1), (O.treeState, 2), (O.pathFlags 3, 1)], .owner, 3, wEntry, by decide +kernel⟩

set_option maxRecDepth 1000000 in
theorem test_pathTableWrites_13 : ∃ (s : State) (lvl : Level) (t : Fin 16384) (e : PathEntry), (s.hub.domainsOn = true) ∧ (Engineers lvl) ∧ (s.hub.inRom = false) ∧ (s.hub.handingOver = false) ∧ (s.hub.oarUnjoined = false) ∧ (3 ≤ t.val) ∧ (entryListed e = true) ∧ (entryValid e = true) ∧ (s.hub.drain t = false) ∧ (s.hub.valid t = false) ∧ ((typeRow e.type.toNat).1.contains (entryCls e) = false ∨ (e.type = 2 ∧ bit e.flags.toNat 1 = true) ∨ (s.hub.get O.role = 1 ∧ 0x20 ∈ entryEnds e) ∨ s.hub.shaperSuits e = false) :=
  ⟨st [(O.role, 1), (O.treeState, 2)], .owner, 3, { wEntry with cls := 4 }, by decide +kernel⟩

set_option maxRecDepth 1000000 in
theorem test_pathTableWrites_14 : ∃ (s : State) (lvl : Level) (t : Fin 16384) (e : PathEntry), (s.hub.domainsOn = true) ∧ (Engineers lvl) ∧ (s.hub.inRom = false) ∧ (s.hub.handingOver = false) ∧ (s.hub.oarUnjoined = false) ∧ (3 ≤ t.val) ∧ (entryListed e = true) ∧ (entryValid e = true) ∧ (s.hub.drain t = false) ∧ (s.hub.valid t = false) ∧ (s.hub.combination e = true) ∧ (s.hub.shaperSuits e = true) ∧ (s.hub.useTaken t e = true) :=
  ⟨st [(O.role, 1), (O.treeState, 2)], .owner, 3, { wEntry with type := 1, cls := 2, inp := 0x24, out := 4, shaper := 5 }, by decide +kernel⟩

set_option maxRecDepth 1000000 in
theorem test_pathTableWrites_15 : ∃ (s : State) (lvl : Level) (t : Fin 16384) (e : PathEntry), (s.hub.domainsOn = true) ∧ (Engineers lvl) ∧ (s.hub.inRom = false) ∧ (s.hub.handingOver = false) ∧ (s.hub.oarUnjoined = false) ∧ (3 ≤ t.val) ∧ (entryListed e = true) ∧ (entryValid e = true) ∧ (s.hub.drain t = false) ∧ (s.hub.valid t = false) ∧ (s.hub.combination e = true) ∧ (s.hub.shaperSuits e = true) ∧ (s.hub.useTaken t e = false) ∧ (4096 ≤ s.hub.activeTunnels) :=
  ⟨wCrowd, .owner, 16383, { wEntry with shaper := 0xFFFF }, by decide +kernel, by decide, by decide +kernel, by decide +kernel, by decide +kernel, by decide, rfl, rfl, by decide +kernel, by decide +kernel, by decide +kernel, by decide +kernel, by decide +kernel, wFull_active _ 3 4096 _ (by decide) rfl⟩

set_option maxRecDepth 1000000 in
theorem test_pathTableWrites_16 : ∃ (s : State) (lvl : Level) (t : Fin 16384) (e : PathEntry), (s.hub.domainsOn = true) ∧ (Engineers lvl) ∧ (s.hub.inRom = false) ∧ (s.hub.handingOver = false) ∧ (s.hub.oarUnjoined = false) ∧ (3 ≤ t.val) ∧ (entryListed e = true) ∧ (entryValid e = false) ∧ (s.hub.stagedSlots = []) ∧ (s.hub.valid t = false) ∧ (s.hub.drain t = false) :=
  ⟨st [(O.role, 1), (O.treeState, 2)], .owner, 3, { wEntry with flags := 0 }, by decide +kernel⟩

set_option maxRecDepth 1000000 in
theorem test_pathTableWrites_17 : ∃ (s : State) (lvl : Level) (t : Fin 16384) (e : PathEntry), (s.hub.domainsOn = true) ∧ (Engineers lvl) ∧ (s.hub.inRom = false) ∧ (s.hub.handingOver = false) ∧ (s.hub.oarUnjoined = false) ∧ (3 ≤ t.val) ∧ (entryListed e = true) ∧ (entryValid e = false) ∧ (s.hub.stagedSlots = []) ∧ (s.hub.valid t = false) ∧ (s.hub.drain t = true) :=
  ⟨st [(O.role, 1), (O.treeState, 2), (O.pathFlags 3, 4)], .owner, 3, { wEntry with flags := 0 }, by decide +kernel⟩

set_option maxRecDepth 1000000 in
theorem test_pathTableWrites_18 : ∃ (s : State) (lvl : Level) (t : Fin 16384) (e : PathEntry), (s.hub.domainsOn = true) ∧ (Engineers lvl) ∧ (s.hub.inRom = false) ∧ (s.hub.handingOver = false) ∧ (s.hub.oarUnjoined = false) ∧ (3 ≤ t.val) ∧ (entryListed e = true) ∧ (entryValid e = false) ∧ (s.hub.valid t = true) ∧ (s.hub.get (O.pathFlags t) < 256) :=
  ⟨st [(O.role, 1), (O.treeState, 2), (O.pathFlags 16383, 1)], .owner, 16383, { wEntry with flags := 0 }, by decide +kernel⟩

set_option maxRecDepth 1000000 in
theorem test_pathTableWrites_19 : ∃ (s : State) (lvl : Level) (t : Fin 16384) (e : PathEntry) (k : Fin 256), (s.hub.domainsOn = true) ∧ (Engineers lvl) ∧ (s.hub.entryRefusal t e = none) ∧ (s.hub.inRom = false) ∧ (s.hub.handingOver = false) ∧ (bit (s.hub.get (O.stageUsed k)) 0 = true) ∧ (s.hub.get (O.stageTid k) = t.val) :=
  ⟨st [(O.role, 1), (O.treeState, 2), (O.stageUsed 255, 1), (O.stageTid 255, 3000)], .owner, 3000, wEntry, 255, by decide +kernel⟩

set_option maxRecDepth 1000000 in
theorem test_pathTableWrites_20 : ∃ (s : State) (lvl : Level) (g : Fin 1024) (members : BitVec 32) (outTids : List (BitVec 16)), (s.hub.domainsOn = true) ∧ (Engineers lvl) ∧ (s.hub.oarUnjoined = true) ∧ (s.hub.inRom = false) ∧ (s.hub.handingOver = false) :=
  ⟨st [(O.role, 0), (O.treeState, 1)], .owner, 1023, 5, [], by decide +kernel⟩

set_option maxRecDepth 1000000 in
theorem test_pathTableWrites_21 : ∃ (s : State) (lvl : Level) (k : Fin 256) (r : StageRecord), (s.hub.domainsOn = true) ∧ (Engineers lvl) ∧ (s.hub.inRom = false) ∧ (s.hub.handingOver = false) ∧ (r.tid.toNat < 3 ∨ 16383 < r.tid.toNat) ∧ (bit r.used.toNat 0 = true) :=
  ⟨st [(O.role, 1), (O.treeState, 2)], .owner, 255, ⟨2, 1, 5, wEntry⟩, by decide +kernel⟩

set_option maxRecDepth 1000000 in
theorem test_pathTableWrites_22 : ∃ (s : State) (lvl : Level) (k : Fin 256) (r : StageRecord), (s.hub.domainsOn = true) ∧ (Engineers lvl) ∧ (s.hub.inRom = false) ∧ (s.hub.handingOver = false) ∧ (3 ≤ r.tid.toNat ∧ r.tid.toNat ≤ 16383) ∧ (bit r.used.toNat 0 = true) ∧ (s.hub.oarUnjoined = false) ∧ (entryListed r.entry = true) ∧ (entryValid r.entry = true → s.hub.combination r.entry = true) ∧ (r.activate.toNat ≤ s.hub.stroke) :=
  ⟨st [(O.role, 1), (O.treeState, 2), (O.strokeNumber, 5)], .owner, 255, ⟨16383, 1, 5, wEntry⟩, by decide +kernel⟩

set_option maxRecDepth 1000000 in
theorem test_pathTableWrites_23 : ∃ (s : State) (lvl : Level) (k : Fin 256) (r : StageRecord), (s.hub.domainsOn = true) ∧ (Engineers lvl) ∧ (s.hub.inRom = false) ∧ (s.hub.handingOver = false) ∧ (3 ≤ r.tid.toNat ∧ r.tid.toNat ≤ 16383) ∧ (bit r.used.toNat 0 = true) ∧ (s.hub.oarUnjoined = false) ∧ (entryListed r.entry = true) ∧ (entryValid r.entry = true → s.hub.combination r.entry = true) ∧ (s.hub.stroke < r.activate.toNat) ∧ (s.hub.stagedSlots.length = 256) :=
  ⟨st ([(O.role, 1), (O.treeState, 2)] ++ (List.range 256).map fun k => (O.stageUsed k, 1)), .owner, 255, ⟨3, 1, 5, wEntry⟩, by decide +kernel⟩

set_option maxRecDepth 1000000 in
theorem test_pathTableWrites_24 : ∃ (s : State) (lvl : Level) (k : Fin 256) (r : StageRecord), (s.hub.domainsOn = true) ∧ (Engineers lvl) ∧ (s.hub.inRom = false) ∧ (s.hub.handingOver = false) ∧ (3 ≤ r.tid.toNat ∧ r.tid.toNat ≤ 16383) ∧ (bit r.used.toNat 0 = true) ∧ (s.hub.oarUnjoined = false) ∧ (entryListed r.entry = false ∨ (entryValid r.entry = true ∧ s.hub.combination r.entry = false)) :=
  ⟨st [(O.role, 1), (O.treeState, 2)], .owner, 255, ⟨3, 1, 5, { wEntry with type := 6 }⟩, by decide +kernel⟩

set_option maxRecDepth 1000000 in
theorem test_pathTableWrites_25 : ∃ (s : State) (lvl : Level) (t : Fin 16384) (es : List PathEntry), (s.hub.domainsOn = true) ∧ (Engineers lvl) ∧ (s.hub.inRom = false) ∧ (s.hub.handingOver = false) ∧ (16384 < t.val + es.length) :=
  ⟨st [(O.role, 1), (O.treeState, 2)], .owner, 16383, [wEntry, wEntry], by decide +kernel⟩

theorem test_strokeAndEgressCommands_1 : ∃ (s : State), (s.hub.pdOn = true) :=
  ⟨st [(O.powerState, 3)], by decide +kernel⟩

set_option maxRecDepth 1000000 in
theorem test_strokeAndEgressCommands_2 : ∃ (s : State) (p : Port), (s.hub.domainsOn = true) ∧ (s.hub.flag (H.driveOpen p) = true) ∧ (s.hub.flag (H.retunePending p) = false) :=
  ⟨st [(H.driveOpen 23, 1)], 23, by decide +kernel⟩

set_option maxRecDepth 1000000 in
theorem test_strokeAndEgressCommands_3 : ∃ (s : State) (plan : PlanPacket), (s.hub.domainsOn = true) ∧ (s.hub.stroke < plan.effective.toNat) ∧ (s.hub.get O.treeState = 2) ∧ (s.hub.get O.role ≠ 2) :=
  ⟨st [(O.treeState, 2), (O.role, 1)], ⟨1, 0, 0, 1, 100000, []⟩, by decide +kernel⟩

set_option maxRecDepth 1000000 in
theorem test_strokeAndEgressCommands_4 : ∃ (s : State) (port : Port) (p : Held) (cell : Fin 196608), (s.hub.domainsOn = true) ∧ (s.hub.held = [p]) ∧ (p.q = queueOf port 0) ∧ (p.seg = .head) ∧ (p.tid = 0) ∧ (p.cells ≤ s.hub.creditAvail port 0) ∧ (s.hub.get (O.linkState port) = 3) ∧ (s.hub.staged = []) ∧ (0 < s.hub.flitRoom port) ∧ (s.hub.mgmtWait = []) ∧ (s.hub.tlpWait = []) ∧ (p.marked = none) :=
  ⟨sth [(O.linkState 2, 3), (O.peerCreditLimit 2 0, 64)] fun c => { c with held := [{ wHeld with q := 16, tid := 0 }] }, 2, { wHeld with q := 16, tid := 0 }, 0, by decide +kernel⟩

set_option maxRecDepth 1000000 in
theorem test_strokeAndEgressCommands_5 : ∃ (s : State) (p : Held) (cell : Fin 196608), (s.hub.domainsOn = true) ∧ (s.hub.held = [p]) ∧ (p.q = queueOf 32 0) ∧ (p.seg = .head) ∧ (p.tid = 0) ∧ (s.hub.handingOver = false) ∧ (s.hub.mgmtWait = []) ∧ (s.hub.tlpWait = []) ∧ (p.marked = none) :=
  ⟨sth [] fun c => { c with held := [{ wHeld with q := 256, tid := 0 }] }, { wHeld with q := 256, tid := 0 }, 0, by decide +kernel⟩

set_option maxRecDepth 1000000 in
theorem test_strokeAndEgressCommands_6 : ∃ (s : State) (port : Port) (k : Nat) (p : Held) (cell : Fin 196608), (s.hub.domainsOn = true) ∧ (s.hub.egressReady port = true) ∧ (1 ≤ k) ∧ (k ≤ 3) ∧ (s.hub.firstHead port = none) ∧ (∀ j ∈ [1, 2, 3], j < k → s.hub.driveHead port j = none) ∧ (s.hub.driveHead port k = some p) ∧ (s.hub.get O.sagStage ≠ 5) ∧ (∀ h ∈ s.hub.held, s.hub.drain h.tid = false) ∧ (s.hub.mgmtWait = []) ∧ (s.hub.tlpWait = []) ∧ (p.marked = none) :=
  ⟨sth [(O.linkState 23, 3), (O.peerCreditLimit 23 4, 100), (O.peerCreditLimit 23 5, 100), (O.peerCreditLimit 23 2, 100), (O.payloadRate 23, 100000), (H.driveOpen 23, 1)] fun c => { c with held := [{ wHeld with q := 188, pkt := Packet.rewrite wPkt 3000 4 }, { wHeld with q := 186, pkt := Packet.rewrite wPkt 3000 2 }] }, 23, 2, { wHeld with q := 186, pkt := Packet.rewrite wPkt 3000 2 }, 5, by decide +kernel⟩

set_option maxRecDepth 1000000 in
theorem test_strokeAndEgressCommands_7 : ∃ (s : State) (port : Port) (k : Nat) (p : Held) (cell : Fin 196608), (s.hub.domainsOn = true) ∧ (s.hub.egressReady port = true) ∧ (s.hub.get (H.drrClass port) = k) ∧ (4 ≤ k) ∧ (k ≤ 7) ∧ (s.hub.firstHead port = none) ∧ (∀ j ∈ [1, 2, 3], s.hub.driveHead port j = none) ∧ (s.hub.recoveryHead port k = some p) ∧ (s.hub.get (H.drrLooked port) = 0) ∧ (p.pkt.size ≤ s.hub.get (O.deficitBytes (queueOf port k)) + s.hub.get (O.quantumBytes (queueOf port k))) ∧ (s.hub.get (O.deficitBytes (queueOf port k)) + s.hub.get (O.quantumBytes (queueOf port k)) < 2 ^ 32) ∧ (s.hub.get O.sagStage ≠ 5) ∧ (∀ h ∈ s.hub.held, s.hub.drain h.tid = false) ∧ (s.hub.mgmtWait = []) ∧ (s.hub.tlpWait = []) ∧ (p.marked = none) :=
  ⟨sth [(O.linkState 23, 3), (O.peerCreditLimit 23 4, 100), (O.peerCreditLimit 23 5, 100), (O.peerCreditLimit 23 2, 100), (O.payloadRate 23, 100000), (H.drrClass 23, 4)] fun c => { c with held := [{ wHeld with q := 189, pkt := Packet.rewrite wPkt 3000 5 }, { wHeld with q := 188, pkt := Packet.rewrite wPkt 3000 4 }] }, 23, 4, { wHeld with q := 188, pkt := Packet.rewrite wPkt 3000 4 }, 5, by decide +kernel⟩

set_option maxRecDepth 1000000 in
theorem test_strokeAndEgressCommands_8 : ∃ (s : State) (port : Port) (was k : Nat) (h p : Held) (cell : Fin 196608), (s.hub.domainsOn = true) ∧ (s.hub.egressReady port = true) ∧ (s.hub.get (H.drrClass port) = was) ∧ (4 ≤ was) ∧ (was ≤ 7) ∧ (k = (if was = 7 then 4 else was + 1)) ∧ (s.hub.firstHead port = none) ∧ (∀ j ∈ [1, 2, 3], s.hub.driveHead port j = none) ∧ (s.hub.recoveryHead port was = some h) ∧ (s.hub.get (H.drrLooked port) = 0) ∧ (s.hub.get (O.deficitBytes (queueOf port was)) + s.hub.get (O.quantumBytes (queueOf port was)) < h.pkt.size) ∧ (s.hub.recoveryHead port k = some p) ∧ (p.pkt.size ≤ s.hub.get (O.deficitBytes (queueOf port k)) + s.hub.get (O.quantumBytes (queueOf port k))) ∧ (s.hub.get (O.deficitBytes (queueOf port k)) + s.hub.get (O.quantumBytes (queueOf port k)) < 2 ^ 32) ∧ (h.pkt.size < 2 ^ 32) ∧ (s.hub.get O.sagStage ≠ 5) ∧ (∀ h ∈ s.hub.held, s.hub.drain h.tid = false) ∧ (s.hub.mgmtWait = []) ∧ (s.hub.tlpWait = []) ∧ (p.marked = none) :=
  ⟨sth [(O.linkState 23, 3), (O.peerCreditLimit 23 4, 100), (O.peerCreditLimit 23 5, 100), (O.peerCreditLimit 23 2, 100), (O.payloadRate 23, 100000), (H.drrClass 23, 4), (O.quantumBytes 188, 8)] fun c => { c with held := [{ wHeld with q := 189, pkt := Packet.rewrite wPkt 3000 5 }, { wHeld with q := 188, pkt := Packet.rewrite wPkt 3000 4 }] }, 23, 4, 5, { wHeld with q := 188, pkt := Packet.rewrite wPkt 3000 4 }, { wHeld with q := 189, pkt := Packet.rewrite wPkt 3000 5 }, 5, by decide +kernel⟩

set_option maxRecDepth 1000000 in
theorem test_strokeAndEgressCommands_9 : ∃ (s : State) (port : Port) (was k : Nat) (p : Held) (cell : Fin 196608), (s.hub.domainsOn = true) ∧ (s.hub.egressReady port = true) ∧ (s.hub.get (H.drrClass port) = was) ∧ (4 ≤ was) ∧ (was ≤ 7) ∧ (k = (if was = 7 then 4 else was + 1)) ∧ (s.hub.firstHead port = none) ∧ (∀ j ∈ [1, 2, 3], s.hub.driveHead port j = none) ∧ (s.hub.backlogged (queueOf port was) = false) ∧ (s.hub.recoveryHead port k = some p) ∧ (p.pkt.size ≤ s.hub.get (O.deficitBytes (queueOf port k)) + s.hub.get (O.quantumBytes (queueOf port k))) ∧ (s.hub.get (O.deficitBytes (queueOf port k)) + s.hub.get (O.quantumBytes (queueOf port k)) < 2 ^ 32) ∧ (s.hub.get O.sagStage ≠ 5) ∧ (∀ h ∈ s.hub.held, s.hub.drain h.tid = false) ∧ (s.hub.mgmtWait = []) ∧ (s.hub.tlpWait = []) ∧ (p.marked = none) :=
  ⟨sth [(O.linkState 23, 3), (O.peerCreditLimit 23 4, 100), (O.peerCreditLimit 23 5, 100), (O.peerCreditLimit 23 2, 100), (O.payloadRate 23, 100000), (H.drrClass 23, 7)] fun c => { c with held := [{ wHeld with q := 188, pkt := Packet.rewrite wPkt 3000 4 }] }, 23, 7, 4, { wHeld with q := 188, pkt := Packet.rewrite wPkt 3000 4 }, 5, by decide +kernel⟩

set_option maxRecDepth 1000000 in
theorem test_strokeAndEgressCommands_10 : ∃ (s : State) (e : Fin 9) (k : Nat) (p : Held) (cell : Fin 196608), (s.hub.domainsOn = true) ∧ (3 ≤ e.val) ∧ (e.val ≤ 7) ∧ (k ≤ 3) ∧ (∀ j : Nat, j < k → s.hub.headPacket (queueOf (24 + e.val) j) = none) ∧ (s.hub.headPacket (queueOf (24 + e.val) k) = some p) ∧ (s.hub.flag H.isoHold = false) ∧ (s.hub.get O.sagStage ≠ 5) ∧ (∀ h ∈ s.hub.held, s.hub.drain h.tid = false) ∧ (s.hub.mgmtWait = []) ∧ (s.hub.tlpWait = []) ∧ (p.marked = none) :=
  ⟨sth [] fun c => { c with held := [{ wHeld with q := 227 }, { wHeld with q := 226 }] }, 4, 2, { wHeld with q := 226 }, 5, by decide +kernel⟩

theorem test_strokeWrites_1 : ∃ (s : State) (lvl : Level) (t : Fin 16384) (g : BitVec 32), (s.hub.domainsOn = true) ∧ (Engineers lvl) ∧ (3 ≤ t.val ∧ t.val ≤ 8191) ∧ (s.hub.valid t = true) ∧ (1 ≤ s.hub.get (O.pathCls t) ∧ s.hub.get (O.pathCls t) ≤ 3) ∧ (g.toNat < s.hub.get (O.grantGrant t)) ∧ (s.hub.inRom = false) ∧ (s.hub.handingOver = false) :=
  ⟨st [(O.pathFlags 8191, 1), (O.pathCls 8191, 3), (O.grantGrant 8191, 500)], .engineer, 8191, 499, by decide +kernel⟩

set_option maxRecDepth 1000000 in
theorem test_strokeWrites_2 : ∃ (s : State) (lvl : Level) (t : Fin 16384) (g : BitVec 32), (s.hub.domainsOn = true) ∧ (Engineers lvl) ∧ (3 ≤ t.val ∧ t.val ≤ 8191) ∧ (s.hub.valid t = true) ∧ (1 ≤ s.hub.get (O.pathCls t) ∧ s.hub.get (O.pathCls t) ≤ 3) ∧ (s.hub.get (O.grantGrant t) < g.toNat) ∧ (s.hub.inRom = false) ∧ (s.hub.handingOver = false) :=
  ⟨st [(O.pathFlags 3, 1), (O.pathCls 3, 1), (O.grantGrant 3, 500)], .engineer, 3, 501, by decide +kernel⟩

set_option maxRecDepth 1000000 in
theorem test_strokeWrites_3 : ∃ (s : State) (lvl : Level) (k : Fin 4096) (rate : BitVec 32), (s.hub.domainsOn = true) ∧ (Engineers lvl) ∧ (s.hub.get (O.shaperMode k) = 1) ∧ (s.hub.inRom = false) ∧ (s.hub.handingOver = false) :=
  ⟨st [(O.shaperMode 4095, 1)], .engineer, 4095, 125, by decide +kernel⟩

set_option maxRecDepth 1000000 in
theorem test_strokeWrites_4 : ∃ (s : State) (lvl : Level) (k : Fin 4096) (rate : BitVec 32), (s.hub.domainsOn = true) ∧ (Engineers lvl) ∧ (s.hub.get (O.policerMode k) = 1) ∧ (s.hub.inRom = false) ∧ (s.hub.handingOver = false) :=
  ⟨st [(O.policerMode 4095, 1)], .engineer, 4095, 125, by decide +kernel⟩

set_option maxRecDepth 1000000 in
theorem test_strokeWrites_5 : ∃ (s : State) (lvl : Level) (q : Fin 264) (v : BitVec 32), (s.hub.domainsOn = true) ∧ (Engineers lvl) ∧ (64 ≤ v.toNat) ∧ (v.toNat ≤ 65536) ∧ (s.hub.inRom = false) ∧ (s.hub.handingOver = false) :=
  ⟨st [], .engineer, 263, 65536, by decide +kernel⟩

set_option maxRecDepth 1000000 in
theorem test_strokeWrites_6 : ∃ (s : State) (lvl : Level) (q : Fin 264) (bins : List (BitVec 32)), (s.hub.domainsOn = true) ∧ (Engineers lvl) ∧ (bins.length ≤ 16) ∧ (∀ b ∈ bins, b = 0) ∧ (s.hub.inRom = false) ∧ (s.hub.handingOver = false) :=
  ⟨st [], .engineer, 263, [0, 0], ⟨by decide +kernel, by decide, by decide, by simp, by decide +kernel, by decide +kernel⟩⟩

set_option maxRecDepth 1000000 in
theorem test_strokeWrites_7 : ∃ (s : State) (lvl : Level) (v : BitVec 32), (s.hub.domainsOn = true) ∧ (Engineers lvl) ∧ (s.hub.get O.role = 2) ∧ (32000 ≤ v.toNat) ∧ (v.toNat ≤ 112000) ∧ (s.hub.inRom = false) ∧ (s.hub.handingOver = false) :=
  ⟨st [(O.role, 2)], .owner, 112000, by decide +kernel⟩

set_option maxRecDepth 1000000 in
theorem test_strokeWrites_8 : ∃ (s : State) (t : Nat), (s.hub.domainsOn = true) ∧ (3 ≤ t ∧ t ≤ 8191) ∧ (s.hub.get (H.grantWait t) = 1) ∧ ((s.hub.instances (H.grantWait 0)).Nodup) ∧ (s.hub.get (H.grantNew t) < 2 ^ 32) :=
  ⟨st [(H.grantWait 8191, 1), (H.grantNew 8191, 77)], 8191, by decide +kernel⟩

set_option maxRecDepth 1000000 in
theorem test_strokeWrites_9 : ∃ (s : State) (t : Nat), (s.hub.domainsOn = true) ∧ (3 ≤ t ∧ t ≤ 8191) ∧ (2 ≤ s.hub.get (H.grantWait t) ∧ s.hub.get (H.grantWait t) ≤ 4) ∧ ((s.hub.instances (H.grantWait 0)).Nodup) :=
  ⟨st [(H.grantWait 3, 4), (H.grantNew 3, 77)], 3, by decide +kernel⟩

set_option maxRecDepth 1000000 in
theorem test_strokeWrites_10 : ∃ (s : State) (t : Nat), (s.hub.domainsOn = true) ∧ (t ≤ 8191) ∧ (s.hub.get (H.grantWait t) = 0) :=
  ⟨st [], 8191, by decide +kernel⟩

set_option maxRecDepth 1000000 in
theorem test_strokeWrites_11 : ∃ (s : State) (k : Fin 4096), (s.hub.domainsOn = true) ∧ (s.hub.stagedSlots = []) ∧ (s.hub.get (O.shaperMode k) = 1) ∧ (s.hub.get (O.shaperNext k) < 2 ^ 32) ∧ (s.hub.get (O.shaperRate k) < 2 ^ 32) :=
  ⟨st [(O.shaperMode 4095, 1), (O.shaperNext 4095, 9)], 4095, by decide +kernel⟩

set_option maxRecDepth 1000000 in
theorem test_strokeWrites_12 : ∃ (s : State) (k : Fin 4096), (s.hub.domainsOn = true) ∧ (s.hub.stagedSlots = []) ∧ (s.hub.get (O.policerMode k) = 1) ∧ (s.hub.get (O.policerNext k) < 2 ^ 32) ∧ (s.hub.get (O.policerRate k) < 2 ^ 32) :=
  ⟨st [(O.policerMode 4095, 1), (O.policerNext 4095, 9)], 4095, by decide +kernel⟩

set_option maxRecDepth 1000000 in
theorem test_pcieTlpCommands_1 : ∃ (s : State) (tlp : Tlp) (bar off : Nat), (s.hub.oarPort = false) ∧ (s.hub.flag H.running = true) ∧ (s.hub.get O.powerState = 0) ∧ (tlp.kind = .memRead) ∧ (s.hub.barOf tlp.addr.toNat = some (bar, off)) ∧ (bar ≠ 0) :=
  ⟨st [(O.role, 2), (H.cfg 1 4, 2), (H.cfg 1 0x10, 0x90000), (H.cfg 1 0x18, 0x10000)], ⟨.memRead, 0x10004, false, 0, 0, 0, 0, 0, 0, [], []⟩, 2, 4, by decide +kernel⟩

set_option maxRecDepth 1000000 in
theorem test_pcieTlpCommands_2 : ∃ (s : State) (tlp : Tlp) (off : Nat), (s.hub.oarPort = false) ∧ (s.hub.flag H.running = true) ∧ (s.hub.get O.powerState = 0) ∧ (tlp.kind = .memRead) ∧ (s.hub.barOf tlp.addr.toNat = some (0, off)) :=
  ⟨st [(O.role, 1), (H.cfg 1 4, 2), (H.cfg 1 0x10, 0x10000)], ⟨.memRead, 0x10004, false, 0, 0, 0, 0, 0, 0, [], []⟩, 4, by decide +kernel⟩

set_option maxRecDepth 1000000 in
theorem test_pcieTlpCommands_3 : ∃ (s : State) (tlp : Tlp) (x : EgressTlp), (s.hub.domainsOn = true) ∧ (s.hub.oarPort = true) ∧ (s.hub.tlpOut = [x]) ∧ (x.category ≤ 2) ∧ (x.bytes = tlp.bytes) ∧ (s.hub.tlpBarred = false) :=
  ⟨sth [(O.role, 0), (O.rpLinkState, 2), (O.pathFlags 3, 1), (O.pathIn 3, 0x20), (O.pathFlags 4, 1), (O.pathOut 4, 0x20)] fun c => { c with tlpOut := [⟨4, 0, [7]⟩] }, ⟨.memWrite, 0, false, 0, 0, 0, 0, 0, 0, [], [7]⟩, ⟨4, 0, [7]⟩, by decide +kernel⟩

set_option maxRecDepth 1000000 in
theorem test_pcieTlpCommands_4 : ∃ (s : State) (np cpl : Bool) (x : EgressTlp), (s.hub.domainsOn = true) ∧ (s.hub.tlpOut = [x]) ∧ (x.category = 0) ∧ (s.hub.tlpBarred = false) ∧ (s.hub.acsViolated x = none) ∧ (bits (x.bytes.getD 0 0).toNat 5 3 ≠ 1) :=
  ⟨sth [(O.role, 2), (H.pcieLink, 2)] fun c => { c with tlpOut := [⟨4, 0, [0x40]⟩] }, false, false, ⟨4, 0, [0x40]⟩, by decide +kernel⟩

set_option maxRecDepth 1000000 in
theorem test_pcieTlpCommands_5 : ∃ (s : State) (tid : Fin 16384), (s.hub.domainsOn = true) ∧ (0 < s.hub.get (H.npSent tid)) ∧ (s.hub.get (H.npSent tid) ≤ 64) ∧ (s.hub.get (O.pathPair tid) < 16384) ∧ (s.hub.tlpWait = []) :=
  ⟨st [(H.npSent 3000, 64), (O.pathPair 3000, 3001)], 3000, by decide +kernel⟩

set_option maxRecDepth 1000000 in
theorem test_pcieTlpCommands_6 : ∃ (s : State) (offset : Fin 65536) (data : Bytes), (s.hub.domainsOn = true) ∧ (s.hub.coxPort = true) :=
  ⟨st [(O.role, 2)], 65535, [1, 2], by decide +kernel⟩

set_option maxRecDepth 1000000 in
theorem test_pcieTlpCommands_7 : ∃ (s : State) (offset : Fin 65536) (data : Bytes), (s.hub.domainsOn = true) ∧ (s.hub.coxPort = true) :=
  ⟨st [(O.role, 2)], 65535, [1, 2], by decide +kernel⟩

set_option maxRecDepth 1000000 in
theorem test_pcieTlpCommands_8 : ∃ (s : State) (tid : Fin 16384) (out outTid : Nat), (s.hub.domainsOn = true) ∧ (s.hub.flag O.forwarding = true) ∧ (0 < s.hub.get (H.npSent tid)) ∧ (s.hub.tlpWait = []) ∧ (3 ≤ s.hub.get (O.pathPair tid)) ∧ (s.hub.get (O.pathPair tid) < 16384) ∧ (s.hub.valid (s.hub.get (O.pathPair tid)) = true) ∧ (s.hub.isMcast (s.hub.get (O.pathPair tid)) = false) ∧ (s.hub.get (O.pathIn (s.hub.get (O.pathPair tid))) = 0x20) ∧ (s.hub.get (O.pathType (s.hub.get (O.pathPair tid))) = 2) ∧ (s.hub.get (O.pathCls (s.hub.get (O.pathPair tid))) = 4) ∧ (s.hub.get (O.pathPolicer (s.hub.get (O.pathPair tid))) = 0xFFFF) ∧ (s.hub.outputs (s.hub.get (O.pathPair tid)) = [(out, outTid)]) ∧ (s.hub.portBarred out = false) ∧ (s.hub.spilling (queueOf out 4) = false) ∧ (100 * s.hub.cellsUsed < s.hub.get O.spillOn * 196608) ∧ (1 ≤ s.hub.reserveFree (queueOf out 4)) ∧ (16 * s.hub.sharedCells (queueOf out 4) ≤ 2 ^ s.hub.get (O.alphaCode 4) * s.hub.sharedFree) :=
  ⟨st [(O.pathFlags 3000, 1), (O.pathIn 3000, 0x20), (O.pathType 3000, 2), (O.pathCls 3000, 4), (O.pathPolicer 3000, 0xFFFF), (O.pathOut 3000, 5), (O.pathOutTid 3000, 77), (O.forwarding, 1), (O.pathPair 3001, 3000), (H.npSent 3001, 65)], 3001, 5, 77, by decide +kernel⟩

set_option maxRecDepth 1000000 in
theorem test_pcieLinkCommands_1 : ∃ (s : State), (s.hub.domainsOn = true) ∧ (s.hub.oarPort = false) ∧ (s.hub.get O.apertureSize ≤ 6) :=
  ⟨st [(O.role, 1)], by decide +kernel⟩

set_option maxRecDepth 1000000 in
theorem test_pcieLinkCommands_2 : ∃ (s : State) (v : Fin 64), (s.hub.domainsOn = true) ∧ (s.hub.oarPort = false) ∧ (s.hub.get (O.vdpDown v) ≠ 0xFFFF) ∧ (RigIdle s.hub) ∧ (Reaches s.hub (s.hub.get (O.vdpOar v))) :=
  ⟨st [(O.role, 2), (O.bridgeEnable, 1), (O.vdpDown 63, 5), (O.vdpOar 63, 9)], 63, by decide +kernel⟩

set_option maxRecDepth 1000000 in
theorem test_pcieLinkCommands_3 : ∃ (s : State) (speed width : BitVec 8), (s.hub.domainsOn = true) ∧ (s.hub.flag O.pcieEnable = true) :=
  ⟨st [(O.pcieEnable, 1)], 4, 8, by decide +kernel⟩

set_option maxRecDepth 1000000 in
theorem test_pcieLinkCommands_4 : ∃ (s : State), (s.hub.domainsOn = true) ∧ (s.hub.flag O.rpHotReset = false) :=
  ⟨st [], by decide +kernel⟩

set_option maxRecDepth 1000000 in
theorem test_pcieLinkCommands_5 : ∃ (s : State) (lvl : Level), (s.hub.domainsOn = true) ∧ (Engineers lvl) ∧ (s.hub.get O.role = 0) ∧ (s.hub.tlpOut = []) ∧ (s.hub.inRom = false) ∧ (s.hub.handingOver = false) :=
  ⟨st [(O.role, 0)], .engineer, by decide +kernel⟩

set_option maxRecDepth 1000000 in
theorem test_pcieLinkCommands_6 : ∃ (s : State) (v : Fin 64) (a : VdpPoll), (s.hub.domainsOn = true) ∧ (s.hub.coxPort = true) ∧ (2 ≤ s.hub.vdpNow v) :=
  ⟨st [(O.role, 2), (O.vdpDown 5, 7), (O.vdpUp 5, 8), (O.routeState 7, 2), (O.routeState 8, 2), (O.routeTid 7 0, 3000), (O.pathFlags 3000, 1)], 5, ⟨2, 4, 8⟩, by decide +kernel⟩

set_option maxRecDepth 1000000 in
theorem test_pcieLinkCommands_7 : ∃ (s : State) (lvl : Level) (v : Fin 64) (up : BitVec 16), (s.hub.domainsOn = true) ∧ (Engineers lvl) ∧ (s.hub.get O.role = 2) ∧ (s.hub.inRom = false) ∧ (s.hub.handingOver = false) :=
  ⟨st [(O.role, 2)], .owner, 63, 8, by decide +kernel⟩

set_option maxRecDepth 1000000 in
theorem test_pcieLinkCommands_8 : ∃ (s : State) (lvl : Level) (v : Fin 64) (down up : BitVec 16), (s.hub.domainsOn = true) ∧ (Engineers lvl) ∧ (s.hub.get O.role = 2) ∧ (s.hub.inRom = false) ∧ (s.hub.handingOver = false) ∧ (s.hub.bindable down.toNat up.toNat = true) :=
  ⟨st [(O.role, 2), (O.routeType 6, 2), (O.routeType 7, 2), (O.routePair 6, 7), (O.routePair 7, 6), (O.routeSrcHub 6, 0), (O.routeSrcEnd 6, 0x20), (O.routeDstHub 7, 0), (O.routeDstEnd 7, 0x20), (O.routeDstHub 6, 5), (O.routeSrcHub 7, 5), (H.hubRole 5, 0)], .owner, 63, 6, 7, by decide +kernel⟩

set_option maxRecDepth 1000000 in
theorem test_pcieLinkCommands_9 : ∃ (s : State) (lvl : Level) (v : Fin 64) (down up : BitVec 16), (s.hub.domainsOn = true) ∧ (Engineers lvl) ∧ (s.hub.get O.role = 2) ∧ (s.hub.inRom = false) ∧ (s.hub.handingOver = false) ∧ (down.toNat ≠ 0xFFFF) ∧ (s.hub.bindable down.toNat up.toNat = false) :=
  ⟨st [(O.role, 2)], .engineer, 63, 0, 4096, by decide +kernel⟩

theorem test_ethernetCommands_1 : ∃ (s : State) (m : Mac) (f : EthFrame), (s.hub.flag H.running = true) ∧ (s.hub.get O.powerState = 0) ∧ (64 ≤ f.bytes.length) ∧ (f.bytes.length ≤ 9216) ∧ (s.hub.get (O.framesRx m) + 1 < 2 ^ 64) ∧ (s.hub.get (O.bytesRx m) + f.bytes.length < 2 ^ 64) :=
  ⟨st [], 1, ⟨List.replicate 64 0, true⟩, by decide +kernel⟩

set_option maxRecDepth 1000000 in
theorem test_ethernetCommands_2 : ∃ (s : State) (m : Mac) (f : EthFrame), (s.hub.flag H.running = true) ∧ (s.hub.get O.powerState = 0) ∧ (f.bytes.length < 64) ∧ (s.hub.get (O.runts m) + 1 < 2 ^ 64) :=
  ⟨st [], 1, ⟨List.replicate 63 0, true⟩, by decide +kernel⟩

set_option maxRecDepth 1000000 in
theorem test_ethernetCommands_3 : ∃ (s : State) (m : Mac) (quanta : BitVec 16), (s.hub.domainsOn = true) ∧ (s.hub.flag (O.pauseRx m) = true) ∧ (s.hub.get (O.pausesRx m) + 1 < 2 ^ 64) :=
  ⟨st [(O.pauseRx 1, 1)], 1, 5, by decide +kernel⟩

set_option maxRecDepth 1000000 in
theorem test_ethernetCommands_4 : ∃ (s : State) (m : Mac), (s.hub.domainsOn = true) :=
  ⟨st [], 1, by decide +kernel⟩

set_option maxRecDepth 1000000 in
theorem test_ethernetCommands_5 : ∃ (s : State) (m : Mac) (tid : Fin 16384) (bs : Bytes), (s.hub.domainsOn = true) ∧ (s.hub.frameOut = [⟨m.val, tid.val, bs⟩]) ∧ (s.hub.get (O.macLink m) ≠ 0) ∧ (s.hub.flag (H.paused m) = false) :=
  ⟨sth [(O.macLink 1, 1)] fun c => { c with frameOut := [⟨1, 3000, [1, 2]⟩] }, 1, 3000, [1, 2], by decide +kernel⟩

set_option maxRecDepth 1000000 in
theorem test_ethernetCommands_6 : ∃ (s : State) (m : Mac), (s.hub.domainsOn = true) :=
  ⟨st [], 1, by decide +kernel⟩

set_option maxRecDepth 1000000 in
theorem test_ethernetCommands_7 : ∃ (s : State) (m : Mac) (rate : BitVec 8), (s.hub.domainsOn = true) :=
  ⟨st [], 1, 3, by decide +kernel⟩

set_option maxRecDepth 1000000 in
theorem test_ethernetCommands_8 : ∃ (s : State) (m : Mac) (quanta : BitVec 16), (s.hub.domainsOn = true) ∧ (s.hub.flag (O.pauseRx m) = false) ∧ (s.hub.get (O.pausesRx m) + 1 < 2 ^ 64) :=
  ⟨st [], 1, 3, by decide +kernel⟩

theorem test_fieldIoCommands_1 : ∃ (s : State) (tid : Fin 16384) (payload : Bytes) (r : Nat), (s.hub.domainsOn = true) ∧ (s.hub.fioRxOf tid = some r) ∧ (payload.length = s.hub.get (O.fioRxSize r)) :=
  ⟨st [(O.fioRxTid 63, 3000), (O.fioRxSize 63, 2)], 3000, [1, 2], 63, by decide +kernel⟩

set_option maxRecDepth 1000000 in
theorem test_fieldIoCommands_2 : ∃ (s : State) (r : Fin 64), (s.hub.domainsOn = true) ∧ (s.hub.get (O.fioRxTid r) ≠ 0xFFFF) ∧ (s.hub.get (O.fioRxStatus r) ≠ 2) :=
  ⟨st [(O.fioRxTid 63, 3000), (O.fioRxStaleAction 63, 1), (O.fioRxSize 63, 2)], 63, by decide +kernel⟩

set_option maxRecDepth 1000000 in
theorem test_fieldIoCommands_3 : ∃ (s : State) (lvl : Level) (r : Fin 64) (v : FioRecord), (s.hub.domainsOn = true) ∧ (Engineers lvl) ∧ (s.hub.fioAccepts true r v = true) ∧ (s.hub.inRom = false) ∧ (s.hub.handingOver = false) :=
  ⟨st [], .engineer, 63, ⟨3000, 64512, 1024, 256, 0, 1, 1⟩, by decide +kernel⟩

set_option maxRecDepth 1000000 in
theorem test_fieldIoCommands_4 : ∃ (s : State) (lvl : Level) (r : Fin 64) (v : FioRecord), (s.hub.domainsOn = true) ∧ (Engineers lvl) ∧ (s.hub.fioAccepts false r v = false) ∧ (s.hub.inRom = false) ∧ (s.hub.handingOver = false) :=
  ⟨st [], .engineer, 63, ⟨3000, 64513, 1024, 256, 0, 1, 1⟩, by decide +kernel⟩

set_option maxRecDepth 1000000 in
theorem test_fieldIoCommands_5 : ∃ (s : State) (lvl : Level) (k : Fin 8) (v : AcycMsg), (s.hub.domainsOn = true) ∧ (Operators lvl) ∧ (v.length.toNat ≤ 1024) ∧ (v.state.toNat ≤ 1) ∧ (v.data.length ≤ 1024) ∧ (bits v.info.toNat 12 4 ≤ 3) ∧ (v.state = 0 ∨ bits v.info.toNat 12 4 ≠ 0) ∧ (s.hub.inRom = false) ∧ (s.hub.handingOver = false) :=
  ⟨st [], .operator, 7, ⟨3000, 0x1000, 1024, 1, [5]⟩, by decide +kernel⟩

set_option maxRecDepth 1000000 in
theorem test_fieldIoCommands_6 : ∃ (s : State) (k : Fin 8), (s.hub.domainsOn = true) ∧ (s.hub.get (O.acycTxState k) = 1) ∧ (s.hub.get (O.acycTxTid k) < 16384) ∧ (s.hub.valid (s.hub.get (O.acycTxTid k)) = true) ∧ (s.hub.get (O.pathIn (s.hub.get (O.acycTxTid k))) = 0x28) ∧ (((s.hub.outputs (s.hub.get (O.acycTxTid k))).all fun o => s.hub.shaped (s.hub.get (O.pathShaper (s.hub.get (O.acycTxTid k)))) o.1) = true) :=
  ⟨st [(O.acycTxState 7, 1), (O.acycTxTid 7, 3000), (O.pathFlags 3000, 1), (O.pathIn 3000, 0x28), (O.pathShaper 3000, 0xFFFF)], 7, by decide +kernel⟩

set_option maxRecDepth 1000000 in
theorem test_fieldIoCommands_7 : ∃ (s : State) (tid : Fin 16384) (info : BitVec 16) (payload : Bytes) (k : Nat), (s.hub.domainsOn = true) ∧ ((List.range 32).find? (fun k => s.hub.get (O.acycRxState k) == 0) = some k) ∧ (payload.length < 2 ^ 16) :=
  ⟨st [(O.acycRxState 0, 1)], 3000, 7, [1], 1, by decide +kernel⟩

theorem test_bridgeTargetCommands_1 : ∃ (s : State) (q : RigPacket), (s.hub.domainsOn = true) ∧ (s.hub.flag O.bridgeEnable = true) ∧ (q.inst = 0) ∧ (q.retx = false) ∧ (s.hub.get O.busClaimant = 0xFF) ∧ (s.hub.winRefusal q false = none) ∧ (s.hub.get (O.targetWinKind q.window.toNat) = 1) ∧ (q.memError = false) ∧ (q.corrected = 0) ∧ (s.hub.winFails q.window.toNat q.offset.toNat q.len.toNat = false) ∧ (s.hub.winFlag q.window.toNat 2 = false) ∧ (s.hub.winFlag q.window.toNat 3 = false) :=
  ⟨st [(O.bridgeEnable, 1), (O.targetWinKind 31, 1), (O.targetWinSize 31, 64)], ⟨5, 9, false, 31, 0, 64, 0, 0, 0, [], false, 0⟩, by decide +kernel⟩

set_option maxRecDepth 1000000 in
theorem test_bridgeTargetCommands_2 : ∃ (s : State) (q : RigPacket), (s.hub.domainsOn = true) ∧ (s.hub.flag O.bridgeEnable = true) ∧ (q.inst = 0) ∧ (q.retx = false) ∧ (s.hub.get O.busClaimant = 0xFF) ∧ (s.hub.winRefusal q true = none) ∧ (s.hub.get (O.targetWinKind q.window.toNat) = 2) :=
  ⟨st [(O.bridgeEnable, 1), (O.targetWinKind 31, 2), (O.targetWinFlags 31, 1), (O.targetWinSize 31, 64)], ⟨5, 9, false, 31, 0, 2, 62, 0, 0, [1, 2], false, 0⟩, by decide +kernel⟩

set_option maxRecDepth 1000000 in
theorem test_bridgeTargetCommands_3 : ∃ (s : State) (q : RigPacket), (s.hub.domainsOn = true) ∧ (s.hub.flag O.bridgeEnable = true) ∧ (q.inst = 0) ∧ (s.hub.get O.busClaimant = 0xFF) ∧ (s.hub.winRefusal q true = none) ∧ (s.hub.winFlag q.window.toNat 1 = true) ∧ (s.hub.get (O.targetWinKind q.window.toNat) = 1) :=
  ⟨st [(O.bridgeEnable, 1), (O.targetWinKind 31, 1), (O.targetWinFlags 31, 3), (O.targetWinSize 31, 64)], ⟨5, 9, false, 31, 0, 2, 62, 0, 0, [1, 2], false, 0⟩, by decide +kernel⟩

set_option maxRecDepth 1000000 in
theorem test_bridgeTargetCommands_4 : ∃ (s : State) (q : RigPacket), (s.hub.domainsOn = true) ∧ (s.hub.flag O.bridgeEnable = true) ∧ (q.inst = 0) ∧ (q.retx = false) ∧ (s.hub.get O.busClaimant = 0xFF) ∧ (q.window.toNat ≤ 31) ∧ (s.hub.get (O.targetWinKind q.window.toNat) ≠ 0) ∧ (s.hub.winFlag q.window.toNat 5 = false) ∧ ((s.hub.streamFrom q.src.toNat q.window.toNat).expected = (q.seq.toNat + 1) % 2 ^ 32) :=
  ⟨sth [(O.bridgeEnable, 1), (O.targetWinKind 31, 1)] fun c => { c with rigStreams := [⟨5, 31, 8, 2⟩] }, ⟨5, 9, false, 31, 0, 0, 0, 0, 7, [], false, 0⟩, by decide +kernel⟩

set_option maxRecDepth 1000000 in
theorem test_bridgeTargetCommands_5 : ∃ (s : State) (q : RigPacket), (s.hub.domainsOn = true) ∧ (s.hub.flag O.bridgeEnable = true) ∧ (q.inst = 0) ∧ (q.retx = false) ∧ (s.hub.get O.busClaimant = 0xFF) :=
  ⟨st [(O.bridgeEnable, 1)], ⟨5, 9, false, 0, 0, 0, 0, 0, 0, [], false, 0⟩, by decide +kernel⟩

set_option maxRecDepth 1000000 in
theorem test_bridgeTargetCommands_6 : ∃ (s : State) (q : RigPacket), (s.hub.domainsOn = true) ∧ (s.hub.flag O.bridgeEnable = true) ∧ (q.inst = 0) ∧ (q.retx = false) ∧ (s.hub.get O.busClaimant = q.src.toNat) :=
  ⟨st [(O.bridgeEnable, 1), (O.busClaimant, 5)], ⟨5, 9, false, 0, 0, 0, 0, 0, 0, [], false, 0⟩, by decide +kernel⟩

set_option maxRecDepth 1000000 in
theorem test_bridgeInitiatorAnswers_1 : ∃ (s : State) (q : RigPacket) (r : RigRequest) (k : Nat), (s.hub.domainsOn = true) ∧ (s.hub.rigOut = [r]) ∧ (s.hub.rigWait = []) ∧ (r.op = 1) ∧ (r.hub = q.src.toNat) ∧ (r.tag = q.tag.toNat) ∧ (r.origin = .slot k) ∧ (q.status = 0) ∧ (q.data.length ≤ 512) ∧ (s.hub.get (H.rigKnown q.src.toNat) = q.inst.toNat) :=
  ⟨sth [] fun c => { c with rigOut := [⟨1, 5, 0, 0, 2, [], .slot 3, 9, 0, 0, 0⟩] }, ⟨5, 9, false, 0, 0, 2, 0, 0, 0, [1, 2], false, 0⟩, ⟨1, 5, 0, 0, 2, [], .slot 3, 9, 0, 0, 0⟩, 3, by decide +kernel⟩

set_option maxRecDepth 1000000 in
theorem test_bridgeInitiatorAnswers_2 : ∃ (s : State) (q : RigPacket) (r : RigRequest) (k : Nat), (s.hub.domainsOn = true) ∧ (s.hub.rigOut = [r]) ∧ (s.hub.rigWait = []) ∧ (r.op = 2) ∧ (r.hub = q.src.toNat) ∧ (r.tag = q.tag.toNat) ∧ (r.origin = .slot k) ∧ (q.status.toNat ∈ [0, 1, 2, 3, 4, 7]) ∧ (q.data = []) :=
  ⟨sth [] fun c => { c with rigOut := [⟨2, 5, 0, 0, 2, [], .slot 3, 9, 0, 0, 0⟩] }, ⟨5, 9, false, 0, 3, 2, 0, 0, 0, [], false, 0⟩, ⟨2, 5, 0, 0, 2, [], .slot 3, 9, 0, 0, 0⟩, 3, by decide +kernel⟩

set_option maxRecDepth 1000000 in
theorem test_bridgeInitiatorAnswers_3 : ∃ (s : State) (q : RigPacket) (r : RigRequest) (k : Nat), (s.hub.domainsOn = true) ∧ (s.hub.rigOut = [r]) ∧ (s.hub.rigWait = []) ∧ (r.op = 5) ∧ (r.hub = q.src.toNat) ∧ (r.tag = q.tag.toNat) ∧ (r.origin = .slot k) ∧ (q.status = 0) ∧ (q.data = []) :=
  ⟨sth [] fun c => { c with rigOut := [⟨5, 5, 0, 0, 0, [], .slot 3, 9, 0, 0, 0⟩] }, ⟨5, 9, false, 0, 0, 0, 0, 0, 0, [], false, 0⟩, ⟨5, 5, 0, 0, 0, [], .slot 3, 9, 0, 0, 0⟩, 3, by decide +kernel⟩

set_option maxRecDepth 1000000 in
theorem test_bridgeInitiatorAnswers_4 : ∃ (s : State) (q : RigPacket) (r : RigRequest) (k : Nat), (s.hub.domainsOn = true) ∧ (s.hub.rigOut = [r]) ∧ (s.hub.rigWait = []) ∧ (r.op = 6) ∧ (r.hub = q.src.toNat) ∧ (r.tag = q.tag.toNat) ∧ (r.origin = .slot k) ∧ (q.status = 0) ∧ (q.data = []) ∧ (s.hub.get O.busClaimant = s.hub.get O.hubAddress) :=
  ⟨sth [(O.hubAddress, 4), (O.busClaimant, 4)] fun c => { c with rigOut := [⟨6, 5, 0, 0, 0, [], .slot 3, 9, 0, 0, 0⟩] }, ⟨5, 9, false, 0, 0, 0, 0, 0, 0, [], false, 0⟩, ⟨6, 5, 0, 0, 0, [], .slot 3, 9, 0, 0, 0⟩, 3, by decide +kernel⟩

set_option maxRecDepth 1000000 in
theorem test_bridgeInitiatorAnswers_5 : ∃ (s : State) (q : RigPacket) (r : RigRequest), (s.hub.domainsOn = true) ∧ (s.hub.rigOut = [r]) ∧ (s.hub.rigWait = []) ∧ (r.op = 4) ∧ (r.hub = q.src.toNat) ∧ (r.tag = q.tag.toNat) ∧ (r.origin = .own) ∧ (q.status = 0) ∧ (leNat (q.data.take 4) = 0) ∧ (s.hub.rigLines = []) :=
  ⟨sth [] fun c => { c with rigOut := [⟨4, 5, 0, 0, 0, [], .own, 9, 0, 0, 0⟩] }, ⟨5, 9, false, 0, 0, 4, 0, 0, 0, [0, 0, 0, 0], false, 0⟩, ⟨4, 5, 0, 0, 0, [], .own, 9, 0, 0, 0⟩, by decide +kernel⟩

set_option maxRecDepth 1000000 in
theorem test_bridgeInitiatorAnswers_6 : ∃ (s : State) (q : RigPacket), (s.hub.domainsOn = true) ∧ (s.hub.get H.errNext = 0) ∧ (s.hub.rigPosted = []) :=
  ⟨st [], ⟨5, 9, false, 31, 2, 4, 0, 0, 7, [1, 0, 0, 0], false, 0⟩, by decide +kernel⟩

set_option maxRecDepth 1000000 in
theorem test_bridgeInitiatorAnswers_7 : ∃ (s : State) (q : RigPacket), (s.hub.domainsOn = true) ∧ (q.data ≠ []) ∧ (s.hub.rigLines = []) :=
  ⟨st [], ⟨5, 9, false, 31, 0, 1, 0, 0, 7, [1], false, 0⟩, by decide +kernel⟩

theorem test_bridgeTimersAndRequests_1 : ∃ (s : State) (tag : BitVec 12) (r : RigRequest), (s.hub.domainsOn = true) ∧ (s.hub.rigOut = [r]) ∧ (r.tag = tag.toNat) ∧ (s.hub.rigGone r.hub = false) ∧ (s.hub.flag O.bridgeEnable = true) ∧ (s.hub.get O.retransmits + 1 < 2 ^ 32) :=
  ⟨sth [(O.bridgeEnable, 1), (O.hubAddress, 4), (O.addrRoutePort 5, 3)] fun c => { c with rigOut := [⟨2, 5, 0, 0, 2, [], .slot 3, 9, 0, 0, 0⟩] }, 9, ⟨2, 5, 0, 0, 2, [], .slot 3, 9, 0, 0, 0⟩, by decide +kernel⟩

set_option maxRecDepth 1000000 in
theorem test_bridgeTimersAndRequests_2 : ∃ (s : State) (hub : BitVec 8) (window : Fin 32), (s.hub.domainsOn = true) ∧ ((s.hub.postedTo hub.toNat window).unflushed = true) ∧ (RigIdle s.hub) ∧ (Reaches s.hub hub.toNat) :=
  ⟨sth [(O.role, 2), (O.bridgeEnable, 1)] fun c => { c with rigPosted := [⟨5, 31, 8, [], 0, true⟩] }, 5, 31, by decide +kernel⟩

set_option maxRecDepth 1000000 in
theorem test_bridgeTimersAndRequests_3 : ∃ (s : State), (s.hub.domainsOn = true) :=
  ⟨st [], by decide +kernel⟩

set_option maxRecDepth 1000000 in
theorem test_bridgeTimersAndRequests_4 : ∃ (s : State) (hub : BitVec 8) (r : RigRequest), (s.hub.domainsOn = true) ∧ (s.hub.rigBack = [r]) ∧ (r.hub = hub.toNat) ∧ (r.op = 1) ∧ (s.hub.rigWait = []) ∧ (s.hub.rigOut = []) ∧ (s.hub.rigLines = []) ∧ (s.hub.flag O.bridgeEnable = true) ∧ (Reaches s.hub hub.toNat) :=
  ⟨sth [(O.role, 2), (O.bridgeEnable, 1)] fun c => { c with rigBack := [⟨1, 5, 0, 0, 2, [], .slot 3, 9, 0, 0, 1⟩] }, 5, ⟨1, 5, 0, 0, 2, [], .slot 3, 9, 0, 0, 1⟩, by decide +kernel⟩

set_option maxRecDepth 1000000 in
theorem test_bridgeTimersAndRequests_5 : ∃ (s : State) (x : PrefetchLine), (s.hub.domainsOn = true) ∧ (s.hub.rigLines = [x]) :=
  ⟨sth [] fun c => { c with rigLines := [⟨5, 31, 0, [1], [false], true⟩] }, ⟨5, 31, 0, [1], [false], true⟩, by decide +kernel⟩

set_option maxRecDepth 1000000 in
theorem test_bridgeTimersAndRequests_6 : ∃ (s : State) (offset : BitVec 64) (data : Bytes) (e : Nat), (s.hub.domainsOn = true) ∧ (s.hub.bar4Map offset.toNat data.length = some e) ∧ (0 < data.length) ∧ (data.length ≤ 512) ∧ (RigIdle s.hub) ∧ (Reaches s.hub (s.hub.get (O.initWinHub e))) :=
  ⟨st [(O.role, 2), (O.bridgeEnable, 1), (O.initWinFlags 0, 1), (O.initWinSize 0, 1), (O.initWinHub 0, 5)], 4096, [1, 2], 0, by decide +kernel⟩

set_option maxRecDepth 1000000 in
theorem test_bridgeTimersAndRequests_7 : ∃ (s : State) (requester : BitVec 16) (tag : BitVec 10) (offset : BitVec 64) (len e : Nat), (s.hub.domainsOn = true) ∧ (s.hub.bar4Map offset.toNat len = some e) ∧ (0 < len) ∧ (len ≤ 512) ∧ (RigIdle s.hub) ∧ (s.hub.rigReads = []) ∧ (Reaches s.hub (s.hub.get (O.initWinHub e))) :=
  ⟨st [(O.role, 2), (O.bridgeEnable, 1), (O.initWinFlags 0, 1), (O.initWinSize 0, 1), (O.initWinHub 0, 5)], 7, 8, 4096, 4, 0, by decide +kernel⟩

set_option maxRecDepth 1000000 in
theorem test_bridgeTimersAndRequests_8 : ∃ (s : State) (requester : BitVec 16) (tag : BitVec 10) (x : ApertureRead), (s.hub.domainsOn = true) ∧ (s.hub.rigReads = [x]) ∧ (x.requester = requester.toNat) ∧ (x.tag = tag.toNat) :=
  ⟨sth [] fun c => { c with rigReads := [⟨0, 7, 8, 0, [none]⟩] }, 7, 8, ⟨0, 7, 8, 0, [none]⟩, by decide +kernel⟩

set_option maxRecDepth 1000000 in
theorem test_bridgeTimersAndRequests_9 : ∃ (s : State) (lvl : Level) (k : Fin 4) (v : SlotRequest), (s.hub.domainsOn = true) ∧ (Engineers lvl) ∧ (s.hub.handingOver = false) ∧ (s.hub.get (O.reqSlotState k) = 0) ∧ (v.state = 0) ∧ (v.op.toNat ≤ 6) ∧ (v.window.toNat ≤ 31) ∧ (v.len.toNat ≤ 512) ∧ (v.data.length ≤ 512) ∧ (s.hub.inRom = false) :=
  ⟨st [], .engineer, 3, ⟨2, 5, 31, 0, 512, 0, [1]⟩, by decide +kernel⟩

set_option maxRecDepth 1000000 in
theorem test_bridgeTimersAndRequests_10 : ∃ (s : State) (lvl : Level) (k : Fin 4) (v : SlotRequest), (s.hub.domainsOn = true) ∧ (Engineers lvl) ∧ (s.hub.handingOver = false) ∧ (s.hub.get (O.reqSlotState k) = 0) ∧ (v.state = 1) ∧ (v.op.toNat = 2) ∧ (v.window.toNat ≤ 31) ∧ (v.len.toNat ≤ 512) ∧ (v.data.length ≤ 512) ∧ (RigIdle s.hub) ∧ (Reaches s.hub v.hub.toNat) ∧ (s.hub.inRom = false) :=
  ⟨st [(O.role, 2), (O.bridgeEnable, 1)], .engineer, 3, ⟨2, 5, 31, 1, 512, 0, [1]⟩, by decide +kernel⟩

set_option maxRecDepth 1000000 in
theorem test_bridgeTimersAndRequests_11 : ∃ (s : State) (w : Fin 32) (v : TargetWindow), (s.hub.domainsOn = true) ∧ (v.kind = 2) ∧ (v.level.toNat ≤ 2) ∧ (v.prefetch.toNat ≤ 4096) ∧ (v.prefetch.toNat % 512 = 0) ∧ (0 < v.size.toNat) ∧ (v.base.toNat + v.size.toNat ≤ 65536) ∧ (s.hub.inRom = false) ∧ (s.hub.handingOver = false) :=
  ⟨st [], 31, ⟨2, 1, 2, 4096, 0, 65536⟩, by decide +kernel⟩

set_option maxRecDepth 1000000 in
theorem test_linkFlitCommands_1 : ∃ (s : State) (p : Port), (s.hub.domainsOn = true) ∧ (s.hub.get (O.linkState p) = 3) ∧ (s.hub.replay = []) ∧ (s.hub.staged = []) ∧ (s.hub.quietAllowed p = false) ∧ (s.hub.flag (H.crypt p) = false) :=
  ⟨st [(O.linkState 23, 3)], 23, by decide +kernel⟩

set_option maxRecDepth 1000000 in
theorem test_linkFlitCommands_2 : ∃ (s : State) (p : Port) (rx : FlitRx), (s.hub.domainsOn = true) ∧ (s.hub.get (O.linkState p) = 3) ∧ (s.hub.get (O.gear p) ≤ 2) ∧ (∀ b ∈ rx.blocks, b.2 = .sound) ∧ (rx.bytes.length = 640) ∧ (crc32c (rx.bytes.take 636) = leNat (rx.bytes.drop 636)) ∧ (bits (leNat (rx.bytes.take 4)) 12 4 = 0) ∧ (bits (leNat (rx.bytes.take 4)) 0 12 = s.hub.get (H.rxNext p)) ∧ (s.hub.flag (H.crypt p) = false) :=
  ⟨st [(O.linkState 23, 3)], 23, ⟨[], false, 0, flitBytes 0 0 (List.replicate 628 0)⟩, by decide +kernel⟩

set_option maxRecDepth 1000000 in
theorem test_linkFlitCommands_3 : ∃ (s : State) (p : Port) (f : ReplayFlit), (s.hub.domainsOn = true) ∧ (s.hub.get (O.linkState p) = 3) ∧ (s.hub.replay = [f]) ∧ (f.port = p.val) ∧ (f.seq < 4096) :=
  ⟨sth [(O.linkState 23, 3)] fun c => { c with replay := [⟨23, 7, 0, 0, [], 1, false, []⟩] }, 23, ⟨23, 7, 0, 0, [], 1, false, []⟩, by decide +kernel⟩

set_option maxRecDepth 1000000 in
theorem test_linkFlitCommands_4 : ∃ (s : State) (p : Port) (rx : FlitRx), (s.hub.domainsOn = true) ∧ (s.hub.get (O.linkState p) = 3) ∧ (s.hub.get (O.gear p) ≤ 2) ∧ (∀ b ∈ rx.blocks, b.2 ≠ .badHeader) ∧ ((∃ b ∈ rx.blocks, b.2 = .reserved) ∨ rx.bytes.length ≠ 640) :=
  ⟨st [(O.linkState 23, 3)], 23, ⟨[(1, .reserved)], false, 0, []⟩, by decide +kernel⟩

set_option maxRecDepth 1000000 in
theorem test_linkFlitCommands_5 : ∃ (s : State) (p : Port) (rx : FlitRx), (s.hub.domainsOn = true) ∧ (s.hub.get (O.linkState p) = 3) ∧ (s.hub.get (O.gear p) ≤ 2) ∧ (∀ b ∈ rx.blocks, b.2 = .sound) ∧ (rx.bytes.length = 640) ∧ (crc32c (rx.bytes.take 636) ≠ leNat (rx.bytes.drop 636) ∨ bits (leNat (rx.bytes.take 4)) 12 4 ∉ [0, 1, 8, 9, 10, 11]) ∧ (s.hub.get (O.crcErrors p) + 1 < 2 ^ 64) :=
  ⟨st [(O.linkState 23, 3), (O.gear 23, 2)], 23, ⟨[(0, .sound)], false, 0, List.replicate 640 0⟩, by decide +kernel⟩

set_option maxRecDepth 1000000 in
theorem test_linkFlitCommands_6 : ∃ (s : State) (p : Port) (rx : FlitRx), (s.hub.domainsOn = true) ∧ (s.hub.get (O.linkState p) = 3) ∧ (2 < s.hub.get (O.gear p)) ∧ (rx.uncorrectable = true) ∧ (∀ l : Nat, l < 3 → s.hub.get (H.badWords p l) < 7) ∧ (s.hub.get (O.fecUncorrectable p) + 1 < 2 ^ 64) :=
  ⟨st [(O.linkState 23, 3), (O.gear 23, 3)], 23, ⟨[], true, 0, []⟩, by decide +kernel⟩

set_option maxRecDepth 1000000 in
theorem test_linkFlitCommands_7 : ∃ (s : State) (p : Port) (rx : FlitRx), (s.hub.domainsOn = true) ∧ (s.hub.get (O.linkState p) = 3) ∧ (2 < s.hub.get (O.gear p)) ∧ (rx.uncorrectable = false) ∧ (rx.bytes.length = 640) ∧ (crc32c (rx.bytes.take 636) = leNat (rx.bytes.drop 636)) ∧ (bits (leNat (rx.bytes.take 4)) 12 4 = 0) ∧ (bits (leNat (rx.bytes.take 4)) 0 12 = s.hub.get (H.rxNext p)) ∧ (s.hub.flag (H.crypt p) = false) ∧ (s.hub.get (O.fecCorrected p) + rx.corrected < 2 ^ 64) :=
  ⟨st [(O.linkState 23, 3), (O.gear 23, 4)], 23, ⟨[], false, 2, flitBytes 0 0 (List.replicate 628 0)⟩, by decide +kernel⟩

set_option maxRecDepth 1000000 in
theorem test_linkFlitCommands_8 : ∃ (s : State) (p : Port) (rx : FlitRx), (s.hub.domainsOn = true) ∧ (s.hub.get (O.linkState p) = 3) ∧ (s.hub.get (O.gear p) ≤ 2) ∧ (∀ b ∈ rx.blocks, b.2 = .sound) ∧ (rx.bytes.length = 640) ∧ (crc32c (rx.bytes.take 636) = leNat (rx.bytes.drop 636)) ∧ (bits (leNat (rx.bytes.take 4)) 12 4 ≤ 1) ∧ (bits (leNat (rx.bytes.take 4)) 0 12 = s.hub.get (H.rxNext p)) ∧ (s.hub.flag (H.crypt p) = true) ∧ (s.hub.authenticate p (bits (leNat (rx.bytes.take 4)) 12 4) rx.bytes = none) ∧ (s.hub.get (O.linkAuthFailures p) + 1 < 2 ^ 64) :=
  ⟨st [(O.linkState 23, 3), (O.gear 23, 2), (H.crypt 23, 1), (H.keyParity 23 1, 1)], 23, ⟨[(0, .sound)], false, 2, flitBytes 0 0 (List.replicate 628 0)⟩, by decide +kernel⟩

set_option maxRecDepth 1000000 in
theorem test_linkFlitCommands_9 : ∃ (s : State) (p : Port) (rx : FlitRx) (body : Bytes), (s.hub.domainsOn = true) ∧ (s.hub.get (O.linkState p) = 3) ∧ (s.hub.get (O.gear p) ≤ 2) ∧ (∀ b ∈ rx.blocks, b.2 = .sound) ∧ (rx.bytes.length = 640) ∧ (crc32c (rx.bytes.take 636) = leNat (rx.bytes.drop 636)) ∧ (bits (leNat (rx.bytes.take 4)) 12 4 ≤ 1) ∧ (bits (leNat (rx.bytes.take 4)) 0 12 = s.hub.get (H.rxNext p)) ∧ (s.hub.flag (H.crypt p) = true) ∧ (s.hub.authenticate p (bits (leNat (rx.bytes.take 4)) 12 4) rx.bytes = some (body, false)) :=
  by
  obtain ⟨h, h1, h2, h3, h4, h5, h6, h7⟩ := flit_parts (a := leBytes 0 4) (n := leBytes 5 8) (t := wText) (g := leBytes wTag 16) (l := leBytes 0 4) (c := leBytes (crc32c wSealed) 4)
    (leBytes_length _ _) (leBytes_length _ _) List.length_replicate (leBytes_length _ _) (leBytes_length _ _) (leBytes_length _ _)
  refine ⟨wCrypt, 23, ⟨[(0, .sound)], false, 0, wSealed ++ leBytes (crc32c wSealed) 4⟩, wPlain, by decide +kernel, by decide +kernel, by decide +kernel, by decide,
    h, ?_, ?_, ?_, by decide +kernel, ?_⟩ <;> dsimp only <;> unfold wSealed at *
  · rw [h1, h2, leNat_crc32c]
  · rw [h3]; decide
  · rw [h3]; decide +kernel
  · have hk : wCrypt.hub.receiveKey 23 0 = some (1, false) := by decide +kernel
    have hc : wCrypt.hub.get (O.rxCounter 23) = 0 := by decide +kernel
    have h0 : bits (leNat (leBytes 0 4)) 26 1 = 0 := by decide
    have hb : bits (leNat (leBytes 0 4)) 12 4 = 0 := by decide
    have hn : leNat (leBytes 5 8) = 5 := by decide
    have hs : leNat (leBytes wTag 16) = wTag := leNat_gcmTag ..
    simp only [h3, hb, Hub.authenticate, h4, h5, h6, h7, h0, hn, hs]
    rw [show ((23 : Port).val) = 23 from rfl] at *
    simp only [hk, hc, Nat.reduceEqDiff, if_false]
    exact if_pos ⟨by decide, rfl⟩

theorem test_linkStateCommands_1 : ∃ (s : State) (p : Port) (gear tx rx : Nat), (s.hub.domainsOn = true) ∧ (s.hub.get (O.linkState p) = 0 ∨ s.hub.get (O.linkState p) = 1 ∨ s.hub.get (O.linkState p) = 5) ∧ (s.hub.get (O.trainState p) ≠ 0) ∧ (s.hub.get (O.trainState p) ≠ 11) ∧ (1 ≤ gear ∧ gear ≤ 4) ∧ (1 ≤ tx ∧ tx ≤ 3) ∧ (1 ≤ rx ∧ rx ≤ 3) :=
  ⟨st [(O.linkState 23, 5), (O.trainState 23, 8)], 23, 4, 3, 1, by decide +kernel⟩

set_option maxRecDepth 1000000 in
theorem test_linkStateCommands_2 : ∃ (s : State) (p : Port) (r : InitRecord), (s.hub.domainsOn = true) ∧ (s.hub.get (O.linkState p) = 2) ∧ (s.hub.flag (H.crypt p) = false) ∧ (r.version = 1) ∧ (bit r.flags.toNat 0 = s.hub.flag (H.resume p)) ∧ (bit r.flags.toNat 1 = false) ∧ (bit r.flags.toNat 3 = true) ∧ (s.hub.flag (H.gearDue p) = false) :=
  ⟨st [(O.linkState 23, 2)], 23, ⟨1, 8, 0, 0, [], []⟩, by decide +kernel⟩

set_option maxRecDepth 1000000 in
theorem test_linkStateCommands_3 : ∃ (s : State) (p : Port) (parity : Bool) (nonce : BitVec 96) (check : BitVec 16), (s.hub.domainsOn = true) ∧ (s.hub.get (O.linkState p) = 2) ∧ (s.hub.flag (H.crypt p) = true) ∧ (headerCheck ([0xC3, if parity then 1 else 0] ++ leBytes nonce.toNat 12) = check.toNat) :=
  ⟨st [(O.linkState 23, 2), (H.crypt 23, 1)], 23, true, 5, BitVec.ofNat 16 (headerCheck ([0xC3, 1] ++ leBytes 5 12)), by decide +kernel⟩

set_option maxRecDepth 1000000 in
theorem test_linkStateCommands_4 : ∃ (s : State) (p : Port), (s.hub.domainsOn = true) ∧ (s.hub.get (O.linkState p) = 2) ∧ (s.hub.awaitsNonce p = false) :=
  ⟨st [(O.linkState 23, 2), (O.trainState 23, 9)], 23, by decide +kernel⟩

set_option maxRecDepth 1000000 in
theorem test_linkStateCommands_5 : ∃ (s : State) (p : Port), (s.hub.domainsOn = true) ∧ (s.hub.awaitsNonce p = true) :=
  ⟨st [(O.linkState 23, 2), (H.crypt 23, 1), (O.rngState, 2), (O.linkCryptoKeySlot 23, 5), (O.keySlotState 5, 1), (O.keySlotEngines 5, 1), (H.halfKey 5 0, 77)], 23, by decide +kernel⟩

set_option maxRecDepth 1000000 in
theorem test_linkStateCommands_6 : ∃ (s : State) (p : Port), (s.hub.domainsOn = true) ∧ (s.hub.get (O.linkState p) = 5) :=
  ⟨st [(O.linkState 23, 5)], 23, by decide +kernel⟩

set_option maxRecDepth 1000000 in
theorem test_linkStateCommands_7 : ∃ (s : State) (lvl : Level) (p : Port), (s.hub.domainsOn = true) ∧ (Engineers lvl) ∧ (s.hub.get (O.linkState p) = 3) ∧ (s.hub.inRom = false) ∧ (s.hub.handingOver = false) :=
  ⟨st [(O.linkState 23, 3)], .engineer, 23, by decide +kernel⟩

set_option maxRecDepth 1000000 in
theorem test_linkStateCommands_8 : ∃ (s : State) (p : Port), (s.hub.domainsOn = true) ∧ (s.hub.get (O.linkState p) = 3) ∧ (s.hub.get (H.quietSent p) = 1) ∧ (s.hub.quietAllowed p = true) :=
  ⟨st [(O.linkState 23, 3), (H.quietSent 23, 1), (O.quietEnable 23, 1), (O.powerState, 2)], 23, by decide +kernel⟩

set_option maxRecDepth 1000000 in
theorem test_linkStateCommands_9 : ∃ (s : State) (p : Port), (s.hub.domainsOn = true) ∧ (s.hub.get (O.linkState p) = 3) ∧ (s.hub.get (H.quietSent p) = 1) ∧ (s.hub.quietAllowed p = true) :=
  ⟨st [(O.linkState 23, 3), (H.quietSent 23, 1), (O.quietEnable 23, 1), (O.powerState, 2)], 23, by decide +kernel⟩

set_option maxRecDepth 1000000 in
theorem test_linkStateCommands_10 : ∃ (s : State) (p : Port), (s.hub.domainsOn = true) ∧ (s.hub.get (O.linkState p) = 4) ∧ (s.hub.get (O.trainState p) = 10) :=
  ⟨st [(O.linkState 23, 4), (O.trainState 23, 10)], 23, by decide +kernel⟩

set_option maxRecDepth 1000000 in
theorem test_linkStateCommands_11 : ∃ (s : State) (p : Port), (s.hub.domainsOn = true) ∧ (s.hub.get (O.linkState p) = 4) ∧ (s.hub.get (O.trainState p) = 10) ∧ (s.hub.get O.upstreamPort ≠ p.val) :=
  ⟨st [(O.linkState 23, 4), (O.trainState 23, 10), (O.upstreamPort, 0)], 23, by decide +kernel⟩

set_option maxRecDepth 1000000 in
theorem test_linkStateCommands_12 : ∃ (s : State) (p : Port), (s.hub.domainsOn = true) ∧ (s.hub.get (O.linkState p) = 4) :=
  ⟨st [(O.linkState 23, 4)], 23, by decide +kernel⟩

set_option maxRecDepth 1000000 in
theorem test_linkStateCommands_13 : ∃ (s : State) (p : Port) (value : Bool), (s.hub.domainsOn = true) ∧ (s.hub.inRom = false) ∧ (s.hub.handingOver = false) :=
  ⟨st [], 3, true, by decide +kernel⟩

set_option maxRecDepth 1000000 in
theorem test_linkStateCommands_14 : ∃ (s : State) (lvl : Level) (p : Port) (k : Fin 8) (v : BitVec 16), (s.hub.domainsOn = true) ∧ (Engineers lvl) ∧ (s.hub.limitsHold p k v.toNat = true) ∧ (s.hub.inRom = false) ∧ (s.hub.handingOver = false) :=
  ⟨st [], .engineer, 23, 0, 5, by decide +kernel⟩

set_option maxRecDepth 1000000 in
theorem test_laneBringUp_1 : ∃ (s : State) (p : Port) (tx0 tx1 : Bool), (s.hub.domainsOn = true) ∧ (s.hub.get (O.trainState p) = 1) ∧ ((tx0 || tx1) = true) :=
  ⟨st [(O.trainState 23, 1)], 23, false, true, by decide +kernel⟩

set_option maxRecDepth 1000000 in
theorem test_laneBringUp_2 : ∃ (s : State) (p : Port), (s.hub.domainsOn = true) ∧ (s.hub.get (O.trainState p) = 2) :=
  ⟨st [(O.trainState 23, 2)], 23, by decide +kernel⟩

set_option maxRecDepth 1000000 in
theorem test_laneBringUp_3 : ∃ (s : State) (p : Port), (s.hub.domainsOn = true) ∧ (s.hub.get (O.trainState p) = 2) :=
  ⟨st [(O.trainState 23, 2)], 23, by decide +kernel⟩

set_option maxRecDepth 1000000 in
theorem test_laneBringUp_4 : ∃ (s : State) (p : Port) (lane : Fin 3) (r : TsRx), (s.hub.domainsOn = true) ∧ (tsValid r = true) ∧ (s.hub.get (O.trainState p) = 3) ∧ (s.hub.flag (O.readyHold p) = true) :=
  ⟨st [(O.trainState 23, 3), (O.readyHold 23, 1)], 23, 0, wTs, by decide +kernel⟩

set_option maxRecDepth 1000000 in
theorem test_laneBringUp_5 : ∃ (s : State) (p : Port) (lane : Fin 3) (r : TsRx), (s.hub.domainsOn = true) ∧ (tsValid r = true) ∧ (s.hub.get (O.trainState p) = 3) ∧ (s.hub.flag (O.readyHold p) = false) ∧ (r.ownHold = 0) ∧ (16 ≤ r.sent.toNat) ∧ (s.hub.flag (H.readySent p) = true) ∧ (bit r.flags.toNat 0 = true) ∧ (s.hub.get (H.tsRun p lane) = 7) ∧ (s.hub.get (O.linkState p) ≠ 5) :=
  ⟨st [(O.trainState 23, 3), (H.tsRun 23 0, 7), (H.readySent 23, 1)], 23, 0, wTs, by decide +kernel⟩

set_option maxRecDepth 1000000 in
theorem test_laneBringUp_6 : ∃ (s : State) (p : Port) (lane : Fin 3) (fom : BitVec 8), (s.hub.domainsOn = true) ∧ (s.hub.get (O.trainState p) = 5) ∧ (lane.val ∈ s.hub.rxInUse p) ∧ (s.hub.get (H.eqSteps p lane) = 0) ∧ (s.hub.get (H.eqBest p lane) < fom.toNat) ∧ (s.hub.get (H.eqPreset p lane) < 9) :=
  ⟨st [(O.trainState 23, 5), (H.eqPreset 23 1, 8)], 23, 1, 200, by decide +kernel⟩

set_option maxRecDepth 1000000 in
theorem test_laneBringUp_7 : ∃ (s : State) (p : Port) (g : Nat), (s.hub.domainsOn = true) ∧ (s.hub.get (O.trainState p) = 8) ∧ (s.hub.get (H.rateTarget p) = g) ∧ (1 ≤ g ∧ g ≤ 4) ∧ (s.hub.agreedUse p = s.hub.get (H.laneUseNow p)) :=
  ⟨st [(O.trainState 23, 8), (H.rateTarget 23, 4)], 23, 4, by decide +kernel⟩

set_option maxRecDepth 1000000 in
theorem test_laneBringUp_8 : ∃ (s : State) (p : Port), (s.hub.domainsOn = true) ∧ (s.hub.get (O.trainState p) = 3) :=
  ⟨st [(O.trainState 23, 3)], 23, by decide +kernel⟩

set_option maxRecDepth 1000000 in
theorem test_laneBringUp_9 : ∃ (s : State) (p : Port), (s.hub.domainsOn = true) ∧ (s.hub.get (O.trainState p) = 4) :=
  ⟨st [(O.trainState 23, 4)], 23, by decide +kernel⟩

set_option maxRecDepth 1000000 in
theorem test_laneBringUp_10 : ∃ (s : State) (p : Port) (g : Nat), (s.hub.domainsOn = true) ∧ (s.hub.get (O.trainState p) = 5) ∧ (s.hub.get (H.trainGear p) = g) ∧ (2 ≤ g ∧ g ≤ 4) ∧ (s.hub.get (O.linkState p) ≠ 5) :=
  ⟨st [(O.trainState 23, 5), (H.trainGear 23, 4)], 23, 4, by decide +kernel⟩

set_option maxRecDepth 1000000 in
theorem test_laneBringUp_11 : ∃ (s : State) (p : Port) (g : Nat), (s.hub.domainsOn = true) ∧ (s.hub.get (O.trainState p) = 6) ∧ (s.hub.get (H.trainGear p) = g) ∧ (2 ≤ g ∧ g ≤ 4) ∧ (s.hub.get (O.linkState p) ≠ 5) ∧ (s.hub.get (O.linkState p) ≠ 4) :=
  ⟨st [(O.trainState 23, 6), (H.trainGear 23, 2)], 23, 2, by decide +kernel⟩

set_option maxRecDepth 1000000 in
theorem test_laneBringUp_12 : ∃ (s : State) (p : Port) (g : Nat), (s.hub.domainsOn = true) ∧ (s.hub.get (O.trainState p) = 8) ∧ (s.hub.get (H.rateTarget p) = 0) ∧ (s.hub.get (H.trainGear p) = g) ∧ (2 ≤ g ∧ g ≤ 4) ∧ (s.hub.get (O.linkState p) ≠ 5) :=
  ⟨st [(O.trainState 23, 8), (H.trainGear 23, 2)], 23, 2, by decide +kernel⟩

set_option maxRecDepth 1000000 in
theorem test_laneBringUp_13 : ∃ (s : State) (p : Port) (g : Nat), (s.hub.domainsOn = true) ∧ (4 ≤ s.hub.get (O.trainState p) ∧ s.hub.get (O.trainState p) ≤ 8) ∧ (s.hub.get (H.trainGear p) = g) ∧ (2 ≤ g ∧ g ≤ 4) ∧ (s.hub.get (O.linkState p) ≠ 5) ∧ (s.hub.get (O.linkState p) ≠ 4) :=
  ⟨st [(O.trainState 23, 4), (H.trainGear 23, 3)], 23, 3, by decide +kernel⟩

set_option maxRecDepth 1000000 in
theorem test_laneBringUp_14 : ∃ (s : State) (p : Port), (s.hub.domainsOn = true) ∧ (s.hub.get (O.linkState p) = 4) ∧ (s.hub.flag (O.retrainRequest p) = false) ∧ (s.hub.flag (H.gearDue p) = false) :=
  ⟨st [(O.linkState 23, 4)], 23, by decide +kernel⟩

set_option maxRecDepth 1000000 in
theorem test_laneDetectorsAndSettings_1 : ∃ (s : State) (p : Port) (l : Lane), (s.hub.domainsOn = true) ∧ (s.hub.get (O.trainState p) ≠ 10) ∧ (2 ≤ l.val) ∧ (s.hub.flag (H.detector p l 0) = false) ∧ (s.hub.get (O.linkState p) ≠ 3) :=
  ⟨st [(O.trainState 23, 9), (O.laneStatus 23 3, 0x0B)], 23, 3, by decide +kernel⟩

set_option maxRecDepth 1000000 in
theorem test_laneDetectorsAndSettings_2 : ∃ (s : State) (p : Port) (l : Lane), (s.hub.domainsOn = true) ∧ (s.hub.get (O.trainState p) ≠ 10) ∧ (2 ≤ l.val) ∧ (s.hub.flag (H.detector p l 1) = false) ∧ (s.hub.get (O.linkState p) ≠ 3) :=
  ⟨st [(O.trainState 23, 9), (O.laneStatus 23 3, 0x0B)], 23, 3, by decide +kernel⟩

set_option maxRecDepth 1000000 in
theorem test_laneDetectorsAndSettings_3 : ∃ (s : State) (p : Port) (l : Lane), (s.hub.domainsOn = true) ∧ (2 ≤ l.val) :=
  ⟨st [], 23, 3, by decide +kernel⟩

set_option maxRecDepth 1000000 in
theorem test_laneDetectorsAndSettings_4 : ∃ (s : State) (p : Port) (l : Lane), (s.hub.domainsOn = true) ∧ (2 ≤ l.val) :=
  ⟨st [], 23, 3, by decide +kernel⟩

set_option maxRecDepth 1000000 in
theorem test_laneDetectorsAndSettings_5 : ∃ (s : State) (p : Port) (l : Lane) (ht wd : BitVec 16), (s.hub.domainsOn = true) ∧ (s.hub.get (O.trainState p) = 9) ∧ (s.hub.receives p l = true) ∧ (bit (s.hub.get (O.laneStatus p l)) 3 = true) ∧ (s.hub.get (O.marginAlarm p) ≤ ht.toNat) :=
  ⟨st [(O.trainState 23, 9), (O.laneStatus 23 3, 8), (O.marginAlarm 23, 20)], 23, 3, 20, 5, by decide +kernel⟩

set_option maxRecDepth 1000000 in
theorem test_laneDetectorsAndSettings_6 : ∃ (s : State) (p : Port) (l : Lane) (ht wd : BitVec 16), (s.hub.domainsOn = true) ∧ (s.hub.get (O.trainState p) = 9) ∧ (s.hub.receives p l = true) ∧ (bit (s.hub.get (O.laneStatus p l)) 3 = true) ∧ (ht.toNat < s.hub.get (O.marginAlarm p)) ∧ (s.hub.get (H.lowScans p l) = 2) :=
  ⟨st [(O.trainState 23, 9), (O.laneStatus 23 3, 8), (O.marginAlarm 23, 20), (H.lowScans 23 3, 2)], 23, 3, 19, 5, by decide +kernel⟩

set_option maxRecDepth 1000000 in
theorem test_laneDetectorsAndSettings_7 : ∃ (s : State) (lvl : Level) (p : Port) (value : Bool), (s.hub.domainsOn = true) ∧ (Engineers lvl) ∧ (s.hub.inRom = false) ∧ (s.hub.handingOver = false) :=
  ⟨st [], .engineer, 23, true, by decide +kernel⟩

set_option maxRecDepth 1000000 in
theorem test_laneDetectorsAndSettings_8 : ∃ (s : State) (lvl : Level) (p : Port) (v : BitVec 8), (s.hub.domainsOn = true) ∧ (Engineers lvl) ∧ (1 ≤ v.toNat ∧ v.toNat ≤ 4) ∧ (s.hub.get (H.trainGear p) ≤ v.toNat) ∧ (s.hub.inRom = false) ∧ (s.hub.handingOver = false) :=
  ⟨st [], .engineer, 23, 4, by decide +kernel⟩

set_option maxRecDepth 1000000 in
theorem test_laneDetectorsAndSettings_9 : ∃ (s : State) (lvl : Level) (p : Port) (v : BitVec 8), (s.hub.domainsOn = true) ∧ (Engineers lvl) ∧ (v.toNat ≤ 2) ∧ (s.hub.deciding p = false) ∧ (s.hub.inRom = false) ∧ (s.hub.handingOver = false) :=
  ⟨st [], .engineer, 23, 2, by decide +kernel⟩

set_option maxRecDepth 1000000 in
theorem test_laneDetectorsAndSettings_10 : ∃ (s : State) (lvl : Level) (p : Port) (value : Bool), (s.hub.domainsOn = true) ∧ (Engineers lvl) ∧ (s.hub.inRom = false) ∧ (s.hub.handingOver = false) :=
  ⟨st [], .engineer, 23, true, by decide +kernel⟩

set_option maxRecDepth 1000000 in
theorem test_laneDetectorsAndSettings_11 : ∃ (s : State) (p : Port) (l : Lane), (s.hub.domainsOn = true) ∧ (s.hub.get (O.trainState p) ≠ 10) ∧ (s.hub.receives p l = true) ∧ (bit (s.hub.get (O.laneStatus p l)) 3 = true) ∧ (s.hub.flag (H.detector p l 0) = false) ∧ (s.hub.get (O.linkState p) = 3) ∧ (s.hub.get (O.retrains p) < 2 ^ 32 - 1) ∧ (s.hub.get (O.losEvents p l) < 2 ^ 32 - 1) :=
  ⟨st [(O.linkState 23, 3), (O.laneStatus 23 2, 8)], 23, 2, by decide +kernel⟩

set_option maxRecDepth 1000000 in
theorem test_laneDetectorsAndSettings_12 : ∃ (s : State) (p : Port) (l : Lane), (s.hub.domainsOn = true) ∧ (s.hub.get (O.trainState p) ≠ 10) ∧ (s.hub.receives p l = true) ∧ (bit (s.hub.get (O.laneStatus p l)) 3 = true) ∧ (s.hub.flag (H.detector p l 1) = false) ∧ (s.hub.get (O.linkState p) = 3) ∧ (s.hub.get (O.retrains p) < 2 ^ 32 - 1) ∧ (s.hub.get (O.lolEvents p l) < 2 ^ 32 - 1) :=
  ⟨st [(O.linkState 23, 3), (O.laneStatus 23 3, 8)], 23, 3, by decide +kernel⟩

set_option maxRecDepth 1000000 in
theorem test_laneDetectorsAndSettings_13 : ∃ (s : State) (lvl : Level) (p : Port) (v : BitVec 8), (s.hub.domainsOn = true) ∧ (Engineers lvl) ∧ (1 ≤ v.toNat ∧ v.toNat ≤ 4) ∧ (v.toNat < s.hub.get (H.trainGear p)) ∧ (s.hub.get (O.linkState p) = 3) ∧ (s.hub.get (O.retrains p) < 2 ^ 32 - 1) ∧ (s.hub.inRom = false) ∧ (s.hub.handingOver = false) :=
  ⟨st [(O.linkState 23, 3), (H.trainGear 23, 2)], .owner, 23, 1, by decide +kernel⟩

set_option maxRecDepth 1000000 in
theorem test_laneDetectorsAndSettings_14 : ∃ (s : State) (lvl : Level) (p : Port) (v : BitVec 8), (s.hub.domainsOn = true) ∧ (Engineers lvl) ∧ (v.toNat ≤ 2) ∧ (s.hub.deciding p = true) ∧ (s.hub.localUse p v.toNat ≠ s.hub.get (H.laneUseNow p)) ∧ (s.hub.get (O.linkState p) = 3) ∧ (s.hub.get (O.retrains p) < 2 ^ 32 - 1) ∧ (s.hub.inRom = false) ∧ (s.hub.handingOver = false) :=
  ⟨st [(O.linkState 23, 3), (O.treeState, 2), (O.role, 1)], .owner, 23, 2, by decide +kernel⟩

theorem test_testLoopCommands_1 : ∃ (s : State) (lvl : Level) (p : Port), (s.hub.domainsOn = true) ∧ (Engineers lvl) ∧ (s.hub.get (O.trainState p) = 0) ∧ (s.hub.flag (O.linkEnable p) = false) ∧ (s.hub.inRom = false) ∧ (s.hub.handingOver = false) :=
  ⟨st [(O.linkEnable 23, 0)], .engineer, 23, by decide +kernel⟩

set_option maxRecDepth 1000000 in
theorem test_testLoopCommands_2 : ∃ (s : State) (lvl : Level) (p : Port) (l : Lane) (v : BitVec 8), (s.hub.domainsOn = true) ∧ (Engineers lvl) ∧ (v ≠ 0) ∧ (s.hub.slipMode p = true) ∧ (2 ≤ l.val) ∧ (s.hub.flag (O.chkLocked p l) = false) ∧ (s.hub.inRom = false) ∧ (s.hub.handingOver = false) :=
  ⟨st [(O.testMode 23, 2), (O.testGear 23, 4)], .owner, 23, 3, 200, by decide +kernel⟩

set_option maxRecDepth 1000000 in
theorem test_testLoopCommands_3 : ∃ (s : State) (lvl : Level) (p : Port) (l : Lane) (v : BitVec 8) (word : BitVec 64), (s.hub.domainsOn = true) ∧ (Engineers lvl) ∧ (v.toNat ≤ 127) ∧ (s.hub.slipMode p = true) ∧ (s.hub.inRom = false) ∧ (s.hub.handingOver = false) :=
  ⟨st [(O.testMode 23, 1)], .owner, 23, 2, 127, 99, by decide +kernel⟩

set_option maxRecDepth 1000000 in
theorem test_testLoopCommands_4 : ∃ (s : State) (lvl : Level) (p : Port) (l : Lane) (v : BitVec 8), (s.hub.domainsOn = true) ∧ (Engineers lvl) ∧ (v.toNat ≤ 2) ∧ (s.hub.inRom = false) ∧ (s.hub.handingOver = false) :=
  ⟨st [], .owner, 23, 1, 2, by decide +kernel⟩

set_option maxRecDepth 1000000 in
theorem test_testLoopCommands_5 : ∃ (s : State) (p : Port) (l : Lane), (s.hub.domainsOn = true) ∧ (s.hub.get (O.injectMode p l) = 1) ∧ (l.val < 2) ∧ (bit (s.hub.get (O.laneStatus p l)) 4 = false) ∧ (s.hub.get (O.linkState p) = 3) ∧ (s.hub.get (O.testMode p) = 0) :=
  ⟨st [(O.injectMode 23 1, 1), (O.linkState 23, 3)], 23, 1, by decide +kernel⟩

set_option maxRecDepth 1000000 in
theorem test_testLoopCommands_6 : ∃ (s : State) (p : Port) (l : Lane), (s.hub.domainsOn = true) ∧ (s.hub.get (O.trainState p) = 11) ∧ (2 ≤ l.val) ∧ (s.hub.flag (O.chkLocked p l) = false) :=
  ⟨st [(O.trainState 23, 11)], 23, 3, by decide +kernel⟩

set_option maxRecDepth 1000000 in
theorem test_testLoopCommands_7 : ∃ (s : State) (p : Port) (l : Lane), (s.hub.domainsOn = true) ∧ (s.hub.flag (O.chkLocked p l) = true) :=
  ⟨st [(O.chkLocked 23 3, 1)], 23, 3, by decide +kernel⟩

set_option maxRecDepth 1000000 in
theorem test_typeCCommands_1 : ∃ (s : State) (p : Port), (s.hub.pdOn = true) ∧ (s.hub.get (O.attachState p) = 0) ∧ (2 ≤ s.hub.get (O.policy p)) :=
  ⟨st [(O.policy 5, 2)], 5, by decide +kernel⟩

set_option maxRecDepth 1000000 in
theorem test_typeCCommands_2 : ∃ (s : State) (p : Port) (cc : CcView), (s.hub.get (O.attachState p) = 0) ∧ (s.hub.flag H.running = true) ∧ (s.hub.get O.powerState = 0) ∧ (s.hub.get (O.policy p) = 0) ∧ (cc.cc1 = .rd) ∧ (cc.cc2 ≠ .rd) ∧ (cc.cc2 ≠ .rp) :=
  ⟨st [(O.policy 5, 0)], 5, ⟨.rd, .ra, false⟩, by decide +kernel⟩

set_option maxRecDepth 1000000 in
theorem test_typeCCommands_3 : ∃ (s : State) (p : Port) (cc : CcView), (s.hub.pdOn = true) ∧ (s.hub.get (O.attachState p) = 0) ∧ (cc.cc1 = .ra) ∧ (cc.cc2 = .ra) :=
  ⟨st [], 5, ⟨.ra, .ra, false⟩, by decide +kernel⟩

set_option maxRecDepth 1000000 in
theorem test_typeCCommands_4 : ∃ (s : State) (p : Port), (s.hub.pdOn = true) ∧ (s.hub.get (O.attachState p) = 1) ∧ (s.hub.get (H.attachAs p) = 2) ∧ (s.hub.flag (H.vbusSeen p) = true) ∧ (s.hub.get (O.policy p) ≠ 3) ∧ (s.hub.get (H.ccCand p) ≤ 2) :=
  ⟨st [(O.attachState 5, 1), (H.attachAs 5, 2), (H.vbusSeen 5, 1), (H.ccCand 5, 2), (O.policy 5, 1)], 5, by decide +kernel⟩

set_option maxRecDepth 1000000 in
theorem test_typeCCommands_5 : ∃ (s : State) (p : Port), (s.hub.pdOn = true) ∧ (s.hub.get (O.attachState p) = 1) ∧ (s.hub.get (H.attachAs p) = 2) ∧ (s.hub.flag (H.vbusSeen p) = true) ∧ (s.hub.get (O.policy p) = 3) :=
  ⟨st [(O.attachState 5, 1), (H.attachAs 5, 2), (H.vbusSeen 5, 1), (O.policy 5, 3)], 5, by decide +kernel⟩

set_option maxRecDepth 1000000 in
theorem test_typeCCommands_6 : ∃ (s : State) (p : Port) (timer : Fin 3), (s.hub.pdOn = true) ∧ (s.hub.get (O.attachState p) = 2) ∧ (s.hub.get (H.tryPath p) = 4) ∧ (s.hub.flag (H.trySeen p) = false) ∧ (timer ≠ 2) :=
  ⟨st [(O.attachState 5, 2), (H.tryPath 5, 4)], 5, 1, by decide +kernel⟩

set_option maxRecDepth 1000000 in
theorem test_typeCCommands_7 : ∃ (s : State) (p : Port) (timer : Fin 3), (s.hub.pdOn = true) ∧ (s.hub.get (O.attachState p) = 2) ∧ (s.hub.get (H.tryPath p) = 3) ∧ (s.hub.flag (H.trySeen p) = true) ∧ (timer = 2) :=
  ⟨st [(O.attachState 5, 2), (H.tryPath 5, 3), (H.trySeen 5, 1)], 5, 2, by decide +kernel⟩

set_option maxRecDepth 1000000 in
theorem test_typeCCommands_8 : ∃ (s : State) (p : Port), (s.hub.pdOn = true) ∧ (s.hub.get (O.attachState p) = 1 ∨ s.hub.get (O.attachState p) = 2 ∨ s.hub.get (O.attachState p) = 3 ∨ s.hub.get (O.attachState p) = 4) :=
  ⟨st [(O.attachState 5, 3), (O.powerRole 5, 1)], 5, by decide +kernel⟩

set_option maxRecDepth 1000000 in
theorem test_typeCCommands_9 : ∃ (s : State) (p : Port), (s.hub.pdOn = true) ∧ (s.hub.get (O.attachState p) = 5) ∧ (s.hub.pathPermits p = true) ∧ (s.hub.heldOff p = false) :=
  ⟨st [(O.attachState 5, 5)], 5, by decide +kernel⟩

set_option maxRecDepth 1000000 in
theorem test_typeCCommands_10 : ∃ (s : State) (p : Port), (s.hub.pdOn = true) ∧ (s.hub.get (O.attachState p) = 5) ∧ (s.hub.pathPermits p = true) ∧ (s.hub.heldOff p = true) :=
  ⟨st [(O.attachState 23, 5), (O.portDisable 23, 1)], 23, by decide +kernel⟩

set_option maxRecDepth 1000000 in
theorem test_typeCCommands_11 : ∃ (s : State) (p : Port), (s.hub.pdOn = true) ∧ (s.hub.get (O.attachState p) = 5) ∧ (s.hub.pathPermits p = false) :=
  ⟨st [(O.attachState 5, 5), (O.srcPathState 5, 4)], 5, by decide +kernel⟩

set_option maxRecDepth 1000000 in
theorem test_typeCCommands_12 : ∃ (s : State) (lvl : Level) (p : Port) (v : BitVec 8), (s.hub.domainsOn = true) ∧ (Engineers lvl) ∧ (s.hub.handingOver = false) ∧ (v.toNat ≤ 4) ∧ (s.hub.get (O.attachState p) = 6) ∧ (s.hub.inRom = false) :=
  ⟨st [(O.attachState 5, 6)], .engineer, 5, 4, by decide +kernel⟩

set_option maxRecDepth 1000000 in
theorem test_typeCCommands_13 : ∃ (s : State) (lvl : Level) (p : Port) (v : BitVec 8), (s.hub.domainsOn = true) ∧ (Engineers lvl) ∧ (s.hub.handingOver = false) ∧ (v.toNat ≤ 4) ∧ (v.toNat ≠ s.hub.get (O.policy p)) ∧ (s.hub.get (O.attachState p) ≠ 6) ∧ (s.hub.inRom = false) :=
  ⟨st [], .owner, 5, 4, by decide +kernel⟩

set_option maxRecDepth 1000000 in
theorem test_typeCCommands_14 : ∃ (s : State) (lvl : Level) (p : Port) (v : BitVec 8), (s.hub.domainsOn = true) ∧ (s.hub.handingOver = true) :=
  ⟨st [(O.activationState, 5)], .owner, 5, 4, by decide +kernel⟩

set_option maxRecDepth 1000000 in
theorem test_typeCCommands_15 : ∃ (s : State) (lvl : Level) (p : Port), (s.hub.domainsOn = true) ∧ (Engineers lvl) ∧ (s.hub.handingOver = false) ∧ (s.hub.get (O.attachState p) = 6) ∧ (s.hub.inRom = false) :=
  ⟨st [(O.attachState 5, 6)], .engineer, 5, by decide +kernel⟩

set_option maxRecDepth 1000000 in
theorem test_typeCCommands_16 : ∃ (s : State) (lvl : Level) (p : Port), (s.hub.domainsOn = true) ∧ (Engineers lvl) ∧ (s.hub.handingOver = false) ∧ (s.hub.get (O.attachState p) ≠ 6) ∧ (s.hub.inRom = false) :=
  ⟨st [], .engineer, 5, by decide +kernel⟩

theorem test_pairCommands_1 : ∃ (s : State) (p : Port), (s.hub.pdOn = true) ∧ (s.hub.get (O.srcPathState p) = 0) ∧ (s.hub.flag (H.srcWanted p) = true) ∧ (s.hub.get (H.convState p) = 2) ∧ (s.hub.flag (H.srcReversed p) = false) ∧ (s.hub.get (O.snkPathState p) = 0) ∧ (s.hub.flag (H.gateHigh p 1) = false) ∧ (s.hub.coolEnough p 0 = true) :=
  ⟨st [(H.srcWanted 5, 1), (H.convState 5, 2)], 5, by decide +kernel⟩

set_option maxRecDepth 1000000 in
theorem test_pairCommands_2 : ∃ (s : State) (p : Port), (s.hub.pdOn = true) ∧ (s.hub.flag (H.srcReversed p) = true) ∧ (s.hub.mayCall p = true) :=
  ⟨st [(H.srcReversed 23, 1), (O.attachState 23, 3), (O.powerRole 23, 1)], 23, by decide +kernel⟩

set_option maxRecDepth 1000000 in
theorem test_pairCommands_3 : ∃ (s : State) (p : Port), (s.hub.pdOn = true) ∧ (s.hub.get (O.srcPathState p) = 1 ∨ s.hub.get (O.srcPathState p) = 2 ∨ s.hub.flag (H.gateHigh p 0) = true) :=
  ⟨st [(O.srcPathState 5, 2)], 5, by decide +kernel⟩

set_option maxRecDepth 1000000 in
theorem test_pairCommands_4 : ∃ (s : State) (p : Port), (s.hub.pdOn = true) ∧ (s.hub.get (H.convState p) = 1) ∧ (s.hub.flag (H.gateHigh p 1) = true) :=
  ⟨st [(H.convState 5, 1), (H.gateHigh 5 1, 1)], 5, by decide +kernel⟩

set_option maxRecDepth 1000000 in
theorem test_pairCommands_5 : ∃ (s : State) (p : Port), (s.hub.pdOn = true) ∧ (s.hub.get (H.convState p) = 1) ∧ (s.hub.get (O.srcPathState p) = 0) ∧ (s.hub.get (O.attachState p) = 4) ∧ (s.hub.get (H.pdx p) ≠ 11) ∧ (s.hub.flag (H.powerDegraded p) = false) ∧ (s.hub.get (O.retryMode p) ≠ 1) :=
  ⟨st [(H.convState 5, 1), (O.attachState 5, 4), (O.retryMode 5, 0)], 5, by decide +kernel⟩

set_option maxRecDepth 1000000 in
theorem test_pairCommands_6 : ∃ (s : State) (p : Port), (s.hub.pdOn = true) ∧ (s.hub.get (O.snkPathState p) = 1) ∧ (s.hub.get (O.ramps p) < 2 ^ 32 - 1) :=
  ⟨st [(O.snkPathState 5, 1)], 5, by decide +kernel⟩

set_option maxRecDepth 1000000 in
theorem test_pairCommands_7 : ∃ (s : State) (p : Port), (s.hub.pdOn = true) ∧ (s.hub.get (O.srcPathState p) = 1 ∨ s.hub.get (O.srcPathState p) = 2) :=
  ⟨st [(O.srcPathState 5, 2), (H.srcWanted 5, 1)], 5, by decide +kernel⟩

set_option maxRecDepth 1000000 in
theorem test_pairCommands_8 : ∃ (s : State) (p : Port) (sink : Bool), (s.hub.pdOn = true) ∧ (s.hub.get (pathObj p (if sink then 1 else 0)) = 3) ∧ (s.hub.coolEnough p (if sink then 1 else 0) = true) ∧ (s.hub.get (O.attachState p) ≠ 5) :=
  ⟨st [(O.srcPathState 5, 3), (O.fetTempLimit 5, 1500)], 5, false, by decide +kernel⟩

set_option maxRecDepth 1000000 in
theorem test_pairCommands_9 : ∃ (s : State) (p : Port) (sink : Bool), (s.hub.pdOn = true) ∧ (s.hub.get (pathObj p (if sink then 1 else 0)) = 3) ∧ (s.hub.coolEnough p (if sink then 1 else 0) = false) :=
  ⟨st [(O.snkPathState 5, 3), (O.fetTempLimit 5, 0)], 5, true, by decide +kernel⟩

set_option maxRecDepth 1000000 in
theorem test_pairCommands_10 : ∃ (s : State) (p : Port), (s.hub.pdOn = true) ∧ (s.hub.get (O.srcPathState p) = 2 ∨ s.hub.get (O.snkPathState p) = 2) :=
  ⟨st [(O.srcPathState 5, 2), (O.retries 5, 3)], 5, by decide +kernel⟩

set_option maxRecDepth 1000000 in
theorem test_pairCommands_11 : ∃ (s : State) (lvl : Level) (p : Port), (s.hub.domainsOn = true) ∧ (Engineers lvl) ∧ (s.hub.get (O.srcPathState p) = 4) ∧ (s.hub.get (O.snkPathState p) = 0) ∧ (s.hub.get (O.attachState p) ≠ 5) ∧ (s.hub.inRom = false) ∧ (s.hub.handingOver = false) :=
  ⟨st [(O.srcPathState 5, 4)], .engineer, 5, by decide +kernel⟩

set_option maxRecDepth 1000000 in
theorem test_pairCommands_12 : ∃ (s : State) (lvl : Level) (p : Port) (v : Bool), (s.hub.domainsOn = true) ∧ (Engineers lvl) ∧ (s.hub.get (O.srcPathState p) ≠ 4) ∧ (s.hub.get (O.snkPathState p) ≠ 4) ∧ (s.hub.inRom = false) ∧ (s.hub.handingOver = false) :=
  ⟨st [], .engineer, 5, true, by decide +kernel⟩

set_option maxRecDepth 1000000 in
theorem test_pairCommands_13 : ∃ (s : State) (p : Port), (s.hub.pdOn = true) ∧ (s.hub.get (H.convState p) = 1) ∧ (s.hub.flag (H.srcWanted p) = true) ∧ (s.hub.flag (H.srcReversed p) = false) ∧ (s.hub.get (O.srcPathState p) = 0) ∧ (s.hub.get (O.snkPathState p) = 0) ∧ (s.hub.flag (H.gateHigh p 1) = false) ∧ (s.hub.coolEnough p 0 = true) :=
  ⟨st [(H.convState 23, 1), (H.srcWanted 23, 1)], 23, by decide +kernel⟩

set_option maxRecDepth 1000000 in
theorem test_pairCommands_14 : ∃ (s : State) (p : Port), (s.hub.pdOn = true) ∧ (s.hub.get (H.convState p) = 1) ∧ (s.hub.get (O.srcPathState p) = 0) ∧ (s.hub.get (O.attachState p) = 3) ∧ (s.hub.get (H.pdx p) ≠ 11) ∧ (s.hub.flag (H.powerDegraded p) = false) ∧ (s.hub.get (O.retryMode p) ≠ 1) :=
  ⟨st [(H.convState 23, 1), (O.attachState 23, 3), (O.retryMode 23, 0)], 23, by decide +kernel⟩

set_option maxRecDepth 1000000 in
theorem test_pairCommands_15 : ∃ (s : State) (p : Port), (s.hub.pdOn = true) ∧ (s.hub.get (H.convState p) = 1) ∧ (s.hub.get (O.srcPathState p) = 0) ∧ (s.hub.get (H.pdx p) = 11) ∧ (s.hub.flag (H.powerDegraded p) = false) ∧ (s.hub.get (O.retryMode p) ≠ 1) :=
  ⟨st [(H.convState 23, 1), (H.pdx 23, 11), (O.retryMode 23, 0)], 23, by decide +kernel⟩

set_option maxRecDepth 1000000 in
theorem test_pairCommands_16 : ∃ (s : State) (lvl : Level) (p : Port), (s.hub.domainsOn = true) ∧ (Engineers lvl) ∧ (s.hub.get (O.srcPathState p) = 4) ∧ (s.hub.get (O.snkPathState p) = 0) ∧ (s.hub.get (O.attachState p) = 5) ∧ (s.hub.get (H.erTimer p) = 1) ∧ (s.hub.heldOff p = false) ∧ (s.hub.inRom = false) ∧ (s.hub.handingOver = false) :=
  ⟨st [(O.srcPathState 23, 4), (O.attachState 23, 5), (H.erTimer 23, 1)], .owner, 23, by decide +kernel⟩

theorem test_pairFaults_1 : ∃ (s : State) (p : Port), (s.hub.pdOn = true) ∧ (s.hub.get (O.snkPathState p) = 2) ∧ (s.hub.get (O.srcPathState p) = 0) ∧ (s.hub.flag (H.powerDegraded p) = false) ∧ (s.hub.get (O.retryMode p) ≠ 1) :=
  ⟨st [(O.snkPathState 5, 2), (O.retryMode 5, 0)], 5, by decide +kernel⟩

set_option maxRecDepth 1000000 in
theorem test_pairFaults_2 : ∃ (s : State) (p : Port), (s.hub.pdOn = true) ∧ (s.hub.get (O.snkPathState p) = 2) ∧ (s.hub.get (O.srcPathState p) = 0) ∧ (s.hub.flag (H.powerDegraded p) = false) ∧ (s.hub.get (O.retryMode p) = 1) ∧ (s.hub.get (O.retryLimit p) = 0) ∧ (s.hub.get (O.faultTime p) ≤ s.hub.get (O.faultTimer p)) :=
  ⟨st [(O.snkPathState 5, 2), (O.retryMode 5, 1), (O.retryLimit 5, 0), (O.faultTime 5, 20), (O.faultTimer 5, 20)], 5, by decide +kernel⟩

set_option maxRecDepth 1000000 in
theorem test_pairFaults_3 : ∃ (s : State) (p : Port), (s.hub.pdOn = true) ∧ (s.hub.get (O.snkPathState p) = 2) ∧ (s.hub.get (O.srcPathState p) = 0) ∧ (s.hub.flag (H.powerDegraded p) = true) ∧ (s.hub.getI (O.fetTempLimit p) ≤ s.hub.fetTemp p 1) :=
  ⟨st [(O.snkPathState 5, 2), (H.powerDegraded 5, 1), (O.fetTempLimit 5, 0), (O.snkFetTemp 5, 0)], 5, by decide +kernel⟩

set_option maxRecDepth 1000000 in
theorem test_pairFaults_4 : ∃ (s : State) (p : Port), (s.hub.pdOn = true) ∧ (s.hub.get (O.snkPathState p) ≠ 1) ∧ (s.hub.get (O.snkPathState p) ≠ 2) :=
  ⟨st [], 5, by decide +kernel⟩

set_option maxRecDepth 1000000 in
theorem test_pairFaults_5 : ∃ (s : State) (p : Port), (s.hub.pdOn = true) ∧ (s.hub.get (O.srcPathState p) = 2) ∧ (s.hub.get (O.reverseEvents p) < 2 ^ 32 - 1) :=
  ⟨st [(O.srcPathState 5, 2)], 5, by decide +kernel⟩

set_option maxRecDepth 1000000 in
theorem test_pairFaults_6 : ∃ (s : State) (p : Port), (s.hub.pdOn = true) ∧ (s.hub.get (O.srcPathState p) = 0) ∧ (s.hub.get (O.snkPathState p) = 0) :=
  ⟨st [], 5, by decide +kernel⟩

set_option maxRecDepth 1000000 in
theorem test_pairFaults_7 : ∃ (s : State) (p : Port), (s.hub.pdOn = true) ∧ (s.hub.get (O.srcPathState p) = 2) ∧ (s.hub.get (O.attachState p) = 3) ∧ (s.hub.get (H.pdx p) ≠ 11) ∧ (s.hub.flag (H.powerDegraded p) = false) ∧ (s.hub.get (O.retryMode p) ≠ 1) :=
  ⟨st [(O.srcPathState 23, 2), (O.attachState 23, 3), (O.retryMode 23, 0)], 23, by decide +kernel⟩

set_option maxRecDepth 1000000 in
theorem test_pairFaults_8 : ∃ (s : State) (p : Port), (s.hub.pdOn = true) ∧ (s.hub.get (O.srcPathState p) = 2) ∧ (s.hub.get (O.attachState p) = 3) ∧ (s.hub.get (H.pdx p) ≠ 11) ∧ (s.hub.flag (H.powerDegraded p) = false) ∧ (s.hub.get (O.retryMode p) ≠ 1) ∧ (s.hub.get (O.faultTime p) ≤ s.hub.get (O.faultTimer p)) :=
  ⟨st [(O.srcPathState 23, 2), (O.attachState 23, 3), (O.faultTime 23, 50), (O.faultTimer 23, 50), (O.retryMode 23, 0)], 23, by decide +kernel⟩

set_option maxRecDepth 1000000 in
theorem test_pairFaults_9 : ∃ (s : State) (p : Port), (s.hub.pdOn = true) ∧ (s.hub.get (O.srcPathState p) = 2) ∧ (s.hub.get (O.attachState p) = 3) ∧ (s.hub.get (H.pdx p) ≠ 11) ∧ (s.hub.flag (H.powerDegraded p) = false) ∧ (s.hub.get (O.retryMode p) ≠ 1) ∧ (s.hub.getI (O.fetTempLimit p) ≤ s.hub.fetTemp p 0) :=
  ⟨st [(O.srcPathState 23, 2), (O.attachState 23, 3), (O.fetTempLimit 23, 100), (O.refTemp 23, 100), (O.retryMode 23, 0)], 23, by decide +kernel⟩

set_option maxRecDepth 1000000 in
theorem test_pairFaults_10 : ∃ (s : State) (p : Port), (s.hub.pdOn = true) ∧ (s.hub.get (O.srcPathState p) = 1) ∧ (s.hub.get (H.pdx p) = 11) ∧ (s.hub.flag (H.powerDegraded p) = false) ∧ (s.hub.get (O.retryMode p) ≠ 1) :=
  ⟨st [(O.srcPathState 23, 1), (H.pdx 23, 11), (O.retryMode 23, 0)], 23, by decide +kernel⟩

theorem test_feedsTickAndAdc_1 : ∃ (s : State) (p : Port) (cmp : Comparators), (s.hub.pdOn = true) ∧ (s.hub.get (O.srcPathState p) = 0) ∧ (s.hub.get (O.snkPathState p) = 0) ∧ (s.hub.flag (H.srcWanted p) = false) ∧ (s.hub.sinkWanted p = false) ∧ (s.hub.flag (H.slewing p) = false) ∧ (s.hub.get (H.pdx p) = 0) ∧ (cmp.srcGateLow = false) ∧ (cmp.snkGateLow = false) ∧ (cmp.vsafe0 = false) :=
  ⟨st [], 5, ⟨true, true, true, true, false, false, true, false⟩, by decide +kernel⟩

set_option maxRecDepth 1000000 in
theorem test_feedsTickAndAdc_2 : ∃ (s : State) (p : Port) (cmp : Comparators), (s.hub.pdOn = true) ∧ (s.hub.get (O.snkPathState p) = 2) ∧ (s.hub.get (O.srcPathState p) = 0) ∧ (cmp.fastTrip = true) ∧ (cmp.srcGateLow = false) ∧ (cmp.snkGateLow = false) ∧ (cmp.vsafe0 = false) ∧ (s.hub.flag (H.slewing p) = false) ∧ (s.hub.get (H.pdx p) = 0) ∧ (s.hub.flag (H.powerDegraded p) = true) ∧ (s.hub.flag (H.srcWanted p) = false) :=
  ⟨st [(O.snkPathState 5, 2), (H.powerDegraded 5, 1)], 5, ⟨true, false, true, true, false, false, true, false⟩, by decide +kernel⟩

set_option maxRecDepth 1000000 in
theorem test_feedsTickAndAdc_3 : ∃ (s : State) (a b v : BitVec 32), (s.hub.pdOn = true) ∧ (s.hub.get O.feedState ≠ 2) :=
  ⟨st [], 48000, 47000, 46000, by decide +kernel⟩

set_option maxRecDepth 1000000 in
theorem test_feedsTickAndAdc_4 : ∃ (s : State) (p : Port) (v a b : BitVec 32), (s.hub.pdOn = true) ∧ (s.hub.get (H.hrSink p) = 0) :=
  ⟨st [], 5, 5000, 0, 1, by decide +kernel⟩

set_option maxRecDepth 1000000 in
theorem test_feedsTickAndAdc_5 : ∃ (s : State) (p : Port) (lo hi : Nat), (s.hub.pdOn = true) ∧ (s.hub.get (O.thermalMode p) ≠ 1) :=
  ⟨st [(O.thermalMode 5, 0)], 5, 1, 2, by decide +kernel⟩

set_option maxRecDepth 1000000 in
theorem test_feedsTickAndAdc_6 : ∃ (s : State) (b : Bool), (s.hub.pdOn = true) ∧ (s.hub.get O.feedSelected = (if b then 2 else 1)) ∧ (s.hub.get H.feedPhase = 0) ∧ (s.hub.get O.activationState = 0) ∧ (s.hub.flag (qualifiedObj (if b then 1 else 2)) = true) :=
  ⟨st [(O.feedSelected, 2), (H.feedPhase, 0), (O.faQualified, 1), (H.feedLost, 1)], true, by decide +kernel⟩

set_option maxRecDepth 1000000 in
theorem test_feedsTickAndAdc_7 : ∃ (s : State) (b : Bool), (s.hub.pdOn = true) ∧ (s.hub.get O.feedSelected = (if b then 1 else 2)) ∧ (s.hub.get H.feedPhase = 0) ∧ (s.hub.flag H.feedLost = true) :=
  ⟨st [(O.feedSelected, 2), (H.feedPhase, 0), (H.feedLost, 1)], false, by decide +kernel⟩

set_option maxRecDepth 1000000 in
theorem test_feedsTickAndAdc_8 : ∃ (s : State) (b : Bool) (cause : FeedLossCause), (s.hub.pdOn = true) ∧ (s.hub.get O.feedSelected = (if b then 1 else 2)) ∧ (s.hub.get H.feedPhase = 0) ∧ (s.hub.get O.activationState = 0) :=
  ⟨st [(O.feedSelected, 2), (H.feedPhase, 0), (O.faQualified, 1)], false, .reverse, by decide +kernel⟩

set_option maxRecDepth 1000000 in
theorem test_feedsTickAndAdc_9 : ∃ (s : State) (b : Bool) (cause : FeedLossCause), (s.hub.pdOn = true) ∧ (s.hub.get O.feedSelected = (if b then 2 else 1)) ∧ (s.hub.get H.feedPhase = 0) ∧ (s.hub.flag (qualifiedObj (if b then 1 else 2)) = true) ∧ (s.hub.get O.busMv < 2 ^ 32) :=
  ⟨st [(O.feedSelected, 1), (H.feedPhase, 0), (O.fbQualified, 1)], false, .undervoltage, by decide +kernel⟩

set_option maxRecDepth 1000000 in
theorem test_feedsTickAndAdc_10 : ∃ (s : State), (s.hub.pdOn = true) ∧ (s.hub.get H.feedPhase = 1) ∧ (s.hub.get O.deadTime < O.lastTransferGap.cap) :=
  ⟨st [(H.feedPhase, 1)], by decide +kernel⟩

set_option maxRecDepth 1000000 in
theorem test_feedsTickAndAdc_11 : ∃ (s : State) (b : Bool), (s.hub.pdOn = true) ∧ (s.hub.get H.feedPhase = 2) ∧ (s.hub.get H.feedTarget = (if b then 2 else 1)) ∧ (s.hub.get O.activationState = 0) ∧ (s.hub.get O.transfers < 2 ^ 32 - 1) :=
  ⟨st [(H.feedPhase, 2), (H.feedTarget, 2)], true, by decide +kernel⟩

set_option maxRecDepth 1000000 in
theorem test_feedsTickAndAdc_12 : ∃ (s : State) (b : Bool), (s.hub.pdOn = true) ∧ (s.hub.flag O.autoRevert = true) ∧ (s.hub.get H.feedPhase = 0) ∧ (s.hub.get O.feedPriority = (if b then 1 else 0)) ∧ (s.hub.get O.feedSelected = (if b then 1 else 2)) ∧ (s.hub.flag (qualifiedObj (if b then 2 else 1)) = true) :=
  ⟨st [(O.autoRevert, 1), (O.feedPriority, 1), (O.feedSelected, 1), (H.feedPhase, 0), (O.fbQualified, 1)], true, by decide +kernel⟩

set_option maxRecDepth 1000000 in
theorem test_feedsTickAndAdc_13 : ∃ (s : State) (p : Port) (ma : Int) (dt : Nat), (s.hub.pdOn = true) ∧ (-2147483648 ≤ ma) ∧ (ma < 2147483648) ∧ (-2147483648 ≤ (s.hub.get (O.vbusMv p) : Int) * ma / 1000) ∧ ((s.hub.get (O.vbusMv p) : Int) * ma / 1000 < 2147483648) :=
  ⟨st [(O.vbusMv 23, 48000)], 23, -5000, 10, by decide +kernel⟩

set_option maxRecDepth 1000000 in
theorem test_feedsTickAndAdc_14 : ∃ (s : State) (p : Port) (sink : Bool) (cmp : Comparators), (s.hub.pdOn = true) ∧ (s.hub.get (pathObj p (if sink then 1 else 0)) = 2) ∧ (s.hub.get (pathObj p (if sink then 0 else 1)) = 0) ∧ (cmp.fastTrip = false) ∧ (s.hub.flag (H.fastLatch p) = false) ∧ (cmp.inLimit = false) ∧ (cmp.reverse = false) ∧ (cmp.enhanced = true) ∧ (63 ≤ s.hub.get (H.outTicks p)) ∧ (0 < s.hub.get (O.faultTime p)) ∧ (s.hub.fetTemp p (if sink then 1 else 0) < s.hub.getI (O.fetTempLimit p)) ∧ (s.hub.sinkWanted p = sink) ∧ (s.hub.flag (H.slewing p) = false) ∧ (s.hub.get (H.pdx p) = 0) ∧ (cmp.srcGateLow = false) ∧ (cmp.snkGateLow = false) ∧ (cmp.vsafe0 = false) :=
  ⟨st [(O.srcPathState 23, 2), (H.outTicks 23, 63), (O.faultTime 23, 1), (O.fetTempLimit 23, 1000)], 23, false, ⟨false, false, true, false, false, false, false, false⟩, by decide +kernel⟩

set_option maxRecDepth 1000000 in
theorem test_feedsTickAndAdc_15 : ∃ (s : State) (p : Port) (sink : Bool) (cmp : Comparators), (s.hub.pdOn = true) ∧ (s.hub.get (pathObj p (if sink then 1 else 0)) = 2) ∧ (s.hub.get (pathObj p (if sink then 0 else 1)) = 0) ∧ (cmp.fastTrip = false) ∧ (s.hub.flag (H.fastLatch p) = false) ∧ (cmp.inLimit = true) ∧ (cmp.reverse = false) ∧ (s.hub.get (O.faultTimer p) = 0) ∧ (1 < s.hub.get (O.faultTime p)) ∧ (s.hub.flag (O.inLimit p) = false) ∧ (s.hub.get (O.limitEntries p) < 2 ^ 32 - 1) ∧ (s.hub.fetTemp p (if sink then 1 else 0) < s.hub.getI (O.fetTempLimit p)) ∧ (s.hub.sinkWanted p = sink) ∧ (s.hub.flag (H.slewing p) = false) ∧ (s.hub.get (H.pdx p) = 0) ∧ (cmp.srcGateLow = false) ∧ (cmp.snkGateLow = false) ∧ (cmp.vsafe0 = false) :=
  ⟨st [(O.srcPathState 23, 2), (H.outTicks 23, 64), (O.faultTime 23, 2), (O.fetTempLimit 23, 1000)], 23, false, ⟨false, true, true, false, false, false, false, false⟩, by decide +kernel⟩

set_option maxRecDepth 1000000 in
theorem test_contractAsSink_1 : ∃ (s : State) (p : Port) (pdos : List (BitVec 32)) (k pdo : Nat), (s.hub.takesPd p = true) ∧ (s.hub.isSource p = false) ∧ (s.hub.get (H.pdx p) = 0) ∧ (s.hub.get (O.sinkPpsMv p) = 0) ∧ (s.hub.bestPdo p (pdos.map BitVec.toNat) = some (k, pdo)) ∧ (s.hub.get (O.sinkPowerMin p) * 100000 ≤ pdoMv pdo * pdoSteps pdo) :=
  ⟨st [(O.attachState 5, 4), (O.powerRole 5, 2), (O.sinkVmax 5, 20000), (O.sinkPowerMin 5, 15)], 5, [0x1912C], 1, 0x1912C, by decide +kernel⟩

set_option maxRecDepth 1000000 in
theorem test_contractAsSink_2 : ∃ (s : State) (p : Port) (pdos : List (BitVec 32)), (s.hub.takesPd p = true) ∧ (s.hub.isSource p = true) ∧ (s.hub.get (H.pdx p) = 0) :=
  ⟨st [(O.attachState 5, 3), (O.powerRole 5, 1)], 5, [], by decide +kernel⟩

set_option maxRecDepth 1000000 in
theorem test_contractAsSink_3 : ∃ (s : State) (p : Port), (s.hub.takesPd p = true) ∧ (s.hub.get (H.pdx p) = 2) ∧ (s.hub.get (O.sinkOnMv p) ≤ s.hub.get (H.reqV p)) ∧ (s.hub.flag (H.reqPps p) = false) :=
  ⟨st [(O.attachState 5, 4), (O.powerRole 5, 2), (H.pdx 5, 2), (H.reqI 5, 4000), (H.reqV 5, 20000), (O.sinkOnMv 5, 9000)], 5, by decide +kernel⟩

set_option maxRecDepth 1000000 in
theorem test_contractAsSink_4 : ∃ (s : State) (p : Port), (s.hub.takesPd p = true) ∧ (s.hub.isSource p = false) ∧ (s.hub.get (H.pdx p) = 6) ∧ (s.hub.flag (H.swapOwn p) = true) ∧ (s.hub.get (O.dataRole p) = 1 ∨ s.hub.get (O.dataRole p) = 2) :=
  ⟨st [(O.attachState 5, 4), (O.powerRole 5, 2), (H.pdx 5, 6), (H.swapOwn 5, 1), (O.dataRole 5, 2)], 5, by decide +kernel⟩

set_option maxRecDepth 1000000 in
theorem test_contractAsSink_5 : ∃ (s : State) (p : Port), (s.hub.takesPd p = true) ∧ (s.hub.isSource p = false) ∧ (s.hub.get (H.pdx p) = 3) ∧ (s.hub.get (H.reqEpr p) ≤ 1) ∧ (s.hub.get (H.reqV p) < 2 ^ 32) ∧ (s.hub.get (H.reqI p) < 2 ^ 16) ∧ (s.hub.flag (H.srcEprCap p) = false) ∧ (Settled s.hub p) :=
  ⟨st [(O.attachState 5, 4), (O.powerRole 5, 2), (H.pdx 5, 3), (H.reqV 5, 9000), (H.reqI 5, 3000)], 5, by decide +kernel⟩

set_option maxRecDepth 1000000 in
theorem test_contractAsSink_6 : ∃ (s : State) (p : Port), (s.hub.takesPd p = true) ∧ (s.hub.isSource p = false) ∧ (s.hub.flag (H.ppsNow p) = true) ∧ (s.hub.flag (H.childAsleep p) = false) ∧ (s.hub.get (H.pdx p) = 0) :=
  ⟨st [(O.attachState 5, 4), (O.powerRole 5, 2), (H.ppsNow 5, 1)], 5, by decide +kernel⟩

set_option maxRecDepth 1000000 in
theorem test_contractAsSink_7 : ∃ (s : State) (p : Port), (s.hub.takesPd p = true) ∧ (s.hub.isSource p = false) ∧ (s.hub.flag (H.inEpr p) = true) ∧ (s.hub.flag (H.childAsleep p) = false) :=
  ⟨st [(O.attachState 5, 4), (O.powerRole 5, 2), (H.inEpr 5, 1)], 5, by decide +kernel⟩

theorem test_contractAsSource_1 : ∃ (s : State) (p : Port) (epr : Bool) (rdo : BitVec 32) (pdo : Nat), (s.hub.takesPd p = true) ∧ (s.hub.isSource p = true) ∧ (s.hub.get (H.pdx p) ≤ 1) ∧ (1 ≤ bits rdo.toNat 28 4) ∧ ((s.hub.sourcePdos p (s.hub.flag (H.inEpr p))).getD (bits rdo.toNat 28 4 - 1) 0 = pdo) ∧ (bits pdo 30 2 = 0) ∧ (pdo ≠ 0) ∧ (bits rdo.toNat 10 10 ≤ bits pdo 0 10) ∧ (bits rdo.toNat 0 10 ≤ bits pdo 0 10) :=
  ⟨st [(O.attachState 5, 3), (O.powerRole 5, 1)], 5, false, 0x10000064, (st [(O.attachState 5, 3), (O.powerRole 5, 1)]).hub.sourcePdos 5 false |>.getD 0 0, by decide +kernel⟩

set_option maxRecDepth 1000000 in
theorem test_contractAsSource_2 : ∃ (s : State) (p : Port) (epr : Bool) (rdo : BitVec 32), (s.hub.takesPd p = true) ∧ (s.hub.isSource p = true) ∧ (s.hub.get (H.pdx p) ≤ 1) ∧ (Settled s.hub p) ∧ (bits rdo.toNat 28 4 = 0) :=
  ⟨st [(O.attachState 5, 3), (O.powerRole 5, 1)], 5, false, 0, by decide +kernel⟩

set_option maxRecDepth 1000000 in
theorem test_contractAsSource_3 : ∃ (s : State) (p : Port), (s.hub.takesPd p = true) ∧ (s.hub.isSource p = true) ∧ (s.hub.get (H.pdx p) = 0) ∧ (s.hub.eprAllowed p = true) :=
  ⟨st [(O.attachState 5, 3), (O.powerRole 5, 1), (O.eprEnable 5, 1), (O.cableEpr 5, 1), (O.cableCurrent 5, 5000), (O.contractState 5, 2), (H.sinkEprCap 5, 1)], 5, by decide +kernel⟩

set_option maxRecDepth 1000000 in
theorem test_contractAsSource_4 : ∃ (s : State) (p : Port), (s.hub.takesPd p = true) ∧ (s.hub.isSource p = true) ∧ (s.hub.get (H.pdx p) = 0) ∧ (s.hub.eprAllowed p = false) :=
  ⟨st [(O.attachState 5, 3), (O.powerRole 5, 1)], 5, by decide +kernel⟩

set_option maxRecDepth 1000000 in
theorem test_contractAsSource_5 : ∃ (s : State) (p : Port), (s.hub.takesPd p = true) ∧ (s.hub.get (O.attachState p) = 4) ∧ (s.hub.flag (H.inEpr p) = true) :=
  ⟨st [(O.attachState 5, 4), (O.powerRole 5, 2), (H.inEpr 5, 1)], 5, by decide +kernel⟩

set_option maxRecDepth 1000000 in
theorem test_contractAsSource_6 : ∃ (s : State) (p : Port), (s.hub.takesPd p = true) ∧ (s.hub.isSource p = true) ∧ (s.hub.flag (H.inEpr p) = true) :=
  ⟨st [(O.attachState 5, 3), (O.powerRole 5, 1), (H.inEpr 5, 1)], 5, by decide +kernel⟩

set_option maxRecDepth 1000000 in
theorem test_contractAsSource_7 : ∃ (s : State) (p : Port), (s.hub.pdOn = true) ∧ (s.hub.get (H.pdx p) = 4) ∧ (s.hub.get (H.reqV p) < 2 ^ 32) :=
  ⟨st [(H.pdx 5, 4), (H.reqV 5, 9000)], 5, by decide +kernel⟩

set_option maxRecDepth 1000000 in
theorem test_contractAsSource_8 : ∃ (s : State) (p : Port), (s.hub.get (O.attachState p) = 3) ∧ (s.hub.isSource p = true) ∧ (s.hub.get (O.contractState p) = 1) ∧ (s.hub.flag (H.pdSeen p) = false) ∧ (s.hub.get (O.srcPathState p) = 2) ∧ (s.hub.pdOn = true) ∧ (50 ≤ s.hub.get (H.capCount p)) :=
  ⟨st [(O.attachState 5, 3), (O.powerRole 5, 1), (O.contractState 5, 1), (O.srcPathState 5, 2), (H.capCount 5, 50)], 5, by decide +kernel⟩

set_option maxRecDepth 1000000 in
theorem test_contractAsSource_9 : ∃ (s : State) (p : Port), (s.hub.get (O.attachState p) = 3) ∧ (s.hub.isSource p = true) ∧ (s.hub.get (O.contractState p) = 1) ∧ (s.hub.flag (H.pdSeen p) = false) ∧ (s.hub.get (O.srcPathState p) = 2) ∧ (s.hub.pdOn = true) ∧ (s.hub.get (H.capCount p) < 50) :=
  ⟨st [(O.attachState 5, 3), (O.powerRole 5, 1), (O.contractState 5, 1), (O.srcPathState 5, 2), (H.capCount 5, 49)], 5, by decide +kernel⟩

set_option maxRecDepth 1000000 in
theorem test_contractAsSource_10 : ∃ (s : State) (p : Port), (s.hub.pdOn = true) ∧ (s.hub.get (H.stage1Cut p) = 1) ∧ (s.hub.isSource p = true) ∧ (s.hub.explicit p = true) ∧ (s.hub.get (O.contractV p) * s.hub.get (O.contractI p) ≤ 15000000) :=
  ⟨st [(O.powerRole 5, 1), (H.stage1Cut 5, 1), (O.contractState 5, 2), (O.contractV 5, 5000), (O.contractI 5, 3000)], 5, by decide +kernel⟩

set_option maxRecDepth 1000000 in
theorem test_contractAsSource_11 : ∃ (s : State) (lvl : Level) (p : Port) (v : BitVec 16), (s.hub.domainsOn = true) ∧ (Engineers lvl) ∧ (s.hub.handingOver = false) ∧ (s.hub.get (O.attachState p) ≠ 3) ∧ (500 ≤ v.toNat ∧ v.toNat ≤ 5000) ∧ (s.hub.inRom = false) :=
  ⟨st [], .engineer, 5, 5000, by decide +kernel⟩

set_option maxRecDepth 1000000 in
theorem test_contractAsSource_12 : ∃ (s : State) (lvl : Level) (p : Port) (v : BitVec 16), (s.hub.domainsOn = true) ∧ (Engineers lvl) ∧ (s.hub.handingOver = false) ∧ (v.toNat < 15 ∨ 240 < v.toNat) ∧ (s.hub.inRom = false) :=
  ⟨st [], .owner, 5, 241, by decide +kernel⟩

set_option maxRecDepth 1000000 in
theorem test_contractAsSource_13 : ∃ (s : State) (p : Port) (epr : Bool) (rdo : BitVec 32) (pdo : Nat), (s.hub.takesPd p = true) ∧ (s.hub.isSource p = true) ∧ (s.hub.get (H.pdx p) ≤ 1) ∧ (Settled s.hub p) ∧ (1 ≤ bits rdo.toNat 28 4) ∧ ((s.hub.sourcePdos p (s.hub.flag (H.inEpr p))).getD (bits rdo.toNat 28 4 - 1) 0 = pdo) ∧ (pdo = 0 ∨ bits pdo 30 2 ≠ 0 ∨ bits pdo 0 10 < bits rdo.toNat 10 10 ∨ bit rdo.toNat 26 = false ∧ bits pdo 0 10 < bits rdo.toNat 0 10) :=
  ⟨st [(O.attachState 23, 3), (O.powerRole 23, 1)], 23, false, 0xF0000000, 0, by decide +kernel⟩

set_option maxRecDepth 1000000 in
theorem test_contractAsSource_14 : ∃ (s : State) (p : Port), (s.hub.pdOn = true) ∧ (s.hub.get (H.stage1Cut p) = 1) ∧ (s.hub.isSource p = true) ∧ (s.hub.explicit p = false ∨ 15000000 < s.hub.get (O.contractV p) * s.hub.get (O.contractI p)) ∧ (s.hub.get (O.hardResetsSent p) + 1 < 2 ^ 32) ∧ (bits (s.hub.get (O.attachRoles p)) 0 2 = 1) :=
  ⟨st [(H.stage1Cut 23, 1), (O.powerRole 23, 1), (O.attachRoles 23, 0x15)], 23, by decide +kernel⟩

theorem test_pdResets_1 : ∃ (s : State) (p : Port), (s.hub.takesPd p = true) ∧ (s.hub.isSource p = false) ∧ (s.hub.get (H.pdx p) = 0) ∧ (Settled s.hub p) ∧ (s.hub.flag (H.swapOwn p) = false) ∧ (s.hub.flag (H.childAsleep p) = false) :=
  ⟨st [(O.attachState 5, 4), (O.powerRole 5, 2)], 5, by decide +kernel⟩

set_option maxRecDepth 1000000 in
theorem test_pdResets_2 : ∃ (s : State) (p : Port), (s.hub.takesPd p = true) ∧ (s.hub.get (H.hrSent p) ≠ 1) ∧ (s.hub.get (O.attachRoles p) = 10) :=
  ⟨st [(O.attachState 5, 3), (O.powerRole 5, 1), (O.attachRoles 5, 10)], 5, by decide +kernel⟩

set_option maxRecDepth 1000000 in
theorem test_pdResets_3 : ∃ (s : State) (p : Port), (s.hub.pdOn = true) ∧ (s.hub.get (H.hrSent p) = 1) :=
  ⟨st [(H.hrSent 5, 1)], 5, by decide +kernel⟩

set_option maxRecDepth 1000000 in
theorem test_pdResets_4 : ∃ (s : State) (p : Port), (s.hub.pdOn = true) ∧ (s.hub.get (H.pdx p) = 2) ∧ (s.hub.flag (H.childAsleep p) = false) ∧ (s.hub.normal p = true) ∧ (s.hub.get (O.contractState p) ≠ 4) ∧ (s.hub.get (O.softResets p) < 2 ^ 32 - 1) :=
  ⟨st [(H.pdx 5, 2)], 5, by decide +kernel⟩

set_option maxRecDepth 1000000 in
theorem test_pdResets_5 : ∃ (s : State) (p : Port), (s.hub.pdOn = true) ∧ (s.hub.get (H.pdx p) = 1) ∧ (s.hub.flag (H.pdSeen p) = false) ∧ (Settled s.hub p) ∧ (s.hub.flag (H.swapOwn p) = false) :=
  ⟨st [(H.pdx 5, 1)], 5, by decide +kernel⟩

set_option maxRecDepth 1000000 in
theorem test_pdResets_6 : ∃ (s : State) (p : Port), (s.hub.pdOn = true) ∧ ((s.hub.get (H.pdx p) = 3 ∧ s.hub.normal p = true) ∨ s.hub.get (H.pdx p) = 9 ∨ s.hub.get (H.pdx p) = 10 ∨ s.hub.get (H.pdx p) = 11) ∧ (s.hub.get (O.attachRoles p) = 21) :=
  ⟨st [(H.pdx 5, 11), (O.attachRoles 5, 21)], 5, by decide +kernel⟩

set_option maxRecDepth 1000000 in
theorem test_pdResets_7 : ∃ (s : State) (p : Port), (s.hub.pdOn = true) ∧ (s.hub.attached p = true) ∧ (s.hub.get (O.contractState p) = 1) ∧ (s.hub.get (O.hardResetRun p) = 3) :=
  ⟨st [(O.attachState 5, 3), (O.contractState 5, 1), (O.hardResetRun 5, 3)], 5, by decide +kernel⟩

set_option maxRecDepth 1000000 in
theorem test_pdResets_8 : ∃ (s : State) (p : Port), (s.hub.pdOn = true) ∧ (s.hub.get (H.srcRecover p) = 1) ∧ (s.hub.flag (H.vconnSource p) = false) :=
  ⟨st [(H.srcRecover 5, 1), (O.powerRole 5, 1)], 5, by decide +kernel⟩

set_option maxRecDepth 1000000 in
theorem test_pdResets_9 : ∃ (s : State) (p : Port), (s.hub.takesPd p = true) ∧ (s.hub.isSource p = true) ∧ (s.hub.flag (H.inEpr p) = true) ∧ (s.hub.normal p = true) ∧ (s.hub.get (O.attachRoles p) = 21) :=
  ⟨st [(O.attachState 5, 3), (O.powerRole 5, 1), (H.inEpr 5, 1), (O.attachRoles 5, 21)], 5, by decide +kernel⟩

set_option maxRecDepth 1000000 in
theorem test_pdResets_10 : ∃ (s : State) (p : Port) (sop : Fin 3), (s.hub.pdOn = true) ∧ (s.hub.get (H.goodCrc p sop) < 2) ∧ (sop = 0 ∨ s.hub.get (O.vconnState p) = 1) :=
  ⟨st [(H.goodCrc 5 1, 1), (O.vconnState 5, 1)], 5, 1, by decide +kernel⟩

set_option maxRecDepth 1000000 in
theorem test_pdResets_11 : ∃ (s : State) (p : Port) (sop : Fin 3), (s.hub.pdOn = true) ∧ (2 ≤ s.hub.get (H.goodCrc p sop) ∨ s.hub.get (O.vconnState p) ≠ 1) ∧ (sop ≠ 0) :=
  ⟨st [(H.goodCrc 5 1, 2)], 5, 1, by decide +kernel⟩

theorem test_swapCommands_1 : ∃ (s : State) (p : Port), (s.hub.takesPd p = true) ∧ (s.hub.isSource p = true) ∧ (s.hub.get (H.pdx p) = 0) ∧ (s.hub.get (O.modeState p) = 0) ∧ (bit (s.hub.get (O.swapAccept p)) 0 = true) ∧ (2 ≤ s.hub.get (O.policy p)) :=
  ⟨st [(O.attachState 5, 3), (O.powerRole 5, 1), (O.swapAccept 5, 7), (O.policy 5, 2)], 5, by decide +kernel⟩

set_option maxRecDepth 1000000 in
theorem test_swapCommands_2 : ∃ (s : State) (p : Port), (s.hub.takesPd p = true) ∧ (s.hub.get (H.pdx p) = 0) ∧ (s.hub.get (O.modeState p) = 2) :=
  ⟨st [(O.attachState 5, 3), (O.powerRole 5, 1), (O.modeState 5, 2)], 5, by decide +kernel⟩

set_option maxRecDepth 1000000 in
theorem test_swapCommands_3 : ∃ (s : State) (p : Port), (s.hub.takesPd p = true) ∧ (s.hub.get (H.pdx p) = 0) ∧ (s.hub.get (O.modeState p) = 0) ∧ (bit (s.hub.get (O.swapAccept p)) 1 = true) ∧ (2 ≤ s.hub.get (O.policy p)) ∧ (s.hub.get (O.dataRole p) = 1 ∨ s.hub.get (O.dataRole p) = 2) :=
  ⟨st [(O.attachState 5, 3), (O.powerRole 5, 1), (O.dataRole 5, 1), (O.swapAccept 5, 7), (O.policy 5, 2)], 5, by decide +kernel⟩

set_option maxRecDepth 1000000 in
theorem test_swapCommands_4 : ∃ (s : State) (p : Port), (s.hub.takesPd p = true) ∧ (s.hub.exchanging p = false) ∧ (s.hub.inRom = false) ∧ (bit (s.hub.get (O.swapAccept p)) 2 = true) ∧ (s.hub.get (O.vconnState p) ≠ 2) ∧ (s.hub.flag (H.vconnSource p) = true) :=
  ⟨st [(O.attachState 5, 3), (O.powerRole 5, 1), (H.vconnSource 5, 1), (O.swapAccept 5, 7)], 5, by decide +kernel⟩

set_option maxRecDepth 1000000 in
theorem test_swapCommands_5 : ∃ (s : State) (lvl : Level) (p : Port), (s.hub.domainsOn = true) ∧ (Engineers lvl) ∧ (s.hub.handingOver = false) ∧ (s.hub.takesPd p = true) ∧ (s.hub.get (H.pdx p) = 0) ∧ (s.hub.get (O.modeState p) = 0) ∧ (s.hub.get (O.swapRequest p) = 0) ∧ (s.hub.inRom = false) ∧ (s.hub.flag (H.childAsleep p) = false) :=
  ⟨st [(O.attachState 5, 3), (O.powerRole 5, 1)], .engineer, 5, by decide +kernel⟩

set_option maxRecDepth 1000000 in
theorem test_swapCommands_6 : ∃ (s : State) (lvl : Level) (p : Port), (s.hub.domainsOn = true) ∧ (Engineers lvl) ∧ (s.hub.handingOver = false) ∧ (s.hub.get (O.modeState p) = 2) ∧ (s.hub.inRom = false) :=
  ⟨st [(O.modeState 5, 2)], .engineer, 5, by decide +kernel⟩

set_option maxRecDepth 1000000 in
theorem test_swapCommands_7 : ∃ (s : State) (lvl : Level) (p : Port), (s.hub.domainsOn = true) ∧ (Engineers lvl) ∧ (s.hub.handingOver = false) ∧ (s.hub.takesPd p = true) ∧ (s.hub.get (H.pdx p) = 0) ∧ (s.hub.get (O.modeState p) = 0) ∧ (s.hub.get (O.swapRequest p) = 0) ∧ (s.hub.inRom = false) ∧ (s.hub.flag (H.childAsleep p) = false) :=
  ⟨st [(O.attachState 5, 3), (O.powerRole 5, 1)], .engineer, 5, by decide +kernel⟩

set_option maxRecDepth 1000000 in
theorem test_swapCommands_8 : ∃ (s : State) (lvl : Level) (p : Port), (s.hub.domainsOn = true) ∧ (Engineers lvl) ∧ (s.hub.handingOver = false) ∧ (s.hub.takesPd p = true) ∧ (s.hub.get (H.pdx p) = 0) ∧ (s.hub.get (O.modeState p) = 2) ∧ (s.hub.get (O.swapRequest p) = 0) ∧ (s.hub.inRom = false) ∧ (s.hub.flag (H.childAsleep p) = false) :=
  ⟨st [(O.attachState 5, 3), (O.powerRole 5, 1), (O.modeState 5, 2)], .engineer, 5, by decide +kernel⟩

set_option maxRecDepth 1000000 in
theorem test_swapCommands_9 : ∃ (s : State) (p : Port), (s.hub.takesPd p = true) ∧ (s.hub.isSource p = false) ∧ (s.hub.get (H.pdx p) = 5 ∨ s.hub.get (H.pdx p) = 6 ∨ s.hub.get (H.pdx p) = 7) :=
  ⟨st [(O.attachState 5, 4), (O.powerRole 5, 2), (H.pdx 5, 7)], 5, by decide +kernel⟩

set_option maxRecDepth 1000000 in
theorem test_swapCommands_10 : ∃ (s : State) (p : Port), (s.hub.takesPd p = true) ∧ (s.hub.isSource p = false) ∧ (s.hub.get (H.pdx p) = 5 ∨ s.hub.get (H.pdx p) = 6 ∨ s.hub.get (H.pdx p) = 7) :=
  ⟨st [(O.attachState 5, 4), (O.powerRole 5, 2), (H.pdx 5, 5), (O.swapRequest 5, 1)], 5, by decide +kernel⟩

set_option maxRecDepth 1000000 in
theorem test_swapCommands_11 : ∃ (s : State) (p : Port), (s.hub.takesPd p = true) ∧ (s.hub.flag (H.swapWait p) = true) ∧ (s.hub.get (O.swapRequest p) = 2) ∧ (s.hub.get (H.swapTries p) < s.hub.get (O.swapRetries p)) ∧ (s.hub.get (H.pdx p) = 0) ∧ (s.hub.get (O.modeState p) = 0) ∧ (s.hub.flag (H.childAsleep p) = false) :=
  ⟨st [(O.attachState 5, 3), (O.powerRole 5, 1), (H.swapWait 5, 1), (O.swapRequest 5, 2), (O.swapRetries 5, 2)], 5, by decide +kernel⟩

set_option maxRecDepth 1000000 in
theorem test_swapCommands_12 : ∃ (s : State) (p : Port), (s.hub.takesPd p = true) ∧ (s.hub.get (H.swapWait p) = 1) ∧ (s.hub.get (O.swapRequest p) ≠ 0) ∧ (s.hub.exchanging p = false) ∧ (s.hub.flag (H.childAsleep p) = false) ∧ (s.hub.get (O.swapRetries p) ≤ s.hub.get (H.swapTries p)) :=
  ⟨st [(O.attachState 5, 3), (O.powerRole 5, 1), (H.swapWait 5, 1), (O.swapRequest 5, 2), (O.swapRetries 5, 0)], 5, by decide +kernel⟩

set_option maxRecDepth 1000000 in
theorem test_cableAndQueries_1 : ∃ (s : State) (p : Port), (s.hub.flag (H.vconnSource p) = true) ∧ (s.hub.get (O.vconnState p) = 1) ∧ (s.hub.pdOn = true) :=
  ⟨st [(H.vconnSource 5, 1), (O.vconnState 5, 1)], 5, by decide +kernel⟩

set_option maxRecDepth 1000000 in
theorem test_cableAndQueries_2 : ∃ (s : State) (p : Port), (s.hub.flag (H.vconnSource p) = true) ∧ (s.hub.get (O.vconnState p) = 1) ∧ (s.hub.pdOn = true) ∧ (s.hub.flag (H.cableAsked p) = true) ∧ (3 ≤ s.hub.get (H.cableTries p)) ∧ (s.hub.get (O.attachState p) = 4) :=
  ⟨st [(O.attachState 5, 4), (H.vconnSource 5, 1), (O.vconnState 5, 1), (H.cableAsked 5, 1), (H.cableTries 5, 3)], 5, by decide +kernel⟩

set_option maxRecDepth 1000000 in
theorem test_cableAndQueries_3 : ∃ (s : State) (p : Port) (m : CableMarker), (s.hub.flag (H.vconnSource p) = true) ∧ (s.hub.get (O.vconnState p) = 1) ∧ (s.hub.pdOn = true) ∧ (m.sopPP = false) ∧ (m.active = false) ∧ (s.hub.get (O.attachState p) = 4) ∧ (m.speed ≠ 0) :=
  ⟨st [(O.attachState 5, 4), (H.vconnSource 5, 1), (O.vconnState 5, 1)], 5, ⟨false, 0, 77, false, false, true, 3, true, 4⟩, by decide +kernel⟩

set_option maxRecDepth 1000000 in
theorem test_cableAndQueries_4 : ∃ (s : State) (p : Port) (ma : BitVec 16), (s.hub.pdOn = true) ∧ (s.hub.get (O.vconnState p) = 1) ∧ (350 < ma.toNat) :=
  ⟨st [(O.vconnState 5, 1)], 5, 351, by decide +kernel⟩

set_option maxRecDepth 1000000 in
theorem test_cableAndQueries_5 : ∃ (s : State) (p : Port) (ma : BitVec 16), (s.hub.pdOn = true) ∧ (s.hub.get (O.vconnState p) = 1) ∧ (ma.toNat ≤ 350) :=
  ⟨st [(O.vconnState 5, 1)], 5, 350, by decide +kernel⟩

set_option maxRecDepth 1000000 in
theorem test_cableAndQueries_6 : ∃ (s : State) (p : Port), (s.hub.takesPd p = true) ∧ (s.hub.isSource p = false) :=
  ⟨st [(O.attachState 5, 4), (O.powerRole 5, 2)], 5, by decide +kernel⟩

set_option maxRecDepth 1000000 in
theorem test_cableAndQueries_7 : ∃ (s : State) (p : Port), (s.hub.takesPd p = true) :=
  ⟨st [(O.attachState 5, 4), (O.powerRole 5, 2)], 5, by decide +kernel⟩

set_option maxRecDepth 1000000 in
theorem test_cableAndQueries_8 : ∃ (s : State) (p : Port), (s.hub.takesPd p = true) :=
  ⟨st [(O.attachState 5, 4), (O.powerRole 5, 2)], 5, by decide +kernel⟩

set_option maxRecDepth 1000000 in
theorem test_cableAndQueries_9 : ∃ (s : State) (p : Port), (s.hub.takesPd p = true) :=
  ⟨st [(O.attachState 5, 4), (O.powerRole 5, 2)], 5, by decide +kernel⟩

set_option maxRecDepth 1000000 in
theorem test_cableAndQueries_10 : ∃ (s : State) (p : Port) (m : BitVec 8), (s.hub.takesPd p = true) :=
  ⟨st [(O.attachState 5, 4), (O.powerRole 5, 2)], 5, 3, by decide +kernel⟩

set_option maxRecDepth 1000000 in
theorem test_cableAndQueries_11 : ∃ (s : State) (p : Port) (sop : Fin 3) (m : BitVec 8), (s.hub.pdOn = true) ∧ (sop ≠ 0) :=
  ⟨st [], 5, 1, 3, by decide +kernel⟩

theorem test_modeEntryCommands_1 : ∃ (s : State) (p : Port), (s.hub.takesPd p = true) :=
  ⟨st [(O.attachState 5, 4), (O.powerRole 5, 2)], 5, by decide +kernel⟩

set_option maxRecDepth 1000000 in
theorem test_modeEntryCommands_2 : ∃ (s : State) (p : Port), (s.hub.takesPd p = true) :=
  ⟨st [(O.attachState 5, 4), (O.powerRole 5, 2)], 5, by decide +kernel⟩

set_option maxRecDepth 1000000 in
theorem test_modeEntryCommands_3 : ∃ (s : State) (p : Port) (svid : BitVec 16), (s.hub.takesPd p = true) ∧ (svid = 0x3B5E) :=
  ⟨st [(O.attachState 5, 4), (O.powerRole 5, 2)], 5, 0x3B5E, by decide +kernel⟩

set_option maxRecDepth 1000000 in
theorem test_modeEntryCommands_4 : ∃ (s : State) (p : Port) (svid : BitVec 16), (s.hub.pdOn = true) ∧ (svid ≠ 0x3B5E) :=
  ⟨st [], 5, 0x3B5F, by decide +kernel⟩

set_option maxRecDepth 1000000 in
theorem test_modeEntryCommands_5 : ∃ (s : State) (p : Port) (vdo : BitVec 32), (s.hub.takesPd p = true) ∧ (s.hub.get (O.dataRole p) = 2) ∧ (bits vdo.toNat 8 8 = 1) ∧ (s.hub.flag (O.epxEnable p) = true) ∧ (s.hub.modeAllowed p = true) :=
  ⟨st [(O.attachState 5, 4), (O.powerRole 5, 2), (O.dataRole 5, 2)], 5, 0x100, by decide +kernel⟩

set_option maxRecDepth 1000000 in
theorem test_modeEntryCommands_6 : ∃ (s : State) (p : Port) (vdo : BitVec 32), (s.hub.takesPd p = true) ∧ (s.hub.get (O.dataRole p) = 2) ∧ (bits vdo.toNat 8 8 = 1) ∧ (s.hub.flag (O.epxEnable p) = false) :=
  ⟨st [(O.attachState 5, 4), (O.powerRole 5, 2), (O.dataRole 5, 2), (O.epxEnable 5, 0)], 5, 0x100, by decide +kernel⟩

set_option maxRecDepth 1000000 in
theorem test_modeEntryCommands_7 : ∃ (s : State) (p : Port), (s.hub.takesPd p = true) ∧ (s.hub.get (O.modeState p) = 2) ∧ (s.hub.get (O.trainState p) ≠ 11) ∧ (s.hub.get (O.linkState p) = 1) :=
  ⟨st [(O.attachState 5, 4), (O.powerRole 5, 2), (O.modeState 5, 2), (O.linkState 5, 1)], 5, by decide +kernel⟩

set_option maxRecDepth 1000000 in
theorem test_modeEntryCommands_8 : ∃ (s : State) (p : Port) (vdo : BitVec 32), (s.hub.takesPd p = true) ∧ (s.hub.get (O.dataRole p) = 1) ∧ (s.hub.get (O.modeState p) = 2) ∧ (bits vdo.toNat 0 8 = 1) :=
  ⟨st [(O.attachState 5, 3), (O.powerRole 5, 1), (O.dataRole 5, 1), (O.modeState 5, 2)], 5, 1, by decide +kernel⟩

set_option maxRecDepth 1000000 in
theorem test_modeEntryCommands_9 : ∃ (s : State) (p : Port), (s.hub.flag (H.modeDelayOn p) = true) ∧ (s.hub.takesPd p = true) ∧ (s.hub.explicit p = true) ∧ (s.hub.get (O.dataRole p) = 1) ∧ (s.hub.get (O.modeState p) = 0) ∧ (s.hub.get (H.pdx p) = 0) ∧ (s.hub.flag (O.epxEnable p) = true) ∧ (s.hub.get (O.cableState p) = 1) ∧ (s.hub.get (O.entryResult p) = 0) ∧ (s.hub.modeAllowed p = true) :=
  ⟨st [(O.attachState 5, 3), (O.powerRole 5, 1), (O.dataRole 5, 1), (H.modeDelayOn 5, 1), (O.contractState 5, 2), (O.cableState 5, 1)], 5, by decide +kernel⟩

set_option maxRecDepth 1000000 in
theorem test_modeEntryCommands_10 : ∃ (s : State) (p : Port) (x : BitVec 32), (s.hub.pdOn = true) ∧ (s.hub.get (H.vdmStep p) = 1) ∧ (s.hub.modeAllowed p = true) :=
  ⟨st [(H.vdmStep 5, 1)], 5, 9, by decide +kernel⟩

set_option maxRecDepth 1000000 in
theorem test_modeEntryCommands_11 : ∃ (s : State) (p : Port) (xs : List (BitVec 16)), (s.hub.pdOn = true) ∧ (s.hub.get (H.vdmStep p) = 2) ∧ (s.hub.modeAllowed p = true) ∧ ((0x3B5E : BitVec 16) ∈ xs) :=
  ⟨st [(H.vdmStep 5, 2)], 5, [1, 0x3B5E], by decide +kernel⟩

set_option maxRecDepth 1000000 in
theorem test_modeEntryCommands_12 : ∃ (s : State) (p : Port) (xs : List (BitVec 16)), (s.hub.pdOn = true) ∧ (s.hub.get (H.vdmStep p) = 2) ∧ (s.hub.modeAllowed p = true) ∧ ((0x3B5E : BitVec 16) ∉ xs) ∧ (Settled s.hub p) :=
  ⟨st [(H.vdmStep 5, 2), (O.modeState 5, 1)], 5, [1], by decide +kernel⟩

set_option maxRecDepth 1000000 in
theorem test_modeEntryCommands_13 : ∃ (s : State) (p : Port), (s.hub.pdOn = true) ∧ (s.hub.explicit p = true) ∧ (s.hub.get (O.dataRole p) = 2) ∧ (s.hub.get (O.modeState p) = 0) ∧ (s.hub.get (O.entryResult p) = 0) ∧ (s.hub.flag (H.entryWaitOn p) = true) :=
  ⟨st [(O.contractState 5, 2), (O.dataRole 5, 2), (H.entryWaitOn 5, 1)], 5, by decide +kernel⟩

set_option maxRecDepth 1000000 in
theorem test_modeEntryCommands_14 : ∃ (s : State) (p : Port), (s.hub.pdOn = true) ∧ (s.hub.get (H.vdmStep p) = 3) ∧ (s.hub.get (H.vdmTries p) < 3) :=
  ⟨st [(H.vdmStep 5, 3)], 5, by decide +kernel⟩

set_option maxRecDepth 1000000 in
theorem test_modeEntryCommands_15 : ∃ (s : State) (p : Port), (s.hub.pdOn = true) ∧ (s.hub.get (H.vdmStep p) = 3) ∧ (3 ≤ s.hub.get (H.vdmTries p)) ∧ (Settled s.hub p) :=
  ⟨st [(H.vdmStep 5, 3), (H.vdmTries 5, 3), (O.modeState 5, 1)], 5, by decide +kernel⟩

set_option maxRecDepth 1000000 in
theorem test_modeEntryCommands_16 : ∃ (s : State) (lvl : Level) (p : Port), (s.hub.domainsOn = true) ∧ (Engineers lvl) ∧ (s.hub.handingOver = false) ∧ (s.hub.get (O.modeState p) = 2) ∧ (s.hub.get (O.dataRole p) = 1) ∧ (s.hub.inRom = false) ∧ (s.hub.flag (H.childAsleep p) = false) :=
  ⟨st [(O.modeState 5, 2), (O.dataRole 5, 1)], .engineer, 5, by decide +kernel⟩

set_option maxRecDepth 1000000 in
theorem test_modeEntryCommands_17 : ∃ (s : State) (lvl : Level) (p : Port), (s.hub.domainsOn = true) ∧ (Engineers lvl) ∧ (s.hub.handingOver = false) ∧ (s.hub.explicit p = false) ∧ (s.hub.inRom = false) :=
  ⟨st [(O.epxEnable 5, 0)], .engineer, 5, by decide +kernel⟩

theorem test_headWrites_1 : ∃ (s : State) (lvl : Level) (x : Head), (s.hub.domainsOn = true) ∧ (Engineers lvl) ∧ (s.hub.flag (O.pairLock x) = false) ∧ (s.hub.follows x = false) ∧ (s.hub.modeBarred x 3 = false) ∧ (s.hub.get (O.headMode x) ≠ 3) ∧ (s.hub.get O.sagStage < 4) ∧ (s.hub.inRom = false) ∧ (s.hub.handingOver = false) :=
  ⟨st [], .engineer, 1, by decide +kernel⟩

set_option maxRecDepth 1000000 in
theorem test_headWrites_2 : ∃ (s : State) (lvl : Level) (x : Head) (v : BitVec 8), (s.hub.domainsOn = true) ∧ (Engineers lvl) ∧ (s.hub.flag (O.pairLock x) = false) ∧ (s.hub.follows x = false) ∧ (v = 0 ∨ v = 2 ∨ v = 3 ∨ (v = 1 ∧ s.hub.timingValid x = true)) ∧ (s.hub.modeBarred x v.toNat = false) ∧ (s.hub.get (O.headMode x) ≠ v.toNat) ∧ (4 ≤ s.hub.get O.sagStage) ∧ (s.hub.inRom = false) ∧ (s.hub.handingOver = false) :=
  ⟨st [(O.sagStage, 4)], .engineer, 1, 2, by decide +kernel⟩

set_option maxRecDepth 1000000 in
theorem test_headWrites_3 : ∃ (s : State) (lvl : Level) (x : Head) (v : BitVec 8), (s.hub.domainsOn = true) ∧ (Engineers lvl) ∧ (3 < v.toNat) ∧ (s.hub.inRom = false) ∧ (s.hub.handingOver = false) :=
  ⟨st [], .engineer, 1, 4, by decide +kernel⟩

set_option maxRecDepth 1000000 in
theorem test_headWrites_4 : ∃ (s : State) (lvl : Level) (x : Head) (i : Fin 10) (v : BitVec 32), (s.hub.domainsOn = true) ∧ (Engineers lvl) ∧ (s.hub.get (O.headMode x) ≠ 1) ∧ (s.hub.get (O.headState x) ≠ 4) ∧ (s.hub.get (O.headState x) ≠ 5) ∧ (v.toNat < (timingObj x i).cap) ∧ (i ≠ 9) ∧ (s.hub.inRom = false) ∧ (s.hub.handingOver = false) :=
  ⟨st [], .owner, 3, 1, 3840, by decide +kernel⟩

set_option maxRecDepth 1000000 in
theorem test_headWrites_5 : ∃ (s : State) (lvl : Level) (x : Head) (i : Fin 10) (v : BitVec 32), (s.hub.domainsOn = true) ∧ (Engineers lvl) ∧ (s.hub.get (O.headMode x) = 1) ∧ (s.hub.inRom = false) ∧ (s.hub.handingOver = false) :=
  ⟨st [(O.headMode 3, 1)], .owner, 3, 1, 3840, by decide +kernel⟩

set_option maxRecDepth 1000000 in
theorem test_headWrites_6 : ∃ (s : State) (lvl : Level) (x : Head) (v : Bool), (s.hub.domainsOn = true) ∧ (Engineers lvl) ∧ (x.val % 2 = 0) ∧ (s.hub.get (O.headMode x) = 0) ∧ (s.hub.get (O.headMode (x.val + 1)) = 0) ∧ (s.hub.inRom = false) ∧ (s.hub.handingOver = false) :=
  ⟨st [], .owner, 2, true, by decide +kernel⟩

set_option maxRecDepth 1000000 in
theorem test_headWrites_7 : ∃ (s : State) (lvl : Level) (x : Head) (v : Bool), (s.hub.domainsOn = true) ∧ (Engineers lvl) ∧ (x.val % 2 = 1) ∧ (s.hub.inRom = false) ∧ (s.hub.handingOver = false) :=
  ⟨st [], .owner, 3, true, by decide +kernel⟩

set_option maxRecDepth 1000000 in
theorem test_headWrites_8 : ∃ (s : State) (lvl : Level) (x : Head) (v : BitVec 8), (s.hub.domainsOn = true) ∧ (Engineers lvl) ∧ (v.toNat ≤ 1) ∧ (s.hub.get (O.headMode x) ≠ 3) ∧ (s.hub.inRom = false) ∧ (s.hub.handingOver = false) :=
  ⟨st [], .owner, 3, 1, by decide +kernel⟩

set_option maxRecDepth 1000000 in
theorem test_headWrites_9 : ∃ (s : State) (lvl : Level) (x : Head) (v : BitVec 8), (s.hub.domainsOn = true) ∧ (Engineers lvl) ∧ (v.toNat ≤ 1) ∧ (s.hub.get (O.headMode x) = 3) ∧ (s.hub.inRom = false) ∧ (s.hub.handingOver = false) :=
  ⟨st [(O.headMode 1, 3)], .engineer, 1, 1, by decide +kernel⟩

set_option maxRecDepth 1000000 in
theorem test_headWrites_10 : ∃ (s : State) (lvl : Level) (x : Head), (s.hub.domainsOn = true) ∧ (Operators lvl) ∧ (s.hub.handingOver = false) ∧ (s.hub.flag (O.layerEnable x 0) = false) ∧ (s.hub.scansOut x = true) ∧ (s.hub.flag (H.firstEdge x) = false) ∧ (s.hub.get (O.frameSeq x) < 2 ^ 32 - 1) ∧ (s.hub.inRom = false) :=
  ⟨st [(O.headMode 3, 1), (O.frameSeq 3, 9)], .operator, 3, by decide +kernel⟩

set_option maxRecDepth 1000000 in
theorem test_headWrites_11 : ∃ (s : State) (lvl : Level) (x : Head) (v : BitVec 8), (s.hub.domainsOn = true) ∧ (Operators lvl) ∧ (s.hub.handingOver = false) ∧ (v = 0 ∨ 16 ≤ v.toNat) ∧ (s.hub.inRom = false) :=
  ⟨st [], .operator, 3, 16, by decide +kernel⟩

theorem test_headEvents_1 : ∃ (s : State) (x : Head), (s.hub.domainsOn = true) ∧ (s.hub.scansOut x = true) ∧ (s.hub.follows x = false) ∧ (s.hub.flag (O.pairLock x) = false) ∧ (s.hub.flag (H.firstEdge x) = false) ∧ (s.hub.get (O.commit x) = 0) ∧ (s.hub.get (O.frameSeq x) < 2 ^ 32 - 1) :=
  ⟨st [(O.headMode 3, 1), (O.headState 3, 2), (O.frameSeq 3, 9)], 3, by decide +kernel⟩

set_option maxRecDepth 1000000 in
theorem test_headEvents_2 : ∃ (s : State) (x : Head) (line : BitVec 16), (s.hub.domainsOn = true) ∧ (s.hub.scansOut x = true) ∧ (bit (s.hub.get (H.lateLines x 0)) line.toNat = false) ∧ (s.hub.get (O.underruns x) < 2 ^ 64 - 1) :=
  ⟨st [(O.headMode 3, 1), (O.headState 3, 2)], 3, 700, by decide +kernel⟩

set_option maxRecDepth 1000000 in
theorem test_headEvents_3 : ∃ (s : State) (x : Head) (line : BitVec 16), (s.hub.domainsOn = true) ∧ (s.hub.get (O.headMode x) = 2) ∧ (s.hub.get (O.headState x) ≠ 6) ∧ (s.hub.lineStore = []) ∧ (bit (s.hub.get (H.lateLines x (s.hub.get (H.shownFrame x) % 2))) line.toNat = false) ∧ (s.hub.get (O.underruns x) < 2 ^ 64 - 1) :=
  ⟨st [(O.headMode 3, 2)], 3, 700, by decide +kernel⟩

set_option maxRecDepth 1000000 in
theorem test_headEvents_4 : ∃ (s : State) (x : Head) (k : SinkCaps), (s.hub.domainsOn = true) ∧ (s.hub.get (O.headMode x) = 0) :=
  ⟨st [], 3, ⟨[], 4, [], 0, [], 0⟩, by decide +kernel⟩

set_option maxRecDepth 1000000 in
theorem test_headEvents_5 : ∃ (s : State) (x : Head), (s.hub.domainsOn = true) ∧ (s.hub.get (O.headMode x) = 1 ∨ s.hub.get (O.headMode x) = 2) ∧ (s.hub.get (O.headState x) ≠ 6) ∧ (s.hub.flag (H.hpdHold x) = false) :=
  ⟨st [(O.headMode 3, 1), (O.headState 3, 2)], 3, by decide +kernel⟩

set_option maxRecDepth 1000000 in
theorem test_headEvents_6 : ∃ (s : State) (x : Head) (k : SinkCaps), (s.hub.domainsOn = true) ∧ (s.hub.get (O.headMode x) = 1 ∨ s.hub.get (O.headMode x) = 2) ∧ (s.hub.flag (O.hpd x) = true) :=
  ⟨st [(O.headMode 3, 1), (O.hpd 3, 1)], 3, ⟨[], 4, [], 0, [], 0⟩, by decide +kernel⟩

set_option maxRecDepth 1000000 in
theorem test_headEvents_7 : ∃ (s : State) (x : Head) (k : SinkCaps), (s.hub.domainsOn = true) :=
  ⟨st [], 3, ⟨[], 0, [], 0, [], 0⟩, by decide +kernel⟩

set_option maxRecDepth 1000000 in
theorem test_headEvents_8 : ∃ (s : State) (x : Head), (s.hub.domainsOn = true) ∧ (s.hub.flag (H.hpdHold x) = true) ∧ (s.hub.get (O.headMode x) = 3) ∧ (s.hub.get (O.headState x) ≠ 6) :=
  ⟨st [(O.headMode 3, 3), (H.hpdHold 3, 1)], 3, by decide +kernel⟩

set_option maxRecDepth 1000000 in
theorem test_headEvents_9 : ∃ (s : State) (x : Head) (k : SinkLink), (s.hub.domainsOn = true) ∧ (s.hub.get (O.headMode x) = 3) ∧ (s.hub.flag (H.hpdHold x) = false) ∧ (s.hub.get (O.headState x) ≠ 6) ∧ (sinkLinkValid k = true) :=
  ⟨st [(O.headMode 3, 3)], 3, ⟨3, 4⟩, by decide +kernel⟩

set_option maxRecDepth 1000000 in
theorem test_headEvents_10 : ∃ (s : State) (x : Head) (link : Option SinkLink), (s.hub.domainsOn = true) ∧ (s.hub.get (O.headMode x) = 3) ∧ (s.hub.flag (H.hpdHold x) = false) ∧ (s.hub.get (O.headState x) ≠ 6) ∧ (link.filter sinkLinkValid = none) :=
  ⟨st [(O.headMode 3, 3)], 3, some ⟨4, 4⟩, by decide +kernel⟩

set_option maxRecDepth 1000000 in
theorem test_headEvents_11 : ∃ (s : State) (x : Head), (s.hub.domainsOn = true) ∧ (s.hub.get (O.streamState x) = 2) :=
  ⟨st [(O.streamState 3, 2)], 3, by decide +kernel⟩

set_option maxRecDepth 1000000 in
theorem test_headEvents_12 : ∃ (s : State) (x : Head) (l : Fin 4), (s.hub.domainsOn = true) ∧ (s.hub.scansOut x = true) ∧ (s.hub.follows x = false) ∧ (s.hub.flag (O.pairLock x) = false) ∧ (s.hub.flag (H.firstEdge x) = false) ∧ (s.hub.get (O.frameSeq x) < 2 ^ 32 - 1) ∧ (bit (s.hub.get (O.commit x)) l = true) ∧ (∀ k : Nat, k < 10 → s.hub.get (H.layer 0 x l k) < 2 ^ 64) ∧ ((s.hub.heldLayer 1 x l).base < 2 ^ 64) :=
  ⟨st [(O.headMode 2, 1), (O.commit 2, 8), (H.layer 0 2 3 0, 1), (H.layer 1 2 3 0, 1), (H.layer 1 2 3 2, 4096)], 2, 3, by decide +kernel⟩

set_option maxRecDepth 1000000 in
theorem test_headEvents_13 : ∃ (s : State) (x : Head) (l : Fin 4), (s.hub.domainsOn = true) ∧ (s.hub.scansOut x = true) ∧ (s.hub.follows x = false) ∧ (s.hub.flag (O.pairLock x) = false) ∧ (s.hub.flag (H.firstEdge x) = false) ∧ (bit (s.hub.get (O.commit x)) l = false) :=
  ⟨st [(O.headMode 2, 1), (O.commit 2, 7)], 2, 3, by decide +kernel⟩

set_option maxRecDepth 1000000 in
theorem test_headEvents_14 : ∃ (s : State) (x : Head) (k : SinkCaps) (rate lanes : Nat), (s.hub.domainsOn = true) ∧ (s.hub.get (O.headMode x) = 1 ∨ s.hub.get (O.headMode x) = 2) ∧ (s.hub.get (O.headState x) ≠ 6) ∧ (s.hub.flag (H.hpdHold x) = false) ∧ (((s.hub.linkChoices x k).find? fun y => k.trains.any fun t => t.1.toNat == y.1 && t.2.toNat == y.2) = some (rate, lanes)) :=
  ⟨st [(O.headMode 3, 1), (O.linkRateMax 3, 3), (O.lanesMax 3, 4), (O.pixelClock 3, 100000)], 3, ⟨[0, 1], 4, [(1, 1)], 0, [], 0⟩, 1, 1, by decide +kernel⟩

set_option maxRecDepth 1000000 in
theorem test_headEvents_15 : ∃ (s : State) (x : Head) (k : SinkCaps), (s.hub.domainsOn = true) ∧ (s.hub.get (O.headMode x) = 1 ∨ s.hub.get (O.headMode x) = 2) ∧ (s.hub.get (O.headState x) ≠ 6) ∧ (s.hub.flag (H.hpdHold x) = false) ∧ (((s.hub.linkChoices x k).find? fun y => k.trains.any fun t => t.1.toNat == y.1 && t.2.toNat == y.2) = none) :=
  ⟨st [(O.headMode 3, 1), (O.linkRateMax 3, 3), (O.lanesMax 3, 4), (O.pixelClock 3, 100000)], 3, ⟨[0, 1], 4, [], 0, [], 0⟩, by decide +kernel⟩

set_option maxRecDepth 1000000 in
theorem test_headEvents_16 : ∃ (s : State) (x : Head), (s.hub.domainsOn = true) ∧ (s.hub.flag (H.hpdHold x) = true) ∧ (s.hub.get (O.headState x) = 6) :=
  ⟨st [(H.hpdHold 3, 1), (O.headState 3, 6)], 3, by decide +kernel⟩

set_option maxRecDepth 1000000 in
theorem test_headEvents_17 : ∃ (s : State) (x : Head), (s.hub.domainsOn = true) ∧ (s.hub.flag (H.hpdHold x) = true) ∧ (s.hub.get (O.headState x) ≠ 6) ∧ (s.hub.get (O.headMode x) = 0) :=
  ⟨st [(H.hpdHold 3, 1)], 3, by decide +kernel⟩

set_option maxRecDepth 1000000 in
theorem test_headEvents_18 : ∃ (s : State) (x : Head), (s.hub.domainsOn = true) ∧ (s.hub.flag (H.hpdHold x) = false) :=
  ⟨st [], 3, by decide +kernel⟩

set_option maxRecDepth 1000000 in
theorem test_headEvents_19 : ∃ (s : State) (x : Head) (line : BitVec 16), (s.hub.domainsOn = true) ∧ (s.hub.scansOut x = false) ∧ (s.hub.get (O.headMode x) ≠ 2 ∨ s.hub.get (O.headState x) = 6) :=
  ⟨st [], 3, 8191, by decide +kernel⟩

set_option maxRecDepth 1000000 in
theorem test_headEvents_20 : ∃ (s : State) (x : Head), (s.hub.domainsOn = true) ∧ (s.hub.get (O.streamState x) ≠ 2) :=
  ⟨st [], 3, by decide +kernel⟩

set_option maxRecDepth 1000000 in
theorem test_headEvents_21 : ∃ (s : State) (x : Head), (s.hub.domainsOn = true) ∧ (s.hub.scansOut x = false ∨ s.hub.follows x = true) :=
  ⟨st [], 3, by decide +kernel⟩

set_option maxRecDepth 1000000 in
theorem test_headEvents_22 : ∃ (s : State) (x : Head) (k : SinkCaps), (s.hub.domainsOn = true) ∧ (s.hub.get (O.headMode x) = 3) :=
  ⟨st [(O.headMode 3, 3)], 3, ⟨[], 0, [], 0, [], 0⟩, by decide +kernel⟩

set_option maxRecDepth 1000000 in
theorem test_headEvents_23 : ∃ (s : State) (x : Head), (s.hub.domainsOn = true) ∧ (s.hub.get (O.headMode x) = 3) :=
  ⟨st [(O.headMode 3, 3)], 3, by decide +kernel⟩

theorem test_headStreams_1 : ∃ (s : State) (x : Head) (a : StreamAttr) (t : Nat), (s.hub.domainsOn = true) ∧ (s.hub.captures x = true) ∧ (s.hub.captureEntry x 2 = some t) ∧ (s.hub.get (O.framesCaptured x) < 2 ^ 64 - 1) :=
  ⟨st [(O.headMode 3, 3), (O.headState 3, 2), (O.timeLock, 1), (O.pathFlags 5, 1), (O.pathIn 5, 0x27), (O.pathCls 5, 2)], 3, ⟨1, 2, 3, 4, 5, 6, 7, 8, 9, false, 1, []⟩, 5, by decide +kernel⟩

set_option maxRecDepth 1000000 in
theorem test_headStreams_2 : ∃ (s : State) (x : Head) (a : StreamAttr) (ls : List (List Pixel)), (s.hub.domainsOn = true) ∧ (s.hub.get (O.headMode x) = 3) ∧ (s.hub.captures x = false) :=
  ⟨st [(O.headMode 3, 3), (O.headState 3, 1)], 3, ⟨1, 2, 3, 4, 5, 6, 7, 8, 9, false, 1, []⟩, [], by decide +kernel⟩

set_option maxRecDepth 1000000 in
theorem test_headStreams_3 : ∃ (s : State) (x : Head) (line : BitVec 13) (bs : Bytes) (t : Nat), (s.hub.domainsOn = true) ∧ (s.hub.captures x = true) ∧ (s.hub.captureEntry x 2 = some t) :=
  ⟨st [(O.headMode 3, 3), (O.headState 3, 2), (O.timeLock, 1), (O.pathFlags 5, 1), (O.pathIn 5, 0x27), (O.pathCls 5, 2)], 3, 9, [1, 2], 5, by decide +kernel⟩

set_option maxRecDepth 1000000 in
theorem test_headStreams_4 : ∃ (s : State) (x : Head) (pk : Packet), (s.hub.domainsOn = true) ∧ (s.hub.get (O.headMode x) = 2) ∧ (s.hub.get (O.headState x) ≠ 6) ∧ (s.hub.flag (H.hpdHold x) = false) ∧ (s.hub.lineStore = []) ∧ (bits pk.info.toNat 13 3 = 2) :=
  ⟨st [(O.headMode 3, 2)], 3, { wPkt with info := 0x4001 }, by decide +kernel⟩

set_option maxRecDepth 1000000 in
theorem test_headStreams_5 : ∃ (s : State) (x : Head) (pk : Packet), (s.hub.domainsOn = true) ∧ (s.hub.get (O.headMode x) = 2) ∧ (s.hub.get (O.headState x) ≠ 6) ∧ (s.hub.flag (H.hpdHold x) = false) ∧ (s.hub.lineStore = []) ∧ (bits pk.info.toNat 13 3 = 0) ∧ (s.hub.momentOf pk.time.toNat + s.hub.get (O.presentDelay x) < s.hub.now) ∧ (bit (s.hub.get (H.lateLines x (s.hub.get (H.streamFrame x) % 2))) (bits pk.info.toNat 0 13) = false) :=
  ⟨sth [(O.headMode 3, 2)] fun c => { c with now := 10000000000 }, 3, { wPkt with info := 1 }, by decide +kernel⟩

theorem test_dramScrubCommands_1 : ∃ (s : State) (word : Nat), (s.hub.domainsOn = true) ∧ (word < 134217727) :=
  ⟨st [], 5, by decide +kernel⟩

set_option maxRecDepth 1000000 in
theorem test_dramScrubCommands_2 : ∃ (s : State) (word : Nat) (b : Bool), (s.hub.domainsOn = true) ∧ (word < 134217727) ∧ (s.hub.get O.dramCorrected < 2 ^ 64 - 1) :=
  ⟨st [], 5, true, by decide +kernel⟩

set_option maxRecDepth 1000000 in
theorem test_dramScrubCommands_3 : ∃ (s : State) (word : Nat) (b : Bool), (s.hub.domainsOn = true) ∧ (word < 134217727) ∧ (s.hub.get O.dramUncorrectable < 2 ^ 64 - 1) :=
  ⟨st [], 5, true, by decide +kernel⟩

set_option maxRecDepth 1000000 in
theorem test_dramScrubCommands_4 : ∃ (s : State) (word : Nat), (s.hub.domainsOn = true) ∧ (word < 134217727) ∧ (s.hub.unowned (word * 64) = false) :=
  ⟨st [], 5, by decide +kernel⟩

set_option maxRecDepth 1000000 in
theorem test_dramScrubCommands_5 : ∃ (s : State) (done due : Nat), (s.hub.domainsOn = true) ∧ (done + 65536 ≤ due) ∧ (s.hub.get O.dramScrubForced + 55313 < 2 ^ 64) :=
  ⟨st [], 0, 65536, by decide +kernel⟩

set_option maxRecDepth 1000000 in
theorem test_dramScrubCommands_6 : ∃ (s : State) (done due : Nat), (s.hub.domainsOn = true) ∧ (due < done + 65536) ∧ (s.hub.flag H.dramBehind = false) :=
  ⟨st [], 0, 65535, by decide +kernel⟩

set_option maxRecDepth 1000000 in
theorem test_dramScrubCommands_7 : ∃ (s : State) (done due : Nat), (s.hub.domainsOn = true) ∧ (done < due) ∧ (due < done + 65536) ∧ (s.hub.flag H.dramBehind = true) ∧ (s.hub.get O.dramScrubForced + 55313 < 2 ^ 64) :=
  ⟨st [(H.dramBehind, 1)], 0, 65535, by decide +kernel⟩

set_option maxRecDepth 1000000 in
theorem test_dramScrubCommands_8 : ∃ (s : State) (done due : Nat), (s.hub.domainsOn = true) ∧ (due ≤ done) :=
  ⟨st [], 5, 5, by decide +kernel⟩

set_option maxRecDepth 1000000 in
theorem test_dramScrubCommands_9 : ∃ (s : State) (b : Bool), (s.hub.domainsOn = true) ∧ (s.hub.get O.dramScrubPasses + 1 < 2 ^ 32) ∧ (s.hub.get H.dramScrubStart ≤ s.hub.now) ∧ (s.hub.now - s.hub.get H.dramScrubStart ≤ s.hub.get O.dramScrubPeriod * 1000000000) :=
  ⟨st [(O.dramScrubPeriod, 3600)], true, by decide +kernel⟩

set_option maxRecDepth 1000000 in
theorem test_fopChecks_1 : ∃ (s : State) (x : FopMsg), (x.transport = .uart) ∧ (s.hub.flag H.running = true) ∧ (s.hub.get O.powerState = 0) ∧ (s.hub.handingOver = false) ∧ (fopWellFormed 1 x = false) ∧ (s.hub.get O.fopMalformed < 2 ^ 32 - 1) :=
  ⟨st [], { wMsg 0 1 7 0x1000 1 0 [] 99 with transport := .uart, version := 2 }, by decide +kernel⟩

set_option maxRecDepth 1000000 in
theorem test_fopChecks_2 : ∃ (s : State) (x : FopMsg), (x.transport = .uart) ∧ (s.hub.flag H.running = true) ∧ (s.hub.get O.powerState = 0) ∧ (s.hub.handingOver = false) ∧ (fopWellFormed 2 x = true) ∧ (s.hub.get O.role ≠ 2) ∧ (x.hub ≠ 0xFF) ∧ (x.hub.toNat ≠ s.hub.get O.hubAddress) :=
  ⟨st [(O.role, 1)], { wMsg 0 2 7 0x1000 1 0 [] 99 with transport := .uart, hub := 9 }, by decide +kernel⟩

set_option maxRecDepth 1000000 in
theorem test_fopChecks_3 : ∃ (s : State) (x : FopMsg), (x.transport = .uart) ∧ (s.hub.flag H.running = true) ∧ (s.hub.get O.powerState = 0) ∧ (s.hub.handingOver = false) ∧ (fopWellFormed 5 x = true) ∧ (x.hub = 0xFF) ∧ (s.hub.sessions = []) :=
  ⟨st [], { wMsg 0 5 7 0x1000 1 0 [] 99 with transport := .uart }, by decide +kernel⟩

set_option maxRecDepth 1000000 in
theorem test_fopChecks_4 : ∃ (s : State) (x : FopMsg) (e : Session), (x.transport = .uart) ∧ (s.hub.flag H.running = true) ∧ (s.hub.get O.powerState = 0) ∧ (s.hub.handingOver = false) ∧ (fopWellFormed 3 x = true) ∧ (x.hub = 0xFF) ∧ (s.hub.sessions = [e]) ∧ (x.session.toNat = e.id) ∧ (hmacSha256 e.key (fopSigned x 3) % 2 ^ 256 ≠ x.tag.toNat) ∧ (s.hub.get O.fopAuthFailures < 2 ^ 32 - 1) :=
  ⟨sth [] fun c => { c with sessions := [wSes] }, { wMsg 0 3 7 0x1000 1 0 [] 99 with transport := .uart, tag := BitVec.ofNat 256 (hmacSha256 99 (fopSigned ({ wMsg 0 3 7 0x1000 1 0 [] 99 with transport := .uart }) 3)) + 1 }, wSes, ⟨rfl, by decide +kernel, by decide +kernel, by decide +kernel, by decide +kernel, rfl, rfl, rfl, by intro h; simp [fopSigned, wMsg, wSes] at h; omega, by decide +kernel⟩⟩

theorem test_fopRequests_1 : ∃ (s : State) (e : Session) (x : FopMsg) (r : Row) (n : Nat), (s.hub.domainsOn = true) ∧ (Admitted s.hub e 1 x) ∧ (Signed e 1 x) ∧ (x.flags = 0) ∧ (s.hub.object x.index.toNat x.sub.toNat = some (r, n)) ∧ (r.ty ≠ .table) ∧ ((rightOf r.acc e.level).reads = true) ∧ (x.offset = 0) ∧ (x.count = 0) :=
  ⟨sth [(O.t1sEnable, 1)] fun c => { c with sessions := [wSes] }, wSes, wMsg 1 1 7 0x1100 5 0 [] 99, .scalar 0x1100 5 5 0x110005 .single .u16 2 [.ro, .ro, .ro, .rw] [2000] 1 "BLOCK_TIMEOUT" (.range 100 60000) false false, 0, ⟨by decide +kernel, by decide +kernel, wMsg_signed .., by decide +kernel⟩⟩

set_option maxRecDepth 1000000 in
theorem test_fopRequests_2 : ∃ (s : State) (e : Session) (x : FopMsg), (s.hub.domainsOn = true) ∧ (Admitted s.hub e 1 x) ∧ (Signed e 1 x) ∧ (x.flags = 0) ∧ (s.hub.object x.index.toNat x.sub.toNat = none) :=
  ⟨sth [(O.t1sEnable, 1)] fun c => { c with sessions := [wSes] }, wSes, wMsg 1 1 7 0x0FFF 5 0 [] 99, ⟨by decide +kernel, by decide +kernel, wMsg_signed .., by decide +kernel⟩⟩

set_option maxRecDepth 1000000 in
theorem test_fopRequests_3 : ∃ (s : State) (e : Session) (x : FopMsg) (v : BitVec 16), (s.hub.domainsOn = true) ∧ (Admitted s.hub e 2 x) ∧ (Signed e 2 x) ∧ (x.flags = 0) ∧ (e.level = .owner) ∧ (x.index = 0x1100) ∧ (x.sub = 5) ∧ (x.offset = 0) ∧ (x.body = leBytes v.toNat 2) ∧ (100 ≤ v.toNat ∧ v.toNat ≤ 60000) ∧ (s.hub.get H.endLevels = 0) ∧ (NetworkSettled s.hub) ∧ (s.hub.get H.endSession = 0) ∧ (s.hub.flag H.resetDue = false) :=
  ⟨sth [(O.t1sEnable, 1)] fun c => { c with sessions := [{ wSes with level := .owner }] }, { wSes with level := .owner }, wMsg 3 2 7 0x1100 5 0 (leBytes 3000 2) 99, 3000, ⟨by decide +kernel, by decide +kernel, wMsg_signed .., by decide +kernel⟩⟩

set_option maxRecDepth 1000000 in
theorem test_fopRequests_4 : ∃ (s : State) (e : Session) (x : FopMsg) (r : Row) (n : Nat), (s.hub.domainsOn = true) ∧ (Admitted s.hub e 3 x) ∧ (Signed e 3 x) ∧ (x.flags = 0) ∧ (e.block = none) ∧ (s.hub.object x.index.toNat x.sub.toNat = some (r, n)) ∧ (r.ty = .table) ∧ ((rightOf r.acc e.level).reads = true) ∧ (x.offset.toNat + x.count.toNat ≤ s.hub.entryCount r * r.size) ∧ (s.hub.entryCount r ≠ 0) ∧ (1 ≤ x.count.toNat ∧ x.count.toNat ≤ 65536) :=
  ⟨sth [(O.t1sEnable, 1)] fun c => { c with sessions := [wSes] }, wSes, wMsg 1 3 7 0x1110 0 8 [] 99, ((locate 0x1110 0).get (by decide +kernel)).1, 0, ⟨by decide +kernel, by decide +kernel, wMsg_signed .., by decide +kernel⟩⟩

set_option maxRecDepth 1000000 in
theorem test_fopRequests_5 : ∃ (s : State) (e : Session) (x : FopMsg), (s.hub.domainsOn = true) ∧ (Admitted s.hub e 4 x) ∧ (Signed e 4 x) ∧ (x.flags = 0) ∧ (e.block = none) ∧ (s.hub.writeCheck e.level x.index.toNat x.sub.toNat x.offset.toNat x.count.toNat 65536 = .ok) ∧ (s.hub.isTable x.index.toNat x.sub.toNat = true) ∧ (x.body = []) ∧ (1 ≤ x.count.toNat) :=
  ⟨sth [(O.t1sEnable, 1)] fun c => { c with sessions := [{ wSes with level := .owner }] }, { wSes with level := .owner }, wMsg 3 4 7 0x1110 0 16 [] 99, ⟨by decide +kernel, by decide +kernel, wMsg_signed .., by decide +kernel⟩⟩

set_option maxRecDepth 1000000 in
theorem test_fopRequests_6 : ∃ (s : State) (e : Session) (x : FopMsg) (r : Row) (n : Nat) (b : OpenBlock), (s.hub.domainsOn = true) ∧ (Admitted s.hub e 5 x) ∧ (Signed e 5 x) ∧ (x.flags = 0) ∧ (e.block = some b) ∧ (b.reads = true) ∧ (b.index = x.index.toNat) ∧ (b.sub = x.sub.toNat) ∧ (s.hub.object x.index.toNat x.sub.toNat = some (r, n)) ∧ ((rightOf r.acc e.level).reads = true) ∧ (1 ≤ x.count.toNat ∧ x.count.toNat ≤ 960) ∧ (x.body = []) ∧ (x.offset.toNat + x.count.toNat ≤ b.bytes.length) :=
  ⟨sth [(O.t1sEnable, 1)] fun c => { c with sessions := [wSesBlock] }, wSesBlock, wMsg 3 5 7 0x1010 0 4 [] 99, ((locate 0x1010 0).get (by decide +kernel)).1, 0, ⟨true, 0x1010, 0, 0, [1, 2, 3, 4], [false, false, false, false], 0⟩, ⟨by decide +kernel, by decide +kernel, wMsg_signed .., by decide +kernel⟩⟩

set_option maxRecDepth 1000000 in
theorem test_fopRequests_7 : ∃ (s : State) (e : Session) (x : FopMsg) (b : Bool), (s.hub.domainsOn = true) ∧ (x.flags = 1) ∧ (Admitted s.hub e (if b then 4 else 3) x) ∧ (Signed e (if b then 4 else 3) x) ∧ (s.hub.blockCheck s.mem e.level (if b then 4 else 3) x = .ok) :=
  ⟨sth [(O.t1sEnable, 1)] fun c => { c with sessions := [wSes] }, wSes, { wMsg 1 3 7 0x1110 0 8 [] 99 with flags := 1, tag := BitVec.ofNat 256 (hmacSha256 99 (fopSigned ({ wMsg 1 3 7 0x1110 0 8 [] 99 with flags := 1 }) 3)) }, false, ⟨by decide +kernel, by decide +kernel, by decide +kernel, by simp [Signed, fopSigned, wMsg, wSes], by decide +kernel⟩⟩

set_option maxRecDepth 1000000 in
theorem test_fopRequests_8 : ∃ (s : State) (e : Session) (x : FopMsg) (r : Row) (n : Nat), (s.hub.domainsOn = true) ∧ (Admitted s.hub e 1 x) ∧ (Signed e 1 x) ∧ (x.flags = 0) ∧ (s.hub.object x.index.toNat x.sub.toNat = some (r, n)) ∧ (r.ty = .table) ∧ (r.obj ≠ 0x110200) ∧ ((rightOf r.acc e.level).reads = true) ∧ (s.hub.entryCount r ≠ 0) ∧ (x.offset.toNat + x.count.toNat ≤ s.hub.entryCount r * r.size) ∧ (1 ≤ x.count.toNat ∧ x.count.toNat ≤ 960) :=
  ⟨sth [(O.t1sEnable, 1)] fun c => { c with sessions := [wSes] }, wSes, wMsg 1 1 7 0x1110 0 8 [] 99, ((locate 0x1110 0).get (by decide +kernel)).1, 0, ⟨by decide +kernel, by decide +kernel, wMsg_signed .., by decide +kernel⟩⟩

set_option maxRecDepth 1000000 in
theorem test_fopRequests_9 : ∃ (s : State) (e : Session) (x : FopMsg), (s.hub.domainsOn = true) ∧ (Admitted s.hub e 1 x) ∧ (Signed e 1 x) ∧ (x.flags = 0) ∧ (s.hub.inRom = false) ∧ (x.index = 0x1100) ∧ (x.sub = 5) ∧ (x.offset = 0) ∧ (x.count = 0) :=
  ⟨sth [(O.t1sEnable, 1)] fun c => { c with sessions := [wSes] }, wSes, wMsg 1 1 7 0x1100 5 0 [] 99, ⟨by decide +kernel, by decide +kernel, wMsg_signed .., by decide +kernel⟩⟩

set_option maxRecDepth 1000000 in
theorem test_fopRequests_10 : ∃ (s : State) (e : Session) (x : FopMsg) (q : Fin 264), (s.hub.domainsOn = true) ∧ (Admitted s.hub e 1 x) ∧ (Signed e 1 x) ∧ (x.flags = 0) ∧ (s.hub.inRom = false) ∧ (x.index = 0x4210) ∧ (x.sub = 3) ∧ (x.offset.toNat = 4 * q.val) ∧ (x.count = 4) :=
  ⟨sth [(O.t1sEnable, 1)] fun c => { c with sessions := [wSes] }, wSes, { wMsg 1 1 7 0x4210 3 4 [] 99 with offset := 1052, tag := BitVec.ofNat 256 (hmacSha256 99 (fopSigned { wMsg 1 1 7 0x4210 3 4 [] 99 with offset := 1052 } 1)) }, 263, ⟨by decide +kernel, by decide +kernel, by simp [Signed, fopSigned, wSes, wMsg], by decide +kernel⟩⟩

set_option maxRecDepth 1000000 in
theorem test_fopRequests_11 : ∃ (s : State) (e : Session) (x : FopMsg), (s.hub.domainsOn = true) ∧ (Admitted s.hub e 3 x) ∧ (Signed e 3 x) ∧ (x.flags = 0) ∧ (s.hub.inRom = false) ∧ (e.block = none) ∧ (x.index = 0x4210) ∧ (x.sub = 3) ∧ (x.offset = 0) ∧ (x.count = 1056) :=
  ⟨sth [(O.t1sEnable, 1)] fun c => { c with sessions := [wSes] }, wSes, wMsg 1 3 7 0x4210 3 1056 [] 99, ⟨by decide +kernel, by decide +kernel, wMsg_signed .., by decide +kernel⟩⟩

set_option maxRecDepth 1000000 in
theorem test_fopSessions_1 : ∃ (s : State) (x : FopMsg) (lvl : Level) (key : Nat), (x.transport = .t1s) ∧ (s.hub.reachable = true) ∧ (s.hub.flag H.running = true) ∧ (s.hub.get O.powerState = 0) ∧ (s.hub.handingOver = false) ∧ (x.index = 0x1100) ∧ (x.sub = 1) ∧ (fopWellFormed 2 x = true) ∧ (x.hub = 0xFF) ∧ (x.session = 0) ∧ (x.level.toNat = Level.rank lvl) ∧ (s.hub.accessKey lvl = some key) ∧ (SlotSound s.hub (s.hub.get (O.accessKeySlot (Level.rank lvl)))) ∧ (hmacSha256 key (fopSigned x 2) % 2 ^ 256 = x.tag.toNat) ∧ (s.hub.get (H.openCounter (Level.rank lvl)) ≤ x.counter.toNat) ∧ (x.body.length = 16) ∧ (x.offset = 0) ∧ (s.hub.sessions.length < 8) ∧ (s.hub.get O.rngState ≠ 2) :=
  ⟨st [(O.t1sEnable, 1), (O.accessKeySlot 1, 5), (O.keySlotState 5, 1), (O.keySlotEngines 5, 8), (H.commit 5, 0), (H.halfKey 5 0, 77), (H.halfEngines 5 0, 8), (H.halfCheck 5 0, generationCheck 77 8 0)], wMsg 1 2 0 0x1100 1 0 (List.replicate 16 0) 77, .operator, 77, by refine ⟨?_, ?_, ?_, ?_, ?_, ?_, ?_, ?_, ?_, ?_, ?_, ?_, ?_, wMsg_signed .., ?_⟩ <;> decide +kernel⟩

set_option maxRecDepth 1000000 in
theorem test_fopSessions_2 : ∃ (s : State) (x : FopMsg) (lvl : Level), (x.transport = .t1s) ∧ (s.hub.reachable = true) ∧ (s.hub.flag H.running = true) ∧ (s.hub.get O.powerState = 0) ∧ (s.hub.handingOver = false) ∧ (x.index = 0x1100) ∧ (x.sub = 1) ∧ (fopWellFormed 2 x = true) ∧ (x.hub = 0xFF) ∧ (x.session = 0) ∧ (x.level.toNat = Level.rank lvl) ∧ (s.hub.accessKey lvl = none ∨ s.hub.get O.rngState = 2) ∧ (s.hub.get O.opensRefused < 2 ^ 64 - 1) :=
  ⟨st [(O.t1sEnable, 1), (O.rngState, 2)], wMsg 1 2 0 0x1100 1 0 (List.replicate 16 0) 77, .operator, by decide +kernel⟩

set_option maxRecDepth 1000000 in
theorem test_fopSessions_3 : ∃ (s : State) (e : Session) (x : FopMsg), (s.hub.domainsOn = true) ∧ (Admitted s.hub e 2 x) ∧ (Signed e 2 x) ∧ (x.flags = 0) ∧ (x.index = 0x1100) ∧ (x.sub = 2) ∧ (x.offset = 0) ∧ (x.body = leBytes e.id 2) ∧ (s.hub.get H.endLevels = 0) ∧ (NetworkSettled s.hub) ∧ (s.hub.flag H.resetDue = false) :=
  ⟨sth [(O.t1sEnable, 1)] fun c => { c with sessions := [wSes] }, wSes, wMsg 1 2 7 0x1100 2 0 [7, 0] 99, ⟨by decide +kernel, by decide +kernel, wMsg_signed .., by decide +kernel⟩⟩

set_option maxRecDepth 1000000 in
theorem test_fopSessions_4 : ∃ (s : State) (a : BitVec 128) (q : BitVec 16) (raw : Bytes) (k : Nat) (x : FopMsg), (s.hub.get O.role = 2) ∧ (s.hub.reachable = true) ∧ (s.hub.flag H.running = true) ∧ (s.hub.get O.powerState = 0) ∧ (s.hub.handingOver = false) ∧ (64 ≤ raw.length) ∧ (leNat ((raw.drop 1).take 1) = k) ∧ (parseFop .t1s a.toNat q.toNat raw = x) ∧ (k < 128) ∧ (fopWellFormed k x = true) ∧ (x.hub ≠ 0xFF) ∧ (x.hub.toNat ≠ s.hub.get O.hubAddress) ∧ (s.hub.relays x.hub.toNat = true) ∧ (onBackground x = false) :=
  ⟨st [(O.role, 2), (O.t1sEnable, 1), (O.hubTableState 9, 2)], 1, 2, [1, 1, 0, 0, 7, 0, 9, 0] ++ List.replicate 56 0, 1, parseFop .t1s 1 2 ([1, 1, 0, 0, 7, 0, 9, 0] ++ List.replicate 56 0), by decide +kernel⟩

set_option maxRecDepth 1000000 in
theorem test_fopSessions_5 : ∃ (s : State) (t : Transport) (a : BitVec 128) (q : BitVec 16) (raw : Bytes), (s.hub.domainsOn = true) ∧ (raw.length < 64) :=
  ⟨st [], .uart, 1, 2, [1, 2], by decide +kernel⟩

set_option maxRecDepth 1000000 in
theorem test_fopSessions_6 : ∃ (s : State) (id : BitVec 16) (e : Session), (s.hub.domainsOn = true) ∧ (s.hub.sessions = [e]) ∧ (e.id = id.toNat) :=
  ⟨sth [] fun c => { c with sessions := [wSes] }, 7, wSes, by decide +kernel⟩

set_option maxRecDepth 1000000 in
theorem test_fopSessions_7 : ∃ (s : State) (id : BitVec 16) (e : Session) (b : OpenBlock), (s.hub.domainsOn = true) ∧ (s.hub.sessions = [e]) ∧ (e.id = id.toNat) ∧ (e.block = some b) :=
  ⟨sth [] fun c => { c with sessions := [wSesBlock] }, 7, wSesBlock, ⟨true, 0x1010, 0, 0, [1, 2, 3, 4], [false, false, false, false], 0⟩, by decide +kernel⟩

theorem test_notifications_1 : ∃ (s : State), (s.hub.domainsOn = true) ∧ (s.hub.handingOver = false) ∧ (∀ k : Nat, k < 32 → s.hub.get (O.notifyMode k) ≠ 1 ∧ s.hub.get (O.notifyMode k) ≠ 3) :=
  ⟨st [], by decide +kernel⟩

set_option maxRecDepth 1000000 in
theorem test_notifications_2 : ∃ (s : State) (k : Fin 32) (e : Session) (r : Row) (n : Nat), (s.hub.domainsOn = true) ∧ (s.hub.handingOver = false) ∧ (s.hub.get (O.notifyMode k) = 2) ∧ (s.hub.sessions = [e]) ∧ (s.hub.get (O.notifySession k) = e.id) ∧ (s.hub.object (s.hub.get (O.notifyIndex k)) (s.hub.get (O.notifySub k)) = some (r, n)) ∧ (e.transport = .t1s) ∧ (e.tx + 1 < 0xFFFFFFFF) ∧ (s.hub.get (O.notifySent k) < 2 ^ 32 - 1) :=
  ⟨sth [(O.notifyMode 3, 2), (O.notifySession 3, 7), (O.notifyIndex 3, 0x1100), (O.notifySub 3, 5)] fun c => { c with sessions := [wSes] }, 3, wSes, .scalar 0x1100 5 5 0x110005 .single .u16 2 [.ro, .ro, .ro, .rw] [2000] 1 "BLOCK_TIMEOUT" (.range 100 60000) false false, 0, by decide +kernel⟩

set_option maxRecDepth 1000000 in
theorem test_notifications_3 : ∃ (s : State) (lvl : Level) (id : BitVec 16) (k : Fin 32) (v : NotifyEntry), (s.hub.domainsOn = true) ∧ (Operators lvl) ∧ (s.hub.get (O.notifySession k) = id.toNat) ∧ (v.session = 0) ∧ (notifyListed v = true) ∧ (s.hub.inRom = false) ∧ (s.hub.handingOver = false) :=
  ⟨st [(O.notifySession 3, 7)], .operator, 7, 3, ⟨0, 0, 0, 0, 0⟩, by decide +kernel⟩

set_option maxRecDepth 1000000 in
theorem test_notifications_4 : ∃ (s : State) (lvl : Level) (id : BitVec 16) (k : Fin 32) (v : NotifyEntry), (s.hub.domainsOn = true) ∧ (lvl = .operator ∨ lvl = .engineer) ∧ (s.hub.get (O.notifySession k) ≠ 0) ∧ (s.hub.get (O.notifySession k) ≠ id.toNat) ∧ (s.hub.inRom = false) ∧ (s.hub.handingOver = false) :=
  ⟨st [(O.notifySession 3, 8)], .operator, 7, 3, ⟨0, 0, 0, 0, 0⟩, by decide +kernel⟩

set_option maxRecDepth 1000000 in
theorem test_notifications_5 : ∃ (s : State) (lvl : Level) (id : BitVec 16) (k : Fin 32) (v : NotifyEntry), (s.hub.domainsOn = true) ∧ (Operators lvl) ∧ (s.hub.get (O.notifySession k) = 0 ∨ s.hub.get (O.notifySession k) = id.toNat) ∧ (v.session ≠ 0) ∧ (s.hub.subscriptionOk lvl id.toNat v = true) ∧ (s.hub.inRom = false) ∧ (s.hub.handingOver = false) :=
  ⟨sth [] fun c => { c with sessions := [wSes] }, .operator, 7, 3, ⟨7, 0x1100, 5, 1, 100⟩, by decide +kernel⟩

set_option maxRecDepth 1000000 in
theorem test_notifications_6 : ∃ (s : State) (k : Fin 32) (e : Session) (r : Row) (n : Nat), (s.hub.domainsOn = true) ∧ (s.hub.handingOver = false) ∧ (s.hub.get (O.notifyMode k) = 1) ∧ (∀ j : Fin 32, j ≠ k → s.hub.get (O.notifyMode j) ≠ 1 ∧ s.hub.get (O.notifyMode j) ≠ 3) ∧ (s.hub.flag (H.notifyAny k) = false) ∧ (s.hub.sessions = [e]) ∧ (s.hub.get (O.notifySession k) = e.id) ∧ (s.hub.object (s.hub.get (O.notifyIndex k)) (s.hub.get (O.notifySub k)) = some (r, n)) ∧ (e.transport = .t1s) ∧ (e.tx + 1 < 0xFFFFFFFF) ∧ (s.hub.get (O.notifySent k) < 2 ^ 32 - 1) :=
  ⟨sth [(O.notifyMode 3, 1), (O.notifySession 3, 7), (O.notifyIndex 3, 0x1100), (O.notifySub 3, 5)] fun c => { c with sessions := [wSes] }, 3, wSes, .scalar 0x1100 5 5 0x110005 .single .u16 2 [.ro, .ro, .ro, .rw] [2000] 1 "BLOCK_TIMEOUT" (.range 100 60000) false false, 0, by decide +kernel⟩

set_option maxRecDepth 1000000 in
theorem test_mailboxAndNetwork_1 : ∃ (s : State) (bs : Bytes), (s.hub.domainsOn = true) ∧ (s.hub.get O.role ≠ 0) ∧ (s.hub.flag H.reqBusy = true) ∧ (s.hub.get O.mailboxOverruns < 2 ^ 32 - 1) :=
  ⟨st [(O.role, 2), (H.reqBusy, 1)], [1], by decide +kernel⟩

set_option maxRecDepth 1000000 in
theorem test_mailboxAndNetwork_2 : ∃ (s : State) (bs : Bytes), (s.hub.domainsOn = true) ∧ (s.hub.get O.role ≠ 0) ∧ (s.hub.flag H.reqBusy = false) ∧ (s.hub.flag H.rspReady = true) :=
  ⟨st [(O.role, 2), (H.rspReady, 1)], [1], by decide +kernel⟩

set_option maxRecDepth 1000000 in
theorem test_mailboxAndNetwork_3 : ∃ (s : State) (bs : Bytes) (rest : List Bytes), (s.hub.domainsOn = true) ∧ (s.hub.flag H.rspReady = true) ∧ (s.hub.rspWait = bs :: rest) ∧ (bit (s.hub.get (H.cfg 1 0x48)) 31 = true) ∧ (s.hub.msixFree 0 = true) :=
  ⟨sth [(H.rspReady, 1), (H.cfg 1 0x48, 2 ^ 31), (H.cfg 1 4, 4), (H.msixControl 0, 0)] fun c => { c with rspWait := [[1], [2]] }, [1], [[2]], by decide +kernel⟩

set_option maxRecDepth 1000000 in
theorem test_mailboxAndNetwork_4 : ∃ (s : State), (s.hub.domainsOn = true) ∧ (s.hub.flag H.rspReady = true) ∧ (s.hub.rspWait = []) ∧ (s.hub.flag H.reqBusy = false) :=
  ⟨st [(H.rspReady, 1)], by decide +kernel⟩

set_option maxRecDepth 1000000 in
theorem test_mailboxAndNetwork_5 : ∃ (s : State) (v : BitVec 32), (s.hub.domainsOn = true) :=
  ⟨st [], 7, by decide +kernel⟩

set_option maxRecDepth 1000000 in
theorem test_mailboxAndNetwork_6 : ∃ (s : State) (a : BitVec 128) (kind : NeighborMsg) (k : Nat), (s.hub.domainsOn = true) ∧ (s.hub.ownAddress a.toNat = some k) ∧ (s.hub.addressUsed k = true) ∧ (kind ≠ .advert) :=
  ⟨sth [(O.t1sEnable, 1)] fun c => { c with regs := c.regs.insert O.linkLocal.key 0x55 }, 0x55, .detect, 0, by decide +kernel⟩

set_option maxRecDepth 1000000 in
theorem test_mailboxAndNetwork_7 : ∃ (s : State) (a : BitVec 128) (kind : NeighborMsg), (s.hub.domainsOn = true) ∧ (s.hub.ownAddress a.toNat = none) :=
  ⟨st [(O.t1sEnable, 0)], 0x55, .advert, by decide +kernel⟩

set_option maxRecDepth 1000000 in
theorem test_mailboxAndNetwork_8 : ∃ (s : State) (a : BitVec 128) (kind : NeighborMsg) (k : Nat), (s.hub.domainsOn = true) ∧ (s.hub.ownAddress a.toNat = some k) ∧ (s.hub.addressUsed k = false) ∧ (kind ≠ .ask) ∧ (bit (s.hub.get O.addrState) k = false) :=
  ⟨sth [(O.t1sEnable, 1), (H.tentative 0, 77)] fun c => { c with regs := c.regs.insert O.linkLocal.key 0x55 }, 0x55, .advert, 0, by decide +kernel⟩

set_option maxRecDepth 1000000 in
theorem test_mailboxAndNetwork_9 : ∃ (s : State) (a : BitVec 128) (kind : NeighborMsg) (k : Nat), (s.hub.domainsOn = true) ∧ (s.hub.ownAddress a.toNat = some k) ∧ (if s.hub.addressUsed k then kind = .advert else kind = .ask ∨ bit (s.hub.get O.addrState) k = true) :=
  ⟨sth [(O.t1sEnable, 1)] fun c => { c with regs := c.regs.insert O.linkLocal.key 0x55 }, 0x55, .advert, 0, by decide +kernel⟩

set_option maxRecDepth 1000000 in
theorem test_mailboxAndNetwork_10 : ∃ (s : State) (a : BitVec 128) (bs : Bytes), (s.hub.domainsOn = true) ∧ (s.hub.reachable = true) :=
  ⟨st [(O.t1sEnable, 1)], 5, [1, 2], by decide +kernel⟩

set_option maxRecDepth 1000000 in
theorem test_mailboxAndNetwork_11 : ∃ (s : State) (a : BitVec 128) (q : BitVec 16), (s.hub.domainsOn = true) ∧ (s.hub.reachable = true) ∧ (q.toNat ≠ s.hub.get O.fopPort) :=
  ⟨st [(O.t1sEnable, 1)], 5, 53, by decide +kernel⟩

set_option maxRecDepth 1000000 in
theorem test_mailboxAndNetwork_12 : ∃ (s : State) (lvl : Level) (i : BitVec 16) (j : BitVec 8) (o : BitVec 32) (bs : Bytes), (s.hub.domainsOn = true) ∧ (s.hub.handingOver = false) ∧ (s.hub.object i.toNat j.toNat = none) ∧ (s.hub.get H.endLevels = 0) ∧ (s.hub.get H.endSession = 0) ∧ (s.hub.flag H.resetDue = false) ∧ (NetworkSettled s.hub) :=
  ⟨st [], .owner, 0x0FFF, 1, 0, [1], by decide +kernel⟩

set_option maxRecDepth 1000000 in
theorem test_mailboxAndNetwork_13 : ∃ (s : State) (v : BitVec 16), (s.hub.domainsOn = true) ∧ (s.hub.handingOver = false) ∧ (100 ≤ v.toNat ∧ v.toNat ≤ 60000) ∧ (s.hub.get H.endLevels = 0) ∧ (s.hub.get H.endSession = 0) ∧ (s.hub.flag H.resetDue = false) ∧ (NetworkSettled s.hub) :=
  ⟨st [], 3000, by decide +kernel⟩

set_option maxRecDepth 1000000 in
theorem test_mailboxAndNetwork_14 : ∃ (s : State) (lvl : Level) (bs : Bytes), (s.hub.domainsOn = true) ∧ (s.hub.handingOver = false) ∧ (lvl ≠ .owner) ∧ (s.hub.get H.endLevels = 0) ∧ (s.hub.get H.endSession = 0) ∧ (s.hub.flag H.resetDue = false) ∧ (NetworkSettled s.hub) :=
  ⟨st [], .engineer, [0, 1], by decide +kernel⟩

set_option maxRecDepth 1000000 in
theorem test_keyCommands_1 : ∃ (s : State) (t : Transport) (slot engines : BitVec 8) (key : BitVec 256), (s.hub.domainsOn = true) ∧ (t ≠ .t1s ∨ s.hub.flag O.t1sKeyLoad = true) ∧ (slot.toNat ≤ 63) ∧ (1 ≤ engines.toNat ∧ engines.toNat ≤ 15) ∧ (bit engines.toNat 0 = false) ∧ (s.hub.keysBusy = false) ∧ (s.hub.get (H.commit slot.toNat) ≤ 1) ∧ (s.hub.get H.endLevels = 0) ∧ (s.hub.get H.endSession = 0) ∧ (∀ l : Nat, l < 4 → s.hub.get (O.accessKeySlot l) ≠ slot.toNat) ∧ (s.hub.inRom = false) ∧ (s.hub.handingOver = false) :=
  ⟨st [], .mailbox, 7, 2, 99, by decide +kernel⟩

set_option maxRecDepth 1000000 in
theorem test_keyCommands_2 : ∃ (s : State) (t : Transport) (slot engines : BitVec 8) (key : BitVec 256) (hit : BitVec 9), (s.hub.domainsOn = true) ∧ (t ≠ .t1s) ∧ (slot.toNat ≤ 63) ∧ (1 ≤ engines.toNat ∧ engines.toNat ≤ 15) ∧ (s.hub.flag O.tamperLatch = true) ∧ (s.hub.get H.endLevels = 0) ∧ (s.hub.get H.endSession = 0) ∧ (s.hub.inRom = false) ∧ (s.hub.handingOver = false) :=
  ⟨st [(O.tamperLatch, 1)], .mailbox, 7, 2, 99, 0, by decide +kernel⟩

set_option maxRecDepth 1000000 in
theorem test_keyCommands_3 : ∃ (s : State) (r : DeriveRequest) (k n : Nat), (s.hub.domainsOn = true) ∧ (s.hub.keysBusy = false) ∧ (SlotSound s.hub r.source.toNat) ∧ (s.hub.deriveSource r.source.toNat = some (k, n)) ∧ (r.dest.toNat ≤ 63) ∧ (r.dest ≠ r.source) ∧ (Nat.land r.engines.toNat n = r.engines.toNat) ∧ (1 ≤ r.labelLen.toNat ∧ r.labelLen.toNat ≤ 16) ∧ (r.contextLen.toNat ≤ 32) ∧ (bit r.engines.toNat 0 = false) ∧ (s.hub.get (H.commit r.dest.toNat) ≤ 1) ∧ (s.hub.get H.endLevels = 0) ∧ (s.hub.get H.endSession = 0) ∧ (∀ l : Nat, l < 4 → s.hub.get (O.accessKeySlot l) ≠ r.dest.toNat) ∧ (s.hub.inRom = false) ∧ (s.hub.handingOver = false) :=
  ⟨st [(O.rootState, 1), (H.rootSecret, 5)], ⟨0x40, 9, 2, 4, 0, [1, 2, 3, 4], []⟩, 5, 255, by decide +kernel⟩

set_option maxRecDepth 1000000 in
theorem test_keyCommands_4 : ∃ (s : State) (r : DeriveRequest) (hit : BitVec 9), (s.hub.domainsOn = true) ∧ (s.hub.keysBusy = false) ∧ (SlotSound s.hub r.source.toNat) ∧ (s.hub.deriveSource r.source.toNat = none) ∧ (s.hub.get H.endLevels = 0) ∧ (s.hub.get H.endSession = 0) ∧ (s.hub.inRom = false) ∧ (s.hub.handingOver = false) :=
  ⟨st [], ⟨0x40, 9, 2, 4, 0, [1, 2, 3, 4], []⟩, 0, by decide +kernel⟩

set_option maxRecDepth 1000000 in
theorem test_keyCommands_5 : ∃ (s : State), (s.hub.domainsOn = true) ∧ (s.hub.get O.rootState = 0) ∧ (s.hub.keysBusy = false) ∧ (s.hub.get O.rngState = 1) ∧ (s.hub.inRom = false) ∧ (s.hub.handingOver = false) :=
  ⟨st [(O.rngState, 1)], by decide +kernel⟩

set_option maxRecDepth 1000000 in
theorem test_keyCommands_6 : ∃ (s : State) (p : Port), (s.hub.domainsOn = true) ∧ (s.hub.get (O.linkCryptoKeyState p) = 3) ∧ (s.hub.get (H.sessionKey p 2) ≠ 0) ∧ (s.hub.get (H.sessionKey p 2) < 256 ^ 36) ∧ (s.hub.get (H.sessionKey p 3) = 0) ∧ (s.hub.inRom = false) ∧ (s.hub.handingOver = false) :=
  ⟨st [(O.linkCryptoKeyState 5, 3), (H.sessionKey 5 2, 77)], 5, by decide +kernel⟩

set_option maxRecDepth 1000000 in
theorem test_keyCommands_7 : ∃ (s : State) (p : Port), (s.hub.domainsOn = true) ∧ (s.hub.get (O.linkCryptoKeyState p) ≠ 3) ∧ (s.hub.inRom = false) ∧ (s.hub.handingOver = false) :=
  ⟨st [], 5, by decide +kernel⟩

set_option maxRecDepth 1000000 in
theorem test_keyCommands_8 : ∃ (s : State) (lvl : Level) (t : Transport) (slot engines : BitVec 8) (key : BitVec 256) (hit : BitVec 9), (s.hub.domainsOn = true) ∧ (lvl ≠ .owner) ∧ (s.hub.get H.endLevels = 0) ∧ (s.hub.get H.endSession = 0) ∧ (s.hub.inRom = false) ∧ (s.hub.handingOver = false) :=
  ⟨st [], .engineer, .t1s, 64, 0, 5, 0, by decide +kernel⟩

set_option maxRecDepth 1000000 in
theorem test_keyCommands_9 : ∃ (s : State) (t : Transport) (slot engines : BitVec 8) (key : BitVec 256) (hit : BitVec 9), (s.hub.domainsOn = true) ∧ (t ≠ .t1s) ∧ (slot.toNat ≤ 63) ∧ (1 ≤ engines.toNat ∧ engines.toNat ≤ 15) ∧ (bit (s.hub.get O.tamperActive) 6 = true) ∧ (s.hub.get H.endLevels = 0) ∧ (s.hub.get H.endSession = 0) ∧ (s.hub.inRom = false) ∧ (s.hub.handingOver = false) :=
  ⟨st [(O.tamperActive, 64)], .mailbox, 63, 15, 5, 511, by decide +kernel⟩

set_option maxRecDepth 1000000 in
theorem test_keyCommands_10 : ∃ (s : State) (r : DeriveRequest) (hit : BitVec 9), (s.hub.domainsOn = true) ∧ (s.hub.flag O.tamperLatch = true ∨ bit (s.hub.get O.tamperActive) 6 = true) ∧ (s.hub.get H.endLevels = 0) ∧ (s.hub.get H.endSession = 0) ∧ (s.hub.inRom = false) ∧ (s.hub.handingOver = false) ∧ (SlotSound s.hub r.source.toNat) :=
  ⟨st [(O.tamperActive, 64)], ⟨63, 2, 3, 1, 0, [], []⟩, 511, by decide +kernel⟩

set_option maxRecDepth 1000000 in
theorem test_keyCommands_11 : ∃ (s : State), (s.hub.domainsOn = true) ∧ (s.hub.flag O.tamperLatch = true ∨ bit (s.hub.get O.tamperActive) 6 = true) ∧ (s.hub.inRom = false) ∧ (s.hub.handingOver = false) :=
  ⟨st [(O.tamperLatch, 1)], by decide +kernel⟩

set_option maxRecDepth 1000000 in
theorem test_keyCommands_12 : ∃ (s : State) (t : Transport) (slot engines : BitVec 8) (key : BitVec 256) (hit : BitVec 9), (s.hub.domainsOn = true) ∧ (t ≠ .t1s ∨ s.hub.flag O.t1sKeyLoad = true) ∧ (slot.toNat ≤ 63) ∧ (1 ≤ engines.toNat ∧ engines.toNat ≤ 15) ∧ (s.hub.keysBusy = false) ∧ (s.hub.get (H.commit slot.toNat) ≤ 1) ∧ (s.hub.get H.endLevels = 0) ∧ (s.hub.get H.endSession = 0) ∧ (s.hub.inRom = false) ∧ (s.hub.handingOver = false) ∧ (s.hub.tamperActing hit.toNat = 0) :=
  ⟨st [(O.tamperEnable, 4)], .mailbox, 63, 15, 5, 3, by decide +kernel⟩

set_option maxRecDepth 1000000 in
theorem test_keyCommands_13 : ∃ (s : State) (t : Transport) (slot engines : BitVec 8) (key : BitVec 256) (hit : BitVec 9), (s.hub.domainsOn = true) ∧ (t ≠ .t1s ∨ s.hub.flag O.t1sKeyLoad = true) ∧ (slot.toNat ≤ 63) ∧ (1 ≤ engines.toNat ∧ engines.toNat ≤ 15) ∧ (s.hub.keysBusy = false) ∧ (s.hub.get (H.commit slot.toNat) ≤ 1) ∧ (s.hub.get H.endLevels = 0) ∧ (s.hub.get H.endSession = 0) ∧ (s.hub.inRom = false) ∧ (s.hub.handingOver = false) ∧ (s.hub.tamperActing hit.toNat ≠ 0) :=
  ⟨st [(O.tamperEnable, 4)], .mailbox, 63, 15, 5, 4, by decide +kernel⟩

set_option maxRecDepth 1000000 in
theorem test_keyCommands_14 : ∃ (s : State) (r : DeriveRequest) (k n : Nat) (hit : BitVec 9), (s.hub.domainsOn = true) ∧ (s.hub.keysBusy = false) ∧ (SlotSound s.hub r.source.toNat) ∧ (s.hub.deriveSource r.source.toNat = some (k, n)) ∧ (r.dest.toNat ≤ 63) ∧ (r.dest ≠ r.source) ∧ (Nat.land r.engines.toNat n = r.engines.toNat) ∧ (1 ≤ r.labelLen.toNat ∧ r.labelLen.toNat ≤ 16) ∧ (r.contextLen.toNat ≤ 32) ∧ (s.hub.get (H.commit r.dest.toNat) ≤ 1) ∧ (s.hub.get H.endLevels = 0) ∧ (s.hub.get H.endSession = 0) ∧ (s.hub.inRom = false) ∧ (s.hub.handingOver = false) ∧ (s.hub.tamperActing hit.toNat = 0) :=
  ⟨st [(O.rootState, 1), (H.rootSecret, 5), (O.tamperEnable, 4)], ⟨0x40, 9, 2, 4, 0, [1, 2, 3, 4], []⟩, 5, 255, 3, by decide +kernel⟩

set_option maxRecDepth 1000000 in
theorem test_keyCommands_15 : ∃ (s : State) (r : DeriveRequest) (k n : Nat) (hit : BitVec 9), (s.hub.domainsOn = true) ∧ (s.hub.keysBusy = false) ∧ (SlotSound s.hub r.source.toNat) ∧ (s.hub.deriveSource r.source.toNat = some (k, n)) ∧ (r.dest.toNat ≤ 63) ∧ (r.dest ≠ r.source) ∧ (Nat.land r.engines.toNat n = r.engines.toNat) ∧ (1 ≤ r.labelLen.toNat ∧ r.labelLen.toNat ≤ 16) ∧ (r.contextLen.toNat ≤ 32) ∧ (s.hub.get (H.commit r.dest.toNat) ≤ 1) ∧ (s.hub.get H.endLevels = 0) ∧ (s.hub.get H.endSession = 0) ∧ (s.hub.inRom = false) ∧ (s.hub.handingOver = false) ∧ (s.hub.tamperActing hit.toNat ≠ 0) :=
  ⟨st [(O.rootState, 1), (H.rootSecret, 5), (O.tamperEnable, 4)], ⟨0x40, 63, 2, 4, 0, [1, 2, 3, 4], []⟩, 5, 255, 4, by decide +kernel⟩

theorem test_tamperAndFuses_1 : ∃ (s : State) (src : BitVec 9) (act : Nat), (Nat.land (Nat.land src.toNat (511 - s.hub.get O.tamperActive % 512)) (s.hub.get O.tamperEnable) = act) ∧ (act ≠ 0) ∧ (3 ≤ s.hub.get O.powerState ∨ s.hub.flag H.running = false) ∧ (s.hub.get O.activationState = 0) ∧ (s.hub.get O.tamperEnable < 512) :=
  ⟨st [(O.tamperEnable, 511), (O.powerState, 3)], 64, 64, by decide +kernel⟩

set_option maxRecDepth 1000000 in
theorem test_tamperAndFuses_2 : ∃ (s : State) (src : BitVec 9), (Nat.land src.toNat (s.hub.get O.tamperEnable) = 0) ∧ (s.hub.get O.activationState = 0) :=
  ⟨st [(O.tamperEnable, 0)], 3, by decide +kernel⟩

set_option maxRecDepth 1000000 in
theorem test_tamperAndFuses_3 : ∃ (s : State) (v : BitVec 16), (s.hub.domainsOn = true) ∧ (s.hub.inRom = false) ∧ (s.hub.handingOver = false) :=
  ⟨st [], 5, by decide +kernel⟩

set_option maxRecDepth 1000000 in
theorem test_tamperAndFuses_4 : ∃ (s : State), (s.hub.domainsOn = true) ∧ (bit (s.hub.get (O.slotInfoSigner (s.hub.get O.runningSlot))) 1 = true) ∧ (s.hub.get O.pkRevoked < 256) ∧ (s.hub.inRom = false) ∧ (s.hub.handingOver = false) :=
  ⟨st [(O.runningSlot, 0), (O.slotInfoSigner 0, 2)], by decide +kernel⟩

set_option maxRecDepth 1000000 in
theorem test_tamperAndFuses_5 : ∃ (s : State) (v : BitVec 16), (s.hub.domainsOn = true) ∧ (v ≠ 0xA5C3) ∧ (s.hub.inRom = false) ∧ (s.hub.handingOver = false) :=
  ⟨st [], 0xA5C2, by decide +kernel⟩

set_option maxRecDepth 1000000 in
theorem test_tamperAndFuses_6 : ∃ (s : State), (s.hub.domainsOn = true) ∧ (bit (s.hub.get (O.slotInfoSigner (s.hub.get O.runningSlot))) 0 = true) ∧ (s.hub.get O.pkRevoked < 256) ∧ (s.hub.inRom = false) ∧ (s.hub.handingOver = false) :=
  ⟨st [(O.runningSlot, 0), (O.slotInfoSigner 0, 1)], by decide +kernel⟩

set_option maxRecDepth 1000000 in
theorem test_tamperAndFuses_7 : ∃ (s : State), (s.hub.domainsOn = true) ∧ (s.hub.hasImageSlot = true) ∧ (s.hub.inRom = false) ∧ (s.hub.handingOver = false) :=
  ⟨st [(O.keySlotState 5, 1), (O.keySlotEngines 5, 4)], by decide +kernel⟩

set_option maxRecDepth 1000000 in
theorem test_tamperAndFuses_8 : ∃ (s : State), (s.hub.domainsOn = true) ∧ (s.hub.get O.activationState = 0) ∧ (s.hub.get O.rngFails < 2 ^ 32 - 1) :=
  ⟨st [], by decide +kernel⟩

set_option maxRecDepth 1000000 in
theorem test_tamperAndFuses_9 : ∃ (s : State), (s.hub.domainsOn = true) ∧ (s.hub.get O.activationState = 0) ∧ (∀ p : Nat, p < 24 → s.hub.awaitsNonce p = false) :=
  ⟨st [], by decide +kernel⟩

set_option maxRecDepth 1000000 in
theorem test_tamperAndFuses_10 : ∃ (s : State) (p : Port), (s.hub.domainsOn = true) ∧ (s.hub.get O.activationState = 0) ∧ (s.hub.awaitsNonce p = true) :=
  ⟨st [(O.linkState 23, 2), (H.crypt 23, 1), (O.rngState, 2), (O.linkCryptoKeySlot 23, 5), (O.keySlotState 5, 1), (O.keySlotEngines 5, 1), (H.halfKey 5 0, 77)], 23, by decide +kernel⟩

set_option maxRecDepth 1000000 in
theorem test_tamperAndFuses_11 : ∃ (s : State), (s.hub.domainsOn = true) ∧ (bit (s.hub.get (O.slotInfoSigner (s.hub.get O.runningSlot))) 1 = false) ∧ (s.hub.inRom = false) ∧ (s.hub.handingOver = false) :=
  ⟨st [], by decide +kernel⟩

set_option maxRecDepth 1000000 in
theorem test_tamperAndFuses_12 : ∃ (s : State), (s.hub.domainsOn = true) ∧ (bit (s.hub.get (O.slotInfoSigner (s.hub.get O.runningSlot))) 0 = false) ∧ (s.hub.inRom = false) ∧ (s.hub.handingOver = false) :=
  ⟨st [], by decide +kernel⟩

set_option maxRecDepth 1000000 in
theorem test_tamperAndFuses_13 : ∃ (s : State), (s.hub.domainsOn = true) ∧ (s.hub.hasImageSlot = false) ∧ (s.hub.inRom = false) ∧ (s.hub.handingOver = false) :=
  ⟨st [], by decide +kernel⟩

set_option maxRecDepth 1000000 in
theorem test_tamperAndFuses_14 : ∃ (s : State) (src : BitVec 9) (act : Nat), (Nat.land (Nat.land src.toNat (511 - s.hub.get O.tamperActive % 512)) (s.hub.get O.tamperEnable) = act) ∧ (act ≠ 0) ∧ (s.hub.flag H.running = true) ∧ (s.hub.get O.powerState = 0) ∧ (s.hub.get O.activationState = 0) ∧ (s.hub.get O.tamperEnable < 512) :=
  ⟨st [(H.running, 1), (O.tamperEnable, 5)], 5, 5, by decide +kernel⟩

theorem test_umpireEventPath_1 : ∃ (s : State) (e : SourceEvent), (s.hub.lines = []) ∧ (s.hub.windows = []) ∧ (s.hub.masked e.source e.unit.toNat = false) ∧ (reservedSource e.source = false) ∧ (s.hub.get (O.sourceSeverity e.source) = 1) ∧ (1 < s.hub.get O.faultNLevel) ∧ (s.hub.get O.firstSource = 255) ∧ (e.source.val ≠ 0) ∧ (s.hub.get O.faultSeq < 2 ^ 32 - 1) ∧ (s.hub.get (O.sourceEvents e.source) < 2 ^ 32 - 1) :=
  ⟨st [(H.running, 1), (O.sourceSeverity 84, 1), (O.faultNLevel, 3)], ⟨84, 255, 9⟩, by decide +kernel⟩

theorem test_umpireEventPath_2 : ∃ (s : State) (e : SourceEvent), (s.hub.lines = []) ∧ (s.hub.windows = []) ∧ (s.hub.masked e.source e.unit.toNat = false) ∧ (reservedSource e.source = false) ∧ (s.hub.get (O.sourceSeverity e.source) = 0) ∧ (s.hub.get (O.sourceEvents e.source) < 2 ^ 32 - 1) :=
  ⟨st [(H.running, 1), (O.sourceSeverity 84, 0)], ⟨84, 255, 9⟩, by decide +kernel⟩

theorem test_umpireEventPath_3 : ∃ (s : State) (e : SourceEvent), (s.hub.lines = []) ∧ (s.hub.masked e.source e.unit.toNat = true ∨ reservedSource e.source = true) :=
  ⟨st [(H.running, 1)], ⟨95, 255, 9⟩, by decide +kernel⟩

set_option maxRecDepth 1000000 in
theorem test_umpireCommands_1 : ∃ (s : State) (r : BitVec 16) (w : Window), (s.hub.windows = [w]) ∧ (w.id % 65536 = r.toNat) ∧ (w.ended = true) :=
  ⟨sth [] fun c => { c with windows := [⟨9, 45, 2, 3, true, 50, 0, 0, false, false, 9⟩] }, 9, ⟨9, 45, 2, 3, true, 50, 0, 0, false, false, 9⟩, by decide +kernel⟩

set_option maxRecDepth 1000000 in
theorem test_umpireCommands_2 : ∃ (s : State) (r : BitVec 16) (w : Window), (s.hub.windows = [w]) ∧ (w.id % 65536 = r.toNat) ∧ (w.ended = false) :=
  ⟨sth [] fun c => { c with windows := [⟨9, 45, 2, 3, false, 50, 0, 0, false, false, 9⟩] }, 9, ⟨9, 45, 2, 3, false, 50, 0, 0, false, false, 9⟩, by decide +kernel⟩

set_option maxRecDepth 1000000 in
theorem test_umpireCommands_3 : ∃ (s : State), (s.hub.flag H.faultNTime = true) ∧ (s.hub.get O.faultNMode = 0) ∧ (s.hub.flag H.faultNFatal = false) :=
  ⟨st [(H.faultNTime, 1), (O.faultNState, 1), (O.faultNMode, 0)], by decide +kernel⟩

set_option maxRecDepth 1000000 in
theorem test_umpireCommands_4 : ∃ (s : State), (s.hub.flag H.faultNTime = true) ∧ (s.hub.get O.faultNMode = 1) ∧ (s.hub.flag H.faultNFree = false) :=
  ⟨st [(H.faultNTime, 1), (O.faultNState, 1), (O.faultNMode, 1)], by decide +kernel⟩

set_option maxRecDepth 1000000 in
theorem test_umpireCommands_5 : ∃ (s : State) (lvl : Level), (s.hub.domainsOn = true) ∧ (Engineers lvl) ∧ (s.hub.flag O.faultNState = true) ∧ (s.hub.flag H.faultNTime = false) ∧ (s.hub.handingOver = false) :=
  ⟨st [(O.faultNState, 1)], .engineer, by decide +kernel⟩

set_option maxRecDepth 1000000 in
theorem test_umpireCommands_6 : ∃ (s : State) (lvl : Level), (s.hub.domainsOn = true) ∧ (Engineers lvl) ∧ (s.hub.handingOver = false) :=
  ⟨st [], .engineer, by decide +kernel⟩

set_option maxRecDepth 1000000 in
theorem test_umpireCommands_7 : ∃ (s : State) (lvl : Level) (k : Fin 3) (v : BitVec 32), (s.hub.domainsOn = true) ∧ (Engineers lvl) ∧ (s.hub.get (statusWord (32 * k.val)) < 2 ^ 32) ∧ (s.hub.handingOver = false) :=
  ⟨st [(O.status1, 5)], .engineer, 1, 4, by decide +kernel⟩

set_option maxRecDepth 1000000 in
theorem test_umpireCommands_8 : ∃ (s : State) (lvl : Level) (k : Fin 96) (v : SourceConfig), (s.hub.domainsOn = true) ∧ (Engineers lvl) ∧ (sourceConfigAllowed k v = true) ∧ (s.hub.handingOver = false) :=
  ⟨st [], .engineer, 84, ⟨5, 5, 1, 3600000⟩, by decide +kernel⟩

set_option maxRecDepth 1000000 in
theorem test_umpireCommands_9 : ∃ (s : State) (lvl : Level) (k : Fin 96) (v : SourceConfig), (s.hub.domainsOn = true) ∧ (Engineers lvl) ∧ (5 < v.severity.toNat ∨ v.escCount = 0 ∨ v.escTo.toNat < 3) ∧ (s.hub.handingOver = false) :=
  ⟨st [], .engineer, 84, ⟨6, 5, 1, 1⟩, by decide +kernel⟩

set_option maxRecDepth 1000000 in
theorem test_umpireCommands_10 : ∃ (s : State) (lvl : Level) (v : BitVec 32), (s.hub.domainsOn = true) ∧ (Engineers lvl) ∧ (s.hub.get O.degraded < 2 ^ 32) ∧ (s.hub.handingOver = false) :=
  ⟨st [(O.degraded, 9)], .engineer, 8, by decide +kernel⟩

theorem test_transferCommands_1 : ∃ (s : State) (lvl : Level) (size : BitVec 32) (ident : BitVec 64), (s.hub.domainsOn = true) ∧ (Engineers lvl) ∧ (s.hub.get O.transferState = 0) ∧ (s.hub.get H.programming = 0) ∧ (s.hub.flag O.updateLock = false) ∧ (s.hub.get O.activationState = 0) ∧ (size.toNat % 4096 = 0) ∧ (16384 ≤ size.toNat ∧ size.toNat ≤ 29360128) ∧ (s.hub.handingOver = false) :=
  ⟨st [], .engineer, 16384, 5, by decide +kernel⟩

set_option maxRecDepth 1000000 in
theorem test_transferCommands_2 : ∃ (s : State) (size : BitVec 32) (ident : BitVec 64), (s.hub.domainsOn = true) ∧ (s.hub.handingOver = false) :=
  ⟨st [], 64, 5, by decide +kernel⟩

set_option maxRecDepth 1000000 in
theorem test_transferCommands_3 : ∃ (s : State) (lvl : Level), (s.hub.domainsOn = true) ∧ (Engineers lvl) ∧ (s.hub.get O.transferState ≠ 0) ∧ (s.hub.get H.transferTarget = 1) ∧ (s.hub.get H.programming = 0) ∧ (s.hub.get O.activationState = 0) ∧ (s.hub.handingOver = false) :=
  ⟨st [(O.transferState, 2), (H.transferTarget, 1), (H.transferSlot, 1)], .engineer, by decide +kernel⟩

set_option maxRecDepth 1000000 in
theorem test_transferCommands_4 : ∃ (s : State) (lvl : Level), (s.hub.domainsOn = true) ∧ (Engineers lvl) ∧ (s.hub.get O.transferState ≠ 0) ∧ (s.hub.get H.programming ≠ 0) ∧ (s.hub.blockWait = []) ∧ (s.hub.handingOver = false) :=
  ⟨st [(O.transferState, 2), (H.programming, 3)], .engineer, by decide +kernel⟩

set_option maxRecDepth 1000000 in
theorem test_transferCommands_5 : ∃ (s : State) (lvl : Level), (s.hub.domainsOn = true) ∧ (Engineers lvl) ∧ (s.hub.get O.transferState = 0) ∧ (s.hub.handingOver = false) :=
  ⟨st [], .engineer, by decide +kernel⟩

set_option maxRecDepth 1000000 in
theorem test_transferCommands_6 : ∃ (s : State) (lvl : Level) (k : Nat) (bs : Bytes) (crc : BitVec 32), (s.hub.domainsOn = true) ∧ (Engineers lvl) ∧ (s.hub.get O.transferState = 1) ∧ (k < s.hub.get O.blocksTotal) ∧ (k < 7168) ∧ (bs.length = 4096) ∧ (crc32c bs = crc.toNat) ∧ (s.hub.get H.programming = 0) ∧ (s.mem.wf = true) ∧ (s.hub.handingOver = false) :=
  ⟨st [(O.transferState, 1), (O.blocksTotal, 4)], .engineer, 3, List.replicate 4096 0, 0x98F94189, by decide +kernel⟩

set_option maxRecDepth 1000000 in
theorem test_transferCommands_7 : ∃ (s : State) (lvl : Level) (k : Nat) (bs : Bytes) (crc : BitVec 32), (s.hub.domainsOn = true) ∧ (Engineers lvl) ∧ (s.hub.get O.transferState = 0 ∨ s.hub.get O.blocksTotal ≤ k) ∧ (s.hub.handingOver = false) :=
  ⟨st [], .engineer, 3, [], 0, by decide +kernel⟩

set_option maxRecDepth 1000000 in
theorem test_transferCommands_8 : ∃ (s : State) (k : Nat), (s.hub.domainsOn = true) ∧ (s.hub.get H.programming = k + 1) ∧ (s.hub.blockWait = []) ∧ (s.hub.get O.blocksTotal < 2 ^ 16) ∧ (s.hub.get (O.bitmapByte (k / 8)) < 256) :=
  ⟨st [(H.programming, 4), (O.blocksTotal, 9), (O.transferState, 1)], 3, by decide +kernel⟩

set_option maxRecDepth 1000000 in
theorem test_transferCommands_9 : ∃ (s : State) (lvl : Level), (s.hub.domainsOn = true) ∧ (Engineers lvl) ∧ (s.hub.get O.activationState ≤ 1) ∧ (s.hub.get O.transferState = 2 ∨ s.hub.get O.transferState = 4 ∨ s.hub.get O.transferState = 5) ∧ (s.hub.handingOver = false) :=
  ⟨st [(O.transferState, 2)], .engineer, by decide +kernel⟩

set_option maxRecDepth 1000000 in
theorem test_transferCommands_10 : ∃ (s : State) (lvl : Level), (s.hub.domainsOn = true) ∧ (Engineers lvl) ∧ (2 ≤ s.hub.get O.activationState ∨ s.hub.get O.transferState ≤ 1) ∧ (s.hub.handingOver = false) :=
  ⟨st [(O.transferState, 1)], .engineer, by decide +kernel⟩

set_option maxRecDepth 1000000 in
theorem test_transferCommands_11 : ∃ (s : State) (r : Nat), (s.hub.domainsOn = true) ∧ (s.hub.get O.transferState = 3) ∧ (s.hub.get H.transferTarget = 1) ∧ (s.hub.inRom = false) ∧ (s.hub.get O.activationState = 0) ∧ (s.hub.useImageKeys = s.hub) ∧ (s.hub.verifyImage s.mem (slotBase (s.hub.get H.transferSlot)) (s.hub.get H.transferSize) [1, 2, 3, 4, 5, 6, 7, 8, 9] = r) :=
  ⟨st [(O.transferState, 3), (H.transferTarget, 1), (H.transferSize, 16384), (O.role, 1)], (st [(O.transferState, 3), (H.transferTarget, 1), (H.transferSize, 16384), (O.role, 1)]).hub.verifyImage (st []).mem (slotBase 0) 16384 [1, 2, 3, 4, 5, 6, 7, 8, 9], by decide +kernel⟩

set_option maxRecDepth 1000000 in
theorem test_transferCommands_12 : ∃ (s : State), (s.hub.domainsOn = true) ∧ (s.hub.get O.transferState = 3) ∧ (s.hub.get H.transferTarget = 2) ∧ (s.hub.get H.transferSlot < 4) ∧ (s.hub.recordPasses s.mem (recordBase (s.hub.get H.transferSlot)) (s.hub.get H.transferSize) = true) :=
  ⟨{ st [(O.transferState, 3), (H.transferTarget, 2), (H.transferSlot, 1), (H.transferSize, 33)] with mem := ((st []).mem.writeFlash (recordBase 1) (recordHeader 0 3 9 [5] ++ [5])).writeFlash (slotBase 0 + 18) [0, 0] }, by decide +kernel⟩

theorem test_activationCommands_1 : ∃ (s : State), (s.hub.domainsOn = true) ∧ (s.hub.get O.activationState = 0) ∧ (s.hub.activationRefusal = 0) ∧ (s.hub.get O.transferState = 0) ∧ (s.hub.handingOver = false) :=
  ⟨sth [(O.slotInfoState 1, 3), (O.rngState, 1), (O.runningSlot, 0), (O.feedRequire, 0)] fun c => { c with now := 5000000 }, by decide +kernel⟩

set_option maxRecDepth 1000000 in
theorem test_activationCommands_2 : ∃ (s : State) (r : Nat), (s.hub.domainsOn = true) ∧ (s.hub.get O.activationState = 0) ∧ (s.hub.activationRefusal = r) ∧ (r ≠ 0) ∧ (s.hub.handingOver = false) :=
  ⟨st [(O.updateLock, 1)], 1, by decide +kernel⟩

set_option maxRecDepth 1000000 in
theorem test_activationCommands_3 : ∃ (s : State), (s.hub.domainsOn = true) ∧ (s.hub.get O.activationState = 0) ∧ (s.hub.handingOver = false) :=
  ⟨st [], by decide +kernel⟩

set_option maxRecDepth 1000000 in
theorem test_activationCommands_4 : ∃ (s : State), (s.hub.domainsOn = true) ∧ (s.hub.get O.activationState = 1) ∧ (s.hub.handingOver = false) :=
  ⟨st [(O.activationState, 1)], by decide +kernel⟩

set_option maxRecDepth 1000000 in
theorem test_activationCommands_5 : ∃ (s : State), (s.hub.domainsOn = true) ∧ (s.hub.get O.activationState = 1) ∧ (s.hub.activationRefusal = 0) ∧ (s.hub.get O.transferState = 0) :=
  ⟨sth [(O.activationState, 1), (O.slotInfoState 1, 3), (O.rngState, 1), (O.runningSlot, 0), (O.feedRequire, 0)] fun c => { c with now := 5000000 }, by decide +kernel⟩

set_option maxRecDepth 1000000 in
theorem test_activationCommands_6 : ∃ (s : State) (b : Bool), (s.hub.get O.activationState = 0) ∧ (s.hub.flag O.lineRun = false) :=
  ⟨st [], true, by decide +kernel⟩

set_option maxRecDepth 1000000 in
theorem test_activationCommands_7 : ∃ (s : State) (b : Bool), (s.hub.domainsOn = true) ∧ (s.hub.get O.activationState = 0) ∧ (s.hub.handingOver = false) :=
  ⟨st [], true, by decide +kernel⟩

set_option maxRecDepth 1000000 in
theorem test_activationCommands_8 : ∃ (s : State) (r : Nat), (s.hub.domainsOn = true) ∧ (s.hub.get O.activationState = 2) ∧ (s.hub.flag H.deferred = false) ∧ (s.hub.useImageKeys = s.hub) ∧ (s.hub.verifyImage s.mem (slotBase s.hub.otherSlot) (s.hub.get (O.slotInfoSize s.hub.otherSlot)) [2, 3, 4, 5, 6, 7, 8, 9] = r) :=
  ⟨st [(O.activationState, 2), (O.slotInfoSize 1, 16384), (O.runningSlot, 0)], (st [(O.activationState, 2), (O.slotInfoSize 1, 16384), (O.runningSlot, 0)]).hub.verifyImage (st []).mem (slotBase 1) 16384 [2, 3, 4, 5, 6, 7, 8, 9], by decide +kernel⟩

set_option maxRecDepth 1000000 in
theorem test_activationCommands_9 : ∃ (s : State), (s.hub.domainsOn = true) ∧ (s.hub.get O.activationState = 3) ∧ (s.mem.imageFormat (slotBase (s.hub.get O.runningSlot)) = s.mem.imageFormat (slotBase s.hub.otherSlot)) ∧ (s.hub.get O.role ≠ 2) :=
  ⟨st [(O.activationState, 3), (O.runningSlot, 0), (O.role, 1)], by decide +kernel⟩

set_option maxRecDepth 1000000 in
theorem test_activationCommands_10 : ∃ (s : State), (s.hub.domainsOn = true) ∧ (s.hub.get O.activationState = 3) ∧ (s.hub.flag H.deferred = false) :=
  ⟨st [(O.activationState, 3), (O.runningSlot, 0)], by decide +kernel⟩

set_option maxRecDepth 1000000 in
theorem test_activationCommands_11 : ∃ (s : State), (s.hub.domainsOn = true) ∧ (s.hub.get O.activationState = 4) ∧ (s.hub.handoverMayStart = true) :=
  ⟨st [(O.activationState, 4), (O.role, 1)], by decide +kernel⟩

set_option maxRecDepth 1000000 in
theorem test_activationCommands_12 : ∃ (s : State) (v : BitVec 32), (s.hub.domainsOn = true) ∧ (s.hub.get O.activationState = 5) ∧ (s.hub.heldOrder = []) ∧ (s.hub.get H.flushing = 0) ∧ (s.hub.get H.notifyHeld = 0) ∧ (s.hub.mgmtWait = []) ∧ (s.hub.tlpWait = []) :=
  ⟨st [(O.activationState, 5)], 900, by decide +kernel⟩

set_option maxRecDepth 1000000 in
theorem test_activationCommands_13 : ∃ (s : State) (v : BitVec 32), (s.hub.domainsOn = true) ∧ (s.hub.get O.activationState = 5) ∧ (s.hub.flag H.deferred = false) ∧ (s.hub.heldOrder = []) ∧ (s.hub.get H.flushing = 0) ∧ (s.hub.get H.notifyHeld = 0) ∧ (s.hub.mgmtWait = []) ∧ (s.hub.tlpWait = []) :=
  ⟨st [(O.activationState, 5)], 900, by decide +kernel⟩

theorem test_confirmationAndSettings_1 : ∃ (s : State) (lvl : Level), (s.hub.domainsOn = true) ∧ (Engineers lvl) ∧ (s.hub.get O.activationState = 6) ∧ (s.hub.now < s.hub.get H.confirmEnd) ∧ (s.hub.get O.runningSlot ≤ 1) ∧ (s.hub.handingOver = false) :=
  ⟨st [(O.activationState, 6), (H.confirmEnd, 50), (O.runningSlot, 1)], .engineer, by decide +kernel⟩

set_option maxRecDepth 1000000 in
theorem test_confirmationAndSettings_2 : ∃ (s : State), (s.hub.domainsOn = true) ∧ (s.hub.get O.activationState = 6) ∧ (s.hub.flag H.noHandback = false) ∧ (s.hub.handingOver = false) :=
  ⟨st [(O.activationState, 6)], by decide +kernel⟩

set_option maxRecDepth 1000000 in
theorem test_confirmationAndSettings_3 : ∃ (s : State), (s.hub.domainsOn = true) ∧ (s.hub.get O.activationState = 6) ∧ (s.hub.flag H.noHandback = true) ∧ (s.hub.handingOver = false) :=
  ⟨st [(O.activationState, 6), (H.noHandback, 1)], by decide +kernel⟩

set_option maxRecDepth 1000000 in
theorem test_confirmationAndSettings_4 : ∃ (s : State), (s.hub.domainsOn = true) ∧ (s.hub.get O.activationState = 6) ∧ (s.hub.flag H.noHandback = false) :=
  ⟨st [(O.activationState, 6), (H.confirmEnd, 50)], by decide +kernel⟩

set_option maxRecDepth 1000000 in
theorem test_confirmationAndSettings_5 : ∃ (s : State), (s.hub.domainsOn = true) ∧ (s.hub.flag O.updateLock = false) ∧ (s.hub.flag O.lineRun = false) ∧ (s.hub.get H.endLevels = 0) ∧ (s.hub.get H.endSession = 0) ∧ (NetworkSettled s.hub) ∧ (s.hub.handingOver = false) :=
  ⟨st [(H.running, 1)], by decide +kernel⟩

set_option maxRecDepth 1000000 in
theorem test_confirmationAndSettings_6 : ∃ (s : State), (s.hub.domainsOn = true) ∧ (s.hub.flag O.updateLock = true ∨ s.hub.flag O.lineRun = true) ∧ (s.hub.get H.endLevels = 0) ∧ (s.hub.get H.endSession = 0) ∧ (s.hub.flag H.resetDue = false) ∧ (NetworkSettled s.hub) ∧ (s.hub.handingOver = false) :=
  ⟨st [(O.lineRun, 1)], by decide +kernel⟩

set_option maxRecDepth 1000000 in
theorem test_confirmationAndSettings_7 : ∃ (s : State), (s.hub.domainsOn = true) ∧ (s.hub.inRom = true) ∧ (s.hub.get O.role ≠ 3) ∧ (s.hub.get (O.slotInfoState s.hub.receivingSlot) = 3) ∧ (s.hub.get H.endLevels = 0) ∧ (s.hub.get H.endSession = 0) ∧ (NetworkSettled s.hub) ∧ (s.hub.handingOver = false) :=
  ⟨st [(O.role, 1), (O.recoveryCause, 1), (O.slotInfoState 0, 3), (O.bootSlot, 1)], by decide +kernel⟩

set_option maxRecDepth 1000000 in
theorem test_confirmationAndSettings_8 : ∃ (s : State) (lvl : Level) (b : Bool), (s.hub.domainsOn = true) ∧ (s.hub.inRom = false) ∧ (s.hub.get H.endLevels = 0) ∧ (s.hub.get H.endSession = 0) ∧ (s.hub.flag H.resetDue = false) ∧ (NetworkSettled s.hub) ∧ (s.hub.handingOver = false) :=
  ⟨st [(O.role, 1)], .owner, true, by decide +kernel⟩

set_option maxRecDepth 1000000 in
theorem test_confirmationAndSettings_9 : ∃ (s : State) (lvl : Level) (v : BitVec 32), (s.hub.domainsOn = true) ∧ (s.hub.inRom = true) ∧ (s.hub.handingOver = false) :=
  ⟨st [(O.role, 3)], .engineer, 96000, by decide +kernel⟩

set_option maxRecDepth 1000000 in
theorem test_confirmationAndSettings_10 : ∃ (s : State), (s.hub.domainsOn = true) ∧ (s.hub.saving = false) ∧ (s.hub.settingsHeld = false) ∧ (s.hub.inRom = false) ∧ (s.hub.handingOver = false) :=
  ⟨st [], by decide +kernel⟩

set_option maxRecDepth 1000000 in
theorem test_confirmationAndSettings_11 : ∃ (s : State), (s.hub.domainsOn = true) ∧ (s.hub.saving = true ∨ s.hub.settingsHeld = true) ∧ (s.hub.inRom = false) ∧ (s.hub.handingOver = false) :=
  ⟨st [(O.settingsState, 2)], by decide +kernel⟩

set_option maxRecDepth 1000000 in
theorem test_confirmationAndSettings_12 : ∃ (s : State), (s.hub.get O.settingsState = 2) ∧ (s.hub.get H.flushing = 0) :=
  ⟨st [(O.settingsState, 2)], by decide +kernel⟩

set_option maxRecDepth 1000000 in
theorem test_confirmationAndSettings_13 : ∃ (s : State), (s.hub.get O.settingsState = 2) ∧ (s.hub.get H.flushing = 0) ∧ (1 ≤ s.hub.get H.saveSlot) ∧ (s.hub.get H.saveSlot ≤ 4) ∧ (s.hub.get H.saveLength ≤ 1048544) ∧ (s.hub.get O.settingsSaves < 2 ^ 32 - 1) :=
  ⟨st [(O.settingsState, 2), (H.saveSlot, 4), (H.saveLength, 0)], by decide +kernel⟩

set_option maxRecDepth 1000000 in
theorem test_confirmationAndSettings_14 : ∃ (s : State), (s.hub.domainsOn = true) ∧ (s.hub.get O.activationState = 0) ∧ (s.hub.get H.endLevels = 0) ∧ (s.hub.get H.endSession = 0) ∧ (NetworkSettled s.hub) ∧ (s.hub.inRom = false) ∧ (s.hub.handingOver = false) :=
  ⟨st [], by decide +kernel⟩

set_option maxRecDepth 1000000 in
theorem test_sleepAndSagCommands_1 : ∃ (s : State) (next : Option Nat) (t : Nat), (s.hub.flag H.running = true) ∧ (s.hub.get O.powerState = 0) ∧ (s.hub.isIdle = true) ∧ (s.hub.selectState next t = 1) ∧ (s.hub.get (O.stateEntries 0) < 2 ^ 32 - 1) :=
  ⟨st [(H.running, 1), (O.sleepMax, 1), (O.role, 1)], none, 0, by decide +kernel⟩

set_option maxRecDepth 1000000 in
theorem test_sleepAndSagCommands_2 : ∃ (s : State) (next : Option Nat) (t : Nat), (s.hub.isIdle = false) :=
  ⟨sth [(H.running, 1)] fun c => { c with held := [wHeld] }, none, 0, by decide +kernel⟩

set_option maxRecDepth 1000000 in
theorem test_sleepAndSagCommands_3 : ∃ (s : State) (ps : List PoweredPort), (s.hub.get O.powerState = 1 ∨ s.hub.get O.powerState = 2) :=
  ⟨st [(O.powerState, 2)], [], by decide +kernel⟩

set_option maxRecDepth 1000000 in
theorem test_sleepAndSagCommands_4 : ∃ (s : State) (k : Fin 6) (ps : List PoweredPort), (s.hub.get O.powerState = 1 ∨ s.hub.get O.powerState = 2) ∧ (bit (s.hub.get O.wakeMask) k.val = true) :=
  ⟨st [(O.powerState, 2), (O.wakeMask, 63)], 3, [], by decide +kernel⟩

set_option maxRecDepth 1000000 in
theorem test_sleepAndSagCommands_5 : ∃ (s : State) (k : Fin 6) (ps : List PoweredPort), (bit (s.hub.get O.wakeMask) k.val = false) :=
  ⟨st [(O.powerState, 2), (O.wakeMask, 0)], 3, [], by decide +kernel⟩

set_option maxRecDepth 1000000 in
theorem test_sleepAndSagCommands_6 : ∃ (s : State) (lvl : Level) (v : BitVec 8), (s.hub.domainsOn = true) ∧ (Engineers lvl) ∧ (v.toNat ≤ 4) ∧ (s.hub.inRom = false) ∧ (s.hub.handingOver = false) :=
  ⟨st [], .engineer, 4, by decide +kernel⟩

set_option maxRecDepth 1000000 in
theorem test_sleepAndSagCommands_7 : ∃ (s : State), (s.hub.get H.sagFlags = 3) ∧ (s.hub.get O.sagStage = 2) ∧ (s.hub.flag H.running = true) ∧ (s.hub.get O.powerState = 0) ∧ (s.hub.get O.activationState = 0) ∧ (s.hub.get O.spillState = 0) ∧ (∀ p : Port, s.hub.get (O.gear p) ≤ 3) ∧ (s.hub.get (O.sagEntries 2) < 2 ^ 32 - 1) :=
  ⟨st [(H.sagFlags, 3), (O.sagStage, 2), (H.running, 1), (O.spillState, 0)], by decide +kernel⟩

set_option maxRecDepth 1000000 in
theorem test_sleepAndSagCommands_8 : ∃ (s : State) (k : Fin 5), (bit (s.hub.get H.sagFlags) k.val = true) :=
  ⟨st [(H.sagFlags, 3)], 1, by decide +kernel⟩

set_option maxRecDepth 1000000 in
theorem test_sleepAndSagCommands_9 : ∃ (s : State), (s.hub.get H.sagFlags = 3) ∧ (s.hub.get O.sagStage = 2) ∧ (s.hub.flag H.running = true) ∧ (s.hub.get O.powerState = 0) ∧ (s.hub.get O.activationState = 0) :=
  ⟨st [(H.sagFlags, 3), (O.sagStage, 2)], by decide +kernel⟩

set_option maxRecDepth 1000000 in
theorem test_sleepAndSagCommands_10 : ∃ (s : State) (k : Fin 5), (bit (s.hub.get H.sagFlags) k.val = false) :=
  ⟨st [(H.sagFlags, 3)], 3, by decide +kernel⟩

theorem test_replayLimitRule_1 : ∃ (s : State) (p : Port) (f : ReplayFlit), (s.hub.domainsOn = true) ∧ (s.hub.get (O.linkState p) = 3) ∧ ((s.hub.unreleased p).find? (fun g => g.seq == s.hub.get (H.replayPtr p)) = some f) ∧ (s.hub.get (O.replayLimit p) ≤ f.sends) ∧ (s.hub.get (O.txCounter p) + 1 < 2 ^ 48) :=
  ⟨sth [(O.linkState 23, 3), (H.replayPtr 23, 9)] fun c => { c with replay := [⟨23, 9, 0, 0, List.replicate 628 0, 4, false, []⟩] }, 23, ⟨23, 9, 0, 0, List.replicate 628 0, 4, false, []⟩, by decide +kernel⟩

set_option maxRecDepth 1000000 in
theorem test_replayLimitRule_2 : ∃ (s : State) (p : Port) (f : ReplayFlit), (s.hub.domainsOn = true) ∧ (s.hub.get (O.linkState p) = 3) ∧ ((s.hub.unreleased p).find? (fun g => g.seq == s.hub.get (H.replayPtr p)) = some f) ∧ (f.sends < s.hub.get (O.replayLimit p)) ∧ (s.hub.get (O.txCounter p) + 1 < 2 ^ 48) :=
  ⟨sth [(O.linkState 23, 3), (H.replayPtr 23, 9)] fun c => { c with replay := [⟨23, 9, 0, 0, List.replicate 628 0, 3, false, []⟩] }, 23, ⟨23, 9, 0, 0, List.replicate 628 0, 3, false, []⟩, by decide +kernel⟩

set_option maxRecDepth 1000000 in
theorem test_keyEraseRule_1 : ∃ (s : State) (slot : BitVec 8), (s.hub.domainsOn = true) ∧ (slot.toNat ≤ 63) ∧ (s.hub.keysBusy = false) ∧ (s.hub.get (H.commit slot.toNat) ≤ 1) ∧ (s.hub.get (H.halfGen slot.toNat (s.hub.get (H.commit slot.toNat))) < 2 ^ 32 - 1) ∧ (s.hub.get H.endLevels = 0) ∧ (s.hub.get H.endSession = 0) ∧ (∀ l : Nat, l < 4 → s.hub.get (O.accessKeySlot l) ≠ slot.toNat) ∧ (∀ p : Nat, p < 24 → s.hub.get (O.linkCryptoKeySlot p) ≠ slot.toNat) ∧ (s.hub.inRom = false) ∧ (s.hub.handingOver = false) :=
  ⟨st [(O.keySlotState 7, 1), (O.keySlotEngines 7, 2), (H.halfKey 7 0, 5), (H.halfGen 7 0, 3)], 7, by decide +kernel⟩

set_option maxRecDepth 1000000 in
theorem test_keyEraseRule_2 : ∃ (s : State) (slot : BitVec 8) (hit : BitVec 9), (s.hub.domainsOn = true) ∧ (63 < slot.toNat) ∧ (s.hub.get H.endLevels = 0) ∧ (s.hub.get H.endSession = 0) ∧ (s.hub.inRom = false) ∧ (s.hub.handingOver = false) :=
  ⟨st [], 64, 0, by decide +kernel⟩

set_option maxRecDepth 1000000 in
theorem test_keyEraseRule_3 : ∃ (s : State) (slot : BitVec 8) (hit : BitVec 9), (s.hub.domainsOn = true) ∧ (slot.toNat ≤ 63) ∧ (s.hub.flag O.tamperLatch = true) ∧ (s.hub.get H.endLevels = 0) ∧ (s.hub.get H.endSession = 0) ∧ (s.hub.inRom = false) ∧ (s.hub.handingOver = false) :=
  ⟨st [(O.tamperLatch, 1)], 63, 0, by decide +kernel⟩

set_option maxRecDepth 1000000 in
theorem test_keyEraseRule_4 : ∃ (s : State) (slot : BitVec 8) (hit : BitVec 9), (s.hub.domainsOn = true) ∧ (slot.toNat ≤ 63) ∧ (s.hub.keysBusy = false) ∧ (s.hub.get (H.commit slot.toNat) ≤ 1) ∧ (s.hub.get H.endLevels = 0) ∧ (s.hub.get H.endSession = 0) ∧ (s.hub.inRom = false) ∧ (s.hub.handingOver = false) ∧ (s.hub.tamperActing hit.toNat = 0) :=
  ⟨st [(O.tamperEnable, 4)], 63, 3, by decide +kernel⟩

set_option maxRecDepth 1000000 in
theorem test_keyEraseRule_5 : ∃ (s : State) (slot : BitVec 8) (hit : BitVec 9), (s.hub.domainsOn = true) ∧ (slot.toNat ≤ 63) ∧ (s.hub.keysBusy = false) ∧ (s.hub.get (H.commit slot.toNat) ≤ 1) ∧ (s.hub.get H.endLevels = 0) ∧ (s.hub.get H.endSession = 0) ∧ (s.hub.inRom = false) ∧ (s.hub.handingOver = false) ∧ (s.hub.tamperActing hit.toNat ≠ 0) :=
  ⟨st [(O.tamperEnable, 4)], 63, 4, by decide +kernel⟩

theorem test_tamperClearRule_1 : ∃ (s : State), (s.hub.domainsOn = true) ∧ (Nat.land (s.hub.get O.tamperActive) (s.hub.get O.tamperEnable) = 0) ∧ (s.hub.inRom = false) ∧ (s.hub.handingOver = false) :=
  ⟨st [(O.tamperLatch, 1)], by decide +kernel⟩

set_option maxRecDepth 1000000 in
theorem test_tamperClearRule_2 : ∃ (s : State), (s.hub.domainsOn = true) ∧ (Nat.land (s.hub.get O.tamperActive) (s.hub.get O.tamperEnable) ≠ 0) ∧ (s.hub.inRom = false) ∧ (s.hub.handingOver = false) :=
  ⟨st [(O.tamperEnable, 511), (O.tamperActive, 4)], by decide +kernel⟩

set_option maxRecDepth 1000000 in
theorem test_tamperClearRule_3 : ∃ (s : State) (lvl : Level) (b : Bool), (s.hub.domainsOn = true) ∧ (lvl ≠ .owner) ∧ (s.hub.inRom = false) ∧ (s.hub.handingOver = false) :=
  ⟨st [(O.tamperLatch, 1)], .engineer, true, by decide +kernel⟩

theorem test_sagThresholdRule_1 : ∃ (s : State) (lvl : Level) (k : Fin 5) (v : BitVec 32), (s.hub.domainsOn = true) ∧ (s.hub.handingOver = false) ∧ (s.hub.inRom = false) ∧ (Engineers lvl) ∧ (s.hub.get H.endLevels = 0) ∧ (s.hub.get H.endSession = 0) ∧ (s.hub.flag H.resetDue = false) ∧ (NetworkSettled s.hub) ∧ ([40000, 36000, 32000, 26000, 20000].getD k 0 ≤ v.toNat ∧ v.toNat ≤ [47000, 46000, 45000, 44000, 40000].getD k 0) ∧ (k.val = 0 ∨ v.toNat + 1000 ≤ s.hub.get (O.sagEnterMv (k.val - 1))) ∧ (k.val = 4 ∨ s.hub.get (O.sagEnterMv (k.val + 1)) + 1000 ≤ v.toNat) :=
  ⟨st [], .engineer, 2, 39000, by decide +kernel⟩

set_option maxRecDepth 1000000 in
theorem test_sagThresholdRule_2 : ∃ (s : State) (lvl : Level) (k : Fin 5) (v : BitVec 32), (s.hub.domainsOn = true) ∧ (s.hub.handingOver = false) ∧ (s.hub.inRom = false) ∧ (Engineers lvl) ∧ (s.hub.get H.endLevels = 0) ∧ (s.hub.get H.endSession = 0) ∧ (s.hub.flag H.resetDue = false) ∧ (NetworkSettled s.hub) ∧ (v.toNat < [40000, 36000, 32000, 26000, 20000].getD k 0 ∨ [47000, 46000, 45000, 44000, 40000].getD k 0 < v.toNat ∨ (k.val ≠ 0 ∧ s.hub.get (O.sagEnterMv (k.val - 1)) < v.toNat + 1000) ∨ (k.val ≠ 4 ∧ v.toNat < s.hub.get (O.sagEnterMv (k.val + 1)) + 1000)) :=
  ⟨st [], .owner, 2, 39001, by decide +kernel⟩

theorem test_stepRunsFront : State.reset.pending = [] := rfl

theorem test_stepKeepsMemoryCanonical : ∃ s t : State, s.memWf ∧ step s = .next t :=
  ⟨State.reset, _, rfl, rfl⟩

theorem test_commandsKeepMemory : ∃ (i : Instr) (s t : State), touchesMemory i = false ∧ exec i s = .next t :=
  ⟨.joinRepeat, State.reset, _, rfl, rfl⟩

theorem test_everyCommandAnswers_1 : ∃ (i : Instr), namesAbsentWord i = false := ⟨.scrubRead 1572863 .clean none false, rfl⟩

theorem test_everyCommandAnswers_2 : ∃ (i : Instr), namesAbsentWord i = true := ⟨.dramScrub 134217728 .clean false, rfl⟩

set_option maxRecDepth 1000000 in
theorem test_levelsRefuse_1 : ∃ (i : Instr) (s : State) (lvl need : Level), (writerOf i = some (lvl, need)) ∧ (Level.rank lvl < Level.rank need) ∧ (s.hub.domainsOn = true) ∧ (s.hub.handingOver = false) ∧ (s.hub.inRom = false) ∧ (s.hub.get H.endLevels = 0) ∧ (s.hub.get H.endSession = 0) ∧ (NetworkSettled s.hub) ∧ (s.hub.flag H.resetDue = false) :=
  ⟨.tamperClear .engineer true, st [], .engineer, .owner, rfl, by decide, by decide +kernel, rfl, rfl, rfl, rfl, ⟨rfl, rfl⟩, rfl⟩

set_option maxRecDepth 1000000 in
theorem test_levelsRefuse_2 : ∃ (i : Instr) (s : State) (w : HeldWrite), (heldOf i = some w) ∧ (s.hub.domainsOn = true) ∧ (s.hub.handingOver = true) :=
  ⟨.keyErase .owner ⟨63, 0⟩, st [(O.activationState, 5)], .keyErase .owner ⟨63, 0⟩, rfl, by decide +kernel⟩

/-! ## The published algorithms, by the examples of their standards -/

set_option maxRecDepth 1000000 in
/-- SHA-256 of "abc" (FIPS 180-4, its example). -/
theorem test_sha256_abc : beNat (sha256Bytes (ascii "abc")) = 0xba7816bf8f01cfea414140de5dae2223b00361a396177a9cb410ff61f20015ad := by decide +kernel

set_option maxRecDepth 1000000 in
/-- AES-256 of FIPS 197, C.3. -/
theorem test_aes256_fips197 : aesRounds (keySchedule (beBytes 0x000102030405060708090a0b0c0d0e0f101112131415161718191a1b1c1d1e1f 32)) 0x00112233445566778899aabbccddeeff
    = 0x8ea2b7ca516745bfeafc49904b496089 := by decide +kernel

set_option maxRecDepth 1000000 in
/-- CMAC-AES-256 of the empty message (SP 800-38B, D.3). -/
theorem test_cmac_empty : cmacAes256 (leNat (beBytes 0x603deb1015ca71be2b73aef0857d77811f352c073b6108d72d9810a30914dff4 32)) []
    = 0x028962f61b7bf89efc6b551f4667d983 := by decide +kernel

set_option maxRecDepth 1000000 in
/-- AES-256-GCM of the empty text under the zero key and IV (McGrew and Viega, test case 13). -/
theorem test_gcm_empty : gcmTag 0 0 [] [] = leNat (beBytes 0x530f8afbc74536b9a963b4f1c4cb738b 16) := by decide +kernel

end
end Sys2Proof.Tests.Slice0
end

section
/-! The state right after reset: what its registers, queues and memories hold (R9, R228). -/
namespace Sys2Proof.Machine

/-- Reset lists no register, so each reads its default (R9). -/
@[simp] theorem Hub.get_reset (o : Obj) : Hub.reset.get o = o.dflt := rfl

/-- Every pair starts in Off. -/
@[simp] theorem pathObj_dflt (p k : Nat) : (pathObj p k).dflt = 0 := by unfold pathObj; split <;> rfl

/-- No pair is in Ramp or On after reset, so no port has both there (R228). -/
theorem Hub.interlocked_reset : Interlocked Hub.reset := by
  intro p _
  simp

/-- A memory that lists nothing is in canonical form. -/
theorem State.memWf_reset : State.reset.memWf := rfl

/-- Settles O56: a register reads its default because reset lists none, and each number the manual names is the default of its register. -/
theorem resetState : Obligations.ResetState := by
  have reads : ∀ o : Obj, State.reset.hub.get o = o.dflt := Hub.get_reset
  exact ⟨reads, rfl, rfl, rfl, rfl, rfl, rfl, rfl, rfl, State.memWf_reset, reads O.hubAddress, reads O.upstreamPort,
    reads O.driveWindow, fun p => ⟨reads (O.replayDepth p), reads (O.replayLimit p)⟩, reads O.busClaimant, reads O.blockTimeout,
    reads O.firstSource, reads O.confirmWindow, reads (O.sagEnterMv 0), reads (O.sagEnterMv 4), Hub.interlocked_reset⟩

end Sys2Proof.Machine
end

section
/-! The statements on the tree, on time and on the Cox (O3, O4, O6): each bounds one command's effect too tightly. A pass-through head outputs the
packets that are due before its stream stops, and so takes up a new line (R303), and a plan reports floors that do not fit (R125). -/
namespace Sys2Proof.Machine

/-! ## What a command answers, seen from a run of it -/

/-- A command that completes has the property of every hub it can leave. -/
theorem Answers.of_run {i : Instr} {s t : State} {P : Hub → Prop} (h : Answers i s P) (run : exec i s = .next t) : P t.hub := by
  obtain ⟨u, next, -, -, holds⟩ := h
  obtain rfl : t = u := by simpa [run] using next
  exact holds

/-! ## A pass-through head with a line to output -/

/-- A hub that runs with these registers written, whose clock stands at 1 ms, and whose pass-through head 0 is to output the FIRST packet of a line
at that moment. -/
def Hub.withLineDue (regs : List (Obj × Nat)) : Hub :=
  { (Hub.reset.put H.running 1).each regs (fun c x => c.put x.1 x.2) with
    now := 1000000, lineStore := [⟨0, 1000000, ⟨3000, 0x0A, 1, 0, 0, 0, 0, 0, []⟩⟩] }

/-- Head 0 in pass-through mode, its stream running (R305). -/
abbrev streamingHead : List (Obj × Nat) := [(O.headMode 0, 2), (O.streamState 0, 2)]

/-- The registers of entry 3000, a VALID tunnel of a stream from P1 to head 0 (R60). -/
abbrev streamTunnel : List (Obj × Nat) :=
  [(O.pathFlags 3000, 1), (O.pathType 3000, 1), (O.pathIn 3000, 1), (O.pathCls 3000, 2), (O.pathOut 3000, 0x24)]

/-- Refutes O3: at the end of ORPHAN_HOLD the tunnel that feeds a running pass-through head is torn down, and before its stream is lost the head outputs
the packet that is due, with which its next line begins (R303): a register outside the clause's bound. -/
theorem not_treeJoinCommands : ¬ Obligations.TreeJoinCommands := by
  unfold Obligations.TreeJoinCommands
  rintro ⟨-, -, -, -, -, -, -, holdEnds, -⟩
  have answered := holdEnds
    ⟨[], .withLineDue (streamingHead ++ streamTunnel ++ [(O.treeState, 3), (H.lastUpstream, 0), (O.hubAddress, 5)]), Mems.reset⟩ 0
    (by decide) (by decide) (by decide) (by decide)
  obtain ⟨frame, -⟩ := answered.of_run (onDomains_on _ (by decide))
  have kept : 1000000 = 0 := frame (H.lineStart 0) (by decide)
  exact absurd kept (by decide)

/-- Refutes O4: 8 strokes without a SYNC stop a running pass-through head, which first outputs the packet that is due, with which its next line begins
(R303): a register outside the clause's bound. -/
theorem not_timeCommands : ¬ Obligations.TimeCommands := by
  unfold Obligations.TimeCommands
  rintro ⟨-, -, timeout, -⟩
  have answered := timeout ⟨[], .withLineDue (streamingHead ++ [(O.role, 1), (O.timeLock, 1)]), Mems.reset⟩
    (by decide) (by decide) (by decide)
  obtain ⟨frame, -⟩ := answered.of_run (onDomains_on _ (by decide))
  have kept : 1000000 = 0 := frame (H.lineStart 0) (by decide)
  exact absurd kept (by decide)

/-! ## A plan whose floors do not fit -/

/-- A Cox that computes plans, and whose only route is an established C1 route to its locked Member 1 through P4, at 1 byte a stroke in fixed mode. The
link of P4 has no capacity. -/
def Hub.withFloorShort : Hub :=
  { Hub.reset.each [(H.running, 1), (O.role, 2), (O.forwarding, 1), (H.coxBoundaries, 1), (O.hubTableUid 1, 7), (O.hubTableState 1, 2),
      (O.routeState 0, 2), (O.routeType 0, 4), (O.routeCls 0, 1), (O.routeDstHub 0, 1), (O.allotMin 0, 1), (O.allotMax 0, 1)]
      (fun c x => c.put x.1 x.2) with
    works := [⟨0, [0, 1], [4], [0], [2048, 2048], 2048, 0, []⟩], reports := [⟨1, true, false, false, false⟩] }

/-- Refutes O6: a plan computed at once, in which a floor does not fit its link, reports FLOOR_SHORT (R125), where the clause has it report
nothing. -/
theorem not_coxCommands : ¬ Obligations.CoxCommands := by
  unfold Obligations.CoxCommands
  rintro ⟨-, -, -, -, -, -, -, -, -, -, plans, -⟩
  have answered := plans ⟨[], Hub.withFloorShort, Mems.reset⟩ 0 (by decide) (by decide) (by decide) (by decide) (by decide) (by decide) (by decide)
  obtain ⟨-, -, -, quiet, -⟩ := answered.of_run (onDomains_on _ (by decide))
  have unreported : ([⟨16, 255, 0, 0⟩] : List Detection) = [] := quiet (by decide)
  exact absurd unreported (by decide)

end Sys2Proof.Machine
end

section
/-! The statements on TLPs, on field I/O and on the heads' streams (O12, O15, O36): each leaves out a case of its command. A vendor-defined message with
data ends at the Cox (R254), a field I/O packet pays its policer (R115), and a frame in an encoding that R283 does not list is not sent. -/
namespace Sys2Proof.Machine

-- One theorem after another: elaborated side by side they take more memory than the check allows.
set_option Elab.async false

/-- A hub that runs, after reset and these writes of registers. -/
def Hub.runningWith (regs : List (Obj × Nat)) : Hub := (Hub.reset.put H.running 1).each regs fun c x => c.put x.1 x.2

/-! ## A message that ends at the Cox -/

/-- The arm of PCIE_TLP_EGRESS. -/
theorem exec_pcieTlpEgress (p np cpl : Bool) (s : State) : exec (.pcieTlpEgress p np cpl) s = execPcieTlpEgress p np cpl s := by rfl

/-- A posted TLP of entry 3000: a vendor-defined message with data, broadcast from the root (its first byte 73h, its message code 7Eh). -/
abbrev vendorMessage : EgressTlp := ⟨3000, 0, [0x73, 0, 0, 0, 0, 0, 0, 0x7E]⟩

/-- A Cox whose PCIe link is up, and whose egress adapter holds the message. -/
def Hub.withVendorMessage : Hub := { Hub.runningWith [(O.role, 2), (H.pcieLink, 2)] with tlpOut := [vendorMessage] }

/-- Refutes O12: a vendor-defined message with data has 011b in the bits that the clause asks not to read 001b, and yet it ends at the Cox and counts in
UR_SENT (R254), where the clause has it sent. -/
theorem not_pcieTlpCommands : ¬ Obligations.PcieTlpCommands := by
  unfold Obligations.PcieTlpCommands
  rintro ⟨-, -, -, egress, -⟩
  have answered := egress ⟨[], Hub.withVendorMessage, Mems.reset⟩ false false vendorMessage (by decide) rfl rfl (by decide) (by decide) (by decide)
  obtain ⟨-, sent, -⟩ := answered.of_run ((exec_pcieTlpEgress ..).trans (onDomains_on _ (by decide)))
  have unsent : ([] : List Out) = [.tlp vendorMessage.bytes] := sent
  exact absurd unsent (by decide)

/-! ## A policed field I/O tunnel -/

/-- The arm of ACYC_SEND. -/
theorem exec_acycSend (k : Fin 8) (s : State) : exec (.acycSend k) s = execAcycSend k s := by rfl

/-- A hub that forwards, with a submitted acyclic message of no bytes for entry 3000, a VALID tunnel from the field I/O adapter to P0 that names no shaper
and policer 0, whose 16 tokens pay for its packet. -/
def Hub.withPolicedMessage : Hub :=
  Hub.runningWith [(O.forwarding, 1), (O.pathFlags 3000, 1), (O.pathType 3000, 4), (O.pathIn 3000, 0x28), (O.pathCls 3000, 1),
    (O.pathShaper 3000, 0xFFFF), (H.policerBucket 0, 16), (O.acycTxTid 0, 3000), (O.acycTxState 0, 1)]

/-- Refutes O15: the packet of an acyclic message pays its entry's policer (R115), whose bucket is a register outside the clause's bound. -/
theorem not_fieldIoCommands : ¬ Obligations.FieldIoCommands := by
  unfold Obligations.FieldIoCommands
  rintro ⟨-, -, -, -, -, send, -⟩
  have answered := send ⟨[], Hub.withPolicedMessage, Mems.reset⟩ 0 (by decide) (by decide) (by decide) (by decide) (by decide) (by decide)
  obtain ⟨frame, -⟩ := answered.of_run ((exec_acycSend ..).trans (onDomains_on _ (by decide)))
  have kept : _ = 16 := frame (H.policerBucket 0) (by decide)
  exact absurd kept (by decide +kernel)

/-! ## A frame in an encoding that no link carries -/

/-- A hub with time lock whose head 0 captures into entry 3000, the VALID tunnel of its stream. It does not forward packets yet. -/
def Hub.withCapture : Hub :=
  Hub.runningWith [(O.timeLock, 1), (O.headMode 0, 3), (O.headState 0, 2), (O.pathFlags 3000, 1), (O.pathIn 3000, 0x24), (O.pathCls 3000, 2)]

/-- Attributes of a stream whose depth, coded 3, no encoding of R283 has. -/
def attrUnlisted : StreamAttr := ⟨0, 0, 0, 0, 0, 0, 0, 0, 0, false, 3, []⟩

/-- Before FORWARDING no packet passes (R427). -/
theorem Hub.receive_unforwarded {c : Hub} (h : c.flag O.forwarding = false) (input : Nat) (p : Packet) : c.receive input p = c := by
  simp [Hub.receive, h]

/-- Refutes O36: a frame in an encoding that R283 does not list is not sent and does not count in FRAMES_CAPTURED, where the clause counts every one. -/
theorem not_headStreams : ¬ Obligations.HeadStreams := by
  unfold Obligations.HeadStreams
  rintro ⟨capture, -⟩
  have answered := capture ⟨[], Hub.withCapture, Mems.reset⟩ 0 attrUnlisted 3000 (by decide) (by decide) (by decide) (by decide)
  obtain ⟨pk, -, -, -, sent⟩ := answered.of_run (onDomains_on _ (by decide))
  rw [Hub.receive_unforwarded (by decide)] at sent
  have counted : 0 = 1 := congrArg (Hub.get · (O.framesCaptured 0)) sent
  exact absurd counted (by decide)

end Sys2Proof.Machine
end

section
/-! Which registers an operation leaves: `OnlyRegs` and `OnlyObjects` kept by each write of a register that the bound names. -/
namespace Sys2Proof.Machine

-- One theorem after another: elaborated side by side they take more memory than the check allows.
set_option Elab.async false

variable {c d e : Hub} {os : List Obj}

/-! ## The operations on one register -/

/-- A counter's value changes its own register alone, whether the count fits or is free. -/
theorem Hub.get_showI_other (c : Hub) {o x : Obj} (v : Int) (h : o.key ≠ x.key) : (c.showI x v).get o = c.get o := by
  unfold Hub.showI
  split
  · exact Hub.get_put_other c _ h
  · rw [Hub.get_put_other _ _ h]; rfl

/-- A peak changes its own register alone. -/
theorem Hub.get_peak_other (c : Hub) {o x : Obj} (v : Nat) (h : o.key ≠ x.key) : (c.peak x v).get o = c.get o := by
  unfold Hub.peak
  split
  · exact Hub.get_put_other c v h
  · rfl

/-! ## A bound by registers -/

theorem OnlyRegs.of_regs (h : d.regs = c.regs) : OnlyRegs c d os := fun o _ => by rw [Hub.get, h]; rfl

theorem OnlyRegs.refl (c : Hub) (os : List Obj) : OnlyRegs c c os := .of_regs rfl

theorem OnlyRegs.trans (h : OnlyRegs c d os) (g : OnlyRegs d e os) : OnlyRegs c e os := fun o ho => (g o ho).trans (h o ho)

theorem OnlyRegs.mono {xs : List Obj} (h : OnlyRegs c d xs) (sub : xs ⊆ os) : OnlyRegs c d os := fun o ho => h o fun x hx => ho x (sub hx)

theorem OnlyRegs.put (h : OnlyRegs c d os) {x : Obj} (hx : x ∈ os) (v : Nat) : OnlyRegs c (d.put x v) os :=
  h.trans fun _ ho => Hub.get_put_other d v (ho x hx)

theorem OnlyRegs.count (h : OnlyRegs c d os) {x : Obj} (hx : x ∈ os) (n : Nat) : OnlyRegs c (d.count x n) os :=
  h.trans fun _ ho => Hub.get_count_other d n (ho x hx)

theorem OnlyRegs.showI (h : OnlyRegs c d os) {x : Obj} (hx : x ∈ os) (v : Int) : OnlyRegs c (d.showI x v) os :=
  h.trans fun _ ho => Hub.get_showI_other d v (ho x hx)

theorem OnlyRegs.emit (h : OnlyRegs c d os) (x : Out) : OnlyRegs c (d.emit x) os := h.trans fun _ _ => rfl

theorem OnlyRegs.raise (h : OnlyRegs c d os) (source : Nat) (unit : Nat := 255) (data : Nat := 0) : OnlyRegs c (d.raise source unit data) os :=
  h.trans fun _ _ => rfl

theorem OnlyRegs.when (h : OnlyRegs c d os) (b : Bool) {f : Hub → Hub} (hf : ∀ d, OnlyRegs d (f d) os) : OnlyRegs c (d.when b f) os :=
  Hub.when_spec (P := (OnlyRegs c · os)) d b f h (h.trans (hf d))

theorem OnlyRegs.each {α : Type} (h : OnlyRegs c d os) {xs : List α} {f : Hub → α → Hub} (hf : ∀ d, ∀ x ∈ xs, OnlyRegs d (f d x) os) :
    OnlyRegs c (d.each xs f) os := by
  induction xs generalizing d with
  | nil => exact h
  | cons x xs ih => exact ih (h.trans (hf d x (by simp))) fun d y hy => hf d y (by simp [hy])

/-! ## A bound by objects -/

/-- A bound names the object of a register. -/
def namesObject (os : List Obj) (x : Obj) : Bool := os.any fun y => x.key.obj == y.key.obj

theorem OnlyObjects.of_regs (h : d.regs = c.regs) : OnlyObjects c d os := fun o _ => by rw [Hub.get, h]; rfl

theorem OnlyObjects.refl (c : Hub) (os : List Obj) : OnlyObjects c c os := .of_regs rfl

theorem OnlyObjects.trans (h : OnlyObjects c d os) (g : OnlyObjects d e os) : OnlyObjects c e os := fun o ho => (g o ho).trans (h o ho)

theorem OnlyObjects.mono {xs : List Obj} (h : OnlyObjects c d xs) (sub : ∀ x ∈ xs, namesObject os x = true := by decide) : OnlyObjects c d os :=
  fun o ho => h o fun x hx e => by
    obtain ⟨y, hy, same⟩ := List.any_eq_true.mp (sub x hx)
    exact ho y hy (e.trans (beq_iff_eq.mp same))

/-- An operation on one register, of an object that the bound names. -/
theorem OnlyObjects.of_reg {x : Obj} (hx : namesObject os x = true) (h : ∀ o : Obj, o.key ≠ x.key → d.get o = c.get o) : OnlyObjects c d os :=
  fun o ho => h o fun e => by
    obtain ⟨y, hy, same⟩ := List.any_eq_true.mp hx
    exact ho y hy (by rw [e]; exact beq_iff_eq.mp same)

theorem OnlyObjects.put (h : OnlyObjects c d os) (x : Obj) (v : Nat) (hx : namesObject os x = true := by rfl) : OnlyObjects c (d.put x v) os :=
  h.trans (.of_reg hx fun _ => Hub.get_put_other d v)

theorem OnlyObjects.count (h : OnlyObjects c d os) (x : Obj) (n : Nat := 1) (hx : namesObject os x = true := by rfl) : OnlyObjects c (d.count x n) os :=
  h.trans (.of_reg hx fun _ => Hub.get_count_other d n)

theorem OnlyObjects.showI (h : OnlyObjects c d os) (x : Obj) (v : Int) (hx : namesObject os x = true := by rfl) : OnlyObjects c (d.showI x v) os :=
  h.trans (.of_reg hx fun _ => Hub.get_showI_other d v)

theorem OnlyObjects.peak (h : OnlyObjects c d os) (x : Obj) (v : Nat) (hx : namesObject os x = true := by rfl) : OnlyObjects c (d.peak x v) os :=
  h.trans (.of_reg hx fun _ => Hub.get_peak_other d v)

theorem OnlyObjects.emit (h : OnlyObjects c d os) (x : Out) : OnlyObjects c (d.emit x) os := h.trans fun _ _ => rfl

theorem OnlyObjects.raise (h : OnlyObjects c d os) (source : Nat) (unit : Nat := 255) (data : Nat := 0) : OnlyObjects c (d.raise source unit data) os :=
  h.trans fun _ _ => rfl

theorem OnlyObjects.when (h : OnlyObjects c d os) (b : Bool) {f : Hub → Hub} (hf : ∀ d, OnlyObjects d (f d) os) : OnlyObjects c (d.when b f) os :=
  Hub.when_spec (P := (OnlyObjects c · os)) d b f h (h.trans (hf d))

theorem OnlyObjects.each {α : Type} (h : OnlyObjects c d os) (xs : List α) {f : Hub → α → Hub} (hf : ∀ d x, OnlyObjects d (f d x) os) :
    OnlyObjects c (d.each xs f) os :=
  Hub.each_spec (P := (OnlyObjects c · os)) f (fun d x g => g.trans (hf d x)) xs d h

/-- A register of an object outside the bound stands as it did. -/
theorem OnlyObjects.get (h : OnlyObjects c d os) (x : Obj) (hx : namesObject os x = false := by rfl) : d.get x = c.get x :=
  h x fun y hy e => by simpa [e] using List.any_eq_false.mp hx y hy

/-- The dictionary's objects of a bound lie in the indexes named. -/
theorem OnlyObjects.onlyIndexes {is : List Nat} (h : OnlyObjects c d os) (sub : ∀ x ∈ os, x.key.obj < 0x1000000 → x.key.obj / 256 ∈ is := by decide) :
    OnlyIndexes c d is :=
  fun o low out => h o fun x hx e => out (e ▸ sub x hx (e ▸ low))

theorem OnlyIndexes.trans {is : List Nat} (h : OnlyIndexes c d is) (g : OnlyIndexes d e is) : OnlyIndexes c e is :=
  fun o low out => (g o low out).trans (h o low out)

/-! ## What a command answers, from the hub it leaves -/

/-- A command of the domains completes with the hub that its operation makes. -/
theorem Answers.of_domains {i : Instr} {s : State} {f : Hub → Hub} {P : Hub → Prop} (arm : exec i s = onDomains s f) (on : s.hub.domainsOn = true)
    (h : P (f s.hub)) : Answers i s P :=
  ⟨_, arm.trans (onDomains_on f on), rfl, rfl, h⟩

/-- A write of an object by a level that has the right completes with the hub that the object's rule makes, and with its status. -/
theorem Answers.of_write {i : Instr} {s : State} {w : HeldWrite} {lvl : Level} {acc : List Right} {op : Hub → Status × Hub} {P : Hub → Prop}
    (arm : exec i s = onWrite w s fun c => c.request lvl acc op) (on : s.hub.domainsOn = true) (free : s.hub.handingOver = false)
    (image : s.hub.inRom = false) (right : (rightOf acc lvl).writes = true) (h : P ((op s.hub).2.emit (.status (op s.hub).1))) : Answers i s P :=
  ⟨_, arm.trans (onWrite_on w _ on free), rfl, rfl, by simpa [Hub.request, Hub.requestRom, image, right] using h⟩

/-- Engineer and Owner have the right that their row names. -/
theorem Engineers.writes {lvl : Level} (h : Engineers lvl) : (rightOf engineerWrites lvl).writes = true := by rcases h with rfl | rfl <;> rfl

end Sys2Proof.Machine
end

section
/-! A packet through the switch core: which objects its way from an input to a queue, or to a discard, can change (R37, R57, R61, R85, R115). -/
namespace Sys2Proof.Machine

-- One theorem after another: elaborated side by side they take more memory than the check allows.
set_option Elab.async false

/-- The objects that the switch core changes when it takes a packet in. -/
def intakeRegs : List Obj :=
  [O.pathCountPackets 0, O.discardUnknown, O.discardWrongInput, O.discardMalformed, O.discardType, O.discardNoMember, O.discardMgmtRoute, O.usedPeak,
    O.isoNoCell, O.queueStatusDrops 0, O.spillDrops, O.spillEntries, O.mcastMemberDrops, O.policerGreen 0, O.grantIsoDiscards 0, O.treeEventOverflow,
    H.policerBucket 0, H.appended 0, H.creditReturned 0 0, H.partnerUid 0, H.portLost 0, H.childAsleep 0, H.rejoinDue 0, H.refusedBelow 0]

/-- Nothing but those objects changes. -/
abbrev Intake (c d : Hub) : Prop := OnlyObjects c d intakeRegs

theorem Intake.none (c : Hub) : Intake c c := .refl c _

/-! ## Queues -/

theorem Hub.returnCredit_intake (c : Hub) (input cls cost : Nat) : Intake c (c.returnCredit input cls cost) :=
  (Intake.none c).when _ fun d => (Intake.none d).put (H.creditReturned input cls) _

theorem Hub.lossOf_intake (c : Hub) (k tid : Nat) : Intake c (c.lossOf k tid) :=
  (Intake.none c).when _ fun d => (Intake.none d).when _ fun d => (Intake.none d).raise 28 255 tid

theorem Hub.enterSpill_intake (c : Hub) (q : Nat) : Intake c (c.enterSpill q) := ((Intake.none c).put (O.queueStatusSpill q) 1).count O.spillEntries

theorem Hub.leaveSpill_intake (c : Hub) (q : Nat) : Intake c (c.leaveSpill q) :=
  (Intake.none c).when _ fun d => (Intake.none d).put (O.queueStatusSpill q) 0

theorem Hub.setFrame_intake (c : Hub) (tid q : Nat) (f : Option OpenFrame) : Intake c (c.setFrame tid q f) := .of_regs rfl

theorem Hub.peakUsed_intake (c : Hub) : Intake c c.peakUsed := (Intake.none c).peak O.usedPeak _

theorem Hub.append_intake (c : Hub) (p : Held) : Intake c (c.append p) := by
  have held : Intake c { c with held := c.held ++ [{ p with sampled := c.get (H.appended p.q) = 0, appended := c.now, stroke := c.stroke }] } :=
    .of_regs rfl
  exact (((held.put (H.appended p.q) _).count (O.pathCountPackets p.tid)).count (O.pathCountBytes p.tid) p.pkt.size).peak (O.queueStatusPeak p.q) _

theorem Hub.refused_intake (c : Hub) (q tid : Nat) (v : Verdict) : Intake c (c.refused q tid v) := by
  have none := Intake.none c
  cases v with
  | takes _ => exact none
  | noCell => exact ((none.count O.isoNoCell).count (O.grantIsoDiscards tid)).raise 5 255 tid
  | drop => exact none.count (O.queueStatusDrops q)
  | spillDrop => exact (none.count O.spillDrops).raise 8 255 q

/-- A packet at one queue: taken there, or refused with its frame closed. -/
theorem Hub.offerTake_intake (c : Hub) (tid outTid q input serial : Nat) (cutoff : Bool) (p : Packet) (v : Bool × Verdict) :
    Intake c (c.offerTake tid outTid q input serial cutoff p v).1 := by
  have spilt : Intake c (c.when v.1 fun c => c.enterSpill q) := (Intake.none c).when _ fun d => d.enterSpill_intake q
  have left (b : Bool) (d : Hub) : Intake d (d.when b fun c => c.leaveSpill q) := (Intake.none d).when _ fun d => d.leaveSpill_intake q
  unfold Hub.offerTake
  dsimp only
  split
  · split
    · exact spilt.trans (Hub.append_intake _ _)
    · split
      · split
        · exact ((spilt.trans (Hub.setFrame_intake _ _ _ _)).count (O.queueStatusDrops q)).trans (left _ _)
        · exact (spilt.trans (Hub.setFrame_intake _ _ _ _)).trans (Hub.append_intake _ _)
      · exact (spilt.trans (Hub.setFrame_intake _ _ _ _)).trans (Hub.append_intake _ _)
  · have closed := spilt.when (decide (p.type = 3) && (p.first || p.last)) fun d => d.setFrame_intake tid q .none
    exact (closed.trans (Hub.refused_intake _ _ _ _)).trans (left _ _)

theorem Hub.enqueue_intake (c : Hub) (tid outTid q input : Nat) (cutoff : Bool) (p : Packet) : Intake c (c.enqueue tid outTid q input cutoff p) := by
  have offered : Intake c (c.offer tid outTid q input cutoff p).1 := Hub.offerTake_intake _ _ _ _ _ _ _ _ _
  unfold Hub.enqueue
  generalize c.offer tid outTid q input cutoff p = r at offered
  obtain ⟨d, taken⟩ := r
  cases taken with
  | true => exact (offered.trans d.peakUsed_intake).when _ fun d => Hub.returnCredit_intake _ _ _ _
  | false => exact (offered.trans d.peakUsed_intake).trans (Hub.returnCredit_intake _ _ _ _)

/-- The copy of a multicast packet at one member's queue. -/
theorem Hub.offerCopy_intake (c : Hub) (tid outTid q input serial : Nat) (cutoff : Bool) (p : Packet) (v : Bool × Verdict) :
    Intake c (match c.offerTake tid outTid q input serial cutoff p v with
      | (c, true) => c
      | (c, false) => (c.count O.mcastMemberDrops).raise 29 255 tid) := by
  have offered := c.offerTake_intake tid outTid q input serial cutoff p v
  generalize c.offerTake tid outTid q input serial cutoff p v = r at offered
  obtain ⟨d, taken⟩ := r
  cases taken with
  | true => exact offered
  | false => exact (offered.count O.mcastMemberDrops).raise 29 255 tid

theorem Hub.enqueueAll_intake (c : Hub) (tid cls input : Nat) (cutoff : Bool) (p : Packet) : Intake c (c.enqueueAll tid cls input cutoff p) := by
  unfold Hub.enqueueAll
  dsimp only
  split
  · exact ((Intake.none c).count O.discardNoMember).trans (Hub.returnCredit_intake _ _ _ _)
  · have marked : Intake c { c with serial := c.serial + 2 } := .of_regs rfl
    exact ((((marked.count (O.pathCountTeardownDiscards tid) _).when _ fun d => d.lossOf_intake cls tid).each _ fun d x =>
      d.offerCopy_intake _ _ _ _ _ _ _ _).trans (Hub.peakUsed_intake _)).trans (Hub.returnCredit_intake _ _ _ _)

/-! ## Tunnels -/

theorem Hub.discardReturn_intake (c : Hub) (input : Nat) (p : Packet) : Intake c (c.discardReturn input p) := c.returnCredit_intake _ _ _

theorem Hub.setPolicer_intake (c : Hub) (k : Nat) (v : Int) : Intake c (c.setPolicer k v) :=
  ((Intake.none c).put (H.policerBucket k) _).showI (O.policerTokens k) v

theorem Hub.police_intake (c : Hub) (t size : Nat) : Intake c (c.police t size).1 := by
  unfold Hub.police
  dsimp only
  split
  · exact .none c
  · split
    · exact (Hub.setPolicer_intake _ _ _).count (O.policerGreen _)
    · exact (((Intake.none c).count (O.policerRed _)).count (O.grantIsoDiscards t)).raise 18 255 _

/-- A tunnel packet: discarded with a count at one of R61's tests, stopped by its policer, or offered to its outputs. -/
theorem Hub.receiveTunnel_intake (c : Hub) (input : Nat) (p : Packet) : Intake c (c.receiveTunnel input p) := by
  have none := Intake.none c
  have lost (d : Hub) (k t : Nat) : Intake d (((d.count (O.pathCountTeardownDiscards t)).lossOf k t).discardReturn input p) :=
    (((Intake.none d).count (O.pathCountTeardownDiscards t)).trans (Hub.lossOf_intake _ _ _)).trans (Hub.discardReturn_intake _ _ _)
  unfold Hub.receiveTunnel
  dsimp only
  split
  · exact (none.count O.discardUnknown).trans (Hub.discardReturn_intake _ _ _)
  split
  · exact lost _ _ _
  split
  · exact (none.count O.discardWrongInput).trans (Hub.discardReturn_intake _ _ _)
  split
  · exact (none.count O.discardType).trans (Hub.discardReturn_intake _ _ _)
  have offered (b : Bool) : Intake c (c.when b fun c => c.offered p.tid.toNat p.size) := none.when _ fun _ => .of_regs rfl
  have policed := (offered (decide (8192 ≤ p.tid.toNat) && decide (24 ≤ c.get (O.pathIn p.tid.toNat)))).trans (Hub.police_intake _ p.tid.toNat p.size)
  split
  · next d stopped =>
    rw [stopped] at policed
    exact policed.trans (d.discardReturn_intake _ _)
  · next d passed =>
    rw [passed] at policed
    refine policed.trans ?_
    split
    · exact d.enqueueAll_intake _ _ _ _ _
    · split
      · split
        · exact lost _ _ _
        · exact d.enqueue_intake _ _ _ _ _ _
      · exact d.discardReturn_intake _ _

/-! ## The management tunnel and the hop channels -/

theorem Hub.toQueue_intake (c : Hub) (tid e cls input : Nat) (p : Packet) : Intake c (c.toQueue tid e cls input p) := c.enqueue_intake _ _ _ _ _ _

theorem Hub.topoEvent_intake (c : Hub) (port kind reason uid : Nat) : Intake c (c.topoEvent port kind reason uid) := by
  unfold Hub.topoEvent
  split
  · exact .none c
  split
  · have marked : Intake c { c with topo := overflowLast c.topo } := .of_regs rfl
    exact (marked.put O.treeEventOverflow 1).raise 22
  · exact .of_regs rfl

theorem Hub.joinSeen_intake (c : Hub) (p uid : Nat) : Intake c (c.joinSeen p uid) := by
  have none := Intake.none c
  unfold Hub.joinSeen
  dsimp only
  split
  · exact (none.put (H.childAsleep p) _).trans (Hub.topoEvent_intake _ _ _ _ _)
  split
  · exact none
  · exact ((((none.put (H.partnerUid p) uid).put (H.portLost p) _).put (H.childAsleep p) _).put (H.rejoinDue p) _).trans
      (Hub.topoEvent_intake _ _ _ _ _)

theorem Hub.noteJoin_intake (c : Hub) (input : Nat) (p : Packet) : Intake c (c.noteJoin input p) := by
  unfold Hub.noteJoin
  dsimp only
  split
  · exact c.joinSeen_intake _ _
  · exact .none c

theorem Hub.refuseBelow_intake (c : Hub) (port reason : Nat) : Intake c (c.refuseBelow port reason) :=
  ((Intake.none c).put (H.refusedBelow port) _).trans (Hub.topoEvent_intake _ _ _ _ _)

/-- A packet without a route is discarded with a count, and one with a route is queued. -/
theorem Hub.routed_intake (c : Hub) (route : Option Nat) (tid cls input : Nat) (p : Packet) :
    Intake c (match route with
      | some e => c.toQueue tid e cls input p
      | none => ((c.count O.discardMgmtRoute).raise 24).discardReturn input p) := by
  cases route with
  | some e => exact c.toQueue_intake _ _ _ _ _
  | none => exact (((Intake.none c).count O.discardMgmtRoute).raise 24).trans (Hub.discardReturn_intake _ _ _)

theorem Hub.receiveMgmt_intake (c : Hub) (input : Nat) (p : Packet) : Intake c (c.receiveMgmt input p) := by
  have noted : Intake c (c.when (MgmtKind.ofCode (bits p.info.toNat 8 8) == some .join) fun c => c.noteJoin input p) :=
    (Intake.none c).when _ fun d => d.noteJoin_intake _ _
  unfold Hub.receiveMgmt
  dsimp only
  generalize c.when (MgmtKind.ofCode (bits p.info.toNat 8 8) == some .join) (fun c => c.noteJoin input p) = d at noted
  refine noted.trans ?_
  split
  · exact d.toQueue_intake _ _ _ _ _
  split
  · split
    · exact (d.refuseBelow_intake _ _).trans (Hub.toQueue_intake _ _ _ _ _ _)
    · exact ((Intake.none d).put (H.refusedBelow _) _).trans (Hub.toQueue_intake _ _ _ _ _ _)
  · exact d.routed_intake _ _ _ _ _

theorem Hub.receiveBackground_intake (c : Hub) (input : Nat) (p : Packet) : Intake c (c.receiveBackground input p) := c.routed_intake _ _ _ _ _

/-- A packet from an input changes none but the objects of the intake. -/
theorem Hub.receive_intake (c : Hub) (input : Nat) (p : Packet) : Intake c (c.receive input p) := by
  have none := Intake.none c
  have typed (type : Nat) {d : Hub} (hd : Intake c d) :
      Intake c (if p.type.toNat = type then d else (c.count O.discardType).discardReturn input p) := by
    split
    · exact hd
    · exact (none.count O.discardType).trans (Hub.discardReturn_intake _ _ _)
  unfold Hub.receive
  dsimp only
  split
  · exact none
  split
  · exact ((none.count O.discardMalformed).when _ fun d => (Intake.none d).raise 25 input).trans (Hub.discardReturn_intake _ _ _)
  split
  · exact typed 5 (c.receiveMgmt_intake input p)
  · exact typed 0 (c.toQueue_intake 1 32 3 input p)
  · exact typed 0 (c.receiveBackground_intake input p)
  · exact c.receiveTunnel_intake input p

end Sys2Proof.Machine
end

section
/-! The Ethernet MACs' commands (O14): frames, PAUSE and the MAC's link (R48, R264, R265). -/
namespace Sys2Proof.Machine

-- One theorem after another: elaborated side by side they take more memory than the check allows.
set_option Elab.async false

/-! ## The budget of the ports and adapters (R79, R80) -/

/-- The objects that a change of rate, gear or mode recomputes. -/
def budgetRegs : List Obj := [O.writeCommitted, O.readCommitted, O.overcommit, O.inAllowMbps 0, O.outAllowMbps 0]

/-- The allowances of every endpoint recomputed. -/
def Hub.allowances (c : Hub) : Hub :=
  c.each (List.range 33) fun c e => (c.put (O.inAllowMbps e) (c.inputAllowance e)).put (O.outAllowMbps e) (c.outputAllowance e)

/-- After the allowances their sums, and whether they are past the buffer's bandwidth, which is reported when it comes to hold. -/
theorem Hub.recompute_eq (c : Hub) : ∃ (w r : Nat) (past report : Bool), c.recompute =
    (((c.allowances.put O.writeCommitted w).put O.readCommitted r).putB O.overcommit past).when report fun c => c.raise 6 := by
  unfold Hub.recompute
  exact ⟨_, _, _, _, rfl⟩

theorem Hub.allowances_onlyObjects (c : Hub) : OnlyObjects c c.allowances budgetRegs :=
  (OnlyObjects.refl c _).each _ fun d e => ((OnlyObjects.refl d _).put (O.inAllowMbps e) _).put (O.outAllowMbps e) _

theorem Hub.allowances_lines (c : Hub) : c.allowances.lines = c.lines := by
  unfold Hub.allowances
  generalize List.range 33 = es
  refine Hub.each_spec (P := (·.lines = c.lines)) _ (fun d e g => ?_) _ c rfl
  simpa using g

theorem Hub.recompute_onlyObjects (c : Hub) : OnlyObjects c c.recompute budgetRegs := by
  obtain ⟨w, r, past, report, eq⟩ := c.recompute_eq
  rw [eq]
  exact (((c.allowances_onlyObjects.put O.writeCommitted w).put O.readCommitted r).put O.overcommit _).when _ fun d => (OnlyObjects.refl d _).raise 6

theorem Hub.get_recompute (c : Hub) (x : Obj) (hx : namesObject budgetRegs x = false := by rfl) : c.recompute.get x = c.get x :=
  c.recompute_onlyObjects.get x hx

/-- The lines raised before stand, and one more may. -/
theorem Hub.lines_of_recompute (c : Hub) : ∃ xs, c.recompute.lines = c.lines ++ xs := by
  obtain ⟨w, r, past, report, eq⟩ := c.recompute_eq
  rw [eq]
  cases report with
  | false => exact ⟨[], by rw [Hub.when_false, Hub.putB, Hub.put_lines, Hub.put_lines, Hub.put_lines, Hub.allowances_lines, List.append_nil]⟩
  | true => exact ⟨[_], by rw [Hub.when_true, Hub.raise_lines, Hub.putB, Hub.put_lines, Hub.put_lines, Hub.put_lines, Hub.allowances_lines]⟩

/-! ## Frames into their tunnel -/

/-- A hub in Run takes the domains' commands, and is awake. -/
theorem Hub.domainsOn_of_run {c : Hub} (run : c.flag H.running = true) (power : c.get O.powerState = 0) : c.domainsOn = true := by
  simp [Hub.domainsOn, run, power]

theorem Hub.awake_of_run {c : Hub} (power : c.get O.powerState = 0) : c.awake = c := by simp [Hub.awake, power]

/-- The objects that change while a frame's packets enter a tunnel. -/
abbrev sendRegs : List Obj := H.txSeq 0 :: intakeRegs

theorem Hub.sendFrame_onlyObjects (m t total n i : Nat) (rest : Bytes) (c : Hub) : OnlyObjects c (Hub.sendFrame m t total n i rest c) sendRegs := by
  induction n generalizing i rest c with
  | zero => exact .refl c _
  | succ n ih =>
    have sent (p : Packet) : OnlyObjects c ((c.put (H.txSeq t) (c.get (H.txSeq t) + 1)).receive (25 + m) p) sendRegs :=
      ((OnlyObjects.refl c _).put (H.txSeq t) _).trans ((Hub.receive_intake _ _ p).mono)
    simp only [Hub.sendFrame, Hub.makePacket, Hub.makePacketAt]
    split
    · exact sent _
    · exact (sent _).trans (ih _ _ _)

/-- The objects that change after a frame of a legal length is counted: at the adapter, or in the switch core. -/
def frameRegs : List Obj := O.fcsErrors 0 :: O.noTunnel 0 :: sendRegs

theorem Hub.forwardFrame_onlyObjects (c : Hub) (m n : Nat) (f : EthFrame) : OnlyObjects c
    (if f.fcsOk = false then c.count (O.fcsErrors m)
      else if c.frameTunnel m f.bytes = 0xFFFF then c.count (O.noTunnel m) else Hub.sendFrame m (c.frameTunnel m f.bytes) n 9 0 f.bytes c) frameRegs := by
  have none := OnlyObjects.refl c frameRegs
  split
  · exact none.count (O.fcsErrors m)
  split
  · exact none.count (O.noTunnel m)
  · exact (Hub.sendFrame_onlyObjects _ _ _ _ _ _ c).mono

/-- A BOOL register reads back the truth value written to it. -/
theorem Hub.flag_putB (c : Hub) {x : Obj} (b : Bool) (size : x.size = 1) : (c.putB x b).flag x = b := by
  cases b <;> simp [Hub.flag, Hub.putB, Obj.cap, size]

/-- A PAUSE counted leaves PAUSE_RX. -/
theorem Hub.flag_pauseRx_count (c : Hub) (m : Nat) : (c.count (O.pausesRx m)).flag (O.pauseRx m) = c.flag (O.pauseRx m) := by
  rw [Hub.flag, Hub.get_count_other _ _ (by simp), Hub.flag]

/-- A count leaves the frames that wait for their MAC. -/
theorem Hub.count_frameOut (c : Hub) (o : Obj) (n : Nat) : (c.count o n).frameOut = c.frameOut := by unfold Hub.count; split <;> rfl

/-- The objects of a MAC's link that its changes write. -/
def macLinkRegs : List Obj := [O.macLink 0, O.usxRate 0]

/-- MAC_LINK and USX_RATE written. -/
theorem Hub.macLink_onlyObjects (c : Hub) (m link rate : Nat) : OnlyObjects c ((c.put (O.macLink m) link).put (O.usxRate m) rate) macLinkRegs :=
  ((OnlyObjects.refl c _).put (O.macLink m) link).put (O.usxRate m) rate

/-! ## The commands -/

theorem exec_macFrameReceive (m : Mac) (f : EthFrame) (s : State) : exec (.macFrameReceive m f) s = execMacFrameReceive m f s := by rfl
theorem exec_pauseFrame (m : Mac) (quanta : BitVec 16) (s : State) : exec (.pauseFrame m quanta) s = execPauseFrame m quanta s := by rfl
theorem exec_pauseExpiry (m : Mac) (s : State) : exec (.pauseExpiry m) s = execPauseExpiry m s := by rfl
theorem exec_ethFrameEgress (m : Mac) (tid : Fin 16384) (s : State) : exec (.ethFrameEgress m tid) s = execEthFrameEgress m tid s := by rfl
theorem exec_macLinkDown (m : Mac) (s : State) : exec (.macLinkDown m) s = execMacLinkDown m s := by rfl
theorem exec_macLinkUp (m : Mac) (rate : BitVec 8) (s : State) : exec (.macLinkUp m rate) s = execMacLinkUp m rate s := by rfl

/-- Settles O14: each command is one write after another of its MAC's registers; a frame that goes on into the switch core changes none of the MAC's
counters there. -/
theorem ethernetCommands : Obligations.EthernetCommands := by
  unfold Obligations.EthernetCommands
  refine ⟨?_, ?_, ?_, ?_, ?_, ?_, ?_, ?_⟩
  · intro s m f run power low high frames bytes
    refine .of_domains (exec_macFrameReceive ..) (Hub.domainsOn_of_run run power) ?_
    dsimp only
    rw [Hub.awake_of_run power, if_neg (by omega), if_neg (by omega)]
    have counted := OnlyObjects.count ((OnlyObjects.refl s.hub [O.framesRx 0, O.bytesRx 0]).count (O.framesRx m)) (O.bytesRx m) f.bytes.length
    have gone := Hub.forwardFrame_onlyObjects ((s.hub.count (O.framesRx m)).count (O.bytesRx m) f.bytes.length) m f.bytes.length f
    refine ⟨counted.onlyIndexes.trans gone.onlyIndexes, ?_, ?_⟩
    · rw [gone.get (O.framesRx m), Hub.get_count_other _ _ (by simp), Hub.get_count_same _ _ _ frames]
    · rw [gone.get (O.bytesRx m), Hub.get_count_same _ _ _ (by rwa [Hub.get_count_other _ _ (by simp)]), Hub.get_count_other _ _ (by simp)]
  · intro s m f run power low count
    refine .of_domains (exec_macFrameReceive ..) (Hub.domainsOn_of_run run power) ?_
    dsimp only
    rw [Hub.awake_of_run power, if_pos low]
    exact ⟨Hub.get_count_same _ _ _ count, (OnlyRegs.refl _ _).count (by simp) 1⟩
  · intro s m quanta on stops count
    refine .of_domains (exec_pauseFrame ..) on ?_
    dsimp only
    rw [Hub.flag_pauseRx_count, stops, Hub.when_true]
    refine ⟨((OnlyObjects.refl _ _).count (O.pausesRx m)).put (H.paused m) _, ?_, Hub.flag_putB _ _ rfl⟩
    rw [Hub.putB, Hub.get_put_other _ _ (by simp), Hub.get_count_same _ _ _ count]
  · intro s m on
    exact .of_domains (exec_pauseExpiry ..) on ⟨Hub.flag_putB _ _ rfl, (OnlyRegs.refl _ _).put (by simp) _⟩
  · intro s m tid bs on whole up going
    refine .of_domains (exec_ethFrameEgress ..) on ?_
    simp only [whole, List.find?_cons, beq_self_eq_true, Bool.and_self, up, going, if_false, Bool.false_eq_true, List.erase_cons_head]
    refine ⟨by simp [Hub.count_frameOut], ?_, ?_⟩
    · simp [Sends]
    · have gone : OnlyRegs s.hub { s.hub with frameOut := [] } [O.framesTx m, O.bytesTx m] := .of_regs rfl
      exact ((gone.count (by simp) 1).count (by simp) bs.length).emit _
  · intro s m on
    refine .of_domains (exec_macLinkDown ..) on ?_
    have down := ((Hub.macLink_onlyObjects s.hub m 0 0).mono (os := H.paused 0 :: macLinkRegs)).put (H.paused m) 0
    refine ⟨(down.raise 67 m).mono.trans (Hub.recompute_onlyObjects _).mono, ?_, ?_, ?_, ?_⟩
    · rw [Hub.get_recompute _ (O.macLink m)]
      simp [Hub.putB, Hub.get_put_other]
    · rw [Hub.get_recompute _ (O.usxRate m)]
      simp [Hub.putB, Hub.get_put_other]
    · rw [Hub.get_recompute _ (H.paused m)]
      simp [Hub.putB]
    · obtain ⟨xs, raised⟩ := Hub.lines_of_recompute ((((s.hub.put (O.macLink m) 0).put (O.usxRate m) 0).putB (H.paused m) false).raise 67 m)
      rw [raised]
      simp [Hub.putB]
  · intro s m rate on
    refine .of_domains (exec_macLinkUp ..) on ?_
    refine ⟨(Hub.macLink_onlyObjects s.hub m 1 _).mono.trans (Hub.recompute_onlyObjects _).mono, ?_, ?_⟩
    · rw [Hub.get_recompute _ (O.macLink m)]
      simp [Hub.get_put_other, Obj.cap]
    · rw [Hub.get_recompute _ (O.usxRate m), Hub.get_put_same]
      have byte : rate.toNat < 256 := rate.isLt
      split
      · exact Nat.mod_eq_of_lt byte
      · rfl
  · intro s m quanta on runs count
    refine .of_domains (exec_pauseFrame ..) on ?_
    dsimp only
    rw [Hub.flag_pauseRx_count, runs, Hub.when_false]
    exact ⟨Hub.get_count_same _ _ _ count, (OnlyRegs.refl _ _).count (by simp) 1⟩

end Sys2Proof.Machine
end

section
/-! The writes of the path table, of a multicast group and of a staged record (O9): what each operation on an entry or a slot writes, and which refusal
answers (R60–R69, R453, R456). -/
namespace Sys2Proof.Machine

-- One theorem after another: elaborated side by side they take more memory than the check allows.
set_option Elab.async false

/-! ## The fields of an entry (R60) -/

/-- OUT stands in its 16 bits as it is cut for a group or an endpoint. -/
theorem out_fits (v : Nat) (b : Bool) : (if b = true then v % 1024 else v % 256) % 65536 = v % if b = true then 1024 else 256 := by split <;> omega

theorem Hub.putEntry_onlyRegs (c : Hub) (t : Nat) (e : PathEntry) (drain : Bool) : OnlyRegs c (c.putEntry t e drain) (entryRegs t) := by
  have none := OnlyRegs.refl c (entryRegs t)
  exact ((((((((none.put (by simp [entryRegs]) _).put (by simp [entryRegs]) _).put (by simp [entryRegs]) _).put (by simp [entryRegs]) _).put
    (by simp [entryRegs]) _).put (by simp [entryRegs]) _).put (by simp [entryRegs]) _).put (by simp [entryRegs]) _).put (by simp [entryRegs]) _

theorem Hub.putEntry_taken (c : Hub) (t : Nat) (e : PathEntry) : EntryTaken (c.putEntry t e false) t e := by
  have type := e.type.isLt
  have inp := e.inp.isLt
  have shaper := e.shaper.isLt
  have policer := e.policer.isLt
  have pair := e.pair.isLt
  refine ⟨?flags, ?_, ?_, ?_, ?out, ?_, ?_, ?_, ?_⟩
  case out => simp [Hub.putEntry, Hub.get_put_other, Obj.cap, out_fits]
  case flags =>
    simp [Hub.putEntry, Hub.get_put_other, Obj.cap, bits]
    omega
  all_goals
    simp [Hub.putEntry, Hub.get_put_other, Obj.cap]
    omega

/-- A taken entry stays as long as its registers do. -/
theorem EntryTaken.of_kept {c d : Hub} {t : Nat} {e : PathEntry} (h : EntryTaken c t e) (kept : ∀ o ∈ entryRegs t, d.get o = c.get o) :
    EntryTaken d t e := by
  simp only [entryRegs, List.forall_mem_cons] at kept
  simpa only [EntryTaken, kept] using h

/-- Every register of an entry is of the path table. -/
theorem obj_of_mem_entryRegs {t : Nat} : ∀ o ∈ entryRegs t, o.key.obj = (O.pathFlags t).key.obj := by simp [entryRegs]

theorem inst_of_mem_entryRegs {t : Nat} : ∀ o ∈ entryRegs t, o.key.inst = t := by simp [entryRegs]

/-- Writes of other objects leave an entry. -/
theorem OnlyRegs.entry_kept {c d : Hub} {xs : List Obj} {t : Nat} (h : OnlyRegs c d xs) (out : ∀ x ∈ xs, x.key.obj ≠ (O.pathFlags t).key.obj) :
    ∀ o ∈ entryRegs t, d.get o = c.get o :=
  fun o ho => h o fun x hx e => out x hx (e ▸ obj_of_mem_entryRegs o ho)

/-- A taken entry is VALID as it says. -/
theorem EntryTaken.valid_eq {d : Hub} {t : Nat} {e : PathEntry} (h : EntryTaken d t e) : d.valid t = entryValid e := by
  obtain ⟨flags, -⟩ := h
  simp [Hub.valid, entryValid, flags, bit, Nat.testBit_mod_two_pow (i := 0) (j := 2) (x := e.flags.toNat)]

/-! ## A new entry (R60, R62, R113, R116) -/

/-- The tokens that an entry's shaper and policer start without. -/
def tokenRegs (e : PathEntry) : List Obj :=
  [O.shaperTokens e.shaper.toNat, O.policerTokens e.policer.toNat, H.policerBucket e.policer.toNat]
    ++ (List.range 33).map fun o => H.bucket e.shaper.toNat o

theorem Hub.freshBuckets_onlyRegs (c : Hub) (t : Nat) (e : PathEntry) : OnlyRegs c (c.freshBuckets t e) (tokenRegs e) := by
  have buckets (d : Hub) : OnlyRegs d (d.each (List.range 33) fun c o => c.put (H.bucket e.shaper.toNat o) 0) (tokenRegs e) :=
    (OnlyRegs.refl d _).each fun d o ho => (OnlyRegs.refl d _).put (by simpa [tokenRegs] using ho) 0
  have shaper (d : Hub) := (buckets d).put (x := O.shaperTokens e.shaper.toNat) (by simp [tokenRegs]) 0
  have policer (d : Hub) : OnlyRegs d (d.setPolicer e.policer.toNat 0) (tokenRegs e) :=
    ((OnlyRegs.refl d _).put (by simp [tokenRegs]) _).showI (by simp [tokenRegs]) 0
  exact ((OnlyRegs.refl c _).when _ shaper).when _ policer

/-- The windows of a new PCIe tunnel (R46). -/
def windowRegs (t : Nat) : List Obj := [H.npSent t, H.npInFlight t]

/-- A VALID entry applied: its shaper's and policer's tokens, its fields, and a new PCIe tunnel's windows. -/
theorem Hub.applyEntry_valid {e : PathEntry} (h : entryValid e = true) (c : Hub) (t : Nat) (boundary : Bool) :
    EntryTaken (c.applyEntry t e boundary) t e ∧ OnlyRegs c (c.applyEntry t e boundary) (entryRegs t ++ (tokenRegs e ++ windowRegs t)) := by
  have fields := Hub.putEntry_taken (c.freshBuckets t e) t e
  have written := ((c.freshBuckets_onlyRegs t e).mono (os := entryRegs t ++ (tokenRegs e ++ windowRegs t)) (by simp)).trans
    ((Hub.putEntry_onlyRegs _ t e false).mono (by simp))
  have windows (b : Bool) (d : Hub) : OnlyRegs d (d.when b fun c => (c.put (H.npInFlight t) 0).put (H.npSent t) 0) (windowRegs t) :=
    (OnlyRegs.refl d _).when _ fun d => ((OnlyRegs.refl d _).put (by simp [windowRegs]) 0).put (by simp [windowRegs]) 0
  have taken (b : Bool) := fields.of_kept ((windows b ((c.freshBuckets t e).putEntry t e false)).entry_kept (by simp [windowRegs]))
  have only (b : Bool) := written.trans ((windows b ((c.freshBuckets t e).putEntry t e false)).mono (by simp))
  unfold Hub.applyEntry
  simp only [h, Bool.not_true, Bool.false_eq_true, if_false]
  split
  · exact ⟨(taken _).of_kept fun o _ => rfl, (only _).trans (.of_regs rfl)⟩
  · exact ⟨taken _, only _⟩

/-! ## A teardown (R69) -/

/-- A bit set or cleared reads as it was made. -/
theorem bit_withBit_same (v i : Nat) (b : Bool) : bit (withBit v i b) i = b := by
  have split (h : v.testBit i = true) : (v - 2 ^ i).testBit i = false := by
    have sum := Nat.testBit_two_pow_add_eq (v - 2 ^ i) i
    rwa [Nat.add_sub_cancel' (Nat.ge_two_pow_of_testBit h), h, Bool.true_eq, Bool.not_eq_true'] at sum
  cases b <;> cases h : v.testBit i <;> simp [bit, withBit, h, split, Nat.add_comm v, Nat.testBit_two_pow_add_eq]

/-- A bit set leaves the bits below it. -/
theorem bit_withBit_lower (v : Nat) {i j : Nat} (h : j < i) : bit (withBit v i true) j = bit v j := by
  cases hi : v.testBit i <;> simp [bit, withBit, hi, Nat.add_comm v, Nat.testBit_two_pow_add_gt h]

/-- What a teardown makes of an entry's FLAGS: VALID 0 and DRAIN 1. -/
theorem drained_flags (f : Nat) :
    bit (withBit (withBit f 0 false) 2 true % 256) 0 = false ∧ bit (withBit (withBit f 0 false) 2 true % 256) 2 = true := by
  have kept (v : Nat) {i : Nat} (h : i < 8) : bit (v % 256) i = bit v i := by simp [bit, Nat.testBit_mod_two_pow v 8 i, h]
  rw [kept _ (by decide), kept _ (by decide), bit_withBit_lower _ (by decide), bit_withBit_same, bit_withBit_same]
  exact ⟨rfl, rfl⟩

/-- The objects that the end of an entry's outputs changes: a pass-through head's stream and a field I/O slice's freshness. -/
def outputRegs : List Obj := [O.streamState 0, O.fioRxStatus 0, H.lineStart 0, H.lineAt 0]

theorem Hub.showPacket_onlyObjects (c : Hub) (x : StoredPacket) : OnlyObjects c (c.showPacket x) outputRegs := by
  have none := OnlyObjects.refl c outputRegs
  unfold Hub.showPacket
  split
  · exact none.emit _
  · exact OnlyObjects.emit (none.when _ fun d => ((OnlyObjects.refl d _).put (H.lineStart x.head) _).put (H.lineAt x.head) _) _

theorem Hub.presentRest_onlyObjects (c : Hub) (h : Nat) : OnlyObjects c (c.presentRest h) outputRegs :=
  (OnlyObjects.refl c _).when _ fun d =>
    (OnlyObjects.of_regs (d := { d with lineStore := d.lineStore.filter fun x => !(c.lineStore.filter fun x => x.head == h && decide (x.due ≤ c.now)
      && bits x.pkt.info.toNat 13 3 != 1).contains x }) rfl).each _ fun d x => d.showPacket_onlyObjects x

theorem Hub.endOutputs_onlyObjects (c : Hub) (t : Nat) : OnlyObjects c (c.endOutputs t) outputRegs := by
  have apart : OnlyObjects c { c with reassembly := c.reassembly.filter fun r => r.tid != t } outputRegs := .of_regs rfl
  unfold Hub.endOutputs
  refine OnlyObjects.each (OnlyObjects.each apart _ fun d o => ?_) _ fun d r => ?_
  · exact (OnlyObjects.refl d _).when _ fun e => (e.presentRest_onlyObjects (o.1 - 27)).put (O.streamState (o.1 - 27)) 3
  · exact (OnlyObjects.refl d _).put (O.fioRxStatus r) 2

/-- An entry that is not VALID is not torn down. -/
theorem Hub.teardownOne_invalid {c : Hub} {t : Nat} (h : c.valid t = false) : c.teardownOne t = c := by simp [Hub.teardownOne, h]

/-- Of the path table a teardown writes the entry's FLAGS alone. -/
theorem Hub.teardownOne_kept (c : Hub) (t : Nat) {o : Obj} (table : o.key.obj = (O.pathFlags t).key.obj) (other : o.key ≠ (O.pathFlags t).key) :
    (c.teardownOne t).get o = c.get o := by
  unfold Hub.teardownOne
  refine Hub.when_spec (P := (·.get o = c.get o)) c _ _ rfl ?_
  dsimp only
  rw [Hub.endOutputs_onlyObjects _ t o (by simp [outputRegs, table]), Hub.get_put_obj _ _ (by simp [table]), Hub.get_put_other _ _ other]
  rfl

theorem Hub.teardownOne_flags {c : Hub} {t : Nat} (h : c.valid t = true) :
    (c.teardownOne t).get (O.pathFlags t) = withBit (withBit (c.get (O.pathFlags t)) 0 false) 2 true % 256 := by
  unfold Hub.teardownOne
  rw [h, Hub.when_true]
  dsimp only
  rw [(Hub.endOutputs_onlyObjects _ t).get (O.pathFlags t), Hub.get_put_obj _ _ (by simp), Hub.get_put_same]
  rfl

/-- The other registers of an entry have other keys than its FLAGS. -/
theorem key_ne_flags {t : Nat} : ∀ o ∈ entryRegs t, o ≠ O.pathFlags t → o.key ≠ (O.pathFlags t).key := by simp [entryRegs]

/-- A teardown leaves the entry in DRAIN with its other fields, also where it tears the paired entry down at the same moment. -/
theorem Hub.teardown_drains {c : Hub} {t : Nat} (valid : c.valid t = true) :
    (c.teardown t).valid t = false ∧ (c.teardown t).drain t = true
      ∧ ∀ o ∈ entryRegs t, o ≠ O.pathFlags t → (c.teardown t).get o = c.get o := by
  have down : (c.teardownOne t).valid t = false ∧ (c.teardownOne t).drain t = true := by
    rw [Hub.valid, Hub.drain, Hub.teardownOne_flags valid]
    exact drained_flags _
  have fields (o : Obj) (ho : o ∈ entryRegs t) (other : o ≠ O.pathFlags t) : (c.teardownOne t).get o = c.get o :=
    c.teardownOne_kept t (obj_of_mem_entryRegs o ho) (key_ne_flags o ho other)
  have paired (pair : Nat) : ∀ o ∈ entryRegs t, ((c.teardownOne t).teardownOne pair).get o = (c.teardownOne t).get o := by
    intro o ho
    by_cases self : pair = t
    · rw [self, Hub.teardownOne_invalid down.1]
    · refine Hub.teardownOne_kept _ pair (obj_of_mem_entryRegs (t := t) o ho) fun e => self ?_
      simpa [entryRegs] using (congrArg Key.inst e).symm.trans (inst_of_mem_entryRegs o ho)
  have flags := paired (c.get (O.pathPair t)) (O.pathFlags t) (by simp [entryRegs])
  unfold Hub.teardown
  dsimp only
  refine Hub.when_spec (P := fun d => d.valid t = false ∧ d.drain t = true ∧ ∀ o ∈ entryRegs t, o ≠ O.pathFlags t → d.get o = c.get o) _ _ _
    ⟨down.1, down.2, fields⟩ ⟨?_, ?_, fun o ho other => (paired _ o ho).trans (fields o ho other)⟩
  · rw [Hub.valid, flags]; exact down.1
  · rw [Hub.drain, flags]; exact down.2

end Sys2Proof.Machine
end

section
/-! The refusals of the path table, of a multicast group and of a staged record, and the table's writes (O9). -/
namespace Sys2Proof.Machine

-- One theorem after another: elaborated side by side they take more memory than the check allows.
set_option Elab.async false

/-! ## What a write answers -/

theorem exec_pathTableWrite (lvl : Level) (t : Fin 16384) (es : List PathEntry) (s : State) :
    exec (.pathTableWrite lvl t es) s = onWrite (.pathTableWrite lvl t es) s fun c => c.request lvl engineerWrites fun c => c.writePathTable t es := by rfl

theorem exec_mcastTableWrite (lvl : Level) (g : Fin 1024) (members : BitVec 32) (outTids : List (BitVec 16)) (s : State) :
    exec (.mcastTableWrite lvl g members outTids) s
      = onWrite (.mcastTableWrite lvl g members outTids) s fun c => c.request lvl engineerWrites fun c => c.writeMcast g members.toNat outTids := by rfl

theorem exec_stageTableWrite (lvl : Level) (k : Fin 256) (r : StageRecord) (s : State) :
    exec (.stageTableWrite lvl k r) s = onWrite (.stageTableWrite lvl k r) s fun c => c.request lvl engineerWrites fun c => c.writeStage k r := by rfl

theorem exec_stageMessage (r : StageRecord) (vid : Option VidMapping) (s : State) :
    exec (.stageMessage r vid) s = onDomains s fun c => c.stageFromMessage r vid := by rfl

/-- PATH_STATUS with a code, and the status of the refusal (R453). -/
theorem PathRefused.of_put (c : Hub) {code : Nat} (h : code < 256) (st : Status) : PathRefused c ((c.put O.pathStatus code).emit (.status st)) code st :=
  ⟨rfl, by simp [Obj.cap, Nat.mod_eq_of_lt h], ((OnlyRegs.refl c [O.pathStatus]).put (x := O.pathStatus) (by simp) code).emit _⟩

/-! ## The refusals of an entry (R39, R60–R62, R453) -/

section Refusals

variable {c : Hub} {t : Nat} {e : PathEntry}

theorem entryRefusal_reserved (h : t < 3) : c.entryRefusal t e = some (5, .invalidValue) := by simp [Hub.entryRefusal, h]

variable (user : 3 ≤ t) (below : t < 16384)
include user below

theorem entryRefusal_of_user : c.entryRefusal t e = if c.oarUnjoined then some (1, .busy) else if !entryListed e then some (1, .invalidValue)
    else if !entryValid e then none else if c.drain t then some (2, .busy) else if c.valid t && c.reroutes t e then some (4, .busy)
    else if !c.combination e || !c.shaperSuits e then some (1, .invalidValue) else if c.useTaken t e then some (1, .busy)
    else if !c.valid t && decide (4096 ≤ c.activeTunnels) then some (3, .busy) else none :=
  if_neg (by omega)

theorem entryRefusal_unjoined (h : c.oarUnjoined = true) : c.entryRefusal t e = some (1, .busy) := by
  simp [entryRefusal_of_user user below, h]

variable (joined : c.oarUnjoined = false)
include joined

theorem entryRefusal_unlisted (h : entryListed e = false) : c.entryRefusal t e = some (1, .invalidValue) := by
  simp [entryRefusal_of_user user below, joined, h]

variable (listed : entryListed e = true)
include listed

theorem entryRefusal_invalid (h : entryValid e = false) : c.entryRefusal t e = none := by
  simp [entryRefusal_of_user user below, joined, listed, h]

variable (valid : entryValid e = true)
include valid

theorem entryRefusal_draining (h : c.drain t = true) : c.entryRefusal t e = some (2, .busy) := by
  simp [entryRefusal_of_user user below, joined, listed, valid, h]

variable (still : c.drain t = false)
include still

theorem entryRefusal_rerouted (inForce : c.valid t = true) (h : c.reroutes t e = true) : c.entryRefusal t e = some (4, .busy) := by
  simp [entryRefusal_of_user user below, joined, listed, valid, still, inForce, h]

variable (free : c.valid t = false)
include free

theorem entryRefusal_unsuitable (h : c.combination e = true → c.shaperSuits e = false) : c.entryRefusal t e = some (1, .invalidValue) := by
  have : (!c.combination e || !c.shaperSuits e) = true := by cases hc : c.combination e <;> simp [hc] at h ⊢; exact h
  simp [entryRefusal_of_user user below, joined, listed, valid, still, free, this]

variable (allowed : c.combination e = true) (suits : c.shaperSuits e = true)
include allowed suits

theorem entryRefusal_used (h : c.useTaken t e = true) : c.entryRefusal t e = some (1, .busy) := by
  simp [entryRefusal_of_user user below, joined, listed, valid, still, free, allowed, suits, h]

theorem entryRefusal_limit (unused : c.useTaken t e = false) (h : 4096 ≤ c.activeTunnels) : c.entryRefusal t e = some (3, .busy) := by
  simp [entryRefusal_of_user user below, joined, listed, valid, still, free, allowed, suits, unused, h]

end Refusals

/-- The fields that may not change in place (R62). -/
theorem Hub.reroutes_of {c : Hub} {t : Nat} {e : PathEntry} (h : c.get (O.pathType t) ≠ e.type.toNat ∨ c.get (O.pathIn t) ≠ e.inp.toNat
    ∨ c.get (O.pathCls t) ≠ e.cls.toNat % 8 ∨ c.get (O.pathOut t) ≠ entryOut e ∨ c.get (O.pathOutTid t) ≠ e.outTid.toNat % 16384
    ∨ c.isMcast t ≠ bit e.flags.toNat 1) : c.reroutes t e = true := by
  simpa [Hub.reroutes, entryCls, entryMcast, or_assoc] using h

/-- What R39 names is no combination: a class that the TYPE does not have, multicast PCIe, PCIe at a Crew hub. -/
theorem Hub.combination_of {c : Hub} {e : PathEntry} (h : (typeRow e.type.toNat).1.contains (entryCls e) = false
    ∨ (e.type = 2 ∧ bit e.flags.toNat 1 = true) ∨ (c.get O.role = 1 ∧ 0x20 ∈ entryEnds e)) : c.combination e = false := by
  unfold Hub.combination
  rcases h with cls | ⟨pcie, mcast⟩ | ⟨crew, atPcie⟩
  · simp only [cls, Bool.false_and]
  · simp [pcie, mcast, entryMcast, typeRow]
  · have : (c.isCrew && (entryEnds e).contains 0x20) = true := by simp [Hub.isCrew, crew, atPcie]
    simp only [this, Bool.not_true, Bool.and_false, Bool.false_and]

/-! ## The writes of the table -/

/-- The staged records of an entry dropped. -/
def Hub.dropStaged (c : Hub) (t : Nat) : Hub := c.each (c.stagedSlots.filter fun k => c.get (O.stageTid k) == t) fun c k => c.freeStage k

theorem Hub.dropStaged_none {c : Hub} (h : c.stagedSlots = []) (t : Nat) : c.dropStaged t = c := by simp [Hub.dropStaged, h, Hub.each]

theorem Hub.writePathTable_refused {c : Hub} {t : Nat} {e : PathEntry} {code : Nat} {st : Status} (below : t < 16384)
    (h : c.entryRefusal t e = some (code, st)) : c.writePathTable t [e] = (st, c.put O.pathStatus code) := by
  simp [Hub.writePathTable, Hub.writeEntries, h, show ¬16384 < t + 1 by omega]

theorem Hub.writePathTable_taken {c : Hub} {t : Nat} {e : PathEntry} (below : t < 16384) (h : c.entryRefusal t e = none) :
    c.writePathTable t [e] = (.ok, (c.dropStaged t).applyEntry t e) := by
  simp [Hub.writePathTable, Hub.writeEntries, h, show ¬16384 < t + 1 by omega, Hub.dropStaged]

theorem Hub.writePathTable_beyond {c : Hub} {t : Nat} {es : List PathEntry} (h : 16384 < t + es.length) : c.writePathTable t es = (.range, c) := by
  simp [Hub.writePathTable, h]

end Sys2Proof.Machine
end

section
/-! Staged records and multicast groups: what each write leaves (R64–R68, R73, R453, R456), and the entry that a write applies (O9). -/
namespace Sys2Proof.Machine

-- One theorem after another: elaborated side by side they take more memory than the check allows.
set_option Elab.async false

/-! ## A staged record (R66) -/

theorem OnlyRegs.onlyObjects {c d : Hub} {xs os : List Obj} (h : OnlyRegs c d xs) (sub : ∀ x ∈ xs, namesObject os x = true) : OnlyObjects c d os :=
  OnlyObjects.mono (fun o ho => h o fun x hx e => ho x hx (by rw [e])) sub

theorem Hub.putStage_onlyRegs (c : Hub) (k : Nat) (r : StageRecord) (vid : Option VidMapping) (fromCox : Bool) :
    OnlyRegs c (c.putStage k r vid fromCox) (stageRegs k) := by
  have none := OnlyRegs.refl c (stageRegs k)
  have first := ((((none.put (x := O.stageTid k) (by simp [stageRegs]) r.tid.toNat).put (x := O.stageUsed k) (by simp [stageRegs])
    (r.used.toNat % 2)).put (x := O.stageActivate k) (by simp [stageRegs]) r.activate.toNat).put (x := O.stageFlags k) (by simp [stageRegs])
    (r.entry.flags.toNat % 4)).put (x := O.stageType k) (by simp [stageRegs]) r.entry.type.toNat
  have second := (((first.put (x := O.stageIn k) (by simp [stageRegs]) r.entry.inp.toNat).put (x := O.stageCls k) (by simp [stageRegs])
    (r.entry.cls.toNat % 8)).put (x := O.stageOut k) (by simp [stageRegs]) (entryOut r.entry)).put (x := O.stageOutTid k) (by simp [stageRegs])
    (r.entry.outTid.toNat % 16384)
  have third := ((second.put (x := O.stageShaper k) (by simp [stageRegs]) r.entry.shaper.toNat).put (x := O.stagePolicer k) (by simp [stageRegs])
    r.entry.policer.toNat).put (x := O.stagePair k) (by simp [stageRegs]) r.entry.pair.toNat
  exact (third.put (x := H.stageVid k) (by simp [stageRegs]) _).put (x := H.stageFromCox k) (by simp [stageRegs]) _

theorem Hub.putStage_taken (c : Hub) (k : Nat) {r : StageRecord} (used : bit r.used.toNat 0 = true) (vid : Option VidMapping) (fromCox : Bool) :
    StageTaken (c.putStage k r vid fromCox) k r := by
  have tid := r.tid.isLt
  have activate := r.activate.isLt
  have type := r.entry.type.isLt
  have inp := r.entry.inp.isLt
  have shaper := r.entry.shaper.isLt
  have policer := r.entry.policer.isLt
  have pair := r.entry.pair.isLt
  refine ⟨?used, ?_, ?_, ?_, ?_, ?_, ?_, ?out, ?_, ?_, ?_, ?_⟩
  case used =>
    simp [bit, Nat.testBit_zero] at used
    simp [Hub.putStage, Hub.putB, Hub.get_put_other, Obj.cap, used]
  case out =>
    simp [Hub.putStage, Hub.putB, Hub.get_put_other, Obj.cap, entryOut, entryMcast]
    exact out_fits _ _
  all_goals
    simp [Hub.putStage, Hub.putB, Hub.get_put_other, Obj.cap]
    omega

theorem Hub.putStage_fromCox (c : Hub) (k : Nat) (r : StageRecord) (vid : Option VidMapping) (fromCox : Bool) :
    (c.putStage k r vid fromCox).get (H.stageFromCox k) = if fromCox then 1 else 0 := by
  cases fromCox <;> simp [Hub.putStage, Hub.putB, Obj.cap]

theorem Hub.putStage_noVid (c : Hub) (k : Nat) (r : StageRecord) (fromCox : Bool) : (c.putStage k r none fromCox).get (H.stageVid k) = 0 := by
  simp [Hub.putStage, Hub.putB, Hub.get_put_other]

theorem Hub.putStage_out (c : Hub) (k : Nat) (r : StageRecord) (vid : Option VidMapping) (fromCox : Bool) :
    (c.putStage k r vid fromCox).out = c.out := by simp [Hub.putStage, Hub.putB]

theorem Hub.freeStage_zero (c : Hub) (k : Nat) : ∀ o ∈ stageRegs k, (c.freeStage k).get o = 0 := by
  simp [stageRegs, Hub.freeStage, Hub.putStage, Hub.putB, Hub.get_put_other, entryOut, entryMcast, bit]

/-! ## The slots in use -/

theorem Store.mem_of_find {k : Key} {v : Nat} {st : Store} (h : st.find k = some v) : (k, v) ∈ st := by
  induction st with
  | nil => cases h
  | cons x rest ih =>
    obtain ⟨k', v'⟩ := x
    unfold Store.find at h
    split at h
    case isTrue same => simp_all
    case isFalse other => exact List.mem_cons_of_mem _ (ih h)

/-- A register that does not stand at its default is among its object's instances. -/
theorem Hub.mem_instances {c : Hub} {o : Obj} (h : c.get o ≠ o.dflt) : o.key.inst ∈ c.instances o := by
  unfold Hub.get at h
  cases found : c.regs.find o.key with
  | none => simp [found] at h
  | some v => exact List.mem_filterMap.mpr ⟨_, Store.mem_of_find found, by simp⟩

theorem Hub.mem_stagedSlots {c : Hub} {k : Nat} (used : bit (c.get (O.stageUsed k)) 0 = true) : k ∈ c.stagedSlots := by
  refine List.mem_filter.mpr ⟨?_, used⟩
  have nonzero : c.get (O.stageUsed k) ≠ (O.stageUsed k).dflt := fun e => by simp [e, bit] at used
  exact Hub.mem_instances nonzero

/-- Freeing slots leaves one of them free. -/
theorem Hub.each_freeStage (xs : List Nat) {k : Nat} (hk : k ∈ xs) (c : Hub) : (c.each xs fun c k => c.freeStage k).get (O.stageUsed k) = 0 := by
  have stays (c : Hub) (j : Nat) (h : c.get (O.stageUsed k) = 0) : (c.freeStage j).get (O.stageUsed k) = 0 := by
    by_cases same : j = k
    · exact same ▸ c.freeStage_zero j _ (by simp [stageRegs])
    · exact (c.putStage_onlyRegs j _ none false _ (by simp [stageRegs, Ne.symm same])).trans h
  induction xs generalizing c with
  | nil => cases hk
  | cons x xs ih =>
    rw [Hub.each, List.foldl_cons]
    rcases List.mem_cons.mp hk with rfl | later
    · exact Hub.each_spec (P := (·.get (O.stageUsed k) = 0)) (fun c k => c.freeStage k) stays xs (c.freeStage k)
        (c.freeStage_zero k (O.stageUsed k) (by simp [stageRegs]))
    · exact ih later (c.freeStage x)

/-- The objects of the staging table, with the two registers that say where a record came from. -/
def stagingRegs : List Obj := [O.stageTid 0, H.stageVid 0, H.stageFromCox 0]

theorem Hub.dropStaged_onlyObjects (c : Hub) (t : Nat) : OnlyObjects c (c.dropStaged t) stagingRegs :=
  (OnlyObjects.refl c _).each _ fun d k => (d.putStage_onlyRegs k _ none false).onlyObjects (by simp [stageRegs, stagingRegs, namesObject])

theorem Hub.dropStaged_frees {c : Hub} {t k : Nat} (used : bit (c.get (O.stageUsed k)) 0 = true) (tid : c.get (O.stageTid k) = t) :
    (c.dropStaged t).get (O.stageUsed k) = 0 :=
  Hub.each_freeStage _ (List.mem_filter.mpr ⟨Hub.mem_stagedSlots used, by simp [tid]⟩) c

/-- The records dropped leave the path table. -/
theorem Hub.dropStaged_entry (c : Hub) (t : Nat) : ∀ o ∈ entryRegs t, (c.dropStaged t).get o = c.get o :=
  fun o ho => c.dropStaged_onlyObjects t o (by simp [stagingRegs, obj_of_mem_entryRegs (t := t) o ho])

/-! ## An entry applied -/

theorem Hub.applyEntry_torn {c : Hub} {t : Nat} {e : PathEntry} (invalid : entryValid e = false) (valid : c.valid t = true) :
    c.applyEntry t e = c.teardown t := by simp [Hub.applyEntry, invalid, valid]

theorem Hub.applyEntry_draining {c : Hub} {t : Nat} {e : PathEntry} (invalid : entryValid e = false) (free : c.valid t = false)
    (drain : c.drain t = true) : c.applyEntry t e = c := by simp [Hub.applyEntry, invalid, free, drain]

theorem Hub.applyEntry_free {c : Hub} {t : Nat} {e : PathEntry} (invalid : entryValid e = false) (free : c.valid t = false)
    (still : c.drain t = false) : c.applyEntry t e = c.putEntry t e false := by simp [Hub.applyEntry, invalid, free, still]

theorem Hub.showI_out (c : Hub) (o : Obj) (v : Int) : (c.showI o v).out = c.out := by unfold Hub.showI; split <;> rfl

theorem Hub.each_put_out {α : Type} (c : Hub) (xs : List α) (o : α → Obj) (v : α → Nat) : (c.each xs fun c x => c.put (o x) (v x)).out = c.out := by
  induction xs generalizing c with
  | nil => rfl
  | cons x xs ih => exact ih _

theorem Hub.when_out (c : Hub) (b : Bool) {f : Hub → Hub} (h : ∀ d, (f d).out = d.out) : (c.when b f).out = c.out := by
  cases b
  · rfl
  · exact h c

theorem Hub.freshBuckets_out (c : Hub) (t : Nat) (e : PathEntry) : (c.freshBuckets t e).out = c.out := by
  unfold Hub.freshBuckets
  dsimp only
  refine (Hub.when_out _ _ fun d => ?_).trans (Hub.when_out _ _ fun d => ?_)
  · unfold Hub.setPolicer
    rw [Hub.showI_out]
    rfl
  · rw [Hub.put_out]
    exact d.each_put_out (List.range 33) (fun o => H.bucket e.shaper.toNat o) fun _ => 0

theorem Hub.applyEntry_out {c : Hub} {e : PathEntry} (valid : entryValid e = true) (t : Nat) : (c.applyEntry t e).out = c.out := by
  have windows (b : Bool) (d : Hub) : (d.when b fun c => (c.put (H.npInFlight t) 0).put (H.npSent t) 0).out = d.out := by cases b <;> rfl
  have fields (b : Bool) := (windows b ((c.freshBuckets t e).putEntry t e false)).trans (c.freshBuckets_out t e)
  unfold Hub.applyEntry
  simp only [valid, Bool.not_true, Bool.false_eq_true, if_false]
  split
  · exact fields _
  · exact fields _

theorem Hub.teardown_onlyObjects (c : Hub) (t : Nat) : OnlyObjects c (c.teardown t) (O.pathFlags 0 :: H.drainCount 0 :: outputRegs) := by
  have one (c : Hub) (t : Nat) : OnlyObjects c (c.teardownOne t) (O.pathFlags 0 :: H.drainCount 0 :: outputRegs) := by
    refine (OnlyObjects.refl c _).when _ fun d => ?_
    have apart : OnlyObjects d { d with frames := d.frames.filter fun f => f.tid != t } (O.pathFlags 0 :: H.drainCount 0 :: outputRegs) := .of_regs rfl
    dsimp only
    refine OnlyObjects.trans ?_ ((Hub.endOutputs_onlyObjects _ t).mono)
    exact (apart.put (O.pathFlags t) _).put (H.drainCount t) 0
  unfold Hub.teardown
  dsimp only
  exact (one c t).when _ fun d => one d _

/-- An entry applied leaves the staging table. -/
theorem Hub.applyEntry_staged (c : Hub) (t k : Nat) (e : PathEntry) : (c.applyEntry t e).get (O.stageUsed k) = c.get (O.stageUsed k) := by
  cases valid : entryValid e
  case true => exact (Hub.applyEntry_valid valid c t false).2 _ (by simp +contextual [entryRegs, tokenRegs, windowRegs, or_imp])
  case false =>
    unfold Hub.applyEntry
    simp only [valid, Bool.not_false, if_true]
    split
    · exact (c.teardown_onlyObjects t).get _
    · split
      · rfl
      · exact c.putEntry_onlyRegs t e false _ (by simp [entryRegs])

/-! ## A staged record written or received (R67, R73, R453, R456) -/

theorem Hub.writeStage_clear {c : Hub} {r : StageRecord} (unused : bit r.used.toNat 0 = false) (h : c.clearRefusal r = none) (k : Nat) :
    c.writeStage k r = (.ok, c.freeStage k) := by simp [Hub.writeStage, unused, h]

theorem Hub.writeStage_taken {c : Hub} {r : StageRecord} (used : bit r.used.toNat 0 = true)
    (h : c.stageRefusal r (c.stagedSlots.length == 256) = none) (k : Nat) : c.writeStage k r = (.ok, c.putStage k r none false) := by
  simp [Hub.writeStage, used, h]

theorem Hub.writeStage_refused {c : Hub} {r : StageRecord} {code : Nat} {st : Status} (used : bit r.used.toNat 0 = true)
    (h : c.stageRefusal r (c.stagedSlots.length == 256) = some (code, st)) (k : Nat) : c.writeStage k r = (st, c.put O.pathStatus code) := by
  simp [Hub.writeStage, used, h]

theorem stageRefusal_reserved {c : Hub} {r : StageRecord} (h : r.tid.toNat < 3 ∨ 16383 < r.tid.toNat) (full : Bool) :
    c.stageRefusal r full = some (5, .invalidValue) := if_pos h

theorem stageRefusal_of_user {c : Hub} {r : StageRecord} (user : 3 ≤ r.tid.toNat ∧ r.tid.toNat ≤ 16383) (joined : c.oarUnjoined = false) (full : Bool) :
    c.stageRefusal r full = if !entryListed r.entry || (entryValid r.entry && !c.combination r.entry) then some (1, .invalidValue)
      else if r.activate.toNat ≤ c.stroke then some (6, .invalidValue) else if full then some (7, .busy) else none := by
  simp [Hub.stageRefusal, joined, user]

theorem stageRefusal_unsuitable {c : Hub} {r : StageRecord} (user : 3 ≤ r.tid.toNat ∧ r.tid.toNat ≤ 16383) (joined : c.oarUnjoined = false)
    (h : entryListed r.entry = false ∨ (entryValid r.entry = true ∧ c.combination r.entry = false)) (full : Bool) :
    c.stageRefusal r full = some (1, .invalidValue) := by
  rw [stageRefusal_of_user user joined, if_pos (by simpa using h)]

/-- A record whose entry may stand is refused for its stroke, or for want of a slot. -/
theorem stageRefusal_of_allowed {c : Hub} {r : StageRecord} (user : 3 ≤ r.tid.toNat ∧ r.tid.toNat ≤ 16383) (joined : c.oarUnjoined = false)
    (listed : entryListed r.entry = true) (allowed : entryValid r.entry = true → c.combination r.entry = true) (full : Bool) :
    c.stageRefusal r full = if r.activate.toNat ≤ c.stroke then some (6, .invalidValue) else if full then some (7, .busy) else none := by
  rw [stageRefusal_of_user user joined, if_neg (by simpa [listed] using allowed)]

/-- A refusal's code fits PATH_STATUS. -/
theorem stageRefusal_code {c : Hub} {r : StageRecord} {full : Bool} {code : Nat} {st : Status} (h : c.stageRefusal r full = some (code, st)) :
    code < 256 := by
  unfold Hub.stageRefusal at h
  grind

theorem Hub.stageFromMessage_taken {c : Hub} {r : StageRecord} {k : Nat}
    (slot : (List.range 256).find? (fun k => !bit (c.get (O.stageUsed k)) 0) = some k) (h : c.stageRefusal r false = none) (vid : Option VidMapping) :
    c.stageFromMessage r vid = c.putStage k { r with used := 1 } vid true := by
  simp [Hub.stageFromMessage, slot, h]

theorem Hub.stageFromMessage_refused {c : Hub} {r : StageRecord} {code : Nat} {st : Status}
    (h : c.stageRefusal r ((List.range 256).find? fun k => !bit (c.get (O.stageUsed k)) 0).isNone = some (code, st)) (vid : Option VidMapping) :
    c.stageFromMessage r vid = (c.put O.pathStatus code).stageFailed r.tid.toNat code r.activate.toNat := by
  simp [Hub.stageFromMessage, h]

/-! ## A multicast group (R64, R65) -/

/-- The outgoing IDs of a group's members, from member a on. -/
def Hub.putOutTids (c : Hub) (g a n : Nat) (tids : List (BitVec 16)) : Hub :=
  c.each ((List.range' a n).zip tids) fun c x => c.put (O.mcastOutTid g x.1) (x.2.toNat % 16384)

theorem Hub.putOutTids_cons (c : Hub) (g a n : Nat) (x : BitVec 16) (tids : List (BitVec 16)) :
    c.putOutTids g a (n + 1) (x :: tids) = (c.put (O.mcastOutTid g a) (x.toNat % 16384)).putOutTids g (a + 1) n tids := by
  simp [Hub.putOutTids, List.range'_succ, Hub.each]

theorem Hub.putOutTids_onlyRegs (c : Hub) (g a n : Nat) (tids : List (BitVec 16)) :
    OnlyRegs c (c.putOutTids g a n tids) ((List.range' a n).map fun i => O.mcastOutTid g i) :=
  (OnlyRegs.refl c _).each fun d _ hx => (OnlyRegs.refl d _).put (List.mem_map_of_mem (List.of_mem_zip hx).1) _

theorem Hub.putOutTids_out (c : Hub) (g a n : Nat) (tids : List (BitVec 16)) : (c.putOutTids g a n tids).out = c.out :=
  c.each_put_out _ _ _

/-- Each member in the range takes the ID given for it, and keeps its own where none is given. -/
theorem Hub.get_putOutTids (c : Hub) (g a n : Nat) (tids : List (BitVec 16)) (i : Nat) (hi : i < n) :
    (c.putOutTids g a n tids).get (O.mcastOutTid g (a + i)) = (tids[i]?).elim (c.get (O.mcastOutTid g (a + i))) (·.toNat % 16384) := by
  induction n generalizing c a tids i with
  | zero => omega
  | succ n ih =>
    cases tids with
    | nil => simp [Hub.putOutTids, Hub.each]
    | cons x tids =>
      rw [Hub.putOutTids_cons]
      cases i with
      | zero =>
        have apart : ∀ y ∈ (List.range' (a + 1) n).map fun j => O.mcastOutTid g j, (O.mcastOutTid g (a + 0)).key ≠ y.key := by
          simp only [List.mem_map, List.mem_range'_1]
          rintro _ ⟨j, ⟨above, -⟩, rfl⟩ same
          simp at same
          omega
        rw [Hub.putOutTids_onlyRegs _ g (a + 1) n tids _ apart]
        simp [Obj.cap]
        omega
      | succ i =>
        have other : (O.mcastOutTid g (a + 1 + i)).key ≠ (O.mcastOutTid g a).key := by simp; omega
        rw [show a + (i + 1) = a + 1 + i by omega, ih _ _ tids i (by omega), Hub.get_put_other _ _ other]
        rfl

theorem Hub.writeMcast_taken {c : Hub} (joined : c.oarUnjoined = false) (g members : Nat) (tids : List (BitVec 16)) :
    c.writeMcast g members tids = (.ok, (c.put (O.mcastMembers g) (members % 2 ^ 31)).putOutTids g 0 32 tids) := by
  simp [Hub.writeMcast, joined, Hub.putOutTids, List.range_eq_range']

theorem Hub.writeMcast_refused {c : Hub} (unjoined : c.oarUnjoined = true) (g members : Nat) (tids : List (BitVec 16)) :
    c.writeMcast g members tids = (.busy, c.put O.pathStatus 1) := by simp [Hub.writeMcast, unjoined]

end Sys2Proof.Machine
end

section
/-! The statement on the writes of the path table, of a multicast group and of a staged record (O9), from what each operation writes. -/
namespace Sys2Proof.Machine

-- One theorem after another: elaborated side by side they take more memory than the check allows.
set_option Elab.async false

/-- What a write sends is its status, where what it writes sends nothing. -/
theorem Sends.of_out {c d : Hub} (h : d.out = c.out) (x : Out) : Sends c (d.emit x) [x] := congrArg (· ++ [x]) h

/-! ## Answers of a write by a level that has the right -/

section Writes

variable {s : State} {lvl : Level} (on : s.hub.domainsOn = true) (right : Engineers lvl) (image : s.hub.inRom = false) (free : s.hub.handingOver = false)
include on right image free

theorem pathTableWrite_answers {t : Fin 16384} {es : List PathEntry} {st : Status} {d : Hub} {P : Hub → Prop}
    (result : s.hub.writePathTable t es = (st, d)) (h : P (d.emit (.status st))) : Answers (.pathTableWrite lvl t es) s P :=
  .of_write (exec_pathTableWrite lvl t es s) on free image right.writes (by simpa only [result] using h)

theorem mcastTableWrite_answers {g : Fin 1024} {members : BitVec 32} {tids : List (BitVec 16)} {st : Status} {d : Hub} {P : Hub → Prop}
    (result : s.hub.writeMcast g members.toNat tids = (st, d)) (h : P (d.emit (.status st))) : Answers (.mcastTableWrite lvl g members tids) s P :=
  .of_write (exec_mcastTableWrite lvl g members tids s) on free image right.writes (by simpa only [result] using h)

theorem stageTableWrite_answers {k : Fin 256} {r : StageRecord} {st : Status} {d : Hub} {P : Hub → Prop}
    (result : s.hub.writeStage k r = (st, d)) (h : P (d.emit (.status st))) : Answers (.stageTableWrite lvl k r) s P :=
  .of_write (exec_stageTableWrite lvl k r s) on free image right.writes (by simpa only [result] using h)

/-- An entry refused changes PATH_STATUS alone. -/
theorem pathTableWrite_refused {t : Fin 16384} {e : PathEntry} {code : Nat} {st : Status} (h : s.hub.entryRefusal t e = some (code, st))
    (fits : code < 256 := by decide) : Answers (.pathTableWrite lvl t [e]) s fun d => PathRefused s.hub d code st :=
  pathTableWrite_answers on right image free (Hub.writePathTable_refused t.isLt h) (.of_put _ fits st)

/-- A record refused changes PATH_STATUS alone. -/
theorem stageTableWrite_refused {k : Fin 256} {r : StageRecord} {code : Nat} {st : Status} (used : bit r.used.toNat 0 = true)
    (h : s.hub.stageRefusal r (s.hub.stagedSlots.length == 256) = some (code, st)) (fits : code < 256 := by decide) :
    Answers (.stageTableWrite lvl k r) s fun d => PathRefused s.hub d code st :=
  stageTableWrite_answers on right image free (Hub.writeStage_refused used h k) (.of_put _ fits st)

/-- An entry that nothing refuses is applied, after the records staged for it are dropped. -/
theorem pathTableWrite_applied {t : Fin 16384} {e : PathEntry} {P : Hub → Prop} (h : s.hub.entryRefusal t e = none)
    (applied : P (((s.hub.dropStaged t).applyEntry t e).emit (.status .ok))) : Answers (.pathTableWrite lvl t [e]) s P :=
  pathTableWrite_answers on right image free (Hub.writePathTable_taken t.isLt h) applied

/-- The same without records staged for it. -/
theorem pathTableWrite_unstaged {t : Fin 16384} {e : PathEntry} {P : Hub → Prop} (h : s.hub.entryRefusal t e = none) (unstaged : s.hub.stagedSlots = [])
    (applied : P ((s.hub.applyEntry t e).emit (.status .ok))) : Answers (.pathTableWrite lvl t [e]) s P :=
  pathTableWrite_applied on right image free h (by rwa [Hub.dropStaged_none unstaged])

/-- A multicast group takes its members and OUT_TIDs. -/
theorem mcastTableWrite_taken {g : Fin 1024} (members : BitVec 32) (tids : List (BitVec 16)) (joined : s.hub.oarUnjoined = false) :
    Answers (.mcastTableWrite lvl g members tids) s fun d => d.get (O.mcastMembers g) = members.toNat % 2 ^ 31
      ∧ (∀ i : Nat, i < 32 → d.get (O.mcastOutTid g i) = (tids[i]?).elim (s.hub.get (O.mcastOutTid g i)) (·.toNat % 16384))
      ∧ Sends s.hub d [.status .ok] ∧ OnlyRegs s.hub d (O.mcastMembers g :: (List.range 32).map fun i => O.mcastOutTid g i) := by
  refine mcastTableWrite_answers on right image free (Hub.writeMcast_taken joined g members.toNat tids) ⟨?_, fun i hi => ?_, ?_, ?_⟩
  · rw [Hub.get_emit, Hub.putOutTids_onlyRegs _ g 0 32 tids _ (by simp; omega)]
    simp [Obj.cap]
    omega
  · have ids := Hub.get_putOutTids (s.hub.put (O.mcastMembers g) (members.toNat % 2 ^ 31)) g 0 32 tids i hi
    rw [Nat.zero_add, Hub.get_put_off (o' := O.mcastOutTid g i) _ _ (by simp)] at ids
    exact ids
  · exact .of_out (Hub.putOutTids_out _ g 0 32 tids) _
  · refine OnlyRegs.emit (OnlyRegs.trans ((OnlyRegs.refl s.hub _).put (x := O.mcastMembers g) (by simp) (members.toNat % 2 ^ 31)) ?_) _
    exact (Hub.putOutTids_onlyRegs _ g 0 32 tids).mono (by simp [List.range_eq_range'])

end Writes

theorem Hub.stageFailed_member {c : Hub} (h : c.get O.role ≠ 2) (t st at0 : Nat) :
    c.stageFailed t st at0 = c.emit (.mgmtTo none 0 (.stageFail t st at0)) := by simp [Hub.stageFailed, Hub.isCox, h]

theorem Hub.stageFailed_cox {c : Hub} (h : c.get O.role = 2) (t st at0 : Nat) :
    c.stageFailed t st at0 = { c with ownFails := c.ownFails ++ [(t, st, at0)] } := by simp [Hub.stageFailed, Hub.isCox, h]

/-- A record of the Cox refused shows its code, and is reported to the Cox, or to the route service in the Cox itself (R456). -/
theorem stageMessage_refused {s : State} {r : StageRecord} {code : Nat} {st : Status} {P : Hub → Prop} (on : s.hub.domainsOn = true)
    (h : s.hub.stageRefusal r ((List.range 256).find? fun k => !bit (s.hub.get (O.stageUsed k)) 0).isNone = some (code, st)) (vid : Option VidMapping)
    (reported : P ((s.hub.put O.pathStatus code).stageFailed r.tid.toNat code r.activate.toNat)) : Answers (.stageMessage r vid) s P :=
  .of_domains (exec_stageMessage r vid s) on (by simpa only [Hub.stageFromMessage_refused h] using reported)

/-! ## The statement -/

/-- Settles O9: each write is refused by one test of its list (R453), or leaves what its operation on the entry, the group or the slot writes. -/
theorem pathTableWrites : Obligations.PathTableWrites := by
  unfold Obligations.PathTableWrites
  refine ⟨?taken, ?mcast, ?cleared, ?staged, ?received, ?failed, ?failedAtCox, ?reserved, ?unjoined, ?unlisted, ?draining, ?rerouted, ?unsuitable,
    ?usedElsewhere, ?limit, ?invalidFree, ?invalidDraining, ?invalidTorn, ?dropped, ?mcastUnjoined, ?stageReserved, ?stageLate, ?stageFull,
    ?stageUnsuitable, ?beyond⟩
  case taken =>
    intro s lvl t e on right accepted valid unstaged image free
    obtain ⟨fields, only⟩ := Hub.applyEntry_valid valid s.hub t.val false
    refine pathTableWrite_unstaged on right image free accepted unstaged ⟨fields, fields.valid_eq.trans valid, ?_, ?_⟩
    · exact .of_out (Hub.applyEntry_out valid t.val) _
    · exact (only.mono (by simp [tokenRegs, windowRegs, List.subset_def]; tauto)).emit _
  case mcast =>
    intro s lvl g members tids on right joined image free
    obtain ⟨d, next, pending, memory, group, ids, rest⟩ := mcastTableWrite_taken on right image free members tids joined (g := g)
    refine ⟨d, next, pending, memory, group, fun i hi => ?_, rest⟩
    rw [ids i hi]
    cases tids[i]? <;> rfl
  case cleared =>
    intro s lvl k r on right image free unused accepted
    refine stageTableWrite_answers on right image free (Hub.writeStage_clear unused accepted k) ⟨?_, ?_, .of_out (s.hub.putStage_out k _ none false) _⟩
    · exact (s.hub.putStage_onlyRegs k _ none false).emit _
    · exact s.hub.freeStage_zero k
  case staged =>
    intro s lvl k r on right image free used accepted
    refine stageTableWrite_answers on right image free (Hub.writeStage_taken used accepted k)
      ⟨?_, s.hub.putStage_taken k used none false, s.hub.putStage_fromCox k r none false, s.hub.putStage_noVid k r false,
        .of_out (s.hub.putStage_out k r none false) _⟩
    exact (s.hub.putStage_onlyRegs k r none false).emit _
  case received =>
    intro s r vid k on slot accepted
    refine .of_domains (exec_stageMessage r vid s) on ?_
    rw [Hub.stageFromMessage_taken slot accepted]
    exact ⟨s.hub.putStage_onlyRegs k _ vid true, s.hub.putStage_taken k (r := { r with used := 1 }) (by simp [bit]) vid true,
      s.hub.putStage_fromCox k _ vid true, s.hub.putStage_out k _ vid true⟩
  case failed =>
    intro s r vid code st on member refused
    refine stageMessage_refused on refused vid ?_
    rw [Hub.stageFailed_member (by rwa [Hub.get_put_obj _ _ (by simp)])]
    obtain ⟨-, shown, only⟩ := PathRefused.of_put s.hub (stageRefusal_code refused) st
    exact ⟨rfl, shown, only⟩
  case failedAtCox =>
    intro s r vid code st on cox refused
    refine stageMessage_refused on refused vid ?_
    rw [Hub.stageFailed_cox (by rwa [Hub.get_put_obj _ _ (by simp)])]
    obtain ⟨-, shown, only⟩ := PathRefused.of_put s.hub (stageRefusal_code refused) st
    exact ⟨rfl, shown, rfl, only⟩
  case reserved =>
    intro s lvl t e on right image free low
    exact pathTableWrite_refused on right image free (entryRefusal_reserved low)
  case unjoined =>
    intro s lvl t e on right image free user unjoined
    exact pathTableWrite_refused on right image free (entryRefusal_unjoined user t.isLt unjoined)
  case unlisted =>
    intro s lvl t e on right image free user joined unlisted
    exact pathTableWrite_refused on right image free (entryRefusal_unlisted user t.isLt joined unlisted)
  case draining =>
    intro s lvl t e on right image free joined user listed valid drain
    exact pathTableWrite_refused on right image free (entryRefusal_draining user t.isLt joined listed valid drain)
  case rerouted =>
    intro s lvl t e on right image free joined user listed valid still inForce differs
    exact pathTableWrite_refused on right image free
      (entryRefusal_rerouted user t.isLt joined listed valid still inForce (Hub.reroutes_of differs))
  case unsuitable =>
    intro s lvl t e on right image free joined user listed valid still unused wrong
    refine pathTableWrite_refused on right image free (entryRefusal_unsuitable user t.isLt joined listed valid still unused fun allowed => ?_)
    rw [← or_assoc, ← or_assoc] at wrong
    refine wrong.resolve_left fun no => ?_
    rw [Hub.combination_of (or_assoc.mp no)] at allowed
    exact Bool.false_ne_true allowed
  case usedElsewhere =>
    intro s lvl t e on right image free joined user listed valid still unused allowed suits taken
    exact pathTableWrite_refused on right image free (entryRefusal_used user t.isLt joined listed valid still unused allowed suits taken)
  case limit =>
    intro s lvl t e on right image free joined user listed valid still unused allowed suits single full
    exact pathTableWrite_refused on right image free (entryRefusal_limit user t.isLt joined listed valid still unused allowed suits single full)
  case invalidFree =>
    intro s lvl t e on right image free joined user listed invalid unstaged unused still
    refine pathTableWrite_unstaged on right image free (entryRefusal_invalid user t.isLt joined listed invalid) unstaged ?_
    rw [Hub.applyEntry_free invalid unused still]
    exact ⟨s.hub.putEntry_taken t.val e, rfl, (s.hub.putEntry_onlyRegs t.val e false).emit _⟩
  case invalidDraining =>
    intro s lvl t e on right image free joined user listed invalid unstaged unused drain
    refine pathTableWrite_unstaged on right image free (entryRefusal_invalid user t.isLt joined listed invalid) unstaged ?_
    rw [Hub.applyEntry_draining invalid unused drain]
    exact ⟨rfl, .of_regs rfl⟩
  case invalidTorn =>
    intro s lvl t e on right image free joined user listed invalid valid _
    have entry := s.hub.dropStaged_entry t.val
    have inForce : (s.hub.dropStaged t.val).valid t.val = true := by
      rw [Hub.valid, entry _ (by simp [entryRegs])]
      exact valid
    obtain ⟨off, drains, kept⟩ := Hub.teardown_drains inForce
    refine pathTableWrite_applied on right image free (entryRefusal_invalid user t.isLt joined listed invalid) ?_
    rw [Hub.applyEntry_torn invalid inForce]
    exact ⟨off, drains, fun o ho other => (kept o ho other).trans (entry o ho)⟩
  case dropped =>
    intro s lvl t e k on right accepted image free used tid
    refine pathTableWrite_applied on right image free accepted ?_
    rw [Hub.get_emit, Hub.applyEntry_staged]
    exact Hub.dropStaged_frees used tid
  case mcastUnjoined =>
    intro s lvl g members tids on right unjoined image free
    exact mcastTableWrite_answers on right image free (Hub.writeMcast_refused unjoined g members.toNat tids) (.of_put _ (by decide) _)
  case stageReserved =>
    intro s lvl k r on right image free out used
    exact stageTableWrite_refused on right image free used (stageRefusal_reserved out _)
  case stageLate =>
    intro s lvl k r on right image free user used joined listed allowed late
    refine stageTableWrite_refused on right image free used ?_
    rw [stageRefusal_of_allowed user joined listed allowed, if_pos late]
  case stageFull =>
    intro s lvl k r on right image free user used joined listed allowed early full
    refine stageTableWrite_refused on right image free used ?_
    rw [stageRefusal_of_allowed user joined listed allowed, if_neg (by omega), full]
    rfl
  case stageUnsuitable =>
    intro s lvl k r on right image free user used joined wrong
    exact stageTableWrite_refused on right image free used (stageRefusal_unsuitable user joined wrong _)
  case beyond =>
    intro s lvl t es on right image free tooFar
    exact pathTableWrite_answers on right image free (Hub.writePathTable_beyond tooFar) ⟨rfl, rfl⟩

end Sys2Proof.Machine
end

section
/-! A unicast packet that its queue takes (O7): the record it joins the queue as, and the verdicts of admission that take it (R75, R85, R86). -/
namespace Sys2Proof.Machine

-- One theorem after another: elaborated side by side they take more memory than the check allows.
set_option Elab.async false

/-! ## What counts, peaks and conditional operations keep -/

@[simp] theorem Hub.count_held (c : Hub) (o : Obj) (n : Nat) : (c.count o n).held = c.held := by unfold Hub.count; split <;> rfl
@[simp] theorem Hub.count_reactions (c : Hub) (o : Obj) (n : Nat) : (c.count o n).reactions = c.reactions := by unfold Hub.count; split <;> rfl
@[simp] theorem Hub.peak_held (c : Hub) (o : Obj) (v : Nat) : (c.peak o v).held = c.held := by unfold Hub.peak; split <;> rfl

/-- A conditional operation keeps the packets held where the operation keeps them. -/
theorem Hub.when_held (c : Hub) (b : Bool) {f : Hub → Hub} (h : ∀ d, (f d).held = d.held) : (c.when b f).held = c.held := by
  cases b with
  | false => rfl
  | true => exact h c

@[simp] theorem Hub.returnCredit_held (c : Hub) (input cls cost : Nat) : (c.returnCredit input cls cost).held = c.held := c.when_held _ fun _ => rfl
@[simp] theorem Hub.freeCells_held (c : Hub) (p : Held) : (c.freeCells p).held = c.held := c.when_held _ fun d => d.returnCredit_held _ _ _
@[simp] theorem Hub.leaveSpill_held (c : Hub) (q : Nat) : (c.leaveSpill q).held = c.held := c.when_held _ fun _ => rfl

/-! ## Admission (R85) -/

/-- A packet of an isochronous class with room in the isochronous pool takes no shared cell. -/
theorem Hub.verdictOf_iso {c : Hub} {q n : Nat} (iso : q % 8 = 1 ∨ q % 8 = 2 ∨ q % 8 = 3) (room : n ≤ c.isoFree) :
    c.verdictOf q n false = (false, .takes ⟨min n (c.reserveFree q), n - min n (c.reserveFree q), 0, 0, .head⟩) := by
  have all : min (n - min n (c.reserveFree q)) c.isoFree = n - min n (c.reserveFree q) := by omega
  simp [Hub.verdictOf, iso, all]

/-- A packet of another class, whose queue neither spills nor starts to and has its reserve free, takes reserve cells alone. -/
theorem Hub.verdictOf_reserve {c : Hub} {q n : Nat} (other : q % 8 = 0 ∨ 4 ≤ q % 8) (unspilt : c.spilling q = false)
    (low : 100 * c.cellsUsed < c.get O.spillOn * 196608) (room : n ≤ c.reserveFree q)
    (share : 16 * c.sharedCells q ≤ 2 ^ c.get (O.alphaCode (q % 8)) * c.sharedFree) : c.verdictOf q n false = (false, .takes ⟨n, 0, 0, 0, .head⟩) := by
  have notIso : ¬(q % 8 = 1 ∨ q % 8 = 2 ∨ q % 8 = 3) := by omega
  have below : ¬c.get O.spillOn * 196608 ≤ 100 * c.cellsUsed := by omega
  simp [Hub.verdictOf, notIso, below, unspilt, Nat.min_eq_left room, share]

/-! ## The queue -/

/-- The record of a unicast packet that its queue takes, before the queue counts it. -/
def Hub.takenAs (c : Hub) (tid outTid q input : Nat) (cutoff : Bool) (p : Packet) (ch : Charge) : Held :=
  { q := q, seg := ch.seg, tid := tid, outTid := outTid, input := input, hdrClass := p.cls, cells := cellsOf p.payload.length, reserve := ch.reserve,
    iso := ch.iso, shared := ch.shared, credit := ch.credit, mcast := 0, appended := 0, stroke := 0, sampled := false, heldOver := false,
    cutoff := cutoff, spilled := false, marked := none, shaper := if tid < 3 then 0xFFFF else c.get (O.pathShaper tid), pkt := p }

/-- A packet, other than one of an Ethernet frame, that admission takes without spill joins its queue. -/
theorem Hub.offer_of_takes {c : Hub} {q : Nat} {p : Packet} {ch : Charge} (plain : p.type ≠ 3)
    (taken : c.verdictOf q (cellsOf p.payload.length) false = (false, .takes ch)) (tid outTid input : Nat) (cutoff : Bool) :
    c.offer tid outTid q input cutoff p = (c.append (c.takenAs tid outTid q input cutoff p ch), true) := by
  have tested : c.offerTest tid q false p = (false, .takes ch) := (if_pos plain).trans taken
  rw [Hub.offer, tested]
  exact if_pos plain

/-- What a queue's count changes. -/
def appendRegs : List Obj := [O.pathCountPackets 0, O.queueStatusPeak 0, H.appended 0]

/-- An appended packet stands at the end, with the moment and the stroke in which it came. -/
theorem Hub.append_held (c : Hub) (p : Held) :
    (c.append p).held = c.held ++ [{ p with sampled := c.get (H.appended p.q) = 0, appended := c.now, stroke := c.stroke }] := by
  simp [Hub.append]

theorem Hub.append_onlyObjects (c : Hub) (p : Held) : OnlyObjects c (c.append p) appendRegs := by
  have held : OnlyObjects c { c with held := c.held ++ [{ p with sampled := c.get (H.appended p.q) = 0, appended := c.now, stroke := c.stroke }] }
      appendRegs := .of_regs rfl
  exact (((held.put (H.appended p.q) _).count (O.pathCountPackets p.tid)).count (O.pathCountBytes p.tid) p.pkt.size).peak (O.queueStatusPeak p.q) _

/-- What changes where a packet is taken. -/
def enqueueRegs : List Obj := [O.pathCountPackets 0, O.queueStatusPeak 0, O.usedPeak, H.appended 0, H.creditReturned 0 0]

/-- A packet enqueued is appended; the peak follows, and its credit may return. -/
theorem Hub.enqueue_of_takes {c : Hub} {q : Nat} {p : Packet} {ch : Charge} (plain : p.type ≠ 3)
    (taken : c.verdictOf q (cellsOf p.payload.length) false = (false, .takes ch)) (tid outTid input : Nat) (cutoff : Bool) :
    ∃ b, c.enqueue tid outTid q input cutoff p = (c.append (c.takenAs tid outTid q input cutoff p ch)).peakUsed.when b fun c =>
      c.returnCredit input p.cls (cellsOf p.payload.length) := by
  rw [Hub.enqueue, Hub.offer_of_takes plain taken]
  exact ⟨_, rfl⟩

section Taken

variable {c : Hub} {q : Nat} {p : Packet} {ch : Charge} (plain : p.type ≠ 3)
  (taken : c.verdictOf q (cellsOf p.payload.length) false = (false, .takes ch)) (tid outTid input : Nat) (cutoff : Bool)
include plain taken

theorem Hub.enqueue_held : ∃ h : Held, (c.enqueue tid outTid q input cutoff p).held = c.held ++ [h] ∧ h.pkt = p ∧ h.q = q ∧ h.tid = tid
    ∧ h.outTid = outTid ∧ h.seg = ch.seg ∧ h.reserve = ch.reserve ∧ h.shared = ch.shared := by
  obtain ⟨b, enqueued⟩ := Hub.enqueue_of_takes plain taken tid outTid input cutoff
  rw [enqueued, Hub.when_held _ b fun d => d.returnCredit_held _ _ _, Hub.peakUsed, Hub.peak_held, Hub.append_held]
  exact ⟨_, rfl, rfl, rfl, rfl, rfl, rfl, rfl, rfl⟩

theorem Hub.enqueue_onlyObjects : OnlyObjects c (c.enqueue tid outTid q input cutoff p) enqueueRegs := by
  obtain ⟨b, enqueued⟩ := Hub.enqueue_of_takes plain taken tid outTid input cutoff
  rw [enqueued]
  exact (((c.append_onlyObjects _).mono).peak O.usedPeak _).when b fun d => (OnlyObjects.refl d _).when _ fun d =>
    (OnlyObjects.refl d _).put (H.creditReturned input p.cls) _

end Taken

/-! ## The way to the queue (R37, R61, R75) -/

/-- A sound packet of the time channel goes to the queue of C3 at the management processor. -/
theorem Hub.receive_time {c : Hub} {p : Packet} (forwards : c.flag O.forwarding = true) (sound : p.wellFormed = true) (tid : p.tid = 1)
    (type : p.type = 0) (input : Nat) : c.receive input p = c.toQueue 1 32 3 input p := by
  simp [Hub.receive, forwards, sound, tid, type]

/-- A sound packet with the TID of a tunnel goes on to the tunnel's look-up. -/
theorem Hub.receive_tunnel {c : Hub} {p : Packet} (forwards : c.flag O.forwarding = true) (sound : p.wellFormed = true) (tid : 3 ≤ p.tid.toNat)
    (input : Nat) : c.receive input p = c.receiveTunnel input p := by
  rw [Hub.receive, forwards, sound]
  obtain ⟨n, hn⟩ := Nat.exists_eq_add_of_le' tid
  simp [hn]

/-- A tunnel packet that passes the tests of R61, of a unicast entry without a policer, goes to its entry's queue; a route's offered bytes alone are noted
before. -/
theorem Hub.receiveTunnel_unicast {c : Hub} {input out outTid : Nat} {p : Packet} (valid : c.valid p.tid.toNat = true)
    (unicast : c.isMcast p.tid.toNat = false) (fromInput : endpointOf (c.get (O.pathIn p.tid.toNat)) = some input)
    (type : c.get (O.pathType p.tid.toNat) = p.type.toNat) (unpoliced : c.get (O.pathPolicer p.tid.toNat) = 0xFFFF)
    (toOut : c.outputs p.tid.toNat = [(out, outTid)]) (inOpen : c.portBarred input = false) (outOpen : c.portBarred out = false) :
    ∃ offers cutoff, c.receiveTunnel input p
      = ({ c with offers := offers } : Hub).enqueue p.tid.toNat outTid (queueOf out (c.get (O.pathCls p.tid.toNat))) input cutoff p := by
  have noted (b : Bool) : ∃ offers, (c.when b fun c => c.offered p.tid.toNat p.size) = { c with offers := offers } := by
    cases b <;> exact ⟨_, rfl⟩
  obtain ⟨offers, noted⟩ := noted (decide (8192 ≤ p.tid.toNat) && decide (24 ≤ c.get (O.pathIn p.tid.toNat)))
  have passed : ({ c with offers := offers } : Hub).police p.tid.toNat p.size = ({ c with offers := offers }, true) := if_pos unpoliced
  refine ⟨offers, decide (24 ≤ c.get (O.pathIn p.tid.toNat)), ?_⟩
  unfold Hub.receiveTunnel
  dsimp only
  rw [if_neg (by simp [valid]), if_neg (by simp [valid, inOpen]), if_neg (by simp [fromInput]), if_neg (by simp [type]), noted, passed]
  have unicast' : ({ c with offers := offers } : Hub).isMcast p.tid.toNat = false := unicast
  have toOut' : ({ c with offers := offers } : Hub).outputs p.tid.toNat = [(out, outTid)] := toOut
  have outOpen' : ({ c with offers := offers } : Hub).portBarred out = false := outOpen
  simp only [unicast', toOut', outOpen', Bool.false_eq_true, if_false]
  rfl

/-- Admission looks at no packet in staging and at no route's offered bytes. -/
theorem Hub.verdictOf_notes (c : Hub) (arrived : List Arrived) (offers : List Offer) (q n : Nat) (mcast : Bool) :
    ({ c with arrived := arrived, offers := offers } : Hub).verdictOf q n mcast = c.verdictOf q n mcast := by rfl

theorem exec_packetReceive (input : Fin 33) (p : Packet) (s : State) : exec (.packetReceive input p) s = execPacketReceive input p s := by rfl

/-- A packet from a port or an adapter, at a hub in Run, goes from its input's staging through the switch core. -/
theorem packetReceive_answers {s : State} {input : Fin 33} {p : Packet} {P : Hub → Prop} (outside : input ≠ 32) (runs : s.hub.flag H.running = true)
    (power : s.hub.get O.powerState = 0) (h : P (({ s.hub with arrived := s.hub.arrived.erase ⟨input.val, p⟩ } : Hub).receive input.val p)) :
    Answers (.packetReceive input p) s P := by
  refine .of_domains (exec_packetReceive input p s) (Hub.domainsOn_of_run runs power) ?_
  have other : input.val ≠ 32 := fun e => outside (Fin.ext e)
  have awake : (s.hub.when (input.val != 32) Hub.awake) = s.hub := Hub.when_spec (P := (· = s.hub)) _ _ _ rfl (Hub.awake_of_run power)
  simpa only [awake, if_neg fun e : input.val = 32 ∧ p.tid.toNat = 0 => other e.1] using h

end Sys2Proof.Machine
end

section
/-! The engines of the buffer (O7): a spill or refill move of the one packet in its segment, and the scrub of the cell memory (R92–R95, R98, R99). -/
namespace Sys2Proof.Machine

-- One theorem after another: elaborated side by side they take more memory than the check allows.
set_option Elab.async false

/-! ## A single packet -/

/-- The turn falls to the only queue with work. -/
theorem nextTurn_singleton (last q : Nat) : nextTurn last [q] = some q := by
  by_cases h : last < q <;> simp [nextTurn, h]

section Alone

variable {c : Hub} {p : Held} (alone : c.held = [p])
include alone

theorem Hub.segment_of_alone {x : Seg} (seg : p.seg = x) : c.segment p.q x = [p] := by simp [Hub.segment, alone, seg]

theorem Hub.segment_of_alone_other {x : Seg} (seg : p.seg ≠ x) (q : Nat) : c.segment q x = [] := by simp [Hub.segment, alone, seg]

theorem Hub.queuesIn_of_alone {x : Seg} (seg : p.seg = x) : c.queuesIn x = [p.q] := by simp [Hub.queuesIn, alone, seg, List.eraseDups_cons]

/-- The engine that may move the only packet has its turn at that packet's queue. -/
theorem Hub.turn_of_alone {x : Seg} (seg : p.seg = x) {ready : Nat → Option Held} (moves : ready p.q = some p) (last : Nat) :
    nextTurn last ((c.queuesIn x).filter fun k => (ready k).isSome) = some p.q := by
  simp [Hub.queuesIn_of_alone alone seg, moves, nextTurn_singleton]

/-- A packet of C4 in a tail, for which the region has units, may move (R94). -/
theorem Hub.spillReady_of_alone (tail : p.seg = .tail) (enabled : c.get O.spillState = 0) (spills : c.spilling p.q = true) (class4 : p.q % 8 = 4)
    (room : p.cells ≤ c.spillRegion - c.spillUnits) : c.spillReady p.q = some p := by
  simp [Hub.spillReady, Hub.segment_of_alone alone tail, enabled, spills, class4, room]

/-- A packet in DRAM whose queue has an empty head may move where shared cells have room for it (R94). -/
theorem Hub.refillReady_of_alone (dram : p.seg = .dram) (enabled : c.get O.spillState = 0) (low : 0 < c.get O.refillLow)
    (room : p.cells ≤ c.sharedFree) : c.refillReady p.q = some p := by
  have head : c.segment p.q .head = [] := Hub.segment_of_alone_other alone (by simp [dram]) p.q
  have supplied : p.cells ≤ c.sharedFree + min p.cells (c.reserveFree p.q) := by omega
  simp [Hub.refillReady, Hub.segment_of_alone alone dram, head, cellSum, enabled, low, supplied]

end Alone

/-! ## Spill and refill (R94, R95) -/

theorem exec_spillMove (q : Fin 264) (s : State) : exec (.spillMove q) s = execSpillMove q s := by rfl
theorem exec_refillMove (q : Fin 264) (dramError : Bool) (s : State) : exec (.refillMove q dramError) s = execRefillMove q dramError s := by rfl

/-- The record of a packet that has moved to DRAM: its cells are free. -/
def Held.inDram (p : Held) : Held := { p with seg := .dram, reserve := 0, iso := 0, shared := 0, credit := 0, mcast := 0, spilled := true }

/-- The record of a packet refilled in r reserve cells and, for the rest, in shared ones. -/
def Held.refilled (p : Held) (r : Nat) : Held := { p with seg := .head, reserve := r, shared := p.cells - r }

/-- The spill engine moves the only packet to DRAM in its turn. -/
theorem spillMove_answers {s : State} {q : Fin 264} {p : Held} {P : Hub → Prop} (on : s.hub.domainsOn = true) (alone : s.hub.held = [p])
    (queue : p.q = q.val) (tail : p.seg = .tail) (ready : s.hub.spillReady p.q = some p)
    (h : P ((({ s.hub with held := [p.inDram] } : Hub).freeCells p).put H.lastSpill q)) : Answers (.spillMove q) s P := by
  obtain ⟨q, inside⟩ := q
  obtain rfl : p.q = q := queue
  refine .of_domains (exec_spillMove ⟨p.q, inside⟩ s) on ?_
  have turn := Hub.turn_of_alone alone tail ready (s.hub.get H.lastSpill)
  simpa only [ready, turn, if_true, alone, List.map_cons, List.map_nil, Held.inDram] using h

theorem Hub.dramReads_onlyObjects (c : Hub) (words : Nat) : OnlyObjects c (c.dramReads words) [O.dramCorrected] := by
  have drawn : OnlyObjects c c.draw.2 [O.dramCorrected] := .of_regs rfl
  unfold Hub.dramReads
  dsimp only
  split
  · exact .refl c _
  split
  · exact drawn
  · exact (drawn.count O.dramCorrected _).raise 78

theorem Hub.leaveSpill_onlyObjects (c : Hub) (q : Nat) : OnlyObjects c (c.leaveSpill q) [O.queueStatusSpill 0] :=
  (OnlyObjects.refl c _).when _ fun d => (OnlyObjects.refl d _).put (O.queueStatusSpill q) 0

/-- What a refill changes beside the engine's turn. -/
def refillRegs : List Obj := [O.dramCorrected, O.queueStatusSpill 0, O.usedPeak]

/-- The refill engine moves the only packet to the head of its queue in its turn, in reserve cells first. -/
theorem refillMove_answers {s : State} {q : Fin 264} {p : Held} {P : Hub → Prop} (on : s.hub.domainsOn = true) (alone : s.hub.held = [p])
    (queue : p.q = q.val) (dram : p.seg = .dram) (ready : s.hub.refillReady p.q = some p)
    (h : ∀ v, P ((({ (s.hub.put H.lastRefill q).dramReads (4 * p.cells) with
      held := [p.refilled (min p.cells (s.hub.reserveFree q))] } : Hub).leaveSpill q).peak O.usedPeak v)) : Answers (.refillMove q false) s P := by
  obtain ⟨q, inside⟩ := q
  obtain rfl : p.q = q := queue
  refine .of_domains (exec_refillMove ⟨p.q, inside⟩ false s) on ?_
  have turn := Hub.turn_of_alone alone dram ready (s.hub.get H.lastRefill)
  have read : ((s.hub.put H.lastRefill p.q).dramReads (4 * p.cells)).held = [p] := by
    rw [← alone]
    unfold Hub.dramReads
    dsimp only
    split
    · rfl
    split
    · rfl
    · exact Hub.count_held _ _ _
  simpa only [ready, turn, if_true, Bool.false_eq_true, if_false, read, List.map_cons, List.map_nil, Held.refilled] using h _

/-! ## Scrub (R98, R99) -/

/-- The look at the running pass's period changes the mark of SCRUB_LATE alone. -/
theorem Hub.lateCells_onlyRegs (c : Hub) : OnlyRegs c c.lateCells [H.scrubLate 0] :=
  (OnlyRegs.refl c _).when _ fun d => ((OnlyRegs.refl d _).put (by simp) 1).raise 3 255 0

/-- A pass within its period is not late. -/
theorem Hub.lateCells_inTime {c : Hub} (h : c.now - c.get H.scrubStart ≤ c.get O.scrubPeriod * 1000000000) : c.lateCells = c := by
  simp [Hub.lateCells, Hub.lateScrub, Nat.not_lt.mpr h]

/-- The first look at a pass past its period reports it. -/
theorem Hub.lateCells_late {c : Hub} (unreported : c.flag (H.scrubLate 0) = false)
    (h : c.get O.scrubPeriod * 1000000000 < c.now - c.get H.scrubStart) : c.lateCells = (c.put (H.scrubLate 0) 1).raise 3 255 0 := by
  simp [Hub.lateCells, Hub.lateScrub, unreported, h]

/-- A mark changes neither registers nor lines. -/
theorem Hub.markCell_regs (c : Hub) (owner cell : Nat) : (c.markCell owner cell).regs = c.regs := by unfold Hub.markCell; split <;> rfl
theorem Hub.markCell_lines (c : Hub) (owner cell : Nat) : (c.markCell owner cell).lines = c.lines := by unfold Hub.markCell; split <;> rfl

/-- The packet in the cell, in the cell memory, is marked. -/
theorem Hub.markCell_owner {c : Hub} {owner : Nat} {p : Held} (stands : c.held[owner]? = some p) (sram : p.seg ≠ .dram) (cell : Nat) :
    (c.markCell owner cell).held[owner]? = some { p with marked := some cell } := by
  simp [Hub.markCell, stands, sram]

theorem exec_scrubRead_absent {word : Nat} (h : 1572864 ≤ word) (err : WordError) (owner : Option Nat) (collide : Bool) (s : State) :
    exec (.scrubRead word err owner collide) s = .fault .noSuchWord := if_pos h

theorem exec_dramScrub_absent {word : Nat} (h : 134217728 ≤ word) (err : WordError) (collide : Bool) (s : State) :
    exec (.dramScrub word err collide) s = .fault .noSuchWord := if_pos h

/-- A word before the last, with no packet write in its way: the scrub does what its check code calls for. -/
theorem exec_scrubRead_before {word : Nat} (h : word < 1572863) (err : WordError) (owner : Option Nat) (s : State) :
    exec (.scrubRead word err owner false) s = onDomains s fun c => match err with
      | .clean => c
      | .correctable => (c.count O.scrubCorrected).when (c.flag H.scrubBehind) fun c => c.count O.scrubForced
      | .uncorrectable => match owner with
        | none => (c.count O.scrubUncorrectable).raise 2 255 (word / 8)
        | some k => ((c.count O.scrubUncorrectable).raise 2 255 (word / 8)).markCell k (word / 8) := by
  have last : word ≠ 1572863 := by omega
  refine (if_neg (by omega)).trans (congrArg (onDomains s) (funext fun c => (if_neg last).trans ?_))
  cases err <;> cases owner <;> rfl

/-- The last word ends the pass. -/
theorem exec_scrubRead_last {word : Nat} (last : word = 1572863) (owner : Option Nat) (collide : Bool) (s : State) :
    exec (.scrubRead word .clean owner collide) s = onDomains s Hub.scrubPassEnd :=
  (if_neg (by omega)).trans (congrArg (onDomains s) (funext fun _ => if_pos last))

theorem exec_scrubPaceCheck (done due : Nat) (s : State) : exec (.scrubPaceCheck done due) s = execScrubPaceCheck done due s := by rfl

/-- The pace check notes whether the scrub is behind, at the threshold that its state calls for. -/
theorem scrubPaceCheck_answers {s : State} {done due : Nat} {P : Hub → Prop} (on : s.hub.domainsOn = true) (behind : Bool)
    (test : decide (done + (if s.hub.flag H.scrubBehind then 1 else 1024) ≤ due) = behind)
    (h : P ((s.hub.lateCells.putB H.scrubBehind behind).when behind fun c => c.count O.scrubForced (min (due - done) 1562))) :
    Answers (.scrubPaceCheck done due) s P := by
  subst test
  exact .of_domains (exec_scrubPaceCheck done due s) on h

/-- A scrub that keeps its pace takes no forced slot. -/
theorem scrubPaceCheck_inPace {s : State} {done due : Nat} (on : s.hub.domainsOn = true)
    (pace : due < done + (if s.hub.flag H.scrubBehind then 1 else 1024)) :
    Answers (.scrubPaceCheck done due) s fun d => d.get H.scrubBehind = 0 ∧ OnlyRegs s.hub d [H.scrubBehind, H.scrubLate 0] :=
  scrubPaceCheck_answers on false (decide_eq_false (by omega))
    ⟨Hub.get_put_same _ _ _, ((Hub.lateCells_onlyRegs _).mono (by simp)).put (by simp) 0⟩

/-- A scrub that is behind takes a forced slot for each word of its deficit, at most 1,562 in one check (notes/assumptions/17.md). -/
theorem scrubPaceCheck_behind {s : State} {done due : Nat} (on : s.hub.domainsOn = true)
    (late : done + (if s.hub.flag H.scrubBehind then 1 else 1024) ≤ due) (room : s.hub.get O.scrubForced + 1562 < 2 ^ 32) :
    Answers (.scrubPaceCheck done due) s fun d => OnlyObjects s.hub d [O.scrubForced, O.hubTableUid 0, H.scrubBehind, H.scrubLate 0]
      ∧ d.get H.scrubBehind = 1 ∧ d.get O.scrubForced = s.hub.get O.scrubForced + min (due - done) 1562 := by
  refine scrubPaceCheck_answers on true (decide_eq_true late) ⟨?_, ?_, ?_⟩
  · have noted : OnlyObjects s.hub s.hub.lateCells [O.scrubForced, O.hubTableUid 0, H.scrubBehind, H.scrubLate 0] :=
      (OnlyObjects.refl _ _).when _ fun d => ((OnlyObjects.refl d _).put (H.scrubLate 0) 1).raise 3 255 0
    exact (noted.put H.scrubBehind 1).count O.scrubForced _
  · rw [Hub.when_true, Hub.get_count_other _ _ (by simp)]
    exact Hub.get_put_same _ _ _
  · have before : (s.hub.lateCells.putB H.scrubBehind true).get O.scrubForced = s.hub.get O.scrubForced := by
      rw [Hub.putB, Hub.get_put_other _ _ (by simp), s.hub.lateCells_onlyRegs _ (by simp)]
    have fits : s.hub.get O.scrubForced + min (due - done) 1562 < O.scrubForced.cap := by simp only [Obj.cap]; omega
    rw [Hub.when_true, Hub.get_count_same _ _ _ (by rwa [before]), before]

end Sys2Proof.Machine
end

section
/-! The statement on packets, on the moves of the spill and refill engines and on the scrub (O7). -/
namespace Sys2Proof.Machine

-- One theorem after another: elaborated side by side they take more memory than the check allows.
set_option Elab.async false

/-- Settles O7: admission takes each packet into its queue (R85), the one packet of a segment has its engine's turn (R95), and each scrub command is one
write after another of the scrub's registers. -/
theorem packetAndScrubCommands : Obligations.PacketAndScrubCommands := by
  unfold Obligations.PacketAndScrubCommands
  refine ⟨?timeChannel, ?spill, ?refill, ?correctable, ?uncorrectable, ?clean, ?inPace, ?fallsBehind, ?staysBehind, ?catchesUp, ?late, ?absentCell,
    ?absentDram, ?tunnel, ?passEnd⟩
  case timeChannel =>
    intro s input p outside forwards runs power sound tid type room
    refine packetReceive_answers outside runs power ?_
    have staged : Intake s.hub { s.hub with arrived := s.hub.arrived.erase ⟨input.val, p⟩ } := .of_regs rfl
    refine ⟨(staged.trans (Hub.receive_intake _ _ _)).onlyIndexes, ?_⟩
    rw [Hub.receive_time (by exact forwards) sound tid type]
    obtain ⟨h, held, pkt, queue, -, -, seg, -, -⟩ := Hub.enqueue_held (c := { s.hub with arrived := s.hub.arrived.erase ⟨input.val, p⟩ })
      (by simp [type]) ((Hub.verdictOf_notes s.hub _ _ _ _ _).trans (Hub.verdictOf_iso (q := queueOf 32 3) (by decide) room)) 1 1 input.val false
    exact ⟨h, held, pkt, queue, seg⟩
  case tunnel =>
    intro s input p out outTid outside forwards runs power sound tid plain valid unicast fromInput type unpoliced toOut inOpen outOpen cls unspilt low
      room share
    refine packetReceive_answers outside runs power ?_
    rw [Hub.receive_tunnel (by exact forwards) sound tid]
    obtain ⟨offers, cutoff, queued⟩ := Hub.receiveTunnel_unicast (c := { s.hub with arrived := s.hub.arrived.erase ⟨input.val, p⟩ }) valid unicast
      fromInput type unpoliced toOut inOpen outOpen
    have number : queueOf out (s.hub.get (O.pathCls p.tid.toNat)) % 8 = s.hub.get (O.pathCls p.tid.toNat) := by unfold queueOf; omega
    have taken := Hub.verdictOf_reserve (by rw [number]; omega) unspilt low room (by rwa [number])
    rw [queued]
    have noted : OnlyObjects s.hub { s.hub with arrived := s.hub.arrived.erase ⟨input.val, p⟩, offers := offers } enqueueRegs := .of_regs rfl
    have verdict := (Hub.verdictOf_notes s.hub (s.hub.arrived.erase ⟨input.val, p⟩) offers _ _ _).trans taken
    obtain ⟨h, held, pkt, queue, htid, hout, seg, reserve, shared⟩ := Hub.enqueue_held plain verdict p.tid.toNat outTid input.val cutoff
    exact ⟨noted.trans (Hub.enqueue_onlyObjects plain verdict _ _ _ _), h, held, pkt, queue, htid, hout, seg, reserve, shared⟩
  case spill =>
    intro s q p on alone queue tail enabled spills class4 room
    refine spillMove_answers on alone queue tail
      (Hub.spillReady_of_alone alone tail enabled (by rwa [queue]) (by rwa [queue]) room) ⟨?_, ?_, ?_⟩
    · have moved : OnlyObjects s.hub { s.hub with held := [p.inDram] } [H.lastSpill, H.creditReturned 0 0] := .of_regs rfl
      have freed := moved.when (p.credit != 0) (f := fun c => c.returnCredit p.input p.hdrClass p.credit) fun d => (OnlyObjects.refl d _).when _ fun d =>
        (OnlyObjects.refl d _).put (H.creditReturned p.input p.hdrClass) _
      exact freed.put H.lastSpill q
    · simp [Held.inDram]
    · rw [Hub.get_put_same]
      exact Nat.mod_eq_of_lt (q.isLt.trans (by decide))
  case refill =>
    intro s q p on alone queue dram enabled low room
    refine refillMove_answers on alone queue dram (Hub.refillReady_of_alone alone dram enabled low room) fun v => ?_
    have read : OnlyObjects (s.hub.put H.lastRefill q) { (s.hub.put H.lastRefill q).dramReads (4 * p.cells) with
        held := [p.refilled (min p.cells (s.hub.reserveFree q))] } refillRegs :=
      ((Hub.dramReads_onlyObjects _ _).mono).trans (.of_regs rfl)
    have headed := (read.trans (Hub.leaveSpill_onlyObjects _ q).mono).peak O.usedPeak v
    have turned := (OnlyObjects.refl s.hub (H.lastRefill :: refillRegs)).put H.lastRefill q
    refine ⟨(turned.trans headed.mono).onlyIndexes, p.refilled (min p.cells (s.hub.reserveFree q)), ?_, rfl, rfl, ?_, ?_⟩
    · rw [Hub.peak_held, Hub.leaveSpill_held]
    · exact Nat.add_sub_of_le (Nat.min_le_left _ _)
    · rw [headed.get H.lastRefill, Hub.get_put_same]
      exact Nat.mod_eq_of_lt (q.isLt.trans (by decide))
  case correctable =>
    intro s word owner on inside corrected forced
    refine .of_domains (exec_scrubRead_before inside _ _ s) on ?_
    have rest := (OnlyRegs.refl s.hub [O.scrubCorrected, O.scrubForced]).count (x := O.scrubCorrected) (by simp) 1
    have counted := s.hub.get_count_same O.scrubCorrected 1 (corrected.trans (by decide))
    have before : (s.hub.count O.scrubCorrected).get O.scrubForced = s.hub.get O.scrubForced := Hub.get_count_other _ _ (by simp)
    dsimp only
    cases s.hub.flag H.scrubBehind with
    | false => exact ⟨counted, before, rest⟩
    | true =>
      refine ⟨(Hub.get_count_other _ _ (by simp)).trans counted, ?_, rest.count (by simp) 1⟩
      rw [Hub.when_true, Hub.get_count_same _ _ _ (by rw [before]; exact forced.trans (by decide)), before, if_pos rfl]
  case uncorrectable =>
    intro s word owner on inside count
    refine .of_domains (exec_scrubRead_before inside _ _ s) on ?_
    have rest := ((OnlyRegs.refl s.hub [O.scrubUncorrectable]).count (x := O.scrubUncorrectable) (by simp) 1).raise 2 255 (word / 8)
    have counted : ((s.hub.count O.scrubUncorrectable).raise 2 255 (word / 8)).get O.scrubUncorrectable = s.hub.get O.scrubUncorrectable + 1 :=
      s.hub.get_count_same _ 1 (count.trans (by decide))
    have raised : ((s.hub.count O.scrubUncorrectable).raise 2 255 (word / 8)).lines = s.hub.lines ++ [⟨2, 255, word / 8, s.hub.reactions⟩] := by simp
    have held : ((s.hub.count O.scrubUncorrectable).raise 2 255 (word / 8)).held = s.hub.held := by simp
    cases owner with
    | none => exact ⟨counted, raised, rest, fun _ => held, nofun⟩
    | some k =>
      have same := Hub.markCell_regs ((s.hub.count O.scrubUncorrectable).raise 2 255 (word / 8)) k (word / 8)
      refine ⟨?_, (Hub.markCell_lines _ _ _).trans raised, rest.trans (.of_regs same), nofun, ?_⟩
      · exact (OnlyRegs.of_regs (os := []) same _ (by simp)).trans counted
      · rintro _ p ⟨⟩ stands sram
        exact Hub.markCell_owner (by rwa [held]) sram _
  case clean =>
    rintro s word err owner on inside rfl
    exact .of_domains (exec_scrubRead_before inside _ _ s) on rfl
  case inPace =>
    intro s done due on pace kept
    exact scrubPaceCheck_inPace on (by simpa [kept] using pace)
  case fallsBehind =>
    intro s done due on late room
    refine scrubPaceCheck_behind on ?_ room
    split <;> omega
  case staysBehind =>
    intro s done due on behind late room
    exact scrubPaceCheck_behind on (by simpa [behind] using late) room
  case catchesUp =>
    intro s done due on caughtUp
    obtain ⟨t, next, queue, memory, behind, frame⟩ := scrubPaceCheck_inPace (done := done) (due := due) on (by split <;> omega)
    exact ⟨t, next, queue, memory, frame, behind⟩
  case late =>
    intro s done due on unreported late
    refine scrubPaceCheck_answers on _ rfl ?_
    rw [Hub.lateCells_late unreported late]
    generalize decide (done + (if s.hub.flag H.scrubBehind then 1 else 1024) ≤ due) = behind
    have reported : (((s.hub.put (H.scrubLate 0) 1).raise 3 255 0).putB H.scrubBehind behind).get (H.scrubLate 0) = 1 := by
      rw [Hub.putB, Hub.get_put_other _ _ (by simp), Hub.get_raise, Hub.get_put_same]
      rfl
    have raised : (((s.hub.put (H.scrubLate 0) 1).raise 3 255 0).putB H.scrubBehind behind).lines = s.hub.lines ++ [⟨3, 255, 0, s.hub.reactions⟩] := by
      simp [Hub.putB]
    cases behind with
    | false => exact ⟨by rw [Hub.when_false, Hub.flag, reported]; rfl, raised⟩
    | true =>
      rw [Hub.when_true, Hub.flag, Hub.get_count_other _ _ (by simp), reported, Hub.count_lines]
      exact ⟨rfl, raised⟩
  case absentCell =>
    intro s word err owner collide _ beyond
    exact exec_scrubRead_absent beyond err owner collide s
  case absentDram =>
    intro s word err collide _ beyond
    exact exec_dramScrub_absent beyond err collide s
  case passEnd =>
    intro s owner collide on passes started inTime
    refine .of_domains (exec_scrubRead_last rfl owner collide s) on ?_
    rw [Hub.scrubPassEnd, Hub.lateCells_inTime inTime]
    have fits : (s.hub.put (H.scrubLate 0) 0).get O.scrubPasses + 1 < O.scrubPasses.cap := by
      rw [Hub.get_put_other _ _ (by simp)]
      exact passes.trans_le (by decide)
    refine ⟨?_, ?_, ?_, ?_, ?_, ?_⟩
    · rw [Hub.get_put_other _ _ (by simp), Hub.get_put_other _ _ (by simp), Hub.get_count_same _ _ _ fits, Hub.get_put_other _ _ (by simp)]
    · rw [Hub.get_put_other _ _ (by simp), Hub.get_put_same]
      rfl
    · rw [Hub.get_put_same]
      rfl
    · rw [Hub.get_put_other _ _ (by simp), Hub.get_put_other _ _ (by simp), Hub.get_count_other _ _ (by simp), Hub.get_put_same]
      rfl
    · simp
    · exact ((((OnlyRegs.refl s.hub _).put (by simp) 0).count (by simp) 1).put (by simp) _).put (by simp) _

end Sys2Proof.Machine
end

section
/-! The sizes of the buffer's pools and of the spill region (O8): each write is taken whole or refused with its status (R84, R87, R91, R313). -/
namespace Sys2Proof.Machine

-- One theorem after another: elaborated side by side they take more memory than the check allows.
set_option Elab.async false

/-! ## Pool sizes (R84, R87) -/

/-- Every size in a pool's range fits the pool's object. -/
theorem poolObj_fits (pool : PoolSize) {v : Nat} (h : v ≤ (poolObj pool).2.2) : v % (poolObj pool).1.cap = v := by
  refine Nat.mod_eq_of_lt (h.trans_lt ?_)
  cases pool <;> simp [poolObj, Obj.cap]

/-- No pool's size is the mark of a reported shortage. -/
theorem poolObj_key_ne_isoShort (pool : PoolSize) : (poolObj pool).1.key ≠ H.isoShort.key := by cases pool <;> simp [poolObj]

/-- The check of ISO_NEED marks a shortage. -/
theorem Hub.isoCheck_onlyRegs (c : Hub) : OnlyRegs c c.isoCheck [H.isoShort] :=
  ((OnlyRegs.refl c _).put (by simp) _).when _ fun d => (OnlyRegs.refl d _).raise 4

theorem Hub.isoCheck_out (c : Hub) : c.isoCheck.out = c.out := Hub.when_out _ _ fun _ => rfl

/-- A size in range that the credit limits allow, and that leaves the shared pool its cells, is taken. -/
theorem Hub.writePool_taken {c : Hub} {pool : PoolSize} {v : Nat} (low : (poolObj pool).2.1 ≤ v) (high : v ≤ (poolObj pool).2.2)
    (c0 : pool = .creditC0 → c.topLimit 0 ≤ v) (c4 : pool = .creditC4 → c.topLimit 4 ≤ v) (left : 65536 ≤ (c.put (poolObj pool).1 v).sharedLeft) :
    c.writePool pool v = (.ok, (c.put (poolObj pool).1 v).isoCheck) := by
  unfold Hub.writePool
  refine if_neg ?_
  have shared := Int.not_lt.mpr left
  cases pool
  case creditC0 => simp [Nat.not_lt.mpr low, Nat.not_lt.mpr high, c0 rfl, shared]
  case creditC4 => simp [Nat.not_lt.mpr low, Nat.not_lt.mpr high, c4 rfl, shared]
  all_goals simp [Nat.not_lt.mpr low, Nat.not_lt.mpr high, shared]

theorem Hub.writePool_outOfRange {c : Hub} {pool : PoolSize} {v : Nat} (h : v < (poolObj pool).2.1 ∨ (poolObj pool).2.2 < v) :
    c.writePool pool v = (.invalidValue, c) :=
  if_pos (h.imp_right .inl)

theorem Hub.writePool_sharedShort {c : Hub} {pool : PoolSize} {v : Nat} (h : (c.put (poolObj pool).1 v).sharedLeft < 65536) :
    c.writePool pool v = (.invalidValue, c) :=
  if_pos (.inr (.inr (.inr h)))

/-- A credit pool holds no fewer cells than the limits that its class has in force or written (R84). -/
theorem Hub.writePool_unbacked {c : Hub} {pool : PoolSize} {v : Nat}
    (h : pool = .creditC0 ∧ v < c.topLimit 0 ∨ pool = .creditC4 ∧ v < c.topLimit 4) : c.writePool pool v = (.invalidValue, c) := by
  refine if_pos (.inr (.inr (.inl ?_)))
  rcases h with ⟨rfl, short⟩ | ⟨rfl, short⟩ <;> exact decide_eq_false (Nat.not_le.mpr short)

/-! ## The spill region (R91, R313) -/

theorem Hub.writeSpillSize_barred {c : Hub} {v : Nat} (h : 16 < v ∨ c.usedAbove (userTop v) = true) : c.writeSpillSize v = (.invalidValue, c) := if_pos h

theorem Hub.writeSpillSize_spilling {c : Hub} {v : Nat} {p : Held} (fits : v ≤ 16) (clear : c.usedAbove (userTop v) = false) (held : p ∈ c.held)
    (spills : c.spilling p.q = true) : c.writeSpillSize v = (.busy, c) := by
  have some : c.held.any (fun p => c.spilling p.q) = true := List.any_eq_true.mpr ⟨p, held, spills⟩
  rw [Hub.writeSpillSize, if_neg (by simp [fits, clear]), if_pos some]

theorem userTop_fits (v : Nat) : userTop v % O.userEnd.cap = userTop v :=
  Nat.mod_eq_of_lt (by simp only [userTop, Obj.cap]; omega)

/-- SPILL_STATE after a resize: a write of 0 disables the tier, unless it is isolated. -/
def Hub.resizedState (c : Hub) (v : Nat) : Nat :=
  if c.get O.spillState = 2 then 2 else if v = 0 then 3 else if c.get O.spillState = 1 ∨ 3 ≤ c.get O.sagStage then 1 else 0

theorem Hub.writeSpillSize_taken {c : Hub} {v : Nat} (fits : v ≤ 16) (clear : c.usedAbove (userTop v) = false) (empty : c.held = []) :
    c.writeSpillSize v = (.ok, ((c.put O.spillSize v).put O.userEnd (userTop v)).put O.spillState (c.resizedState v)) := by
  rw [Hub.writeSpillSize, if_neg (by simp [fits, clear]), if_neg (by simp [empty])]
  simp only [Hub.resizedState, Hub.get_put_other (o := O.userEnd) (o' := O.sagStage) _ _ (by simp),
    Hub.get_put_other (o := O.spillSize) (o' := O.sagStage) _ _ (by simp)]

/-! ## Answers of a write by a level that has the right -/

section Writes

variable {s : State} {lvl : Level} (on : s.hub.domainsOn = true) (right : Engineers lvl) (image : s.hub.inRom = false) (free : s.hub.handingOver = false)
include on right image free

/-- A write of an object that its rule refuses answers its status and changes nothing. -/
theorem request_refused {w : HeldWrite} {op : Hub → Status × Hub} {st : Status} (h : op s.hub = (st, s.hub)) :
    onWrite w s (fun c => c.request lvl engineerWrites op) = .next { s with hub := s.hub.emit (.status st) } := by
  rw [onWrite_on w _ on free, Hub.request, image, if_neg (by simp), Hub.requestRom, if_pos right.writes, h]

theorem poolSizeWrite_answers {pool : PoolSize} {v : BitVec 32} {d : Hub} {P : Hub → Prop} (result : s.hub.writePool pool v.toNat = (.ok, d))
    (h : P (d.emit (.status .ok))) : Answers (.poolSizeWrite lvl pool v) s P :=
  .of_write (w := .poolSizeWrite lvl pool v) (by rfl) on free image right.writes (by simpa only [result] using h)

theorem poolSizeWrite_refused {pool : PoolSize} {v : BitVec 32} (h : s.hub.writePool pool v.toNat = (.invalidValue, s.hub)) :
    exec (.poolSizeWrite lvl pool v) s = .next { s with hub := s.hub.emit (.status .invalidValue) } :=
  request_refused on right image free (w := .poolSizeWrite lvl pool v) h

theorem spillSizeWrite_answers {v : BitVec 8} {d : Hub} {P : Hub → Prop} (result : s.hub.writeSpillSize v.toNat = (.ok, d))
    (h : P (d.emit (.status .ok))) : Answers (.spillSizeWrite lvl v) s P :=
  .of_write (w := .spillSizeWrite lvl v) (by rfl) on free image right.writes (by simpa only [result] using h)

theorem spillSizeWrite_refused {v : BitVec 8} {st : Status} (h : s.hub.writeSpillSize v.toNat = (st, s.hub)) :
    exec (.spillSizeWrite lvl v) s = .next { s with hub := s.hub.emit (.status st) } :=
  request_refused on right image free (w := .spillSizeWrite lvl v) h

end Writes

/-! ## The statement -/

/-- Settles O8: a size is refused by one test of its rule, or its object holds it. -/
theorem poolAndSpillSizeWrites : Obligations.PoolAndSpillSizeWrites := by
  unfold Obligations.PoolAndSpillSizeWrites
  refine ⟨?poolTaken, ?poolRange, ?spillTaken, ?sharedShort, ?unbacked, ?spilling, ?barred⟩
  case poolTaken =>
    intro s lvl pool v on right low high left c0 c4 image free
    refine poolSizeWrite_answers on right image free (Hub.writePool_taken low high c0 c4 left) ⟨?_, ?_, ?_⟩
    · rw [Hub.get_emit, Hub.isoCheck_onlyRegs _ _ (by simpa using poolObj_key_ne_isoShort pool), Hub.get_put_same, poolObj_fits pool high]
    · exact .of_out (Hub.isoCheck_out _) _
    · exact (((OnlyRegs.refl s.hub _).put (by simp) _).trans ((Hub.isoCheck_onlyRegs _).mono (by simp))).emit _
  case poolRange =>
    intro s lvl pool v on right beyond image free
    exact poolSizeWrite_refused on right image free (Hub.writePool_outOfRange beyond)
  case spillTaken =>
    intro s lvl v on right fits clear empty image free
    refine spillSizeWrite_answers on right image free (Hub.writeSpillSize_taken fits clear empty) ⟨?_, ?_, ?_, ?_, ?_⟩
    · rw [Hub.get_emit, Hub.get_put_other _ _ (by simp), Hub.get_put_other _ _ (by simp), Hub.get_put_same]
      exact Nat.mod_eq_of_lt v.isLt
    · rw [Hub.get_emit, Hub.get_put_other _ _ (by simp), Hub.get_put_same, userTop_fits]
    · intro zero apart
      rw [Hub.get_emit, Hub.get_put_same, Hub.resizedState, if_neg apart, if_pos (by simp [zero])]
      rfl
    · exact .of_out (by rw [Hub.put_out, Hub.put_out, Hub.put_out]) _
    · exact ((((OnlyRegs.refl s.hub _).put (by simp) _).put (by simp) _).put (by simp) _).emit _
  case sharedShort =>
    intro s lvl pool v on right short image free
    exact poolSizeWrite_refused on right image free (Hub.writePool_sharedShort short)
  case unbacked =>
    intro s lvl pool v on right low image free
    exact poolSizeWrite_refused on right image free (Hub.writePool_unbacked low)
  case spilling =>
    intro s lvl v p on right fits clear held spills image free
    exact spillSizeWrite_refused on right image free (Hub.writeSpillSize_spilling fits clear held spills)
  case barred =>
    intro s lvl v on right bar image free
    exact spillSizeWrite_refused on right image free (Hub.writeSpillSize_barred bar)

end Sys2Proof.Machine
end

section
/-! Every command answers (O59): each arm of `exec` is one of the forms in which a command acts, on the hub or on the memories too, and none of them
reaches the queue; the scrubs alone look first at whether the word they name exists (R98, R312). -/
namespace Sys2Proof.Machine

-- One theorem after another: elaborated side by side they take more memory than the check allows.
set_option Elab.async false

/-- An outcome that is a next state, with the queue as it was. -/
def KeepsQueue (s : State) (o : Host.Outcome State Fault Refusal) : Prop := ∃ t, o = .next t ∧ t.pending = s.pending

/-- A change of the hub and of the memories leaves the queue. -/
theorem keepsQueue_of_change (s : State) (c : Hub) (m : Mems) : KeepsQueue s (.next { s with hub := c, mem := m }) := ⟨_, rfl, rfl⟩

theorem scrubRead_keepsQueue {word : Nat} (h : word < 1572864) (err : WordError) (owner : Option Nat) (collide : Bool) (s : State) :
    KeepsQueue s (exec (.scrubRead word err owner collide) s) := by
  have action : exec (.scrubRead word err owner collide) s = onDomains s _ := if_neg (Nat.not_le.mpr h)
  exact action ▸ keepsQueue_of_change s _ _

theorem dramScrub_keepsQueue {word : Nat} (h : word < 134217728) (err : WordError) (collide : Bool) (s : State) :
    KeepsQueue s (exec (.dramScrub word err collide) s) := by
  have action : exec (.dramScrub word err collide) s = onDomainsAll s _ := if_neg (Nat.not_le.mpr h)
  exact action ▸ keepsQueue_of_change s _ _

theorem exec_keepsQueue (i : Instr) (s : State) (h : namesAbsentWord i = false) : KeepsQueue s (exec i s) := by
  cases i
  case scrubRead word err owner collide => exact scrubRead_keepsQueue (by simpa [namesAbsentWord] using h) err owner collide s
  case dramScrub word err collide => exact dramScrub_keepsQueue (by simpa [namesAbsentWord] using h) err collide s
  -- Every other arm is by definition a change of the hub, or of the hub and the memories.
  all_goals exact keepsQueue_of_change s _ _

/-- A scrub that names a word beyond its memory stops. -/
theorem exec_absentWord (i : Instr) (s : State) (h : namesAbsentWord i = true) : exec i s = .fault .noSuchWord := by
  cases i
  case scrubRead word err owner collide => exact exec_scrubRead_absent (by simpa [namesAbsentWord] using h) err owner collide s
  case dramScrub word err collide => exact exec_dramScrub_absent (by simpa [namesAbsentWord] using h) err collide s
  all_goals exact absurd h Bool.false_ne_true

/-- Settles O59: every arm of `exec` but the two scrubs' changes the hub and the memories alone, and theirs do where the word exists. -/
theorem everyCommandAnswers : Obligations.EveryCommandAnswers := ⟨exec_keepsQueue, exec_absentWord⟩

end Sys2Proof.Machine
end

section
/-! Frames by dictionary index: `OnlyIndexes` kept by each write whose register the bound's indexes hold, or which no object shows. -/
namespace Sys2Proof.Machine

-- One theorem after another: elaborated side by side they take more memory than the check allows.
set_option Elab.async false

variable {c d e : Hub} {is : List Nat}

/-- A bound names the index of a register, or the register is none of the dictionary's. -/
def namesIndex (is : List Nat) (x : Obj) : Bool :=
  Nat.ble 0x1000000 x.key.obj || is.any fun i => Nat.ble (256 * i) x.key.obj && Nat.ble (x.key.obj + 1) (256 * i + 256)

theorem namesIndex_iff {x : Obj} : namesIndex is x = true ↔ 0x1000000 ≤ x.key.obj ∨ x.key.obj / 256 ∈ is := by
  simp only [namesIndex, Bool.or_eq_true, Nat.ble_eq, List.any_eq_true, Bool.and_eq_true]
  refine or_congr_right ⟨?_, fun named => ⟨_, named, by omega, by omega⟩⟩
  rintro ⟨i, named, low, high⟩
  rwa [show x.key.obj / 256 = i by omega]

theorem OnlyIndexes.of_regs (h : d.regs = c.regs) : OnlyIndexes c d is := fun o _ _ => by rw [Hub.get, h]; rfl

theorem OnlyIndexes.refl (c : Hub) (is : List Nat) : OnlyIndexes c c is := .of_regs rfl

/-- The last operation first: what came before it is read off the hub it is made on. -/
theorem OnlyIndexes.after (g : OnlyIndexes d e is) (h : OnlyIndexes c d is) : OnlyIndexes c e is := h.trans g

/-- Fields beside the registers are free. -/
theorem OnlyIndexes.same (h : OnlyIndexes c d is) (regs : e.regs = d.regs := by rfl) : OnlyIndexes c e is := h.trans (.of_regs regs)

theorem OnlyIndexes.mono {js : List Nat} (h : OnlyIndexes c d js) (sub : js ⊆ is := by decide) : OnlyIndexes c d is :=
  fun o low out => h o low fun e => out (sub e)

theorem OnlyRegs.onlyIndexes {xs : List Obj} (h : OnlyRegs c d xs) (sub : ∀ x ∈ xs, namesIndex is x = true) : OnlyIndexes c d is :=
  fun o low out => h o fun x hx same => (namesIndex_iff.mp (sub x hx)).elim (same ▸ Nat.not_le.mpr low) (same ▸ out)

/-- An operation on one register that the bound allows. -/
theorem OnlyIndexes.of_reg {x : Obj} (hx : namesIndex is x = true) (h : ∀ o : Obj, o.key ≠ x.key → d.get o = c.get o) : OnlyIndexes c d is :=
  OnlyRegs.onlyIndexes (xs := [x]) (fun o ho => h o (ho x (by simp))) (by simpa using hx)

theorem OnlyIndexes.put (h : OnlyIndexes c d is) (x : Obj) (v : Nat) (hx : namesIndex is x = true := by rfl) : OnlyIndexes c (d.put x v) is :=
  h.trans (.of_reg hx fun _ => Hub.get_put_other d v)

theorem OnlyIndexes.putB (h : OnlyIndexes c d is) (x : Obj) (b : Bool) (hx : namesIndex is x = true := by rfl) : OnlyIndexes c (d.putB x b) is :=
  h.put x _ hx

theorem OnlyIndexes.count (h : OnlyIndexes c d is) (x : Obj) (n : Nat) (hx : namesIndex is x = true := by rfl) : OnlyIndexes c (d.count x n) is :=
  h.trans (.of_reg hx fun _ => Hub.get_count_other d n)

theorem OnlyIndexes.showI (h : OnlyIndexes c d is) (x : Obj) (v : Int) (hx : namesIndex is x = true := by rfl) : OnlyIndexes c (d.showI x v) is :=
  h.trans (.of_reg hx fun _ => Hub.get_showI_other d v)

theorem OnlyIndexes.emit (h : OnlyIndexes c d is) (x : Out) : OnlyIndexes c (d.emit x) is := h.same

theorem OnlyIndexes.raise (h : OnlyIndexes c d is) (source unit data : Nat) : OnlyIndexes c (d.raise source unit data) is := h.same

theorem OnlyIndexes.when (h : OnlyIndexes c d is) (b : Bool) {f : Hub → Hub} (hf : ∀ d, OnlyIndexes d (f d) is) : OnlyIndexes c (d.when b f) is :=
  Hub.when_spec (P := (OnlyIndexes c · is)) d b f h (h.trans (hf d))

theorem OnlyIndexes.ite {p : Prop} [Decidable p] (h : OnlyIndexes c d is) (g : OnlyIndexes c e is) : OnlyIndexes c (if p then d else e) is := by
  split
  · exact h
  · exact g

theorem OnlyIndexes.each {α : Type} (h : OnlyIndexes c d is) (xs : List α) {f : Hub → α → Hub} (hf : ∀ d x, OnlyIndexes d (f d x) is) :
    OnlyIndexes c (d.each xs f) is :=
  Hub.each_spec (P := (OnlyIndexes c · is)) f (fun d x g => g.trans (hf d x)) xs d h

/-- A register of an index outside the bound stands as it did. -/
theorem OnlyIndexes.get (h : OnlyIndexes c d is) (x : Obj) (hx : namesIndex is x = false := by rfl) : d.get x = c.get x := by
  have out : ¬(0x1000000 ≤ x.key.obj ∨ x.key.obj / 256 ∈ is) := fun named => by simp [namesIndex_iff.mpr named] at hx
  exact h x (Nat.not_le.mp (not_or.mp out).1) (not_or.mp out).2

end Sys2Proof.Machine
end

section
/-! What a stroke boundary can change (R52, R73, R108): the indexes of the dictionary that its operations write, and the links, the path table and the
staged records among them. -/
namespace Sys2Proof.Machine

-- One theorem after another: elaborated side by side they take more memory than the check allows.
set_option Elab.async false

/-- The indexes that a boundary changes beside the stroke number's. -/
def strokeIndexes : List Nat :=
  [0x2000, 0x2006, 0x2400, 0x2802, 0x2806, 0x4000, 0x4001, 0x4003, 0x4004, 0x4005, 0x4010, 0x4040, 0x4050, 0x4051, 0x4100, 0x4103, 0x4105, 0x4106,
    0x4109, 0x4200, 0x4201, 0x4202, 0x4220, 0x4230, 0x4241, 0x4242, 0x4250, 0x4261, 0x5010, 0x5040, 0x5043, 0x5044, 0x5045, 0x6008, 0x7010, 0xA000,
    0xA001, 0xA005, 0xA006]

/-- Of the dictionary nothing but those indexes changes. -/
abbrev InStroke (c d : Hub) : Prop := OnlyIndexes c d strokeIndexes

/-! ## The switch core -/

theorem Hub.receive_inStroke (c : Hub) (input : Nat) (p : Packet) : InStroke c (c.receive input p) := (c.receive_intake input p).onlyIndexes

theorem Hub.pumpMgmt_inStroke (n : Nat) (c : Hub) : InStroke c (Hub.pumpMgmt n c) := by
  induction n generalizing c with
  | zero => exact .refl c _
  | succ n ih =>
    unfold Hub.pumpMgmt
    split
    · exact .refl c _
    · split
      · exact .after (ih _) (.after (Hub.receive_inStroke _ 32 _) (.of_regs rfl))
      · exact .refl c _

theorem Hub.pump_inStroke (c : Hub) : InStroke c c.pump := Hub.pumpMgmt_inStroke _ c

theorem Hub.tlpPacket_inStroke (c : Hub) (tid cat : Nat) (bytes : Bytes) : InStroke c (c.tlpPacket tid cat bytes) := by
  unfold Hub.tlpPacket
  exact .after (Hub.receive_inStroke _ 24 _) (.when (.put (.when (.refl c _) _ fun d => .put (.refl d _) _ _) _ _) _ fun d => .put (.refl d _) _ _)

theorem Hub.feedWaiting_inStroke (n : Nat) (c : Hub) : InStroke c (Hub.feedWaiting n c) := by
  induction n generalizing c with
  | zero => exact .refl c _
  | succ n ih =>
    unfold Hub.feedWaiting
    split
    · exact .refl c _
    · exact .after (ih _) (.after (Hub.tlpPacket_inStroke _ _ 1 _) (.of_regs rfl))

/-- The objects of a return of PCIe credit. -/
theorem Hub.returnPcie_onlyObjects (c : Hub) : OnlyObjects c c.returnPcie [H.pcieGiven 0] := by
  refine (OnlyObjects.refl c _).each [0, 1, 2] fun d k => ?_
  dsimp only
  split
  · exact .refl d _
  · exact ((OnlyObjects.refl d _).put (H.pcieGiven k) _).emit _

theorem Hub.returnPcie_inStroke (c : Hub) : InStroke c c.returnPcie := c.returnPcie_onlyObjects.onlyIndexes

theorem Hub.settle_inStroke (c : Hub) : InStroke c c.settle := by
  unfold Hub.settle Hub.pcieSweep
  exact .after (Hub.returnPcie_inStroke _) (.after (Hub.feedWaiting_inStroke _ _) c.pump_inStroke)

/-! ## Links -/

theorem Hub.adapted_inStroke (c : Hub) (p : Nat) : InStroke c (c.adapted p) := by
  unfold Hub.adapted
  exact .each (.refl c _) _ fun d l => .when (.refl d _) _ fun d => .count (.refl d _) _ _

theorem Hub.lanesTo_inStroke (c : Hub) (p st : Nat) : InStroke c (c.lanesTo p st) := by
  unfold Hub.lanesTo Hub.clearRuns
  exact .put (.put (.put (.each (.put (.refl c _) _ _) _ fun d l => .put (.refl d _) _ _) _ _) _ _) _ _

theorem Hub.dropNextKeys_inStroke (c : Hub) (p : Nat) : InStroke c (c.dropNextKeys p) := by
  unfold Hub.dropNextKeys
  exact .when (.put (.put (.refl c _) _ _) _ _) _ fun d => .put (.refl d _) _ _

theorem Hub.openWindow_inStroke (c : Hub) (source kind unit : Nat) (byUmpire : Bool) (fault : Nat) :
    InStroke c (c.openWindow source kind unit byUmpire fault) := .of_regs rfl

theorem Hub.retrainFor_inStroke (c : Hub) (p cause source fault : Nat) : InStroke c (c.retrainFor p cause source fault) := by
  unfold Hub.retrainFor
  have rest (d : Hub) (x : List RxPart) : InStroke d { d with rxPart := x } := .of_regs rfl
  refine .after (Hub.openWindow_inStroke _ _ _ _ _ _) (.after (rest _ _) (.emit (.after (Hub.lanesTo_inStroke _ p 2)
    (.after (Hub.dropNextKeys_inStroke _ p) ?_)) _))
  refine .put (.put (.put (.put (.put (.putB ?_ _ _) _ _) _ _) _ _) _ _) _ _
  exact .put (.put (.put (.putB (.put (.count (.put (c.adapted_inStroke p) _ _) _ _) _ _) _ _) _ _) _ _) _ _

theorem Hub.gearRetrain_inStroke (c : Hub) (p : Nat) : InStroke c (c.gearRetrain p) := by
  unfold Hub.gearRetrain
  split
  · exact .after (Hub.retrainFor_inStroke _ p 3 255 0) (.putB (.refl c _) _ _)
  · exact .put (.put (.refl c _) _ _) _ _
  · exact .put (.put (.refl c _) _ _) _ _
  · exact .refl c _

end Sys2Proof.Machine
end

section
/-! What a stroke boundary can change: staged records applied (R66–R68), and the rigger bridge's requests to a hub that leaves (R269–R282). -/
namespace Sys2Proof.Machine

-- One theorem after another: elaborated side by side they take more memory than the check allows.
set_option Elab.async false

/-! ## The path table and the staging table (R60–R69) -/

theorem Hub.putEntry_inStroke (c : Hub) (t : Nat) (e : PathEntry) (drain : Bool) : InStroke c (c.putEntry t e drain) := by
  unfold Hub.putEntry
  exact .put (.put (.put (.put (.put (.put (.put (.put (.put (.refl c _) _ _) _ _) _ _) _ _) _ _) _ _) _ _) _ _) _ _

theorem Hub.putStage_inStroke (c : Hub) (k : Nat) (r : StageRecord) (vid : Option VidMapping) (fromCox : Bool) :
    InStroke c (c.putStage k r vid fromCox) :=
  ((c.putStage_onlyRegs k r vid fromCox).onlyObjects (os := stagingRegs) (by simp [stageRegs, stagingRegs, namesObject])).onlyIndexes

theorem Hub.freeStage_inStroke (c : Hub) (k : Nat) : InStroke c (c.freeStage k) := c.putStage_inStroke k _ none false

theorem Hub.setPolicer_inStroke (c : Hub) (k : Nat) (v : Int) : InStroke c (c.setPolicer k v) := .showI (.put (.refl c _) _ _) _ v

theorem Hub.freshBuckets_inStroke (c : Hub) (t : Nat) (e : PathEntry) : InStroke c (c.freshBuckets t e) := by
  unfold Hub.freshBuckets
  exact .when (.when (.refl c _) _ fun d => .put (.each (.refl d _) _ fun d o => .put (.refl d _) _ _) _ _) _ fun d => d.setPolicer_inStroke _ 0

theorem Hub.teardown_inStroke (c : Hub) (t : Nat) : InStroke c (c.teardown t) := (c.teardown_onlyObjects t).onlyIndexes

theorem Hub.applyEntry_inStroke (c : Hub) (t : Nat) (e : PathEntry) (boundary : Bool) : InStroke c (c.applyEntry t e boundary) := by
  have written (b : Bool) : InStroke c (((c.freshBuckets t e).putEntry t e false).when b fun c => (c.put (H.npInFlight t) 0).put (H.npSent t) 0) :=
    .when (.after (Hub.putEntry_inStroke _ t e false) (c.freshBuckets_inStroke t e)) b fun d => .put (.put (.refl d _) _ _) _ _
  unfold Hub.applyEntry
  split
  · split
    · exact c.teardown_inStroke t
    · split
      · exact .refl c _
      · exact c.putEntry_inStroke t e false
  · dsimp only
    split
    · exact (written _).same
    · exact written _

theorem Hub.stageFailed_inStroke (c : Hub) (t st at0 : Nat) : InStroke c (c.stageFailed t st at0) := by
  unfold Hub.stageFailed
  split
  · exact .of_regs rfl
  · exact .emit (.refl c _) _

theorem Hub.dropStage_inStroke (c : Hub) (k st : Nat) : InStroke c (c.dropStage k st) := by
  unfold Hub.dropStage
  exact .when (.after (Hub.freeStage_inStroke _ k) (.raise (.put (.refl c _) _ _) _ _ _)) _ fun d => d.stageFailed_inStroke _ st _

theorem Hub.applyStage_inStroke (c : Hub) (k : Nat) : InStroke c (c.applyStage k) := by
  -- A record of the Cox first makes its shaper and policer grant-linked.
  have trial (b : Bool) (e : PathEntry) : InStroke c (c.when b fun c =>
      (c.when (e.shaper.toNat != 0xFFFF) fun c => c.put (O.shaperMode e.shaper.toNat) 0).when (e.policer.toNat != 0xFFFF) fun c =>
        c.put (O.policerMode e.policer.toNat) 0) :=
    .when (.refl c _) b fun d => .when (.when (.refl d _) _ fun d => .put (.refl d _) _ _) _ fun d => .put (.refl d _) _ _
  unfold Hub.applyStage
  dsimp only
  split
  · exact .put (.refl c _) _ _
  split
  · exact c.dropStage_inStroke k _
  · refine .after (Hub.freeStage_inStroke _ k) (.when (.after (Hub.applyEntry_inStroke _ _ _ true) (trial _ _)) _ fun d => ?_)
    split
    · exact .put (.refl d _) _ _
    · exact .put (.refl d _) _ _

theorem Hub.applyStaged_inStroke (c : Hub) : InStroke c c.applyStaged := .each (.refl c _) _ fun d k => d.applyStage_inStroke k

theorem Hub.stageFromMessage_inStroke (c : Hub) (r : StageRecord) (vid : Option VidMapping) : InStroke c (c.stageFromMessage r vid) := by
  unfold Hub.stageFromMessage
  dsimp only
  split
  · exact .after (Hub.stageFailed_inStroke _ _ _ _) (.put (.refl c _) _ _)
  · exact c.putStage_inStroke _ _ vid true

/-! ## The bridge (R269–R282) -/

theorem Hub.claimOver_inStroke (c : Hub) (hub : Nat) : InStroke c (c.claimOver hub) := by
  unfold Hub.claimOver
  exact .when (.put (.refl c _) _ _) _ fun d => .put (.refl d _) _ _

theorem Hub.dropLine_inStroke (c : Hub) (x : PrefetchLine) : InStroke c (c.dropLine x) := by
  unfold Hub.dropLine
  exact .when (.count (.of_regs rfl) _ _) _ fun d => .raise (.put (.count (.refl d _) _ _) _ _) _ _ _

theorem Hub.dropWritten_inStroke (c : Hub) (hub window a n : Nat) : InStroke c (c.dropWritten hub window a n) :=
  .each (.refl c _) _ fun d x => d.dropLine_inStroke x

theorem Hub.msix_inStroke (c : Hub) (v : Nat) : InStroke c (c.msix v) := by
  unfold Hub.msix
  split
  · exact .refl c _
  split
  · exact .refl c _
  split
  · exact .emit (.refl c _) _
  · exact .put (.refl c _) _ _

theorem Hub.logRig_inStroke (c : Hub) (source kind hub window seq count addr : Nat) : InStroke c (c.logRig source kind hub window seq count addr) := by
  unfold Hub.logRig
  refine .raise (.when (.put (.put (.put ?_ _ _) _ _) _ _) _ fun d => d.msix_inStroke 1) _ _ _
  exact .put (.put (.put (.put (.put (.put (.refl c _) _ _) _ _) _ _) _ _) _ _) _ _

theorem Hub.aerRecord_inStroke (c : Hub) (f k : Nat) (answered : Bool) (tlp : Bytes) : InStroke c (c.aerRecord f k answered tlp) := by
  unfold Hub.aerRecord
  refine .when (.put (.when (.when (.when (.put (.refl c _) _ _) _ fun d => .raise (.refl d _) _ _ _) _ fun d => ?_) _ fun d => .put (.refl d _) _ _)
    _ _) _ fun d => .emit (.refl d _) _
  refine .each (.put (.refl d _) _ _) _ fun d i => ?_
  split
  · exact .put (.of_regs rfl) _ _
  · exact .put (.refl d _) _ _

theorem Hub.abortRead_inStroke (c : Hub) (x : ApertureRead) : InStroke c (c.abortRead x) :=
  .emit (.after (Hub.aerRecord_inStroke _ 1 aerAbort true []) (.of_regs rfl)) _

theorem Hub.finishRead_inStroke (c : Hub) (x : ApertureRead) : InStroke c (c.finishRead x) := by
  unfold Hub.finishRead Hub.completeRead
  split
  · exact .each (.of_regs rfl) _ fun d piece => .emit (.refl d _) _
  · exact .refl c _

theorem Hub.endRig_inStroke (c : Hub) (r : RigRequest) (status : Nat) (data : Bytes) : InStroke c (c.endRig r status data) := by
  have ended (b : Bool) : InStroke c (({ c with rigOut := c.rigOut.erase r } : Hub).when b fun c => c.claimOver r.hub) :=
    .when (.of_regs rfl) b fun d => d.claimOver_inStroke r.hub
  unfold Hub.endRig
  dsimp only
  split
  · exact .when (.put (.put (ended _) _ _) _ _) _ fun d => .put (.refl d _) _ _
  · exact .when (ended _) _ fun d => d.logRig_inStroke _ _ _ _ _ _ _
  · split
    · exact ended _
    · split
      · exact .after (Hub.abortRead_inStroke _ _) (ended _)
      · exact .after (Hub.finishRead_inStroke _ _) (ended _).same
  · refine .when (ended _) _ fun d => ?_
    split
    · exact .putB (.refl d _) _ _
    split
    · exact .put (.refl d _) _ _
    · exact .put (.refl d _) _ _
  · exact ended _

theorem Hub.sendRig_inStroke (c : Hub) (op dst tag : Nat) (retx : Bool) (window status len offset inst seq : Nat) (data : Bytes) :
    InStroke c (c.sendRig op dst tag retx window status len offset inst seq data) := by
  have queued (d : Hub) (x : List Packet) : InStroke d { d with mgmtWait := x } := .of_regs rfl
  exact .after (Hub.pump_inStroke _) (.after (queued _ _) (.put (.refl c _) (H.txSeq 2) _))

theorem Hub.postWrite_inStroke (c : Hub) (hub window offset : Nat) (bar : Option Nat) (data : Bytes) :
    InStroke c (c.postWrite hub window offset bar data) := by
  unfold Hub.postWrite Hub.putPosted
  exact .after (Hub.sendRig_inStroke _ _ _ _ _ _ _ _ _ _ _ _) (.after (Hub.dropWritten_inStroke _ _ _ _ _) (.of_regs rfl))

theorem Hub.sendTagged_inStroke (c : Hub) (r : RigRequest) : InStroke c (c.sendTagged r) := by
  have waits (d : Hub) (x : List RigRequest) : InStroke d { d with rigOut := x } := .of_regs rfl
  unfold Hub.sendTagged Hub.sendRigRequest
  exact .after (Hub.sendRig_inStroke _ _ _ _ _ _ _ _ _ _ _ _)
    (.after (waits _ _) (.when (.put (.refl c _) _ _) _ fun d => d.dropWritten_inStroke _ _ _ _))

theorem Hub.rigBusy_inStroke (c : Hub) (r : RigRequest) (status : Nat) : InStroke c (c.rigBusy r status) := by
  have tried (d : Hub) (out back : List RigRequest) : InStroke d { d with rigOut := out, rigBack := back } := .of_regs rfl
  unfold Hub.rigBusy
  split
  · exact .after (tried _ _ _) (.when (.refl c _) _ fun d => .count (.put (.refl d _) _ _) _ _)
  split
  · exact tried _ _ _
  · exact c.endRig_inStroke r 5 []

theorem Hub.slotIssued_inStroke (c : Hub) (r : RigRequest) : InStroke c (c.slotIssued r) := by
  unfold Hub.slotIssued
  split
  · exact .put (.refl c _) _ _
  · exact .refl c _

theorem Hub.issue_inStroke (c : Hub) (r : RigRequest) : InStroke c (c.issue r) := by
  have issued : InStroke c (({ c with rigWait := c.rigWait.erase r } : Hub).slotIssued r) := .after (Hub.slotIssued_inStroke _ r) (.of_regs rfl)
  unfold Hub.issue
  dsimp only
  split
  · exact .after (Hub.endRig_inStroke _ r 0 []) (.after (Hub.postWrite_inStroke _ _ _ _ _ _) issued)
  split
  · exact .after (Hub.endRig_inStroke _ r 0x0A []) issued
  split
  · split
    · exact .after (Hub.sendTagged_inStroke _ r) (.put (.put issued _ _) _ _)
    · exact .after (Hub.rigBusy_inStroke _ r 5) issued
  split
  · exact .after (Hub.endRig_inStroke _ r 0 _) issued.same
  · exact .after (Hub.sendTagged_inStroke _ _) issued

theorem Hub.issueAll_inStroke (n : Nat) (c : Hub) : InStroke c (Hub.issueAll n c) := by
  induction n generalizing c with
  | zero => exact .refl c _
  | succ n ih =>
    unfold Hub.issueAll
    split
    · exact .refl c _
    split
    · exact .refl c _
    · exact .after (ih _) (c.issue_inStroke _)

theorem Hub.rigLost_inStroke (c : Hub) (hub : Nat) : InStroke c (c.rigLost hub) := by
  unfold Hub.rigLost
  exact .when (.when (.each (.each (.of_regs rfl) _ fun d r => d.endRig_inStroke r 0x0A []) _ fun d x => d.dropLine_inStroke x) _
    fun d => d.claimOver_inStroke hub) _ fun d => .put (.refl d _) _ _

theorem Hub.rigLeft_inStroke (c : Hub) (hub : Nat) : InStroke c (c.rigLeft hub) := by
  unfold Hub.rigLeft Hub.pumpRig
  exact .after (Hub.returnPcie_inStroke _) (.after (Hub.issueAll_inStroke _ _) (c.rigLost_inStroke hub))

end Sys2Proof.Machine
end

section
/-! What a stroke boundary can change: the Cox's routes and reports (R20–R22, R72–R74, R120, R454–R456), and the messages of a port whose child has
woken (R418). -/
namespace Sys2Proof.Machine

-- One theorem after another: elaborated side by side they take more memory than the check allows.
set_option Elab.async false

/-! ## Routes (R72–R74, R454–R456) -/

theorem Hub.setWork_inStroke (c : Hub) (w : RouteWork) : InStroke c (c.setWork w) := .of_regs rfl

theorem Hub.stageRoute_inStroke (c : Hub) (w : RouteWork) (at0 : Nat) (valid : Bool) (skip : List Nat) : InStroke c (c.stageRoute w at0 valid skip) := by
  unfold Hub.stageRoute
  refine .each (.refl c _) _ fun d i => ?_
  dsimp only
  split
  · exact d.stageFromMessage_inStroke _ _
  · exact .emit (.refl d _) _

theorem Hub.stageTeardown_inStroke (c : Hub) (r : Nat) (skip : List Nat) : InStroke c (c.stageTeardown r skip) := by
  unfold Hub.stageTeardown
  split
  · exact .refl c _
  · exact .after (Hub.setWork_inStroke _ _) (c.stageRoute_inStroke _ _ false skip)

theorem Hub.suspendRoute_inStroke (c : Hub) (r : Nat) (lost : List Nat) : InStroke c (c.suspendRoute r lost) := by
  have marked (b : Bool) : InStroke c (c.when b fun c => (c.put (O.routeState r) 5).put (O.routeReason r) 9) :=
    .when (.refl c _) b fun d => .put (.put (.refl d _) _ _) _ _
  unfold Hub.suspendRoute
  split
  · exact .refl c _
  · dsimp only
    split
    · exact .after (Hub.stageTeardown_inStroke _ r lost) (marked _)
    · exact .after (Hub.setWork_inStroke _ _) (marked _)

theorem Hub.refuseRoute_inStroke (c : Hub) (r why : Nat) : InStroke c (c.refuseRoute r why) := .put (.put (.refl c _) _ _) _ _

theorem Hub.endRoute_inStroke (c : Hub) (r idAt : Nat) : InStroke c (c.endRoute r idAt) := by
  unfold Hub.endRoute
  split
  · exact .refl c _
  · exact .put (.put (.put (.put (.put (.of_regs rfl) _ _) _ _) _ _) _ _) _ _

theorem Hub.freeRoute_inStroke (c : Hub) (r : Nat) : InStroke c (c.freeRoute r) := c.endRoute_inStroke r 0

theorem Hub.allocId_inStroke {c d : Hub} {a t : Nat} (h : c.allocId a = some (t, d)) : InStroke c d := by
  unfold Hub.allocId at h
  dsimp only at h
  split at h
  · obtain ⟨-, rfl⟩ := Prod.mk.inj (Option.some.inj h)
    exact .put (.refl c _) _ _
  · split at h
    · obtain ⟨-, rfl⟩ := Prod.mk.inj (Option.some.inj h)
      exact .of_regs rfl
    · cases h

theorem Hub.allocIds_inStroke {c d : Hub} {hubs ids : List Nat} (h : c.allocIds hubs = some (ids, d)) : InStroke c d := by
  induction hubs generalizing c ids with
  | nil =>
    obtain ⟨-, rfl⟩ := Prod.mk.inj (Option.some.inj h)
    exact .refl c _
  | cons a rest ih =>
    unfold Hub.allocIds at h
    split at h
    · cases h
    · next first =>
      obtain ⟨⟨ids', d'⟩, later, made⟩ := Option.map_eq_some_iff.mp h
      obtain ⟨-, rfl⟩ := Prod.mk.inj made
      exact (Hub.allocId_inStroke first).trans (ih later)

theorem Hub.allocRoute_inStroke {c d : Hub} {r : Nat} {w : RouteWork} (h : c.allocRoute r = .ok (w, d)) : InStroke c d := by
  cases allotted : c.allocIds (c.treePath (c.get (O.routeSrcHub r)) (c.get (O.routeDstHub r))) with
  | none => simp [Hub.allocRoute, allotted] at h
  | some x =>
    simp only [Hub.allocRoute, allotted] at h
    split_ifs at h
    all_goals
      obtain ⟨-, rfl⟩ := Prod.mk.inj (Except.ok.inj h)
      exact .after (Hub.setWork_inStroke _ _) (.each (.put (Hub.allocIds_inStroke allotted) _ _) _ fun d x => .put (.refl d _) _ _)

theorem Hub.takeUpOne_inStroke (c : Hub) (r : Nat) : InStroke c (c.takeUpOne r) := by
  unfold Hub.takeUpOne
  split
  · exact c.refuseRoute_inStroke r _
  split
  · exact c.refuseRoute_inStroke r _
  · next allotted => exact .after (Hub.stageRoute_inStroke _ _ _ true []) (.put (Hub.allocRoute_inStroke allotted) _ _)

theorem Hub.takeUpPair_inStroke (c : Hub) (r q : Nat) : InStroke c (c.takeUpPair r q) := by
  have both (x y : Nat) : InStroke c ((c.refuseRoute r x).refuseRoute q y) := .after (Hub.refuseRoute_inStroke _ q y) (c.refuseRoute_inStroke r x)
  unfold Hub.takeUpPair
  dsimp only
  split
  · split
    · exact both _ _
    · next first =>
      split
      · exact both _ _
      · next second =>
        exact .after (Hub.stageRoute_inStroke _ _ _ true []) (.after (Hub.stageRoute_inStroke _ _ _ true [])
          (.put (.put (.after (Hub.allocRoute_inStroke second) (Hub.allocRoute_inStroke first)) _ _) _ _))
  · exact both _ _

theorem Hub.takeUp_inStroke (c : Hub) (r : Nat) : InStroke c (c.takeUp r) := by
  unfold Hub.takeUp
  dsimp only
  split
  · exact .refl c _
  split
  · exact c.takeUpOne_inStroke r
  split
  · exact .refl c _
  split
  · exact c.takeUpPair_inStroke r _
  · exact c.refuseRoute_inStroke r _

theorem Hub.resumeRoute_inStroke (c : Hub) (w : RouteWork) : InStroke c (c.resumeRoute w) := by
  unfold Hub.resumeRoute
  dsimp only
  split
  · exact .after (Hub.stageRoute_inStroke _ _ _ true []) (.after (Hub.setWork_inStroke _ _) (.put (.put (.put (.refl c _) _ _) _ _) _ _))
  · exact .put (.put (c.freeRoute_inStroke _) _ _) _ _

theorem Hub.abortRoute_inStroke (c : Hub) (r why : Nat) (skip : List Nat) : InStroke c (c.abortRoute r why skip) := by
  unfold Hub.abortRoute
  split
  · exact .refl c _
  · refine .after (Hub.endRoute_inStroke _ r _) ?_
    split
    · exact .after (Hub.stageTeardown_inStroke _ r skip) (c.refuseRoute_inStroke r why)
    · exact c.refuseRoute_inStroke r why

theorem Hub.failAgain_inStroke (c : Hub) (a tid why at0 : Nat) : InStroke c (c.failAgain a tid why at0) := by
  unfold Hub.failAgain
  split
  · split
    · exact .put (.refl c _) _ _
    · exact .refl c _
  · exact .refl c _

theorem Hub.stageFailAt_inStroke (c : Hub) (a tid st at0 : Nat) : InStroke c (c.stageFailAt a tid st at0) := by
  unfold Hub.stageFailAt
  dsimp only
  split
  · exact c.failAgain_inStroke a tid _ at0
  · split
    · exact .after (Hub.abortRoute_inStroke _ _ 8 []) (c.abortRoute_inStroke _ _ [a])
    · exact c.abortRoute_inStroke _ _ [a]

theorem Hub.takeOwnFails_inStroke (c : Hub) : InStroke c c.takeOwnFails := by
  unfold Hub.takeOwnFails
  exact .each (.of_regs rfl) _ fun d f => d.stageFailAt_inStroke 0 _ _ _

theorem Hub.clearRetired_inStroke (c : Hub) : InStroke c c.clearRetired := .of_regs rfl

theorem Hub.routeBoundary_inStroke (c : Hub) : InStroke c c.routeBoundary := by
  unfold Hub.routeBoundary
  refine .after (Hub.takeOwnFails_inStroke _) (.each (.each (.each (.after (Hub.clearRetired_inStroke _) c.takeOwnFails_inStroke) _ fun d w => ?_) _
    fun d w => d.resumeRoute_inStroke w) _ fun d r => d.takeUp_inStroke r)
  have established (b : Bool) : InStroke d (d.when b fun c => c.put (O.routeState w.route) 2) := .when (.refl d _) b fun d => .put (.refl d _) _ _
  dsimp only
  split
  · exact .put (.after (Hub.freeRoute_inStroke _ _) (established _)) _ _
  · exact .when (established _) _ fun d => d.stageTeardown_inStroke _ []

/-! ## Reports to the Cox (R20–R22, R120, R126) -/

theorem Hub.countHubs_inStroke (c : Hub) : InStroke c c.countHubs := .put (.refl c _) _ _

theorem Hub.detachHubs_inStroke (c : Hub) (gone : List Nat) : InStroke c (c.detachHubs gone) := by
  unfold Hub.detachHubs
  refine .after (Hub.countHubs_inStroke _) (.each (.each (.refl c _) _ fun d a => ?_) _ fun d w => ?_)
  · exact .after (Hub.rigLeft_inStroke _ a) (.put (.put (.put (.put (.put (.refl d _) _ _) _ _) _ _) _ _) _ _)
  · dsimp only
    split
    · split
      · exact .after (Hub.suspendRoute_inStroke _ _ _) (d.suspendRoute_inStroke _ _)
      · exact d.suspendRoute_inStroke _ _
    · exact d.suspendRoute_inStroke _ _

theorem Hub.logEvent_inStroke (c : Hub) (e : TopoEvent) : InStroke c (c.logEvent e) := by
  unfold Hub.logEvent
  exact .put (.put (.put (.put (.put (.put (.put (.put (.refl c _) _ _) _ _) _ _) _ _) _ _) _ _) _ _) _ _

theorem Hub.sendProbe_inStroke (c : Hub) (a : Nat) : InStroke c (c.sendProbe a) := .emit (.put (.refl c _) _ _) _

theorem Hub.applyEvent_inStroke (c : Hub) (e : TopoEvent) : InStroke c (c.applyEvent e) := by
  have logged := c.logEvent_inStroke e
  unfold Hub.applyEvent
  dsimp only
  split
  · split
    · exact .each logged _ fun d a => .after (Hub.sendProbe_inStroke _ a) (.put (.refl d _) _ _)
    · exact .after (Hub.detachHubs_inStroke _ _) logged
  split
  · exact .after (Hub.countHubs_inStroke _) (.each (.after (Hub.detachHubs_inStroke _ _) logged) _ fun d a => .put (.refl d _) _ _)
  · exact logged

theorem Hub.toParent_inStroke (c : Hub) (parent port : Nat) (m : Mgmt) : InStroke c (c.toParent parent port m) := by
  unfold Hub.toParent
  split
  · exact .emit (.refl c _) _
  · exact .emit (.refl c _) _

theorem Hub.topoEvent_inStroke (c : Hub) (port kind reason uid : Nat) : InStroke c (c.topoEvent port kind reason uid) :=
  (c.topoEvent_intake port kind reason uid).onlyIndexes

theorem Hub.answerJoin_inStroke (c : Hub) (j : JoinRecord) : InStroke c (c.answerJoin j) := by
  unfold Hub.answerJoin
  dsimp only
  split
  · exact c.toParent_inStroke _ _ _
  split
  · exact .raise (.after (Hub.toParent_inStroke _ _ _ _) (.when (.refl c _) _ fun d => .after (Hub.topoEvent_inStroke _ _ 3 _ _)
      (.putB (.refl d _) _ _))) _ _ _
  · refine .after (Hub.toParent_inStroke _ _ _ _) (.when (.putB (.put (.put ?_ _ _) _ _) _ _) _ fun d => .putB (.refl d _) _ _)
    exact .put (.put (.put (.put (.put (.put (.refl c _) _ _) _ _) _ _) _ _) _ _) _ _

theorem Hub.countLate_inStroke (c : Hub) (r : Report) : InStroke c (c.countLate r) := by
  unfold Hub.countLate
  dsimp only
  split
  · exact .refl c _
  · exact .raise (.count (.put (.refl c _) _ _) _ _) _ _ _

theorem Hub.applyDemands_inStroke (c : Hub) (r : Report) : InStroke c (c.applyDemands r) := by
  unfold Hub.applyDemands Hub.setReport
  refine .each (.when (.of_regs rfl) _ fun d => .each (.refl d _) _ fun d x => .put (.put (.put (.refl d _) _ _) _ _) _ _) _ fun d x => ?_
  split
  · exact .refl d _
  · exact .put (.put (.put (.refl d _) _ _) _ _) _ _

theorem Hub.takeReport_inStroke (c : Hub) (r : Report) : InStroke c (c.takeReport r) := by
  have taken : InStroke c ((c.each r.events fun c e => c.applyEvent e).each r.joins fun c j => c.answerJoin j) :=
    .each (.each (.refl c _) _ fun d e => d.applyEvent_inStroke e) _ fun d j => d.answerJoin_inStroke j
  unfold Hub.takeReport
  split
  · exact .refl c _
  · dsimp only
    split
    · exact .after (Hub.countLate_inStroke _ r) taken.same
    · exact .after (Hub.applyDemands_inStroke _ r) taken

/-! ## The Cox's virtual ports (R255) -/

theorem Hub.refreshVdp_inStroke (c : Hub) (v : Nat) : InStroke c (c.refreshVdp v) := by
  have shown (n : Nat) (b : Bool) : InStroke c ((c.put (O.vdpState v) n).when b fun c =>
      ((c.put (H.farUp v) 0).put (O.vdpFarSpeed v) 0).put (O.vdpFarWidth v) 0) :=
    .when (.put (.refl c _) _ _) b fun d => .put (.put (.put (.refl d _) _ _) _ _) _ _
  unfold Hub.refreshVdp Hub.vdpInterrupt
  dsimp only
  split
  · exact .when (.emit (.put (shown _ _) _ _) _) _ fun d => .emit (.refl d _) _
  · exact shown _ _

theorem Hub.refreshVdps_inStroke (c : Hub) : InStroke c c.refreshVdps := .each (.refl c _) c.boundVdps fun d v => d.refreshVdp_inStroke v

/-! ## Messages that waited for a child to wake (R206, R215, R226, R418) -/

theorem Hub.newMessage_inStroke (c : Hub) (p sop : Nat) : InStroke c (c.newMessage p sop) := .put (.put (.refl c _) _ _) _ _

theorem Hub.sendVdm_inStroke (c : Hub) (p : Nat) (v : Vdm) : InStroke c (c.sendVdm p v) := .emit (c.newMessage_inStroke p 0) _

theorem Hub.sendPd_inStroke (c : Hub) (p : Nat) (m : Pd) (sop : Nat) : InStroke c (c.sendPd p m sop) := .emit (c.newMessage_inStroke p sop) _

theorem Hub.sendCaps_inStroke (c : Hub) (p : Nat) : InStroke c (c.sendCaps p) := by
  unfold Hub.sendCaps
  exact .put (.put (.after (Hub.sendPd_inStroke _ p _ 0) (.when (.refl c _) _ fun d => .put (.refl d _) _ _)) _ _) _ _

theorem Hub.capsChanged_inStroke (c : Hub) (p : Nat) : InStroke c (c.capsChanged p) := by
  unfold Hub.capsChanged
  split
  · split
    · exact .put (.put (.refl c _) _ _) _ _
    · split
      · exact c.sendCaps_inStroke p
      · exact .put (.refl c _) _ _
  · exact .refl c _

theorem Hub.sagHeld_inStroke (c : Hub) (p : Nat) : InStroke c (c.sagHeld p) := by
  unfold Hub.sagHeld Hub.sag1Act
  split
  · split
    · dsimp only
      split
      · exact .after (Hub.capsChanged_inStroke _ p) (.put (.after (Hub.sendPd_inStroke _ p .eprExit 0) (.put (.put (.put (.refl c _) _ _) _ _) _ _)) _ _)
      · exact .put (.put (.refl c _) _ _) _ _
    · exact .put (.refl c _) _ _
  · exact .refl c _

theorem Hub.sendSwap_inStroke (c : Hub) (p k : Nat) : InStroke c (c.sendSwap p k) := by
  unfold Hub.sendSwap
  exact .put (.after (Hub.sendPd_inStroke _ p _ 0) (.put (.put (.refl c _) _ _) _ _)) _ _

theorem Hub.sendDue_inStroke (c : Hub) (p : Nat) : InStroke c (c.sendDue p) := by
  have held := c.sagHeld_inStroke p
  unfold Hub.sendDue
  dsimp only
  split
  · split
    · exact .put held _ _
    · exact held
  split
  · exact held
  split
  · exact .after (Hub.sendCaps_inStroke _ p) held
  split
  · exact .after (Hub.sendSwap_inStroke _ p _) held
  · exact held

theorem Hub.leaveMode_inStroke (c : Hub) (p : Nat) : InStroke c (c.leaveMode p) := by
  unfold Hub.leaveMode Hub.sendExit
  split
  · exact .put (.refl c _) _ _
  split
  · exact .after (Hub.sendVdm_inStroke _ p _) (.put (.put (.refl c _) _ _) _ _)
  · exact c.sendVdm_inStroke p _

theorem Hub.pdReleased_inStroke (c : Hub) (p : Nat) : InStroke c (c.pdReleased p) := by
  unfold Hub.pdReleased
  split
  · exact .refl c _
  · exact .after (Hub.sendDue_inStroke _ p) (.when (.put (.refl c _) _ _) _ fun d => d.leaveMode_inStroke p)

end Sys2Proof.Machine
end

section
/-! What a stroke boundary can change: its steps in the order of R108, its report, and what it sends (R25, R52). -/
namespace Sys2Proof.Machine

-- One theorem after another: elaborated side by side they take more memory than the check allows.
set_option Elab.async false

/-! ## Steps 1 to 6 (R108) -/

theorem Hub.sampleDepths_inStroke (c : Hub) : InStroke c c.sampleDepths := .each (.refl c _) _ fun d q => .put (.refl d _) (O.depthHistBin q _) _

theorem Hub.clearDrains_inStroke (c : Hub) : InStroke c c.clearDrains := by
  unfold Hub.clearDrains
  refine .each (.refl c _) _ fun d t => ?_
  dsimp only
  split
  · exact .put (.put (.put (.refl d _) _ _) _ _) _ _
  · exact .put (.refl d _) _ _

theorem Hub.countDrains_inStroke (c : Hub) (before : List Nat) : InStroke c (c.countDrains before) :=
  .each (.refl c _) _ fun d t => .put (.refl d _) _ _

theorem Hub.showNextGrants_inStroke (c : Hub) : InStroke c c.showNextGrants := by
  have hidden : InStroke c (c.each ((c.instances (O.grantNext 0)).filter (8192 ≤ ·)) fun c t => c.restore (O.grantNext t)) :=
    .each (.refl c _) _ fun d t => .put (.refl d _) _ _
  unfold Hub.showNextGrants
  dsimp only
  split
  · exact .each hidden _ fun d x => .put (.refl d _) _ _
  · exact hidden

theorem Hub.showCapacities_inStroke (c : Hub) : InStroke c c.showCapacities := .each (.refl c _) _ fun d l => .put (.refl d _) _ _

theorem Hub.applyPlan_inStroke (c : Hub) (e : Nat) : InStroke c (c.applyPlan e) := by
  have granted : InStroke c (c.each (c.plannedGrants e) fun c x => c.put (O.grantGrant x.1) x.2) := .each (.refl c _) _ fun d x => .put (.refl d _) _ _
  have inForce {d : Hub} (h : InStroke c d) (b hold : Bool) (n : Nat) : InStroke c (((((((d.when b Hub.showCapacities).put O.planInForce e).put
      H.planBase e).put H.missRun 0).putB H.planAwaited false).putB H.planHold hold).put O.planState n) :=
    .put (.putB (.putB (.put (.put (.put (.when h b Hub.showCapacities_inStroke) _ _) _ _) _ _) _ _) _ _) _ _
  unfold Hub.applyPlan
  cases c.planPartsFor e with
  | nil => exact .ite (.putB (.each (inForce granted _ _ _) _ fun d t => d.teardown_inStroke t) _ _) (inForce granted _ _ _)
  | cons p ps =>
    have windowed := granted.put O.driveWindow p.window.toNat
    exact .ite (.putB (.each (inForce windowed _ _ _) _ fun d t => d.teardown_inStroke t) _ _) (inForce windowed _ _ _)

theorem Hub.missPlan_inStroke (c : Hub) : InStroke c c.missPlan := by
  have missed (b : Bool) (n : Nat) : InStroke c (((c.put H.missRun n).count O.plansMissed).when b fun c => c.raise 13) :=
    .when (.count (.put (.refl c _) _ _) _ _) b fun d => .raise (.refl d _) _ _ _
  unfold Hub.missPlan
  dsimp only
  split
  · exact .put (.put (missed _ _) _ _) _ _
  · exact .when (.each (.put (.put (missed _ _) _ _) _ _) _ fun d t => .put (.refl d _) _ _) _ fun d => .raise (.count (.refl d _) _ _) _ _ _

theorem Hub.planBoundary_inStroke (c : Hub) : InStroke c c.planBoundary := by
  have pruned (d : Hub) (x : List PlanPacket) : InStroke d { d with plan := x } := .of_regs rfl
  unfold Hub.planBoundary
  refine .after (Hub.showNextGrants_inStroke _) (.after (pruned _ _) ?_)
  split
  · exact .refl c _
  split
  · exact .put (.put (.refl c _) _ _) _ _
  split
  · exact c.applyPlan_inStroke _
  split
  · exact .put (.refl c _) _ _
  split
  · exact .refl c _
  · exact c.missPlan_inStroke

theorem Hub.fixedBoundary_inStroke (c : Hub) : InStroke c c.fixedBoundary := by
  unfold Hub.fixedBoundary
  refine .each (.refl c _) _ fun d t => ?_
  dsimp only
  split
  · exact .put (.put (.put (.put (.refl d _) _ _) _ _) _ _) _ _
  split
  · exact .put (.put (.refl d _) _ _) _ _
  · exact .put (.refl d _) _ _

theorem Hub.setIsoNeed_inStroke (c : Hub) : InStroke c c.setIsoNeed :=
  .after ((Hub.isoCheck_onlyRegs _).onlyIndexes (by simp [namesIndex_iff])) (.put (.refl c _) O.isoNeed _)

theorem Hub.remove_inStroke (c : Hub) (p : Held) : InStroke c (c.remove p) := by
  unfold Hub.remove Hub.freeCells Hub.leaveSpill
  exact .when (.when (.of_regs rfl) _ fun d => (d.returnCredit_intake _ _ _).onlyIndexes) _ fun d => .put (.refl d _) _ _

theorem Hub.discardIso_inStroke (c : Hub) (which : Held → Bool) (stale : Bool) : InStroke c (c.discardIso which stale) :=
  .each (.refl c _) _ fun d p => .when (.count (d.remove_inStroke p) (O.grantIsoDiscards p.tid) 1) stale fun d =>
    .raise (.count (.refl d _) (O.egressStrokeStale (p.q / 8)) 1) 19 255 p.tid

theorem Hub.discardStale_inStroke (c : Hub) : InStroke c c.discardStale := by
  unfold Hub.discardStale
  exact .each (.after (Hub.discardIso_inStroke _ _ false) (c.discardIso_inStroke _ true)) _ fun d p => .putB (.refl d _) _ _

theorem Hub.refillShaper_inStroke (c : Hub) (s : Nat) : InStroke c (c.refillShaper s) := by
  have refilled (xs : List Nat) (r : Nat) : InStroke c (((c.put (O.shaperRate s) r).restore (O.shaperNext s)).each xs fun c e =>
      c.putI (H.bucket s e) (min (c.getI (H.bucket s e) + r) r)) :=
    .each (.put (.put (.refl c _) _ _) _ _) xs fun d e => .put (.refl d _) _ _
  unfold Hub.refillShaper
  dsimp only
  split
  · exact refilled _ _
  · exact .showI (refilled _ _) _ _

theorem Hub.refillPolicer_inStroke (c : Hub) (k : Nat) : InStroke c (c.refillPolicer k) := by
  unfold Hub.refillPolicer
  exact .after (Hub.setPolicer_inStroke _ k _) (.put (.put (.refl c _) _ _) _ _)

theorem Hub.refillAll_inStroke (c : Hub) : InStroke c c.refillAll := by
  unfold Hub.refillAll
  exact .each (.each (.refl c _) _ fun d k => d.refillPolicer_inStroke k) _ fun d s => d.refillShaper_inStroke s

theorem Hub.openDrive_inStroke (c : Hub) : InStroke c c.openDrive := .each (.refl c _) _ fun d p => .put (.putB (.refl d _) (H.driveOpen p) true) _ 0

theorem Hub.boundarySteps_inStroke (c : Hub) : InStroke c c.boundarySteps := by
  unfold Hub.boundarySteps
  refine .after (Hub.openDrive_inStroke _) (.after (Hub.refillAll_inStroke _) (.after (Hub.discardStale_inStroke _) (.after (Hub.setIsoNeed_inStroke _)
    (.after (Hub.fixedBoundary_inStroke _) (.after (Hub.planBoundary_inStroke _) ?_)))))
  exact .after (Hub.countDrains_inStroke _ _) (.after (Hub.applyStaged_inStroke _) (.after (Hub.clearDrains_inStroke _) c.sampleDepths_inStroke))

/-! ## The report (R118, R120) and what goes out (R25, R52) -/

theorem Hub.rollOffers_inStroke (c : Hub) : InStroke c c.rollOffers := by
  have kept (d : Hub) (x : List Offer) : InStroke d { d with offers := x } := .of_regs rfl
  unfold Hub.rollOffers
  exact .after (kept _ _) (.each (.of_regs rfl) _ fun d o => .put (.refl d _) _ _)

theorem Hub.takeDemands_inStroke (c : Hub) : InStroke c c.takeDemands.2 := by
  unfold Hub.takeDemands
  exact .each (.of_regs rfl) _ fun d r => .put (.refl d _) _ _

theorem Hub.portsSent_inStroke (c : Hub) : InStroke c c.portsSent := by
  unfold Hub.portsSent
  exact .putB (.each (.refl c _) _ fun d x => .put (.put (.refl d _) _ _) _ _) _ _

theorem Hub.sendReport_inStroke (c : Hub) : InStroke c c.sendReport := by
  have sent (d : Hub) (x : List TopoEvent) : InStroke d { d with topo := x } := .of_regs rfl
  unfold Hub.sendReport
  dsimp only
  split
  · exact c.rollOffers_inStroke
  · refine .each (.when (.put (.after (sent _ _) (.when (.put (.after (Hub.takeDemands_inStroke _) c.rollOffers_inStroke) _ _) _
      fun d => .put (.refl d _) _ _)) _ _) _ fun d => d.portsSent_inStroke) _ fun d r => ?_
    split
    · exact d.takeReport_inStroke _
    · exact .emit (.refl d _) _

theorem Hub.sendSyncs_inStroke (c : Hub) : InStroke c c.sendSyncs := by
  have synced : InStroke c (c.each c.downstream fun c p => c.emit (.timeOn p (.sync c.stroke))) := .each (.refl c _) _ fun d p => .emit (.refl d _) _
  unfold Hub.sendSyncs
  dsimp only
  split
  · exact .emit synced _
  · exact synced

theorem Hub.sendCyclic_inStroke (c : Hub) (m : Mems) (r : Nat) : InStroke c (c.sendCyclic m r) := by
  unfold Hub.sendCyclic
  dsimp only
  split
  · exact .after (Hub.receive_inStroke _ 31 _) (.count (.put (.refl c _) (H.txSeq _) _) _ _)
  · exact .refl c _

/-! ## The boundary -/

/-- The indexes of the boundary's counter of strokes. -/
theorem Hub.nextStroke_onlyRegs (c : Hub) : OnlyRegs c c.nextStroke [O.strokeNumber] :=
  OnlyRegs.put (.of_regs rfl) (by simp) _

theorem Hub.nextStroke_strokeNumber (c : Hub) : c.nextStroke.get O.strokeNumber = (c.stroke + 1) % 2 ^ 64 := Hub.get_put_same _ _ _

theorem Hub.boundaryStart_inStroke (c : Hub) : InStroke c.nextStroke c.boundaryStart := by
  have taken (d : Hub) : InStroke d { d with lateReports := [] } := .of_regs rfl
  unfold Hub.boundaryStart
  refine .each (.each (.after (taken _) (.put (.putB (.refl _ _) _ _) _ _)) _ fun d r => d.applyDemands_inStroke r) _ fun d p => ?_
  refine .when (.when (.refl d _) _ fun d => .put (.refl d _) _ _) _ fun d => .after (Hub.gearRetrain_inStroke _ p) (.putB (.refl d _) _ _)

/-- The hub that a boundary leaves, where the domains are on. -/
def Hub.boundary (c : Hub) (m : Mems) : Hub :=
  let c := c.boundaryStart.boundarySteps.sendReport
  let c := (c.when c.isCox fun c => c.routeBoundary.refreshVdps).sendSyncs
  let c := c.each (List.range 64) fun c r => c.sendCyclic m r
  (c.each (List.range 24) fun c p => c.pdReleased p).settle

theorem exec_strokeBoundary (s : State) : exec .strokeBoundary s = onPortsAll s fun c m => if !c.domainsOn then (c.nextStroke, m) else (c.boundary m, m) := by
  rfl

theorem Hub.boundary_inStroke (c : Hub) (m : Mems) : InStroke c.nextStroke (c.boundary m) := by
  unfold Hub.boundary
  refine .after (Hub.settle_inStroke _) (.each (.each (.after (Hub.sendSyncs_inStroke _) (.when ?_ _ fun d => ?_)) _
    fun d r => d.sendCyclic_inStroke m r) _ fun d p => d.pdReleased_inStroke p)
  · exact .after (Hub.sendReport_inStroke _) (.after (Hub.boundarySteps_inStroke _) c.boundaryStart_inStroke)
  · exact .after (Hub.refreshVdps_inStroke _) d.routeBoundary_inStroke

/-- With the domains off the counter alone goes on (R411). -/
theorem strokeBoundary_answersAll {s : State} {P : Hub → Mems → Prop} (ports : s.hub.pdOn = true)
    (h : P (if s.hub.domainsOn then s.hub.boundary s.mem else s.hub.nextStroke) s.mem) : AnswersAll .strokeBoundary s P := by
  refine ⟨_, (exec_strokeBoundary s).trans (onPortsAll_on _ ports), rfl, ?_⟩
  cases on : s.hub.domainsOn <;> simpa [on] using h

end Sys2Proof.Machine
end

section
/-! The choice of an egress (R105–R107, R133): what it tests of a packet, the heads that it finds, and that the count of packets held over leaves both. -/
namespace Sys2Proof.Machine

-- One theorem after another: elaborated side by side they take more memory than the check allows.
set_option Elab.async false

/-! ## Operations on registers alone -/

/-- Registers, the lines raised and the free values drawn differ at most. -/
def RegistersOnly (c d : Hub) : Prop := ∃ regs lines draws, d = { c with regs := regs, lines := lines, draws := draws }

section Registers

variable {c d e : Hub}

theorem RegistersOnly.refl (c : Hub) : RegistersOnly c c := ⟨_, _, _, rfl⟩

theorem RegistersOnly.trans (h : RegistersOnly c d) (g : RegistersOnly d e) : RegistersOnly c e := by
  obtain ⟨r, l, n, rfl⟩ := h
  obtain ⟨r', l', n', rfl⟩ := g
  exact ⟨r', l', n', rfl⟩

theorem RegistersOnly.put (h : RegistersOnly c d) (o : Obj) (v : Nat) : RegistersOnly c (d.put o v) := h.trans ⟨_, _, _, rfl⟩

theorem RegistersOnly.count (h : RegistersOnly c d) (o : Obj) (n : Nat) : RegistersOnly c (d.count o n) := by
  refine h.trans ?_
  unfold Hub.count
  split
  · exact (RegistersOnly.refl d).put o _
  · exact ⟨_, _, _, rfl⟩

theorem RegistersOnly.showI (h : RegistersOnly c d) (o : Obj) (v : Int) : RegistersOnly c (d.showI o v) := by
  refine h.trans ?_
  unfold Hub.showI
  split
  · exact (RegistersOnly.refl d).put o _
  · exact ⟨_, _, _, rfl⟩

theorem RegistersOnly.peak (h : RegistersOnly c d) (o : Obj) (v : Nat) : RegistersOnly c (d.peak o v) := by
  unfold Hub.peak
  split
  · exact h.put o v
  · exact h

theorem RegistersOnly.when (h : RegistersOnly c d) (b : Bool) {f : Hub → Hub} (hf : ∀ d, RegistersOnly d (f d)) : RegistersOnly c (d.when b f) :=
  Hub.when_spec (P := RegistersOnly c) d b f h (h.trans (hf d))

theorem RegistersOnly.each {α : Type} (h : RegistersOnly c d) (xs : List α) {f : Hub → α → Hub} (hf : ∀ d x, RegistersOnly d (f d x)) :
    RegistersOnly c (d.each xs f) :=
  Hub.each_spec (P := RegistersOnly c) f (fun d x g => g.trans (hf d x)) xs d h

/-- The fields that an egress works on stand. -/
theorem RegistersOnly.fields (h : RegistersOnly c d) : d.held = c.held ∧ d.staged = c.staged ∧ d.now = c.now ∧ d.boundaryAt = c.boundaryAt
    ∧ d.frameOut = c.frameOut ∧ d.mgmtWait = c.mgmtWait ∧ d.tlpWait = c.tlpWait ∧ d.out = c.out := by
  obtain ⟨r, l, n, rfl⟩ := h
  exact ⟨rfl, rfl, rfl, rfl, rfl, rfl, rfl, rfl⟩

end Registers

/-! ## What is tested of a packet -/

/-- A head of an isochronous queue may be sent now (R27, R105, R106). -/
def Hub.mayDrive (c : Hub) (e k : Nat) (p : Held) : Bool :=
  c.flag (H.driveOpen e) && c.creditFor e k p.cells && c.shaped p.shaper e && !(c.flag H.isoHold && p.tid != 1) && c.fits e p

/-- A head of a recovery queue may be sent (R51, R133). -/
def Hub.mayRecover (c : Hub) (e k : Nat) (p : Held) : Bool :=
  c.creditFor e k p.cells && c.shaped p.shaper e && !((e == 25 || e == 26) && c.frameOut.any fun f => f.mac == e - 25 && f.tid == p.tid)
    && !c.classHalted k

theorem Hub.driveHead_eq (c : Hub) (e k : Nat) : c.driveHead e k = (c.headPacket (queueOf e k)).filter (c.mayDrive e k) := by
  unfold Hub.driveHead
  cases c.headPacket (queueOf e k) <;> rfl

theorem Hub.recoveryHead_eq (c : Hub) (e k : Nat) : c.recoveryHead e k = (c.headPacket (queueOf e k)).filter (c.mayRecover e k) := by
  unfold Hub.recoveryHead
  cases c.headPacket (queueOf e k) <;> rfl

/-- The objects that the choice of an egress itself changes. -/
def choiceRegs : List Obj := [O.egressStrokeHeldOver 0, O.deficitBytes 0, H.drrClass 0, H.drrLooked 0]

/-- Nothing that a choice tests of a packet differs. -/
structure SameTests (c d : Hub) : Prop where
  regs : OnlyObjects c d choiceRegs
  staged : d.staged = c.staged
  frameOut : d.frameOut = c.frameOut
  now : d.now = c.now
  boundaryAt : d.boundaryAt = c.boundaryAt

namespace SameTests

variable {c d e : Hub}

theorem refl (c : Hub) : SameTests c c := ⟨.refl c _, rfl, rfl, rfl, rfl⟩

theorem trans (h : SameTests c d) (g : SameTests d e) : SameTests c e :=
  ⟨h.regs.trans g.regs, g.staged.trans h.staged, g.frameOut.trans h.frameOut, g.now.trans h.now, g.boundaryAt.trans h.boundaryAt⟩

theorem of_registers (h : RegistersOnly c d) (regs : OnlyObjects c d choiceRegs) : SameTests c d := by
  obtain ⟨-, staged, now, boundaryAt, frameOut, -⟩ := h.fields
  exact ⟨regs, staged, frameOut, now, boundaryAt⟩

variable (h : SameTests c d) (p k : Nat)
include h

theorem creditFor (cost : Nat) : d.creditFor p k cost = c.creditFor p k cost := by
  unfold Hub.creditFor Hub.creditBound Hub.creditAvail
  rw [h.staged, h.regs.get (O.peerCreditLimit p k), h.regs.get (H.creditConsumed p k), h.regs.get (H.peerReturned p k)]

theorem shaped (s : Nat) : d.shaped s p = c.shaped s p := by
  unfold Hub.shaped Hub.getI
  rw [h.regs.get (H.bucket s p)]

theorem fits (x : Held) : d.fits p x = c.fits p x := by
  unfold Hub.fits Hub.nsInStroke
  rw [h.now, h.boundaryAt, h.regs.get (O.payloadRate p), h.regs.get O.driveWindow, h.regs.get O.releaseMargin]

theorem mayDrive : d.mayDrive p k = c.mayDrive p k := by
  funext x
  unfold Hub.mayDrive Hub.flag
  rw [h.creditFor, h.shaped, h.fits, h.regs.get (H.driveOpen p), h.regs.get H.isoHold]

theorem mayRecover : d.mayRecover p k = c.mayRecover p k := by
  funext x
  unfold Hub.mayRecover Hub.classHalted
  rw [h.creditFor, h.shaped, h.frameOut, h.regs.get O.halted]

/-- With the same packets held, the same heads may be sent in recovery. -/
theorem recoveryHead (held : d.held = c.held) : d.recoveryHead p k = c.recoveryHead p k := by
  rw [Hub.recoveryHead_eq, Hub.recoveryHead_eq, h.mayRecover, Hub.headPacket, held, Hub.headPacket]

end SameTests

/-! ## Heads -/

/-- A queue's head is of the queue, and held. -/
theorem Hub.mem_of_headPacket {c : Hub} {q : Nat} {p : Held} (h : c.headPacket q = some p) : p ∈ c.held ∧ p.q = q := by
  have found := List.find?_some h
  simp only [Bool.and_eq_true, beq_iff_eq] at found
  exact ⟨List.mem_of_find?_eq_some h, found.1⟩

theorem Hub.headPacket_of_recoveryHead {c : Hub} {e k : Nat} {p : Held} (h : c.recoveryHead e k = some p) : c.headPacket (queueOf e k) = some p :=
  (Option.filter_eq_some_iff.mp (c.recoveryHead_eq e k ▸ h)).1

theorem Hub.headPacket_of_driveHead {c : Hub} {e k : Nat} {p : Held} (h : c.driveHead e k = some p) : c.headPacket (queueOf e k) = some p :=
  (Option.filter_eq_some_iff.mp (c.driveHead_eq e k ▸ h)).1

theorem Hub.headPacket_of_firstHead {c : Hub} {e : Nat} {p : Held} (h : c.firstHead e = some p) : c.headPacket (queueOf e 0) = some p :=
  (Option.filter_eq_some_iff.mp h).1

theorem Hub.backlogged_of_recoveryHead {c : Hub} {e k : Nat} {p : Held} (h : c.recoveryHead e k = some p) : c.backlogged (queueOf e k) = true := by
  obtain ⟨held, queue⟩ := Hub.mem_of_headPacket (Hub.headPacket_of_recoveryHead h)
  exact List.any_eq_true.mpr ⟨p, held, beq_iff_eq.mpr queue⟩

/-! ## Packets held over (R106) -/

/-- The packet noted as held over, where it stands among those held. -/
def noted (p h : Held) : Held := if h = p then { h with heldOver := true } else h

theorem noted_same_queue (p h : Held) : (noted p h).q = h.q ∧ (noted p h).seg = h.seg := by
  unfold noted
  split <;> exact ⟨rfl, rfl⟩

/-- Either nothing is noted, or the head of the queue that does not fit is marked and counted. -/
theorem Hub.noteHeldOver_cases (c : Hub) (e k : Nat) : c.noteHeldOver e k = c ∨ ∃ p, c.headPacket (queueOf e k) = some p ∧ c.fits e p = false
    ∧ c.noteHeldOver e k = ({ c with held := c.held.map (noted p) } : Hub).count (O.egressStrokeHeldOver e) := by
  unfold Hub.noteHeldOver
  cases head : c.headPacket (queueOf e k) with
  | none => exact .inl rfl
  | some p =>
    dsimp only
    split
    · next marked =>
      simp only [Bool.and_eq_true, Bool.not_eq_true'] at marked
      exact .inr ⟨p, rfl, marked.2, rfl⟩
    · exact .inl rfl

/-- The choice of an egress finds the same packets. -/
structure SameChoice (e : Nat) (c d : Hub) : Prop where
  tests : SameTests c d
  regs : OnlyRegs c d [O.egressStrokeHeldOver e]
  first : d.firstHead e = c.firstHead e
  drive : ∀ k, d.driveHead e k = c.driveHead e k
  recovery : ∀ k, 4 ≤ k → k ≤ 7 → d.recoveryHead e k = c.recoveryHead e k
  backlogged : ∀ q, d.backlogged q = c.backlogged q
  length : d.held.length = c.held.length
  mgmtWait : d.mgmtWait = c.mgmtWait
  tlpWait : d.tlpWait = c.tlpWait

theorem SameChoice.refl (e : Nat) (c : Hub) : SameChoice e c c :=
  ⟨.refl c, .refl c _, rfl, fun _ => rfl, fun _ _ _ => rfl, fun _ => rfl, rfl, rfl, rfl⟩

theorem SameChoice.trans {e : Nat} {c d f : Hub} (h : SameChoice e c d) (g : SameChoice e d f) : SameChoice e c f :=
  ⟨h.tests.trans g.tests, h.regs.trans g.regs, g.first.trans h.first, fun k => (g.drive k).trans (h.drive k),
    fun k low high => (g.recovery k low high).trans (h.recovery k low high), fun q => (g.backlogged q).trans (h.backlogged q),
    g.length.trans h.length, g.mgmtWait.trans h.mgmtWait, g.tlpWait.trans h.tlpWait⟩

/-- A packet noted as held over was none that the choice could find: it is of C1 to C3, and does not fit. -/
theorem Hub.noteHeldOver_sameChoice (c : Hub) (e k : Nat) (iso : 1 ≤ k ∧ k ≤ 3) : SameChoice e c (c.noteHeldOver e k) := by
  rcases c.noteHeldOver_cases e k with same | ⟨p, head, short, marked⟩
  · rw [same]
    exact .refl e c
  have counted : RegistersOnly { c with held := c.held.map (noted p) } (c.noteHeldOver e k) := by
    rw [marked]
    exact (RegistersOnly.refl _).count _ 1
  obtain ⟨held, staged, now, boundaryAt, frameOut, mgmtWait, tlpWait, -⟩ := counted.fields
  have unheld : OnlyRegs c { c with held := c.held.map (noted p) } [O.egressStrokeHeldOver e] := .of_regs rfl
  have regs : OnlyRegs c (c.noteHeldOver e k) [O.egressStrokeHeldOver e] := by
    rw [marked]
    exact unheld.count (by simp) 1
  have tests : SameTests c (c.noteHeldOver e k) :=
    ⟨regs.onlyObjects (by simp [namesObject, choiceRegs]), staged, frameOut, now, boundaryAt⟩
  obtain ⟨-, ofQueue⟩ := Hub.mem_of_headPacket head
  have heads (q : Nat) : (c.noteHeldOver e k).headPacket q = (c.headPacket q).map (noted p) := by
    have sameQueue : ((fun h : Held => h.q == q && h.seg == .head) ∘ noted p) = fun h => h.q == q && h.seg == .head := by
      funext h
      obtain ⟨queue, seg⟩ := noted_same_queue p h
      simp only [Function.comp_apply, queue, seg]
    rw [Hub.headPacket, held, List.find?_map, sameQueue]
    rfl
  have other (q : Nat) (apart : q ≠ queueOf e k) : (c.noteHeldOver e k).headPacket q = c.headPacket q := by
    rw [heads q]
    cases found : c.headPacket q with
    | none => rfl
    | some h =>
      obtain ⟨-, queue⟩ := Hub.mem_of_headPacket found
      exact congrArg some (if_neg fun same => apart (by rw [← queue, same, ofQueue]))
  refine ⟨tests, regs, ?_, fun j => ?_, fun j low high => ?_, fun q => ?_, ?_, mgmtWait, tlpWait⟩
  · have credit : (fun x : Held => (c.noteHeldOver e k).creditFor e 0 x.cells) = fun x => c.creditFor e 0 x.cells := funext fun x => tests.creditFor e 0 _
    rw [Hub.firstHead, credit, other _ (by unfold queueOf; omega)]
    rfl
  · rw [Hub.driveHead_eq, Hub.driveHead_eq, tests.mayDrive]
    by_cases same : queueOf e j = queueOf e k
    · -- The head that is noted does not fit, before and after.
      have barred (x : Held) (unfit : c.fits e x = false) : c.mayDrive e j x = false := by simp [Hub.mayDrive, unfit]
      have unfit : c.fits e (noted p p) = false := by simpa [noted, Hub.fits] using short
      rw [same, heads, head, Option.map_some, Option.filter_some, Option.filter_some, barred p short, barred _ unfit]
      rfl
    · rw [other _ same]
  · rw [Hub.recoveryHead_eq, Hub.recoveryHead_eq, tests.mayRecover, other _ (by unfold queueOf; omega)]
  · rw [Hub.backlogged, held, List.any_map]
    refine congrArg (c.held.any ·) (funext fun h => ?_)
    rw [Function.comp_apply, (noted_same_queue p h).1]
  · rw [held, List.length_map]

/-- The hub with the heads noted that the drive window is too short for. -/
def Hub.notedHeads (c : Hub) (e : Nat) : Hub := c.each [1, 2, 3] fun c k => c.noteHeldOver e k

theorem Hub.notedHeads_sameChoice (c : Hub) (e : Nat) : SameChoice e c (c.notedHeads e) :=
  (((c.noteHeldOver_sameChoice e 1 (by omega)).trans (Hub.noteHeldOver_sameChoice _ e 2 (by omega)))).trans (Hub.noteHeldOver_sameChoice _ e 3 (by omega))

end Sys2Proof.Machine
end

section
/-! The egress of a link (R97, R105, R113, R133, R136): the deficit round robin, the dequeue of a sound packet, and what is staged for the link. -/
namespace Sys2Proof.Machine

-- One theorem after another: elaborated side by side they take more memory than the check allows.
set_option Elab.async false

/-! ## Packets that no dequeue discards (R69, R422) -/

/-- No packet held is one of a torn-down tunnel, or one that sag stage 5 no longer forwards. -/
def Hub.KeepsHeads (c : Hub) : Prop := ∀ p ∈ c.held, ¬(p.tid ≠ 0 ∧ c.drain p.tid = true) ∧ c.sagDiscards p = false

theorem Hub.keepsHeads_of_undrained {c : Hub} (stage : c.get O.sagStage ≠ 5) (undrained : ∀ p ∈ c.held, c.drain p.tid = false) : c.KeepsHeads :=
  fun p held => ⟨fun drained => by simp [undrained p held] at drained, by simp [Hub.sagDiscards, stage]⟩

theorem Hub.keepsHeads_of_alone {c : Hub} {p : Held} (alone : c.held = [p]) (mgmt : p.tid = 0) (lossless : p.q % 8 = 0) : c.KeepsHeads := by
  intro h held
  obtain rfl : h = p := by simpa [alone] using held
  exact ⟨fun drained => drained.1 mgmt, by simp [Hub.sagDiscards, lossless]⟩

theorem Hub.dropDrained_keeps {c : Hub} (keeps : c.KeepsHeads) (n q : Nat) : Hub.dropDrained n q c = c := by
  cases n with
  | zero => rfl
  | succ n =>
    unfold Hub.dropDrained
    cases head : c.headPacket q with
    | none => rfl
    | some p =>
      obtain ⟨undrained, forwarded⟩ := keeps p (Hub.mem_of_headPacket head).1
      simp only [if_neg undrained, forwarded, Bool.false_eq_true, if_false]

/-- The queues of an endpoint without what their heads must drop. -/
def Hub.dropHeads (c : Hub) (e : Nat) : Hub := c.each (List.range 8) fun c k => Hub.dropDrained c.held.length (queueOf e k) c

theorem Hub.dropHeads_keeps {c : Hub} (keeps : c.KeepsHeads) (e : Nat) : c.dropHeads e = c :=
  Hub.each_spec (P := (· = c)) _ (fun _ _ same => by rw [same, Hub.dropDrained_keeps keeps]) _ c rfl

/-! ## Deficit round robin (R133) -/

section RoundRobin

variable {c d : Hub} {e k was : Nat} {p : Held}

/-- A head that may be sent keeps the round robin going. -/
theorem Hub.drrNext_eligible (low : 4 ≤ k) (high : k ≤ 7) (head : c.recoveryHead e k = some p) :
    ([4, 5, 6, 7].any fun k => c.backlogged (queueOf e k) && (c.recoveryHead e k).isSome) = true := by
  refine List.any_eq_true.mpr ⟨k, ?_, by simp [Hub.backlogged_of_recoveryHead head, head]⟩
  simp only [List.mem_cons, List.not_mem_nil]
  omega

/-- The round robin has sent from class k: its deficit is what was left. -/
structure DrrSent (e k deficit : Nat) (c d : Hub) : Prop where
  registers : RegistersOnly c d
  regs : OnlyRegs c d [O.deficitBytes (queueOf e k), H.drrLooked e]
  deficit : d.get (O.deficitBytes (queueOf e k)) = deficit
  looked : d.get (H.drrLooked e) = 1

/-- The class in turn sends its head where quantum and deficit cover it. -/
theorem Hub.drrNext_sends (turn : c.get (H.drrClass e) = k) (low : 4 ≤ k) (high : k ≤ 7) (head : c.recoveryHead e k = some p)
    (unlooked : c.get (H.drrLooked e) = 0)
    (covered : p.pkt.size ≤ c.get (O.deficitBytes (queueOf e k)) + c.get (O.quantumBytes (queueOf e k)))
    (fits : c.get (O.deficitBytes (queueOf e k)) + c.get (O.quantumBytes (queueOf e k)) < 2 ^ 32) (n : Nat) :
    ∃ d, Hub.drrNext e (n + 1) c = (d, some p)
      ∧ DrrSent e k (c.get (O.deficitBytes (queueOf e k)) + c.get (O.quantumBytes (queueOf e k)) - p.pkt.size) c d := by
  have credited : ((c.put (O.deficitBytes (queueOf e k)) (c.get (O.deficitBytes (queueOf e k)) + c.get (O.quantumBytes (queueOf e k)))).put
      (H.drrLooked e) 1).get (O.deficitBytes (queueOf e k)) = c.get (O.deficitBytes (queueOf e k)) + c.get (O.quantumBytes (queueOf e k)) := by
    rw [Hub.get_put_other _ _ (by simp), Hub.get_put_same]
    exact Nat.mod_eq_of_lt fits
  refine ⟨((c.put (O.deficitBytes (queueOf e k)) (c.get (O.deficitBytes (queueOf e k)) + c.get (O.quantumBytes (queueOf e k)))).put
      (H.drrLooked e) 1).put (O.deficitBytes (queueOf e k)) (c.get (O.deficitBytes (queueOf e k)) + c.get (O.quantumBytes (queueOf e k)) - p.pkt.size),
    ?_, (((RegistersOnly.refl c).put _ _).put _ 1).put _ _, (((OnlyRegs.refl c _).put (by simp) _).put (by simp) 1).put (by simp) _, ?_, ?_⟩
  · simp only [Hub.drrNext, Hub.drrNext_eligible low high head, turn, Hub.backlogged_of_recoveryHead head, head, unlooked, credited, covered,
      Bool.not_true, Bool.false_eq_true, if_false, if_true]
  · rw [Hub.get_put_same]
    exact Nat.mod_eq_of_lt (by simp only [Obj.cap]; omega)
  · rw [Hub.get_put_other _ _ (by simp), Hub.get_put_same]
    rfl

/-- The class that follows in the round robin. -/
def nextClass (k : Nat) : Nat := if k = 7 then 4 else k + 1

theorem nextClass_range {was k : Nat} (low : 4 ≤ was) (high : was ≤ 7) (next : k = nextClass was) : 4 ≤ k ∧ k ≤ 7 := by
  rw [next, nextClass]
  split <;> omega

/-- The turn has passed from a class to the next, and left it this deficit. -/
structure DrrPassed (e was deficit : Nat) (c d : Hub) : Prop where
  registers : RegistersOnly c d
  regs : OnlyRegs c d [O.deficitBytes (queueOf e was), H.drrClass e, H.drrLooked e]
  deficit : d.get (O.deficitBytes (queueOf e was)) = deficit
  turn : d.get (H.drrClass e) = nextClass was
  looked : d.get (H.drrLooked e) = 0

/-- The turn passes on after writes of the deficit of the class that had it, and of the mark that it was looked at. -/
theorem DrrPassed.of_advance (registers : RegistersOnly c d) (regs : OnlyRegs c d [O.deficitBytes (queueOf e was), H.drrLooked e])
    (turn : c.get (H.drrClass e) = was) (high : was ≤ 7) : DrrPassed e was (d.get (O.deficitBytes (queueOf e was))) c (d.drrAdvance e) := by
  have still : d.get (H.drrClass e) = was := (regs _ (by simp)).trans turn
  unfold Hub.drrAdvance
  rw [still]
  refine ⟨(registers.put _ _).put _ _, (OnlyRegs.put (regs.mono (by simp)) (by simp) _).put (by simp) _, ?_, ?_, ?_⟩
  · rw [Hub.get_put_other _ _ (by simp), Hub.get_put_other _ _ (by simp)]
  · rw [Hub.get_put_other _ _ (by simp), Hub.get_put_same]
    refine Nat.mod_eq_of_lt ?_
    simp only [Obj.cap]
    split <;> omega
  · rw [Hub.get_put_same]
    rfl

/-- The class in turn passes where quantum and deficit do not cover its head, and keeps them. -/
theorem Hub.drrNext_passes (turn : c.get (H.drrClass e) = was) (low : 4 ≤ was) (high : was ≤ 7) (head : c.recoveryHead e was = some p)
    (unlooked : c.get (H.drrLooked e) = 0)
    (short : c.get (O.deficitBytes (queueOf e was)) + c.get (O.quantumBytes (queueOf e was)) < p.pkt.size) (size : p.pkt.size < 2 ^ 32) (n : Nat) :
    ∃ d, Hub.drrNext e (n + 1) c = Hub.drrNext e n d
      ∧ DrrPassed e was (c.get (O.deficitBytes (queueOf e was)) + c.get (O.quantumBytes (queueOf e was))) c d := by
  have credited : ((c.put (O.deficitBytes (queueOf e was)) (c.get (O.deficitBytes (queueOf e was)) + c.get (O.quantumBytes (queueOf e was)))).put
      (H.drrLooked e) 1).get (O.deficitBytes (queueOf e was)) = c.get (O.deficitBytes (queueOf e was)) + c.get (O.quantumBytes (queueOf e was)) := by
    rw [Hub.get_put_other _ _ (by simp), Hub.get_put_same]
    exact Nat.mod_eq_of_lt (short.trans size)
  refine ⟨_, ?_, credited ▸ DrrPassed.of_advance (((RegistersOnly.refl c).put _ _).put (H.drrLooked e) 1)
    (((OnlyRegs.refl c _).put (by simp) _).put (by simp) 1) turn high⟩
  simp only [Hub.drrNext, Hub.drrNext_eligible low high head, turn, Hub.backlogged_of_recoveryHead head, head, unlooked, credited,
    Nat.not_le.mpr short, Bool.not_true, Bool.false_eq_true, if_false, if_true]

/-- A class without a backlog passes and loses its deficit. -/
theorem Hub.drrNext_skips (turn : c.get (H.drrClass e) = was) (high : was ≤ 7) (empty : c.backlogged (queueOf e was) = false)
    (eligible : ([4, 5, 6, 7].any fun k => c.backlogged (queueOf e k) && (c.recoveryHead e k).isSome) = true) (n : Nat) :
    ∃ d, Hub.drrNext e (n + 1) c = Hub.drrNext e n d ∧ DrrPassed e was 0 c d := by
  have cleared : (c.put (O.deficitBytes (queueOf e was)) 0).get (O.deficitBytes (queueOf e was)) = 0 := Hub.get_put_same _ _ _
  refine ⟨_, ?_, cleared ▸ DrrPassed.of_advance ((RegistersOnly.refl c).put _ 0) ((OnlyRegs.refl c _).put (by simp) 0) turn high⟩
  simp only [Hub.drrNext, eligible, turn, empty, Bool.not_true, Bool.not_false, Bool.false_eq_true, if_false, if_true]

/-- Of the class to which the turn passes nothing has changed. -/
theorem DrrPassed.sends {deficit : Nat} (passed : DrrPassed e was deficit c d) (low : 4 ≤ was) (high : was ≤ 7) (next : k = nextClass was)
    (head : c.recoveryHead e k = some p)
    (covered : p.pkt.size ≤ c.get (O.deficitBytes (queueOf e k)) + c.get (O.quantumBytes (queueOf e k)))
    (fits : c.get (O.deficitBytes (queueOf e k)) + c.get (O.quantumBytes (queueOf e k)) < 2 ^ 32) (n : Nat) :
    ∃ f, Hub.drrNext e (n + 1) d = (f, some p) ∧ RegistersOnly c f
      ∧ OnlyRegs c f [O.deficitBytes (queueOf e was), O.deficitBytes (queueOf e k), H.drrClass e, H.drrLooked e]
      ∧ f.get (O.deficitBytes (queueOf e was)) = deficit ∧ f.get (H.drrClass e) = k := by
  obtain ⟨low', high'⟩ := nextClass_range low high next
  have apart : k ≠ was := by
    rw [next, nextClass]
    split <;> omega
  have queues : queueOf e k ≠ queueOf e was := by unfold queueOf; omega
  have tests : SameTests c d := .of_registers passed.registers (passed.regs.onlyObjects (by simp [namesObject, choiceRegs]))
  have deficitK : d.get (O.deficitBytes (queueOf e k)) = c.get (O.deficitBytes (queueOf e k)) := passed.regs _ (by simp [queues])
  have quantumK : d.get (O.quantumBytes (queueOf e k)) = c.get (O.quantumBytes (queueOf e k)) := passed.regs _ (by simp)
  obtain ⟨f, sent, result⟩ := Hub.drrNext_sends (passed.turn.trans next.symm) low' high' ((tests.recoveryHead e k passed.registers.fields.1).trans head)
    passed.looked (by rwa [deficitK, quantumK]) (by rwa [deficitK, quantumK]) n
  refine ⟨f, sent, passed.registers.trans result.registers, (passed.regs.mono (by simp)).trans (result.regs.mono (by simp)), ?_, ?_⟩
  · rw [result.regs _ (by simp [queues.symm]), passed.deficit]
  · rw [result.regs _ (by simp), passed.turn, next]

end RoundRobin

end Sys2Proof.Machine
end

section
/-! What is sent pays its shaper and is counted (R97, R105, R113, R136): the dequeue of a packet whose cells read sound, and its staging for the link. -/
namespace Sys2Proof.Machine

-- One theorem after another: elaborated side by side they take more memory than the check allows.
set_option Elab.async false

/-! ## Two's-complement registers -/

/-- A two's-complement register of 8 bytes reads back the written number modulo 2^64. -/
theorem Hub.getI_putI_same (c : Hub) {o : Obj} (wide : o.size = 8) (v : Int) : (c.putI o v).getI o = (v + 2 ^ 63) % 2 ^ 64 - 2 ^ 63 := by
  have cap : o.cap = 2 ^ 64 := by simp [Obj.cap, wide]
  unfold Hub.getI Hub.putI
  rw [Hub.get_put_same, cap]
  split <;> omega

theorem Hub.getI_of_get {c d : Hub} {o : Obj} (h : d.get o = c.get o) : d.getI o = c.getI o := by rw [Hub.getI, h, Hub.getI]

/-! ## The dequeue of a sound packet (R97) -/

/-- A shaper is charged for what an endpoint sent, and shows the least of its buckets. -/
theorem Hub.charge_onlyRegs (c : Hub) (s e size : Nat) : OnlyRegs c (c.charge s e size) [H.bucket s e, O.shaperTokens s] := by
  have paid (v : Int) : OnlyRegs c (c.putI (H.bucket s e) v) [H.bucket s e, O.shaperTokens s] := (OnlyRegs.refl c _).put (by simp) _
  unfold Hub.charge
  dsimp only
  split
  · exact .refl c _
  split
  · exact (paid _).showI (by simp) _
  · exact paid _

theorem Hub.charge_registersOnly (c : Hub) (s e size : Nat) : RegistersOnly c (c.charge s e size) := by
  have paid (v : Int) : RegistersOnly c (c.putI (H.bucket s e) v) := (RegistersOnly.refl c).put _ _
  unfold Hub.charge
  dsimp only
  split
  · exact .refl c
  split
  · exact (paid _).showI _ _
  · exact paid _

/-- The bucket pays the bytes sent. -/
theorem Hub.charge_bucket (c : Hub) {s : Nat} (e size : Nat) (shaper : s < 0xFFFF) :
    (c.charge s e size).getI (H.bucket s e) = (c.getI (H.bucket s e) - size + 2 ^ 63) % 2 ^ 64 - 2 ^ 63 := by
  unfold Hub.charge
  rw [if_neg (by omega)]
  dsimp only
  split
  · rw [Hub.getI_of_get (Hub.get_showI_other _ _ (by simp)), Hub.getI_putI_same _ rfl]
  · exact Hub.getI_putI_same _ rfl _

theorem Hub.sampleDelay_onlyObjects (c : Hub) (p : Held) : OnlyObjects c (c.sampleDelay p) [O.delayHistBin 0 0, O.histCfgDelayMax 0] := by
  unfold Hub.sampleDelay
  split
  · exact ((OnlyObjects.refl c _).put (O.delayHistBin p.q _) _).peak (O.histCfgDelayMax p.q) _
  · exact .refl c _

theorem Hub.sampleDelay_registersOnly (c : Hub) (p : Held) : RegistersOnly c (c.sampleDelay p) := by
  unfold Hub.sampleDelay
  split
  · exact ((RegistersOnly.refl c).put _ _).peak _ _
  · exact .refl c

/-- A sampled packet is counted in the bin of its delay. -/
theorem Hub.sampleDelay_bin (c : Hub) {p : Held} (sampled : p.sampled = true) :
    (c.sampleDelay p).get (O.delayHistBin p.q (histBin (c.now - p.appended) (c.get (O.histCfgDelayShift p.q))))
      = min (c.get (O.delayHistBin p.q (histBin (c.now - p.appended) (c.get (O.histCfgDelayShift p.q)))) + 1) 0xFFFFFFFF := by
  unfold Hub.sampleDelay
  rw [if_pos sampled]
  dsimp only
  rw [Hub.get_peak_other _ _ (by simp), Hub.binUp, Hub.get_put_same]
  exact Nat.mod_eq_of_lt (by simp only [Obj.cap]; omega)

theorem Hub.remove_onlyObjects (c : Hub) (p : Held) : OnlyObjects c (c.remove p) [O.queueStatusSpill 0, H.creditReturned 0 0] := by
  unfold Hub.remove Hub.leaveSpill Hub.freeCells Hub.returnCredit
  exact ((OnlyObjects.of_regs rfl).when _ fun d => (OnlyObjects.refl d _).when _ fun d => (OnlyObjects.refl d _).put (H.creditReturned _ _) _).when _
    fun d => (OnlyObjects.refl d _).put (O.queueStatusSpill p.q) 0

theorem Hub.remove_registersOnly (c : Hub) (p : Held) : RegistersOnly { c with held := c.held.erase p } (c.remove p) := by
  unfold Hub.remove Hub.leaveSpill Hub.freeCells Hub.returnCredit
  exact ((RegistersOnly.refl _).when _ fun d => (RegistersOnly.refl d).when _ fun d => (RegistersOnly.refl d).put _ _).when _
    fun d => (RegistersOnly.refl d).put _ _

/-- The hub that has sent a packet of an endpoint. -/
def Hub.dequeued (c : Hub) (e : Nat) (p : Held) : Hub :=
  (((c.remove p).charge p.shaper e p.pkt.size).sampleDelay p).when (decide (1 ≤ p.q % 8 ∧ p.q % 8 ≤ 3)) fun c =>
    c.count (O.egressStrokeIsoBytes e) p.pkt.size

/-- A packet whose cells read sound leaves with the ID it has on the next link, or at an endpoint with its own. -/
theorem Hub.dequeue_clean (c : Hub) (e : Nat) {p : Held} (cell : Fin 196608) (sound : p.marked = none) :
    c.dequeue e p ⟨.clean, cell, 0⟩ = (c.dequeued e p, some (p.pkt.rewrite (if e < 24 then p.outTid else p.tid) (p.q % 8))) := by
  simp [Hub.dequeue, Hub.dequeued, sound]

/-- The objects of a dequeue. -/
def dequeueRegs : List Obj := [O.queueStatusSpill 0, H.creditReturned 0 0, O.shaperTokens 0, H.bucket 0 0, O.delayHistBin 0 0, O.histCfgDelayMax 0,
  O.egressStrokeIsoBytes 0]

theorem Hub.dequeued_onlyObjects (c : Hub) (e : Nat) (p : Held) : OnlyObjects c (c.dequeued e p) dequeueRegs := by
  have removed : OnlyObjects c (c.remove p) dequeueRegs := (c.remove_onlyObjects p).mono
  have charged : OnlyObjects c ((c.remove p).charge p.shaper e p.pkt.size) dequeueRegs :=
    removed.trans ((Hub.charge_onlyRegs _ _ _ _).onlyObjects (by simp [namesObject, dequeueRegs]))
  exact (charged.trans (Hub.sampleDelay_onlyObjects _ p).mono).when _ fun d => (OnlyObjects.refl d _).count (O.egressStrokeIsoBytes e) _

theorem Hub.dequeued_registersOnly (c : Hub) (e : Nat) (p : Held) : RegistersOnly { c with held := c.held.erase p } (c.dequeued e p) :=
  (((c.remove_registersOnly p).trans (Hub.charge_registersOnly _ _ _ _)).trans (Hub.sampleDelay_registersOnly _ p)).when _
    fun d => (RegistersOnly.refl d).count _ _

/-- Its shaper has paid. -/
theorem Hub.dequeued_bucket (c : Hub) (e : Nat) {p : Held} (shaper : p.shaper < 0xFFFF) :
    (c.dequeued e p).getI (H.bucket p.shaper e) = (c.getI (H.bucket p.shaper e) - p.pkt.size + 2 ^ 63) % 2 ^ 64 - 2 ^ 63 := by
  have later (d : Hub) : OnlyObjects d ((d.sampleDelay p).when (decide (1 ≤ p.q % 8 ∧ p.q % 8 ≤ 3)) fun c => c.count (O.egressStrokeIsoBytes e) p.pkt.size)
      [O.delayHistBin 0 0, O.histCfgDelayMax 0, O.egressStrokeIsoBytes 0] :=
    ((d.sampleDelay_onlyObjects p).mono).when _ fun d => (OnlyObjects.refl d _).count (O.egressStrokeIsoBytes e) _
  have before : (c.remove p).getI (H.bucket p.shaper e) = c.getI (H.bucket p.shaper e) := Hub.getI_of_get ((c.remove_onlyObjects p).get _)
  rw [Hub.dequeued, Hub.getI_of_get ((later _).get _), Hub.charge_bucket _ _ _ shaper, before]

/-- What leaves C1 to C3 is counted at the endpoint. -/
theorem Hub.dequeued_isoBytes (c : Hub) (e : Nat) {p : Held} (iso : 1 ≤ p.q % 8 ∧ p.q % 8 ≤ 3)
    (fits : c.get (O.egressStrokeIsoBytes e) + p.pkt.size < (O.egressStrokeIsoBytes e).cap) :
    (c.dequeued e p).get (O.egressStrokeIsoBytes e) = c.get (O.egressStrokeIsoBytes e) + p.pkt.size := by
  have before : (((c.remove p).charge p.shaper e p.pkt.size).sampleDelay p).get (O.egressStrokeIsoBytes e) = c.get (O.egressStrokeIsoBytes e) := by
    rw [(Hub.sampleDelay_onlyObjects _ p).get (O.egressStrokeIsoBytes e), Hub.charge_onlyRegs _ _ _ _ _ (by simp),
      (c.remove_onlyObjects p).get (O.egressStrokeIsoBytes e)]
  rw [Hub.dequeued, decide_eq_true iso, Hub.when_true, Hub.get_count_same _ _ _ (before ▸ fits), before]

/-- A sampled packet is counted in the bin of its delay. -/
theorem Hub.dequeued_bin (c : Hub) (e : Nat) {p : Held} (sampled : p.sampled = true) :
    (c.dequeued e p).get (O.delayHistBin p.q (histBin (c.now - p.appended) (c.get (O.histCfgDelayShift p.q))))
      = min (c.get (O.delayHistBin p.q (histBin (c.now - p.appended) (c.get (O.histCfgDelayShift p.q)))) + 1) 0xFFFFFFFF := by
  have registers : RegistersOnly { c with held := c.held.erase p } ((c.remove p).charge p.shaper e p.pkt.size) :=
    (c.remove_registersOnly p).trans (Hub.charge_registersOnly _ _ _ _)
  obtain ⟨-, -, now, -⟩ := registers.fields
  have before (o : Obj) (h : ∀ x ∈ [H.bucket p.shaper e, O.shaperTokens p.shaper], o.key ≠ x.key)
      (g : namesObject [O.queueStatusSpill 0, H.creditReturned 0 0] o = false) : ((c.remove p).charge p.shaper e p.pkt.size).get o = c.get o := by
    rw [Hub.charge_onlyRegs _ _ _ _ _ h, (c.remove_onlyObjects p).get o g]
  have shift := before (O.histCfgDelayShift p.q) (by simp) rfl
  have bin := Hub.sampleDelay_bin ((c.remove p).charge p.shaper e p.pkt.size) sampled
  rw [shift, now, before _ (by simp) rfl] at bin
  have counted (d : Hub) : OnlyRegs d (d.when (decide (1 ≤ p.q % 8 ∧ p.q % 8 ≤ 3)) fun c => c.count (O.egressStrokeIsoBytes e) p.pkt.size)
      [O.egressStrokeIsoBytes e] := (OnlyRegs.refl d _).when _ fun d => (OnlyRegs.refl d _).count (by simp) _
  rw [Hub.dequeued, counted _ _ (by simp)]
  exact bin

/-! ## The sweep behind a command, with nothing waiting (R52, R73) -/

theorem Hub.settle_quiet {c : Hub} (mgmt : c.mgmtWait = []) (tlps : c.tlpWait = []) : c.settle = c.returnPcie := by
  simp [Hub.settle, Hub.pump, Hub.pumpMgmt, Hub.pcieSweep, Hub.feedWaiting, mgmt, tlps]

/-- A return of PCIe credit keeps the packets held and staged, and what is output. -/
structure PcieReturned (c d : Hub) : Prop where
  objects : OnlyObjects c d [H.pcieGiven 0]
  held : d.held = c.held
  staged : d.staged = c.staged
  out : c.out ⊆ d.out

theorem Hub.returnPcie_returned (c : Hub) : PcieReturned c c.returnPcie := by
  unfold Hub.returnPcie
  refine Hub.each_spec (P := PcieReturned c) _ (fun d k kept => ?_) [0, 1, 2] c ⟨.refl c _, rfl, rfl, fun _ h => h⟩
  obtain ⟨objects, held, staged, out⟩ := kept
  dsimp only
  split
  · exact ⟨objects, held, staged, out⟩
  · exact ⟨(objects.put (H.pcieGiven k) _).emit _, held, staged, fun _ h => List.mem_append_left _ (out h)⟩

end Sys2Proof.Machine
end

section
/-! What an egress leaves (R97, R105, R113, R133, R136): a packet staged for the link, and one passed to the endpoint of an adapter. -/
namespace Sys2Proof.Machine

-- One theorem after another: elaborated side by side they take more memory than the check allows.
set_option Elab.async false

/-! ## A packet sent on a link -/

/-- The packet that the egress of a link chooses: C0 first, then C1 to C3 in the drive window, then the round robin. -/
def Hub.linkPick (c : Hub) (e : Nat) : Hub × Option Held :=
  match c.firstHead e with
  | some p => (c, some p)
  | none => match [1, 2, 3].findSome? fun k => c.driveHead e k with
    | some p => (c, some p)
    | none => Hub.drrNext e 80 c

/-- C0 goes first. -/
theorem Hub.linkPick_first {c : Hub} {e : Nat} {p : Held} (first : c.firstHead e = some p) : c.linkPick e = (c, some p) := by
  simp [Hub.linkPick, first]

/-- Of C1 to C3 the lowest class with an eligible head goes first. -/
theorem Hub.linkPick_drive {c : Hub} {e k : Nat} {p : Held} (first : c.firstHead e = none) (low : 1 ≤ k) (high : k ≤ 3)
    (before : ∀ j ∈ [1, 2, 3], j < k → c.driveHead e j = none) (head : c.driveHead e k = some p) : c.linkPick e = (c, some p) := by
  have timed : [1, 2, 3].findSome? (fun k => c.driveHead e k) = some p := by
    obtain rfl | rfl | rfl : k = 1 ∨ k = 2 ∨ k = 3 := by omega
    · simp [head]
    · simp [head, before 1 (by simp) (by simp)]
    · simp [head, before 1 (by simp) (by simp), before 2 (by simp) (by simp)]
  simp [Hub.linkPick, first, timed]

/-- With no head of C0 to C3 the round robin chooses. -/
theorem Hub.linkPick_roundRobin {c : Hub} {e : Nat} (first : c.firstHead e = none) (drive : ∀ j ∈ [1, 2, 3], c.driveHead e j = none) :
    c.linkPick e = Hub.drrNext e 80 c := by
  have timed : [1, 2, 3].findSome? (fun k => c.driveHead e k) = none := List.findSome?_eq_none_iff.mpr drive
  simp [Hub.linkPick, first, timed]

/-- The drive window's busy time grows with what C0 to C3 send in it (R36). -/
def Hub.busied (c : Hub) (e : Nat) (p : Held) : Hub :=
  let ns := p.pkt.size * 8000 / max 1 (c.get (O.payloadRate e))
  c.when (decide (p.q % 8 ≤ 3) && c.flag (H.driveOpen e)) fun c => c.put (H.driveBusy e) (c.get (H.driveBusy e) + ns)

/-- The entry of a packet of class k in the stage of its port. -/
def Held.stagedFor (p : Held) (e k : Nat) : Staged := ⟨e, k, p.cells, (p.pkt.rewrite p.outTid k).toBytes, false, p.tid⟩

/-- The hub with a packet sent and staged. -/
def Hub.sentOn (c : Hub) (e : Nat) (p : Held) : Hub :=
  let c := (c.dequeued e p).busied e p
  { c with staged := c.staged ++ [p.stagedFor e (p.q % 8)] }

theorem exec_egressSelect (port : Port) (read : CellRead) (s : State) : exec (.egressSelect port read) s = execEgressSelect port read s := by rfl

/-- A choice of the link's egress whose packet reads sound stages it. -/
theorem execEgressSelect_picked {s : State} {port : Port} {p : Held} {d : Hub} (cell : Fin 196608) (on : s.hub.domainsOn = true)
    (keeps : s.hub.KeepsHeads) (ready : s.hub.egressReady port = true) (pick : (s.hub.notedHeads port).linkPick port = (d, some p))
    (sound : p.marked = none) : execEgressSelect port ⟨.clean, cell, 0⟩ s = .next { s with hub := (d.sentOn port p).settle } := by
  have drops : (s.hub.each (List.range 8) fun c k => Hub.dropDrained c.held.length (queueOf port k) c) = s.hub := Hub.dropHeads_keeps keeps port
  have noted : (s.hub.each [1, 2, 3] fun c k => c.noteHeldOver port k) = s.hub.notedHeads port := rfl
  have sent (d : Hub) {p : Held} (sound : p.marked = none) := Hub.dequeue_clean d port cell sound
  rw [execEgressSelect, onDomains_on _ on]
  unfold Hub.linkPick at pick
  simp only [drops, ready, noted, Bool.not_true, Bool.false_eq_true, if_false]
  cases first : (s.hub.notedHeads port).firstHead port with
  | some x =>
    simp only [first, Prod.mk.injEq, Option.some.injEq] at pick
    obtain ⟨rfl, rfl⟩ := pick
    simp only [sent _ sound, port.isLt, if_true]
    rfl
  | none =>
    cases timed : [1, 2, 3].findSome? fun k => (s.hub.notedHeads port).driveHead port k with
    | some x =>
      simp only [first, timed, Prod.mk.injEq, Option.some.injEq] at pick
      obtain ⟨rfl, rfl⟩ := pick
      simp only [sent _ sound, port.isLt, if_true]
      rfl
    | none =>
      simp only [first, timed] at pick
      simp only [pick, sent _ sound, port.isLt, if_true]
      rfl
/-- The indexes of an egress. -/
def egressIndexes : List Nat := [0x4105, 0x4201, 0x4210, 0x4220, 0x4260, 0x4262]

/-- From c, a packet of class k at a port has been sent where the choice left d. -/
structure LinkSent (port k : Nat) (p : Held) (c d f : Hub) : Prop where
  indexes : OnlyIndexes c f egressIndexes
  staged : f.staged = c.staged ++ [p.stagedFor port k]
  length : f.held.length + 1 = c.held.length
  dequeued : OnlyObjects (d.dequeued port p) f [H.driveBusy 0, H.pcieGiven 0]

/-- What the choice itself wrote stands. -/
theorem LinkSent.kept {port k : Nat} {p : Held} {c d f : Hub} (h : LinkSent port k p c d f) : OnlyObjects d f (H.driveBusy 0 :: H.pcieGiven 0 :: dequeueRegs) :=
  (d.dequeued_onlyObjects port p).mono.trans h.dequeued.mono

/-- The stage entry and the busy time keep what the dequeue wrote. -/
theorem Hub.busied_registersOnly (c : Hub) (e : Nat) (p : Held) : RegistersOnly c (c.busied e p) :=
  (RegistersOnly.refl c).when _ fun d => (RegistersOnly.refl d).put _ _

theorem Hub.busied_onlyObjects (c : Hub) (e : Nat) (p : Held) : OnlyObjects c (c.busied e p) [H.driveBusy 0] :=
  (OnlyObjects.refl c _).when _ fun d => (OnlyObjects.refl d _).put (H.driveBusy e) _

/-- A command that changes the hub alone completes with it. -/
theorem Answers.of_next {i : Instr} {s : State} {c : Hub} {P : Hub → Prop} (run : exec i s = .next { s with hub := c }) (h : P c) : Answers i s P :=
  ⟨_, run, rfl, rfl, h⟩

/-- The egress of a port sends the packet that the choice finds, and nothing else waits for the sweep behind it. -/
theorem egressSelect_sends {s : State} {port : Port} {k : Nat} {p : Held} {d : Hub} {P : Hub → Prop} (cell : Fin 196608)
    (on : s.hub.domainsOn = true) (keeps : s.hub.KeepsHeads) (ready : s.hub.egressReady port = true)
    (pick : (s.hub.notedHeads port).linkPick port = (d, some p)) (choice : RegistersOnly (s.hub.notedHeads port) d)
    (indexes : OnlyIndexes (s.hub.notedHeads port) d egressIndexes) (head : (s.hub.notedHeads port).headPacket (queueOf port k) = some p)
    (high : k ≤ 7) (mgmt : s.hub.mgmtWait = []) (tlps : s.hub.tlpWait = []) (sound : p.marked = none)
    (h : ∀ f, LinkSent port k p s.hub d f → P f) : Answers (.egressSelect port ⟨.clean, cell, 0⟩) s P := by
  have same := s.hub.notedHeads_sameChoice port
  obtain ⟨member, queue⟩ := Hub.mem_of_headPacket head
  have cls : p.q % 8 = k := by rw [queue, queueOf]; omega
  obtain ⟨held, staged, -, -, -, mgmtWait, tlpWait, -⟩ := choice.fields
  obtain ⟨held', staged', -, -, -, mgmtWait', tlpWait', -⟩ :=
    (d.dequeued_registersOnly port p).trans ((d.dequeued port p).busied_registersOnly port p) |>.fields
  have quiet : (d.sentOn port p).settle = (d.sentOn port p).returnPcie :=
    Hub.settle_quiet (by rw [Hub.sentOn, mgmtWait', mgmtWait, same.mgmtWait, mgmt]) (by rw [Hub.sentOn, tlpWait', tlpWait, same.tlpWait, tlps])
  have returned := (d.sentOn port p).returnPcie_returned
  have sent : OnlyObjects (d.dequeued port p) (d.sentOn port p).returnPcie [H.driveBusy 0, H.pcieGiven 0] := by
    have busy : OnlyObjects (d.dequeued port p) (d.sentOn port p) [H.driveBusy 0] := (d.dequeued port p).busied_onlyObjects port p
    exact busy.mono.trans returned.objects.mono
  have run : exec (.egressSelect port ⟨.clean, cell, 0⟩) s = .next { s with hub := (d.sentOn port p).returnPcie } := by
    rw [exec_egressSelect, execEgressSelect_picked cell on keeps ready pick sound, quiet]
  refine .of_next run (h _ ⟨?_, ?_, ?_, sent⟩)
  · have noted : OnlyIndexes s.hub (s.hub.notedHeads port) egressIndexes := same.regs.onlyIndexes (by simp [namesIndex, egressIndexes])
    exact .after sent.onlyIndexes (.after (d.dequeued_onlyObjects port p).onlyIndexes (.after indexes noted))
  · rw [returned.staged, Hub.sentOn, staged', staged, same.tests.staged, cls]
  · have erased : (d.sentOn port p).returnPcie.held = (s.hub.notedHeads port).held.erase p := by rw [returned.held, Hub.sentOn, held', held]
    rw [erased, List.length_erase_add_one member, same.length]

end Sys2Proof.Machine
end

section
/-! The egress of an adapter (R136): the first head of the lowest class passes to its endpoint. -/
namespace Sys2Proof.Machine

-- One theorem after another: elaborated side by side they take more memory than the check allows.
set_option Elab.async false

/-- The head of C0 to C3 that an endpoint takes. -/
def Hub.adapterHead (c : Hub) (e : Nat) : Option Held :=
  [0, 1, 2, 3].findSome? fun k => (c.headPacket (queueOf e k)).filter fun p =>
    if k = 0 then !(e == 32 && c.handingOver) else p.tid == 1 || !c.flag H.isoHold

/-- Outside a handover and an isochronous hold the lowest class with a head goes first. -/
theorem Hub.adapterHead_lowest {c : Hub} {e k : Nat} {p : Held} (high : k ≤ 3) (before : ∀ j, j < k → c.headPacket (queueOf e j) = none)
    (head : c.headPacket (queueOf e k) = some p) (free : k = 0 → (e == 32 && c.handingOver) = false) (unheld : k ≠ 0 → c.flag H.isoHold = false) :
    c.adapterHead e = some p := by
  unfold Hub.adapterHead
  obtain rfl | rfl | rfl | rfl : k = 0 ∨ k = 1 ∨ k = 2 ∨ k = 3 := by omega
  · simp [head, free rfl]
  · simp [head, before 0 (by simp), unheld (by simp)]
  · simp [head, before 0 (by simp), before 1 (by simp), unheld (by simp)]
  · simp [head, before 0 (by simp), before 1 (by simp), before 2 (by simp), unheld (by simp)]

theorem exec_adapterEgress (e : Fin 9) (read : CellRead) (s : State) : exec (.adapterEgress e read) s = execAdapterEgress e read s := by rfl

/-- An endpoint beside those of PCIe and Ethernet takes the packet chosen as it is. -/
theorem execAdapterEgress_picked {s : State} {e : Fin 9} {p : Held} (cell : Fin 196608) (on : s.hub.domainsOn = true) (keeps : s.hub.KeepsHeads)
    (beyond : 3 ≤ e.val) (pick : s.hub.adapterHead (24 + e.val) = some p) (sound : p.marked = none)
    (plain : ¬(24 + e.val = 32 ∧ badRig (p.pkt.rewrite p.tid (p.q % 8)) = true)) :
    execAdapterEgress e ⟨.clean, cell, 0⟩ s
      = .next { s with hub := ((s.hub.dequeued (24 + e.val) p).emit (.packet (24 + e.val) (p.pkt.rewrite p.tid (p.q % 8)))).settle } := by
  have drops : (s.hub.each (List.range 8) fun c k => Hub.dropDrained c.held.length (queueOf (24 + e.val) k) c) = s.hub :=
    Hub.dropHeads_keeps keeps (24 + e.val)
  have sent := Hub.dequeue_clean s.hub (24 + e.val) cell sound
  rw [if_neg (by omega)] at sent
  unfold Hub.adapterHead at pick
  rw [execAdapterEgress, onDomains_on _ on]
  simp only [drops, pick, sent]
  rw [if_neg (by omega), if_neg (by omega), if_neg plain]

/-- From c, an endpoint has taken a packet. -/
structure Passed (e : Nat) (p : Held) (c f : Hub) : Prop where
  indexes : OnlyIndexes c f egressIndexes
  held : f.held = c.held.erase p
  out : Out.packet e (p.pkt.rewrite p.tid (p.q % 8)) ∈ f.out

theorem adapterEgress_passes {s : State} {e : Fin 9} {p : Held} {P : Hub → Prop} (cell : Fin 196608) (on : s.hub.domainsOn = true)
    (keeps : s.hub.KeepsHeads) (beyond : 3 ≤ e.val) (pick : s.hub.adapterHead (24 + e.val) = some p) (mgmt : s.hub.mgmtWait = [])
    (tlps : s.hub.tlpWait = []) (sound : p.marked = none) (plain : ¬(24 + e.val = 32 ∧ badRig (p.pkt.rewrite p.tid (p.q % 8)) = true))
    (h : ∀ f, Passed (24 + e.val) p s.hub f → P f) : Answers (.adapterEgress e ⟨.clean, cell, 0⟩) s P := by
  obtain ⟨held, -, -, -, -, mgmtWait, tlpWait, -⟩ := (s.hub.dequeued_registersOnly (24 + e.val) p).fields
  have quiet (x : Out) : ((s.hub.dequeued (24 + e.val) p).emit x).settle = ((s.hub.dequeued (24 + e.val) p).emit x).returnPcie :=
    Hub.settle_quiet (mgmtWait.trans mgmt) (tlpWait.trans tlps)
  have run := (exec_adapterEgress e _ s).trans (execAdapterEgress_picked cell on keeps beyond pick sound plain)
  rw [quiet] at run
  have returned := ((s.hub.dequeued (24 + e.val) p).emit (.packet (24 + e.val) (p.pkt.rewrite p.tid (p.q % 8)))).returnPcie_returned
  refine .of_next run (h _ ⟨?_, returned.held.trans held, returned.out (List.mem_append_right _ (List.mem_singleton.mpr rfl))⟩)
  exact .after returned.objects.onlyIndexes (.emit (s.hub.dequeued_onlyObjects _ p).onlyIndexes _)

end Sys2Proof.Machine
end

section
/-! The stroke and the egress (O10): the boundary, the end of the drive window, a plan, and the cases of the egress. -/
namespace Sys2Proof.Machine

-- One theorem after another: elaborated side by side they take more memory than the check allows.
set_option Elab.async false

/-! ## The boundary, the drive window and a plan -/

/-- The boundary counts the stroke, and changes of the dictionary what its operations write (R108). -/
theorem Hub.boundary_frame (c : Hub) (m : Mems) : OnlyIndexes c (if c.domainsOn then c.boundary m else c.nextStroke) (0xA004 :: strokeIndexes)
    ∧ (if c.domainsOn then c.boundary m else c.nextStroke).get O.strokeNumber = (c.stroke + 1) % 2 ^ 64 := by
  have counted : OnlyIndexes c c.nextStroke (0xA004 :: strokeIndexes) := c.nextStroke_onlyRegs.onlyIndexes (by simp [namesIndex])
  split
  · exact ⟨.after ((c.boundary_inStroke m).mono (List.subset_cons_self _ _)) counted,
      ((c.boundary_inStroke m).get O.strokeNumber).trans c.nextStroke_strokeNumber⟩
  · exact ⟨counted, c.nextStroke_strokeNumber⟩

/-- The hub whose drive window at a port has closed: its busy time is shown, and the clock stands at the window's end at least (R103, R36). -/
def Hub.windowClosed (c : Hub) (p : Nat) : Hub :=
  { (c.putB (H.driveOpen p) false).put (O.egressStrokeDriveBusy p) (c.get (H.driveBusy p)) with
    now := max c.now (c.boundaryAt + c.get O.driveWindow) }

theorem Hub.windowClosed_onlyRegs (c : Hub) (p : Nat) : OnlyRegs c (c.windowClosed p) [H.driveOpen p, O.egressStrokeDriveBusy p] :=
  have regs : OnlyRegs c ((c.putB (H.driveOpen p) false).put (O.egressStrokeDriveBusy p) (c.get (H.driveBusy p)))
      [H.driveOpen p, O.egressStrokeDriveBusy p] := (OnlyRegs.put (.refl _ _) (by simp) _).put (by simp) _
  regs.trans (.of_regs rfl)

theorem Hub.windowClosed_driveOpen (c : Hub) (p : Nat) : (c.windowClosed p).flag (H.driveOpen p) = false := by
  have closed : (c.windowClosed p).get (H.driveOpen p) = (c.putB (H.driveOpen p) false).get (H.driveOpen p) := Hub.get_put_other _ _ (by simp)
  rw [Hub.flag, closed, Hub.putB, Hub.get_put_same]
  rfl

/-- The drive window that closes with no retuning due changes nothing else. -/
theorem exec_driveWindowClose {s : State} {p : Port} (on : s.hub.domainsOn = true) (opened : s.hub.flag (H.driveOpen p) = true)
    (tuned : s.hub.flag (H.retunePending p) = false) : exec (.driveWindowClose p) s = .next { s with hub := s.hub.windowClosed p } := by
  have arm : exec (.driveWindowClose p) s = execDriveWindowClose p s := rfl
  have window : ((s.hub.putB (H.driveOpen p) false).put (O.egressStrokeDriveBusy p) (s.hub.get (H.driveBusy p))).get O.driveWindow
      = s.hub.get O.driveWindow := by
    rw [Hub.get_put_other _ _ (by simp), Hub.putB, Hub.get_put_other _ _ (by simp)]
  have stillTuned : ¬(s.hub.windowClosed p).flag (H.retunePending p) = true := by
    rw [Hub.flag, s.hub.windowClosed_onlyRegs p _ (by simp), ← Hub.flag, tuned]
    simp
  rw [arm, execDriveWindowClose, onDomains_on _ on]
  dsimp only
  rw [if_neg (by simp [opened]), window]
  exact congrArg (fun c => Host.Outcome.next { s with hub := c }) (if_neg stillTuned)

/-- A plan shows its grants as NEXT of theirs (R127). -/
theorem Hub.showNextGrants_onlyObjects (c : Hub) : OnlyObjects c c.showNextGrants [O.grantGrant 0] := by
  have hidden : OnlyObjects c (c.each ((c.instances (O.grantNext 0)).filter (8192 ≤ ·)) fun c t => c.restore (O.grantNext t)) [O.grantGrant 0] :=
    (OnlyObjects.refl c _).each _ fun d t => (OnlyObjects.refl d _).put (O.grantNext t) _
  unfold Hub.showNextGrants
  dsimp only
  split
  · exact hidden.each _ fun d x => (OnlyObjects.refl d _).put _ _
  · exact hidden

theorem Hub.showNextGrants_registersOnly (c : Hub) : RegistersOnly c c.showNextGrants := by
  have hidden : RegistersOnly c (c.each ((c.instances (O.grantNext 0)).filter (8192 ≤ ·)) fun c t => c.restore (O.grantNext t)) :=
    (RegistersOnly.refl c).each _ fun d t => (RegistersOnly.refl d).put _ _
  unfold Hub.showNextGrants
  dsimp only
  split
  · exact hidden.each _ fun d x => (RegistersOnly.refl d).put _ _
  · exact hidden

/-- A PLAN for a boundary ahead joins the plans kept (R127). -/
theorem plan_answers {s : State} {plan : PlanPacket} (on : s.hub.domainsOn = true) (ahead : s.hub.stroke < plan.effective.toNat)
    (joined : s.hub.get O.treeState = 2) (crew : s.hub.get O.role ≠ 2) :
    Answers (.plan plan) s fun d => OnlyObjects s.hub d [O.grantGrant 0] ∧ d.plan.getLast? = some plan ∧ d.out = s.hub.out := by
  have arm : exec (.plan plan) s = execPlan plan s := rfl
  have kept (xs : List PlanPacket) : OnlyObjects s.hub { s.hub with plan := xs } [O.grantGrant 0] := .of_regs rfl
  refine .of_domains arm on ?_
  rw [if_pos ⟨ahead, beq_iff_eq.mpr joined, beq_eq_false_iff_ne.mpr crew⟩]
  refine ⟨(kept _).trans (Hub.showNextGrants_onlyObjects _), ?_, ?_⟩
  · obtain ⟨regs, lines, draws, shown⟩ := Hub.showNextGrants_registersOnly
      { s.hub with plan := (s.hub.plan.filter fun p : PlanPacket => p.effective != plan.effective || p.part != plan.part) ++ [plan] }
    rw [shown]
    exact List.getLast?_concat
  · obtain ⟨-, -, -, -, -, -, -, out⟩ := (Hub.showNextGrants_registersOnly
      { s.hub with plan := (s.hub.plan.filter fun p : PlanPacket => p.effective != plan.effective || p.part != plan.part) ++ [plan] }).fields
    exact out

end Sys2Proof.Machine
end

section
/-! The cases of the egress of a port, from the hub before it (O10). -/
namespace Sys2Proof.Machine

-- One theorem after another: elaborated side by side they take more memory than the check allows.
set_option Elab.async false

section Egress

variable {s : State} {port : Port} {k : Nat} {p : Held} {P : Hub → Prop}

/-- What the round robin reads is as it was before the heads were noted. -/
theorem Hub.notedHeads_get (c : Hub) (e : Nat) {o : Obj} (other : o.key ≠ (O.egressStrokeHeldOver e).key) : (c.notedHeads e).get o = c.get o :=
  (c.notedHeads_sameChoice e).regs o (by simpa using other)

@[simp] theorem Hub.notedHeads_drrClass (c : Hub) (e : Nat) : (c.notedHeads e).get (H.drrClass e) = c.get (H.drrClass e) := c.notedHeads_get e (by simp)
@[simp] theorem Hub.notedHeads_drrLooked (c : Hub) (e : Nat) : (c.notedHeads e).get (H.drrLooked e) = c.get (H.drrLooked e) := c.notedHeads_get e (by simp)
@[simp] theorem Hub.notedHeads_deficitBytes (c : Hub) (e q : Nat) : (c.notedHeads e).get (O.deficitBytes q) = c.get (O.deficitBytes q) :=
  c.notedHeads_get e (by simp)
@[simp] theorem Hub.notedHeads_quantumBytes (c : Hub) (e q : Nat) : (c.notedHeads e).get (O.quantumBytes q) = c.get (O.quantumBytes q) :=
  c.notedHeads_get e (by simp)

/-- With no head of C0 to C3 the round robin's packet is sent. -/
theorem egressSelect_roundRobin {d : Hub} (cell : Fin 196608) (on : s.hub.domainsOn = true) (keeps : s.hub.KeepsHeads)
    (ready : s.hub.egressReady port = true) (first : s.hub.firstHead port = none) (drive : ∀ j ∈ [1, 2, 3], s.hub.driveHead port j = none)
    (pick : Hub.drrNext port 80 (s.hub.notedHeads port) = (d, some p)) (choice : RegistersOnly (s.hub.notedHeads port) d)
    (indexes : OnlyIndexes (s.hub.notedHeads port) d egressIndexes) (low : 4 ≤ k) (high : k ≤ 7) (head : s.hub.recoveryHead port k = some p)
    (mgmt : s.hub.mgmtWait = []) (tlps : s.hub.tlpWait = []) (sound : p.marked = none) (h : ∀ f, LinkSent port k p s.hub d f → P f) :
    Answers (.egressSelect port ⟨.clean, cell, 0⟩) s P := by
  have same := s.hub.notedHeads_sameChoice port
  have chosen : (s.hub.notedHeads port).linkPick port = (d, some p) :=
    (Hub.linkPick_roundRobin (same.first.trans first) fun j listed => (same.drive j).trans (drive j listed)).trans pick
  exact egressSelect_sends cell on keeps ready chosen choice indexes (Hub.headPacket_of_recoveryHead ((same.recovery k low high).trans head)) high
    mgmt tlps sound h

end Egress

/-- Settles O10: the boundary's frame is that of its operations, and the egress sends what its choice finds, whatever heads it has noted as held over. -/
theorem strokeAndEgressCommands : Obligations.StrokeAndEgressCommands := by
  unfold Obligations.StrokeAndEgressCommands
  refine ⟨?boundary, ?window, ?plan, ?management, ?umpire, ?drive, ?sends, ?passes, ?skips, ?adapter⟩
  case boundary =>
    intro s ports
    obtain ⟨frame, number⟩ := s.hub.boundary_frame s.mem
    exact strokeBoundary_answersAll ports ⟨frame.mono, number, rfl⟩
  case window =>
    intro s p on opened tuned
    exact .of_next (exec_driveWindowClose on opened tuned) ⟨s.hub.windowClosed_driveOpen p, rfl, s.hub.windowClosed_onlyRegs p⟩
  case plan =>
    intro s plan on ahead joined crew
    exact plan_answers on ahead joined crew
  case management =>
    intro s port p cell on alone queue seg mgmtId credit active unstaged room mgmt tlps sound
    have lossless : p.q % 8 = 0 := by rw [queue, queueOf]; omega
    have head : s.hub.headPacket (queueOf port 0) = some p := by simp [Hub.headPacket, alone, queue, seg]
    have first : s.hub.firstHead port = some p := by
      simp [Hub.firstHead, head, Hub.creditFor, Hub.creditBound, unstaged, credit]
    have ready : s.hub.egressReady port = true := by simp [Hub.egressReady, active, unstaged, room]
    have same := s.hub.notedHeads_sameChoice port
    have noted := same.first.trans first
    refine egressSelect_sends cell on (Hub.keepsHeads_of_alone alone mgmtId lossless) ready (Hub.linkPick_first noted) (.refl _) (.refl _ _)
      (Hub.headPacket_of_firstHead noted) (by omega) mgmt tlps sound fun f sent => ⟨sent.indexes.mono, ?_, ?_⟩
    · exact List.length_eq_zero_iff.mp (by simpa [alone] using sent.length)
    · rw [sent.staged, unstaged, Held.stagedFor, mgmtId]
      rfl
  case umpire =>
    intro s p cell on alone queue seg mgmtId free mgmt tlps sound
    have lossless : p.q % 8 = 0 := by rw [queue, queueOf]
    have head : s.hub.headPacket (queueOf 32 0) = some p := by simp [Hub.headPacket, alone, queue, seg]
    have pick : s.hub.adapterHead (24 + (8 : Fin 9).val) = some p :=
      Hub.adapterHead_lowest (k := 0) (by omega) (fun j below => by omega) head (fun _ => by simp [free]) (by simp)
    refine adapterEgress_passes cell on (Hub.keepsHeads_of_alone alone mgmtId lossless) (by decide) pick mgmt tlps sound
      (by simp [badRig, Packet.rewrite, mgmtId]) fun f passed => ⟨passed.indexes.mono, ?_, ?_⟩
    · rw [passed.held, alone, List.erase_cons_head]
    · have out := passed.out
      rw [mgmtId, lossless] at out
      exact out
  case drive =>
    intro s port k p cell on ready low high first before head stage undrained mgmt tlps sound
    have same := s.hub.notedHeads_sameChoice port
    have chosen := (same.drive k).trans head
    have pick := Hub.linkPick_drive (same.first.trans first) low high (fun j listed below => (same.drive j).trans (before j listed below)) chosen
    have headed := Hub.headPacket_of_driveHead chosen
    have cls : p.q % 8 = k := by rw [(Hub.mem_of_headPacket headed).2, queueOf]; omega
    refine egressSelect_sends cell on (Hub.keepsHeads_of_undrained stage undrained) ready pick (.refl _) (.refl _ _) headed (by omega) mgmt tlps sound
      fun f sent => ⟨sent.indexes.mono, sent.staged, sent.length, fun shaper => ?_, fun fits => ?_, fun sampled => ?_⟩
    · rw [Hub.getI_of_get (sent.dequeued.get (H.bucket p.shaper port)), Hub.dequeued_bucket _ _ shaper,
        Hub.getI_of_get (s.hub.notedHeads_get port (by simp))]
    · have unnoted : (s.hub.notedHeads port).get (O.egressStrokeIsoBytes port) = s.hub.get (O.egressStrokeIsoBytes port) :=
        s.hub.notedHeads_get port (by simp)
      rw [sent.dequeued.get (O.egressStrokeIsoBytes port), Hub.dequeued_isoBytes _ _ (by omega) (unnoted ▸ fits), unnoted]
    · have bin := (s.hub.notedHeads port).dequeued_bin port sampled
      rw [same.tests.now, s.hub.notedHeads_get port (by simp), s.hub.notedHeads_get port (by simp)] at bin
      exact (sent.dequeued.get (O.delayHistBin p.q _)).trans bin
  case sends =>
    intro s port k p cell on ready turn low high first drive head unlooked covered fits stage undrained mgmt tlps sound
    have same := s.hub.notedHeads_sameChoice port
    obtain ⟨d, pick, result⟩ := Hub.drrNext_sends (by simpa using turn) low high ((same.recovery k low high).trans head) (by simpa using unlooked)
      (by simpa using covered) (by simpa using fits) 79
    refine egressSelect_roundRobin cell on (Hub.keepsHeads_of_undrained stage undrained) ready first drive pick result.registers
      (result.regs.onlyIndexes (by simp [namesIndex, egressIndexes])) low high head mgmt tlps sound
      fun f sent => ⟨sent.indexes.mono, sent.staged, sent.length, ?_, ?_, ?_⟩
    · simp [sent.kept.get (O.deficitBytes (queueOf port k)), result.deficit]
    · simp [sent.kept.get (H.drrClass port), result.regs (H.drrClass port), turn]
    · rw [sent.kept.get (H.drrLooked port), result.looked]
  case passes =>
    intro s port was k h p cell on ready turn low high next first drive before unlooked short head covered fits size stage undrained mgmt tlps sound
    have same := s.hub.notedHeads_sameChoice port
    obtain ⟨low', high'⟩ := nextClass_range low high next
    obtain ⟨d, advance, passed⟩ := Hub.drrNext_passes (by simpa using turn) low high ((same.recovery was low high).trans before)
      (by simpa using unlooked) (by simpa using short) size 79
    obtain ⟨f, sends, registers, regs, deficit, turned⟩ := passed.sends low high next ((same.recovery k low' high').trans head)
      (by simpa using covered) (by simpa using fits) 78
    refine egressSelect_roundRobin cell on (Hub.keepsHeads_of_undrained stage undrained) ready first drive (advance.trans sends) registers
      (regs.onlyIndexes (by simp [namesIndex, egressIndexes])) low' high' head mgmt tlps sound
      fun g sent => ⟨sent.indexes.mono, sent.staged, sent.length, ?_, ?_⟩
    · simp [sent.kept.get (O.deficitBytes (queueOf port was)), deficit]
    · rw [sent.kept.get (H.drrClass port), turned]
  case skips =>
    intro s port was k p cell on ready turn low high next first drive empty head covered fits stage undrained mgmt tlps sound
    have same := s.hub.notedHeads_sameChoice port
    obtain ⟨low', high'⟩ := nextClass_range low high next
    have chosen := (same.recovery k low' high').trans head
    obtain ⟨d, advance, passed⟩ := Hub.drrNext_skips (by simpa using turn) high ((same.backlogged _).trans empty)
      (Hub.drrNext_eligible low' high' chosen) 79
    obtain ⟨f, sends, registers, regs, deficit, turned⟩ := passed.sends low high next chosen (by simpa using covered) (by simpa using fits) 78
    refine egressSelect_roundRobin cell on (Hub.keepsHeads_of_undrained stage undrained) ready first drive (advance.trans sends) registers
      (regs.onlyIndexes (by simp [namesIndex, egressIndexes])) low' high' head mgmt tlps sound
      fun g sent => ⟨sent.indexes.mono, sent.staged, sent.length, ?_, ?_⟩
    · rw [sent.kept.get (O.deficitBytes (queueOf port was)), deficit]
    · rw [sent.kept.get (H.drrClass port), turned]
  case adapter =>
    intro s e k p cell on low' high' high before head unheld stage undrained mgmt tlps sound
    have cls : p.q % 8 = k := by rw [(Hub.mem_of_headPacket head).2, queueOf]; omega
    have other : 24 + e.val ≠ 32 := by omega
    have pick := Hub.adapterHead_lowest high before head (fun _ => by simp [other]) fun _ => unheld
    refine adapterEgress_passes cell on (Hub.keepsHeads_of_undrained stage undrained) low' pick mgmt tlps sound (fun umpire => other umpire.1)
      fun f passed => ⟨passed.indexes.mono, passed.held, cls ▸ passed.out⟩

end Sys2Proof.Machine
end

section
/-! A grant that waits for nothing (O11): a store may list a register at its default value, and the boundary counts down every wait that it lists, so
a listed wait of 0 puts the free new grant into force. -/
namespace Sys2Proof.Machine

-- One theorem after another: elaborated side by side they take more memory than the check allows.
set_option Elab.async false

/-! ## A key between those of a store -/

theorem Store.find_of_absent {k : Key} : ∀ {st : Store}, (∀ e ∈ st, e.1 ≠ k) → st.find k = none
  | [], _ => rfl
  | (a, v) :: rest, absent => by
    rw [Store.find, if_neg (absent (a, v) (by simp))]
    exact Store.find_of_absent fun e listed => absent e (List.mem_cons_of_mem _ listed)

theorem Store.insert_between {k : Key} (v : Nat) {post : Store} (after : ∀ e ∈ post, e.1 ≠ k ∧ k.lt e.1 = true) :
    ∀ {pre : Store}, (∀ e ∈ pre, e.1 ≠ k ∧ k.lt e.1 = false) → (pre ++ post).insert k v = pre ++ (k, v) :: post
  | [], _ => by
    cases post with
    | nil => rfl
    | cons e rest =>
      obtain ⟨other, less⟩ := after e (by simp)
      rw [List.nil_append, Store.insert, if_neg other, if_pos less, List.nil_append]
  | (a, w) :: rest, before => by
    obtain ⟨other, less⟩ := before (a, w) (by simp)
    rw [List.cons_append, Store.insert, if_neg other, if_neg (by simp [less]),
      Store.insert_between v after fun e listed => before e (List.mem_cons_of_mem _ listed), List.cons_append]

/-! ## The depths of empty queues -/

/-- The first bins of n queues, each with one sample. -/
def depthBins (n : Nat) : Store := (List.range n).map fun q => ((O.depthHistBin q 0).key, 1)

/-- The depth of queue q takes its sample. -/
def Hub.sampleDepth (c : Hub) (q : Nat) : Hub := c.binUp (O.depthHistBin q (histBin (cellSum (c.queue q)) (c.get (O.histCfgDepthShift q))))

section Samples

variable {c : Hub} {pre post : Store} (empty : c.held = []) (low : ∀ e ∈ pre, e.1.obj < 0x426100) (high : ∀ e ∈ post, 0x426100 < e.1.obj)
include empty low high

/-- An empty queue's sample joins those of the queues before it, between the objects before the bins' and those behind it. -/
theorem Hub.sampleDepth_empty {n : Nat} (regs : c.regs = pre ++ depthBins n ++ post) :
    c.sampleDepth n = { c with regs := pre ++ depthBins (n + 1) ++ post } := by
  have before : ∀ e ∈ pre ++ depthBins n, e.1 ≠ (O.depthHistBin n 0).key ∧ (O.depthHistBin n 0).key.lt e.1 = false := by
    intro e listed
    rcases List.mem_append.mp listed with outside | bin
    · have below := low e outside
      have other : (O.depthHistBin n 0).key.obj ≠ e.1.obj := Nat.ne_of_gt below
      exact ⟨fun same => other (by rw [same]), by rw [Key.lt, if_neg other]; exact decide_eq_false (Nat.lt_asymm below)⟩
    · obtain ⟨q, first, rfl⟩ := List.mem_map.mp bin
      have below := List.mem_range.mp first
      simp [Key.lt]
      omega
  have after : ∀ e ∈ post, e.1 ≠ (O.depthHistBin n 0).key ∧ (O.depthHistBin n 0).key.lt e.1 = true := by
    intro e listed
    have above := high e listed
    have other : (O.depthHistBin n 0).key.obj ≠ e.1.obj := Nat.ne_of_lt above
    exact ⟨fun same => other (by rw [same]), by rw [Key.lt, if_neg other]; exact decide_eq_true above⟩
  have absent : ∀ e ∈ pre ++ depthBins n ++ post, e.1 ≠ (O.depthHistBin n 0).key := by
    intro e listed
    rcases List.mem_append.mp listed with front | back
    · exact (before e front).1
    · exact (after e back).1
  have bins : pre ++ depthBins (n + 1) ++ post = pre ++ depthBins n ++ ((O.depthHistBin n 0).key, 1) :: post := by
    simp [depthBins, List.range_succ]
  have first (shift : Nat) : histBin (cellSum (c.queue n)) shift = 0 := by simp [Hub.queue, empty, cellSum, histBin]
  have unsampled : c.get (O.depthHistBin n 0) = 0 := by rw [Hub.get, regs, Store.find_of_absent absent]; rfl
  rw [Hub.sampleDepth, first, Hub.binUp, unsampled, bins, ← Store.insert_between 1 after before, ← regs]
  rfl

/-- Every queue, empty, has its sample in its first bin. -/
theorem Hub.sampleDepths_empty (regs : c.regs = pre ++ post) : c.sampleDepths = { c with regs := pre ++ depthBins 264 ++ post } := by
  have sampled (n : Nat) : c.each (List.range n) Hub.sampleDepth = { c with regs := pre ++ depthBins n ++ post } := by
    unfold Hub.each
    induction n with
    | zero => simp [depthBins, ← regs]
    | succ n ih =>
      rw [List.range_succ, List.foldl_append, ih]
      exact Hub.sampleDepth_empty (c := { c with regs := pre ++ depthBins n ++ post }) empty low high rfl
  exact sampled 264

end Samples

/-! ## The listed wait -/

/-- A hub that runs, whose store lists the wait of entry 3's grant of 100 at its default 0. -/
def Hub.withListedWait : Hub :=
  { Hub.reset with regs := [((O.grantGrant 3).key, 100), ((H.grantWait 3).key, 0), (H.running.key, 1)] }

/-- The hub with its depths sampled. -/
theorem Hub.withListedWait_sampled : Hub.withListedWait.boundaryStart.sampleDepths = { Hub.withListedWait.boundaryStart with
    regs := [((O.grantGrant 3).key, 100)] ++ depthBins 264
      ++ [(O.strokeNumber.key, 1), (H.isoHold.key, 1), (H.coxBoundaries.key, 1), ((H.grantWait 3).key, 0), (H.running.key, 1)] } :=
  Hub.sampleDepths_empty (by decide +kernel) (by decide) (by decide) (by decide +kernel)

/-- The boundary clears the grant of the listed wait. -/
theorem Hub.withListedWait_boundary : (Hub.withListedWait.boundary Mems.reset).get (O.grantGrant 3) = 0 := by
  unfold Hub.boundary Hub.boundarySteps
  rw [Hub.withListedWait_sampled]
  decide +kernel

/-- Refutes O11: a store that lists the wait of a grant at its default 0 has the grant cleared at the boundary. -/
theorem not_strokeWrites : ¬ Obligations.StrokeWrites := by
  unfold Obligations.StrokeWrites
  rintro ⟨-, -, -, -, -, -, -, -, -, stays, -, -⟩
  have on : Hub.withListedWait.domainsOn = true := by decide
  have kept := (stays ⟨[], Hub.withListedWait, Mems.reset⟩ 3 on (by decide) (by decide)).of_run
    ((exec_strokeBoundary _).trans (onPortsAll_on _ (by decide)))
  simp only [on, Bool.not_true, Bool.false_eq_true, if_false] at kept
  rw [Hub.withListedWait_boundary] at kept
  exact absurd kept (by decide)

end Sys2Proof.Machine
end

section
/-! The sending side of a link (R138–R141, R147–R153): what a fresh LCTRL and a flit change, and the retrain at REPLAY_LIMIT (O51). -/
namespace Sys2Proof.Machine

-- One theorem after another: elaborated side by side they take more memory than the check allows.
set_option Elab.async false

/-- The last operation first: what came before it is read off the hub it is made on. -/
theorem OnlyObjects.after {c d e : Hub} {os : List Obj} (g : OnlyObjects d e os) (h : OnlyObjects c d os) : OnlyObjects c e os := h.trans g

/-! ## What a count leaves -/

@[simp] theorem Hub.count_replay (c : Hub) (o : Obj) (n : Nat) : (c.count o n).replay = c.replay := by unfold Hub.count; split <;> rfl
@[simp] theorem Hub.count_arrived (c : Hub) (o : Obj) (n : Nat) : (c.count o n).arrived = c.arrived := by unfold Hub.count; split <;> rfl

/-! ## A flit sent (R138, R147, R148) -/

/-- The objects that the sending of a LCTRL records (R152, R156). -/
def lctrlSentRegs : List Obj := [H.lctrlSent 0 0, H.lctrlNext 0, H.lctrlMask 0]

theorem Hub.makeLctrl_onlyObjects (c : Hub) (p : Nat) : OnlyObjects c (c.makeLctrl p).2 lctrlSentRegs :=
  (((OnlyObjects.refl c _).put (H.lctrlSent p _) _).put (H.lctrlNext p) _).put (H.lctrlMask p) _

/-- A flit of an unencrypted link carries its bytes as they are. -/
theorem Hub.sendFlit_plain {c : Hub} {p : Nat} (plain : c.flag (H.crypt p) = false) (seq kind first : Nat) (bytes : Bytes) :
    c.sendFlit p seq kind first false bytes
      = (c.makeLctrl p).2.emit (.flit p (flitBytes (seq + 4096 * kind + 65536 * first) (c.makeLctrl p).1 bytes)) := by
  have kept : (c.makeLctrl p).2.flag (H.crypt p) = false := by rw [Hub.flag, (c.makeLctrl_onlyObjects p).get (H.crypt p)]; exact plain
  simp [Hub.sendFlit, kept]

/-- While COUNTER has not run out, the sending of a flit leaves the replay buffer, and of the registers it changes those of LCTRL and COUNTER. -/
theorem Hub.sendFlit_frame {c : Hub} {p : Nat} (counter : c.get (O.txCounter p) + 1 < 2 ^ 48) (seq kind first : Nat) (retrained : Bool)
    (plain : Bytes) :
    OnlyObjects c (c.sendFlit p seq kind first retrained plain) (O.txCounter 0 :: lctrlSentRegs)
      ∧ (c.sendFlit p seq kind first retrained plain).replay = c.replay := by
  have fresh : OnlyObjects c (c.makeLctrl p).2 (O.txCounter 0 :: lctrlSentRegs) := (c.makeLctrl_onlyObjects p).mono
  have below : ¬2 ^ 48 ≤ (c.makeLctrl p).2.get (O.txCounter p) + 1 := by
    rw [(c.makeLctrl_onlyObjects p).get (O.txCounter p)]
    exact Nat.not_le.mpr counter
  unfold Hub.sendFlit
  dsimp only
  split
  · rw [decide_eq_false below]
    exact ⟨(fresh.put (O.txCounter p) _).emit _, rfl⟩
  · exact ⟨fresh.emit _, rfl⟩

/-! ## A flit of the replay buffer (R152, R153) -/

/-- The replay buffer once flit f has been sent again. -/
def resent (p : Nat) (f : ReplayFlit) (xs : List ReplayFlit) : List ReplayFlit :=
  xs.map fun x => if x.port = p ∧ x.seq = f.seq then { f with sends := f.sends + 1 } else x

/-- A send of a flit of the replay buffer counted, before the flit goes out. -/
def Hub.countSend (c : Hub) (p : Nat) (f : ReplayFlit) (again : Bool) : Hub :=
  (({ c with replay := resent p f c.replay } : Hub).count (O.flitsTx p)).when again fun c => c.count (O.replayedFlits p)

theorem Hub.countSend_onlyObjects (c : Hub) (p : Nat) (f : ReplayFlit) (again : Bool) :
    OnlyObjects c (c.countSend p f again) [O.flitsTx 0, O.replayedFlits 0] := by
  have buffered : OnlyObjects c { c with replay := resent p f c.replay } [O.flitsTx 0, O.replayedFlits 0] := .of_regs rfl
  exact (buffered.count (O.flitsTx p)).when again fun d => (OnlyObjects.refl d _).count (O.replayedFlits p)

theorem Hub.countSend_replay (c : Hub) (p : Nat) (f : ReplayFlit) (again : Bool) : (c.countSend p f again).replay = resent p f c.replay := by
  cases again <;> simp [Hub.countSend]

/-- The flit as the link sends it, first or again. -/
def Hub.sendCounted (c : Hub) (p : Nat) (f : ReplayFlit) (again : Bool) : Hub :=
  (c.countSend p f again).sendFlit p f.seq f.kind f.firstOffset f.retrained f.body

theorem Hub.sendData_eq (c : Hub) (p : Nat) (f : ReplayFlit) (again : Bool) : c.sendData p f again
    = (c.sendCounted p f again).when (decide ((c.sendCounted p f again).get (O.replayLimit p) < f.sends + 1)
      && (c.sendCounted p f again).get (O.linkState p) == 3) fun c => c.enterRetrain p 1 32 := by
  rfl

/-- The objects that the sending of a flit of the replay buffer changes. -/
def sendDataRegs : List Obj := O.flitsTx 0 :: O.replayedFlits 0 :: O.txCounter 0 :: lctrlSentRegs

/-- The flit goes out and its sends are counted; at more than REPLAY_LIMIT of them the link retrains. -/
theorem Hub.sendData_active {c : Hub} {p : Nat} (active : c.get (O.linkState p) = 3) (counter : c.get (O.txCounter p) + 1 < 2 ^ 48)
    (f : ReplayFlit) (again : Bool) : ∃ d, OnlyObjects c d sendDataRegs ∧ d.replay = resent p f c.replay
      ∧ c.sendData p f again = if c.get (O.replayLimit p) ≤ f.sends then d.enterRetrain p 1 32 else d := by
  have counted := c.countSend_onlyObjects p f again
  have room : (c.countSend p f again).get (O.txCounter p) + 1 < 2 ^ 48 := by rwa [counted.get (O.txCounter p)]
  obtain ⟨sent, same⟩ := Hub.sendFlit_frame room f.seq f.kind f.firstOffset f.retrained f.body
  have objects : OnlyObjects c (c.sendCounted p f again) sendDataRegs := counted.mono.trans sent.mono
  refine ⟨_, objects, same.trans (c.countSend_replay p f again), ?_⟩
  rw [Hub.sendData_eq, objects.get (O.linkState p), objects.get (O.replayLimit p), active]
  simp [Hub.when]

/-! ## Retrain (R158) -/

theorem Hub.lanesTo_onlyObjects (c : Hub) (p st : Nat) :
    OnlyObjects c (c.lanesTo p st) [O.trainState 0, H.tsRun 0 0, H.firstLaneAt 0, H.selRun 0, H.selSent 0] := by
  have entered := (OnlyObjects.refl c [O.trainState 0, H.tsRun 0 0, H.firstLaneAt 0, H.selRun 0, H.selSent 0]).put (O.trainState p) st
  have cleared := entered.each [0, 1, 2] (f := fun d l => d.put (H.tsRun p l) 0) fun d l => (OnlyObjects.refl d _).put (H.tsRun p l) 0
  exact ((cleared.put (H.firstLaneAt p) 0).put (H.selRun p) 0).put (H.selSent p) 0

theorem Hub.dropNextKeys_onlyObjects (c : Hub) (p : Nat) : OnlyObjects c (c.dropNextKeys p) [H.sessionKey 0 0, O.linkCryptoKeyState 0] :=
  (((OnlyObjects.refl c _).put (H.sessionKey p 2) 0).put (H.sessionKey p 3) 0).when _ fun d => (OnlyObjects.refl d _).put (O.linkCryptoKeyState p) 1

/-- A retrain as it is shown and counted, before the lanes pass through Wake. -/
def Hub.showRetrain (c : Hub) (p cause : Nat) : Hub := (((c.adapted p).put (O.linkState p) 5).count (O.retrains p)).put (O.lastRetrainCause p) cause

theorem Hub.showRetrain_linkState (c : Hub) (p cause : Nat) : (c.showRetrain p cause).get (O.linkState p) = 5 := by
  rw [Hub.showRetrain, Hub.get_put_other _ _ (by simp), Hub.get_count_other _ _ (by simp), Hub.get_put_same]
  rfl

/-- The objects that a retrain changes after it is shown. -/
def retrainRegs : List Obj :=
  [O.retrainRequest 0, O.payloadRate 0, O.rxPayloadRate 0, H.retrainAt 0, H.retrainCrossed 0, H.trainAt 0, H.quietSent 0, O.gear 0, H.gearDue 0,
    H.idleWake 0, H.sessionKey 0 0, O.linkCryptoKeyState 0, O.trainState 0, H.tsRun 0 0, H.firstLaneAt 0, H.selRun 0, H.selSent 0]

theorem Hub.retrainFor_onlyObjects (c : Hub) (p cause source fault : Nat) :
    OnlyObjects (c.showRetrain p cause) (c.retrainFor p cause source fault) retrainRegs := by
  have rest (d : Hub) (x : List RxPart) : OnlyObjects d { d with rxPart := x } retrainRegs := .of_regs rfl
  have opened (d : Hub) : OnlyObjects d (d.openWindow source 1 p false fault) retrainRegs := .of_regs rfl
  unfold Hub.retrainFor Hub.showRetrain
  refine .after (opened _) (.after (rest _ _) (.emit (.after (Hub.lanesTo_onlyObjects _ p 2).mono
    (.after (Hub.dropNextKeys_onlyObjects _ p).mono ?_)) _))
  refine .put (.put (.put (.put (.put (.put ?_ _ _) _ _) _ _) _ _) _ _) _ _
  exact .put (.put (.put (.put (.refl _ _) _ _) _ _) _ _) _ _

/-- A retrain begins in link state Retrain, with its cause shown. -/
theorem Hub.enterRetrain_state (c : Hub) (p cause source : Nat) : (c.enterRetrain p cause source).get (O.linkState p) = 5
    ∧ (c.enterRetrain p cause source).get (O.lastRetrainCause p) = cause % 256 := by
  have rest := Hub.retrainFor_onlyObjects (c.when (source != 255) fun c => c.raise source p) p cause source 0
  exact ⟨(rest.get (O.linkState p)).trans (Hub.showRetrain_linkState _ p cause), (rest.get (O.lastRetrainCause p)).trans (Hub.get_put_same _ _ _)⟩

/-! ## FLIT_TRANSMIT in Active (R140, R152) -/

theorem exec_flitTransmit (p : Port) (s : State) : exec (.flitTransmit p) s = execFlitTransmit p s := by rfl

section Active

variable {s : State} {p : Port}
variable (on : s.hub.domainsOn = true) (active : s.hub.get (O.linkState p) = 3)

include on active

/-- An unreleased flit that is to be sent again goes out, with the replay moved on behind it. -/
theorem flitTransmit_replays {f : ReplayFlit} {P : Hub → Prop}
    (next : (s.hub.unreleased p).find? (fun g => g.seq == s.hub.get (H.replayPtr p)) = some f)
    (counter : s.hub.get (O.txCounter p) + 1 < 2 ^ 48)
    (h : ∀ d, OnlyObjects s.hub d (H.replayPtr 0 :: sendDataRegs) → d.replay = resent p f s.hub.replay →
      P (if s.hub.get (O.replayLimit p) ≤ f.sends then d.enterRetrain p 1 32 else d)) : Answers (.flitTransmit p) s P := by
  refine .of_domains (exec_flitTransmit p s) on ?_
  rw [if_neg (by simp [active]), if_neg (by simp [active])]
  simp only [next]
  generalize (if ((s.hub.unreleased p).any fun g => g.seq == (s.hub.get (H.replayPtr p) + 1) % 4096) = true
    then (s.hub.get (H.replayPtr p) + 1) % 4096 else 4096) = ptr
  have moved : OnlyObjects s.hub (s.hub.put (H.replayPtr p) ptr) [H.replayPtr 0] := (OnlyObjects.refl _ _).put _ _
  obtain ⟨d, objects, replay, sent⟩ := Hub.sendData_active (c := s.hub.put (H.replayPtr p) ptr) ((moved.get (O.linkState p)).trans active)
    (by rwa [moved.get (O.txCounter p)]) f true
  rw [moved.get (O.replayLimit p)] at sent
  rw [sent]
  exact h d (moved.mono.trans objects.mono) replay

end Active

/-- Settles O51: the send of a flit is its last within REPLAY_LIMIT, or the one more that starts a retrain (R153). -/
theorem replayLimitRule : Obligations.ReplayLimitRule := by
  unfold Obligations.ReplayLimitRule
  refine ⟨?last, ?within⟩
  case last =>
    intro s p f on active next limit counter
    refine flitTransmit_replays on active next counter fun d _ _ => ?_
    rw [if_pos limit]
    exact d.enterRetrain_state p 1 32
  case within =>
    intro s p f on active next limit counter
    refine flitTransmit_replays on active next counter fun d objects replay => ?_
    rw [if_neg (Nat.not_le.mpr limit)]
    exact ⟨(objects.get (O.linkState p)).trans active, objects.get (O.lastRetrainCause p), replay⟩

end Sys2Proof.Machine
end

section
/-! The receiving side of a link (R142–R145, R151, R152): what a flit that fails and one that is taken change. -/
namespace Sys2Proof.Machine

-- One theorem after another: elaborated side by side they take more memory than the check allows.
set_option Elab.async false

/-! ## Steps that raise and stage nothing -/

/-- Registers of the objects named differ at most: nothing is raised, and no packet arrives. -/
structure Silent (os : List Obj) (c d : Hub) : Prop where
  objects : OnlyObjects c d os
  lines : d.lines = c.lines
  arrived : d.arrived = c.arrived
  reactions : d.reactions = c.reactions

namespace Silent

variable {os : List Obj} {c d e : Hub}

theorem refl (c : Hub) (os : List Obj) : Silent os c c := ⟨.refl c os, rfl, rfl, rfl⟩

theorem trans (h : Silent os c d) (g : Silent os d e) : Silent os c e :=
  ⟨h.objects.trans g.objects, g.lines.trans h.lines, g.arrived.trans h.arrived, g.reactions.trans h.reactions⟩

theorem mono {xs : List Obj} (h : Silent xs c d) (sub : ∀ x ∈ xs, namesObject os x = true := by decide) : Silent os c d :=
  ⟨h.objects.mono sub, h.lines, h.arrived, h.reactions⟩

theorem put (h : Silent os c d) (x : Obj) (v : Nat) (hx : namesObject os x = true := by rfl) : Silent os c (d.put x v) :=
  ⟨h.objects.put x v hx, h.lines, h.arrived, h.reactions⟩

theorem count (h : Silent os c d) (x : Obj) (n : Nat := 1) (hx : namesObject os x = true := by rfl) : Silent os c (d.count x n) :=
  ⟨h.objects.count x n hx, by simp [h.lines], by simp [h.arrived], by simp [h.reactions]⟩

theorem each {α : Type} (h : Silent os c d) {xs : List α} {f : Hub → α → Hub} (hf : ∀ d, ∀ x ∈ xs, Silent os d (f d x)) :
    Silent os c (d.each xs f) := by
  induction xs generalizing d with
  | nil => exact h
  | cons x xs ih => exact ih (h.trans (hf d x (by simp))) fun d y hy => hf d y (by simp [hy])

end Silent

/-! ## A flit that fails (R151) -/

/-- The objects that a NAK episode's start changes. -/
def nakRegs : List Obj := [H.nakOn 0, O.naksSent 0]

theorem Hub.startNak_silent (c : Hub) (p : Nat) : Silent nakRegs c (c.startNak p) := by
  unfold Hub.startNak
  split
  · exact .refl c _
  · exact ((Silent.refl c nakRegs).put (H.nakOn p) 1).count (O.naksSent p)

theorem Hub.startNak_on (c : Hub) (p : Nat) : (c.startNak p).flag (H.nakOn p) = true := by
  unfold Hub.startNak
  split
  · assumption
  · rw [Hub.flag, Hub.get_count_other _ _ (by simp)]
    exact Hub.flag_putB c true rfl

/-! ## Block headers and codewords (R142, R144) -/

theorem Hub.takeHeader_silent (c : Hub) (p l : Nat) : Silent [H.headerWindow 0 0] c (c.takeHeader p l false) := by
  unfold Hub.takeHeader
  dsimp only
  split
  · exact .refl c _
  · exact (Silent.refl c _).put (H.headerWindow p l) _

/-- The headers of a flit's blocks taken, none of them invalid. -/
theorem Hub.takeHeaders_silent (c : Hub) (p : Nat) {blocks : List (Fin 3 × BlockSeen)} (heads : ∀ b ∈ blocks, b.2 ≠ .badHeader) :
    Silent [H.headerWindow 0 0] c (c.each blocks fun c b => c.takeHeader p b.1.val (b.2 == .badHeader)) := by
  refine (Silent.refl c _).each fun d b hb => ?_
  rw [show (b.2 == .badHeader) = false by simpa using heads b hb]
  exact d.takeHeader_silent p b.1.val

/-- The receive lanes in use are RX0, RX1 and the turned TX1. -/
theorem Hub.rxInUse_lt (c : Hub) (p : Nat) : ∀ l ∈ c.rxInUse p, l < 3 := by
  unfold Hub.rxInUse
  split
  · decide
  · decide
  · split <;> decide

/-- The lane of the next codeword: one in use, in turn. -/
def Hub.codewordLane (c : Hub) (p : Nat) : Nat :=
  ((c.rxInUse p).find? fun l => c.logicalRx p l == c.get (H.wordLane p) % max 1 (c.rxInUse p).length).getD
    ((c.rxInUse p).getD (c.get (H.wordLane p) % max 1 (c.rxInUse p).length) 0)

theorem Hub.codewordLane_lt (c : Hub) (p : Nat) : c.codewordLane p < 3 := by
  have lanes := c.rxInUse_lt p
  unfold Hub.codewordLane
  generalize c.get (H.wordLane p) % max 1 (c.rxInUse p).length = k
  cases found : (c.rxInUse p).find? fun l => c.logicalRx p l == k with
  | some l => exact lanes l (List.mem_of_find?_eq_some found)
  | none =>
    rw [Option.getD_none, List.getD_eq_getElem?_getD]
    cases at_k : (c.rxInUse p)[k]? with
    | some l => exact lanes l (List.mem_of_getElem? at_k)
    | none => decide

/-- A codeword taken that is no eighth uncorrectable one in a row. -/
theorem Hub.takeCodeword_silent (c : Hub) (p : Nat) {bad : Bool} (few : bad = true → ∀ l : Nat, l < 3 → c.get (H.badWords p l) < 7) :
    Silent [H.wordLane 0, H.badWords 0 0] c (c.takeCodeword p bad) := by
  have below : (if bad then c.get (H.badWords p (c.codewordLane p)) + 1 else 0) < 8 := by
    cases bad with
    | false => exact Nat.zero_lt_succ 7
    | true => exact Nat.succ_lt_succ (few rfl _ (c.codewordLane_lt p))
  unfold Hub.takeCodeword
  dsimp only
  rw [Hub.codewordLane] at below
  rw [decide_eq_false (Nat.not_le.mpr below)]
  exact ((Silent.refl c _).put (H.wordLane p) _).put (H.badWords p _) _

/-! ## The outcome of a flit that fails -/

/-- The objects that the headers of a flit's blocks and its codeword change. -/
def laneRegs : List Obj := [H.headerWindow 0 0, H.wordLane 0, H.badWords 0 0]

/-- From e, a flit has failed: LINK_CRC is raised, and a NAK episode is on. -/
structure FlitFails (p : Nat) (e d : Hub) : Prop where
  objects : OnlyObjects e d (laneRegs ++ nakRegs)
  nak : d.flag (H.nakOn p) = true
  arrived : d.arrived = e.arrived
  lines : d.lines = e.lines ++ [⟨34, p, 0, e.reactions⟩]

/-- What follows on the lanes leaves the outcome. -/
theorem FlitFails.of_silent {os : List Obj} {p : Nat} {e d : Hub} (after : Silent os (e.failedFlit p) d)
    (lanes : ∀ x ∈ os, namesObject laneRegs x = true := by decide) : FlitFails p e d := by
  have rest : Silent laneRegs (e.failedFlit p) d := after.mono lanes
  have started := (e.raise 34 p).startNak_silent p
  refine ⟨?_, ?_, rest.arrived.trans started.arrived, rest.lines.trans started.lines⟩
  · have raised : OnlyObjects e (e.raise 34 p) (laneRegs ++ nakRegs) := .of_regs rfl
    exact (raised.trans started.objects.mono).trans rest.objects.mono
  · rw [Hub.flag, rest.objects.get (H.nakOn p)]
    exact (e.raise 34 p).startNak_on p

/-! ## LCTRL (R152, R155) -/

theorem OnlyObjects.ite {c d e : Hub} {os : List Obj} {p : Prop} [Decidable p] (h : OnlyObjects c d os) (g : OnlyObjects c e os) :
    OnlyObjects c (if p then d else e) os := by
  split
  · exact h
  · exact g

/-- The objects that a LCTRL acted on changes. -/
def lctrlRegs : List Obj :=
  [H.replayPtr 0, O.linkReplays 0, H.peerReturned 0 0, O.roundTrip 0, H.nakSeq 0, H.nakAt 0, O.naksReceived 0]

theorem Hub.takeReturned_onlyObjects (c : Hub) (p k v : Nat) : OnlyObjects c (c.takeReturned p k v) [H.peerReturned 0 0, O.roundTrip 0] := by
  have drawn : OnlyObjects c c.draw.2 [H.peerReturned 0 0, O.roundTrip 0] := .of_regs rfl
  unfold Hub.takeReturned
  split
  · exact .refl c _
  · exact (drawn.put (H.peerReturned p k) v).put (O.roundTrip p) _

theorem Hub.releaseBefore_onlyObjects (c : Hub) (p n : Nat) (keep : Bool) : OnlyObjects c (c.releaseBefore p n keep) [H.replayPtr 0] := by
  unfold Hub.releaseBefore
  dsimp only
  split
  · exact .refl c _
  · split
    · exact .refl c _
    · exact .ite (.of_regs rfl) (.put (.of_regs rfl) (H.replayPtr p) _)

theorem Hub.passKept_onlyObjects (c : Hub) (p n : Nat) : OnlyObjects c (c.passKept p n) [] := by
  unfold Hub.passKept
  split
  · exact .refl c _
  · dsimp only
    split
    · exact .refl c _
    · exact .of_regs rfl

theorem Hub.replayFrom_onlyObjects (c : Hub) (p n : Nat) : OnlyObjects c (c.replayFrom p n) [H.replayPtr 0, O.linkReplays 0] := by
  unfold Hub.replayFrom
  split
  · exact ((OnlyObjects.refl c _).put (H.replayPtr p) n).count (O.linkReplays p)
  · exact .refl c _

theorem Hub.takeLctrl_onlyObjects (c : Hub) (p v : Nat) : OnlyObjects c (c.takeLctrl p v) lctrlRegs := by
  have credited : OnlyObjects c (c.takeReturned p (bits v 13 3) (bits v 16 12)) lctrlRegs := (c.takeReturned_onlyObjects p _ _).mono
  unfold Hub.takeLctrl
  dsimp only
  split
  · have released := credited.trans (Hub.releaseBefore_onlyObjects _ p (bits v 0 12) true).mono
    split
    · exact released
    · exact (((released.put (H.nakSeq p) _).put (H.nakAt p) _).count (O.naksReceived p)).trans (Hub.replayFrom_onlyObjects _ p _).mono
  · exact (credited.trans (Hub.releaseBefore_onlyObjects _ p _ false).mono).trans (Hub.passKept_onlyObjects _ p _).mono

/-! ## A data flit taken (R140, R151, R162, R163) -/

/-- The objects that the packets of a data flit change as they arrive. -/
def bodyRegs : List Obj := [H.rxSkip 0, H.creditReturned 0 0, O.lateIsoDiscards 0, O.grantIsoDiscards 0]

theorem Hub.stageArrived_onlyObjects (c : Hub) (p : Nat) (retrained : Bool) (b : Bytes) : OnlyObjects c (c.stageArrived p retrained b) bodyRegs := by
  unfold Hub.stageArrived
  dsimp only
  split
  · have returned (k n : Nat) : OnlyObjects c (c.returnCredit p k n) bodyRegs :=
      (OnlyObjects.refl c _).when _ fun d => (OnlyObjects.refl d _).put (H.creditReturned p k) _
    exact (((returned _ _).count (O.lateIsoDiscards p)).count (O.grantIsoDiscards _)).raise 44 p
  · exact .of_regs rfl

theorem Hub.takeBody_onlyObjects (c : Hub) (p seq : Nat) (retrained : Bool) (data : Bytes) :
    OnlyObjects c (c.takeBody p seq retrained data) bodyRegs := by
  unfold Hub.takeBody
  extract_lets skip rest part held all cut fresh emptied arrived
  have staged : OnlyObjects c arrived bodyRegs := by
    have cleared : OnlyObjects c emptied bodyRegs := .of_regs rfl
    exact (cleared.put (H.rxSkip p) 0).each cut.1 fun d k => d.stageArrived_onlyObjects p _ k.2
  exact .ite staged (.ite (staged.trans (.of_regs rfl)) (staged.trans (.of_regs rfl)))

/-- A data flit in sequence taken: SEQ goes on, a NAK episode ends, and its packets arrive. -/
def Hub.takeData (c : Hub) (p seq : Nat) (retrained : Bool) (data : Bytes) : Hub :=
  (((c.put (H.rxNext p) ((seq + 1) % 4096)).putB (H.nakOn p) false).count (O.flitsRx p)).takeBody p seq retrained data

/-- The objects that a data flit in sequence changes. -/
def takenRegs : List Obj := H.rxNext 0 :: H.nakOn 0 :: O.flitsRx 0 :: (lctrlRegs ++ bodyRegs ++ laneRegs)

/-- From c, a data flit of SEQ seq is taken. -/
structure FlitTaken (p seq : Nat) (c d : Hub) : Prop where
  objects : OnlyObjects c d takenRegs
  next : d.get (H.rxNext p) = (seq + 1) % 4096
  nak : d.flag (H.nakOn p) = false

theorem FlitTaken.next_of_eq {p seq n : Nat} {c d : Hub} (taken : FlitTaken p seq c d) (h : seq = n) : d.get (H.rxNext p) = (n + 1) % 4096 :=
  h ▸ taken.next

/-- What follows on the lanes leaves the outcome. -/
theorem FlitTaken.of_silent {os : List Obj} {p seq : Nat} {c d e : Hub} (taken : FlitTaken p seq c d) (after : Silent os d e)
    (lanes : ∀ x ∈ os, namesObject laneRegs x = true := by decide) : FlitTaken p seq c e := by
  have rest : Silent laneRegs d e := after.mono lanes
  refine ⟨taken.objects.trans rest.objects.mono, (rest.objects.get (H.rxNext p)).trans taken.next, ?_⟩
  rw [Hub.flag, rest.objects.get (H.nakOn p)]
  exact taken.nak

theorem Hub.takeData_taken (c : Hub) (p lctrl seq : Nat) (retrained : Bool) (data : Bytes) :
    FlitTaken p seq c ((c.takeLctrl p lctrl).takeData p seq retrained data) := by
  have body := Hub.takeBody_onlyObjects ((((c.takeLctrl p lctrl).put (H.rxNext p) ((seq + 1) % 4096)).putB (H.nakOn p) false).count (O.flitsRx p))
    p seq retrained data
  have acted : OnlyObjects c (c.takeLctrl p lctrl) takenRegs := (c.takeLctrl_onlyObjects p lctrl).mono
  refine ⟨(((acted.put (H.rxNext p) _).put (H.nakOn p) 0).count (O.flitsRx p)).trans body.mono, ?_, ?_⟩
  · refine (body.get (H.rxNext p)).trans ?_
    rw [Hub.get_count_other _ _ (by simp), Hub.putB, Hub.get_put_other _ _ (by simp), Hub.get_put_same]
    exact Nat.mod_eq_of_lt ((Nat.mod_lt _ (by decide)).trans (show 4096 < 65536 by decide))
  · rw [Hub.takeData, Hub.flag, body.get (H.nakOn p), Hub.get_count_other _ _ (by simp)]
    exact Hub.flag_putB _ false rfl

end Sys2Proof.Machine
end

section
/-! The statement on flits (O19): the checks of a received flit in their order (R142–R145, R148, R151), and the clauses from what each outcome
changes. -/
namespace Sys2Proof.Machine

-- One theorem after another: elaborated side by side they take more memory than the check allows.
set_option Elab.async false

/-! ## The checks (R142–R145, R148, R151) -/

section Checks

variable {c : Hub} {p : Nat} {b : Bytes}

/-- SEQ of a flit's HDR (R138). -/
def flitSeq (b : Bytes) : Nat := bits (leNat (b.take 4)) 0 12

/-- KIND of a flit's HDR (R138). -/
def flitKind (b : Bytes) : Nat := bits (leNat (b.take 4)) 12 4

/-- A flit of a wrong length, FCRC or KIND counts in CRC_ERRORS and fails. -/
theorem Hub.soundFlit_broken (broken : b.length ≠ 640 ∨ crc32c (b.take 636) ≠ leNat (b.drop 636) ∨ flitKind b ∉ [0, 1, 8, 9, 10, 11]) :
    c.soundFlit p b = (c.count (O.crcErrors p)).failedFlit p := by
  unfold Hub.soundFlit
  dsimp only
  split
  · rfl
  next whole =>
    rw [if_neg]
    rintro listed
    have known : flitKind b ∈ [0, 1, 8, 9, 10, 11] := List.contains_iff_mem.mp listed
    exact whole (broken.elim .inl fun h => .inr (h.resolve_right (not_not_intro known)))

theorem Hub.soundFlit_checked (length : b.length = 640) (fcrc : crc32c (b.take 636) = leNat (b.drop 636)) (data : flitKind b ≤ 1) :
    c.soundFlit p b = c.checkedFlit p (flitKind b) b := by
  have listed : [0, 1, 8, 9, 10, 11].contains (flitKind b) = true := by
    obtain kind | kind : flitKind b = 0 ∨ flitKind b = 1 := by omega
    · rw [kind]; rfl
    · rw [kind]; rfl
  unfold Hub.soundFlit
  dsimp only
  rw [if_neg (by simp [length, fcrc])]
  exact if_pos listed

/-- The SEQ expected is no SEQ ahead. -/
theorem ahead_of_inSeq (inSeq : flitSeq b = c.get (H.rxNext p)) : (flitSeq b + 4096 - c.get (H.rxNext p)) % 4096 = 0 := by
  rw [inSeq]
  omega

section Data

variable {kind : Nat} (data : kind ≤ 1) (active : c.get (O.linkState p) = 3) (inSeq : flitSeq b = c.get (H.rxNext p))

include data active inSeq

/-- A data flit in sequence is taken as it stands where its link is not encrypted. -/
theorem Hub.checkedFlit_plain (plain : c.flag (H.crypt p) = false) : c.checkedFlit p kind b
    = (c.takeLctrl p (leNat ((b.drop 632).take 4))).takeData p (flitSeq b) (bit (leNat (b.take 4)) 27) (bodyData kind ((b.drop 4).take 628)) := by
  have inOrder := ahead_of_inSeq inSeq
  unfold flitSeq at *
  rcases Nat.le_one_iff_eq_zero_or_eq_one.mp data with rfl | rfl <;> simp [Hub.checkedFlit, Hub.takeData, active, plain, inOrder]

/-- One whose tag fails counts in LINK_AUTH_FAILURES and fails. -/
theorem Hub.checkedFlit_forged (crypt : c.flag (H.crypt p) = true) (forged : c.authenticate p kind b = none) :
    c.checkedFlit p kind b = ((c.count (O.linkAuthFailures p)).raise 36 p).failedFlit p := by
  have inOrder := ahead_of_inSeq inSeq
  unfold flitSeq at *
  rcases Nat.le_one_iff_eq_zero_or_eq_one.mp data with rfl | rfl <;> simp [Hub.checkedFlit, active, crypt, forged, inOrder]

/-- One that authenticates under the key in force has its COUNTER noted and is taken. -/
theorem Hub.checkedFlit_sealed {body : Bytes} (crypt : c.flag (H.crypt p) = true) (authentic : c.authenticate p kind b = some (body, false)) :
    c.checkedFlit p kind b = ((c.put (O.rxCounter p) (leNat ((b.drop 4).take 8))).takeLctrl p (leNat ((b.drop 632).take 4))).takeData p (flitSeq b)
      (bit (leNat (b.take 4)) 27) (bodyData kind body) := by
  have inOrder := ahead_of_inSeq inSeq
  unfold flitSeq at *
  rcases Nat.le_one_iff_eq_zero_or_eq_one.mp data with rfl | rfl <;> simp [Hub.checkedFlit, Hub.takeData, active, crypt, authentic, inOrder]

end Data

end Checks

/-! ## FLIT_RECEIVE in Active (R142–R145) -/

theorem exec_flitReceive (p : Port) (rx : FlitRx) (s : State) : exec (.flitReceive p rx) s = execFlitReceive p rx s := by rfl
theorem exec_replayTimeout (p : Port) (s : State) : exec (.replayTimeout p) s = execReplayTimeout p s := by rfl

/-- What a flit at Gears 1 and 2 comes to by its blocks, before their headers are taken. -/
def Hub.takeBlocks (c : Hub) (p : Nat) (rx : FlitRx) : Hub :=
  let bad := (rx.blocks.filter fun b => b.2 != .sound).length
  if bad = 0 then c.soundFlit p rx.bytes else (c.count (O.blockErrors p) bad).failedFlit p

theorem Hub.takeBlocks_sound {rx : FlitRx} (sound : ∀ b ∈ rx.blocks, b.2 = .sound) (c : Hub) (p : Nat) :
    c.takeBlocks p rx = c.soundFlit p rx.bytes := by
  have none_bad : (rx.blocks.filter fun b => b.2 != .sound) = [] := by simpa using sound
  simp [Hub.takeBlocks, none_bad]

/-- A flit with a reserved block, or not of 640 bytes, fails, with one counter of the link's counted. -/
theorem Hub.takeBlocks_broken {rx : FlitRx} (broken : (∃ b ∈ rx.blocks, b.2 = .reserved) ∨ rx.bytes.length ≠ 640) (c : Hub) (p : Nat) :
    ∃ e, Silent [O.blockErrors 0, O.crcErrors 0] c e ∧ c.takeBlocks p rx = e.failedFlit p := by
  by_cases sound : (rx.blocks.filter fun b => b.2 != .sound) = []
  · have length : rx.bytes.length ≠ 640 := by
      refine broken.resolve_left ?_
      rintro ⟨b, listed, reserved⟩
      simpa [reserved] using List.filter_eq_nil_iff.mp sound b listed
    refine ⟨c.count (O.crcErrors p), (Silent.refl c _).count (O.crcErrors p), ?_⟩
    simp [Hub.takeBlocks, sound, Hub.soundFlit_broken (.inl length)]
  · refine ⟨_, (Silent.refl c _).count (O.blockErrors p) (rx.blocks.filter fun b => b.2 != .sound).length, ?_⟩
    exact if_neg fun empty => sound (List.length_eq_zero_iff.mp empty)

theorem Hub.flitCodeword_uncorrectable {rx : FlitRx} (uncorrectable : rx.uncorrectable = true) (c : Hub) (p : Nat) : c.flitCodeword p rx
    = ((((c.count (O.fecCodewords p)).count (O.fecUncorrectable p)).raise 35 p).failedFlit p).takeCodeword p true := by
  simp [Hub.flitCodeword, uncorrectable]

theorem Hub.flitCodeword_correctable {rx : FlitRx} (correctable : rx.uncorrectable = false) (c : Hub) (p : Nat) : c.flitCodeword p rx
    = (((c.count (O.fecCodewords p)).count (O.fecCorrected p) rx.corrected).soundFlit p rx.bytes).takeCodeword p false := by
  simp [Hub.flitCodeword, correctable]

section Receive

variable {s : State} {p : Port} {rx : FlitRx} {P : Hub → Prop}
variable (on : s.hub.domainsOn = true) (active : s.hub.get (O.linkState p) = 3)

include on active

/-- At Gears 1 and 2, with no invalid header among the blocks. -/
theorem flitReceive_blocks (low : s.hub.get (O.gear p) ≤ 2) (heads : ∀ b ∈ rx.blocks, b.2 ≠ .badHeader)
    (h : ∀ d, Silent [H.headerWindow 0 0] (s.hub.takeBlocks p rx) d → P d) : Answers (.flitReceive p rx) s P := by
  refine .of_domains (exec_flitReceive p rx s) on ?_
  rw [if_neg (by simp [active]), if_pos low]
  exact h _ (Hub.takeHeaders_silent _ p heads)

/-- A flit at Gears 1 and 2 fails. -/
theorem flitReceive_blocks_fails {e : Hub} (low : s.hub.get (O.gear p) ≤ 2) (heads : ∀ b ∈ rx.blocks, b.2 ≠ .badHeader)
    (fails : s.hub.takeBlocks p rx = e.failedFlit p) (h : ∀ d, FlitFails p e d → P d) : Answers (.flitReceive p rx) s P :=
  flitReceive_blocks on active low heads fun d after => h d (.of_silent (by rwa [← fails]))

/-- At Gears 3 and 4, in a codeword that the FEC corrects (R145). -/
theorem flitReceive_codeword (high : 2 < s.hub.get (O.gear p)) (correctable : rx.uncorrectable = false)
    (h : ∀ d, Silent [H.wordLane 0, H.badWords 0 0]
      (((s.hub.count (O.fecCodewords p)).count (O.fecCorrected p) rx.corrected).soundFlit p rx.bytes) d → P d) :
    Answers (.flitReceive p rx) s P := by
  refine .of_domains (exec_flitReceive p rx s) on ?_
  rw [if_neg (by simp [active]), if_neg (Nat.not_le.mpr high), Hub.flitCodeword_correctable correctable]
  exact h _ (Hub.takeCodeword_silent _ p nofun)

/-- In one that it cannot correct, no eighth in a row, the flit fails. -/
theorem flitReceive_codeword_fails (high : 2 < s.hub.get (O.gear p)) (uncorrectable : rx.uncorrectable = true)
    (few : ∀ l : Nat, l < 3 → s.hub.get (H.badWords p l) < 7)
    (h : ∀ d, FlitFails p (((s.hub.count (O.fecCodewords p)).count (O.fecUncorrectable p)).raise 35 p) d → P d) :
    Answers (.flitReceive p rx) s P := by
  have counted := ((OnlyObjects.refl s.hub [O.fecCodewords 0, O.fecUncorrectable 0]).count (O.fecCodewords p)).count (O.fecUncorrectable p)
  have started := Hub.startNak_silent ((((s.hub.count (O.fecCodewords p)).count (O.fecUncorrectable p)).raise 35 p).raise 34 p) p
  refine .of_domains (exec_flitReceive p rx s) on ?_
  rw [if_neg (by simp [active]), if_neg (Nat.not_le.mpr high), Hub.flitCodeword_uncorrectable uncorrectable]
  refine h _ (.of_silent (Hub.takeCodeword_silent _ p fun _ l below => ?_))
  rw [Hub.failedFlit, started.objects.get (H.badWords p l), Hub.get_raise, Hub.get_raise, counted.get (H.badWords p l)]
  exact few l below

end Receive

/-! ## The null flit and the replay timeout (R140, R152) -/

theorem Hub.sendable_unstaged {c : Hub} (unstaged : c.staged = []) (p : Nat) : c.sendable p = [] := by simp [Hub.sendable, unstaged]

/-- A link with nothing to send, and no flit to send again, sends a null flit. -/
theorem flitTransmit_null {s : State} {p : Port} {P : Hub → Prop} (on : s.hub.domainsOn = true) (active : s.hub.get (O.linkState p) = 3)
    (released : s.hub.replay = []) (unstaged : s.hub.staged = []) (awake : s.hub.quietAllowed p = false)
    (h : P (s.hub.sendFlit p (s.hub.get (H.txNext p)) 8 0x3FF false (List.replicate (s.hub.flitRoom p) 0))) : Answers (.flitTransmit p) s P := by
  refine .of_domains (exec_flitTransmit p s) on ?_
  simpa [active, Hub.unreleased, released, Hub.sendable_unstaged unstaged, awake] using h

theorem Hub.unreleased_single {c : Hub} {f : ReplayFlit} {p : Nat} (single : c.replay = [f]) (port : f.port = p) : c.unreleased p = [f] := by
  simp [Hub.unreleased, single, port]

/-- A replay from the oldest unreleased flit. -/
theorem Hub.replayFrom_oldest {c : Hub} {f : ReplayFlit} {rest : List ReplayFlit} {p : Nat} (oldest : c.unreleased p = f :: rest) :
    c.replayFrom p f.seq = (c.put (H.replayPtr p) f.seq).count (O.linkReplays p) := by simp [Hub.replayFrom, oldest]

/-! ## The statement -/

/-- Settles O19: each check of a received flit leads to its outcome, whose effect FlitTaken and FlitFails say; LCTRL is what the model sends anew with
every flit. -/
theorem linkFlitCommands : Obligations.LinkFlitCommands := by
  unfold Obligations.LinkFlitCommands
  refine ⟨?null, ?taken, ?timeout, ?lineCode, ?fcrcOrKind, ?uncorrectable, ?corrected, ?forged, ?authentic⟩
  case null =>
    intro s p on active released unstaged awake plain
    refine flitTransmit_null on active released unstaged awake ?_
    rw [Hub.sendFlit_plain plain, show s.hub.flitRoom p = 628 by simp [Hub.flitRoom, plain]]
    exact ⟨(s.hub.makeLctrl_onlyObjects p).emit _, rfl⟩
  case taken =>
    intro s p rx on active low sound length fcrc kind inSeq plain
    refine flitReceive_blocks on active low (fun b hb => by simp [sound b hb]) fun d after => ?_
    have short : flitKind rx.bytes ≤ 1 := kind.trans_le (by decide)
    rw [Hub.takeBlocks_sound sound, Hub.soundFlit_checked length fcrc short, Hub.checkedFlit_plain short active inSeq plain] at after
    have taken := (Hub.takeData_taken _ _ _ _ _ _).of_silent after
    exact ⟨taken.objects.onlyIndexes, taken.next_of_eq inSeq, taken.nak⟩
  case timeout =>
    intro s p f on active single port seq
    refine .of_domains (exec_replayTimeout p s) on ?_
    simp only [Hub.unreleased_single single port, active, if_true]
    have counted := (OnlyObjects.refl s.hub [O.linkReplays 0, O.replayTimeouts 0, H.replayPtr 0]).count (O.replayTimeouts p)
    rw [Hub.replayFrom_oldest (rest := []) (Hub.unreleased_single (by simpa using single) port)]
    refine ⟨(counted.put (H.replayPtr p) f.seq).count (O.linkReplays p), ?_, by simpa using single⟩
    rw [Hub.get_count_other _ _ (by simp), Hub.get_put_same]
    exact Nat.mod_eq_of_lt (seq.trans (show 4096 < 65536 by decide))
  case lineCode =>
    intro s p rx on active low heads broken
    obtain ⟨e, counted, fails⟩ := Hub.takeBlocks_broken broken s.hub p
    refine flitReceive_blocks_fails on active low heads fails fun d failed => ?_
    refine ⟨.after failed.objects.onlyIndexes counted.objects.onlyIndexes, failed.nak, ?_, failed.arrived.trans counted.arrived, ?_⟩
    · exact (failed.objects.get (H.rxNext p)).trans (counted.objects.get (H.rxNext p))
    · rw [failed.lines, counted.lines, counted.reactions]
  case fcrcOrKind =>
    intro s p rx on active low sound length broken room
    have counted := (Silent.refl s.hub [O.crcErrors 0]).count (O.crcErrors p)
    have fails := (Hub.takeBlocks_sound sound s.hub p).trans (Hub.soundFlit_broken (.inr broken))
    refine flitReceive_blocks_fails on active low (fun b hb => by simp [sound b hb]) fails fun d failed => ?_
    refine ⟨.after failed.objects.onlyIndexes counted.objects.onlyIndexes, ?_, failed.nak, failed.arrived.trans counted.arrived, ?_, ?_⟩
    · exact (failed.objects.get (H.rxNext p)).trans (counted.objects.get (H.rxNext p))
    · exact (failed.objects.get (O.crcErrors p)).trans (Hub.get_count_same _ _ 1 room)
    · rw [failed.lines, counted.lines, counted.reactions]
  case uncorrectable =>
    intro s p rx on active high uncorrectable few room
    have counted := ((Silent.refl s.hub [O.fecCodewords 0, O.fecUncorrectable 0]).count (O.fecCodewords p)).count (O.fecUncorrectable p)
    refine flitReceive_codeword_fails on active high uncorrectable few fun d failed => ?_
    refine ⟨.after failed.objects.onlyIndexes (counted.objects.raise 35 p).onlyIndexes, ?_, failed.nak,
      failed.arrived.trans counted.arrived, ?_, ?_⟩
    · exact (failed.objects.get (H.rxNext p)).trans (counted.objects.get (H.rxNext p))
    · have before : (s.hub.count (O.fecCodewords p)).get (O.fecUncorrectable p) = s.hub.get (O.fecUncorrectable p) :=
        Hub.get_count_other _ _ (by simp)
      refine (failed.objects.get (O.fecUncorrectable p)).trans ?_
      rw [Hub.get_raise, Hub.get_count_same _ _ 1 (by rw [before]; exact room), before]
    · rw [failed.lines, Hub.raise_lines, Hub.raise_reactions, counted.lines, counted.reactions, List.append_assoc]
      rfl
  case corrected =>
    intro s p rx on active high correctable length fcrc kind inSeq plain room
    have short : flitKind rx.bytes ≤ 1 := kind.trans_le (by decide)
    have counted := ((OnlyObjects.refl s.hub [O.fecCodewords 0, O.fecCorrected 0]).count (O.fecCodewords p)).count (O.fecCorrected p)
      rx.corrected
    refine flitReceive_codeword on active high correctable fun d after => ?_
    rw [Hub.soundFlit_checked length fcrc short, Hub.checkedFlit_plain short ((counted.get (O.linkState p)).trans active)
      (inSeq.trans (counted.get (H.rxNext p)).symm) (by rwa [Hub.flag, counted.get (H.crypt p)])] at after
    have taken := (Hub.takeData_taken _ _ _ _ _ _).of_silent after
    refine ⟨.after taken.objects.onlyIndexes counted.onlyIndexes, taken.next_of_eq inSeq, taken.nak, ?_⟩
    have before : (s.hub.count (O.fecCodewords p)).get (O.fecCorrected p) = s.hub.get (O.fecCorrected p) := Hub.get_count_other _ _ (by simp)
    rw [taken.objects.get (O.fecCorrected p), Hub.get_count_same _ _ _ (by rw [before]; exact room), before]
  case forged =>
    intro s p rx on active low sound length fcrc short inSeq crypt forged room
    have counted := (Silent.refl s.hub [O.linkAuthFailures 0]).count (O.linkAuthFailures p)
    have fails := (Hub.takeBlocks_sound sound s.hub p).trans ((Hub.soundFlit_checked length fcrc short).trans
      (Hub.checkedFlit_forged short active inSeq crypt forged))
    refine flitReceive_blocks_fails on active low (fun b hb => by simp [sound b hb]) fails fun d failed => ?_
    refine ⟨.after failed.objects.onlyIndexes (counted.objects.raise 36 p).onlyIndexes, ?_, failed.nak,
      failed.arrived.trans counted.arrived, ?_, ?_⟩
    · exact (failed.objects.get (H.rxNext p)).trans (counted.objects.get (H.rxNext p))
    · exact (failed.objects.get (O.linkAuthFailures p)).trans (Hub.get_count_same _ _ 1 room)
    · rw [failed.lines, Hub.raise_lines, Hub.raise_reactions, counted.lines, counted.reactions, List.append_assoc]
      rfl
  case authentic =>
    intro s p rx body on active low sound length fcrc short inSeq crypt authentic
    refine flitReceive_blocks on active low (fun b hb => by simp [sound b hb]) fun d after => ?_
    rw [Hub.takeBlocks_sound sound, Hub.soundFlit_checked length fcrc short,
      Hub.checkedFlit_sealed (kind := flitKind rx.bytes) short active inSeq crypt authentic] at after
    have noted := (OnlyObjects.refl s.hub [O.rxCounter 0]).put (O.rxCounter p) (leNat ((rx.bytes.drop 4).take 8))
    have taken := (Hub.takeData_taken _ _ _ _ _ _).of_silent after
    refine ⟨.after taken.objects.onlyIndexes noted.onlyIndexes, taken.next_of_eq inSeq, taken.nak, ?_⟩
    rw [taken.objects.get (O.rxCounter p), Hub.get_put_same]
    have counter := leNat_lt ((rx.bytes.drop 4).take 8)
    rw [show ((rx.bytes.drop 4).take 8).length = 8 by simp [length]] at counter
    exact Nat.mod_eq_of_lt counter

end Sys2Proof.Machine
end

section
/-! The statement on the states of a link (O20): its bound of a training with encryption leaves out the key slot that the Init uses (R343, R351). -/
namespace Sys2Proof.Machine

-- One theorem after another: elaborated side by side they take more memory than the check allows.
set_option Elab.async false

/-- The arm of LANES_TRAINED. -/
theorem exec_lanesTrained (p : Port) (gear tx rx : Nat) (s : State) : exec (.lanesTrained p gear tx rx) s = execLanesTrained p gear tx rx s := by rfl

/-- A hub whose port 0 trains, with CRYPT_ENABLE and a key slot that reads Valid though its half in force fails its check. The random generator has
failed, so that the Init draws no nonce (R365). -/
def Hub.withUnsoundKey : Hub :=
  Hub.runningWith [(O.trainState 0, 4), (O.cryptEnable 0, 1), (O.linkCryptoKeySlot 0, 0), (O.keySlotState 0, 1), (O.rngState, 2)]

/-- Refutes O20: lanes that train with CRYPT_ENABLE use the port's key slot, and one that fails its check then reads Check failed (R343, R351): an object
outside the clause's bound. -/
theorem not_linkStateCommands : ¬ Obligations.LinkStateCommands := by
  unfold Obligations.LinkStateCommands
  rintro ⟨trained, -⟩
  have answered := trained ⟨[], Hub.withUnsoundKey, Mems.reset⟩ 0 1 1 1 (by decide) (by decide) (by decide) (by decide) (by decide) (by decide) (by decide)
  obtain ⟨frame, -⟩ := answered.of_run ((exec_lanesTrained ..).trans (onDomains_on _ (by decide)))
  have kept : _ = 1 := frame (O.keySlotState 0) (by decide) (by decide)
  exact absurd kept (by decide +kernel)

end Sys2Proof.Machine
end

section
/-! The bring-up of a link's lanes (R168–R181): what its shared operations change, and the fall from a higher gear to Gear 1. -/
namespace Sys2Proof.Machine

-- One theorem after another: elaborated side by side they take more memory than the check allows.
set_option Elab.async false

/-! ## Training sets sent and READY (R172, R175, R458) -/

theorem Hub.sendTs_onlyObjects (c : Hub) (p : Nat) : OnlyObjects c (c.sendTs p) [H.tsCount 0 0] := by
  unfold Hub.sendTs
  exact .ite (.each (.refl c _) _ fun d l => .put (.emit (.refl d _) _) _ _) (.refl c _)

theorem Hub.holdNow_onlyObjects (c : Hub) (p unmet : Nat) : OnlyObjects c (c.holdNow p unmet) [H.ownHold 0, H.readySent 0, O.holdReason 0] :=
  (((OnlyObjects.refl c _).put (H.ownHold p) _).put (H.readySent p) _).put (O.holdReason p) _

/-- READY is sent where nothing is unmet and READY_HOLD is false. -/
theorem Hub.holdNow_ready (c : Hub) (p unmet : Nat) : (c.holdNow p unmet).flag (H.readySent p) = (unmet == 0 && !c.flag (O.readyHold p)) := by
  have sent : (c.holdNow p unmet).flag (H.readySent p) = (unmet + (if c.flag (O.readyHold p) then 4 else 0) == 0) := by
    rw [Hub.holdNow, Hub.flag, Hub.get_put_other _ _ (by simp)]
    exact Hub.flag_putB _ _ rfl
  rw [sent]
  cases c.flag (O.readyHold p) <;> simp

/-- HOLD_REASON shows this side's reasons in its low half and keeps the partner's in its high half. -/
theorem Hub.holdNow_reason (c : Hub) (p : Nat) {unmet : Nat} (small : unmet < 4) : (c.holdNow p unmet).get (O.holdReason p)
    = unmet + (if c.flag (O.readyHold p) then 4 else 0) + 16 * bits (c.get (O.holdReason p)) 4 3 := by
  have peer : bits (c.get (O.holdReason p)) 4 3 < 8 := Nat.mod_lt _ (by decide)
  have own : unmet + (if c.flag (O.readyHold p) then 4 else 0) < 8 := by split <;> omega
  rw [Hub.holdNow, Hub.get_put_same, Hub.putB, Hub.get_put_other _ _ (by simp), Hub.get_put_other _ _ (by simp)]
  exact Nat.mod_eq_of_lt (show _ < 256 by omega)

/-! ## Entry into a bring-up state (R173) -/

theorem Hub.lanesTo_rest (c : Hub) (p st : Nat) :
    OnlyObjects (c.put (O.trainState p) st) (c.lanesTo p st) [H.tsRun 0 0, H.firstLaneAt 0, H.selRun 0, H.selSent 0] := by
  unfold Hub.lanesTo Hub.clearRuns
  exact .put (.put (.put (.each (.refl _ _) _ fun d l => .put (.refl d _) _ _) _ _) _ _) _ _

theorem Hub.lanesTo_trainState (c : Hub) (p st : Nat) : (c.lanesTo p st).get (O.trainState p) = st % 256 :=
  ((c.lanesTo_rest p st).get (O.trainState p)).trans (Hub.get_put_same _ _ _)

/-- The objects of the search for coefficients in Equalise (R177). -/
def searchRegs : List Obj :=
  [H.fom 0 0, H.eqBest 0 0, H.eqBestPreset 0 0, H.eqPreset 0 0, H.eqSteps 0 0, H.eqReq 0 0, O.txCoef 0 0]

/-- The lanes in Equalise at a gear, their search not yet begun. -/
def Hub.enterEqualise (c : Hub) (p gear : Nat) : Hub := ((c.lanesTo p 5).put (H.trainGear p) gear).put (H.peerTsFlags p) 0

theorem Hub.toEqualise_search (c : Hub) (p gear : Nat) : OnlyObjects (c.enterEqualise p gear) (c.toEqualise p gear) searchRegs := by
  unfold Hub.toEqualise
  refine .each (.each (.refl _ _) _ fun d l => ?_) _ fun d l => .when (.refl d _) _ fun d => .put (.refl d _) _ _
  exact .put (.put (.put (.put (.put (.put (.refl d _) _ _) _ _) _ _) _ _) _ _) _ _

/-- The objects of an entry into Equalise. -/
def equaliseRegs : List Obj :=
  [O.trainState 0, H.tsRun 0 0, H.firstLaneAt 0, H.selRun 0, H.selSent 0, H.trainGear 0, H.peerTsFlags 0] ++ searchRegs

theorem Hub.toEqualise_onlyObjects (c : Hub) (p gear : Nat) : OnlyObjects c (c.toEqualise p gear) equaliseRegs :=
  (((c.lanesTo_onlyObjects p 5).mono.put (H.trainGear p) _).put (H.peerTsFlags p) _).trans (c.toEqualise_search p gear).mono

theorem Hub.toEqualise_state (c : Hub) (p gear : Nat) : (c.toEqualise p gear).get (O.trainState p) = 5
    ∧ (c.toEqualise p gear).get (H.trainGear p) = gear % 256 := by
  have search := c.toEqualise_search p gear
  rw [search.get (O.trainState p), search.get (H.trainGear p), Hub.enterEqualise, Hub.get_put_other _ _ (by simp),
    Hub.get_put_other _ _ (by simp), Hub.get_put_other _ _ (by simp), Hub.get_put_same, Hub.lanesTo_trainState]
  exact ⟨rfl, rfl⟩

/-- The lanes in Detect, with the gear and the failed gears gone. -/
def Hub.dropGears (c : Hub) (p : Nat) : Hub :=
  (((((((((c.lanesTo p 1).put (O.gearsFailed p) 0).put (H.peerFailed p) 0).put (H.rxDegraded p) 0).put (H.txDegraded p) 0).put (H.readySent p) 0).put
    (H.trainGear p) 1).put (O.gear p) 0).put (H.rateTarget p) 0)

/-- The objects of the lanes' map and of the link that Detect clears beside. -/
def mapRegs : List Obj :=
  [O.linkState 0, O.laneStatus 0 0, O.logicalLane 0 0, H.trainAt 0, H.laneUseNow 0, H.fullRetrain 0, H.keptRx 0 0, H.keptCoef 0 0 0, H.idleWake 0]

theorem Hub.dropKept_onlyObjects (c : Hub) (p : Nat) : OnlyObjects c (c.dropKept p) [H.keptRx 0 0, H.keptCoef 0 0 0] :=
  (OnlyObjects.refl c _).each _ fun d l => ((OnlyObjects.refl d _).put (H.keptRx p l) 0).each _ fun d g => (OnlyObjects.refl d _).put (H.keptCoef p l g) 0

theorem Hub.toDetect_map (c : Hub) (p : Nat) : OnlyObjects (c.dropGears p) (c.toDetect p) mapRegs := by
  unfold Hub.toDetect
  refine .when (.put (.after (Hub.dropKept_onlyObjects _ p).mono (.each (.put (.put (.when (.refl _ _) _ fun d => ?_) _ _) _ _) _ fun d l => ?_)) _ _)
    _ fun d => .put (.refl d _) _ _
  · exact .put (.refl d _) _ _
  · exact .put (.put (.refl d _) _ _) _ _

/-- The objects of an entry into Detect. -/
def detectRegs : List Obj :=
  [O.trainState 0, H.tsRun 0 0, H.firstLaneAt 0, H.selRun 0, H.selSent 0, O.gearsFailed 0, H.peerFailed 0, H.rxDegraded 0, H.txDegraded 0,
    H.readySent 0, H.trainGear 0, O.gear 0, H.rateTarget 0] ++ mapRegs

theorem Hub.dropGears_onlyObjects (c : Hub) (p : Nat) : OnlyObjects c (c.dropGears p) detectRegs := by
  unfold Hub.dropGears
  exact .put (.put (.put (.put (.put (.put (.put (.put (c.lanesTo_onlyObjects p 1).mono _ _) _ _) _ _) _ _) _ _) _ _) _ _) _ _

theorem Hub.toDetect_onlyObjects (c : Hub) (p : Nat) : OnlyObjects c (c.toDetect p) detectRegs :=
  (c.dropGears_onlyObjects p).trans (c.toDetect_map p).mono

theorem Hub.toDetect_state (c : Hub) (p : Nat) : (c.toDetect p).get (O.trainState p) = 1 ∧ (c.toDetect p).get (O.gear p) = 0
    ∧ (c.toDetect p).get (O.gearsFailed p) = 0 := by
  have map := c.toDetect_map p
  rw [map.get (O.trainState p), map.get (O.gear p), map.get (O.gearsFailed p)]
  simp [Hub.dropGears, Hub.get_put_other, Hub.lanesTo_trainState]

/-! ## Failures (R180) -/

theorem Hub.trainFail_onlyObjects (c : Hub) (p : Nat) : OnlyObjects c (c.trainFail p) [O.trainFails 0, H.failRun 0] :=
  (((OnlyObjects.refl c _).count (O.trainFails p)).put (H.failRun p) _).when _ fun d => (OnlyObjects.refl d _).raise 42 p

/-- The indexes of the dictionary that a failure of the bring-up changes. -/
def failIndexes : List Nat := [0x2000, 0x2006, 0x2400, 0x7010]

/-- A failure below Gear 2, or in the hold, ends in Detect. -/
theorem Hub.failToDetect_outcome (c : Hub) (p : Nat) : OnlyIndexes c ((c.trainFail p).toDetect p) failIndexes
    ∧ ((c.trainFail p).toDetect p).get (O.trainState p) = 1 :=
  ⟨.after (Hub.toDetect_onlyObjects _ p).onlyIndexes (c.trainFail_onlyObjects p).onlyIndexes, (Hub.toDetect_state _ p).1⟩

/-- A failure above Gear 1 outside Retrain marks the gear failed and goes on at Gear 1. -/
theorem Hub.bringUpFail_higher {c : Hub} {p g : Nat} (gear : c.get (H.trainGear p) = g) (high : 2 ≤ g) (outside : c.get (O.linkState p) ≠ 5)
    (failing : List Nat) (next : Nat) : c.bringUpFail p failing next
      = ((c.put (H.rateTarget p) 0).put (O.gearsFailed p) (withBit (c.get (O.gearsFailed p)) (g - 1) true)).toEqualise p 1 := by
  simp [Hub.bringUpFail, Hub.get_put_other, gear, high, outside]

/-- What such a failure comes to. -/
structure FallsToGear1 (p g : Nat) (c d : Hub) : Prop where
  indexes : OnlyIndexes c d failIndexes
  trainState : d.get (O.trainState p) = 5
  trainGear : d.get (H.trainGear p) = 1
  gearsFailed : d.get (O.gearsFailed p) = withBit (c.get (O.gearsFailed p)) (g - 1) true % 256

theorem Hub.bringUpFail_falls {c : Hub} {p g : Nat} (gear : c.get (H.trainGear p) = g) (high : 2 ≤ g) (outside : c.get (O.linkState p) ≠ 5)
    (failing : List Nat) (next : Nat) : FallsToGear1 p g c ((c.bringUpFail p failing next).sendTs p) := by
  rw [Hub.bringUpFail_higher gear high outside]
  have marked : OnlyIndexes c ((c.put (H.rateTarget p) 0).put (O.gearsFailed p) (withBit (c.get (O.gearsFailed p)) (g - 1) true)) failIndexes :=
    .put (.put (.refl c _) _ _) _ _
  have failed : ((c.put (H.rateTarget p) 0).put (O.gearsFailed p) (withBit (c.get (O.gearsFailed p)) (g - 1) true)).get (O.gearsFailed p)
      = withBit (c.get (O.gearsFailed p)) (g - 1) true % 256 := Hub.get_put_same _ _ _
  generalize (c.put (H.rateTarget p) 0).put (O.gearsFailed p) (withBit (c.get (O.gearsFailed p)) (g - 1) true) = d at marked failed
  have entered := d.toEqualise_onlyObjects p 1
  have sent := (d.toEqualise p 1).sendTs_onlyObjects p
  obtain ⟨state, at_gear⟩ := d.toEqualise_state p 1
  exact ⟨.after sent.onlyIndexes (.after entered.onlyIndexes marked), (sent.get _).trans state, (sent.get _).trans at_gear,
    (sent.get _).trans ((entered.get _).trans failed)⟩

end Sys2Proof.Machine
end

section
/-! The statement on the steps of the bring-up (O21): the training sets in the stake-boat hold, the first step of equalisation, the rate switch and the
wake from Lanes idle, each in the state that awaits it (R172–R183). -/
namespace Sys2Proof.Machine

-- One theorem after another: elaborated side by side they take more memory than the check allows.
set_option Elab.async false

/-! ## The arms -/

theorem exec_receiverDetect (p : Port) (tx0 tx1 : Bool) (s : State) : exec (.receiverDetect p tx0 tx1) s = execReceiverDetect p tx0 tx1 s := by rfl
theorem exec_wakeBurstsReceived (p : Port) (s : State) : exec (.wakeBurstsReceived p) s = execWakeBurstsReceived p s := by rfl
theorem exec_wakeTimeout (p : Port) (s : State) : exec (.wakeTimeout p) s = execWakeTimeout p s := by rfl
theorem exec_tsReceive (p : Port) (l : Fin 3) (r : TsRx) (s : State) : exec (.tsReceive p l r) s = execTsReceive p l r s := by rfl
theorem exec_eqStep (p : Port) (l : Fin 3) (fom : BitVec 8) (s : State) : exec (.eqStep p l fom) s = execEqStep p l fom s := by rfl
theorem exec_rateSwitch (p : Port) (s : State) : exec (.rateSwitch p) s = execRateSwitch p s := by rfl
theorem exec_holdLimitExpiry (p : Port) (s : State) : exec (.holdLimitExpiry p) s = execHoldLimitExpiry p s := by rfl
theorem exec_polarityTimeout (p : Port) (s : State) : exec (.polarityTimeout p) s = execPolarityTimeout p s := by rfl
theorem exec_equaliseLimit (p : Port) (s : State) : exec (.equaliseLimit p) s = execEqualiseLimit p s := by rfl
theorem exec_lockTimeout (p : Port) (s : State) : exec (.lockTimeout p) s = execLockTimeout p s := by rfl
theorem exec_gearNegotiationTimeout (p : Port) (s : State) : exec (.gearNegotiationTimeout p) s = execGearNegotiationTimeout p s := by rfl
theorem exec_gearStepLimit (p : Port) (s : State) : exec (.gearStepLimit p) s = execGearStepLimit p s := by rfl
theorem exec_lanesIdleWake (p : Port) (s : State) : exec (.lanesIdleWake p) s = execLanesIdleWake p s := by rfl

/-! ## Training sets in the stake-boat hold (R172, R175) -/

/-- What a valid training set says of the partner, noted in whichever state it arrives. -/
def Hub.hearTs (c : Hub) (p : Nat) (r : TsRx) : Hub :=
  let failed := bits r.gears.toNat 4 4
  let c := ((c.put (H.peerTsFlags p) r.flags.toNat).put (H.peerLaneUse p) r.laneUse.toNat).put (H.peerGears p) (bits r.gears.toNat 0 4)
  ((c.put (H.peerFailed p) (Nat.lor (c.get (H.peerFailed p)) failed)).put (O.gearsFailed p) (Nat.lor (c.get (O.gearsFailed p)) failed)).degradeTx p r

/-- The objects that note it. -/
def heardRegs : List Obj := [H.peerTsFlags 0, H.peerLaneUse 0, H.peerGears 0, H.peerFailed 0, O.gearsFailed 0, H.txDegraded 0]

theorem Hub.degradeTx_onlyObjects (c : Hub) (p : Nat) (r : TsRx) : OnlyObjects c (c.degradeTx p r) [H.txDegraded 0] :=
  .ite ((OnlyObjects.refl c _).put (H.txDegraded p) _) (.refl c _)

theorem Hub.hearTs_onlyObjects (c : Hub) (p : Nat) (r : TsRx) : OnlyObjects c (c.hearTs p r) heardRegs := by
  unfold Hub.hearTs
  exact .after (Hub.degradeTx_onlyObjects _ p r).mono (.put (.put (.put (.put (.put (.refl c _) _ _) _ _) _ _) _ _) _ _)

/-- A valid training set in the hold. -/
theorem tsReceive_hold {s : State} {p : Port} {l : Fin 3} {r : TsRx} {P : Hub → Prop} (on : s.hub.domainsOn = true) (valid : tsValid r = true)
    (hold : s.hub.get (O.trainState p) = 3) (h : P (((s.hub.hearTs p r).tsInHold p l r).sendTs p)) : Answers (.tsReceive p l r) s P := by
  refine .of_domains (exec_tsReceive p l r s) on ?_
  rw [if_pos (by simp [valid, hold])]
  simp only [hold]
  exact h

/-- HOLD_REASON of both sides, and READY with it, as a training set in the hold leaves them. -/
def Hub.hearHold (c : Hub) (p : Nat) (r : TsRx) : Hub := (c.put (O.holdReason p) (16 * bits r.holdReason.toNat 0 3)).holdNow p r.ownHold.toNat

/-- The objects of the hold's READY. -/
def readyRegs : List Obj := [H.ownHold 0, H.readySent 0, O.holdReason 0]

theorem Hub.hearHold_onlyObjects (c : Hub) (p : Nat) (r : TsRx) : OnlyObjects c (c.hearHold p r) readyRegs :=
  ((OnlyObjects.refl c _).put (O.holdReason p) _).trans (Hub.holdNow_onlyObjects _ p _).mono

theorem Hub.hearHold_ready (c : Hub) (p : Nat) (r : TsRx) :
    (c.hearHold p r).flag (H.readySent p) = (r.ownHold.toNat == 0 && !c.flag (O.readyHold p)) := by
  rw [Hub.hearHold, Hub.holdNow_ready, Hub.flag, Hub.get_put_other _ _ (by simp), ← Hub.flag]

theorem Hub.hearHold_reason (c : Hub) (p : Nat) (r : TsRx) : (c.hearHold p r).get (O.holdReason p)
    = r.ownHold.toNat + (if c.flag (O.readyHold p) then 4 else 0) + 16 * bits r.holdReason.toNat 0 3 := by
  have own : r.ownHold.toNat < 4 := r.ownHold.isLt
  have peer : bits r.holdReason.toNat 0 3 < 8 := Nat.mod_lt _ (by decide)
  have kept : bits (16 * bits r.holdReason.toNat 0 3 % 256) 4 3 = bits r.holdReason.toNat 0 3 := by
    generalize bits r.holdReason.toNat 0 3 = k at peer
    rw [bits]
    omega
  rw [Hub.hearHold, Hub.holdNow_reason _ p own, Hub.flag, Hub.get_put_other _ _ (by simp), ← Hub.flag, Hub.get_put_same]
  exact congrArg (_ + 16 * ·) kept

/-- Training sets with READY in a row on a lane, counted up to 8. -/
def Hub.countReady (c : Hub) (p l : Nat) (r : TsRx) : Hub :=
  (c.hearHold p r).put (H.tsRun p l) (if bit r.flags.toNat 0 then min 8 ((c.hearHold p r).get (H.tsRun p l) + 1) else 0)

theorem Hub.countReady_onlyObjects (c : Hub) (p l : Nat) (r : TsRx) : OnlyObjects c (c.countReady p l r) (H.tsRun 0 0 :: readyRegs) :=
  (c.hearHold_onlyObjects p r).mono.put (H.tsRun p l) _

theorem Hub.countReady_ready (c : Hub) (p l : Nat) (r : TsRx) :
    (c.countReady p l r).flag (H.readySent p) = (r.ownHold.toNat == 0 && !c.flag (O.readyHold p)) := by
  rw [Hub.countReady, Hub.flag, Hub.get_put_other _ _ (by simp), ← Hub.flag, Hub.hearHold_ready]

/-- Without READY of this side the lanes stay in the hold. -/
theorem Hub.tsInHold_waits {c : Hub} {p : Nat} (held : c.flag (O.readyHold p) = true) (l : Nat) (r : TsRx) : c.tsInHold p l r = c.countReady p l r := by
  have unready : (c.countReady p l r).flag (H.readySent p) = false := by rw [Hub.countReady_ready, held]; simp
  unfold Hub.countReady Hub.hearHold at unready
  unfold Hub.tsInHold
  dsimp only
  rw [unready]
  simp [Hub.countReady, Hub.hearHold]

/-- The eighth training set with READY in a row, where this side has sent 16 with READY, takes a first bring-up on to Polarity and order. -/
theorem Hub.tsInHold_goesOn {c : Hub} {p l : Nat} {r : TsRx} (free : c.flag (O.readyHold p) = false) (met : r.ownHold = 0) (sent : 16 ≤ r.sent.toNat)
    (was : c.flag (H.readySent p) = true) (peer : bit r.flags.toNat 0 = true) (run : c.get (H.tsRun p l) = 7)
    (first : c.get (O.linkState p) ≠ 5) :
    c.tsInHold p l r = (((c.countReady p l r).put (H.trainGear p) 1).putB (H.fullRetrain p) true).lanesTo p 4 := by
  have ready : (c.countReady p l r).flag (H.readySent p) = true := by rw [Hub.countReady_ready, free, met]; rfl
  have eight : (c.countReady p l r).get (H.tsRun p l) = 8 := by
    rw [Hub.countReady, Hub.get_put_same, peer, (c.hearHold_onlyObjects p r).get (H.tsRun p l), run]
    rfl
  have link : (c.countReady p l r).get (O.linkState p) ≠ 5 := by rwa [(c.countReady_onlyObjects p l r).get (O.linkState p)]
  have slow : (c.countReady p l r).fastRetrain p = false := by simp [Hub.fastRetrain, link]
  unfold Hub.countReady Hub.hearHold at ready eight slow
  unfold Hub.tsInHold
  dsimp only
  rw [if_pos ⟨was, ready, sent, eight⟩, slow]
  rfl

/-! ## A first search over presets (R177) -/

/-- A figure of merit above the best of a search's presets so far: its preset is noted, and the next one requested. -/
def Hub.betterPreset (c : Hub) (p l fom : Nat) : Hub :=
  ((((c.put (H.fom p l) fom).put (H.eqBest p l) fom).put (H.eqBestPreset p l) (c.get (H.eqPreset p l))).put (H.eqPreset p l)
    (c.get (H.eqPreset p l) + 1)).put (H.eqReq p l) (c.get (H.eqPreset p l) + 1)

/-- The objects that it writes. -/
def presetRegs : List Obj := [H.fom 0 0, H.eqBest 0 0, H.eqBestPreset 0 0, H.eqPreset 0 0, H.eqReq 0 0]

theorem Hub.betterPreset_onlyObjects (c : Hub) (p l fom : Nat) : OnlyObjects c (c.betterPreset p l fom) presetRegs := by
  unfold Hub.betterPreset
  exact .put (.put (.put (.put (.put (.refl c _) _ _) _ _) _ _) _ _) _ _

theorem Hub.betterPreset_state {c : Hub} {p l fom : Nat} (byte : fom < 256) (more : c.get (H.eqPreset p l) < 9) :
    (c.betterPreset p l fom).get (H.fom p l) = fom ∧ (c.betterPreset p l fom).get (H.eqBest p l) = fom
      ∧ (c.betterPreset p l fom).get (H.eqBestPreset p l) = c.get (H.eqPreset p l)
      ∧ (c.betterPreset p l fom).get (H.eqPreset p l) = c.get (H.eqPreset p l) + 1 := by
  simp [Hub.betterPreset, Hub.get_put_other, Obj.cap]
  omega

/-- Such a figure while the search has presets left. -/
theorem eqStep_better {s : State} {p : Port} {l : Fin 3} {fom : BitVec 8} {P : Hub → Prop} (on : s.hub.domainsOn = true)
    (equalise : s.hub.get (O.trainState p) = 5) (used : l.val ∈ s.hub.rxInUse p) (searching : s.hub.get (H.eqSteps p l) = 0)
    (better : s.hub.get (H.eqBest p l) < fom.toNat) (more : s.hub.get (H.eqPreset p l) < 9)
    (h : P (((s.hub.betterPreset p l fom.toNat).tryLock p).sendTs p)) : Answers (.eqStep p l fom) s P := by
  refine .of_domains (exec_eqStep p l fom s) on ?_
  rw [if_pos ⟨equalise, used⟩]
  simpa [Hub.betterPreset, Hub.get_put_other, searching, better, more] using h

/-- The lanes in use go by the lane use in force and by a degraded direction. -/
theorem Hub.rxInUse_kept {c d : Hub} {os : List Obj} (h : OnlyObjects c d os) (p : Nat) (use : namesObject os (H.laneUseNow p) = false := by rfl)
    (degraded : namesObject os (H.rxDegraded p) = false := by rfl) : d.rxInUse p = c.rxInUse p := by
  rw [Hub.rxInUse, h.get _ use, h.get _ degraded]
  rfl

/-- A lane in use whose search goes on keeps the lanes in Equalise. -/
theorem Hub.tryLock_searching {c : Hub} {p l : Nat} (used : l ∈ c.rxInUse p) (searching : c.get (H.eqSteps p l) ≠ 2) : c.tryLock p = c := by
  have unmet : c.equalised p = false := by
    rw [Hub.equalised, List.all_eq_false]
    exact ⟨l, used, by simp [searching]⟩
  simp [Hub.tryLock, unmet]

/-! ## A rate switch that turns no lane (R173, R176) -/

/-- The switch complete: the gear and the lane use agreed on are in force. -/
def Hub.switchRate (c : Hub) (p gear : Nat) : Hub :=
  ((c.put (H.rateTarget p) 0).put (H.laneUseNow p) (c.agreedUse p)).put (H.trainGear p) gear

theorem Hub.switchRate_onlyObjects (c : Hub) (p gear : Nat) :
    OnlyObjects c (c.switchRate p gear) [H.rateTarget 0, H.laneUseNow 0, H.trainGear 0] :=
  (((OnlyObjects.refl c _).put (H.rateTarget p) _).put (H.laneUseNow p) _).put (H.trainGear p) _

/-- With the lane use in force agreed on, the lanes go on to Equalise. -/
theorem rateSwitch_straight {s : State} {p : Port} {g : Nat} {P : Hub → Prop} (on : s.hub.domainsOn = true)
    (negotiation : s.hub.get (O.trainState p) = 8) (target : s.hub.get (H.rateTarget p) = g) (switches : g ≠ 0)
    (agreed : s.hub.agreedUse p = s.hub.get (H.laneUseNow p)) (h : P (((s.hub.switchRate p g).toEqualise p g).sendTs p)) :
    Answers (.rateSwitch p) s P := by
  have straight : (s.hub.agreedUse p != s.hub.get (H.laneUseNow p)) = false := by simp [agreed]
  refine .of_domains (exec_rateSwitch p s) on ?_
  rw [target, if_pos ⟨negotiation, switches⟩]
  simpa only [Hub.switchRate, straight, Bool.false_and, Bool.false_eq_true, if_false] using h

/-! ## The wake from Lanes idle (R183) -/

/-- The objects that show lanes relocked. -/
def relockRegs : List Obj := [H.detector 0 0 0, O.laneStatus 0 0]

theorem Hub.relocked_onlyObjects (c : Hub) (p : Nat) : OnlyObjects c (c.relocked p) relockRegs :=
  (OnlyObjects.refl c _).each _ fun d l =>
    .ite ((((OnlyObjects.refl d _).put (H.detector p l 0) 0).put (H.detector p l 1) 0).put (O.laneStatus p l) _) (.refl d _)

theorem Hub.clearWords_onlyObjects (c : Hub) (p : Nat) : OnlyObjects c (c.clearWords p) [H.wordLane 0, H.badWords 0 0] :=
  ((OnlyObjects.refl c _).put (H.wordLane p) 0).each _ fun d l => (OnlyObjects.refl d _).put (H.badWords p l) 0

theorem Hub.adaptStart_onlyObjects (c : Hub) (p : Nat) : OnlyObjects c (c.adaptStart p) [H.adaptSeed 0, H.adaptAt 0] := by
  have drawn : OnlyObjects c { c with draws := c.draws + 1 } [H.adaptSeed 0, H.adaptAt 0] := .of_regs rfl
  exact (drawn.put (H.adaptSeed p) _).put (H.adaptAt p) _

/-- A Quiet link Active again, before what waited for it acts. -/
def Hub.wakeActive (c : Hub) (p : Nat) : Hub :=
  ((((((c.lanesTo p 9).relocked p).clearWords p).put (O.gear p) (c.get (H.trainGear p))).put (H.idleWake p) 0).put (O.linkState p) 3).adaptStart p

/-- The objects of a wake. -/
def wakeRegs : List Obj :=
  [O.trainState 0, H.tsRun 0 0, H.firstLaneAt 0, H.selRun 0, H.selSent 0, H.wordLane 0, H.badWords 0 0, O.gear 0, H.idleWake 0, O.linkState 0,
    H.adaptSeed 0, H.adaptAt 0] ++ relockRegs

theorem Hub.wakeActive_onlyObjects (c : Hub) (p : Nat) : OnlyObjects c (c.wakeActive p) wakeRegs := by
  unfold Hub.wakeActive
  refine .after (Hub.adaptStart_onlyObjects _ p).mono (.put (.put (.put ?_ _ _) _ _) _ _)
  exact .after (Hub.clearWords_onlyObjects _ p).mono (.after (Hub.relocked_onlyObjects _ p).mono (c.lanesTo_onlyObjects p 9).mono)

theorem Hub.wakeActive_state (c : Hub) (p : Nat) : (c.wakeActive p).get (O.linkState p) = 3 ∧ (c.wakeActive p).get (O.trainState p) = 9 := by
  have started (d : Hub) := d.adaptStart_onlyObjects p
  rw [Hub.wakeActive, (started _).get (O.linkState p), (started _).get (O.trainState p), Hub.get_put_same, Hub.get_put_other _ _ (by simp),
    Hub.get_put_other _ _ (by simp), Hub.get_put_other _ _ (by simp), (Hub.clearWords_onlyObjects _ p).get (O.trainState p),
    (Hub.relocked_onlyObjects _ p).get (O.trainState p), Hub.lanesTo_trainState]
  exact ⟨rfl, rfl⟩

/-- Where no retrain was requested and no change of gear waits, the wake is all. -/
theorem Hub.wakeDone_alone {c : Hub} {p : Nat} (quiet : c.get (O.linkState p) = 4) (unasked : c.flag (O.retrainRequest p) = false)
    (settled : c.flag (H.gearDue p) = false) : c.wakeDone p = c.wakeActive p := by
  have woken := c.wakeActive_onlyObjects p
  have request : (c.wakeActive p).flag (O.retrainRequest p) = false := by rwa [Hub.flag, woken.get (O.retrainRequest p)]
  have due : (c.wakeActive p).get (H.gearDue p) = 0 := by simpa [Hub.flag, woken.get (H.gearDue p)] using settled
  have woke : c.wakeDone p
      = if (c.wakeActive p).flag (O.retrainRequest p) then (c.wakeActive p).enterRetrain p 4 255 else (c.wakeActive p).gearNow p := if_pos quiet
  simp [woke, request, Hub.gearNow, due]

/-! ## The statement -/

/-- Settles O21: each step from the state that awaits it, its frame and its outcome those of the operations it is made of. -/
theorem laneBringUp : Obligations.LaneBringUp := by
  unfold Obligations.LaneBringUp
  refine ⟨?detect, ?burst, ?wakeTimeout, ?held, ?ready, ?equalise, ?rateSwitch, ?holdLimit, ?polarity, ?equaliseLimit, ?lock, ?negotiation, ?gearStep,
    ?idleWake⟩
  case detect =>
    intro s p tx0 tx1 on detect found
    refine .of_domains (exec_receiverDetect p tx0 tx1 s) on ?_
    rw [if_pos ⟨detect, found⟩]
    exact ⟨(Hub.lanesTo_onlyObjects s.hub p 2).mono.emit _, Hub.lanesTo_trainState _ _ _, rfl⟩
  case burst =>
    intro s p on wake
    refine .of_domains (exec_wakeBurstsReceived p s) on ?_
    rw [if_pos wake]
    have entered := s.hub.lanesTo_onlyObjects p 3
    have ready := Hub.holdNow_ready ((s.hub.lanesTo p 3).put (O.holdReason p) 0) p (s.hub.get (H.ownHold p))
    have held := Hub.holdNow_onlyObjects ((s.hub.lanesTo p 3).put (O.holdReason p) 0) p (s.hub.get (H.ownHold p))
    have sent := Hub.sendTs_onlyObjects (((s.hub.lanesTo p 3).put (O.holdReason p) 0).holdNow p (s.hub.get (H.ownHold p))) p
    refine ⟨.after sent.mono (.after held.mono (entered.mono.put (O.holdReason p) 0)), ?_, ?_⟩
    · rw [sent.get (O.trainState p), held.get (O.trainState p), Hub.get_put_other _ _ (by simp), Hub.lanesTo_trainState]
    · rw [Hub.flag, sent.get (H.readySent p), ← Hub.flag, ready, Hub.flag, Hub.get_put_other _ _ (by simp), entered.get (O.readyHold p), ← Hub.flag]
  case wakeTimeout =>
    intro s p on wake
    refine .of_domains (exec_wakeTimeout p s) on ?_
    rw [if_pos wake]
    exact ⟨(s.hub.toDetect_onlyObjects p).mono, s.hub.toDetect_state p⟩
  case held =>
    intro s p l r on valid hold held
    have heard := s.hub.hearTs_onlyObjects p r
    have withheld : (s.hub.hearTs p r).flag (O.readyHold p) = true := by rwa [Hub.flag, heard.get (O.readyHold p)]
    refine tsReceive_hold on valid hold ?_
    rw [Hub.tsInHold_waits withheld]
    have counted := (s.hub.hearTs p r).countReady_onlyObjects p l r
    have sent := ((s.hub.hearTs p r).countReady p l r).sendTs_onlyObjects p
    refine ⟨.after sent.onlyIndexes (.after counted.onlyIndexes heard.onlyIndexes), ?_, ?_⟩
    · rw [sent.get (O.trainState p), counted.get (O.trainState p), heard.get (O.trainState p), hold]
    · rw [sent.get (O.holdReason p), Hub.countReady, Hub.get_put_other _ _ (by simp), Hub.hearHold_reason, withheld]
      rfl
  case ready =>
    intro s p l r on valid hold free met enough was peer run first
    have heard := s.hub.hearTs_onlyObjects p r
    have counted := (s.hub.hearTs p r).countReady_onlyObjects p l r
    refine tsReceive_hold on valid hold ?_
    rw [Hub.tsInHold_goesOn (by rwa [Hub.flag, heard.get (O.readyHold p)]) met enough (by rwa [Hub.flag, heard.get (H.readySent p)]) peer
      (by rwa [heard.get (H.tsRun p l)]) (by rwa [heard.get (O.linkState p)])]
    generalize (s.hub.hearTs p r).countReady p l r = d at counted
    have entered := ((d.put (H.trainGear p) 1).putB (H.fullRetrain p) true).lanesTo_onlyObjects p 4
    have sent := Hub.sendTs_onlyObjects (((d.put (H.trainGear p) 1).putB (H.fullRetrain p) true).lanesTo p 4) p
    refine ⟨.after sent.onlyIndexes (.after entered.onlyIndexes (.putB (.put (.after counted.onlyIndexes heard.onlyIndexes) _ _) _ _)), ?_, ?_⟩
    · rw [sent.get (O.trainState p), Hub.lanesTo_trainState]
    · rw [sent.get (H.trainGear p), entered.get (H.trainGear p), Hub.putB, Hub.get_put_other _ _ (by simp), Hub.get_put_same]
      rfl
  case equalise =>
    intro s p l fom on equalise used searching better more
    have found := s.hub.betterPreset_onlyObjects p l fom.toNat
    have sent := (s.hub.betterPreset p l fom.toNat).sendTs_onlyObjects p
    refine eqStep_better on equalise used searching better more ?_
    rw [Hub.tryLock_searching (by rwa [Hub.rxInUse_kept found]) (by rw [found.get (H.eqSteps p l), searching]; decide)]
    refine ⟨.after sent.mono found.mono, ?_⟩
    rw [sent.get (H.fom p l), sent.get (H.eqBest p l), sent.get (H.eqBestPreset p l), sent.get (H.eqPreset p l)]
    exact Hub.betterPreset_state fom.isLt more
  case rateSwitch =>
    intro s p g on negotiation target gear agreed
    refine rateSwitch_straight on negotiation target (by omega) agreed ?_
    have switched := s.hub.switchRate_onlyObjects p g
    have entered := (s.hub.switchRate p g).toEqualise_onlyObjects p g
    have sent := ((s.hub.switchRate p g).toEqualise p g).sendTs_onlyObjects p
    obtain ⟨state, at_gear⟩ := (s.hub.switchRate p g).toEqualise_state p g
    refine ⟨.after sent.mono (.after entered.mono switched.mono), ?_, ?_, ?_⟩
    · rw [sent.get (O.trainState p), state]
    · rw [sent.get (H.trainGear p), at_gear, Nat.mod_eq_of_lt (by omega)]
    · rw [sent.get (H.rateTarget p), entered.get (H.rateTarget p), Hub.switchRate, Hub.get_put_other _ _ (by simp), Hub.get_put_other _ _ (by simp),
        Hub.get_put_same]
      rfl
  case holdLimit =>
    intro s p on hold
    refine .of_domains (exec_holdLimitExpiry p s) on ?_
    rw [if_pos hold]
    exact s.hub.failToDetect_outcome p
  case polarity =>
    intro s p on polarity
    refine .of_domains (exec_polarityTimeout p s) on ?_
    rw [if_pos polarity]
    exact s.hub.failToDetect_outcome p
  case equaliseLimit =>
    intro s p g on equalise gear range outside
    refine .of_domains (exec_equaliseLimit p s) on ?_
    rw [if_pos equalise]
    obtain ⟨indexes, state, at_gear, failed⟩ := Hub.bringUpFail_falls gear range.1 outside _ _
    exact ⟨indexes, state, at_gear, failed⟩
  case lock =>
    intro s p g on lock gear range outside awake
    refine .of_domains (exec_lockTimeout p s) on ?_
    rw [if_neg awake, if_pos lock]
    obtain ⟨indexes, state, at_gear, failed⟩ := Hub.bringUpFail_falls gear range.1 outside _ _
    exact ⟨indexes, state, at_gear, failed⟩
  case negotiation =>
    intro s p g on negotiation unswitched gear range outside
    refine .of_domains (exec_gearNegotiationTimeout p s) on ?_
    rw [if_pos ⟨negotiation, unswitched⟩]
    obtain ⟨indexes, state, at_gear, failed⟩ := Hub.bringUpFail_falls gear range.1 outside _ _
    exact ⟨indexes, state, at_gear, failed⟩
  case gearStep =>
    intro s p g on states gear range outside awake
    refine .of_domains (exec_gearStepLimit p s) on ?_
    rw [if_pos ⟨by omega, states.1, states.2, awake⟩]
    obtain ⟨indexes, state, at_gear, failed⟩ := Hub.bringUpFail_falls gear range.1 outside _ _
    exact ⟨indexes, state, at_gear, failed⟩
  case idleWake =>
    intro s p on quiet unasked settled
    refine .of_domains (exec_lanesIdleWake p s) on ?_
    rw [Hub.wakeDone_alone quiet unasked settled]
    exact ⟨(s.hub.wakeActive_onlyObjects p).mono, s.hub.wakeActive_state p⟩

end Sys2Proof.Machine
end

section
/-! The end of a link with its effects on the tree, the bridge and the switch (R21, R23, R101, R174, R460): the objects that it changes. -/
namespace Sys2Proof.Machine

-- One theorem after another: elaborated side by side they take more memory than the check allows.
set_option Elab.async false

/-! ## The bridge's requests to a hub that is lost (R270, R276, R278) -/

/-- The objects that the end of the bridge's requests to a lost hub changes. -/
def rigLostRegs : List Obj :=
  [H.claimOn 0, O.busClaimant, O.prefetchDiscards, O.sePrefetchDiscards, O.sePrefetchLast, O.errLogSource 0, H.errNext, H.msixPending, H.aer 0 0,
    O.reqSlotState 0]

theorem Hub.claimOver_onlyObjects (c : Hub) (hub : Nat) : OnlyObjects c (c.claimOver hub) rigLostRegs :=
  ((OnlyObjects.refl c _).put (H.claimOn hub) 0).when _ fun d => (OnlyObjects.refl d _).put O.busClaimant _

theorem Hub.dropLine_onlyObjects (c : Hub) (x : PrefetchLine) : OnlyObjects c (c.dropLine x) rigLostRegs := by
  unfold Hub.dropLine
  exact .when (.count (.of_regs rfl) _ _) _ fun d => .raise (.put (.count (.refl d _) _ _) _ _) _ _ _

theorem Hub.msix_onlyObjects (c : Hub) (v : Nat) : OnlyObjects c (c.msix v) rigLostRegs := by
  unfold Hub.msix
  exact .ite (.refl c _) (.ite (.refl c _) (.ite (.emit (.refl c _) _) (.put (.refl c _) _ _)))

theorem Hub.logRig_onlyObjects (c : Hub) (source kind hub window seq count addr : Nat) :
    OnlyObjects c (c.logRig source kind hub window seq count addr) rigLostRegs := by
  unfold Hub.logRig
  refine .raise (.when (.put (.put (.put ?_ _ _) _ _) _ _) _ fun d => d.msix_onlyObjects 1) _ _ _
  exact .put (.put (.put (.put (.put (.put (.refl c _) _ _) _ _) _ _) _ _) _ _) _ _

theorem Hub.aerRecord_onlyObjects (c : Hub) (f k : Nat) (answered : Bool) (tlp : Bytes) : OnlyObjects c (c.aerRecord f k answered tlp) rigLostRegs := by
  unfold Hub.aerRecord
  refine .when (.put (.when (.when (.when (.put (.refl c _) _ _) _ fun d => .raise (.refl d _) _ _ _) _ fun d => ?_) _ fun d => .put (.refl d _) _ _)
    _ _) _ fun d => .emit (.refl d _) _
  exact .each (.put (.refl d _) _ _) _ fun d i => .ite (.put (.of_regs rfl) _ _) (.put (.refl d _) _ _)

theorem Hub.abortRead_onlyObjects (c : Hub) (x : ApertureRead) : OnlyObjects c (c.abortRead x) rigLostRegs :=
  .emit (.after (Hub.aerRecord_onlyObjects _ 1 aerAbort true []) (.of_regs rfl)) _

/-- A request to a lost hub ends without data, whatever it came from. -/
theorem Hub.endRig_lost (c : Hub) (r : RigRequest) : OnlyObjects c (c.endRig r 0x0A []) rigLostRegs := by
  have ended (b : Bool) : OnlyObjects c (({ c with rigOut := c.rigOut.erase r } : Hub).when b fun c => c.claimOver r.hub) rigLostRegs :=
    .when (.of_regs rfl) b fun d => d.claimOver_onlyObjects r.hub
  unfold Hub.endRig
  dsimp only
  split
  · exact .when (.put (.put (ended _) _ _) _ _) _ fun d => .put (.refl d _) _ _
  · exact .when (ended _) _ fun d => d.logRig_onlyObjects _ _ _ _ _ _ _
  · split
    · exact ended _
    · exact .after (Hub.abortRead_onlyObjects _ _) (ended _)
  · exact ended _
  · exact ended _

theorem Hub.rigLost_onlyObjects (c : Hub) (hub : Nat) : OnlyObjects c (c.rigLost hub) rigLostRegs := by
  unfold Hub.rigLost
  exact .when (.when (.each (.each (.of_regs rfl) _ fun d r => d.endRig_lost r) _ fun d x => d.dropLine_onlyObjects x) _
    fun d => d.claimOver_onlyObjects hub) _ fun d => .put (.refl d _) _ _

/-! ## Packets and tunnels of a port (R69, R101) -/

/-- The objects that discards and teardowns at a port change. -/
def flushRegs : List Obj :=
  [H.creditReturned 0 0, O.queueStatusSpill 0, O.pathCountPackets 0, O.spillDrops, O.pathFlags 0, H.drainCount 0] ++ outputRegs

theorem Hub.losslessLoss_onlyObjects (c : Hub) (tid : Nat) : OnlyObjects c (c.losslessLoss tid) flushRegs :=
  (OnlyObjects.refl c _).when _ fun d => (OnlyObjects.refl d _).raise 28 255 tid

theorem Hub.lossOf_onlyObjects (c : Hub) (k tid : Nat) : OnlyObjects c (c.lossOf k tid) flushRegs :=
  (OnlyObjects.refl c _).when _ fun d => d.losslessLoss_onlyObjects tid

theorem Hub.teardownDiscard_onlyObjects (c : Hub) (x : Held) : OnlyObjects c (c.teardownDiscard x) flushRegs :=
  .after (Hub.lossOf_onlyObjects _ _ _) ((c.remove_onlyObjects x).mono.count (O.pathCountTeardownDiscards x.tid))

theorem Hub.emptied_onlyObjects (c : Hub) (x : Held) : OnlyObjects c (c.emptied x) flushRegs :=
  (c.teardownDiscard_onlyObjects x).when _ fun d => ((OnlyObjects.refl d _).count O.spillDrops).raise 8 255 x.q

theorem Hub.teardownUsing_onlyObjects (c : Hub) (e : Nat) : OnlyObjects c (c.teardownUsing e) flushRegs :=
  (OnlyObjects.refl c _).each _ fun d t => (d.teardown_onlyObjects t).mono

theorem Hub.emptyQueues_onlyObjects (c : Hub) (e : Nat) : OnlyObjects c (c.emptyQueues e) flushRegs := by
  unfold Hub.emptyQueues
  exact .after (.of_regs rfl) (.each (.each (.refl c _) _ fun d x => d.emptied_onlyObjects x) _ fun d x => d.losslessLoss_onlyObjects x.tid)

theorem Hub.flushPort_onlyObjects (c : Hub) (p : Nat) : OnlyObjects c (c.flushPort p) flushRegs := by
  unfold Hub.flushPort
  exact .after (.of_regs rfl) (.each (.after (Hub.emptyQueues_onlyObjects _ p) (c.teardownUsing_onlyObjects p)) _ fun d x =>
    d.lossOf_onlyObjects _ _)

theorem Hub.flushLost_onlyObjects (c : Hub) (p : Nat) : OnlyObjects c (c.flushLost p) flushRegs := by
  unfold Hub.flushLost
  exact .after (.of_regs rfl) (.each (.refl c _) _ fun d x => d.teardownDiscard_onlyObjects x)

/-! ## The tree (R20–R23) -/

/-- The objects that the loss of a port's partner changes. -/
def partnerRegs : List Obj :=
  [O.treeState, O.hubAddress, O.upstreamPort, O.depth, O.addrRoutePort 0, O.treeEventOverflow, H.joinPort, H.lastUpstream, H.orphanAt, H.orphanKeeps,
    H.formerDown 0, H.rejoinDue 0, H.partnerUid 0, H.childAsleep 0, H.portLost 0] ++ (rigLostRegs ++ flushRegs)

theorem Hub.topoEvent_onlyObjects (c : Hub) (port kind reason uid : Nat) : OnlyObjects c (c.topoEvent port kind reason uid) partnerRegs := by
  unfold Hub.topoEvent
  exact .ite (.refl c _) (.ite (.raise (.put (.of_regs rfl) O.treeEventOverflow 1) 22) (.of_regs rfl))

theorem Hub.forgetRoute_onlyObjects (c : Hub) (a : Nat) : OnlyObjects c (c.forgetRoute a) partnerRegs :=
  .after (Hub.rigLost_onlyObjects _ a).mono ((OnlyObjects.refl c _).put (O.addrRoutePort a) _)

theorem Hub.unjoin_onlyObjects (c : Hub) : OnlyObjects c c.unjoin partnerRegs :=
  (((((OnlyObjects.refl c _).put O.treeState 0).put H.joinPort 255).put O.hubAddress 255).put O.upstreamPort 255).put O.depth 255

theorem Hub.becomeOrphan_onlyObjects (c : Hub) (p : Nat) : OnlyObjects c (c.becomeOrphan (some p)) partnerRegs := by
  have orphaned := ((((((OnlyObjects.refl c partnerRegs).put H.lastUpstream (c.get O.upstreamPort)).put O.treeState 3).put O.upstreamPort 255).put
    O.depth 255).put H.orphanAt c.now).put H.orphanKeeps 1
  unfold Hub.becomeOrphan
  refine .raise (.each (.after (Hub.rigLost_onlyObjects _ 0).mono (.each (.after (Hub.teardownUsing_onlyObjects _ p).mono orphaned) _ fun d a =>
    d.forgetRoute_onlyObjects a)) _ fun d x => ?_) 21
  exact .emit (.put (.put (.refl d _) (H.formerDown x) _) (H.rejoinDue x) _) _

theorem Hub.partnerLost_onlyObjects (c : Hub) (p : Nat) (detached : Bool) : OnlyObjects c (c.partnerLost p detached) partnerRegs := by
  unfold Hub.partnerLost
  refine .ite (c.becomeOrphan_onlyObjects p) (.ite c.unjoin_onlyObjects (.ite (.refl c _) (.ite (c.topoEvent_onlyObjects _ _ _ _) (.ite (.refl c _) ?_))))
  refine .put (.put (.put (.after (Hub.flushLost_onlyObjects _ p).mono (.when (c.topoEvent_onlyObjects _ _ _ _) _ fun d => ?_)) _ _) _ _) _ _
  exact .each (.refl d _) _ fun d a => .ite (.put (.refl d _) _ _) (d.forgetRoute_onlyObjects a)

/-! ## The link and its lanes (R158, R174) -/

/-- The objects that show a link Down. -/
def downRegs : List Obj :=
  [O.rxAdaptUpdates 0 0, O.linkState 0, O.payloadRate 0, O.rxPayloadRate 0, O.retrainRequest 0, H.quietSent 0, H.crypt 0, H.sessionKey 0 0,
    O.linkCryptoKeyState 0, H.gearDue 0] ++ (partnerRegs ++ budgetRegs)

theorem Hub.adapted_onlyObjects (c : Hub) (p : Nat) : OnlyObjects c (c.adapted p) [O.rxAdaptUpdates 0 0] :=
  (OnlyObjects.refl c _).each _ fun d l => (OnlyObjects.refl d _).when _ fun d => (OnlyObjects.refl d _).count (O.rxAdaptUpdates p l) _

theorem Hub.adaptEnd_onlyObjects (c : Hub) (p : Nat) : OnlyObjects c (c.adaptEnd p) [O.rxAdaptUpdates 0 0] :=
  (OnlyObjects.refl c _).when _ fun d => d.adapted_onlyObjects p

theorem Hub.reportLinkLosses_onlyObjects (c : Hub) (p : Nat) : OnlyObjects c (c.reportLinkLosses p) flushRegs :=
  (OnlyObjects.refl c _).each _ fun d t => d.losslessLoss_onlyObjects t

theorem Hub.linkDown_onlyObjects (c : Hub) (p : Nat) (detached : Bool) : OnlyObjects c (c.linkDown p detached) downRegs := by
  have buffers (d : Hub) : OnlyObjects d (d.dropLinkBuffers p) downRegs := .of_regs rfl
  have done (d : Hub) (kind : Nat) : OnlyObjects d (d.reactionDone kind p) downRegs := .of_regs rfl
  unfold Hub.linkDown
  refine .ite (.refl c _) (.when (.after (Hub.recompute_onlyObjects _).mono (.after (Hub.partnerLost_onlyObjects _ p detached).mono
    (.after (done _ 5) (.after (done _ 1) (.put (.after (buffers _) (.after (Hub.reportLinkLosses_onlyObjects _ p).mono
    (.each (.after (Hub.dropNextKeys_onlyObjects _ p).mono ?_) _ fun d k => .put (.refl d _) _ _))) _ _))))) _ fun d => .put (.refl d _) _ _)
  exact .put (.put (.put (.put (.put (.put (c.adaptEnd_onlyObjects p).mono _ _) _ _) _ _) _ _) _ _) _ _

/-- The objects that show the lanes Off. -/
def lanesOffRegs : List Obj :=
  [O.rxAdaptUpdates 0 0, O.trainState 0, H.tsRun 0 0, H.firstLaneAt 0, H.selRun 0, H.selSent 0, O.gear 0, O.txLanes 0, O.rxLanes 0, H.idleWake 0,
    O.laneStatus 0 0, O.logicalLane 0 0, O.linkState 0]

theorem Hub.showLanes_onlyObjects (c : Hub) (p tx rx : Nat) : OnlyObjects c (c.showLanes p tx rx) [O.laneStatus 0 0, O.logicalLane 0 0] := by
  unfold Hub.showLanes
  refine .each (.refl c _) _ fun d l => ?_
  have shown (v : Nat) : OnlyObjects d (d.put (O.laneStatus p l) v) [O.laneStatus 0 0, O.logicalLane 0 0] := (OnlyObjects.refl d _).put _ v
  exact .ite ((shown _).put _ _) (.ite ((shown _).put _ _) (.ite ((shown _).put _ _) (.ite ((shown _).put _ _) (shown _))))

theorem Hub.lanesOff_onlyObjects (c : Hub) (p : Nat) : OnlyObjects c (c.lanesOff p) lanesOffRegs := by
  unfold Hub.lanesOff
  refine .when (.after (Hub.showLanes_onlyObjects _ p 0 0).mono (.put (.put (.put (.put ?_ _ _) _ _) _ _) _ _)) _ fun d => .put (.refl d _) _ _
  exact .after (Hub.lanesTo_onlyObjects _ p 0).mono (c.adaptEnd_onlyObjects p).mono

theorem Hub.lanesStart_onlyObjects (c : Hub) (p : Nat) : OnlyObjects c (c.lanesStart p) detectRegs :=
  .ite (c.toDetect_onlyObjects p) (.refl c _)

/-- The objects that follow LINK_ENABLE. -/
def linkEnableRegs : List Obj := detectRegs ++ (lanesOffRegs ++ downRegs)

/-- LINK_ENABLE is written; what follows leaves it. -/
theorem Hub.writeLinkEnable_onlyObjects (c : Hub) (p : Nat) (value : Bool) :
    OnlyObjects (c.putB (O.linkEnable p) value) (c.writeLinkEnable p value).2 linkEnableRegs := by
  cases value with
  | true => exact (Hub.lanesStart_onlyObjects _ p).mono
  | false =>
    have off (d : Hub) : OnlyObjects d (if d.get (O.trainState p) = 11 then d else d.lanesOff p) linkEnableRegs :=
      .ite (.refl d _) (d.lanesOff_onlyObjects p).mono
    exact .after (Hub.flushPort_onlyObjects _ p).mono (.after (Hub.linkDown_onlyObjects _ p false).mono (off _))

end Sys2Proof.Machine
end

section
/-! The detectors of the lanes and the retrain of an Active link (R158, R181, R184–R186): what each leaves. -/
namespace Sys2Proof.Machine

-- One theorem after another: elaborated side by side they take more memory than the check allows.
set_option Elab.async false

/-! ## Steps that send and raise nothing -/

/-- Nothing is sent or raised. -/
def Unheard (c d : Hub) : Prop := d.out = c.out ∧ d.lines = c.lines

namespace Unheard

variable {c d e : Hub}

theorem refl (c : Hub) : Unheard c c := ⟨rfl, rfl⟩

theorem after (g : Unheard d e) (h : Unheard c d) : Unheard c e := ⟨g.1.trans h.1, g.2.trans h.2⟩

theorem put (h : Unheard c d) (x : Obj) (v : Nat) : Unheard c (d.put x v) := h

theorem putB (h : Unheard c d) (x : Obj) (b : Bool) : Unheard c (d.putB x b) := h

theorem count (h : Unheard c d) (x : Obj) (n : Nat := 1) : Unheard c (d.count x n) := ⟨by simp [h.1], by simp [h.2]⟩

theorem when (h : Unheard c d) (b : Bool) {f : Hub → Hub} (hf : ∀ d, Unheard d (f d)) : Unheard c (d.when b f) :=
  Hub.when_spec (P := Unheard c) d b f h ((hf d).after h)

theorem each {α : Type} (h : Unheard c d) (xs : List α) {f : Hub → α → Hub} (hf : ∀ d x, Unheard d (f d x)) : Unheard c (d.each xs f) :=
  Hub.each_spec (P := Unheard c) f (fun d x g => (hf d x).after g) xs d h

end Unheard

theorem Hub.adapted_unheard (c : Hub) (p : Nat) : Unheard c (c.adapted p) :=
  (Unheard.refl c).each _ fun d _ => (Unheard.refl d).when _ fun d => (Unheard.refl d).count _ _

theorem Hub.dropNextKeys_unheard (c : Hub) (p : Nat) : Unheard c (c.dropNextKeys p) :=
  (((Unheard.refl c).put _ _).put _ _).when _ fun d => (Unheard.refl d).put _ _

theorem Hub.lanesTo_unheard (c : Hub) (p st : Nat) : Unheard c (c.lanesTo p st) := by
  unfold Hub.lanesTo Hub.clearRuns
  exact .put (.put (.put (.each (.put (.refl c) _ _) _ fun d l => .put (.refl d) _ _) _ _) _ _) _ _

/-! ## Retrain (R158, R181) -/

/-- The objects that a retrain changes. -/
def retrainedRegs : List Obj := [O.rxAdaptUpdates 0 0, O.linkState 0, O.retrains 0, O.lastRetrainCause 0] ++ retrainRegs

/-- From c, a link retrains with a cause: it is shown and counted, and the lanes pass through Wake. -/
structure Retrained (p cause : Nat) (c d : Hub) : Prop where
  objects : OnlyObjects c d retrainedRegs
  linkState : d.get (O.linkState p) = 5
  cause : d.get (O.lastRetrainCause p) = cause
  trainState : d.get (O.trainState p) = 2
  retrains : c.get (O.retrains p) < 2 ^ 32 - 1 → d.get (O.retrains p) = c.get (O.retrains p) + 1
  out : d.out = c.out ++ [.laneWake p]
  lines : d.lines = c.lines

theorem Hub.showRetrain_onlyObjects (c : Hub) (p cause : Nat) :
    OnlyObjects c (c.showRetrain p cause) [O.rxAdaptUpdates 0 0, O.linkState 0, O.retrains 0, O.lastRetrainCause 0] :=
  (((c.adapted_onlyObjects p).mono.put (O.linkState p) 5).count (O.retrains p)).put (O.lastRetrainCause p) cause

theorem Hub.showRetrain_retrains (c : Hub) (p cause : Nat) (room : c.get (O.retrains p) < 2 ^ 32 - 1) :
    (c.showRetrain p cause).get (O.retrains p) = c.get (O.retrains p) + 1 := by
  have before : ((c.adapted p).put (O.linkState p) 5).get (O.retrains p) = c.get (O.retrains p) :=
    (Hub.get_put_other _ _ (by simp)).trans ((c.adapted_onlyObjects p).get (O.retrains p))
  rw [Hub.showRetrain, Hub.get_put_other _ _ (by simp), Hub.get_count_same _ _ _ (by rw [before]; exact Nat.add_lt_of_lt_sub room), before]

/-- The wake burst and the shadow window that a retrain begins with. -/
def Hub.wakeBurst (c : Hub) (p source fault : Nat) (parts : List RxPart) : Hub :=
  ({ c.emit (.laneWake p) with rxPart := parts } : Hub).openWindow source 1 p false fault

theorem Hub.get_wakeBurst (c : Hub) (p source fault : Nat) (parts : List RxPart) (o : Obj) : (c.wakeBurst p source fault parts).get o = c.get o := rfl

/-- The lanes pass through Wake at the end of what a retrain writes. -/
theorem Hub.retrainFor_eq (c : Hub) (p cause source fault : Nat) : ∃ d parts, Unheard c d
    ∧ c.retrainFor p cause source fault = (d.lanesTo p 2).wakeBurst p source fault parts := by
  unfold Hub.retrainFor
  refine ⟨_, _, .after (Hub.dropNextKeys_unheard _ p) ?_, rfl⟩
  refine .put (.put (.put (.put (.put (.putB ?_ _ _) _ _) _ _) _ _) _ _) _ _
  exact .put (.put (.put (.putB (.put (.count (.put (c.adapted_unheard p) _ _) _) _ _) _ _) _ _) _ _) _ _

theorem Hub.retrainFor_retrained (c : Hub) (p : Nat) {cause : Nat} (byte : cause < 256) (source fault : Nat) :
    Retrained p cause c (c.retrainFor p cause source fault) := by
  have rest := c.retrainFor_onlyObjects p cause source fault
  obtain ⟨d, parts, before, made⟩ := c.retrainFor_eq p cause source fault
  obtain ⟨out, lines⟩ := (d.lanesTo_unheard p 2).after before
  exact
    { objects := (c.showRetrain_onlyObjects p cause).mono.trans rest.mono
      linkState := (rest.get (O.linkState p)).trans (c.showRetrain_linkState p cause)
      cause := (rest.get (O.lastRetrainCause p)).trans ((Hub.get_put_same _ _ _).trans (Nat.mod_eq_of_lt byte))
      trainState := by rw [made, Hub.get_wakeBurst, Hub.lanesTo_trainState]
      retrains := fun room => (rest.get (O.retrains p)).trans (c.showRetrain_retrains p cause room)
      out := by rw [made, ← out]; rfl
      lines := by rw [made, ← lines]; rfl }

/-- A change of the gear ceiling or of the lane use retrains an Active link at once, in a full bring-up. -/
theorem Hub.gearRetrain_retrained {c : Hub} {p : Nat} (active : c.get (O.linkState p) = 3) :
    Retrained p 3 (c.putB (H.fullRetrain p) true) (c.gearRetrain p) := by
  have full : c.gearRetrain p = (c.putB (H.fullRetrain p) true).retrainFor p 3 255 0 := by simp [Hub.gearRetrain, active]
  rw [full]
  exact Hub.retrainFor_retrained _ p (by decide) 255 0

/-! ## Detectors (R185, R186) -/

/-- LANE_STATUS shows each lane's use and turn apart from its signal and lock. -/
theorem laneStatus_kept (v : Nat) {kind : Nat} (detector : kind < 2) :
    bit (withBit v kind false % 256) 3 = bit v 3 ∧ bit (withBit v kind false % 256) 4 = bit v 4 := by
  obtain rfl | rfl : kind = 0 ∨ kind = 1 := by omega
  all_goals
    simp only [bit, withBit, Nat.testBit_eq_decide_div_mod_eq, decide_eq_true_eq, Bool.false_eq_true, if_false, decide_eq_decide]
    split
    · omega
    · omega

/-- The counter of a detector's assertions: 0 loss of signal, 1 loss of lock. -/
def detectorEvents (p l kind : Nat) : Obj := if kind = 0 then O.losEvents p l else O.lolEvents p l

/-- A detector asserts: it is shown and counted. -/
def Hub.assertDetector (c : Hub) (p l kind : Nat) : Hub :=
  let c := (c.put (H.detector p l kind) 1).put (O.laneStatus p l) (withBit (c.get (O.laneStatus p l)) kind false)
  if kind = 0 then c.count (O.losEvents p l) else c.count (O.lolEvents p l)

/-- The objects of it. -/
def assertRegs : List Obj := [H.detector 0 0 0, O.laneStatus 0 0, O.losEvents 0 0, O.lolEvents 0 0]

/-- What is shown of a detector that has asserted. -/
structure Asserted (p l kind : Nat) (c d : Hub) : Prop where
  objects : OnlyObjects c d assertRegs
  unheard : Unheard c d
  reactions : d.reactions = c.reactions
  detector : d.get (H.detector p l kind) = 1
  laneStatus : d.get (O.laneStatus p l) = withBit (c.get (O.laneStatus p l)) kind false % 256
  events : c.get (detectorEvents p l kind) < 2 ^ 32 - 1 → d.get (detectorEvents p l kind) = c.get (detectorEvents p l kind) + 1

theorem Hub.assertDetector_asserted (c : Hub) (p l kind : Nat) : Asserted p l kind c (c.assertDetector p l kind) := by
  unfold Hub.assertDetector
  have counted (x : Obj) (named : namesObject assertRegs x = true) (detector : x.key ≠ (H.detector p l kind).key)
      (status : x.key ≠ (O.laneStatus p l).key) (word : x.size = 4) :
      let d := ((c.put (H.detector p l kind) 1).put (O.laneStatus p l) (withBit (c.get (O.laneStatus p l)) kind false)).count x
      OnlyObjects c d assertRegs ∧ Unheard c d ∧ d.reactions = c.reactions ∧ d.get (H.detector p l kind) = 1
        ∧ d.get (O.laneStatus p l) = withBit (c.get (O.laneStatus p l)) kind false % 256
        ∧ (c.get x < 2 ^ 32 - 1 → d.get x = c.get x + 1) := by
    have before : ((c.put (H.detector p l kind) 1).put (O.laneStatus p l) (withBit (c.get (O.laneStatus p l)) kind false)).get x = c.get x :=
      (Hub.get_put_other _ _ status).trans (Hub.get_put_other _ _ detector)
    refine ⟨.count (.put (.put (.refl c _) _ _) _ _) x 1 named, .count (.put (.put (.refl c) _ _) _ _) x, by simp, ?_, ?_, fun room => ?_⟩
    · rw [Hub.get_count_other _ _ detector.symm, Hub.get_put_other _ _ (by simp), Hub.get_put_same]
      rfl
    · rw [Hub.get_count_other _ _ status.symm, Hub.get_put_same]
      rfl
    · rw [Hub.get_count_same _ _ _ (by rw [before, Obj.cap, word]; exact Nat.add_lt_of_lt_sub room), before]
  dsimp only
  split
  · obtain ⟨objects, unheard, reactions, detector, status, events⟩ := counted (O.losEvents p l) rfl (by simp) (by simp) rfl
    exact ⟨objects, unheard, reactions, detector, status, by simpa [detectorEvents, *] using events⟩
  · obtain ⟨objects, unheard, reactions, detector, status, events⟩ := counted (O.lolEvents p l) rfl (by simp) (by simp) rfl
    exact ⟨objects, unheard, reactions, detector, status, by simpa [detectorEvents, *] using events⟩

/-- A detector's assertion leaves which lanes receive and which are in use. -/
theorem Asserted.receives {p l kind : Nat} {c d : Hub} (h : Asserted p l kind c d) (detector : kind < 2) :
    d.receives p l = c.receives p l ∧ bit (d.get (O.laneStatus p l)) 3 = bit (c.get (O.laneStatus p l)) 3 := by
  obtain ⟨used, turned⟩ := laneStatus_kept (c.get (O.laneStatus p l)) detector
  refine ⟨?_, by rw [h.laneStatus, used]⟩
  rw [Hub.receives, h.objects.get (O.trainState p), h.objects.get (H.laneUseNow p), h.laneStatus, turned]
  rfl

/-- Outside Active an assertion is shown and counted alone. -/
theorem Hub.detectorUp_inactive {c : Hub} {p l kind : Nat} (awake : c.get (O.trainState p) ≠ 10) (receiver : 2 ≤ l ∨ c.receives p l = true)
    (fresh : c.flag (H.detector p l kind) = false) (inactive : c.get (O.linkState p) ≠ 3) : c.detectorUp p l kind = c.assertDetector p l kind := by
  have link : (c.assertDetector p l kind).get (O.linkState p) ≠ 3 := by rwa [(c.assertDetector_asserted p l kind).objects.get (O.linkState p)]
  unfold Hub.detectorUp
  rw [if_neg (by simp [awake, receiver, fresh])]
  exact if_neg fun active => link active.1

/-- On a lane in use of an Active link it also retrains the link, as LINK_RETRAIN. -/
theorem Hub.detectorUp_active {c : Hub} {p l kind : Nat} (detector : kind < 2) (awake : c.get (O.trainState p) ≠ 10) (receives : c.receives p l = true)
    (used : bit (c.get (O.laneStatus p l)) 3 = true) (fresh : c.flag (H.detector p l kind) = false) (active : c.get (O.linkState p) = 3) :
    c.detectorUp p l kind = ((c.assertDetector p l kind).raise 33 p).retrainFor p 2 33 := by
  have asserted := c.assertDetector_asserted p l kind
  obtain ⟨still, in_use⟩ := asserted.receives detector
  have acts : (c.assertDetector p l kind).get (O.linkState p) = 3 ∧ (c.assertDetector p l kind).receives p l = true
      ∧ bit ((c.assertDetector p l kind).get (O.laneStatus p l)) 3 = true :=
    ⟨(asserted.objects.get (O.linkState p)).trans active, still.trans receives, in_use.trans used⟩
  unfold Hub.detectorUp
  rw [if_neg (by simp [awake, receives, fresh])]
  exact if_pos acts

/-- What such an assertion comes to. -/
structure DetectorRetrains (p l kind : Nat) (c d : Hub) : Prop where
  indexes : OnlyIndexes c d [0x2006, 0x2400, 0x2007, 0x2000, 0x7010]
  linkState : d.get (O.linkState p) = 5
  cause : d.get (O.lastRetrainCause p) = 2
  trainState : d.get (O.trainState p) = 2
  retrains : c.get (O.retrains p) < 2 ^ 32 - 1 → d.get (O.retrains p) = c.get (O.retrains p) + 1
  events : c.get (detectorEvents p l kind) < 2 ^ 32 - 1 → d.get (detectorEvents p l kind) = c.get (detectorEvents p l kind) + 1
  detector : d.get (H.detector p l kind) = 1
  lines : d.lines = c.lines ++ [⟨33, p, 0, c.reactions⟩]

theorem Hub.detectorUp_retrains {c : Hub} {p l kind : Nat} (detector : kind < 2) (awake : c.get (O.trainState p) ≠ 10)
    (receives : c.receives p l = true) (used : bit (c.get (O.laneStatus p l)) 3 = true) (fresh : c.flag (H.detector p l kind) = false)
    (active : c.get (O.linkState p) = 3) : DetectorRetrains p l kind c (c.detectorUp p l kind) := by
  rw [Hub.detectorUp_active detector awake receives used fresh active]
  have asserted := c.assertDetector_asserted p l kind
  have retrained := ((c.assertDetector p l kind).raise 33 p).retrainFor_retrained p (cause := 2) (by decide) 33 0
  have before : (c.assertDetector p l kind).get (O.retrains p) = c.get (O.retrains p) := asserted.objects.get (O.retrains p)
  have other : namesObject retrainedRegs (detectorEvents p l kind) = false := by unfold detectorEvents; split <;> rfl
  exact
    { indexes := .after retrained.objects.onlyIndexes (.raise asserted.objects.onlyIndexes 33 p 0)
      linkState := retrained.linkState
      cause := retrained.cause
      trainState := retrained.trainState
      retrains := fun room => by rw [retrained.retrains (by rwa [Hub.get_raise, before]), Hub.get_raise, before]
      events := fun room => (retrained.objects.get _ other).trans (asserted.events room)
      detector := (retrained.objects.get (H.detector p l kind)).trans asserted.detector
      lines := by rw [retrained.lines, Hub.raise_lines, asserted.unheard.2, asserted.reactions] }

/-- A detector of RX0 or RX1 deasserts. -/
theorem Hub.detectorDown_state (c : Hub) (p : Nat) {l : Nat} (receiver : 2 ≤ l) (kind : Nat) : (c.detectorDown p l kind).get (H.detector p l kind) = 0
    ∧ (c.detectorDown p l kind).get (O.laneStatus p l) = withBit (c.get (O.laneStatus p l)) kind true % 256 := by
  have windowed (b : Bool) (n : Nat) : (c.when b fun c => c.put (H.headerWindow p n) 0).get (O.laneStatus p l) = c.get (O.laneStatus p l) :=
    Hub.when_spec (P := (·.get (O.laneStatus p l) = c.get (O.laneStatus p l))) c b _ rfl (Hub.get_put_other _ _ (by simp))
  simp [Hub.detectorDown, receiver, Hub.get_put_other, windowed, Obj.cap]

end Sys2Proof.Machine
end

section
/-! The statement on the detectors, the eye scan and the lane settings (O22), from what an assertion, a retrain and the end of a link leave. -/
namespace Sys2Proof.Machine

-- One theorem after another: elaborated side by side they take more memory than the check allows.
set_option Elab.async false

/-! ## The arms -/

theorem exec_losAssert (p : Port) (l : Lane) (s : State) : exec (.losAssert p l) s = execLosAssert p l s := by rfl
theorem exec_lolAssert (p : Port) (l : Lane) (s : State) : exec (.lolAssert p l) s = execLolAssert p l s := by rfl
theorem exec_losDeassert (p : Port) (l : Lane) (s : State) : exec (.losDeassert p l) s = execLosDeassert p l s := by rfl
theorem exec_lolDeassert (p : Port) (l : Lane) (s : State) : exec (.lolDeassert p l) s = execLolDeassert p l s := by rfl
theorem exec_eyeScanDone (p : Port) (l : Lane) (height width : BitVec 16) (s : State) :
    exec (.eyeScanDone p l height width) s = execEyeScanDone p l height width s := by rfl
theorem exec_linkEnableWrite (lvl : Level) (p : Port) (value : Bool) (s : State) :
    exec (.linkEnableWrite lvl p value) s = execLinkEnableWrite lvl p value s := by rfl
theorem exec_gearMaxWrite (lvl : Level) (p : Port) (v : BitVec 8) (s : State) : exec (.gearMaxWrite lvl p v) s = execGearMaxWrite lvl p v s := by rfl
theorem exec_laneUseWrite (lvl : Level) (p : Port) (v : BitVec 8) (s : State) : exec (.laneUseWrite lvl p v) s = execLaneUseWrite lvl p v s := by rfl
theorem exec_readyHoldWrite (lvl : Level) (p : Port) (value : Bool) (s : State) :
    exec (.readyHoldWrite lvl p value) s = execReadyHoldWrite lvl p value s := by rfl

/-! ## Eye scans (R188) -/

/-- The openings of a scan noted. -/
def Hub.noteEye (c : Hub) (p l height width : Nat) : Hub := (c.put (O.eyeHeight p l) height).put (O.eyeWidth p l) width

theorem Hub.noteEye_marginAlarm (c : Hub) (p l height width : Nat) : (c.noteEye p l height width).get (O.marginAlarm p) = c.get (O.marginAlarm p) := by
  simp [Hub.noteEye, Hub.get_put_other]

theorem Hub.noteEye_lowScans (c : Hub) (p l height width : Nat) : (c.noteEye p l height width).get (H.lowScans p l) = c.get (H.lowScans p l) := by
  simp [Hub.noteEye, Hub.get_put_other]

section Scan

variable {s : State} {p : Port} {l : Lane} {height width : BitVec 16} {P : Hub → Prop}
variable (on : s.hub.domainsOn = true) (trained : s.hub.get (O.trainState p) = 9) (receives : s.hub.receives p l = true)
variable (used : bit (s.hub.get (O.laneStatus p l)) 3 = true)

include on trained receives used

/-- An opening of at least MARGIN_ALARM ends the run of low scans. -/
theorem eyeScanDone_open (wide : s.hub.get (O.marginAlarm p) ≤ height.toNat)
    (h : P ((s.hub.noteEye p l height.toNat width.toNat).put (H.lowScans p l) 0)) : Answers (.eyeScanDone p l height width) s P := by
  have high : ¬(s.hub.get (O.marginAlarm p) ≠ 0 ∧ height.toNat < s.hub.get (O.marginAlarm p)) := by omega
  refine .of_domains (exec_eyeScanDone p l height width s) on ?_
  have margin := s.hub.noteEye_marginAlarm p l height.toNat width.toNat
  rw [if_pos ⟨trained, receives, used⟩]
  unfold Hub.noteEye at h margin
  simpa only [margin, high, decide_false, Bool.false_eq_true, if_false, Nat.zero_ne_add_one, Nat.reduceEqDiff] using h

/-- The third low scan in a row raises the alarm, and with RETUNE_AUTO a retrain is pending. -/
theorem eyeScanDone_alarms (low : height.toNat < s.hub.get (O.marginAlarm p)) (run : s.hub.get (H.lowScans p l) = 2)
    (h : P (((((s.hub.noteEye p l height.toNat width.toNat).put (H.lowScans p l) 0).count (O.marginAlarms p)).raise 43 p l).when
      ((s.hub.noteEye p l height.toNat width.toNat).flag (O.retuneAuto p)) fun c => c.putB (H.retunePending p) true)) :
    Answers (.eyeScanDone p l height width) s P := by
  have alarm_set : s.hub.get (O.marginAlarm p) ≠ 0 := by omega
  refine .of_domains (exec_eyeScanDone p l height width s) on ?_
  have margin := s.hub.noteEye_marginAlarm p l height.toNat width.toNat
  have scans := s.hub.noteEye_lowScans p l height.toNat width.toNat
  rw [if_pos ⟨trained, receives, used⟩]
  unfold Hub.noteEye at h margin scans
  simp only [margin, scans, ne_eq, alarm_set, low, run, not_false_iff, and_self, decide_true, if_true]
  exact h

end Scan

/-! ## Settings (R168, R175, R179, R184) -/

/-- The transmit lanes in use are TX0, TX1 and the turned RX1. -/
theorem Hub.txInUse_subset (c : Hub) (p : Nat) : ∀ l ∈ c.txInUse p, l = 0 ∨ l = 1 ∨ l = 3 := by
  unfold Hub.txInUse
  split
  · decide
  · decide
  · split <;> decide

/-- The registers that READY and the training sets with it change. -/
def readyHoldRegs (p : Nat) : List Obj :=
  [O.readyHold p, O.holdReason p, H.ownHold p, H.readySent p, H.tsCount p 0, H.tsCount p 1, H.tsCount p 3]

theorem Hub.sendTs_onlyRegs (c : Hub) (p : Nat) : OnlyRegs c (c.sendTs p) (readyHoldRegs p) := by
  unfold Hub.sendTs
  split
  · refine (OnlyRegs.refl c _).each fun d l hl => ((OnlyRegs.refl d _).emit _).put ?_ _
    rcases c.txInUse_subset p l hl with rfl | rfl | rfl <;> simp [readyHoldRegs]
  · exact .refl c _

theorem Hub.holdNow_onlyRegs (c : Hub) (p unmet : Nat) : OnlyRegs c (c.holdNow p unmet) (readyHoldRegs p) :=
  (((OnlyRegs.refl c _).put (by simp [readyHoldRegs]) _).put (by simp [readyHoldRegs]) _).put (by simp [readyHoldRegs]) _

/-- Training sets follow what was sent before. -/
theorem Hub.sendTs_sends (c : Hub) (p : Nat) : ∃ xs, Sends c (c.sendTs p) xs := by
  unfold Hub.sendTs
  split
  · refine Hub.each_spec (P := fun d => ∃ xs, Sends c d xs) _ ?_ _ c ⟨[], (List.append_nil _).symm⟩
    rintro d l ⟨xs, sent⟩
    exact ⟨xs ++ [.ts p l (d.ownTs p l)], by simp [Sends, show d.out = c.out ++ xs from sent]⟩
  · exact ⟨[], (List.append_nil _).symm⟩

theorem Hub.writeReadyHold_outcome (c : Hub) (p : Nat) (value : Bool) : (c.writeReadyHold p value).1 = .ok
    ∧ (c.writeReadyHold p value).2.flag (O.readyHold p) = value ∧ OnlyRegs c (c.writeReadyHold p value).2 (readyHoldRegs p)
    ∧ ∃ xs, Sends c (c.writeReadyHold p value).2 xs := by
  have written : OnlyRegs c (c.putB (O.readyHold p) value) (readyHoldRegs p) := (OnlyRegs.refl c _).put (by simp [readyHoldRegs]) _
  have flag : (c.putB (O.readyHold p) value).flag (O.readyHold p) = value := Hub.flag_putB c value rfl
  have none_sent : Sends c (c.putB (O.readyHold p) value) [] := (List.append_nil _).symm
  unfold Hub.writeReadyHold
  dsimp only
  generalize c.putB (O.readyHold p) value = d at written flag none_sent
  split
  · have held := d.holdNow_onlyObjects p (d.get (H.ownHold p))
    have sent := (d.holdNow p (d.get (H.ownHold p))).sendTs_onlyObjects p
    obtain ⟨xs, sends⟩ := (d.holdNow p (d.get (H.ownHold p))).sendTs_sends p
    refine ⟨rfl, ?_, (written.trans (d.holdNow_onlyRegs p _)).trans (Hub.sendTs_onlyRegs _ p), xs, ?_⟩
    · rwa [Hub.flag, sent.get (O.readyHold p), held.get (O.readyHold p), ← Hub.flag]
    · rw [Sends, List.append_nil] at none_sent
      rw [Sends, ← none_sent]
      exact sends
  · exact ⟨rfl, flag, written, [], none_sent⟩

/-- GEAR_MAX written, with the ceiling that it gives. -/
def Hub.putGearMax (c : Hub) (p v : Nat) : Hub := (c.put (O.gearMax p) v).showCeiling p

theorem Hub.putGearMax_onlyRegs (c : Hub) (p v : Nat) : OnlyRegs c (c.putGearMax p v) [O.gearMax p, O.gearCeiling p] :=
  ((OnlyRegs.refl c _).put (by simp) v).put (by simp) _

theorem Hub.putGearMax_onlyObjects (c : Hub) (p v : Nat) : OnlyObjects c (c.putGearMax p v) [O.gearMax 0, O.gearCeiling 0] :=
  ((OnlyObjects.refl c _).put (O.gearMax p) v).put (O.gearCeiling p) _

theorem Hub.putGearMax_gearMax (c : Hub) (p : Nat) {v : Nat} (byte : v < 256) : (c.putGearMax p v).get (O.gearMax p) = v := by
  rw [Hub.putGearMax, Hub.showCeiling, Hub.get_put_other _ _ (by simp), Hub.get_put_same]
  exact Nat.mod_eq_of_lt byte

/-- A write of GEAR_MAX in its range retrains the link where it is below the gear in use. -/
theorem Hub.writeGearMax_eq {c : Hub} {p v : Nat} (range : 1 ≤ v ∧ v ≤ 4) : c.writeGearMax p v
    = (.ok, if v < c.get (H.trainGear p) then (c.putGearMax p v).gearRetrain p else c.putGearMax p v) := by
  have gear := (c.putGearMax_onlyObjects p v).get (H.trainGear p)
  unfold Hub.putGearMax at gear
  rw [Hub.writeGearMax, if_neg (by omega)]
  dsimp only
  rw [gear]
  rfl

/-- The deciding side goes by nothing that LANE_USE holds. -/
theorem Hub.laneUse_apart (c : Hub) (p v use : Nat) : (c.put (O.laneUse p) v).deciding p = c.deciding p
    ∧ (c.put (O.laneUse p) v).localUse p use = c.localUse p use := by
  have rest := (OnlyObjects.refl c [O.laneUse 0]).put (O.laneUse p) v
  have member : (c.put (O.laneUse p) v).isMember = c.isMember := by
    rw [Hub.isMember, Hub.isCox, Hub.treeIs, rest.get O.role, rest.get O.treeState]
    rfl
  have peer : (c.put (O.laneUse p) v).peerMember p = c.peerMember p := by
    rw [Hub.peerMember, rest.get (H.peerLaneUse p)]
    rfl
  exact ⟨by rw [Hub.deciding, member, peer]; rfl, by unfold Hub.localUse; rw [rest.get O.upstreamPort, member, peer]⟩

/-- A write of LANE_USE in its range. -/
theorem Hub.writeLaneUse_eq {c : Hub} {p v : Nat} (range : v ≤ 2) : c.writeLaneUse p v
    = (.ok, if c.get (O.linkState p) == 3 && c.deciding p && c.localUse p v != c.get (H.laneUseNow p) then (c.put (O.laneUse p) v).gearRetrain p
      else c.put (O.laneUse p) v) := by
  obtain ⟨deciding, local_use⟩ := c.laneUse_apart p v v
  rw [Hub.writeLaneUse, if_neg (by omega)]
  dsimp only
  rw [deciding, local_use, Hub.get_put_other _ _ (by simp), Hub.get_put_other _ _ (by simp)]

/-! ## The statement -/

/-- Settles O22: a detector's assertion outside and in Active, the scans, and each setting with the retrain or the end of the link that follows it. -/
theorem laneDetectorsAndSettings : Obligations.LaneDetectorsAndSettings := by
  unfold Obligations.LaneDetectorsAndSettings
  refine ⟨?los, ?lol, ?losDown, ?lolDown, ?scanOpen, ?scanAlarm, ?linkEnable, ?gearMax, ?laneUse, ?readyHold, ?losActive, ?lolActive, ?gearMaxRetrain,
    ?laneUseRetrain⟩
  case los =>
    intro s p l on awake receiver fresh inactive
    refine .of_domains (exec_losAssert p l s) on ?_
    rw [Hub.detectorUp_inactive awake (.inl receiver) fresh inactive]
    have asserted := s.hub.assertDetector_asserted p l 0
    exact ⟨asserted.objects.mono, asserted.detector, asserted.laneStatus⟩
  case lol =>
    intro s p l on awake receiver fresh inactive
    refine .of_domains (exec_lolAssert p l s) on ?_
    rw [Hub.detectorUp_inactive awake (.inl receiver) fresh inactive]
    have asserted := s.hub.assertDetector_asserted p l 1
    exact ⟨asserted.objects.mono, asserted.detector, asserted.laneStatus⟩
  case losDown =>
    intro s p l on receiver
    refine .of_domains (exec_losDeassert p l s) on ?_
    obtain ⟨detector, status⟩ := s.hub.detectorDown_state p receiver 0
    refine ⟨detector, status, ?_⟩
    rw [Hub.detectorDown, if_pos (.inl receiver)]
    exact ((OnlyRegs.refl _ _).put (by simp) _).put (by simp) _
  case lolDown =>
    intro s p l on receiver
    refine .of_domains (exec_lolDeassert p l s) on ?_
    obtain ⟨detector, status⟩ := s.hub.detectorDown_state p receiver 1
    refine ⟨detector, status, ?_⟩
    rw [Hub.detectorDown, if_pos (.inl receiver), if_neg (show l.val ≠ 1 by omega)]
    exact (((OnlyRegs.refl _ _).put (by simp) _).put (by simp) _).put (by simp) _
  case scanOpen =>
    intro s p l ht wd on trained receives used wide
    refine eyeScanDone_open on trained receives used wide ⟨?_, ?_, ?_, ?_⟩
    · rw [Hub.get_put_other _ _ (by simp), Hub.noteEye, Hub.get_put_other _ _ (by simp), Hub.get_put_same]
      exact Nat.mod_eq_of_lt ht.isLt
    · rw [Hub.get_put_other _ _ (by simp), Hub.noteEye, Hub.get_put_same]
      exact Nat.mod_eq_of_lt wd.isLt
    · exact Hub.get_put_same _ _ _
    · exact (((OnlyRegs.refl _ _).put (by simp) _).put (by simp) _).put (by simp) _
  case scanAlarm =>
    intro s p l ht wd on trained receives used low run
    have retune : (s.hub.noteEye p l ht.toNat wd.toNat).flag (O.retuneAuto p) = s.hub.flag (O.retuneAuto p) := by
      simp [Hub.noteEye, Hub.flag, Hub.get_put_other]
    have alarmed : OnlyObjects s.hub (((s.hub.noteEye p l ht.toNat wd.toNat).put (H.lowScans p l) 0).count (O.marginAlarms p))
        [O.marginAlarms 0, O.eyeHeight 0 0, O.eyeWidth 0 0, H.lowScans 0 0, H.retunePending 0] :=
      ((((OnlyObjects.refl _ _).put (O.eyeHeight p l) _).put (O.eyeWidth p l) _).put (H.lowScans p l) 0).count (O.marginAlarms p)
    have cleared : (((s.hub.noteEye p l ht.toNat wd.toNat).put (H.lowScans p l) 0).count (O.marginAlarms p)).get (H.lowScans p l) = 0 :=
      (Hub.get_count_other _ _ (by simp)).trans (Hub.get_put_same _ _ _)
    refine eyeScanDone_alarms on trained receives used low run ?_
    rw [retune]
    cases s.hub.flag (O.retuneAuto p) with
    | false => exact ⟨alarmed.raise 43 p l, cleared, by simp [Hub.noteEye], nofun⟩
    | true =>
      refine ⟨(alarmed.raise 43 p l).put (H.retunePending p) 1, ?_, by simp [Hub.noteEye, Hub.putB], fun _ => Hub.flag_putB _ true rfl⟩
      exact (Hub.get_put_other _ _ (by simp)).trans cleared
  case linkEnable =>
    intro s lvl p value on right image free
    refine .of_write (exec_linkEnableWrite lvl p value s) on free image right.writes ?_
    have rest := s.hub.writeLinkEnable_onlyObjects p value
    have status : (s.hub.writeLinkEnable p value).1 = .ok := by cases value <;> rfl
    refine ⟨.emit (.after rest.onlyIndexes (.putB (.refl _ _) _ _)) _, ?_, by rw [status]; exact List.getLast?_concat⟩
    rw [Hub.flag_emit, Hub.flag, rest.get (O.linkEnable p), ← Hub.flag, Hub.flag_putB _ _ rfl]
  case gearMax =>
    intro s lvl p v on right range within image free
    refine .of_write (exec_gearMaxWrite lvl p v s) on free image right.writes ?_
    rw [Hub.writeGearMax_eq range, if_neg (Nat.not_lt.mpr within)]
    exact ⟨s.hub.putGearMax_gearMax p v.isLt, rfl, (s.hub.putGearMax_onlyRegs p v.toNat).emit _⟩
  case laneUse =>
    intro s lvl p v on right range follows image free
    refine .of_write (exec_laneUseWrite lvl p v s) on free image right.writes ?_
    rw [Hub.writeLaneUse_eq range, if_neg (by simp [follows])]
    exact ⟨(Hub.get_put_same _ _ _).trans (Nat.mod_eq_of_lt v.isLt), rfl, ((OnlyRegs.refl _ _).put (by simp) _).emit _⟩
  case readyHold =>
    intro s lvl p value on right image free
    refine .of_write (exec_readyHoldWrite lvl p value s) on free image right.writes ?_
    obtain ⟨status, flag, regs, xs, sent⟩ := s.hub.writeReadyHold_outcome p value
    rw [status]
    refine ⟨flag, ⟨xs, ?_⟩, regs.emit _⟩
    rw [Sends, Hub.emit_out, show _ = _ from sent, List.append_assoc]
  case losActive =>
    intro s p l on awake receives used fresh active room events
    refine .of_domains (exec_losAssert p l s) on ?_
    obtain ⟨indexes, link, cause, train, retrains, counted, detector, lines⟩ :=
      Hub.detectorUp_retrains (kind := 0) (by decide) awake receives used fresh active
    exact ⟨indexes, link, cause, train, retrains room, counted events, detector, lines⟩
  case lolActive =>
    intro s p l on awake receives used fresh active room events
    refine .of_domains (exec_lolAssert p l s) on ?_
    obtain ⟨indexes, link, cause, train, retrains, counted, detector, lines⟩ :=
      Hub.detectorUp_retrains (kind := 1) (by decide) awake receives used fresh active
    exact ⟨indexes, link, cause, train, retrains room, counted events, detector, lines⟩
  case gearMaxRetrain =>
    intro s lvl p v on right range above active room image free
    refine .of_write (exec_gearMaxWrite lvl p v s) on free image right.writes ?_
    rw [Hub.writeGearMax_eq range, if_pos above]
    have written := s.hub.putGearMax_onlyObjects p v.toNat
    have before : ((s.hub.putGearMax p v.toNat).putB (H.fullRetrain p) true).get (O.retrains p) = s.hub.get (O.retrains p) :=
      ((written.mono (os := [O.gearMax 0, O.gearCeiling 0, H.fullRetrain 0])).put (H.fullRetrain p) 1).get (O.retrains p)
    obtain ⟨objects, link, cause, train, retrains, out, -⟩ := Hub.gearRetrain_retrained ((written.get (O.linkState p)).trans active)
    refine ⟨.emit (.after objects.onlyIndexes (.putB written.onlyIndexes _ _)) _, ?_, link, cause, train, ?_, ?_⟩
    · rw [Hub.get_emit, objects.get (O.gearMax p), Hub.putB, Hub.get_put_other _ _ (by simp), Hub.putGearMax_gearMax _ p v.isLt]
    · rw [Hub.get_emit, retrains (by rwa [before]), before]
    · rw [Sends, Hub.emit_out, out]
      exact List.append_assoc _ _ _
  case laneUseRetrain =>
    intro s lvl p v on right range deciding changes active room image free
    refine .of_write (exec_laneUseWrite lvl p v s) on free image right.writes ?_
    rw [Hub.writeLaneUse_eq range, if_pos (by simp [active, deciding, changes])]
    have written := (OnlyObjects.refl s.hub [O.laneUse 0, H.fullRetrain 0]).put (O.laneUse p) v.toNat
    have before : ((s.hub.put (O.laneUse p) v.toNat).putB (H.fullRetrain p) true).get (O.retrains p) = s.hub.get (O.retrains p) :=
      (written.put (H.fullRetrain p) 1).get (O.retrains p)
    obtain ⟨objects, link, cause, train, retrains, out, -⟩ := Hub.gearRetrain_retrained ((written.get (O.linkState p)).trans active)
    refine ⟨.emit (.after objects.onlyIndexes (.putB written.onlyIndexes _ _)) _, ?_, link, cause, train, ?_, ?_⟩
    · rw [Hub.get_emit, objects.get (O.laneUse p), Hub.putB, Hub.get_put_other _ _ (by simp), Hub.get_put_same]
      exact Nat.mod_eq_of_lt v.isLt
    · rw [Hub.get_emit, retrains (by rwa [before]), before]
    · rw [Sends, Hub.emit_out, out]
      exact List.append_assoc _ _ _

end Sys2Proof.Machine
end

section
/-! The statement on the test loops (O23): the start of a test mode, bit slip and capture, the injector and the checkers (R189–R194). -/
namespace Sys2Proof.Machine

-- One theorem after another: elaborated side by side they take more memory than the check allows.
set_option Elab.async false

/-! ## The arms -/

theorem exec_testModeWrite (lvl : Level) (p : Port) (v : BitVec 8) (s : State) : exec (.testModeWrite lvl p v) s = execTestModeWrite lvl p v s := by rfl
theorem exec_bitslip (lvl : Level) (p : Port) (l : Lane) (v : BitVec 8) (s : State) : exec (.bitslip lvl p l v) s = execBitslip lvl p l v s := by rfl
theorem exec_captureAtWrite (lvl : Level) (p : Port) (l : Lane) (v : BitVec 8) (word : BitVec 64) (s : State) :
    exec (.captureAtWrite lvl p l v word) s = execCaptureAtWrite lvl p l v word s := by rfl
theorem exec_injectModeWrite (lvl : Level) (p : Port) (l : Lane) (v : BitVec 8) (s : State) :
    exec (.injectModeWrite lvl p l v) s = execInjectModeWrite lvl p l v s := by rfl
theorem exec_inject (p : Port) (l : Lane) (s : State) : exec (.inject p l) s = execInject p l s := by rfl
theorem exec_checkerLock (p : Port) (l : Lane) (s : State) : exec (.checkerLock p l) s = execCheckerLock p l s := by rfl
theorem exec_checkerLockLoss (p : Port) (l : Lane) (s : State) : exec (.checkerLockLoss p l) s = execCheckerLockLoss p l s := by rfl

/-- Engineer and Owner may write an object that none reads. -/
theorem Engineers.writesOnly {lvl : Level} (h : Engineers lvl) : (rightOf engineerWriteOnly lvl).writes = true := by rcases h with rfl | rfl <;> rfl

/-! ## A test mode begins (R189, R190) -/

/-- The objects that the generators and the loop start with. -/
def generatorRegs : List Obj := [H.frameBase 0 0, O.txCoef 0 0, O.txPreset 0 0, H.wordPhase 0 0, H.wordDelay 0 0]

theorem Hub.draw_onlyObjects (c : Hub) (os : List Obj) : OnlyObjects c c.draw.2 os := .of_regs rfl

theorem Hub.startTest_generators (c : Hub) (p v : Nat) :
    OnlyObjects ((c.put (O.testMode p) v).put (H.testAt p) c.now) (c.startTest p v) generatorRegs := by
  unfold Hub.startTest
  refine .each (.each (.refl _ _) _ fun d l => ?_) _ fun d l => ?_
  · exact .put (.put (.put (d.draw_onlyObjects _) _ _) _ _) _ _
  · exact .put (.put (d.draw_onlyObjects _) _ _) _ _

theorem Hub.startTest_onlyObjects (c : Hub) (p v : Nat) : OnlyObjects c (c.startTest p v) (O.testMode 0 :: H.testAt 0 :: generatorRegs) :=
  (((OnlyObjects.refl c _).put (O.testMode p) v).put (H.testAt p) c.now).trans (c.startTest_generators p v).mono

theorem Hub.startTest_testMode (c : Hub) (p : Nat) {v : Nat} (byte : v < 256) : (c.startTest p v).get (O.testMode p) = v := by
  rw [(c.startTest_generators p v).get (O.testMode p), Hub.get_put_other _ _ (by simp), Hub.get_put_same]
  exact Nat.mod_eq_of_lt byte

theorem Hub.startTest_unheard (c : Hub) (p v : Nat) : Unheard c (c.startTest p v) := by
  have drawn (d : Hub) : Unheard d d.draw.2 := ⟨rfl, rfl⟩
  unfold Hub.startTest
  exact .each (.each (.put (.put (.refl c) _ _) _ _) _ fun d l => .put (.put (.put (drawn d) _ _) _ _) _ _) _ fun d l => .put (.put (drawn d) _ _) _ _

/-! ## Words of the loop (R194) -/

/-- Bits at distinct places stand for less than the next power of two. -/
theorem sum_bits_lt (f : Nat → Bool) (n : Nat) : ((List.range n).map fun i => if f i then 2 ^ i else 0).sum < 2 ^ n := by
  induction n with
  | zero => simp
  | succ n ih =>
    rw [List.range_succ, List.map_append, List.sum_append, Nat.pow_succ]
    have last : ([n].map fun i => if f i then 2 ^ i else 0).sum ≤ 2 ^ n := by
      simp only [List.map_singleton, List.sum_singleton]
      split
      · exact Nat.le_refl _
      · exact Nat.zero_le _
    omega

/-- A word of the loop is a 64-bit number. -/
theorem Hub.loopedWord_lt (c : Hub) (p l w : Nat) : c.loopedWord p l w < 2 ^ 64 := sum_bits_lt _ 64

/-- A word of the loop goes by the generators, the clock and the word boundary, and not by CAPTURE_AT. -/
theorem Hub.loopedWord_captureAt (c : Hub) (p l v : Nat) (w : Nat) : (c.put (O.captureAt p l) v).loopedWord p l w = c.loopedWord p l w := by
  have rest := (OnlyObjects.refl c [O.captureAt 0 0]).put (O.captureAt p l) v
  have sent : (c.put (O.captureAt p l) v).bitsSent p = c.bitsSent p := by
    rw [Hub.bitsSent, rest.get (O.testGear p), rest.get (H.testAt p)]
    rfl
  have generated (t k : Nat) : (c.put (O.captureAt p l) v).generated p t k = c.generated p t k := by
    rw [Hub.generated, rest.get (O.testPattern p), rest.get (O.testGear p), rest.get (H.frameBase p t)]
    rfl
  rw [Hub.loopedWord, sent, rest.get (H.wordPhase p l), rest.get (H.wordDelay p l)]
  simp only [generated]
  rfl

/-- The word that CAPTURE takes: from the loop in near-end loopback, else from the line. -/
def Hub.capturedWord (c : Hub) (p l w word : Nat) : Nat := if c.get (O.testMode p) = 2 then c.loopedWord p l w else word

theorem Hub.capturedWord_lt (c : Hub) (p l w : Nat) {word : Nat} (h : word < 2 ^ 64) : c.capturedWord p l w word < 2 ^ 64 := by
  unfold Hub.capturedWord
  split
  · exact c.loopedWord_lt p l w
  · exact h

/-- A write of CAPTURE_AT in its range, in a mode that captures. -/
theorem Hub.writeCaptureAt_eq {c : Hub} {p l v : Nat} (range : v ≤ 127) (slips : c.slipMode p = true) (word : Nat) : c.writeCaptureAt p l v word
    = (.ok, (c.put (O.captureAt p l) v).when (decide (2 ≤ l)) fun d => d.put (O.capture p l) (c.capturedWord p l v word)) := by
  have same : (c.put (O.captureAt p l) v).get (O.testMode p) = c.get (O.testMode p) := Hub.get_put_other _ _ (by simp)
  rw [Hub.writeCaptureAt, if_neg (by omega), if_neg (by simp [slips])]
  simp only [Hub.when, Hub.capturedWord, same, Hub.loopedWord_captureAt]

/-! ## Checkers (R192) -/

/-- A checker that is not locked has none to drop. -/
theorem Hub.chkDrop_unlocked {c : Hub} {p l : Nat} (h : c.flag (O.chkLocked p l) = false) : c.chkDrop p l = c := by simp [Hub.chkDrop, h]

/-- A bit slip of a receive lane whose checker is not locked moves its word boundary alone. -/
theorem Hub.writeBitslip_unlocked {c : Hub} {p l v : Nat} (moves : v ≠ 0) (slips : c.slipMode p = true) (receiver : 2 ≤ l)
    (unlocked : c.flag (O.chkLocked p l) = false) : c.writeBitslip p l v = (.ok, c.put (H.wordDelay p l)
      ((c.get (H.wordDelay p l) + if 3 ≤ c.get (O.testGear p) then 2 * v else v) % 8192)) := by
  have still (delay : Nat) : (c.put (H.wordDelay p l) delay).flag (O.chkLocked p l) = false := by rwa [Hub.flag, Hub.get_put_other _ _ (by simp)]
  rw [Hub.writeBitslip, if_neg moves, if_neg (by simp [slips]), if_neg (by omega)]
  dsimp only
  rw [Hub.chkDrop_unlocked (still _)]

/-- The registers of a lane's checker. -/
def checkerRegs (p l : Nat) : List Obj :=
  [O.chkLocked p l, O.chkBits p l, O.chkErrors p l, O.errFrame p l, O.errRun p l, O.errNyquist p l, O.errLadder p l, O.errRandom p l]

/-- The segments' counters are of the lane's checker. -/
theorem segmentMinima_checker {p l : Nat} : ∀ x ∈ segmentMinima p l, x.1 ∈ checkerRegs p l := by simp [segmentMinima, checkerRegs]

theorem Hub.chkDrop_onlyRegs (c : Hub) (p l : Nat) : OnlyRegs c (c.chkDrop p l) (checkerRegs p l) := by
  unfold Hub.chkDrop
  split
  · refine OnlyRegs.put (.count (.count (.each (.refl c _) fun d x hx => .count (.refl d _) ?_ _) (by simp [checkerRegs]) _) (by simp [checkerRegs]) _)
      (by simp [checkerRegs]) _
    split at hx
    · exact segmentMinima_checker _ (List.of_mem_zip hx).1
    · cases hx
  · exact .refl c _

theorem Hub.chkDrop_unlocks (c : Hub) (p l : Nat) : (c.chkDrop p l).flag (O.chkLocked p l) = false := by
  unfold Hub.chkDrop
  split
  · exact Hub.flag_putB _ false rfl
  · next unlocked => simpa using unlocked

theorem Hub.lineErrors_onlyRegs (c : Hub) (p l : Nat) : OnlyRegs c (c.lineErrors p l) (checkerRegs p l) := by
  have drawn (d : Hub) : OnlyRegs d d.draw.2 (checkerRegs p l) := .of_regs rfl
  unfold Hub.lineErrors
  split
  · exact .each (.refl c _) fun d x hx => .count (.count (drawn d) (segmentMinima_checker x hx) _) (by simp [checkerRegs]) _
  · exact .count (drawn c) (by simp [checkerRegs]) _

theorem Hub.chkStart_onlyRegs (c : Hub) (p l : Nat) : OnlyRegs c (c.chkStart p l) [H.chkSeed p l, H.chkLockAt p l] := by
  have drawn : OnlyRegs c { c with draws := c.draws + 1 } [H.chkSeed p l, H.chkLockAt p l] := .of_regs rfl
  exact (drawn.put (by simp) _).put (by simp) _

/-! ## The statement -/

/-- Settles O23: each command from the state that it needs, its frame and its outcome those of the operations it is made of. -/
theorem testLoopCommands : Obligations.TestLoopCommands := by
  unfold Obligations.TestLoopCommands
  refine ⟨?testMode, ?bitslip, ?capture, ?injectMode, ?inject, ?checkerLock, ?checkerLoss⟩
  case testMode =>
    intro s lvl p on right off disabled image free
    refine .of_write (exec_testModeWrite lvl p 2 s) on free image right.writes ?_
    have begun : s.hub.writeTestMode p (2 : BitVec 8).toNat = (.ok, (s.hub.startTest p 2).lanesTo p 11) := by simp [Hub.writeTestMode, off, disabled]
    rw [begun]
    have entered := (s.hub.startTest p 2).lanesTo_onlyObjects p 11
    refine ⟨.emit (.after entered.mono (s.hub.startTest_onlyObjects p 2).mono) _, ?_, Hub.lanesTo_trainState _ p 11, ?_⟩
    · rw [Hub.get_emit, entered.get (O.testMode p), Hub.startTest_testMode _ p (by decide)]
    · rw [Sends, Hub.emit_out, ((s.hub.startTest p 2).lanesTo_unheard p 11).1, (s.hub.startTest_unheard p 2).1]
  case bitslip =>
    intro s lvl p l v on right nonzero slips receiver unlocked image free
    refine .of_write (exec_bitslip lvl p l v s) on free image right.writesOnly ?_
    rw [Hub.writeBitslip_unlocked (fun zero => nonzero (BitVec.eq_of_toNat_eq zero)) slips receiver unlocked]
    refine ⟨?_, rfl, ((OnlyRegs.refl _ _).put (by simp) _).emit _⟩
    rw [Hub.get_emit, Hub.get_put_same]
    exact Nat.mod_eq_of_lt ((Nat.mod_lt _ (by decide)).trans (show 8192 < 65536 by decide))
  case capture =>
    intro s lvl p l v word on right range slips image free
    refine .of_write (exec_captureAtWrite lvl p l v word s) on free image right.writes ?_
    rw [Hub.writeCaptureAt_eq range slips]
    have number : (s.hub.put (O.captureAt p l) v.toNat).get (O.captureAt p l) = v.toNat := (Hub.get_put_same _ _ _).trans (Nat.mod_eq_of_lt v.isLt)
    have written := (OnlyRegs.refl s.hub [O.captureAt p l, O.capture p l]).put (x := O.captureAt p l) (by simp) v.toNat
    by_cases receiver : 2 ≤ l.val
    · rw [decide_eq_true receiver, Hub.when_true]
      refine ⟨(Hub.get_put_other _ _ (by simp)).trans number, fun _ => ?_, rfl, (written.put (by simp) _).emit _⟩
      exact (Hub.get_put_same _ _ _).trans (Nat.mod_eq_of_lt (s.hub.capturedWord_lt p l v.toNat word.isLt))
    · rw [decide_eq_false receiver, Hub.when_false]
      exact ⟨number, fun h => absurd h receiver, rfl, written.emit _⟩
  case injectMode =>
    intro s lvl p l v on right range image free
    refine .of_write (exec_injectModeWrite lvl p l v s) on free image right.writes ?_
    rw [Hub.writeInjectMode, if_neg (by omega)]
    exact ⟨(Hub.get_put_same _ _ _).trans (Nat.mod_eq_of_lt v.isLt), rfl, ((OnlyRegs.refl _ _).put (by simp) _).emit _⟩
  case inject =>
    intro s p l on single transmitter straight active untested
    refine .of_domains (exec_inject p l s) on ?_
    have sends : (decide (l.val < 2) != bit (s.hub.get (O.laneStatus p l)) 4) = true := by simp [transmitter, straight]
    have counted := (OnlyObjects.refl s.hub [O.injectCount 0 0, O.injectMode 0 0]).count (O.injectCount p l)
    have unlooped := ((counted.emit (.inject p l (s.hub.get (O.injectBurst p l)))).put (O.injectMode p l) 0).get (O.testMode p)
    rw [if_pos ⟨by simp [single], sends, .inr active⟩]
    simp only [single, beq_self_eq_true, Hub.when_true, unlooped, untested, Nat.reduceBEq, Bool.false_and, Hub.when_false]
    refine ⟨Hub.get_put_same _ _ _, ?_, (((OnlyRegs.refl _ _).count (by simp) 1).emit _).put (by simp) 0⟩
    rw [Sends, Hub.put_out, Hub.emit_out, Hub.count_out]
  case checkerLock =>
    intro s p l on testing receiver unlocked
    refine .of_domains (exec_checkerLock p l s) on ?_
    rw [if_pos ⟨testing, receiver, unlocked⟩]
    have started := (s.hub.putB (O.chkLocked p l) true).chkStart_onlyRegs p l
    refine ⟨?_, ?_⟩
    · rw [Hub.get_put_other _ _ (by simp), Hub.get_put_other _ _ (by simp), started _ (by simp), Hub.putB, Hub.get_put_same]
      rfl
    · exact ((((OnlyRegs.refl _ _).put (by simp) 1).trans (started.mono (by simp))).put (by simp) 0).put (by simp) 0
  case checkerLoss =>
    intro s p l on locked
    refine .of_domains (exec_checkerLockLoss p l s) on ?_
    rw [if_pos locked]
    refine ⟨Hub.chkDrop_unlocks _ p l, ?_⟩
    exact ((OnlyRegs.refl _ _).when _ fun d => d.lineErrors_onlyRegs p l).trans (Hub.chkDrop_onlyRegs _ p l)

end Sys2Proof.Machine
end

section
/-! The messages of a port (R210–R218): the form in which a port's command answers, and which registers a message, a swap and the end of an exchange
write. -/
namespace Sys2Proof.Machine

-- One theorem after another: elaborated side by side they take more memory than the check allows.
set_option Elab.async false

/-! ## What a command of PWRCTL answers -/

/-- A command of PWRCTL completes with the hub that its operation makes. -/
theorem Answers.of_ports {i : Instr} {s : State} {f : Hub → Hub} {P : Hub → Prop} (arm : exec i s = onPorts s f) (on : s.hub.pdOn = true)
    (h : P (f s.hub)) : Answers i s P :=
  ⟨_, arm.trans (onPorts_on f on), rfl, rfl, h⟩

/-- A port takes messages only while the PD engines run. -/
theorem Hub.pdOn_of_takesPd {c : Hub} {p : Nat} (h : c.takesPd p = true) : c.pdOn = true := (Bool.and_eq_true_iff.mp h).2

/-! ## Reads behind writes -/

theorem Hub.flag_put_other (c : Hub) {o x : Obj} (v : Nat) (h : o.key ≠ x.key) : (c.put x v).flag o = c.flag o := by
  rw [Hub.flag, Hub.get_put_other _ _ h, Hub.flag]

theorem Hub.flag_put_same (c : Hub) (o : Obj) (v : Nat) : (c.put o v).flag o = (v % o.cap != 0) := by rw [Hub.flag, Hub.get_put_same]

theorem OnlyRegs.flag {c d : Hub} {os : List Obj} (h : OnlyRegs c d os) (o : Obj) (other : ∀ x ∈ os, o.key ≠ x.key) : d.flag o = c.flag o := by
  rw [Hub.flag, h o other, Hub.flag]

theorem OnlyObjects.flag {c d : Hub} {os : List Obj} (h : OnlyObjects c d os) (o : Obj) (other : namesObject os o = false := by rfl) :
    d.flag o = c.flag o := by rw [Hub.flag, h.get o other, Hub.flag]

/-! ## A message (R210) -/

theorem Hub.newMessage_onlyRegs (c : Hub) (p sop : Nat) : OnlyRegs c (c.newMessage p sop) [H.goodCrc p sop, H.msgId p sop] :=
  ((OnlyRegs.refl c _).put (by simp) 0).put (by simp) _

theorem Hub.sendPd_onlyRegs (c : Hub) (p : Nat) (m : Pd) (sop : Nat) : OnlyRegs c (c.sendPd p m sop) [H.goodCrc p sop, H.msgId p sop] :=
  (c.newMessage_onlyRegs p sop).emit _

theorem Hub.sendVdm_onlyRegs (c : Hub) (p : Nat) (v : Vdm) : OnlyRegs c (c.sendVdm p v) [H.goodCrc p 0, H.msgId p 0] :=
  (c.newMessage_onlyRegs p 0).emit _

theorem Hub.heard_onlyRegs (c : Hub) (p : Nat) : OnlyRegs c (c.heard p) [H.pdSeen p] := (OnlyRegs.refl c _).put (by simp) 1

@[simp] theorem Hub.sendPd_out (c : Hub) (p : Nat) (m : Pd) (sop : Nat) : (c.sendPd p m sop).out = c.out ++ [.pd p sop m] := rfl
@[simp] theorem Hub.sendPd_lines (c : Hub) (p : Nat) (m : Pd) (sop : Nat) : (c.sendPd p m sop).lines = c.lines := rfl
@[simp] theorem Hub.sendVdm_out (c : Hub) (p : Nat) (v : Vdm) : (c.sendVdm p v).out = c.out ++ [.vdm p v] := rfl
@[simp] theorem Hub.sendVdm_lines (c : Hub) (p : Nat) (v : Vdm) : (c.sendVdm p v).lines = c.lines := rfl
@[simp] theorem Hub.heard_out (c : Hub) (p : Nat) : (c.heard p).out = c.out := rfl
@[simp] theorem Hub.heard_lines (c : Hub) (p : Nat) : (c.heard p).lines = c.lines := rfl

/-- The registers of a message taken and answered on SOP. -/
abbrev replyRegs (p : Nat) : List Obj := [H.pdSeen p, H.goodCrc p 0, H.msgId p 0]

/-- A message taken and answered. -/
theorem Hub.replyPd_onlyRegs (c : Hub) (p : Nat) (m : Pd) : OnlyRegs c ((c.heard p).sendPd p m) (replyRegs p) :=
  ((c.heard_onlyRegs p).mono (by simp)).trans ((Hub.sendPd_onlyRegs _ p m 0).mono (by simp))

theorem Hub.replyVdm_onlyRegs (c : Hub) (p : Nat) (v : Vdm) : OnlyRegs c ((c.heard p).sendVdm p v) (replyRegs p) :=
  ((c.heard_onlyRegs p).mono (by simp)).trans ((Hub.sendVdm_onlyRegs _ p v).mono (by simp))

/-! ## The end of an exchange (R203, R215, R220, R418) -/

/-- A port that is no Source has nothing of sag stage 1 to do but to forget it. -/
theorem Hub.sagHeld_sink {c : Hub} {p : Nat} (sink : c.isSource p = false) : c.sagHeld p = c.when (c.flag (H.sagDue p)) fun c => c.put (H.sagDue p) 0 := by
  have still : (c.put (H.sagDue p) 0).isSource p = false := by rwa [Hub.isSource, Hub.get_put_other _ _ (by simp)]
  unfold Hub.sagHeld Hub.sag1Act Hub.when
  simp [still]

/-- With nothing waiting on the port the end of an exchange sends nothing. -/
theorem Hub.sendDue_settled {c : Hub} {p : Nat} (sag : c.flag (H.sagDue p) = false) (caps : c.flag (H.capsDue p) = false)
    (swap : c.get (H.swapWait p) ≠ 2) : c.sendDue p = c := by
  simp [Hub.sendDue, Hub.sagHeld, sag, caps, swap]

/-- A sink whose swap request is out or over sends nothing at the end of an exchange. -/
theorem Hub.sendDue_sink {c : Hub} {p : Nat} (sink : c.isSource p = false) (swap : c.get (H.swapWait p) ≠ 2) :
    OnlyRegs c (c.sendDue p) [H.sagDue p, H.pdHeld p] ∧ (c.sendDue p).out = c.out := by
  have sag : OnlyRegs c (c.sagHeld p) [H.sagDue p] ∧ (c.sagHeld p).out = c.out := by
    rw [Hub.sagHeld_sink sink]
    exact ⟨(OnlyRegs.refl c _).when _ fun d => (OnlyRegs.refl d _).put (by simp) 0, by unfold Hub.when; split <;> rfl⟩
  obtain ⟨regs, out⟩ := sag
  have sinks : (c.sagHeld p).isSource p = false := by rwa [Hub.isSource, regs _ (by simp)]
  have sent : (c.sagHeld p).get (H.swapWait p) ≠ 2 := by rwa [regs _ (by simp)]
  replace regs := regs.mono (os := [H.sagDue p, H.pdHeld p]) (by simp)
  unfold Hub.sendDue
  simp only [sinks, sent, Bool.and_false, Bool.false_eq_true, or_false, false_and, if_false, ite_self]
  split
  · split
    · exact ⟨regs.put (by simp) 1, out⟩
    · exact ⟨regs, out⟩
  · exact ⟨regs, out⟩

/-! ## Swaps (R215–R218) -/

theorem Hub.swapEnd_onlyRegs (c : Hub) (p result : Nat) :
    OnlyRegs c (c.swapEnd p result) [O.swapRequest p, O.swapResult p, H.swapTries p, H.swapWait p, H.swapOwn p] :=
  (((((OnlyRegs.refl c _).put (by simp) 0).put (by simp) result).put (by simp) 0).put (by simp) 0).put (by simp) 0

/-- The port's own request is over, with its result. -/
theorem Hub.swapEnd_state (c : Hub) (p : Nat) {result : Nat} (byte : result < 256) : (c.swapEnd p result).get (O.swapRequest p) = 0
    ∧ (c.swapEnd p result).get (O.swapResult p) = result ∧ (c.swapEnd p result).get (H.swapWait p) = 0 := by
  simp [Hub.swapEnd, Hub.get_put_other, Obj.cap, Nat.mod_eq_of_lt byte]

theorem Hub.sendSwap_onlyRegs (c : Hub) (p k : Nat) :
    OnlyRegs c (c.sendSwap p k) [H.swapWait p, H.swapOwn p, H.goodCrc p 0, H.msgId p 0, H.pdx p] :=
  ((((OnlyRegs.refl c _).put (by simp) 0).put (by simp) 1).trans ((Hub.sendPd_onlyRegs _ p _ 0).mono (by simp))).put (by simp) _

/-- The request that a port sends for a swap: 1 of the power roles, 2 of the data roles, 3 of VCONN. -/
def swapMessage (k : Nat) : Pd := match k with | 1 => .prSwap | 2 => .drSwap | _ => .vconnSwap

/-- The swap's exchange runs, and its request is out. -/
theorem Hub.sendSwap_state (c : Hub) (p : Nat) {k : Nat} (range : k ≤ 3) : (c.sendSwap p k).out = c.out ++ [.pd p 0 (swapMessage k)]
    ∧ (c.sendSwap p k).get (H.pdx p) = 4 + k ∧ (c.sendSwap p k).get (H.swapWait p) = 0 := by
  refine ⟨rfl, (Hub.get_put_same _ _ _).trans (Nat.mod_eq_of_lt (show 4 + k < 256 by omega)), ?_⟩
  unfold Hub.sendSwap
  rw [Hub.get_put_other _ _ (by simp), Hub.sendPd_onlyRegs _ p _ 0 _ (by simp), Hub.get_put_other _ _ (by simp), Hub.get_put_same]
  rfl

/-- SWAP_ACCEPT, POLICY and the mode let the port take a swap of a kind (R215). -/
def Hub.swapAllowed (c : Hub) (p k : Nat) : Bool :=
  bit (c.get (O.swapAccept p)) (k - 1)
    && (if k = 3 then c.get (O.vconnState p) != 2 && !c.inRom else decide (2 ≤ c.get (O.policy p)) && c.get (O.modeState p) != 2)

/-- A swap asked for while no exchange runs is accepted where it is allowed, and rejected else. -/
theorem Hub.swapAsked_idle {c : Hub} {p : Nat} (idle : c.exchanging p = false) (k : Nat) (accept : Hub → Hub) : c.swapAsked p k accept
    = if c.swapAllowed p k then accept ((c.heard p).sendPd p .accept) else (c.heard p).sendPd p .reject := by
  have none : (c.heard p).get (H.pdx p) = 0 := by
    rw [c.heard_onlyRegs p _ (by simp)]
    simpa using (Bool.or_eq_false_iff.mp (Bool.or_eq_false_iff.mp idle).1).1
  have still : (c.heard p).exchanging p = false := by
    rw [← idle, Hub.exchanging, Hub.exchanging, c.heard_onlyRegs p _ (by simp), c.heard_onlyRegs p _ (by simp)]
  have allowed : (c.heard p).swapAllowed p k = c.swapAllowed p k := by
    simp [Hub.swapAllowed, Hub.inRom, Hub.heard, Hub.get_put_other]
  rw [← allowed]
  unfold Hub.swapAsked
  simp [none, still, Hub.swapAllowed]

end Sys2Proof.Machine
end

section
/-! The statement on swaps (O31): a partner's request, the port's own, and its answers (R215–R218). -/
namespace Sys2Proof.Machine

-- One theorem after another: elaborated side by side they take more memory than the check allows.
set_option Elab.async false

/-! ## The arms -/

theorem exec_prSwap (p : Port) (s : State) : exec (.prSwap p) s = execPrSwap p s := by rfl
theorem exec_drSwap (p : Port) (s : State) : exec (.drSwap p) s = execDrSwap p s := by rfl
theorem exec_vconnSwap (p : Port) (s : State) : exec (.vconnSwap p) s = execVconnSwap p s := by rfl
theorem exec_swapRequestPrSwap (lvl : Level) (p : Port) (s : State) : exec (.swapRequestPrSwap lvl p) s = execSwapRequestPrSwap lvl p s := by rfl
theorem exec_swapRequestDrSwap (lvl : Level) (p : Port) (s : State) : exec (.swapRequestDrSwap lvl p) s = execSwapRequestDrSwap lvl p s := by rfl
theorem exec_swapRequestVconnSwap (lvl : Level) (p : Port) (s : State) :
    exec (.swapRequestVconnSwap lvl p) s = execSwapRequestVconnSwap lvl p s := by rfl
theorem exec_pdWait (p : Port) (s : State) : exec (.pdWait p) s = execPdWait p s := by rfl
theorem exec_reject (p : Port) (s : State) : exec (.reject p) s = execReject p s := by rfl
theorem exec_swapRetryTimer (p : Port) (s : State) : exec (.swapRetryTimer p) s = execSwapRetryTimer p s := by rfl

/-! ## The partner's request (R215, R216) -/

/-- No exchange runs on a port whose mode is entered, or not begun. -/
theorem Hub.exchanging_idle {c : Hub} {p : Nat} (idle : c.get (H.pdx p) = 0) (mode : c.get (O.modeState p) = 0 ∨ c.get (O.modeState p) = 2) :
    c.exchanging p = false := by
  rcases mode with h | h <;> simp [Hub.exchanging, idle, h]

/-! ## The port's own request (R215) -/

/-- The objects that a swap request of the port writes. -/
def swapRegs : List Obj :=
  [O.swapRequest 0, O.swapResult 0, H.pdx 0, H.swapTries 0, H.swapWait 0, H.goodCrc 0 0, H.msgId 0 0, H.swapOwn 0]

/-- From c, the port's request for a swap of kind k goes out. -/
structure SwapSent (p k : Nat) (c d : Hub) : Prop where
  objects : OnlyObjects c d swapRegs
  out : d.out = c.out ++ [.pd p 0 (swapMessage k)]
  pdx : d.get (H.pdx p) = 4 + k
  request : d.get (O.swapRequest p) = c.get (O.swapRequest p)
  result : d.get (O.swapResult p) = c.get (O.swapResult p)
  wait : d.get (H.swapWait p) = 0

theorem Hub.sendSwap_sent (c : Hub) (p : Nat) {k : Nat} (range : k ≤ 3) : SwapSent p k c (c.sendSwap p k) := by
  have regs := c.sendSwap_onlyRegs p k
  obtain ⟨out, pdx, wait⟩ := c.sendSwap_state p range
  exact ⟨regs.onlyObjects (by simp [swapRegs, namesObject]), out, pdx, regs _ (by simp), regs _ (by simp), wait⟩

/-- SWAP_REQUEST written where no exchange runs and no child sleeps. -/
theorem Hub.writeSwap_sends {c : Hub} {p k : Nat} (range : 1 ≤ k ∧ k ≤ 3) (mode : k ≤ 2 → c.get (O.modeState p) = 0) (takes : c.takesPd p = true)
    (none : c.get (O.swapRequest p) = 0) (idle : c.exchanging p = false) (awake : c.flag (H.childAsleep p) = false) :
    c.writeSwap p k = (.ok, (((c.put (O.swapRequest p) k).put (O.swapResult p) 0).put (H.swapTries p) 0).sendSwap p k) := by
  have still : (((c.put (O.swapRequest p) k).put (O.swapResult p) 0).put (H.swapTries p) 0).exchanging p = false := by
    simpa [Hub.exchanging, Hub.get_put_other] using idle
  have allowed : ¬(k ≤ 2 ∧ (c.get (O.modeState p) = 2 ∨ c.get (O.modeState p) = 3)) := by rintro ⟨low, h⟩; simp [mode low] at h
  rw [Hub.writeSwap, if_neg (by omega), if_neg allowed, if_neg (by simp [takes, none])]
  simp [Hub.flag_put_other, awake, still]

theorem Hub.writeSwap_state {c : Hub} {p k : Nat} (range : 1 ≤ k ∧ k ≤ 3) (mode : k ≤ 2 → c.get (O.modeState p) = 0) (takes : c.takesPd p = true)
    (none : c.get (O.swapRequest p) = 0) (idle : c.exchanging p = false) (awake : c.flag (H.childAsleep p) = false) :
    (c.writeSwap p k).1 = .ok ∧ OnlyObjects c (c.writeSwap p k).2 swapRegs ∧ (c.writeSwap p k).2.out = c.out ++ [.pd p 0 (swapMessage k)]
      ∧ (c.writeSwap p k).2.get (O.swapRequest p) = k ∧ (c.writeSwap p k).2.get (O.swapResult p) = 0
      ∧ (c.writeSwap p k).2.get (H.pdx p) = 4 + k := by
  have written := (((OnlyObjects.refl c swapRegs).put (O.swapRequest p) k).put (O.swapResult p) 0).put (H.swapTries p) 0
  have request : (((c.put (O.swapRequest p) k).put (O.swapResult p) 0).put (H.swapTries p) 0).get (O.swapRequest p) = k
      ∧ (((c.put (O.swapRequest p) k).put (O.swapResult p) 0).put (H.swapTries p) 0).get (O.swapResult p) = 0 := by
    simp [Hub.get_put_other, Obj.cap]
    omega
  rw [Hub.writeSwap_sends range mode takes none idle awake]
  have sent := Hub.sendSwap_sent (((c.put (O.swapRequest p) k).put (O.swapResult p) 0).put (H.swapTries p) 0) p range.2
  exact ⟨rfl, written.trans sent.objects, sent.out, sent.request.trans request.1, sent.result.trans request.2, sent.pdx⟩

section Writes

variable {s : State} {lvl : Level} {p : Port} (on : s.hub.domainsOn = true) (right : Engineers lvl) (free : s.hub.handingOver = false)
  (takes : s.hub.takesPd p = true) (idle : s.hub.get (H.pdx p) = 0) (none : s.hub.get (O.swapRequest p) = 0) (image : s.hub.inRom = false)
  (awake : s.hub.flag (H.childAsleep p) = false)
include on right free takes idle none image awake

/-- A swap request of kind k by a level that has the right. -/
theorem swapRequest_answers {i : Instr} {w : HeldWrite} {k : Nat}
    (arm : exec i s = onWrite w s fun c => c.request lvl engineerWrites fun c => c.writeSwap p k) (range : 1 ≤ k ∧ k ≤ 3)
    (mode : s.hub.get (O.modeState p) = 0 ∨ k = 3 ∧ s.hub.get (O.modeState p) = 2) : Answers i s fun d => OnlyObjects s.hub d swapRegs
      ∧ Sends s.hub d [.pd p.val 0 (swapMessage k), .status .ok] ∧ d.get (O.swapRequest p) = k ∧ d.get (O.swapResult p) = 0
      ∧ d.get (H.pdx p) = 4 + k := by
  refine .of_write arm on free image right.writes ?_
  have quiet := Hub.exchanging_idle idle (mode.imp_right And.right)
  obtain ⟨status, objects, out, request, result, pdx⟩ :=
    Hub.writeSwap_state range (fun low => mode.resolve_right fun h => by omega) takes none quiet awake
  refine ⟨objects.emit _, ?_, request, result, pdx⟩
  rw [Sends, Hub.emit_out, out, status, List.append_assoc]
  rfl

end Writes

/-! ## Answers to the port's request (R215) -/

/-- Wait puts the request off. -/
theorem pdWait_answers {s : State} {p : Port} {P : Hub → Prop} (takes : s.hub.takesPd p = true)
    (asked : s.hub.get (H.pdx p) = 5 ∨ s.hub.get (H.pdx p) = 6 ∨ s.hub.get (H.pdx p) = 7)
    (h : P (((((s.hub.heard p).put (H.swapWait p) 1).put (H.swapOwn p) 0)).pdEnd p)) : Answers (.pdWait p) s P := by
  refine .of_ports (exec_pdWait p s) (Hub.pdOn_of_takesPd takes) ?_
  have heard := s.hub.heard_onlyRegs p (H.pdx p) (by simp)
  rcases asked with e | e | e <;> rw [e] at heard <;> simpa [takes, heard] using h

/-- Reject ends it. -/
theorem reject_answers {s : State} {p : Port} {P : Hub → Prop} (takes : s.hub.takesPd p = true)
    (asked : s.hub.get (H.pdx p) = 5 ∨ s.hub.get (H.pdx p) = 6 ∨ s.hub.get (H.pdx p) = 7)
    (h : P (((s.hub.heard p).swapEnd p 2).pdEnd p)) : Answers (.reject p) s P := by
  refine .of_ports (exec_reject p s) (Hub.pdOn_of_takesPd takes) ?_
  have heard := s.hub.heard_onlyRegs p (H.pdx p) (by simp)
  rcases asked with e | e | e <;> rw [e] at heard <;> simpa [takes, heard] using h

/-- An exchange that ends at a sink, whose own swap request is not due. -/
theorem Hub.pdEnd_sink {c : Hub} {p : Nat} (sink : c.isSource p = false) (swap : c.get (H.swapWait p) ≠ 2) :
    OnlyRegs c (c.pdEnd p) [H.pdx p, H.sagDue p, H.pdHeld p] ∧ (c.pdEnd p).get (H.pdx p) = 0 ∧ (c.pdEnd p).out = c.out := by
  have ended := (OnlyRegs.refl c [H.pdx p, H.sagDue p, H.pdHeld p]).put (x := H.pdx p) (by simp) 0
  obtain ⟨due, out⟩ := Hub.sendDue_sink (c := c.put (H.pdx p) 0) (p := p) (by rwa [Hub.isSource, Hub.get_put_other _ _ (by simp)])
    (by rwa [Hub.get_put_other _ _ (by simp)])
  exact ⟨ended.trans (due.mono (by simp)), (due _ (by simp)).trans (Hub.get_put_same _ _ _), out⟩

/-! ## The statement -/

/-- Settles O31: a partner's request is taken as SWAP_ACCEPT, POLICY and the mode allow, and the port's own goes out, waits or ends as it is
answered. -/
theorem swapCommands : Obligations.SwapCommands := by
  unfold Obligations.SwapCommands
  refine ⟨?power, ?refused, ?data, ?vconn, ?askPower, ?busy, ?askData, ?askVconn, ?waits, ?rejected, ?again, ?givenUp⟩
  case power =>
    intro s p takes source idle mode accepts dual
    have allowed : s.hub.swapAllowed p 1 = true := by simp [Hub.swapAllowed, accepts, dual, mode]
    have reply := s.hub.replyPd_onlyRegs p .accept
    have still : ((s.hub.heard p).sendPd p .accept).isSource p = true := by rwa [Hub.isSource, reply _ (by simp)]
    refine .of_ports (exec_prSwap p s) (Hub.pdOn_of_takesPd takes) ?_
    rw [takes, Bool.not_true, if_neg Bool.false_ne_true, Hub.swapAsked_idle (Hub.exchanging_idle idle (.inl mode)), if_pos allowed, if_pos still]
    exact ⟨rfl, Hub.get_put_same _ _ _, (reply.mono (by simp)).put (by simp) 8⟩
  case refused =>
    intro s p takes idle mode
    have refused : s.hub.swapAllowed p 1 = false := by simp [Hub.swapAllowed, mode]
    refine .of_ports (exec_prSwap p s) (Hub.pdOn_of_takesPd takes) ?_
    rw [takes, Bool.not_true, if_neg Bool.false_ne_true, Hub.swapAsked_idle (Hub.exchanging_idle idle (.inr mode)), refused]
    exact ⟨rfl, s.hub.replyPd_onlyRegs p .reject⟩
  case data =>
    intro s p takes idle mode accepts dual role
    have allowed : s.hub.swapAllowed p 2 = true := by simp [Hub.swapAllowed, accepts, dual, mode]
    have reply := s.hub.replyPd_onlyRegs p .accept
    refine .of_ports (exec_drSwap p s) (Hub.pdOn_of_takesPd takes) ?_
    rw [takes, Bool.not_true, if_neg Bool.false_ne_true, Hub.swapAsked_idle (Hub.exchanging_idle idle (.inl mode)), if_pos allowed,
      reply (O.dataRole p) (by simp)]
    refine ⟨rfl, (Hub.get_put_same _ _ _).trans (Nat.mod_eq_of_lt (show 3 - s.hub.get (O.dataRole p) < 256 by omega)), ?_⟩
    exact (reply.mono (by simp)).put (by simp) _
  case vconn =>
    intro s p takes idle image accepts sound source
    have allowed : s.hub.swapAllowed p 3 = true := by simp [Hub.swapAllowed, accepts, sound, image]
    have reply := s.hub.replyPd_onlyRegs p .accept
    refine .of_ports (exec_vconnSwap p s) (Hub.pdOn_of_takesPd takes) ?_
    rw [takes, Bool.not_true, if_neg Bool.false_ne_true, Hub.swapAsked_idle idle, if_pos allowed, if_pos (by rwa [reply.flag _ (by simp)])]
    exact ⟨rfl, Hub.get_put_same _ _ _, (reply.mono (by simp)).put (by simp) 12⟩
  case askPower =>
    intro s lvl p on right free takes idle mode none image awake
    exact swapRequest_answers on right free takes idle none image awake (exec_swapRequestPrSwap lvl p s) (by decide) (.inl mode)
  case busy =>
    intro s lvl p on right free mode image
    refine .of_write (exec_swapRequestPrSwap lvl p s) on free image right.writes ?_
    rw [Hub.writeSwap, if_neg (by decide), if_pos ⟨by decide, .inl mode⟩]
    exact ⟨rfl, (Hub.get_emit _ _ _).trans (Hub.get_put_same _ _ _), ((OnlyRegs.refl _ _).put (by simp) 4).emit _⟩
  case askData =>
    intro s lvl p on right free takes idle mode none image awake
    obtain ⟨t, run, queue, memory, objects, sends, request, -, pdx⟩ :=
      swapRequest_answers on right free takes idle none image awake (exec_swapRequestDrSwap lvl p s) (by decide) (.inl mode)
    exact ⟨t, run, queue, memory, objects, sends, request, pdx⟩
  case askVconn =>
    intro s lvl p on right free takes idle mode none image awake
    obtain ⟨t, run, queue, memory, objects, sends, request, -, pdx⟩ :=
      swapRequest_answers on right free takes idle none image awake (exec_swapRequestVconnSwap lvl p s) (by decide) (.inr ⟨rfl, mode⟩)
    exact ⟨t, run, queue, memory, objects, sends, request, pdx⟩
  case waits =>
    intro s p takes sink asked
    refine pdWait_answers takes asked ?_
    have waits : OnlyRegs s.hub (((s.hub.heard p).put (H.swapWait p) 1).put (H.swapOwn p) 0) [H.pdSeen p, H.swapWait p, H.swapOwn p] :=
      (((s.hub.heard_onlyRegs p).mono (by simp)).put (by simp) 1).put (by simp) 0
    have one : (((s.hub.heard p).put (H.swapWait p) 1).put (H.swapOwn p) 0).get (H.swapWait p) = 1 := by simp [Hub.get_put_other, Obj.cap]
    obtain ⟨regs, ended, -⟩ := Hub.pdEnd_sink (c := ((s.hub.heard p).put (H.swapWait p) 1).put (H.swapOwn p) 0) (p := p)
      (by rwa [Hub.isSource, waits _ (by simp)]) (by rw [one]; decide)
    refine ⟨?_, ended, (waits.mono (by simp)).trans (regs.mono (by simp))⟩
    rw [regs.flag _ (by simp), Hub.flag, one]
    rfl
  case rejected =>
    intro s p takes sink asked
    refine reject_answers takes asked ?_
    have heard := s.hub.heard_onlyRegs p
    have withdrawn := (s.hub.heard p).swapEnd_onlyRegs p 2
    obtain ⟨request, result, waits⟩ := (s.hub.heard p).swapEnd_state p (result := 2) (by decide)
    obtain ⟨regs, ended, -⟩ := Hub.pdEnd_sink (c := (s.hub.heard p).swapEnd p 2) (p := p)
      (by rwa [Hub.isSource, withdrawn _ (by simp), heard _ (by simp)]) (by rw [waits]; decide)
    refine ⟨?_, (regs _ (by simp)).trans result, (regs _ (by simp)).trans request, ended⟩
    exact .after (regs.onlyIndexes (by simp [namesIndex])) (.after (withdrawn.onlyIndexes (by simp [namesIndex])) (heard.onlyIndexes (by simp [namesIndex])))
  case again =>
    intro s p takes waits request fewer idle mode awake
    refine .of_ports (exec_swapRetryTimer p s) (Hub.pdOn_of_takesPd takes) ?_
    have quiet := Hub.exchanging_idle idle (.inl mode)
    have counted (b : Bool) : OnlyObjects s.hub (s.hub.when b fun c => c.put (H.swapTries p) (c.get (H.swapTries p) + 1)) swapRegs :=
      (OnlyObjects.refl _ _).when b fun d => (OnlyObjects.refl d _).put (H.swapTries p) _
    have silent (b : Bool) : (s.hub.when b fun c => c.put (H.swapTries p) (c.get (H.swapTries p) + 1)).out = s.hub.out := by
      cases b <;> rfl
    dsimp only
    rw [if_neg (by simp [waits, request, takes, quiet, awake]), if_neg (by omega), request]
    have sent := Hub.sendSwap_sent (s.hub.when (s.hub.get (H.swapWait p) == 1) fun c => c.put (H.swapTries p) (c.get (H.swapTries p) + 1)) p
      (k := 2) (by decide)
    refine ⟨(counted _).trans sent.objects, ?_, ?_, sent.pdx⟩
    · rw [Sends, sent.out, silent]
      rfl
    · rw [Hub.flag, sent.wait]
      rfl
  case givenUp =>
    intro s p takes waits asked idle awake spent
    refine .of_ports (exec_swapRetryTimer p s) (Hub.pdOn_of_takesPd takes) ?_
    dsimp only
    rw [if_neg (by simp [Hub.flag, waits, asked, takes, idle]; simpa [Hub.flag] using awake), if_pos ⟨by simp [waits], spent⟩]
    obtain ⟨request, result, -⟩ := s.hub.swapEnd_state p (result := 3) (by decide)
    exact ⟨result, request, rfl, (s.hub.swapEnd_onlyRegs p 3).mono (by simp)⟩

end Sys2Proof.Machine
end

section
/-! The statement on Soft and Hard Reset (O30): it leaves out a child held asleep, to which an unanswered offer is not given up but due anew (R418). -/
namespace Sys2Proof.Machine

-- One theorem after another: elaborated side by side they take more memory than the check allows.
set_option Elab.async false

/-- The arm of SENDER_RESPONSE_TIMER. -/
theorem exec_senderResponseTimer (p : Port) (s : State) : exec (.senderResponseTimer p) s = execSenderResponseTimer p s := by rfl

/-- A port attached as Source, whose capabilities went out before its child fell asleep, and which no partner has answered. -/
abbrev sleepingOffer : List (Obj × Nat) := [(O.attachState 0, 3), (O.powerRole 0, 1), (H.pdx 0, 1), (H.childAsleep 0, 1)]

/-- Refutes O30: where the offer that goes unanswered went to a child held asleep, a Source's capabilities are due anew once it is awake (R418): a
register outside the clause's bound. -/
theorem not_pdResets : ¬ Obligations.PdResets := by
  unfold Obligations.PdResets
  rintro ⟨-, -, -, -, unanswered, -⟩
  have answered := unanswered ⟨[], Hub.runningWith sleepingOffer, Mems.reset⟩ 0 (by decide) (by decide) (by decide) (by decide) (by decide)
  obtain ⟨-, -, frame⟩ := answered.of_run ((exec_senderResponseTimer ..).trans (onPorts_on _ (by decide)))
  have kept : 1 = 0 := frame (H.capsDue 0) (by decide)
  exact absurd kept (by decide)

end Sys2Proof.Machine
end

section
/-! The statement on the cable and on queries (O32): the marker's discovery, VCONN, and the answers every port gives (R196, R201, R203, R209, R225). -/
namespace Sys2Proof.Machine

-- One theorem after another: elaborated side by side they take more memory than the check allows.
set_option Elab.async false

/-! ## The arms -/

theorem exec_vconnStableTimer (p : Port) (s : State) : exec (.vconnStableTimer p) s = execVconnStableTimer p s := by rfl
theorem exec_cableDiscoveryRetry (p : Port) (s : State) : exec (.cableDiscoveryRetry p) s = execCableDiscoveryRetry p s := by rfl
theorem exec_cableIdentity (p : Port) (m : CableMarker) (s : State) : exec (.cableIdentity p m) s = execCableIdentity p m s := by rfl
theorem exec_vconnOvercurrent (p : Port) (ma : BitVec 16) (s : State) : exec (.vconnOvercurrent p ma) s = execVconnOvercurrent p ma s := by rfl
theorem exec_getSourceCap (p : Port) (s : State) : exec (.getSourceCap p) s = execGetSourceCap p s := by rfl
theorem exec_getSinkCap (p : Port) (s : State) : exec (.getSinkCap p) s = execGetSinkCap p s := by rfl
theorem exec_getRevision (p : Port) (s : State) : exec (.getRevision p) s = execGetRevision p s := by rfl
theorem exec_getStatus (p : Port) (s : State) : exec (.getStatus p) s = execGetStatus p s := by rfl
theorem exec_pdUnsupported (p : Port) (sop : Fin 3) (m : BitVec 8) (s : State) :
    exec (.pdUnsupported p sop m) s = execPdUnsupported p sop m s := by rfl

/-! ## The cable marker (R203, R209) -/

/-- A sink has no capabilities to offer for a cable that has become known. -/
theorem Hub.cableKnown_sink {c : Hub} {p : Nat} (sink : c.get (O.attachState p) = 4) : c.cableKnown p = c := by simp [Hub.cableKnown, sink]

theorem Hub.capsChanged_unattached {c : Hub} {p : Nat} (other : c.get (O.attachState p) ≠ 3) : c.capsChanged p = c := by
  simp [Hub.capsChanged, other]

/-- No marker has answered: the cable is one of 3 A and 20 V. -/
def Hub.unmarked (c : Hub) (p : Nat) : Hub :=
  ((((c.put (O.cableState p) 1).put (O.cableCurrent p) 3000).put (O.cableVmax p) 20).putB (O.cableEpr p) false).put (H.cableAsked p) 0

/-- What a passive marker on SOP' says of its cable. -/
def Hub.marked (c : Hub) (p : Nat) (m : CableMarker) : Hub :=
  let c := ((c.put (H.cableAsked p) 0).put (O.cableState p) 2).put (O.cableCurrent p) (if m.fiveAmps then 5000 else 3000)
  (((c.put (O.cableVmax p) (20 + 10 * m.vmax.val)).putB (O.cableEpr p) m.epr).put (O.cableSpeed p) m.speed.toNat).put (O.cableVdo p) m.vdo.toNat

/-- The objects of the cable. -/
def cableRegs : List Obj :=
  [O.cableState 0, O.cableCurrent 0, O.cableVmax 0, O.cableEpr 0, O.cableSpeed 0, O.cableVdo 0, H.cableAsked 0]

theorem Hub.marked_onlyObjects (c : Hub) (p : Nat) (m : CableMarker) : OnlyObjects c (c.marked p m) cableRegs := by
  unfold Hub.marked
  exact .put (.put (.put (.put (.put (.put (.put (.refl c _) _ _) _ _) _ _) _ _) _ _) _ _) _ _

/-- A passive marker's answer at a sink's end of the cable. -/
theorem cableIdentity_marked {s : State} {p : Port} {m : CableMarker} {P : Hub → Prop} (source : s.hub.flag (H.vconnSource p) = true)
    (vconn : s.hub.get (O.vconnState p) = 1) (on : s.hub.pdOn = true) (near : m.sopPP = false) (passive : m.active = false)
    (sink : s.hub.get (O.attachState p) = 4) (fast : m.speed ≠ 0) (h : P (s.hub.marked p m)) : Answers (.cableIdentity p m) s P := by
  have still : (s.hub.marked p m).get (O.attachState p) = 4 := ((s.hub.marked_onlyObjects p m).get (O.attachState p)).trans sink
  refine .of_ports (exec_cableIdentity p m s) on ?_
  rw [if_neg (by simp [source, vconn, on]), near, if_neg Bool.false_ne_true, passive, beq_false_of_ne fast]
  change P (if (s.hub.marked p m).explicit p then (s.hub.marked p m).capsChanged p else (s.hub.marked p m).cableKnown p)
  rwa [Hub.capsChanged_unattached (by rw [still]; decide), Hub.cableKnown_sink still, ite_self]

/-! ## Queries (R196) -/

/-- A query answered with a free content. -/
theorem Hub.replyDrawn_onlyRegs (c : Hub) (p : Nat) (m : Pd) : OnlyRegs c ((c.heard p).draw.2.sendPd p m) (replyRegs p) := by
  have drawn : OnlyRegs (c.heard p) (c.heard p).draw.2 (replyRegs p) := .of_regs rfl
  exact (((c.heard_onlyRegs p).mono (by simp)).trans drawn).trans ((Hub.sendPd_onlyRegs _ p m 0).mono (by simp))

/-! ## The statement -/

/-- Settles O32: each command writes the registers of its cable or of VCONN, or sends the one message that answers it. -/
theorem cableAndQueries : Obligations.CableAndQueries := by
  unfold Obligations.CableAndQueries
  refine ⟨?asks, ?unmarked, ?marked, ?overcurrent, ?carried, ?sourceCap, ?sinkCap, ?revision, ?status, ?unsupported, ?cable⟩
  case asks =>
    intro s p source vconn on
    refine .of_ports (exec_vconnStableTimer p s) on ?_
    rw [if_pos ⟨source, vconn, on⟩]
    exact ⟨rfl, (((OnlyRegs.refl _ _).put (by simp) 0).put (by simp) 1).trans ((Hub.sendPd_onlyRegs _ p _ 1).mono (by simp))⟩
  case unmarked =>
    intro s p source vconn on asked spent sink
    refine .of_ports (exec_cableDiscoveryRetry p s) on ?_
    rw [if_neg (by simp [source, vconn, asked, on]), if_neg (by omega)]
    have still : (s.hub.unmarked p).get (O.attachState p) = 4 := by simpa [Hub.unmarked, Hub.putB, Hub.get_put_other] using sink
    rw [← Hub.unmarked, Hub.cableKnown_sink still]
    refine ⟨.put (.put (.put (.put (.put (.refl _ _) _ _) _ _) _ _) _ _) _ _, ?_, ?_, ?_, ?_, rfl⟩
    all_goals simp [Hub.unmarked, Hub.putB, Hub.flag, Hub.get_put_other, Obj.cap]
  case marked =>
    intro s p m source vconn on near passive sink fast
    have volts : 20 + 10 * m.vmax.val < 256 := by omega
    have speed : m.speed.toNat < 256 := m.speed.isLt.trans (by decide)
    have amps : (if m.fiveAmps then 5000 else 3000) < 65536 := by split <;> decide
    refine cableIdentity_marked source vconn on near passive sink fast ⟨(s.hub.marked_onlyObjects p m).mono, ?_, ?_, ?_, ?_, ?_, ?_⟩
    · simp [Hub.marked, Hub.putB, Hub.get_put_other, Obj.cap]
    · simpa [Hub.marked, Hub.putB, Hub.get_put_other, Obj.cap] using Nat.mod_eq_of_lt amps
    · simpa [Hub.marked, Hub.putB, Hub.get_put_other, Obj.cap] using Nat.mod_eq_of_lt volts
    · cases e : m.epr <;> simp [Hub.marked, Hub.putB, Hub.flag, Hub.get_put_other, Obj.cap, e]
    · simpa [Hub.marked, Hub.putB, Hub.get_put_other, Obj.cap] using Nat.mod_eq_of_lt speed
    · simpa [Hub.marked, Hub.putB, Hub.get_put_other, Obj.cap] using Nat.mod_eq_of_lt m.vdo.isLt
  case overcurrent =>
    intro s p ma on vconn high
    refine .of_ports (exec_vconnOvercurrent p ma s) on ?_
    rw [if_neg (by simp [vconn])]
    dsimp only
    rw [if_pos high]
    refine ⟨.raise (.count (.put (.put (.refl _ _) _ _) _ _) _) 47 p, ?_, ?_, ?_, by simp⟩
    · simp [Hub.get_count_other, Obj.cap]
    · simpa [Hub.get_count_other, Hub.get_put_other, Obj.cap] using Nat.mod_eq_of_lt ma.isLt
    · simp [Hub.get_count_other, Hub.get_put_other]
  case carried =>
    intro s p ma on vconn low
    refine .of_ports (exec_vconnOvercurrent p ma s) on ?_
    rw [if_neg (by simp [vconn])]
    dsimp only
    rw [if_neg (by omega)]
    exact ⟨(OnlyRegs.refl _ _).put (by simp) _, rfl⟩
  case sourceCap =>
    intro s p takes sink
    refine .of_ports (exec_getSourceCap p s) (Hub.pdOn_of_takesPd takes) ?_
    rw [takes, sink, Bool.not_true, if_neg Bool.false_ne_true, if_neg Bool.false_ne_true]
    exact ⟨rfl, s.hub.replyPd_onlyRegs p _⟩
  case sinkCap =>
    intro s p takes
    refine .of_ports (exec_getSinkCap p s) (Hub.pdOn_of_takesPd takes) ?_
    rw [if_pos takes]
    exact ⟨⟨_, rfl⟩, s.hub.replyDrawn_onlyRegs p _⟩
  case revision =>
    intro s p takes
    refine .of_ports (exec_getRevision p s) (Hub.pdOn_of_takesPd takes) ?_
    rw [if_pos takes]
    exact ⟨rfl, s.hub.replyPd_onlyRegs p _⟩
  case status =>
    intro s p takes
    refine .of_ports (exec_getStatus p s) (Hub.pdOn_of_takesPd takes) ?_
    rw [if_pos takes]
    exact ⟨⟨_, rfl⟩, s.hub.replyDrawn_onlyRegs p _⟩
  case unsupported =>
    intro s p m takes
    refine .of_ports (exec_pdUnsupported p 0 m s) (Hub.pdOn_of_takesPd takes) ?_
    rw [if_pos ⟨takes, rfl⟩]
    exact ⟨rfl, s.hub.replyPd_onlyRegs p _⟩
  case cable =>
    intro s p sop m on other
    refine .of_ports (exec_pdUnsupported p sop m s) on ?_
    rw [if_neg fun h => other h.2]

end Sys2Proof.Machine
end

section
/-! Epolarex Link mode entered and left (R173, R189, R224, R226): the objects that each changes. -/
namespace Sys2Proof.Machine

-- One theorem after another: elaborated side by side they take more memory than the check allows.
set_option Elab.async false

/-! ## Entry (R224) -/

/-- The objects of an entry into the mode. -/
def enterRegs : List Obj := [O.modeState 0, O.entryResult 0, H.vdmStep 0] ++ detectRegs

theorem Hub.enterMode_onlyObjects (c : Hub) (p : Nat) : OnlyObjects c (c.enterMode p) enterRegs :=
  ((((OnlyObjects.refl c _).put (O.modeState p) 2).put (O.entryResult p) 1).put (H.vdmStep p) 0).trans (Hub.lanesStart_onlyObjects _ p).mono

theorem Hub.enterMode_state (c : Hub) (p : Nat) : (c.enterMode p).get (O.modeState p) = 2 ∧ (c.enterMode p).get (O.entryResult p) = 1 := by
  have lanes := (((c.put (O.modeState p) 2).put (O.entryResult p) 1).put (H.vdmStep p) 0).lanesStart_onlyObjects p
  rw [Hub.enterMode, lanes.get (O.modeState p), lanes.get (O.entryResult p)]
  simp [Hub.get_put_other, Obj.cap]

/-! ## The lanes' way to Off (R173, R189) -/

/-- The objects of a test that ends with the mode. -/
def testRegs : List Obj := O.testMode 0 :: (checkerRegs 0 0 ++ (lanesOffRegs ++ detectRegs))

theorem Hub.chkDrop_onlyObjects (c : Hub) (p l : Nat) : OnlyObjects c (c.chkDrop p l) testRegs :=
  (c.chkDrop_onlyRegs p l).onlyObjects (by simp [checkerRegs, testRegs, namesObject])

theorem Hub.testOff_onlyObjects (c : Hub) (p : Nat) : OnlyObjects c (c.testOff p) testRegs := by
  unfold Hub.testOff
  refine .ite (.after (Hub.lanesStart_onlyObjects _ p).mono (.after (Hub.lanesOff_onlyObjects _ p).mono (.put ?_ _ _))) (.refl c _)
  exact .each (.refl c _) _ fun d l => d.chkDrop_onlyObjects p l

theorem Hub.lanesExit_onlyObjects (c : Hub) (p : Nat) (entered : Bool) : OnlyObjects c (c.lanesExit p entered) testRegs :=
  .ite (.ite (c.testOff_onlyObjects p) (.refl c _)) (c.lanesOff_onlyObjects p).mono

/-- Lanes that go Off before any link is up show Off and Down. -/
theorem Hub.lanesOff_state {c : Hub} {p : Nat} (down : c.get (O.linkState p) = 1) :
    (c.lanesOff p).get (O.trainState p) = 0 ∧ (c.lanesOff p).get (O.linkState p) = 0 := by
  -- The lanes in Off, before the link is shown Down.
  have off : OnlyObjects ((c.adaptEnd p).lanesTo p 0) ((((((c.adaptEnd p).lanesTo p 0).put (O.gear p) 0).put (O.txLanes p) 0).put
      (O.rxLanes p) 0).put (H.idleWake p) 0 |>.showLanes p 0 0)
      [O.gear 0, O.txLanes 0, O.rxLanes 0, H.idleWake 0, O.laneStatus 0 0, O.logicalLane 0 0] :=
    .after (Hub.showLanes_onlyObjects _ p 0 0).mono (.put (.put (.put (.put (.refl _ _) _ _) _ _) _ _) _ _)
  have train := (off.get (O.trainState p)).trans (Hub.lanesTo_trainState _ p 0)
  have link := ((off.get (O.linkState p)).trans ((Hub.lanesTo_onlyObjects _ p 0).get (O.linkState p))).trans
    (((c.adaptEnd_onlyObjects p).get (O.linkState p)).trans down)
  unfold Hub.lanesOff
  dsimp only
  rw [link, beq_self_eq_true, Hub.when_true, Hub.get_put_other _ _ (by simp), Hub.get_put_same]
  exact ⟨train, rfl⟩

/-! ## The end of the mode (R226) -/

/-- The registers of what a port remembers of a refused or former partner (R23). -/
theorem Hub.freshPort_onlyRegs (c : Hub) (p : Nat) : OnlyRegs c (c.freshPort p) [H.refused p, H.formerDown p, H.refusedBelow p] :=
  (((OnlyRegs.refl c _).put (by simp) _).put (by simp) _).put (by simp) _

/-- The objects that the end of the mode changes beside its own two. -/
def exitRegs : List Obj := [H.refused 0, H.formerDown 0, H.refusedBelow 0] ++ (testRegs ++ downRegs)

theorem Hub.freshPort_onlyObjects (c : Hub) (p : Nat) : OnlyObjects c (c.freshPort p) exitRegs :=
  (c.freshPort_onlyRegs p).onlyObjects (by simp [exitRegs, namesObject])

theorem OnlyObjects.subset {c d : Hub} {xs os : List Obj} (h : OnlyObjects c d xs) (sub : xs ⊆ os) : OnlyObjects c d os :=
  fun o ho => h o fun x hx => ho x (sub hx)

/-- The mode is over, and the lanes and the link end behind it. -/
theorem Hub.exitMode_rest (c : Hub) (p : Nat) (detached : Bool) :
    OnlyObjects ((c.put (O.modeState p) 0).put (H.vdmStep p) 0) (c.exitMode p detached) exitRegs :=
  .when (.after ((Hub.linkDown_onlyObjects _ p detached).subset fun x hx => by simp [exitRegs, hx])
    ((Hub.lanesExit_onlyObjects _ p _).subset fun x hx => by simp [exitRegs, hx])) _ fun d => d.freshPort_onlyObjects p

theorem Hub.exitMode_onlyObjects (c : Hub) (p : Nat) (detached : Bool) :
    OnlyObjects c (c.exitMode p detached) ([O.modeState 0, H.vdmStep 0] ++ exitRegs) :=
  (((OnlyObjects.refl c _).put (O.modeState p) 0).put (H.vdmStep p) 0).trans ((c.exitMode_rest p detached).subset fun x hx => by simp [hx])

theorem Hub.exitMode_state (c : Hub) (p : Nat) (detached : Bool) : (c.exitMode p detached).get (O.modeState p) = 0
    ∧ (c.exitMode p detached).get (H.vdmStep p) = 0 := by
  have rest := c.exitMode_rest p detached
  rw [rest.get (O.modeState p), rest.get (H.vdmStep p)]
  simp [Hub.get_put_other]

/-- The mode left before any link is up: the lanes show Off and the link Down. -/
theorem Hub.exitMode_unlinked {c : Hub} {p : Nat} (untested : c.get (O.trainState p) ≠ 11) (down : c.get (O.linkState p) = 1) (detached : Bool) :
    (c.exitMode p detached).get (O.trainState p) = 0 ∧ (c.exitMode p detached).get (O.linkState p) = 0 := by
  have left (b : Bool) : ((c.put (O.modeState p) 0).put (H.vdmStep p) 0).lanesExit p b = ((c.put (O.modeState p) 0).put (H.vdmStep p) 0).lanesOff p := by
    rw [Hub.lanesExit, Hub.get_put_other _ _ (by simp), Hub.get_put_other _ _ (by simp), if_neg untested]
  obtain ⟨train, link⟩ := Hub.lanesOff_state (c := (c.put (O.modeState p) 0).put (H.vdmStep p) 0) (p := p)
    (by rwa [Hub.get_put_other _ _ (by simp), Hub.get_put_other _ _ (by simp)])
  have stays : (((c.put (O.modeState p) 0).put (H.vdmStep p) 0).lanesOff p).linkDown p detached
      = ((c.put (O.modeState p) 0).put (H.vdmStep p) 0).lanesOff p := by rw [Hub.linkDown, link, if_pos (.inl rfl)]
  have fresh (d : Hub) (b : Bool) : OnlyRegs d (d.when b fun c => c.freshPort p) [H.refused p, H.formerDown p, H.refusedBelow p] :=
    (OnlyRegs.refl d _).when b fun d => d.freshPort_onlyRegs p
  unfold Hub.exitMode
  dsimp only
  rw [left, stays, fresh _ _ _ (by simp), fresh _ _ _ (by simp)]
  exact ⟨train, link⟩

end Sys2Proof.Machine
end

section
/-! The statement on Epolarex Link mode (O33): its discovery, entry and end at the DFP and at the UFP (R222–R226). -/
namespace Sys2Proof.Machine

-- One theorem after another: elaborated side by side they take more memory than the check allows.
set_option Elab.async false

/-! ## The arms -/

theorem exec_discoverIdentity (p : Port) (s : State) : exec (.discoverIdentity p) s = execDiscoverIdentity p s := by rfl
theorem exec_discoverSvids (p : Port) (s : State) : exec (.discoverSvids p) s = execDiscoverSvids p s := by rfl
theorem exec_discoverModes (p : Port) (svid : BitVec 16) (s : State) : exec (.discoverModes p svid) s = execDiscoverModes p svid s := by rfl
theorem exec_enterMode (p : Port) (svid : BitVec 16) (position : BitVec 3) (vdo : BitVec 32) (s : State) :
    exec (.enterMode p svid position vdo) s = execEnterMode p svid position vdo s := by rfl
theorem exec_exitMode (p : Port) (svid : BitVec 16) (s : State) : exec (.exitMode p svid) s = execExitMode p svid s := by rfl
theorem exec_attention (p : Port) (svid : BitVec 16) (vdo : BitVec 32) (s : State) :
    exec (.attention p svid vdo) s = execAttention p svid vdo s := by rfl
theorem exec_modeEntryDelay (p : Port) (s : State) : exec (.modeEntryDelay p) s = execModeEntryDelay p s := by rfl
theorem exec_vdmAnswer (p : Port) (ans : VdmAnswer) (s : State) : exec (.vdmAnswer p ans) s = execVdmAnswer p ans s := by rfl
theorem exec_entryWait (p : Port) (s : State) : exec (.entryWait p) s = execEntryWait p s := by rfl
theorem exec_vdmResponseTimeout (p : Port) (s : State) : exec (.vdmResponseTimeout p) s = execVdmResponseTimeout p s := by rfl
theorem exec_epxEnableWrite (lvl : Level) (p : Port) (value : Bool) (s : State) :
    exec (.epxEnableWrite lvl p value) s = execEpxEnableWrite lvl p value s := by rfl

/-! ## Entry at the UFP (R224, R225) -/

/-- What the UFP notes of an Enter Mode. -/
def Hub.entryNoted (c : Hub) (p : Nat) (vdo : BitVec 32) : Hub := ((c.heard p).put (O.partnerModeVdo p) vdo.toNat).put (H.entryWaitOn p) 0

theorem Hub.entryNoted_onlyRegs (c : Hub) (p : Nat) (vdo : BitVec 32) :
    OnlyRegs c (c.entryNoted p vdo) [H.pdSeen p, O.partnerModeVdo p, H.entryWaitOn p] :=
  (((c.heard_onlyRegs p).mono (by simp)).put (by simp) _).put (by simp) 0

theorem Hub.entryNoted_vdo (c : Hub) (p : Nat) (vdo : BitVec 32) : (c.entryNoted p vdo).get (O.partnerModeVdo p) = vdo.toNat := by
  simpa [Hub.entryNoted, Hub.get_put_other, Obj.cap] using vdo.isLt

theorem Hub.entryOutcome_onlyRegs (c : Hub) (p r : Nat) : OnlyRegs c (c.entryOutcome p r) [O.entryResult p] :=
  ((OnlyRegs.refl c _).put (by simp) r).when _ fun d => (OnlyRegs.refl d _).raise 48 p r

theorem Hub.entryOutcome_out (c : Hub) (p r : Nat) : (c.entryOutcome p r).out = c.out := by
  unfold Hub.entryOutcome Hub.when
  split <;> rfl

theorem Hub.entryOutcome_result (c : Hub) (p : Nat) {r : Nat} (byte : r < 256) : (c.entryOutcome p r).get (O.entryResult p) = r := by
  have shown : (c.put (O.entryResult p) r).get (O.entryResult p) = r := (Hub.get_put_same _ _ _).trans (Nat.mod_eq_of_lt byte)
  unfold Hub.entryOutcome Hub.when
  split
  · exact shown
  · exact shown

/-- Enter Mode at a UFP: the mode is entered, or the entry refused with its result. -/
theorem enterMode_answers {s : State} {p : Port} {vdo : BitVec 32} {P : Hub → Prop} (takes : s.hub.takesPd p = true)
    (ufp : s.hub.get (O.dataRole p) = 2) (version : bits vdo.toNat 8 8 = 1)
    (h : P (if s.hub.flag (O.epxEnable p) = true ∧ s.hub.modeAllowed p = true then ((s.hub.entryNoted p vdo).sendVdm p (.ackEnter epxSvid)).enterMode p
      else ((s.hub.entryNoted p vdo).sendVdm p (.nak 4)).entryOutcome p (if s.hub.flag (O.epxEnable p) = false then 6 else 3))) :
    Answers (.enterMode p 0x3B5E 1 vdo) s P := by
  have noted := s.hub.entryNoted_onlyRegs p vdo
  have enabled := noted.flag (O.epxEnable p) (by simp)
  have allowed : (s.hub.entryNoted p vdo).modeAllowed p = s.hub.modeAllowed p := by
    simp [Hub.modeAllowed, Hub.isOar, Hub.treeIs, noted _]
  have sent := (Hub.sendVdm_onlyRegs (s.hub.entryNoted p vdo) p (.nak 4)).flag (O.epxEnable p) (by simp)
  refine .of_ports (exec_enterMode p 0x3B5E 1 vdo s) (Hub.pdOn_of_takesPd takes) ?_
  rw [if_neg (by simp [takes, ufp])]
  dsimp only
  rw [← Hub.entryNoted, sent, enabled, allowed, version]
  simpa using h

/-! ## Discovery at the DFP (R223) -/

/-- The message of each step of mode entry. -/
def stepMessage (c : Hub) (p : Nat) : Nat → Vdm
  | 1 => .discoverIdentity
  | 2 => .discoverSvids
  | 3 => .discoverModes epxSvid
  | _ => .enterMode epxSvid 1 (c.modeVdo p)

/-- The registers of a step's message. -/
abbrev stepRegs (p : Nat) : List Obj := [H.vdmStep p, H.goodCrc p 0, H.msgId p 0]

/-- One of the three steps of discovery: its message is out, and the step is the one under work. -/
theorem Hub.sendStep_discovers (c : Hub) (p : Nat) {k : Nat} (discovery : k = 1 ∨ k = 2 ∨ k = 3) : OnlyRegs c (c.sendStep p k) (stepRegs p)
    ∧ (c.sendStep p k).out = c.out ++ [.vdm p (stepMessage c p k)] ∧ (c.sendStep p k).lines = c.lines ∧ (c.sendStep p k).get (H.vdmStep p) = k := by
  have step (v : Vdm) : OnlyRegs c ((c.put (H.vdmStep p) k).sendVdm p v) (stepRegs p) :=
    ((OnlyRegs.refl c _).put (by simp) k).trans ((Hub.sendVdm_onlyRegs _ p v).mono (by simp))
  have value (v : Vdm) : ((c.put (H.vdmStep p) k).sendVdm p v).get (H.vdmStep p) = k := by
    rw [Hub.sendVdm_onlyRegs _ p v _ (by simp), Hub.get_put_same]
    exact Nat.mod_eq_of_lt (show k < 256 by omega)
  rcases discovery with rfl | rfl | rfl
  · exact ⟨step _, rfl, rfl, value _⟩
  · exact ⟨step _, rfl, rfl, value _⟩
  · exact ⟨step _, rfl, rfl, value _⟩

/-- The registers of an entry that ends without the mode. -/
abbrev failRegs (p : Nat) : List Obj := [O.modeState p, H.vdmStep p, H.vdmTries p, O.entryResult p]

/-- An entry that fails with nothing waiting on the port. -/
theorem Hub.entryFails_settled {c : Hub} {p : Port} (settled : Settled c p) {r : Nat} (byte : r < 256) :
    OnlyRegs c (c.entryFails p r) (failRegs p) ∧ (c.entryFails p r).out = c.out ∧ (c.entryFails p r).get (O.entryResult p) = r
      ∧ (c.entryFails p r).get (O.modeState p) = 0 ∧ (c.entryFails p r).get (H.vdmStep p) = 0 := by
  obtain ⟨sag, caps, swap⟩ := settled
  have ended := (((OnlyRegs.refl c (failRegs p)).put (x := O.modeState p) (by simp) 0).put (x := H.vdmStep p) (by simp) 0).put
    (x := H.vdmTries p) (by simp) 0
  have outcome := Hub.entryOutcome_onlyRegs (((c.put (O.modeState p) 0).put (H.vdmStep p) 0).put (H.vdmTries p) 0) p r
  have failed := ended.trans (outcome.mono (by simp))
  unfold Hub.entryFails
  rw [Hub.sendDue_settled (by rwa [failed.flag _ (by simp)]) (by rwa [failed.flag _ (by simp)]) (by rwa [failed _ (by simp)])]
  refine ⟨failed, Hub.entryOutcome_out _ p r, Hub.entryOutcome_result _ p byte, ?_, ?_⟩
  · rw [outcome _ (by simp)]
    simp [Hub.get_put_other]
  · rw [outcome _ (by simp)]
    simp [Hub.get_put_other]

/-- A message taken where the port takes messages. -/
def Hub.heardIf (c : Hub) (p : Nat) : Hub := if c.takesPd p then c.heard p else c

theorem Hub.heardIf_onlyRegs (c : Hub) (p : Nat) : OnlyRegs c (c.heardIf p) [H.pdSeen p] := by
  unfold Hub.heardIf
  split
  · exact c.heard_onlyRegs p
  · exact .refl c _

theorem Hub.heardIf_out (c : Hub) (p : Nat) : (c.heardIf p).out = c.out := by
  unfold Hub.heardIf
  split <;> rfl

theorem Hub.heardIf_step (c : Hub) (p : Nat) : (c.heardIf p).get (H.vdmStep p) = c.get (H.vdmStep p) := c.heardIf_onlyRegs p _ (by simp)

/-- The port may still enter the mode as it takes an answer. -/
theorem Hub.heardIf_discovers {c : Hub} {p : Nat} (allowed : c.modeAllowed p = true) :
    ¬(1 ≤ (c.heardIf p).get (H.vdmStep p) ∧ (c.heardIf p).get (H.vdmStep p) ≤ 3 ∧ (c.heardIf p).modeAllowed p = false) := by
  have may : (c.heardIf p).modeAllowed p = true := by
    rw [← allowed]
    simp [Hub.modeAllowed, Hub.isOar, Hub.treeIs, c.heardIf_onlyRegs p _]
  simp [may]

section Answer

variable {s : State} {p : Port} {P : Hub → Prop} (on : s.hub.pdOn = true) (allowed : s.hub.modeAllowed p = true)
include on allowed

/-- The partner's identity at the first step of discovery. -/
theorem identity_answers {x : BitVec 32} (first : s.hub.get (H.vdmStep p) = 1)
    (h : P (((s.hub.heardIf p).put (O.partnerIdHeader p) x.toNat).sendStep p 2)) : Answers (.vdmAnswer p (.identity x)) s P := by
  refine .of_ports (exec_vdmAnswer p _ s) on ?_
  dsimp only
  rw [← Hub.heardIf, if_neg (Hub.heardIf_discovers allowed), Hub.heardIf_step, first]
  exact h

/-- The partner's SVIDs at the second. -/
theorem svids_answers {xs : List (BitVec 16)} (second : s.hub.get (H.vdmStep p) = 2)
    (h : P (if xs.any fun x => x.toNat == epxSvid then ((s.hub.heardIf p).put (O.partnerSvids p) (svidBytes xs)).sendStep p 3
      else ((s.hub.heardIf p).put (O.partnerSvids p) (svidBytes xs)).entryFails p 2)) : Answers (.vdmAnswer p (.svids xs)) s P := by
  refine .of_ports (exec_vdmAnswer p _ s) on ?_
  dsimp only
  rw [← Hub.heardIf, if_neg (Hub.heardIf_discovers allowed), Hub.heardIf_step, second]
  exact h

end Answer

/-- The SVIDs of a partner name Epolarex Link mode where 3B5Eh is among them. -/
theorem any_epxSvid (xs : List (BitVec 16)) : (xs.any fun x => x.toNat == epxSvid) = true ↔ (0x3B5E : BitVec 16) ∈ xs := by
  have same (x : BitVec 16) : x.toNat = epxSvid ↔ x = 0x3B5E := ⟨fun h => BitVec.eq_of_toNat_eq h, fun h => h ▸ rfl⟩
  simp [same]

/-! ## The statement -/

/-- Settles O33: each message of the mode is answered or sent as R222–R225 say, and the mode's end takes the lanes and the link down (R226). -/
theorem modeEntryCommands : Obligations.ModeEntryCommands := by
  unfold Obligations.ModeEntryCommands
  refine ⟨?identity, ?svids, ?modes, ?otherSvid, ?enters, ?disabled, ?exits, ?asked, ?begins, ?known, ?listed, ?unlisted, ?waited, ?tried, ?gaveUp,
    ?left, ?enabled⟩
  case identity =>
    intro s p takes
    refine .of_ports (exec_discoverIdentity p s) (Hub.pdOn_of_takesPd takes) ?_
    rw [if_pos takes]
    exact ⟨rfl, s.hub.replyVdm_onlyRegs p _⟩
  case svids =>
    intro s p takes
    refine .of_ports (exec_discoverSvids p s) (Hub.pdOn_of_takesPd takes) ?_
    rw [if_pos takes]
    exact ⟨rfl, s.hub.replyVdm_onlyRegs p _⟩
  case modes =>
    rintro s p svid takes rfl
    refine .of_ports (exec_discoverModes p _ s) (Hub.pdOn_of_takesPd takes) ?_
    rw [if_pos ⟨takes, rfl⟩]
    exact ⟨rfl, s.hub.replyVdm_onlyRegs p _⟩
  case otherSvid =>
    intro s p svid on other
    refine .of_ports (exec_discoverModes p _ s) on ?_
    rw [if_neg fun h => other (BitVec.eq_of_toNat_eq h.2)]
  case enters =>
    intro s p vdo takes ufp version enabled allowed
    refine enterMode_answers takes ufp version ?_
    rw [if_pos ⟨enabled, allowed⟩]
    have noted := s.hub.entryNoted_onlyRegs p vdo
    have acked := Hub.sendVdm_onlyRegs (s.hub.entryNoted p vdo) p (.ackEnter epxSvid)
    have entered := Hub.enterMode_onlyObjects ((s.hub.entryNoted p vdo).sendVdm p (.ackEnter epxSvid)) p
    obtain ⟨mode, result⟩ := Hub.enterMode_state ((s.hub.entryNoted p vdo).sendVdm p (.ackEnter epxSvid)) p
    refine ⟨?_, mode, result, ((entered.get (O.partnerModeVdo p)).trans (acked _ (by simp))).trans (s.hub.entryNoted_vdo p vdo)⟩
    exact .after (entered.onlyIndexes) (.after (acked.onlyIndexes (by simp [namesIndex])) (noted.onlyIndexes (by simp [namesIndex])))
  case disabled =>
    intro s p vdo takes ufp version disabled
    refine enterMode_answers takes ufp version ?_
    rw [disabled, if_neg (by simp), if_pos rfl]
    have noted := s.hub.entryNoted_onlyRegs p vdo
    have nak := Hub.sendVdm_onlyRegs (s.hub.entryNoted p vdo) p (.nak 4)
    have outcome := Hub.entryOutcome_onlyRegs ((s.hub.entryNoted p vdo).sendVdm p (.nak 4)) p 6
    refine ⟨?_, rfl, Hub.get_put_same _ _ _, ((outcome _ (by simp)).trans (nak _ (by simp))).trans (noted _ (by simp))⟩
    exact .after (outcome.onlyIndexes (by simp [namesIndex]))
      (.after (nak.onlyIndexes (by simp [namesIndex])) (noted.onlyIndexes (by simp [namesIndex])))
  case exits =>
    intro s p takes mode untested down
    have acked := s.hub.replyVdm_onlyRegs p (.ackExit epxSvid)
    have exit := Hub.exitMode_onlyObjects ((s.hub.heard p).sendVdm p (.ackExit epxSvid)) p false
    obtain ⟨left, step⟩ := Hub.exitMode_state ((s.hub.heard p).sendVdm p (.ackExit epxSvid)) p false
    obtain ⟨train, link⟩ := Hub.exitMode_unlinked (c := (s.hub.heard p).sendVdm p (.ackExit epxSvid)) (p := p)
      (by rwa [acked _ (by simp)]) (by rwa [acked _ (by simp)]) false
    refine .of_ports (exec_exitMode p _ s) (Hub.pdOn_of_takesPd takes) ?_
    rw [if_pos ⟨takes, rfl, by rw [mode]; decide⟩]
    exact ⟨.after exit.onlyIndexes (acked.onlyIndexes (by simp [namesIndex])), left, train, link, step⟩
  case asked =>
    intro s p vdo takes dfp mode exit
    refine .of_ports (exec_attention p _ vdo s) (Hub.pdOn_of_takesPd takes) ?_
    rw [if_pos ⟨takes, rfl, dfp, mode, exit⟩]
    have regs := (((s.hub.heard_onlyRegs p).mono (os := [O.modeState p, H.vdmStep p, H.pdSeen p, H.goodCrc p 0, H.msgId p 0]) (by simp)).put
      (x := O.modeState p) (by simp) 3).put (x := H.vdmStep p) (by simp) 5
    have sent := Hub.sendVdm_onlyRegs (((s.hub.heard p).put (O.modeState p) 3).put (H.vdmStep p) 5) p (.exitMode epxSvid)
    refine ⟨rfl, (sent _ (by simp)).trans ?_, (sent _ (by simp)).trans (Hub.get_put_same _ _ _), regs.trans (sent.mono (by simp))⟩
    simp [Hub.get_put_other, Obj.cap]
  case begins =>
    intro s p delay takes explicit dfp mode idle enabled cable result allowed
    refine .of_ports (exec_modeEntryDelay p s) (Hub.pdOn_of_takesPd takes) ?_
    have done := (OnlyRegs.refl s.hub [H.modeDelayOn p]).put (x := H.modeDelayOn p) (by simp) 0
    have usb2 : (s.hub.put (H.modeDelayOn p) 0).cableUsb2 p = false := by simp [Hub.cableUsb2, done _, cable]
    have may : (s.hub.put (H.modeDelayOn p) 0).modeAllowed p = true := by
      rw [← allowed]
      simp [Hub.modeAllowed, Hub.isOar, Hub.treeIs, done _]
    dsimp only
    rw [if_neg (by simp [delay, takes, explicit, dfp, mode]), if_neg (by simp [idle]), done.flag _ (by simp), enabled, Bool.not_true,
      if_neg Bool.false_ne_true, usb2, if_neg Bool.false_ne_true, may, done _ (by simp), result, if_neg (by simp)]
    have begun := (((OnlyRegs.refl s.hub [H.modeDelayOn p, O.modeState p, H.vdmTries p]).put (x := H.modeDelayOn p) (by simp) 0).put
      (x := O.modeState p) (by simp) 1).put (x := H.vdmTries p) (by simp) 0
    obtain ⟨regs, out, -, step⟩ := Hub.sendStep_discovers (((s.hub.put (H.modeDelayOn p) 0).put (O.modeState p) 1).put (H.vdmTries p) 0) p
      (k := 1) (.inl rfl)
    refine ⟨.after (regs.onlyIndexes (by simp [namesIndex])) (begun.onlyIndexes (by simp [namesIndex])), out, ?_, step⟩
    rw [regs _ (by simp)]
    simp [Hub.get_put_other, Obj.cap]
  case known =>
    intro s p x on first allowed
    refine identity_answers on allowed first ?_
    have noted := ((s.hub.heardIf_onlyRegs p).mono (os := [H.pdSeen p, O.partnerIdHeader p]) (by simp)).put (x := O.partnerIdHeader p) (by simp) x.toNat
    obtain ⟨regs, out, -, step⟩ := Hub.sendStep_discovers ((s.hub.heardIf p).put (O.partnerIdHeader p) x.toNat) p (k := 2) (.inr (.inl rfl))
    refine ⟨.after (regs.onlyIndexes (by simp [namesIndex])) (noted.onlyIndexes (by simp [namesIndex])), ?_, ?_, step⟩
    · rw [Sends, out, Hub.put_out, Hub.heardIf_out]
      rfl
    · rw [regs _ (by simp), Hub.get_put_same]
      exact Nat.mod_eq_of_lt x.isLt
  case listed =>
    intro s p xs on second allowed listed
    refine svids_answers on allowed second ?_
    rw [if_pos ((any_epxSvid xs).mpr listed)]
    have noted := ((s.hub.heardIf_onlyRegs p).mono (os := [H.pdSeen p, O.partnerSvids p]) (by simp)).put (x := O.partnerSvids p) (by simp) (svidBytes xs)
    obtain ⟨regs, out, -, step⟩ := Hub.sendStep_discovers ((s.hub.heardIf p).put (O.partnerSvids p) (svidBytes xs)) p (k := 3) (.inr (.inr rfl))
    refine ⟨.after (regs.onlyIndexes (by simp [namesIndex])) (noted.onlyIndexes (by simp [namesIndex])), ?_, step⟩
    rw [Sends, out, Hub.put_out, Hub.heardIf_out]
    rfl
  case unlisted =>
    intro s p xs on second allowed unlisted settled
    refine svids_answers on allowed second ?_
    rw [if_neg fun h => unlisted ((any_epxSvid xs).mp h)]
    have noted := ((s.hub.heardIf_onlyRegs p).mono (os := [H.pdSeen p, O.partnerSvids p]) (by simp)).put (x := O.partnerSvids p) (by simp) (svidBytes xs)
    have still : Settled ((s.hub.heardIf p).put (O.partnerSvids p) (svidBytes xs)) p := by
      simpa [Settled, noted.flag _, noted _] using settled
    obtain ⟨regs, out, result, mode, step⟩ := Hub.entryFails_settled still (r := 2) (by decide)
    exact ⟨.after (regs.onlyIndexes (by simp [namesIndex])) (noted.onlyIndexes (by simp [namesIndex])),
      out.trans ((Hub.put_out _ _ _).trans (s.hub.heardIf_out p)), result, mode, step⟩
  case waited =>
    intro s p on explicit ufp mode result waits
    refine .of_ports (exec_entryWait p s) on ?_
    simp only [waits, explicit, ufp, mode, beq_self_eq_true, Bool.and_true, Hub.when_true]
    exact ⟨Hub.get_put_same _ _ _, rfl, ((OnlyRegs.refl _ _).put (by simp) 0).put (by simp) 2⟩
  case tried =>
    intro s p on step fewer
    refine .of_ports (exec_vdmResponseTimeout p s) on ?_
    dsimp only
    rw [step, if_neg (by decide), if_neg (by decide), if_pos fewer]
    have counted := (OnlyRegs.refl s.hub [H.vdmTries p]).put (x := H.vdmTries p) (by simp) (s.hub.get (H.vdmTries p) + 1)
    have outcome := Hub.entryOutcome_onlyRegs (s.hub.put (H.vdmTries p) (s.hub.get (H.vdmTries p) + 1)) p 4
    obtain ⟨regs, out, lines, -⟩ := Hub.sendStep_discovers ((s.hub.put (H.vdmTries p) (s.hub.get (H.vdmTries p) + 1)).entryOutcome p 4) p
      (k := 3) (.inr (.inr rfl))
    refine ⟨?_, out, (regs _ (by simp)).trans (Hub.entryOutcome_result _ p (by decide)), ?_, lines⟩
    · exact .after (regs.onlyIndexes (by simp [namesIndex])) (.after (outcome.onlyIndexes (by simp [namesIndex])) (counted.onlyIndexes (by simp [namesIndex])))
    · rw [regs _ (by simp), outcome _ (by simp), Hub.get_put_same]
      exact Nat.mod_eq_of_lt (show s.hub.get (H.vdmTries p) + 1 < 256 by omega)
  case gaveUp =>
    intro s p on step spent settled
    refine .of_ports (exec_vdmResponseTimeout p s) on ?_
    dsimp only
    rw [step, if_neg (by decide), if_neg (by decide), if_neg (by omega)]
    have outcome := s.hub.entryOutcome_onlyRegs p 4
    have still : Settled (s.hub.entryOutcome p 4) p := by simpa [Settled, outcome.flag _, outcome _] using settled
    obtain ⟨regs, out, result, mode, ended⟩ := Hub.entryFails_settled still (r := 2) (by decide)
    exact ⟨.after (regs.onlyIndexes (by simp [namesIndex])) (outcome.onlyIndexes (by simp [namesIndex])), out, result, mode, ended⟩
  case left =>
    intro s lvl p on right free mode dfp image awake
    refine .of_write (exec_epxEnableWrite lvl p false s) on free image right.writes ?_
    have written := (OnlyRegs.refl s.hub [O.epxEnable p]).put (x := O.epxEnable p) (by simp) 0
    have left := Hub.sendVdm_onlyRegs (((s.hub.put (O.epxEnable p) 0).put (O.modeState p) 3).put (H.vdmStep p) 5) p (.exitMode epxSvid)
    have ended := (((OnlyRegs.refl s.hub [O.epxEnable p, O.modeState p, H.vdmStep p]).put (x := O.epxEnable p) (by simp) 0).put
      (x := O.modeState p) (by simp) 3).put (x := H.vdmStep p) (by simp) 5
    have sends : s.hub.writeEpxEnable p false = (.ok, (s.hub.put (O.epxEnable p) 0).sendExit p) := by
      change (Status.ok, if (s.hub.put (O.epxEnable p) 0).get (O.modeState p) = 2 then (s.hub.put (O.epxEnable p) 0).leaveMode p else _) = _
      rw [written _ (by simp), if_pos mode, Hub.leaveMode, written.flag _ (by simp), awake, if_neg Bool.false_ne_true, written _ (by simp), if_pos dfp]
    rw [sends]
    refine ⟨.emit (.after (left.onlyIndexes (by simp [namesIndex])) (ended.onlyIndexes (by simp [namesIndex]))) _, ?_, ?_, ?_⟩
    · simp [Sends, Hub.sendExit]
    · rw [Hub.flag, Hub.get_emit, Hub.sendExit, left _ (by simp)]
      simp [Hub.get_put_other]
    · rw [Hub.get_emit, Hub.sendExit, left _ (by simp)]
      simp [Hub.get_put_other, Obj.cap]
  case enabled =>
    intro s lvl p on right free implicit image
    refine .of_write (exec_epxEnableWrite lvl p true s) on free image right.writes ?_
    have written := (OnlyRegs.refl s.hub [O.epxEnable p]).put (x := O.epxEnable p) (by simp) 1
    have still : (s.hub.put (O.epxEnable p) 1).explicit p = false := by rwa [Hub.explicit, written _ (by simp)]
    have only : s.hub.writeEpxEnable p true = (.ok, s.hub.put (O.epxEnable p) 1) := by
      simp [Hub.writeEpxEnable, Hub.putB, still]
    rw [only]
    refine ⟨rfl, ?_, written.emit _⟩
    rw [Hub.flag, Hub.get_emit, Hub.get_put_same]
    rfl

end Sys2Proof.Machine
end

section
/-! The statement on the contracts of a sink (O28): the request it chooses, and the contract in force with PS_RDY (R205–R208, R213, R223, R232, R234). -/
namespace Sys2Proof.Machine

-- One theorem after another: elaborated side by side they take more memory than the check allows.
set_option Elab.async false

/-! ## The arms -/

theorem exec_sourceCapabilities (p : Port) (epr : Bool) (pdos : List (BitVec 32)) (s : State) :
    exec (.sourceCapabilities p epr pdos) s = execSourceCapabilities p epr pdos s := by rfl
theorem exec_accept (p : Port) (s : State) : exec (.accept p) s = execAccept p s := by rfl
theorem exec_psRdy (p : Port) (s : State) : exec (.psRdy p) s = execPsRdy p s := by rfl
theorem exec_ppsRequestTimer (p : Port) (s : State) : exec (.ppsRequestTimer p) s = execPpsRequestTimer p s := by rfl
theorem exec_sinkEprKeepaliveTimer (p : Port) (s : State) : exec (.sinkEprKeepaliveTimer p) s = execSinkEprKeepaliveTimer p s := by rfl

/-! ## The request (R207, R208) -/

/-- The objects of a request sent. -/
def requestRegs : List Obj :=
  [H.reqRdo 0, H.reqV 0, H.reqI 0, H.reqEpr 0, H.reqPps 0, H.eprLeft 0, H.goodCrc 0 0, H.msgId 0 0, H.pdx 0]

theorem Hub.sendPd_onlyObjects (c : Hub) (p : Nat) (m : Pd) (sop : Nat) : OnlyObjects c (c.sendPd p m sop) [H.goodCrc 0 0, H.msgId 0 0] :=
  .emit (.put (.put (.refl c _) _ _) _ _) _

theorem Hub.sendRequest_onlyObjects (c : Hub) (p rdo mv ma : Nat) (epr : Bool) : OnlyObjects c (c.sendRequest p rdo mv ma epr) requestRegs := by
  have noted : OnlyObjects c ((((((c.put (H.reqRdo p) rdo).put (H.reqV p) mv).put (H.reqI p) ma).putB (H.reqEpr p) epr).put (H.reqPps p) 0).put
      (H.eprLeft p) 0) requestRegs := .put (.put (.put (.put (.put (.put (.refl c _) _ _) _ _) _ _) _ _) _ _) _ _
  exact .put (.after (Hub.sendPd_onlyObjects _ p _ 0).mono noted) _ _

theorem Hub.sendRequest_out (c : Hub) (p rdo mv ma : Nat) (epr : Bool) : (c.sendRequest p rdo mv ma epr).out = c.out ++ [.pd p 0 (.request epr rdo)] :=
  rfl

/-- A request goes out, and its exchange begins. -/
theorem Hub.sendRequest_state (c : Hub) (p rdo : Nat) {mv ma : Nat} (volts : mv < 2 ^ 32) (amps : ma < 2 ^ 16) (epr : Bool) :
    (c.sendRequest p rdo mv ma epr).get (H.pdx p) = 2 ∧ (c.sendRequest p rdo mv ma epr).get (H.reqV p) = mv
      ∧ (c.sendRequest p rdo mv ma epr).get (H.reqI p) = ma := by
  have sent (d : Hub) (m : Pd) (o : Obj) (other : namesObject [H.goodCrc 0 0, H.msgId 0 0] o = false) : (d.sendPd p m).get o = d.get o :=
    (d.sendPd_onlyObjects p m 0).get o other
  refine ⟨Hub.get_put_same _ _ _, ?_, ?_⟩
  · rw [Hub.sendRequest, Hub.get_put_other _ _ (by simp), sent _ _ _ rfl]
    simpa [Hub.putB, Hub.get_put_other, Obj.cap] using Nat.mod_eq_of_lt volts
  · rw [Hub.sendRequest, Hub.get_put_other _ _ (by simp), sent _ _ _ rfl]
    simpa [Hub.putB, Hub.get_put_other, Obj.cap] using Nat.mod_eq_of_lt amps

/-- What a sink notes of SPR capabilities. -/
def Hub.capsNoted (c : Hub) (p : Nat) (pdos : List (BitVec 32)) : Hub :=
  (((c.heard p).putB (H.inEpr p) false).putB (H.srcEprCap p) (bit ((pdos.headD 0).toNat) 23 || false)).put (H.srcCaps p)
    (leNat (((pdos.map BitVec.toNat).take 7).flatMap fun x => leBytes x 4))

theorem Hub.capsNoted_onlyObjects (c : Hub) (p : Nat) (pdos : List (BitVec 32)) :
    OnlyObjects c (c.capsNoted p pdos) [H.pdSeen 0, H.inEpr 0, H.srcEprCap 0, H.srcCaps 0] :=
  .put (.put (.put (.put (.refl c _) _ _) _ _) _ _) _ _

/-- With SINK_PPS_MV 0 and a fixed PDO of enough power, that PDO is asked for. -/
theorem Hub.chooseRequest_fixed {c : Hub} {p k pdo : Nat} {pdos : List Nat} (noPps : c.get (O.sinkPpsMv p) = 0)
    (best : c.bestPdo p pdos = some (k, pdo)) (enough : c.get (O.sinkPowerMin p) * 100000 ≤ pdoMv pdo * pdoSteps pdo) (epr : Bool) :
    c.chooseRequest p epr pdos = (c.putB (O.mismatch p) false).sendRequest p (fixedRdo k (pdoSteps pdo) (c.flag (O.sinkEpr p)) false) (pdoMv pdo)
      (10 * pdoSteps pdo) epr := by
  have none : c.ppsPdo p pdos = none := by simp [Hub.ppsPdo, noPps]
  simp [Hub.chooseRequest, none, best, enough]

/-- The voltage and the current of a PDO have few bits. -/
theorem pdo_small (pdo : Nat) : pdoMv pdo < 2 ^ 32 ∧ 10 * pdoSteps pdo < 2 ^ 16 := by
  have volts : bits pdo 10 10 < 2 ^ 10 := Nat.mod_lt _ (by decide)
  have amps : bits pdo 0 10 < 2 ^ 10 := Nat.mod_lt _ (by decide)
  unfold pdoMv pdoSteps
  omega

/-! ## The contract in force (R208, R234) -/

/-- The objects of a contract that comes into force. -/
def contractRegs : List Obj :=
  [O.contractState 0, O.contractV 0, O.contractI 0, O.contractRdo 0, H.snkBlocked 0, O.hardResetRun 0, H.softReset 0, H.slewing 0, H.modeDelayOn 0,
    H.entryWaitOn 0, H.stage1Cut 0, H.ppsNow 0, H.pdx 0]

theorem Hub.contractIn_onlyObjects (c : Hub) (p : Nat) : OnlyObjects c (c.contractIn p) contractRegs := by
  unfold Hub.contractIn
  refine .put (.put (.when (.put (.put (.put (.put (.put (.put (.put (.put (.put (.put (.refl c _) _ _) _ _) _ _) _ _) _ _) _ _) _ _) _ _) _ _) _ _) _
    fun d => ?_) _ _) _ _
  exact .put (.refl d _) (H.stage1Cut p) 0

theorem Hub.contractIn_unheard (c : Hub) (p : Nat) : Unheard c (c.contractIn p) := by
  unfold Hub.contractIn
  exact .put (.put (.when (.put (.put (.put (.put (.put (.put (.put (.put (.put (.put (.refl c) _ _) _ _) _ _) _ _) _ _) _ _) _ _) _ _) _ _) _ _) _
    fun d => .put (.refl d) _ _) _ _) _ _

/-- CONTRACT_STATE, CONTRACT_V and CONTRACT_I are those of the request, and its exchange is over. -/
theorem Hub.contractIn_state {c : Hub} {p : Nat} (epr : c.get (H.reqEpr p) ≤ 1) (volts : c.get (H.reqV p) < 2 ^ 32) (amps : c.get (H.reqI p) < 2 ^ 16) :
    (c.contractIn p).get (O.contractState p) = 2 + c.get (H.reqEpr p) ∧ (c.contractIn p).get (O.contractV p) = c.get (H.reqV p)
      ∧ (c.contractIn p).get (O.contractI p) = c.get (H.reqI p) ∧ (c.contractIn p).get (H.pdx p) = 0
      ∧ (c.contractIn p).flag (H.modeDelayOn p) = true := by
  have cut (d : Hub) (b : Bool) : OnlyRegs d (d.when b fun d => d.put (H.stage1Cut p) 0) [H.stage1Cut p] :=
    (OnlyRegs.refl d _).when b fun d => (OnlyRegs.refl d _).put (by simp) 0
  have state : (2 + c.get (H.reqEpr p)) % 256 = 2 + c.get (H.reqEpr p) := Nat.mod_eq_of_lt (by omega)
  have voltage : c.get (H.reqV p) % 4294967296 = c.get (H.reqV p) := Nat.mod_eq_of_lt volts
  have current : c.get (H.reqI p) % 65536 = c.get (H.reqI p) := Nat.mod_eq_of_lt amps
  unfold Hub.contractIn Hub.flag
  refine ⟨?_, ?_, ?_, Hub.get_put_same _ _ _, ?_⟩
  all_goals
    rw [Hub.get_put_other _ _ (by simp), Hub.get_put_other _ _ (by simp), cut _ _ _ (by simp)]
    simp [Hub.get_put_other, Obj.cap, state, voltage, current]

/-- With an explicit contract and no exchange the current limit is the contract's part of it (R234). -/
theorem Hub.ilimNow_explicit {c : Hub} {p : Nat} (explicit : c.explicit p = true) (idle : c.get (H.pdx p) = 0) :
    c.ilimNow p = min (c.get (O.contractI p) * c.get (O.ilimPct p) / 100) (c.get (O.ilimCap p)) := by
  simp [Hub.ilimNow, Hub.baseCurrent, explicit, idle]

/-! ## Answers (R208, R215) -/

section Answer

variable {s : State} {p : Port} {P : Hub → Prop} (takes : s.hub.takesPd p = true)
include takes

/-- Accept of a request for a fixed PDO, at which the sink pair may stay on. -/
theorem accept_request (asked : s.hub.get (H.pdx p) = 2) (volts : s.hub.get (O.sinkOnMv p) ≤ s.hub.get (H.reqV p))
    (fixed : s.hub.flag (H.reqPps p) = false) (h : P ((s.hub.heard p).put (H.pdx p) 3)) : Answers (.accept p) s P := by
  have heard := s.hub.heard_onlyRegs p
  have pdx : (s.hub.heard p).get (H.pdx p) = 2 := (heard _ (by simp)).trans asked
  have stays : decide ((s.hub.heard p).get (H.reqV p) < (s.hub.heard p).get (O.sinkOnMv p)) = false := by
    rw [heard _ (by simp), heard _ (by simp)]
    exact decide_eq_false (by omega)
  have plain : (s.hub.heard p).flag (H.reqPps p) = false := by rw [heard.flag _ (by simp), fixed]
  refine .of_ports (exec_accept p s) (Hub.pdOn_of_takesPd takes) ?_
  simp only [takes, pdx, stays, Hub.when_false, Bool.not_true, Bool.false_eq_true, if_false]
  rwa [plain, Hub.when_false]

/-- Accept of the port's own DR_Swap. -/
theorem accept_drSwap (asked : s.hub.get (H.pdx p) = 6)
    (h : P ((((s.hub.heard p).put (O.dataRole p) (3 - (s.hub.heard p).get (O.dataRole p))).swapOver p 1).pdEnd p)) : Answers (.accept p) s P := by
  have pdx : (s.hub.heard p).get (H.pdx p) = 6 := (s.hub.heard_onlyRegs p _ (by simp)).trans asked
  refine .of_ports (exec_accept p s) (Hub.pdOn_of_takesPd takes) ?_
  simp only [takes, pdx, Bool.not_true, Bool.false_eq_true, if_false]
  exact h

/-- PS_RDY of a source that is not EPR capable. -/
theorem psRdy_contract (asked : s.hub.get (H.pdx p) = 3) (noEpr : s.hub.flag (H.srcEprCap p) = false)
    (h : P ((((s.hub.heard p).contractIn p).put (H.eprLeft p) 0).sendDue p)) : Answers (.psRdy p) s P := by
  have heard := s.hub.heard_onlyRegs p
  have pdx : (s.hub.heard p).get (H.pdx p) = 3 := (heard _ (by simp)).trans asked
  have cap : (((s.hub.heard p).contractIn p).put (H.eprLeft p) 0).flag (H.srcEprCap p) = false := by
    rw [Hub.flag_put_other _ _ (by simp), (Hub.contractIn_onlyObjects _ p).flag (H.srcEprCap p), heard.flag _ (by simp), noEpr]
  refine .of_ports (exec_psRdy p s) (Hub.pdOn_of_takesPd takes) ?_
  simp only [takes, pdx, cap, Bool.not_true, Bool.false_eq_true, false_and, and_false, if_false]
  exact h

end Answer

/-! ## The statement -/

/-- Settles O28: a sink asks for the PDO that R207 chooses, and after PS_RDY the contract is that of the request. -/
theorem contractAsSink : Obligations.ContractAsSink := by
  unfold Obligations.ContractAsSink
  refine ⟨?chooses, ?ignores, ?waits, ?data, ?ready, ?pps, ?alive⟩
  case chooses =>
    intro s p pdos k pdo takes sink idle noPps best enough
    have heard := s.hub.heard_onlyRegs p (H.pdx p) (by simp)
    have noted := s.hub.capsNoted_onlyObjects p pdos
    have still : (s.hub.capsNoted p pdos).bestPdo p (pdos.map BitVec.toNat) = some (k, pdo) := by
      rw [← best, Hub.bestPdo, Hub.bestPdo, noted.get (O.sinkVmax p)]
    refine .of_ports (exec_sourceCapabilities p false pdos s) (Hub.pdOn_of_takesPd takes) ?_
    dsimp only
    rw [if_neg (by simp [takes, sink]), heard, if_pos (.inl idle), ← Hub.capsNoted,
      Hub.chooseRequest_fixed ((noted.get (O.sinkPpsMv p)).trans noPps) still ((noted.get (O.sinkPowerMin p)).symm ▸ enough), noted.flag (O.sinkEpr p)]
    have matched : OnlyObjects (s.hub.capsNoted p pdos) ((s.hub.capsNoted p pdos).putB (O.mismatch p) false) [O.mismatch 0] := .put (.refl _ _) _ _
    have sent := Hub.sendRequest_onlyObjects ((s.hub.capsNoted p pdos).putB (O.mismatch p) false) p
      (fixedRdo k (pdoSteps pdo) (s.hub.flag (O.sinkEpr p)) false) (pdoMv pdo) (10 * pdoSteps pdo) false
    obtain ⟨volts, amps⟩ := pdo_small pdo
    obtain ⟨pdx, reqV, reqI⟩ := Hub.sendRequest_state ((s.hub.capsNoted p pdos).putB (O.mismatch p) false) p
      (fixedRdo k (pdoSteps pdo) (s.hub.flag (O.sinkEpr p)) false) volts amps false
    refine ⟨.after sent.onlyIndexes (.after matched.onlyIndexes noted.onlyIndexes), ?_, pdx, ?_, reqV, reqI, ?_⟩
    · exact Hub.sendRequest_out _ _ _ _ _ _
    · rw [sent.flag (O.mismatch p), Hub.flag_putB _ _ rfl]
    · rw [sent.get (O.contractState p), matched.get (O.contractState p), noted.get (O.contractState p)]
  case ignores =>
    intro s p pdos takes source _
    refine .of_ports (exec_sourceCapabilities p false pdos s) (Hub.pdOn_of_takesPd takes) ?_
    rw [if_pos (.inr source)]
  case waits =>
    intro s p takes asked volts fixed
    refine accept_request takes asked volts fixed ?_
    exact ⟨Hub.get_put_same _ _ _, rfl, ((s.hub.heard_onlyRegs p).mono (by simp)).put (by simp) 3⟩
  case data =>
    intro s p takes sink asked own role
    have heard := s.hub.heard_onlyRegs p
    have turned := heard.mono (os := [O.dataRole p, H.pdSeen p]) (by simp) |>.put (x := O.dataRole p) (by simp) (3 - s.hub.get (O.dataRole p))
    refine accept_drSwap takes asked ?_
    rw [heard (O.dataRole p) (by simp), Hub.swapOver, turned.flag _ (by simp), own, if_pos rfl]
    have ended := Hub.swapEnd_onlyRegs ((s.hub.heard p).put (O.dataRole p) (3 - s.hub.get (O.dataRole p))) p 1
    obtain ⟨request, result, waits⟩ := Hub.swapEnd_state ((s.hub.heard p).put (O.dataRole p) (3 - s.hub.get (O.dataRole p))) p (result := 1) (by decide)
    obtain ⟨regs, pdx, -⟩ := Hub.pdEnd_sink (c := ((s.hub.heard p).put (O.dataRole p) (3 - s.hub.get (O.dataRole p))).swapEnd p 1) (p := p)
      (by rwa [Hub.isSource, ended _ (by simp), turned _ (by simp)]) (by rw [waits]; decide)
    refine ⟨?_, ?_, (regs _ (by simp)).trans result, (regs _ (by simp)).trans request, pdx⟩
    · exact .after (regs.onlyIndexes (by simp [namesIndex])) (.after (ended.onlyIndexes (by simp [namesIndex])) (turned.onlyIndexes (by simp [namesIndex])))
    · rw [regs _ (by simp), ended _ (by simp), Hub.get_put_same]
      exact Nat.mod_eq_of_lt (show 3 - s.hub.get (O.dataRole p) < 256 by omega)
  case ready =>
    intro s p takes sink asked epr volts amps noEpr settled
    have heard := s.hub.heard_onlyRegs p
    have made := Hub.contractIn_onlyObjects (s.hub.heard p) p
    obtain ⟨state, voltage, current, pdx, delay⟩ := Hub.contractIn_state (c := s.hub.heard p) (p := p)
      ((heard (H.reqEpr p) (by simp)).le.trans epr) ((heard (H.reqV p) (by simp)).trans_lt volts) ((heard (H.reqI p) (by simp)).trans_lt amps)
    rw [heard _ (by simp)] at state voltage current
    have left := (OnlyRegs.refl ((s.hub.heard p).contractIn p) [H.eprLeft p]).put (x := H.eprLeft p) (by simp) 0
    refine psRdy_contract takes asked noEpr ?_
    have still : Settled (((s.hub.heard p).contractIn p).put (H.eprLeft p) 0) p := by
      rw [Settled, left.flag _ (by simp), made.flag (H.sagDue p), heard.flag _ (by simp), left.flag _ (by simp), made.flag (H.capsDue p),
        heard.flag _ (by simp), left _ (by simp), made.get (H.swapWait p), heard _ (by simp)]
      exact settled
    rw [Hub.sendDue_settled still.1 still.2.1 still.2.2]
    have explicit : (((s.hub.heard p).contractIn p).put (H.eprLeft p) 0).explicit p = true := by
      rw [Hub.explicit, left _ (by simp), state]
      rcases Nat.le_one_iff_eq_zero_or_eq_one.mp epr with h | h <;> simp [h]
    refine ⟨?_, (left _ (by simp)).trans state, (left _ (by simp)).trans voltage, (left _ (by simp)).trans current, ?_, (left _ (by simp)).trans pdx,
      (left.flag _ (by simp)).trans delay, (Hub.put_out _ _ _).trans (Hub.contractIn_unheard (s.hub.heard p) p).1⟩
    · exact .after (left.onlyIndexes (by simp [namesIndex])) (.after made.onlyIndexes (heard.onlyIndexes (by simp [namesIndex])))
    · rw [Hub.ilimNow_explicit explicit ((left _ (by simp)).trans pdx), left _ (by simp), current, left _ (by simp), left _ (by simp),
        made.get (O.ilimPct p), made.get (O.ilimCap p), heard _ (by simp), heard _ (by simp)]
  case pps =>
    intro s p takes sink now awake idle
    refine .of_ports (exec_ppsRequestTimer p s) (Hub.pdOn_of_takesPd takes) ?_
    rw [if_pos ⟨takes, sink, now, idle, awake⟩]
    have sent := Hub.sendRequest_onlyObjects s.hub p (s.hub.get (O.contractRdo p)) (s.hub.get (O.contractV p)) (s.hub.get (O.contractI p)) false
    refine ⟨.put sent.mono _ _, rfl, ?_⟩
    rw [Hub.get_put_other _ _ (by simp)]
    exact Hub.get_put_same _ _ _
  case alive =>
    intro s p takes sink epr awake
    refine .of_ports (exec_sinkEprKeepaliveTimer p s) (Hub.pdOn_of_takesPd takes) ?_
    rw [if_pos ⟨takes, sink, epr, awake⟩]
    exact ⟨rfl, Hub.sendPd_onlyRegs _ p _ 0⟩

end Sys2Proof.Machine
end

section
/-! What a hub sends and reports while a link or a port goes (R21, R23, R101, R158, R226): no step takes back an output or a detection. -/
namespace Sys2Proof.Machine

-- One theorem after another: elaborated side by side they take more memory than the check allows.
set_option Elab.async false

/-! ## The relation -/

/-- From c to d outputs and detections are only added. -/
def Extends (c d : Hub) : Prop := c.out <+: d.out ∧ c.lines <+: d.lines

namespace Extends

variable {c d e : Hub}

theorem refl (c : Hub) : Extends c c := ⟨List.prefix_rfl, List.prefix_rfl⟩

theorem after (g : Extends d e) (h : Extends c d) : Extends c e := ⟨h.1.trans g.1, h.2.trans g.2⟩

theorem of_unheard (h : Unheard c d) : Extends c d := by rw [Extends, h.1, h.2]; exact refl c

/-- Steps that leave both queues. -/
theorem kept (out : d.out = c.out := by rfl) (lines : d.lines = c.lines := by rfl) : Extends c d := of_unheard ⟨out, lines⟩

theorem put (h : Extends c d) (x : Obj) (v : Nat) : Extends c (d.put x v) := h

theorem putB (h : Extends c d) (x : Obj) (b : Bool) : Extends c (d.putB x b) := h

theorem count (h : Extends c d) (x : Obj) (n : Nat := 1) : Extends c (d.count x n) := after (kept (by simp) (by simp)) h

theorem emit (h : Extends c d) (x : Out) : Extends c (d.emit x) := ⟨h.1.trans ⟨[x], rfl⟩, h.2⟩

theorem raise (h : Extends c d) (source : Nat) (unit : Nat := 255) (data : Nat := 0) : Extends c (d.raise source unit data) := ⟨h.1, h.2.trans ⟨_, rfl⟩⟩

theorem when (h : Extends c d) (b : Bool) {f : Hub → Hub} (hf : ∀ d, Extends d (f d)) : Extends c (d.when b f) :=
  Hub.when_spec (P := Extends c) d b f h ((hf d).after h)

theorem ite {p : Prop} [Decidable p] (h : Extends c d) (g : Extends c e) : Extends c (if p then d else e) := by
  split
  · exact h
  · exact g

theorem each {α : Type} (h : Extends c d) (xs : List α) {f : Hub → α → Hub} (hf : ∀ d x, Extends d (f d x)) : Extends c (d.each xs f) :=
  Hub.each_spec (P := Extends c) f (fun d x g => (hf d x).after g) xs d h

/-- What is sent stays sent. -/
theorem sent (h : Extends c d) {x : Out} (hx : x ∈ c.out) : x ∈ d.out := h.1.subset hx

/-- What is reported stays reported. -/
theorem reported (h : Extends c d) {x : Detection} (hx : x ∈ c.lines) : x ∈ d.lines := h.2.subset hx

end Extends

/-! ## The bridge's requests to a hub that is lost (R270, R276, R278) -/

theorem Hub.claimOver_extends (c : Hub) (hub : Nat) : Extends c (c.claimOver hub) := .when .kept _ fun _ => .kept

theorem Hub.dropLine_extends (c : Hub) (x : PrefetchLine) : Extends c (c.dropLine x) := by
  unfold Hub.dropLine
  exact .when (.count .kept _ _) _ fun _ => .raise (.put (.count .kept _ _) _ _) _ _ _

theorem Hub.msix_extends (c : Hub) (v : Nat) : Extends c (c.msix v) := by
  unfold Hub.msix
  exact .ite .kept (.ite .kept (.ite (.emit .kept _) .kept))

theorem Hub.logRig_extends (c : Hub) (source kind hub window seq count addr : Nat) : Extends c (c.logRig source kind hub window seq count addr) := by
  unfold Hub.logRig
  exact .raise (.when .kept _ fun d => d.msix_extends 1) _ _ _

theorem Hub.aerRecord_extends (c : Hub) (f k : Nat) (answered : Bool) (tlp : Bytes) : Extends c (c.aerRecord f k answered tlp) := by
  unfold Hub.aerRecord
  refine .when (.put (.when (.when (.when .kept _ fun _ => .raise .kept _ _ _) _ fun d => ?_) _ fun _ => .kept) _ _) _ fun _ => .emit .kept _
  exact .each .kept _ fun _ _ => .ite .kept .kept

theorem Hub.abortRead_extends (c : Hub) (x : ApertureRead) : Extends c (c.abortRead x) :=
  .emit (.after (Hub.aerRecord_extends _ 1 aerAbort true []) .kept) _

/-- A request to a lost hub ends without data, whatever it came from. -/
theorem Hub.endRig_lost_extends (c : Hub) (r : RigRequest) : Extends c (c.endRig r 0x0A []) := by
  have ended (b : Bool) : Extends c (({ c with rigOut := c.rigOut.erase r } : Hub).when b fun c => c.claimOver r.hub) :=
    .when .kept b fun d => d.claimOver_extends r.hub
  unfold Hub.endRig
  dsimp only
  split
  · exact .when (.put (.put (ended _) _ _) _ _) _ fun _ => .kept
  · exact .when (ended _) _ fun d => d.logRig_extends _ _ _ _ _ _ _
  · split
    · exact ended _
    · exact .after (Hub.abortRead_extends _ _) (ended _)
  · exact ended _
  · exact ended _

theorem Hub.rigLost_extends (c : Hub) (hub : Nat) : Extends c (c.rigLost hub) := by
  unfold Hub.rigLost
  exact .when (.when (.each (.each .kept _ fun d r => d.endRig_lost_extends r) _ fun d x => d.dropLine_extends x) _
    fun d => d.claimOver_extends hub) _ fun _ => .kept

/-! ## Packets and tunnels of a port (R69, R101) -/

theorem Hub.losslessLoss_extends (c : Hub) (tid : Nat) : Extends c (c.losslessLoss tid) := .when .kept _ fun _ => .raise .kept 28 255 tid

theorem Hub.remove_extends (c : Hub) (p : Held) : Extends c (c.remove p) := by
  unfold Hub.remove Hub.leaveSpill Hub.freeCells Hub.returnCredit
  exact .when (.when .kept _ fun _ => .when .kept _ fun _ => .kept) _ fun _ => .kept

theorem Hub.lossOf_extends (c : Hub) (k tid : Nat) : Extends c (c.lossOf k tid) := .when .kept _ fun d => d.losslessLoss_extends tid

theorem Hub.teardownDiscard_extends (c : Hub) (x : Held) : Extends c (c.teardownDiscard x) :=
  .after (Hub.lossOf_extends _ _ _) ((c.remove_extends x).count (O.pathCountTeardownDiscards x.tid))

theorem Hub.showPacket_extends (c : Hub) (x : StoredPacket) : Extends c (c.showPacket x) := by
  unfold Hub.showPacket
  exact .ite (.emit .kept _) (.emit (.when .kept _ fun _ => .kept) _)

theorem Hub.presentRest_extends (c : Hub) (h : Nat) : Extends c (c.presentRest h) :=
  .when .kept _ fun _ => .each .kept _ fun d x => d.showPacket_extends x

theorem Hub.endOutputs_extends (c : Hub) (t : Nat) : Extends c (c.endOutputs t) := by
  have apart : Extends c { c with reassembly := c.reassembly.filter fun r => r.tid != t } := .kept
  unfold Hub.endOutputs
  refine Extends.each (Extends.each apart _ fun d o => ?_) _ fun _ _ => .kept
  exact (Extends.refl d).when _ fun e => (e.presentRest_extends (o.1 - 27)).put (O.streamState (o.1 - 27)) 3

theorem Hub.teardownOne_extends (c : Hub) (t : Nat) : Extends c (c.teardownOne t) := by
  unfold Hub.teardownOne
  refine .when .kept _ fun d => ?_
  have apart : Extends d { d with frames := d.frames.filter fun f => f.tid != t } := .kept
  dsimp only
  exact .after (Hub.endOutputs_extends _ t) ((apart.put (O.pathFlags t) _).put (H.drainCount t) 0)

theorem Hub.teardown_extends (c : Hub) (t : Nat) : Extends c (c.teardown t) := by
  unfold Hub.teardown
  exact .when (c.teardownOne_extends t) _ fun d => d.teardownOne_extends _

theorem Hub.teardownUsing_extends (c : Hub) (e : Nat) : Extends c (c.teardownUsing e) := .each .kept _ fun d t => d.teardown_extends t

theorem Hub.flushLost_extends (c : Hub) (p : Nat) : Extends c (c.flushLost p) :=
  .after (d := c.each (c.held.filter fun h => h.q / 8 == p) Hub.teardownDiscard) .kept (.each .kept _ fun d x => d.teardownDiscard_extends x)

/-! ## The tree (R20–R23) -/

theorem Hub.topoEvent_extends (c : Hub) (port kind reason uid : Nat) : Extends c (c.topoEvent port kind reason uid) := by
  unfold Hub.topoEvent
  exact .ite .kept (.ite (.raise .kept 22) .kept)

theorem Hub.forgetRoute_extends (c : Hub) (a : Nat) : Extends c (c.forgetRoute a) := .after (Hub.rigLost_extends _ a) .kept

theorem Hub.becomeOrphan_extends (c : Hub) (p : Nat) : Extends c (c.becomeOrphan (some p)) := by
  unfold Hub.becomeOrphan
  exact .raise (.each (.after (Hub.rigLost_extends _ 0) (.each (.after (Hub.teardownUsing_extends _ p) .kept) _ fun d a =>
    d.forgetRoute_extends a)) _ fun _ _ => .emit .kept _) 21

theorem Hub.partnerLost_extends (c : Hub) (p : Nat) (detached : Bool) : Extends c (c.partnerLost p detached) := by
  unfold Hub.partnerLost
  refine .ite (c.becomeOrphan_extends p) (.ite .kept (.ite .kept (.ite (c.topoEvent_extends _ _ _ _) (.ite .kept ?_))))
  refine .put (.putB (.put (.after (Hub.flushLost_extends _ p) (.when (c.topoEvent_extends _ _ _ _) _ fun _ => ?_)) _ _) _ _) _ _
  exact .each .kept _ fun d a => .ite .kept (d.forgetRoute_extends a)

/-! ## The link and its lanes (R158, R174, R189) -/

theorem Hub.adaptEnd_extends (c : Hub) (p : Nat) : Extends c (c.adaptEnd p) := .when .kept _ fun d => .of_unheard (d.adapted_unheard p)

theorem Hub.recompute_extends (c : Hub) : Extends c c.recompute := by
  unfold Hub.recompute
  exact .when (.put (.put (.put (.each .kept _ fun _ _ => .kept) _ _) _ _) _ _) _ fun _ => .raise .kept 6

theorem Hub.reportLinkLosses_extends (c : Hub) (p : Nat) : Extends c (c.reportLinkLosses p) := .each .kept _ fun d t => d.losslessLoss_extends t

theorem Hub.linkDown_extends (c : Hub) (p : Nat) (detached : Bool) : Extends c (c.linkDown p detached) := by
  have buffers (d : Hub) : Extends d (d.dropLinkBuffers p) := .kept
  have done (d : Hub) (kind : Nat) : Extends d (d.reactionDone kind p) := .kept
  unfold Hub.linkDown
  refine .ite .kept (.when (.after (Hub.recompute_extends _) (.after (Hub.partnerLost_extends _ p detached)
    (.after (done _ 5) (.after (done _ 1) (.put (.after (buffers _) (.after (Hub.reportLinkLosses_extends _ p)
    (.each (.after (.of_unheard (Hub.dropNextKeys_unheard _ p)) ?_) _ fun _ _ => .kept))) _ _))))) _ fun _ => .kept)
  exact .put (.put (.put (.put (.put (.put (c.adaptEnd_extends p) _ _) _ _) _ _) _ _) _ _) _ _

theorem Hub.showLanes_extends (c : Hub) (p tx rx : Nat) : Extends c (c.showLanes p tx rx) :=
  .each .kept _ fun _ _ => .ite .kept (.ite .kept (.ite .kept (.ite .kept .kept)))

theorem Hub.lanesOff_extends (c : Hub) (p : Nat) : Extends c (c.lanesOff p) := by
  unfold Hub.lanesOff
  refine .when (.after (Hub.showLanes_extends _ p 0 0) (.put (.put (.put (.put ?_ _ _) _ _) _ _) _ _)) _ fun _ => .kept
  exact .after (.of_unheard (Hub.lanesTo_unheard _ p 0)) (c.adaptEnd_extends p)

theorem Hub.toDetect_extends (c : Hub) (p : Nat) : Extends c (c.toDetect p) := by
  have dropped (d : Hub) : Extends d (d.dropKept p) := .each .kept _ fun _ _ => .each .kept _ fun _ _ => .kept
  have lanes (d : Hub) : Extends d (d.lanesTo p 1) := .of_unheard (d.lanesTo_unheard p 1)
  unfold Hub.toDetect
  refine .when (.put (.after (dropped _) (.each (.putB (.put (.when ?_ _ fun _ => .kept) _ _) _ _) _ fun _ _ => .kept)) _ _) _ fun _ => .kept
  exact .put (.put (.put (.put (.put (.put (.put (.put (lanes c) _ _) _ _) _ _) _ _) _ _) _ _) _ _) _ _

theorem Hub.lanesStart_extends (c : Hub) (p : Nat) : Extends c (c.lanesStart p) := .ite (c.toDetect_extends p) .kept

theorem Hub.chkDrop_extends (c : Hub) (p l : Nat) : Extends c (c.chkDrop p l) := by
  unfold Hub.chkDrop
  exact .ite (.putB (.count (.count (.each .kept _ fun _ _ => .count .kept _ _) _ _) _ _) _ _) .kept

theorem Hub.testOff_extends (c : Hub) (p : Nat) : Extends c (c.testOff p) := by
  unfold Hub.testOff
  exact .ite (.after (Hub.lanesStart_extends _ p) (.after (Hub.lanesOff_extends _ p) (.put (.each .kept _ fun d l => d.chkDrop_extends p l) _ _))) .kept

/-! ## The end of the mode (R226) -/

theorem Hub.lanesExit_extends (c : Hub) (p : Nat) (entered : Bool) : Extends c (c.lanesExit p entered) :=
  .ite (.ite (c.testOff_extends p) .kept) (c.lanesOff_extends p)

theorem Hub.exitMode_extends (c : Hub) (p : Nat) (detached : Bool) : Extends c (c.exitMode p detached) :=
  .when (.after (Hub.linkDown_extends _ p detached) (.after (Hub.lanesExit_extends _ p _) .kept)) _ fun _ => .kept

end Sys2Proof.Machine
end

section
/-! A port that loses its contract, its mode, VBUS and VCONN (R214, R219, R226, R229, R231): what each step changes, and what it leaves. -/
namespace Sys2Proof.Machine

-- One theorem after another: elaborated side by side they take more memory than the check allows.
set_option Elab.async false

/-! ## The pairs (R229, R231) -/

/-- A path state's object is one of the two of the port. -/
theorem pathObj_mem (p : Nat) {k : Nat} (pair : k = 0 ∨ k = 1) : pathObj p k = O.srcPathState p ∨ pathObj p k = O.snkPathState p := by
  rcases pair with rfl | rfl
  · exact .inl rfl
  · exact .inr rfl

/-- The registers that clear as a pair leaves Ramp or On. -/
abbrev leaveRegs (p : Nat) : List Obj := [O.faultTimer p, O.inLimit p, O.pg p, H.onHeld p]

theorem Hub.leavePath_onlyRegs (c : Hub) (p : Nat) : OnlyRegs c (c.leavePath p) (leaveRegs p) :=
  ((((OnlyRegs.refl c _).put (by simp) 0).put (by simp) 0).put (by simp) 0).put (by simp) 0

theorem Hub.leavePath_state (c : Hub) (p : Nat) : (c.leavePath p).get (O.faultTimer p) = 0 ∧ (c.leavePath p).flag (O.pg p) = false := by
  simp [Hub.leavePath, Hub.flag, Hub.putB, Hub.get_put_other]

/-- The registers of a normal turn-off of a pair. -/
abbrev turnOffRegs (p k : Nat) : List Obj := pathObj p k :: O.retries p :: leaveRegs p

theorem Hub.turnOff_onlyRegs (c : Hub) (p k : Nat) : OnlyRegs c (c.turnOff p k) (turnOffRegs p k) := by
  unfold Hub.turnOff
  split
  · refine OnlyRegs.trans ?_ ((Hub.leavePath_onlyRegs _ p).mono (by simp))
    exact ((OnlyRegs.refl c _).when _ fun d => (OnlyRegs.refl d _).count (by simp) 1).put (by simp) 0
  · exact .refl c _

theorem Hub.turnOff_unheard (c : Hub) (p k : Nat) : Unheard c (c.turnOff p k) := by
  unfold Hub.turnOff
  split
  · have left (d : Hub) : Unheard d (d.leavePath p) := ⟨rfl, rfl⟩
    exact .after (left _) (((Unheard.refl c).when _ fun d => (Unheard.refl d).count (O.retries p)).put (pathObj p k) 0)
  · exact .refl c

/-- A pair that is neither in Ramp nor On has nothing to turn off. -/
theorem Hub.turnOff_idle {c : Hub} {p k : Nat} (ramp : c.get (pathObj p k) ≠ 1) (on : c.get (pathObj p k) ≠ 2) : c.turnOff p k = c := by
  rw [Hub.turnOff, if_neg (by simp [ramp, on])]

/-- A pair in Ramp or On goes to Off. -/
theorem Hub.turnOff_state {c : Hub} {p k : Nat} (active : c.get (pathObj p k) = 1 ∨ c.get (pathObj p k) = 2) :
    (c.turnOff p k).get (pathObj p k) = 0 ∧ (c.turnOff p k).get (O.faultTimer p) = 0 ∧ (c.turnOff p k).flag (O.pg p) = false := by
  have other : ∀ x ∈ leaveRegs p, (pathObj p k).key ≠ x.key := by
    unfold pathObj
    split <;> simp
  rw [Hub.turnOff, if_pos active]
  refine ⟨(Hub.leavePath_onlyRegs _ p _ other).trans ((Hub.get_put_same _ _ _).trans (Nat.zero_mod _)), Hub.leavePath_state _ p⟩

/-- No turn-off makes the power good. -/
theorem Hub.turnOff_pg {c : Hub} {p : Nat} (k : Nat) (bad : c.flag (O.pg p) = false) : (c.turnOff p k).flag (O.pg p) = false := by
  unfold Hub.turnOff
  split
  · exact (Hub.leavePath_state _ p).2
  · exact bad

/-- The registers of VBUS at the source's end. -/
abbrev sourceRegs (p : Nat) : List Obj := [H.srcWanted p, H.srcReversed p, H.convState p, H.convTarget p, H.disch p, H.slewing p]

theorem Hub.callSource_onlyRegs (c : Hub) (p : Nat) : OnlyRegs c (c.callSource p) (sourceRegs p) :=
  ((((((OnlyRegs.refl c _).put (by simp) 1).put (by simp) 0).put (by simp) 1).put (by simp) 5000).put (by simp) 0).put (by simp) 0

/-- A source dropped, from the pair's turn-off on. -/
theorem Hub.dropSource_rest (c : Hub) (p : Nat) : OnlyRegs (c.turnOff p 0) (c.dropSource p) (sourceRegs p) :=
  ((((((OnlyRegs.refl (c.turnOff p 0) (sourceRegs p)).put (x := H.srcWanted p) (by simp) 0).put (x := H.srcReversed p) (by simp) 0).put
    (x := H.convState p) (by simp) 0).put (x := H.convTarget p) (by simp) 0).put (x := H.slewing p) (by simp) 0).when _ fun d =>
    (OnlyRegs.refl d (sourceRegs p)).put (x := H.disch p) (by simp) 1

theorem Hub.dropSource_onlyRegs (c : Hub) (p : Nat) : OnlyRegs c (c.dropSource p) (turnOffRegs p 0 ++ sourceRegs p) :=
  ((c.turnOff_onlyRegs p 0).mono (by simp)).trans ((c.dropSource_rest p).mono (by simp))

/-- The sequencer calls for VBUS no more, and the converter is off. -/
theorem Hub.dropSource_state (c : Hub) (p : Nat) : (c.dropSource p).get (H.srcWanted p) = 0 ∧ (c.dropSource p).get (H.convState p) = 0 := by
  have disch (d : Hub) (b : Bool) : OnlyRegs d (d.when b fun d => d.put (H.disch p) 1) [H.disch p] :=
    (OnlyRegs.refl d _).when b fun d => (OnlyRegs.refl d _).put (by simp) 1
  unfold Hub.dropSource
  dsimp only
  rw [disch _ _ _ (by simp), disch _ _ _ (by simp)]
  simp [Hub.get_put_other]

theorem Hub.dropSource_unheard (c : Hub) (p : Nat) : Unheard c (c.dropSource p) :=
  ((((((c.turnOff_unheard p 0).put _ _).put _ _).put _ _).put _ _).put _ _).when _ fun d => (Unheard.refl d).put _ _

/-! ## Contract and VCONN (R201, R214) -/

/-- The registers of a contract that ends, beside those of the sink pair. -/
abbrev contractEndRegs (p : Nat) : List Obj :=
  [O.contractState p, O.contractV p, O.contractI p, O.contractRdo p, H.inEpr p, H.modeDelayOn p, H.entryWaitOn p, H.ppsNow p, H.reqPps p, H.pdx p,
    H.capsDue p, H.softReset p]

/-- The contract's own part of its end. -/
def Hub.contractGone (c : Hub) (p : Nat) : Hub :=
  let c := (((c.put (O.contractState p) 0).put (O.contractV p) 0).put (O.contractI p) 0).put (O.contractRdo p) 0
  let c := ((((c.put (H.inEpr p) 0).put (H.modeDelayOn p) 0).put (H.entryWaitOn p) 0).put (H.ppsNow p) 0).put (H.reqPps p) 0
  ((c.put (H.pdx p) 0).put (H.capsDue p) 0).put (H.softReset p) 0

theorem Hub.endContract_eq (c : Hub) (p : Nat) : c.endContract p = (c.contractGone p).turnOff p 1 := rfl

theorem Hub.contractGone_onlyRegs (c : Hub) (p : Nat) : OnlyRegs c (c.contractGone p) (contractEndRegs p) :=
  ((((((((((((OnlyRegs.refl c _).put (by simp) 0).put (by simp) 0).put (by simp) 0).put (by simp) 0).put (by simp) 0).put (by simp) 0).put
    (by simp) 0).put (by simp) 0).put (by simp) 0).put (by simp) 0).put (by simp) 0).put (by simp) 0

theorem Hub.contractGone_state (c : Hub) (p : Nat) : (c.contractGone p).get (O.contractState p) = 0 ∧ (c.contractGone p).get (H.inEpr p) = 0 := by
  simp [Hub.contractGone, Hub.get_put_other]

theorem Hub.contractGone_unheard (c : Hub) (p : Nat) : Unheard c (c.contractGone p) := by
  unfold Hub.contractGone
  exact .put (.put (.put (.put (.put (.put (.put (.put (.put (.put (.put (.put (.refl c) _ _) _ _) _ _) _ _) _ _) _ _) _ _) _ _) _ _) _ _) _ _) _ _

theorem Hub.endContract_onlyRegs (c : Hub) (p : Nat) : OnlyRegs c (c.endContract p) (contractEndRegs p ++ turnOffRegs p 1) :=
  ((c.contractGone_onlyRegs p).mono (by simp)).trans ((Hub.turnOff_onlyRegs _ p 1).mono (by simp))

theorem Hub.endContract_state (c : Hub) (p : Nat) : (c.endContract p).get (O.contractState p) = 0 ∧ (c.endContract p).get (H.inEpr p) = 0 := by
  rw [Hub.endContract_eq, Hub.turnOff_onlyRegs _ p 1 _ (by simp [pathObj]), Hub.turnOff_onlyRegs _ p 1 _ (by simp [pathObj])]
  exact c.contractGone_state p

theorem Hub.endContract_unheard (c : Hub) (p : Nat) : Unheard c (c.endContract p) :=
  .after (Hub.turnOff_unheard _ p 1) (c.contractGone_unheard p)

theorem Hub.vconnOff_onlyRegs (c : Hub) (p : Nat) : OnlyRegs c (c.vconnOff p) [O.vconnState p, O.vconnCurrent p] :=
  ((OnlyRegs.refl c _).put (by simp) 0).put (by simp) 0

/-! ## The port dropped (R214, R226) -/

/-- The objects of a port dropped. -/
def dropRegs : List Obj :=
  contractEndRegs 0 ++ turnOffRegs 0 1 ++ ([O.modeState 0, H.vdmStep 0] ++ exitRegs) ++ (turnOffRegs 0 0 ++ sourceRegs 0)
    ++ [O.vconnState 0, O.vconnCurrent 0]

theorem Hub.exitMode_drops (c : Hub) (p : Nat) (detached : Bool) : OnlyObjects c (c.exitMode p detached) dropRegs :=
  (c.exitMode_onlyObjects p detached).subset fun _ hx => List.mem_append_left _ (List.mem_append_left _ (List.mem_append_right _ hx))

theorem Hub.dropPort_onlyObjects (c : Hub) (p : Nat) (detached : Bool) : OnlyObjects c (c.dropPort p detached) dropRegs := by
  have ended : OnlyObjects c (c.endContract p) dropRegs := (c.endContract_onlyRegs p).onlyObjects (by simp [dropRegs, namesObject, pathObj])
  have dropped (d : Hub) : OnlyObjects d (d.dropSource p) dropRegs := (d.dropSource_onlyRegs p).onlyObjects (by simp [dropRegs, namesObject, pathObj])
  have off (d : Hub) : OnlyObjects d (d.turnOff p 1) dropRegs := (d.turnOff_onlyRegs p 1).onlyObjects (by simp [dropRegs, namesObject, pathObj])
  have vconn (d : Hub) : OnlyObjects d (d.vconnOff p) dropRegs := (d.vconnOff_onlyRegs p).onlyObjects (by simp [dropRegs, namesObject])
  exact .after (vconn _) (.after (off _) (.after (dropped _) (.after (Hub.exitMode_drops _ p detached) ended)))

/-- The indexes of a port dropped. -/
def portIndexes : List Nat :=
  [0x1003, 0x1004, 0x1005, 0x1006, 0x2000, 0x2006, 0x2007, 0x2400, 0x2800, 0x2801, 0x2806, 0x2807, 0x2808, 0x3101, 0x4001, 0x4004, 0x4006, 0x4051,
    0x4100, 0x4103, 0x4105, 0x4106, 0x4250, 0x5040, 0x5043, 0x5044, 0x5045, 0x6008, 0x7010, 0xA006]

theorem Hub.dropPort_onlyIndexes (c : Hub) (p : Nat) (detached : Bool) : OnlyIndexes c (c.dropPort p detached) portIndexes := by
  have ended : OnlyIndexes c (c.endContract p) portIndexes := (c.endContract_onlyRegs p).onlyIndexes (by simp [portIndexes, namesIndex, pathObj])
  have exits (d : Hub) : OnlyIndexes d (d.exitMode p detached) portIndexes := (d.exitMode_onlyObjects p detached).onlyIndexes
  have dropped (d : Hub) : OnlyIndexes d (d.dropSource p) portIndexes :=
    (d.dropSource_onlyRegs p).onlyIndexes (by simp [portIndexes, namesIndex, pathObj])
  have off (d : Hub) : OnlyIndexes d (d.turnOff p 1) portIndexes := (d.turnOff_onlyRegs p 1).onlyIndexes (by simp [portIndexes, namesIndex, pathObj])
  have vconn (d : Hub) : OnlyIndexes d (d.vconnOff p) portIndexes := (d.vconnOff_onlyRegs p).onlyIndexes (by simp [portIndexes, namesIndex])
  exact .after (vconn _) (.after (off _) (.after (dropped _) (.after (exits _) ended)))

theorem Hub.dropPort_extends (c : Hub) (p : Nat) (detached : Bool) : Extends c (c.dropPort p detached) := by
  have vconn (d : Hub) : Extends d (d.vconnOff p) := .kept
  exact .after (vconn _) (.after (.of_unheard (Hub.turnOff_unheard _ p 1)) (.after (.of_unheard (Hub.dropSource_unheard _ p))
    (.after (Hub.exitMode_extends _ p detached) (.of_unheard (c.endContract_unheard p)))))

/-- From the end of the mode on, dropping a port leaves what its own registers do not name. -/
theorem Hub.dropPort_after (c : Hub) (p : Nat) (detached : Bool) : OnlyRegs ((c.endContract p).exitMode p detached) (c.dropPort p detached)
    (turnOffRegs p 0 ++ sourceRegs p ++ turnOffRegs p 1 ++ [O.vconnState p, O.vconnCurrent p]) :=
  ((((Hub.dropSource_onlyRegs _ p).mono (by simp)).trans ((Hub.turnOff_onlyRegs _ p 1).mono (by simp))).trans
    ((Hub.vconnOff_onlyRegs _ p).mono (by simp)))

/-- The contract and EPR are over, and the sequencer calls for VBUS no more. -/
theorem Hub.dropPort_state (c : Hub) (p : Nat) (detached : Bool) : (c.dropPort p detached).get (O.contractState p) = 0
    ∧ (c.dropPort p detached).get (H.inEpr p) = 0 ∧ (c.dropPort p detached).flag (H.srcWanted p) = false := by
  obtain ⟨contract, epr⟩ := c.endContract_state p
  have after := c.dropPort_after p detached
  have exit := Hub.exitMode_onlyObjects (c.endContract p) p detached
  refine ⟨?_, ?_, ?_⟩
  · rw [after _ (by simp [pathObj]), exit.get (O.contractState p), contract]
  · rw [after _ (by simp [pathObj]), exit.get (H.inEpr p), epr]
  · rw [Hub.flag, Hub.dropPort, Hub.vconnOff_onlyRegs _ p _ (by simp), Hub.turnOff_onlyRegs _ p 1 _ (by simp [pathObj]), (Hub.dropSource_state _ p).1]
    rfl

/-- A source pair that is Off, in Cool-down or Latched stays so. -/
theorem Hub.dropPort_srcPath {c : Hub} {p : Nat} (ramp : c.get (O.srcPathState p) ≠ 1) (on : c.get (O.srcPathState p) ≠ 2) (detached : Bool) :
    (c.dropPort p detached).get (O.srcPathState p) = c.get (O.srcPathState p) := by
  have kept : ((c.endContract p).exitMode p detached).get (O.srcPathState p) = c.get (O.srcPathState p) := by
    rw [(Hub.exitMode_onlyObjects _ p detached).get (O.srcPathState p), c.endContract_onlyRegs p _ (by simp [pathObj])]
  have idle : ((c.endContract p).exitMode p detached).turnOff p 0 = (c.endContract p).exitMode p detached :=
    Hub.turnOff_idle (by simpa [pathObj, kept] using ramp) (by simpa [pathObj, kept] using on)
  rw [Hub.dropPort, Hub.vconnOff_onlyRegs _ p _ (by simp), Hub.turnOff_onlyRegs _ p 1 _ (by simp [pathObj]), Hub.dropSource_rest _ p _ (by simp), idle,
    kept]

/-- Dropping a port makes no power good. -/
theorem Hub.dropPort_pg {c : Hub} {p : Nat} (bad : c.flag (O.pg p) = false) (detached : Bool) : (c.dropPort p detached).flag (O.pg p) = false := by
  have gone : (c.contractGone p).flag (O.pg p) = false := ((c.contractGone_onlyRegs p).flag _ (by simp)).trans bad
  have ended : (c.endContract p).flag (O.pg p) = false := Hub.turnOff_pg 1 gone
  have left : ((c.endContract p).exitMode p detached).flag (O.pg p) = false := by rwa [(Hub.exitMode_onlyObjects _ p detached).flag (O.pg p)]
  have dropped : (((c.endContract p).exitMode p detached).dropSource p).flag (O.pg p) = false := by
    rw [(Hub.dropSource_rest _ p).flag _ (by simp)]
    exact Hub.turnOff_pg 0 left
  rw [Hub.dropPort, (Hub.vconnOff_onlyRegs _ p).flag _ (by simp)]
  exact Hub.turnOff_pg 1 dropped

end Sys2Proof.Machine
end

section
/-! Hard Reset and ErrorRecovery (R213, R214, R218): what they change, and what they send and report. -/
namespace Sys2Proof.Machine

-- One theorem after another: elaborated side by side they take more memory than the check allows.
set_option Elab.async false

/-! ## The steps (R206, R213, R218) -/

/-- The registers of the port's own swap request. -/
abbrev ownSwapRegs (p : Nat) : List Obj := [O.swapRequest p, O.swapResult p, H.swapTries p, H.swapWait p, H.swapOwn p]

theorem Hub.swapEnd_unheard (c : Hub) (p result : Nat) : Unheard c (c.swapEnd p result) :=
  (((((Unheard.refl c).put _ _).put _ _).put _ _).put _ _).put _ _

theorem Hub.abandonSwap_onlyRegs (c : Hub) (p : Nat) : OnlyRegs c (c.abandonSwap p) (ownSwapRegs p) :=
  (OnlyRegs.refl c _).when _ fun d => d.swapEnd_onlyRegs p 5

theorem Hub.abandonSwap_unheard (c : Hub) (p : Nat) : Unheard c (c.abandonSwap p) := (Unheard.refl c).when _ fun d => d.swapEnd_unheard p 5

/-- A swap in progress ends with result 05h. -/
theorem Hub.abandonSwap_result {c : Hub} {p : Nat} (swapping : c.swapping p = true) : (c.abandonSwap p).get (O.swapResult p) = 5 := by
  rw [Hub.abandonSwap, swapping, Bool.true_or, Hub.when_true]
  exact (c.swapEnd_state p (by decide)).2.1

theorem Hub.resetIds_onlyRegs (c : Hub) (p : Nat) : OnlyRegs c (c.resetIds p) [H.msgId p 0, H.msgId p 1, H.msgId p 2] :=
  (OnlyRegs.refl c _).each fun d k hk => (OnlyRegs.refl d _).put (by simpa using hk) 0

theorem Hub.resetIds_unheard (c : Hub) (p : Nat) : Unheard c (c.resetIds p) := (Unheard.refl c).each _ fun d _ => (Unheard.refl d).put _ _

/-- Outside EPR stage 1 has nothing to end: a Source shows its cap. -/
theorem Hub.sagHeld_spr {c : Hub} {p : Nat} (spr : c.get (H.inEpr p) = 0) :
    OnlyRegs c (c.sagHeld p) [H.sagDue p, O.sourceCapState p] ∧ Unheard c (c.sagHeld p) := by
  have done := (OnlyRegs.refl c [H.sagDue p, O.sourceCapState p]).put (x := H.sagDue p) (by simp) 0
  have capped := done.put (x := O.sourceCapState p) (by simp) 1
  have still : ((c.put (H.sagDue p) 0).put (O.sourceCapState p) 1).flag (H.inEpr p) = false := by
    rw [Hub.flag, capped _ (by simp), spr]
    rfl
  unfold Hub.sagHeld Hub.sag1Act
  simp only [still, Bool.false_and, Bool.false_eq_true, if_false]
  split
  · split
    · exact ⟨capped, rfl, rfl⟩
    · exact ⟨done, rfl, rfl⟩
  · exact ⟨.refl c _, .refl c⟩

/-! ## Hard Reset (R213, R214) -/

/-- A Hard Reset counted, sent and reported. -/
def Hub.resetSent (c : Hub) (p : Nat) : Hub :=
  let c := (((c.count (O.hardResetsSent p)).put (O.hardResetRun p) (min 3 (c.get (O.hardResetRun p) + 1))).put (H.hrSent p) 1).emit (.hardReset p)
  (c.raise 45 p).when (!c.resetting p) fun c => c.openWindow 45 2 p

/-- The port dropped by a reset. -/
def Hub.resetDropped (c : Hub) (p : Nat) : Hub := (c.abandonSwap p).dropPort p false

/-- The port as Hard Reset leaves it: the roles it attached with, and what runs then. -/
def Hub.resetRoles (c : Hub) (p : Nat) : Hub :=
  let r := c.get (O.attachRoles p)
  let c := ((c.put (O.powerRole p) (bits r 0 2)).put (O.dataRole p) (bits r 2 2)).put (H.vconnSource p) (bits r 4 1)
  (c.put (O.attachState p) (2 + bits r 0 2)).resetIds p

theorem Hub.hardReset_eq (c : Hub) (p : Nat) : c.hardReset p true
    = if bits (((c.resetSent p).resetDropped p).get (O.attachRoles p)) 0 2 = 1
      then (((((c.resetSent p).resetDropped p).resetRoles p).sagHeld p).put (H.srcRecover p) 1).put (H.hrSink p) 0
      else (((((c.resetSent p).resetDropped p).resetRoles p).sagHeld p).put (H.hrSink p) 1).put (H.srcRecover p) 0 := by
  simp only [Hub.hardReset, Hub.resetSent, Hub.resetDropped, Hub.resetRoles, if_true, Bool.not_false, Bool.true_and]
  rfl

/-- The registers of a Hard Reset that goes out. -/
abbrev resetSentRegs (p : Nat) : List Obj := [O.hardResetsSent p, O.hardResetRun p, H.hrSent p]

theorem Hub.resetSent_onlyRegs (c : Hub) (p : Nat) : OnlyRegs c (c.resetSent p) (resetSentRegs p) := by
  have window (d : Hub) : OnlyRegs d (d.openWindow 45 2 p) (resetSentRegs p) := .of_regs rfl
  exact OnlyRegs.when (((((OnlyRegs.refl c _).count (by simp) 1).put (by simp) _).put (by simp) 1).emit _ |>.raise 45 p) _ window

theorem Hub.resetSent_extends (c : Hub) (p : Nat) : Extends c (c.resetSent p) := by
  have window (d : Hub) : Extends d (d.openWindow 45 2 p) := .kept
  exact Extends.when (.raise (.emit (.put (.put (.count (.refl c) _ _) _ _) _ _) _) 45 p) _ window

/-- The Hard Reset is out, and PD_HARD_RESET reported. -/
theorem Hub.resetSent_said (c : Hub) (p : Nat) :
    Out.hardReset p ∈ (c.resetSent p).out ∧ (⟨45, p, 0, c.reactions⟩ : Detection) ∈ (c.resetSent p).lines := by
  have window (d : Hub) (b : Bool) : Extends d (d.when b fun d => d.openWindow 45 2 p) := (Extends.refl d).when b fun _ => .kept
  unfold Hub.resetSent
  refine ⟨(window _ _).sent (by simp), (window _ _).reported ?_⟩
  simp

theorem Hub.resetSent_count {c : Hub} {p : Nat} (fits : c.get (O.hardResetsSent p) + 1 < 2 ^ 32) :
    (c.resetSent p).get (O.hardResetsSent p) = c.get (O.hardResetsSent p) + 1 := by
  have window (d : Hub) (b : Bool) : OnlyRegs d (d.when b fun d => d.openWindow 45 2 p) [] := (OnlyRegs.refl d _).when b fun _ => .of_regs rfl
  unfold Hub.resetSent
  dsimp only
  rw [window _ _ _ (by simp), Hub.get_raise, Hub.get_emit, Hub.get_put_other _ _ (by simp), Hub.get_put_other _ _ (by simp)]
  exact Hub.get_count_same _ _ _ fits

/-! ## The port dropped by a reset -/

/-- The objects of a port dropped by a reset. -/
def resetDropRegs : List Obj := ownSwapRegs 0 ++ dropRegs

theorem Hub.resetDropped_onlyObjects (c : Hub) (p : Nat) : OnlyObjects c (c.resetDropped p) resetDropRegs :=
  .after ((Hub.dropPort_onlyObjects _ p false).subset fun _ hx => List.mem_append_right _ hx)
    ((c.abandonSwap_onlyRegs p).onlyObjects (by simp [resetDropRegs, namesObject]))

theorem Hub.resetDropped_onlyIndexes (c : Hub) (p : Nat) : OnlyIndexes c (c.resetDropped p) portIndexes :=
  .after (Hub.dropPort_onlyIndexes _ p false) ((c.abandonSwap_onlyRegs p).onlyIndexes (by simp [portIndexes, namesIndex]))

theorem Hub.resetDropped_extends (c : Hub) (p : Nat) : Extends c (c.resetDropped p) :=
  .after (Hub.dropPort_extends _ p false) (.of_unheard (c.abandonSwap_unheard p))

/-- What a reset's drop leaves of a port: no contract and no EPR, no call for VBUS, a swap in progress broken off. -/
theorem Hub.resetDropped_state (c : Hub) (p : Nat) : (c.resetDropped p).get (O.contractState p) = 0 ∧ (c.resetDropped p).get (H.inEpr p) = 0
    ∧ (c.resetDropped p).flag (H.srcWanted p) = false ∧ (c.swapping p = true → (c.resetDropped p).get (O.swapResult p) = 5) := by
  obtain ⟨contract, epr, wanted⟩ := (c.abandonSwap p).dropPort_state p false
  refine ⟨contract, epr, wanted, fun swapping => ?_⟩
  exact ((Hub.dropPort_onlyObjects _ p false).get (O.swapResult p)).trans (Hub.abandonSwap_result swapping)

/-- A source pair that is Off, in Cool-down or Latched stays so, and no power is made good. -/
theorem Hub.resetDropped_pair {c : Hub} {p : Nat} (ramp : c.get (O.srcPathState p) ≠ 1) (on : c.get (O.srcPathState p) ≠ 2) :
    (c.resetDropped p).get (O.srcPathState p) = c.get (O.srcPathState p)
      ∧ (c.flag (O.pg p) = false → (c.resetDropped p).flag (O.pg p) = false) := by
  have swap := c.abandonSwap_onlyRegs p
  have kept := swap (O.srcPathState p) (by simp)
  refine ⟨?_, fun bad => Hub.dropPort_pg ((swap.flag _ (by simp)).trans bad) false⟩
  exact (Hub.dropPort_srcPath (kept.trans_ne ramp) (kept.trans_ne on) false).trans kept

/-! ## After it -/

/-- The registers of the port's state after a Hard Reset. -/
abbrev resetRolesRegs (p : Nat) : List Obj := [O.powerRole p, O.dataRole p, H.vconnSource p, O.attachState p, H.msgId p 0, H.msgId p 1, H.msgId p 2]

theorem Hub.resetRoles_onlyRegs (c : Hub) (p : Nat) : OnlyRegs c (c.resetRoles p) (resetRolesRegs p) :=
  ((((OnlyRegs.refl c _).put (by simp) _).put (by simp) _).put (by simp) _).put (by simp) _ |>.trans ((Hub.resetIds_onlyRegs _ p).mono (by simp))

theorem Hub.resetRoles_state (c : Hub) (p : Nat) : (c.resetRoles p).get (O.attachState p) = 2 + bits (c.get (O.attachRoles p)) 0 2
    ∧ (c.resetRoles p).get (O.powerRole p) = bits (c.get (O.attachRoles p)) 0 2 := by
  have role : bits (c.get (O.attachRoles p)) 0 2 < 2 ^ 2 := Nat.mod_lt _ (by decide)
  unfold Hub.resetRoles
  dsimp only
  rw [Hub.resetIds_onlyRegs _ p _ (by simp), Hub.resetIds_onlyRegs _ p _ (by simp)]
  simp [Hub.get_put_other, Obj.cap]
  omega

theorem Hub.resetRoles_unheard (c : Hub) (p : Nat) : Unheard c (c.resetRoles p) :=
  .after (Hub.resetIds_unheard _ p) (.put (.put (.put (.put (.refl c) _ _) _ _) _ _) _ _)

/-- The registers that a Hard Reset writes once the port is dropped. -/
abbrev resetEndRegs (p : Nat) : List Obj := resetRolesRegs p ++ [H.sagDue p, O.sourceCapState p, H.srcRecover p, H.hrSink p]

/-- What Hard Reset does once the port is dropped. -/
theorem Hub.hardReset_end (c : Hub) (p : Nat) : OnlyRegs (((c.resetSent p).resetDropped p).resetRoles p) (c.hardReset p true)
      [H.sagDue p, O.sourceCapState p, H.srcRecover p, H.hrSink p]
    ∧ Unheard (((c.resetSent p).resetDropped p).resetRoles p) (c.hardReset p true) := by
  have spr : (((c.resetSent p).resetDropped p).resetRoles p).get (H.inEpr p) = 0 :=
    (Hub.resetRoles_onlyRegs _ p _ (by simp)).trans (Hub.resetDropped_state _ p).2.1
  obtain ⟨sag, quiet⟩ := Hub.sagHeld_spr spr
  have done := sag.mono (os := [H.sagDue p, O.sourceCapState p, H.srcRecover p, H.hrSink p]) (by simp)
  rw [Hub.hardReset_eq]
  split
  · exact ⟨(done.put (by simp) 1).put (by simp) 0, (quiet.put _ _).put _ _⟩
  · exact ⟨(done.put (by simp) 1).put (by simp) 0, (quiet.put _ _).put _ _⟩

/-- Hard Reset behind the port's drop. -/
theorem Hub.hardReset_rest (c : Hub) (p : Nat) : OnlyRegs ((c.resetSent p).resetDropped p) (c.hardReset p true) (resetEndRegs p) :=
  ((Hub.resetRoles_onlyRegs _ p).mono (by simp)).trans ((c.hardReset_end p).1.mono (by simp))

/-- The objects of a Hard Reset. -/
def hardResetRegs : List Obj := resetSentRegs 0 ++ resetDropRegs ++ resetEndRegs 0

theorem Hub.hardReset_onlyObjects (c : Hub) (p : Nat) : OnlyObjects c (c.hardReset p true) hardResetRegs := by
  have sent : OnlyObjects c (c.resetSent p) hardResetRegs := (c.resetSent_onlyRegs p).onlyObjects (by simp [hardResetRegs, namesObject])
  have dropped (d : Hub) : OnlyObjects d (d.resetDropped p) hardResetRegs :=
    (d.resetDropped_onlyObjects p).subset fun _ hx => List.mem_append_left _ (List.mem_append_right _ hx)
  have rest : OnlyObjects ((c.resetSent p).resetDropped p) (c.hardReset p true) hardResetRegs :=
    (c.hardReset_rest p).onlyObjects (by simp [hardResetRegs, namesObject])
  exact .after rest (.after (dropped _) sent)

/-- The indexes of a Hard Reset: those of the drop, and SOURCE_CAP_STATE's. -/
theorem Hub.hardReset_onlyIndexes (c : Hub) (p : Nat) : OnlyIndexes c (c.hardReset p true) (0x2802 :: portIndexes) := by
  have sent : OnlyIndexes c (c.resetSent p) (0x2802 :: portIndexes) := (c.resetSent_onlyRegs p).onlyIndexes (by simp [portIndexes, namesIndex])
  have rest : OnlyIndexes ((c.resetSent p).resetDropped p) (c.hardReset p true) (0x2802 :: portIndexes) :=
    (c.hardReset_rest p).onlyIndexes (by simp [portIndexes, namesIndex])
  exact .after rest (.after ((Hub.resetDropped_onlyIndexes _ p).mono (List.subset_cons_self _ _)) sent)

theorem Hub.hardReset_extends (c : Hub) (p : Nat) : Extends (c.resetSent p) (c.hardReset p true) :=
  .after (.of_unheard (c.hardReset_end p).2) (.after (.of_unheard (Hub.resetRoles_unheard _ p)) (Hub.resetDropped_extends _ p))

/-- The Hard Reset is out and reported. -/
theorem Hub.hardReset_said (c : Hub) (p : Nat) :
    Out.hardReset p ∈ (c.hardReset p true).out ∧ (⟨45, p, 0, c.reactions⟩ : Detection) ∈ (c.hardReset p true).lines :=
  ⟨(c.hardReset_extends p).sent (c.resetSent_said p).1, (c.hardReset_extends p).reported (c.resetSent_said p).2⟩

/-- A Hard Reset gives the port back the roles it attached with, and ends its contract. -/
theorem Hub.hardReset_state (c : Hub) (p : Nat) : (c.hardReset p true).get (O.attachState p) = 2 + bits (c.get (O.attachRoles p)) 0 2
    ∧ (c.hardReset p true).get (O.powerRole p) = bits (c.get (O.attachRoles p)) 0 2 ∧ (c.hardReset p true).get (O.contractState p) = 0 := by
  have roles : ((c.resetSent p).resetDropped p).get (O.attachRoles p) = c.get (O.attachRoles p) :=
    ((Hub.resetDropped_onlyObjects _ p).get (O.attachRoles p)).trans (c.resetSent_onlyRegs p _ (by simp))
  obtain ⟨attached, power⟩ := ((c.resetSent p).resetDropped p).resetRoles_state p
  rw [roles] at attached power
  exact ⟨((c.hardReset_end p).1 _ (by simp)).trans attached, ((c.hardReset_end p).1 _ (by simp)).trans power,
    (c.hardReset_rest p _ (by simp)).trans (Hub.resetDropped_state _ p).1⟩

theorem Hub.hardReset_count {c : Hub} {p : Nat} (fits : c.get (O.hardResetsSent p) + 1 < 2 ^ 32) :
    (c.hardReset p true).get (O.hardResetsSent p) = c.get (O.hardResetsSent p) + 1 :=
  ((c.hardReset_rest p _ (by simp)).trans ((Hub.resetDropped_onlyObjects _ p).get (O.hardResetsSent p))).trans (Hub.resetSent_count fits)

/-- A swap in progress ends with result 05h. -/
theorem Hub.hardReset_swap {c : Hub} {p : Nat} (swapping : c.swapping p = true) : (c.hardReset p true).get (O.swapResult p) = 5 := by
  have still : (c.resetSent p).swapping p = true := by rwa [Hub.swapping, c.resetSent_onlyRegs p _ (by simp)]
  exact (c.hardReset_rest p _ (by simp)).trans ((Hub.resetDropped_state _ p).2.2.2 still)

/-- A source pair that is Off, in Cool-down or Latched stays so. -/
theorem Hub.hardReset_srcPath {c : Hub} {p : Nat} (ramp : c.get (O.srcPathState p) ≠ 1) (on : c.get (O.srcPathState p) ≠ 2) :
    (c.hardReset p true).get (O.srcPathState p) = c.get (O.srcPathState p) := by
  have kept : (c.resetSent p).get (O.srcPathState p) = c.get (O.srcPathState p) := c.resetSent_onlyRegs p _ (by simp)
  exact (c.hardReset_rest p _ (by simp)).trans ((Hub.resetDropped_pair (kept.trans_ne ramp) (kept.trans_ne on)).1.trans kept)

/-! ## ErrorRecovery (R213, R214) -/

/-- ErrorRecovery counted and reported, and its window open. -/
def Hub.recoverySent (c : Hub) (p : Nat) : Hub := ((c.count (O.errorRecoveries p)).raise 46 p).openWindow 46 3 p

theorem Hub.recoverySent_onlyRegs (c : Hub) (p : Nat) : OnlyRegs c (c.recoverySent p) [O.errorRecoveries p] :=
  (((OnlyRegs.refl c _).count (by simp) 1).raise 46 p).trans (.of_regs rfl)

theorem Hub.recoverySent_said (c : Hub) (p : Nat) :
    (c.recoverySent p).out = c.out ∧ (c.recoverySent p).lines = c.lines ++ [⟨46, p, 0, c.reactions⟩] := by
  have window (d : Hub) : (d.openWindow 46 3 p).out = d.out ∧ (d.openWindow 46 3 p).lines = d.lines := ⟨rfl, rfl⟩
  rw [Hub.recoverySent, (window _).1, (window _).2]
  simp

/-- The registers that ErrorRecovery writes once the port is dropped. -/
abbrev recoveryEndRegs (p : Nat) : List Obj := [O.attachState p, H.erTimer p, O.hardResetRun p, H.srcRecover p, H.hrSink p, H.tryPath p]

theorem Hub.errorRecovery_rest (c : Hub) (p : Nat) : OnlyRegs ((c.recoverySent p).resetDropped p) (c.errorRecovery p) (recoveryEndRegs p) :=
  ((((((OnlyRegs.refl _ _).put (by simp) 5).put (by simp) 0).put (by simp) 0).put (by simp) 0).put (by simp) 0).put (by simp) 0

theorem Hub.errorRecovery_extends (c : Hub) (p : Nat) : Extends (c.recoverySent p) (c.errorRecovery p) :=
  .put (.put (.put (.put (.put (.put (Hub.resetDropped_extends (c.recoverySent p) p) _ _) _ _) _ _) _ _) _ _) _ _

/-- The objects of an ErrorRecovery. -/
def recoveryRegs : List Obj := [O.errorRecoveries 0] ++ resetDropRegs ++ recoveryEndRegs 0

theorem Hub.errorRecovery_onlyObjects (c : Hub) (p : Nat) : OnlyObjects c (c.errorRecovery p) recoveryRegs := by
  have sent : OnlyObjects c (c.recoverySent p) recoveryRegs := (c.recoverySent_onlyRegs p).onlyObjects (by simp [recoveryRegs, namesObject])
  have dropped (d : Hub) : OnlyObjects d (d.resetDropped p) recoveryRegs :=
    (d.resetDropped_onlyObjects p).subset fun _ hx => List.mem_append_left _ (List.mem_append_right _ hx)
  have rest : OnlyObjects ((c.recoverySent p).resetDropped p) (c.errorRecovery p) recoveryRegs :=
    (c.errorRecovery_rest p).onlyObjects (by simp [recoveryRegs, namesObject])
  exact .after rest (.after (dropped _) sent)

theorem Hub.errorRecovery_onlyIndexes (c : Hub) (p : Nat) : OnlyIndexes c (c.errorRecovery p) portIndexes := by
  have sent : OnlyIndexes c (c.recoverySent p) portIndexes := (c.recoverySent_onlyRegs p).onlyIndexes (by simp [portIndexes, namesIndex])
  have rest : OnlyIndexes ((c.recoverySent p).resetDropped p) (c.errorRecovery p) portIndexes :=
    (c.errorRecovery_rest p).onlyIndexes (by simp [portIndexes, namesIndex])
  exact .after rest (.after (Hub.resetDropped_onlyIndexes _ p) sent)

/-- ErrorRecovery is reported, and what was said before stands. -/
theorem Hub.errorRecovery_said (c : Hub) (p : Nat) :
    c.out <+: (c.errorRecovery p).out ∧ c.lines ++ [⟨46, p, 0, c.reactions⟩] <+: (c.errorRecovery p).lines := by
  obtain ⟨out, lines⟩ := c.recoverySent_said p
  have extended := c.errorRecovery_extends p
  rwa [Extends, out, lines] at extended

/-- The port is in ErrorRecovery, without a contract, and calls for no VBUS. -/
theorem Hub.errorRecovery_state (c : Hub) (p : Nat) : (c.errorRecovery p).get (O.attachState p) = 5 ∧ (c.errorRecovery p).get (O.hardResetRun p) = 0
    ∧ (c.errorRecovery p).get (O.contractState p) = 0 ∧ (c.errorRecovery p).flag (H.srcWanted p) = false := by
  obtain ⟨contract, -, wanted, -⟩ := (c.recoverySent p).resetDropped_state p
  have rest := c.errorRecovery_rest p
  refine ⟨?_, ?_, (rest _ (by simp)).trans contract, (rest.flag _ (by simp)).trans wanted⟩
  · simp [Hub.errorRecovery, Hub.get_put_other, Obj.cap]
  · simp [Hub.errorRecovery, Hub.get_put_other]

/-- A source pair that is Off, in Cool-down or Latched stays so, and no power is made good. -/
theorem Hub.errorRecovery_pair {c : Hub} {p : Nat} (ramp : c.get (O.srcPathState p) ≠ 1) (on : c.get (O.srcPathState p) ≠ 2) :
    (c.errorRecovery p).get (O.srcPathState p) = c.get (O.srcPathState p)
      ∧ (c.flag (O.pg p) = false → (c.errorRecovery p).flag (O.pg p) = false) := by
  have sent := c.recoverySent_onlyRegs p
  have rest := c.errorRecovery_rest p
  have kept := sent (O.srcPathState p) (by simp)
  obtain ⟨pair, good⟩ := Hub.resetDropped_pair (kept.trans_ne ramp) (kept.trans_ne on)
  exact ⟨(rest _ (by simp)).trans (pair.trans kept), fun bad => (rest.flag _ (by simp)).trans (good ((sent.flag _ (by simp)).trans bad))⟩

/-! ## Unattached and Disabled (R206, R214, R220) -/

/-- The registers that a port forgets of its partner and cable. -/
def forgottenRegs (p : Nat) : List Obj :=
  [O.cableState p, O.cableCurrent p, O.cableVmax p, O.cableEpr p, O.cableSpeed p, O.cableVdo p, O.cableSopppId p,
    O.partnerIdHeader p, O.partnerSvids p, O.partnerModeVdo p, O.partnerRevision p, O.entryResult p, O.mismatch p, O.hardResetRun p,
    H.ccCand p, H.ccRa p, H.tryPath p, H.trySeen p, H.debounced p, H.vconnSource p, H.pdSeen p, H.capCount p, H.cableTries p, H.srcRecover p,
    H.hrSent p, H.hrSink p, H.stage1Cut p, H.sinkEprCap p, H.srcEprCap p, H.vdmTries p, H.erTimer p, H.cableAsked p, H.sagDue p,
    H.srcCaps p, H.eprLeft p, H.pdHeld p, H.msgId p 0, H.msgId p 1, H.msgId p 2]

/-- The registers of the roles of a port. -/
abbrev roleRegs (p : Nat) : List Obj := [O.orientation p, O.powerRole p, O.dataRole p, O.attachRoles p]

theorem Hub.forgetPartner_onlyRegs (c : Hub) (p : Nat) : OnlyRegs c (c.forgetPartner p) (forgottenRegs p ++ roleRegs p) := by
  have forgotten : OnlyRegs c (c.each (forgottenRegs p) fun c o => c.restore o) (forgottenRegs p ++ roleRegs p) :=
    (OnlyRegs.refl c _).each fun d x hx => (OnlyRegs.refl d _).put (List.mem_append_left _ hx) _
  exact (((forgotten.put (x := O.orientation p) (by simp) 0).put (x := O.powerRole p) (by simp) 0).put (x := O.dataRole p) (by simp) 0).put
    (x := O.attachRoles p) (by simp) 0

theorem Hub.forgetPartner_state (c : Hub) (p : Nat) : (c.forgetPartner p).get (O.orientation p) = 0 ∧ (c.forgetPartner p).get (O.powerRole p) = 0
    ∧ (c.forgetPartner p).get (O.dataRole p) = 0 := by
  simp [Hub.forgetPartner, Hub.get_put_other]

theorem Hub.forgetPartner_unheard (c : Hub) (p : Nat) : Unheard c (c.forgetPartner p) :=
  .put (.put (.put (.put (.each (.refl c) _ fun d _ => .put (.refl d) _ _) _ _) _ _) _ _) _ _

/-- A port that has forgotten its partner, in the attach state it then shows; reactions on it are done. -/
def Hub.forgotten (c : Hub) (p state : Nat) : Hub :=
  ((((c.forgetPartner p).put (O.attachState p) state).reactionDone 0 p).reactionDone 2 p).reactionDone 3 p

theorem Hub.forgotten_onlyRegs (c : Hub) (p state : Nat) : OnlyRegs c (c.forgotten p state) (O.attachState p :: (forgottenRegs p ++ roleRegs p)) :=
  (((c.forgetPartner_onlyRegs p).mono (by simp)).put (x := O.attachState p) (by simp) state).trans (.of_regs rfl)

theorem Hub.forgotten_unheard (c : Hub) (p state : Nat) : Unheard c (c.forgotten p state) := by
  have done (d : Hub) (kind : Nat) : Unheard d (d.reactionDone kind p) := ⟨rfl, rfl⟩
  exact .after (done _ 3) (.after (done _ 2) (.after (done _ 0) ((c.forgetPartner_unheard p).put _ _)))

theorem Hub.forgotten_state (c : Hub) (p : Nat) {state : Nat} (byte : state < 256) : (c.forgotten p state).get (O.attachState p) = state
    ∧ (c.forgotten p state).get (O.orientation p) = 0 ∧ (c.forgotten p state).get (O.powerRole p) = 0 ∧ (c.forgotten p state).get (O.dataRole p) = 0 := by
  have done (d : Hub) (kind : Nat) (o : Obj) : (d.reactionDone kind p).get o = d.get o := rfl
  obtain ⟨orientation, power, data⟩ := c.forgetPartner_state p
  simp only [Hub.forgotten, done]
  have kept (o : Obj) (other : o.key ≠ (O.attachState p).key) : ((c.forgetPartner p).put (O.attachState p) state).get o = (c.forgetPartner p).get o :=
    Hub.get_put_other _ _ other
  exact ⟨(Hub.get_put_same _ _ _).trans (Nat.mod_eq_of_lt byte), (kept _ (by simp)).trans orientation, (kept _ (by simp)).trans power,
    (kept _ (by simp)).trans data⟩

theorem Hub.unattach_eq (c : Hub) (p : Nat) : c.unattach p = c.forgotten p 0 := rfl

/-- The registers of a port forgotten lie in these indexes. -/
theorem Hub.forgotten_onlyIndexes (c : Hub) (p state : Nat) :
    OnlyIndexes c (c.forgotten p state) [0x2800, 0x2801, 0x2803, 0x2804, 0x2805, 0x2806, 0x2808] :=
  (c.forgotten_onlyRegs p state).onlyIndexes (by simp [forgottenRegs, namesIndex])

end Sys2Proof.Machine
end

section
/-! The statement on the contracts of a source (O29): requests answered, EPR, capabilities offered, and the end of a contract too large for stage 1
(R202–R206, R209, R212, R231). -/
namespace Sys2Proof.Machine

-- One theorem after another: elaborated side by side they take more memory than the check allows.
set_option Elab.async false

/-! ## The arms -/

theorem exec_request (p : Port) (epr : Bool) (rdo : BitVec 32) (s : State) : exec (.request p epr rdo) s = execRequest p epr rdo s := by rfl
theorem exec_eprModeEnter (p : Port) (s : State) : exec (.eprModeEnter p) s = execEprModeEnter p s := by rfl
theorem exec_eprModeExit (p : Port) (s : State) : exec (.eprModeExit p) s = execEprModeExit p s := by rfl
theorem exec_eprKeepalive (p : Port) (s : State) : exec (.eprKeepalive p) s = execEprKeepalive p s := by rfl
theorem exec_srcTransitionTimer (p : Port) (s : State) : exec (.srcTransitionTimer p) s = execSrcTransitionTimer p s := by rfl
theorem exec_sendSourceCapTimer (p : Port) (s : State) : exec (.sendSourceCapTimer p) s = execSendSourceCapTimer p s := by rfl
theorem exec_stage1ContractTimeout (p : Port) (s : State) : exec (.stage1ContractTimeout p) s = execStage1ContractTimeout p s := by rfl
theorem exec_sourceSettingsWrite (lvl : Level) (p : Port) (setting : SourceSetting) (v : BitVec 16) (s : State) :
    exec (.sourceSettingsWrite lvl p setting v) s = execSourceSettingsWrite lvl p setting v s := by rfl

/-! ## Capabilities (R202, R203) -/

/-- The objects from which a port's capabilities are made. -/
def capabilityRegs : List Obj :=
  [O.sourceCurrentMax 0, O.sourcePowerMax 0, O.sourcePdoMask 0, O.sourceCapState 0, O.cableCurrent 0, O.cableVmax 0, O.cableEpr 0, O.eprEnable 0]

/-- Capabilities are the same while none of those objects changes. -/
theorem Hub.sourcePdos_kept {c d : Hub} {os : List Obj} (h : OnlyObjects c d os) (other : ∀ x ∈ capabilityRegs, namesObject os x = false) (p : Nat)
    (epr : Bool) : d.sourcePdos p epr = c.sourcePdos p epr := by
  have reg (x : Obj) (hx : ∃ y ∈ capabilityRegs, y.key.obj = x.key.obj) : d.get x = c.get x := by
    obtain ⟨y, hy, same⟩ := hx
    exact h.get x (by simpa [namesObject, same] using other y hy)
  have current : d.pdoCurrent p = c.pdoCurrent p := by
    funext mv
    rw [Hub.pdoCurrent, Hub.pdoCurrent, reg _ (by simp [capabilityRegs]), reg _ (by simp [capabilityRegs]), reg _ (by simp [capabilityRegs]),
      reg _ (by simp [capabilityRegs])]
  have ready : d.eprReady p = c.eprReady p := by
    rw [Hub.eprReady, Hub.eprReady, Hub.flag, Hub.flag, Hub.flag, Hub.flag, reg _ (by simp [capabilityRegs]), reg _ (by simp [capabilityRegs]),
      reg _ (by simp [capabilityRegs]), reg _ (by simp [capabilityRegs])]
  have offered : d.offeredPdos p = c.offeredPdos p := by
    rw [Hub.offeredPdos, Hub.offeredPdos, reg (O.sourcePdoMask p) (by simp [capabilityRegs]), reg (O.cableVmax p) (by simp [capabilityRegs])]
  rw [Hub.sourcePdos, Hub.sourcePdos, current, ready, offered]

/-- The objects of capabilities sent. -/
def sendCapsRegs : List Obj := [H.capCount 0, H.goodCrc 0 0, H.msgId 0 0, H.pdx 0, H.capsDue 0]

/-- The offers to a partner that has answered nothing are counted. -/
def Hub.offerCounted (c : Hub) (p : Nat) : Hub := c.when (!c.flag (H.pdSeen p)) fun c => c.put (H.capCount p) (c.get (H.capCount p) + 1)

theorem Hub.offerCounted_onlyObjects (c : Hub) (p : Nat) : OnlyObjects c (c.offerCounted p) [H.capCount 0] :=
  (OnlyObjects.refl c _).when _ fun d => (OnlyObjects.refl d _).put (H.capCount p) _

theorem Hub.offerCounted_out (c : Hub) (p : Nat) : (c.offerCounted p).out = c.out := Hub.when_out _ _ fun _ => rfl

theorem Hub.sendCaps_eq (c : Hub) (p : Nat) : c.sendCaps p
    = (((c.offerCounted p).sendPd p (.sourceCaps (c.flag (H.inEpr p)) (c.sourcePdos p (c.flag (H.inEpr p))))).put (H.pdx p) 1).put (H.capsDue p) 0 := by
  have same := Hub.sourcePdos_kept (c.offerCounted_onlyObjects p) (by decide) p (c.flag (H.inEpr p))
  rw [← same]
  rfl

theorem Hub.sendCaps_onlyObjects (c : Hub) (p : Nat) : OnlyObjects c (c.sendCaps p) sendCapsRegs := by
  rw [Hub.sendCaps_eq]
  exact .put (.put (.after (Hub.sendPd_onlyObjects _ p _ 0).mono (c.offerCounted_onlyObjects p).mono) _ _) _ _

/-- The capabilities are out, and their exchange runs. -/
theorem Hub.sendCaps_state (c : Hub) (p : Nat) :
    (c.sendCaps p).out = c.out ++ [.pd p 0 (.sourceCaps (c.flag (H.inEpr p)) (c.sourcePdos p (c.flag (H.inEpr p))))]
      ∧ (c.sendCaps p).get (H.pdx p) = 1 := by
  rw [Hub.sendCaps_eq, Hub.put_out, Hub.put_out, Hub.sendPd_out, Hub.offerCounted_out, Hub.get_put_other _ _ (by simp), Hub.get_put_same]
  exact ⟨rfl, rfl⟩

/-! ## A request (R202, R204) -/

/-- The PDO that a request names. -/
def Hub.namedPdo (c : Hub) (p r : Nat) : Nat := (c.sourcePdos p (c.flag (H.inEpr p))).getD (bits r 28 4 - 1) 0

/-- The request names a fixed PDO that is offered with the current asked for. -/
def Hub.requestOk (c : Hub) (p r : Nat) : Bool :=
  bits r 28 4 != 0 && pdoFixed (c.namedPdo p r) && decide (bits r 10 10 ≤ pdoSteps (c.namedPdo p r))
    && (bit r 26 || decide (bits r 0 10 ≤ pdoSteps (c.namedPdo p r)))

/-- What a source notes of a request. -/
def Hub.requestNoted (c : Hub) (p r : Nat) : Hub := (c.heard p).put (H.sinkEprCap p) (if bit r 22 then 1 else 0)

theorem Hub.requestNoted_onlyRegs (c : Hub) (p r : Nat) : OnlyRegs c (c.requestNoted p r) [H.pdSeen p, H.sinkEprCap p] :=
  ((c.heard_onlyRegs p).mono (by simp)).put (by simp) _

/-- A request accepted, and remembered until VBUS has moved. -/
def Hub.requestTaken (c : Hub) (p r pdo : Nat) (epr : Bool) : Hub :=
  ((((c.put (H.reqRdo p) r).put (H.reqV p) (pdoMv pdo)).put (H.reqI p) (10 * bits r 10 10)).putB (H.reqEpr p) epr |>.sendPd p .accept).put (H.pdx p) 4

/-- A request taken by a source that has no exchange but its own offer. -/
theorem request_answers {s : State} {p : Port} {epr : Bool} {rdo : BitVec 32} {P : Hub → Prop} (takes : s.hub.takesPd p = true)
    (source : s.hub.isSource p = true) (idle : s.hub.get (H.pdx p) ≤ 1)
    (h : P (if s.hub.requestOk p rdo.toNat then (s.hub.requestNoted p rdo.toNat).requestTaken p rdo.toNat (s.hub.namedPdo p rdo.toNat) epr
      else ((s.hub.requestNoted p rdo.toNat).sendPd p .reject).pdEnd p)) : Answers (.request p epr rdo) s P := by
  have heard : OnlyObjects s.hub (s.hub.heard p) [H.pdSeen 0] := .put (.refl _ _) _ _
  have named : (s.hub.heard p).namedPdo p rdo.toNat = s.hub.namedPdo p rdo.toNat := by
    rw [Hub.namedPdo, heard.flag (H.inEpr p), Hub.sourcePdos_kept heard (by decide), ← Hub.namedPdo]
  have ok : (s.hub.heard p).requestOk p rdo.toNat = s.hub.requestOk p rdo.toNat := by rw [Hub.requestOk, named, ← Hub.requestOk]
  refine .of_ports (exec_request p epr rdo s) (Hub.pdOn_of_takesPd takes) ?_
  dsimp only
  rw [if_neg (by simp [takes, source]), heard.get (H.pdx p), if_neg (by omega)]
  rw [← ok, ← named] at h
  exact h

theorem Hub.requestTaken_onlyObjects (c : Hub) (p r pdo : Nat) (epr : Bool) :
    OnlyObjects c (c.requestTaken p r pdo epr) [H.reqRdo 0, H.reqV 0, H.reqI 0, H.reqEpr 0, H.goodCrc 0 0, H.msgId 0 0, H.pdx 0] := by
  have noted : OnlyObjects c ((((c.put (H.reqRdo p) r).put (H.reqV p) (pdoMv pdo)).put (H.reqI p) (10 * bits r 10 10)).putB (H.reqEpr p) epr)
      [H.reqRdo 0, H.reqV 0, H.reqI 0, H.reqEpr 0, H.goodCrc 0 0, H.msgId 0 0, H.pdx 0] := .put (.put (.put (.put (.refl c _) _ _) _ _) _ _) _ _
  exact .put (.after (Hub.sendPd_onlyObjects _ p _ 0).mono noted) _ _

/-- The transition is to the voltage of the PDO and the current asked for. -/
theorem Hub.requestTaken_state (c : Hub) (p r pdo : Nat) (epr : Bool) : (c.requestTaken p r pdo epr).get (H.pdx p) = 4
    ∧ (c.requestTaken p r pdo epr).get (H.reqV p) = pdoMv pdo ∧ (c.requestTaken p r pdo epr).get (H.reqI p) = 10 * bits r 10 10 := by
  have volts : pdoMv pdo % 4294967296 = pdoMv pdo := Nat.mod_eq_of_lt (pdo_small pdo).1
  have amps : 10 * bits r 10 10 < 65536 := by
    have : bits r 10 10 < 2 ^ 10 := Nat.mod_lt _ (by decide)
    omega
  unfold Hub.requestTaken
  refine ⟨Hub.get_put_same _ _ _, ?_, ?_⟩
  · rw [Hub.get_put_other _ _ (by simp), (Hub.sendPd_onlyObjects _ p _ 0).get (H.reqV p)]
    simpa [Hub.putB, Hub.get_put_other, Obj.cap] using volts
  · rw [Hub.get_put_other _ _ (by simp), (Hub.sendPd_onlyObjects _ p _ 0).get (H.reqI p)]
    simpa [Hub.putB, Hub.get_put_other, Obj.cap] using Nat.mod_eq_of_lt amps

/-- A request that is not accepted where nothing waits on the port. -/
theorem request_rejected {s : State} {p : Port} {epr : Bool} {rdo : BitVec 32} (takes : s.hub.takesPd p = true) (source : s.hub.isSource p = true)
    (idle : s.hub.get (H.pdx p) ≤ 1) (settled : Settled s.hub p) (bad : s.hub.requestOk p rdo.toNat = false) :
    Answers (.request p epr rdo) s fun d => OnlyIndexes s.hub d [] ∧ Sends s.hub d [.pd p.val 0 .reject] ∧ d.get (H.pdx p) = 0
      ∧ d.get (O.contractState p) = s.hub.get (O.contractState p) := by
  refine request_answers takes source idle ?_
  rw [bad, if_neg Bool.false_ne_true]
  have noted := s.hub.requestNoted_onlyRegs p rdo.toNat
  have regs : OnlyRegs s.hub (((s.hub.requestNoted p rdo.toNat).sendPd p .reject).put (H.pdx p) 0)
      [H.pdSeen p, H.sinkEprCap p, H.goodCrc p 0, H.msgId p 0, H.pdx p] :=
    ((noted.mono (by simp)).trans ((Hub.sendPd_onlyRegs _ p _ 0).mono (by simp))).put (by simp) 0
  have still : Settled (((s.hub.requestNoted p rdo.toNat).sendPd p .reject).put (H.pdx p) 0) p := by
    rw [Settled, regs.flag _ (by simp), regs.flag _ (by simp), regs _ (by simp)]
    exact settled
  rw [Hub.pdEnd, Hub.sendDue_settled still.1 still.2.1 still.2.2]
  exact ⟨regs.onlyIndexes (by simp [namesIndex]), rfl, Hub.get_put_same _ _ _, regs _ (by simp)⟩

/-! ## EPR (R204) -/

/-- EPR_MODE_ENTER at a source without an exchange. -/
theorem eprModeEnter_answers {s : State} {p : Port} {P : Hub → Prop} (takes : s.hub.takesPd p = true) (source : s.hub.isSource p = true)
    (idle : s.hub.get (H.pdx p) = 0)
    (h : P (if s.hub.eprAllowed p then ((((s.hub.heard p).sendPd p .eprEnterAck).sendPd p .eprSucceeded).put (H.inEpr p) 1).sendCaps p
      else ((s.hub.heard p).sendPd p .eprEnterAck).sendPd p (.eprFailed (((s.hub.heard p).sendPd p .eprEnterAck).eprReason p)))) :
    Answers (.eprModeEnter p) s P := by
  have reply := s.hub.replyPd_onlyRegs p .eprEnterAck
  have allowed : ((s.hub.heard p).sendPd p .eprEnterAck).eprAllowed p = s.hub.eprAllowed p := by
    simp [Hub.eprAllowed, Hub.eprReady, reply _, reply.flag _]
  have pdx : (s.hub.heard p).get (H.pdx p) = 0 := (s.hub.heard_onlyRegs p _ (by simp)).trans idle
  refine .of_ports (exec_eprModeEnter p s) (Hub.pdOn_of_takesPd takes) ?_
  dsimp only
  rw [if_neg (by simp [takes, source]), pdx, if_neg (by simp), allowed]
  exact h

/-! ## Stage 1 (R206) -/

/-- A Hard Reset of a port that attached as Source: the port is Source again. -/
theorem stage1ContractTimeout_resets {s : State} {p : Port} (on : s.hub.pdOn = true) (cut : s.hub.get (H.stage1Cut p) = 1)
    (source : s.hub.isSource p = true) (large : s.hub.explicit p = false ∨ 15000000 < s.hub.get (O.contractV p) * s.hub.get (O.contractI p))
    {P : Hub → Prop} (h : P ((s.hub.put (H.stage1Cut p) 0).hardReset p true)) : Answers (.stage1ContractTimeout p) s P := by
  have cleared := (OnlyRegs.refl s.hub [H.stage1Cut p]).put (x := H.stage1Cut p) (by simp) 0
  have explicit : (s.hub.put (H.stage1Cut p) 0).explicit p = s.hub.explicit p := by rw [Hub.explicit, cleared _ (by simp), ← Hub.explicit]
  refine .of_ports (exec_stage1ContractTimeout p s) on ?_
  dsimp only
  rw [if_pos ⟨cut, source⟩, explicit, cleared _ (by simp), cleared _ (by simp), if_neg]
  · exact h
  · rintro ⟨yes, small⟩
    rcases large with no | large
    · simp [no] at yes
    · omega

/-! ## The statement -/

/-- Settles O29: a request is taken where it names what is offered; EPR, the voltage's transition and the offers follow R204, R231 and R212, and a contract
too large for stage 1 ends in a Hard Reset. -/
theorem contractAsSource : Obligations.ContractAsSource := by
  unfold Obligations.ContractAsSource
  refine ⟨?accepts, ?noPosition, ?enters, ?fails, ?exits, ?alive, ?moves, ?gaveUp, ?offers, ?small, ?setting, ?refused, ?rejects, ?resets⟩
  case accepts =>
    intro s p epr rdo pdo takes source idle position named fixed some amps peak
    have ok : s.hub.requestOk p rdo.toNat = true := by
      have mem : bits rdo.toNat 28 4 ≠ 0 := by omega
      have same : s.hub.namedPdo p rdo.toNat = pdo := named
      simp [Hub.requestOk, same, pdoFixed, pdoSteps, mem, fixed, some, amps, peak]
    refine request_answers takes source idle ?_
    rw [ok, if_pos rfl, show s.hub.namedPdo p rdo.toNat = pdo from named]
    have noted := s.hub.requestNoted_onlyRegs p rdo.toNat
    have taken := (s.hub.requestNoted p rdo.toNat).requestTaken_onlyObjects p rdo.toNat pdo epr
    obtain ⟨pdx, volts, current⟩ := (s.hub.requestNoted p rdo.toNat).requestTaken_state p rdo.toNat pdo epr
    exact ⟨.after taken.onlyIndexes (noted.onlyIndexes (by simp [namesIndex])), rfl, pdx, volts, current,
      (taken.get (O.contractState p)).trans (noted _ (by simp))⟩
  case noPosition =>
    intro s p epr rdo takes source idle settled position
    obtain ⟨t, run, queue, memory, indexes, rest⟩ := request_rejected (epr := epr) (rdo := rdo) takes source idle settled (by simp [Hub.requestOk, position])
    exact ⟨t, run, queue, memory, indexes.mono, rest⟩
  case enters =>
    intro s p takes source idle allowed
    refine eprModeEnter_answers takes source idle ?_
    rw [allowed, if_pos rfl]
    have acked : OnlyObjects s.hub ((s.hub.heard p).sendPd p .eprEnterAck) [H.pdSeen 0, H.goodCrc 0 0, H.msgId 0 0] :=
      (s.hub.replyPd_onlyRegs p .eprEnterAck).onlyObjects (by simp [namesObject])
    have entered : OnlyObjects s.hub ((((s.hub.heard p).sendPd p .eprEnterAck).sendPd p .eprSucceeded).put (H.inEpr p) 1)
        [H.pdSeen 0, H.goodCrc 0 0, H.msgId 0 0, H.inEpr 0] := .put (.after (Hub.sendPd_onlyObjects _ p _ 0).mono acked.mono) _ _
    have epr : ((((s.hub.heard p).sendPd p .eprEnterAck).sendPd p .eprSucceeded).put (H.inEpr p) 1).flag (H.inEpr p) = true := by
      rw [Hub.flag_put_same]
      rfl
    have offered := Hub.sendCaps_onlyObjects ((((s.hub.heard p).sendPd p .eprEnterAck).sendPd p .eprSucceeded).put (H.inEpr p) 1) p
    obtain ⟨out, pdx⟩ := Hub.sendCaps_state ((((s.hub.heard p).sendPd p .eprEnterAck).sendPd p .eprSucceeded).put (H.inEpr p) 1) p
    rw [epr, Hub.sourcePdos_kept entered (by decide)] at out
    refine ⟨.after offered.onlyIndexes entered.onlyIndexes, ?_, (offered.flag (H.inEpr p)).trans epr, pdx⟩
    rw [Sends, out]
    simp
  case fails =>
    intro s p takes source idle refused
    refine eprModeEnter_answers takes source idle ?_
    rw [refused, if_neg Bool.false_ne_true]
    refine ⟨⟨((s.hub.heard p).sendPd p .eprEnterAck).eprReason p, ?_⟩, (s.hub.replyPd_onlyRegs p _).trans ((Hub.sendPd_onlyRegs _ p _ 0).mono (by simp))⟩
    rw [Sends, Hub.sendPd_out, Hub.sendPd_out, Hub.heard_out, List.append_assoc]
    rfl
  case exits =>
    intro s p takes sink epr
    have left : OnlyRegs s.hub ((s.hub.heard p).put (H.inEpr p) 0) [H.inEpr p, H.pdSeen p] :=
      ((s.hub.heard_onlyRegs p).mono (by simp)).put (by simp) 0
    refine .of_ports (exec_eprModeExit p s) (Hub.pdOn_of_takesPd takes) ?_
    rw [if_pos ⟨takes, epr⟩, Hub.capsChanged_unattached (by rw [left _ (by simp), sink]; decide)]
    exact ⟨Hub.flag_put_same _ _ _, left⟩
  case alive =>
    intro s p takes source epr
    refine .of_ports (exec_eprKeepalive p s) (Hub.pdOn_of_takesPd takes) ?_
    rw [if_pos ⟨takes, source, epr⟩]
    exact ⟨rfl, s.hub.replyPd_onlyRegs p _⟩
  case moves =>
    intro s p on asked volts
    refine .of_ports (exec_srcTransitionTimer p s) on ?_
    simp only [asked]
    refine ⟨?_, Hub.flag_put_same _ _ _, ((OnlyRegs.refl _ _).put (by simp) _).put (by simp) 1⟩
    rw [Hub.get_put_other _ _ (by simp), Hub.get_put_same]
    exact Nat.mod_eq_of_lt volts
  case gaveUp =>
    intro s p attached source implicit silent up on spent
    refine .of_ports (exec_sendSourceCapTimer p s) on ?_
    rw [if_neg (by simp [attached, source, Hub.explicit, implicit, silent, up, on]), if_neg (by omega)]
    refine ⟨?_, ?_, (((OnlyRegs.refl _ _).put (by simp) 4).put (by simp) 8).put (by simp) 0⟩
    · simp [Hub.get_put_other, Obj.cap]
    · simp [Hub.get_put_other, Obj.cap]
  case offers =>
    intro s p attached source implicit silent up on fewer
    refine .of_ports (exec_sendSourceCapTimer p s) on ?_
    rw [if_neg (by simp [attached, source, Hub.explicit, implicit, silent, up, on]), if_pos fewer]
    refine ⟨(s.hub.sendCaps_onlyObjects p).mono, (s.hub.sendCaps_state p).1, ?_⟩
    rw [Hub.sendCaps_eq, Hub.get_put_other _ _ (by simp), Hub.get_put_other _ _ (by simp), (Hub.sendPd_onlyObjects _ p _ 0).get (H.capCount p),
      Hub.offerCounted, silent, Bool.not_false, Hub.when_true, Hub.get_put_same]
    exact Nat.mod_eq_of_lt (show s.hub.get (H.capCount p) + 1 < 256 by omega)
  case small =>
    intro s p on cut source explicit low
    have cleared := (OnlyRegs.refl s.hub [H.stage1Cut p]).put (x := H.stage1Cut p) (by simp) 0
    refine .of_ports (exec_stage1ContractTimeout p s) on ?_
    dsimp only
    rw [if_pos ⟨cut, source⟩, Hub.explicit, cleared _ (by simp), ← Hub.explicit, cleared _ (by simp), cleared _ (by simp), if_pos ⟨explicit, low⟩]
    exact ⟨Hub.get_put_same _ _ _, cleared⟩
  case setting =>
    intro s lvl p v on right free other range image
    refine .of_write (exec_sourceSettingsWrite lvl p .currentMax v s) on free image right.writes ?_
    have written := (OnlyRegs.refl s.hub [O.sourceCurrentMax p]).put (x := O.sourceCurrentMax p) (by simp) v.toNat
    have checked : s.hub.writeSource p .currentMax v.toNat
        = if v.toNat = s.hub.get (O.sourceCurrentMax p) then (.ok, s.hub) else (.ok, (s.hub.put (O.sourceCurrentMax p) v.toNat).capsChanged p) := by
      simp only [Hub.writeSource, range, sourceObj, and_self, decide_true, Bool.not_true, Bool.false_eq_true, if_false]
      rfl
    rw [checked]
    split
    · next same => exact ⟨same.symm, rfl, (OnlyRegs.refl _ _).emit _⟩
    · rw [Hub.capsChanged_unattached (by rwa [written _ (by simp)])]
      exact ⟨(Hub.get_put_same _ _ _).trans (Nat.mod_eq_of_lt v.isLt), rfl, written.emit _⟩
  case refused =>
    intro s lvl p v on right free range image
    refine .of_write (exec_sourceSettingsWrite lvl p .powerMax v s) on free image right.writes ?_
    have checked : s.hub.writeSource p .powerMax v.toNat = (.invalidValue, s.hub) := by
      have out : decide (15 ≤ v.toNat ∧ v.toNat ≤ 240) = false := decide_eq_false (by omega)
      simp [Hub.writeSource, out]
    rw [checked]
    exact ⟨rfl, rfl⟩
  case rejects =>
    intro s p epr rdo pdo takes source idle settled position named bad
    have not : s.hub.requestOk p rdo.toNat = false := by
      have same : s.hub.namedPdo p rdo.toNat = pdo := named
      rw [Hub.requestOk, same, pdoFixed, pdoSteps]
      rcases bad with rfl | kind | amps | ⟨plain, peak⟩
      · simp
      · simp [kind]
      · simp [amps]
      · simp [plain, peak]
    obtain ⟨t, run, queue, memory, indexes, rest⟩ := request_rejected (epr := epr) takes source idle settled not
    exact ⟨t, run, queue, memory, indexes.mono, rest⟩
  case resets =>
    intro s p on cut source large fits role
    refine stage1ContractTimeout_resets on cut source large ?_
    have cleared := (OnlyRegs.refl s.hub [H.stage1Cut p]).put (x := H.stage1Cut p) (by simp) 0
    have reset := (s.hub.put (H.stage1Cut p) 0).hardReset_onlyObjects p
    have indexes := (s.hub.put (H.stage1Cut p) 0).hardReset_onlyIndexes p
    obtain ⟨attached, power, -⟩ := (s.hub.put (H.stage1Cut p) 0).hardReset_state p
    obtain ⟨sent, reported⟩ := (s.hub.put (H.stage1Cut p) 0).hardReset_said p
    have count := Hub.hardReset_count (c := s.hub.put (H.stage1Cut p) 0) (p := p) (by rwa [cleared _ (by simp)])
    rw [cleared _ (by simp)] at attached power count
    refine ⟨.after indexes.mono (cleared.onlyIndexes (by simp [namesIndex])), (reset.get (H.stage1Cut p)).trans (Hub.get_put_same _ _ _), count, sent,
      ?_, ?_, reported⟩
    · rw [attached, role]
    · rw [power, role]

end Sys2Proof.Machine
end

section
/-! The statement on cable attach (O24): toggling, debounce, the Try path, attach, detach, ErrorRecovery, POLICY and PORT_DISABLE (R195, R197–R200,
R206, R214, R219–R221). -/
namespace Sys2Proof.Machine

-- One theorem after another: elaborated side by side they take more memory than the check allows.
set_option Elab.async false

/-! ## The arms -/

theorem exec_drpToggle (p : Port) (s : State) : exec (.drpToggle p) s = execDrpToggle p s := by rfl
theorem exec_ccTerminationSeen (p : Port) (cc : CcView) (s : State) : exec (.ccTerminationSeen p cc) s = execCcTerminationSeen p cc s := by rfl
theorem exec_ccDebounceExpiry (p : Port) (s : State) : exec (.ccDebounceExpiry p) s = execCcDebounceExpiry p s := by rfl
theorem exec_tryTimerExpiry (p : Port) (timer : Fin 3) (s : State) : exec (.tryTimerExpiry p timer) s = execTryTimerExpiry p timer s := by rfl
theorem exec_ccDetach (p : Port) (s : State) : exec (.ccDetach p) s = execCcDetach p s := by rfl
theorem exec_errorRecoveryTimer (p : Port) (s : State) : exec (.errorRecoveryTimer p) s = execErrorRecoveryTimer p s := by rfl
theorem exec_policyWrite (lvl : Level) (p : Port) (v : BitVec 8) (s : State) : exec (.policyWrite lvl p v) s = execPolicyWrite lvl p v s := by rfl
theorem exec_portDisableWrite (lvl : Level) (p : Port) (v : Bool) (s : State) :
    exec (.portDisableWrite lvl p v) s = execPortDisableWrite lvl p v s := by rfl

/-! ## Attach (R198, R199, R234) -/

/-- The registers of the implicit contract. -/
abbrev implicitRegs (p : Nat) : List Obj := [O.contractState p, O.contractV p, O.contractI p, O.contractRdo p, H.snkBlocked p, H.ppsNow p]

theorem Hub.implicitContract_onlyRegs (c : Hub) (p : Nat) : OnlyRegs c (c.implicitContract p) (implicitRegs p) :=
  ((((((OnlyRegs.refl c _).put (by simp) 1).put (by simp) 5000).put (by simp) _).put (by simp) 0).put (by simp) 0).put (by simp) 0

/-- The registers of an attach, beside its contract's. -/
abbrev attachedRegs (p : Nat) : List Obj :=
  [O.attachState p, O.orientation p, O.powerRole p, O.dataRole p, O.attachRoles p, O.attaches p, H.vconnSource p, H.tryPath p, H.pdSeen p, H.capCount p,
    H.pdx p, O.hardResetRun p]

/-- The port as a partner's Sink, before its contract. -/
def Hub.attachedSink (c : Hub) (p : Nat) : Hub :=
  let c := ((c.put (O.attachState p) 4).put (O.orientation p) (c.get (H.ccCand p))).put (O.powerRole p) 2
  let c := (c.put (O.dataRole p) 2).put (O.attachRoles p) (rolesOf 2 2 false)
  let c := ((c.count (O.attaches p)).put (H.vconnSource p) 0).put (H.tryPath p) 0
  (((c.put (H.pdSeen p) 0).put (H.capCount p) 0).put (H.pdx p) 0).put (O.hardResetRun p) 0

theorem Hub.attach_sink (c : Hub) (p : Nat) : c.attach p 2 = (c.attachedSink p).implicitContract p := by
  simp only [Hub.attach, Hub.attachedSink]
  rfl

theorem Hub.attachedSink_onlyRegs (c : Hub) (p : Nat) : OnlyRegs c (c.attachedSink p) (attachedRegs p) :=
  ((((((((((((OnlyRegs.refl c _).put (by simp) 4).put (by simp) _).put (by simp) 2).put (by simp) 2).put (by simp) _).count (by simp) 1).put
    (by simp) 0).put (by simp) 0).put (by simp) 0).put (by simp) 0).put (by simp) 0).put (by simp) 0

theorem Hub.attachedSink_state (c : Hub) (p : Nat) : (c.attachedSink p).get (O.attachState p) = 4 ∧ (c.attachedSink p).get (O.powerRole p) = 2
    ∧ (c.attachedSink p).get (O.dataRole p) = 2 := by
  simp [Hub.attachedSink, Hub.get_put_other, Hub.get_count_other, Obj.cap]

/-- The implicit contract of a sink: 5 V and 3 A. -/
theorem Hub.implicitContract_sink {c : Hub} {p : Nat} (sink : c.isSource p = false) : (c.implicitContract p).get (O.contractState p) = 1
    ∧ (c.implicitContract p).get (O.contractV p) = 5000 ∧ (c.implicitContract p).get (O.contractI p) = 3000 := by
  simp [Hub.implicitContract, sink, Hub.get_put_other, Obj.cap]

/-- A sink attached: its roles and the implicit contract. -/
theorem Hub.attach_sink_state (c : Hub) (p : Nat) : OnlyIndexes c (c.attach p 2) [0x2800, 0x2801, 0x2808]
    ∧ (c.attach p 2).get (O.attachState p) = 4 ∧ (c.attach p 2).get (O.powerRole p) = 2 ∧ (c.attach p 2).get (O.dataRole p) = 2
    ∧ (c.attach p 2).get (O.contractState p) = 1 ∧ (c.attach p 2).get (O.contractV p) = 5000 ∧ (c.attach p 2).get (O.contractI p) = 3000 := by
  have implicit := (c.attachedSink p).implicitContract_onlyRegs p
  obtain ⟨attached, power, data⟩ := c.attachedSink_state p
  have sink : (c.attachedSink p).isSource p = false := by rw [Hub.isSource, power]; rfl
  rw [Hub.attach_sink]
  exact ⟨.after (implicit.onlyIndexes (by simp [namesIndex])) ((c.attachedSink_onlyRegs p).onlyIndexes (by simp [namesIndex])),
    (implicit _ (by simp)).trans attached, (implicit _ (by simp)).trans power, (implicit _ (by simp)).trans data, Hub.implicitContract_sink sink⟩

/-- The orientation is the CC pin on which the partner showed. -/
theorem Hub.attach_sink_orientation {c : Hub} {p : Nat} (pin : c.get (H.ccCand p) ≤ 2) : (c.attach p 2).get (O.orientation p) = c.get (H.ccCand p) := by
  rw [Hub.attach_sink, Hub.implicitContract_onlyRegs _ p _ (by simp)]
  simp [Hub.attachedSink, Hub.get_put_other, Hub.get_count_other, Obj.cap]
  omega

/-! ## What a CC pin shows (R195, R201) -/

theorem Hub.noteCc_onlyRegs (c : Hub) (p pin : Nat) (cc : CcView) : OnlyRegs c (c.noteCc p pin cc) [H.ccCand p, H.ccRa p, H.vbusSeen p] :=
  (((OnlyRegs.refl c _).put (by simp) _).put (by simp) _).put (by simp) _

/-- Rd on CC1 alone is seen there; Ra on both pins is nothing. -/
theorem ccPins_cc1 {cc : CcView} (rd : cc.cc1 = .rd) (noRd : cc.cc2 ≠ .rd) (noRp : cc.cc2 ≠ .rp) : ccPins cc .rd = 1 := by simp [ccPins, rd, noRd, noRp]

theorem ccPins_ra {cc : CcView} (one : cc.cc1 = .ra) (two : cc.cc2 = .ra) : ccPins cc .rd = 0 ∧ ccPins cc .rp = 0 := by simp [ccPins, one, two]

/-! ## Detach and Disabled (R206, R220) -/

/-- The indexes of a port that goes to Unattached or Disabled. -/
def awayIndexes : List Nat := [0x2803, 0x2804, 0x2805] ++ portIndexes

theorem Hub.clearPath_onlyRegs (c : Hub) (p : Nat) (cooling : Bool) :
    OnlyRegs c (c.clearPath p cooling) [O.srcPathState p, O.snkPathState p, O.retries p] := by
  refine (OnlyRegs.refl c _).each fun d k hk => (OnlyRegs.refl d _).when _ fun e => ((OnlyRegs.refl e _).put ?_ 0).put (by simp) 0
  rcases pathObj_mem p (k := k) (by simpa using hk) with h | h <;> simp [h]

/-- A detached port up to the loss of its partner. -/
def Hub.detached (c : Hub) (p : Nat) : Hub :=
  let quietLink := c.get (O.linkState p) == 0 || c.get (O.linkState p) == 1
  let known := c.flag (H.childAsleep p) || (c.get (H.partnerUid p) != 0 && !c.flag (H.portLost p))
  let c := c.when (c.swapping p || c.get (O.swapRequest p) != 0) fun c => c.swapEnd p 0
  (c.dropPort p true).when (quietLink && known) fun c => c.partnerLost p true

theorem Hub.detachPort_eq (c : Hub) (p : Nat) : c.detachPort p = (((c.detached p).clearPath p true).freshPort p).forgotten p 0 := rfl

theorem Hub.detached_onlyIndexes (c : Hub) (p : Nat) : OnlyIndexes c (c.detached p) awayIndexes := by
  have swap (d : Hub) : OnlyIndexes d (d.swapEnd p 0) awayIndexes := (d.swapEnd_onlyRegs p 0).onlyIndexes (by simp [awayIndexes, portIndexes, namesIndex])
  have dropped (d : Hub) : OnlyIndexes d (d.dropPort p true) awayIndexes := (d.dropPort_onlyIndexes p true).mono
  have lost (d : Hub) : OnlyIndexes d (d.partnerLost p true) awayIndexes := (d.partnerLost_onlyObjects p true).onlyIndexes
  unfold Hub.detached
  exact .when (.after (dropped _) (.when (.refl c _) _ swap)) _ lost

theorem Hub.detachPort_onlyIndexes (c : Hub) (p : Nat) : OnlyIndexes c (c.detachPort p) awayIndexes := by
  have cleared (d : Hub) : OnlyIndexes d (d.clearPath p true) awayIndexes :=
    (d.clearPath_onlyRegs p true).onlyIndexes (by simp [awayIndexes, portIndexes, namesIndex])
  have fresh (d : Hub) : OnlyIndexes d (d.freshPort p) awayIndexes := (d.freshPort_onlyRegs p).onlyIndexes (by simp [awayIndexes, portIndexes, namesIndex])
  rw [Hub.detachPort_eq]
  exact .after (Hub.forgotten_onlyIndexes _ p 0).mono (.after (fresh _) (.after (cleared _) (c.detached_onlyIndexes p)))

/-- A disabled port up to what it forgets. -/
def Hub.disabled (c : Hub) (p : Nat) : Hub := (c.dropPort p true).when (c.get (O.swapRequest p) != 0) fun c => c.swapEnd p 0

theorem Hub.disablePort_eq (c : Hub) (p : Nat) : c.disablePort p = ((c.disabled p).freshPort p).forgotten p 6 := rfl

theorem Hub.disablePort_onlyIndexes (c : Hub) (p : Nat) : OnlyIndexes c (c.disablePort p) awayIndexes := by
  have dropped : OnlyIndexes c (c.dropPort p true) awayIndexes := (c.dropPort_onlyIndexes p true).mono
  have swap (d : Hub) : OnlyIndexes d (d.swapEnd p 0) awayIndexes := (d.swapEnd_onlyRegs p 0).onlyIndexes (by simp [awayIndexes, portIndexes, namesIndex])
  have fresh (d : Hub) : OnlyIndexes d (d.freshPort p) awayIndexes := (d.freshPort_onlyRegs p).onlyIndexes (by simp [awayIndexes, portIndexes, namesIndex])
  have gone : OnlyIndexes c (c.disabled p) awayIndexes := dropped.when _ swap
  rw [Hub.disablePort_eq]
  exact .after (Hub.forgotten_onlyIndexes _ p 6).mono (.after (fresh _) gone)

theorem Hub.disablePort_extends (c : Hub) (p : Nat) : Extends c (c.disablePort p) := by
  have gone : Extends c (c.disabled p) := (c.dropPort_extends p true).when _ fun d => .of_unheard (d.swapEnd_unheard p 0)
  have fresh (d : Hub) : Extends d (d.freshPort p) := .kept
  rw [Hub.disablePort_eq]
  exact .after (.of_unheard (Hub.forgotten_unheard _ p 6)) (.after (fresh _) gone)

/-! ## ErrorRecovery's end (R214, R219) -/

/-- A port whose ErrorRecovery has lasted, with its pair permitted, goes to Unattached, or to Disabled where it is held there. -/
theorem Hub.recoveryEnds_free {c : Hub} {p : Nat} (recovers : c.get (O.attachState p) = 5) (waited : c.get (H.erTimer p) = 1)
    (permits : c.pathPermits p = true) : c.recoveryEnds p = (c.unattach p).when (c.heldOff p) fun c => c.put (O.attachState p) 6 := by
  rw [Hub.recoveryEnds, if_pos ⟨recovers, waited, permits⟩]

/-- ERROR_RECOVERY_TIMER at a port whose pair is permitted. -/
theorem errorRecoveryTimer_answers {s : State} {p : Port} {P : Hub → Prop} (on : s.hub.pdOn = true) (recovers : s.hub.get (O.attachState p) = 5)
    (permits : s.hub.pathPermits p = true)
    (h : P (((s.hub.put (H.erTimer p) 1).unattach p).when (s.hub.heldOff p) fun c => c.put (O.attachState p) 6)) :
    Answers (.errorRecoveryTimer p) s P := by
  have waited := (OnlyRegs.refl s.hub [H.erTimer p]).put (x := H.erTimer p) (by simp) 1
  have still : (s.hub.put (H.erTimer p) 1).pathPermits p = true := by rw [← permits]; simp [Hub.pathPermits, waited _]
  have held : (s.hub.put (H.erTimer p) 1).heldOff p = s.hub.heldOff p := by simp [Hub.heldOff, waited _, waited.flag _]
  refine .of_ports (exec_errorRecoveryTimer p s) on ?_
  rw [if_pos recovers, Hub.recoveryEnds_free ((waited _ (by simp)).trans recovers) (Hub.get_put_same _ _ _) still, held]
  exact h

/-! ## The writes (R197, R206) -/

/-- A POLICY that differs, on a port that is not Disabled. -/
theorem Hub.writePolicy_changes {c : Hub} {p v : Nat} (range : v ≤ 4) (other : v ≠ c.get (O.policy p)) (active : c.get (O.attachState p) ≠ 6) :
    c.writePolicy p v = (.ok, (c.put (O.policy p) v).errorRecovery p) := by
  have still : (c.put (O.policy p) v).get (O.attachState p) ≠ 6 := by rwa [Hub.get_put_other _ _ (by simp)]
  rw [Hub.writePolicy, if_neg (by omega), if_neg other]
  dsimp only
  rw [if_neg still]

/-- On a Disabled port POLICY is written, and no more. -/
theorem Hub.writePolicy_disabled {c : Hub} {p v : Nat} (range : v ≤ 4) (disabled : c.get (O.attachState p) = 6) : (c.writePolicy p v).1 = .ok
    ∧ (c.writePolicy p v).2.get (O.policy p) = v ∧ (c.writePolicy p v).2.out = c.out ∧ OnlyRegs c (c.writePolicy p v).2 [O.policy p] := by
  have still : (c.put (O.policy p) v).get (O.attachState p) = 6 := by rwa [Hub.get_put_other _ _ (by simp)]
  rw [Hub.writePolicy, if_neg (by omega)]
  dsimp only
  rw [if_pos still]
  split
  · next same => exact ⟨rfl, same.symm, rfl, .refl c _⟩
  · exact ⟨rfl, (Hub.get_put_same _ _ _).trans (Nat.mod_eq_of_lt (show v < 256 by omega)), rfl, (OnlyRegs.refl c _).put (by simp) v⟩

/-- What a write sends, once its operation has sent what it may: its status last. -/
theorem Sends.of_prefix {c d : Hub} (h : c.out <+: d.out) (x : Out) : ∃ xs, Sends c (d.emit x) (xs ++ [x]) := by
  obtain ⟨xs, out⟩ := h
  exact ⟨xs, by rw [Sends, Hub.emit_out, ← out, List.append_assoc]⟩

/-! ## The statement -/

/-- Settles O24: each step of attach, detach and recovery leaves the port in the state that R197–R200, R206, R214 and R220 give it. -/
theorem typeCCommands : Obligations.TypeCCommands := by
  unfold Obligations.TypeCCommands
  refine ⟨?toggles, ?seen, ?nothing, ?attaches, ?tries, ?fails, ?triesSink, ?detaches, ?recovers, ?heldOff, ?waits, ?policyDisabled, ?policy, ?held,
    ?disabledAlready, ?disables⟩
  case toggles =>
    intro s p on unattached dual
    refine .of_ports (exec_drpToggle p s) on ?_
    rw [if_pos ⟨unattached, dual⟩]
    exact ⟨Hub.flag_putB _ _ rfl, (OnlyRegs.refl _ _).put (by simp) _⟩
  case seen =>
    intro s p cc unattached running run policy one noRd noRp
    have on : s.hub.pdOn = true := by simp [Hub.pdOn, running, run]
    have rp : s.hub.presentsRp p = true := by simp [Hub.presentsRp, policy]
    have awake : s.hub.awake = s.hub := by simp [Hub.awake, run]
    have noted := s.hub.noteCc_onlyRegs p 1 cc
    refine .of_ports (exec_ccTerminationSeen p cc s) on ?_
    simp only [unattached, ccPins_cc1 one noRd noRp, rp, on, awake, if_true, one_ne_zero, Bool.true_eq_false, or_self, if_false]
    refine ⟨?_, ?_, ?_, ?_, ?_⟩
    · simp [Hub.get_put_other, Obj.cap]
    · simp [Hub.get_put_other, Obj.cap]
    · simp [Hub.noteCc, Hub.putB, Hub.get_put_other, Obj.cap]
    · cases e : cc.cc2 == .ra <;> simp [Hub.noteCc, Hub.putB, Hub.flag, Hub.get_put_other, Obj.cap, e]
    · exact (((noted.mono (by simp)).put (by simp) 1).put (by simp) 1).put (by simp) 0
  case nothing =>
    intro s p cc on unattached one two
    obtain ⟨rd, rp⟩ := ccPins_ra one two
    refine .of_ports (exec_ccTerminationSeen p cc s) on ?_
    simp [unattached, rd, rp]
  case attaches =>
    intro s p on waits sink vbus policy pin
    obtain ⟨indexes, attached, power, data, contract, volts, amps⟩ := s.hub.attach_sink_state p
    refine .of_ports (exec_ccDebounceExpiry p s) on ?_
    rw [if_pos waits, Hub.afterDebounce, if_neg (by rw [sink]; decide), vbus, Bool.not_true, if_neg Bool.false_ne_true, if_neg policy]
    exact ⟨indexes, attached, power, data, Hub.attach_sink_orientation pin, contract, volts, amps⟩
  case tries =>
    intro s p on waits sink vbus policy
    refine .of_ports (exec_ccDebounceExpiry p s) on ?_
    rw [if_pos waits, Hub.afterDebounce, if_neg (by rw [sink]; decide), vbus, Bool.not_true, if_neg Bool.false_ne_true, if_pos policy]
    refine ⟨?_, Hub.flag_putB _ _ rfl, ((((OnlyRegs.refl _ _).put (by simp) 2).put (by simp) 1).put (by simp) 0).put (by simp) 1⟩
    simp [Hub.putB, Hub.get_put_other, Obj.cap]
  case fails =>
    intro s p timer on trying path unseen timer2
    have ended : Answers (.tryTimerExpiry p timer) s fun d => d = s.hub.unattach p := by
      refine .of_ports (exec_tryTimerExpiry p timer s) on ?_
      rw [if_neg (by simp [trying])]
      obtain ⟨t, ht⟩ := timer
      have t01 : t = 0 ∨ t = 1 := by
        have : t ≠ 2 := fun h => timer2 (Fin.ext h)
        omega
      rcases t01 with rfl | rfl <;> simp [path, unseen]
    obtain ⟨t, run, queue, memory, state⟩ := ended
    obtain ⟨attached, orientation, power, data⟩ := s.hub.forgotten_state p (state := 0) (by decide)
    refine ⟨t, run, queue, memory, ?_⟩
    rw [state, Hub.unattach_eq]
    exact ⟨s.hub.forgotten_onlyIndexes p 0, attached, orientation, power, data⟩
  case triesSink =>
    intro s p timer on trying path seen timer2
    obtain ⟨indexes, attached, power, data, -⟩ := s.hub.attach_sink_state p
    refine .of_ports (exec_tryTimerExpiry p timer s) on ?_
    subst timer2
    simp only [trying, path, seen, ne_eq, not_true, if_false, if_true]
    exact ⟨indexes.mono, attached, power, data⟩
  case detaches =>
    intro s p on states
    refine .of_ports (exec_ccDetach p s) on ?_
    dsimp only
    by_cases early : s.hub.get (O.attachState p) = 1 ∨ s.hub.get (O.attachState p) = 2
    · obtain ⟨attached, orientation, power, data⟩ := s.hub.forgotten_state p (state := 0) (by decide)
      rw [if_pos early, Hub.unattach_eq]
      exact ⟨(s.hub.forgotten_onlyIndexes p 0).mono, attached, orientation, power, data⟩
    · obtain ⟨attached, orientation, power, data⟩ := (((s.hub.detached p).clearPath p true).freshPort p).forgotten_state p (state := 0) (by decide)
      have indexes := s.hub.detachPort_onlyIndexes p
      rw [if_neg early, if_pos (by omega)]
      rw [Hub.detachPort_eq] at indexes ⊢
      exact ⟨indexes.mono, attached, orientation, power, data⟩
  case recovers =>
    intro s p on recovers permits free
    refine errorRecoveryTimer_answers on recovers permits ?_
    rw [free, Hub.when_false, Hub.unattach_eq]
    have waited := (OnlyRegs.refl s.hub [H.erTimer p]).put (x := H.erTimer p) (by simp) 1
    exact ⟨.after (Hub.forgotten_onlyIndexes _ p 0) (waited.onlyIndexes (by simp [namesIndex])), (Hub.forgotten_state _ p (by decide)).1⟩
  case heldOff =>
    intro s p on recovers permits held
    refine errorRecoveryTimer_answers on recovers permits ?_
    rw [held, Hub.when_true, Hub.unattach_eq]
    have waited := (OnlyRegs.refl s.hub [H.erTimer p]).put (x := H.erTimer p) (by simp) 1
    exact ⟨.put (.after (Hub.forgotten_onlyIndexes _ p 0) (waited.onlyIndexes (by simp [namesIndex]))) _ _, Hub.get_put_same _ _ _⟩
  case waits =>
    intro s p on recovers barred
    have waited := (OnlyRegs.refl s.hub [H.erTimer p]).put (x := H.erTimer p) (by simp) 1
    have still : (s.hub.put (H.erTimer p) 1).pathPermits p = false := by rw [← barred]; simp [Hub.pathPermits, waited _]
    refine .of_ports (exec_errorRecoveryTimer p s) on ?_
    rw [if_pos recovers, Hub.recoveryEnds, if_neg (by simp [still])]
    exact ⟨(waited _ (by simp)).trans recovers, waited⟩
  case policyDisabled =>
    intro s lvl p v on right free range disabled image
    obtain ⟨status, policy, out, regs⟩ := Hub.writePolicy_disabled range disabled
    refine .of_write (exec_policyWrite lvl p v s) on free image right.writes ?_
    refine ⟨policy, ?_, regs.emit _⟩
    rw [Sends, Hub.emit_out, out, status]
  case policy =>
    intro s lvl p v on right free range other active image
    refine .of_write (exec_policyWrite lvl p v s) on free image right.writes ?_
    rw [Hub.writePolicy_changes range other active]
    have written := (OnlyRegs.refl s.hub [O.policy p]).put (x := O.policy p) (by simp) v.toNat
    obtain ⟨attached, run, -⟩ := (s.hub.put (O.policy p) v.toNat).errorRecovery_state p
    have indexes := (s.hub.put (O.policy p) v.toNat).errorRecovery_onlyIndexes p
    exact ⟨.emit (.after indexes.mono (written.onlyIndexes (by simp [namesIndex]))) _, (Hub.get_emit _ _ _).trans attached, (Hub.get_emit _ _ _).trans run,
      Sends.of_prefix ((s.hub.put (O.policy p) v.toNat).errorRecovery_said p).1 _⟩
  case held =>
    intro s lvl p v on handover
    exact ⟨_, (exec_policyWrite lvl p v s).trans (onWrite_held _ _ on handover), rfl, rfl, rfl, rfl, rfl⟩
  case disabledAlready =>
    intro s lvl p on right free disabled image
    refine .of_write (exec_portDisableWrite lvl p true s) on free image right.writes ?_
    have written := (OnlyRegs.refl s.hub [O.portDisable p]).put (x := O.portDisable p) (by simp) 1
    have only : s.hub.writePortDisable p true = (.ok, s.hub.put (O.portDisable p) 1) := by
      have still : (s.hub.put (O.portDisable p) 1).get (O.attachState p) = 6 := (written _ (by simp)).trans disabled
      simp [Hub.writePortDisable, Hub.putB, still]
    rw [only]
    refine ⟨?_, rfl, written.emit _⟩
    rw [Hub.flag, Hub.get_emit, Hub.get_put_same]
    rfl
  case disables =>
    intro s lvl p on right free active image
    refine .of_write (exec_portDisableWrite lvl p true s) on free image right.writes ?_
    have written := (OnlyRegs.refl s.hub [O.portDisable p]).put (x := O.portDisable p) (by simp) 1
    have only : s.hub.writePortDisable p true = (.ok, (s.hub.put (O.portDisable p) 1).disablePort p) := by
      have still : (s.hub.put (O.portDisable p) 1).get (O.attachState p) ≠ 6 := (written _ (by simp)).trans_ne active
      simp [Hub.writePortDisable, Hub.putB, still]
    rw [only]
    have indexes := (s.hub.put (O.portDisable p) 1).disablePort_onlyIndexes p
    have extended := (s.hub.put (O.portDisable p) 1).disablePort_extends p
    obtain ⟨attached, -, power, -⟩ := (((s.hub.put (O.portDisable p) 1).disabled p).freshPort p).forgotten_state p (state := 6) (by decide)
    rw [← Hub.disablePort_eq] at attached power
    refine ⟨.emit (.after indexes.mono ?_) _, (Hub.get_emit _ _ _).trans attached, (Hub.get_emit _ _ _).trans power, Sends.of_prefix extended.1 _⟩
    exact written.onlyIndexes (by simp [namesIndex])

end Sys2Proof.Machine
end

section
/-! A fault of a pair (R219, R229, R235–R239), and the statement on the faults (O26): the pair's own part, what is reported, and where the port goes
with it. -/
namespace Sys2Proof.Machine

-- One theorem after another: elaborated side by side they take more memory than the check allows.
set_option Elab.async false

/-! ## The pair's own part (R229) -/

/-- A fault latches the pair: no retries by RETRY_MODE, or none left. -/
def Hub.latches (c : Hub) (p : Nat) : Bool :=
  c.retryMode p != 1 || (c.get (O.retryLimit p) != 0 && decide (c.get (O.retryLimit p) ≤ c.get (O.retries p)))

/-- Without RETRY_MODE 01h in force every fault latches. -/
theorem Hub.latches_of_mode {c : Hub} {p : Nat} (mode : c.retryMode p ≠ 1) : c.latches p = true := by simp [Hub.latches, mode]

theorem Hub.retryMode_degraded {c : Hub} {p : Nat} (degraded : c.flag (H.powerDegraded p) = true) : c.retryMode p = 0 := by
  simp [Hub.retryMode, degraded]

theorem Hub.retryMode_sound {c : Hub} {p : Nat} (sound : c.flag (H.powerDegraded p) = false) : c.retryMode p = c.get (O.retryMode p) := by
  simp [Hub.retryMode, sound]

/-- With retries without limit no fault latches. -/
theorem Hub.latches_unlimited {c : Hub} {p : Nat} (mode : c.retryMode p = 1) (limit : c.get (O.retryLimit p) = 0) : c.latches p = false := by
  simp [Hub.latches, mode, limit]

/-- The source of a fault's detection. -/
def faultSource (code : Nat) : Nat := 49 + if code = 4 then 5 else code

/-- The fault counted and named, and the pair in Latched or Cool-down. -/
def Hub.tripped (c : Hub) (p k code : Nat) : Hub :=
  let early := c.get (pathObj p k) != 2 || c.get (H.onHeld p) == 0
  let d := ((c.countTrip p code).put (O.lastFault p) code).put (pathObj p k) (if c.latches p then 4 else 3)
  (d.when early fun c => c.count (O.retries p)).leavePath p

/-- The fault reported, with the reaction's window open, and the latch with it. -/
def Hub.tripReported (c : Hub) (p code : Nat) (latch : Bool) : Hub :=
  ((c.raise (faultSource code) p).openWindow (faultSource code) 4 p).when latch fun c => c.raise 57 p

/-- A fault of a pair up to what the port does about it. -/
def Hub.faulted (c : Hub) (p k code : Nat) : Hub :=
  let d := (c.tripped p k code).tripReported p code (c.latches p)
  d.when (k == 1 && d.explicit p && d.takesPd p && !d.flag (H.childAsleep p)) fun c => c.sendPd p (.alert (code == 3))

theorem Hub.pairFault_eq (c : Hub) (p k code : Nat) : c.pairFault p k code =
    if k = 0 ∧ (c.faulted p k code).get (H.pdx p) = 11 then (c.faulted p k code).hardReset p true
    else if k = 0 ∧ (c.faulted p k code).get (O.attachState p) = 3 then (c.faulted p k code).errorRecovery p
    else c.faulted p k code := rfl

/-! ## What it changes -/

/-- The registers of a fault's counters. -/
abbrev tripCounters (p : Nat) : List Obj := [O.fastTrips p, O.timerTrips p, O.thermalTrips p]

/-- The registers of a fault of a pair. -/
abbrev faultRegs (p k : Nat) : List Obj := pathObj p k :: O.lastFault p :: O.retries p :: (tripCounters p ++ leaveRegs p ++ [H.goodCrc p 0, H.msgId p 0])

theorem Hub.countTrip_onlyRegs (c : Hub) (p code : Nat) : OnlyRegs c (c.countTrip p code) (tripCounters p) := by
  unfold Hub.countTrip
  split
  · exact (OnlyRegs.refl c _).count (by simp) 1
  · exact (OnlyRegs.refl c _).count (by simp) 1
  · exact (OnlyRegs.refl c _).count (by simp) 1
  · exact .refl c _

theorem Hub.countTrip_lines (c : Hub) (p code : Nat) : (c.countTrip p code).lines = c.lines ∧ (c.countTrip p code).reactions = c.reactions := by
  unfold Hub.countTrip
  split <;> simp

/-- The fault named and the pair's new state, and what may be written after them. -/
theorem Hub.tripped_rest (c : Hub) (p k code : Nat) :
    OnlyRegs (((c.countTrip p code).put (O.lastFault p) code).put (pathObj p k) (if c.latches p then 4 else 3)) (c.tripped p k code)
      (O.retries p :: leaveRegs p) :=
  ((OnlyRegs.refl _ _).when _ fun d => (OnlyRegs.refl d _).count (by simp) 1).trans ((Hub.leavePath_onlyRegs _ p).mono (by simp))

theorem Hub.tripReported_onlyRegs (c : Hub) (p code : Nat) (latch : Bool) (os : List Obj) : OnlyRegs c (c.tripReported p code latch) os := by
  have opened (d : Hub) : OnlyRegs d (d.openWindow (faultSource code) 4 p) os := .of_regs rfl
  exact (((OnlyRegs.refl c os).raise _ p).trans (opened _)).when latch fun d => (OnlyRegs.refl d os).raise 57 p

/-- The Alert of a sink, where one is sent. -/
theorem Hub.faulted_rest (c : Hub) (p k code : Nat) : OnlyRegs (c.tripped p k code) (c.faulted p k code) [H.goodCrc p 0, H.msgId p 0] :=
  (Hub.tripReported_onlyRegs _ p code _ _).when _ fun d => d.sendPd_onlyRegs p _ 0

theorem Hub.faulted_onlyRegs (c : Hub) (p k code : Nat) : OnlyRegs c (c.faulted p k code) (faultRegs p k) :=
  ((((c.countTrip_onlyRegs p code).mono (by simp)).put (by simp) _).put (by simp) _).trans ((c.tripped_rest p k code).mono (by simp)) |>.trans
    ((c.faulted_rest p k code).mono (by simp))

theorem Hub.faulted_onlyIndexes (c : Hub) (p code : Nat) {k : Nat} (pair : k = 0 ∨ k = 1) : OnlyIndexes c (c.faulted p k code) [0x3101, 0x3104] := by
  refine (c.faulted_onlyRegs p k code).onlyIndexes ?_
  rcases pathObj_mem p pair with h | h <;> simp [h, namesIndex]

/-- LAST_FAULT, the pair's state, and PG and FAULT_TIMER cleared. -/
theorem Hub.faulted_state (c : Hub) (p k : Nat) {code : Nat} (byte : code < 256) : (c.faulted p k code).get (O.lastFault p) = code
    ∧ (c.faulted p k code).get (pathObj p k) = (if c.latches p then 4 else 3) ∧ (c.faulted p k code).get (O.faultTimer p) = 0
    ∧ (c.faulted p k code).flag (O.pg p) = false := by
  have rest := c.faulted_rest p k code
  have trip := c.tripped_rest p k code
  have written : [H.goodCrc p 0, H.msgId p 0] ⊆ O.lastFault p :: O.retries p :: H.goodCrc p 0 :: H.msgId p 0 :: leaveRegs p := by simp
  have left : O.retries p :: leaveRegs p ⊆ O.lastFault p :: O.retries p :: H.goodCrc p 0 :: H.msgId p 0 :: leaveRegs p := by simp
  have path : ∀ o ∈ O.lastFault p :: O.retries p :: H.goodCrc p 0 :: H.msgId p 0 :: leaveRegs p, (pathObj p k).key ≠ o.key := by
    unfold pathObj
    split <;> simp
  have cap : (pathObj p k).cap = 256 := by
    unfold pathObj
    split <;> rfl
  obtain ⟨timer, power⟩ := Hub.leavePath_state
    ((((c.countTrip p code).put (O.lastFault p) code).put (pathObj p k) (if c.latches p then 4 else 3)).when
      (c.get (pathObj p k) != 2 || c.get (H.onHeld p) == 0) fun c => c.count (O.retries p)) p
  refine ⟨?_, ?_, (rest _ (by simp)).trans timer, (rest.flag _ (by simp)).trans power⟩
  · rw [rest _ (by simp), trip _ (by simp), Hub.get_put_other _ _ (path _ (by simp)).symm, Hub.get_put_same]
    exact Nat.mod_eq_of_lt byte
  · rw [rest _ fun o ho => path o (written ho), trip _ fun o ho => path o (left ho), Hub.get_put_same, cap]
    split <;> rfl

/-- The detections of a fault: its own, and PATH_LATCHED where it latches; the reaction's window takes the next number. -/
theorem Hub.faulted_lines (c : Hub) (p k code : Nat) : (c.faulted p k code).lines = c.lines ++ [⟨faultSource code, p, 0, c.reactions⟩]
      ++ (if c.latches p then [⟨57, p, 0, c.reactions + 1⟩] else [])
    ∧ (c.faulted p k code).reactions = c.reactions + 1 := by
  obtain ⟨lines, reactions⟩ := c.countTrip_lines p code
  have trip : (c.tripped p k code).lines = c.lines ∧ (c.tripped p k code).reactions = c.reactions := by
    have left (d : Hub) : (d.leavePath p).lines = d.lines ∧ (d.leavePath p).reactions = d.reactions := ⟨rfl, rfl⟩
    rw [Hub.tripped, (left _).1, (left _).2]
    cases c.get (pathObj p k) != 2 || c.get (H.onHeld p) == 0 <;> simp [lines, reactions]
  have opened (d : Hub) : (d.openWindow (faultSource code) 4 p).lines = d.lines
      ∧ (d.openWindow (faultSource code) 4 p).reactions = d.reactions + 1 := ⟨rfl, rfl⟩
  have reported : ((c.tripped p k code).tripReported p code (c.latches p)).lines = c.lines ++ [⟨faultSource code, p, 0, c.reactions⟩]
        ++ (if c.latches p then [⟨57, p, 0, c.reactions + 1⟩] else [])
      ∧ ((c.tripped p k code).tripReported p code (c.latches p)).reactions = c.reactions + 1 := by
    cases e : c.latches p <;> simp [Hub.tripReported, Hub.raise, opened, trip]
  have alert (d : Hub) (b : Bool) : (d.when b fun c => c.sendPd p (.alert (code == 3))).lines = d.lines
      ∧ (d.when b fun c => c.sendPd p (.alert (code == 3))).reactions = d.reactions := by cases b <;> exact ⟨rfl, rfl⟩
  rw [Hub.faulted, (alert _ _).1, (alert _ _).2]
  exact reported

/-! ## What the port does about it (R217, R219) -/

/-- The indexes of a fault of a pair. -/
def faultIndexes : List Nat := 0x3104 :: portIndexes

theorem Hub.pairFault_sink (c : Hub) (p code : Nat) : c.pairFault p 1 code = c.faulted p 1 code := rfl

/-- A fault of the source pair of a port that is no Source, in no PR_Swap. -/
theorem Hub.pairFault_alone {c : Hub} {p : Nat} (code : Nat) (noSwap : c.get (H.pdx p) ≠ 11) (noSource : c.get (O.attachState p) ≠ 3) :
    c.pairFault p 0 code = c.faulted p 0 code := by
  have kept := c.faulted_onlyRegs p 0 code
  rw [Hub.pairFault_eq, kept _ (by simp [pathObj]), kept _ (by simp [pathObj]), if_neg (by simp [noSwap]), if_neg (by simp [noSource])]

theorem Hub.pairFault_source {c : Hub} {p : Nat} (code : Nat) (noSwap : c.get (H.pdx p) ≠ 11) (source : c.get (O.attachState p) = 3) :
    c.pairFault p 0 code = (c.faulted p 0 code).errorRecovery p := by
  have kept := c.faulted_onlyRegs p 0 code
  rw [Hub.pairFault_eq, kept _ (by simp [pathObj]), kept _ (by simp [pathObj]), if_neg (by simp [noSwap]), if_pos ⟨rfl, source⟩]

theorem Hub.pairFault_swap {c : Hub} {p : Nat} (code : Nat) (swap : c.get (H.pdx p) = 11) :
    c.pairFault p 0 code = (c.faulted p 0 code).hardReset p true := by
  rw [Hub.pairFault_eq, c.faulted_onlyRegs p 0 code _ (by simp [pathObj]), if_pos ⟨rfl, swap⟩]

/-- A latching fault. -/
theorem Hub.faulted_latched {c : Hub} {p k code : Nat} (byte : code < 256) (mode : c.retryMode p ≠ 1) :
    (c.faulted p k code).get (O.lastFault p) = code ∧ (c.faulted p k code).get (pathObj p k) = 4 ∧ (c.faulted p k code).flag (O.pg p) = false
      ∧ (c.faulted p k code).lines = c.lines ++ [⟨faultSource code, p, 0, c.reactions⟩, ⟨57, p, 0, c.reactions + 1⟩] := by
  have latch := Hub.latches_of_mode mode
  obtain ⟨named, pair, -, power⟩ := c.faulted_state p k byte
  have lines := (c.faulted_lines p k code).1
  rw [latch, if_pos rfl] at pair lines
  exact ⟨named, pair, power, by simpa using lines⟩

/-- An attached Source goes to ErrorRecovery with its pair's fault: what the port then is, and what it has reported. -/
structure FaultRecovery (c d : Hub) (p : Nat) (code : Nat) : Prop where
  indexes : OnlyIndexes c d faultIndexes
  latched : d.get (O.srcPathState p) = 4
  named : d.get (O.lastFault p) = code
  power : d.flag (O.pg p) = false
  recovers : d.get (O.attachState p) = 5
  contract : d.get (O.contractState p) = 0
  wanted : d.flag (H.srcWanted p) = false
  reported : ∃ ls, d.lines = c.lines ++ [⟨faultSource code, p, 0, c.reactions⟩, ⟨57, p, 0, c.reactions + 1⟩, ⟨46, p, 0, c.reactions + 1⟩] ++ ls

theorem Hub.pairFault_recovers {c : Hub} {p code : Nat} (byte : code < 256) (mode : c.retryMode p ≠ 1) (noSwap : c.get (H.pdx p) ≠ 11)
    (source : c.get (O.attachState p) = 3) : FaultRecovery c (c.pairFault p 0 code) p code := by
  obtain ⟨named, pair, power, lines⟩ := Hub.faulted_latched (k := 0) byte mode
  obtain ⟨recovers, -, contract, wanted⟩ := (c.faulted p 0 code).errorRecovery_state p
  have path : (c.faulted p 0 code).get (O.srcPathState p) = 4 := pair
  obtain ⟨kept, good⟩ := Hub.errorRecovery_pair (c := c.faulted p 0 code) (p := p) (by rw [path]; decide) (by rw [path]; decide)
  obtain ⟨ls, said⟩ := ((c.faulted p 0 code).errorRecovery_said p).2
  rw [Hub.pairFault_source code noSwap source]
  constructor
  case indexes => exact .after ((c.faulted p 0 code).errorRecovery_onlyIndexes p).mono (c.faulted_onlyIndexes p code (.inl rfl)).mono
  case latched => exact kept.trans path
  case named => exact ((c.faulted p 0 code).errorRecovery_onlyObjects p |>.get (O.lastFault p)).trans named
  case power => exact good power
  case recovers => exact recovers
  case contract => exact contract
  case wanted => exact wanted
  case reported => exact ⟨ls, by rw [← said, lines, (c.faulted_lines p 0 code).2]; simp⟩

/-- A new Source in a PR_Swap goes to a Hard Reset with its pair's fault. -/
structure FaultHardReset (c d : Hub) (p : Nat) (code : Nat) : Prop where
  indexes : OnlyIndexes c d (0x2802 :: faultIndexes)
  latched : d.get (O.srcPathState p) = 4
  named : d.get (O.lastFault p) = code
  swap : d.get (O.swapResult p) = 5
  contract : d.get (O.contractState p) = 0
  roles : d.get (O.attachState p) = 2 + bits (c.get (O.attachRoles p)) 0 2
  sent : Out.hardReset p ∈ d.out

theorem Hub.pairFault_hardReset {c : Hub} {p code : Nat} (byte : code < 256) (mode : c.retryMode p ≠ 1) (swap : c.get (H.pdx p) = 11) :
    FaultHardReset c (c.pairFault p 0 code) p code := by
  obtain ⟨named, pair, -, -⟩ := Hub.faulted_latched (k := 0) byte mode
  have trip := c.faulted_onlyRegs p 0 code
  have path : (c.faulted p 0 code).get (O.srcPathState p) = 4 := pair
  have swapping : (c.faulted p 0 code).swapping p = true := by rw [Hub.swapping, trip _ (by simp [pathObj]), swap]; rfl
  obtain ⟨attached, -, contract⟩ := (c.faulted p 0 code).hardReset_state p
  rw [trip (O.attachRoles p) (by simp [pathObj])] at attached
  rw [Hub.pairFault_swap code swap]
  constructor
  case indexes => exact .after ((c.faulted p 0 code).hardReset_onlyIndexes p).mono (c.faulted_onlyIndexes p code (.inl rfl)).mono
  case latched => exact (Hub.hardReset_srcPath (by rw [path]; decide) (by rw [path]; decide)).trans path
  case named => exact ((c.faulted p 0 code).hardReset_onlyObjects p |>.get (O.lastFault p)).trans named
  case swap => exact Hub.hardReset_swap swapping
  case contract => exact contract
  case roles => exact attached
  case sent => exact ((c.faulted p 0 code).hardReset_said p).1

end Sys2Proof.Machine
end

section
/-! The statement on the faults of the pairs (O26): FAST_TRIP, FAULT_TIMER_EXPIRY, THERMAL_LIMIT and REVERSE_CURRENT (R229, R235–R239). -/
namespace Sys2Proof.Machine

-- One theorem after another: elaborated side by side they take more memory than the check allows.
set_option Elab.async false

/-! ## The arms -/

theorem exec_fastTrip (p : Port) (s : State) : exec (.fastTrip p) s = execFastTrip p s := by rfl
theorem exec_faultTimerExpiry (p : Port) (s : State) : exec (.faultTimerExpiry p) s = execFaultTimerExpiry p s := by rfl
theorem exec_thermalLimit (p : Port) (sink : Bool) (s : State) : exec (.thermalLimit p sink) s = execThermalLimit p sink s := by rfl
theorem exec_reverseCurrent (p : Port) (s : State) : exec (.reverseCurrent p) s = execReverseCurrent p s := by rfl

/-! ## The pair in force (R228) -/

theorem Hub.activePair_source {c : Hub} {p : Nat} (active : c.get (O.srcPathState p) = 1 ∨ c.get (O.srcPathState p) = 2) : c.activePair p = some 0 :=
  if_pos active

theorem Hub.activePair_sink {c : Hub} {p : Nat} (source : c.get (O.srcPathState p) = 0) (on : c.get (O.snkPathState p) = 2) : c.activePair p = some 1 := by
  rw [Hub.activePair, if_neg (by simp [source]), if_pos (.inr on)]

theorem Hub.activePair_off {c : Hub} {p : Nat} (source : c.get (O.srcPathState p) = 0) (sink : c.get (O.snkPathState p) = 0) : c.activePair p = none := by
  rw [Hub.activePair, if_neg (by simp [source]), if_neg (by simp [sink])]

/-- A sink pair in force is in Ramp or On. -/
theorem Hub.activePair_ne_sink {c : Hub} {p : Nat} (ramp : c.get (O.snkPathState p) ≠ 1) (on : c.get (O.snkPathState p) ≠ 2) : c.activePair p ≠ some 1 := by
  rw [Hub.activePair, if_neg (c := c.get (O.snkPathState p) = 1 ∨ _) (by simp [ramp, on])]
  split <;> simp

/-! ## The commands on the pair in force (R237–R239) -/

section

variable {s : State} {p : Port} {k : Nat} {P : Hub → Prop}

theorem fastTrip_answers (on : s.hub.pdOn = true) (pair : s.hub.activePair p = some k) (h : P ((s.hub.pairFault p k 1).put (H.fastLatch p) 1)) :
    Answers (.fastTrip p) s P :=
  .of_ports (exec_fastTrip p s) on (by simpa only [pair] using h)

theorem faultTimerExpiry_answers (on : s.hub.pdOn = true) (pair : s.hub.activePair p = some k) (due : s.hub.get (O.faultTime p) ≤ s.hub.get (O.faultTimer p))
    (h : P (s.hub.pairFault p k 2)) : Answers (.faultTimerExpiry p) s P :=
  .of_ports (exec_faultTimerExpiry p s) on (by simpa only [pair, if_pos due] using h)

theorem thermalLimit_answers {sink : Bool} (on : s.hub.pdOn = true) (pair : s.hub.activePair p = some (if sink then 1 else 0))
    (hot : s.hub.getI (O.fetTempLimit p) ≤ s.hub.fetTemp p (if sink then 1 else 0)) (h : P (s.hub.pairFault p (if sink then 1 else 0) 3)) :
    Answers (.thermalLimit p sink) s P :=
  .of_ports (exec_thermalLimit p sink s) on (by simpa only [if_pos (And.intro pair hot)] using h)

theorem reverseCurrent_answers (on : s.hub.pdOn = true) (pair : s.hub.activePair p = some k) (h : P (s.hub.reversed p k)) :
    Answers (.reverseCurrent p) s P :=
  .of_ports (exec_reverseCurrent p s) on (by simpa only [pair] using h)

end

/-! ## Reverse current (R236) -/

/-- The source pair that has met reverse current: Off, counted and reported, with its retries as they were. -/
theorem Hub.reversed_source {c : Hub} {p : Nat} (on : c.get (O.srcPathState p) = 2) (fits : c.get (O.reverseEvents p) < 2 ^ 32 - 1) :
    OnlyRegs c (c.reversed p 0) (O.srcPathState p :: O.reverseEvents p :: H.srcReversed p :: leaveRegs p)
      ∧ (c.reversed p 0).get (O.srcPathState p) = 0 ∧ (c.reversed p 0).get (O.reverseEvents p) = c.get (O.reverseEvents p) + 1
      ∧ (c.reversed p 0).lines = c.lines ++ [⟨56, p, 0, c.reactions⟩] := by
  have off : c.turnOff p 0 = (c.put (O.srcPathState p) 0).leavePath p := by simp [Hub.turnOff, pathObj, on]
  have left := (c.put (O.srcPathState p) 0).leavePath_onlyRegs p
  have turned : OnlyRegs c (c.turnOff p 0) (O.srcPathState p :: O.reverseEvents p :: H.srcReversed p :: leaveRegs p) := by
    rw [off]
    exact ((OnlyRegs.refl c _).put (by simp) 0).trans (left.mono (by simp))
  have events : (c.turnOff p 0).get (O.reverseEvents p) = c.get (O.reverseEvents p) := c.turnOff_onlyRegs p 0 _ (by simp [pathObj])
  have pair : (c.turnOff p 0).get (O.srcPathState p) = 0 := (Hub.turnOff_state (k := 0) (.inr on)).1
  have regs (d : Hub) : OnlyRegs d (((d.count (O.reverseEvents p)).raise 56 p).put (H.srcReversed p) 1) [O.reverseEvents p, H.srcReversed p] :=
    (((OnlyRegs.refl d _).count (by simp) 1).raise 56 p).put (by simp) 1
  have reacted : (c.turnOff p 0).reactions = c.reactions := by rw [off]; rfl
  refine ⟨turned.trans ((regs _).mono (by simp)), (regs _ _ (by simp)).trans pair, ?_, ?_⟩
  · rw [Hub.reversed, if_neg (by decide), Hub.get_put_other _ _ (by simp), Hub.get_raise, Hub.get_count_same _ _ _ (by rw [events]; simp [Obj.cap]; omega),
      events]
  · simp [Hub.reversed, Hub.raise, reacted, (c.turnOff_unheard p 0).2]

/-! ## The statement -/

/-- A fault of a sound pair without retries does not ask RETRY_MODE for 01h. -/
theorem Hub.retryMode_ne {c : Hub} {p : Nat} (sound : c.flag (H.powerDegraded p) = false) (mode : c.get (O.retryMode p) ≠ 1) : c.retryMode p ≠ 1 := by
  rwa [Hub.retryMode_sound sound]

/-- Settles O26: a fault takes the pair in force to Latched or Cool-down, and the port with it as R217 and R219 say; reverse current turns the source
pair off. -/
theorem pairFaults : Obligations.PairFaults := by
  unfold Obligations.PairFaults
  refine ⟨?sinkTrip, ?sinkTimer, ?sinkHot, ?sinkOff, ?reverse, ?noPair, ?trip, ?timer, ?hot, ?swapTrip⟩
  case sinkTrip =>
    intro s p on sink source sound mode
    obtain ⟨named, pair, power, lines⟩ := Hub.faulted_latched (c := s.hub) (p := p) (k := 1) (code := 1) (by decide) (Hub.retryMode_ne sound mode)
    refine fastTrip_answers on (Hub.activePair_sink source sink) ?_
    rw [Hub.pairFault_sink]
    exact ⟨.put (s.hub.faulted_onlyIndexes p 1 (.inr rfl)).mono _ _, (Hub.get_put_other _ _ (by simp)).trans pair,
      (Hub.get_put_other _ _ (by simp)).trans named, (Hub.flag_put_other _ _ (by simp)).trans power, lines⟩
  case sinkTimer =>
    intro s p on sink source sound mode limit due
    have retries := Hub.latches_unlimited ((Hub.retryMode_sound sound).trans mode) limit
    obtain ⟨named, pair, timer, -⟩ := s.hub.faulted_state p 1 (code := 2) (by decide)
    have lines := (s.hub.faulted_lines p 1 2).1
    rw [retries, if_neg Bool.false_ne_true] at pair lines
    refine faultTimerExpiry_answers on (Hub.activePair_sink source sink) due ?_
    rw [Hub.pairFault_sink]
    exact ⟨(s.hub.faulted_onlyIndexes p 2 (.inr rfl)).mono, pair, named, timer, lines.trans (List.append_nil _)⟩
  case sinkHot =>
    intro s p on sink source degraded hot
    have mode : s.hub.retryMode p ≠ 1 := by rw [Hub.retryMode_degraded degraded]; decide
    obtain ⟨named, pair, -, -⟩ := Hub.faulted_latched (k := 1) (code := 3) (by decide) mode
    refine thermalLimit_answers on (Hub.activePair_sink source sink) hot ?_
    exact ⟨(s.hub.faulted_onlyIndexes p 3 (.inr rfl)).mono, pair, named⟩
  case sinkOff =>
    intro s p on ramp sink
    refine .of_ports (exec_thermalLimit p true s) on ?_
    exact if_neg fun h => Hub.activePair_ne_sink ramp sink h.1
  case reverse =>
    intro s p on source fits
    obtain ⟨regs, off, counted, lines⟩ := Hub.reversed_source source fits
    refine reverseCurrent_answers on (Hub.activePair_source (.inr source)) ?_
    exact ⟨regs.onlyObjects (by simp [namesObject]), off, counted, regs _ (by simp), lines⟩
  case noPair =>
    intro s p on source sink
    refine .of_ports (exec_fastTrip p s) on ?_
    simp only [Hub.activePair_off source sink]
  case trip =>
    intro s p on source attached noSwap sound mode
    have fault := Hub.pairFault_recovers (code := 1) (by decide) (Hub.retryMode_ne sound mode) noSwap attached
    refine fastTrip_answers on (Hub.activePair_source (.inr source)) ?_
    exact ⟨.put fault.indexes.mono _ _, (Hub.get_put_other _ _ (by simp)).trans fault.latched, (Hub.get_put_other _ _ (by simp)).trans fault.named,
      (Hub.flag_put_other _ _ (by simp)).trans fault.power, (Hub.get_put_other _ _ (by simp)).trans fault.recovers,
      (Hub.get_put_other _ _ (by simp)).trans fault.contract, (Hub.flag_put_other _ _ (by simp)).trans fault.wanted, fault.reported⟩
  case timer =>
    intro s p on source attached noSwap sound mode due
    have fault := Hub.pairFault_recovers (code := 2) (by decide) (Hub.retryMode_ne sound mode) noSwap attached
    refine faultTimerExpiry_answers on (Hub.activePair_source (.inr source)) due ?_
    exact ⟨fault.indexes.mono, fault.latched, fault.named, fault.power, fault.recovers, fault.contract, fault.wanted, fault.reported⟩
  case hot =>
    intro s p on source attached noSwap sound mode hot
    have fault := Hub.pairFault_recovers (code := 3) (by decide) (Hub.retryMode_ne sound mode) noSwap attached
    refine thermalLimit_answers on (Hub.activePair_source (.inr source)) hot ?_
    exact ⟨fault.indexes.mono, fault.latched, fault.named, fault.power, fault.recovers, fault.contract, fault.wanted, fault.reported⟩
  case swapTrip =>
    intro s p on source swap sound mode
    have fault := Hub.pairFault_hardReset (code := 1) (by decide) (Hub.retryMode_ne sound mode) swap
    refine fastTrip_answers on (Hub.activePair_source (.inl source)) ?_
    exact ⟨.put fault.indexes.mono _ _, (Hub.get_put_other _ _ (by simp)).trans fault.latched, (Hub.get_put_other _ _ (by simp)).trans fault.named,
      (Hub.get_put_other _ _ (by simp)).trans fault.swap, (Hub.get_put_other _ _ (by simp)).trans fault.contract,
      (Hub.get_put_other _ _ (by simp)).trans fault.roles, fault.sent⟩

end Sys2Proof.Machine
end

section
/-! The statement on a pair (O25): turn-on, Ramp and On, turn-off, Cool-down, retries and FAULT_CLEAR (R217, R219, R228–R232, R236, R252). -/
namespace Sys2Proof.Machine

-- One theorem after another: elaborated side by side they take more memory than the check allows.
set_option Elab.async false

/-! ## The arms -/

theorem exec_pathTurnOn (p : Port) (sink : Bool) (s : State) : exec (.pathTurnOn p sink) s = execPathTurnOn p sink s := by rfl
theorem exec_converterSettled (p : Port) (s : State) : exec (.converterSettled p) s = execConverterSettled p s := by rfl
theorem exec_converterTimeout (p : Port) (s : State) : exec (.converterTimeout p) s = execConverterTimeout p s := by rfl
theorem exec_rampComplete (p : Port) (sink : Bool) (s : State) : exec (.rampComplete p sink) s = execRampComplete p sink s := by rfl
theorem exec_pathTurnOff (p : Port) (sink : Bool) (s : State) : exec (.pathTurnOff p sink) s = execPathTurnOff p sink s := by rfl
theorem exec_coolDownExpiry (p : Port) (sink : Bool) (s : State) : exec (.coolDownExpiry p sink) s = execCoolDownExpiry p sink s := by rfl
theorem exec_retryHold (p : Port) (s : State) : exec (.retryHold p) s = execRetryHold p s := by rfl
theorem exec_faultClear (lvl : Level) (p : Port) (v : Bool) (s : State) : exec (.faultClear lvl p v) s = execFaultClear lvl p v s := by rfl

/-! ## Ramp (R228, R229) -/

/-- The estimate of a pair does not turn on its converter. -/
theorem Hub.coolEnough_of_regs {c d : Hub} {p k : Nat} (kept : OnlyRegs c d [H.convState p, H.srcReversed p]) : d.coolEnough p k = c.coolEnough p k := by
  have temp : d.fetTemp p k = c.fetTemp p k := by simp [Hub.fetTemp, Hub.usesDiode, Hub.modelTemp, Hub.getI, kept _]
  rw [Hub.coolEnough, Hub.coolEnough, temp, Hub.getI, Hub.getI, kept _ (by simp)]

/-- A source pair that is Off, called for, with its converter settled, the sink pair Off with its gate down, and cool enough. -/
structure SourceMayRamp (c : Hub) (p : Nat) : Prop where
  off : c.get (O.srcPathState p) = 0
  wanted : c.flag (H.srcWanted p) = true
  settled : c.get (H.convState p) = 2
  forward : c.flag (H.srcReversed p) = false
  sink : c.get (O.snkPathState p) = 0
  gate : c.flag (H.gateHigh p 1) = false
  cool : c.coolEnough p 0 = true

/-- It goes to Ramp, its gate up and its time at On not yet held. -/
theorem Hub.tryRamp_source {c : Hub} {p : Nat} (may : SourceMayRamp c p) :
    c.tryRamp p 0 = ((c.put (O.srcPathState p) 1).put (H.gateHigh p 0) 1).put (H.onHeld p) 0 := by
  have asked : c.rampAsked p 0 = true := by simp [Hub.rampAsked, may.wanted, may.settled, may.forward]
  have clear : c.interlockClear p 0 = true := by simp [Hub.interlockClear, pathObj, may.sink, may.gate]
  have allowed : c.rampAllowed p 0 = true := by simp [Hub.rampAllowed, pathObj, may.off, asked, clear, may.cool]
  rw [Hub.tryRamp, if_pos allowed]
  rfl

/-- With the other pair in Ramp or On, or its gate up, no pair goes to Ramp. -/
theorem Hub.tryRamp_blocked {c : Hub} {p k : Nat} (blocked : c.interlockClear p k = false) : c.tryRamp p k = c := by
  rw [Hub.tryRamp, if_neg (by simp [Hub.rampAllowed, blocked])]

/-- What a pair in Ramp shows. -/
theorem Hub.ramping_state (c : Hub) (p : Nat) :
    (((c.put (O.srcPathState p) 1).put (H.gateHigh p 0) 1).put (H.onHeld p) 0).get (O.srcPathState p) = 1
      ∧ (((c.put (O.srcPathState p) 1).put (H.gateHigh p 0) 1).put (H.onHeld p) 0).flag (H.gateHigh p 0) = true := by
  simp [Hub.flag, Hub.get_put_other, Obj.cap]

/-! ## Off (R231) -/

/-- A source pair in Ramp or On turned off, with its converter. -/
theorem Hub.dropSource_off {c : Hub} {p : Nat} (active : c.get (O.srcPathState p) = 1 ∨ c.get (O.srcPathState p) = 2) :
    (c.dropSource p).get (O.srcPathState p) = 0 ∧ (c.dropSource p).flag (O.pg p) = false ∧ (c.dropSource p).get (O.faultTimer p) = 0 := by
  obtain ⟨off, timer, power⟩ := Hub.turnOff_state (k := 0) active
  have rest := c.dropSource_rest p
  exact ⟨(rest _ (by simp)).trans off, (rest.flag _ (by simp)).trans power, (rest _ (by simp)).trans timer⟩

/-! ## Recovery and FAULT_CLEAR (R219, R252) -/

/-- Outside ErrorRecovery nothing waits for a pair. -/
theorem Hub.recoveryEnds_elsewhere {c : Hub} {p : Nat} (elsewhere : c.get (O.attachState p) ≠ 5) : c.recoveryEnds p = c := by
  rw [Hub.recoveryEnds, if_neg (by simp [elsewhere])]

/-- A Latched source pair cleared, with the sink pair Off. -/
theorem Hub.clearPath_source {c : Hub} {p : Nat} (latched : c.get (O.srcPathState p) = 4) (sink : c.get (O.snkPathState p) = 0) :
    c.clearPath p false = (c.put (O.srcPathState p) 0).put (O.retries p) 0 := by
  simp [Hub.clearPath, Hub.each, pathObj, latched, sink, Hub.get_put_other]

/-- FAULT_CLEAR true at a Latched source pair. -/
theorem Hub.writeFaultClear_source {c : Hub} {p : Nat} (latched : c.get (O.srcPathState p) = 4) (sink : c.get (O.snkPathState p) = 0) :
    c.writeFaultClear p true = (.ok, ((c.put (O.srcPathState p) 0).put (O.retries p) 0).recoveryEnds p) := by
  rw [Hub.writeFaultClear, if_pos (by simp [latched]), Hub.clearPath_source latched sink]

/-- FAULT_CLEAR with no pair Latched. -/
theorem Hub.writeFaultClear_none {c : Hub} {p : Nat} (source : c.get (O.srcPathState p) ≠ 4) (sink : c.get (O.snkPathState p) ≠ 4) (v : Bool) :
    c.writeFaultClear p v = (.ok, c) := by
  rw [Hub.writeFaultClear, if_neg (by simp [source, sink])]

/-- The source pair cleared. -/
theorem Hub.cleared_state (c : Hub) (p : Nat) : OnlyRegs c ((c.put (O.srcPathState p) 0).put (O.retries p) 0) [O.srcPathState p, O.retries p]
    ∧ ((c.put (O.srcPathState p) 0).put (O.retries p) 0).get (O.srcPathState p) = 0
    ∧ ((c.put (O.srcPathState p) 0).put (O.retries p) 0).get (O.retries p) = 0 :=
  ⟨((OnlyRegs.refl c _).put (by simp) 0).put (by simp) 0, (Hub.get_put_other _ _ (by simp)).trans (Hub.get_put_same _ _ _), Hub.get_put_same _ _ _⟩

/-- An ErrorRecovery that waited for the pair alone ends with its clearing. -/
theorem Hub.writeFaultClear_recovery {c : Hub} {p : Nat} (latched : c.get (O.srcPathState p) = 4) (sink : c.get (O.snkPathState p) = 0)
    (recovers : c.get (O.attachState p) = 5) (waited : c.get (H.erTimer p) = 1) (unheld : c.heldOff p = false) :
    c.writeFaultClear p true = (.ok, ((c.put (O.srcPathState p) 0).put (O.retries p) 0).forgotten p 0) := by
  obtain ⟨regs, off, -⟩ := c.cleared_state p
  have permits : ((c.put (O.srcPathState p) 0).put (O.retries p) 0).pathPermits p = true := by rw [Hub.pathPermits, off]; rfl
  have free : ((c.put (O.srcPathState p) 0).put (O.retries p) 0).heldOff p = false := by
    rw [Hub.heldOff, regs.flag _ (by simp), regs _ (by simp)]
    exact unheld
  rw [Hub.writeFaultClear_source latched sink, Hub.recoveryEnds_free ((regs _ (by simp)).trans recovers) ((regs _ (by simp)).trans waited) permits, free,
    Hub.when_false, Hub.unattach_eq]

/-! ## The converter's fault (R229) -/

/-- The hub as the converter's fault finds it. -/
theorem Hub.converterOff_onlyRegs (c : Hub) (p : Nat) : OnlyRegs c (c.put (H.convState p) 0) [H.convState p] := (OnlyRegs.refl c _).put (by simp) 0

theorem converterTimeout_answers {s : State} {p : Port} {P : Hub → Prop} (on : s.hub.pdOn = true) (settling : s.hub.get (H.convState p) = 1)
    (off : s.hub.get (O.srcPathState p) = 0) (h : P ((s.hub.put (H.convState p) 0).pairFault p 0 4)) : Answers (.converterTimeout p) s P :=
  .of_ports (exec_converterTimeout p s) on (by simpa only [if_pos (And.intro settling off)] using h)

/-- A sound pair without retries stays so as the converter goes off. -/
theorem Hub.converterOff_mode {c : Hub} {p : Nat} (sound : c.flag (H.powerDegraded p) = false) (mode : c.get (O.retryMode p) ≠ 1) :
    (c.put (H.convState p) 0).retryMode p ≠ 1 := by
  have kept := c.converterOff_onlyRegs p
  exact Hub.retryMode_ne ((kept.flag _ (by simp)).trans sound) ((kept _ (by simp)).trans_ne mode)

/-! ## The statement -/

/-- Settles O25: each command leaves the pair in the state that R228–R232, R236 and R252 give it, and the port with it (R217, R219). -/
theorem pairCommands : Obligations.PairCommands := by
  unfold Obligations.PairCommands
  refine ⟨?turnsOn, ?calls, ?sinkBlocked, ?settledBlocked, ?timeoutSink, ?completes, ?turnsOff, ?cools, ?tooHot, ?holds, ?clears, ?clearsNone, ?settles,
    ?timeoutSource, ?timeoutSwap, ?clearsRecovery⟩
  case turnsOn =>
    intro s p on off wanted settled forward sink gate cool
    have fresh : OnlyRegs s.hub (s.hub.put (H.srcReversed p) 0) [H.srcReversed p] := (OnlyRegs.refl _ _).put (by simp) 0
    have may : SourceMayRamp (s.hub.put (H.srcReversed p) 0) p :=
      ⟨(fresh _ (by simp)).trans off, (fresh.flag _ (by simp)).trans wanted, (fresh _ (by simp)).trans settled, Hub.flag_put_same _ _ _,
        (fresh _ (by simp)).trans sink, (fresh.flag _ (by simp)).trans gate, (Hub.coolEnough_of_regs (fresh.mono (by simp))).trans cool⟩
    obtain ⟨ramp, up⟩ := (s.hub.put (H.srcReversed p) 0).ramping_state p
    refine .of_ports (exec_pathTurnOn p false s) on ?_
    rw [if_neg Bool.false_ne_true, if_neg (by simp [settled, forward]), Hub.tryRamp_source may]
    exact ⟨ramp, up, (((fresh.mono (by simp)).put (by simp) 1).put (by simp) 1).put (by simp) 0⟩
  case calls =>
    intro s p on reversed may
    refine .of_ports (exec_pathTurnOn p false s) on ?_
    rw [if_neg Bool.false_ne_true, if_pos ⟨.inr reversed, may⟩]
    refine ⟨?_, ?_, s.hub.callSource_onlyRegs p⟩
    · simp [Hub.callSource, Hub.get_put_other, Obj.cap]
    · simp [Hub.callSource, Hub.get_put_other, Obj.cap]
  case sinkBlocked =>
    intro s p on source
    have blocked : s.hub.interlockClear p 1 = false := by
      rcases source with ramp | run | gate
      · simp [Hub.interlockClear, pathObj, ramp]
      · simp [Hub.interlockClear, pathObj, run]
      · simp [Hub.interlockClear, gate]
    refine .of_ports (exec_pathTurnOn p true s) on ?_
    rw [if_pos rfl, Hub.tryRamp_blocked blocked]
  case settledBlocked =>
    intro s p on settling gate
    have still : (s.hub.put (H.convState p) 2).flag (H.gateHigh p 1) = true := (Hub.flag_put_other _ _ (by simp)).trans gate
    refine .of_ports (exec_converterSettled p s) on ?_
    rw [if_pos settling, Hub.tryRamp_blocked (by simp [Hub.interlockClear, still])]
    exact ⟨Hub.get_put_same _ _ _, (OnlyRegs.refl _ _).put (by simp) 2⟩
  case timeoutSink =>
    intro s p on settling off sink noSwap sound mode
    have kept := s.hub.converterOff_onlyRegs p
    obtain ⟨named, pair, power, lines⟩ := Hub.faulted_latched (k := 0) (code := 4) (by decide) (Hub.converterOff_mode sound mode)
    have attached : (s.hub.put (H.convState p) 0).get (O.attachState p) = 4 := (kept _ (by simp)).trans sink
    refine converterTimeout_answers on settling off ?_
    rw [Hub.pairFault_alone 4 ((kept _ (by simp)).trans_ne noSwap) (by rw [attached]; decide)]
    exact ⟨.after (Hub.faulted_onlyIndexes _ p 4 (.inl rfl)).mono (kept.onlyIndexes (by simp [namesIndex])), named, pair, power, lines⟩
  case completes =>
    intro s p on ramp fits
    refine .of_ports (exec_rampComplete p true s) on ?_
    have path : s.hub.get (pathObj p 1) = 1 := ramp
    simp only [if_true, path, ne_eq, not_true, if_false]
    refine ⟨?_, ?_, (((OnlyRegs.refl _ _).put (by simp [pathObj]) 2).count (by simp) 1).put (by simp) 0⟩
    · simp [pathObj, Hub.get_put_other, Hub.get_count_other, Obj.cap]
    · have before : (s.hub.put (pathObj p 1) 2).get (O.ramps p) = s.hub.get (O.ramps p) := Hub.get_put_other _ _ (by simp [pathObj])
      rw [Hub.get_put_other _ _ (by simp), Hub.get_count_same _ _ _ (by rw [before]; simp [Obj.cap]; omega), before]
  case turnsOff =>
    intro s p on active
    obtain ⟨off, power, timer⟩ := Hub.dropSource_off active
    refine .of_ports (exec_pathTurnOff p false s) on ?_
    rw [if_neg Bool.false_ne_true]
    exact ⟨off, (s.hub.dropSource_state p).2, power, timer, (s.hub.dropSource_onlyRegs p).mono (by simp [pathObj])⟩
  case cools =>
    intro s p sink on cooling cool elsewhere
    have apart : (pathObj p (if sink then 1 else 0)).key ≠ (O.attachState p).key := by cases sink <;> simp [pathObj]
    have still : (s.hub.put (pathObj p (if sink then 1 else 0)) 0).get (O.attachState p) ≠ 5 :=
      (Hub.get_put_other _ _ apart.symm).trans_ne elsewhere
    refine .of_ports (exec_coolDownExpiry p sink s) on ?_
    dsimp only
    rw [if_pos ⟨cooling, cool⟩, Hub.recoveryEnds_elsewhere still]
    exact ⟨(Hub.get_put_same _ _ _).trans (Nat.zero_mod _), (OnlyRegs.refl _ _).put (by simp) 0⟩
  case tooHot =>
    intro s p sink on cooling hot
    refine .of_ports (exec_coolDownExpiry p sink s) on ?_
    exact if_neg fun h => Bool.false_ne_true (hot.symm.trans h.2)
  case holds =>
    intro s p on run
    refine .of_ports (exec_retryHold p s) on ?_
    rw [if_pos run]
    exact ⟨(Hub.get_put_other _ _ (by simp)).trans (Hub.get_put_same _ _ _), Hub.get_put_same _ _ _,
      ((OnlyRegs.refl _ _).put (by simp) 0).put (by simp) 1⟩
  case clears =>
    intro s lvl p on right latched sink elsewhere image free
    obtain ⟨regs, off, retries⟩ := s.hub.cleared_state p
    refine .of_write (exec_faultClear lvl p true s) on free image right.writes ?_
    rw [Hub.writeFaultClear_source latched sink, Hub.recoveryEnds_elsewhere ((regs _ (by simp)).trans_ne elsewhere)]
    exact ⟨(Hub.get_emit _ _ _).trans off, (Hub.get_emit _ _ _).trans retries, rfl, regs.emit _⟩
  case clearsNone =>
    intro s lvl p v on right source sink image free
    refine .of_write (exec_faultClear lvl p v s) on free image right.writes ?_
    rw [Hub.writeFaultClear_none source sink]
    exact ⟨rfl, rfl⟩
  case settles =>
    intro s p on settling wanted forward off sink gate cool
    have settled : OnlyRegs s.hub (s.hub.put (H.convState p) 2) [H.convState p] := (OnlyRegs.refl _ _).put (by simp) 2
    have may : SourceMayRamp (s.hub.put (H.convState p) 2) p :=
      ⟨(settled _ (by simp)).trans off, (settled.flag _ (by simp)).trans wanted, Hub.get_put_same _ _ _, (settled.flag _ (by simp)).trans forward,
        (settled _ (by simp)).trans sink, (settled.flag _ (by simp)).trans gate, (Hub.coolEnough_of_regs (settled.mono (by simp))).trans cool⟩
    obtain ⟨ramp, up⟩ := (s.hub.put (H.convState p) 2).ramping_state p
    have ramping : OnlyRegs (s.hub.put (H.convState p) 2)
        ((((s.hub.put (H.convState p) 2).put (O.srcPathState p) 1).put (H.gateHigh p 0) 1).put (H.onHeld p) 0)
        [O.srcPathState p, H.gateHigh p 0, H.onHeld p] := (((OnlyRegs.refl _ _).put (by simp) 1).put (by simp) 1).put (by simp) 0
    refine .of_ports (exec_converterSettled p s) on ?_
    rw [if_pos settling, Hub.tryRamp_source may]
    exact ⟨(ramping _ (by simp)).trans may.settled, ramp, up, (settled.mono (by simp)).trans (ramping.mono (by simp))⟩
  case timeoutSource =>
    intro s p on settling off source noSwap sound mode
    have kept := s.hub.converterOff_onlyRegs p
    have fault := Hub.pairFault_recovers (code := 4) (by decide) (Hub.converterOff_mode sound mode) ((kept _ (by simp)).trans_ne noSwap)
      ((kept _ (by simp)).trans source)
    refine converterTimeout_answers on settling off ?_
    exact ⟨.after fault.indexes.mono (kept.onlyIndexes (by simp [namesIndex])), fault.named, fault.latched, fault.recovers, fault.contract, fault.wanted,
      fault.reported⟩
  case timeoutSwap =>
    intro s p on settling off swap sound mode
    have kept := s.hub.converterOff_onlyRegs p
    have fault := Hub.pairFault_hardReset (code := 4) (by decide) (Hub.converterOff_mode sound mode) ((kept _ (by simp)).trans swap)
    have roles := fault.roles
    rw [kept _ (by simp)] at roles
    refine converterTimeout_answers on settling off ?_
    exact ⟨.after fault.indexes.mono (kept.onlyIndexes (by simp [namesIndex])), fault.named, fault.latched, fault.swap, fault.contract, roles, fault.sent⟩
  case clearsRecovery =>
    intro s lvl p on right latched sink recovers waited held image free
    obtain ⟨regs, off, retries⟩ := s.hub.cleared_state p
    have gone := Hub.forgotten_onlyRegs ((s.hub.put (O.srcPathState p) 0).put (O.retries p) 0) p 0
    refine .of_write (exec_faultClear lvl p true s) on free image right.writes ?_
    rw [Hub.writeFaultClear_recovery latched sink recovers waited held]
    refine ⟨.emit (.after (Hub.forgotten_onlyIndexes _ p 0).mono (regs.onlyIndexes (by simp [namesIndex]))) _, ?_, ?_, ?_⟩
    · exact (Hub.get_emit _ _ _).trans ((gone _ (by simp [forgottenRegs])).trans off)
    · exact (Hub.get_emit _ _ _).trans ((gone _ (by simp [forgottenRegs])).trans retries)
    · exact (Hub.get_emit _ _ _).trans (Hub.forgotten_state _ p (by decide)).1

end Sys2Proof.Machine
end

section
/-! A lost feed recorded by a byte that no write leaves. -/
namespace Sys2Proof.Machine

/-- The arm of FEED_QUALIFY. -/
theorem exec_feedQualify (b : Bool) (s : State) : exec (.feedQualify b) s = execFeedQualify b s := by rfl

/-- A hub that runs on its lost feed B, whose store lists the value 256 for the one byte that records the loss. -/
def Hub.withWideLoss : Hub :=
  let c := Hub.runningWith [(O.feedSelected, 2)]
  { c with regs := c.regs.insert H.feedLost.key 256 }

/-- Refutes O27: a transfer writes the recorded loss back through its register's one byte, so a store that lists 256 there holds 0 after FEED_QUALIFY
of the other feed, where the clause keeps the value. -/
theorem not_feedsTickAndAdc : ¬ Obligations.FeedsTickAndAdc := by
  unfold Obligations.FeedsTickAndAdc
  rintro ⟨-, -, -, -, -, -, transfer, -⟩
  have answered := transfer ⟨[], Hub.withWideLoss, Mems.reset⟩ false (by decide) (by decide) (by decide) (by decide)
  obtain ⟨-, -, -, kept, -⟩ := answered.of_run ((exec_feedQualify ..).trans (onFeeds_on _ (by decide)))
  have narrowed : 0 = 256 := kept
  exact absurd narrowed (by decide)

end Sys2Proof.Machine
end

section
/-! The states of the pairs of the power paths (3101h.01, 3101h.02), and the operations of the hub that leave them: `Hub.paths`. -/
namespace Sys2Proof.Machine

-- One theorem after another: elaborated side by side they take more memory than the check allows.
set_option Elab.async false

/-! ## The states of the pairs -/

/-- The states of the pairs of every port: 0 source, 1 sink (3101h.01, 3101h.02). -/
def Hub.paths (c : Hub) (p k : Nat) : Nat := c.get (pathObj p k)

/-- A register that is no pair's state. -/
def Obj.OffPath (o : Obj) : Prop := o.key.obj ≠ 0x310101 ∧ o.key.obj ≠ 0x310102

theorem Obj.offPath_mk {obj inst off size dflt : Nat} (h : ¬(obj = 0x310101 ∨ obj = 0x310102)) :
    Obj.OffPath ⟨⟨obj, inst, off⟩, size, dflt⟩ := not_or.mp h

theorem pathObj_obj (p k : Nat) : (pathObj p k).key.obj = 0x310101 ∨ (pathObj p k).key.obj = 0x310102 := by
  unfold pathObj
  split
  · exact .inl rfl
  · exact .inr rfl

theorem Hub.paths_of_regs {c d : Hub} (h : d.regs = c.regs) : d.paths = c.paths := by
  funext p k
  simp only [Hub.paths, Hub.get, h]

/-! ## The operations on one register -/

section
variable (c : Hub) {o : Obj}

theorem Hub.put_paths (v : Nat) (h : o.OffPath) : (c.put o v).paths = c.paths := by
  funext p k
  exact Hub.get_put_obj c v fun e => not_or.mpr h (e ▸ pathObj_obj p k)

theorem Hub.restore_paths (h : o.OffPath) : (c.restore o).paths = c.paths := c.put_paths _ h

theorem Hub.count_paths (n : Nat) (h : o.OffPath) : (c.count o n).paths = c.paths := by
  unfold Hub.count
  split
  · exact c.put_paths _ h
  · exact (Hub.put_paths _ _ h).trans (Hub.paths_of_regs rfl)

theorem Hub.showI_paths (v : Int) (h : o.OffPath) : (c.showI o v).paths = c.paths := by
  unfold Hub.showI
  split
  · exact c.put_paths _ h
  · exact (Hub.put_paths _ _ h).trans (Hub.paths_of_regs rfl)

theorem Hub.peak_paths (v : Nat) (h : o.OffPath) : (c.peak o v).paths = c.paths := by
  unfold Hub.peak
  split
  · exact c.put_paths _ h
  · rfl

theorem Hub.putByte_paths (n k : Nat) (b : Byte) (h : o.OffPath) : (c.putByte o n k b).paths = c.paths := c.put_paths _ h

theorem Hub.binUp_paths (h : o.OffPath) : (c.binUp o).paths = c.paths := c.put_paths _ h

end

/-- What holds of an object whose number is no pair's, as one equation: `simp` decides the number of a register written out, also below a binder. -/
theorem Hub.paths_of_number {c d : Hub} {obj : Nat} (h : ¬(obj = 0x310101 ∨ obj = 0x310102) → d.paths = c.paths) :
    d.paths = if obj = 0x310101 ∨ obj = 0x310102 then d.paths else c.paths := by
  split
  · rfl
  · next off => exact h off

section
variable (c : Hub) (obj inst off size dflt : Nat)

@[simp] theorem Hub.put_paths_mk (v : Nat) : (c.put ⟨⟨obj, inst, off⟩, size, dflt⟩ v).paths
    = if obj = 0x310101 ∨ obj = 0x310102 then (c.put ⟨⟨obj, inst, off⟩, size, dflt⟩ v).paths else c.paths :=
  Hub.paths_of_number fun h => c.put_paths v (Obj.offPath_mk h)

@[simp] theorem Hub.restore_paths_mk : (c.restore ⟨⟨obj, inst, off⟩, size, dflt⟩).paths
    = if obj = 0x310101 ∨ obj = 0x310102 then (c.restore ⟨⟨obj, inst, off⟩, size, dflt⟩).paths else c.paths :=
  Hub.paths_of_number fun h => c.restore_paths (Obj.offPath_mk h)

@[simp] theorem Hub.count_paths_mk (n : Nat) : (c.count ⟨⟨obj, inst, off⟩, size, dflt⟩ n).paths
    = if obj = 0x310101 ∨ obj = 0x310102 then (c.count ⟨⟨obj, inst, off⟩, size, dflt⟩ n).paths else c.paths :=
  Hub.paths_of_number fun h => c.count_paths n (Obj.offPath_mk h)

@[simp] theorem Hub.showI_paths_mk (v : Int) : (c.showI ⟨⟨obj, inst, off⟩, size, dflt⟩ v).paths
    = if obj = 0x310101 ∨ obj = 0x310102 then (c.showI ⟨⟨obj, inst, off⟩, size, dflt⟩ v).paths else c.paths :=
  Hub.paths_of_number fun h => c.showI_paths v (Obj.offPath_mk h)

@[simp] theorem Hub.peak_paths_mk (v : Nat) : (c.peak ⟨⟨obj, inst, off⟩, size, dflt⟩ v).paths
    = if obj = 0x310101 ∨ obj = 0x310102 then (c.peak ⟨⟨obj, inst, off⟩, size, dflt⟩ v).paths else c.paths :=
  Hub.paths_of_number fun h => c.peak_paths v (Obj.offPath_mk h)

@[simp] theorem Hub.putByte_paths_mk (n k : Nat) (b : Byte) : (c.putByte ⟨⟨obj, inst, off⟩, size, dflt⟩ n k b).paths
    = if obj = 0x310101 ∨ obj = 0x310102 then (c.putByte ⟨⟨obj, inst, off⟩, size, dflt⟩ n k b).paths else c.paths :=
  Hub.paths_of_number fun h => c.putByte_paths n k b (Obj.offPath_mk h)

@[simp] theorem Hub.binUp_paths_mk : (c.binUp ⟨⟨obj, inst, off⟩, size, dflt⟩).paths
    = if obj = 0x310101 ∨ obj = 0x310102 then (c.binUp ⟨⟨obj, inst, off⟩, size, dflt⟩).paths else c.paths :=
  Hub.paths_of_number fun h => c.binUp_paths (Obj.offPath_mk h)

end

@[simp] theorem Hub.putB_paths (c : Hub) (o : Obj) (b : Bool) : (c.putB o b).paths = (c.put o (if b then 1 else 0)).paths := rfl
@[simp] theorem Hub.putI_paths (c : Hub) (o : Obj) (v : Int) : (c.putI o v).paths = (c.put o (v % (o.cap : Int)).toNat).paths := rfl

/-! ## The operations on other fields, and what joins operations -/

/-- A change of the hub's other fields leaves the pairs. -/
@[simp] theorem Hub.mk_paths (c : Hub) x1 x2 x3 x4 x5 x6 x7 x8 x9 x10 x11 x12 x13 x14 x15 x16 x17 x18 x19 x20 x21 x22 x23 x24 x25 x26 x27
      x28 x29 x30 x31 x32 x33 x34 x35 x36 x37 x38 x39 x40 x41 x42 x43 x44 x45 x46 x47 x48 x49 x50 x51 x52 x53 :
    (Hub.mk c.regs x1 x2 x3 x4 x5 x6 x7 x8 x9 x10 x11 x12 x13 x14 x15 x16 x17 x18 x19 x20 x21 x22 x23 x24 x25 x26 x27
      x28 x29 x30 x31 x32 x33 x34 x35 x36 x37 x38 x39 x40 x41 x42 x43 x44 x45 x46 x47 x48 x49 x50 x51 x52 x53).paths = c.paths :=
  Hub.paths_of_regs rfl

@[simp] theorem Hub.draw_paths (c : Hub) : c.draw.2.paths = c.paths := Hub.paths_of_regs rfl
@[simp] theorem Hub.emit_paths (c : Hub) (x : Out) : (c.emit x).paths = c.paths := Hub.paths_of_regs rfl
@[simp] theorem Hub.raise_paths (c : Hub) (n u d : Nat) : (c.raise n u d).paths = c.paths := Hub.paths_of_regs rfl
@[simp] theorem Hub.advanceTo_paths (c : Hub) (t : Nat) : (c.advanceTo t).paths = c.paths := Hub.paths_of_regs rfl

section
variable {P : Prop} [Decidable P] {α β : Type}

@[simp] theorem Hub.ite_paths (c d : Hub) : (if P then c else d).paths = if P then c.paths else d.paths := apply_ite ..
@[simp] theorem Hub.ite_snd_paths (x y : α × Hub) : (if P then x else y).2.paths = if P then x.2.paths else y.2.paths := by split <;> rfl
@[simp] theorem Hub.ite_fst_paths (x y : Hub × α) : (if P then x else y).1.paths = if P then x.1.paths else y.1.paths := by split <;> rfl
@[simp] theorem Hub.ite_mid_paths (x y : α × Hub × β) : (if P then x else y).2.1.paths = if P then x.2.1.paths else y.2.1.paths :=
  by split <;> rfl

end

@[simp] theorem Hub.when_paths (c : Hub) (b : Bool) (f : Hub → Hub) : (c.when b f).paths = if b then (f c).paths else c.paths := by
  cases b <;> rfl

/-- A fold over a list whose members alone the operation is given. -/
theorem Hub.foldl_paths_of_mem {α : Type} {f : Hub → α → Hub} (xs : List α) (h : ∀ d, ∀ x ∈ xs, (f d x).paths = d.paths) (c : Hub) :
    (xs.foldl f c).paths = c.paths :=
  List.foldlRecOn (motive := fun d : Hub => d.paths = c.paths) xs f rfl fun d same x mem => (h d x mem).trans same

@[simp] theorem Hub.foldl_paths {α : Type} {f : Hub → α → Hub} (h : ∀ d x, (f d x).paths = d.paths) (xs : List α) (c : Hub) :
    (xs.foldl f c).paths = c.paths := Hub.foldl_paths_of_mem xs (fun d x _ => h d x) c

@[simp] theorem Hub.each_paths {α : Type} (c : Hub) (xs : List α) {f : Hub → α → Hub} (h : ∀ d x, (f d x).paths = d.paths) :
    (c.each xs f).paths = c.paths := Hub.foldl_paths h xs c

end Sys2Proof.Machine
end

section
/-! The functions of the model that leave the states of the pairs, in its order: each changes other registers, or other fields, alone. A function
of lists or of fuel goes by its recursion; any other by the lemmas about the functions it calls, case by case where it has cases. -/
namespace Sys2Proof.Machine

-- One theorem after another: elaborated side by side they take more memory than the check allows.
set_option Elab.async false

/-! ## The named operations -/

@[simp] theorem Hub.dramReads_paths (c : Hub) (words : Nat) : (c.dramReads words).paths = c.paths := by simp [Hub.dramReads]

@[simp] theorem Hub.requestRom_paths (c : Hub) (lvl : Level) (acc : List Right) (op : Hub → Status × Hub) :
    (c.requestRom lvl acc op).paths = if (rightOf acc lvl).writes then (op c).2.paths else c.paths := by simp [Hub.requestRom]

@[simp] theorem Hub.request_paths (c : Hub) (lvl : Level) (acc : List Right) (op : Hub → Status × Hub) :
    (c.request lvl acc op).paths = if c.inRom then c.paths else if (rightOf acc lvl).writes then (op c).2.paths else c.paths := by
  unfold Hub.request
  split <;> simp

@[simp] theorem Hub.holdWrite_paths (c : Hub) (w : HeldWrite) : (c.holdWrite w).paths = c.paths := Hub.paths_of_regs rfl

@[simp] theorem Hub.openWindow_paths (c : Hub) (source kind unit : Nat) (byUmpire : Bool) (fault : Nat) :
    (c.openWindow source kind unit byUmpire fault).paths = c.paths := Hub.paths_of_regs rfl

@[simp] theorem Hub.reactionDone_paths (c : Hub) (kind unit : Nat) : (c.reactionDone kind unit).paths = c.paths := Hub.paths_of_regs rfl

@[simp] theorem Hub.losslessLoss_paths (c : Hub) (tid : Nat) : (c.losslessLoss tid).paths = c.paths := by simp [Hub.losslessLoss]

/-! ## Keys and their conditions -/

@[simp] theorem Hub.random_paths (c : Hub) : c.random.2.paths = c.paths := Hub.paths_of_regs rfl

@[simp] theorem Hub.useSlot_paths (c : Hub) (s : Nat) : (c.useSlot s).paths = c.paths := by simp [Hub.useSlot]

/-! ## Operands -/

@[simp] theorem Hub.makePacketAt_paths (c : Hub) (d tid cls type flags info : Nat) (payload : Bytes) :
    (c.makePacketAt d tid cls type flags info payload).2.paths = c.paths := by simp [Hub.makePacketAt]

@[simp] theorem Hub.makePacket_paths (c : Hub) (tid cls type flags info : Nat) (payload : Bytes) :
    (c.makePacket tid cls type flags info payload).2.paths = c.paths := by simp [Hub.makePacket]

@[simp] theorem Hub.putEntry_paths (c : Hub) (t : Nat) (e : PathEntry) (drain : Bool) : (c.putEntry t e drain).paths = c.paths := by
  simp [Hub.putEntry]

/-! ## Status flags -/

theorem statusWord_offPath (s : Nat) : (statusWord s).OffPath := by
  unfold statusWord
  repeat' split
  all_goals simp [Obj.OffPath]

@[simp] theorem Hub.setStatus_paths (c : Hub) (s : Nat) : (c.setStatus s).paths = c.paths := c.put_paths _ (statusWord_offPath s)

/-! ## The shared buffer -/

@[simp] theorem Hub.returnCredit_paths (c : Hub) (input cls cost : Nat) : (c.returnCredit input cls cost).paths = c.paths := by
  simp [Hub.returnCredit]

@[simp] theorem Hub.freeCells_paths (c : Hub) (p : Held) : (c.freeCells p).paths = c.paths := by simp [Hub.freeCells]

@[simp] theorem Hub.leaveSpill_paths (c : Hub) (q : Nat) : (c.leaveSpill q).paths = c.paths := by simp [Hub.leaveSpill]

@[simp] theorem Hub.remove_paths (c : Hub) (p : Held) : (c.remove p).paths = c.paths := by simp [Hub.remove]

@[simp] theorem Hub.lossOf_paths (c : Hub) (k tid : Nat) : (c.lossOf k tid).paths = c.paths := by simp [Hub.lossOf]

@[simp] theorem Hub.teardownDiscard_paths (c : Hub) (p : Held) : (c.teardownDiscard p).paths = c.paths := by simp [Hub.teardownDiscard]

@[simp] theorem Hub.enterSpill_paths (c : Hub) (q : Nat) : (c.enterSpill q).paths = c.paths := by simp [Hub.enterSpill]

@[simp] theorem Hub.append_paths (c : Hub) (p : Held) : (c.append p).paths = c.paths := by simp [Hub.append]

@[simp] theorem Hub.isoRefused_paths (c : Hub) (tid : Nat) : (c.isoRefused tid).paths = c.paths := by simp [Hub.isoRefused]

@[simp] theorem Hub.refused_paths (c : Hub) (q tid : Nat) (v : Verdict) : (c.refused q tid v).paths = c.paths := by
  unfold Hub.refused
  split <;> simp

@[simp] theorem Hub.setFrame_paths (c : Hub) (tid q : Nat) (f : Option OpenFrame) : (c.setFrame tid q f).paths = c.paths := Hub.paths_of_regs rfl

@[simp] theorem Hub.offerTake_paths (c : Hub) (tid outTid q input serial : Nat) (cutoff : Bool) (p : Packet) (v : Bool × Verdict) :
    (c.offerTake tid outTid q input serial cutoff p v).1.paths = c.paths := by
  unfold Hub.offerTake
  simp only
  repeat' split
  all_goals simp

@[simp] theorem Hub.offer_paths (c : Hub) (tid outTid q input : Nat) (cutoff : Bool) (p : Packet) :
    (c.offer tid outTid q input cutoff p).1.paths = c.paths := by simp [Hub.offer]

@[simp] theorem Hub.peakUsed_paths (c : Hub) : c.peakUsed.paths = c.paths := by simp [Hub.peakUsed]

@[simp] theorem Hub.enqueue_paths (c : Hub) (tid outTid q input : Nat) (cutoff : Bool) (p : Packet) :
    (c.enqueue tid outTid q input cutoff p).paths = c.paths := by
  unfold Hub.enqueue
  have offered := c.offer_paths tid outTid q input cutoff p
  simp only
  split <;> simp_all

@[simp] theorem Hub.enqueueAll_paths (c : Hub) (tid cls input : Nat) (cutoff : Bool) (p : Packet) :
    (c.enqueueAll tid cls input cutoff p).paths = c.paths := by
  unfold Hub.enqueueAll
  extract_lets members opened serial tested counted lost taken
  have same : taken.paths = lost.paths := Hub.each_paths _ _ fun d x => by
    have one := d.offerTake_paths tid x.1.2 (queueOf x.1.1 cls) input serial cutoff p x.2
    split <;> simp_all
  split
  · simp
  · simp [same, lost, counted]

@[simp] theorem Hub.showPacket_paths (c : Hub) (x : StoredPacket) : (c.showPacket x).paths = c.paths := by simp [Hub.showPacket]

@[simp] theorem Hub.presentRest_paths (c : Hub) (h : Nat) : (c.presentRest h).paths = c.paths := by simp [Hub.presentRest]

@[simp] theorem Hub.endOutputs_paths (c : Hub) (t : Nat) : (c.endOutputs t).paths = c.paths := by simp [Hub.endOutputs]

@[simp] theorem Hub.teardownOne_paths (c : Hub) (t : Nat) : (c.teardownOne t).paths = c.paths := by simp [Hub.teardownOne]

@[simp] theorem Hub.teardown_paths (c : Hub) (t : Nat) : (c.teardown t).paths = c.paths := by simp [Hub.teardown]

@[simp] theorem Hub.teardownUsing_paths (c : Hub) (e : Nat) : (c.teardownUsing e).paths = c.paths := by simp [Hub.teardownUsing]

@[simp] theorem Hub.emptied_paths (c : Hub) (p : Held) : (c.emptied p).paths = c.paths := by simp [Hub.emptied]

@[simp] theorem Hub.emptyQueues_paths (c : Hub) (e : Nat) : (c.emptyQueues e).paths = c.paths := by simp [Hub.emptyQueues]

@[simp] theorem Hub.emptyBuffer_paths (c : Hub) : c.emptyBuffer.paths = c.paths := by simp [Hub.emptyBuffer]

@[simp] theorem Hub.discardIso_paths (c : Hub) (which : Held → Bool) (stale : Bool) : (c.discardIso which stale).paths = c.paths := by
  simp [Hub.discardIso]

/-! ## PCI Express errors and interrupts -/

@[simp] theorem Hub.completeRead_paths (c : Hub) (requester tag off : Nat) (bs : Bytes) : (c.completeRead requester tag off bs).paths = c.paths := by
  simp [Hub.completeRead]

@[simp] theorem Hub.msix_paths (c : Hub) (v : Nat) : (c.msix v).paths = c.paths := by simp [Hub.msix]

@[simp] theorem Hub.msixSweep_paths (c : Hub) : c.msixSweep.paths = c.paths := by simp [Hub.msixSweep]

@[simp] theorem Hub.msixWrite_paths (c : Hub) (off : Nat) (b : Byte) : (c.msixWrite off b).paths = c.paths := by simp [Hub.msixWrite]

@[simp] theorem Hub.aerRecord_paths (c : Hub) (f k : Nat) (answered : Bool) (tlp : Bytes) : (c.aerRecord f k answered tlp).paths = c.paths := by
  simp [Hub.aerRecord]

@[simp] theorem Hub.aerClear_paths (c : Hub) (f reg written : Nat) : (c.aerClear f reg written).paths = c.paths := by
  unfold Hub.aerClear
  split <;> simp

/-! ## The ends of the rigger bridge's requests -/

@[simp] theorem Hub.logRig_paths (c : Hub) (source kind hub window seq count addr : Nat) :
    (c.logRig source kind hub window seq count addr).paths = c.paths := by simp [Hub.logRig]

@[simp] theorem Hub.dropLine_paths (c : Hub) (x : PrefetchLine) : (c.dropLine x).paths = c.paths := by simp [Hub.dropLine]

@[simp] theorem Hub.finishRead_paths (c : Hub) (x : ApertureRead) : (c.finishRead x).paths = c.paths := by simp [Hub.finishRead]

@[simp] theorem Hub.abortRead_paths (c : Hub) (x : ApertureRead) : (c.abortRead x).paths = c.paths := by simp [Hub.abortRead]

@[simp] theorem Hub.claimOver_paths (c : Hub) (hub : Nat) : (c.claimOver hub).paths = c.paths := by simp [Hub.claimOver]

@[simp] theorem Hub.endRig_paths (c : Hub) (r : RigRequest) (status : Nat) (data : Bytes) : (c.endRig r status data).paths = c.paths := by
  unfold Hub.endRig
  simp only
  split
  · simp
  · simp
  · split
    · simp
    · split <;> simp
  · simp
  · simp

@[simp] theorem Hub.rigLost_paths (c : Hub) (hub : Nat) : (c.rigLost hub).paths = c.paths := by simp [Hub.rigLost]

/-! ## The wake from Easy and Paddle -/

@[simp] theorem Hub.recordGap_paths (c : Hub) : c.recordGap.paths = c.paths := by simp [Hub.recordGap]

@[simp] theorem Hub.awake_paths (c : Hub) : c.awake.paths = c.paths := by simp [Hub.awake]

/-! ## Topology -/

@[simp] theorem Hub.newMessage_paths (c : Hub) (p sop : Nat) : (c.newMessage p sop).paths = c.paths := by simp [Hub.newMessage]

@[simp] theorem Hub.sendVdm_paths (c : Hub) (p : Nat) (v : Vdm) : (c.sendVdm p v).paths = c.paths := by simp [Hub.sendVdm]

@[simp] theorem Hub.sendExit_paths (c : Hub) (p : Nat) : (c.sendExit p).paths = c.paths := by simp [Hub.sendExit]

@[simp] theorem Hub.leaveMode_paths (c : Hub) (p : Nat) : (c.leaveMode p).paths = c.paths := by simp [Hub.leaveMode]

@[simp] theorem Hub.countHubs_paths (c : Hub) : c.countHubs.paths = c.paths := by simp [Hub.countHubs]

@[simp] theorem Hub.topoEvent_paths (c : Hub) (port kind reason uid : Nat) : (c.topoEvent port kind reason uid).paths = c.paths := by
  simp [Hub.topoEvent]

@[simp] theorem Hub.sendJoin_paths (c : Hub) (p : Nat) : (c.sendJoin p).paths = c.paths := Hub.paths_of_regs rfl

@[simp] theorem Hub.startJoining_paths (c : Hub) (p : Nat) (fresh : Bool) : (c.startJoining p fresh).paths = c.paths := by simp [Hub.startJoining]

@[simp] theorem Hub.unjoin_paths (c : Hub) : c.unjoin.paths = c.paths := by simp [Hub.unjoin]

@[simp] theorem Hub.treeTrained_paths (c : Hub) (p : Nat) : (c.treeTrained p).paths = c.paths := by simp [Hub.treeTrained]

@[simp] theorem Hub.forgetRoute_paths (c : Hub) (a : Nat) : (c.forgetRoute a).paths = c.paths := by simp [Hub.forgetRoute]

@[simp] theorem Hub.becomeOrphan_paths (c : Hub) (lost : Option Nat) : (c.becomeOrphan lost).paths = c.paths := by
  unfold Hub.becomeOrphan
  split <;> simp

@[simp] theorem Hub.flushLost_paths (c : Hub) (p : Nat) : (c.flushLost p).paths = c.paths := by simp [Hub.flushLost]

@[simp] theorem Hub.partnerLost_paths (c : Hub) (p : Nat) (detached : Bool) : (c.partnerLost p detached).paths = c.paths := by simp [Hub.partnerLost]

@[simp] theorem Hub.joinSeen_paths (c : Hub) (p uid : Nat) : (c.joinSeen p uid).paths = c.paths := by simp [Hub.joinSeen]

@[simp] theorem Hub.freshPort_paths (c : Hub) (p : Nat) : (c.freshPort p).paths = c.paths := by simp [Hub.freshPort]

@[simp] theorem Hub.headsTimeLock_paths (c : Hub) (locked : Bool) : (c.headsTimeLock locked).paths = c.paths := by simp [Hub.headsTimeLock]

@[simp] theorem Hub.loseLock_paths (c : Hub) : c.loseLock.paths = c.paths := by simp [Hub.loseLock]

@[simp] theorem Hub.gainLock_paths (c : Hub) : c.gainLock.paths = c.paths := by simp [Hub.gainLock]

/-! ## Links -/

@[simp] theorem Hub.recompute_paths (c : Hub) : c.recompute.paths = c.paths := by simp [Hub.recompute]

@[simp] theorem Hub.showCeiling_paths (c : Hub) (p : Nat) : (c.showCeiling p).paths = c.paths := by simp [Hub.showCeiling]

@[simp] theorem Hub.clearRuns_paths (c : Hub) (p : Nat) : (c.clearRuns p).paths = c.paths := by simp [Hub.clearRuns]

@[simp] theorem Hub.lanesTo_paths (c : Hub) (p st : Nat) : (c.lanesTo p st).paths = c.paths := by simp [Hub.lanesTo]

@[simp] theorem Hub.showLanes_paths (c : Hub) (p tx rx : Nat) : (c.showLanes p tx rx).paths = c.paths := by simp [Hub.showLanes]

@[simp] theorem Hub.toEqualise_paths (c : Hub) (p gear : Nat) : (c.toEqualise p gear).paths = c.paths := by simp [Hub.toEqualise]

@[simp] theorem Hub.keepCoefs_paths (c : Hub) (p gear : Nat) : (c.keepCoefs p gear).paths = c.paths := by simp [Hub.keepCoefs]

@[simp] theorem Hub.clearHeaders_paths (c : Hub) (p : Nat) : (c.clearHeaders p).paths = c.paths := by simp [Hub.clearHeaders]

@[simp] theorem Hub.clearWords_paths (c : Hub) (p : Nat) : (c.clearWords p).paths = c.paths := by simp [Hub.clearWords]

@[simp] theorem Hub.toLock_paths (c : Hub) (p : Nat) : (c.toLock p).paths = c.paths := by simp [Hub.toLock]

@[simp] theorem Hub.adaptStart_paths (c : Hub) (p : Nat) : (c.adaptStart p).paths = c.paths := by simp [Hub.adaptStart]

@[simp] theorem Hub.adapted_paths (c : Hub) (p : Nat) : (c.adapted p).paths = c.paths := by simp [Hub.adapted]

@[simp] theorem Hub.adaptEnd_paths (c : Hub) (p : Nat) : (c.adaptEnd p).paths = c.paths := by simp [Hub.adaptEnd]

@[simp] theorem Hub.holdNow_paths (c : Hub) (p unmet : Nat) : (c.holdNow p unmet).paths = c.paths := by simp [Hub.holdNow]

@[simp] theorem Hub.sendTs_paths (c : Hub) (p : Nat) : (c.sendTs p).paths = c.paths := by simp [Hub.sendTs]

@[simp] theorem Hub.dropKept_paths (c : Hub) (p : Nat) : (c.dropKept p).paths = c.paths := by simp [Hub.dropKept]

@[simp] theorem Hub.toDetect_paths (c : Hub) (p : Nat) : (c.toDetect p).paths = c.paths := by simp [Hub.toDetect]

@[simp] theorem Hub.lanesOff_paths (c : Hub) (p : Nat) : (c.lanesOff p).paths = c.paths := by simp [Hub.lanesOff]

@[simp] theorem Hub.lanesStart_paths (c : Hub) (p : Nat) : (c.lanesStart p).paths = c.paths := by simp [Hub.lanesStart]

@[simp] theorem Hub.trainFail_paths (c : Hub) (p : Nat) : (c.trainFail p).paths = c.paths := by simp [Hub.trainFail]

@[simp] theorem Hub.degradeLane_paths (c : Hub) (p bad : Nat) : (c.degradeLane p bad).paths = c.paths := by simp [Hub.degradeLane]

@[simp] theorem Hub.bringUpFail_paths (c : Hub) (p : Nat) (failing : List Nat) (next : Nat) : (c.bringUpFail p failing next).paths = c.paths := by
  unfold Hub.bringUpFail
  split <;> simp

@[simp] theorem Hub.dropLinkBuffers_paths (c : Hub) (p : Nat) : (c.dropLinkBuffers p).paths = c.paths := Hub.paths_of_regs rfl

@[simp] theorem Hub.reportLinkLosses_paths (c : Hub) (p : Nat) : (c.reportLinkLosses p).paths = c.paths := by simp [Hub.reportLinkLosses]

@[simp] theorem Hub.dropNextKeys_paths (c : Hub) (p : Nat) : (c.dropNextKeys p).paths = c.paths := by simp [Hub.dropNextKeys]

@[simp] theorem Hub.linkDown_paths (c : Hub) (p : Nat) (detached : Bool) : (c.linkDown p detached).paths = c.paths := by simp [Hub.linkDown]

@[simp] theorem Hub.retrainFor_paths (c : Hub) (p cause source : Nat) (fault : Nat) : (c.retrainFor p cause source fault).paths = c.paths := by
  simp [Hub.retrainFor]

@[simp] theorem Hub.enterRetrain_paths (c : Hub) (p cause source : Nat) : (c.enterRetrain p cause source).paths = c.paths := by
  simp [Hub.enterRetrain]

@[simp] theorem Hub.gearRetrain_paths (c : Hub) (p : Nat) (source : Nat) (fault : Nat) : (c.gearRetrain p source fault).paths = c.paths := by
  unfold Hub.gearRetrain
  split <;> simp

@[simp] theorem Hub.gearNow_paths (c : Hub) (p : Nat) : (c.gearNow p).paths = c.paths := by simp [Hub.gearNow]

@[simp] theorem Hub.enterQuiet_paths (c : Hub) (p : Nat) : (c.enterQuiet p).paths = c.paths := by simp [Hub.enterQuiet]

@[simp] theorem Hub.startWake_paths (c : Hub) (p : Nat) : (c.startWake p).paths = c.paths := by simp [Hub.startWake]

@[simp] theorem Hub.drawNonce_paths (c : Hub) (p : Nat) : (c.drawNonce p).paths = c.paths := by simp [Hub.drawNonce]

@[simp] theorem Hub.keyCondition_paths (c : Hub) (p : Nat) : (c.keyCondition p).paths = c.paths := by simp [Hub.keyCondition]

@[simp] theorem Hub.usedSlot_paths (c : Hub) (s : Nat) : (c.usedSlot s).paths = c.paths := by simp [Hub.usedSlot]

@[simp] theorem Hub.enterInit_paths (c : Hub) (p : Nat) (resume : Bool) : (c.enterInit p resume).paths = c.paths := by simp [Hub.enterInit]

@[simp] theorem Hub.relocked_paths (c : Hub) (p : Nat) : (c.relocked p).paths = c.paths := by simp [Hub.relocked]

@[simp] theorem Hub.lanesUp_paths (c : Hub) (p gear tx rx : Nat) : (c.lanesUp p gear tx rx).paths = c.paths := by simp [Hub.lanesUp]

@[simp] theorem Hub.detectorUp_paths (c : Hub) (p l kind : Nat) : (c.detectorUp p l kind).paths = c.paths := by simp [Hub.detectorUp]

@[simp] theorem Hub.takeHeader_paths (c : Hub) (p l : Nat) (bad : Bool) : (c.takeHeader p l bad).paths = c.paths := by simp [Hub.takeHeader]

@[simp] theorem Hub.wakeDone_paths (c : Hub) (p : Nat) : (c.wakeDone p).paths = c.paths := by simp [Hub.wakeDone]

@[simp] theorem Hub.flushPort_paths (c : Hub) (p : Nat) : (c.flushPort p).paths = c.paths := by simp [Hub.flushPort]

/-! ## Path table, groups and staging -/

@[simp] theorem Hub.setPolicer_paths (c : Hub) (k : Nat) (v : Int) : (c.setPolicer k v).paths = c.paths := by simp [Hub.setPolicer]

@[simp] theorem Hub.freshBuckets_paths (c : Hub) (t : Nat) (e : PathEntry) : (c.freshBuckets t e).paths = c.paths := by simp [Hub.freshBuckets]

@[simp] theorem Hub.applyEntry_paths (c : Hub) (t : Nat) (e : PathEntry) (boundary : Bool) : (c.applyEntry t e boundary).paths = c.paths := by
  simp [Hub.applyEntry]

@[simp] theorem Hub.putStage_paths (c : Hub) (k : Nat) (r : StageRecord) (vid : Option VidMapping) (fromCox : Bool) :
    (c.putStage k r vid fromCox).paths = c.paths := by simp [Hub.putStage]

@[simp] theorem Hub.freeStage_paths (c : Hub) (k : Nat) : (c.freeStage k).paths = c.paths := by simp [Hub.freeStage]

@[simp] theorem Hub.stageFailed_paths (c : Hub) (t st at0 : Nat) : (c.stageFailed t st at0).paths = c.paths := by simp [Hub.stageFailed]

@[simp] theorem Hub.dropStage_paths (c : Hub) (k st : Nat) : (c.dropStage k st).paths = c.paths := by simp [Hub.dropStage]

@[simp] theorem Hub.applyStage_paths (c : Hub) (k : Nat) : (c.applyStage k).paths = c.paths := by
  unfold Hub.applyStage
  simp only
  repeat' split
  all_goals simp

@[simp] theorem Hub.applyStaged_paths (c : Hub) : c.applyStaged.paths = c.paths := by simp [Hub.applyStaged]

@[simp] theorem Hub.writeEntries_paths : ∀ (c : Hub) (t : Nat) (es : List PathEntry), (c.writeEntries t es).2.paths = c.paths
  | _, _, [] => rfl
  | c, t, e :: rest => by
    unfold Hub.writeEntries
    split
    · rfl
    · exact (Hub.writeEntries_paths _ (t + 1) rest).trans (by simp)

@[simp] theorem Hub.writePathTable_paths (c : Hub) (first : Nat) (es : List PathEntry) : (c.writePathTable first es).2.paths = c.paths := by
  have written := Hub.writeEntries_paths c first es
  unfold Hub.writePathTable
  split
  · rfl
  · split <;> simp_all

@[simp] theorem Hub.writeMcast_paths (c : Hub) (g members : Nat) (outTids : List (BitVec 16)) :
    (c.writeMcast g members outTids).2.paths = c.paths := by simp [Hub.writeMcast]

@[simp] theorem Hub.writeStage_paths (c : Hub) (k : Nat) (r : StageRecord) : (c.writeStage k r).2.paths = c.paths := by
  unfold Hub.writeStage
  split
  · split <;> simp
  · split <;> simp

@[simp] theorem Hub.stageFromMessage_paths (c : Hub) (r : StageRecord) (vid : Option VidMapping) : (c.stageFromMessage r vid).paths = c.paths := by
  unfold Hub.stageFromMessage
  simp only
  repeat' split
  all_goals simp

/-! ## The switch core -/

@[simp] theorem Hub.discardReturn_paths (c : Hub) (input : Nat) (p : Packet) : (c.discardReturn input p).paths = c.paths := by
  simp [Hub.discardReturn]

@[simp] theorem Hub.offered_paths (c : Hub) (t size : Nat) : (c.offered t size).paths = c.paths := Hub.paths_of_regs rfl

@[simp] theorem Hub.police_paths (c : Hub) (t size : Nat) : (c.police t size).1.paths = c.paths := by simp [Hub.police]

@[simp] theorem Hub.toQueue_paths (c : Hub) (tid e cls input : Nat) (p : Packet) : (c.toQueue tid e cls input p).paths = c.paths := by
  simp [Hub.toQueue]

@[simp] theorem Hub.noteJoin_paths (c : Hub) (input : Nat) (p : Packet) : (c.noteJoin input p).paths = c.paths := by simp [Hub.noteJoin]

@[simp] theorem Hub.refuseBelow_paths (c : Hub) (port reason : Nat) : (c.refuseBelow port reason).paths = c.paths := by simp [Hub.refuseBelow]

@[simp] theorem Hub.receiveMgmt_paths (c : Hub) (input : Nat) (p : Packet) : (c.receiveMgmt input p).paths = c.paths := by
  unfold Hub.receiveMgmt
  simp only
  repeat' split
  all_goals simp

@[simp] theorem Hub.receiveBackground_paths (c : Hub) (input : Nat) (p : Packet) : (c.receiveBackground input p).paths = c.paths := by
  unfold Hub.receiveBackground
  split <;> simp

@[simp] theorem Hub.receiveTunnel_paths (c : Hub) (input : Nat) (p : Packet) : (c.receiveTunnel input p).paths = c.paths := by
  unfold Hub.receiveTunnel
  extract_lets t adapterIn offered
  have same : offered.paths = c.paths := by simp [offered]
  have paid : (offered.police t p.size).1.paths = c.paths := by simp [same]
  repeat' split
  all_goals simp_all

@[simp] theorem Hub.receive_paths (c : Hub) (input : Nat) (p : Packet) : (c.receive input p).paths = c.paths := by
  unfold Hub.receive
  simp only
  repeat' split
  all_goals simp

@[simp] theorem Hub.pumpMgmt_paths : ∀ (n : Nat) (c : Hub), (Hub.pumpMgmt n c).paths = c.paths
  | 0, _ => rfl
  | n + 1, c => by
    unfold Hub.pumpMgmt
    split
    · rfl
    · split
      · exact (Hub.pumpMgmt_paths n _).trans (by simp)
      · rfl

@[simp] theorem Hub.pump_paths (c : Hub) : c.pump.paths = c.paths := by simp [Hub.pump]

@[simp] theorem Hub.discardDamaged_paths (c : Hub) (p : Held) (unit : Nat) (inDram : Bool) : (c.discardDamaged p unit inDram).paths = c.paths := by
  unfold Hub.discardDamaged
  simp only
  repeat' split
  all_goals simp

@[simp] theorem Hub.lateScrub_paths (c : Hub) (k start period : Nat) : (c.lateScrub k start period).paths = c.paths := by simp [Hub.lateScrub]

@[simp] theorem Hub.lateCells_paths (c : Hub) : c.lateCells.paths = c.paths := by simp [Hub.lateCells]

@[simp] theorem Hub.scrubPassEnd_paths (c : Hub) : c.scrubPassEnd.paths = c.paths := by simp [Hub.scrubPassEnd]

@[simp] theorem Hub.markCell_paths (c : Hub) (owner cell : Nat) : (c.markCell owner cell).paths = c.paths := by
  unfold Hub.markCell
  split <;> simp

@[simp] theorem Hub.isoCheck_paths (c : Hub) : c.isoCheck.paths = c.paths := by simp [Hub.isoCheck]

theorem poolObj_offPath (pool : PoolSize) : (poolObj pool).1.OffPath := by cases pool <;> simp [poolObj, Obj.OffPath]

@[simp] theorem Hub.writePool_paths (c : Hub) (pool : PoolSize) (v : Nat) : (c.writePool pool v).2.paths = c.paths := by
  simp [Hub.writePool, Hub.put_paths _ _ (poolObj_offPath pool)]

/-! ## Virtual downstream ports -/

@[simp] theorem Hub.vdpInterrupt_paths (c : Hub) (v : Nat) (presence active : Bool) : (c.vdpInterrupt v presence active).paths = c.paths := by
  simp [Hub.vdpInterrupt]

@[simp] theorem Hub.refreshVdp_paths (c : Hub) (v : Nat) : (c.refreshVdp v).paths = c.paths := by simp [Hub.refreshVdp]

@[simp] theorem Hub.refreshVdps_paths (c : Hub) : c.refreshVdps.paths = c.paths := by simp [Hub.refreshVdps]

/-! ## The PCIe adapter -/

@[simp] theorem Hub.tlpPacket_paths (c : Hub) (tid cat : Nat) (bytes : Bytes) : (c.tlpPacket tid cat bytes).paths = c.paths := by simp [Hub.tlpPacket]

@[simp] theorem Hub.returnPcie_paths (c : Hub) : c.returnPcie.paths = c.paths := by simp [Hub.returnPcie]

@[simp] theorem Hub.feedWaiting_paths : ∀ (n : Nat) (c : Hub), (Hub.feedWaiting n c).paths = c.paths
  | 0, _ => rfl
  | n + 1, c => by
    unfold Hub.feedWaiting
    split
    · rfl
    · exact (Hub.feedWaiting_paths n _).trans (by simp)

@[simp] theorem Hub.pcieSweep_paths (c : Hub) : c.pcieSweep.paths = c.paths := by simp [Hub.pcieSweep]

@[simp] theorem Hub.settle_paths (c : Hub) : c.settle.paths = c.paths := by simp [Hub.settle]

@[simp] theorem Hub.malformed_paths (c : Hub) (bytes : Bytes) : (c.malformed bytes).paths = c.paths := by simp [Hub.malformed]

@[simp] theorem Hub.tlpIngress_paths (c : Hub) (tid : Nat) (t : Tlp) : (c.tlpIngress tid t).paths = c.paths := by simp [Hub.tlpIngress]

@[simp] theorem Hub.barTlp_paths (c : Hub) (x : EgressTlp) : (c.barTlp x).paths = c.paths := by simp [Hub.barTlp]

@[simp] theorem Hub.barWaiting_paths (c : Hub) : c.barWaiting.paths = c.paths := by simp [Hub.barWaiting]

@[simp] theorem Hub.tlpTaken_paths (c : Hub) (t : Tlp) : (c.tlpTaken t).paths = c.paths := by simp [Hub.tlpTaken]

@[simp] theorem Hub.advertise_paths (c : Hub) : c.advertise.paths = c.paths := by simp [Hub.advertise]

/-- A register of a store whose entries go by their keys. -/
theorem Store.find_filter (keep : Key → Bool) (k : Key) (st : Store) :
    Store.find k (st.filter fun x => keep x.1) = if keep k then Store.find k st else none := by
  induction st with
  | nil => simp [Store.find]
  | cons x rest ih =>
    obtain ⟨a, v⟩ := x
    by_cases e : a = k
    · subst e
      cases h : keep a <;> simp_all [Store.find]
    · cases g : keep a <;> simp [g, Store.find, e, ih]

/-- Registers that go by their keys, none of them a pair's state. -/
theorem Hub.filter_paths (c d : Hub) {keep : Key → Bool} (e : d.regs = c.regs.filter fun x => keep x.1)
    (h : ∀ p k, keep (pathObj p k).key = true) :
    d.paths = c.paths := by
  funext p k
  rw [Hub.paths, Hub.paths, Hub.get, Hub.get, e, Store.find_filter keep, if_pos (h p k)]

@[simp] theorem Hub.configDefaults_paths (c : Hub) : c.configDefaults.paths = c.paths := by
  unfold Hub.configDefaults
  extract_lets gone kept shown
  have rest : kept.paths = c.paths := c.filter_paths kept (keep := fun k => !gone.contains k.obj) rfl fun p k => by
    unfold pathObj
    split <;> rfl
  simp [shown, rest]

@[simp] theorem Hub.pcieDown_paths (c : Hub) : c.pcieDown.paths = c.paths := by simp [Hub.pcieDown]

@[simp] theorem Hub.pcieLost_paths (c : Hub) : c.pcieLost.paths = c.paths := by simp [Hub.pcieLost]

@[simp] theorem Hub.teardownPcie_paths (c : Hub) : c.teardownPcie.paths = c.paths := by simp [Hub.teardownPcie]

@[simp] theorem Hub.isolatePcie_paths (c : Hub) : c.isolatePcie.paths = c.paths := by simp [Hub.isolatePcie]

/-! ## The rigger bridge's shared operations -/

@[simp] theorem Hub.sendRig_paths (c : Hub) (op dst tag : Nat) (retx : Bool) (window status len offset inst seq : Nat) (data : Bytes) :
    (c.sendRig op dst tag retx window status len offset inst seq data).paths = c.paths := by simp [Hub.sendRig]

@[simp] theorem Hub.sendRigRequest_paths (c : Hub) (r : RigRequest) (retx : Bool) : (c.sendRigRequest r retx).paths = c.paths := by
  simp [Hub.sendRigRequest]

@[simp] theorem Hub.dropWritten_paths (c : Hub) (hub window a n : Nat) : (c.dropWritten hub window a n).paths = c.paths := by simp [Hub.dropWritten]

@[simp] theorem Hub.addLine_paths (c : Hub) (x : PrefetchLine) : (c.addLine x).paths = c.paths := by
  unfold Hub.addLine
  simp only
  split <;> simp

@[simp] theorem Hub.readLine_paths (c : Hub) (x : PrefetchLine) (a n : Nat) : (c.readLine x a n).2.paths = c.paths := Hub.paths_of_regs rfl

@[simp] theorem Hub.putPosted_paths (c : Hub) (x : PostedStream) : (c.putPosted x).paths = c.paths := Hub.paths_of_regs rfl

@[simp] theorem Hub.postWrite_paths (c : Hub) (hub window offset : Nat) (bar : Option Nat) (data : Bytes) :
    (c.postWrite hub window offset bar data).paths = c.paths := by simp [Hub.postWrite]

@[simp] theorem Hub.slotIssued_paths (c : Hub) (r : RigRequest) : (c.slotIssued r).paths = c.paths := by
  unfold Hub.slotIssued
  split <;> simp

@[simp] theorem Hub.rigBusy_paths (c : Hub) (r : RigRequest) (status : Nat) : (c.rigBusy r status).paths = c.paths := by simp [Hub.rigBusy]

@[simp] theorem Hub.sendTagged_paths (c : Hub) (r : RigRequest) : (c.sendTagged r).paths = c.paths := by simp [Hub.sendTagged]

@[simp] theorem Hub.issue_paths (c : Hub) (r : RigRequest) : (c.issue r).paths = c.paths := by
  unfold Hub.issue
  simp only
  split
  · simp
  · split
    · simp
    · split
      · simp
      · split
        · simp
        · simp

@[simp] theorem Hub.issueAll_paths : ∀ (n : Nat) (c : Hub), (Hub.issueAll n c).paths = c.paths
  | 0, _ => rfl
  | n + 1, c => by
    unfold Hub.issueAll
    split
    · rfl
    · split
      · rfl
      · exact (Hub.issueAll_paths n _).trans (by simp)

@[simp] theorem Hub.pumpRig_paths (c : Hub) : c.pumpRig.paths = c.paths := by simp [Hub.pumpRig]

@[simp] theorem Hub.queueRig_paths (c : Hub) (r : RigRequest) : (c.queueRig r).paths = c.paths := by simp [Hub.queueRig]

@[simp] theorem Hub.postedError_paths (c : Hub) (hub window status seq count : Nat) :
    (c.postedError hub window status seq count).paths = c.paths := by
  unfold Hub.postedError
  simp only
  repeat' split
  all_goals simp

@[simp] theorem Hub.rigLeft_paths (c : Hub) (hub : Nat) : (c.rigLeft hub).paths = c.paths := by simp [Hub.rigLeft]

@[simp] theorem Hub.rigLearn_paths (c : Hub) (hub inst : Nat) : (c.rigLearn hub inst).paths = c.paths := by simp [Hub.rigLearn]

@[simp] theorem Hub.writeTargetWindow_paths (c : Hub) (w : Nat) (v : TargetWindow) : (c.writeTargetWindow w v).2.paths = c.paths := by
  simp [Hub.writeTargetWindow]

@[simp] theorem Hub.submitSlot_paths (c : Hub) (k : Nat) (v : SlotRequest) : (c.submitSlot k v).paths = c.paths := by simp [Hub.submitSlot]

@[simp] theorem Hub.writeSlot_paths (c : Hub) (k : Nat) (v : SlotRequest) : (c.writeSlot k v).2.paths = c.paths := by simp [Hub.writeSlot]

/-! ## The Cox's services -/

@[simp] theorem Hub.setReport_paths (c : Hub) (r : HubReport) : (c.setReport r).paths = c.paths := Hub.paths_of_regs rfl

@[simp] theorem Hub.toParent_paths (c : Hub) (parent port : Nat) (m : Mgmt) : (c.toParent parent port m).paths = c.paths := by simp [Hub.toParent]

@[simp] theorem Hub.answerJoin_paths (c : Hub) (j : JoinRecord) : (c.answerJoin j).paths = c.paths := by
  unfold Hub.answerJoin
  simp only
  repeat' split
  all_goals simp

@[simp] theorem Hub.setWork_paths (c : Hub) (w : RouteWork) : (c.setWork w).paths = c.paths := Hub.paths_of_regs rfl

@[simp] theorem Hub.stageRoute_paths (c : Hub) (w : RouteWork) (at0 : Nat) (valid : Bool) (skip : List Nat) :
    (c.stageRoute w at0 valid skip).paths = c.paths := by simp [Hub.stageRoute]

@[simp] theorem Hub.refuseRoute_paths (c : Hub) (r why : Nat) : (c.refuseRoute r why).paths = c.paths := by simp [Hub.refuseRoute]

@[simp] theorem Hub.endRoute_paths (c : Hub) (r idAt : Nat) : (c.endRoute r idAt).paths = c.paths := by
  unfold Hub.endRoute
  split
  · rfl
  · simp

@[simp] theorem Hub.freeRoute_paths (c : Hub) (r : Nat) : (c.freeRoute r).paths = c.paths := by simp [Hub.freeRoute]

@[simp] theorem Hub.clearRetired_paths (c : Hub) : c.clearRetired.paths = c.paths := Hub.paths_of_regs rfl

theorem Hub.allocId_paths {c d : Hub} {a t : Nat} (h : c.allocId a = some (t, d)) : d.paths = c.paths := by
  unfold Hub.allocId at h
  simp only at h
  split at h
  · cases h
    simp
  · split at h
    · cases h
      simp
    · cases h

theorem Hub.allocIds_paths : ∀ {as ts : List Nat} {c d : Hub}, c.allocIds as = some (ts, d) → d.paths = c.paths
  | [], _, _, _, h => by cases h; rfl
  | a :: rest, ts, c, d, h => by
    unfold Hub.allocIds at h
    split at h
    · cases h
    · next t c' one =>
      obtain ⟨⟨us, d'⟩, more, e⟩ := Option.map_eq_some_iff.mp h
      cases e
      exact (Hub.allocIds_paths more).trans (Hub.allocId_paths one)

theorem Hub.allocRoute_paths {c d : Hub} {r : Nat} {w : RouteWork} (h : c.allocRoute r = .ok (w, d)) : d.paths = c.paths := by
  unfold Hub.allocRoute at h
  simp only at h
  split at h
  · cases h
  · next ids c' given =>
    repeat' split at h
    all_goals cases h
    all_goals simp [Hub.allocIds_paths given]

@[simp] theorem Hub.takeUpOne_paths (c : Hub) (r : Nat) : (c.takeUpOne r).paths = c.paths := by
  unfold Hub.takeUpOne
  split
  · simp
  · split
    · simp
    · next given => simp [Hub.allocRoute_paths given]

@[simp] theorem Hub.takeUpPair_paths (c : Hub) (r q : Nat) : (c.takeUpPair r q).paths = c.paths := by
  unfold Hub.takeUpPair
  simp only
  split
  · split
    · simp
    · next first =>
      split
      · simp
      · next second => simp [Hub.allocRoute_paths second, Hub.allocRoute_paths first]
  · simp

@[simp] theorem Hub.takeUp_paths (c : Hub) (r : Nat) : (c.takeUp r).paths = c.paths := by simp [Hub.takeUp]

@[simp] theorem Hub.stageTeardown_paths (c : Hub) (r : Nat) (skip : List Nat) : (c.stageTeardown r skip).paths = c.paths := by
  unfold Hub.stageTeardown
  split <;> simp

@[simp] theorem Hub.suspendRoute_paths (c : Hub) (r : Nat) (lost : List Nat) : (c.suspendRoute r lost).paths = c.paths := by
  unfold Hub.suspendRoute
  split <;> simp

@[simp] theorem Hub.detachHubs_paths (c : Hub) (gone : List Nat) : (c.detachHubs gone).paths = c.paths := by
  unfold Hub.detachHubs
  simp only [Hub.countHubs_paths]
  refine (Hub.each_paths _ _ fun d w => ?_).trans (by simp)
  repeat' split
  all_goals simp

@[simp] theorem Hub.endHold_paths (c : Hub) (a : Nat) : (c.endHold a).paths = c.paths := by simp [Hub.endHold]

@[simp] theorem Hub.resumeRoute_paths (c : Hub) (w : RouteWork) : (c.resumeRoute w).paths = c.paths := by simp [Hub.resumeRoute]

@[simp] theorem Hub.abortRoute_paths (c : Hub) (r why : Nat) (skip : List Nat) : (c.abortRoute r why skip).paths = c.paths := by
  unfold Hub.abortRoute
  split <;> simp

@[simp] theorem Hub.failAgain_paths (c : Hub) (a tid why at0 : Nat) : (c.failAgain a tid why at0).paths = c.paths := by
  unfold Hub.failAgain
  split <;> simp

@[simp] theorem Hub.stageFailAt_paths (c : Hub) (a tid st at0 : Nat) : (c.stageFailAt a tid st at0).paths = c.paths := by
  unfold Hub.stageFailAt
  simp only
  split
  · simp
  · split <;> simp

@[simp] theorem Hub.takeOwnFails_paths (c : Hub) : c.takeOwnFails.paths = c.paths := by simp [Hub.takeOwnFails]

@[simp] theorem Hub.routeBoundary_paths (c : Hub) : c.routeBoundary.paths = c.paths := by simp [Hub.routeBoundary]

@[simp] theorem Hub.showAllot_paths (c : Hub) (cap : List (Nat × Nat)) (t : Flow) (g1 target grant : Nat) :
    (c.showAllot cap t g1 target grant).paths = c.paths := by
  unfold Hub.showAllot
  simp only
  repeat' split
  all_goals simp

@[simp] theorem Hub.hideAllot_paths (c : Hub) (r : Nat) : (c.hideAllot r).paths = c.paths := by simp [Hub.hideAllot]

@[simp] theorem Hub.sendPlan_paths (c : Hub) (e a : Nat) (old : List (Nat × Nat × Nat)) (hold : Bool) :
    (c.sendPlan e a old hold).paths = c.paths := by simp [Hub.sendPlan]

@[simp] theorem Hub.computePlan_paths (c : Hub) : c.computePlan.paths = c.paths := by simp [Hub.computePlan]

/-! ## The Cox -/

@[simp] theorem Hub.logEvent_paths (c : Hub) (e : TopoEvent) : (c.logEvent e).paths = c.paths := by simp [Hub.logEvent]

@[simp] theorem Hub.sendProbe_paths (c : Hub) (a : Nat) : (c.sendProbe a).paths = c.paths := by simp [Hub.sendProbe]

@[simp] theorem Hub.applyEvent_paths (c : Hub) (e : TopoEvent) : (c.applyEvent e).paths = c.paths := by simp [Hub.applyEvent]

@[simp] theorem Hub.applyDemands_paths (c : Hub) (r : Report) : (c.applyDemands r).paths = c.paths := by
  unfold Hub.applyDemands
  extract_lets a fl old frozen reported asked
  have same : asked.paths = c.paths := by simp [asked, reported]
  refine (Hub.each_paths _ _ fun d x => ?_).trans same
  split <;> simp

@[simp] theorem Hub.countLate_paths (c : Hub) (r : Report) : (c.countLate r).paths = c.paths := by simp [Hub.countLate]

@[simp] theorem Hub.takeReport_paths (c : Hub) (r : Report) : (c.takeReport r).paths = c.paths := by simp [Hub.takeReport]

@[simp] theorem Hub.runReports_paths (c : Hub) : c.runReports.paths = c.paths := by simp [Hub.runReports]

@[simp] theorem Hub.putRequest_paths (c : Hub) (r : Nat) (q : RouteRequest) : (c.putRequest r q).paths = c.paths := by simp [Hub.putRequest]

@[simp] theorem Hub.requestRoute_paths (c : Hub) (r : Nat) (q : RouteRequest) : (c.requestRoute r q).paths = c.paths := by simp [Hub.requestRoute]

@[simp] theorem Hub.requestTeardown_paths (c : Hub) (r : Nat) : (c.requestTeardown r).paths = c.paths := by
  unfold Hub.requestTeardown
  split <;> simp

@[simp] theorem Hub.releaseRoute_paths (c : Hub) (r : Nat) : (c.releaseRoute r).paths = c.paths := by simp [Hub.releaseRoute]

@[simp] theorem Hub.writeRoute_paths (c : Hub) (r : Nat) (q : RouteRequest) : (c.writeRoute r q).2.paths = c.paths := by
  unfold Hub.writeRoute
  split
  · rfl
  · split
    · rfl
    · simp only
      split
      · rfl
      · split <;> first | simp | (split <;> simp)

@[simp] theorem Hub.writeRouteShown_paths (c : Hub) (r : Nat) (q : RouteRequest) : (c.writeRouteShown r q).2.paths = c.paths := by
  simp [Hub.writeRouteShown]

@[simp] theorem Hub.writeAllot_paths (c : Hub) (r lo hi mode : Nat) : (c.writeAllot r lo hi mode).2.paths = c.paths := by simp [Hub.writeAllot]

/-! ## Ethernet -/

@[simp] theorem Hub.sendFrame_paths (m t total : Nat) :
    ∀ (n i : Nat) (rest : Bytes) (c : Hub), (Hub.sendFrame m t total n i rest c).paths = c.paths := by
  intro n
  induction n with
  | zero => intro _ _ c; rfl
  | succ n ih =>
    intro i rest c
    simp [Hub.sendFrame, ih]

@[simp] theorem Hub.isolateMac_paths (c : Hub) (m : Nat) : (c.isolateMac m).paths = c.paths := by simp [Hub.isolateMac]

/-! ## Field I/O -/

@[simp] theorem Hub.writeFioTx_paths (c : Hub) (r : Nat) (v : FioRecord) : (c.writeFioTx r v).2.paths = c.paths := by simp [Hub.writeFioTx]

@[simp] theorem Hub.writeFioRx_paths (c : Hub) (r : Nat) (v : FioRecord) : (c.writeFioRx r v).2.paths = c.paths := by simp [Hub.writeFioRx]

@[simp] theorem Hub.writeAcyc_paths (c : Hub) (k : Nat) (v : AcycMsg) : (c.writeAcyc k v).2.paths = c.paths := by simp [Hub.writeAcyc]

@[simp] theorem Hub.isolateFio_paths (c : Hub) : c.isolateFio.paths = c.paths := by simp [Hub.isolateFio]

/-! ## Egresses -/

@[simp] theorem Hub.dropDrained_paths : ∀ (n q : Nat) (c : Hub), (Hub.dropDrained n q c).paths = c.paths := by
  intro n q
  induction n with
  | zero => intro c; rfl
  | succ n ih =>
    intro c
    unfold Hub.dropDrained
    repeat' split
    all_goals simp [ih]

@[simp] theorem Hub.charge_paths (c : Hub) (s e size : Nat) : (c.charge s e size).paths = c.paths := by simp [Hub.charge]

@[simp] theorem Hub.drrAdvance_paths (c : Hub) (e : Nat) : (c.drrAdvance e).paths = c.paths := by simp [Hub.drrAdvance]

@[simp] theorem Hub.drrNext_paths (e : Nat) : ∀ (n : Nat) (c : Hub), (Hub.drrNext e n c).1.paths = c.paths := by
  intro n
  induction n with
  | zero => intro c; rfl
  | succ n ih =>
    intro c
    unfold Hub.drrNext
    extract_lets k q d
    have same : d.paths = c.paths := by simp [d]
    split
    · rfl
    · split
      · simp [ih]
      · split
        · simp [ih]
        · split <;> simp [ih, same]

@[simp] theorem Hub.noteHeldOver_paths (c : Hub) (e k : Nat) : (c.noteHeldOver e k).paths = c.paths := by
  unfold Hub.noteHeldOver
  split <;> simp

@[simp] theorem Hub.sampleDelay_paths (c : Hub) (p : Held) : (c.sampleDelay p).paths = c.paths := by simp [Hub.sampleDelay]

@[simp] theorem Hub.dequeue_paths (c : Hub) (e : Nat) (p : Held) (read : CellRead) : (c.dequeue e p read).1.paths = c.paths := by
  unfold Hub.dequeue
  simp only
  repeat' split
  all_goals simp

@[simp] theorem Hub.setReassembly_paths (c : Hub) (m t : Nat) (r : Option Reassembly) : (c.setReassembly m t r).paths = c.paths :=
  Hub.paths_of_regs rfl

@[simp] theorem Hub.reassemblyError_paths (c : Hub) (m : Nat) : (c.reassemblyError m).paths = c.paths := by simp [Hub.reassemblyError]

@[simp] theorem Hub.failFrame_paths (c : Hub) (m t : Nat) (p : Packet) : (c.failFrame m t p).paths = c.paths := by simp [Hub.failFrame]

@[simp] theorem Hub.reassemble_paths (c : Hub) (m t : Nat) (p : Packet) : (c.reassemble m t p).paths = c.paths := by
  unfold Hub.reassemble
  simp only
  repeat' split
  all_goals simp

@[simp] theorem Hub.pcieEgress_paths (c : Hub) (t : Nat) (p : Packet) : (c.pcieEgress t p).paths = c.paths := by simp [Hub.pcieEgress]

/-! ## The link layer -/

@[simp] theorem Hub.makeLctrl_paths (c : Hub) (p : Nat) : (c.makeLctrl p).2.paths = c.paths := by simp [Hub.makeLctrl]

@[simp] theorem Hub.releaseBefore_paths (c : Hub) (p n : Nat) (keep : Bool) : (c.releaseBefore p n keep).paths = c.paths := by
  unfold Hub.releaseBefore
  simp only
  split <;> simp

@[simp] theorem Hub.passKept_paths (c : Hub) (p n : Nat) : (c.passKept p n).paths = c.paths := by
  unfold Hub.passKept
  split <;> simp

@[simp] theorem Hub.restoreKept_paths (c : Hub) (p : Nat) : (c.restoreKept p).paths = c.paths := by simp [Hub.restoreKept]

@[simp] theorem Hub.replayFrom_paths (c : Hub) (p n : Nat) : (c.replayFrom p n).paths = c.paths := by simp [Hub.replayFrom]

@[simp] theorem Hub.takeReturned_paths (c : Hub) (p k v : Nat) : (c.takeReturned p k v).paths = c.paths := by simp [Hub.takeReturned]

@[simp] theorem Hub.takeLctrl_paths (c : Hub) (p v : Nat) : (c.takeLctrl p v).paths = c.paths := by simp [Hub.takeLctrl]

/-- What a conditional operation keeps. -/
theorem Hub.when_kept (c : Hub) (b : Bool) {f : Hub → Hub} {q : Nat → Nat → Nat} (e : c.paths = q) (h : ∀ d, (f d).paths = d.paths) :
    (c.when b f).paths = q :=
  Hub.when_spec (P := fun d => d.paths = q) c b f e ((h c).trans e)

@[simp] theorem Hub.sendFlit_paths (c : Hub) (p seq kind first : Nat) (retrained : Bool) (plain : Bytes) :
    (c.sendFlit p seq kind first retrained plain).paths = c.paths := by
  unfold Hub.sendFlit
  simp only
  split
  · refine Hub.when_kept _ _ ?_ fun d => d.enterRetrain_paths p 4 255
    exact (Hub.emit_paths _ _).trans ((Hub.put_paths _ _ ⟨by simp, by simp⟩).trans (c.makeLctrl_paths p))
  · exact (Hub.emit_paths _ _).trans (c.makeLctrl_paths p)

@[simp] theorem Hub.sendData_paths (c : Hub) (p : Nat) (f : ReplayFlit) (again : Bool) : (c.sendData p f again).paths = c.paths := by
  simp [Hub.sendData]

@[simp] theorem Hub.newDataFlit_paths (c : Hub) (p : Nat) : (c.newDataFlit p).paths = c.paths := by simp [Hub.newDataFlit]

@[simp] theorem Hub.sendInit_paths (c : Hub) (p : Nat) : (c.sendInit p).paths = c.paths := by simp [Hub.sendInit]

@[simp] theorem Hub.stageArrived_paths (c : Hub) (p : Nat) (retrained : Bool) (b : Bytes) : (c.stageArrived p retrained b).paths = c.paths := by
  simp [Hub.stageArrived]

@[simp] theorem Hub.takeBody_paths (c : Hub) (p seq : Nat) (retrained : Bool) (data : Bytes) : (c.takeBody p seq retrained data).paths = c.paths := by
  simp [Hub.takeBody]

@[simp] theorem Hub.startNak_paths (c : Hub) (p : Nat) : (c.startNak p).paths = c.paths := by simp [Hub.startNak]

@[simp] theorem Hub.failedFlit_paths (c : Hub) (p : Nat) : (c.failedFlit p).paths = c.paths := by simp [Hub.failedFlit]

@[simp] theorem Hub.switchTransmit_paths (c : Hub) (p : Nat) : (c.switchTransmit p).paths = c.paths := by simp [Hub.switchTransmit]

@[simp] theorem Hub.switchReceive_paths (c : Hub) (p : Nat) : (c.switchReceive p).paths = c.paths := by simp [Hub.switchReceive]

@[simp] theorem Hub.layAnew_paths (c : Hub) (p skip : Nat) : (c.layAnew p skip).paths = c.paths := by
  unfold Hub.layAnew
  simp only
  split
  · rfl
  · split <;> simp

@[simp] theorem Hub.linkActive_paths (c : Hub) (p : Nat) (r : InitRecord) : (c.linkActive p r).paths = c.paths := by
  unfold Hub.linkActive
  extract_lets on resume limits rates shown par keyed resumed active
  have shownSame : shown.paths = c.paths := by simp [shown, rates, limits]
  have keyedSame : keyed.paths = c.paths := by
    simp only [keyed]
    split
    · exact shownSame
    · split <;> simp [shownSame]
  have resumedSame : resumed.paths = c.paths := by
    refine Hub.when_kept _ _ keyedSame fun d => ?_
    simp only
    split <;> simp
  have activeSame : active.paths = c.paths := by simp [active, resumedSame]
  split <;> simp [activeSame]

@[simp] theorem Hub.initReceived_paths (c : Hub) (p : Nat) (r : InitRecord) : (c.initReceived p r).paths = c.paths := by simp [Hub.initReceived]

@[simp] theorem Hub.quietAsked_paths (c : Hub) (p : Nat) : (c.quietAsked p).paths = c.paths := by
  unfold Hub.quietAsked
  repeat' split
  · rfl
  · simp
  · simp only [Hub.enterQuiet_paths, Hub.emit_paths, Hub.sendFlit_paths]
  · rfl

@[simp] theorem Hub.quietAnswered_paths (c : Hub) (p : Nat) : (c.quietAnswered p).paths = c.paths := by simp [Hub.quietAnswered]

@[simp] theorem Hub.checkedFlit_paths (c : Hub) (p kind : Nat) (b : Bytes) : (c.checkedFlit p kind b).paths = c.paths := by
  unfold Hub.checkedFlit
  simp only
  repeat' split
  all_goals simp

@[simp] theorem Hub.soundFlit_paths (c : Hub) (p : Nat) (b : Bytes) : (c.soundFlit p b).paths = c.paths := by simp [Hub.soundFlit]

@[simp] theorem Hub.flitBlocks_paths (c : Hub) (p : Nat) (rx : FlitRx) : (c.flitBlocks p rx).paths = c.paths := by simp [Hub.flitBlocks]

@[simp] theorem Hub.takeCodeword_paths (c : Hub) (p : Nat) (bad : Bool) : (c.takeCodeword p bad).paths = c.paths := by simp [Hub.takeCodeword]

@[simp] theorem Hub.flitCodeword_paths (c : Hub) (p : Nat) (rx : FlitRx) : (c.flitCodeword p rx).paths = c.paths := by simp [Hub.flitCodeword]

@[simp] theorem Hub.reportTrained_paths (c : Hub) (p : Nat) : (c.reportTrained p).paths = c.paths := by simp [Hub.reportTrained]

@[simp] theorem Hub.strayBlock_paths (c : Hub) (p : Nat) : (c.strayBlock p).paths = c.paths := by simp [Hub.strayBlock]

@[simp] theorem Hub.writeRetrainRequest_paths (c : Hub) (p : Nat) (value : Bool) : (c.writeRetrainRequest p value).2.paths = c.paths := by
  simp [Hub.writeRetrainRequest]

@[simp] theorem Hub.writeCryptEnable_paths (c : Hub) (p : Nat) (value : Bool) : (c.writeCryptEnable p value).2.paths = c.paths := by
  simp [Hub.writeCryptEnable]

@[simp] theorem Hub.writeCreditLimit_paths (c : Hub) (p k v : Nat) : (c.writeCreditLimit p k v).2.paths = c.paths := by simp [Hub.writeCreditLimit]

/-! ## The ends of sessions -/

@[simp] theorem Hub.freeSubscriptions_paths (c : Hub) (gone : Nat → Bool) : (c.freeSubscriptions gone).paths = c.paths := by
  simp [Hub.freeSubscriptions]

@[simp] theorem Hub.dropRequests_paths (c : Hub) (ids : List Nat) : (c.dropRequests ids).paths = c.paths := by simp [Hub.dropRequests]

@[simp] theorem Hub.endSessionsWhere_paths (c : Hub) (gone : Session → Bool) : (c.endSessionsWhere gone).paths = c.paths := by
  simp [Hub.endSessionsWhere]

@[simp] theorem Hub.endSessions_paths (c : Hub) : c.endSessions.paths = c.paths := by simp [Hub.endSessions]

@[simp] theorem Hub.endMarked_paths (c : Hub) : c.endMarked.paths = c.paths := by simp [Hub.endMarked]

@[simp] theorem Hub.markSlotLevels_paths (c : Hub) (slot : Nat) : (c.markSlotLevels slot).paths = c.paths := by simp [Hub.markSlotLevels]

/-! ## The conditions of an activation -/

@[simp] theorem Hub.clearRecord_paths (c : Hub) (k : Nat) : (c.clearRecord k).paths = c.paths := by simp [Hub.clearRecord]

@[simp] theorem Hub.dropConverted_paths (c : Hub) : c.dropConverted.paths = c.paths := by simp [Hub.dropConverted]

@[simp] theorem Hub.stopWaiting_paths (c : Hub) : c.stopWaiting.paths = c.paths := by simp [Hub.stopWaiting]

@[simp] theorem Hub.stopActivation_paths (c : Hub) (refusal : Nat) : (c.stopActivation refusal).paths = c.paths := by simp [Hub.stopActivation]

@[simp] theorem Hub.activationCheck_paths (c : Hub) : c.activationCheck.paths = c.paths := by simp [Hub.activationCheck]

@[simp] theorem Hub.clearHandoverKeys_paths (c : Hub) : c.clearHandoverKeys.paths = c.paths := by simp [Hub.clearHandoverKeys]

@[simp] theorem Hub.updateRefused_paths (c : Hub) (data : Nat) : (c.updateRefused data).paths = c.paths := Hub.paths_of_regs rfl

/-! ## Key store, tamper, fuses and random numbers -/

@[simp] theorem Hub.showSlot_paths (c : Hub) (s : Nat) : (c.showSlot s).paths = c.paths := by simp [Hub.showSlot]

@[simp] theorem Hub.portEpoch_paths (c : Hub) (p ki par : Nat) : (c.portEpoch p ki par).paths = c.paths := by simp [Hub.portEpoch]

@[simp] theorem Hub.newEpoch_paths (c : Hub) (slot : Nat) : (c.newEpoch slot).paths = c.paths := c.each_paths _ fun d p => by
  simp only
  split <;> simp

@[simp] theorem Hub.writeHalf_paths (c : Hub) (s n : Nat) (full : Bool) (engines gen key : Nat) :
    (c.writeHalf s n full engines gen key).paths = c.paths := by simp [Hub.writeHalf]

@[simp] theorem Hub.install_paths (c : Hub) (s : Nat) (full : Bool) (engines key : Nat) : (c.install s full engines key).paths = c.paths := by
  simp [Hub.install]

@[simp] theorem Hub.writeKeyLoad_paths (c : Hub) (t : Transport) (slot engines key : Nat) :
    (c.writeKeyLoad t slot engines key).2.paths = c.paths := by simp [Hub.writeKeyLoad]

@[simp] theorem Hub.writeKeyErase_paths (c : Hub) (slot : Nat) : (c.writeKeyErase slot).2.paths = c.paths := by simp [Hub.writeKeyErase]

@[simp] theorem Hub.writeKeyDerive_paths (c : Hub) (r : DeriveRequest) : (c.writeKeyDerive r).2.paths = c.paths := by
  unfold Hub.writeKeyDerive
  simp only
  repeat' split
  all_goals simp

@[simp] theorem Hub.writeRootGenerate_paths (c : Hub) (value : Bool) : (c.writeRootGenerate value).2.paths = c.paths := by
  simp [Hub.writeRootGenerate]

@[simp] theorem Hub.writeAdvance_paths (c : Hub) (p value : Nat) : (c.writeAdvance p value).2.paths = c.paths := by simp [Hub.writeAdvance]

@[simp] theorem Hub.zeroStore_paths (c : Hub) : c.zeroStore.paths = c.paths := by simp [Hub.zeroStore]

@[simp] theorem Hub.clearLinkKeys_paths (c : Hub) : c.clearLinkKeys.paths = c.paths := by simp [Hub.clearLinkKeys]

@[simp] theorem Hub.tamperReport_paths (c : Hub) : c.tamperReport.paths = c.paths := by simp [Hub.tamperReport]

@[simp] theorem Hub.tamperResponse_paths (c : Hub) (cause : Nat) : (c.tamperResponse cause).paths = c.paths := by simp [Hub.tamperResponse]

@[simp] theorem Hub.keyRequest_paths (c : Hub) (lvl : Level) (tamper : Nat) {op : Hub → Status × Hub} (h : ∀ d, (op d).2.paths = d.paths) :
    (c.keyRequest lvl tamper op).paths = c.paths := by
  simp [Hub.keyRequest, h]

@[simp] theorem Hub.writeTamperClear_paths (c : Hub) (value : Bool) : (c.writeTamperClear value).2.paths = c.paths := by simp [Hub.writeTamperClear]

@[simp] theorem Hub.writeTamperConfig_paths (c : Hub) (item : TamperItem) (v : Nat) : (c.writeTamperConfig item v).2.paths = c.paths := by
  unfold Hub.writeTamperConfig
  split <;> simp

@[simp] theorem Hub.writeFuse_paths (c : Hub) (code confirm : Nat) : (c.writeFuse code confirm).2.paths = c.paths := by simp [Hub.writeFuse]

@[simp] theorem Hub.seedMesh_paths (c : Hub) (k : Nat) : (c.seedMesh k).paths = c.paths := by simp [Hub.seedMesh]

@[simp] theorem Hub.seedMeshes_paths (c : Hub) : c.seedMeshes.paths = c.paths := by simp [Hub.seedMeshes]

/-! ## Link lanes -/

@[simp] theorem Hub.applyEqReq_paths (c : Hub) (p lane req : Nat) : (c.applyEqReq p lane req).paths = c.paths := by
  unfold Hub.applyEqReq
  simp only
  repeat' split
  all_goals simp

@[simp] theorem Hub.tryLock_paths (c : Hub) (p : Nat) : (c.tryLock p).paths = c.paths := by simp [Hub.tryLock]

@[simp] theorem Hub.tsInHold_paths (c : Hub) (p l : Nat) (r : TsRx) : (c.tsInHold p l r).paths = c.paths := by simp [Hub.tsInHold]

@[simp] theorem Hub.tsInPolarity_paths (c : Hub) (p l : Nat) (r : TsRx) : (c.tsInPolarity p l r).paths = c.paths := by simp [Hub.tsInPolarity]

@[simp] theorem Hub.tsInLock_paths (c : Hub) (p l : Nat) (r : TsRx) : (c.tsInLock p l r).paths = c.paths := by simp [Hub.tsInLock]

@[simp] theorem Hub.tsInDeskew_paths (c : Hub) (p : Nat) (r : TsRx) : (c.tsInDeskew p r).paths = c.paths := by simp [Hub.tsInDeskew]

@[simp] theorem Hub.tsInNegotiation_paths (c : Hub) (p : Nat) (r : TsRx) : (c.tsInNegotiation p r).paths = c.paths := by simp [Hub.tsInNegotiation]

@[simp] theorem Hub.degradeTx_paths (c : Hub) (p : Nat) (r : TsRx) : (c.degradeTx p r).paths = c.paths := by simp [Hub.degradeTx]

@[simp] theorem Hub.requestStep_paths (c : Hub) (p l preset : Nat) : (c.requestStep p l preset).paths = c.paths := by simp [Hub.requestStep]

@[simp] theorem Hub.detectorDown_paths (c : Hub) (p l kind : Nat) : (c.detectorDown p l kind).paths = c.paths := by simp [Hub.detectorDown]

@[simp] theorem Hub.writeLinkEnable_paths (c : Hub) (p : Nat) (value : Bool) : (c.writeLinkEnable p value).2.paths = c.paths := by
  simp [Hub.writeLinkEnable]

@[simp] theorem Hub.writeGearMax_paths (c : Hub) (p v : Nat) : (c.writeGearMax p v).2.paths = c.paths := by simp [Hub.writeGearMax]

@[simp] theorem Hub.writeLaneUse_paths (c : Hub) (p v : Nat) : (c.writeLaneUse p v).2.paths = c.paths := by simp [Hub.writeLaneUse]

@[simp] theorem Hub.writeReadyHold_paths (c : Hub) (p : Nat) (value : Bool) : (c.writeReadyHold p value).2.paths = c.paths := by
  simp [Hub.writeReadyHold]

/-! ## Test loops -/

@[simp] theorem Hub.chkStart_paths (c : Hub) (p l : Nat) : (c.chkStart p l).paths = c.paths := by simp [Hub.chkStart]

theorem segmentMinima_offPath (p l : Nat) : ∀ x ∈ segmentMinima p l, x.1.OffPath := by
  simp [segmentMinima, Obj.OffPath]

@[simp] theorem Hub.chkDrop_paths (c : Hub) (p l : Nat) : (c.chkDrop p l).paths = c.paths := by
  have counted : (c.each (if c.get (O.testPattern p) = 3 then (segmentMinima p l).zip (c.lineErrorsOf p l) else [])
      fun c x => c.count x.1.1 x.2).paths
      = c.paths := by
    refine Hub.foldl_paths_of_mem _ (fun d x hx => d.count_paths _ (segmentMinima_offPath p l x.1 ?_)) c
    split at hx
    · exact (List.of_mem_zip hx).1
    · cases hx
  simp [Hub.chkDrop, counted]

@[simp] theorem Hub.testOff_paths (c : Hub) (p : Nat) : (c.testOff p).paths = c.paths := by simp [Hub.testOff]

@[simp] theorem Hub.startTest_paths (c : Hub) (p v : Nat) : (c.startTest p v).paths = c.paths := by simp [Hub.startTest]

@[simp] theorem Hub.testChanging_paths (c : Hub) (p : Nat) (changes : Bool) : (c.testChanging p changes).paths = c.paths := by simp [Hub.testChanging]

@[simp] theorem Hub.testChanged_paths (c : Hub) (p : Nat) (changes : Bool) : (c.testChanged p changes).paths = c.paths := by simp [Hub.testChanged]

@[simp] theorem Hub.noAttachWritten_paths (c : Hub) (p : Nat) : (c.noAttachWritten p).paths = c.paths := by simp [Hub.noAttachWritten]

@[simp] theorem Hub.writeTestMode_paths (c : Hub) (p v : Nat) : (c.writeTestMode p v).2.paths = c.paths := by simp [Hub.writeTestMode]

@[simp] theorem Hub.writeBitslip_paths (c : Hub) (p l v : Nat) : (c.writeBitslip p l v).2.paths = c.paths := by simp [Hub.writeBitslip]

@[simp] theorem Hub.writeCaptureAt_paths (c : Hub) (p l v word : Nat) : (c.writeCaptureAt p l v word).2.paths = c.paths := by
  simp [Hub.writeCaptureAt]

@[simp] theorem Hub.writeInjectMode_paths (c : Hub) (p l v : Nat) : (c.writeInjectMode p l v).2.paths = c.paths := by simp [Hub.writeInjectMode]

@[simp] theorem Hub.markerError_paths (c : Hub) (p l f : Nat) : (c.markerError p l f).paths = c.paths := by simp [Hub.markerError]

theorem segmentCounter_offPath (p l i : Nat) : (segmentCounter p l i).OffPath := by
  unfold segmentCounter
  repeat' split
  all_goals simp [Obj.OffPath]

@[simp] theorem Hub.regattaErrors_paths (c : Hub) (p l burst : Nat) : (c.regattaErrors p l burst).paths = c.paths := by
  simp [Hub.regattaErrors, Hub.count_paths _ _ (segmentCounter_offPath p l _)]

@[simp] theorem Hub.loopErrors_paths (c : Hub) (p l burst : Nat) : (c.loopErrors p l burst).paths = c.paths := by simp [Hub.loopErrors]

@[simp] theorem Hub.lineErrors_paths (c : Hub) (p l : Nat) : (c.lineErrors p l).paths = c.paths := by
  unfold Hub.lineErrors
  split
  · exact Hub.foldl_paths_of_mem _ (fun d x hx => by simp [Hub.count_paths _ _ (segmentMinima_offPath p l x hx)]) c
  · simp

/-! ## What the ports share -/

@[simp] theorem Hub.leavePath_paths (c : Hub) (p : Nat) : (c.leavePath p).paths = c.paths := by simp [Hub.leavePath]

@[simp] theorem Hub.callSource_paths (c : Hub) (p : Nat) : (c.callSource p).paths = c.paths := by simp [Hub.callSource]

@[simp] theorem Hub.sendPd_paths (c : Hub) (p : Nat) (m : Pd) (sop : Nat) : (c.sendPd p m sop).paths = c.paths := by simp [Hub.sendPd]

@[simp] theorem Hub.resetIds_paths (c : Hub) (p : Nat) : (c.resetIds p).paths = c.paths := by simp [Hub.resetIds]

@[simp] theorem Hub.heard_paths (c : Hub) (p : Nat) : (c.heard p).paths = c.paths := by simp [Hub.heard]

@[simp] theorem Hub.sendCaps_paths (c : Hub) (p : Nat) : (c.sendCaps p).paths = c.paths := by simp [Hub.sendCaps]

@[simp] theorem Hub.capsChanged_paths (c : Hub) (p : Nat) : (c.capsChanged p).paths = c.paths := by simp [Hub.capsChanged]

@[simp] theorem Hub.sag1Act_paths (c : Hub) (p : Nat) : (c.sag1Act p).paths = c.paths := by simp [Hub.sag1Act]

@[simp] theorem Hub.sagHeld_paths (c : Hub) (p : Nat) : (c.sagHeld p).paths = c.paths := by simp [Hub.sagHeld]

@[simp] theorem Hub.sendSwap_paths (c : Hub) (p k : Nat) : (c.sendSwap p k).paths = c.paths := by simp [Hub.sendSwap]

@[simp] theorem Hub.sendDue_paths (c : Hub) (p : Nat) : (c.sendDue p).paths = c.paths := by simp [Hub.sendDue]

@[simp] theorem Hub.pdEnd_paths (c : Hub) (p : Nat) : (c.pdEnd p).paths = c.paths := by simp [Hub.pdEnd]

@[simp] theorem Hub.implicitContract_paths (c : Hub) (p : Nat) : (c.implicitContract p).paths = c.paths := by simp [Hub.implicitContract]

@[simp] theorem Hub.contractIn_paths (c : Hub) (p : Nat) : (c.contractIn p).paths = c.paths := by simp [Hub.contractIn]

@[simp] theorem Hub.contractMade_paths (c : Hub) (p : Nat) : (c.contractMade p).paths = c.paths := by simp [Hub.contractMade]

@[simp] theorem Hub.enterMode_paths (c : Hub) (p : Nat) : (c.enterMode p).paths = c.paths := by simp [Hub.enterMode]

@[simp] theorem Hub.lanesExit_paths (c : Hub) (p : Nat) (entered : Bool) : (c.lanesExit p entered).paths = c.paths := by simp [Hub.lanesExit]

@[simp] theorem Hub.exitMode_paths (c : Hub) (p : Nat) (detached : Bool) : (c.exitMode p detached).paths = c.paths := by simp [Hub.exitMode]

@[simp] theorem Hub.endDiscovery_paths (c : Hub) (p : Nat) : (c.endDiscovery p).paths = c.paths := by simp [Hub.endDiscovery]

@[simp] theorem Hub.vconnOn_paths (c : Hub) (p : Nat) : (c.vconnOn p).paths = c.paths := by simp [Hub.vconnOn]

@[simp] theorem Hub.vconnOff_paths (c : Hub) (p : Nat) : (c.vconnOff p).paths = c.paths := by simp [Hub.vconnOff]

@[simp] theorem Hub.vconnRelease_paths (c : Hub) (p : Nat) : (c.vconnRelease p).paths = c.paths := by simp [Hub.vconnRelease]

@[simp] theorem Hub.swapEnd_paths (c : Hub) (p result : Nat) : (c.swapEnd p result).paths = c.paths := by simp [Hub.swapEnd]

@[simp] theorem Hub.swapOver_paths (c : Hub) (p result : Nat) : (c.swapOver p result).paths = c.paths := by simp [Hub.swapOver]

@[simp] theorem Hub.abandonSwap_paths (c : Hub) (p : Nat) : (c.abandonSwap p).paths = c.paths := by simp [Hub.abandonSwap]

@[simp] theorem Hub.attach_paths (c : Hub) (p k : Nat) : (c.attach p k).paths = c.paths := by simp [Hub.attach]

theorem Hub.each_restore_paths {xs : List Obj} (h : ∀ o ∈ xs, o.OffPath) (c : Hub) : (c.each xs fun c o => c.restore o).paths = c.paths :=
  Hub.foldl_paths_of_mem xs (fun d o ho => d.restore_paths (h o ho)) c

@[simp] theorem Hub.forgetPartner_paths (c : Hub) (p : Nat) : (c.forgetPartner p).paths = c.paths := by
  simp [Hub.forgetPartner]
  exact Hub.each_restore_paths (by simp [Obj.OffPath]) c

@[simp] theorem Hub.unattach_paths (c : Hub) (p : Nat) : (c.unattach p).paths = c.paths := by simp [Hub.unattach]

@[simp] theorem Hub.breakSwap_paths (c : Hub) (p : Nat) : (c.breakSwap p).paths = c.paths := by simp [Hub.breakSwap]

@[simp] theorem Hub.sendSoftReset_paths (c : Hub) (p : Nat) : (c.sendSoftReset p).paths = c.paths := by simp [Hub.sendSoftReset]

@[simp] theorem Hub.countTrip_paths (c : Hub) (p code : Nat) : (c.countTrip p code).paths = c.paths := by
  unfold Hub.countTrip
  split <;> simp

@[simp] theorem Hub.recoveryEnds_paths (c : Hub) (p : Nat) : (c.recoveryEnds p).paths = c.paths := by simp [Hub.recoveryEnds]

@[simp] theorem Hub.sag1Enter_paths (c : Hub) (p : Nat) : (c.sag1Enter p).paths = c.paths := by simp [Hub.sag1Enter]

@[simp] theorem Hub.sag1Clear_paths (c : Hub) (p : Nat) : (c.sag1Clear p).paths = c.paths := by simp [Hub.sag1Clear]

/-! ## Epolarex Link mode -/

@[simp] theorem Hub.entryOutcome_paths (c : Hub) (p r : Nat) : (c.entryOutcome p r).paths = c.paths := by simp [Hub.entryOutcome]

@[simp] theorem Hub.entryFails_paths (c : Hub) (p r : Nat) : (c.entryFails p r).paths = c.paths := by simp [Hub.entryFails]

@[simp] theorem Hub.sendStep_paths (c : Hub) (p step : Nat) : (c.sendStep p step).paths = c.paths := by
  unfold Hub.sendStep
  split <;> simp

@[simp] theorem Hub.writeEpxEnable_paths (c : Hub) (p : Nat) (value : Bool) : (c.writeEpxEnable p value).2.paths = c.paths := by
  simp [Hub.writeEpxEnable]

@[simp] theorem Hub.pdReleased_paths (c : Hub) (p : Nat) : (c.pdReleased p).paths = c.paths := by simp [Hub.pdReleased]

/-! ## The PCI Express port -/

@[simp] theorem Hub.farObject_paths (c : Hub) (v op sub : Nat) (data : Bytes) (origin : RigOrigin) :
    (c.farObject v op sub data origin).paths = c.paths := by simp [Hub.farObject]

@[simp] theorem Hub.resetFar_paths (c : Hub) (v : Nat) : (c.resetFar v).paths = c.paths := by simp [Hub.resetFar]

@[simp] theorem Hub.softReset_paths (c : Hub) : c.softReset.paths = c.paths :=
  c.filter_paths _ (keep := fun k => !(k.obj == (H.cfg 0 0).key.obj && k.inst == 1)) rfl fun p k => by
    unfold pathObj
    split <;> rfl

@[simp] theorem Hub.cfgWrite_paths (c : Hub) (f reg lane : Nat) (data : Bytes) : (c.cfgWrite f reg lane data).paths = c.paths := by
  simp [Hub.cfgWrite]

@[simp] theorem Hub.configRequest_paths (c : Hub) (f : Nat) (t : Tlp) : (c.configRequest f t).paths = c.paths := by simp [Hub.configRequest]

@[simp] theorem Hub.unsupported_paths (c : Hub) (t : Tlp) (fs : List Nat) : (c.unsupported t fs).paths = c.paths := by simp [Hub.unsupported]

@[simp] theorem Hub.toVdp_paths (c : Hub) (v : Nat) (t : Tlp) : (c.toVdp v t).paths = c.paths := by simp [Hub.toVdp]

@[simp] theorem Hub.requestWrite_paths (c : Hub) (off : Nat) (data : Bytes) : (c.requestWrite off data).paths = c.paths := by simp [Hub.requestWrite]

@[simp] theorem Hub.bar0Write_paths (c : Hub) (off : Nat) (data : Bytes) : (c.bar0Write off data).paths = c.paths := by simp [Hub.bar0Write]

@[simp] theorem Hub.barRequest_paths (c : Hub) (bar off : Nat) (t : Tlp) : (c.barRequest bar off t).paths = c.paths := by simp [Hub.barRequest]

@[simp] theorem Hub.routeTlp_paths (c : Hub) (t : Tlp) : (c.routeTlp t).paths = c.paths := by
  unfold Hub.routeTlp
  repeat' split
  all_goals simp

@[simp] theorem Hub.rootPortIn_paths (c : Hub) (t : Tlp) : (c.rootPortIn t).paths = c.paths := by
  unfold Hub.rootPortIn
  split <;> simp

@[simp] theorem Hub.acsStop_paths (c : Hub) (v : Nat) (x : EgressTlp) : (c.acsStop v x).paths = c.paths := by simp [Hub.acsStop]

@[simp] theorem Hub.sendTlp_paths (c : Hub) (x : EgressTlp) : (c.sendTlp x).paths = c.paths := by
  unfold Hub.sendTlp
  simp only
  repeat' split
  all_goals simp

@[simp] theorem Hub.writeRpHotReset_paths (c : Hub) (on : Bool) : (c.writeRpHotReset on).2.paths = c.paths := by simp [Hub.writeRpHotReset]

@[simp] theorem Hub.beginPoll_paths (c : Hub) (v : Nat) : (c.beginPoll v).paths = c.paths := by simp [Hub.beginPoll]

@[simp] theorem Hub.endPoll_paths (c : Hub) (v : Nat) (a : VdpPoll) : (c.endPoll v a).paths = c.paths := by simp [Hub.endPoll]

@[simp] theorem Hub.writeVdp_paths (c : Hub) (v d u : Nat) : (c.writeVdp v d u).2.paths = c.paths := by simp [Hub.writeVdp]

/-! ## Cable attach -/

@[simp] theorem Hub.noteCc_paths (c : Hub) (p pin : Nat) (cc : CcView) : (c.noteCc p pin cc).paths = c.paths := by simp [Hub.noteCc]

@[simp] theorem Hub.afterDebounce_paths (c : Hub) (p : Nat) : (c.afterDebounce p).paths = c.paths := by simp [Hub.afterDebounce]

@[simp] theorem Hub.tryWait_paths (c : Hub) (p path : Nat) : (c.tryWait p path).paths = c.paths := by simp [Hub.tryWait]

/-! ## USB Power Delivery -/

@[simp] theorem Hub.sendRequest_paths (c : Hub) (p rdo mv ma : Nat) (epr : Bool) : (c.sendRequest p rdo mv ma epr).paths = c.paths := by
  simp [Hub.sendRequest]

@[simp] theorem Hub.chooseRequest_paths (c : Hub) (p : Nat) (epr : Bool) (pdos : List Nat) : (c.chooseRequest p epr pdos).paths = c.paths := by
  unfold Hub.chooseRequest
  simp only
  repeat' split
  all_goals simp

@[simp] theorem Hub.leaveEpr_paths (c : Hub) (now : Bool) (p : Nat) : (c.leaveEpr now p).paths = c.paths := by simp [Hub.leaveEpr]

@[simp] theorem Hub.powerSwapped_paths (c : Hub) (p k : Nat) : (c.powerSwapped p k).paths = c.paths := by simp [Hub.powerSwapped]

@[simp] theorem Hub.unanswered_paths (c : Hub) (p : Nat) : (c.unanswered p).paths = c.paths := by simp [Hub.unanswered]

@[simp] theorem Hub.swapAsked_paths (c : Hub) (p k : Nat) {accept : Hub → Hub} (h : ∀ d, (accept d).paths = d.paths) :
    (c.swapAsked p k accept).paths = c.paths := by
  simp [Hub.swapAsked, h]

@[simp] theorem Hub.writeSwap_paths (c : Hub) (p k : Nat) : (c.writeSwap p k).2.paths = c.paths := by simp [Hub.writeSwap]

@[simp] theorem Hub.cableKnown_paths (c : Hub) (p : Nat) : (c.cableKnown p).paths = c.paths := by simp [Hub.cableKnown]

theorem sourceObj_offPath (p : Nat) (what : SourceSetting) : (sourceObj p what).OffPath := by cases what <;> simp [sourceObj, Obj.OffPath]

@[simp] theorem Hub.writeSource_paths (c : Hub) (p : Nat) (what : SourceSetting) (v : Nat) : (c.writeSource p what v).2.paths = c.paths := by
  simp [Hub.writeSource, Hub.put_paths _ _ (sourceObj_offPath p what)]

/-! ## The heads' shared operations -/

@[simp] theorem Hub.putLayer_paths (c : Hub) (set h l : Nat) (y : Layer) : (c.putLayer set h l y).paths = c.paths :=
  Hub.foldl_paths (fun d f => d.put_paths _ ⟨by simp; omega, by simp; omega⟩) _ c

@[simp] theorem Hub.scanGuard_paths (c : Hub) (a n source : Nat) : (c.scanGuard a n source).paths = c.paths := by simp [Hub.scanGuard]

@[simp] theorem Hub.dramFresh_paths (c : Hub) (a n : Nat) : (c.dramFresh a n).paths = c.paths := by simp [Hub.dramFresh]

@[simp] theorem Hub.fetchAhead_paths (c : Hub) (m : Mems) (a n : Nat) : (c.fetchAhead m a n).paths = c.paths := by
  refine c.each_paths _ fun d h => ?_
  split
  · rfl
  · simp only
    refine (Hub.each_paths _ _ fun e row => Hub.each_paths _ _ fun f l => ?_).trans d.draw_paths
    rw [Hub.when_paths]
    split
    · exact Hub.put_paths _ _ ⟨by simp, by simp⟩
    · rfl

@[simp] theorem Hub.scanReads_paths (c : Hub) (h : Nat) : (c.scanReads h).paths = c.paths := by simp [Hub.scanReads]

@[simp] theorem Hub.headUntrained_paths (c : Hub) (h state : Nat) : (c.headUntrained h state).paths = c.paths := by simp [Hub.headUntrained]

@[simp] theorem Hub.trainHead_paths (c : Hub) (h : Nat) : (c.trainHead h).paths = c.paths := by
  unfold Hub.trainHead
  split
  · rfl
  · split
    · rfl
    · split
      · simp
      · simp only
        split <;> simp

@[simp] theorem Hub.scanoutRecompute_paths (c : Hub) : c.scanoutRecompute.paths = c.paths := by simp [Hub.scanoutRecompute]

@[simp] theorem Hub.edgeTime_paths (c : Hub) (o : Nat) : (c.edgeTime o).paths = c.paths := by
  unfold Hub.edgeTime
  split <;> simp

@[simp] theorem Hub.genlockRefresh_paths (c : Hub) : c.genlockRefresh.paths = c.paths := by simp [Hub.genlockRefresh]

@[simp] theorem Hub.latchAtOnce_paths (c : Hub) (h : Nat) : (c.latchAtOnce h).paths = c.paths := by simp [Hub.latchAtOnce]

@[simp] theorem Hub.dropFetched_paths (c : Hub) (h : Nat) : (c.dropFetched h).paths = c.paths :=
  c.filter_paths _ (keep := fun k => !(k.obj == (H.fetchedRow 0 0).key.obj && decide (k.inst / 4 = h))) rfl fun p k => by
    unfold pathObj
    split <;> rfl

@[simp] theorem Hub.emptyStore_paths (c : Hub) (h : Nat) : (c.emptyStore h).paths = c.paths := by simp [Hub.emptyStore]

@[simp] theorem Hub.openPicture_paths (c : Hub) (h a : Nat) : (c.openPicture h a).paths = c.paths := by simp [Hub.openPicture]

@[simp] theorem Hub.presentDue_paths (c : Hub) (h : Nat) : (c.presentDue h).paths = c.paths := by simp [Hub.presentDue]

@[simp] theorem Hub.driveHpd_paths (c : Hub) (h : Nat) (high : Bool) : (c.driveHpd h high).paths = c.paths := by simp [Hub.driveHpd]

@[simp] theorem Hub.startMode_paths (c : Hub) (h m : Nat) : (c.startMode h m).paths = c.paths := by simp [Hub.startMode]

@[simp] theorem Hub.changeMode_paths (c : Hub) (h m : Nat) : (c.changeMode h m).paths = c.paths := by simp [Hub.changeMode]

@[simp] theorem Hub.headsOff_paths (c : Hub) : c.headsOff.paths = c.paths := by simp [Hub.headsOff]

@[simp] theorem Hub.headsOn_paths (c : Hub) : c.headsOn.paths = c.paths := by simp [Hub.headsOn]

@[simp] theorem Hub.headsHalt_paths (c : Hub) : c.headsHalt.paths = c.paths := by simp [Hub.headsHalt]

@[simp] theorem Hub.restartHead_paths (c : Hub) (h : Nat) : (c.restartHead h).paths = c.paths := by simp [Hub.restartHead]

@[simp] theorem Hub.isolateHead_paths (c : Hub) (h : Nat) : (c.isolateHead h).paths = c.paths := by simp [Hub.isolateHead]

/-! ## Display heads and DRAM -/

@[simp] theorem Hub.writeHeadMode_paths (c : Hub) (h m : Nat) : (c.writeHeadMode h m).2.paths = c.paths := by simp [Hub.writeHeadMode]

theorem timingObj_offPath (h item : Nat) : (timingObj h item).OffPath := by unfold timingObj; split <;> simp [Obj.OffPath]

@[simp] theorem Hub.writeTiming_paths (c : Hub) (h item v : Nat) : (c.writeTiming h item v).2.paths = c.paths := by
  simp [Hub.writeTiming, Hub.put_paths _ _ (timingObj_offPath h item)]

@[simp] theorem Hub.writePairLock_paths (c : Hub) (h : Nat) (v : Bool) : (c.writePairLock h v).2.paths = c.paths := by simp [Hub.writePairLock]

@[simp] theorem Hub.writeCapFormat_paths (c : Hub) (h v : Nat) : (c.writeCapFormat h v).2.paths = c.paths := by simp [Hub.writeCapFormat]

@[simp] theorem Hub.commitLayer_paths (c : Hub) (h l : Nat) : (c.commitLayer h l).paths = c.paths := by simp [Hub.commitLayer]

@[simp] theorem Hub.writeCommit_paths (c : Hub) (h mask : Nat) : (c.writeCommit h mask).2.paths = c.paths := by simp [Hub.writeCommit]

@[simp] theorem Hub.latchLayer_paths (c : Hub) (h l : Nat) : (c.latchLayer h l).paths = c.paths := by simp [Hub.latchLayer]

@[simp] theorem Hub.underrunLine_paths (c : Hub) (h k line : Nat) : (c.underrunLine h k line).paths = c.paths := by simp [Hub.underrunLine]

@[simp] theorem Hub.dropLineFrom_paths (c : Hub) (h line : Nat) (moment : Int) : (c.dropLineFrom h line moment).paths = c.paths :=
  Hub.paths_of_regs rfl

@[simp] theorem Hub.readSink_paths (c : Hub) (h : Nat) (k : SinkCaps) : (c.readSink h k).paths = c.paths := by simp [Hub.readSink]

@[simp] theorem Hub.sendStream_paths (c : Hub) (h t d flags info : Nat) (payload : Bytes) :
    (c.sendStream h t d flags info payload).paths = c.paths := by simp [Hub.sendStream]

@[simp] theorem Hub.sendLine_paths (h t format line : Nat) (a : StreamAttr) :
    ∀ (n off : Nat) (rest : Bytes) (c : Hub), (Hub.sendLine h t format line a n off rest c).paths = c.paths := by
  intro n
  induction n with
  | zero => intro _ _ c; rfl
  | succ n ih =>
    intro off rest c
    simp [Hub.sendLine, ih]

@[simp] theorem Hub.sendLines_paths (h t format : Nat) (a : StreamAttr) :
    ∀ (ls : List (List Pixel)) (i : Nat) (c : Hub), (Hub.sendLines h t format a i ls c).paths = c.paths := by
  intro ls
  induction ls with
  | nil => intro _ c; rfl
  | cons l rest ih => intro i c; simp [Hub.sendLines, ih]

@[simp] theorem Hub.streamAttributes_paths (c : Hub) (h : Nat) (due : Int) (p : Packet) : (c.streamAttributes h due p).paths = c.paths := by
  simp [Hub.streamAttributes]

@[simp] theorem Hub.streamPixels_paths (c : Hub) (h : Nat) (due : Int) (p : Packet) : (c.streamPixels h due p).paths = c.paths := by
  simp [Hub.streamPixels]

@[simp] theorem Hub.writeSpillSize_paths (c : Hub) (v : Nat) : (c.writeSpillSize v).2.paths = c.paths := by simp [Hub.writeSpillSize]

@[simp] theorem Hub.lateDram_paths (c : Hub) : c.lateDram.paths = c.paths := by simp [Hub.lateDram]

@[simp] theorem Hub.dramPassEnd_paths (c : Hub) : c.dramPassEnd.paths = c.paths := by simp [Hub.dramPassEnd]

/-! ## Power paths and measurement -/

@[simp] theorem Hub.tickLimit_paths (c : Hub) (p : Nat) (inLimit : Bool) : (c.tickLimit p inLimit).paths = c.paths := by simp [Hub.tickLimit]

@[simp] theorem Hub.tickGates_paths (c : Hub) (p : Nat) (cmp : Comparators) : (c.tickGates p cmp).paths = c.paths := by simp [Hub.tickGates]

@[simp] theorem Hub.tickVbus_paths (c : Hub) (p : Nat) (cmp : Comparators) : (c.tickVbus p cmp).paths = c.paths := by simp [Hub.tickVbus]

@[simp] theorem Hub.modelStart_paths (c : Hub) (p : Nat) : (c.modelStart p).paths = c.paths := by simp [Hub.modelStart]

@[simp] theorem Hub.modelUpdate_paths (c : Hub) (p k mw dt : Nat) : (c.modelUpdate p k mw dt).paths = c.paths := by simp [Hub.modelUpdate]

@[simp] theorem Hub.showTemp_paths (c : Hub) (p k : Nat) : (c.showTemp p k).paths = c.paths := by
  unfold Hub.showTemp
  split <;> simp

@[simp] theorem Hub.showTemps_paths (c : Hub) (p : Nat) : (c.showTemps p).paths = c.paths := by simp [Hub.showTemps]

@[simp] theorem Hub.thermalWritten_paths (c : Hub) (p : Nat) : (c.thermalWritten p).paths = c.paths := by simp [Hub.thermalWritten]

@[simp] theorem Hub.diodeReading_paths (c : Hub) (p low high : Nat) : (c.diodeReading p low high).paths = c.paths := by simp [Hub.diodeReading]

@[simp] theorem Hub.addEnergy_paths (c : Hub) (p k nj : Nat) : (c.addEnergy p k nj).paths = c.paths := by
  unfold Hub.addEnergy
  split <;> simp

@[simp] theorem Hub.currentSample_paths (c : Hub) (p : Nat) (ma : Int) (dt : Nat) : (c.currentSample p ma dt).paths = c.paths := by
  simp [Hub.currentSample]

@[simp] theorem Hub.voltageSample_paths (c : Hub) (p vbus vsrc vsnk : Nat) : (c.voltageSample p vbus vsrc vsnk).paths = c.paths := by
  simp [Hub.voltageSample]

@[simp] theorem Hub.feedSample_paths (c : Hub) (fa fb bus : Nat) : (c.feedSample fa fb bus).paths = c.paths := by simp [Hub.feedSample]

/-! ## Flash and settings records -/

@[simp] theorem Hub.recorded_paths (c : Hub) (r : Hub × Mems) : (c.recorded r).1.paths = r.1.paths := rfl

@[simp] theorem Hub.readControl_paths (c : Hub) (m : Mems) : (c.readControl m).paths = c.paths := by
  unfold Hub.readControl
  simp only
  repeat' split
  all_goals simp

@[simp] theorem Hub.loadControl_paths (c : Hub) (m : Mems) : (c.loadControl m).1.paths = c.paths := by simp [Hub.loadControl]

@[simp] theorem Hub.showImage_paths (c : Hub) (m : Mems) (s : Nat) : (c.showImage m s).paths = c.paths := by simp [Hub.showImage]

@[simp] theorem Hub.storeDigest_paths (c : Hub) (m : Mems) (s : Nat) : (c.storeDigest m s).paths = c.paths := by simp [Hub.storeDigest]

@[simp] theorem Hub.scanRecord_paths (c : Hub) (m : Mems) (k : Nat) : (c.scanRecord m k).paths = c.paths := by simp [Hub.scanRecord]

@[simp] theorem Hub.eraseGone_paths (c : Hub) (m : Mems) : (c.eraseGone m).1.paths = c.paths := by simp [Hub.eraseGone]

@[simp] theorem Hub.eraseAhead_paths (c : Hub) (m : Mems) : (c.eraseAhead m).1.paths = c.paths := by simp [Hub.eraseAhead]

@[simp] theorem Hub.takeSlot_paths (c : Hub) (k : Nat) : (c.takeSlot k).paths = c.paths := by simp [Hub.takeSlot]

@[simp] theorem Hub.putRecord_paths (c : Hub) (m : Mems) (k format seq : Nat) (body : Bytes) :
    (c.putRecord m k format seq body).1.paths = c.paths := by simp [Hub.putRecord]

@[simp] theorem Hub.startSave_paths (c : Hub) (m : Mems) : (c.startSave m).1.paths = c.paths := by simp [Hub.startSave]

@[simp] theorem Hub.finishSave_paths (c : Hub) (m : Mems) (ok : Bool) : (c.finishSave m ok).1.paths = c.paths := by simp [Hub.finishSave]

/-! The rows that list the pairs' states are read-only, so no setting, no stored value and no write of an object reaches them. -/

/-- A row other than the two that list the pairs' states. -/
def Row.OffPath (r : Row) : Prop := r.obj ≠ 0x310101 ∧ r.obj ≠ 0x310102

/-- A store that lists no pair's state. -/
def Store.OffPaths (st : Store) : Prop := ∀ e ∈ st, e.1.obj ≠ 0x310101 ∧ e.1.obj ≠ 0x310102

theorem pathRows_readOnly : ∀ r ∈ dictionary.flatMap Block.rows, r.obj = 0x310101 ∨ r.obj = 0x310102 → r.acc = [.ro, .ro, .ro, .ro] := by
  decide +kernel

theorem Row.offPath_of_writes {r : Row} (h : r ∈ dictionary.flatMap Block.rows) {l : Level} (w : (rightOf r.acc l).writes = true) : r.OffPath := by
  refine not_or.mp fun e => ?_
  rw [pathRows_readOnly r h e] at w
  cases l <;> cases w

theorem Row.offPath_of_setting {r : Row} (h : r ∈ dictionary.flatMap Block.rows) (w : r.setting = true) : r.OffPath := by
  refine not_or.mp fun e => ?_
  simp [Row.setting, pathRows_readOnly r h e, rightOf, Level.rank] at w

theorem Row.key_obj (r : Row) (n k : Nat) : (r.key n k).obj = r.obj := by unfold Row.key; split <;> rfl

theorem rowOf_obj {obj : Nat} {r : Row} (h : rowOf obj = some r) : r.obj = obj := by
  simpa using List.find?_some h

theorem Row.scalarObj_offPath {r : Row} (h : r.OffPath) (n k : Nat) : (r.scalarObj n k).OffPath := by
  rw [Obj.OffPath, Row.scalarObj, Row.key_obj]
  exact h

theorem rowOf_mem {obj : Nat} {r : Row} (h : rowOf obj = some r) : r ∈ dictionary.flatMap Block.rows := List.mem_of_find?_eq_some h

theorem locate_mem {index sub n : Nat} {r : Row} (h : locate index sub = some (r, n)) : r ∈ dictionary.flatMap Block.rows := by
  obtain ⟨b, hb, found⟩ := List.exists_of_findSome?_eq_some h
  obtain ⟨r', hr, unit⟩ := List.exists_of_findSome?_eq_some found
  refine List.mem_flatMap.mpr ⟨b, hb, ?_⟩
  split at unit
  · obtain ⟨n', -, e⟩ := Option.map_eq_some_iff.mp unit
    cases e
    exact hr
  · cases unit

theorem Store.OffPaths.insert {st : Store} (h : st.OffPaths) {k : Key} (hk : k.obj ≠ 0x310101 ∧ k.obj ≠ 0x310102) (v : Nat) :
    (Store.insert k v st).OffPaths := by
  induction st with
  | nil => simpa [Store.OffPaths, Store.insert] using hk
  | cons x rest ih =>
    obtain ⟨one, more⟩ := List.forall_mem_cons.mp h
    unfold Store.insert
    split
    · exact List.forall_mem_cons.mpr ⟨hk, more⟩
    · split
      · exact List.forall_mem_cons.mpr ⟨hk, h⟩
      · exact List.forall_mem_cons.mpr ⟨one, ih more⟩

theorem Hub.put_offPaths {c : Hub} (h : c.regs.OffPaths) {o : Obj} (ho : o.OffPath) (v : Nat) : (c.put o v).regs.OffPaths := by
  unfold Hub.put
  dsimp only
  split
  · exact fun e he => h e (List.mem_of_mem_filter he)
  · exact h.insert ho _

theorem Hub.foldl_offPaths {α : Type} {f : Hub → α → Hub} (xs : List α) (step : ∀ d x, d.regs.OffPaths → (f d x).regs.OffPaths) {c : Hub}
    (h : c.regs.OffPaths) : (xs.foldl f c).regs.OffPaths :=
  List.foldlRecOn (motive := fun d : Hub => d.regs.OffPaths) xs f h fun d hd x _ => step d x hd

theorem Hub.roleBase_offPaths (c : Hub) : c.roleBase.regs.OffPaths := by
  have reset : Hub.reset.regs.OffPaths := List.forall_mem_nil _
  unfold Hub.roleBase
  split
  · exact Hub.put_offPaths (Hub.foldl_offPaths _ (fun d p h => Hub.put_offPaths h (by simp [Obj.OffPath]) 4) reset) (by simp [Obj.OffPath]) _
  · exact reset

theorem Hub.applyStored_offPaths {c : Hub} (h : c.regs.OffPaths) (index sub : Nat) (v : Bytes) : (c.applyStored index sub v).regs.OffPaths := by
  unfold Hub.applyStored
  split
  · exact h
  · next r n found =>
    split
    · exact h
    · next stored =>
      simp only [Row.isStored, Bool.not_eq_eq_eq_not, Bool.not_true, Bool.not_eq_false, Bool.and_eq_true] at stored
      have off := Row.offPath_of_setting (locate_mem found) stored.1
      split
      · split
        · exact Hub.put_offPaths h (Row.scalarObj_offPath off n _) _
        · exact h
      · split
        · exact h
        · exact Hub.foldl_offPaths _ (fun d e h => Hub.foldl_offPaths _ (fun d f h => Hub.put_offPaths (o := r.fieldObj n e f) h off _) h) h

theorem Hub.applyBody_offPaths : ∀ (fuel : Nat) (b : Bytes) (c : Hub), c.regs.OffPaths → (Hub.applyBody fuel b c).regs.OffPaths
  | 0, _, _, h => h
  | fuel + 1, b, c, h => by
    unfold Hub.applyBody
    split
    · exact h
    · exact Hub.applyBody_offPaths fuel _ _ (Hub.applyStored_offPaths h _ _ _)

theorem Store.find_foldl_insert {xs : Store} (h : xs.OffPaths) (p k : Nat) : ∀ st : Store,
    Store.find (pathObj p k).key (xs.foldl (fun st e => Store.insert e.1 e.2 st) st) = Store.find (pathObj p k).key st := by
  induction xs with
  | nil => exact fun _ => rfl
  | cons x rest ih =>
    obtain ⟨one, more⟩ := List.forall_mem_cons.mp h
    intro st
    have other : (pathObj p k).key ≠ x.1 := fun e => not_or.mpr one (e ▸ pathObj_obj p k)
    exact (ih more _).trans (Store.find_insert_other other x.2 st)

theorem Hub.applySaved_paths {c : Hub} (h : c.saved.OffPaths) : c.applySaved.paths = c.paths := by
  funext p k
  rw [Hub.paths, Hub.paths, Hub.get, Hub.get, Hub.applySaved, Store.find_foldl_insert h]

theorem settingIn_offPath {inBlock : Row → Key → Bool} {k : Key} (h : settingIn inBlock k = true) :
    k.obj ≠ 0x310101 ∧ k.obj ≠ 0x310102 := by
  unfold settingIn at h
  split at h
  · cases h
  · next r found =>
    simp only [Bool.and_eq_true] at h
    obtain ⟨⟨⟨setting, -⟩, -⟩, -⟩ := h
    rw [← rowOf_obj found]
    exact Row.offPath_of_setting (rowOf_mem found) setting

@[simp] theorem Hub.restoreBlock_paths (c : Hub) (inBlock : Row → Key → Bool) : (c.restoreBlock inBlock).paths = c.paths := by
  have saved : Store.OffPaths (c.saved.filter fun e => settingIn inBlock e.1) := fun e he => settingIn_offPath (List.mem_filter.mp he).2
  funext p k
  rw [Hub.paths, Hub.paths, Hub.get, Hub.get, Hub.restoreBlock, Store.find_foldl_insert saved, Store.find_filter fun k => !settingIn inBlock k]
  cases e : settingIn inBlock (pathObj p k).key
  · rfl
  · exact absurd (pathObj_obj p k) (not_or.mpr (settingIn_offPath e))

/-! ## Entry into reset -/

@[simp] theorem Hub.dropActivation_paths (c : Hub) : c.dropActivation.paths = c.paths := by simp [Hub.dropActivation]

@[simp] theorem Hub.assertFaultN_paths (c : Hub) : c.assertFaultN.paths = c.paths := by simp [Hub.assertFaultN]

/-! ## The Umpire -/

@[simp] theorem Hub.logFault_paths (c : Hub) (source unit data severity flags reaction : Nat) :
    (c.logFault source unit data severity flags reaction).paths = c.paths := by simp [Hub.logFault]

@[simp] theorem Hub.latchFirst_paths (c : Hub) (source unit data severity : Nat) : (c.latchFirst source unit data severity).paths = c.paths := by
  simp [Hub.latchFirst]

@[simp] theorem Hub.degrade_paths (c : Hub) (source unit : Nat) : (c.degrade source unit).paths = c.paths := by simp [Hub.degrade]

@[simp] theorem Hub.discardSpilled_paths (c : Hub) : c.discardSpilled.paths = c.paths := by simp [Hub.discardSpilled]

@[simp] theorem Hub.isolateBlock_paths (c : Hub) (source unit : Nat) : (c.isolateBlock source unit).paths = c.paths := by simp [Hub.isolateBlock]

@[simp] theorem Hub.isolateStandby_paths (c : Hub) : c.isolateStandby.paths = c.paths := by simp [Hub.isolateStandby]

@[simp] theorem Hub.primary_paths (c : Hub) (source unit data severity : Nat) (escalated : Bool) :
    (c.primary source unit data severity escalated).paths = c.paths := by simp [Hub.primary]

@[simp] theorem Hub.correctable_paths (c : Hub) (source unit data : Nat) : (c.correctable source unit data).1.paths = c.paths := by
  simp [Hub.correctable]

@[simp] theorem Hub.onEvent_paths (c : Hub) (handled : List Detection) (d : Detection) : (c.onEvent handled d).1.paths = c.paths := by
  unfold Hub.onEvent
  simp only
  repeat' split
  all_goals simp

@[simp] theorem Hub.judge_paths : ∀ (ds handled : List Detection) (c : Hub), (Hub.judge handled ds c).1.paths = c.paths := by
  intro ds
  induction ds with
  | nil => intro _ c; rfl
  | cons d rest ih =>
    intro handled c
    unfold Hub.judge
    simp only
    split
    · simp
    · simp [ih]

@[simp] theorem Hub.releaseFaultN_paths (c : Hub) : c.releaseFaultN.paths = c.paths := by simp [Hub.releaseFaultN]

@[simp] theorem Hub.writeFaultNRelease_paths (c : Hub) (value : Bool) : (c.writeFaultNRelease value).2.paths = c.paths := by
  simp [Hub.writeFaultNRelease]

@[simp] theorem Hub.writeFirstClear_paths (c : Hub) (value : Bool) : (c.writeFirstClear value).2.paths = c.paths := by simp [Hub.writeFirstClear]

@[simp] theorem Hub.writeStatus_paths (c : Hub) (word value : Nat) : (c.writeStatus word value).2.paths = c.paths :=
  c.put_paths _ (statusWord_offPath _)

@[simp] theorem Hub.writeSourceConfig_paths (c : Hub) (source : Nat) (v : SourceConfig) : (c.writeSourceConfig source v).2.paths = c.paths := by
  simp [Hub.writeSourceConfig]

@[simp] theorem Hub.writeDegraded_paths (c : Hub) (value : Nat) : (c.writeDegraded value).2.paths = c.paths := by simp [Hub.writeDegraded]

/-! ## Reset and start-up -/

@[simp] theorem Hub.startImage_paths (c : Hub) (m : Mems) (s : Nat) : (c.startImage m s).paths = c.paths := by simp [Hub.startImage]

@[simp] theorem Hub.enterRom_paths (c : Hub) (cause : Nat) : (c.enterRom cause).paths = c.paths := by simp [Hub.enterRom]

@[simp] theorem Hub.boot_paths (c : Hub) (m : Mems) : (c.boot m).paths = c.paths := by simp [Hub.boot]

@[simp] theorem Hub.loadSettings_paths (c : Hub) (m : Mems) : (c.loadSettings m).paths = c.paths := by
  unfold Hub.loadSettings
  split
  · exact Hub.applySaved_paths c.roleBase_offPaths
  · simp [Hub.applySaved_paths (c := { c with saved := c.settingsOf _ }) (Hub.applyBody_offPaths _ _ _ c.roleBase_offPaths)]

@[simp] theorem Hub.keepModes_paths (c : Hub) (before : Hub) : (c.keepModes before).paths = c.paths := by simp [Hub.keepModes]

@[simp] theorem Hub.startPort_paths (c : Hub) (powered : List PoweredPort) (p : Nat) : (c.startPort powered p).paths = c.paths := by
  unfold Hub.startPort
  split <;> simp

@[simp] theorem Hub.startTree_paths (c : Hub) : c.startTree.paths = c.paths := by simp [Hub.startTree]

@[simp] theorem Hub.newInstance_paths (c : Hub) : c.newInstance.paths = c.paths := by simp [Hub.newInstance]

@[simp] theorem Hub.startSpill_paths (c : Hub) : c.startSpill.paths = c.paths := by simp [Hub.startSpill]

@[simp] theorem Hub.soliciting_paths (c : Hub) : c.soliciting.paths = c.paths := by simp [Hub.soliciting]

@[simp] theorem Hub.scanRecords_paths (c : Hub) (m : Mems) : (c.scanRecords m).paths = c.paths := by
  unfold Hub.scanRecords
  simp only
  repeat' split
  all_goals simp

@[simp] theorem Hub.startFlush_paths (c : Hub) (m : Mems) : (c.startFlush m).1.paths = c.paths := by simp [Hub.startFlush]

@[simp] theorem Hub.recordStage_paths (c : Hub) (n : Nat) : (c.recordStage n).paths = c.paths := by simp [Hub.recordStage]

@[simp] theorem Hub.readFlashState_paths (c : Hub) (m : Mems) : (c.readFlashState m).1.paths = c.paths := by simp [Hub.readFlashState]

/-! ## Settings and what follows a response -/

@[simp] theorem Hub.requestAll_paths (c : Hub) (m : Mems) (lvl : Level) (acc : List Right) (op : Hub → Mems → Status × Hub × Mems) :
    (c.requestAll m lvl acc op).1.paths = if c.inRom then c.paths else if (rightOf acc lvl).writes then (op c m).2.1.paths else c.paths := by
  simp [Hub.requestAll]

@[simp] theorem Hub.startDad_paths (c : Hub) (k : Nat) : (c.startDad k).paths = c.paths := by simp [Hub.startDad]

@[simp] theorem Hub.networkSettle_paths (c : Hub) : c.networkSettle.paths = c.paths := by simp [Hub.networkSettle]

@[simp] theorem Hub.writeSave_paths (c : Hub) (m : Mems) (value : Bool) : (c.writeSave m value).2.1.paths = c.paths := by simp [Hub.writeSave]

@[simp] theorem Hub.eraseRecords_paths (c : Hub) (m : Mems) : (c.eraseRecords m).1.paths = c.paths := by simp [Hub.eraseRecords]

@[simp] theorem Hub.writeRestore_paths (c : Hub) (m : Mems) (value : Bool) : (c.writeRestore m value).2.1.paths = c.paths := by
  simp [Hub.writeRestore]

/-! ## The stroke -/

@[simp] theorem Hub.showNextGrants_paths (c : Hub) : c.showNextGrants.paths = c.paths := by simp [Hub.showNextGrants]

@[simp] theorem Hub.showCapacities_paths (c : Hub) : c.showCapacities.paths = c.paths := by simp [Hub.showCapacities]

@[simp] theorem Hub.applyPlan_paths (c : Hub) (e : Nat) : (c.applyPlan e).paths = c.paths := by
  unfold Hub.applyPlan
  simp only
  repeat' split
  all_goals simp

@[simp] theorem Hub.missPlan_paths (c : Hub) : c.missPlan.paths = c.paths := by simp [Hub.missPlan]

@[simp] theorem Hub.planBoundary_paths (c : Hub) : c.planBoundary.paths = c.paths := by simp [Hub.planBoundary]

@[simp] theorem Hub.sampleDepths_paths (c : Hub) : c.sampleDepths.paths = c.paths := by simp [Hub.sampleDepths]

@[simp] theorem Hub.clearDrains_paths (c : Hub) : c.clearDrains.paths = c.paths := by simp [Hub.clearDrains]

@[simp] theorem Hub.countDrains_paths (c : Hub) (before : List Nat) : (c.countDrains before).paths = c.paths := by simp [Hub.countDrains]

@[simp] theorem Hub.fixedBoundary_paths (c : Hub) : c.fixedBoundary.paths = c.paths := by simp [Hub.fixedBoundary]

@[simp] theorem Hub.setIsoNeed_paths (c : Hub) : c.setIsoNeed.paths = c.paths := by simp [Hub.setIsoNeed]

@[simp] theorem Hub.discardStale_paths (c : Hub) : c.discardStale.paths = c.paths := by simp [Hub.discardStale]

@[simp] theorem Hub.refillShaper_paths (c : Hub) (s : Nat) : (c.refillShaper s).paths = c.paths := by
  unfold Hub.refillShaper
  simp only
  split <;> simp

@[simp] theorem Hub.refillPolicer_paths (c : Hub) (k : Nat) : (c.refillPolicer k).paths = c.paths := by simp [Hub.refillPolicer]

@[simp] theorem Hub.refillAll_paths (c : Hub) : c.refillAll.paths = c.paths := by simp [Hub.refillAll]

@[simp] theorem Hub.openDrive_paths (c : Hub) : c.openDrive.paths = c.paths := by simp [Hub.openDrive]

@[simp] theorem Hub.rollOffers_paths (c : Hub) : c.rollOffers.paths = c.paths := by simp [Hub.rollOffers]

@[simp] theorem Hub.takeDemands_paths (c : Hub) : c.takeDemands.2.paths = c.paths := by simp [Hub.takeDemands]

@[simp] theorem Hub.portsSent_paths (c : Hub) : c.portsSent.paths = c.paths := by simp [Hub.portsSent]

@[simp] theorem Hub.sendReport_paths (c : Hub) : c.sendReport.paths = c.paths := by simp [Hub.sendReport]

@[simp] theorem Hub.sendCyclic_paths (c : Hub) (m : Mems) (r : Nat) : (c.sendCyclic m r).paths = c.paths := by simp [Hub.sendCyclic]

@[simp] theorem Hub.sendSyncs_paths (c : Hub) : c.sendSyncs.paths = c.paths := by simp [Hub.sendSyncs]

@[simp] theorem Hub.nextStroke_paths (c : Hub) : c.nextStroke.paths = c.paths := by simp [Hub.nextStroke]

@[simp] theorem Hub.boundaryStart_paths (c : Hub) : c.boundaryStart.paths = c.paths := by simp [Hub.boundaryStart]

@[simp] theorem Hub.boundarySteps_paths (c : Hub) : c.boundarySteps.paths = c.paths := by simp [Hub.boundarySteps]

@[simp] theorem Hub.writeGrant_paths (c : Hub) (t g : Nat) : (c.writeGrant t g).2.paths = c.paths := by simp [Hub.writeGrant]

@[simp] theorem Hub.writeRate_paths (c : Hub) (mode rate next : Obj) (inUse : Bool) (m r : Nat) (hm : mode.OffPath) (hn : next.OffPath) :
    (c.writeRate mode rate next inUse m r).2.paths = c.paths := by
  simp [Hub.writeRate, Hub.put_paths _ _ hm, Hub.put_paths _ _ hn, Hub.restore_paths _ hn]

@[simp] theorem Hub.writeShaper_paths (c : Hub) (s m r : Nat) : (c.writeShaper s m r).2.paths = c.paths :=
  c.writeRate_paths _ _ _ _ _ _ (by simp [Obj.OffPath]) (by simp [Obj.OffPath])

@[simp] theorem Hub.writePolicer_paths (c : Hub) (k m r : Nat) : (c.writePolicer k m r).2.paths = c.paths :=
  c.writeRate_paths _ _ _ _ _ _ (by simp [Obj.OffPath]) (by simp [Obj.OffPath])

@[simp] theorem Hub.writeQuantum_paths (c : Hub) (q v : Nat) : (c.writeQuantum q v).2.paths = c.paths := by simp [Hub.writeQuantum]

@[simp] theorem Hub.clearHist_paths (c : Hub) (delay : Bool) (q : Nat) (bins : List (BitVec 32)) : (c.clearHist delay q bins).2.paths = c.paths := by
  unfold Hub.clearHist
  split
  · rfl
  · split
    · rfl
    · exact c.each_paths _ fun d k => by split <;> simp

@[simp] theorem Hub.writeWindow_paths (c : Hub) (w : Nat) : (c.writeWindow w).2.paths = c.paths := by simp [Hub.writeWindow]

/-! ## Sleep states -/

@[simp] theorem Hub.leaveEprAll_paths (c : Hub) (now : Bool) : (c.leaveEprAll now).paths = c.paths := by simp [Hub.leaveEprAll]

@[simp] theorem Hub.sendSleep_paths (c : Hub) : c.sendSleep.paths = c.paths := by simp [Hub.sendSleep]

@[simp] theorem Hub.domainsOff_paths (c : Hub) : c.domainsOff.paths = c.paths := by simp [Hub.domainsOff]

@[simp] theorem Hub.endActivation_paths (c : Hub) (m : Mems) : (c.endActivation m).1.paths = c.paths := by simp [Hub.endActivation]

@[simp] theorem Hub.intoState_paths (c : Hub) (n : Nat) : (c.intoState n).paths = c.paths := by simp [Hub.intoState]

@[simp] theorem Hub.writeSleepMax_paths (c : Hub) (v : Nat) : (c.writeSleepMax v).2.paths = c.paths := by simp [Hub.writeSleepMax]

/-! ## Supply-sag stages -/

@[simp] theorem Hub.sagGears_paths (c : Hub) : c.sagGears.paths = c.paths := by simp [Hub.sagGears]

@[simp] theorem Hub.clearGears_paths (c : Hub) : c.clearGears.paths = c.paths := by simp [Hub.clearGears]

/-! ## FOP messages on their way out -/

@[simp] theorem Hub.mailboxRespond_paths (c : Hub) (bytes : Bytes) : (c.mailboxRespond bytes).paths = c.paths := by simp [Hub.mailboxRespond]

@[simp] theorem Hub.sendFop_paths (c : Hub) (background : Bool) (dst : Nat) (bytes : Bytes) : (c.sendFop background dst bytes).paths = c.paths := by
  simp [Hub.sendFop]

@[simp] theorem Hub.deliver_paths (c : Hub) (t : Transport) (addr port : Nat) (background : Bool) (bytes : Bytes) :
    (c.deliver t addr port background bytes).paths = c.paths := by
  unfold Hub.deliver
  split <;> simp

@[simp] theorem Hub.setSession_paths (c : Hub) (x : Session) : (c.setSession x).paths = c.paths := Hub.paths_of_regs rfl

@[simp] theorem Hub.answer_paths (c : Hub) (kind : Nat) (m : FopMsg) (st : Status) (count : Nat) (body : Bytes) :
    (c.answer kind m st count body).paths = c.paths := by
  unfold Hub.answer
  split <;> simp

@[simp] theorem Hub.answerBare_paths (c : Hub) (kind : Nat) (m : FopMsg) (st : Status) : (c.answerBare kind m st).paths = c.paths := by
  simp [Hub.answerBare]

/-! ## Firmware update -/

@[simp] theorem Hub.slotTo_paths (c : Hub) (s state : Nat) : (c.slotTo s state).paths = c.paths := by simp [Hub.slotTo]

@[simp] theorem Hub.clearDigest_paths (c : Hub) (s : Nat) : (c.clearDigest s).paths = c.paths := by simp [Hub.clearDigest]

@[simp] theorem Hub.cancelDeferred_paths (c : Hub) : c.cancelDeferred.paths = c.paths := by simp [Hub.cancelDeferred]

@[simp] theorem Hub.answerBlock_paths (c : Hub) (st : Status) : (c.answerBlock st).paths = c.paths := by
  unfold Hub.answerBlock
  split <;> simp

@[simp] theorem Hub.closeTransfer_paths (c : Hub) : c.closeTransfer.paths = c.paths := by simp [Hub.closeTransfer]

@[simp] theorem Hub.writeTransferOpen_paths (c : Hub) (lvl : Level) (target size ident : Nat) :
    (c.writeTransferOpen lvl target size ident).2.paths = c.paths := by simp [Hub.writeTransferOpen]

@[simp] theorem Hub.transferFlash_paths (c d : Hub) (m : Mems) : (c.transferFlash d m).1.paths = d.paths := by simp [Hub.transferFlash]

@[simp] theorem Hub.writeTransferAbort_paths (c : Hub) (value : Bool) : (c.writeTransferAbort value).2.paths = c.paths := by
  simp [Hub.writeTransferAbort]

@[simp] theorem Hub.blockDone_paths (c : Hub) : c.blockDone.paths = c.paths := by simp [Hub.blockDone]

@[simp] theorem Hub.blockProgrammed_paths (c : Hub) : c.blockProgrammed.paths = c.paths := by simp [Hub.blockProgrammed]

@[simp] theorem Hub.putBlock_paths (c : Hub) (m : Mems) (k : Nat) (data : Bytes) : (c.putBlock m k data).1.paths = c.paths := by simp [Hub.putBlock]

@[simp] theorem Hub.putBlocks_paths : ∀ (k : Nat) (xs : List Bytes) (c : Hub) (m : Mems), (Hub.putBlocks k xs c m).1.paths = c.paths
  | _, [], _, _ => rfl
  | k, d :: rest, c, m => (Hub.putBlocks_paths (k + 1) rest _ _).trans (by simp)

@[simp] theorem Hub.writeBlocks_paths (c : Hub) (m : Mems) (k : Nat) (xs : List (Bytes × Nat)) : (c.writeBlocks m k xs).2.1.paths = c.paths := by
  simp [Hub.writeBlocks]

@[simp] theorem Hub.writeVerify_paths (c : Hub) (value : Bool) : (c.writeVerify value).2.paths = c.paths := by simp [Hub.writeVerify]

@[simp] theorem Hub.useImageKeys_paths (c : Hub) : c.useImageKeys.paths = c.paths := by simp [Hub.useImageKeys]

@[simp] theorem Hub.imageVerified_paths (c : Hub) (m : Mems) : (c.imageVerified m).paths = c.paths := by simp [Hub.imageVerified]

@[simp] theorem Hub.recordVerified_paths (c : Hub) (m : Mems) : (c.recordVerified m).1.paths = c.paths := by simp [Hub.recordVerified]

@[simp] theorem Hub.startActivation_paths (c : Hub) (deferred : Bool) : (c.startActivation deferred).paths = c.paths := by simp [Hub.startActivation]

@[simp] theorem Hub.writeActivate_paths (c : Hub) (v : Nat) : (c.writeActivate v).2.paths = c.paths := by simp [Hub.writeActivate]

@[simp] theorem Hub.writeUpdateLock_paths (c : Hub) (value : Bool) : (c.writeUpdateLock value).2.paths = c.paths := by simp [Hub.writeUpdateLock]

@[simp] theorem Hub.activationFails_paths (c : Hub) (result : Nat) : (c.activationFails result).paths = c.paths := by simp [Hub.activationFails]

@[simp] theorem Hub.prepareRecords_paths (c : Hub) (m : Mems) : (c.prepareRecords m).1.paths = c.paths := by
  unfold Hub.prepareRecords
  simp only
  repeat' split
  all_goals simp

@[simp] theorem Hub.awaitHandover_paths (c : Hub) : c.awaitHandover.paths = c.paths := by simp [Hub.awaitHandover]

@[simp] theorem Hub.freezePlans_paths (c : Hub) : c.freezePlans.paths = c.paths := by simp [Hub.freezePlans]

@[simp] theorem Hub.beginHandover_paths (c : Hub) (m : Mems) (state : Nat) : (c.beginHandover m state).paths = c.paths := by simp [Hub.beginHandover]

@[simp] theorem Hub.advanceRollback_paths (c : Hub) (v : Nat) : (c.advanceRollback v).paths = c.paths := by simp [Hub.advanceRollback]

@[simp] theorem Hub.writeConfirm_paths (c : Hub) (m : Mems) (value : Bool) : (c.writeConfirm m value).2.paths = c.paths := by simp [Hub.writeConfirm]

@[simp] theorem Hub.startHandback_paths (c : Hub) (m : Mems) : (c.startHandback m).paths = c.paths := by simp [Hub.startHandback]

@[simp] theorem Hub.writeRevert_paths (c : Hub) (m : Mems) (value : Bool) : (c.writeRevert m value).2.paths = c.paths := by simp [Hub.writeRevert]

@[simp] theorem Hub.writeRecovery_paths (c : Hub) (value : Bool) : (c.writeRecovery value).2.paths = c.paths := by simp [Hub.writeRecovery]

@[simp] theorem Hub.writeRomBoot_paths (c : Hub) (m : Mems) (value : Bool) : (c.writeRomBoot m value).2.paths = c.paths := by simp [Hub.writeRomBoot]

/-! ## Writes of the dictionary -/

@[simp] theorem Hub.writeNotify_paths (c : Hub) (lvl : Level) (session e : Nat) (v : NotifyEntry) :
    (c.writeNotify lvl session e v).2.paths = c.paths := by simp [Hub.writeNotify]

@[simp] theorem Hub.zero_paths (c : Hub) (n obj : Nat) (off : ¬(obj = 0x310101 ∨ obj = 0x310102)) : (c.zero n obj).paths = c.paths := by
  unfold Hub.zero
  split
  · next r found =>
    refine c.put_paths 0 ?_
    rw [Obj.OffPath, Row.scalarObj, Row.key_obj, rowOf_obj found]
    exact not_or.mp off
  · rfl

@[simp] theorem clearing_paths (v : Nat) (c cleared : Hub) : (clearing v c cleared).2.paths = if v = 1 then cleared.paths else c.paths := by
  simp [clearing]

theorem Hub.zeros_paths (c : Hub) (n : Nat) {xs : List Nat} {obj : Nat → Nat} (off : ∀ i ∈ xs, ¬(obj i = 0x310101 ∨ obj i = 0x310102)) :
    (c.each xs fun c i => c.zero n (obj i)).paths = c.paths :=
  Hub.foldl_paths_of_mem xs (fun d i hi => d.zero_paths n (obj i) (off i hi)) c

@[simp] theorem Hub.clearLane_paths (c : Hub) (n : Nat) : (c.clearLane n).paths = c.paths := by
  simp [Hub.clearLane, Hub.zeros_paths]

@[simp] theorem Hub.clearMeter_paths (c : Hub) (n : Nat) : (c.clearMeter n).paths = c.paths := by
  simp [Hub.clearMeter, Hub.zeros_paths]

@[simp] theorem Hub.writeSagEnter_paths (c : Hub) (k v : Nat) : (c.writeSagEnter k v).2.paths = c.paths := by simp [Hub.writeSagEnter]

@[simp] theorem Hub.writeFeedQual_paths (c : Hub) (v : Nat) : (c.writeFeedQual v).2.paths = c.paths := by simp [Hub.writeFeedQual]

@[simp] theorem Hub.writeFeedLost_paths (c : Hub) (v : Nat) : (c.writeFeedLost v).2.paths = c.paths := by simp [Hub.writeFeedLost]

@[simp] theorem Hub.writeAccessSlot_paths (c : Hub) (k v : Nat) : (c.writeAccessSlot k v).2.paths = c.paths := by simp [Hub.writeAccessSlot]

@[simp] theorem Hub.writeClose_paths (c : Hub) (w : Writer) (v : Nat) : (c.writeClose w v).2.paths = c.paths := by simp [Hub.writeClose]

@[simp] theorem Hub.writeFetWarn_paths (c : Hub) (p v : Nat) : (c.writeFetWarn p v).2.paths = c.paths := by simp [Hub.writeFetWarn]

theorem Hub.writeLinkScalar_paths (c : Hub) (obj n k v : Nat) : ∀ x ∈ c.writeLinkScalar obj n k v, x.2.paths = c.paths := by
  have cleared := c.zeros_paths n (xs := List.range 14) (obj := fun i => 0x200301 + i) (by decide)
  unfold Hub.writeLinkScalar
  simp only
  split <;> simp [cleared]

@[simp] theorem Hub.writeGenlockHead_paths (c : Hub) (h v : Nat) : (c.writeGenlockHead h v).2.paths = c.paths := by simp [Hub.writeGenlockHead]

theorem Hub.writeCoreScalar_paths (c : Hub) (obj n k v : Nat) : ∀ x ∈ c.writeCoreScalar obj n k v, x.2.paths = c.paths := by
  unfold Hub.writeCoreScalar
  repeat' split
  all_goals simp

theorem Hub.writeGuardScalar_paths (c : Hub) (w : Writer) (obj v : Nat) (bs : Bytes) :
    ∀ x ∈ c.writeGuardScalar w obj v bs, x.2.paths = c.paths := by
  unfold Hub.writeGuardScalar
  split <;> simp

@[simp] theorem Hub.beforeWrite_paths (c : Hub) (obj n v was : Nat) : (c.beforeWrite obj n v was).paths = c.paths := by
  unfold Hub.beforeWrite
  split <;> simp

@[simp] theorem Hub.afterWrite_paths (c : Hub) (obj n v was : Nat) : (c.afterWrite obj n v was).paths = c.paths := by
  unfold Hub.afterWrite
  split <;> simp

@[simp] theorem Hub.writePlain_paths (c : Hub) (r : Row) (n k v : Nat) (h : (r.scalarObj n k).OffPath) :
    (c.writePlain r n k v).2.paths = c.paths := by
  simp [Hub.writePlain, Hub.put_paths _ _ h]

@[simp] theorem Hub.writeVidMap_paths (c : Hub) (mac vid prio bulk : Nat) : (c.writeVidMap mac vid prio bulk).2.paths = c.paths := by
  simp [Hub.writeVidMap]

@[simp] theorem Hub.writeAcycRx_paths (c : Hub) (k state : Nat) : (c.writeAcycRx k state).2.paths = c.paths := by simp [Hub.writeAcycRx]

@[simp] theorem Hub.writeHistConfig_paths (c : Hub) (q depth delay every top : Nat) :
    (c.writeHistConfig q depth delay every top).2.paths = c.paths := by simp [Hub.writeHistConfig]

@[simp] theorem Hub.writeInitWindow_paths (c : Hub) (e : Nat) (bs : Bytes) : (c.writeInitWindow e bs).2.paths = c.paths := by
  simp [Hub.writeInitWindow]

@[simp] theorem Hub.freeErr_paths (c : Hub) (e kind : Nat) : (c.freeErr e kind).2.paths = c.paths := by simp [Hub.freeErr]

@[simp] theorem Hub.writeLinkCrypto_paths (c : Hub) (p slot advance : Nat) : (c.writeLinkCrypto p slot advance).2.paths = c.paths := by
  have moved := ((c.put (O.linkCryptoKeySlot p) slot).keyCondition p).writeAdvance_paths p advance
  unfold Hub.writeLinkCrypto
  split
  · rfl
  · split
    · simp
    · split <;> simp_all

theorem Hub.writePathEntryOf_paths (c : Hub) (obj n e : Nat) (bs : Bytes) : ∀ x ∈ c.writePathEntryOf obj n e bs, x.2.paths = c.paths := by
  unfold Hub.writePathEntryOf
  split <;> simp

theorem Hub.writeStrokeEntryOf_paths (c : Hub) (obj e : Nat) (bs : Bytes) : ∀ x ∈ c.writeStrokeEntryOf obj e bs, x.2.paths = c.paths := by
  unfold Hub.writeStrokeEntryOf
  simp only
  split <;> simp

theorem Hub.writeBlockEntryOf_paths (c : Hub) (w : Writer) (obj e : Nat) (bs : Bytes) :
    ∀ x ∈ c.writeBlockEntryOf w obj e bs, x.2.paths = c.paths := by
  unfold Hub.writeBlockEntryOf
  simp only
  split <;> simp

@[simp] theorem Hub.writeEntry_paths (c : Hub) (w : Writer) (r : Row) (n e : Nat) (bs : Bytes) : (c.writeEntry w r n e bs).2.paths = c.paths := by
  unfold Hub.writeEntry
  cases path : c.writePathEntryOf r.obj n e bs with
  | some x => exact c.writePathEntryOf_paths _ _ _ _ x path
  | none => cases stroke : c.writeStrokeEntryOf r.obj e bs with
    | some x => exact c.writeStrokeEntryOf_paths _ _ _ x stroke
    | none => cases block : c.writeBlockEntryOf w r.obj e bs with
      | some x => exact c.writeBlockEntryOf_paths _ _ _ _ x block
      | none => rfl

theorem Hub.writeRun_paths (w : Writer) (r : Row) (n : Nat) : ∀ (es : List Bytes) (c : Hub) (e : Nat), (Hub.writeRun c w r n e es).2.paths = c.paths
  | [], _, _ => rfl
  | bs :: rest, c, e => by
    have one := c.writeEntry_paths w r n e bs
    unfold Hub.writeRun
    split
    · next d h => exact (Hub.writeRun_paths w r n rest d (e + 1)).trans (by simpa [h] using one)
    · next st d _ h => simpa [h] using one

@[simp] theorem Hub.writeTable_paths (c : Hub) (m : Mems) (w : Writer) (r : Row) (n off : Nat) (bs : Bytes) :
    (c.writeTable m w r n off bs).2.1.paths = c.paths := by
  unfold Hub.writeTable
  simp only
  repeat' split
  · rfl
  · simp
  · simp
  · simp
  · next d h => exact (congrArg (fun x => x.2.paths) h).symm.trans (Hub.writeRun_paths ..)
  · simp

/-! ## The rigger bridge -/

@[simp] theorem Hub.winWrite_paths (c : Hub) (m : Mems) (w off : Nat) (bs : Bytes) : (c.winWrite m w off bs).1.paths = c.paths := by
  simp [Hub.winWrite]

@[simp] theorem Hub.winTake_paths (c : Hub) (m : Mems) (w off n : Nat) : (c.winTake m w off n).2.1.paths = c.paths := by simp [Hub.winTake]

@[simp] theorem Hub.winCorrects_paths (c : Hub) (w : Nat) (req : RigPacket) : (c.winCorrects w req).paths = c.paths := by simp [Hub.winCorrects]

@[simp] theorem Hub.rigRead_paths (c : Hub) (m : Mems) (req : RigPacket) : (c.rigRead m req).2.2.1.paths = c.paths := by
  unfold Hub.rigRead
  simp only
  split
  · rfl
  · split
    · simp
    · split <;> simp

@[simp] theorem Hub.sendAnswer_paths (c : Hub) (op : Nat) (req : RigPacket) (status seq : Nat) (data : Bytes) :
    (c.sendAnswer op req status seq data).paths = c.paths := by simp [Hub.sendAnswer]

@[simp] theorem Hub.keepOutcome_paths (c : Hub) (op : Nat) (req : RigPacket) (status seq : Nat) (data : Bytes) :
    (c.keepOutcome op req status seq data).paths = c.paths := Hub.paths_of_regs rfl

@[simp] theorem Hub.answerRig_paths (c : Hub) (op : Nat) (req : RigPacket) (status seq : Nat) (data : Bytes) :
    (c.answerRig op req status seq data).paths = c.paths := by simp [Hub.answerRig]

@[simp] theorem Hub.answerAgain_paths (c : Hub) (m : Mems) (req : RigPacket) (x : RigRecord) : (c.answerAgain m req x).paths = c.paths := by
  simp [Hub.answerAgain]

@[simp] theorem Hub.sendAhead_paths : ∀ (c : Hub) (req : RigPacket) (a : Nat) (bs : List Bytes), (c.sendAhead req a bs).paths = c.paths
  | _, _, _, [] => rfl
  | c, req, a, b :: rest => (Hub.sendAhead_paths _ req _ rest).trans (by simp)

@[simp] theorem Hub.readAhead_paths (c : Hub) (m : Mems) (req : RigPacket) : (c.readAhead m req).1.paths = c.paths := by
  unfold Hub.readAhead
  simp only
  split <;> simp

@[simp] theorem Hub.putStream_paths (c : Hub) (x : StreamIn) : (c.putStream x).paths = c.paths := Hub.paths_of_regs rfl

@[simp] theorem Hub.sendPostedError_paths (c : Hub) (req : RigPacket) (status seq count : Nat) :
    (c.sendPostedError req status seq count).paths = c.paths := by simp [Hub.sendPostedError]

@[simp] theorem Hub.takeSeq_paths (c : Hub) (req : RigPacket) : (c.takeSeq req).paths = c.paths := by simp [Hub.takeSeq]

@[simp] theorem Hub.rigPosted1_paths (c : Hub) (m : Mems) (req : RigPacket) : (c.rigPosted1 m req).1.paths = c.paths := by
  unfold Hub.rigPosted1
  simp only
  repeat' split
  all_goals simp

@[simp] theorem Hub.rigFlush1_paths (c : Hub) (req : RigPacket) : (c.rigFlush1 req).paths = c.paths := by
  unfold Hub.rigFlush1
  extract_lets x next trailing missing last
  split
  · exact c.answerRig_paths ..
  · split
    · exact c.answerRig_paths ..
    · exact (Hub.answerRig_paths ..).trans (c.putStream_paths _)

@[simp] theorem Hub.rigClaim1_paths (c : Hub) (req : RigPacket) : (c.rigClaim1 req).paths = c.paths := by simp [Hub.rigClaim1]

@[simp] theorem Hub.rigRestarted_paths (c : Hub) (r : RigRequest) : (c.rigRestarted r).paths = c.paths := by simp [Hub.rigRestarted]

@[simp] theorem Hub.rigAnswered_paths (c : Hub) (op : Nat) (rsp : RigPacket) : (c.rigAnswered op rsp).paths = c.paths := by
  unfold Hub.rigAnswered
  simp only
  repeat' split
  all_goals simp

@[simp] theorem Hub.rigAgain_paths (c : Hub) (r : RigRequest) : (c.rigAgain r).paths = c.paths := by simp [Hub.rigAgain]

@[simp] theorem Hub.queueAll_paths (op hub window : Nat) :
    ∀ (xs : List Bytes) (c : Hub) (at_ bar : Nat), (c.queueAll op hub window at_ bar xs).paths = c.paths := by
  intro xs
  induction xs with
  | nil => intro c _ _; rfl
  | cons x rest ih => intro c _ _; simp [Hub.queueAll, ih]

@[simp] theorem Hub.queueReads_paths (hub window id : Nat) :
    ∀ (xs : List (Nat × Nat × Nat)) (c : Hub), (c.queueReads hub window id xs).paths = c.paths := by
  intro xs
  induction xs with
  | nil => intro c; rfl
  | cons x rest ih => intro c; simp [Hub.queueReads, ih]

/-! ## Feeds -/

@[simp] theorem Hub.feedsChanged_paths (c : Hub) : c.feedsChanged.paths = c.paths := by simp [Hub.feedsChanged]

@[simp] theorem Hub.selectFeed_paths (c : Hub) (f : Nat) : (c.selectFeed f).paths = c.paths := by simp [Hub.selectFeed]

@[simp] theorem Hub.startTransfer_paths (c : Hub) (f lost : Nat) : (c.startTransfer f lost).paths = c.paths := by simp [Hub.startTransfer]

@[simp] theorem Hub.selectAny_paths (c : Hub) : c.selectAny.paths = c.paths := by simp [Hub.selectAny]

@[simp] theorem Hub.transferFails_paths (c : Hub) : c.transferFails.paths = c.paths := by simp [Hub.transferFails]

theorem qualifiedObj_offPath (f : Nat) : (qualifiedObj f).OffPath := by
  unfold qualifiedObj
  split <;> simp [Obj.OffPath]

@[simp] theorem Hub.feedLoss_paths (c : Hub) (f : Nat) (cause : FeedLossCause) : (c.feedLoss f cause).paths = c.paths := by
  simp [Hub.feedLoss, Hub.put_paths _ _ (qualifiedObj_offPath f)]

/-! ## The Fevik Object Protocol -/

@[simp] theorem Hub.putRelay_paths (c : Hub) (e : RelayEntry) : (c.putRelay e).paths = c.paths := by simp [Hub.putRelay]

@[simp] theorem Hub.relayOut_paths (c : Hub) (kind : Nat) (x : FopMsg) : (c.relayOut kind x).paths = c.paths := by simp [Hub.relayOut]

@[simp] theorem Hub.ringNotify_paths (c : Hub) {sent : Hub → Hub} (bytes : Bytes) (h : ∀ d, (sent d).paths = d.paths) :
    (c.ringNotify sent bytes).paths = c.paths := by
  simp [Hub.ringNotify, h]

@[simp] theorem Hub.relayBack_paths (c : Hub) (kind : Nat) (x : FopMsg) : (c.relayBack kind x).paths = c.paths := by
  unfold Hub.relayBack
  split <;> simp

@[simp] theorem Hub.openSession_paths (c : Hub) (lvl : Level) (key : Nat) (x : FopMsg) : (c.openSession lvl key x).paths = c.paths := by
  simp [Hub.openSession]

@[simp] theorem Hub.openRefused_paths (c : Hub) (key : Nat) (x : FopMsg) (st : Status) : (c.openRefused key x st).paths = c.paths := by
  simp [Hub.openRefused]

@[simp] theorem Hub.fopOpen_paths (c : Hub) (x : FopMsg) : (c.fopOpen x).paths = c.paths := by
  unfold Hub.fopOpen
  simp only
  repeat' split
  all_goals simp

@[simp] theorem Hub.setBlock_paths (c : Hub) (id : Nat) (b : Option OpenBlock) : (c.setBlock id b).paths = c.paths := Hub.paths_of_regs rfl

@[simp] theorem Hub.fopRead_paths (c : Hub) (m : Mems) (lvl : Level) (x : FopMsg) : (c.fopRead m lvl x).paths = c.paths := by simp [Hub.fopRead]

@[simp] theorem Hub.fopReadBlock_paths (c : Hub) (m : Mems) (lvl : Level) (s : Session) (x : FopMsg) :
    (c.fopReadBlock m lvl s x).paths = c.paths := by simp [Hub.fopReadBlock]

@[simp] theorem Hub.fopAbort_paths (c : Hub) (m : Mems) (s : Session) (kind : Nat) (x : FopMsg) : (c.fopAbort m s kind x).paths = c.paths := by
  simp [Hub.fopAbort]

@[simp] theorem Hub.notify_paths (c : Hub) (e : Nat) (s : Session) (value : Bytes) : (c.notify e s value).paths = c.paths := by simp [Hub.notify]

@[simp] theorem Hub.sampleNotify_paths (c : Hub) (e : Nat) : (c.sampleNotify e).paths = c.paths := by
  unfold Hub.sampleNotify
  split <;> simp

@[simp] theorem Hub.periodNotify_paths (c : Hub) (e : Nat) : (c.periodNotify e).paths = c.paths := by
  unfold Hub.periodNotify
  simp only
  repeat' split
  all_goals simp

/-! ## Enumeration, Orphans and the time base -/

@[simp] theorem Hub.acceptAssign_paths (c : Hub) (p parent addr depth : Nat) (isReturn : Bool) :
    (c.acceptAssign p parent addr depth isReturn).paths = c.paths := by simp [Hub.acceptAssign]

@[simp] theorem Hub.dropTunnels_paths (c : Hub) : c.dropTunnels.paths = c.paths := by simp [Hub.dropTunnels]

/-! ## The end of a handover -/

@[simp] theorem Hub.swapImage_paths (c : Hub) (m : Mems) : (c.swapImage m).paths = c.paths := by simp [Hub.swapImage]

@[simp] theorem Hub.plansGoOn_paths (c : Hub) : c.plansGoOn.paths = c.paths := by simp [Hub.plansGoOn]

@[simp] theorem Hub.handedOver_paths (c : Hub) (m : Mems) (elapsed : Nat) : (c.handedOver m elapsed).paths = c.paths := by simp [Hub.handedOver]

@[simp] theorem Hub.handedBack_paths (c : Hub) (m : Mems) (elapsed : Nat) : (c.handedBack m elapsed).paths = c.paths := by simp [Hub.handedBack]

@[simp] theorem Hub.handoverFailed_paths (c : Hub) : c.handoverFailed.paths = c.paths := by simp [Hub.handoverFailed]

end Sys2Proof.Machine
end

section
/-! The interlock (R228, R229) in terms of the pairs' states, and the functions of the model that change these states and keep it:
a pair turns off, clears, faults or is reset, all of which leave Ramp and On, or it ramps where the other pair of its port is in neither. -/
namespace Sys2Proof.Machine

-- One theorem after another: elaborated side by side they take more memory than the check allows.
set_option Elab.async false

/-! ## Pairs that stand apart -/

/-- Of no port are both pairs in Ramp or On. -/
def PairsApart (f : Nat → Nat → Nat) : Prop := ∀ p : Port, (f p 0 = 1 ∨ f p 0 = 2) → f p 1 ≠ 1 ∧ f p 1 ≠ 2

theorem Hub.interlocked_iff (c : Hub) : Interlocked c ↔ PairsApart c.paths := .rfl

@[simp] theorem PairsApart.ite_iff {P : Prop} [Decidable P] (f g : Nat → Nat → Nat) :
    PairsApart (if P then f else g) ↔ if P then PairsApart f else PairsApart g := by
  split <;> rfl

/-- Pairs that change only to states other than Ramp and On stay apart. -/
theorem PairsApart.lower {f g : Nat → Nat → Nat} (h : PairsApart f) (low : ∀ p k, g p k = f p k ∨ g p k ≠ 1 ∧ g p k ≠ 2) :
    PairsApart g := by
  intro p up
  rcases low p 0 with same0 | low0
  · rcases low p 1 with same1 | low1
    · rw [same1]
      exact h p (same0 ▸ up)
    · exact low1
  · exact (up.elim low0.1 low0.2).elim

/-- A write of a pair's state changes that pair alone. -/
theorem Hub.put_pathObj_paths (c : Hub) (p k v q j : Nat) :
    (c.put (pathObj p k) v).paths q j = if q = p ∧ (j = 0 ↔ k = 0) then v % 256 else c.paths q j := by
  unfold Hub.paths
  split
  · next same =>
    have e : pathObj q j = pathObj p k := by simp only [pathObj, same]
    rw [e, Hub.get_put_same, pathObj_cap]
  · next other =>
    refine Hub.get_put_other c v fun e => other ?_
    by_cases hj : j = 0 <;> by_cases hk : k = 0 <;> simp_all [pathObj]

/-- A pair that goes where neither Ramp nor On is. -/
theorem Hub.put_rest_apart {c : Hub} (h : PairsApart c.paths) (p k : Nat) {v : Nat} (n1 : v % 256 ≠ 1) (n2 : v % 256 ≠ 2) :
    PairsApart (c.put (pathObj p k) v).paths :=
  h.lower fun q j => by
    rw [c.put_pathObj_paths]
    split
    · exact .inr ⟨n1, n2⟩
    · exact .inl rfl

/-- A pair that goes to Ramp or On while the other of its port is in neither. -/
theorem Hub.put_rising_apart {c : Hub} (h : PairsApart c.paths) (p k v : Nat) (other : c.paths p (1 - k) ≠ 1 ∧ c.paths p (1 - k) ≠ 2) :
    PairsApart (c.put (pathObj p k) v).paths := by
  intro q
  have one : 1 - k = 0 ↔ k ≠ 0 := by omega
  simp only [c.put_pathObj_paths]
  by_cases hq : (q : Nat) = p
  · by_cases hk : k = 0
    · subst hk
      simpa [hq] using fun _ => other
    · rw [one.mpr hk] at other
      simp [hq, hk, other]
  · simpa [hq] using h q

/-- Where one pair of a port ramps, the other is in neither Ramp nor On. -/
theorem PairsApart.other {f : Nat → Nat → Nat} (h : PairsApart f) (p : Port) {k : Nat} (hk : k < 2) (up : f p k = 1) :
    f p (1 - k) ≠ 1 ∧ f p (1 - k) ≠ 2 := by
  rcases (by omega : k = 0 ∨ k = 1) with rfl | rfl
  · exact h p (.inl up)
  · exact ⟨fun e => (h p (.inl e)).1 up, fun e => (h p (.inr e)).1 up⟩

/-- An operation on each member of a list. -/
theorem Hub.foldl_apart {α : Type} {f : Hub → α → Hub} (step : ∀ d x, PairsApart d.paths → PairsApart (f d x).paths) (xs : List α)
    {c : Hub} (h : PairsApart c.paths) : PairsApart (xs.foldl f c).paths :=
  List.foldlRecOn (motive := fun d : Hub => PairsApart d.paths) xs f h fun d hd x _ => step d x hd

theorem Hub.each_apart {α : Type} {c : Hub} (h : PairsApart c.paths) (xs : List α) {f : Hub → α → Hub}
    (step : ∀ d x, PairsApart d.paths → PairsApart (f d x).paths) : PairsApart (c.each xs f).paths := Hub.foldl_apart step xs h

@[simp] theorem Hub.turnOff_apart {c : Hub} (h : PairsApart c.paths) (p k : Nat) : PairsApart (c.turnOff p k).paths := by
  unfold Hub.turnOff
  split
  · simp only [Hub.leavePath_paths]
    exact Hub.put_rest_apart (by simp [h]) p k (by simp) (by simp)
  · exact h

@[simp] theorem Hub.clearPath_apart {c : Hub} (h : PairsApart c.paths) (p : Nat) (cooling : Bool) : PairsApart (c.clearPath p cooling).paths := by
  refine Hub.each_apart h _ fun d k hd => ?_
  have cleared := Hub.put_rest_apart hd p k (v := 0) (by simp) (by simp)
  simp [hd, cleared]

theorem Hub.rampAllowed_apart {c : Hub} {p k : Nat} (h : c.rampAllowed p k = true) : c.paths p (1 - k) ≠ 1 ∧ c.paths p (1 - k) ≠ 2 := by
  simp [Hub.rampAllowed, Hub.interlockClear] at h
  obtain ⟨⟨-, ⟨n1, n2⟩, -⟩, -⟩ := h
  exact ⟨n1, n2⟩

@[simp] theorem Hub.tryRamp_apart {c : Hub} (h : PairsApart c.paths) (p k : Nat) : PairsApart (c.tryRamp p k).paths := by
  unfold Hub.tryRamp
  split
  · next allowed => simp [Hub.put_rising_apart h p k 1 (Hub.rampAllowed_apart allowed)]
  · exact h

/-- A reset clears a pair's state or keeps it. -/
@[simp] theorem Hub.enterReset_apart {c : Hub} (h : PairsApart c.paths) (cause : Nat) : PairsApart (c.enterReset cause).paths := by
  unfold Hub.enterReset
  extract_lets settled atReset fresh
  have same : settled.paths = c.paths := c.dropActivation_paths
  rw [Hub.put_paths _ _ (by simp [Obj.OffPath])]
  refine PairsApart.lower (same ▸ h) fun p k => ?_
  have kept : fresh.regs = settled.regs.filter fun e => survives cause e.1 := rfl
  rw [Hub.paths, Hub.get, kept, Store.find_filter (survives cause)]
  split
  · exact .inl rfl
  · refine .inr ?_
    unfold pathObj
    split <;> simp

@[simp] theorem Hub.swapAsked_apart {c : Hub} (h : PairsApart c.paths) (p k : Nat) {accept : Hub → Hub}
    (step : ∀ d, PairsApart d.paths → PairsApart (accept d).paths) : PairsApart (c.swapAsked p k accept).paths := by
  unfold Hub.swapAsked
  extract_lets heard x own ended dual allowed
  have same : heard.paths = c.paths := by simp [heard]
  have settled : PairsApart ended.paths := by
    simp only [ended]
    repeat' split
    all_goals simp [same, h]
  split
  · simp [same, h]
  · split
    · simp [settled]
    · split
      · exact step _ (by simp [settled])
      · simp [settled]

/-! ## What the ports share -/

@[simp] theorem Hub.dropSource_apart {c : Hub} (h : PairsApart c.paths) (p : Nat) : PairsApart (c.dropSource p).paths := by simp [Hub.dropSource, h]

@[simp] theorem Hub.endContract_apart {c : Hub} (h : PairsApart c.paths) (p : Nat) : PairsApart (c.endContract p).paths := by
  simp [Hub.endContract, h]

@[simp] theorem Hub.dropPort_apart {c : Hub} (h : PairsApart c.paths) (p : Nat) (detached : Bool) : PairsApart (c.dropPort p detached).paths := by
  have ended : PairsApart (((c.endContract p).exitMode p detached).dropSource p).paths := by simp [h]
  simp [Hub.dropPort, ended]

@[simp] theorem Hub.detachPort_apart {c : Hub} (h : PairsApart c.paths) (p : Nat) : PairsApart (c.detachPort p).paths := by simp [Hub.detachPort, h]

@[simp] theorem Hub.hardReset_apart {c : Hub} (h : PairsApart c.paths) (p : Nat) (sent : Bool) (inReset : Bool) :
    PairsApart (c.hardReset p sent inReset).paths := by simp [Hub.hardReset, h]

@[simp] theorem Hub.errorRecovery_apart {c : Hub} (h : PairsApart c.paths) (p : Nat) : PairsApart (c.errorRecovery p).paths := by
  simp [Hub.errorRecovery, h]

@[simp] theorem Hub.unexpected_apart {c : Hub} (h : PairsApart c.paths) (p : Nat) : PairsApart (c.unexpected p).paths := by simp [Hub.unexpected, h]

@[simp] theorem Hub.disablePort_apart {c : Hub} (h : PairsApart c.paths) (p : Nat) : PairsApart (c.disablePort p).paths := by
  simp [Hub.disablePort, h]

@[simp] theorem Hub.enablePort_apart {c : Hub} (h : PairsApart c.paths) (p : Nat) : PairsApart (c.enablePort p).paths := by simp [Hub.enablePort, h]

@[simp] theorem Hub.pairFault_apart {c : Hub} (h : PairsApart c.paths) (p k code : Nat) : PairsApart (c.pairFault p k code).paths := by
  unfold Hub.pairFault
  extract_lets early limit latch faulted left source raised alerted
  have down : PairsApart faulted.paths := by
    refine Hub.put_rest_apart (by simp [h]) p k ?_ ?_
    all_goals split <;> simp
  have told : PairsApart alerted.paths := by simp [alerted, raised, left, down]
  split
  · exact Hub.hardReset_apart told p true false
  · split
    · exact Hub.errorRecovery_apart told p
    · exact told

@[simp] theorem Hub.portReset_apart {c : Hub} (h : PairsApart c.paths) (p : Nat) : PairsApart (c.portReset p).paths := by simp [Hub.portReset, h]

@[simp] theorem Hub.sag4Enter_apart {c : Hub} (h : PairsApart c.paths) (p : Nat) : PairsApart (c.sag4Enter p).paths := by simp [Hub.sag4Enter, h]

@[simp] theorem Hub.sag4Clear_apart {c : Hub} (h : PairsApart c.paths) (p : Nat) : PairsApart (c.sag4Clear p).paths := by simp [Hub.sag4Clear, h]

/-! ## Cable attach -/

@[simp] theorem Hub.writePolicy_apart {c : Hub} (h : PairsApart c.paths) (p v : Nat) : PairsApart (c.writePolicy p v).2.paths := by
  simp [Hub.writePolicy, h]

@[simp] theorem Hub.writePortDisable_apart {c : Hub} (h : PairsApart c.paths) (p : Nat) (value : Bool) :
    PairsApart (c.writePortDisable p value).2.paths := by simp [Hub.writePortDisable, h]

/-! ## Power paths and measurement -/

@[simp] theorem Hub.reversed_apart {c : Hub} (h : PairsApart c.paths) (p k : Nat) : PairsApart (c.reversed p k).paths := by
  unfold Hub.reversed
  rw [Hub.put_paths _ _ (by split <;> simp [Obj.OffPath])]
  simp [h]

@[simp] theorem Hub.tickPair_apart {c : Hub} (h : PairsApart c.paths) (p k : Nat) (cmp : Comparators) (trip : Bool) :
    PairsApart (c.tickPair p k cmp trip).paths := by simp [Hub.tickPair, h]

@[simp] theorem Hub.writeFaultClear_apart {c : Hub} (h : PairsApart c.paths) (p : Nat) (value : Bool) :
    PairsApart (c.writeFaultClear p value).2.paths := by simp [Hub.writeFaultClear, h]

/-! ## Entry into reset -/

@[simp] theorem Hub.fatalReset_apart {c : Hub} (h : PairsApart c.paths) (source unit data : Nat) :
    PairsApart (c.fatalReset source unit data).paths := by simp [Hub.fatalReset, h]

/-! ## The Umpire -/

@[simp] theorem Hub.isolatePort_apart {c : Hub} (h : PairsApart c.paths) (source p : Nat) : PairsApart (c.isolatePort source p).paths := by
  unfold Hub.isolatePort
  extract_lets opened ended restored reset enabled
  have before : PairsApart restored.paths := by simp [restored, ended, opened, h]
  have back : PairsApart enabled.paths := by
    simp only [enabled]
    split <;> simp [reset, before]
  split <;> simp [back]

@[simp] theorem Hub.isolate_apart {c : Hub} (h : PairsApart c.paths) (source unit : Nat) : PairsApart (c.isolate source unit).paths := by
  simp [Hub.isolate, h]

@[simp] theorem Hub.react_apart {c : Hub} (h : PairsApart c.paths) (severity source unit : Nat) :
    PairsApart (c.react severity source unit).paths := by simp [Hub.react, h]

theorem Hub.handle_apart : ∀ (ds handled : List Detection) {c : Hub}, PairsApart c.paths → PairsApart (Hub.handle handled ds c).paths
  | [], _, _, h => h
  | d :: rest, handled, c, h => Hub.handle_apart rest (d :: handled) (by simp [h])

@[simp] theorem Hub.handleCycle_apart {c : Hub} (h : PairsApart c.paths) (ds : List Detection) : PairsApart (c.handleCycle ds).paths := by
  have judged := Hub.judge_paths ds [] c
  unfold Hub.handleCycle
  split
  · next d fatal found =>
    rw [found] at judged
    exact Hub.fatalReset_apart (judged ▸ h) _ _ _
  · exact Hub.handle_apart ds [] h

@[simp] theorem Hub.sample_apart {c : Hub} (h : PairsApart c.paths) (cycle : List Detection) : PairsApart (c.sample cycle).paths := by
  simp [Hub.sample, h]

@[simp] theorem Hub.idle_apart {c : Hub} (h : PairsApart c.paths) : PairsApart c.idle.paths := by simp [Hub.idle, h]

/-! ## Reset and start-up -/

@[simp] theorem Hub.startForwarding_apart {c : Hub} (h : PairsApart c.paths) : PairsApart c.startForwarding.paths := by
  unfold Hub.startForwarding
  extract_lets forwarding heads refreshed halted
  have before : PairsApart (heads.scanoutRecompute.genlockRefresh).paths := by simp [heads, forwarding, h]
  have quiet : PairsApart refreshed.paths := by
    simp only [refreshed, Hub.when_paths]
    split
    · exact Hub.each_apart before _ fun d p hd => Hub.sag4Enter_apart hd p
    · exact before
  simp [halted, quiet]

@[simp] theorem Hub.startUp_apart {c : Hub} (h : PairsApart c.paths) (m : Mems) (straps : Nat) (powered : List PoweredPort) :
    PairsApart (c.startUp m straps powered).1.paths := by
  unfold Hub.startUp
  extract_lets cause strapped counted staged
  have unread : staged.paths = c.paths := by simp [staged, counted, strapped]
  split
  next c1 m1 read =>
  have readBack : c1.paths = c.paths := by
    have same := (staged.put H.running 1).readFlashState_paths m
    rw [read] at same
    simpa [unread] using same
  extract_lets booted loaded
  have settingsIn : loaded.paths = c.paths := by simp [loaded, booted, readBack]
  split
  next c2 m2 erased =>
  have erasedSame : c2.paths = c.paths := by
    have same := loaded.eraseAhead_paths m1
    rw [erased] at same
    exact same.trans settingsIn
  extract_lets timed ports linked drawn soliciting keyed forwards reported m3
  have sound : keyed.paths = c.paths := by simp [keyed, soliciting, drawn, linked, ports, timed, erasedSame]
  have apart : PairsApart reported.paths := by simp [reported, forwards, sound, h]
  split <;> simp [apart]

/-! ## Settings and what follows a response -/

@[simp] theorem Hub.afterResponse_apart {c : Hub} (h : PairsApart c.paths) : PairsApart c.afterResponse.paths := by simp [Hub.afterResponse, h]

/-! ## Sleep states -/

@[simp] theorem Hub.enterMoored_apart {c : Hub} (h : PairsApart c.paths) (m : Mems) : PairsApart (c.enterMoored m).1.paths := by
  unfold Hub.enterMoored
  extract_lets asleep disabled
  have before : PairsApart asleep.paths := by simp [asleep, h]
  have off : PairsApart disabled.paths := Hub.each_apart before _ fun d p hd => by simp [hd]
  simp [off]

@[simp] theorem Hub.enterStowed_apart {c : Hub} (h : PairsApart c.paths) : PairsApart c.enterStowed.paths := by simp [Hub.enterStowed, h]

@[simp] theorem Hub.enterState_apart {c : Hub} (h : PairsApart c.paths) (m : Mems) (n : Nat) : PairsApart (c.enterState m n).1.paths := by
  simp [Hub.enterState, h]

@[simp] theorem Hub.exitMoored_apart {c : Hub} (h : PairsApart c.paths) : PairsApart c.exitMoored.paths := by
  unfold Hub.exitMoored
  extract_lets running headsOn enabled linked
  have before : PairsApart headsOn.paths := by simp [headsOn, running, h]
  have back : PairsApart enabled.paths := Hub.each_apart before _ fun d p hd => by simp [hd]
  simp [linked, back]

@[simp] theorem Hub.exitSleep_apart {c : Hub} (h : PairsApart c.paths) (m : Mems) (powered : List PoweredPort) :
    PairsApart (c.exitSleep m powered).1.paths := by
  unfold Hub.exitSleep
  split <;> simp [h]

@[simp] theorem Hub.wakeOn_apart {c : Hub} (h : PairsApart c.paths) (m : Mems) (source : Nat) (powered : List PoweredPort) :
    PairsApart (c.wakeOn m source powered).1.paths := by simp [Hub.wakeOn, h]

/-! ## Supply-sag stages -/

@[simp] theorem Hub.stageIn_apart {c : Hub} (h : PairsApart c.paths) (n : Nat) : PairsApart (c.stageIn n).paths := by
  unfold Hub.stageIn
  split
  · simp [h]
  · simp [h]
  · simp [h]
  · have quiet : PairsApart ((c.put H.quiesced 1).each (List.range 24) Hub.sag4Enter).paths :=
      Hub.each_apart (by simp [h]) _ fun d p hd => Hub.sag4Enter_apart hd p
    simp [quiet]
  · exact h

@[simp] theorem Hub.stageOut_apart {c : Hub} (h : PairsApart c.paths) (n : Nat) : PairsApart (c.stageOut n).paths := by
  unfold Hub.stageOut
  split
  · simp [h]
  · simp [h]
  · have awake : PairsApart ((c.put H.quiesced 0).each (List.range 24) Hub.sag4Clear).paths :=
      Hub.each_apart (by simp [h]) _ fun d p hd => Hub.sag4Clear_apart hd p
    simp [awake]
  · exact h

@[simp] theorem Hub.enterStage_apart {c : Hub} (h : PairsApart c.paths) (m : Mems) (n : Nat) : PairsApart (c.enterStage m n).1.paths := by
  unfold Hub.enterStage
  extract_lets old recorded woken staged checked
  split
  · exact h
  · split
    · have up : PairsApart staged.paths := Hub.foldl_apart (fun d k hd => Hub.stageIn_apart hd (k + 1)) _ (by simp [woken, recorded, h])
      split <;> simp [checked, up]
    · simp [recorded, h]

@[simp] theorem Hub.clearStage_apart {c : Hub} (h : PairsApart c.paths) (m : Mems) (n : Nat) : PairsApart (c.clearStage m n).1.paths := by
  unfold Hub.clearStage
  extract_lets old flags top flushed staged checked
  have before : PairsApart flushed.paths := by simp [flushed, top, flags, h]
  split
  · exact h
  · split
    · have down : PairsApart staged.paths := Hub.foldl_apart (fun d k hd => Hub.stageOut_apart hd k) _ before
      split <;> simp [checked, down]
    · exact before

@[simp] theorem Hub.saveDone_apart {c : Hub} (h : PairsApart c.paths) (m : Mems) (ok : Bool) : PairsApart (c.saveDone m ok).1.paths := by
  simp [Hub.saveDone, h]

/-! ## Writes of the dictionary -/

theorem Hub.writePowerScalar_apart {c : Hub} (h : PairsApart c.paths) (obj n k v : Nat) :
    ∀ x ∈ c.writePowerScalar obj n k v, PairsApart x.2.paths := by
  have cleared := c.zeros_paths n (xs := List.range 8) (obj := fun i => 0x280801 + i) (by decide)
  unfold Hub.writePowerScalar
  split <;> simp [h, cleared]

@[simp] theorem Hub.writeSpecial_apart {c : Hub} (h : PairsApart c.paths) (m : Mems) (w : Writer) (obj n k v : Nat) (bs : Bytes) :
    PairsApart (c.writeSpecial m w obj n k v bs).2.1.paths := by
  have other : ∀ x ∈ (c.writeLinkScalar obj n k v).or ((c.writePowerScalar obj n k v).or ((c.writeCoreScalar obj n k v).or
      (c.writeGuardScalar w obj v bs))), PairsApart x.2.paths := by
    intro x found
    rcases Option.or_eq_some_iff.mp found with link | ⟨-, found⟩
    · exact c.writeLinkScalar_paths _ _ _ _ _ link ▸ h
    · rcases Option.or_eq_some_iff.mp found with power | ⟨-, found⟩
      · exact Hub.writePowerScalar_apart h _ _ _ _ _ power
      · rcases Option.or_eq_some_iff.mp found with core | ⟨-, guard⟩
        · exact c.writeCoreScalar_paths _ _ _ _ _ core ▸ h
        · exact c.writeGuardScalar_paths _ _ _ _ _ guard ▸ h
  unfold Hub.writeSpecial
  simp only
  split
  case h_11 =>
    split
    · next st d found => exact other (st, d) found
    · exact h
  all_goals simp [h]

theorem Hub.writeScalar_apart {c : Hub} (h : PairsApart c.paths) (m : Mems) (w : Writer) {r : Row} (off : r.OffPath) (n k : Nat) (bs : Bytes) :
    PairsApart (c.writeScalar m w r n k bs).2.1.paths := by
  have plain := c.writePlain_paths r n k (leNat bs) (Row.scalarObj_offPath off n k)
  simp [Hub.writeScalar, plain, h]

theorem Hub.offPath_of_writeCheck {c : Hub} {l : Level} {index sub off count limit n : Nat} {r : Row}
    (ok : c.writeCheck l index sub off count limit = .ok) (found : c.object index sub = some (r, n)) : r.OffPath := by
  have located : locate index sub = some (r, n) := by
    unfold Hub.object at found
    split at found
    · split at found
      · cases found
        assumption
      · cases found
    · cases found
  refine Row.offPath_of_writes (locate_mem located) (l := l) ?_
  by_contra denied
  simp [Hub.writeCheck, found, Bool.eq_false_iff.mpr denied] at ok

@[simp] theorem Hub.writeObject_apart {c : Hub} (h : PairsApart c.paths) (m : Mems) (w : Writer) (index sub off : Nat) (bs : Bytes) (limit : Nat) :
    PairsApart (c.writeObject m w index sub off bs limit).2.1.paths := by
  unfold Hub.writeObject
  split
  · next r n ok found =>
    have written := Hub.writeScalar_apart h m w (Hub.offPath_of_writeCheck ok found) n (sub - r.sub) bs
    dsimp only
    repeat' split
    all_goals simp [h, written]
  · exact h

/-! ## The rigger bridge -/

@[simp] theorem Hub.objectWrite_apart {c : Hub} (h : PairsApart c.paths) (m : Mems) (req : RigPacket) :
    PairsApart (c.objectWrite m req).2.2.1.paths := by
  unfold Hub.objectWrite
  simp only
  split <;> simp [h]

@[simp] theorem Hub.rigWrite_apart {c : Hub} (h : PairsApart c.paths) (m : Mems) (req : RigPacket) : PairsApart (c.rigWrite m req).2.2.1.paths := by
  have written := c.winWrite_paths m req.window.toNat req.offset.toNat (req.data.take req.len.toNat)
  unfold Hub.rigWrite
  split
  · exact h
  · split
    · exact Hub.objectWrite_apart h m req
    · exact written.symm ▸ h

@[simp] theorem Hub.rigServe_apart {c : Hub} (h : PairsApart c.paths) (m : Mems) (op : Nat) (req : RigPacket) :
    PairsApart (c.rigServe m op req).1.paths := by
  unfold Hub.rigServe
  split
  · simp only
    split <;> simp [h]
  all_goals simp [h]

@[simp] theorem Hub.rigArrives_apart {c : Hub} (h : PairsApart c.paths) (m : Mems) (op : Nat) (req : RigPacket) :
    PairsApart (c.rigArrives m op req).1.paths := by
  unfold Hub.rigArrives
  extract_lets claimed src
  split
  · simp [h]
  · split
    · simp [h]
    · split
      · simp [h]
      · split
        · simp [h]
        · split
          · split <;> simp [h]
          · simp [h]

/-! ## The Fevik Object Protocol -/

@[simp] theorem Hub.wrote_apart {c : Hub} (h : PairsApart c.paths) (kind : Nat) (x : FopMsg) (st : Status) (count : Nat) :
    PairsApart (c.wrote kind x st count).paths := by simp [Hub.wrote, h]

@[simp] theorem Hub.fopWrite_apart {c : Hub} (h : PairsApart c.paths) (m : Mems) (lvl : Level) (x : FopMsg) :
    PairsApart (c.fopWrite m lvl x).1.paths := by simp [Hub.fopWrite, h]

@[simp] theorem Hub.fillBlock_apart {c : Hub} (h : PairsApart c.paths) (m : Mems) (lvl : Level) (s : Session) (kind : Nat) (x : FopMsg)
    (b : OpenBlock) : PairsApart (c.fillBlock m lvl s kind x b).1.paths := by simp [Hub.fillBlock, h]

@[simp] theorem Hub.fopWriteBlock_apart {c : Hub} (h : PairsApart c.paths) (m : Mems) (lvl : Level) (s : Session) (x : FopMsg) :
    PairsApart (c.fopWriteBlock m lvl s x).1.paths := by simp [Hub.fopWriteBlock, h]

@[simp] theorem Hub.fopSegment_apart {c : Hub} (h : PairsApart c.paths) (m : Mems) (lvl : Level) (s : Session) (x : FopMsg) :
    PairsApart (c.fopSegment m lvl s x).1.paths := by
  unfold Hub.fopSegment
  simp only
  repeat' split
  all_goals simp [h]

@[simp] theorem Hub.fopExecute_apart {c : Hub} (h : PairsApart c.paths) (m : Mems) (s : Session) (kind : Nat) (x : FopMsg) :
    PairsApart (c.fopExecute m s kind x).1.paths := by
  unfold Hub.fopExecute
  repeat' split
  all_goals simp [h]

@[simp] theorem Hub.fopInSession_apart {c : Hub} (h : PairsApart c.paths) (m : Mems) (s : Session) (kind : Nat) (x : FopMsg) :
    PairsApart (c.fopInSession m s kind x).1.paths := by
  unfold Hub.fopInSession
  simp only
  repeat' split
  all_goals simp [h]

@[simp] theorem Hub.fopRun_apart {c : Hub} (h : PairsApart c.paths) (m : Mems) (kind : Nat) (x : FopMsg) :
    PairsApart (c.fopRun m kind x).1.paths := by
  unfold Hub.fopRun
  repeat' split
  all_goals simp [h]

@[simp] theorem Hub.fopArrives_apart {c : Hub} (h : PairsApart c.paths) (m : Mems) (kind : Nat) (x : FopMsg) :
    PairsApart (c.fopArrives m kind x).1.paths := by simp [Hub.fopArrives, h]

@[simp] theorem Hub.takeRequest_apart {c : Hub} (h : PairsApart c.paths) (m : Mems) : PairsApart (c.takeRequest m).1.paths := by
  simp [Hub.takeRequest, h]

@[simp] theorem Hub.doorbell_apart {c : Hub} (h : PairsApart c.paths) (m : Mems) (bs : Bytes) : PairsApart (c.doorbell m bs).1.paths := by
  simp [Hub.doorbell, h]

@[simp] theorem Hub.fopReceive_apart {c : Hub} (h : PairsApart c.paths) (m : Mems) (kind : Nat) (x : FopMsg) :
    PairsApart (c.fopReceive m kind x).1.paths := by simp [Hub.fopReceive, h]

@[simp] theorem Hub.fopBytes_apart {c : Hub} (h : PairsApart c.paths) (m : Mems) (t : Transport) (addr port : Nat) (raw : Bytes) :
    PairsApart (c.fopBytes m t addr port raw).1.paths := by simp [Hub.fopBytes, h]

@[simp] theorem Hub.uartLine_apart {c : Hub} (h : PairsApart c.paths) (m : Mems) (line : Bytes) : PairsApart (c.uartLine m line).1.paths := by
  unfold Hub.uartLine
  refine List.foldlRecOn (motive := fun cm : Hub × Mems => PairsApart cm.1.paths) _ _ h fun cm apart f _ => ?_
  split <;> simp [apart]

@[simp] theorem Hub.plainWrite_apart {c : Hub} (h : PairsApart c.paths) (m : Mems) (lvl : Level) (index sub off : Nat) (data : Bytes) :
    PairsApart (c.plainWrite m lvl index sub off data).1.paths := by simp [Hub.plainWrite, h]

end Sys2Proof.Machine
end

section
/-! Every command keeps the interlock, and so does every step (O5). -/
namespace Sys2Proof.Machine

-- One theorem after another: elaborated side by side they take more memory than the check allows.
set_option Elab.async false

/-! ## The forms in which a command acts -/

/-- A command after which the pairs stand apart. -/
def LandsApart (o : Host.Outcome State Fault Refusal) : Prop := ∀ t, o = .next t → PairsApart t.hub.paths

@[simp] theorem landsApart_next (t : State) : LandsApart (.next t) ↔ PairsApart t.hub.paths :=
  ⟨fun h => h t rfl, fun h _ e => by cases e; exact h⟩

@[simp] theorem landsApart_fault (f : Fault) : LandsApart (.fault f) := fun _ e => by cases e

@[simp] theorem landsApart_onHub (s : State) (f : Hub → Hub) : LandsApart (onHub s f) ↔ PairsApart (f s.hub).paths := landsApart_next _

@[simp] theorem landsApart_onAll (s : State) (f : Hub → Mems → Hub × Mems) : LandsApart (onAll s f) ↔ PairsApart (f s.hub s.mem).1.paths :=
  landsApart_next _

section
variable {s : State} (h : PairsApart s.hub.paths) {f : Hub → Hub} {g : Hub → Mems → Hub × Mems} (w : HeldWrite)
include h

@[simp] theorem landsApart_onDomains (hf : PairsApart (f s.hub).paths) : LandsApart (onDomains s f) := by simp [onDomains, h, hf]

@[simp] theorem landsApart_onDomainsAll (hg : PairsApart (g s.hub s.mem).1.paths) : LandsApart (onDomainsAll s g) := by simp [onDomainsAll, h, hg]

@[simp] theorem landsApart_onPorts (hf : PairsApart (f s.hub).paths) : LandsApart (onPorts s f) := by simp [onPorts, h, hf]

@[simp] theorem landsApart_onPortsAll (hg : PairsApart (g s.hub s.mem).1.paths) : LandsApart (onPortsAll s g) := by simp [onPortsAll, h, hg]

@[simp] theorem landsApart_onFeeds (hf : PairsApart (f s.hub).paths) : LandsApart (onFeeds s f) := by simp [onFeeds, h, hf]

@[simp] theorem landsApart_onWrite (hf : PairsApart (f s.hub).paths) : LandsApart (onWrite w s f) := by simp [onWrite, h, hf]

@[simp] theorem landsApart_onWriteAll (hg : PairsApart (g s.hub s.mem).1.paths) : LandsApart (onWriteAll w s g) := by simp [onWriteAll, h, hg]

@[simp] theorem landsApart_onUpdate (hg : PairsApart (g s.hub s.mem).1.paths) : LandsApart (onUpdate w s g) :=
  landsApart_onWriteAll h w (g := fun c m => c.recorded (g c m)) hg

end

section
variable {s : State} (h : PairsApart s.hub.paths)
include h

/-! ## Path table, groups and staging -/

@[simp] theorem execPathTableWrite_apart (lvl : Level) (first : Fin 16384) (entries : List PathEntry) :
    LandsApart (execPathTableWrite lvl first entries s) := by simp [execPathTableWrite, h]

@[simp] theorem execMcastTableWrite_apart (lvl : Level) (group : Fin 1024) (members : BitVec 32) (outTids : List (BitVec 16)) :
    LandsApart (execMcastTableWrite lvl group members outTids s) := by simp [execMcastTableWrite, h]

@[simp] theorem execStageTableWrite_apart (lvl : Level) (slot : Fin 256) (rec : StageRecord) : LandsApart (execStageTableWrite lvl slot rec s) := by
  simp [execStageTableWrite, h]

@[simp] theorem execStageMessage_apart (rec : StageRecord) (vid : Option VidMapping) : LandsApart (execStageMessage rec vid s) := by
  simp [execStageMessage, h]

/-! ## The switch core -/

@[simp] theorem execPacketReceive_apart (input : Fin 33) (pkt : Packet) : LandsApart (execPacketReceive input pkt s) := by simp [execPacketReceive, h]

@[simp] theorem execSpillMove_apart (q : Fin 264) : LandsApart (execSpillMove q s) := by
  refine landsApart_onDomains h ?_
  split <;> simp [h]

@[simp] theorem execRefillMove_apart (q : Fin 264) (dramError : Bool) : LandsApart (execRefillMove q dramError s) := by
  refine landsApart_onDomains h ?_
  split <;> simp [h]

@[simp] theorem execScrubRead_apart (word : Nat) (err : WordError) (owner : Option Nat) (collide : Bool) :
    LandsApart (execScrubRead word err owner collide s) := by
  unfold execScrubRead
  split
  · simp
  · refine landsApart_onDomains h ?_
    extract_lets failed read
    have same : read.paths = s.hub.paths := by
      simp only [read]
      repeat' split
      all_goals simp [failed]
    simp [same, h]

@[simp] theorem execScrubPaceCheck_apart (wordsDone wordsDue : Nat) : LandsApart (execScrubPaceCheck wordsDone wordsDue s) := by
  simp [execScrubPaceCheck, h]

@[simp] theorem execPoolSizeWrite_apart (lvl : Level) (pool : PoolSize) (value : BitVec 32) : LandsApart (execPoolSizeWrite lvl pool value s) := by
  simp [execPoolSizeWrite, h]

/-! ## The Cox -/

@[simp] theorem execReportReceive_apart (rep : Report) : LandsApart (execReportReceive rep s) := by simp [execReportReceive, h]

@[simp] theorem execProbeAck_apart (addr : BitVec 8) (uid : BitVec 64) (treeState : BitVec 8) : LandsApart (execProbeAck addr uid treeState s) := by
  simp [execProbeAck, h]

@[simp] theorem execProbeRetry_apart (addr : BitVec 8) : LandsApart (execProbeRetry addr s) := by simp [execProbeRetry, h]

@[simp] theorem execProbeTimeout_apart (addr : BitVec 8) : LandsApart (execProbeTimeout addr s) := by simp [execProbeTimeout, h]

@[simp] theorem execAddressHoldExpiry_apart (addr : BitVec 8) : LandsApart (execAddressHoldExpiry addr s) := by simp [execAddressHoldExpiry, h]

@[simp] theorem execRouteWrite_apart (lvl : Level) (route : Fin 4096) (req : RouteRequest) : LandsApart (execRouteWrite lvl route req s) := by
  simp [execRouteWrite, h]

@[simp] theorem execStageFail_apart (hub : BitVec 8) (tid : BitVec 16) (status : BitVec 8) (activate : BitVec 64) :
    LandsApart (execStageFail hub tid status activate s) := by simp [execStageFail, h]

@[simp] theorem execAllotWrite_apart (lvl : Level) (route : Fin 4096) (min max : BitVec 32) (mode : BitVec 8) :
    LandsApart (execAllotWrite lvl route min max mode s) := by simp [execAllotWrite, h]

@[simp] theorem execPlanCompute_apart (elapsed : Nat) : LandsApart (execPlanCompute elapsed s) := by simp [execPlanCompute, h]

/-! ## Ethernet -/

@[simp] theorem execMacFrameReceive_apart (mac : Mac) (frame : EthFrame) : LandsApart (execMacFrameReceive mac frame s) := by
  simp [execMacFrameReceive, h]

@[simp] theorem execPauseFrame_apart (mac : Mac) (quanta : BitVec 16) : LandsApart (execPauseFrame mac quanta s) := by simp [execPauseFrame, h]

@[simp] theorem execPauseExpiry_apart (mac : Mac) : LandsApart (execPauseExpiry mac s) := by simp [execPauseExpiry, h]

@[simp] theorem execEthFrameEgress_apart (mac : Mac) (tid : Fin 16384) : LandsApart (execEthFrameEgress mac tid s) := by
  refine landsApart_onDomains h ?_
  simp only
  split <;> simp [h]

@[simp] theorem execMacLinkDown_apart (mac : Mac) : LandsApart (execMacLinkDown mac s) := by simp [execMacLinkDown, h]

@[simp] theorem execMacLinkUp_apart (mac : Mac) (rate : BitVec 8) : LandsApart (execMacLinkUp mac rate s) := by simp [execMacLinkUp, h]

/-! ## Field I/O -/

@[simp] theorem execFioCyclicReceive_apart (tid : Fin 16384) (payload : Bytes) : LandsApart (execFioCyclicReceive tid payload s) := by
  refine landsApart_onDomainsAll h ?_
  split <;> simp [h]

@[simp] theorem execFioStale_apart (rec : Fin 64) : LandsApart (execFioStale rec s) := by simp [execFioStale, h]

@[simp] theorem execFioRecordWrite_apart (lvl : Level) (rx : Bool) (rec : Fin 64) (val : FioRecord) :
    LandsApart (execFioRecordWrite lvl rx rec val s) := by simp [execFioRecordWrite, h]

@[simp] theorem execAcycSubmit_apart (lvl : Level) (slot : Fin 8) (msg : AcycMsg) : LandsApart (execAcycSubmit lvl slot msg s) := by
  simp [execAcycSubmit, h]

@[simp] theorem execAcycSend_apart (slot : Fin 8) : LandsApart (execAcycSend slot s) := by simp [execAcycSend, h]

@[simp] theorem execAcycReceive_apart (tid : Fin 16384) (info : BitVec 16) (payload : Bytes) : LandsApart (execAcycReceive tid info payload s) := by
  refine landsApart_onDomains h ?_
  split <;> simp [h]

/-! ## Egresses -/

@[simp] theorem execEgressSelect_apart (port : Port) (read : CellRead) : LandsApart (execEgressSelect port read s) := by
  refine landsApart_onDomains h ?_
  -- The fair choice by its lemma alone: else the splits below would unfold its recursion.
  have fair := Hub.drrNext_paths
  generalize Hub.drrNext = drr at fair ⊢
  extract_lets e drained noted timed pick
  have same : drained.paths = s.hub.paths := by simp [drained]
  have also : noted.paths = s.hub.paths := by simp [noted, same]
  have picked : pick.1.paths = s.hub.paths := by
    simp only [pick]
    clear_value noted timed
    repeat' split
    all_goals simp [fair, also]
  clear_value pick
  split
  · simp [same, h]
  · obtain ⟨d, _ | p⟩ := pick
    · simp [picked, h]
    · have left := d.dequeue_paths e p read
      dsimp only
      generalize d.dequeue e p read = gone at left ⊢
      obtain ⟨f, _ | out⟩ := gone
      all_goals simp [left, picked, h]

@[simp] theorem execAdapterEgress_apart (e : Fin 9) (read : CellRead) : LandsApart (execAdapterEgress e read s) := by
  refine landsApart_onDomains h ?_
  -- The fair choice by its lemma alone: else the splits below would unfold its recursion.
  have fair := Hub.drrNext_paths
  generalize Hub.drrNext = drr at fair ⊢
  extract_lets e drained first pick
  have same : drained.paths = s.hub.paths := by simp [drained]
  have picked : pick.1.paths = s.hub.paths := by
    simp only [pick]
    clear_value drained first
    split <;> simp [fair, same]
  clear_value pick
  obtain ⟨d, _ | p⟩ := pick
  · simp [picked, h]
  · have left := d.dequeue_paths e p read
    dsimp only
    generalize d.dequeue e p read = gone at left ⊢
    obtain ⟨f, _ | out⟩ := gone
    all_goals simp [left, picked, h]

/-! ## The link layer -/

@[simp] theorem execFlitTransmit_apart (p : Port) : LandsApart (execFlitTransmit p s) := by
  refine landsApart_onDomains h ?_
  extract_lets ptr idle next resent
  split
  · simp [h]
  · split
    · exact h
    · split
      · simp [resent, h]
      · split
        · simp [h]
        · split
          · rw [Hub.sendFlit_paths]
            simp [h]
          · rw [Hub.sendFlit_paths]
            exact h

@[simp] theorem execReplayTimeout_apart (p : Port) : LandsApart (execReplayTimeout p s) := by
  refine landsApart_onDomains h ?_
  split <;> simp [h]

@[simp] theorem execFlitReceive_apart (p : Port) (rx : FlitRx) : LandsApart (execFlitReceive p rx s) := by simp [execFlitReceive, h]

@[simp] theorem execLanesTrained_apart (p : Port) (gear txLanes rxLanes : Nat) : LandsApart (execLanesTrained p gear txLanes rxLanes s) := by
  simp [execLanesTrained, h]

@[simp] theorem execInitReceive_apart (p : Port) (init : InitRecord) : LandsApart (execInitReceive p init s) := by simp [execInitReceive, h]

@[simp] theorem execNonceRecord_apart (p : Port) (parity : Bool) (nonce : BitVec 96) (check : BitVec 16) :
    LandsApart (execNonceRecord p parity nonce check s) := by simp [execNonceRecord, h]

@[simp] theorem execInitTimeout_apart (p : Port) : LandsApart (execInitTimeout p s) := by simp [execInitTimeout, h]

@[simp] theorem execRetrainLimitExpiry_apart (p : Port) : LandsApart (execRetrainLimitExpiry p s) := by simp [execRetrainLimitExpiry, h]

@[simp] theorem execRetrainRequest_apart (lvl : Level) (p : Port) (value : Bool) : LandsApart (execRetrainRequest lvl p value s) := by
  simp [execRetrainRequest, h]

@[simp] theorem execQuietRequest_apart (p : Port) : LandsApart (execQuietRequest p s) := by simp [execQuietRequest, h]

@[simp] theorem execQuietAcknowledge_apart (p : Port) : LandsApart (execQuietAcknowledge p s) := by simp [execQuietAcknowledge, h]

@[simp] theorem execQuietWake_apart (p : Port) : LandsApart (execQuietWake p s) := by simp [execQuietWake, h]

@[simp] theorem execQuietWakeLead_apart (p : Port) : LandsApart (execQuietWakeLead p s) := by simp [execQuietWakeLead, h]

@[simp] theorem execWakeFail_apart (p : Port) : LandsApart (execWakeFail p s) := by simp [execWakeFail, h]

@[simp] theorem execCryptEnableWrite_apart (lvl : Level) (p : Port) (value : Bool) : LandsApart (execCryptEnableWrite lvl p value s) := by
  simp [execCryptEnableWrite, h]

@[simp] theorem execCreditLimitWrite_apart (lvl : Level) (p : Port) (cls : Fin 8) (value : BitVec 16) :
    LandsApart (execCreditLimitWrite lvl p cls value s) := by simp [execCreditLimitWrite, h]

/-! ## Key store, tamper, fuses and random numbers -/

@[simp] theorem execRootGenerate_apart (lvl : Level) (value : Bool) : LandsApart (execRootGenerate lvl value s) := by simp [execRootGenerate, h]

@[simp] theorem execAdvance_apart (lvl : Level) (port : Port) (value : BitVec 8) : LandsApart (execAdvance lvl port value s) := by
  simp [execAdvance, h]

@[simp] theorem execTamperDetect_apart (sources : BitVec 9) : LandsApart (execTamperDetect sources s) := by simp [execTamperDetect, h]

@[simp] theorem execKeyLoad_apart (lvl : Level) (transport : Transport) (slot engines : BitVec 8) (key : KeyOperand (BitVec 256)) :
    LandsApart (execKeyLoad lvl transport slot engines key s) := by simp [execKeyLoad, h]

@[simp] theorem execKeyErase_apart (lvl : Level) (slot : KeyOperand (BitVec 8)) : LandsApart (execKeyErase lvl slot s) := by simp [execKeyErase, h]

@[simp] theorem execKeyDerive_apart (lvl : Level) (req : KeyOperand DeriveRequest) : LandsApart (execKeyDerive lvl req s) := by
  simp [execKeyDerive, h]

@[simp] theorem execTamperClear_apart (lvl : Level) (value : Bool) : LandsApart (execTamperClear lvl value s) := by simp [execTamperClear, h]

@[simp] theorem execTamperConfigWrite_apart (lvl : Level) (item : TamperItem) (value : BitVec 16) :
    LandsApart (execTamperConfigWrite lvl item value s) := by simp [execTamperConfigWrite, h]

@[simp] theorem execRevokeKey0_apart (lvl : Level) (confirm : BitVec 16) : LandsApart (execRevokeKey0 lvl confirm s) := by simp [execRevokeKey0, h]

@[simp] theorem execRevokeKey1_apart (lvl : Level) (confirm : BitVec 16) : LandsApart (execRevokeKey1 lvl confirm s) := by simp [execRevokeKey1, h]

@[simp] theorem execBlowCosignLock_apart (lvl : Level) (confirm : BitVec 16) : LandsApart (execBlowCosignLock lvl confirm s) := by
  simp [execBlowCosignLock, h]

@[simp] theorem execRngHealthFail_apart : LandsApart (execRngHealthFail s) := by simp [execRngHealthFail, h]

@[simp] theorem execRngHealthPass_apart : LandsApart (execRngHealthPass s) := by simp [execRngHealthPass, h]

/-! ## Link lanes -/

@[simp] theorem execTsReceive_apart (p : Port) (lane : Fin 3) (rx : TsRx) : LandsApart (execTsReceive p lane rx s) := by
  refine landsApart_onDomains h ?_
  simp only
  repeat' split
  all_goals simp [h]

@[simp] theorem execReceiverDetect_apart (p : Port) (tx0 tx1 : Bool) : LandsApart (execReceiverDetect p tx0 tx1 s) := by simp [execReceiverDetect, h]

@[simp] theorem execWakeBurstsReceived_apart (p : Port) : LandsApart (execWakeBurstsReceived p s) := by simp [execWakeBurstsReceived, h]

@[simp] theorem execWakeTimeout_apart (p : Port) : LandsApart (execWakeTimeout p s) := by simp [execWakeTimeout, h]

@[simp] theorem execEqStep_apart (p : Port) (lane : Fin 3) (fom : BitVec 8) : LandsApart (execEqStep p lane fom s) := by
  refine landsApart_onDomains h ?_
  simp only
  repeat' split
  all_goals simp [h]

@[simp] theorem execRateSwitch_apart (p : Port) : LandsApart (execRateSwitch p s) := by simp [execRateSwitch, h]

@[simp] theorem execHoldLimitExpiry_apart (p : Port) : LandsApart (execHoldLimitExpiry p s) := by simp [execHoldLimitExpiry, h]

@[simp] theorem execPolarityTimeout_apart (p : Port) : LandsApart (execPolarityTimeout p s) := by simp [execPolarityTimeout, h]

@[simp] theorem execEqualiseLimit_apart (p : Port) : LandsApart (execEqualiseLimit p s) := by simp [execEqualiseLimit, h]

@[simp] theorem execLockTimeout_apart (p : Port) : LandsApart (execLockTimeout p s) := by simp [execLockTimeout, h]

@[simp] theorem execGearNegotiationTimeout_apart (p : Port) : LandsApart (execGearNegotiationTimeout p s) := by simp [execGearNegotiationTimeout, h]

@[simp] theorem execGearStepLimit_apart (p : Port) : LandsApart (execGearStepLimit p s) := by simp [execGearStepLimit, h]

@[simp] theorem execLanesIdleWake_apart (p : Port) : LandsApart (execLanesIdleWake p s) := by simp [execLanesIdleWake, h]

@[simp] theorem execLosAssert_apart (p : Port) (lane : Lane) : LandsApart (execLosAssert p lane s) := by simp [execLosAssert, h]

@[simp] theorem execLolAssert_apart (p : Port) (lane : Lane) : LandsApart (execLolAssert p lane s) := by simp [execLolAssert, h]

@[simp] theorem execLosDeassert_apart (p : Port) (lane : Lane) : LandsApart (execLosDeassert p lane s) := by simp [execLosDeassert, h]

@[simp] theorem execLolDeassert_apart (p : Port) (lane : Lane) : LandsApart (execLolDeassert p lane s) := by simp [execLolDeassert, h]

@[simp] theorem execEyeScanDone_apart (p : Port) (lane : Lane) (height width : BitVec 16) : LandsApart (execEyeScanDone p lane height width s) := by
  simp [execEyeScanDone, h]

@[simp] theorem execLinkEnableWrite_apart (lvl : Level) (p : Port) (value : Bool) : LandsApart (execLinkEnableWrite lvl p value s) := by
  simp [execLinkEnableWrite, h]

@[simp] theorem execGearMaxWrite_apart (lvl : Level) (p : Port) (value : BitVec 8) : LandsApart (execGearMaxWrite lvl p value s) := by
  simp [execGearMaxWrite, h]

@[simp] theorem execLaneUseWrite_apart (lvl : Level) (p : Port) (value : BitVec 8) : LandsApart (execLaneUseWrite lvl p value s) := by
  simp [execLaneUseWrite, h]

@[simp] theorem execReadyHoldWrite_apart (lvl : Level) (p : Port) (value : Bool) : LandsApart (execReadyHoldWrite lvl p value s) := by
  simp [execReadyHoldWrite, h]

/-! ## Test loops -/

@[simp] theorem execTestModeWrite_apart (lvl : Level) (p : Port) (value : BitVec 8) : LandsApart (execTestModeWrite lvl p value s) := by
  simp [execTestModeWrite, h]

@[simp] theorem execBitslip_apart (lvl : Level) (p : Port) (lane : Lane) (value : BitVec 8) : LandsApart (execBitslip lvl p lane value s) := by
  simp [execBitslip, h]

@[simp] theorem execCaptureAtWrite_apart (lvl : Level) (p : Port) (lane : Lane) (value : BitVec 8) (word : BitVec 64) :
    LandsApart (execCaptureAtWrite lvl p lane value word s) := by simp [execCaptureAtWrite, h]

@[simp] theorem execInjectModeWrite_apart (lvl : Level) (p : Port) (lane : Lane) (value : BitVec 8) :
    LandsApart (execInjectModeWrite lvl p lane value s) := by simp [execInjectModeWrite, h]

@[simp] theorem execInject_apart (p : Port) (lane : Lane) : LandsApart (execInject p lane s) := by simp [execInject, h]

@[simp] theorem execCheckerLock_apart (p : Port) (lane : Lane) : LandsApart (execCheckerLock p lane s) := by simp [execCheckerLock, h]

@[simp] theorem execCheckerLockLoss_apart (p : Port) (lane : Lane) : LandsApart (execCheckerLockLoss p lane s) := by simp [execCheckerLockLoss, h]

/-! ## Epolarex Link mode -/

@[simp] theorem execDiscoverIdentity_apart (p : Port) : LandsApart (execDiscoverIdentity p s) := by simp [execDiscoverIdentity, h]

@[simp] theorem execDiscoverSvids_apart (p : Port) : LandsApart (execDiscoverSvids p s) := by simp [execDiscoverSvids, h]

@[simp] theorem execDiscoverModes_apart (p : Port) (svid : BitVec 16) : LandsApart (execDiscoverModes p svid s) := by simp [execDiscoverModes, h]

@[simp] theorem execEnterMode_apart (p : Port) (svid : BitVec 16) (position : BitVec 3) (vdo : BitVec 32) :
    LandsApart (execEnterMode p svid position vdo s) := by simp [execEnterMode, h]

@[simp] theorem execExitMode_apart (p : Port) (svid : BitVec 16) : LandsApart (execExitMode p svid s) := by simp [execExitMode, h]

@[simp] theorem execAttention_apart (p : Port) (svid : BitVec 16) (vdo : BitVec 32) : LandsApart (execAttention p svid vdo s) := by
  simp [execAttention, h]

@[simp] theorem execModeEntryDelay_apart (p : Port) : LandsApart (execModeEntryDelay p s) := by simp [execModeEntryDelay, h]

@[simp] theorem execVdmAnswer_apart (p : Port) (ans : VdmAnswer) : LandsApart (execVdmAnswer p ans s) := by
  refine landsApart_onPorts h ?_
  extract_lets heard
  have same : heard.paths = s.hub.paths := by
    simp only [heard]
    split <;> simp
  clear_value heard
  split
  · simp [same, h]
  · generalize heard.get (H.vdmStep p) = asked
    have stays : PairsApart heard.paths := same ▸ h
    have fails (k : Nat) : PairsApart (heard.entryFails p k).paths := by simp [stays]
    have goesOn {d : Hub} (apart : PairsApart d.paths) (found : Prop) [Decidable found] (next reason : Nat) :
        PairsApart (if found then d.sendStep p next else d.entryFails p reason).paths := by split <;> simp [apart]
    -- One alternative of the answer's match at a time: it is too large to be split as a whole.
    cases ans with
    | identity x => match asked with
      | 1 =>
        have kept : PairsApart ((heard.put (O.partnerIdHeader p) x.toNat).sendStep p 2).paths := by simp [stays]
        exact kept
      | 0 | 2 | 3 | 4 | 5 | _ + 6 => exact stays
    | svids xs => match asked with
      | 2 => exact goesOn (d := heard.put (O.partnerSvids p) (svidBytes xs)) (by simp [stays]) _ 3 2
      | 0 | 1 | 3 | 4 | 5 | _ + 6 => exact stays
    | modes vs => match asked, vs with
      | 3, v :: _ => exact goesOn (d := heard.put (O.partnerModeVdo p) v.toNat) (by simp [stays]) _ 4 7
      | 3, [] => exact fails 2
      | 0, _ | 1, _ | 2, _ | 4, _ | 5, _ | _ + 6, _ => exact stays
    | enterAck => match asked with
      | 4 =>
        have kept : PairsApart ((heard.enterMode p).sendDue p).paths := by simp [stays]
        exact kept
      | 0 | 1 | 2 | 3 | 5 | _ + 6 => exact stays
    | exitAck => match asked with
      | 5 =>
        have kept : PairsApart ((heard.exitMode p).sendDue p).paths := by simp [stays]
        exact kept
      | 0 | 1 | 2 | 3 | 4 | _ + 6 => exact stays
    | nak => match asked with
      | 1 | 2 | 3 => exact fails 2
      | 4 => exact fails 3
      | 0 | 5 | _ + 6 => exact stays

@[simp] theorem execEntryWait_apart (p : Port) : LandsApart (execEntryWait p s) := by simp [execEntryWait, h]

@[simp] theorem execVdmResponseTimeout_apart (p : Port) : LandsApart (execVdmResponseTimeout p s) := by simp [execVdmResponseTimeout, h]

@[simp] theorem execEpxEnableWrite_apart (lvl : Level) (p : Port) (value : Bool) : LandsApart (execEpxEnableWrite lvl p value s) := by
  simp [execEpxEnableWrite, h]

/-! ## The PCI Express port -/

@[simp] theorem execPcieTlpReceive_apart (tlp : Tlp) : LandsApart (execPcieTlpReceive tlp s) := by simp [execPcieTlpReceive, h]

@[simp] theorem execRootPortTlpReceive_apart (fromTunnel : Bool) (tlp : Tlp) : LandsApart (execRootPortTlpReceive fromTunnel tlp s) := by
  simp [execRootPortTlpReceive, h]

@[simp] theorem execPcieTlpEgress_apart (creditP creditNp creditCpl : Bool) : LandsApart (execPcieTlpEgress creditP creditNp creditCpl s) := by
  refine landsApart_onDomains h ?_
  split <;> simp [h]

@[simp] theorem execPcieReleaseOnly_apart (tid : Fin 16384) : LandsApart (execPcieReleaseOnly tid s) := by simp [execPcieReleaseOnly, h]

@[simp] theorem execPcieHotReset_apart (vdp : Option (Fin 64)) : LandsApart (execPcieHotReset vdp s) := by
  refine landsApart_onDomains h ?_
  repeat' split
  all_goals simp [h]

@[simp] theorem execPcieLinkTraining_apart (speed width : BitVec 8) : LandsApart (execPcieLinkTraining speed width s) := by
  simp [execPcieLinkTraining, h]

@[simp] theorem execPcieLinkDown_apart : LandsApart (execPcieLinkDown s) := by simp [execPcieLinkDown, h]

@[simp] theorem execRpHotReset_apart (lvl : Level) (value : Bool) : LandsApart (execRpHotReset lvl value s) := by simp [execRpHotReset, h]

@[simp] theorem execVdpPoll_apart (vdp : Fin 64) (answer : Option VdpPoll) : LandsApart (execVdpPoll vdp answer s) := by
  refine landsApart_onDomains h ?_
  repeat' split
  all_goals simp [h]

@[simp] theorem execVdpTableWrite_apart (lvl : Level) (vdp : Fin 64) (down up : BitVec 16) : LandsApart (execVdpTableWrite lvl vdp down up s) := by
  simp [execVdpTableWrite, h]

@[simp] theorem execBar2Access_apart (offset : Fin 65536) (write : Bool) (data : Bytes) : LandsApart (execBar2Access offset write data s) := by
  simp [execBar2Access, h]

/-! ## Cable attach -/

@[simp] theorem execDrpToggle_apart (p : Port) : LandsApart (execDrpToggle p s) := by simp [execDrpToggle, h]

@[simp] theorem execCcTerminationSeen_apart (p : Port) (cc : CcView) : LandsApart (execCcTerminationSeen p cc s) := by
  refine landsApart_onPorts h ?_
  split <;> simp [h]

@[simp] theorem execCcDebounceExpiry_apart (p : Port) : LandsApart (execCcDebounceExpiry p s) := by simp [execCcDebounceExpiry, h]

@[simp] theorem execTryTimerExpiry_apart (p : Port) (timer : Fin 3) : LandsApart (execTryTimerExpiry p timer s) := by
  refine landsApart_onPorts h ?_
  repeat' split
  all_goals simp [h]

@[simp] theorem execCcDetach_apart (p : Port) : LandsApart (execCcDetach p s) := by simp [execCcDetach, h]

@[simp] theorem execErrorRecoveryTimer_apart (p : Port) : LandsApart (execErrorRecoveryTimer p s) := by simp [execErrorRecoveryTimer, h]

@[simp] theorem execPolicyWrite_apart (lvl : Level) (p : Port) (value : BitVec 8) : LandsApart (execPolicyWrite lvl p value s) := by
  simp [execPolicyWrite, h]

@[simp] theorem execPortDisableWrite_apart (lvl : Level) (p : Port) (value : Bool) : LandsApart (execPortDisableWrite lvl p value s) := by
  simp [execPortDisableWrite, h]

/-! ## USB Power Delivery -/

@[simp] theorem execSourceCapabilities_apart (p : Port) (epr : Bool) (pdos : List (BitVec 32)) :
    LandsApart (execSourceCapabilities p epr pdos s) := by simp [execSourceCapabilities, h]

@[simp] theorem execRequest_apart (p : Port) (epr : Bool) (rdo : BitVec 32) : LandsApart (execRequest p epr rdo s) := by simp [execRequest, h]

@[simp] theorem execAccept_apart (p : Port) : LandsApart (execAccept p s) := by
  refine landsApart_onPorts h ?_
  simp only
  repeat' split
  all_goals simp [h]

@[simp] theorem execPsRdy_apart (p : Port) : LandsApart (execPsRdy p s) := by
  refine landsApart_onPorts h ?_
  simp only
  repeat' split
  all_goals simp [h]

@[simp] theorem execEprModeEnter_apart (p : Port) : LandsApart (execEprModeEnter p s) := by simp [execEprModeEnter, h]

@[simp] theorem execEprModeExit_apart (p : Port) : LandsApart (execEprModeExit p s) := by simp [execEprModeExit, h]

@[simp] theorem execEprKeepalive_apart (p : Port) : LandsApart (execEprKeepalive p s) := by simp [execEprKeepalive, h]

@[simp] theorem execSrcTransitionTimer_apart (p : Port) : LandsApart (execSrcTransitionTimer p s) := by
  refine landsApart_onPorts h ?_
  split <;> simp [h]

@[simp] theorem execSoftReset_apart (p : Port) : LandsApart (execSoftReset p s) := by simp [execSoftReset, h]

@[simp] theorem execHardReset_apart (p : Port) : LandsApart (execHardReset p s) := by simp [execHardReset, h]

@[simp] theorem execSenderResponseTimer_apart (p : Port) : LandsApart (execSenderResponseTimer p s) := by simp [execSenderResponseTimer, h]

@[simp] theorem execPsTransitionTimer_apart (p : Port) : LandsApart (execPsTransitionTimer p s) := by simp [execPsTransitionTimer, h]

@[simp] theorem execNoResponseTimer_apart (p : Port) : LandsApart (execNoResponseTimer p s) := by simp [execNoResponseTimer, h]

@[simp] theorem execSrcRecoverTimer_apart (p : Port) : LandsApart (execSrcRecoverTimer p s) := by simp [execSrcRecoverTimer, h]

@[simp] theorem execSourceEprKeepaliveTimer_apart (p : Port) : LandsApart (execSourceEprKeepaliveTimer p s) := by
  simp [execSourceEprKeepaliveTimer, h]

@[simp] theorem execSinkEprKeepaliveTimer_apart (p : Port) : LandsApart (execSinkEprKeepaliveTimer p s) := by simp [execSinkEprKeepaliveTimer, h]

@[simp] theorem execPpsRequestTimer_apart (p : Port) : LandsApart (execPpsRequestTimer p s) := by simp [execPpsRequestTimer, h]

@[simp] theorem execGoodcrcTimeout_apart (p : Port) (sop : Fin 3) : LandsApart (execGoodcrcTimeout p sop s) := by simp [execGoodcrcTimeout, h]

@[simp] theorem execPrSwap_apart (p : Port) : LandsApart (execPrSwap p s) := by
  refine landsApart_onPorts h ?_
  split
  · exact h
  · refine Hub.swapAsked_apart h p 1 fun d apart => ?_
    split <;> simp [apart]

@[simp] theorem execDrSwap_apart (p : Port) : LandsApart (execDrSwap p s) := by simp [execDrSwap, h]

@[simp] theorem execVconnSwap_apart (p : Port) : LandsApart (execVconnSwap p s) := by simp [execVconnSwap, h]

@[simp] theorem execSwapRequestPrSwap_apart (lvl : Level) (p : Port) : LandsApart (execSwapRequestPrSwap lvl p s) := by
  simp [execSwapRequestPrSwap, h]

@[simp] theorem execSwapRequestDrSwap_apart (lvl : Level) (p : Port) : LandsApart (execSwapRequestDrSwap lvl p s) := by
  simp [execSwapRequestDrSwap, h]

@[simp] theorem execSwapRequestVconnSwap_apart (lvl : Level) (p : Port) : LandsApart (execSwapRequestVconnSwap lvl p s) := by
  simp [execSwapRequestVconnSwap, h]

@[simp] theorem execPdWait_apart (p : Port) : LandsApart (execPdWait p s) := by
  refine landsApart_onPorts h ?_
  simp only
  repeat' split
  all_goals simp [h]

@[simp] theorem execReject_apart (p : Port) : LandsApart (execReject p s) := by
  refine landsApart_onPorts h ?_
  simp only
  repeat' split
  all_goals simp [h]

@[simp] theorem execSwapRetryTimer_apart (p : Port) : LandsApart (execSwapRetryTimer p s) := by simp [execSwapRetryTimer, h]

@[simp] theorem execVconnStableTimer_apart (p : Port) : LandsApart (execVconnStableTimer p s) := by simp [execVconnStableTimer, h]

@[simp] theorem execCableDiscoveryRetry_apart (p : Port) : LandsApart (execCableDiscoveryRetry p s) := by simp [execCableDiscoveryRetry, h]

@[simp] theorem execCableIdentity_apart (p : Port) (cable : CableMarker) : LandsApart (execCableIdentity p cable s) := by simp [execCableIdentity, h]

@[simp] theorem execSendSourceCapTimer_apart (p : Port) : LandsApart (execSendSourceCapTimer p s) := by simp [execSendSourceCapTimer, h]

@[simp] theorem execVconnOvercurrent_apart (p : Port) (milliamps : BitVec 16) : LandsApart (execVconnOvercurrent p milliamps s) := by
  simp [execVconnOvercurrent, h]

@[simp] theorem execSourceSettingsWrite_apart (lvl : Level) (p : Port) (setting : SourceSetting) (value : BitVec 16) :
    LandsApart (execSourceSettingsWrite lvl p setting value s) := by simp [execSourceSettingsWrite, h]

@[simp] theorem execStage1ContractTimeout_apart (p : Port) : LandsApart (execStage1ContractTimeout p s) := by simp [execStage1ContractTimeout, h]

@[simp] theorem execGetSourceCap_apart (p : Port) : LandsApart (execGetSourceCap p s) := by simp [execGetSourceCap, h]

@[simp] theorem execGetSinkCap_apart (p : Port) : LandsApart (execGetSinkCap p s) := by simp [execGetSinkCap, h]

@[simp] theorem execGetRevision_apart (p : Port) : LandsApart (execGetRevision p s) := by simp [execGetRevision, h]

@[simp] theorem execGetStatus_apart (p : Port) : LandsApart (execGetStatus p s) := by simp [execGetStatus, h]

@[simp] theorem execPdUnsupported_apart (p : Port) (sop : Fin 3) (_msg : BitVec 8) : LandsApart (execPdUnsupported p sop _msg s) := by
  simp [execPdUnsupported, h]

/-! ## Display heads and DRAM -/

@[simp] theorem execHeadModeWrite_apart (lvl : Level) (head : Head) (value : BitVec 8) : LandsApart (execHeadModeWrite lvl head value s) := by
  simp [execHeadModeWrite, h]

@[simp] theorem execTimingWrite_apart (lvl : Level) (head : Head) (item : Fin 10) (value : BitVec 32) :
    LandsApart (execTimingWrite lvl head item value s) := by simp [execTimingWrite, h]

@[simp] theorem execPairLockWrite_apart (lvl : Level) (head : Head) (value : Bool) : LandsApart (execPairLockWrite lvl head value s) := by
  simp [execPairLockWrite, h]

@[simp] theorem execCapFormatWrite_apart (lvl : Level) (head : Head) (value : BitVec 8) : LandsApart (execCapFormatWrite lvl head value s) := by
  simp [execCapFormatWrite, h]

@[simp] theorem execCommit_apart (lvl : Level) (head : Head) (mask : BitVec 8) : LandsApart (execCommit lvl head mask s) := by simp [execCommit, h]

@[simp] theorem execLatchEdge_apart (head : Head) : LandsApart (execLatchEdge head s) := by simp [execLatchEdge, h]

@[simp] theorem execUnderrun_apart (head : Head) (line : BitVec 16) : LandsApart (execUnderrun head line s) := by simp [execUnderrun, h]

@[simp] theorem execHpdRise_apart (head : Head) (sink : SinkCaps) : LandsApart (execHpdRise head sink s) := by simp [execHpdRise, h]

@[simp] theorem execHpdFall_apart (head : Head) : LandsApart (execHpdFall head s) := by simp [execHpdFall, h]

@[simp] theorem execIrqHpd_apart (head : Head) (linkLost : Bool) (sink : SinkCaps) : LandsApart (execIrqHpd head linkLost sink s) := by
  simp [execIrqHpd, h]

@[simp] theorem execHpdLowHoldEnd_apart (head : Head) : LandsApart (execHpdLowHoldEnd head s) := by simp [execHpdLowHoldEnd, h]

@[simp] theorem execSinkRetraining_apart (head : Head) (link : Option SinkLink) : LandsApart (execSinkRetraining head link s) := by
  refine landsApart_onDomains h ?_
  repeat' split
  all_goals simp [h]

@[simp] theorem execCaptureFrame_apart (head : Head) (attr : StreamAttr) (lines : List (List Pixel)) :
    LandsApart (execCaptureFrame head attr lines s) := by
  refine landsApart_onDomains h ?_
  simp only
  split <;> simp [h]

@[simp] theorem execSdpReceive_apart (head : Head) (line : BitVec 13) (audio : Bool) (data : Bytes) :
    LandsApart (execSdpReceive head line audio data s) := by
  refine landsApart_onDomains h ?_
  simp only
  split <;> simp [h]

@[simp] theorem execPassThroughPacket_apart (head : Head) (pkt : Packet) : LandsApart (execPassThroughPacket head pkt s) := by
  refine landsApart_onDomains h ?_
  split <;> simp [h]

@[simp] theorem execStreamLost_apart (head : Head) : LandsApart (execStreamLost head s) := by simp [execStreamLost, h]

@[simp] theorem execSpillSizeWrite_apart (lvl : Level) (value : BitVec 8) : LandsApart (execSpillSizeWrite lvl value s) := by
  simp [execSpillSizeWrite, h]

@[simp] theorem execDramScrub_apart (word : Nat) (err : WordError) (collide : Bool) : LandsApart (execDramScrub word err collide s) := by
  unfold execDramScrub
  split
  · simp
  · refine landsApart_onDomainsAll h ?_
    extract_lets finish failed
    have same (d : Hub) : (finish d).paths = d.paths := by
      simp only [finish]
      split <;> simp
    repeat' split
    all_goals simp [same, failed, h]

@[simp] theorem execDramScrubPace_apart (wordsDone wordsDue : Nat) : LandsApart (execDramScrubPace wordsDone wordsDue s) := by
  simp [execDramScrubPace, h]

/-! ## Power paths and measurement -/

@[simp] theorem execPathTurnOn_apart (p : Port) (sink : Bool) : LandsApart (execPathTurnOn p sink s) := by simp [execPathTurnOn, h]

@[simp] theorem execConverterSettled_apart (p : Port) : LandsApart (execConverterSettled p s) := by simp [execConverterSettled, h]

@[simp] theorem execConverterTimeout_apart (p : Port) : LandsApart (execConverterTimeout p s) := by simp [execConverterTimeout, h]

@[simp] theorem execRampComplete_apart (p : Port) (sink : Bool) : LandsApart (execRampComplete p sink s) := by
  refine landsApart_onPorts h ?_
  extract_lets k on done
  have low : k < 2 := by cases sink <;> simp [k]
  split
  · exact h
  · next ramps =>
    have up : PairsApart on.paths := by
      simp [on, Hub.put_rising_apart h p k 2 (h.other p low (Decidable.not_not.mp ramps))]
    repeat' split
    all_goals simp [done, up]

@[simp] theorem execPathTurnOff_apart (p : Port) (sink : Bool) : LandsApart (execPathTurnOff p sink s) := by simp [execPathTurnOff, h]

@[simp] theorem execFastTrip_apart (p : Port) : LandsApart (execFastTrip p s) := by
  refine landsApart_onPorts h ?_
  split <;> simp [h]

@[simp] theorem execFaultTimerExpiry_apart (p : Port) : LandsApart (execFaultTimerExpiry p s) := by
  refine landsApart_onPorts h ?_
  split <;> simp [h]

@[simp] theorem execThermalLimit_apart (p : Port) (sink : Bool) : LandsApart (execThermalLimit p sink s) := by simp [execThermalLimit, h]

@[simp] theorem execReverseCurrent_apart (p : Port) : LandsApart (execReverseCurrent p s) := by
  refine landsApart_onPorts h ?_
  split <;> simp [h]

@[simp] theorem execPowerPathTick_apart (p : Port) (cmp : Comparators) : LandsApart (execPowerPathTick p cmp s) := by
  refine landsApart_onPorts h ?_
  extract_lets gates trip latched active limited ticked dropped vbus sent
  have before : PairsApart limited.paths := by simp [limited, latched, gates, h]
  have after : PairsApart ticked.paths := by
    simp only [ticked]
    cases active <;> simp [before]
  exact Hub.each_apart (by simp [sent, vbus, dropped, after]) _ fun d k apart => Hub.tryRamp_apart apart p k

@[simp] theorem execCoolDownExpiry_apart (p : Port) (sink : Bool) : LandsApart (execCoolDownExpiry p sink s) := by
  refine landsApart_onPorts h ?_
  extract_lets k
  split
  · have cooled := Hub.put_rest_apart h p k (v := 0) (by simp) (by simp)
    simp [cooled]
  · exact h

@[simp] theorem execRetryHold_apart (p : Port) : LandsApart (execRetryHold p s) := by simp [execRetryHold, h]

@[simp] theorem execFaultClear_apart (lvl : Level) (p : Port) (value : Bool) : LandsApart (execFaultClear lvl p value s) := by
  simp [execFaultClear, h]

@[simp] theorem execAdcConversion_apart (sample : AdcSample) : LandsApart (execAdcConversion sample s) := by
  refine landsApart_onPorts h ?_
  split <;> simp [h]

/-! ## The Umpire -/

@[simp] theorem execUmpireEvent_apart (cycle : List SourceEvent) : LandsApart (execUmpireEvent cycle s) := by simp [execUmpireEvent, h]

@[simp] theorem execShadowWindowClose_apart (reaction : BitVec 16) : LandsApart (execShadowWindowClose reaction s) := by
  refine (landsApart_onHub _ _).mpr ?_
  split <;> simp [h]

@[simp] theorem execReactionTimeout_apart (reaction : BitVec 16) : LandsApart (execReactionTimeout reaction s) := by
  refine (landsApart_onHub _ _).mpr ?_
  split <;> simp [h]

@[simp] theorem execFaultNTimeEnd_apart : LandsApart (execFaultNTimeEnd s) := by simp [execFaultNTimeEnd, h]

@[simp] theorem execFaultNRelease_apart (lvl : Level) (value : Bool) : LandsApart (execFaultNRelease lvl value s) := by simp [execFaultNRelease, h]

@[simp] theorem execFirstClear_apart (lvl : Level) (value : Bool) : LandsApart (execFirstClear lvl value s) := by simp [execFirstClear, h]

@[simp] theorem execStatusClear_apart (lvl : Level) (word : Fin 3) (value : BitVec 32) : LandsApart (execStatusClear lvl word value s) := by
  simp [execStatusClear, h]

@[simp] theorem execSourceConfigWrite_apart (lvl : Level) (source : Fin 96) (val : SourceConfig) :
    LandsApart (execSourceConfigWrite lvl source val s) := by simp [execSourceConfigWrite, h]

@[simp] theorem execDegradedClear_apart (lvl : Level) (value : BitVec 32) : LandsApart (execDegradedClear lvl value s) := by
  simp [execDegradedClear, h]

/-! ## Reset and start-up -/

@[simp] theorem execResetRelease_apart (straps : BitVec 2) (powered : List PoweredPort) : LandsApart (execResetRelease straps powered s) := by
  simp [execResetRelease, h]

@[simp] theorem execFatalResetRelease_apart (powered : List PoweredPort) : LandsApart (execFatalResetRelease powered s) := by
  simp [execFatalResetRelease, h]

@[simp] theorem execAonPowerOn_apart : LandsApart (execAonPowerOn s) := by simp [execAonPowerOn, h]

@[simp] theorem execResetNAssert_apart : LandsApart (execResetNAssert s) := by simp [execResetNAssert, h]

@[simp] theorem execPerstAssert_apart : LandsApart (execPerstAssert s) := by simp [execPerstAssert, h]

@[simp] theorem execPerstDeassert_apart : LandsApart (execPerstDeassert s) := by simp [execPerstDeassert, h]

@[simp] theorem execRailFault_apart (rail : Fin 14) : LandsApart (execRailFault rail s) := by simp [execRailFault, h]

@[simp] theorem execVbatPowerOn_apart : LandsApart (execVbatPowerOn s) := by simp [execVbatPowerOn, h]

/-! ## Settings and what follows a response -/

@[simp] theorem execSettingsSave_apart (lvl : Level) (value : Bool) : LandsApart (execSettingsSave lvl value s) := by simp [execSettingsSave, h]

@[simp] theorem execFactoryRestore_apart (lvl : Level) (value : Bool) : LandsApart (execFactoryRestore lvl value s) := by simp [execFactoryRestore, h]

/-! ## The stroke -/

@[simp] theorem execPlan_apart (plan : PlanPacket) : LandsApart (execPlan plan s) := by simp [execPlan, h]

@[simp] theorem execStrokeBoundary_apart : LandsApart (execStrokeBoundary s) := by simp [execStrokeBoundary, h]

@[simp] theorem execDriveWindowClose_apart (port : Port) : LandsApart (execDriveWindowClose port s) := by
  refine landsApart_onDomains h ?_
  simp only
  repeat' split
  all_goals simp [h]

@[simp] theorem execGrantWrite_apart (lvl : Level) (entry : Fin 16384) (grant : BitVec 32) : LandsApart (execGrantWrite lvl entry grant s) := by
  simp [execGrantWrite, h]

@[simp] theorem execShaperWrite_apart (lvl : Level) (shaper : Fin 4096) (mode : BitVec 8) (rate : BitVec 32) :
    LandsApart (execShaperWrite lvl shaper mode rate s) := by simp [execShaperWrite, h]

@[simp] theorem execPolicerWrite_apart (lvl : Level) (policer : Fin 4096) (mode : BitVec 8) (rate : BitVec 32) :
    LandsApart (execPolicerWrite lvl policer mode rate s) := by simp [execPolicerWrite, h]

@[simp] theorem execQuantumWrite_apart (lvl : Level) (q : Fin 264) (value : BitVec 32) : LandsApart (execQuantumWrite lvl q value s) := by
  simp [execQuantumWrite, h]

@[simp] theorem execHistClear_apart (lvl : Level) (delay : Bool) (q : Fin 264) (bins : List (BitVec 32)) :
    LandsApart (execHistClear lvl delay q bins s) := by simp [execHistClear, h]

@[simp] theorem execDriveWindowWrite_apart (lvl : Level) (value : BitVec 32) : LandsApart (execDriveWindowWrite lvl value s) := by
  simp [execDriveWindowWrite, h]

/-! ## Sleep states -/

@[simp] theorem execSleepSelect_apart (nextKnown : Option Nat) (toBoundary : Nat) : LandsApart (execSleepSelect nextKnown toBoundary s) := by
  simp [execSleepSelect, h]

@[simp] theorem execExitStart_apart (powered : List PoweredPort) : LandsApart (execExitStart powered s) := by simp [execExitStart, h]

@[simp] theorem execWake_apart (source : Fin 6) (powered : List PoweredPort) : LandsApart (execWake source powered s) := by simp [execWake, h]

@[simp] theorem execSleepMaxWrite_apart (lvl : Level) (value : BitVec 8) : LandsApart (execSleepMaxWrite lvl value s) := by
  simp [execSleepMaxWrite, h]

/-! ## Supply-sag stages -/

@[simp] theorem execSagStageEnter_apart (stage : Fin 5) : LandsApart (execSagStageEnter stage s) := by simp [execSagStageEnter, h]

@[simp] theorem execSagStageClear_apart (stage : Fin 5) : LandsApart (execSagStageClear stage s) := by simp [execSagStageClear, h]

@[simp] theorem execSettingsSaveDone_apart (ok : Bool) : LandsApart (execSettingsSaveDone ok s) := by simp [execSettingsSaveDone, h]

/-! ## Firmware update -/

@[simp] theorem execTransferOpen_apart (lvl : Level) (target : BitVec 8) (size : BitVec 32) (ident : BitVec 64) :
    LandsApart (execTransferOpen lvl target size ident s) := by simp [execTransferOpen, h]

@[simp] theorem execTransferAbort_apart (lvl : Level) (value : Bool) : LandsApart (execTransferAbort lvl value s) := by simp [execTransferAbort, h]

@[simp] theorem execImageBlockWrite_apart (lvl : Level) (block : Nat) (data : Bytes) (crc : BitVec 32) :
    LandsApart (execImageBlockWrite lvl block data crc s) := by simp [execImageBlockWrite, h]

@[simp] theorem execImageBlockProgrammed_apart : LandsApart (execImageBlockProgrammed s) := by simp [execImageBlockProgrammed, h]

@[simp] theorem execVerify_apart (lvl : Level) (value : Bool) : LandsApart (execVerify lvl value s) := by simp [execVerify, h]

@[simp] theorem execVerifyDone_apart : LandsApart (execVerifyDone s) := by simp [execVerifyDone, h]

@[simp] theorem execActivateNow_apart (lvl : Level) : LandsApart (execActivateNow lvl s) := by simp [execActivateNow, h]

@[simp] theorem execActivateDeferred_apart (lvl : Level) : LandsApart (execActivateDeferred lvl s) := by simp [execActivateDeferred, h]

@[simp] theorem execActivateCancel_apart (lvl : Level) : LandsApart (execActivateCancel lvl s) := by simp [execActivateCancel, h]

@[simp] theorem execActivationStart_apart : LandsApart (execActivationStart s) := by simp [execActivationStart, h]

@[simp] theorem execLineRunChange_apart (level : Bool) : LandsApart (execLineRunChange level s) := by simp [execLineRunChange, h]

@[simp] theorem execUpdateLockWrite_apart (lvl : Level) (value : Bool) : LandsApart (execUpdateLockWrite lvl value s) := by
  simp [execUpdateLockWrite, h]

@[simp] theorem execLoadingDone_apart : LandsApart (execLoadingDone s) := by simp [execLoadingDone, h]

@[simp] theorem execPreparingDone_apart (selfTestsPass : Bool) : LandsApart (execPreparingDone selfTestsPass s) := by simp [execPreparingDone, h]

@[simp] theorem execHandoverStart_apart : LandsApart (execHandoverStart s) := by simp [execHandoverStart, h]

@[simp] theorem execConfirm_apart (lvl : Level) (value : Bool) : LandsApart (execConfirm lvl value s) := by simp [execConfirm, h]

@[simp] theorem execRevert_apart (lvl : Level) (value : Bool) : LandsApart (execRevert lvl value s) := by simp [execRevert, h]

@[simp] theorem execConfirmWindowExpiry_apart : LandsApart (execConfirmWindowExpiry s) := by simp [execConfirmWindowExpiry, h]

@[simp] theorem execRecoveryRequest_apart (lvl : Level) (value : Bool) : LandsApart (execRecoveryRequest lvl value s) := by
  simp [execRecoveryRequest, h]

@[simp] theorem execRomBoot_apart (lvl : Level) (value : Bool) : LandsApart (execRomBoot lvl value s) := by simp [execRomBoot, h]

/-! ## The rigger bridge -/

@[simp] theorem execRigRead_apart (req : RigPacket) : LandsApart (execRigRead req s) := by simp [execRigRead, h]

@[simp] theorem execRigWrite_apart (req : RigPacket) : LandsApart (execRigWrite req s) := by simp [execRigWrite, h]

@[simp] theorem execRigPostedWrite_apart (req : RigPacket) : LandsApart (execRigPostedWrite req s) := by simp [execRigPostedWrite, h]

@[simp] theorem execRigFlush_apart (req : RigPacket) : LandsApart (execRigFlush req s) := by simp [execRigFlush, h]

@[simp] theorem execRigClaim_apart (req : RigPacket) : LandsApart (execRigClaim req s) := by simp [execRigClaim, h]

@[simp] theorem execRigRelease_apart (req : RigPacket) : LandsApart (execRigRelease req s) := by simp [execRigRelease, h]

@[simp] theorem execReadRsp_apart (rsp : RigPacket) : LandsApart (execReadRsp rsp s) := by simp [execReadRsp, h]

@[simp] theorem execWriteRsp_apart (rsp : RigPacket) : LandsApart (execWriteRsp rsp s) := by simp [execWriteRsp, h]

@[simp] theorem execClaimRsp_apart (rsp : RigPacket) : LandsApart (execClaimRsp rsp s) := by simp [execClaimRsp, h]

@[simp] theorem execReleaseRsp_apart (rsp : RigPacket) : LandsApart (execReleaseRsp rsp s) := by simp [execReleaseRsp, h]

@[simp] theorem execPostedError_apart (rsp : RigPacket) : LandsApart (execPostedError rsp s) := by simp [execPostedError, h]

@[simp] theorem execFlushRsp_apart (rsp : RigPacket) : LandsApart (execFlushRsp rsp s) := by simp [execFlushRsp, h]

@[simp] theorem execPrefetchData_apart (rsp : RigPacket) : LandsApart (execPrefetchData rsp s) := by simp [execPrefetchData, h]

@[simp] theorem execRetryTime_apart (tag : BitVec 12) : LandsApart (execRetryTime tag s) := by
  refine landsApart_onDomains h ?_
  split <;> simp [h]

@[simp] theorem execBulkIdle_apart (hub : BitVec 8) (window : Fin 32) : LandsApart (execBulkIdle hub window s) := by simp [execBulkIdle, h]

@[simp] theorem execClaimMax_apart : LandsApart (execClaimMax s) := by simp [execClaimMax, h]

@[simp] theorem execBackoffTime_apart (hub : BitVec 8) : LandsApart (execBackoffTime hub s) := by simp [execBackoffTime, h]

@[simp] theorem execPrefetchLife_apart (line : Fin 64) : LandsApart (execPrefetchLife line s) := by
  refine landsApart_onDomains h ?_
  split <;> simp [h]

@[simp] theorem execBar4Write_apart (offset : BitVec 64) (bulk : Bool) (data : Bytes) : LandsApart (execBar4Write offset bulk data s) := by
  refine landsApart_onDomains h ?_
  split <;> simp [h]

@[simp] theorem execBar4Read_apart (requester : BitVec 16) (tag : BitVec 10) (offset : BitVec 64) (len : Nat) :
    LandsApart (execBar4Read requester tag offset len s) := by
  refine landsApart_onDomains h ?_
  split <;> simp [h]

@[simp] theorem execApertureTimeout_apart (requester : BitVec 16) (tag : BitVec 10) : LandsApart (execApertureTimeout requester tag s) := by
  refine landsApart_onDomains h ?_
  split <;> simp [h]

@[simp] theorem execRequestSlotSubmit_apart (lvl : Level) (slot : Fin 4) (req : SlotRequest) : LandsApart (execRequestSlotSubmit lvl slot req s) := by
  simp [execRequestSlotSubmit, h]

@[simp] theorem execTargetWindowsWrite_apart (lvl : Level) (window : Fin 32) (val : TargetWindow) :
    LandsApart (execTargetWindowsWrite lvl window val s) := by simp [execTargetWindowsWrite, h]

/-! ## Feeds -/

@[simp] theorem execFeedQualify_apart (feedB : Bool) : LandsApart (execFeedQualify feedB s) := by
  refine landsApart_onFeeds h ?_
  extract_lets f sound
  have same : sound.paths = s.hub.paths := Hub.put_paths _ _ (qualifiedObj_offPath f)
  repeat' split
  all_goals simp [same, h]

@[simp] theorem execFeedLoss_apart (feedB : Bool) (cause : FeedLossCause) : LandsApart (execFeedLoss feedB cause s) := by simp [execFeedLoss, h]

@[simp] theorem execFeedDeadTimeExpiry_apart : LandsApart (execFeedDeadTimeExpiry s) := by simp [execFeedDeadTimeExpiry, h]

@[simp] theorem execFeedRampComplete_apart : LandsApart (execFeedRampComplete s) := by simp [execFeedRampComplete, h]

@[simp] theorem execFeedRevert_apart : LandsApart (execFeedRevert s) := by simp [execFeedRevert, h]

/-! ## The Fevik Object Protocol -/

@[simp] theorem execFopRead_apart (msg : FopMsg) : LandsApart (execFopRead msg s) := by simp [execFopRead, h]

@[simp] theorem execFopWrite_apart (msg : FopMsg) : LandsApart (execFopWrite msg s) := by simp [execFopWrite, h]

@[simp] theorem execFopReadBlock_apart (msg : FopMsg) : LandsApart (execFopReadBlock msg s) := by simp [execFopReadBlock, h]

@[simp] theorem execFopWriteBlock_apart (msg : FopMsg) : LandsApart (execFopWriteBlock msg s) := by simp [execFopWriteBlock, h]

@[simp] theorem execFopSegment_apart (msg : FopMsg) : LandsApart (execFopSegment msg s) := by simp [execFopSegment, h]

@[simp] theorem execFopAbort_apart (write : Bool) (msg : FopMsg) : LandsApart (execFopAbort write msg s) := by simp [execFopAbort, h]

@[simp] theorem execSessionOpen_apart (msg : FopMsg) : LandsApart (execSessionOpen msg s) := by simp [execSessionOpen, h]

@[simp] theorem execSessionClose_apart (msg : FopMsg) : LandsApart (execSessionClose msg s) := by simp [execSessionClose, h]

@[simp] theorem execFopRelay_apart (transport : Transport) (addr : BitVec 128) (port : BitVec 16) (raw : Bytes) :
    LandsApart (execFopRelay transport addr port raw s) := by simp [execFopRelay, h]

@[simp] theorem execIdleTimeout_apart (session : BitVec 16) : LandsApart (execIdleTimeout session s) := by
  refine landsApart_onDomains h ?_
  split <;> simp [h]

@[simp] theorem execBlockTimeout_apart (session : BitVec 16) : LandsApart (execBlockTimeout session s) := by
  refine landsApart_onDomains h ?_
  split <;> simp [h]

@[simp] theorem execNotifySample_apart : LandsApart (execNotifySample s) := by simp [execNotifySample, h]

@[simp] theorem execNotifyPeriod_apart (sub : Fin 32) : LandsApart (execNotifyPeriod sub s) := by simp [execNotifyPeriod, h]

@[simp] theorem execNotifyTableWrite_apart (lvl : Level) (session : BitVec 16) (sub : Fin 32) (val : NotifyEntry) :
    LandsApart (execNotifyTableWrite lvl session sub val s) := by simp [execNotifyTableWrite, h]

@[simp] theorem execMailboxDoorbell_apart (request : Bytes) : LandsApart (execMailboxDoorbell request s) := by simp [execMailboxDoorbell, h]

@[simp] theorem execRspAck_apart : LandsApart (execRspAck s) := by
  refine landsApart_onDomainsAll h ?_
  split
  · exact h
  · dsimp only
    split
    · simp [h]
    · split <;> simp [h]

@[simp] theorem execNtfTailWrite_apart (value : BitVec 32) : LandsApart (execNtfTailWrite value s) := by simp [execNtfTailWrite, h]

@[simp] theorem execNeighborSolicitation_apart (target : BitVec 128) (kind : NeighborMsg) : LandsApart (execNeighborSolicitation target kind s) := by
  refine landsApart_onDomains h ?_
  split <;> simp [h]

@[simp] theorem execEchoRequest_apart (source : BitVec 128) (payload : Bytes) : LandsApart (execEchoRequest source payload s) := by
  simp [execEchoRequest, h]

@[simp] theorem execUdpWrongPort_apart (source : BitVec 128) (port : BitVec 16) : LandsApart (execUdpWrongPort source port s) := by
  simp [execUdpWrongPort, h]

@[simp] theorem execObjectWrite_apart (lvl : Level) (index : BitVec 16) (sub : BitVec 8) (offset : BitVec 32) (data : Bytes) :
    LandsApart (execObjectWrite lvl index sub offset data s) := by simp [execObjectWrite, h]

/-! ## Enumeration, Orphans and the time base -/

@[simp] theorem execJoinRepeat_apart : LandsApart (execJoinRepeat s) := by simp [execJoinRepeat, h]

@[simp] theorem execAssign_apart (p : Port) (parent addr depth : BitVec 8) (parentPort : Port) (isReturn : Bool) :
    LandsApart (execAssign p parent addr depth parentPort isReturn s) := by simp [execAssign, h]

@[simp] theorem execAssignAck_apart (p : Port) (addr : BitVec 8) (uid : BitVec 64) (isReturn : Bool) :
    LandsApart (execAssignAck p addr uid isReturn s) := by simp [execAssignAck, h]

@[simp] theorem execRefuse_apart (p : Port) (_reason : BitVec 8) : LandsApart (execRefuse p _reason s) := by simp [execRefuse, h]

@[simp] theorem execOrphan_apart (p : Port) : LandsApart (execOrphan p s) := by simp [execOrphan, h]

@[simp] theorem execOrphanHoldExpiry_apart : LandsApart (execOrphanHoldExpiry s) := by simp [execOrphanHoldExpiry, h]

@[simp] theorem execProbe_apart (dst : BitVec 8) : LandsApart (execProbe dst s) := by simp [execProbe, h]

@[simp] theorem execSync_apart (p : Port) (stroke : BitVec 64) (offset : Int) : LandsApart (execSync p stroke offset s) := by simp [execSync, h]

@[simp] theorem execDelayReq_apart (p : Port) (sentAt : BitVec 32) : LandsApart (execDelayReq p sentAt s) := by simp [execDelayReq, h]

@[simp] theorem execDelayResp_apart (p : Port) (down up : BitVec 32) : LandsApart (execDelayResp p down up s) := by simp [execDelayResp, h]

@[simp] theorem execSyncTimeout_apart : LandsApart (execSyncTimeout s) := by simp [execSyncTimeout, h]

@[simp] theorem execSleep_apart (p : Port) : LandsApart (execSleep p s) := by simp [execSleep, h]

end

/-! ## What a handover held -/

theorem execHeld_apart {s : State} (h : PairsApart s.hub.paths) (w : HeldWrite) : LandsApart (execHeld w s) := by
  cases w <;> simp [execHeld, h]

section
variable {c : Hub}

@[simp] theorem Hub.runWrite_apart (h : PairsApart c.paths) (m : Mems) (w : HeldWrite) : PairsApart (c.runWrite m w).1.paths := by
  have apart := execHeld_apart (s := ⟨[], c, m⟩) h w
  unfold Hub.runWrite
  split
  · next t done => exact apart t done
  · exact h

@[simp] theorem Hub.runHeld_apart (h : PairsApart c.paths) (m : Mems) (k : HeldKind) : PairsApart (c.runHeld m k).1.paths := by
  unfold Hub.runHeld
  repeat' split
  all_goals simp [h]

theorem Hub.runOrder_apart (ks : List HeldKind) : ∀ {c : Hub}, PairsApart c.paths → ∀ m : Mems, PairsApart (c.runOrder m ks).1.paths := by
  induction ks with
  | nil => exact fun h _ => h
  | cons k rest ih =>
    intro c h m
    unfold Hub.runOrder
    split
    · simp [h]
    · exact ih (Hub.runHeld_apart h m k) _

@[simp] theorem Hub.runAllHeld_apart (h : PairsApart c.paths) (m : Mems) : PairsApart (c.runAllHeld m).1.paths := by
  unfold Hub.runAllHeld
  extract_lets order ran flushed due reported
  have done : PairsApart ran.1.paths := Hub.runOrder_apart order (by simp [h]) m
  have apart : PairsApart flushed.1.paths := by
    simp only [flushed]
    split <;> simp [done]
  simp [reported, apart]

end

@[simp] theorem execHandoverComplete_apart {s : State} (h : PairsApart s.hub.paths) (recordsOk : Bool) (elapsed : BitVec 32) :
    LandsApart (execHandoverComplete recordsOk elapsed s) := by
  refine landsApart_onDomainsAll h ?_
  extract_lets st handed
  have same : handed.paths = s.hub.paths := by
    simp only [handed]
    repeat' split
    all_goals simp
  split
  · exact h
  · exact Hub.runAllHeld_apart (same ▸ h) s.mem

/-! ## The step -/

theorem exec_apart (i : Instr) {s : State} (h : PairsApart s.hub.paths) : LandsApart (exec i s) := by
  cases i <;> simp [exec, h]

/-- Settles O5: every command leaves the states of the pairs, lowers one, or raises one whose port has the other neither in Ramp nor in On. -/
theorem stepKeepsInterlock : Obligations.StepKeepsInterlock := by
  unfold Obligations.StepKeepsInterlock
  simp only [Hub.interlocked_iff]
  intro s t apart run
  suffices lands : LandsApart (step s) from lands t run
  unfold step
  split
  · simp [apart]
  · exact exec_apart _ (s := { s with pending := _ }) apart

end Sys2Proof.Machine
end
